-- ==== Sys2Proof/Word.lean ====
section
/-!
DEFINITION. The word types of the FJD-7440 model: 64-bit register and Shuttle words, and bytes.
-/

namespace Sys2Proof

/-- A 64-bit word: a control-space register (R10), a Shuttle register, a task word, a fault message. -/
abbrev Word := BitVec 64

/-- A byte of memory. -/
abbrev Byte := BitVec 8

end Sys2Proof
end

