-- ==== Sys2Proof/Syntax.lean ====
section
/-!
DEFINITION. The commands and events of the opcode table, one constructor per row, each with the operands its rule
speaks of: the instance it acts on, the values it brings from outside the block, and the values it writes.
-/

namespace Sys2Proof

/-- Sixteen bit times of one lane pair (R68): the sample each of the 18 physical ADC slices of lane 2a and of lane 2a+1 gives
in them, by slice number, signed and of 7 bits. -/
structure AdcSpan where
  lead : List Int := []
  trail : List Int := []
deriving DecidableEq, Repr

/-- What the converters of a lane pair gave up to an event of its path, since the path last took samples (R68). -/
structure PairSpans where
  act : Nat := 0
  spans : List AdcSpan := []
deriving DecidableEq, Repr

/-- What the converters of a lane pair gave up to a sector's preamble since the path last took samples, and over the first 32
bits of the preamble (R83). -/
structure GateSpans where
  before : List AdcSpan := []
  preamble : List AdcSpan := []
deriving DecidableEq, Repr

/-- A pool job that is stopped, with the iterations of the decode of it that runs, at the boundary where it stops (R128). -/
structure JobStop where
  job : Nat := 0
  iters : Nat := 0
deriving DecidableEq, Repr

/-- A gate that opens on an actuator at a tone-A phase (R151). -/
structure GatePhase where
  act : Nat := 0
  theta : Nat := 0
deriving DecidableEq, Repr

/-- How a stripe crossing went (R179): beyond f_A / 8 it cannot be counted; LOCKED fell during it; the tone-A cycles since the
channel's last event. -/
structure Crossing where
  fast : Bool := false
  unlock : Bool := false
  cycles : Nat := 0
deriving DecidableEq, Repr

/-- A host command by the name under which Tables 9.4, 10.3 and 10.5 know it. -/
inductive CmdClass where
  | flush
  | syncCache (immed : Bool)
  /-- an admin or management command other than those named below, or a SAS command of no overlap -/
  | admin
  /-- Namespace Management, create, with its Weave protection (R386) -/
  | namespaceCreate (protection : Nat)
  /-- NVMe Abort: the submission queue and command identifier it names -/
  | abort (sqid cid : Nat)
  /-- Format NVM, Sanitize, a zone management action on all zones -/
  | namespaceWide
  | read
  | compare
  | verify
  | copy
  | write
  | writeZeroes
  | writeUncorrectable
  | deallocate
  | zoneAppend
  /-- a zone management action on one zone -/
  | zoneAction
  /-- SAS COMPARE AND WRITE -/
  | compareAndWrite
  | kvStore
  | kvRetrieve
  | kvDelete
  | kvExist
  | kvList
  /-- a command outside Tables 10.3 and 10.5 -/
  | unsupported
  /-- a supported command with an unsupported option -/
  | invalidField
deriving DecidableEq, Repr

/-- What the host protocol's standard reads in a command: its name, its block range, the bytes its data holds, FUA, and
the key of a key-value command. -/
structure CmdInfo where
  cls : CmdClass
  nsid : Nat := 0
  slba : Nat := 0
  nlb : Nat := 0
  /-- bytes of a key-value command's data; a block command's follow from its format -/
  bytes : Nat := 0
  fua : Bool := false
  key : Nat := 0
  keyLen : Nat := 0
  /-- the ranges, first block and count, that the command deallocates or sanitises (R165) -/
  freed : List (Nat × Nat) := []
  /-- the LBA format, 0 to 2 of Table 10.4: of the namespace it names or, of a create or format command, the one asked for -/
  lbaf : Nat := 0
  /-- the protection information type that a create or format command asks for -/
  pi : Nat := 0
  /-- PRACT: protection information is generated on a write and stripped on a read (R388) -/
  pract : Bool := false
deriving DecidableEq, Repr

/-- A 64-byte submission entry, as eight words. -/
abbrev Sqe := List Word


/-- What an MCTP message on the sideband asks (R394, R395, Table 10.7). -/
inductive SideMsg where
  /-- MCTP control -/
  | control
  /-- NVMe-MI Read NVMe-MI Data Structure for subsystem and port information -/
  | miRead
  /-- another NVMe-MI command; health: it asks for the health of the tier and the HDA -/
  | miCommand (health : Bool)
  /-- an NVMe admin command tunnelled, as a 64-byte entry -/
  | miAdmin (entry : Sqe)
  /-- PLDM firmware update: RequestUpdate, a transfer's data, and the end or cancelling of the update -/
  | pldmRequestUpdate
  | pldmData
  | pldmEnd
  /-- another PLDM base command -/
  | pldmOther
  /-- SPDM: a request that opens no session -/
  | spdmRequest
  /-- SPDM FINISH of a session by its identifier; admin: the requester's certificate chains to the admin root -/
  | spdmFinish (session : Nat) (admin : Bool)
  | spdmEnd (session : Nat)
  /-- a request for health detail within a session -/
  | spdmHealth (session : Nat)
  /-- the vendor message that returns the last-records area (R580) -/
  | lastRecords
  | other
deriving DecidableEq, Repr

/-- What an Alasel patch blob holds (R312, R317, R582): the ROM identity it is for, its version, the match registers as
(ROM address, patch address), the two patch RAMs' words, and the SHA-384 of the signed blob. -/
structure PatchBlob where
  romId : Nat := 0
  version : Nat := 0
  matches_ : List (Nat × Nat) := []
  micro : List Nat := []
  nano : List Nat := []
  hash : Nat := 0
deriving DecidableEq, Repr

/-- An OTP field of Table 16.1. -/
inductive OtpField where
  | serial | secret | patchKey | root (j : Nat) | revoke | hdaRoot | adminRoot | svn | epoch | lcLog
deriving DecidableEq, Repr

/-- Root hashes a request carries, by j; none where it carries none. -/
abbrev RootList := List (Option Nat)

/-- A NOR slot image, if one is given. -/
abbrev DepotImage := Option (List Byte)

/-- The commands of spec/opcode_table.json. -/
inductive Instr where
  /-- REGISTER_WRITE (R12). A write to a control-space register with no row of its own sets or ignores its fields by their access codes. e: the writer, an engine index of R27, or 40 for a Bobbin descriptor; bytes: 4 or 8 -/
  | registerWrite (e : Nat) (addr : Nat) (bytes : Nat) (value : Word)
  /-- UNDECODED_ACCESS (R11). An access to an undefined offset, outside every window or populated region, above bit 39, or into the boot ROM or NOR window returns a bus error and sends FK_BUS_DECODE. e: who accesses, as for REGISTER_WRITE; addr may be wider than 40 bits -/
  | undecodedAccess (e : Nat) (addr : Nat) (bytes : Nat) (write : Bool)
  /-- POWER_ON (R598). VIN rises above 2.65 V; CKR holds power-on reset for 2 ms, sequences the rails and resumes drive time from the time store. depot: the image a depot has programmed into the NOR meanwhile, if it has -/
  | powerOn (depot : DepotImage)
  /-- RAIL_FAULT (R598). A rail below 90% of nominal or at its current limit for 10 µs is switched off and FK_CKR_RAIL is raised. k: the rail's order in Table 17.1, less one -/
  | railFault (k : Nat)
  /-- XTAL_FAULT (R603). The crystal stops or drifts beyond 1,000 ppm; FK_CKR_XTAL is raised and clocks move to the internal oscillator. -/
  | xtalFault
  /-- PLL_LOCK_LOSS (R602). A CKR PLL loses lock; its domain is gated and FK_CKR_PLL is raised. n: the PLL's place in the row order of Table 17.2 -/
  | pllLockLoss (n : Nat)
  /-- RST_N_ASSERT (R629). RST_N low for 25 consecutive samples starts a chip reset. -/
  | rstNAssert
  /-- CHIP_RESET (R605). A chip reset from CKR_RST.CHIP, CRESET or SEC announces the reset to the power die, stops the law lane, wipes SRAM and returns registers to reset. -/
  | chipReset
  /-- RESET_RELEASE (R605). Chip reset ends once RST_N is high and PLLs have locked; straps are sampled and core 0 starts the boot ROM. The straps as sampled -/
  | resetRelease (hostSel : Bool) (peMode : Bool)
  /-- OTP_READ (R568). SEC finishes reading the OTP, checking each field's SECDED and raising FK_SEC_OTP on damage. damaged: the fields in which SECDED finds an uncorrectable word -/
  | otpRead (damaged : List OtpField)
  /-- BOOT (R569). The boot ROM verifies the slot's hash, signature, SVN and trial marks and releases core 0 to the entry point, or enters the dead state. -/
  | boot
  /-- VIN_LOSS (R38). PWS detects VIN below 2.5 V for 1 µs and moves the rails to the hold-up converter; the power-loss sequence begins. -/
  | vinLoss
  /-- FLUSH_COMMIT (R496). The flush image's commit record, with the EVR power-loss record, is written. -/
  | flushCommit
  /-- QUIESCE_LOGIC (R600). Once actuators are parked and flush, life commit, EVR pages and time store are done, CKR holds cores and Shuttles and stops clocks. vm: VM in mV -/
  | quiesceLogic (vm : Nat)
  /-- VIN_RETURN (R40). VIN returns during the power-loss sequence; the sequence runs through the commit and the module performs a chip reset. -/
  | vinReturn
  /-- HOLD_UP_END (R599). The hold-up converter stops regulating and the rails fall in reverse order. -/
  | holdUpEnd
  /-- TIME_STORE_WRITE (R601). Every 60 s of drive time CKR writes drive time and the power-cycle count into the older copy of the time store. -/
  | timeStoreWrite
  /-- LINK_LOSS (R21). No law-lane slot arrives for 10 µs and the power die starts the autonomous retract, announced or unannounced. -/
  | linkLoss
  /-- RETRACT_END (R249). The autonomous retract's RETRACT_T and 3 ms hold end; the bridge short-brakes or stays at high impedance by cause. -/
  | retractEnd
  /-- FW_READY_WRITE (R607). Firmware writes CKR_FWREADY to raise or drop the HOST and MEDIA readiness bits. A write of CKR_FWREADY -/
  | fwReadyWrite (value : Word)
  /-- SHUTDOWN (R609). CKR_SHUTDOWN.GO writes the time store and sets DONE. -/
  | shutdown
  /-- PSP_FRAME_LAUNCH (R62). A write of HDL_PSP_CMD_a with GO launches a firmware preamp frame, or sets OVERRUN while busy. A write of HDL_PSP_CMD_a -/
  | pspFrameLaunch (a : Nat) (value : Word)
  /-- PSP_FRAME_END (R44). A preamp serial frame ends; read data loads HDL_PSP_RDATA_a and the port frees for the next granted requester. rdata: the 16 bits the preamp drove in a read frame -/
  | pspFrameEnd (a : Nat) (rdata : Nat)
  /-- PREAMP_FAULT (R50). PFLT_N_a stays low for 40 ns; HDL inhibits WG, reads the fault register and sends FK_PREAMP_FAULT. -/
  | preampFault (a : Nat)
  /-- HEADMAP_LOCK (R47). A write of LOCK checks the head map and locks it or reports ERR_CODE. A write of HDL_HEADMAP_LOCK -/
  | headmapLock (value : Word)
  /-- HEAD_SWITCH_REQUEST (R48). A write of HDL_HSEL_a requests a head switch, refused as HEAD_UNMAPPED or HEAD_DISABLED or queued for the port. A write of HDL_HSEL_a -/
  | headSwitchRequest (a : Nat) (head : Nat)
  /-- HEAD_SWITCH_DONE (R48). The select frame and HDL_HSW_SETTLE_a end; reader routing is applied and the switch reports done to SVG and CTE. -/
  | headSwitchDone (a : Nat)
  /-- TAG_AUTHENTICATION (R53). SEC releases HDL and the Dilon tag authentication sequence starts with GET_ID. -/
  | tagAuthentication
  /-- TAG_RESPONSE (R51). The Dilon tag answers a command; HDL and SEC act on it and move the tag state. The answer's values (the identity hash and serial, a counter value, or the five counters or limits), and whether its signature or chain verifies -/
  | tagResponse (values : List Nat) (good : Bool)
  /-- TAG_NO_RESPONSE (R51). A tag command draws no response within 200 ms or is NAKed. -/
  | tagNoResponse
  /-- TAG_RETRY (R51). 10 ms after a failed tag command, HDL retries it, up to two times. -/
  | tagRetry
  /-- TAG_REPAIR (R56). A write of HDL_TAG_REPAIR.GO re-pairs the tag to a new identity or refuses with DIRTY_FOR_OTHER_HDA. A write of HDL_TAG_REPAIR -/
  | tagRepair (value : Word)
  /-- LIFE_COMMIT (R58). HDL_LIFE_COMMIT.GO commits the shadow life deltas to the tag with INC_CTR. A write of HDL_LIFE_COMMIT -/
  | lifeCommit (value : Word)
  /-- LIFE_COMMIT_TIMER (R58). Every 4 h of drive time HDL starts a life commit. -/
  | lifeCommitTimer
  /-- HDL_BLOCK_RESET (R61). A block reset of HDL drops WG, abandons frames and pending head switches, and restarts tag and commit work. -/
  | hdlBlockReset
  /-- LANE_RATE_WRITE (R65). A write of LNE_RATE_a sets the pair's bit rate, deferred while in a run, or sets RANGE_ERR. A write of LNE_RATE_a -/
  | laneRateWrite (a : Nat) (rate : Nat)
  /-- RATE_LOCKED (R65). A lane synthesiser locks to the new rate and LOCKED rises. -/
  | rateLocked (a : Nat)
  /-- SECTOR_PREAMBLE_START (R89). The preamble of the next sector to read arrives; the live path claims a slot, reserves a queue entry and opens the read gate, or ends the run RETAIN_FULL. theta: tone-A phase at the gate; spans: what the lanes sampled up to the preamble, and its first 32 bits; preheated: PREHEAT has passed since the read-mode frame -/
  | sectorPreambleStart (a : Nat) (theta : Nat) (spans : GateSpans) (preheated : Bool)
  /-- ACQUIRE_END (R89). Bit 96 is reached and the live path switches to tracking gains and decision-directed loops. spans: the preamble's bits up to bit 96 -/
  | acquireEnd (a : Nat) (spans : List AdcSpan)
  /-- MARK_A_DECISION (R85). The mark A window is decided; LLRs stream from the alignment buffer or the path enters B_SEARCH. preamble, window: the samples of the rest of the preamble, and from mark A's window up to the decision -/
  | markADecision (a : Nat) (preamble : List AdcSpan) (window : List AdcSpan)
  /-- MARK_B_DECISION (R87). The mark B window is decided; the trailer is sent or a B_ONLY replay queued, completing the run after the last sector. preamble, window, codeword, trailer: with the next sector being read, its samples since the path last took some, up to the decision: of its preamble, of mark A's window, of its codeword and after it -/
  | markBDecision (a : Nat) (preamble : List AdcSpan) (window : List AdcSpan) (codeword : List AdcSpan) (trailer : List AdcSpan)
  /-- SPLICE_GAP_END (R89). The splice gap ends; the read gate closes and the path returns to ARMED or IDLE. p: the pair, and the sector's samples up to the end of its splice gap -/
  | spliceGapEnd (p : PairSpans)
  /-- PAIR_SLIP (R66). The pair Spool fill reaches 0 or 13; the sector takes PAIR_SLIP and FK_LANE_PAIR_SLIP is raised. p: the pair, and what one of its lanes sampled ahead of the other; full: lane 2a+1 ran ahead, writing it into the pair Spool; else lane 2a did, taking words with its own samples -/
  | pairSlip (p : PairSpans) (full : Bool)
  /-- FLAGGED_SPAN_OVERRUN (R81). A flagged defect span exceeds COAST_MAX bits; remaining LLRs are erased and the sector is LOST_LOCK. p: the pair, and its samples up to the overrun -/
  | flaggedSpanOverrun (p : PairSpans)
  /-- RETAIN_PIN (R94). LNE_RETAIN_a PIN pins a retention slot or returns RETAIN_LOST or PIN_LIMIT. -/
  | retainPin (a : Nat) (slot : Nat) (seq : Nat)
  /-- RETAIN_UNPIN (R94). LNE_RETAIN_a UNPIN releases a slot's pin. -/
  | retainUnpin (a : Nat) (slot : Nat) (seq : Nat)
  /-- REPLAY_REQUEST (R108). LNE_REPLAY_a GO queues a firmware replay or refuses it. A write of LNE_REPLAY_a -/
  | replayRequest (a : Nat) (value : Word)
  /-- REPLAY_START (R95). A replay reaches the head of the queue and, once a queue entry is free, starts detecting from its slot. -/
  | replayStart (a : Nat)
  /-- REPLAY_DONE (R96). A replay ends, sending its packet with REPLAY = 1 or completing with a replay status. eccY, eccFlags, eccMarks: an uncorrectable error reading the slot's samples, its defect flags, its mark positions -/
  | replayDone (a : Nat) (eccY : Bool) (eccFlags : Bool) (eccMarks : Bool)
  /-- LANE_BLOCK_RESET (R92). A block reset of lane pair a ends its run LANE_RESET, empties replays, invalidates slots and pins. -/
  | laneBlockReset (a : Nat)
  /-- TRAILER_ARRIVAL (R115). A sector's trailer word arrives in its queue entry, setting the entry READY with a deadline, or freeing it with a record. poisoned: the LLR words that arrive poisoned, by index; poisonTrailer: the trailer word does -/
  | trailerArrival (a : Nat) (poisoned : List Nat) (poisonTrailer : Bool)
  /-- DECODER_SELECT (R119). An idle decoder selects work by class and is granted an entry by its queue. decoders: the idle decoders that select in this cycle; loadErr: an uncorrectable error while loading the entry -/
  | decoderSelect (decoders : List Nat) (loadErr : Bool)
  /-- DECODE_CONVERGED (R114). A decode reaches a zero syndrome and checks the CRC, writing back or counting a miscorrection. iters: iterations of this attempt; data: the 4,112 information bytes of the codeword -/
  | decodeConverged (d : Nat) (iters : Nat) (data : List Byte)
  /-- DECODE_CAP (R121). A decode reaches its iteration cap and fails; rung 2 continues, the entry goes HELD, or the next rung proceeds. -/
  | decodeCap (d : Nat)
  /-- EARLY_PIN (R126). A live decode reaches EARLY_ITER iterations without converging and the pool pins its slot. -/
  | earlyPin (d : Nat)
  /-- DECODE_YIELD (R121). At an eighth iteration a recovery decode yields to an urgent live entry, writing back posteriors. iters: iterations of this attempt, a multiple of 8 -/
  | decodeYield (d : Nat) (iters : Nat)
  /-- WRITEBACK_DONE (R123). The last write response of a sector's write-back arrives and its completion record is posted. -/
  | writebackDone (a : Nat) (job : Nat) (err : Bool)
  /-- DECODE_DEADLINE (R118). A live entry's deadline passes with its decode unfinished; FK_DCP_DEADLINE is raised. -/
  | decodeDeadline (a : Nat) (entry : Nat)
  /-- ENTRY_URGENT (R118). A live entry's slack falls below URGENT_SLACK and it becomes urgent. -/
  | entryUrgent (a : Nat) (entry : Nat)
  /-- RECOVERY_JOB_AGED (R119). A recovery job waits RCV_AGE sector times and is lifted to class 1. -/
  | recoveryJobAged (a : Nat) (entry : Nat)
  /-- RECOVERY_TIMEOUT (R128). HW_LIMIT passes since the live failure; remaining pool rungs are abandoned with TIMEOUT = 1. job: the job, and the iterations of the decode of it that runs, at the boundary where it stops -/
  | recoveryTimeout (a : Nat) (job : JobStop)
  /-- DCP_CPL_READ (R123). A 64-bit read of DCP_CPL_a pops the oldest completion record. -/
  | dcpCplRead (a : Nat)
  /-- DCP_SUBMIT (R141). DCP_SUBMIT_a GO submits a firmware recovery job. -/
  | dcpSubmit (a : Nat) (value : Word)
  /-- DECODER_MEMORY_ERROR (R137). A decoder finds an error in its own memories, returns its entry and is disabled in DEC_EN. -/
  | decoderMemoryError (d : Nat)
  /-- DCP_BLOCK_RESET (R135). A block reset of DCP discards entries and jobs, frees contexts and resets every lane pair. -/
  | dcpBlockReset
  /-- SECTOR_FETCH_DONE (R149). A write run's sector data arrives from the buffer and is encoded, or a bus error ends the run DATA_ECC. The sector of the run on actuator a; err: the fetch met a bus error -/
  | sectorFetchDone (a : Nat) (sector : Nat) (err : Bool)
  /-- DATA_LATE (R149). A sector's data is not complete 64 bits before its slot and the run ends DATA_LATE. -/
  | dataLate (a : Nat)
  /-- PREHEAT_SLIP (R154). The write-mode frame ends too late for PREHEAT and the write waits a revolution. -/
  | preheatSlip (a : Nat)
  /-- WG_RISE (R151). WG_a rises WG_LEAD bits before the run's first preamble. g: the actuator, and the tone-A phase at the gate -/
  | wgRise (g : GatePhase)
  /-- SECTOR_WRITTEN (R157). A sector's last postamble bit is written with WG high and it counts as written. -/
  | sectorWritten (a : Nat)
  /-- WRITE_RUN_END (R156). WG falls WG_TRAIL bits after the last postamble, the run ends OK and the read-mode frame is sent. -/
  | writeRunEnd (a : Nat)
  /-- WRP_BLOCK_RESET (R157). A block reset of WRP drops WG and ends the run WRP_RESET with the sector cut. -/
  | wrpBlockReset
  /-- PES_SAMPLE (R177). At each 0.5 µs strobe SVG demodulates its window into PES and flags, and CTE updates the observer. newer, older: the ADC samples of the last half microsecond and of the one before, trimmed, the newest first; boundary: while ANG_VALID = 0, how many of them follow the last symbol boundary; fA, theta: tone-A frequency and phase; cycles: tone-A cycles since the channel's last event -/
  | pesSample (a : Nat) (newer : List Int) (older : List Int) (boundary : Option Nat) (fA : Nat) (theta : Nat) (cycles : Nat)
  /-- TONE_LOCK (R176). The phase error stays below 1/64 cycle for 16 samples and LOCKED rises. -/
  | toneLock (a : Nat)
  /-- STRIPE_CROSSING (R179). SVG counts a stripe crossing, updating the carried track, clearing ID_CONF and presetting the oscillator at a zone change. inward: the tone-B side was left for the next stripe; x: how the crossing went -/
  | stripeCrossing (a : Nat) (inward : Bool) (x : Crossing)
  /-- IDENTITY_FRAME (R180). An identity frame ends and is accepted or rejected, acting on the carried track and ANGLE. symbols: the 64 symbols, the first in bit 63; cycles: tone-A cycles since the channel's last event -/
  | identityFrame (a : Nat) (symbols : Nat) (cycles : Nat)
  /-- SVG_BLOCK_RESET (R184). A block reset of an SVG channel clears TRK_VALID, ID_CONF, ANG_VALID and LOCKED. -/
  | svgBlockReset (a : Nat)
  /-- LAW_TICK (R192). At a law boundary CTE applies writes, evaluates transitions, selects the active set and computes VCM and microactuator drive. n: the context; ain: the AIN_SETPT code -/
  | lawTick (n : Nat) (ain : Nat)
  /-- SETTLE_CRITERIA_MET (R197). The error stays within SETTLE_LIM for SETTLE_CNT ticks on target and the actuator enters FOLLOW. -/
  | settleCriteriaMet (a : Nat)
  /-- OFF_TRACK_CLEAR (R198). OT_CLR consecutive clean samples lower the off-track flag. -/
  | offTrackClear (a : Nat)
  /-- RESIDUAL_FAIL (R202). The observer residual exceeds its limit on CTE_RES_CNT_n LIN samples; the off-track flag rises and HOLD follows. -/
  | residualFail (a : Nat)
  /-- COAST_MAX_REACHED (R203). COAST_MAX consecutive invalid samples send the context to HOLD with cause SVG_LOST. -/
  | coastMaxReached (a : Nat)
  /-- LOAD_STRIPE_FOUND (R193). SUM reaches LOAD_SUM on 8 consecutive samples and LOADING enters ACQUIRE. -/
  | loadStripeFound (a : Nat)
  /-- LOAD_TIMEOUT (R193). LOAD_TMO elapses in LOADING; LOAD completes LOAD_FAIL and the actuator unloads. -/
  | loadTimeout (a : Nat)
  /-- ACQUIRE_TIMEOUT (R193). ACQ_TMO elapses in ACQUIRE or REACQ without TRK_VALID and the actuator enters HOLD. -/
  | acquireTimeout (a : Nat)
  /-- SETTLE_TIMEOUT (R193). SETTLE_TMO passes in SETTLE with a seek pending, which completes SEEK_TIMEOUT. -/
  | settleTimeout (a : Nat)
  /-- HOLD_TIMEOUT (R204). HOLD_TMO elapses in HOLD and the actuator unloads. -/
  | holdTimeout (a : Nat)
  /-- UNLOAD_DRIVE_END (R207). UNLOAD_T ends and CTE holds UNLOAD_I / 4 for PHOLD_T. -/
  | unloadDriveEnd (a : Nat)
  /-- PARK_HOLD_END (R207). PHOLD_T ends and the actuator is PARKED. -/
  | parkHoldEnd (a : Nat)
  /-- CTE_SEEK (R216). CTE_SEEK_a GO issues a firmware seek. A write of CTE_SEEK_a -/
  | cteSeek (a : Nat) (value : Word)
  /-- LOAD (R206). CTE_CMD_a LOAD loads the heads from the ramp or refuses. -/
  | load (a : Nat)
  /-- PARK (R217). CTE_CMD_a PARK unloads the actuator, overriding a pending LOAD or RESUME. -/
  | park (a : Nat)
  /-- RESUME (R204). CTE_CMD_a RESUME leaves HOLD for ACQUIRE. -/
  | resume (a : Nat)
  /-- EXT_ENABLE (R205). A write of CTE_EXT_CTL.EN enables the external set-point or is refused. A write of CTE_EXT_CTL -/
  | extEnable (value : Word)
  /-- CTE_BLOCK_RESET (R209). A block reset of CTE zeroes observer states if every actuator is PARKED, otherwise is refused. -/
  | cteBlockReset
  /-- START (R240). SPN_CMD START starts the spindle from SENSE or is refused. -/
  | start
  /-- STOP (R241). SPN_CMD STOP parks and brakes the spindle. -/
  | stop
  /-- CLEAR (R240). SPN_CMD CLEAR leaves FAULT for OFF or is refused. -/
  | clear
  /-- SET_SPEED_WRITE (R228). A write of SPN_SPEED.SET changes the set speed or sets RANGE or REFUSED. A write of SPN_SPEED -/
  | setSpeedWrite (value : Word)
  /-- BEMF_CROSSING (R233). A measured back-EMF crossing updates the spindle observer and serves as a commutation boundary. dt: time since the previous crossing event, 2.5 ns units; sector: the crossing's electrical angle in sixths of a cycle -/
  | bemfCrossing (dt : Nat) (sector : Nat) (forward : Bool)
  /-- PREDICTED_CROSSING (R231). A crossing whose window is not opened is predicted and serves as the commutation boundary. -/
  | predictedCrossing
  /-- CROSSING_WINDOW_TIMEOUT (R232). An open window reaches 1.5 P after the previous crossing without a crossing and LOS is declared. -/
  | crossingWindowTimeout
  /-- SENSE_END (R236). The 24 ms SENSE listen ends and SPN goes to CATCH, BRAKE_REV or BRAKE_SETTLE. speed: 0.01 rpm -/
  | senseEnd (speed : Nat) (backward : Bool)
  /-- BRAKE_REV_END (R237). 200 ms of reverse braking ends and SPN senses again. -/
  | brakeRevEnd
  /-- BRAKE_REV_TIMEOUT (R237). 5 s since START elapses in BRAKE_REV and SPN enters FAULT. -/
  | brakeRevTimeout
  /-- BRAKE_SETTLE_END (R237). 200 ms of settle braking ends and SPN aligns. -/
  | brakeSettleEnd
  /-- ALIGN_END (R238). ALIGN_T ends and the open-loop ramp begins. -/
  | alignEnd
  /-- RAMP_TIMEOUT (R237). 800 ms of RAMP without closing the loop retries the start or enters FAULT. -/
  | rampTimeout
  /-- CATCH_TIMEOUT (R237). 50 ms in CATCH without valid crossings goes to BRAKE_SETTLE or UNLOAD_WAIT. -/
  | catchTimeout
  /-- SPINUP_TIMEOUT (R237). SPINUP_TMO since START passes before RUN and SPN enters FAULT. -/
  | spinupTimeout
  /-- BRAKE_END (R237). No back-EMF above 20 mV for 200 ms ends braking in OFF and completes STOP. -/
  | brakeEnd
  /-- AT_SPEED_CHANGE (R239). Four revolutions within ±0.01% raise AT_SPEED, or two outside ±0.05% lower it. -/
  | atSpeedChange
  /-- SPSYNC_EDGE (R245). An SPSYNC edge is accepted or rejected and sets the reference speed for the next revolution. dt: time since the previous accepted edge, 2.5 ns units -/
  | spsyncEdge (rising : Bool) (dt : Nat)
  /-- SYNC_FREE (R245). No SPSYNC edge is accepted for two revolutions and SYNC becomes FREE. -/
  | syncFree
  /-- SPN_BLOCK_RESET (R242). A block reset of SPN leaves OFF if every actuator is PARKED, otherwise is refused. -/
  | spnBlockReset
  /-- VM_LOW (R250). VM below 9.5 V for 10 µs clears VM_OK, raises FK_PWS_VM_LOW and sends SPN to RECTIFY. mv: VM in mV -/
  | vmLow (mv : Nat)
  /-- VM_OK_RISE (R250). VM rises to 10.0 V and VM_OK is set. mv: VM in mV -/
  | vmOkRise (mv : Nat)
  /-- CLAMP_ON (R250). VM reaches CLAMP_V and the brake chopper turns on. mv: VM in mV -/
  | clampOn (mv : Nat)
  /-- CLAMP_OFF (R250). VM falls to CLAMP_V − 0.2 V and the chopper turns off. mv: VM in mV -/
  | clampOff (mv : Nat)
  /-- VM_TRIP (R254). VM reaches 15.6 V; the bridge floats, VM_TRIP and RESTART_BLOCK set, ERR_N asserts. mv: VM in mV -/
  | vmTrip (mv : Nat)
  /-- CHOP_OPEN (R252). An open chopper for 20 µs clears REGEN_EN and raises FK_PWS_CHOP_OPEN. ma: chopper current in mA -/
  | chopOpen (ma : Nat)
  /-- CHOP_STUCK (R253). A stuck-on chopper for 20 µs asserts ERR_N, enters the safe state and asks for power removal. ma: chopper current in mA -/
  | chopStuck (ma : Nat)
  /-- THERMAL_WARNING (R250). The power die reaches 145 °C and FK_PWS_THERMAL is raised at severity 4. temp: 0.25 °C -/
  | thermalWarning (temp : Nat)
  /-- THERMAL_SHUTDOWN (R250). The power die reaches 170 °C; the heads retract and the bridge floats. temp: 0.25 °C -/
  | thermalShutdown (temp : Nat)
  /-- VCM_SHORT (R247). VCM current above 2.0 A for 1 µs turns the driver off and raises FK_PWS_VCM_SHORT. -/
  | vcmShort (a : Nat)
  /-- BOOST_FAULT (R248). The boost below 32 V for 100 µs zeroes every microactuator and raises FK_PWS_BOOST. -/
  | boostFault
  /-- BOOST_OK (R248). The microactuator boost reaches regulation and reports BOOST_OK. -/
  | boostOk
  /-- PWS_FAULT_CLEAR (R254). A W1C write to PWS_FAULT clears latches, VM_TRIP only below 13.2 V, releasing RESTART_BLOCK and ERR_N holds. A write of PWS_FAULT -/
  | pwsFaultClear (value : Word)
  /-- PWS_BLOCK_RESET (R267). A block reset of PWS keeps every fault latch. -/
  | pwsBlockReset
  /-- SHUTTLE_ENABLE (R274). Setting SHT_S_CTL_s.EN moves the Shuttle from OFF to IDLE. k: the Shuttle -/
  | shuttleEnable (k : Nat)
  /-- SHUTTLE_RESET (R311). SHT_S_CTL_s.RESET aborts runs, detaches seeks, discards frames and frees tags. -/
  | shuttleReset (k : Nat)
  /-- SHUTTLE_DISABLE (R311). Clearing EN resets the Shuttle and leaves it OFF. -/
  | shuttleDisable (k : Nat)
  /-- SHUTTLE_RESUME (R274). SHT_S_CTL_s.RESUME leaves TRAPPED, discarding the faulting task. -/
  | shuttleResume (k : Nat)
  /-- SHT_BLOCK_RESET (R311). A block reset of SHT resets every Shuttle and abandons SHT_LOAD. -/
  | shtBlockReset
  /-- TASK_TAKE (R302). An idle Shuttle takes a ready frame, its own deque's bottom, the injection queue's head or a stolen task. -/
  | taskTake (k : Nat)
  /-- TRAP (R310). A trap condition stops the task, records SHT_TRAP_s and sends FK_SHT_TRAP. cause: 6 for an uncorrectable error in local store at addr, 7 for one in a patch RAM; else the Shuttle's fetch alone -/
  | trap (k : Nat) (cause : Nat) (addr : Nat)
  /-- TASK_TIMEOUT (R310). A task occupies its Shuttle for SHT_TASK_TMO µs and traps with TASK_TMO. -/
  | taskTimeout (k : Nat)
  /-- STALL_RELEASE (R274). The unit a stalled instruction waits on answers and the instruction retires. tag: below 9 a media operation of that tag that waits for a run context, else the stalled instruction -/
  | stallRelease (k : Nat) (tag : Nat)
  /-- WAIT_EVENT (R299). A waited event becomes true and the WAIT retires with 0. -/
  | waitEvent (k : Nat)
  /-- WAIT_TIMEOUT (R299). A WAIT's timeout expires before its event and returns WAIT_TMO. -/
  | waitTimeout (k : Nat)
  /-- FRAME_READY (R305). A yielded frame's event becomes true or its deadline passes and the frame becomes ready. By frame f's deadline, or else by its event -/
  | frameReady (k : Nat) (f : Nat) (deadline : Bool)
  /-- MEDIA_OP_COMPLETE (R283). A media operation completes, writing descriptor word 6 with WB = 1 and freeing its tag. tag: 8 for the synchronous operation -/
  | mediaOpComplete (k : Nat) (tag : Nat)
  /-- MEDIA_TIMEOUT (R287). A media operation's TIMEOUT expires and it ends MEDIA_TMO. -/
  | mediaTimeout (k : Nat) (tag : Nat)
  /-- NOP (R276). Does nothing. -/
  | nop (k : Nat)
  /-- HALT (R307). Ends the task once its tags have completed. -/
  | halt (k : Nat)
  /-- B (R276). Branches unconditionally. -/
  | b (k : Nat) (imm : Nat)
  /-- BZ (R276). Branches if RS is zero. -/
  | bz (k : Nat) (rs : Nat) (imm : Nat)
  /-- BNZ (R276). Branches if RS is non-zero. -/
  | bnz (k : Nat) (rs : Nat) (imm : Nat)
  /-- BEQ (R276). Branches if RD equals RS. -/
  | beq (k : Nat) (rd : Nat) (rs : Nat) (imm : Nat)
  /-- BNE (R276). Branches if RD differs from RS. -/
  | bne (k : Nat) (rd : Nat) (rs : Nat) (imm : Nat)
  /-- BLT (R276). Branches if RD is below RS, signed. -/
  | blt (k : Nat) (rd : Nat) (rs : Nat) (imm : Nat)
  /-- BGE (R276). Branches if RD is at or above RS, signed. -/
  | bge (k : Nat) (rd : Nat) (rs : Nat) (imm : Nat)
  /-- BLTU (R276). Branches if RD is below RS, unsigned. -/
  | bltu (k : Nat) (rd : Nat) (rs : Nat) (imm : Nat)
  /-- BGEU (R276). Branches if RD is at or above RS, unsigned. -/
  | bgeu (k : Nat) (rd : Nat) (rs : Nat) (imm : Nat)
  /-- BLS (R276). Branches on a condition of LS. -/
  | bls (k : Nat) (rd : Nat) (imm : Nat)
  /-- CALL (R276). Saves the return address in RD and branches. -/
  | call (k : Nat) (rd : Nat) (imm : Nat)
  /-- RET (R276). Jumps to the address in RS. -/
  | ret (k : Nat) (rs : Nat)
  /-- MOV (R276). Copies RS to RD. -/
  | mov (k : Nat) (rd : Nat) (rs : Nat)
  /-- ADD (R276). Adds RS to RD. -/
  | add (k : Nat) (rd : Nat) (rs : Nat)
  /-- SUB (R276). Subtracts RS from RD. -/
  | sub (k : Nat) (rd : Nat) (rs : Nat)
  /-- AND (R276). Bitwise AND of RD and RS. -/
  | and (k : Nat) (rd : Nat) (rs : Nat)
  /-- OR (R276). Bitwise OR of RD and RS. -/
  | or (k : Nat) (rd : Nat) (rs : Nat)
  /-- XOR (R276). Bitwise XOR of RD and RS. -/
  | xor (k : Nat) (rd : Nat) (rs : Nat)
  /-- SHL (R276). Shifts RD left by RS. -/
  | shl (k : Nat) (rd : Nat) (rs : Nat)
  /-- SHR (R276). Shifts RD right logically by RS. -/
  | shr (k : Nat) (rd : Nat) (rs : Nat)
  /-- SAR (R276). Shifts RD right arithmetically by RS. -/
  | sar (k : Nat) (rd : Nat) (rs : Nat)
  /-- MUL (R276). Multiplies RD by RS, keeping the low 64 bits. -/
  | mul (k : Nat) (rd : Nat) (rs : Nat)
  /-- GETLS (R276). Copies LS to RD. -/
  | getls (k : Nat) (rd : Nat)
  /-- TIME (R276). Returns nanoseconds since chip reset in RD. -/
  | time (k : Nat) (rd : Nat)
  /-- LDI (R276). Loads a sign-extended immediate into RD. -/
  | ldi (k : Nat) (rd : Nat) (imm : Nat)
  /-- MOVK (R276). Inserts a 16-bit immediate into RD at halfword k. -/
  | movk (k : Nat) (rd : Nat) (rs : Nat) (imm : Nat)
  /-- ADDI (R276). Adds a sign-extended immediate to RS into RD. -/
  | addi (k : Nat) (rd : Nat) (rs : Nat) (imm : Nat)
  /-- ANDI (R276). ANDs RS with a zero-extended immediate into RD. -/
  | andi (k : Nat) (rd : Nat) (rs : Nat) (imm : Nat)
  /-- ORI (R276). ORs RS with a zero-extended immediate into RD. -/
  | ori (k : Nat) (rd : Nat) (rs : Nat) (imm : Nat)
  /-- XORI (R276). XORs RS with a zero-extended immediate into RD. -/
  | xori (k : Nat) (rd : Nat) (rs : Nat) (imm : Nat)
  /-- SHLI (R276). Shifts RS left by an immediate into RD. -/
  | shli (k : Nat) (rd : Nat) (rs : Nat) (imm : Nat)
  /-- SHRI (R276). Shifts RS right logically by an immediate into RD. -/
  | shri (k : Nat) (rd : Nat) (rs : Nat) (imm : Nat)
  /-- SARI (R276). Shifts RS right arithmetically by an immediate into RD. -/
  | sari (k : Nat) (rd : Nat) (rs : Nat) (imm : Nat)
  /-- EXTR (R276). Extracts a bit field of RS into RD. -/
  | extr (k : Nat) (rd : Nat) (rs : Nat) (imm : Nat)
  /-- LD (R278). Loads a 64-bit local-store word. -/
  | ld (k : Nat) (rd : Nat) (rs : Nat) (imm : Nat)
  /-- ST (R278). Stores a 64-bit local-store word. -/
  | st (k : Nat) (rd : Nat) (rs : Nat) (imm : Nat)
  /-- LD32 (R278). Loads a zero-extended 32-bit local-store word. -/
  | ld32 (k : Nat) (rd : Nat) (rs : Nat) (imm : Nat)
  /-- ST32 (R278). Stores a 32-bit local-store word. -/
  | st32 (k : Nat) (rd : Nat) (rs : Nat) (imm : Nat)
  /-- SEEK (R286). Issues a media seek, with a head switch if needed, after the checks of R284. -/
  | seek (k : Nat) (rd : Nat) (imm : Nat)
  /-- RDRUN (R286). Claims a run context and arms the lane pair for a sector run. -/
  | rdrun (k : Nat) (rd : Nat) (imm : Nat)
  /-- WRRUN (R286). Hands a write run to WRP. -/
  | wrrun (k : Nat) (rd : Nat) (imm : Nat)
  /-- VERIFY (R286). Runs a rung-1-only read run. -/
  | verify (k : Nat) (rd : Nat) (imm : Nat)
  /-- MABORT (R287). Aborts or detaches the media operation of a tag. -/
  | mabort (k : Nat) (rs : Nat)
  /-- BLD (R279). Reads 64 bits from a fabric address. -/
  | bld (k : Nat) (rd : Nat) (rs : Nat) (imm : Nat)
  /-- BST (R279). Writes 64 bits to a fabric address. -/
  | bst (k : Nat) (rd : Nat) (rs : Nat) (imm : Nat)
  /-- BLD32 (R279). Reads 32 bits from a fabric address. -/
  | bld32 (k : Nat) (rd : Nat) (rs : Nat) (imm : Nat)
  /-- BST32 (R279). Writes 32 bits to a fabric address. -/
  | bst32 (k : Nat) (rd : Nat) (rs : Nat) (imm : Nat)
  /-- BIN (R280). Copies lines from fabric into local store. -/
  | bin (k : Nat) (rd : Nat) (rs : Nat) (imm : Nat)
  /-- BOUT (R280). Copies lines from local store to fabric. -/
  | bout (k : Nat) (rd : Nat) (rs : Nat) (imm : Nat)
  /-- SUBMIT (R290). Submits a recovery job to the decoder pool. -/
  | submit (k : Nat) (rd : Nat) (rs : Nat)
  /-- AWAIT (R291). Pops the oldest decode record of an actuator, waiting if asked. -/
  | await (k : Nat) (rd : Nat) (rs : Nat) (imm : Nat)
  /-- PUSH (R292). Writes a word to a firmware Spool. -/
  | push (k : Nat) (rs : Nat) (imm : Nat)
  /-- POP (R292). Reads a word from a firmware Spool. bad: the parity of the word popped fails -/
  | pop (k : Nat) (rd : Nat) (imm : Nat) (bad : Bool)
  /-- SPDROP (R292). Drops the rest of the current packet of a Spool. -/
  | spdrop (k : Nat) (imm : Nat)
  /-- SLOT_STATUS (R294). Returns a Galley slot's status word. -/
  | slotStatus (k : Nat) (rd : Nat) (rs : Nat)
  /-- COMPLETE (R295). Gives a Galley slot its outcome word. -/
  | complete (k : Nat) (rd : Nat) (rs : Nat)
  /-- HOLD (R296). Places or releases a completion hold on a slot. -/
  | hold (k : Nat) (rs : Nat) (imm : Nat)
  /-- WAIT (R298). Waits for an event with an optional timeout. -/
  | wait (k : Nat) (rd : Nat) (rs : Nat) (imm : Nat)
  /-- SPAWN (R304). Pushes a task word to a deque. -/
  | spawn (k : Nat) (rs : Nat) (imm : Nat)
  /-- YIELD (R305). Saves a frame and frees the Shuttle. -/
  | yield (k : Nat) (rd : Nat) (rs : Nat) (imm : Nat)
  /-- BARRIER (R308). Arrives at a LOOM barrier with a contribution and stalls. -/
  | barrier (k : Nat) (rd : Nat) (rs : Nat) (imm : Nat)
  /-- SHT_LOAD (R324). SHT_LOAD GO copies a code image into the selected Shuttles or is refused. A write of SHT_LOAD -/
  | shtLoad (value : Word)
  /-- SHT_LOAD_DONE (R324). The code load finishes or stops with BUS_ERR. -/
  | shtLoadDone
  /-- LS_PORT_ACCESS (R327). An access to SHT_LS_PORT_DATA reads or writes a disabled Shuttle's local store. -/
  | lsPortAccess (write : Bool) (value : Word)
  /-- PATCH_LOAD (R582). SEC_PATCH_CMD GO verifies, decrypts and loads a microcode patch into the patch RAMs. A write of SEC_PATCH_CMD; what SEC finds in the blob -/
  | patchLoad (value : Word) (sigOk : Bool) (tagOk : Bool) (blob : PatchBlob)
  /-- LOOM_INJECT (R300). A write of LOOM_INJECT pushes a Shuttle task word into the injection queue. -/
  | loomInject (value : Word)
  /-- LOOM_PUSH (R304). A write of LOOM_PUSH_e pushes a task word to the bottom of deque e. e: the engine index -/
  | loomPush (e : Nat) (value : Word)
  /-- LOOM_TAKE (R518). A read of LOOM_TAKE_e takes from a deque's bottom or steals for a core. c: the reader's engine index; a read of LOOM_TAKE_e -/
  | loomTake (c : Nat) (e : Nat)
  /-- LOOM_BAR_ARRIVE (R308). A core's write of LOOM_BAR_ARRIVE_b arrives at a barrier. c: the core -/
  | loomBarArrive (c : Nat) (b : Nat) (value : Word)
  /-- BARRIER_RELEASE (R308). All members have arrived; LOOM combines contributions and releases them. -/
  | barrierRelease (b : Nat)
  /-- BARRIER_TIMEOUT (R309). TIMEOUT µs pass since a generation's first arrival; it ends with BAR_TIMEOUT. -/
  | barrierTimeout (b : Nat)
  /-- LOOM_BAR_CFG_WRITE (R309). A write of LOOM_BAR_CFG_b configures a barrier or is refused mid-generation. -/
  | loomBarCfgWrite (b : Nat) (value : Word)
  /-- LOOM_BLOCK_RESET (R311). A block reset of LOOM empties every deque and the injection queue and ends barriers. -/
  | loomBlockReset
  /-- DOORBELL (R328). A host doorbell write updates a queue context's SQ tail or CQ head. p: the controller; qid: the queue identifier; cq: the completion head, else the submission tail -/
  | doorbell (p : Nat) (qid : Nat) (cq : Bool) (value : Nat)
  /-- FETCH (R331). Galley grants a fetch to a queue and reads its taken entries from host memory. entries: what host memory holds from the granted queue's head on, eight words each; err: the fetch ends in a PCIe error -/
  | fetch (entries : List Sqe) (err : Bool)
  /-- COMMAND_ACCEPTANCE (R336). A fetched command takes a slot, its ASN and overlap entry, and zone checks. info: the oldest fetched command as its standard reads it; slot: the free slot Galley takes -/
  | commandAcceptance (info : CmdInfo) (slot : Nat)
  /-- FUSED_WAIT_TIMEOUT (R332). A fused first half waits 1 ms for its second half and is fetched alone. q: the context; entry: the first half -/
  | fusedWaitTimeout (q : Nat) (entry : List Word)
  /-- SAS_COMMAND_FRAME (R333). A SAS command frame is accepted into a slot or refused as overlapped. attr: 0 SIMPLE, 1 ORDERED, 2 HEAD OF QUEUE; info.nsid: the logical unit + 1 -/
  | sasCommandFrame (port : Nat) (nexus : Nat) (tag : Nat) (attr : Nat) (cmd : List Word) (info : CmdInfo) (slot : Nat)
  /-- DISPATCH (R355). A dormant command's gates open and Galley dispatches it, serves a full hit or requests a reservation. -/
  | dispatch (slot : Nat)
  /-- DISPATCH_RETRY (R337). Every 1 µs Galley retries pushing a work item to a full deque. -/
  | dispatchRetry
  /-- BUDGET_RESERVATION (R357). A write's reservation is granted in ASN order and its host transfer starts. addr: the free buffer space Galley takes -/
  | budgetReservation (slot : Nat) (addr : Nat)
  /-- LANDED (R336). A write's last write response arrives; its version enters the index and it is gated or goes to a media write. res: 0 good, 1 a read failed, 2 a write failed, 3 guard, 4 application tag, 5 reference tag check failed; data: the bytes as the buffer stores them -/
  | landed (slot : Nat) (res : Nat) (data : List Byte)
  /-- COMPLETION_POST (R356). A GATED slot meets every posting condition and Galley posts its completion and frees it. -/
  | completionPost (slot : Nat)
  /-- GLY_SLOT_STATUS (R375). GLY_SLOT_CMD_c STATUS returns a slot's status word. A write of GLY_SLOT_CMD_c -/
  | glySlotStatus (c : Nat) (value : Word)
  /-- GLY_COMPLETE (R375). GLY_SLOT_CMD_c COMPLETE gives a slot its outcome word. A write of GLY_SLOT_CMD_c -/
  | glyComplete (c : Nat) (value : Word)
  /-- HOLD_ADD (R375). GLY_SLOT_CMD_c adds a hold to a slot. A write of GLY_SLOT_CMD_c -/
  | holdAdd (c : Nat) (value : Word)
  /-- HOLD_RELEASE (R375). GLY_SLOT_CMD_c releases a hold on a slot. A write of GLY_SLOT_CMD_c -/
  | holdRelease (c : Nat) (value : Word)
  /-- LOOKUP (R345). Returns the write-buffer versions a read of the given ASN sees. A write of GLY_WB_CMD_c -/
  | lookup (c : Nat) (value : Word)
  /-- BEGIN (R346). Marks versions as being destaged or answers BLOCKED. A write of GLY_WB_CMD_c -/
  | begin (c : Nat) (value : Word)
  /-- END_OK (R345). Confirms a destage, releasing budget and making posted writes durable. A write of GLY_WB_CMD_c -/
  | endOk (c : Nat) (value : Word)
  /-- END_FAIL (R345). Clears destage marks and leaves the data dirty. A write of GLY_WB_CMD_c -/
  | endFail (c : Nat) (value : Word)
  /-- PIN (R345). Removes blocks from write-buffer lookup. A write of GLY_WB_CMD_c -/
  | pin (c : Nat) (value : Word)
  /-- NVME_ABORT (R360). Galley answers an NVMe Abort itself, aborting a dormant command or setting ABORT_REQ. p: the controller, whose admin queue's head entry is the Abort; sqid, cid: the command it names -/
  | nvmeAbort (p : Nat) (entry : List Word) (sqid : Nat) (cid : Nat)
  /-- ABORT_TASK (R361). SAS ABORT TASK frees a dormant target or orphans a running one. -/
  | abortTask (port : Nat) (nexus : Nat) (lun : Nat) (tag : Nat)
  /-- ABORT_TASK_SET (R361). SAS ABORT TASK SET acts on the targets of its nexus. -/
  | abortTaskSet (port : Nat) (nexus : Nat) (lun : Nat)
  /-- CLEAR_TASK_SET (R361). SAS CLEAR TASK SET acts on every command of the task set. -/
  | clearTaskSet (port : Nat) (lun : Nat)
  /-- CONTROLLER_RESET (R363). A host controller reset discards unstarted commands, orphans running ones and clears the controller's contexts. p: the controller or port; lun: the logical unit of a SAS LOGICAL UNIT RESET -/
  | controllerReset (p : Nat) (lun : Option Nat)
  /-- RESET_DONE_REPORT (R363). A W1C write of HFE_RESET_STAT reports a host reset done. A write of HFE_RESET_STAT -/
  | resetDoneReport (value : Word)
  /-- DRAIN (R365). GLY_DRAIN.GO stops fetching for firmware activation. -/
  | drain
  /-- DRAIN_INTERRUPT (R365). 2 s after GO, still-running media commands end with Command Interrupted. -/
  | drainInterrupt
  /-- DRAIN_TIMEOUT (R365). 8 s after GO without DONE, FK_GLY_DRAIN is raised. -/
  | drainTimeout
  /-- ASN_FLOOR (R371). A write of GLY_ASN_FLOOR raises GLY_ASN_NEXT while EN = 0. A write of GLY_ASN_FLOOR -/
  | asnFloor (value : Word)
  /-- BUDGET_WRITE (R358). A write of GLY_BUDGET.SIZE sets the budget or is refused above B_MAX. A write of GLY_BUDGET -/
  | budgetWrite (value : Word)
  /-- LINK_TRAINED (R382). A host port trains or goes down and its LINK readiness bit changes. p: the port; speed: the rate as HFE_CFG encodes it, 0 for down; width: the negotiated lanes -/
  | linkTrained (p : Nat) (speed : Nat) (width : Nat)
  /-- SMBUS_TRANSACTION (R395). MGT serves an SMBus transaction carrying MCTP, NVMe-MI, PLDM or SPDM. addr: the 7-bit SMBus address; pecOk: the packet's error code checks; last: the packet ends its message; msg: the message -/
  | smbusTransaction (addr : Nat) (pecOk : Bool) (last : Bool) (msg : SideMsg)
  /-- TEMP_SAMPLE (R397). Every 100 ms MGT samples both die temperatures and updates warnings. The controller-die and power-die readings, 0.25 K above 200 K -/
  | tempSample (ctrl : Nat) (pwr : Nat)
  /-- MGT_BLOCK_RESET (R400). A block reset of MGT abandons sideband transactions and ends SPDM sessions. -/
  | mgtBlockReset
  /-- HFE_BLOCK_RESET (R618). CKR_BRST.HFE performs a host controller reset of every controller or port. -/
  | hfeBlockReset
  /-- DRAM_READY (R408). BFM finishes DRAM training and check-line initialisation and raises DRAM readiness, or sets FAIL. ok: training succeeded -/
  | dramReady (ok : Bool) (twoRanks : Bool)
  /-- SCRUB_VISIT (R418). In an idle cycle the scrubber reads a word or line and repairs or reports errors. kind: 0 DRAM, 1 SYC data, 2 SYC tag or state, 3 a block's SRAM, 4 a cluster's L2, 5 the check-line buffer; block: its arbitration number, for kind 4 the cluster; addr: in the form of R416; found: 0 nothing, 1 a correctable error, 2 an uncorrectable one, 3 nothing, and a correctable error arises in the word afterwards; for kind 5 a parity error in an entry that is clean (1) or dirty (2) -/
  | scrubVisit (kind : Nat) (block : Nat) (addr : Nat) (found : Nat)
  /-- SCRUB_LAP_COMPLETE (R419). The scrubber completes a lap, updating BFM_SCRUB_LAP and restarting the lap count. -/
  | scrubLapComplete
  /-- SCRUB_SLOW (R419). The current lap exceeds LAP_WARN and FK_SCRUB_SLOW is raised. -/
  | scrubSlow
  /-- CACHE_ENABLE_WRITE (R427). A write of SYC_CTL.EN disables or re-enables the system cache without write-back. A write of SYC_CTL -/
  | cacheEnableWrite (value : Word)
  /-- SCRATCH_CONVERT (R425). A write of SYC_SCRATCH.COUNT converts ways to scratch or releases them, or is refused. A write of SYC_SCRATCH -/
  | scratchConvert (value : Word)
  /-- SCRATCH_DONE (R425). Cleaning of converted ways ends and BUSY clears. -/
  | scratchDone
  /-- CLEAN (R428). Range operation CLEAN writes back dirty lines in range. A write of SYC_RANGE_CMD with GO -/
  | clean (value : Word)
  /-- INVALIDATE (R428). Range operation INVALIDATE discards unlocked lines in range. A write of SYC_RANGE_CMD with GO -/
  | invalidate (value : Word)
  /-- CLEAN_INV (R428). Range operation CLEAN_INV writes back and invalidates unlocked lines. A write of SYC_RANGE_CMD with GO -/
  | cleanInv (value : Word)
  /-- CLEAN_INV_LOCKED (R428). Range operation CLEAN_INV_LOCKED writes back and invalidates every line in range. A write of SYC_RANGE_CMD with GO -/
  | cleanInvLocked (value : Word)
  /-- LOAD_WAY (R428). Range operation LOAD_WAY loads the range into a named way. A write of SYC_RANGE_CMD with GO -/
  | loadWay (value : Word)
  /-- RANGE_OP_DONE (R429). A range operation ends with DONE and its STATUS. -/
  | rangeOpDone
  /-- EVICTION_WRITEBACK_DONE (R431). An eviction-buffer write response frees the entry and releases waiting requests. line: the line's number -/
  | evictionWritebackDone (line : Nat)
  /-- CBO_CLEAN (R512). A core cleans a line in every cluster L2. c: the core -/
  | cboClean (c : Nat) (addr : Nat)
  /-- CBO_FLUSH (R512). A core cleans and invalidates a line in every cluster L2. c: the core -/
  | cboFlush (c : Nat) (addr : Nat)
  /-- CBO_INVAL (R512). A core invalidates a line in every cache without write-back. c: the core -/
  | cboInval (c : Nat) (addr : Nat)
  /-- DESCRIPTOR_QUEUE (R441). A write of DMA_CH_TAIL_n queues descriptors on a channel ring. A write of DMA_CH_TAIL_n -/
  | descriptorQueue (n : Nat) (value : Word)
  /-- DESCRIPTOR_FETCH (R443). A channel fetches and checks its next descriptor, counting it against its slot. -/
  | descriptorFetch (n : Nat)
  /-- BEAT_GRANT (R446). An engine grants one read or write beat to a channel by class and round-robin. e: the engine -/
  | beatGrant (e : Nat)
  /-- READ_RESPONSE (R452). A channel's read data lands in its buffer, or a bus error stops the descriptor. The oldest outstanding read of channel n. For a host address res: 0 good, 1 an error, 3 guard, 4 application tag, 5 reference tag check failed; data: what the host's bytes are once HFE has encrypted them -/
  | readResponse (n : Nat) (res : Nat) (data : List Byte)
  /-- WRITE_RESPONSE (R449). A channel's write response arrives, completing LANDED, slot or pause drains, or reporting a late error. The oldest outstanding write of channel n; res as for READ_RESPONSE, for a host address -/
  | writeResponse (n : Nat) (res : Nat)
  /-- DESCRIPTOR_DONE (R449). A descriptor posts DONE, writes word 4, advances HEAD and asserts its event. -/
  | descriptorDone (n : Nat)
  /-- CHANNEL_ENABLE (R453). Setting DMA_CH_CFG_n.EN moves a channel from OFF to IDLE. A write of DMA_CH_CFG_n -/
  | channelEnable (n : Nat) (value : Word)
  /-- CHANNEL_DISABLE (R453). Clearing EN moves a quiet channel to OFF or is ignored. A write of DMA_CH_CFG_n -/
  | channelDisable (n : Nat) (value : Word)
  /-- PAUSE (R454). Writing DMA_CH_CTL_n.PAUSE pauses or resumes a channel. A write of DMA_CH_CTL_n -/
  | pause (n : Nat) (value : Word)
  /-- CHANNEL_CLEAR (R453). DMA_CH_CTL_n.CLEAR skips a halted descriptor. A write of DMA_CH_CTL_n -/
  | channelClear (n : Nat) (value : Word)
  /-- CHANNEL_RETRY (R453). DMA_CH_CTL_n.RETRY continues a halted descriptor from SRC, DST, COUNT. A write of DMA_CH_CTL_n -/
  | channelRetry (n : Nat) (value : Word)
  /-- DMA_BLOCK_RESET (R455). A block reset of a Bobbin engine completes running descriptors RESET and halts its channels. e: the engine -/
  | dmaBlockReset (e : Nat)
  /-- SPL_FW_PUSH (R462). A core pushes a word to a firmware Spool. c: the core; a write of SPL_FW_PUSH_k -/
  | splFwPush (c : Nat) (k : Nat) (value : Word)
  /-- SPL_FW_PUSH_LAST (R462). A core pushes a word marked LAST to a firmware Spool. c: the core; a write of SPL_FW_PUSH_LAST_k -/
  | splFwPushLast (c : Nat) (k : Nat) (value : Word)
  /-- SPL_FW_POP (R457). A core pops a word from a firmware Spool, with underrun and poison status. c: the core; a read of SPL_FW_POP_k; bad: the word's parity fails -/
  | splFwPop (c : Nat) (k : Nat) (bad : Bool)
  /-- DROP_PKT (R458). SPL_FW_DROP_k discards the rest of the current packet. c: the core; a write of SPL_FW_DROP_k -/
  | dropPkt (c : Nat) (k : Nat) (value : Word)
  /-- FLUSH (R464). SPL_FW_CFG_k.FLUSH empties a firmware Spool. -/
  | flush (k : Nat)
  /-- SPOOL_CONFIG_WRITE (R461). A write of PROD or CONS changes a Spool's sides while empty and flushes it. A write of SPL_FW_CFG_k -/
  | spoolConfigWrite (k : Nat) (value : Word)
  /-- CLOSING_WORD (R463). The Spool writes a poisoned LAST word to close the open packet of a trapped or reset owner. -/
  | closingWord (k : Nat)
  /-- SPL_BLOCK_RESET (R464). A block reset of SPL flushes every firmware Spool. -/
  | splBlockReset
  /-- FLT_ENABLE (R489). FLT_CTL.EN rises with DRAM ready and the tier probes and trains its dies. A write of FLT_CTL -/
  | fltEnable (value : Word)
  /-- FLT_INIT_DONE (R489). INIT ends in DOWN, UNFORMATTED or SERVING after rebuilding the map and closing open stripes. usable: the usable dies; geom: in FLT_GEOM's layout; grades: in FLT_ONFI_CTL.REACHED's layout; rootOk: the root reads and its identity is this part's -/
  | fltInitDone (usable : Word) (geom : Word) (grades : Nat) (rootOk : Bool)
  /-- TIER_COMMAND_FETCH (R475). FLT fetches and checks a tier command from its ring. -/
  | tierCommandFetch
  /-- WRITE (R476). Tier WRITE stores TLP data and tags in SLC. k: the command, by its place in the order of fetch; stripe: the open SLC stripe FLT takes, and dies: the die of each TLP in it; wait: no erased stripe is free -/
  | write (k : Nat) (stripe : Nat) (dies : List Nat) (wait : Bool)
  /-- READ (R477). Tier READ returns TLPs or the flush image, with retry and parity rebuild. k: as for WRITE; bad: the TLPs whose pages do not decode after every retry -/
  | read (k : Nat) (bad : List Nat)
  /-- TRIM (R474). Tier TRIM unmaps TLPs. k: as for WRITE -/
  | trim (k : Nat)
  /-- RELEASE_IMAGE (R498). Tier RELEASE_IMAGE gives up the flush image and erases the flush reserve. k: as for WRITE -/
  | releaseImage (k : Nat)
  /-- FORMAT (R490). Tier FORMAT erases good blocks and rebuilds stripes, SLC area and counts. k: as for WRITE -/
  | format (k : Nat)
  /-- TIER_COMMAND_DONE (R476). A tier command completes, writing word 3 and asserting FLT's completion source. k: as for WRITE -/
  | tierCommandDone (k : Nat)
  /-- NAND_OP_DONE (R472). A NAND read, program or erase ends, with failures retiring blocks and rebuilding from parity. op: 0 read, 1 program, 2 erase, 3 the last erase that the reserves need; usec: the program's time; stripe: the stripe concerned; lost: TLPs of it that neither decode nor rebuild from parity -/
  | nandOpDone (op : Nat) (die : Nat) (block : Nat) (usec : Nat) (slc : Bool) (ok : Bool) (stripe : Nat) (lost : List Nat)
  /-- STRIPE_VERIFY (R480). A fully programmed stripe is read back and closed, or its failing block retired. failing: the blocks that fail, die × 2^16 + block; lost: as for NAND_OP_DONE -/
  | stripeVerify (stripe : Nat) (failing : List Nat) (lost : List Nat)
  /-- DIE_LOST (R482). A die silent for 100 ms is lost, its blocks retired and FK_FLT_DIE raised. lost: TLPs of open stripes that parity cannot rebuild -/
  | dieLost (die : Nat) (lost : List Nat)
  /-- FOLD (R484). Erased SLC capacity falls below FOLD_LOW and FLT folds closed SLC stripes into native. srcs: the oldest closed SLC stripes; dest: the new native stripe, and dies: the die of each TLP copied -/
  | fold (srcs : List Nat) (dest : Nat) (dies : List Nat)
  /-- GARBAGE_COLLECTION (R485). A group's free blocks fall below GC_START and FLT copies a victim stripe. victim: the stripe to be copied; dest, dies: as for FOLD -/
  | garbageCollection (victim : Nat) (dest : Nat) (dies : List Nat)
  /-- RETIRE_COMMIT (R493). FLT_CTL.RETIRE_COMMIT moves the tier to RETIRED. -/
  | retireCommit
  /-- CORE_RUN (R509). Setting SVC_CORE_CTL_c.RUN releases a core from SVC_CORE_PC_c. A write of SVC_CORE_CTL_c -/
  | coreRun (c : Nat) (value : Word)
  /-- CORE_HOLD (R509). Clearing RUN holds a core in reset and orphans its semaphores. A write of SVC_CORE_CTL_c -/
  | coreHold (c : Nat) (value : Word)
  /-- SEMAPHORE_READ (R514). A read of SVC_SEM_n takes a free semaphore or reports its owner. e: the reader's engine index; a read of SVC_SEM_n -/
  | semaphoreRead (e : Nat) (n : Nat)
  /-- SEMAPHORE_RELEASE (R514). A write of RELEASE by the owner frees the semaphore. e: the writer's engine index; a write of SVC_SEM_n -/
  | semaphoreRelease (e : Nat) (n : Nat) (value : Word)
  /-- IPI_SET (R517). A write of SVC_IPI_SET sets MSIP of the named cores. -/
  | ipiSet (value : Word)
  /-- TIMER_INTERRUPT (R516). SVC_MTIME reaches SVC_MTIMECMP_c and the core's timer interrupt asserts. -/
  | timerInterrupt (c : Nat)
  /-- WEAVE_XOR (R521). Weave XOR writes the XOR of its sources to DST. Weave fetches an XOR command if it is idle, and then runs so many lines more of it -/
  | weaveXor (lines : Nat)
  /-- CHECK (R521). Weave CHECK tests that the XOR of its sources is zero. Weave fetches a CHECK command if it is idle, and then runs so many lines more of it -/
  | check (lines : Nat)
  /-- COMPARE (R521). Weave COMPARE tests two sources for equality. Weave fetches a COMPARE command if it is idle, and then runs so many lines more of it -/
  | compare (lines : Nat)
  /-- SCAN (R526). Carder SCAN filters records from SRC into DST. Carder fetches a SCAN command if it is idle, and then scans so many records more of it -/
  | scan (records : Nat)
  /-- OFL_COMMAND_DONE (R521). A Weave or Carder command completes, writing its status and advancing HEAD. carder: of Carder, else of Weave -/
  | oflCommandDone (carder : Bool)
  /-- OFL_BLOCK_RESET (R528). A block reset of OFL stops both engines with STOPPED. -/
  | oflBlockReset
  /-- FAULT_MESSAGE (R541). FCL accepts a fault message, sets its pending bit, applies configured reactions and requests a record. The bits of the message that its path to FCL inverts are the ones of noise; zero for a clean path -/
  | faultMessage (noise : Word)
  /-- FATAL_LINE (R539). A block's fatal line enters the safe state within 20 ns. The oldest fatal line that is driven and not yet answered -/
  | fatalLine
  /-- FCL_SW_RAISE (R542). A write of FCL_SW_RAISE raises a firmware fault message. The writer's engine index of R27, or 40 for a Bobbin descriptor -/
  | fclSwRaise (writer : Nat) (msg : Word)
  /-- FCL_SW_SET (R534). A write of FCL_SW_SET sets a firmware source's pending bit. -/
  | fclSwSet (value : Word)
  /-- PENDING_CLEAR (R534). A W1C write to FCL_PEND_k clears pending bits. A write of FCL_PEND_k -/
  | pendingClear (k : Nat) (value : Word)
  /-- FCL_CLAIM (R535). A read of FCL_CLAIM_c claims and clears the highest-priority source for core c. A read of FCL_CLAIM_c -/
  | fclClaim (c : Nat)
  /-- SAFE_ENTER (R543). A write of FCL_CTL.SAFE_ENTER composes a cause and enters the safe state. A write of FCL_CTL by the engine of index writer -/
  | safeEnter (writer : Nat) (value : Word)
  /-- SELF_CHECK_SWEEP (R548). Every 100 µs FCL sweeps its entries and enters the safe state on a self-fault. What the sweep finds at an offset: 0 nothing, 1 a correctable error, else an uncorrectable error or a parity mismatch -/
  | selfCheckSweep (found : Nat) (off : Nat)
  /-- EVR_FW_RECORD (R551). EVR_FW_CMD_c GO enters a firmware record into the ring or refuses it. A write of EVR_FW_CMD_c -/
  | evrFwRecord (c : Nat) (value : Word)
  /-- RING_DRAIN (R553). EVR drains the oldest ring record into the log memory with the next SEQ. -/
  | ringDrain
  /-- TOKEN_REFILL (R552). Drive time crosses a multiple of PERIOD and a code's bucket gains a token. Drive time crosses a multiple of the PERIOD of code n -/
  | tokenRefill (n : Nat)
  /-- PAGE_PERSIST (R554). A dirty log page's trigger fires and EVR writes it into the tier. EVR starts to write a page -/
  | pagePersist (page : Nat)
  /-- PAGE_WRITE_DONE (R554). A log page write ends, cleaning the page or setting PERSIST_FAIL. -/
  | pageWriteDone (page : Nat) (ok : Bool)
  /-- EVR_ENABLE (R556). EVR_CTL.EN rises, starting the log load at first rise or resuming the drain. A write of EVR_CTL -/
  | evrEnable (value : Word)
  /-- EVR_LOAD_DONE (R556). The log memory is validated, SEQ set, LOADED raised and EV_POWER_ON entered. -/
  | evrLoadDone
  /-- EVR_DIRTY_READ (R554). A 64-bit read of EVR_DIRTY_k returns and clears dirty page marks in MODE 1. -/
  | evrDirtyRead (k : Nat)
  /-- EVR_RATE_WRITE (R564). A write of EVR_RATE_i sets a bucket and refills its tokens to BURST. -/
  | evrRateWrite (n : Nat) (value : Word)
  /-- GET_STATE (R571). Provisioning GET_STATE returns the life-cycle state and identity. -/
  | getState
  /-- GET_NONCE (R571). Provisioning GET_NONCE returns a fresh nonce. -/
  | getNonce
  /-- GET_SESSION_KEY (R571). Provisioning GET_SESSION_KEY returns an ephemeral public key. -/
  | getSessionKey
  /-- PROVISION (R571). Provisioning PROVISION burns SERIAL, DEVICE_SECRET and PATCH_KEY and enters MANUFACTURE. What the request carries: SERIAL, the requester's public key, the wrapped PATCH_KEY, the signature -/
  | provision (serial : Nat) (pub : Nat) (wrapped : Nat) (sig : Nat)
  /-- BURN_ROOTS (R571). Provisioning BURN_ROOTS burns root hashes. roots: ROOT_HASH_j by j, none where the request carries none -/
  | burnRoots (roots : RootList) (hda : Option Nat) (admin : Option Nat)
  /-- RESET (R571). Provisioning RESET requests a chip reset. -/
  | reset
  /-- CHUNK (R575). SEC_UPD_CMD CHUNK copies image bytes into staging and checks folios. A write of SEC_UPD_CMD -/
  | chunk (value : Word)
  /-- COMMIT (R576). SEC_UPD_CMD COMMIT verifies the staged image and programs the slot. A write of SEC_UPD_CMD -/
  | commit (value : Word)
  /-- COMMIT_DONE (R576). The slot and trial mark are programmed and the commit completes. ok: every NOR program and verify succeeded -/
  | commitDone (ok : Bool)
  /-- ABORT (R574). SEC_UPD_CMD ABORT returns the staging area to FREE. A write of SEC_UPD_CMD -/
  | abort (value : Word)
  /-- STAGING_IDLE_TIMEOUT (R574). 15 minutes without an owner command return the staging area to FREE. -/
  | stagingIdleTimeout
  /-- WARM_RESTART (R578). After the drain, SEC holds the cores and Shuttles and reboots from slot verification. -/
  | warmRestart
  /-- CONFIRM (R579). SEC_BOOT_CTL.CONFIRM ends the trial and burns REVOKE and SVN. -/
  | confirm
  /-- FAIL (R579). SEC_BOOT_CTL.FAIL fails the trial and enters the safe state. -/
  | fail
  /-- TRIAL_TIMEOUT (R579). The 30 s trial timer lapses and the trial fails. -/
  | trialTimeout
  /-- TRIAL_TIMER_WARNING (R591). The trial timer reaches 25 s and source 70 is raised. -/
  | trialTimerWarning
  /-- GENKEY (R585). SEC_KEY_CMD GENKEY replaces a slot's key. A write of SEC_KEY_CMD -/
  | genkey (value : Word)
  /-- UNLOCK (R585). SEC_KEY_CMD UNLOCK unwraps a slot's key. A write of SEC_KEY_CMD -/
  | unlock (value : Word)
  /-- LOCK (R585). SEC_KEY_CMD LOCK clears a key slot. A write of SEC_KEY_CMD -/
  | lock (value : Word)
  /-- REWRAP (R585). SEC_KEY_CMD REWRAP rewraps a key blob under a new credential. A write of SEC_KEY_CMD -/
  | rewrap (value : Word)
  /-- LIFECYCLE_TRANSITION (R588). SEC_LC_REQ GO writes a life-cycle transition, wipes memories and requests a chip reset. A write of SEC_LC_REQ -/
  | lifecycleTransition (value : Word)
  /-- REPAIR (R590). SEC_LC_REQ with TARGET = 7 presents an authenticated repair token for re-pairing. A write of SEC_LC_REQ -/
  | repair (value : Word)
  /-- SEC_NONCE_READ (R587). A 64-bit read of SEC_NONCE returns a fresh nonce word. -/
  | secNonceRead
  /-- OTP_BURN (R567). SEC_OTP_CMD GO burns an OTP field. A write of SEC_OTP_CMD -/
  | otpBurn (value : Word)
  /-- SIGN (R586). SEC_SIGN_CMD GO signs a digest with the alias key. A write of SEC_SIGN_CMD -/
  | sign (value : Word)
  /-- RANGE_WRITE (R584). A write of SEC_RANGE_i sets a locking range or is refused for overlap. A write of SEC_RANGE_n -/
  | rangeWrite (n : Nat) (value : Word)
  /-- CAL_REQUEST (R612). CAL_CMD GO queues a calibration request or refuses it. A write of CAL_CMD -/
  | calRequest (value : Word)
  /-- CAL_START (R613). A queued calibration request starts and checks its precondition. owner: actuator 0 to 3, or 4 for the spindle -/
  | calStart (owner : Nat)
  /-- BACKGROUND_CALIBRATION (R612). CAL runs SLICE_TRIM or SLICE_SWAP in background. -/
  | backgroundCalibration (lane : Nat)
  /-- CAL_RUN_DONE (R614). A calibration's two runs end; an agreeing result becomes pending or FK_CAL_DISAGREE is raised. first, second: the two results in the units of the item's fields; for SLICE_TRIM and SLICE_SWAP the estimates of the 16 positions, each as offset in 1/1000 LSB, gain in ppm and skew in fs, with the spare's of SLICE_SWAP's two runs in spare; for an item without fields its offset in 1/1000 LSB, µA or µV and its gain in ppm -/
  | calRunDone (item : Nat) (first : List Int) (second : List Int) (spare : List Int)
  /-- CAL_TIMEOUT (R615). A request's runs do not end within CAL_CTL.TMO and it completes TIMEOUT. -/
  | calTimeout (item : Nat)
  /-- CAL_BLOCK_RESET (R615). A block reset of CAL abandons calibrations and discards queued requests. -/
  | calBlockReset
  /-- PFLT_N_RELEASE (R50). PFLT_N_a returns high, clearing HDL_PFLT_a.ACTIVE and ending inhibit 2 of Table 2.4 once LATCHED has been cleared. -/
  | pfltNRelease (a : Nat)
  /-- CC_EN_SET (R607). The host sets CC.EN, and once HOST readiness is 1 CSTS.RDY follows it within CAP.TO. p: the controller -/
  | ccEnSet (p : Nat) (en : Bool)
  /-- XTAL_START_TIMEOUT (R603). A crystal that has not started within 10 ms of power-on reset keeps the chip in reset with ERR_N low and XTAL_OK = 0. -/
  | xtalStartTimeout
  /-- TRIAL_FAIL_RESET (R579). 2 s after the safe-state entry of a failed trial, SEC requests a chip reset if the hold-up flush has not committed first. -/
  | trialFailReset
deriving DecidableEq, Repr

end Sys2Proof
end

