-- ==== Sys2Proof/Decode.lean ====
section
/-!
DEFINITION. The command that a word spells by the bits of spec/opcode_table.json. No row of the table gives bits: the
block's commands are register accesses, protocol operations and events, and none is spelled by a word alone. (A Coava
instruction is fetched and decoded by its own meaning, from its Shuttle's local store: `Sys2Proof.Machine.insAt`.)
-/

namespace Sys2Proof

/-- No row gives bits, so no word spells a command. -/
def decodeTableWord (_nbits _w : Nat) : Option Instr := none

end Sys2Proof
end

