-- ==== Sys2Proof/Config.lean ====
section
/-!
DEFINITION. What a part fixes at manufacture (R1 to R7), and the free values: what the spec leaves open
and this model leaves unconstrained. Every `opaque` below is a constant with no body, so no proof can
depend on its value.
-/

namespace Sys2Proof

/-- The parts of the family (R1, Table 0.1); the FJD-7411 comes with either host port. -/
inductive Part where
  | fjd7440
  | fjd7422
  | fjd7411n
  | fjd7411s
deriving DecidableEq, Repr

namespace Part

/-- Actuators present (Table 0.1). Every per-actuator resource follows: two lanes, three decoders, six Shuttles. -/
def acts : Part → Nat
  | fjd7440 => 4
  | fjd7422 => 2
  | fjd7411n => 1
  | fjd7411s => 1

/-- Read lanes present (Table 0.1). -/
def lanes (p : Part) : Nat := 2 * p.acts

/-- LDPC decoders present (Table 0.1). -/
def decoders (p : Part) : Nat := 3 * p.acts

/-- Shuttle sequencers present (Table 0.1). -/
def shuttles (p : Part) : Nat := 6 * p.acts

/-- Service-core clusters present (Table 0.1). -/
def clusters : Part → Nat
  | fjd7440 => 4
  | fjd7422 => 2
  | fjd7411n => 1
  | fjd7411s => 1

/-- Service cores present: four to a cluster (Table 0.1). -/
def cores (p : Part) : Nat := 4 * p.clusters

/-- The largest number of heads (Table 0.1, CKR_LIMITS.HEADS_MAX). -/
def heads : Part → Nat
  | fjd7440 => 32
  | fjd7422 => 16
  | fjd7411n => 8
  | fjd7411s => 8

/-- The largest number of NAND dies (Table 0.1, CKR_LIMITS.NAND_DIES_MAX). -/
def dies : Part → Nat
  | fjd7440 => 64
  | fjd7422 => 16
  | fjd7411n => 0
  | fjd7411s => 0

/-- The largest DRAM in GiB (Table 0.1, CKR_LIMITS.DRAM_GIB_MAX). -/
def dramGib : Part → Nat
  | fjd7440 => 8
  | fjd7422 => 4
  | fjd7411n => 2
  | fjd7411s => 2

/-- The PCIe/NVMe front end is present (Table 0.1). -/
def hasPcie : Part → Bool
  | fjd7411s => false
  | _ => true

/-- The SAS-4 unit is present (Table 0.1). -/
def hasSas : Part → Bool
  | fjd7440 => true
  | fjd7411s => true
  | _ => false

/-- The flash tier is present (Table 0.1). -/
def hasFlt : Part → Bool
  | fjd7440 => true
  | fjd7422 => true
  | _ => false

/-- Weave and Carder are present (Table 0.1, R528). -/
def hasOfl (p : Part) : Bool := p.hasFlt

/-- Weave supports 1+1 mirroring only (Table 0.1, CKR_UNITS.WEAVE_MIRROR_ONLY). -/
def mirrorOnly : Part → Bool
  | fjd7422 => true
  | _ => false

end Part

namespace Config

/-- The hold-up load PWS_HU_LOAD is fixed per part (R257); the chapter gives the value of each part. -/
def huLoad : Part → Nat
  | .fjd7440 => 15000
  | .fjd7422 => 9000
  | .fjd7411n => 5000
  | .fjd7411s => 5000

/-- FREE VALUE. The microcode ROM identity, SHT_ROM_ID: per part, and the spec states none (R313). -/
opaque romId : Part → BitVec 16

/-- FREE VALUE. The boot ROM's content: the spec states none (R569). -/
opaque romByte : Nat → Byte

/-- The microword ROM (R312): its contents are no part of the architecture. -/
opaque microRom : Nat → BitVec 20

/-- The nanoword ROM (R312): its contents are no part of the architecture. -/
opaque nanoRom : Nat → BitVec 144

/-- The condition a nanoword selects (R314), at a value of the model's counter and a place in the sequence: which
conditions there are is no part of the architecture. -/
opaque microCond : BitVec 144 → Nat → Nat → Bool

/-- FREE VALUE. A fresh unconstrained word each time the counter `State.free` moves on: what the spec calls
undefined or leaves without a number, where the machine goes on. -/
opaque freeWord : Nat → Word

/-- FREE VALUE. How far a commit is in per cent, at a time: no rule says how PROGRESS is computed (Table 16.12). -/
opaque progress : Nat → Nat

/-- FREE VALUE. A fresh unconstrained bit, by the same counter. -/
opaque freeBit : Nat → Bool

/-- FREE VALUE. Whether a result that falls between two steps of its register is rounded up, by the model's counter and the
place within the step that the counter stands for: the spec states no rounding for the loops of chapter 03. -/
opaque roundUp : Nat → Nat → Bool

/-- FREE VALUE. The hard decision where both metrics of R73 are equal, and the rounding of a half in its LLR. -/
opaque tieBit : Nat → Nat → Bool

/-- FREE VALUE. A loop value that would leave its register's range, where the spec states no clamp (R75). -/
opaque loopWord : Nat → Nat → Nat

/-- FREE VALUE. The codes by which a slice's trim DAC steps for a correction: 0 offset in 1/1000 LSB, 1 gain in ppm, 2 skew in
fs. The spec states no step for the DACs of LNE_TRIM_i (R100). -/
opaque trimStep : Nat → Int → Int

/-- FREE VALUE. SUM_NOM's unit for a window of n samples, in 2^−32 ADC LSB of the tone sums, less one: the spec scales A + B
to 12 bits and states no unit for SUM_NOM (R177). -/
opaque sumUnit : Nat → Nat

/-- FREE VALUE. Bit i of the codeword of 4,112 information bytes under a code: Table 4.2 gives the codes' sizes and no
parity-check matrix (R111, R113). -/
opaque codeword : Nat → List Byte → Nat → Bool

/-- AES-256-XTS on user data (R583): the byte at a place of a data unit, encrypted (true) or decrypted, under a key slot's
content and the tweak of NSID and LBA, the data it is carried with, and its index there. The cipher is not computed. -/
opaque xts : Bool → Option Nat → Nat → Nat → Nat → List Byte → Nat → Byte

/-- The place in a command's data of a host address, as the command's pointers and the lists they name in host memory give
it (R442). -/
opaque hostPlace : List Word → Nat → Nat

/-- FREE VALUE. The 64-bit hash under which Galley enters a key-value command, of the key and its length: the spec asks
only that equal keys have equal hashes (R341). -/
opaque kvHash : Nat → Nat → Word

/-- FREE VALUE. N_need of a tier (R488): the blocks it needs for a count of TLPs, an SLC share in percent, a geometry and
a number of dies. The spec does not give the size of the root area. -/
opaque fltNeed : Nat → Nat → Word → Nat → Nat

/-- FREE VALUE. The flush image's format: its length in 4 KiB units and its bytes, of the words it is made of. The spec gives
what it holds and in which order, and no layout (R496). -/
opaque imageUnits : List Nat → Nat

/-- FREE VALUE. A byte of the flush image; see `imageUnits`. -/
opaque imageByte : List Nat → Nat → Byte

/-- FREE VALUE. A byte of the NOR window, by the times the NOR has been programmed and the offset: the spec gives the NOR's
content no layout (R569, R576). -/
opaque norByte : Nat → Nat → Byte

/-! FREE VALUES. The functions of public standards that SEC works with, left uninterpreted: no claim can rest on one value
of them. -/

/-- SHA-384 of a byte string. -/
opaque sha384 : List Byte → Nat

/-- An ECDSA signature checks (R573): of the signer's public key bytes, the hash and the signature bytes. -/
opaque sigOk : List Byte → Nat → List Byte → Bool

/-- The ROM_ID of a patch component (R576 step 4, R582), of its bytes: the header's layout is not given. -/
opaque patchRomId : List Byte → Nat

/-- Words of the alias key's signature over a digest (R586). -/
opaque signWord : List Nat → List Word → Nat → Word

/-- Bytes of the alias certificate (R586). -/
opaque certByte : List Nat → Nat → Byte

/-- The public key of a provisioning session key (R571). -/
opaque sessionPublic : Nat → Nat

/-- The signature of a PROVISION request checks (R571): of its nonce, SERIAL, wrapped key and signature. -/
opaque provisionSigOk : Nat → Nat → Nat → Nat → Bool

/-- PATCH_KEY unwrapped (R571): of the session key, the requester's public key and the wrapped key; none: it fails. -/
opaque unwrapPatchKey : Nat → Nat → Nat → Option Nat

/-- A byte of the protection information that HFE generates for a block of a namespace, with its data: its guard's CRC and
its tags are another standard's (R388). -/
opaque piByte : Nat → Nat → List Byte → Nat → Byte

end Config

end Sys2Proof
end

