-- ==== Sys2Proof/Machine/Bits.lean ====
section
/-!
DEFINITION. Bit fields of words, sign extension, sparse tables in one canonical form, and the CRC of R112.
-/

namespace Sys2Proof.Machine

/-- Bits [lo+w-1:lo] of a word, as a number. -/
def getBits (x : Word) (lo w : Nat) : Nat := (x.extractLsb' lo w).toNat

/-- The ones of bits [lo+w-1:lo]. -/
def fieldMask (lo w : Nat) : Word := BitVec.ofNat 64 ((2 ^ w - 1) <<< lo)

/-- A word with bits [lo+w-1:lo] replaced by the low w bits of a number. -/
def setBits (x : Word) (lo w v : Nat) : Word :=
  (x &&& ~~~ fieldMask lo w) ||| (BitVec.ofNat 64 ((v % 2 ^ w) <<< lo))

/-- One bit of a word. -/
def bit (x : Word) (n : Nat) : Bool := x.getLsbD n

/-- The two's complement value of the low w bits of a number. -/
def signed (w v : Nat) : Int := (BitVec.ofNat w v).toInt

/-- An integer narrowed to w bits, two's complement. -/
def narrow (w : Nat) (v : Int) : Nat := (BitVec.ofInt w v).toNat

/-- An integer clamped to [lo, hi]. -/
def clampInt (lo hi v : Int) : Int := max lo (min hi v)

/-- A number clamped to [lo, hi]. -/
def clampNat (lo hi v : Nat) : Nat := max lo (min hi v)

/-- Rounding an integer quotient to nearest, ties away from zero; the divisor is positive. -/
def divRound (a : Int) (b : Nat) : Int :=
  if a < 0 then -(((-a) + b / 2) / b) else (a + b / 2) / b

/-- One Bool as a number. -/
def b2n (b : Bool) : Nat := if b then 1 else 0

/-- The value at a key of a sparse table; an unlisted key reads its default. -/
def tget {α : Type} (d : Nat → α) : List (Nat × α) → Nat → α
  | [], n => d n
  | (k, v) :: t, n => if n = k then v else tget d t n

/-- A key's entry placed in key order, replacing the one it had. -/
def tins {α : Type} (n : Nat) (v : α) : List (Nat × α) → List (Nat × α)
  | [] => [(n, v)]
  | (k, w) :: t => if n < k then (n, v) :: (k, w) :: t else if n = k then (n, v) :: t else (k, w) :: tins n v t

/-- A sparse table with one key set; setting the default removes the entry, so equal tables are equal lists. -/
def tset {α : Type} [DecidableEq α] (d : Nat → α) (m : List (Nat × α)) (n : Nat) (v : α) : List (Nat × α) :=
  if v = d n then m.filter (fun c => decide (c.1 ≠ n)) else tins n v m

/-- The canonical form of a sparse table: keys strictly rising, no entry equal to its default. -/
abbrev tabWf {α : Type} (d : Nat → α) (m : List (Nat × α)) : Prop :=
  m.Pairwise (fun x y => x.1 < y.1) ∧ ∀ c ∈ m, c.2 ≠ d c.1

/-- The smallest number below n that fails the test. -/
def firstFree (p : Nat → Bool) (n : Nat) : Option Nat := (List.range n).find? (fun k => !p k)

/-- How many numbers below n satisfy the test. -/
def countBelow (p : Nat → Bool) (n : Nat) : Nat := ((List.range n).filter p).length

/-- The round-robin grant of R25: the requester first at or after the pointer, counting up and wrapping. -/
def grant (n ptr : Nat) (req : Nat → Bool) : Option Nat :=
  ((List.range n).map (fun i => (ptr + i) % n)).find? req

/-- The pointer after a grant (R25): the index after the winner. -/
def grantNext (n k : Nat) : Nat := (k + 1) % n

/-- The square root rounded down, bit by bit from the top. -/
def isqrt (n : Nat) : Nat :=
  (List.range (n.log2 / 2 + 1)).foldr (fun k r => if (r + 2 ^ k) * (r + 2 ^ k) ≤ n then r + 2 ^ k else r) 0

/-- One bit of the reflected CRC-32C register. -/
def crcBit (c : BitVec 32) : BitVec 32 :=
  if c.getLsbD 0 then (c >>> 1) ^^^ 0x82F63B78#32 else c >>> 1

/-- One byte through the CRC-32C register. -/
def crcByte (c : BitVec 32) (b : Byte) : BitVec 32 :=
  let x := c ^^^ (b.setWidth 32)
  crcBit (crcBit (crcBit (crcBit (crcBit (crcBit (crcBit (crcBit x)))))))

/-- CRC-32C of a byte string with the parameters of R112: reflected, initial value and final exclusive-or all ones. -/
def crc32c (bs : List Byte) : BitVec 32 := ~~~ (bs.foldl crcByte 0xFFFFFFFF#32)

/-- The eight bytes of a word, least significant first (R10: little-endian). -/
def wordBytes (w : Word) : List Byte := (List.range 8).map (fun k => w.extractLsb' (8 * k) 8)

/-- A little-endian number from bytes. -/
def leNat : List Byte → Nat
  | [] => 0
  | b :: t => b.toNat + 256 * leNat t

end Sys2Proof.Machine
end

