-- ==== Sys2Proof/Machine/Regs.lean ====
section
/-!
DEFINITION. The control-space registers: the blocks and windows of Table 1.1, every register of every block's
register summary with its offset, width, instances, fields, access codes and reset value (R10 to R13, R18), and one
name per field (`F.<register>_<field>`). Written from the spec's register tables.
-/

namespace Sys2Proof.Machine

/-- The blocks of Table 1.1, in the order of its rows. -/
inductive Block where
  | ckr | cal | fcl | evr | sec | mgt | hfe | gly | sht | loom | lne | dcp | wrp | svg | cte | spn | pws | hdl | bfm | syc | dma | spl | flt | svc | ofl
deriving DecidableEq, Repr

namespace Block

/-- Every block. -/
def all : List Block :=
  [.ckr, .cal, .fcl, .evr, .sec, .mgt, .hfe, .gly, .sht, .loom, .lne, .dcp, .wrp, .svg, .cte, .spn, .pws, .hdl, .bfm, .syc, .dma, .spl, .flt, .svc, .ofl]

/-- The base of a block's window (R18, Table 1.1). -/
def base : Block → Nat
  | .ckr => 0xf0000000
  | .cal => 0xf0010000
  | .fcl => 0xf0020000
  | .evr => 0xf0030000
  | .sec => 0xf0040000
  | .mgt => 0xf0050000
  | .hfe => 0xf0100000
  | .gly => 0xf0140000
  | .sht => 0xf0200000
  | .loom => 0xf0220000
  | .lne => 0xf0300000
  | .dcp => 0xf0340000
  | .wrp => 0xf0360000
  | .svg => 0xf0380000
  | .cte => 0xf03a0000
  | .spn => 0xf03c0000
  | .pws => 0xf03d0000
  | .hdl => 0xf03e0000
  | .bfm => 0xf0400000
  | .syc => 0xf0410000
  | .dma => 0xf0420000
  | .spl => 0xf0430000
  | .flt => 0xf0500000
  | .svc => 0xf0600000
  | .ofl => 0xf0700000

/-- The size of a block's window (R18, Table 1.1). -/
def window : Block → Nat
  | .ckr => 0x10000
  | .cal => 0x10000
  | .fcl => 0x10000
  | .evr => 0x10000
  | .sec => 0x10000
  | .mgt => 0x10000
  | .hfe => 0x40000
  | .gly => 0xc0000
  | .sht => 0x20000
  | .loom => 0x20000
  | .lne => 0x40000
  | .dcp => 0x20000
  | .wrp => 0x20000
  | .svg => 0x20000
  | .cte => 0x20000
  | .spn => 0x10000
  | .pws => 0x10000
  | .hdl => 0x10000
  | .bfm => 0x10000
  | .syc => 0x10000
  | .dma => 0x10000
  | .spl => 0x10000
  | .flt => 0x40000
  | .svc => 0x40000
  | .ofl => 0x10000

/-- The fault source of a block: offset +0 of its range (R533, Table 15.1). -/
def faultSource : Block → Nat
  | .ckr => 0
  | .cal => 16
  | .fcl => 32
  | .evr => 48
  | .sec => 64
  | .mgt => 96
  | .hfe => 128
  | .gly => 192
  | .sht => 256
  | .loom => 320
  | .lne => 384
  | .dcp => 448
  | .wrp => 512
  | .svg => 544
  | .cte => 576
  | .spn => 608
  | .pws => 624
  | .hdl => 656
  | .bfm => 688
  | .syc => 720
  | .dma => 736
  | .spl => 864
  | .flt => 928
  | .svc => 992
  | .ofl => 1008

end Block

/-- The access codes of Table 0.6 (R12). -/
inductive Acc where
  | rw | ro | wo | w1c | w1s | rc
deriving DecidableEq, Repr

/-- One field of a register: its lowest bit, its width and its access code. -/
structure FieldInfo where
  lo : Nat
  w : Nat
  acc : Acc
deriving DecidableEq, Repr

/-- Which unit an instance of a register belongs to: the instances of an absent unit are absent (R3). -/
inductive UnitKind where
  | always
  | act | lane | dec | sht | core | cluster | engine | head | headGroup | trim | tap | ctx | coef | vel | flt | ofl | calItem
  | coreBy (k : Nat)
deriving DecidableEq, Repr

/-- How a register stands in its block's window: instance i stands at base + s1 * i1 + s2 * i2 with i = mul * i1 + i2. -/
structure RegInfo where
  block : Block
  base : Nat
  s1 : Nat
  n1 : Nat
  s2 : Nat
  n2 : Nat
  mul : Nat
  wide : Bool
  unit : UnitKind
  flds : List FieldInfo
deriving DecidableEq, Repr

/-- Every named register of the spec's register summaries, without its instance suffix. -/
inductive Reg where
  /-- 02 R63: W1S/RO. -/
  | HDL_HEADMAP_LOCK
  /-- 02 R47: RW. -/
  | HDL_HEADMAP
  /-- 02 R62: RW. -/
  | HDL_PSP_CMD
  /-- 02 R63: RO. -/
  | HDL_PSP_RDATA
  /-- 02 R63: RW. -/
  | HDL_HSEL
  /-- 02 R63: RW. -/
  | HDL_HSW_SETTLE
  /-- 02 R63: RO. -/
  | HDL_WG_STAT
  /-- 02 R63: RO/W1C. -/
  | HDL_PFLT
  /-- 02 R63: RW. -/
  | HDL_PFLT_ADDR
  /-- 02 R62: RO. -/
  | HDL_TAG_STATUS
  /-- 02 R63: W1S. -/
  | HDL_TAG_REPAIR
  /-- 02 R63: RO. -/
  | HDL_LIFE_USED
  /-- 02 R63: RO. -/
  | HDL_LIFE_RATED
  /-- 02 R62: RO. -/
  | HDL_LIFE_PCT
  /-- 02 R63: W1S/RO. -/
  | HDL_LIFE_COMMIT
  /-- 02 R63: RO. -/
  | HDL_LIFE_LAST
  /-- 03 R102: RW. -/
  | LNE_AFE_CTL
  /-- 03 R110: RW. -/
  | LNE_GAIN
  /-- 03 R110: RW. -/
  | LNE_BASE
  /-- 03 R110: RW. -/
  | LNE_ASYM
  /-- 03 R110: RO. -/
  | LNE_DFE_CUR
  /-- 03 R110: RO. -/
  | LNE_SLICE_MAP_LO
  /-- 03 R110: RO. -/
  | LNE_SLICE_MAP_HI
  /-- 03 R110: RO. -/
  | LNE_TRIM
  /-- 03 R110: RW. -/
  | LNE_RATE
  /-- 03 R110: RO/W1C. -/
  | LNE_RATE_STAT
  /-- 03 R110: RW. -/
  | LNE_PAIR_SKEW
  /-- 03 R110: RW. -/
  | LNE_SV_OFFSET
  /-- 03 R104: RW. -/
  | LNE_TIM_CTL
  /-- 03 R110: RO. -/
  | LNE_TIM_STAT
  /-- 03 R103: RW. -/
  | LNE_LOOP_CTL
  /-- 03 R110: RW. -/
  | LNE_TARGET
  /-- 03 R110: RO. -/
  | LNE_TARGET_CUR
  /-- 03 R105: RW. -/
  | LNE_SYNC_CTL
  /-- 03 R110: RW. -/
  | LNE_SYNC_PAT
  /-- 03 R106: RW. -/
  | LNE_DEF_CTL
  /-- 03 R110: RW. -/
  | LNE_DET_CTL
  /-- 03 R109: RO. -/
  | LNE_RUN_STAT
  /-- 03 R107: RW. -/
  | LNE_RETAIN
  /-- 03 R108: RW. -/
  | LNE_REPLAY
  /-- 03 R110: RC. -/
  | LNE_CNT
  /-- 03 R110: RW. -/
  | LNE_EQ
  /-- 03 R110: RO. -/
  | LNE_EQ_CUR
  /-- 03 R110: RO. -/
  | LNE_ADC_MODE
  /-- 04 R138: RW. -/
  | DCP_CTL
  /-- 04 R139: RW. -/
  | DCP_OTF_CTL
  /-- 04 R140: RW. -/
  | DCP_RCV_CTL
  /-- 04 R142: RW. -/
  | DCP_SECT_TIME
  /-- 04 R142: RO. -/
  | DCP_Q_STAT
  /-- 04 R142: RC. -/
  | DCP_CPL
  /-- 04 R142: RC. -/
  | DCP_CNT
  /-- 04 R141: RW. -/
  | DCP_SUBMIT
  /-- 04 R142: RO. -/
  | DCP_PINS
  /-- 04 R142: RO. -/
  | DCP_DEC_STAT
  /-- 05 R166: RW. -/
  | WRP_CTL
  /-- 05 R170: RW. -/
  | WRP_PA_CFG
  /-- 05 R170: RW. -/
  | WRP_MAX_TRACK
  /-- 05 R169: RO. -/
  | WRP_RUN_STAT
  /-- 05 R170: RC. -/
  | WRP_CNT
  /-- 05 R170: RO. -/
  | WRP_HEAT_STAT
  /-- 05 R167: RW. -/
  | WRP_ZONE
  /-- 05 R170: RW. -/
  | WRP_ZONE2
  /-- 05 R168: RW. -/
  | WRP_PC
  /-- 05 R168: RW. -/
  | WRP_HA
  /-- 06 R211: RW. -/
  | SVG_CTL
  /-- 06 R213: RO. -/
  | SVG_PES
  /-- 06 R214: RO. -/
  | SVG_TRK
  /-- 06 R215: RO. -/
  | SVG_TONE
  /-- 06 R215: RC. -/
  | SVG_CNT
  /-- 06 R212: RW. -/
  | SVG_ZONE
  /-- 06 R215: RW. -/
  | SVG_PESCAL
  /-- 06 R225: RW. -/
  | CTE_MAX_TRACK
  /-- 06 R224: RW. -/
  | CTE_EXT_CTL
  /-- 06 R225: RO. -/
  | CTE_EXT_STAT
  /-- 06 R217: RW. -/
  | CTE_CMD
  /-- 06 R218: RO. -/
  | CTE_STAT
  /-- 06 R216: RW. -/
  | CTE_SEEK
  /-- 06 R219: RW. -/
  | CTE_MODESET
  /-- 06 R220: RW. -/
  | CTE_LAW_CTL
  /-- 06 R220: RW. -/
  | CTE_SETTLE
  /-- 06 R221: RW. -/
  | CTE_OT
  /-- 06 R222: RW. -/
  | CTE_LOAD
  /-- 06 R222: RW. -/
  | CTE_PARK
  /-- 06 R225: RW. -/
  | CTE_RES_LIM
  /-- 06 R225: RW. -/
  | CTE_RES_CNT
  /-- 06 R225: RC. -/
  | CTE_CNT
  /-- 06 R223: W1C. -/
  | CTE_SAT
  /-- 06 R225: RW/W1C. -/
  | CTE_SPN_CTL
  /-- 06 R225: RO. -/
  | CTE_SPN_OUT
  /-- 06 R225: RW. -/
  | CTE_COEF
  /-- 06 R225: RW. -/
  | CTE_VEL
  /-- 07 R260: WO/RO/W1C. -/
  | SPN_CMD
  /-- 07 R261: RO. -/
  | SPN_STAT
  /-- 07 R268: RW/W1C. -/
  | SPN_SPEED
  /-- 07 R268: RW. -/
  | SPN_LIM
  /-- 07 R262: RW. -/
  | SPN_START_CTL
  /-- 07 R263: RW. -/
  | SPN_WIN_CTL
  /-- 07 R268: RW. -/
  | SPN_BRAKE_CTL
  /-- 07 R264: RW. -/
  | SPN_SYNC_CTL
  /-- 07 R268: RO. -/
  | SPN_SYNC_STAT
  /-- 07 R268: RO. -/
  | SPN_OBS
  /-- 07 R265: RO. -/
  | SPN_HU_MEAS
  /-- 07 R268: RO. -/
  | SPN_HU_STAT
  /-- 07 R268: RC. -/
  | SPN_CNT
  /-- 07 R268: RO. -/
  | PWS_STAT
  /-- 07 R268: RO. -/
  | PWS_VOLT
  /-- 07 R266: RW. -/
  | PWS_CLAMP
  /-- 07 R267: W1C. -/
  | PWS_FAULT
  /-- 07 R268: RW. -/
  | PWS_RETRACT
  /-- 07 R268: RW. -/
  | PWS_UACT_CTL
  /-- 07 R268: RW. -/
  | PWS_HU_LOAD
  /-- 07 R268: RO. -/
  | PWS_TEMP
  /-- 07 R268: RO. -/
  | PWS_BRK_I
  /-- 08 R327: RO. -/
  | SHT_ROM_ID
  /-- 08 R327: RW. -/
  | SHT_CODE_TOP
  /-- 08 R327: RW. -/
  | SHT_TASK_TMO
  /-- 08 R324: RW. -/
  | SHT_LOAD
  /-- 08 R327: RO. -/
  | SHT_LOAD_STAT
  /-- 08 R327: RW. -/
  | SHT_LOAD_MASK
  /-- 08 R327: RW. -/
  | SHT_LS_PORT_ADDR
  /-- 08 R327: RW. -/
  | SHT_LS_PORT_DATA
  /-- 08 R323: RO. -/
  | SHT_PATCH_STAT
  /-- 08 R322: RO. -/
  | SHT_MATCH
  /-- 08 R319: RW/WO. -/
  | SHT_S_CTL
  /-- 08 R320: RO. -/
  | SHT_STAT
  /-- 08 R321: RO. -/
  | SHT_TRAP
  /-- 08 R327: RO. -/
  | SHT_LOST
  /-- 08 R327: RC. -/
  | SHT_CNT
  /-- 08 R327: RW. -/
  | LOOM_CTL
  /-- 08 R327: WO. -/
  | LOOM_INJECT
  /-- 08 R327: RO/W1C. -/
  | LOOM_INJ_STAT
  /-- 08 R327: WO. -/
  | LOOM_PUSH
  /-- 08 R327: RC. -/
  | LOOM_TAKE
  /-- 08 R327: RO/W1C. -/
  | LOOM_DQ_STAT
  /-- 08 R326: RW. -/
  | LOOM_BAR_CFG
  /-- 08 R327: WO. -/
  | LOOM_BAR_ARRIVE
  /-- 08 R327: RO. -/
  | LOOM_BAR_RESULT
  /-- 08 R327: RO/W1C. -/
  | LOOM_BAR_STAT
  /-- 09 R372: RW. -/
  | GLY_CTL
  /-- 09 R378: RO. -/
  | GLY_STAT
  /-- 09 R373: RW. -/
  | GLY_ARB_CTL
  /-- 09 R374: RW. -/
  | GLY_BUDGET
  /-- 09 R374: RO. -/
  | GLY_BUDGET_STAT
  /-- 09 R378: RW. -/
  | GLY_DISPATCH_CTL
  /-- 09 R377: RW. -/
  | GLY_DRAIN
  /-- 09 R378: RO. -/
  | GLY_ASN_NEXT
  /-- 09 R378: WO. -/
  | GLY_ASN_FLOOR
  /-- 09 R378: RW. -/
  | GLY_QEXT_BASE
  /-- 09 R378: RW. -/
  | GLY_WBUF_BASE
  /-- 09 R378: RW. -/
  | GLY_WBUF_SIZE
  /-- 09 R378: RW. -/
  | GLY_ZONE_BASE
  /-- 09 R378: RW. -/
  | GLY_QCTX_SEL
  /-- 09 R378: RW. -/
  | GLY_QCTX_LO
  /-- 09 R378: RW. -/
  | GLY_QCTX_HI
  /-- 09 R378: RC. -/
  | GLY_CNT
  /-- 09 R375: RW. -/
  | GLY_SLOT_CMD
  /-- 09 R378: RW. -/
  | GLY_SLOT_ARG
  /-- 09 R378: RW. -/
  | GLY_SLOT_RD
  /-- 09 R376: RW. -/
  | GLY_WB_CMD
  /-- 09 R378: RW. -/
  | GLY_WB_LBA
  /-- 09 R378: RO. -/
  | GLY_WB_RES
  /-- 09 R378: RW. -/
  | GLY_WB_ASN
  /-- 09 R378: RO. -/
  | GLY_SLOT_IMG
  /-- 10 R401: RO. -/
  | HFE_CFG
  /-- 10 R403: RW. -/
  | HFE_ID
  /-- 10 R403: RO/W1C. -/
  | HFE_RESET_STAT
  /-- 10 R403: RC. -/
  | HFE_PI_CNT
  /-- 10 R403: RC. -/
  | HFE_LINK_CNT
  /-- 10 R403: RW. -/
  | HFE_SAS_ADDR_0
  /-- 10 R403: RW. -/
  | HFE_SAS_ADDR_1
  /-- 10 R403: RW. -/
  | MGT_CTL
  /-- 10 R403: RW. -/
  | MGT_ADDR
  /-- 10 R402: RO. -/
  | MGT_TEMP
  /-- 10 R403: RW. -/
  | MGT_TEMP_THR
  /-- 10 R403: RO. -/
  | MGT_STAT
  /-- 10 R403: RC. -/
  | MGT_CNT
  /-- 11 R436: RW. -/
  | BFM_ECC_CTL
  /-- 11 R440: RC. -/
  | BFM_CE_CNT
  /-- 11 R440: RO. -/
  | BFM_CE_LOG
  /-- 11 R437: RO/W1C. -/
  | BFM_UE_LOG
  /-- 11 R440: RW. -/
  | BFM_SCRUB_CTL
  /-- 11 R440: RO. -/
  | BFM_SCRUB_LAP
  /-- 11 R440: RO. -/
  | BFM_SCRUB_STAT
  /-- 11 R440: RO. -/
  | BFM_DRAM_STAT
  /-- 11 R440: RC. -/
  | BFM_DRAM_CNT
  /-- 11 R440: RW. -/
  | SYC_CTL
  /-- 11 R440: RW. -/
  | SYC_ALLOC_CTL
  /-- 11 R440: RW. -/
  | SYC_WAY_LOCK
  /-- 11 R440: RW/RO/W1C. -/
  | SYC_SCRATCH
  /-- 11 R440: RW. -/
  | SYC_RANGE_BASE
  /-- 11 R440: RW. -/
  | SYC_RANGE_LEN
  /-- 11 R438: RW/WO. -/
  | SYC_RANGE_CMD
  /-- 11 R439: RO. -/
  | SYC_RANGE_STAT
  /-- 11 R440: RC. -/
  | SYC_CNT
  /-- 11 R440: RO. -/
  | SYC_EVB_STAT
  /-- 12 R465: RW. -/
  | DMA_CH_CFG
  /-- 12 R468: RW. -/
  | DMA_CH_RING
  /-- 12 R468: RW. -/
  | DMA_CH_TAIL
  /-- 12 R468: RO. -/
  | DMA_CH_HEAD
  /-- 12 R468: RW/WO. -/
  | DMA_CH_CTL
  /-- 12 R466: RO/W1C. -/
  | DMA_CH_STATUS
  /-- 12 R468: RO. -/
  | DMA_CH_SRC
  /-- 12 R468: RO. -/
  | DMA_CH_DST
  /-- 12 R468: RO. -/
  | DMA_CH_COUNT
  /-- 12 R468: RO. -/
  | DMA_CH_LATE
  /-- 12 R468: RC. -/
  | DMA_CH_CNT
  /-- 12 R468: RC. -/
  | SPL_PAR_CNT
  /-- 12 R468: RW/WO. -/
  | SPL_FW_CFG
  /-- 12 R467: RO/W1C. -/
  | SPL_FW_STAT
  /-- 12 R468: WO. -/
  | SPL_FW_PUSH
  /-- 12 R468: WO. -/
  | SPL_FW_PUSH_LAST
  /-- 12 R468: RC. -/
  | SPL_FW_POP
  /-- 12 R468: WO. -/
  | SPL_FW_DROP
  /-- 12 R468: RO. -/
  | SPL_POPSTAT
  /-- 13 R502: RW/W1S. -/
  | FLT_CTL
  /-- 13 R503: RO. -/
  | FLT_STAT
  /-- 13 R504: RO. -/
  | FLT_SPARE
  /-- 13 R505: RO. -/
  | FLT_HU_STAT
  /-- 13 R507: RW. -/
  | FLT_HU_CTL
  /-- 13 R506: RO. -/
  | FLT_LIFE_PCT
  /-- 13 R507: RO. -/
  | FLT_GEOM
  /-- 13 R507: RO. -/
  | FLT_DIE_MAP
  /-- 13 R507: RW/RO. -/
  | FLT_ONFI_CTL
  /-- 13 R507: RO. -/
  | FLT_LOGICAL
  /-- 13 R507: RW. -/
  | FLT_MAP_BASE
  /-- 13 R507: RW. -/
  | FLT_Q_BASE
  /-- 13 R507: RW. -/
  | FLT_Q_TAIL
  /-- 13 R507: RO. -/
  | FLT_Q_HEAD
  /-- 13 R507: RW. -/
  | FLT_SLC_CTL
  /-- 13 R507: RW. -/
  | FLT_THROTTLE
  /-- 13 R507: RW. -/
  | FLT_VERIFY_CTL
  /-- 13 R507: RW. -/
  | FLT_GC_CTL
  /-- 13 R507: RW. -/
  | FLT_PE_RATED
  /-- 13 R507: RO. -/
  | FLT_WEAR
  /-- 13 R507: RO. -/
  | FLT_ERR_CNT
  /-- 13 R507: RO. -/
  | FLT_LOST_CNT
  /-- 13 R507: RO. -/
  | FLT_PIN_CNT
  /-- 13 R507: RO. -/
  | FLT_VALID_CNT
  /-- 13 R507: RW. -/
  | FLT_CKPT_CTL
  /-- 13 R507: RW. -/
  | FLT_RR_CTL
  /-- 13 R507: RW. -/
  | FLT_RR_VAL
  /-- 13 R507: RO. -/
  | FLT_TEMP_HIST
  /-- 14 R532: RW. -/
  | SVC_MTIME
  /-- 14 R532: W1S. -/
  | SVC_IPI_SET
  /-- 14 R532: RW. -/
  | SVC_NMI_VEC
  /-- 14 R532: RW. -/
  | SVC_DQ_THR
  /-- 14 R532: RC. -/
  | SVC_SEM_ERR
  /-- 14 R532: RW. -/
  | SVC_MTIMECMP
  /-- 14 R532: RW. -/
  | SVC_MSIP
  /-- 14 R530: RW/RO. -/
  | SVC_CORE_CTL
  /-- 14 R532: RW. -/
  | SVC_CORE_PC
  /-- 14 R531: RO/RC/WO. -/
  | SVC_SEM
  /-- 14 R532: RC. -/
  | SVC_CL_CNT
  /-- 14 R532: RW. -/
  | OFL_WV_RING
  /-- 14 R532: RW. -/
  | OFL_WV_TAIL
  /-- 14 R532: RO. -/
  | OFL_WV_HEAD
  /-- 14 R532: RO. -/
  | OFL_WV_STAT
  /-- 14 R532: RW. -/
  | OFL_CD_RING
  /-- 14 R532: RW. -/
  | OFL_CD_TAIL
  /-- 14 R532: RO. -/
  | OFL_CD_HEAD
  /-- 14 R532: RO. -/
  | OFL_CD_STAT
  /-- 14 R532: RC. -/
  | OFL_CNT
  /-- 15 R560: RO/W1C. -/
  | FCL_STAT
  /-- 15 R566: WO. -/
  | FCL_CTL
  /-- 15 R566: RO. -/
  | FCL_CAUSE
  /-- 15 R561: RO/W1C. -/
  | FCL_CAUSE_INFO
  /-- 15 R566: RO. -/
  | FCL_LAST
  /-- 15 R566: RC. -/
  | FCL_CNT
  /-- 15 R566: WO. -/
  | FCL_SW_SET
  /-- 15 R566: WO. -/
  | FCL_SW_RAISE
  /-- 15 R559: RC. -/
  | FCL_CLAIM
  /-- 15 R566: RW. -/
  | FCL_THRESH
  /-- 15 R566: W1C. -/
  | FCL_PEND
  /-- 15 R558: RW. -/
  | FCL_SRC_CFG
  /-- 15 R562: RW. -/
  | EVR_CTL
  /-- 15 R563: RO/W1C. -/
  | EVR_STAT
  /-- 15 R566: RW. -/
  | EVR_LOG_BASE
  /-- 15 R566: RC. -/
  | EVR_DROPS
  /-- 15 R566: RO. -/
  | EVR_SEQ_NEXT
  /-- 15 R566: RC. -/
  | EVR_DIRTY
  /-- 15 R565: RW/WO. -/
  | EVR_FW_CMD
  /-- 15 R566: RW. -/
  | EVR_FW_P
  /-- 15 R564: RW. -/
  | EVR_RATE
  /-- 16 R592: RO. -/
  | SEC_LC
  /-- 16 R592: RW/WO. -/
  | SEC_LC_REQ
  /-- 16 R597: RO. -/
  | SEC_OTP_STAT
  /-- 16 R597: RW. -/
  | SEC_OTP_CMD
  /-- 16 R595: RO. -/
  | SEC_BOOT_STAT
  /-- 16 R597: WO. -/
  | SEC_BOOT_CTL
  /-- 16 R597: RW. -/
  | SEC_STAGE_BASE
  /-- 16 R597: RW. -/
  | SEC_UPD_ADDR
  /-- 16 R593: RW/WO. -/
  | SEC_UPD_CMD
  /-- 16 R594: RO. -/
  | SEC_UPD_STAT
  /-- 16 R597: RW. -/
  | SEC_PATCH_ADDR
  /-- 16 R597: RW/WO. -/
  | SEC_PATCH_CMD
  /-- 16 R597: RW/WO. -/
  | SEC_KEY_CMD
  /-- 16 R597: RW. -/
  | SEC_TOKEN_ADDR
  /-- 16 R597: RC. -/
  | SEC_NONCE
  /-- 16 R597: RW. -/
  | SEC_OTP_ADDR
  /-- 16 R597: WO. -/
  | SEC_CRED
  /-- 16 R597: RW. -/
  | SEC_CERT_BASE
  /-- 16 R597: RW/WO. -/
  | SEC_SIGN_CMD
  /-- 16 R597: WO. -/
  | SEC_SIGN_DIG
  /-- 16 R597: RO. -/
  | SEC_SIGN_OUT
  /-- 16 R596: RW. -/
  | SEC_RANGE
  /-- 16 R597: RW. -/
  | SEC_RANGE_LEN
  /-- 16 R597: RO. -/
  | SEC_MEAS
  /-- 17 R621: RO. -/
  | CKR_STRAP
  /-- 17 R6: RO. -/
  | CKR_UNITS
  /-- 17 R7: RO. -/
  | CKR_LIMITS
  /-- 17 R617: RO. -/
  | CKR_READY
  /-- 17 R621: RW. -/
  | CKR_FWREADY
  /-- 17 R621: WO. -/
  | CKR_RST
  /-- 17 R618: W1S. -/
  | CKR_BRST
  /-- 17 R621: RO. -/
  | CKR_PWR_STAT
  /-- 17 R621: RW. -/
  | CKR_DIRTY_TIER
  /-- 17 R621: W1S/RO. -/
  | CKR_SHUTDOWN
  /-- 17 R621: RO. -/
  | CKR_CLK_STAT
  /-- 17 R621: RO. -/
  | CKR_DTIME
  /-- 17 R621: RO. -/
  | CKR_PCYCLE
  /-- 17 R621: RW. -/
  | CAL_CTL
  /-- 17 R619: RW/WO. -/
  | CAL_CMD
  /-- 17 R621: RO. -/
  | CAL_STAT
  /-- 17 R621: RC. -/
  | CAL_CNT
  /-- 17 R621: RW. -/
  | CAL_TRACK
  /-- 17 R620: RO. -/
  | CAL_COUNT
  /-- 17 R621: RO. -/
  | CAL_LAST
deriving DecidableEq, Repr

namespace Reg

/-- Where each register stands, and its fields (the register summaries and field tables of the chapters). -/
def info : Reg → RegInfo
  | .HDL_HEADMAP_LOCK => ⟨.hdl, 0x0, 0x0, 0, 0x0, 1, 0, false, .always,
      [⟨0, 1, .w1s⟩, ⟨4, 4, .ro⟩]⟩
  | .HDL_HEADMAP => ⟨.hdl, 0x100, 0x0, 0, 0x4, 32, 0, false, .head,
      [⟨0, 3, .rw⟩, ⟨3, 2, .rw⟩, ⟨5, 1, .rw⟩, ⟨6, 1, .rw⟩, ⟨7, 1, .rw⟩]⟩
  | .HDL_PSP_CMD => ⟨.hdl, 0x200, 0x0, 0, 0x20, 4, 0, false, .act,
      [⟨0, 16, .rw⟩, ⟨16, 7, .rw⟩, ⟨23, 1, .rw⟩, ⟨24, 1, .wo⟩, ⟨30, 1, .w1c⟩, ⟨31, 1, .ro⟩]⟩
  | .HDL_PSP_RDATA => ⟨.hdl, 0x204, 0x0, 0, 0x20, 4, 0, false, .act,
      [⟨0, 16, .ro⟩, ⟨16, 1, .ro⟩]⟩
  | .HDL_HSEL => ⟨.hdl, 0x208, 0x0, 0, 0x20, 4, 0, false, .act,
      [⟨0, 5, .rw⟩, ⟨8, 1, .ro⟩, ⟨16, 8, .ro⟩]⟩
  | .HDL_HSW_SETTLE => ⟨.hdl, 0x20c, 0x0, 0, 0x20, 4, 0, false, .act,
      [⟨0, 8, .rw⟩]⟩
  | .HDL_WG_STAT => ⟨.hdl, 0x210, 0x0, 0, 0x20, 4, 0, false, .act,
      [⟨0, 7, .ro⟩]⟩
  | .HDL_PFLT => ⟨.hdl, 0x214, 0x0, 0, 0x20, 4, 0, false, .act,
      [⟨0, 1, .ro⟩, ⟨1, 1, .w1c⟩, ⟨16, 16, .ro⟩]⟩
  | .HDL_PFLT_ADDR => ⟨.hdl, 0x218, 0x0, 0, 0x20, 4, 0, false, .act,
      [⟨0, 7, .rw⟩]⟩
  | .HDL_TAG_STATUS => ⟨.hdl, 0x300, 0x0, 0, 0x0, 1, 0, false, .always,
      [⟨0, 3, .ro⟩, ⟨3, 4, .ro⟩, ⟨8, 8, .ro⟩]⟩
  | .HDL_TAG_REPAIR => ⟨.hdl, 0x304, 0x0, 0, 0x0, 1, 0, false, .always,
      [⟨0, 1, .w1s⟩, ⟨1, 1, .w1s⟩, ⟨8, 8, .ro⟩]⟩
  | .HDL_LIFE_USED => ⟨.hdl, 0x310, 0x0, 0, 0x8, 5, 0, true, .always,
      [⟨0, 64, .ro⟩]⟩
  | .HDL_LIFE_RATED => ⟨.hdl, 0x340, 0x0, 0, 0x8, 5, 0, true, .always,
      [⟨0, 64, .ro⟩]⟩
  | .HDL_LIFE_PCT => ⟨.hdl, 0x370, 0x0, 0, 0x0, 1, 0, false, .always,
      [⟨0, 8, .ro⟩, ⟨8, 3, .ro⟩]⟩
  | .HDL_LIFE_COMMIT => ⟨.hdl, 0x374, 0x0, 0, 0x0, 1, 0, false, .always,
      [⟨0, 1, .w1s⟩, ⟨1, 1, .ro⟩, ⟨2, 1, .ro⟩, ⟨8, 8, .ro⟩]⟩
  | .HDL_LIFE_LAST => ⟨.hdl, 0x378, 0x0, 0, 0x0, 1, 0, true, .always,
      [⟨0, 48, .ro⟩]⟩
  | .LNE_AFE_CTL => ⟨.lne, 0x0, 0x0, 0, 0x2000, 8, 0, false, .lane,
      [⟨0, 1, .rw⟩, ⟨1, 5, .rw⟩, ⟨6, 4, .rw⟩, ⟨10, 6, .rw⟩, ⟨16, 1, .rw⟩]⟩
  | .LNE_GAIN => ⟨.lne, 0x8, 0x0, 0, 0x2000, 8, 0, false, .lane,
      [⟨0, 16, .rw⟩]⟩
  | .LNE_BASE => ⟨.lne, 0xc, 0x0, 0, 0x2000, 8, 0, false, .lane,
      [⟨0, 12, .rw⟩]⟩
  | .LNE_ASYM => ⟨.lne, 0x10, 0x0, 0, 0x2000, 8, 0, false, .lane,
      [⟨0, 16, .rw⟩]⟩
  | .LNE_DFE_CUR => ⟨.lne, 0x18, 0x0, 0, 0x2000, 8, 0, true, .lane,
      [⟨0, 16, .ro⟩, ⟨16, 12, .ro⟩, ⟨32, 16, .ro⟩]⟩
  | .LNE_SLICE_MAP_LO => ⟨.lne, 0x40, 0x0, 0, 0x2000, 8, 0, true, .lane,
      [⟨0, 60, .ro⟩]⟩
  | .LNE_SLICE_MAP_HI => ⟨.lne, 0x48, 0x0, 0, 0x2000, 8, 0, true, .lane,
      [⟨0, 30, .ro⟩]⟩
  | .LNE_TRIM => ⟨.lne, 0x100, 0x2000, 8, 0x4, 18, 18, false, .trim,
      [⟨0, 8, .ro⟩, ⟨8, 8, .ro⟩, ⟨16, 8, .ro⟩]⟩
  | .LNE_RATE => ⟨.lne, 0x20000, 0x0, 0, 0x4000, 4, 0, false, .act,
      [⟨0, 16, .rw⟩]⟩
  | .LNE_RATE_STAT => ⟨.lne, 0x20008, 0x0, 0, 0x4000, 4, 0, false, .act,
      [⟨0, 1, .ro⟩, ⟨1, 1, .w1c⟩]⟩
  | .LNE_PAIR_SKEW => ⟨.lne, 0x20010, 0x0, 0, 0x4000, 4, 0, false, .act,
      [⟨0, 8, .rw⟩, ⟨8, 6, .rw⟩]⟩
  | .LNE_SV_OFFSET => ⟨.lne, 0x20018, 0x0, 0, 0x4000, 4, 0, false, .act,
      [⟨0, 8, .rw⟩]⟩
  | .LNE_TIM_CTL => ⟨.lne, 0x20020, 0x0, 0, 0x4000, 4, 0, false, .act,
      [⟨0, 4, .rw⟩, ⟨4, 4, .rw⟩, ⟨8, 4, .rw⟩, ⟨12, 4, .rw⟩, ⟨16, 4, .rw⟩, ⟨20, 1, .rw⟩, ⟨21, 1, .rw⟩, ⟨22, 1, .rw⟩]⟩
  | .LNE_TIM_STAT => ⟨.lne, 0x20024, 0x0, 0, 0x4000, 4, 0, false, .act,
      [⟨0, 16, .ro⟩, ⟨16, 6, .ro⟩]⟩
  | .LNE_LOOP_CTL => ⟨.lne, 0x20028, 0x0, 0, 0x4000, 4, 0, false, .act,
      [⟨0, 4, .rw⟩, ⟨4, 4, .rw⟩, ⟨8, 4, .rw⟩, ⟨12, 4, .rw⟩, ⟨16, 4, .rw⟩, ⟨20, 1, .rw⟩, ⟨21, 1, .rw⟩, ⟨22, 1, .rw⟩, ⟨23, 1, .rw⟩, ⟨24, 1, .rw⟩, ⟨25, 1, .rw⟩, ⟨26, 5, .rw⟩]⟩
  | .LNE_TARGET => ⟨.lne, 0x20030, 0x0, 0, 0x4000, 4, 0, true, .act,
      [⟨0, 64, .rw⟩]⟩
  | .LNE_TARGET_CUR => ⟨.lne, 0x20038, 0x0, 0, 0x4000, 4, 0, true, .act,
      [⟨0, 64, .ro⟩]⟩
  | .LNE_SYNC_CTL => ⟨.lne, 0x20040, 0x0, 0, 0x4000, 4, 0, false, .act,
      [⟨0, 6, .rw⟩, ⟨6, 3, .rw⟩, ⟨9, 1, .rw⟩, ⟨10, 1, .rw⟩]⟩
  | .LNE_SYNC_PAT => ⟨.lne, 0x20048, 0x0, 0, 0x4000, 4, 0, true, .act,
      [⟨0, 32, .rw⟩, ⟨32, 32, .rw⟩]⟩
  | .LNE_DEF_CTL => ⟨.lne, 0x20050, 0x0, 0, 0x4000, 4, 0, false, .act,
      [⟨0, 6, .rw⟩, ⟨6, 6, .rw⟩, ⟨12, 6, .rw⟩, ⟨18, 12, .rw⟩, ⟨30, 2, .rw⟩]⟩
  | .LNE_DET_CTL => ⟨.lne, 0x20058, 0x0, 0, 0x4000, 4, 0, false, .act,
      [⟨0, 8, .rw⟩]⟩
  | .LNE_RUN_STAT => ⟨.lne, 0x20060, 0x0, 0, 0x4000, 4, 0, false, .act,
      [⟨0, 3, .ro⟩, ⟨3, 8, .ro⟩, ⟨11, 16, .ro⟩]⟩
  | .LNE_RETAIN => ⟨.lne, 0x20068, 0x0, 0, 0x4000, 4, 0, true, .act,
      [⟨0, 2, .rw⟩, ⟨2, 16, .rw⟩, ⟨18, 1, .wo⟩, ⟨19, 1, .wo⟩, ⟨20, 8, .ro⟩, ⟨28, 4, .ro⟩, ⟨32, 4, .ro⟩, ⟨36, 16, .ro⟩]⟩
  | .LNE_REPLAY => ⟨.lne, 0x20070, 0x0, 0, 0x4000, 4, 0, true, .act,
      [⟨0, 2, .rw⟩, ⟨2, 16, .rw⟩, ⟨18, 7, .rw⟩, ⟨25, 1, .rw⟩, ⟨26, 1, .rw⟩, ⟨27, 1, .wo⟩, ⟨28, 8, .ro⟩, ⟨36, 1, .ro⟩, ⟨37, 4, .ro⟩]⟩
  | .LNE_CNT => ⟨.lne, 0x20080, 0x0, 0, 0x4000, 4, 0, true, .act,
      [⟨0, 16, .rc⟩, ⟨16, 16, .rc⟩, ⟨32, 16, .rc⟩, ⟨48, 16, .rc⟩]⟩
  | .LNE_EQ => ⟨.lne, 0x20400, 0x4000, 4, 0x4, 64, 64, false, .tap,
      [⟨0, 16, .rw⟩]⟩
  | .LNE_EQ_CUR => ⟨.lne, 0x20600, 0x4000, 4, 0x4, 64, 64, false, .tap,
      [⟨0, 16, .ro⟩]⟩
  | .LNE_ADC_MODE => ⟨.lne, 0x30000, 0x0, 0, 0x0, 1, 0, false, .always,
      [⟨0, 1, .ro⟩, ⟨1, 4, .ro⟩]⟩
  | .DCP_CTL => ⟨.dcp, 0x0, 0x0, 0, 0x0, 1, 0, false, .always,
      [⟨0, 12, .rw⟩, ⟨12, 1, .rw⟩, ⟨13, 4, .rw⟩, ⟨17, 1, .rw⟩, ⟨18, 1, .rw⟩]⟩
  | .DCP_OTF_CTL => ⟨.dcp, 0x8, 0x0, 0, 0x0, 1, 0, false, .always,
      [⟨0, 6, .rw⟩, ⟨6, 7, .rw⟩, ⟨13, 6, .rw⟩, ⟨19, 6, .rw⟩]⟩
  | .DCP_RCV_CTL => ⟨.dcp, 0x10, 0x0, 0, 0x0, 1, 0, true, .always,
      [⟨0, 8, .rw⟩, ⟨8, 8, .rw⟩, ⟨16, 6, .rw⟩, ⟨22, 6, .rw⟩, ⟨28, 3, .rw⟩, ⟨31, 2, .rw⟩, ⟨33, 8, .rw⟩, ⟨41, 5, .rw⟩, ⟨48, 16, .rw⟩]⟩
  | .DCP_SECT_TIME => ⟨.dcp, 0x100, 0x0, 0, 0x40, 4, 0, false, .act,
      [⟨0, 16, .rw⟩]⟩
  | .DCP_Q_STAT => ⟨.dcp, 0x108, 0x0, 0, 0x40, 4, 0, false, .act,
      [⟨0, 5, .ro⟩, ⟨5, 5, .ro⟩, ⟨10, 5, .ro⟩, ⟨15, 5, .ro⟩, ⟨20, 5, .ro⟩, ⟨25, 7, .ro⟩]⟩
  | .DCP_CPL => ⟨.dcp, 0x110, 0x0, 0, 0x40, 4, 0, true, .act,
      [⟨0, 64, .rc⟩]⟩
  | .DCP_CNT => ⟨.dcp, 0x118, 0x0, 0, 0x40, 4, 0, true, .act,
      [⟨0, 16, .rc⟩, ⟨16, 16, .rc⟩, ⟨32, 16, .rc⟩, ⟨48, 16, .rc⟩]⟩
  | .DCP_SUBMIT => ⟨.dcp, 0x120, 0x0, 0, 0x40, 4, 0, true, .act,
      [⟨0, 2, .rw⟩, ⟨2, 16, .rw⟩, ⟨18, 7, .rw⟩, ⟨25, 1, .rw⟩, ⟨26, 1, .rw⟩, ⟨27, 3, .rw⟩, ⟨30, 16, .rw⟩, ⟨46, 8, .rw⟩, ⟨54, 1, .wo⟩, ⟨55, 8, .ro⟩, ⟨63, 1, .ro⟩]⟩
  | .DCP_PINS => ⟨.dcp, 0x128, 0x0, 0, 0x40, 4, 0, false, .act,
      [⟨0, 2, .ro⟩, ⟨2, 4, .ro⟩]⟩
  | .DCP_DEC_STAT => ⟨.dcp, 0x400, 0x0, 0, 0x4, 12, 0, false, .dec,
      [⟨0, 2, .ro⟩, ⟨2, 2, .ro⟩, ⟨4, 8, .ro⟩, ⟨12, 3, .ro⟩]⟩
  | .WRP_CTL => ⟨.wrp, 0x0, 0x0, 0, 0x0, 1, 0, false, .always,
      [⟨0, 5, .rw⟩, ⟨5, 5, .rw⟩, ⟨10, 1, .rw⟩, ⟨11, 1, .rw⟩]⟩
  | .WRP_PA_CFG => ⟨.wrp, 0x4, 0x0, 0, 0x0, 1, 0, false, .always,
      [⟨0, 7, .rw⟩, ⟨8, 7, .rw⟩]⟩
  | .WRP_MAX_TRACK => ⟨.wrp, 0x8, 0x0, 0, 0x0, 1, 0, false, .always,
      [⟨0, 21, .rw⟩]⟩
  | .WRP_RUN_STAT => ⟨.wrp, 0x100, 0x0, 0, 0x20, 4, 0, false, .act,
      [⟨0, 2, .ro⟩, ⟨2, 8, .ro⟩, ⟨10, 16, .ro⟩, ⟨26, 1, .ro⟩]⟩
  | .WRP_CNT => ⟨.wrp, 0x108, 0x0, 0, 0x20, 4, 0, true, .act,
      [⟨0, 32, .rc⟩, ⟨32, 16, .rc⟩, ⟨48, 8, .rc⟩, ⟨56, 8, .rc⟩]⟩
  | .WRP_HEAT_STAT => ⟨.wrp, 0x110, 0x0, 0, 0x20, 4, 0, false, .act,
      [⟨0, 2, .ro⟩, ⟨2, 5, .ro⟩]⟩
  | .WRP_ZONE => ⟨.wrp, 0x1000, 0x0, 0, 0x10, 64, 0, true, .always,
      [⟨0, 21, .rw⟩, ⟨21, 1, .rw⟩, ⟨22, 2, .rw⟩, ⟨24, 1, .rw⟩, ⟨25, 12, .rw⟩, ⟨37, 21, .rw⟩, ⟨58, 4, .rw⟩]⟩
  | .WRP_ZONE2 => ⟨.wrp, 0x1008, 0x0, 0, 0x10, 64, 0, false, .always,
      [⟨0, 12, .rw⟩, ⟨12, 12, .rw⟩, ⟨24, 8, .rw⟩]⟩
  | .WRP_PC => ⟨.wrp, 0x2000, 0x0, 0, 0x10, 512, 0, true, .headGroup,
      [⟨0, 48, .rw⟩, ⟨48, 6, .rw⟩]⟩
  | .WRP_HA => ⟨.wrp, 0x2008, 0x0, 0, 0x10, 512, 0, true, .headGroup,
      [⟨0, 8, .rw⟩, ⟨8, 8, .rw⟩, ⟨16, 10, .rw⟩, ⟨26, 8, .rw⟩]⟩
  | .SVG_CTL => ⟨.svg, 0x100, 0x0, 0, 0x40, 4, 0, false, .act,
      [⟨0, 1, .rw⟩, ⟨1, 6, .rw⟩, ⟨7, 6, .rw⟩, ⟨13, 5, .rw⟩, ⟨18, 1, .rw⟩]⟩
  | .SVG_PES => ⟨.svg, 0x108, 0x0, 0, 0x40, 4, 0, true, .act,
      [⟨0, 16, .ro⟩, ⟨16, 12, .ro⟩, ⟨28, 1, .ro⟩, ⟨29, 1, .ro⟩, ⟨30, 1, .ro⟩, ⟨31, 1, .ro⟩, ⟨32, 1, .ro⟩, ⟨48, 16, .ro⟩]⟩
  | .SVG_TRK => ⟨.svg, 0x110, 0x0, 0, 0x40, 4, 0, true, .act,
      [⟨0, 21, .ro⟩, ⟨21, 1, .ro⟩, ⟨22, 1, .ro⟩, ⟨23, 21, .ro⟩, ⟨44, 1, .ro⟩, ⟨45, 8, .ro⟩]⟩
  | .SVG_TONE => ⟨.svg, 0x118, 0x0, 0, 0x40, 4, 0, true, .act,
      [⟨0, 28, .ro⟩, ⟨28, 16, .ro⟩, ⟨44, 1, .ro⟩]⟩
  | .SVG_CNT => ⟨.svg, 0x120, 0x0, 0, 0x40, 4, 0, true, .act,
      [⟨0, 16, .rc⟩, ⟨16, 16, .rc⟩, ⟨32, 8, .rc⟩, ⟨40, 8, .rc⟩, ⟨48, 16, .rc⟩]⟩
  | .SVG_ZONE => ⟨.svg, 0x1000, 0x0, 0, 0x8, 64, 0, true, .always,
      [⟨0, 21, .rw⟩, ⟨21, 21, .rw⟩, ⟨42, 5, .rw⟩, ⟨47, 4, .rw⟩, ⟨51, 1, .rw⟩]⟩
  | .SVG_PESCAL => ⟨.svg, 0x2000, 0x0, 0, 0x8, 512, 0, true, .headGroup,
      [⟨0, 16, .rw⟩, ⟨16, 16, .rw⟩, ⟨32, 12, .rw⟩]⟩
  | .CTE_MAX_TRACK => ⟨.cte, 0x0, 0x0, 0, 0x0, 1, 0, false, .always,
      [⟨0, 21, .rw⟩]⟩
  | .CTE_EXT_CTL => ⟨.cte, 0x4, 0x0, 0, 0x0, 1, 0, false, .always,
      [⟨0, 1, .rw⟩, ⟨1, 2, .rw⟩, ⟨3, 16, .rw⟩, ⟨19, 1, .w1c⟩]⟩
  | .CTE_EXT_STAT => ⟨.cte, 0x8, 0x0, 0, 0x0, 1, 0, false, .always,
      [⟨0, 12, .ro⟩]⟩
  | .CTE_CMD => ⟨.cte, 0x100, 0x0, 0, 0x40, 4, 0, false, .act,
      [⟨0, 3, .wo⟩, ⟨3, 1, .w1c⟩, ⟨4, 8, .ro⟩, ⟨12, 1, .ro⟩]⟩
  | .CTE_STAT => ⟨.cte, 0x104, 0x0, 0, 0x40, 4, 0, false, .act,
      [⟨0, 4, .ro⟩, ⟨4, 1, .ro⟩, ⟨5, 1, .ro⟩, ⟨6, 2, .ro⟩, ⟨8, 8, .ro⟩, ⟨16, 16, .ro⟩]⟩
  | .CTE_SEEK => ⟨.cte, 0x108, 0x0, 0, 0x40, 4, 0, true, .act,
      [⟨0, 21, .rw⟩, ⟨21, 16, .rw⟩, ⟨37, 1, .wo⟩, ⟨38, 8, .ro⟩, ⟨46, 1, .ro⟩]⟩
  | .CTE_MODESET => ⟨.cte, 0x110, 0x0, 0, 0x40, 4, 0, false, .act,
      [⟨0, 3, .rw⟩, ⟨3, 3, .rw⟩, ⟨6, 3, .rw⟩, ⟨9, 3, .rw⟩, ⟨12, 3, .rw⟩, ⟨15, 3, .rw⟩]⟩
  | .CTE_LAW_CTL => ⟨.cte, 0x114, 0x0, 0, 0x40, 4, 0, false, .act,
      [⟨0, 4, .rw⟩, ⟨4, 1, .rw⟩, ⟨5, 1, .w1c⟩]⟩
  | .CTE_SETTLE => ⟨.cte, 0x118, 0x0, 0, 0x40, 4, 0, false, .act,
      [⟨0, 12, .rw⟩, ⟨12, 8, .rw⟩, ⟨20, 12, .rw⟩]⟩
  | .CTE_OT => ⟨.cte, 0x11c, 0x0, 0, 0x40, 4, 0, false, .act,
      [⟨0, 12, .rw⟩, ⟨12, 8, .rw⟩]⟩
  | .CTE_LOAD => ⟨.cte, 0x120, 0x0, 0, 0x40, 4, 0, true, .act,
      [⟨0, 16, .rw⟩, ⟨16, 10, .rw⟩, ⟨26, 6, .rw⟩, ⟨32, 10, .rw⟩]⟩
  | .CTE_PARK => ⟨.cte, 0x128, 0x0, 0, 0x40, 4, 0, true, .act,
      [⟨0, 21, .rw⟩, ⟨21, 16, .rw⟩, ⟨37, 8, .rw⟩, ⟨45, 6, .rw⟩, ⟨51, 10, .rw⟩]⟩
  | .CTE_RES_LIM => ⟨.cte, 0x130, 0x0, 0, 0x40, 4, 0, false, .act,
      [⟨0, 12, .rw⟩]⟩
  | .CTE_RES_CNT => ⟨.cte, 0x134, 0x0, 0, 0x40, 4, 0, false, .act,
      [⟨0, 8, .rw⟩]⟩
  | .CTE_CNT => ⟨.cte, 0x138, 0x0, 0, 0x40, 4, 0, true, .act,
      [⟨0, 16, .rc⟩, ⟨16, 16, .rc⟩, ⟨32, 16, .rc⟩, ⟨48, 16, .rc⟩]⟩
  | .CTE_SAT => ⟨.cte, 0x300, 0x0, 0, 0x4, 5, 0, false, .ctx,
      [⟨0, 1, .w1c⟩, ⟨1, 1, .w1c⟩, ⟨2, 1, .w1c⟩, ⟨3, 1, .w1c⟩, ⟨4, 1, .w1c⟩]⟩
  | .CTE_SPN_CTL => ⟨.cte, 0x400, 0x0, 0, 0x0, 1, 0, false, .always,
      [⟨0, 3, .rw⟩, ⟨3, 1, .rw⟩, ⟨4, 4, .rw⟩, ⟨8, 1, .w1c⟩]⟩
  | .CTE_SPN_OUT => ⟨.cte, 0x404, 0x0, 0, 0x0, 1, 0, false, .always,
      [⟨0, 16, .ro⟩, ⟨16, 16, .ro⟩]⟩
  | .CTE_COEF => ⟨.cte, 0x10000, 0x0, 0, 0x4, 10240, 0, false, .coef,
      [⟨0, 32, .rw⟩]⟩
  | .CTE_VEL => ⟨.cte, 0x1c000, 0x0, 0, 0x4, 1024, 0, false, .vel,
      [⟨0, 32, .rw⟩]⟩
  | .SPN_CMD => ⟨.spn, 0x0, 0x0, 0, 0x0, 1, 0, false, .always,
      [⟨0, 3, .wo⟩, ⟨3, 1, .w1c⟩, ⟨4, 8, .ro⟩, ⟨12, 1, .ro⟩]⟩
  | .SPN_STAT => ⟨.spn, 0x4, 0x0, 0, 0x0, 1, 0, false, .always,
      [⟨0, 4, .ro⟩, ⟨4, 1, .ro⟩, ⟨5, 2, .ro⟩, ⟨7, 1, .ro⟩, ⟨8, 3, .ro⟩, ⟨11, 2, .ro⟩, ⟨13, 3, .ro⟩, ⟨16, 1, .ro⟩, ⟨17, 1, .ro⟩]⟩
  | .SPN_SPEED => ⟨.spn, 0x8, 0x0, 0, 0x0, 1, 0, false, .always,
      [⟨0, 21, .rw⟩, ⟨21, 1, .w1c⟩, ⟨22, 1, .w1c⟩]⟩
  | .SPN_LIM => ⟨.spn, 0xc, 0x0, 0, 0x0, 1, 0, false, .always,
      [⟨0, 12, .rw⟩]⟩
  | .SPN_START_CTL => ⟨.spn, 0x10, 0x0, 0, 0x0, 1, 0, true, .always,
      [⟨0, 12, .rw⟩, ⟨12, 10, .rw⟩, ⟨22, 12, .rw⟩, ⟨34, 4, .rw⟩, ⟨38, 10, .rw⟩]⟩
  | .SPN_WIN_CTL => ⟨.spn, 0x18, 0x0, 0, 0x0, 1, 0, false, .always,
      [⟨0, 8, .rw⟩, ⟨8, 6, .rw⟩, ⟨14, 4, .rw⟩, ⟨18, 4, .rw⟩]⟩
  | .SPN_BRAKE_CTL => ⟨.spn, 0x1c, 0x0, 0, 0x0, 1, 0, false, .always,
      [⟨0, 2, .rw⟩, ⟨2, 7, .rw⟩]⟩
  | .SPN_SYNC_CTL => ⟨.spn, 0x20, 0x0, 0, 0x0, 1, 0, false, .always,
      [⟨0, 1, .rw⟩, ⟨1, 1, .rw⟩, ⟨2, 16, .rw⟩, ⟨18, 10, .rw⟩]⟩
  | .SPN_SYNC_STAT => ⟨.spn, 0x24, 0x0, 0, 0x0, 1, 0, false, .always,
      [⟨0, 16, .ro⟩, ⟨16, 8, .ro⟩, ⟨24, 8, .ro⟩]⟩
  | .SPN_OBS => ⟨.spn, 0x28, 0x0, 0, 0x0, 1, 0, true, .always,
      [⟨0, 16, .ro⟩, ⟨16, 24, .ro⟩, ⟨40, 1, .ro⟩]⟩
  | .SPN_HU_MEAS => ⟨.spn, 0x30, 0x0, 0, 0x0, 1, 0, true, .always,
      [⟨0, 16, .ro⟩, ⟨16, 20, .ro⟩, ⟨36, 16, .ro⟩, ⟨52, 1, .ro⟩]⟩
  | .SPN_HU_STAT => ⟨.spn, 0x38, 0x0, 0, 0x0, 1, 0, false, .always,
      [⟨0, 16, .ro⟩, ⟨16, 6, .ro⟩, ⟨22, 1, .ro⟩]⟩
  | .SPN_CNT => ⟨.spn, 0x40, 0x0, 0, 0x0, 1, 0, true, .always,
      [⟨0, 16, .rc⟩, ⟨16, 16, .rc⟩, ⟨32, 16, .rc⟩, ⟨48, 16, .rc⟩]⟩
  | .PWS_STAT => ⟨.pws, 0x0, 0x0, 0, 0x0, 1, 0, false, .always,
      [⟨0, 1, .ro⟩, ⟨1, 1, .ro⟩, ⟨2, 1, .ro⟩, ⟨3, 1, .ro⟩, ⟨4, 1, .ro⟩, ⟨5, 1, .ro⟩, ⟨6, 1, .ro⟩]⟩
  | .PWS_VOLT => ⟨.pws, 0x4, 0x0, 0, 0x0, 1, 0, false, .always,
      [⟨0, 16, .ro⟩, ⟨16, 16, .ro⟩]⟩
  | .PWS_CLAMP => ⟨.pws, 0x8, 0x0, 0, 0x0, 1, 0, false, .always,
      [⟨0, 11, .rw⟩, ⟨11, 1, .rw⟩]⟩
  | .PWS_FAULT => ⟨.pws, 0xc, 0x0, 0, 0x0, 1, 0, false, .always,
      [⟨0, 1, .w1c⟩, ⟨1, 1, .w1c⟩, ⟨2, 1, .w1c⟩, ⟨3, 1, .w1c⟩, ⟨4, 4, .w1c⟩, ⟨8, 1, .w1c⟩, ⟨9, 1, .w1c⟩, ⟨10, 1, .w1c⟩, ⟨11, 1, .w1c⟩]⟩
  | .PWS_RETRACT => ⟨.pws, 0x10, 0x0, 0, 0x0, 1, 0, false, .always,
      [⟨0, 16, .rw⟩, ⟨16, 8, .rw⟩]⟩
  | .PWS_UACT_CTL => ⟨.pws, 0x14, 0x0, 0, 0x0, 1, 0, false, .always,
      [⟨0, 1, .rw⟩]⟩
  | .PWS_HU_LOAD => ⟨.pws, 0x18, 0x0, 0, 0x0, 1, 0, false, .always,
      [⟨0, 16, .rw⟩]⟩
  | .PWS_TEMP => ⟨.pws, 0x1c, 0x0, 0, 0x0, 1, 0, false, .always,
      [⟨0, 10, .ro⟩]⟩
  | .PWS_BRK_I => ⟨.pws, 0x20, 0x0, 0, 0x0, 1, 0, false, .always,
      [⟨0, 12, .ro⟩]⟩
  | .SHT_ROM_ID => ⟨.sht, 0x0, 0x0, 0, 0x0, 1, 0, false, .always,
      [⟨0, 16, .ro⟩]⟩
  | .SHT_CODE_TOP => ⟨.sht, 0x8, 0x0, 0, 0x0, 1, 0, false, .always,
      [⟨0, 15, .rw⟩]⟩
  | .SHT_TASK_TMO => ⟨.sht, 0xc, 0x0, 0, 0x0, 1, 0, false, .always,
      [⟨0, 32, .rw⟩]⟩
  | .SHT_LOAD => ⟨.sht, 0x10, 0x0, 0, 0x0, 1, 0, true, .always,
      [⟨0, 40, .rw⟩, ⟨40, 9, .rw⟩, ⟨49, 1, .wo⟩]⟩
  | .SHT_LOAD_STAT => ⟨.sht, 0x18, 0x0, 0, 0x0, 1, 0, false, .always,
      [⟨0, 1, .ro⟩, ⟨1, 8, .ro⟩]⟩
  | .SHT_LOAD_MASK => ⟨.sht, 0x20, 0x0, 0, 0x0, 1, 0, false, .always,
      [⟨0, 24, .rw⟩]⟩
  | .SHT_LS_PORT_ADDR => ⟨.sht, 0x28, 0x0, 0, 0x0, 1, 0, false, .always,
      [⟨0, 15, .rw⟩, ⟨15, 5, .rw⟩, ⟨20, 1, .rw⟩, ⟨21, 1, .rw⟩]⟩
  | .SHT_LS_PORT_DATA => ⟨.sht, 0x30, 0x0, 0, 0x0, 1, 0, true, .always,
      [⟨0, 64, .rw⟩]⟩
  | .SHT_PATCH_STAT => ⟨.sht, 0x40, 0x0, 0, 0x0, 1, 0, true, .always,
      [⟨0, 1, .ro⟩, ⟨1, 6, .ro⟩, ⟨7, 11, .ro⟩, ⟨18, 10, .ro⟩, ⟨28, 16, .ro⟩, ⟨44, 8, .ro⟩]⟩
  | .SHT_MATCH => ⟨.sht, 0x100, 0x0, 0, 0x4, 32, 0, false, .always,
      [⟨0, 14, .ro⟩, ⟨14, 10, .ro⟩, ⟨24, 1, .ro⟩]⟩
  | .SHT_S_CTL => ⟨.sht, 0x1000, 0x0, 0, 0x40, 24, 0, false, .sht,
      [⟨0, 1, .rw⟩, ⟨1, 1, .wo⟩, ⟨2, 1, .wo⟩]⟩
  | .SHT_STAT => ⟨.sht, 0x1008, 0x0, 0, 0x40, 24, 0, true, .sht,
      [⟨0, 3, .ro⟩, ⟨3, 8, .ro⟩, ⟨11, 15, .ro⟩, ⟨26, 8, .ro⟩, ⟨34, 4, .ro⟩, ⟨38, 4, .ro⟩]⟩
  | .SHT_TRAP => ⟨.sht, 0x1010, 0x0, 0, 0x40, 24, 0, true, .sht,
      [⟨0, 5, .ro⟩, ⟨5, 15, .ro⟩, ⟨20, 15, .ro⟩, ⟨35, 8, .ro⟩]⟩
  | .SHT_LOST => ⟨.sht, 0x1018, 0x0, 0, 0x40, 24, 0, true, .sht,
      [⟨0, 64, .ro⟩]⟩
  | .SHT_CNT => ⟨.sht, 0x1020, 0x0, 0, 0x40, 24, 0, true, .sht,
      [⟨0, 16, .rc⟩, ⟨16, 16, .rc⟩, ⟨32, 16, .rc⟩, ⟨48, 8, .rc⟩, ⟨56, 8, .rc⟩]⟩
  | .LOOM_CTL => ⟨.loom, 0x0, 0x0, 0, 0x0, 1, 0, false, .always,
      [⟨0, 1, .rw⟩, ⟨1, 1, .rw⟩]⟩
  | .LOOM_INJECT => ⟨.loom, 0x8, 0x0, 0, 0x0, 1, 0, true, .always,
      [⟨0, 64, .wo⟩]⟩
  | .LOOM_INJ_STAT => ⟨.loom, 0x10, 0x0, 0, 0x0, 1, 0, false, .always,
      [⟨0, 9, .ro⟩, ⟨9, 1, .w1c⟩]⟩
  | .LOOM_PUSH => ⟨.loom, 0x100, 0x0, 0, 0x20, 40, 0, true, .engine,
      [⟨0, 64, .wo⟩]⟩
  | .LOOM_TAKE => ⟨.loom, 0x108, 0x0, 0, 0x20, 40, 0, true, .engine,
      [⟨0, 64, .rc⟩]⟩
  | .LOOM_DQ_STAT => ⟨.loom, 0x110, 0x0, 0, 0x20, 40, 0, false, .engine,
      [⟨0, 7, .ro⟩, ⟨7, 1, .w1c⟩]⟩
  | .LOOM_BAR_CFG => ⟨.loom, 0x1000, 0x0, 0, 0x40, 16, 0, true, .always,
      [⟨0, 40, .rw⟩, ⟨40, 2, .rw⟩, ⟨42, 16, .rw⟩]⟩
  | .LOOM_BAR_ARRIVE => ⟨.loom, 0x1008, 0x0, 0, 0x40, 16, 0, true, .always,
      [⟨0, 64, .wo⟩]⟩
  | .LOOM_BAR_RESULT => ⟨.loom, 0x1010, 0x0, 0, 0x40, 16, 0, true, .always,
      [⟨0, 64, .ro⟩]⟩
  | .LOOM_BAR_STAT => ⟨.loom, 0x1018, 0x0, 0, 0x40, 16, 0, false, .always,
      [⟨0, 6, .ro⟩, ⟨6, 16, .ro⟩, ⟨22, 1, .ro⟩, ⟨23, 1, .w1c⟩]⟩
  | .GLY_CTL => ⟨.gly, 0x0, 0x0, 0, 0x0, 1, 0, false, .always,
      [⟨0, 1, .rw⟩, ⟨1, 1, .ro⟩, ⟨2, 1, .ro⟩, ⟨3, 1, .rw⟩, ⟨4, 2, .rw⟩, ⟨8, 6, .rw⟩]⟩
  | .GLY_STAT => ⟨.gly, 0x4, 0x0, 0, 0x0, 1, 0, false, .always,
      [⟨0, 14, .ro⟩, ⟨14, 1, .ro⟩, ⟨15, 1, .ro⟩, ⟨16, 1, .ro⟩]⟩
  | .GLY_ARB_CTL => ⟨.gly, 0x8, 0x0, 0, 0x4, 2, 0, false, .always,
      [⟨0, 1, .rw⟩, ⟨1, 3, .rw⟩, ⟨4, 8, .rw⟩, ⟨12, 8, .rw⟩, ⟨20, 8, .rw⟩]⟩
  | .GLY_BUDGET => ⟨.gly, 0x10, 0x0, 0, 0x0, 1, 0, false, .always,
      [⟨0, 6, .rw⟩, ⟨6, 1, .w1c⟩, ⟨7, 6, .ro⟩]⟩
  | .GLY_BUDGET_STAT => ⟨.gly, 0x18, 0x0, 0, 0x0, 1, 0, true, .always,
      [⟨0, 2, .ro⟩, ⟨2, 1, .ro⟩, ⟨8, 17, .ro⟩, ⟨25, 17, .ro⟩, ⟨42, 16, .ro⟩]⟩
  | .GLY_DISPATCH_CTL => ⟨.gly, 0x20, 0x0, 0, 0x0, 1, 0, false, .always,
      [⟨0, 6, .rw⟩, ⟨8, 6, .rw⟩, ⟨16, 6, .rw⟩, ⟨24, 6, .rw⟩]⟩
  | .GLY_DRAIN => ⟨.gly, 0x24, 0x0, 0, 0x0, 1, 0, false, .always,
      [⟨0, 1, .w1s⟩, ⟨1, 1, .ro⟩, ⟨2, 14, .ro⟩, ⟨16, 12, .ro⟩]⟩
  | .GLY_ASN_NEXT => ⟨.gly, 0x28, 0x0, 0, 0x0, 1, 0, true, .always,
      [⟨0, 64, .ro⟩]⟩
  | .GLY_ASN_FLOOR => ⟨.gly, 0x30, 0x0, 0, 0x0, 1, 0, true, .always,
      [⟨0, 64, .wo⟩]⟩
  | .GLY_QEXT_BASE => ⟨.gly, 0x38, 0x0, 0, 0x0, 1, 0, true, .always,
      [⟨0, 40, .rw⟩]⟩
  | .GLY_WBUF_BASE => ⟨.gly, 0x40, 0x0, 0, 0x0, 1, 0, true, .always,
      [⟨0, 40, .rw⟩]⟩
  | .GLY_WBUF_SIZE => ⟨.gly, 0x48, 0x0, 0, 0x0, 1, 0, false, .always,
      [⟨0, 14, .rw⟩]⟩
  | .GLY_ZONE_BASE => ⟨.gly, 0x50, 0x0, 0, 0x0, 1, 0, true, .always,
      [⟨0, 40, .rw⟩]⟩
  | .GLY_QCTX_SEL => ⟨.gly, 0x58, 0x0, 0, 0x0, 1, 0, false, .always,
      [⟨0, 16, .rw⟩]⟩
  | .GLY_QCTX_LO => ⟨.gly, 0x60, 0x0, 0, 0x0, 1, 0, true, .always,
      [⟨0, 64, .rw⟩]⟩
  | .GLY_QCTX_HI => ⟨.gly, 0x68, 0x0, 0, 0x0, 1, 0, true, .always,
      [⟨0, 64, .rw⟩]⟩
  | .GLY_CNT => ⟨.gly, 0x70, 0x0, 0, 0x0, 1, 0, true, .always,
      [⟨0, 16, .rc⟩, ⟨16, 16, .rc⟩, ⟨32, 16, .rc⟩, ⟨48, 16, .rc⟩]⟩
  | .GLY_SLOT_CMD => ⟨.gly, 0x1000, 0x0, 0, 0x100, 16, 0, true, .core,
      [⟨0, 53, .rw⟩, ⟨53, 2, .rw⟩, ⟨55, 1, .wo⟩, ⟨56, 8, .ro⟩]⟩
  | .GLY_SLOT_ARG => ⟨.gly, 0x1008, 0x0, 0, 0x100, 16, 0, true, .core,
      [⟨0, 64, .rw⟩]⟩
  | .GLY_SLOT_RD => ⟨.gly, 0x1010, 0x0, 0, 0x100, 16, 0, true, .core,
      [⟨0, 53, .rw⟩, ⟨63, 1, .ro⟩]⟩
  | .GLY_WB_CMD => ⟨.gly, 0x1018, 0x0, 0, 0x100, 16, 0, true, .core,
      [⟨0, 32, .rw⟩, ⟨32, 9, .rw⟩, ⟨41, 3, .rw⟩, ⟨44, 1, .wo⟩]⟩
  | .GLY_WB_LBA => ⟨.gly, 0x1020, 0x0, 0, 0x100, 16, 0, true, .core,
      [⟨0, 64, .rw⟩]⟩
  | .GLY_WB_RES => ⟨.gly, 0x1028, 0x0, 0, 0x100, 16, 0, true, .core,
      [⟨0, 64, .ro⟩]⟩
  | .GLY_WB_ASN => ⟨.gly, 0x1030, 0x0, 0, 0x100, 16, 0, true, .core,
      [⟨0, 64, .rw⟩]⟩
  | .GLY_SLOT_IMG => ⟨.gly, 0x1080, 0x100, 16, 0x8, 16, 16, true, (.coreBy 16),
      [⟨0, 64, .ro⟩]⟩
  | .HFE_CFG => ⟨.hfe, 0x0, 0x0, 0, 0x0, 1, 0, false, .always,
      [⟨0, 1, .ro⟩, ⟨1, 1, .ro⟩, ⟨2, 3, .ro⟩, ⟨5, 3, .ro⟩, ⟨8, 3, .ro⟩, ⟨11, 3, .ro⟩]⟩
  | .HFE_ID => ⟨.hfe, 0x8, 0x0, 0, 0x0, 1, 0, true, .always,
      [⟨0, 64, .rw⟩]⟩
  | .HFE_RESET_STAT => ⟨.hfe, 0x10, 0x0, 0, 0x0, 1, 0, false, .always,
      [⟨0, 2, .w1c⟩]⟩
  | .HFE_PI_CNT => ⟨.hfe, 0x18, 0x0, 0, 0x0, 1, 0, true, .always,
      [⟨0, 16, .rc⟩, ⟨16, 16, .rc⟩, ⟨32, 16, .rc⟩]⟩
  | .HFE_LINK_CNT => ⟨.hfe, 0x20, 0x0, 0, 0x0, 1, 0, true, .always,
      [⟨0, 16, .rc⟩, ⟨16, 16, .rc⟩, ⟨32, 16, .rc⟩]⟩
  | .HFE_SAS_ADDR_0 => ⟨.hfe, 0x100, 0x0, 0, 0x0, 1, 0, true, .always,
      [⟨0, 64, .rw⟩]⟩
  | .HFE_SAS_ADDR_1 => ⟨.hfe, 0x108, 0x0, 0, 0x0, 1, 0, true, .always,
      [⟨0, 64, .rw⟩]⟩
  | .MGT_CTL => ⟨.mgt, 0x0, 0x0, 0, 0x0, 1, 0, false, .always,
      [⟨0, 1, .rw⟩, ⟨1, 2, .rw⟩]⟩
  | .MGT_ADDR => ⟨.mgt, 0x4, 0x0, 0, 0x0, 1, 0, false, .always,
      [⟨0, 7, .rw⟩, ⟨8, 7, .rw⟩]⟩
  | .MGT_TEMP => ⟨.mgt, 0x8, 0x0, 0, 0x0, 1, 0, false, .always,
      [⟨0, 10, .ro⟩, ⟨10, 10, .ro⟩, ⟨20, 1, .ro⟩, ⟨21, 1, .ro⟩]⟩
  | .MGT_TEMP_THR => ⟨.mgt, 0xc, 0x0, 0, 0x0, 1, 0, false, .always,
      [⟨0, 9, .rw⟩, ⟨16, 9, .rw⟩]⟩
  | .MGT_STAT => ⟨.mgt, 0x10, 0x0, 0, 0x0, 1, 0, false, .always,
      [⟨0, 1, .ro⟩, ⟨1, 1, .ro⟩]⟩
  | .MGT_CNT => ⟨.mgt, 0x18, 0x0, 0, 0x0, 1, 0, true, .always,
      [⟨0, 16, .rc⟩, ⟨16, 16, .rc⟩, ⟨32, 16, .rc⟩]⟩
  | .BFM_ECC_CTL => ⟨.bfm, 0x0, 0x0, 0, 0x0, 1, 0, false, .always,
      [⟨0, 1, .rw⟩, ⟨8, 8, .rw⟩]⟩
  | .BFM_CE_CNT => ⟨.bfm, 0x8, 0x0, 0, 0x0, 1, 0, true, .always,
      [⟨0, 32, .rc⟩, ⟨32, 32, .rc⟩]⟩
  | .BFM_CE_LOG => ⟨.bfm, 0x10, 0x0, 0, 0x0, 1, 0, true, .always,
      [⟨0, 40, .ro⟩, ⟨40, 5, .ro⟩, ⟨46, 1, .ro⟩, ⟨63, 1, .ro⟩]⟩
  | .BFM_UE_LOG => ⟨.bfm, 0x18, 0x0, 0, 0x0, 1, 0, true, .always,
      [⟨0, 40, .ro⟩, ⟨40, 5, .ro⟩, ⟨45, 1, .ro⟩, ⟨46, 1, .ro⟩, ⟨47, 1, .ro⟩, ⟨62, 1, .ro⟩, ⟨63, 1, .w1c⟩]⟩
  | .BFM_SCRUB_CTL => ⟨.bfm, 0x20, 0x0, 0, 0x0, 1, 0, false, .always,
      [⟨0, 1, .rw⟩, ⟨1, 15, .rw⟩]⟩
  | .BFM_SCRUB_LAP => ⟨.bfm, 0x24, 0x0, 0, 0x0, 1, 0, false, .always,
      [⟨0, 32, .ro⟩]⟩
  | .BFM_SCRUB_STAT => ⟨.bfm, 0x28, 0x0, 0, 0x0, 1, 0, true, .always,
      [⟨0, 32, .ro⟩, ⟨32, 16, .ro⟩, ⟨48, 1, .ro⟩]⟩
  | .BFM_DRAM_STAT => ⟨.bfm, 0x40, 0x0, 0, 0x0, 1, 0, false, .always,
      [⟨0, 1, .ro⟩, ⟨1, 1, .ro⟩, ⟨2, 1, .ro⟩, ⟨3, 4, .ro⟩, ⟨7, 4, .ro⟩, ⟨11, 1, .ro⟩]⟩
  | .BFM_DRAM_CNT => ⟨.bfm, 0x48, 0x0, 0, 0x0, 1, 0, true, .always,
      [⟨0, 32, .rc⟩, ⟨32, 32, .rc⟩]⟩
  | .SYC_CTL => ⟨.syc, 0x0, 0x0, 0, 0x0, 1, 0, false, .always,
      [⟨0, 1, .rw⟩, ⟨1, 1, .rw⟩]⟩
  | .SYC_ALLOC_CTL => ⟨.syc, 0x8, 0x0, 0, 0x0, 1, 0, true, .always,
      [⟨0, 34, .rw⟩]⟩
  | .SYC_WAY_LOCK => ⟨.syc, 0x10, 0x0, 0, 0x0, 1, 0, false, .always,
      [⟨0, 16, .rw⟩]⟩
  | .SYC_SCRATCH => ⟨.syc, 0x14, 0x0, 0, 0x0, 1, 0, false, .always,
      [⟨0, 4, .rw⟩, ⟨4, 1, .ro⟩, ⟨5, 1, .w1c⟩]⟩
  | .SYC_RANGE_BASE => ⟨.syc, 0x18, 0x0, 0, 0x0, 1, 0, true, .always,
      [⟨0, 40, .rw⟩]⟩
  | .SYC_RANGE_LEN => ⟨.syc, 0x20, 0x0, 0, 0x0, 1, 0, true, .always,
      [⟨0, 40, .rw⟩]⟩
  | .SYC_RANGE_CMD => ⟨.syc, 0x28, 0x0, 0, 0x0, 1, 0, false, .always,
      [⟨0, 3, .rw⟩, ⟨3, 1, .rw⟩, ⟨4, 4, .rw⟩, ⟨8, 1, .wo⟩]⟩
  | .SYC_RANGE_STAT => ⟨.syc, 0x30, 0x0, 0, 0x0, 1, 0, true, .always,
      [⟨0, 1, .ro⟩, ⟨1, 1, .ro⟩, ⟨2, 8, .ro⟩, ⟨10, 18, .ro⟩, ⟨28, 18, .ro⟩, ⟨46, 8, .ro⟩]⟩
  | .SYC_CNT => ⟨.syc, 0x40, 0x0, 0, 0x0, 1, 0, true, .always,
      [⟨0, 24, .rc⟩, ⟨24, 24, .rc⟩, ⟨48, 8, .rc⟩, ⟨56, 8, .rc⟩]⟩
  | .SYC_EVB_STAT => ⟨.syc, 0x48, 0x0, 0, 0x0, 1, 0, false, .always,
      [⟨0, 6, .ro⟩]⟩
  | .DMA_CH_CFG => ⟨.dma, 0x1000, 0x0, 0, 0x100, 64, 0, false, .always,
      [⟨0, 1, .rw⟩, ⟨1, 2, .rw⟩, ⟨3, 1, .rw⟩, ⟨4, 4, .rw⟩]⟩
  | .DMA_CH_RING => ⟨.dma, 0x1008, 0x0, 0, 0x100, 64, 0, true, .always,
      [⟨0, 40, .rw⟩]⟩
  | .DMA_CH_TAIL => ⟨.dma, 0x1010, 0x0, 0, 0x100, 64, 0, false, .always,
      [⟨0, 12, .rw⟩]⟩
  | .DMA_CH_HEAD => ⟨.dma, 0x1014, 0x0, 0, 0x100, 64, 0, false, .always,
      [⟨0, 12, .ro⟩]⟩
  | .DMA_CH_CTL => ⟨.dma, 0x1018, 0x0, 0, 0x100, 64, 0, false, .always,
      [⟨0, 1, .rw⟩, ⟨1, 1, .wo⟩, ⟨2, 1, .wo⟩]⟩
  | .DMA_CH_STATUS => ⟨.dma, 0x1020, 0x0, 0, 0x100, 64, 0, true, .always,
      [⟨0, 3, .ro⟩, ⟨3, 1, .w1c⟩, ⟨4, 1, .w1c⟩, ⟨5, 1, .w1c⟩, ⟨6, 8, .ro⟩, ⟨14, 6, .ro⟩, ⟨20, 27, .ro⟩]⟩
  | .DMA_CH_SRC => ⟨.dma, 0x1028, 0x0, 0, 0x100, 64, 0, true, .always,
      [⟨0, 64, .ro⟩]⟩
  | .DMA_CH_DST => ⟨.dma, 0x1030, 0x0, 0, 0x100, 64, 0, true, .always,
      [⟨0, 64, .ro⟩]⟩
  | .DMA_CH_COUNT => ⟨.dma, 0x1038, 0x0, 0, 0x100, 64, 0, false, .always,
      [⟨0, 32, .ro⟩]⟩
  | .DMA_CH_LATE => ⟨.dma, 0x1040, 0x0, 0, 0x100, 64, 0, true, .always,
      [⟨0, 40, .ro⟩, ⟨40, 12, .ro⟩]⟩
  | .DMA_CH_CNT => ⟨.dma, 0x1048, 0x0, 0, 0x100, 64, 0, true, .always,
      [⟨0, 32, .rc⟩, ⟨32, 16, .rc⟩, ⟨48, 16, .rc⟩]⟩
  | .SPL_PAR_CNT => ⟨.spl, 0x0, 0x0, 0, 0x0, 1, 0, true, .always,
      [⟨0, 32, .rc⟩, ⟨32, 32, .rc⟩]⟩
  | .SPL_FW_CFG => ⟨.spl, 0x1000, 0x0, 0, 0x40, 32, 0, false, .always,
      [⟨0, 1, .rw⟩, ⟨1, 1, .rw⟩, ⟨2, 1, .rw⟩, ⟨3, 1, .wo⟩]⟩
  | .SPL_FW_STAT => ⟨.spl, 0x1008, 0x0, 0, 0x40, 32, 0, false, .always,
      [⟨0, 5, .ro⟩, ⟨5, 5, .ro⟩, ⟨10, 1, .ro⟩, ⟨11, 1, .ro⟩, ⟨12, 1, .w1c⟩, ⟨13, 1, .w1c⟩, ⟨14, 1, .ro⟩, ⟨15, 1, .ro⟩, ⟨16, 6, .ro⟩]⟩
  | .SPL_FW_PUSH => ⟨.spl, 0x1010, 0x0, 0, 0x40, 32, 0, true, .always,
      [⟨0, 64, .wo⟩]⟩
  | .SPL_FW_PUSH_LAST => ⟨.spl, 0x1018, 0x0, 0, 0x40, 32, 0, true, .always,
      [⟨0, 64, .wo⟩]⟩
  | .SPL_FW_POP => ⟨.spl, 0x1020, 0x0, 0, 0x40, 32, 0, true, .always,
      [⟨0, 64, .rc⟩]⟩
  | .SPL_FW_DROP => ⟨.spl, 0x1028, 0x0, 0, 0x40, 32, 0, false, .always,
      [⟨0, 1, .wo⟩]⟩
  | .SPL_POPSTAT => ⟨.spl, 0x2000, 0x0, 0, 0x8, 16, 0, false, .core,
      [⟨0, 1, .ro⟩, ⟨1, 1, .ro⟩, ⟨2, 1, .ro⟩]⟩
  | .FLT_CTL => ⟨.flt, 0x0, 0x0, 0, 0x0, 1, 0, false, .flt,
      [⟨0, 1, .rw⟩, ⟨1, 1, .w1s⟩, ⟨4, 4, .rw⟩]⟩
  | .FLT_STAT => ⟨.flt, 0x4, 0x0, 0, 0x0, 1, 0, false, .flt,
      [⟨0, 4, .ro⟩, ⟨4, 1, .ro⟩, ⟨5, 1, .ro⟩, ⟨6, 2, .ro⟩, ⟨8, 1, .ro⟩, ⟨9, 1, .ro⟩, ⟨16, 7, .ro⟩, ⟨23, 5, .ro⟩]⟩
  | .FLT_SPARE => ⟨.flt, 0x8, 0x0, 0, 0x0, 1, 0, true, .flt,
      [⟨0, 24, .ro⟩, ⟨24, 24, .ro⟩, ⟨48, 16, .ro⟩]⟩
  | .FLT_HU_STAT => ⟨.flt, 0x10, 0x0, 0, 0x0, 1, 0, false, .flt,
      [⟨0, 16, .ro⟩, ⟨16, 5, .ro⟩, ⟨21, 11, .ro⟩]⟩
  | .FLT_HU_CTL => ⟨.flt, 0x14, 0x0, 0, 0x0, 1, 0, false, .flt,
      [⟨0, 5, .rw⟩]⟩
  | .FLT_LIFE_PCT => ⟨.flt, 0x18, 0x0, 0, 0x0, 1, 0, false, .flt,
      [⟨0, 8, .ro⟩, ⟨8, 1, .ro⟩]⟩
  | .FLT_GEOM => ⟨.flt, 0x20, 0x0, 0, 0x0, 1, 0, true, .flt,
      [⟨0, 16, .ro⟩, ⟨16, 3, .ro⟩, ⟨19, 3, .ro⟩, ⟨22, 16, .ro⟩, ⟨38, 16, .ro⟩]⟩
  | .FLT_DIE_MAP => ⟨.flt, 0x28, 0x0, 0, 0x0, 1, 0, true, .flt,
      [⟨0, 64, .ro⟩]⟩
  | .FLT_ONFI_CTL => ⟨.flt, 0x30, 0x0, 0, 0x0, 1, 0, false, .flt,
      [⟨0, 3, .rw⟩, ⟨3, 12, .ro⟩]⟩
  | .FLT_LOGICAL => ⟨.flt, 0x38, 0x0, 0, 0x0, 1, 0, false, .flt,
      [⟨0, 29, .ro⟩]⟩
  | .FLT_MAP_BASE => ⟨.flt, 0x40, 0x0, 0, 0x0, 1, 0, true, .flt,
      [⟨0, 40, .rw⟩]⟩
  | .FLT_Q_BASE => ⟨.flt, 0x48, 0x0, 0, 0x0, 1, 0, true, .flt,
      [⟨0, 40, .rw⟩]⟩
  | .FLT_Q_TAIL => ⟨.flt, 0x50, 0x0, 0, 0x0, 1, 0, false, .flt,
      [⟨0, 12, .rw⟩]⟩
  | .FLT_Q_HEAD => ⟨.flt, 0x54, 0x0, 0, 0x0, 1, 0, false, .flt,
      [⟨0, 12, .ro⟩]⟩
  | .FLT_SLC_CTL => ⟨.flt, 0x58, 0x0, 0, 0x0, 1, 0, false, .flt,
      [⟨0, 5, .rw⟩, ⟨5, 7, .rw⟩]⟩
  | .FLT_THROTTLE => ⟨.flt, 0x5c, 0x0, 0, 0x0, 1, 0, false, .flt,
      [⟨0, 16, .rw⟩]⟩
  | .FLT_VERIFY_CTL => ⟨.flt, 0x60, 0x0, 0, 0x0, 1, 0, false, .flt,
      [⟨0, 7, .rw⟩]⟩
  | .FLT_GC_CTL => ⟨.flt, 0x64, 0x0, 0, 0x0, 1, 0, false, .flt,
      [⟨0, 8, .rw⟩, ⟨8, 8, .rw⟩, ⟨16, 16, .rw⟩]⟩
  | .FLT_PE_RATED => ⟨.flt, 0x68, 0x0, 0, 0x0, 1, 0, false, .flt,
      [⟨0, 20, .rw⟩, ⟨20, 4, .rw⟩]⟩
  | .FLT_WEAR => ⟨.flt, 0x70, 0x0, 0, 0x0, 1, 0, true, .flt,
      [⟨0, 28, .ro⟩, ⟨28, 28, .ro⟩]⟩
  | .FLT_ERR_CNT => ⟨.flt, 0x78, 0x0, 0, 0x0, 1, 0, true, .flt,
      [⟨0, 16, .ro⟩, ⟨16, 16, .ro⟩, ⟨32, 16, .ro⟩, ⟨48, 16, .ro⟩]⟩
  | .FLT_LOST_CNT => ⟨.flt, 0x80, 0x0, 0, 0x0, 1, 0, false, .flt,
      [⟨0, 28, .ro⟩]⟩
  | .FLT_PIN_CNT => ⟨.flt, 0x84, 0x0, 0, 0x0, 1, 0, false, .flt,
      [⟨0, 28, .ro⟩]⟩
  | .FLT_VALID_CNT => ⟨.flt, 0x88, 0x0, 0, 0x0, 1, 0, false, .flt,
      [⟨0, 29, .ro⟩]⟩
  | .FLT_CKPT_CTL => ⟨.flt, 0x8c, 0x0, 0, 0x0, 1, 0, false, .flt,
      [⟨0, 8, .rw⟩]⟩
  | .FLT_RR_CTL => ⟨.flt, 0x90, 0x0, 0, 0x0, 1, 0, false, .flt,
      [⟨0, 8, .rw⟩, ⟨8, 4, .rw⟩]⟩
  | .FLT_RR_VAL => ⟨.flt, 0x100, 0x0, 0, 0x4, 15, 0, false, .flt,
      [⟨0, 32, .rw⟩]⟩
  | .FLT_TEMP_HIST => ⟨.flt, 0x200, 0x0, 0, 0x4, 16, 0, false, .flt,
      [⟨0, 32, .ro⟩]⟩
  | .SVC_MTIME => ⟨.svc, 0x0, 0x0, 0, 0x0, 1, 0, true, .always,
      [⟨0, 64, .rw⟩]⟩
  | .SVC_IPI_SET => ⟨.svc, 0x8, 0x0, 0, 0x0, 1, 0, false, .always,
      [⟨0, 16, .w1s⟩]⟩
  | .SVC_NMI_VEC => ⟨.svc, 0x10, 0x0, 0, 0x0, 1, 0, true, .always,
      [⟨0, 40, .rw⟩]⟩
  | .SVC_DQ_THR => ⟨.svc, 0x18, 0x0, 0, 0x0, 1, 0, false, .always,
      [⟨0, 7, .rw⟩]⟩
  | .SVC_SEM_ERR => ⟨.svc, 0x1c, 0x0, 0, 0x0, 1, 0, false, .always,
      [⟨0, 16, .rc⟩]⟩
  | .SVC_MTIMECMP => ⟨.svc, 0x100, 0x0, 0, 0x8, 16, 0, true, .core,
      [⟨0, 64, .rw⟩]⟩
  | .SVC_MSIP => ⟨.svc, 0x200, 0x0, 0, 0x4, 16, 0, false, .core,
      [⟨0, 1, .rw⟩]⟩
  | .SVC_CORE_CTL => ⟨.svc, 0x300, 0x0, 0, 0x10, 16, 0, false, .core,
      [⟨0, 1, .rw⟩, ⟨1, 1, .rw⟩, ⟨2, 1, .rw⟩, ⟨3, 2, .ro⟩]⟩
  | .SVC_CORE_PC => ⟨.svc, 0x308, 0x0, 0, 0x10, 16, 0, true, .core,
      [⟨0, 40, .rw⟩]⟩
  | .SVC_SEM => ⟨.svc, 0x1000, 0x0, 0, 0x4, 64, 0, false, .always,
      [⟨0, 1, .ro⟩, ⟨1, 6, .ro⟩, ⟨7, 1, .rc⟩, ⟨31, 1, .wo⟩]⟩
  | .SVC_CL_CNT => ⟨.svc, 0x2000, 0x0, 0, 0x8, 4, 0, true, .cluster,
      [⟨0, 32, .rc⟩, ⟨32, 32, .rc⟩]⟩
  | .OFL_WV_RING => ⟨.ofl, 0x0, 0x0, 0, 0x0, 1, 0, true, .ofl,
      [⟨0, 40, .rw⟩, ⟨40, 4, .rw⟩]⟩
  | .OFL_WV_TAIL => ⟨.ofl, 0x8, 0x0, 0, 0x0, 1, 0, false, .ofl,
      [⟨0, 12, .rw⟩]⟩
  | .OFL_WV_HEAD => ⟨.ofl, 0xc, 0x0, 0, 0x0, 1, 0, false, .ofl,
      [⟨0, 12, .ro⟩]⟩
  | .OFL_WV_STAT => ⟨.ofl, 0x10, 0x0, 0, 0x0, 1, 0, false, .ofl,
      [⟨0, 1, .ro⟩, ⟨1, 8, .ro⟩]⟩
  | .OFL_CD_RING => ⟨.ofl, 0x100, 0x0, 0, 0x0, 1, 0, true, .ofl,
      [⟨0, 40, .rw⟩, ⟨40, 4, .rw⟩]⟩
  | .OFL_CD_TAIL => ⟨.ofl, 0x108, 0x0, 0, 0x0, 1, 0, false, .ofl,
      [⟨0, 12, .rw⟩]⟩
  | .OFL_CD_HEAD => ⟨.ofl, 0x10c, 0x0, 0, 0x0, 1, 0, false, .ofl,
      [⟨0, 12, .ro⟩]⟩
  | .OFL_CD_STAT => ⟨.ofl, 0x110, 0x0, 0, 0x0, 1, 0, false, .ofl,
      [⟨0, 1, .ro⟩, ⟨1, 8, .ro⟩]⟩
  | .OFL_CNT => ⟨.ofl, 0x200, 0x0, 0, 0x0, 1, 0, true, .ofl,
      [⟨0, 16, .rc⟩, ⟨16, 16, .rc⟩, ⟨32, 16, .rc⟩, ⟨48, 16, .rc⟩]⟩
  | .FCL_STAT => ⟨.fcl, 0x0, 0x0, 0, 0x0, 1, 0, false, .always,
      [⟨0, 1, .ro⟩, ⟨1, 1, .w1c⟩, ⟨2, 1, .w1c⟩, ⟨3, 1, .ro⟩, ⟨4, 1, .ro⟩]⟩
  | .FCL_CTL => ⟨.fcl, 0x4, 0x0, 0, 0x0, 1, 0, false, .always,
      [⟨0, 1, .wo⟩]⟩
  | .FCL_CAUSE => ⟨.fcl, 0x8, 0x0, 0, 0x0, 1, 0, true, .always,
      [⟨0, 64, .ro⟩]⟩
  | .FCL_CAUSE_INFO => ⟨.fcl, 0x10, 0x0, 0, 0x0, 1, 0, true, .always,
      [⟨0, 48, .ro⟩, ⟨48, 3, .ro⟩, ⟨63, 1, .w1c⟩]⟩
  | .FCL_LAST => ⟨.fcl, 0x18, 0x0, 0, 0x0, 1, 0, true, .always,
      [⟨0, 64, .ro⟩]⟩
  | .FCL_CNT => ⟨.fcl, 0x20, 0x0, 0, 0x0, 1, 0, true, .always,
      [⟨0, 32, .rc⟩, ⟨32, 16, .rc⟩, ⟨48, 16, .rc⟩]⟩
  | .FCL_SW_SET => ⟨.fcl, 0x28, 0x0, 0, 0x0, 1, 0, false, .always,
      [⟨0, 11, .wo⟩]⟩
  | .FCL_SW_RAISE => ⟨.fcl, 0x30, 0x0, 0, 0x0, 1, 0, true, .always,
      [⟨0, 64, .wo⟩]⟩
  | .FCL_CLAIM => ⟨.fcl, 0x200, 0x0, 0, 0x10, 16, 0, false, .core,
      [⟨0, 11, .rc⟩, ⟨11, 1, .rc⟩]⟩
  | .FCL_THRESH => ⟨.fcl, 0x204, 0x0, 0, 0x10, 16, 0, false, .core,
      [⟨0, 3, .rw⟩]⟩
  | .FCL_PEND => ⟨.fcl, 0x1000, 0x0, 0, 0x8, 32, 0, true, .always,
      [⟨0, 64, .w1c⟩]⟩
  | .FCL_SRC_CFG => ⟨.fcl, 0x4000, 0x0, 0, 0x4, 2048, 0, false, .always,
      [⟨0, 1, .rw⟩, ⟨1, 4, .rw⟩, ⟨5, 3, .rw⟩, ⟨8, 1, .rw⟩, ⟨9, 1, .rw⟩, ⟨10, 1, .rw⟩, ⟨11, 1, .rw⟩, ⟨12, 1, .rw⟩, ⟨13, 3, .rw⟩, ⟨16, 1, .rw⟩, ⟨17, 8, .rw⟩, ⟨31, 1, .ro⟩]⟩
  | .EVR_CTL => ⟨.evr, 0x0, 0x0, 0, 0x0, 1, 0, false, .always,
      [⟨0, 1, .rw⟩, ⟨1, 1, .rw⟩, ⟨2, 16, .rw⟩]⟩
  | .EVR_STAT => ⟨.evr, 0x4, 0x0, 0, 0x0, 1, 0, false, .always,
      [⟨0, 11, .ro⟩, ⟨11, 1, .ro⟩, ⟨12, 1, .ro⟩, ⟨13, 5, .ro⟩, ⟨18, 1, .w1c⟩]⟩
  | .EVR_LOG_BASE => ⟨.evr, 0x8, 0x0, 0, 0x0, 1, 0, true, .always,
      [⟨0, 40, .rw⟩]⟩
  | .EVR_DROPS => ⟨.evr, 0x10, 0x0, 0, 0x0, 1, 0, false, .always,
      [⟨0, 32, .rc⟩]⟩
  | .EVR_SEQ_NEXT => ⟨.evr, 0x18, 0x0, 0, 0x0, 1, 0, true, .always,
      [⟨0, 48, .ro⟩]⟩
  | .EVR_DIRTY => ⟨.evr, 0x100, 0x0, 0, 0x8, 16, 0, true, .always,
      [⟨0, 64, .rc⟩]⟩
  | .EVR_FW_CMD => ⟨.evr, 0x400, 0x0, 0, 0x40, 16, 0, true, .core,
      [⟨0, 10, .rw⟩, ⟨10, 3, .rw⟩, ⟨13, 1, .rw⟩, ⟨14, 1, .wo⟩, ⟨15, 8, .ro⟩, ⟨32, 32, .rw⟩]⟩
  | .EVR_FW_P => ⟨.evr, 0x408, 0x40, 16, 0x8, 4, 4, true, (.coreBy 4),
      [⟨0, 64, .rw⟩]⟩
  | .EVR_RATE => ⟨.evr, 0x2000, 0x0, 0, 0x4, 1024, 0, false, .always,
      [⟨0, 8, .rw⟩, ⟨8, 16, .rw⟩, ⟨24, 8, .ro⟩]⟩
  | .SEC_LC => ⟨.sec, 0x0, 0x0, 0, 0x0, 1, 0, false, .always,
      [⟨0, 3, .ro⟩, ⟨3, 1, .ro⟩, ⟨4, 6, .ro⟩]⟩
  | .SEC_LC_REQ => ⟨.sec, 0x4, 0x0, 0, 0x0, 1, 0, false, .always,
      [⟨0, 3, .rw⟩, ⟨3, 1, .rw⟩, ⟨4, 1, .wo⟩, ⟨5, 8, .ro⟩, ⟨13, 1, .ro⟩]⟩
  | .SEC_OTP_STAT => ⟨.sec, 0x8, 0x0, 0, 0x0, 1, 0, false, .always,
      [⟨0, 4, .ro⟩, ⟨4, 4, .ro⟩, ⟨8, 1, .ro⟩, ⟨9, 1, .ro⟩, ⟨10, 6, .ro⟩]⟩
  | .SEC_OTP_CMD => ⟨.sec, 0xc, 0x0, 0, 0x0, 1, 0, false, .always,
      [⟨0, 4, .rw⟩, ⟨4, 1, .rw⟩, ⟨5, 8, .rw⟩]⟩
  | .SEC_BOOT_STAT => ⟨.sec, 0x10, 0x0, 0, 0x0, 1, 0, true, .always,
      [⟨0, 1, .ro⟩, ⟨1, 1, .ro⟩, ⟨2, 5, .ro⟩, ⟨7, 7, .ro⟩, ⟨14, 7, .ro⟩, ⟨21, 4, .ro⟩]⟩
  | .SEC_BOOT_CTL => ⟨.sec, 0x18, 0x0, 0, 0x0, 1, 0, false, .always,
      [⟨0, 1, .wo⟩, ⟨1, 1, .wo⟩]⟩
  | .SEC_STAGE_BASE => ⟨.sec, 0x20, 0x0, 0, 0x0, 1, 0, true, .always,
      [⟨0, 40, .rw⟩]⟩
  | .SEC_UPD_ADDR => ⟨.sec, 0x28, 0x0, 0, 0x0, 1, 0, true, .always,
      [⟨0, 40, .rw⟩]⟩
  | .SEC_UPD_CMD => ⟨.sec, 0x30, 0x0, 0, 0x0, 1, 0, true, .always,
      [⟨0, 2, .rw⟩, ⟨2, 3, .rw⟩, ⟨5, 25, .rw⟩, ⟨30, 24, .rw⟩, ⟨54, 1, .wo⟩, ⟨55, 8, .ro⟩, ⟨63, 1, .ro⟩]⟩
  | .SEC_UPD_STAT => ⟨.sec, 0x38, 0x0, 0, 0x0, 1, 0, true, .always,
      [⟨0, 2, .ro⟩, ⟨2, 3, .ro⟩, ⟨5, 14, .ro⟩, ⟨19, 14, .ro⟩, ⟨33, 14, .ro⟩, ⟨47, 10, .ro⟩, ⟨57, 7, .ro⟩]⟩
  | .SEC_PATCH_ADDR => ⟨.sec, 0x40, 0x0, 0, 0x0, 1, 0, true, .always,
      [⟨0, 40, .rw⟩]⟩
  | .SEC_PATCH_CMD => ⟨.sec, 0x48, 0x0, 0, 0x0, 1, 0, false, .always,
      [⟨0, 1, .wo⟩, ⟨1, 8, .ro⟩, ⟨9, 1, .ro⟩]⟩
  | .SEC_KEY_CMD => ⟨.sec, 0x50, 0x0, 0, 0x0, 1, 0, false, .always,
      [⟨0, 2, .rw⟩, ⟨2, 8, .rw⟩, ⟨10, 1, .wo⟩, ⟨11, 8, .ro⟩]⟩
  | .SEC_TOKEN_ADDR => ⟨.sec, 0x58, 0x0, 0, 0x0, 1, 0, true, .always,
      [⟨0, 40, .rw⟩]⟩
  | .SEC_NONCE => ⟨.sec, 0x60, 0x0, 0, 0x0, 1, 0, true, .always,
      [⟨0, 64, .rc⟩]⟩
  | .SEC_OTP_ADDR => ⟨.sec, 0x68, 0x0, 0, 0x0, 1, 0, true, .always,
      [⟨0, 40, .rw⟩]⟩
  | .SEC_CRED => ⟨.sec, 0x80, 0x0, 0, 0x8, 6, 0, true, .always,
      [⟨0, 64, .wo⟩]⟩
  | .SEC_CERT_BASE => ⟨.sec, 0x100, 0x0, 0, 0x0, 1, 0, true, .always,
      [⟨0, 40, .rw⟩]⟩
  | .SEC_SIGN_CMD => ⟨.sec, 0x108, 0x0, 0, 0x0, 1, 0, false, .always,
      [⟨0, 1, .wo⟩, ⟨1, 8, .ro⟩, ⟨9, 1, .ro⟩]⟩
  | .SEC_SIGN_DIG => ⟨.sec, 0x110, 0x0, 0, 0x8, 6, 0, true, .always,
      [⟨0, 64, .wo⟩]⟩
  | .SEC_SIGN_OUT => ⟨.sec, 0x140, 0x0, 0, 0x8, 12, 0, true, .always,
      [⟨0, 64, .ro⟩]⟩
  | .SEC_RANGE => ⟨.sec, 0x1000, 0x0, 0, 0x10, 129, 0, true, .always,
      [⟨0, 40, .rw⟩, ⟨40, 7, .rw⟩, ⟨47, 1, .rw⟩, ⟨48, 1, .rw⟩, ⟨49, 1, .rw⟩, ⟨50, 1, .rw⟩]⟩
  | .SEC_RANGE_LEN => ⟨.sec, 0x1008, 0x0, 0, 0x10, 129, 0, true, .always,
      [⟨0, 40, .rw⟩]⟩
  | .SEC_MEAS => ⟨.sec, 0x2000, 0x40, 5, 0x8, 6, 8, true, .always,
      [⟨0, 64, .ro⟩]⟩
  | .CKR_STRAP => ⟨.ckr, 0x0, 0x0, 0, 0x0, 1, 0, false, .always,
      [⟨0, 1, .ro⟩, ⟨1, 1, .ro⟩]⟩
  | .CKR_UNITS => ⟨.ckr, 0x8, 0x0, 0, 0x0, 1, 0, true, .always,
      [⟨0, 4, .ro⟩, ⟨4, 8, .ro⟩, ⟨12, 12, .ro⟩, ⟨24, 4, .ro⟩, ⟨28, 1, .ro⟩, ⟨29, 1, .ro⟩, ⟨30, 1, .ro⟩, ⟨31, 1, .ro⟩, ⟨32, 1, .ro⟩, ⟨33, 1, .ro⟩, ⟨34, 24, .ro⟩]⟩
  | .CKR_LIMITS => ⟨.ckr, 0x10, 0x0, 0, 0x0, 1, 0, true, .always,
      [⟨0, 6, .ro⟩, ⟨6, 7, .ro⟩, ⟨13, 4, .ro⟩]⟩
  | .CKR_READY => ⟨.ckr, 0x18, 0x0, 0, 0x0, 1, 0, false, .always,
      [⟨0, 1, .ro⟩, ⟨1, 1, .ro⟩, ⟨2, 2, .ro⟩, ⟨4, 1, .ro⟩, ⟨5, 1, .ro⟩, ⟨6, 1, .ro⟩, ⟨7, 1, .ro⟩, ⟨8, 1, .ro⟩, ⟨9, 4, .ro⟩, ⟨13, 1, .ro⟩, ⟨14, 1, .ro⟩, ⟨15, 1, .ro⟩, ⟨16, 1, .ro⟩]⟩
  | .CKR_FWREADY => ⟨.ckr, 0x1c, 0x0, 0, 0x0, 1, 0, false, .always,
      [⟨0, 1, .rw⟩, ⟨1, 1, .rw⟩]⟩
  | .CKR_RST => ⟨.ckr, 0x20, 0x0, 0, 0x0, 1, 0, false, .always,
      [⟨0, 1, .wo⟩]⟩
  | .CKR_BRST => ⟨.ckr, 0x24, 0x0, 0, 0x0, 1, 0, false, .always,
      [⟨0, 4, .w1s⟩, ⟨4, 1, .w1s⟩, ⟨5, 1, .w1s⟩, ⟨6, 4, .w1s⟩, ⟨10, 1, .w1s⟩, ⟨11, 1, .w1s⟩, ⟨12, 1, .w1s⟩, ⟨13, 1, .w1s⟩, ⟨14, 1, .w1s⟩, ⟨15, 1, .w1s⟩, ⟨16, 4, .w1s⟩, ⟨20, 1, .w1s⟩, ⟨21, 1, .w1s⟩, ⟨22, 1, .w1s⟩, ⟨23, 1, .w1s⟩, ⟨24, 1, .w1s⟩]⟩
  | .CKR_PWR_STAT => ⟨.ckr, 0x28, 0x0, 0, 0x0, 1, 0, false, .always,
      [⟨0, 1, .ro⟩, ⟨1, 1, .ro⟩, ⟨2, 1, .ro⟩, ⟨3, 9, .ro⟩]⟩
  | .CKR_DIRTY_TIER => ⟨.ckr, 0x30, 0x0, 0, 0x0, 1, 0, false, .always,
      [⟨0, 17, .rw⟩]⟩
  | .CKR_SHUTDOWN => ⟨.ckr, 0x34, 0x0, 0, 0x0, 1, 0, false, .always,
      [⟨0, 1, .w1s⟩, ⟨1, 1, .ro⟩]⟩
  | .CKR_CLK_STAT => ⟨.ckr, 0x38, 0x0, 0, 0x0, 1, 0, false, .always,
      [⟨0, 1, .ro⟩, ⟨1, 1, .ro⟩, ⟨2, 10, .ro⟩, ⟨12, 1, .ro⟩]⟩
  | .CKR_DTIME => ⟨.ckr, 0x40, 0x0, 0, 0x0, 1, 0, true, .always,
      [⟨0, 48, .ro⟩]⟩
  | .CKR_PCYCLE => ⟨.ckr, 0x48, 0x0, 0, 0x0, 1, 0, false, .always,
      [⟨0, 32, .ro⟩]⟩
  | .CAL_CTL => ⟨.cal, 0x0, 0x0, 0, 0x0, 1, 0, false, .always,
      [⟨0, 1, .rw⟩, ⟨1, 15, .rw⟩]⟩
  | .CAL_CMD => ⟨.cal, 0x8, 0x0, 0, 0x0, 1, 0, false, .always,
      [⟨0, 11, .rw⟩, ⟨11, 1, .wo⟩, ⟨12, 8, .ro⟩, ⟨20, 5, .ro⟩]⟩
  | .CAL_STAT => ⟨.cal, 0x10, 0x0, 0, 0x0, 1, 0, false, .always,
      [⟨0, 5, .ro⟩, ⟨5, 5, .ro⟩, ⟨10, 1, .ro⟩]⟩
  | .CAL_CNT => ⟨.cal, 0x18, 0x0, 0, 0x0, 1, 0, true, .always,
      [⟨0, 16, .rc⟩, ⟨16, 16, .rc⟩, ⟨32, 16, .rc⟩, ⟨48, 16, .rc⟩]⟩
  | .CAL_TRACK => ⟨.cal, 0x20, 0x0, 0, 0x4, 4, 0, false, .act,
      [⟨0, 21, .rw⟩]⟩
  | .CAL_COUNT => ⟨.cal, 0x1000, 0x0, 0, 0x4, 1600, 0, false, .calItem,
      [⟨0, 24, .ro⟩, ⟨24, 8, .ro⟩]⟩
  | .CAL_LAST => ⟨.cal, 0x4000, 0x0, 0, 0x8, 1600, 0, true, .calItem,
      [⟨0, 48, .ro⟩]⟩

/-- Registers, part 0. -/
def all0 : List Reg :=
  [.HDL_HEADMAP_LOCK, .HDL_HEADMAP, .HDL_PSP_CMD, .HDL_PSP_RDATA, .HDL_HSEL, .HDL_HSW_SETTLE, .HDL_WG_STAT, .HDL_PFLT, .HDL_PFLT_ADDR, .HDL_TAG_STATUS, .HDL_TAG_REPAIR, .HDL_LIFE_USED, .HDL_LIFE_RATED, .HDL_LIFE_PCT, .HDL_LIFE_COMMIT, .HDL_LIFE_LAST, .LNE_AFE_CTL, .LNE_GAIN, .LNE_BASE, .LNE_ASYM, .LNE_DFE_CUR, .LNE_SLICE_MAP_LO, .LNE_SLICE_MAP_HI, .LNE_TRIM, .LNE_RATE, .LNE_RATE_STAT, .LNE_PAIR_SKEW, .LNE_SV_OFFSET, .LNE_TIM_CTL, .LNE_TIM_STAT, .LNE_LOOP_CTL, .LNE_TARGET, .LNE_TARGET_CUR, .LNE_SYNC_CTL, .LNE_SYNC_PAT, .LNE_DEF_CTL, .LNE_DET_CTL, .LNE_RUN_STAT, .LNE_RETAIN, .LNE_REPLAY]

/-- Registers, part 1. -/
def all1 : List Reg :=
  [.LNE_CNT, .LNE_EQ, .LNE_EQ_CUR, .LNE_ADC_MODE, .DCP_CTL, .DCP_OTF_CTL, .DCP_RCV_CTL, .DCP_SECT_TIME, .DCP_Q_STAT, .DCP_CPL, .DCP_CNT, .DCP_SUBMIT, .DCP_PINS, .DCP_DEC_STAT, .WRP_CTL, .WRP_PA_CFG, .WRP_MAX_TRACK, .WRP_RUN_STAT, .WRP_CNT, .WRP_HEAT_STAT, .WRP_ZONE, .WRP_ZONE2, .WRP_PC, .WRP_HA, .SVG_CTL, .SVG_PES, .SVG_TRK, .SVG_TONE, .SVG_CNT, .SVG_ZONE, .SVG_PESCAL, .CTE_MAX_TRACK, .CTE_EXT_CTL, .CTE_EXT_STAT, .CTE_CMD, .CTE_STAT, .CTE_SEEK, .CTE_MODESET, .CTE_LAW_CTL, .CTE_SETTLE]

/-- Registers, part 2. -/
def all2 : List Reg :=
  [.CTE_OT, .CTE_LOAD, .CTE_PARK, .CTE_RES_LIM, .CTE_RES_CNT, .CTE_CNT, .CTE_SAT, .CTE_SPN_CTL, .CTE_SPN_OUT, .CTE_COEF, .CTE_VEL, .SPN_CMD, .SPN_STAT, .SPN_SPEED, .SPN_LIM, .SPN_START_CTL, .SPN_WIN_CTL, .SPN_BRAKE_CTL, .SPN_SYNC_CTL, .SPN_SYNC_STAT, .SPN_OBS, .SPN_HU_MEAS, .SPN_HU_STAT, .SPN_CNT, .PWS_STAT, .PWS_VOLT, .PWS_CLAMP, .PWS_FAULT, .PWS_RETRACT, .PWS_UACT_CTL, .PWS_HU_LOAD, .PWS_TEMP, .PWS_BRK_I, .SHT_ROM_ID, .SHT_CODE_TOP, .SHT_TASK_TMO, .SHT_LOAD, .SHT_LOAD_STAT, .SHT_LOAD_MASK, .SHT_LS_PORT_ADDR]

/-- Registers, part 3. -/
def all3 : List Reg :=
  [.SHT_LS_PORT_DATA, .SHT_PATCH_STAT, .SHT_MATCH, .SHT_S_CTL, .SHT_STAT, .SHT_TRAP, .SHT_LOST, .SHT_CNT, .LOOM_CTL, .LOOM_INJECT, .LOOM_INJ_STAT, .LOOM_PUSH, .LOOM_TAKE, .LOOM_DQ_STAT, .LOOM_BAR_CFG, .LOOM_BAR_ARRIVE, .LOOM_BAR_RESULT, .LOOM_BAR_STAT, .GLY_CTL, .GLY_STAT, .GLY_ARB_CTL, .GLY_BUDGET, .GLY_BUDGET_STAT, .GLY_DISPATCH_CTL, .GLY_DRAIN, .GLY_ASN_NEXT, .GLY_ASN_FLOOR, .GLY_QEXT_BASE, .GLY_WBUF_BASE, .GLY_WBUF_SIZE, .GLY_ZONE_BASE, .GLY_QCTX_SEL, .GLY_QCTX_LO, .GLY_QCTX_HI, .GLY_CNT, .GLY_SLOT_CMD, .GLY_SLOT_ARG, .GLY_SLOT_RD, .GLY_WB_CMD, .GLY_WB_LBA]

/-- Registers, part 4. -/
def all4 : List Reg :=
  [.GLY_WB_RES, .GLY_WB_ASN, .GLY_SLOT_IMG, .HFE_CFG, .HFE_ID, .HFE_RESET_STAT, .HFE_PI_CNT, .HFE_LINK_CNT, .HFE_SAS_ADDR_0, .HFE_SAS_ADDR_1, .MGT_CTL, .MGT_ADDR, .MGT_TEMP, .MGT_TEMP_THR, .MGT_STAT, .MGT_CNT, .BFM_ECC_CTL, .BFM_CE_CNT, .BFM_CE_LOG, .BFM_UE_LOG, .BFM_SCRUB_CTL, .BFM_SCRUB_LAP, .BFM_SCRUB_STAT, .BFM_DRAM_STAT, .BFM_DRAM_CNT, .SYC_CTL, .SYC_ALLOC_CTL, .SYC_WAY_LOCK, .SYC_SCRATCH, .SYC_RANGE_BASE, .SYC_RANGE_LEN, .SYC_RANGE_CMD, .SYC_RANGE_STAT, .SYC_CNT, .SYC_EVB_STAT, .DMA_CH_CFG, .DMA_CH_RING, .DMA_CH_TAIL, .DMA_CH_HEAD, .DMA_CH_CTL]

/-- Registers, part 5. -/
def all5 : List Reg :=
  [.DMA_CH_STATUS, .DMA_CH_SRC, .DMA_CH_DST, .DMA_CH_COUNT, .DMA_CH_LATE, .DMA_CH_CNT, .SPL_PAR_CNT, .SPL_FW_CFG, .SPL_FW_STAT, .SPL_FW_PUSH, .SPL_FW_PUSH_LAST, .SPL_FW_POP, .SPL_FW_DROP, .SPL_POPSTAT, .FLT_CTL, .FLT_STAT, .FLT_SPARE, .FLT_HU_STAT, .FLT_HU_CTL, .FLT_LIFE_PCT, .FLT_GEOM, .FLT_DIE_MAP, .FLT_ONFI_CTL, .FLT_LOGICAL, .FLT_MAP_BASE, .FLT_Q_BASE, .FLT_Q_TAIL, .FLT_Q_HEAD, .FLT_SLC_CTL, .FLT_THROTTLE, .FLT_VERIFY_CTL, .FLT_GC_CTL, .FLT_PE_RATED, .FLT_WEAR, .FLT_ERR_CNT, .FLT_LOST_CNT, .FLT_PIN_CNT, .FLT_VALID_CNT, .FLT_CKPT_CTL, .FLT_RR_CTL]

/-- Registers, part 6. -/
def all6 : List Reg :=
  [.FLT_RR_VAL, .FLT_TEMP_HIST, .SVC_MTIME, .SVC_IPI_SET, .SVC_NMI_VEC, .SVC_DQ_THR, .SVC_SEM_ERR, .SVC_MTIMECMP, .SVC_MSIP, .SVC_CORE_CTL, .SVC_CORE_PC, .SVC_SEM, .SVC_CL_CNT, .OFL_WV_RING, .OFL_WV_TAIL, .OFL_WV_HEAD, .OFL_WV_STAT, .OFL_CD_RING, .OFL_CD_TAIL, .OFL_CD_HEAD, .OFL_CD_STAT, .OFL_CNT, .FCL_STAT, .FCL_CTL, .FCL_CAUSE, .FCL_CAUSE_INFO, .FCL_LAST, .FCL_CNT, .FCL_SW_SET, .FCL_SW_RAISE, .FCL_CLAIM, .FCL_THRESH, .FCL_PEND, .FCL_SRC_CFG, .EVR_CTL, .EVR_STAT, .EVR_LOG_BASE, .EVR_DROPS, .EVR_SEQ_NEXT, .EVR_DIRTY]

/-- Registers, part 7. -/
def all7 : List Reg :=
  [.EVR_FW_CMD, .EVR_FW_P, .EVR_RATE, .SEC_LC, .SEC_LC_REQ, .SEC_OTP_STAT, .SEC_OTP_CMD, .SEC_BOOT_STAT, .SEC_BOOT_CTL, .SEC_STAGE_BASE, .SEC_UPD_ADDR, .SEC_UPD_CMD, .SEC_UPD_STAT, .SEC_PATCH_ADDR, .SEC_PATCH_CMD, .SEC_KEY_CMD, .SEC_TOKEN_ADDR, .SEC_NONCE, .SEC_OTP_ADDR, .SEC_CRED, .SEC_CERT_BASE, .SEC_SIGN_CMD, .SEC_SIGN_DIG, .SEC_SIGN_OUT, .SEC_RANGE, .SEC_RANGE_LEN, .SEC_MEAS, .CKR_STRAP, .CKR_UNITS, .CKR_LIMITS, .CKR_READY, .CKR_FWREADY, .CKR_RST, .CKR_BRST, .CKR_PWR_STAT, .CKR_DIRTY_TIER, .CKR_SHUTDOWN, .CKR_CLK_STAT, .CKR_DTIME, .CKR_PCYCLE]

/-- Registers, part 8. -/
def all8 : List Reg :=
  [.CAL_CTL, .CAL_CMD, .CAL_STAT, .CAL_CNT, .CAL_TRACK, .CAL_COUNT, .CAL_LAST]

/-- Every register. -/
def all : List Reg := all0 ++ all1 ++ all2 ++ all3 ++ all4 ++ all5 ++ all6 ++ all7 ++ all8

end Reg

/-- CKR_UNITS of a part (R6, Table 0.2). -/
def units (p : Part) : Word :=
  BitVec.ofNat 64 ((2 ^ p.acts - 1) + (2 ^ p.lanes - 1) * 2 ^ 4 + (2 ^ p.decoders - 1) * 2 ^ 12 +
    (2 ^ p.clusters - 1) * 2 ^ 24 + b2n p.hasPcie * 2 ^ 28 + b2n p.hasSas * 2 ^ 29 + b2n p.hasFlt * 2 ^ 30 +
    b2n p.hasOfl * 2 ^ 31 + b2n p.mirrorOnly * 2 ^ 32 + b2n p.hasOfl * 2 ^ 33 +
    (2 ^ p.shuttles - 1) * 2 ^ 34)

/-- CKR_LIMITS of a part (R7, Table 0.3). -/
def limits (p : Part) : Word := BitVec.ofNat 64 (p.heads + p.dies * 2 ^ 6 + p.dramGib * 2 ^ 13)

/-- The slice map at reset: position p holds slice p (R68); positions 0 to 11. -/
def sliceMapLo : Word :=
  BitVec.ofNat 64 (((List.range 12).map (fun p => p * 2 ^ (5 * p))).sum)

/-- The slice map at reset: positions 12 to 15 hold slices 12 to 15, and the spares are slices 16 and 17 (R68). -/
def sliceMapHi : Word :=
  BitVec.ofNat 64 (((List.range 6).map (fun p => (p + 12) * 2 ^ (5 * p))).sum)

/-- DCP_CTL at reset: DEC_EN is 1 for each present decoder, RCV_MAX is 4, 2 or 1 (Table 4.7). -/
def dcpCtlReset (p : Part) : Word :=
  BitVec.ofNat 64 ((2 ^ p.decoders - 1) + 2 ^ 12 + p.acts * 2 ^ 13 + 2 ^ 17)

/-- EVR_CTL at reset: MODE is 1 where the flash tier is absent, PERSIST is 1,000 (Table 15.11). -/
def evrCtlReset (p : Part) : Word := BitVec.ofNat 64 (b2n (!p.hasFlt) * 2 + 1000 * 4)

/-- The value of a register's instance after reset (R13: the reset columns of the field tables and summaries). -/
def Reg.reset (p : Part) (r : Reg) (i : Nat) : Word :=
  match r with
  | .HDL_HSW_SETTLE => 0x14#64
  | .LNE_AFE_CTL => 0x18220#64
  | .LNE_GAIN => 0x1000#64
  | .LNE_SLICE_MAP_LO => sliceMapLo
  | .LNE_SLICE_MAP_HI => sliceMapHi
  | .LNE_RATE => 0xea60#64
  | .LNE_TIM_CTL => 0x6ec593#64
  | .LNE_LOOP_CTL => 0x3df97642#64
  | .LNE_SYNC_CTL => 0x710#64
  | .LNE_DEF_CTL => 0x60010420#64
  | .LNE_DET_CTL => 0x10#64
  | .LNE_EQ => if i % 64 = 15 then 0x4000#64 else 0#64
  | .DCP_CTL => dcpCtlReset p
  | .DCP_OTF_CTL => 0x610818#64
  | .DCP_RCV_CTL => 0x7d00880c32060c8#64
  | .DCP_SECT_TIME => 0x1825#64
  | .DCP_Q_STAT => 0x10#64
  | .WRP_CTL => 0xd08#64
  | .WRP_ZONE => 0x400000#64
  | .WRP_HA => 0x640000#64
  | .SVG_CTL => 0x60220#64
  | .SVG_TRK => 0x1fe00000000000#64
  | .SVG_ZONE => 0x200000000000#64
  | .SVG_PESCAL => 0x4000#64
  | .CTE_STAT => 0x10#64
  | .CTE_MODESET => 0x14688#64
  | .CTE_LAW_CTL => 0x4#64
  | .CTE_SETTLE => 0x64101ec#64
  | .CTE_OT => 0x4333#64
  | .CTE_LOAD => 0xc880c80800#64
  | .CTE_PARK => 0x190619e00000000#64
  | .CTE_RES_LIM => 0x148#64
  | .CTE_RES_CNT => 0x8#64
  | .SPN_SPEED => 0xafc80#64
  | .SPN_LIM => 0xaf0#64
  | .SPN_START_CTL => 0x2d18190965dc#64
  | .SPN_WIN_CTL => 0x104f04#64
  | .SPN_BRAKE_CTL => 0x50#64
  | .SPN_SYNC_CTL => 0x1900000#64
  | .PWS_CLAMP => 0xd78#64
  | .PWS_RETRACT => 0x14f000#64
  | .SHT_CODE_TOP => 0x2000#64
  | .LOOM_CTL => 0x3#64
  | .LOOM_INJ_STAT => 0x100#64
  | .GLY_CTL => 0x1000#64
  | .GLY_BUDGET => 0x8#64
  | .GLY_ASN_NEXT => 0x1#64
  | .MGT_CTL => 0x1#64
  | .MGT_ADDR => 0x6a1d#64
  | .MGT_TEMP_THR => 0x17f0175#64
  | .BFM_ECC_CTL => 0x1000#64
  | .BFM_SCRUB_CTL => 0x65#64
  | .SYC_CTL => 0x2#64
  | .DMA_CH_CFG => 0x68#64
  | .DMA_CH_STATUS => 0x5#64
  | .SPL_FW_STAT => 0x5a0#64
  | .FLT_CTL => 0x60#64
  | .FLT_HU_CTL => 0x10#64
  | .FLT_ONFI_CTL => 0x4#64
  | .FLT_SLC_CTL => 0x328#64
  | .FLT_THROTTLE => 0x190#64
  | .FLT_VERIFY_CTL => 0x3c#64
  | .FLT_GC_CTL => 0x1f40820#64
  | .FLT_PE_RATED => 0x400bb8#64
  | .FLT_CKPT_CTL => 0x40#64
  | .SVC_NMI_VEC => 0x100#64
  | .SVC_DQ_THR => 0x4#64
  | .SVC_MTIMECMP => 0xffffffffffffffff#64
  | .SVC_CORE_CTL => if i = 0 then 1#64 else 0#64
  | .FCL_SRC_CFG => 0x8000c800#64
  | .EVR_CTL => evrCtlReset p
  | .EVR_RATE => 0x1003e810#64
  | .SEC_RANGE => 0x3800000000000#64
  | .CKR_UNITS => units p
  | .CKR_LIMITS => limits p
  | .CAL_CTL => 0xfa1#64
  | .PWS_HU_LOAD => BitVec.ofNat 64 (Config.huLoad p)
  | .SHT_ROM_ID => (Config.romId p).setWidth 64
  | _ => 0#64

/-- A calibration item number names a present instance (R611, Table 17.6). -/
def calItemPresent (p : Part) (n : Nat) : Bool :=
  if n < 8 then decide (n < p.lanes)
  else if n < 16 then decide (n - 8 < p.lanes)
  else if n < 24 then decide (n - 16 < p.lanes)
  else if n < 28 then decide (n - 24 < p.acts)
  else if n < 32 then decide (n - 28 < p.acts)
  else if n < 36 then decide (n - 32 < p.acts)
  else if n < 40 then decide (n - 36 < p.acts)
  else if n < 47 then true
  else if n < 64 then false
  else if n < 576 then decide ((n - 64) / 16 < p.heads)
  else if n < 1088 then decide ((n - 576) / 16 < p.heads)
  else if n < 1600 then decide ((n - 1088) / 16 < p.heads)
  else false

/-- The unit an instance belongs to is present on the part (R2, R3, R47, R190, R611). -/
def UnitKind.present (p : Part) (u : UnitKind) (i : Nat) : Bool :=
  match u with
  | .always => true
  | .act => decide (i < p.acts)
  | .lane => decide (i < p.lanes)
  | .dec => decide (i < p.decoders)
  | .sht => decide (i < p.shuttles)
  | .core => decide (i < p.cores)
  | .cluster => decide (i < p.clusters)
  | .engine => if i < 16 then decide (i < p.cores) else decide (i - 16 < p.shuttles)
  | .head => decide (i < p.heads)
  | .headGroup => decide (i / 16 < p.heads)
  | .trim => decide (i / 18 < p.lanes)
  | .tap => decide (i / 64 < p.acts)
  | .ctx => decide (i < p.acts) || decide (i = 4)
  | .coef => decide (i / 2048 < p.acts) || decide (i / 2048 = 4)
  | .vel => decide (i / 256 < p.acts)
  | .flt => p.hasFlt
  | .ofl => p.hasOfl
  | .calItem => calItemPresent p i
  | .coreBy k => decide (i / k < p.cores)

/-- A field of a register, by name. -/
structure Fld where
  reg : Reg
  lo : Nat
  w : Nat
deriving DecidableEq, Repr

namespace F

/-- HDL_HEADMAP_LOCK.LOCK, W1S. -/
abbrev HDL_HEADMAP_LOCK_LOCK : Fld := ⟨.HDL_HEADMAP_LOCK, 0, 1⟩
/-- HDL_HEADMAP_LOCK.ERR_CODE, RO. -/
abbrev HDL_HEADMAP_LOCK_ERR_CODE : Fld := ⟨.HDL_HEADMAP_LOCK, 4, 4⟩
/-- HDL_HEADMAP.PREAMP_HEAD, RW. -/
abbrev HDL_HEADMAP_PREAMP_HEAD : Fld := ⟨.HDL_HEADMAP, 0, 3⟩
/-- HDL_HEADMAP.ACT, RW. -/
abbrev HDL_HEADMAP_ACT : Fld := ⟨.HDL_HEADMAP, 3, 2⟩
/-- HDL_HEADMAP.SWAP, RW. -/
abbrev HDL_HEADMAP_SWAP : Fld := ⟨.HDL_HEADMAP, 5, 1⟩
/-- HDL_HEADMAP.VALID, RW. -/
abbrev HDL_HEADMAP_VALID : Fld := ⟨.HDL_HEADMAP, 6, 1⟩
/-- HDL_HEADMAP.DISABLED, RW. -/
abbrev HDL_HEADMAP_DISABLED : Fld := ⟨.HDL_HEADMAP, 7, 1⟩
/-- HDL_PSP_CMD.DATA, RW. -/
abbrev HDL_PSP_CMD_DATA : Fld := ⟨.HDL_PSP_CMD, 0, 16⟩
/-- HDL_PSP_CMD.ADDR, RW. -/
abbrev HDL_PSP_CMD_ADDR : Fld := ⟨.HDL_PSP_CMD, 16, 7⟩
/-- HDL_PSP_CMD.RNW, RW. -/
abbrev HDL_PSP_CMD_RNW : Fld := ⟨.HDL_PSP_CMD, 23, 1⟩
/-- HDL_PSP_CMD.GO, WO. -/
abbrev HDL_PSP_CMD_GO : Fld := ⟨.HDL_PSP_CMD, 24, 1⟩
/-- HDL_PSP_CMD.OVERRUN, W1C. -/
abbrev HDL_PSP_CMD_OVERRUN : Fld := ⟨.HDL_PSP_CMD, 30, 1⟩
/-- HDL_PSP_CMD.BUSY, RO. -/
abbrev HDL_PSP_CMD_BUSY : Fld := ⟨.HDL_PSP_CMD, 31, 1⟩
/-- HDL_PSP_RDATA.DATA, RO. -/
abbrev HDL_PSP_RDATA_DATA : Fld := ⟨.HDL_PSP_RDATA, 0, 16⟩
/-- HDL_PSP_RDATA.VALID, RO. -/
abbrev HDL_PSP_RDATA_VALID : Fld := ⟨.HDL_PSP_RDATA, 16, 1⟩
/-- HDL_HSEL.HEAD, RW. -/
abbrev HDL_HSEL_HEAD : Fld := ⟨.HDL_HSEL, 0, 5⟩
/-- HDL_HSEL.PENDING, RO. -/
abbrev HDL_HSEL_PENDING : Fld := ⟨.HDL_HSEL, 8, 1⟩
/-- HDL_HSEL.STATUS, RO. -/
abbrev HDL_HSEL_STATUS : Fld := ⟨.HDL_HSEL, 16, 8⟩
/-- HDL_HSW_SETTLE.SETTLE, RW. -/
abbrev HDL_HSW_SETTLE_SETTLE : Fld := ⟨.HDL_HSW_SETTLE, 0, 8⟩
/-- HDL_WG_STAT.INHIBITS, RO. -/
abbrev HDL_WG_STAT_INHIBITS : Fld := ⟨.HDL_WG_STAT, 0, 7⟩
/-- HDL_PFLT.ACTIVE, RO. -/
abbrev HDL_PFLT_ACTIVE : Fld := ⟨.HDL_PFLT, 0, 1⟩
/-- HDL_PFLT.LATCHED, W1C. -/
abbrev HDL_PFLT_LATCHED : Fld := ⟨.HDL_PFLT, 1, 1⟩
/-- HDL_PFLT.FAULT_CODE, RO. -/
abbrev HDL_PFLT_FAULT_CODE : Fld := ⟨.HDL_PFLT, 16, 16⟩
/-- HDL_PFLT_ADDR.ADDR, RW. -/
abbrev HDL_PFLT_ADDR_ADDR : Fld := ⟨.HDL_PFLT_ADDR, 0, 7⟩
/-- HDL_TAG_STATUS.STATE, RO. -/
abbrev HDL_TAG_STATUS_STATE : Fld := ⟨.HDL_TAG_STATUS, 0, 3⟩
/-- HDL_TAG_STATUS.REASON, RO. -/
abbrev HDL_TAG_STATUS_REASON : Fld := ⟨.HDL_TAG_STATUS, 3, 4⟩
/-- HDL_TAG_STATUS.RETRIES, RO. -/
abbrev HDL_TAG_STATUS_RETRIES : Fld := ⟨.HDL_TAG_STATUS, 8, 8⟩
/-- HDL_TAG_REPAIR.GO, W1S. -/
abbrev HDL_TAG_REPAIR_GO : Fld := ⟨.HDL_TAG_REPAIR, 0, 1⟩
/-- HDL_TAG_REPAIR.DISCARD_DIRTY, W1S. -/
abbrev HDL_TAG_REPAIR_DISCARD_DIRTY : Fld := ⟨.HDL_TAG_REPAIR, 1, 1⟩
/-- HDL_TAG_REPAIR.STATUS, RO. -/
abbrev HDL_TAG_REPAIR_STATUS : Fld := ⟨.HDL_TAG_REPAIR, 8, 8⟩
/-- HDL_LIFE_USED.VAL, RO. -/
abbrev HDL_LIFE_USED_VAL : Fld := ⟨.HDL_LIFE_USED, 0, 64⟩
/-- HDL_LIFE_RATED.VAL, RO. -/
abbrev HDL_LIFE_RATED_VAL : Fld := ⟨.HDL_LIFE_RATED, 0, 64⟩
/-- HDL_LIFE_PCT.PCT, RO. -/
abbrev HDL_LIFE_PCT_PCT : Fld := ⟨.HDL_LIFE_PCT, 0, 8⟩
/-- HDL_LIFE_PCT.LIMIT, RO. -/
abbrev HDL_LIFE_PCT_LIMIT : Fld := ⟨.HDL_LIFE_PCT, 8, 3⟩
/-- HDL_LIFE_COMMIT.GO, W1S. -/
abbrev HDL_LIFE_COMMIT_GO : Fld := ⟨.HDL_LIFE_COMMIT, 0, 1⟩
/-- HDL_LIFE_COMMIT.BUSY, RO. -/
abbrev HDL_LIFE_COMMIT_BUSY : Fld := ⟨.HDL_LIFE_COMMIT, 1, 1⟩
/-- HDL_LIFE_COMMIT.FAIL, RO. -/
abbrev HDL_LIFE_COMMIT_FAIL : Fld := ⟨.HDL_LIFE_COMMIT, 2, 1⟩
/-- HDL_LIFE_COMMIT.FAILS, RO. -/
abbrev HDL_LIFE_COMMIT_FAILS : Fld := ⟨.HDL_LIFE_COMMIT, 8, 8⟩
/-- HDL_LIFE_LAST.TIME, RO. -/
abbrev HDL_LIFE_LAST_TIME : Fld := ⟨.HDL_LIFE_LAST, 0, 48⟩
/-- LNE_AFE_CTL.EN, RW. -/
abbrev LNE_AFE_CTL_EN : Fld := ⟨.LNE_AFE_CTL, 0, 1⟩
/-- LNE_AFE_CTL.CTF_BOOST, RW. -/
abbrev LNE_AFE_CTL_CTF_BOOST : Fld := ⟨.LNE_AFE_CTL, 1, 5⟩
/-- LNE_AFE_CTL.CTF_FC, RW. -/
abbrev LNE_AFE_CTL_CTF_FC : Fld := ⟨.LNE_AFE_CTL, 6, 4⟩
/-- LNE_AFE_CTL.VGA_GAIN, RW. -/
abbrev LNE_AFE_CTL_VGA_GAIN : Fld := ⟨.LNE_AFE_CTL, 10, 6⟩
/-- LNE_AFE_CTL.HPF_FAST, RW. -/
abbrev LNE_AFE_CTL_HPF_FAST : Fld := ⟨.LNE_AFE_CTL, 16, 1⟩
/-- LNE_GAIN.GAIN, RW. -/
abbrev LNE_GAIN_GAIN : Fld := ⟨.LNE_GAIN, 0, 16⟩
/-- LNE_BASE.BASE, RW. -/
abbrev LNE_BASE_BASE : Fld := ⟨.LNE_BASE, 0, 12⟩
/-- LNE_ASYM.ASYM, RW. -/
abbrev LNE_ASYM_ASYM : Fld := ⟨.LNE_ASYM, 0, 16⟩
/-- LNE_DFE_CUR.GAIN, RO. -/
abbrev LNE_DFE_CUR_GAIN : Fld := ⟨.LNE_DFE_CUR, 0, 16⟩
/-- LNE_DFE_CUR.BASE, RO. -/
abbrev LNE_DFE_CUR_BASE : Fld := ⟨.LNE_DFE_CUR, 16, 12⟩
/-- LNE_DFE_CUR.ASYM, RO. -/
abbrev LNE_DFE_CUR_ASYM : Fld := ⟨.LNE_DFE_CUR, 32, 16⟩
/-- LNE_SLICE_MAP_LO.MAP, RO. -/
abbrev LNE_SLICE_MAP_LO_MAP : Fld := ⟨.LNE_SLICE_MAP_LO, 0, 60⟩
/-- LNE_SLICE_MAP_HI.MAP, RO. -/
abbrev LNE_SLICE_MAP_HI_MAP : Fld := ⟨.LNE_SLICE_MAP_HI, 0, 30⟩
/-- LNE_TRIM.OFFSET, RO. -/
abbrev LNE_TRIM_OFFSET : Fld := ⟨.LNE_TRIM, 0, 8⟩
/-- LNE_TRIM.GAIN, RO. -/
abbrev LNE_TRIM_GAIN : Fld := ⟨.LNE_TRIM, 8, 8⟩
/-- LNE_TRIM.SKEW, RO. -/
abbrev LNE_TRIM_SKEW : Fld := ⟨.LNE_TRIM, 16, 8⟩
/-- LNE_RATE.RATE, RW. -/
abbrev LNE_RATE_RATE : Fld := ⟨.LNE_RATE, 0, 16⟩
/-- LNE_RATE_STAT.LOCKED, RO. -/
abbrev LNE_RATE_STAT_LOCKED : Fld := ⟨.LNE_RATE_STAT, 0, 1⟩
/-- LNE_RATE_STAT.RANGE_ERR, W1C. -/
abbrev LNE_RATE_STAT_RANGE_ERR : Fld := ⟨.LNE_RATE_STAT, 1, 1⟩
/-- LNE_PAIR_SKEW.INT, RW. -/
abbrev LNE_PAIR_SKEW_INT : Fld := ⟨.LNE_PAIR_SKEW, 0, 8⟩
/-- LNE_PAIR_SKEW.FRAC, RW. -/
abbrev LNE_PAIR_SKEW_FRAC : Fld := ⟨.LNE_PAIR_SKEW, 8, 6⟩
/-- LNE_SV_OFFSET.OFS, RW. -/
abbrev LNE_SV_OFFSET_OFS : Fld := ⟨.LNE_SV_OFFSET, 0, 8⟩
/-- LNE_TIM_CTL.KP_ACQ, RW. -/
abbrev LNE_TIM_CTL_KP_ACQ : Fld := ⟨.LNE_TIM_CTL, 0, 4⟩
/-- LNE_TIM_CTL.KI_ACQ, RW. -/
abbrev LNE_TIM_CTL_KI_ACQ : Fld := ⟨.LNE_TIM_CTL, 4, 4⟩
/-- LNE_TIM_CTL.KP_TRK, RW. -/
abbrev LNE_TIM_CTL_KP_TRK : Fld := ⟨.LNE_TIM_CTL, 8, 4⟩
/-- LNE_TIM_CTL.KI_TRK, RW. -/
abbrev LNE_TIM_CTL_KI_TRK : Fld := ⟨.LNE_TIM_CTL, 12, 4⟩
/-- LNE_TIM_CTL.KD, RW. -/
abbrev LNE_TIM_CTL_KD : Fld := ⟨.LNE_TIM_CTL, 16, 4⟩
/-- LNE_TIM_CTL.SEED_PHASE, RW. -/
abbrev LNE_TIM_CTL_SEED_PHASE : Fld := ⟨.LNE_TIM_CTL, 20, 1⟩
/-- LNE_TIM_CTL.SEED_FREQ, RW. -/
abbrev LNE_TIM_CTL_SEED_FREQ : Fld := ⟨.LNE_TIM_CTL, 21, 1⟩
/-- LNE_TIM_CTL.ZPS_EN, RW. -/
abbrev LNE_TIM_CTL_ZPS_EN : Fld := ⟨.LNE_TIM_CTL, 22, 1⟩
/-- LNE_TIM_STAT.NU, RO. -/
abbrev LNE_TIM_STAT_NU : Fld := ⟨.LNE_TIM_STAT, 0, 16⟩
/-- LNE_TIM_STAT.PHI, RO. -/
abbrev LNE_TIM_STAT_PHI : Fld := ⟨.LNE_TIM_STAT, 16, 6⟩
/-- LNE_LOOP_CTL.SG, RW. -/
abbrev LNE_LOOP_CTL_SG : Fld := ⟨.LNE_LOOP_CTL, 0, 4⟩
/-- LNE_LOOP_CTL.SB, RW. -/
abbrev LNE_LOOP_CTL_SB : Fld := ⟨.LNE_LOOP_CTL, 4, 4⟩
/-- LNE_LOOP_CTL.SA, RW. -/
abbrev LNE_LOOP_CTL_SA : Fld := ⟨.LNE_LOOP_CTL, 8, 4⟩
/-- LNE_LOOP_CTL.SE, RW. -/
abbrev LNE_LOOP_CTL_SE : Fld := ⟨.LNE_LOOP_CTL, 12, 4⟩
/-- LNE_LOOP_CTL.ST, RW. -/
abbrev LNE_LOOP_CTL_ST : Fld := ⟨.LNE_LOOP_CTL, 16, 4⟩
/-- LNE_LOOP_CTL.GAIN_EN, RW. -/
abbrev LNE_LOOP_CTL_GAIN_EN : Fld := ⟨.LNE_LOOP_CTL, 20, 1⟩
/-- LNE_LOOP_CTL.BASE_EN, RW. -/
abbrev LNE_LOOP_CTL_BASE_EN : Fld := ⟨.LNE_LOOP_CTL, 21, 1⟩
/-- LNE_LOOP_CTL.ASYM_EN, RW. -/
abbrev LNE_LOOP_CTL_ASYM_EN : Fld := ⟨.LNE_LOOP_CTL, 22, 1⟩
/-- LNE_LOOP_CTL.EQ_EN, RW. -/
abbrev LNE_LOOP_CTL_EQ_EN : Fld := ⟨.LNE_LOOP_CTL, 23, 1⟩
/-- LNE_LOOP_CTL.TGT_EN, RW. -/
abbrev LNE_LOOP_CTL_TGT_EN : Fld := ⟨.LNE_LOOP_CTL, 24, 1⟩
/-- LNE_LOOP_CTL.FREEZE, RW. -/
abbrev LNE_LOOP_CTL_FREEZE : Fld := ⟨.LNE_LOOP_CTL, 25, 1⟩
/-- LNE_LOOP_CTL.MAIN_TAP, RW. -/
abbrev LNE_LOOP_CTL_MAIN_TAP : Fld := ⟨.LNE_LOOP_CTL, 26, 5⟩
/-- LNE_TARGET.G, RW. -/
abbrev LNE_TARGET_G : Fld := ⟨.LNE_TARGET, 0, 64⟩
/-- LNE_TARGET_CUR.G, RO. -/
abbrev LNE_TARGET_CUR_G : Fld := ⟨.LNE_TARGET_CUR, 0, 64⟩
/-- LNE_SYNC_CTL.WIN, RW. -/
abbrev LNE_SYNC_CTL_WIN : Fld := ⟨.LNE_SYNC_CTL, 0, 6⟩
/-- LNE_SYNC_CTL.THR, RW. -/
abbrev LNE_SYNC_CTL_THR : Fld := ⟨.LNE_SYNC_CTL, 6, 3⟩
/-- LNE_SYNC_CTL.B_FALLBACK, RW. -/
abbrev LNE_SYNC_CTL_B_FALLBACK : Fld := ⟨.LNE_SYNC_CTL, 9, 1⟩
/-- LNE_SYNC_CTL.B_CHECK, RW. -/
abbrev LNE_SYNC_CTL_B_CHECK : Fld := ⟨.LNE_SYNC_CTL, 10, 1⟩
/-- LNE_SYNC_PAT.MARK_A, RW. -/
abbrev LNE_SYNC_PAT_MARK_A : Fld := ⟨.LNE_SYNC_PAT, 0, 32⟩
/-- LNE_SYNC_PAT.MARK_B, RW. -/
abbrev LNE_SYNC_PAT_MARK_B : Fld := ⟨.LNE_SYNC_PAT, 32, 32⟩
/-- LNE_DEF_CTL.DROP_THR, RW. -/
abbrev LNE_DEF_CTL_DROP_THR : Fld := ⟨.LNE_DEF_CTL, 0, 6⟩
/-- LNE_DEF_CTL.TA_THR, RW. -/
abbrev LNE_DEF_CTL_TA_THR : Fld := ⟨.LNE_DEF_CTL, 6, 6⟩
/-- LNE_DEF_CTL.GUARD, RW. -/
abbrev LNE_DEF_CTL_GUARD : Fld := ⟨.LNE_DEF_CTL, 12, 6⟩
/-- LNE_DEF_CTL.COAST_MAX, RW. -/
abbrev LNE_DEF_CTL_COAST_MAX : Fld := ⟨.LNE_DEF_CTL, 18, 12⟩
/-- LNE_DEF_CTL.SCALE, RW. -/
abbrev LNE_DEF_CTL_SCALE : Fld := ⟨.LNE_DEF_CTL, 30, 2⟩
/-- LNE_DET_CTL.LLR_SCALE, RW. -/
abbrev LNE_DET_CTL_LLR_SCALE : Fld := ⟨.LNE_DET_CTL, 0, 8⟩
/-- LNE_RUN_STAT.STATE, RO. -/
abbrev LNE_RUN_STAT_STATE : Fld := ⟨.LNE_RUN_STAT, 0, 3⟩
/-- LNE_RUN_STAT.RUN_STATUS, RO. -/
abbrev LNE_RUN_STAT_RUN_STATUS : Fld := ⟨.LNE_RUN_STAT, 3, 8⟩
/-- LNE_RUN_STAT.SECTORS, RO. -/
abbrev LNE_RUN_STAT_SECTORS : Fld := ⟨.LNE_RUN_STAT, 11, 16⟩
/-- LNE_RETAIN.SLOT, RW. -/
abbrev LNE_RETAIN_SLOT : Fld := ⟨.LNE_RETAIN, 0, 2⟩
/-- LNE_RETAIN.SEQ, RW. -/
abbrev LNE_RETAIN_SEQ : Fld := ⟨.LNE_RETAIN, 2, 16⟩
/-- LNE_RETAIN.PIN, WO. -/
abbrev LNE_RETAIN_PIN : Fld := ⟨.LNE_RETAIN, 18, 1⟩
/-- LNE_RETAIN.UNPIN, WO. -/
abbrev LNE_RETAIN_UNPIN : Fld := ⟨.LNE_RETAIN, 19, 1⟩
/-- LNE_RETAIN.STATUS, RO. -/
abbrev LNE_RETAIN_STATUS : Fld := ⟨.LNE_RETAIN, 20, 8⟩
/-- LNE_RETAIN.HELD, RO. -/
abbrev LNE_RETAIN_HELD : Fld := ⟨.LNE_RETAIN, 28, 4⟩
/-- LNE_RETAIN.PINNED, RO. -/
abbrev LNE_RETAIN_PINNED : Fld := ⟨.LNE_RETAIN, 32, 4⟩
/-- LNE_RETAIN.CUR_SEQ, RO. -/
abbrev LNE_RETAIN_CUR_SEQ : Fld := ⟨.LNE_RETAIN, 36, 16⟩
/-- LNE_REPLAY.SLOT, RW. -/
abbrev LNE_REPLAY_SLOT : Fld := ⟨.LNE_REPLAY, 0, 2⟩
/-- LNE_REPLAY.SEQ, RW. -/
abbrev LNE_REPLAY_SEQ : Fld := ⟨.LNE_REPLAY, 2, 16⟩
/-- LNE_REPLAY.OFFSET, RW. -/
abbrev LNE_REPLAY_OFFSET : Fld := ⟨.LNE_REPLAY, 18, 7⟩
/-- LNE_REPLAY.USE_B, RW. -/
abbrev LNE_REPLAY_USE_B : Fld := ⟨.LNE_REPLAY, 25, 1⟩
/-- LNE_REPLAY.OVERRIDE, RW. -/
abbrev LNE_REPLAY_OVERRIDE : Fld := ⟨.LNE_REPLAY, 26, 1⟩
/-- LNE_REPLAY.GO, WO. -/
abbrev LNE_REPLAY_GO : Fld := ⟨.LNE_REPLAY, 27, 1⟩
/-- LNE_REPLAY.STATUS, RO. -/
abbrev LNE_REPLAY_STATUS : Fld := ⟨.LNE_REPLAY, 28, 8⟩
/-- LNE_REPLAY.BUSY, RO. -/
abbrev LNE_REPLAY_BUSY : Fld := ⟨.LNE_REPLAY, 36, 1⟩
/-- LNE_REPLAY.QDEPTH, RO. -/
abbrev LNE_REPLAY_QDEPTH : Fld := ⟨.LNE_REPLAY, 37, 4⟩
/-- LNE_CNT.B_ONLY, RC. -/
abbrev LNE_CNT_B_ONLY : Fld := ⟨.LNE_CNT, 0, 16⟩
/-- LNE_CNT.SYNC_LOST, RC. -/
abbrev LNE_CNT_SYNC_LOST : Fld := ⟨.LNE_CNT, 16, 16⟩
/-- LNE_CNT.LOST_LOCK, RC. -/
abbrev LNE_CNT_LOST_LOCK : Fld := ⟨.LNE_CNT, 32, 16⟩
/-- LNE_CNT.PAIR_SLIP, RC. -/
abbrev LNE_CNT_PAIR_SLIP : Fld := ⟨.LNE_CNT, 48, 16⟩
/-- LNE_EQ.TAP, RW. -/
abbrev LNE_EQ_TAP : Fld := ⟨.LNE_EQ, 0, 16⟩
/-- LNE_EQ_CUR.TAP, RO. -/
abbrev LNE_EQ_CUR_TAP : Fld := ⟨.LNE_EQ_CUR, 0, 16⟩
/-- LNE_ADC_MODE.MODE, RO. -/
abbrev LNE_ADC_MODE_MODE : Fld := ⟨.LNE_ADC_MODE, 0, 1⟩
/-- LNE_ADC_MODE.LANES, RO. -/
abbrev LNE_ADC_MODE_LANES : Fld := ⟨.LNE_ADC_MODE, 1, 4⟩
/-- DCP_CTL.DEC_EN, RW. -/
abbrev DCP_CTL_DEC_EN : Fld := ⟨.DCP_CTL, 0, 12⟩
/-- DCP_CTL.STEAL_EN, RW. -/
abbrev DCP_CTL_STEAL_EN : Fld := ⟨.DCP_CTL, 12, 1⟩
/-- DCP_CTL.RCV_MAX, RW. -/
abbrev DCP_CTL_RCV_MAX : Fld := ⟨.DCP_CTL, 13, 4⟩
/-- DCP_CTL.AUTO, RW. -/
abbrev DCP_CTL_AUTO : Fld := ⟨.DCP_CTL, 17, 1⟩
/-- DCP_CTL.KEEP_PIN, RW. -/
abbrev DCP_CTL_KEEP_PIN : Fld := ⟨.DCP_CTL, 18, 1⟩
/-- DCP_OTF_CTL.ITER_CAP, RW. -/
abbrev DCP_OTF_CTL_ITER_CAP : Fld := ⟨.DCP_OTF_CTL, 0, 6⟩
/-- DCP_OTF_CTL.DEADLINE_MULT, RW. -/
abbrev DCP_OTF_CTL_DEADLINE_MULT : Fld := ⟨.DCP_OTF_CTL, 6, 7⟩
/-- DCP_OTF_CTL.URGENT_SLACK, RW. -/
abbrev DCP_OTF_CTL_URGENT_SLACK : Fld := ⟨.DCP_OTF_CTL, 13, 6⟩
/-- DCP_OTF_CTL.EARLY_ITER, RW. -/
abbrev DCP_OTF_CTL_EARLY_ITER : Fld := ⟨.DCP_OTF_CTL, 19, 6⟩
/-- DCP_RCV_CTL.RCV_ITER, RW. -/
abbrev DCP_RCV_CTL_RCV_ITER : Fld := ⟨.DCP_RCV_CTL, 0, 8⟩
/-- DCP_RCV_CTL.EXT_CAP, RW. -/
abbrev DCP_RCV_CTL_EXT_CAP : Fld := ⟨.DCP_RCV_CTL, 8, 8⟩
/-- DCP_RCV_CTL.ALT_CAP, RW. -/
abbrev DCP_RCV_CTL_ALT_CAP : Fld := ⟨.DCP_RCV_CTL, 16, 6⟩
/-- DCP_RCV_CTL.SHIFT_CAP, RW. -/
abbrev DCP_RCV_CTL_SHIFT_CAP : Fld := ⟨.DCP_RCV_CTL, 22, 6⟩
/-- DCP_RCV_CTL.SHIFT_MAX, RW. -/
abbrev DCP_RCV_CTL_SHIFT_MAX : Fld := ⟨.DCP_RCV_CTL, 28, 3⟩
/-- DCP_RCV_CTL.PIN_QUOTA, RW. -/
abbrev DCP_RCV_CTL_PIN_QUOTA : Fld := ⟨.DCP_RCV_CTL, 31, 2⟩
/-- DCP_RCV_CTL.RCV_AGE, RW. -/
abbrev DCP_RCV_CTL_RCV_AGE : Fld := ⟨.DCP_RCV_CTL, 33, 8⟩
/-- DCP_RCV_CTL.HOLD_MAX, RW. -/
abbrev DCP_RCV_CTL_HOLD_MAX : Fld := ⟨.DCP_RCV_CTL, 41, 5⟩
/-- DCP_RCV_CTL.HW_LIMIT, RW. -/
abbrev DCP_RCV_CTL_HW_LIMIT : Fld := ⟨.DCP_RCV_CTL, 48, 16⟩
/-- DCP_SECT_TIME.NS, RW. -/
abbrev DCP_SECT_TIME_NS : Fld := ⟨.DCP_SECT_TIME, 0, 16⟩
/-- DCP_Q_STAT.FREE, RO. -/
abbrev DCP_Q_STAT_FREE : Fld := ⟨.DCP_Q_STAT, 0, 5⟩
/-- DCP_Q_STAT.RESERVED, RO. -/
abbrev DCP_Q_STAT_RESERVED : Fld := ⟨.DCP_Q_STAT, 5, 5⟩
/-- DCP_Q_STAT.READY, RO. -/
abbrev DCP_Q_STAT_READY : Fld := ⟨.DCP_Q_STAT, 10, 5⟩
/-- DCP_Q_STAT.DECODING, RO. -/
abbrev DCP_Q_STAT_DECODING : Fld := ⟨.DCP_Q_STAT, 15, 5⟩
/-- DCP_Q_STAT.HELD, RO. -/
abbrev DCP_Q_STAT_HELD : Fld := ⟨.DCP_Q_STAT, 20, 5⟩
/-- DCP_Q_STAT.RECORDS, RO. -/
abbrev DCP_Q_STAT_RECORDS : Fld := ⟨.DCP_Q_STAT, 25, 7⟩
/-- DCP_CPL.RECORD, RC. -/
abbrev DCP_CPL_RECORD : Fld := ⟨.DCP_CPL, 0, 64⟩
/-- DCP_CNT.OK, RC. -/
abbrev DCP_CNT_OK : Fld := ⟨.DCP_CNT, 0, 16⟩
/-- DCP_CNT.RECOVERED, RC. -/
abbrev DCP_CNT_RECOVERED : Fld := ⟨.DCP_CNT, 16, 16⟩
/-- DCP_CNT.UNCORRECTED, RC. -/
abbrev DCP_CNT_UNCORRECTED : Fld := ⟨.DCP_CNT, 32, 16⟩
/-- DCP_CNT.DEADLINE_MISS, RC. -/
abbrev DCP_CNT_DEADLINE_MISS : Fld := ⟨.DCP_CNT, 48, 16⟩
/-- DCP_SUBMIT.SLOT, RW. -/
abbrev DCP_SUBMIT_SLOT : Fld := ⟨.DCP_SUBMIT, 0, 2⟩
/-- DCP_SUBMIT.SEQ, RW. -/
abbrev DCP_SUBMIT_SEQ : Fld := ⟨.DCP_SUBMIT, 2, 16⟩
/-- DCP_SUBMIT.OFFSET, RW. -/
abbrev DCP_SUBMIT_OFFSET : Fld := ⟨.DCP_SUBMIT, 18, 7⟩
/-- DCP_SUBMIT.USE_B, RW. -/
abbrev DCP_SUBMIT_USE_B : Fld := ⟨.DCP_SUBMIT, 25, 1⟩
/-- DCP_SUBMIT.OVERRIDE, RW. -/
abbrev DCP_SUBMIT_OVERRIDE : Fld := ⟨.DCP_SUBMIT, 26, 1⟩
/-- DCP_SUBMIT.RUN, RW. -/
abbrev DCP_SUBMIT_RUN : Fld := ⟨.DCP_SUBMIT, 27, 3⟩
/-- DCP_SUBMIT.SECTOR, RW. -/
abbrev DCP_SUBMIT_SECTOR : Fld := ⟨.DCP_SUBMIT, 30, 16⟩
/-- DCP_SUBMIT.CAP, RW. -/
abbrev DCP_SUBMIT_CAP : Fld := ⟨.DCP_SUBMIT, 46, 8⟩
/-- DCP_SUBMIT.GO, WO. -/
abbrev DCP_SUBMIT_GO : Fld := ⟨.DCP_SUBMIT, 54, 1⟩
/-- DCP_SUBMIT.STATUS, RO. -/
abbrev DCP_SUBMIT_STATUS : Fld := ⟨.DCP_SUBMIT, 55, 8⟩
/-- DCP_SUBMIT.BUSY, RO. -/
abbrev DCP_SUBMIT_BUSY : Fld := ⟨.DCP_SUBMIT, 63, 1⟩
/-- DCP_PINS.PINS, RO. -/
abbrev DCP_PINS_PINS : Fld := ⟨.DCP_PINS, 0, 2⟩
/-- DCP_PINS.SLOTS, RO. -/
abbrev DCP_PINS_SLOTS : Fld := ⟨.DCP_PINS, 2, 4⟩
/-- DCP_DEC_STAT.KIND, RO. -/
abbrev DCP_DEC_STAT_KIND : Fld := ⟨.DCP_DEC_STAT, 0, 2⟩
/-- DCP_DEC_STAT.ACT, RO. -/
abbrev DCP_DEC_STAT_ACT : Fld := ⟨.DCP_DEC_STAT, 2, 2⟩
/-- DCP_DEC_STAT.ITER, RO. -/
abbrev DCP_DEC_STAT_ITER : Fld := ⟨.DCP_DEC_STAT, 4, 8⟩
/-- DCP_DEC_STAT.CLASS, RO. -/
abbrev DCP_DEC_STAT_CLASS : Fld := ⟨.DCP_DEC_STAT, 12, 3⟩
/-- WRP_CTL.WG_LEAD, RW. -/
abbrev WRP_CTL_WG_LEAD : Fld := ⟨.WRP_CTL, 0, 5⟩
/-- WRP_CTL.WG_TRAIL, RW. -/
abbrev WRP_CTL_WG_TRAIL : Fld := ⟨.WRP_CTL, 5, 5⟩
/-- WRP_CTL.PRECOMP_EN, RW. -/
abbrev WRP_CTL_PRECOMP_EN : Fld := ⟨.WRP_CTL, 10, 1⟩
/-- WRP_CTL.ASSIST_EN, RW. -/
abbrev WRP_CTL_ASSIST_EN : Fld := ⟨.WRP_CTL, 11, 1⟩
/-- WRP_PA_CFG.WR_ADDR, RW. -/
abbrev WRP_PA_CFG_WR_ADDR : Fld := ⟨.WRP_PA_CFG, 0, 7⟩
/-- WRP_PA_CFG.RD_ADDR, RW. -/
abbrev WRP_PA_CFG_RD_ADDR : Fld := ⟨.WRP_PA_CFG, 8, 7⟩
/-- WRP_MAX_TRACK.TRACKS, RW. -/
abbrev WRP_MAX_TRACK_TRACKS : Fld := ⟨.WRP_MAX_TRACK, 0, 21⟩
/-- WRP_RUN_STAT.STATE, RO. -/
abbrev WRP_RUN_STAT_STATE : Fld := ⟨.WRP_RUN_STAT, 0, 2⟩
/-- WRP_RUN_STAT.STATUS, RO. -/
abbrev WRP_RUN_STAT_STATUS : Fld := ⟨.WRP_RUN_STAT, 2, 8⟩
/-- WRP_RUN_STAT.WRITTEN, RO. -/
abbrev WRP_RUN_STAT_WRITTEN : Fld := ⟨.WRP_RUN_STAT, 10, 16⟩
/-- WRP_RUN_STAT.CUT, RO. -/
abbrev WRP_RUN_STAT_CUT : Fld := ⟨.WRP_RUN_STAT, 26, 1⟩
/-- WRP_CNT.SECTORS, RC. -/
abbrev WRP_CNT_SECTORS : Fld := ⟨.WRP_CNT, 0, 32⟩
/-- WRP_CNT.CUT_RUNS, RC. -/
abbrev WRP_CNT_CUT_RUNS : Fld := ⟨.WRP_CNT, 32, 16⟩
/-- WRP_CNT.PREHEAT_SLIP, RC. -/
abbrev WRP_CNT_PREHEAT_SLIP : Fld := ⟨.WRP_CNT, 48, 8⟩
/-- WRP_CNT.DATA_FAIL, RC. -/
abbrev WRP_CNT_DATA_FAIL : Fld := ⟨.WRP_CNT, 56, 8⟩
/-- WRP_HEAT_STAT.MODE, RO. -/
abbrev WRP_HEAT_STAT_MODE : Fld := ⟨.WRP_HEAT_STAT, 0, 2⟩
/-- WRP_HEAT_STAT.HEAD, RO. -/
abbrev WRP_HEAT_STAT_HEAD : Fld := ⟨.WRP_HEAT_STAT, 2, 5⟩
/-- WRP_ZONE.FIRST_TRACK, RW. -/
abbrev WRP_ZONE_FIRST_TRACK : Fld := ⟨.WRP_ZONE, 0, 21⟩
/-- WRP_ZONE.KIND, RW. -/
abbrev WRP_ZONE_KIND : Fld := ⟨.WRP_ZONE, 21, 1⟩
/-- WRP_ZONE.CODE, RW. -/
abbrev WRP_ZONE_CODE : Fld := ⟨.WRP_ZONE, 22, 2⟩
/-- WRP_ZONE.VALID, RW. -/
abbrev WRP_ZONE_VALID : Fld := ⟨.WRP_ZONE, 24, 1⟩
/-- WRP_ZONE.SPT, RW. -/
abbrev WRP_ZONE_SPT : Fld := ⟨.WRP_ZONE, 25, 12⟩
/-- WRP_ZONE.REV_CYCLES, RW. -/
abbrev WRP_ZONE_REV_CYCLES : Fld := ⟨.WRP_ZONE, 37, 21⟩
/-- WRP_ZONE.PGRP, RW. -/
abbrev WRP_ZONE_PGRP : Fld := ⟨.WRP_ZONE, 58, 4⟩
/-- WRP_ZONE2.TRACK_SKEW, RW. -/
abbrev WRP_ZONE2_TRACK_SKEW : Fld := ⟨.WRP_ZONE2, 0, 12⟩
/-- WRP_ZONE2.BAND_TRACKS, RW. -/
abbrev WRP_ZONE2_BAND_TRACKS : Fld := ⟨.WRP_ZONE2, 12, 12⟩
/-- WRP_ZONE2.SPARE_TRACKS, RW. -/
abbrev WRP_ZONE2_SPARE_TRACKS : Fld := ⟨.WRP_ZONE2, 24, 8⟩
/-- WRP_PC.PC, RW. -/
abbrev WRP_PC_PC : Fld := ⟨.WRP_PC, 0, 48⟩
/-- WRP_PC.WR_OFFSET, RW. -/
abbrev WRP_PC_WR_OFFSET : Fld := ⟨.WRP_PC, 48, 6⟩
/-- WRP_HA.HEAT_RD, RW. -/
abbrev WRP_HA_HEAT_RD : Fld := ⟨.WRP_HA, 0, 8⟩
/-- WRP_HA.HEAT_WR, RW. -/
abbrev WRP_HA_HEAT_WR : Fld := ⟨.WRP_HA, 8, 8⟩
/-- WRP_HA.PREHEAT, RW. -/
abbrev WRP_HA_PREHEAT : Fld := ⟨.WRP_HA, 16, 10⟩
/-- WRP_HA.ASSIST, RW. -/
abbrev WRP_HA_ASSIST : Fld := ⟨.WRP_HA, 26, 8⟩
/-- SVG_CTL.EN, RW. -/
abbrev SVG_CTL_EN : Fld := ⟨.SVG_CTL, 0, 1⟩
/-- SVG_CTL.SUM_MIN, RW. -/
abbrev SVG_CTL_SUM_MIN : Fld := ⟨.SVG_CTL, 1, 6⟩
/-- SVG_CTL.CLIP_MAX, RW. -/
abbrev SVG_CTL_CLIP_MAX : Fld := ⟨.SVG_CTL, 7, 6⟩
/-- SVG_CTL.COAST_MAX, RW. -/
abbrev SVG_CTL_COAST_MAX : Fld := ⟨.SVG_CTL, 13, 5⟩
/-- SVG_CTL.SURF_CHK, RW. -/
abbrev SVG_CTL_SURF_CHK : Fld := ⟨.SVG_CTL, 18, 1⟩
/-- SVG_PES.PES, RO. -/
abbrev SVG_PES_PES : Fld := ⟨.SVG_PES, 0, 16⟩
/-- SVG_PES.SUM, RO. -/
abbrev SVG_PES_SUM : Fld := ⟨.SVG_PES, 16, 12⟩
/-- SVG_PES.VALID, RO. -/
abbrev SVG_PES_VALID : Fld := ⟨.SVG_PES, 28, 1⟩
/-- SVG_PES.CLIP, RO. -/
abbrev SVG_PES_CLIP : Fld := ⟨.SVG_PES, 29, 1⟩
/-- SVG_PES.LOW, RO. -/
abbrev SVG_PES_LOW : Fld := ⟨.SVG_PES, 30, 1⟩
/-- SVG_PES.UNLOCK, RO. -/
abbrev SVG_PES_UNLOCK : Fld := ⟨.SVG_PES, 31, 1⟩
/-- SVG_PES.LIN, RO. -/
abbrev SVG_PES_LIN : Fld := ⟨.SVG_PES, 32, 1⟩
/-- SVG_PES.SAMPLE, RO. -/
abbrev SVG_PES_SAMPLE : Fld := ⟨.SVG_PES, 48, 16⟩
/-- SVG_TRK.TRACK, RO. -/
abbrev SVG_TRK_TRACK : Fld := ⟨.SVG_TRK, 0, 21⟩
/-- SVG_TRK.TRK_VALID, RO. -/
abbrev SVG_TRK_TRK_VALID : Fld := ⟨.SVG_TRK, 21, 1⟩
/-- SVG_TRK.ID_CONF, RO. -/
abbrev SVG_TRK_ID_CONF : Fld := ⟨.SVG_TRK, 22, 1⟩
/-- SVG_TRK.ANGLE, RO. -/
abbrev SVG_TRK_ANGLE : Fld := ⟨.SVG_TRK, 23, 21⟩
/-- SVG_TRK.ANG_VALID, RO. -/
abbrev SVG_TRK_ANG_VALID : Fld := ⟨.SVG_TRK, 44, 1⟩
/-- SVG_TRK.FRAME_AGE, RO. -/
abbrev SVG_TRK_FRAME_AGE : Fld := ⟨.SVG_TRK, 45, 8⟩
/-- SVG_TONE.F_A, RO. -/
abbrev SVG_TONE_F_A : Fld := ⟨.SVG_TONE, 0, 28⟩
/-- SVG_TONE.THETA, RO. -/
abbrev SVG_TONE_THETA : Fld := ⟨.SVG_TONE, 28, 16⟩
/-- SVG_TONE.LOCKED, RO. -/
abbrev SVG_TONE_LOCKED : Fld := ⟨.SVG_TONE, 44, 1⟩
/-- SVG_CNT.ID_ERR, RC. -/
abbrev SVG_CNT_ID_ERR : Fld := ⟨.SVG_CNT, 0, 16⟩
/-- SVG_CNT.TRACK_SLIP, RC. -/
abbrev SVG_CNT_TRACK_SLIP : Fld := ⟨.SVG_CNT, 16, 16⟩
/-- SVG_CNT.RATE_HIGH, RC. -/
abbrev SVG_CNT_RATE_HIGH : Fld := ⟨.SVG_CNT, 32, 8⟩
/-- SVG_CNT.ANG_SLIP, RC. -/
abbrev SVG_CNT_ANG_SLIP : Fld := ⟨.SVG_CNT, 40, 8⟩
/-- SVG_CNT.SURF_ERR, RC. -/
abbrev SVG_CNT_SURF_ERR : Fld := ⟨.SVG_CNT, 48, 16⟩
/-- SVG_ZONE.FIRST_TRACK, RW. -/
abbrev SVG_ZONE_FIRST_TRACK : Fld := ⟨.SVG_ZONE, 0, 21⟩
/-- SVG_ZONE.REV_CYCLES, RW. -/
abbrev SVG_ZONE_REV_CYCLES : Fld := ⟨.SVG_ZONE, 21, 21⟩
/-- SVG_ZONE.WIN_BEATS, RW. -/
abbrev SVG_ZONE_WIN_BEATS : Fld := ⟨.SVG_ZONE, 42, 5⟩
/-- SVG_ZONE.PGRP, RW. -/
abbrev SVG_ZONE_PGRP : Fld := ⟨.SVG_ZONE, 47, 4⟩
/-- SVG_ZONE.VALID, RW. -/
abbrev SVG_ZONE_VALID : Fld := ⟨.SVG_ZONE, 51, 1⟩
/-- SVG_PESCAL.PES_GAIN, RW. -/
abbrev SVG_PESCAL_PES_GAIN : Fld := ⟨.SVG_PESCAL, 0, 16⟩
/-- SVG_PESCAL.PES_OFS, RW. -/
abbrev SVG_PESCAL_PES_OFS : Fld := ⟨.SVG_PESCAL, 16, 16⟩
/-- SVG_PESCAL.SUM_NOM, RW. -/
abbrev SVG_PESCAL_SUM_NOM : Fld := ⟨.SVG_PESCAL, 32, 12⟩
/-- CTE_MAX_TRACK.TRACKS, RW. -/
abbrev CTE_MAX_TRACK_TRACKS : Fld := ⟨.CTE_MAX_TRACK, 0, 21⟩
/-- CTE_EXT_CTL.EN, RW. -/
abbrev CTE_EXT_CTL_EN : Fld := ⟨.CTE_EXT_CTL, 0, 1⟩
/-- CTE_EXT_CTL.ACT, RW. -/
abbrev CTE_EXT_CTL_ACT : Fld := ⟨.CTE_EXT_CTL, 1, 2⟩
/-- CTE_EXT_CTL.SCALE, RW. -/
abbrev CTE_EXT_CTL_SCALE : Fld := ⟨.CTE_EXT_CTL, 3, 16⟩
/-- CTE_EXT_CTL.REFUSED, W1C. -/
abbrev CTE_EXT_CTL_REFUSED : Fld := ⟨.CTE_EXT_CTL, 19, 1⟩
/-- CTE_EXT_STAT.CODE, RO. -/
abbrev CTE_EXT_STAT_CODE : Fld := ⟨.CTE_EXT_STAT, 0, 12⟩
/-- CTE_CMD.CMD, WO. -/
abbrev CTE_CMD_CMD : Fld := ⟨.CTE_CMD, 0, 3⟩
/-- CTE_CMD.OVERRUN, W1C. -/
abbrev CTE_CMD_OVERRUN : Fld := ⟨.CTE_CMD, 3, 1⟩
/-- CTE_CMD.STATUS, RO. -/
abbrev CTE_CMD_STATUS : Fld := ⟨.CTE_CMD, 4, 8⟩
/-- CTE_CMD.BUSY, RO. -/
abbrev CTE_CMD_BUSY : Fld := ⟨.CTE_CMD, 12, 1⟩
/-- CTE_STAT.STATE, RO. -/
abbrev CTE_STAT_STATE : Fld := ⟨.CTE_STAT, 0, 4⟩
/-- CTE_STAT.OT, RO. -/
abbrev CTE_STAT_OT : Fld := ⟨.CTE_STAT, 4, 1⟩
/-- CTE_STAT.REACQ_USED, RO. -/
abbrev CTE_STAT_REACQ_USED : Fld := ⟨.CTE_STAT, 5, 1⟩
/-- CTE_STAT.HOLD_CAUSE, RO. -/
abbrev CTE_STAT_HOLD_CAUSE : Fld := ⟨.CTE_STAT, 6, 2⟩
/-- CTE_STAT.RES_RUN, RO. -/
abbrev CTE_STAT_RES_RUN : Fld := ⟨.CTE_STAT, 8, 8⟩
/-- CTE_STAT.ERR, RO. -/
abbrev CTE_STAT_ERR : Fld := ⟨.CTE_STAT, 16, 16⟩
/-- CTE_SEEK.TRACK, RW. -/
abbrev CTE_SEEK_TRACK : Fld := ⟨.CTE_SEEK, 0, 21⟩
/-- CTE_SEEK.OFFSET, RW. -/
abbrev CTE_SEEK_OFFSET : Fld := ⟨.CTE_SEEK, 21, 16⟩
/-- CTE_SEEK.GO, WO. -/
abbrev CTE_SEEK_GO : Fld := ⟨.CTE_SEEK, 37, 1⟩
/-- CTE_SEEK.STATUS, RO. -/
abbrev CTE_SEEK_STATUS : Fld := ⟨.CTE_SEEK, 38, 8⟩
/-- CTE_SEEK.BUSY, RO. -/
abbrev CTE_SEEK_BUSY : Fld := ⟨.CTE_SEEK, 46, 1⟩
/-- CTE_MODESET.SEEK, RW. -/
abbrev CTE_MODESET_SEEK : Fld := ⟨.CTE_MODESET, 0, 3⟩
/-- CTE_MODESET.SETTLE, RW. -/
abbrev CTE_MODESET_SETTLE : Fld := ⟨.CTE_MODESET, 3, 3⟩
/-- CTE_MODESET.FOLLOW, RW. -/
abbrev CTE_MODESET_FOLLOW : Fld := ⟨.CTE_MODESET, 6, 3⟩
/-- CTE_MODESET.HOLD, RW. -/
abbrev CTE_MODESET_HOLD : Fld := ⟨.CTE_MODESET, 9, 3⟩
/-- CTE_MODESET.ACQUIRE, RW. -/
abbrev CTE_MODESET_ACQUIRE : Fld := ⟨.CTE_MODESET, 12, 3⟩
/-- CTE_MODESET.EXT, RW. -/
abbrev CTE_MODESET_EXT : Fld := ⟨.CTE_MODESET, 15, 3⟩
/-- CTE_LAW_CTL.ESC, RW. -/
abbrev CTE_LAW_CTL_ESC : Fld := ⟨.CTE_LAW_CTL, 0, 4⟩
/-- CTE_LAW_CTL.NOTCH_INIT, RW. -/
abbrev CTE_LAW_CTL_NOTCH_INIT : Fld := ⟨.CTE_LAW_CTL, 4, 1⟩
/-- CTE_LAW_CTL.ACT_WR, W1C. -/
abbrev CTE_LAW_CTL_ACT_WR : Fld := ⟨.CTE_LAW_CTL, 5, 1⟩
/-- CTE_SETTLE.SETTLE_LIM, RW. -/
abbrev CTE_SETTLE_SETTLE_LIM : Fld := ⟨.CTE_SETTLE, 0, 12⟩
/-- CTE_SETTLE.SETTLE_CNT, RW. -/
abbrev CTE_SETTLE_SETTLE_CNT : Fld := ⟨.CTE_SETTLE, 12, 8⟩
/-- CTE_SETTLE.SETTLE_TMO, RW. -/
abbrev CTE_SETTLE_SETTLE_TMO : Fld := ⟨.CTE_SETTLE, 20, 12⟩
/-- CTE_OT.OT_LIM, RW. -/
abbrev CTE_OT_OT_LIM : Fld := ⟨.CTE_OT, 0, 12⟩
/-- CTE_OT.OT_CLR, RW. -/
abbrev CTE_OT_OT_CLR : Fld := ⟨.CTE_OT, 12, 8⟩
/-- CTE_LOAD.LOAD_I, RW. -/
abbrev CTE_LOAD_LOAD_I : Fld := ⟨.CTE_LOAD, 0, 16⟩
/-- CTE_LOAD.LOAD_TMO, RW. -/
abbrev CTE_LOAD_LOAD_TMO : Fld := ⟨.CTE_LOAD, 16, 10⟩
/-- CTE_LOAD.LOAD_SUM, RW. -/
abbrev CTE_LOAD_LOAD_SUM : Fld := ⟨.CTE_LOAD, 26, 6⟩
/-- CTE_LOAD.ACQ_TMO, RW. -/
abbrev CTE_LOAD_ACQ_TMO : Fld := ⟨.CTE_LOAD, 32, 10⟩
/-- CTE_PARK.PARK_TRACK, RW. -/
abbrev CTE_PARK_PARK_TRACK : Fld := ⟨.CTE_PARK, 0, 21⟩
/-- CTE_PARK.UNLOAD_I, RW. -/
abbrev CTE_PARK_UNLOAD_I : Fld := ⟨.CTE_PARK, 21, 16⟩
/-- CTE_PARK.UNLOAD_T, RW. -/
abbrev CTE_PARK_UNLOAD_T : Fld := ⟨.CTE_PARK, 37, 8⟩
/-- CTE_PARK.PHOLD_T, RW. -/
abbrev CTE_PARK_PHOLD_T : Fld := ⟨.CTE_PARK, 45, 6⟩
/-- CTE_PARK.HOLD_TMO, RW. -/
abbrev CTE_PARK_HOLD_TMO : Fld := ⟨.CTE_PARK, 51, 10⟩
/-- CTE_RES_LIM.LIM, RW. -/
abbrev CTE_RES_LIM_LIM : Fld := ⟨.CTE_RES_LIM, 0, 12⟩
/-- CTE_RES_CNT.CNT, RW. -/
abbrev CTE_RES_CNT_CNT : Fld := ⟨.CTE_RES_CNT, 0, 8⟩
/-- CTE_CNT.SEEKS_OK, RC. -/
abbrev CTE_CNT_SEEKS_OK : Fld := ⟨.CTE_CNT, 0, 16⟩
/-- CTE_CNT.SEEK_FAIL, RC. -/
abbrev CTE_CNT_SEEK_FAIL : Fld := ⟨.CTE_CNT, 16, 16⟩
/-- CTE_CNT.HOLDS, RC. -/
abbrev CTE_CNT_HOLDS : Fld := ⟨.CTE_CNT, 32, 16⟩
/-- CTE_CNT.EMERG, RC. -/
abbrev CTE_CNT_EMERG : Fld := ⟨.CTE_CNT, 48, 16⟩
/-- CTE_SAT.INPUT, W1C. -/
abbrev CTE_SAT_INPUT : Fld := ⟨.CTE_SAT, 0, 1⟩
/-- CTE_SAT.OBSERVER, W1C. -/
abbrev CTE_SAT_OBSERVER : Fld := ⟨.CTE_SAT, 1, 1⟩
/-- CTE_SAT.OUT0, W1C. -/
abbrev CTE_SAT_OUT0 : Fld := ⟨.CTE_SAT, 2, 1⟩
/-- CTE_SAT.OUT1, W1C. -/
abbrev CTE_SAT_OUT1 : Fld := ⟨.CTE_SAT, 3, 1⟩
/-- CTE_SAT.NOTCH, W1C. -/
abbrev CTE_SAT_NOTCH : Fld := ⟨.CTE_SAT, 4, 1⟩
/-- CTE_SPN_CTL.SET, RW. -/
abbrev CTE_SPN_CTL_SET : Fld := ⟨.CTE_SPN_CTL, 0, 3⟩
/-- CTE_SPN_CTL.NOTCH_INIT, RW. -/
abbrev CTE_SPN_CTL_NOTCH_INIT : Fld := ⟨.CTE_SPN_CTL, 3, 1⟩
/-- CTE_SPN_CTL.ESC, RW. -/
abbrev CTE_SPN_CTL_ESC : Fld := ⟨.CTE_SPN_CTL, 4, 4⟩
/-- CTE_SPN_CTL.ACT_WR, W1C. -/
abbrev CTE_SPN_CTL_ACT_WR : Fld := ⟨.CTE_SPN_CTL, 8, 1⟩
/-- CTE_SPN_OUT.M, RO. -/
abbrev CTE_SPN_OUT_M : Fld := ⟨.CTE_SPN_OUT, 0, 16⟩
/-- CTE_SPN_OUT.ADV, RO. -/
abbrev CTE_SPN_OUT_ADV : Fld := ⟨.CTE_SPN_OUT, 16, 16⟩
/-- CTE_COEF.WORD, RW. -/
abbrev CTE_COEF_WORD : Fld := ⟨.CTE_COEF, 0, 32⟩
/-- CTE_VEL.V, RW. -/
abbrev CTE_VEL_V : Fld := ⟨.CTE_VEL, 0, 32⟩
/-- SPN_CMD.CMD, WO. -/
abbrev SPN_CMD_CMD : Fld := ⟨.SPN_CMD, 0, 3⟩
/-- SPN_CMD.OVERRUN, W1C. -/
abbrev SPN_CMD_OVERRUN : Fld := ⟨.SPN_CMD, 3, 1⟩
/-- SPN_CMD.STATUS, RO. -/
abbrev SPN_CMD_STATUS : Fld := ⟨.SPN_CMD, 4, 8⟩
/-- SPN_CMD.BUSY, RO. -/
abbrev SPN_CMD_BUSY : Fld := ⟨.SPN_CMD, 12, 1⟩
/-- SPN_STAT.STATE, RO. -/
abbrev SPN_STAT_STATE : Fld := ⟨.SPN_STAT, 0, 4⟩
/-- SPN_STAT.AT_SPEED, RO. -/
abbrev SPN_STAT_AT_SPEED : Fld := ⟨.SPN_STAT, 4, 1⟩
/-- SPN_STAT.SYNC, RO. -/
abbrev SPN_STAT_SYNC : Fld := ⟨.SPN_STAT, 5, 2⟩
/-- SPN_STAT.REVERSE, RO. -/
abbrev SPN_STAT_REVERSE : Fld := ⟨.SPN_STAT, 7, 1⟩
/-- SPN_STAT.ATTEMPT, RO. -/
abbrev SPN_STAT_ATTEMPT : Fld := ⟨.SPN_STAT, 8, 3⟩
/-- SPN_STAT.LOS_RUN, RO. -/
abbrev SPN_STAT_LOS_RUN : Fld := ⟨.SPN_STAT, 11, 2⟩
/-- SPN_STAT.FAULT_CAUSE, RO. -/
abbrev SPN_STAT_FAULT_CAUSE : Fld := ⟨.SPN_STAT, 13, 3⟩
/-- SPN_STAT.CLAMPED, RO. -/
abbrev SPN_STAT_CLAMPED : Fld := ⟨.SPN_STAT, 16, 1⟩
/-- SPN_STAT.UNLOAD_REQ, RO. -/
abbrev SPN_STAT_UNLOAD_REQ : Fld := ⟨.SPN_STAT, 17, 1⟩
/-- SPN_SPEED.SET, RW. -/
abbrev SPN_SPEED_SET : Fld := ⟨.SPN_SPEED, 0, 21⟩
/-- SPN_SPEED.RANGE, W1C. -/
abbrev SPN_SPEED_RANGE : Fld := ⟨.SPN_SPEED, 21, 1⟩
/-- SPN_SPEED.REFUSED, W1C. -/
abbrev SPN_SPEED_REFUSED : Fld := ⟨.SPN_SPEED, 22, 1⟩
/-- SPN_LIM.ILIM_PK, RW. -/
abbrev SPN_LIM_ILIM_PK : Fld := ⟨.SPN_LIM, 0, 12⟩
/-- SPN_START_CTL.ALIGN_I, RW. -/
abbrev SPN_START_CTL_ALIGN_I : Fld := ⟨.SPN_START_CTL, 0, 12⟩
/-- SPN_START_CTL.ALIGN_T, RW. -/
abbrev SPN_START_CTL_ALIGN_T : Fld := ⟨.SPN_START_CTL, 12, 10⟩
/-- SPN_START_CTL.RAMP_ACC, RW. -/
abbrev SPN_START_CTL_RAMP_ACC : Fld := ⟨.SPN_START_CTL, 22, 12⟩
/-- SPN_START_CTL.VALID_N, RW. -/
abbrev SPN_START_CTL_VALID_N : Fld := ⟨.SPN_START_CTL, 34, 4⟩
/-- SPN_START_CTL.SPINUP_TMO, RW. -/
abbrev SPN_START_CTL_SPINUP_TMO : Fld := ⟨.SPN_START_CTL, 38, 10⟩
/-- SPN_WIN_CTL.FLOAT_LVL, RW. -/
abbrev SPN_WIN_CTL_FLOAT_LVL : Fld := ⟨.SPN_WIN_CTL, 0, 8⟩
/-- SPN_WIN_CTL.BLANK, RW. -/
abbrev SPN_WIN_CTL_BLANK : Fld := ⟨.SPN_WIN_CTL, 8, 6⟩
/-- SPN_WIN_CTL.OBS_KP, RW. -/
abbrev SPN_WIN_CTL_OBS_KP : Fld := ⟨.SPN_WIN_CTL, 14, 4⟩
/-- SPN_WIN_CTL.OBS_KI, RW. -/
abbrev SPN_WIN_CTL_OBS_KI : Fld := ⟨.SPN_WIN_CTL, 18, 4⟩
/-- SPN_BRAKE_CTL.MODE, RW. -/
abbrev SPN_BRAKE_CTL_MODE : Fld := ⟨.SPN_BRAKE_CTL, 0, 2⟩
/-- SPN_BRAKE_CTL.REGEN_END, RW. -/
abbrev SPN_BRAKE_CTL_REGEN_END : Fld := ⟨.SPN_BRAKE_CTL, 2, 7⟩
/-- SPN_SYNC_CTL.EN, RW. -/
abbrev SPN_SYNC_CTL_EN : Fld := ⟨.SPN_SYNC_CTL, 0, 1⟩
/-- SPN_SYNC_CTL.POL, RW. -/
abbrev SPN_SYNC_CTL_POL : Fld := ⟨.SPN_SYNC_CTL, 1, 1⟩
/-- SPN_SYNC_CTL.OFS, RW. -/
abbrev SPN_SYNC_CTL_OFS : Fld := ⟨.SPN_SYNC_CTL, 2, 16⟩
/-- SPN_SYNC_CTL.PULL_PPM, RW. -/
abbrev SPN_SYNC_CTL_PULL_PPM : Fld := ⟨.SPN_SYNC_CTL, 18, 10⟩
/-- SPN_SYNC_STAT.PERR, RO. -/
abbrev SPN_SYNC_STAT_PERR : Fld := ⟨.SPN_SYNC_STAT, 0, 16⟩
/-- SPN_SYNC_STAT.GOOD, RO. -/
abbrev SPN_SYNC_STAT_GOOD : Fld := ⟨.SPN_SYNC_STAT, 16, 8⟩
/-- SPN_SYNC_STAT.REJECTS, RO. -/
abbrev SPN_SYNC_STAT_REJECTS : Fld := ⟨.SPN_SYNC_STAT, 24, 8⟩
/-- SPN_OBS.THETA, RO. -/
abbrev SPN_OBS_THETA : Fld := ⟨.SPN_OBS, 0, 16⟩
/-- SPN_OBS.SPEED, RO. -/
abbrev SPN_OBS_SPEED : Fld := ⟨.SPN_OBS, 16, 24⟩
/-- SPN_OBS.BACKWARD, RO. -/
abbrev SPN_OBS_BACKWARD : Fld := ⟨.SPN_OBS, 40, 1⟩
/-- SPN_HU_MEAS.KE, RO. -/
abbrev SPN_HU_MEAS_KE : Fld := ⟨.SPN_HU_MEAS, 0, 16⟩
/-- SPN_HU_MEAS.J, RO. -/
abbrev SPN_HU_MEAS_J : Fld := ⟨.SPN_HU_MEAS, 16, 20⟩
/-- SPN_HU_MEAS.DRAG, RO. -/
abbrev SPN_HU_MEAS_DRAG : Fld := ⟨.SPN_HU_MEAS, 36, 16⟩
/-- SPN_HU_MEAS.VALID, RO. -/
abbrev SPN_HU_MEAS_VALID : Fld := ⟨.SPN_HU_MEAS, 52, 1⟩
/-- SPN_HU_STAT.T_HU, RO. -/
abbrev SPN_HU_STAT_T_HU : Fld := ⟨.SPN_HU_STAT, 0, 16⟩
/-- SPN_HU_STAT.B_MAX, RO. -/
abbrev SPN_HU_STAT_B_MAX : Fld := ⟨.SPN_HU_STAT, 16, 6⟩
/-- SPN_HU_STAT.VALID, RO. -/
abbrev SPN_HU_STAT_VALID : Fld := ⟨.SPN_HU_STAT, 22, 1⟩
/-- SPN_CNT.LOS, RC. -/
abbrev SPN_CNT_LOS : Fld := ⟨.SPN_CNT, 0, 16⟩
/-- SPN_CNT.START_RETRIES, RC. -/
abbrev SPN_CNT_START_RETRIES : Fld := ⟨.SPN_CNT, 16, 16⟩
/-- SPN_CNT.CATCHES, RC. -/
abbrev SPN_CNT_CATCHES : Fld := ⟨.SPN_CNT, 32, 16⟩
/-- SPN_CNT.SKIPPED, RC. -/
abbrev SPN_CNT_SKIPPED : Fld := ⟨.SPN_CNT, 48, 16⟩
/-- PWS_STAT.VIN_OK, RO. -/
abbrev PWS_STAT_VIN_OK : Fld := ⟨.PWS_STAT, 0, 1⟩
/-- PWS_STAT.VM_OK, RO. -/
abbrev PWS_STAT_VM_OK : Fld := ⟨.PWS_STAT, 1, 1⟩
/-- PWS_STAT.HOLDUP, RO. -/
abbrev PWS_STAT_HOLDUP : Fld := ⟨.PWS_STAT, 2, 1⟩
/-- PWS_STAT.CLAMP_ON, RO. -/
abbrev PWS_STAT_CLAMP_ON : Fld := ⟨.PWS_STAT, 3, 1⟩
/-- PWS_STAT.RESTART_BLOCK, RO. -/
abbrev PWS_STAT_RESTART_BLOCK : Fld := ⟨.PWS_STAT, 4, 1⟩
/-- PWS_STAT.LINK_OK, RO. -/
abbrev PWS_STAT_LINK_OK : Fld := ⟨.PWS_STAT, 5, 1⟩
/-- PWS_STAT.BOOST_OK, RO. -/
abbrev PWS_STAT_BOOST_OK : Fld := ⟨.PWS_STAT, 6, 1⟩
/-- PWS_VOLT.VM, RO. -/
abbrev PWS_VOLT_VM : Fld := ⟨.PWS_VOLT, 0, 16⟩
/-- PWS_VOLT.VIN, RO. -/
abbrev PWS_VOLT_VIN : Fld := ⟨.PWS_VOLT, 16, 16⟩
/-- PWS_CLAMP.CLAMP_V, RW. -/
abbrev PWS_CLAMP_CLAMP_V : Fld := ⟨.PWS_CLAMP, 0, 11⟩
/-- PWS_CLAMP.REGEN_EN, RW. -/
abbrev PWS_CLAMP_REGEN_EN : Fld := ⟨.PWS_CLAMP, 11, 1⟩
/-- PWS_FAULT.CHOP_OPEN, W1C. -/
abbrev PWS_FAULT_CHOP_OPEN : Fld := ⟨.PWS_FAULT, 0, 1⟩
/-- PWS_FAULT.CHOP_STUCK, W1C. -/
abbrev PWS_FAULT_CHOP_STUCK : Fld := ⟨.PWS_FAULT, 1, 1⟩
/-- PWS_FAULT.VM_TRIP, W1C. -/
abbrev PWS_FAULT_VM_TRIP : Fld := ⟨.PWS_FAULT, 2, 1⟩
/-- PWS_FAULT.VM_LOW, W1C. -/
abbrev PWS_FAULT_VM_LOW : Fld := ⟨.PWS_FAULT, 3, 1⟩
/-- PWS_FAULT.VCM_SHORT, W1C. -/
abbrev PWS_FAULT_VCM_SHORT : Fld := ⟨.PWS_FAULT, 4, 4⟩
/-- PWS_FAULT.BOOST, W1C. -/
abbrev PWS_FAULT_BOOST : Fld := ⟨.PWS_FAULT, 8, 1⟩
/-- PWS_FAULT.THERM_WARN, W1C. -/
abbrev PWS_FAULT_THERM_WARN : Fld := ⟨.PWS_FAULT, 9, 1⟩
/-- PWS_FAULT.THERM_SHUT, W1C. -/
abbrev PWS_FAULT_THERM_SHUT : Fld := ⟨.PWS_FAULT, 10, 1⟩
/-- PWS_FAULT.LINK_LOSS, W1C. -/
abbrev PWS_FAULT_LINK_LOSS : Fld := ⟨.PWS_FAULT, 11, 1⟩
/-- PWS_RETRACT.RETRACT_I, RW. -/
abbrev PWS_RETRACT_RETRACT_I : Fld := ⟨.PWS_RETRACT, 0, 16⟩
/-- PWS_RETRACT.RETRACT_T, RW. -/
abbrev PWS_RETRACT_RETRACT_T : Fld := ⟨.PWS_RETRACT, 16, 8⟩
/-- PWS_UACT_CTL.BOOST_EN, RW. -/
abbrev PWS_UACT_CTL_BOOST_EN : Fld := ⟨.PWS_UACT_CTL, 0, 1⟩
/-- PWS_HU_LOAD.LOAD, RW. -/
abbrev PWS_HU_LOAD_LOAD : Fld := ⟨.PWS_HU_LOAD, 0, 16⟩
/-- PWS_TEMP.TEMP, RO. -/
abbrev PWS_TEMP_TEMP : Fld := ⟨.PWS_TEMP, 0, 10⟩
/-- PWS_BRK_I.I, RO. -/
abbrev PWS_BRK_I_I : Fld := ⟨.PWS_BRK_I, 0, 12⟩
/-- SHT_ROM_ID.ID, RO. -/
abbrev SHT_ROM_ID_ID : Fld := ⟨.SHT_ROM_ID, 0, 16⟩
/-- SHT_CODE_TOP.TOP, RW. -/
abbrev SHT_CODE_TOP_TOP : Fld := ⟨.SHT_CODE_TOP, 0, 15⟩
/-- SHT_TASK_TMO.US, RW. -/
abbrev SHT_TASK_TMO_US : Fld := ⟨.SHT_TASK_TMO, 0, 32⟩
/-- SHT_LOAD.SRC, RW. -/
abbrev SHT_LOAD_SRC : Fld := ⟨.SHT_LOAD, 0, 40⟩
/-- SHT_LOAD.LINES, RW. -/
abbrev SHT_LOAD_LINES : Fld := ⟨.SHT_LOAD, 40, 9⟩
/-- SHT_LOAD.GO, WO. -/
abbrev SHT_LOAD_GO : Fld := ⟨.SHT_LOAD, 49, 1⟩
/-- SHT_LOAD_STAT.BUSY, RO. -/
abbrev SHT_LOAD_STAT_BUSY : Fld := ⟨.SHT_LOAD_STAT, 0, 1⟩
/-- SHT_LOAD_STAT.STATUS, RO. -/
abbrev SHT_LOAD_STAT_STATUS : Fld := ⟨.SHT_LOAD_STAT, 1, 8⟩
/-- SHT_LOAD_MASK.MASK, RW. -/
abbrev SHT_LOAD_MASK_MASK : Fld := ⟨.SHT_LOAD_MASK, 0, 24⟩
/-- SHT_LS_PORT_ADDR.ADDR, RW. -/
abbrev SHT_LS_PORT_ADDR_ADDR : Fld := ⟨.SHT_LS_PORT_ADDR, 0, 15⟩
/-- SHT_LS_PORT_ADDR.SHUTTLE, RW. -/
abbrev SHT_LS_PORT_ADDR_SHUTTLE : Fld := ⟨.SHT_LS_PORT_ADDR, 15, 5⟩
/-- SHT_LS_PORT_ADDR.BCAST, RW. -/
abbrev SHT_LS_PORT_ADDR_BCAST : Fld := ⟨.SHT_LS_PORT_ADDR, 20, 1⟩
/-- SHT_LS_PORT_ADDR.AUTOINC, RW. -/
abbrev SHT_LS_PORT_ADDR_AUTOINC : Fld := ⟨.SHT_LS_PORT_ADDR, 21, 1⟩
/-- SHT_LS_PORT_DATA.DATA, RW. -/
abbrev SHT_LS_PORT_DATA_DATA : Fld := ⟨.SHT_LS_PORT_DATA, 0, 64⟩
/-- SHT_PATCH_STAT.LOADED, RO. -/
abbrev SHT_PATCH_STAT_LOADED : Fld := ⟨.SHT_PATCH_STAT, 0, 1⟩
/-- SHT_PATCH_STAT.MATCHES, RO. -/
abbrev SHT_PATCH_STAT_MATCHES : Fld := ⟨.SHT_PATCH_STAT, 1, 6⟩
/-- SHT_PATCH_STAT.UWORDS, RO. -/
abbrev SHT_PATCH_STAT_UWORDS : Fld := ⟨.SHT_PATCH_STAT, 7, 11⟩
/-- SHT_PATCH_STAT.NWORDS, RO. -/
abbrev SHT_PATCH_STAT_NWORDS : Fld := ⟨.SHT_PATCH_STAT, 18, 10⟩
/-- SHT_PATCH_STAT.PATCH_VER, RO. -/
abbrev SHT_PATCH_STAT_PATCH_VER : Fld := ⟨.SHT_PATCH_STAT, 28, 16⟩
/-- SHT_PATCH_STAT.LOAD_STATUS, RO. -/
abbrev SHT_PATCH_STAT_LOAD_STATUS : Fld := ⟨.SHT_PATCH_STAT, 44, 8⟩
/-- SHT_MATCH.MATCH_ADDR, RO. -/
abbrev SHT_MATCH_MATCH_ADDR : Fld := ⟨.SHT_MATCH, 0, 14⟩
/-- SHT_MATCH.PATCH_ADDR, RO. -/
abbrev SHT_MATCH_PATCH_ADDR : Fld := ⟨.SHT_MATCH, 14, 10⟩
/-- SHT_MATCH.EN, RO. -/
abbrev SHT_MATCH_EN : Fld := ⟨.SHT_MATCH, 24, 1⟩
/-- SHT_S_CTL.EN, RW. -/
abbrev SHT_S_CTL_EN : Fld := ⟨.SHT_S_CTL, 0, 1⟩
/-- SHT_S_CTL.RESET, WO. -/
abbrev SHT_S_CTL_RESET : Fld := ⟨.SHT_S_CTL, 1, 1⟩
/-- SHT_S_CTL.RESUME, WO. -/
abbrev SHT_S_CTL_RESUME : Fld := ⟨.SHT_S_CTL, 2, 1⟩
/-- SHT_STAT.STATE, RO. -/
abbrev SHT_STAT_STATE : Fld := ⟨.SHT_STAT, 0, 3⟩
/-- SHT_STAT.LS, RO. -/
abbrev SHT_STAT_LS : Fld := ⟨.SHT_STAT, 3, 8⟩
/-- SHT_STAT.PC, RO. -/
abbrev SHT_STAT_PC : Fld := ⟨.SHT_STAT, 11, 15⟩
/-- SHT_STAT.TAGS, RO. -/
abbrev SHT_STAT_TAGS : Fld := ⟨.SHT_STAT, 26, 8⟩
/-- SHT_STAT.FRAMES, RO. -/
abbrev SHT_STAT_FRAMES : Fld := ⟨.SHT_STAT, 34, 4⟩
/-- SHT_STAT.READY, RO. -/
abbrev SHT_STAT_READY : Fld := ⟨.SHT_STAT, 38, 4⟩
/-- SHT_TRAP.CAUSE, RO. -/
abbrev SHT_TRAP_CAUSE : Fld := ⟨.SHT_TRAP, 0, 5⟩
/-- SHT_TRAP.PC, RO. -/
abbrev SHT_TRAP_PC : Fld := ⟨.SHT_TRAP, 5, 15⟩
/-- SHT_TRAP.ADDR, RO. -/
abbrev SHT_TRAP_ADDR : Fld := ⟨.SHT_TRAP, 20, 15⟩
/-- SHT_TRAP.OPCODE, RO. -/
abbrev SHT_TRAP_OPCODE : Fld := ⟨.SHT_TRAP, 35, 8⟩
/-- SHT_LOST.TASK, RO. -/
abbrev SHT_LOST_TASK : Fld := ⟨.SHT_LOST, 0, 64⟩
/-- SHT_CNT.TASKS, RC. -/
abbrev SHT_CNT_TASKS : Fld := ⟨.SHT_CNT, 0, 16⟩
/-- SHT_CNT.STEALS, RC. -/
abbrev SHT_CNT_STEALS : Fld := ⟨.SHT_CNT, 16, 16⟩
/-- SHT_CNT.YIELDS, RC. -/
abbrev SHT_CNT_YIELDS : Fld := ⟨.SHT_CNT, 32, 16⟩
/-- SHT_CNT.TRAPS, RC. -/
abbrev SHT_CNT_TRAPS : Fld := ⟨.SHT_CNT, 48, 8⟩
/-- SHT_CNT.MEDIA_TMO, RC. -/
abbrev SHT_CNT_MEDIA_TMO : Fld := ⟨.SHT_CNT, 56, 8⟩
/-- LOOM_CTL.STEAL_SHT, RW. -/
abbrev LOOM_CTL_STEAL_SHT : Fld := ⟨.LOOM_CTL, 0, 1⟩
/-- LOOM_CTL.STEAL_CORE, RW. -/
abbrev LOOM_CTL_STEAL_CORE : Fld := ⟨.LOOM_CTL, 1, 1⟩
/-- LOOM_INJECT.TASK, WO. -/
abbrev LOOM_INJECT_TASK : Fld := ⟨.LOOM_INJECT, 0, 64⟩
/-- LOOM_INJ_STAT.FREE, RO. -/
abbrev LOOM_INJ_STAT_FREE : Fld := ⟨.LOOM_INJ_STAT, 0, 9⟩
/-- LOOM_INJ_STAT.OVF, W1C. -/
abbrev LOOM_INJ_STAT_OVF : Fld := ⟨.LOOM_INJ_STAT, 9, 1⟩
/-- LOOM_PUSH.TASK, WO. -/
abbrev LOOM_PUSH_TASK : Fld := ⟨.LOOM_PUSH, 0, 64⟩
/-- LOOM_TAKE.TASK, RC. -/
abbrev LOOM_TAKE_TASK : Fld := ⟨.LOOM_TAKE, 0, 64⟩
/-- LOOM_DQ_STAT.COUNT, RO. -/
abbrev LOOM_DQ_STAT_COUNT : Fld := ⟨.LOOM_DQ_STAT, 0, 7⟩
/-- LOOM_DQ_STAT.OVF, W1C. -/
abbrev LOOM_DQ_STAT_OVF : Fld := ⟨.LOOM_DQ_STAT, 7, 1⟩
/-- LOOM_BAR_CFG.MEMBERS, RW. -/
abbrev LOOM_BAR_CFG_MEMBERS : Fld := ⟨.LOOM_BAR_CFG, 0, 40⟩
/-- LOOM_BAR_CFG.OP, RW. -/
abbrev LOOM_BAR_CFG_OP : Fld := ⟨.LOOM_BAR_CFG, 40, 2⟩
/-- LOOM_BAR_CFG.TIMEOUT, RW. -/
abbrev LOOM_BAR_CFG_TIMEOUT : Fld := ⟨.LOOM_BAR_CFG, 42, 16⟩
/-- LOOM_BAR_ARRIVE.VAL, WO. -/
abbrev LOOM_BAR_ARRIVE_VAL : Fld := ⟨.LOOM_BAR_ARRIVE, 0, 64⟩
/-- LOOM_BAR_RESULT.VAL, RO. -/
abbrev LOOM_BAR_RESULT_VAL : Fld := ⟨.LOOM_BAR_RESULT, 0, 64⟩
/-- LOOM_BAR_STAT.ARRIVED, RO. -/
abbrev LOOM_BAR_STAT_ARRIVED : Fld := ⟨.LOOM_BAR_STAT, 0, 6⟩
/-- LOOM_BAR_STAT.GEN, RO. -/
abbrev LOOM_BAR_STAT_GEN : Fld := ⟨.LOOM_BAR_STAT, 6, 16⟩
/-- LOOM_BAR_STAT.TIMED_OUT, RO. -/
abbrev LOOM_BAR_STAT_TIMED_OUT : Fld := ⟨.LOOM_BAR_STAT, 22, 1⟩
/-- LOOM_BAR_STAT.CFG_REFUSED, W1C. -/
abbrev LOOM_BAR_STAT_CFG_REFUSED : Fld := ⟨.LOOM_BAR_STAT, 23, 1⟩
/-- GLY_CTL.EN, RW. -/
abbrev GLY_CTL_EN : Fld := ⟨.GLY_CTL, 0, 1⟩
/-- GLY_CTL.HOST, RO. -/
abbrev GLY_CTL_HOST : Fld := ⟨.GLY_CTL, 1, 1⟩
/-- GLY_CTL.DUAL, RO. -/
abbrev GLY_CTL_DUAL : Fld := ⟨.GLY_CTL, 2, 1⟩
/-- GLY_CTL.FETCH_STOP, RW. -/
abbrev GLY_CTL_FETCH_STOP : Fld := ⟨.GLY_CTL, 3, 1⟩
/-- GLY_CTL.VWC_EN, RW. -/
abbrev GLY_CTL_VWC_EN : Fld := ⟨.GLY_CTL, 4, 2⟩
/-- GLY_CTL.ADMIN_RSV, RW. -/
abbrev GLY_CTL_ADMIN_RSV : Fld := ⟨.GLY_CTL, 8, 6⟩
/-- GLY_STAT.OCCUPIED, RO. -/
abbrev GLY_STAT_OCCUPIED : Fld := ⟨.GLY_STAT, 0, 14⟩
/-- GLY_STAT.FROZEN, RO. -/
abbrev GLY_STAT_FROZEN : Fld := ⟨.GLY_STAT, 14, 1⟩
/-- GLY_STAT.STAGING_FULL, RO. -/
abbrev GLY_STAT_STAGING_FULL : Fld := ⟨.GLY_STAT, 15, 1⟩
/-- GLY_STAT.DISPATCH_BLOCKED, RO. -/
abbrev GLY_STAT_DISPATCH_BLOCKED : Fld := ⟨.GLY_STAT, 16, 1⟩
/-- GLY_ARB_CTL.MODE, RW. -/
abbrev GLY_ARB_CTL_MODE : Fld := ⟨.GLY_ARB_CTL, 0, 1⟩
/-- GLY_ARB_CTL.AB, RW. -/
abbrev GLY_ARB_CTL_AB : Fld := ⟨.GLY_ARB_CTL, 1, 3⟩
/-- GLY_ARB_CTL.LPW, RW. -/
abbrev GLY_ARB_CTL_LPW : Fld := ⟨.GLY_ARB_CTL, 4, 8⟩
/-- GLY_ARB_CTL.MPW, RW. -/
abbrev GLY_ARB_CTL_MPW : Fld := ⟨.GLY_ARB_CTL, 12, 8⟩
/-- GLY_ARB_CTL.HPW, RW. -/
abbrev GLY_ARB_CTL_HPW : Fld := ⟨.GLY_ARB_CTL, 20, 8⟩
/-- GLY_BUDGET.SIZE, RW. -/
abbrev GLY_BUDGET_SIZE : Fld := ⟨.GLY_BUDGET, 0, 6⟩
/-- GLY_BUDGET.REFUSED, W1C. -/
abbrev GLY_BUDGET_REFUSED : Fld := ⟨.GLY_BUDGET, 6, 1⟩
/-- GLY_BUDGET.EFFECTIVE, RO. -/
abbrev GLY_BUDGET_EFFECTIVE : Fld := ⟨.GLY_BUDGET, 7, 6⟩
/-- GLY_BUDGET_STAT.PC_STATE, RO. -/
abbrev GLY_BUDGET_STAT_PC_STATE : Fld := ⟨.GLY_BUDGET_STAT, 0, 2⟩
/-- GLY_BUDGET_STAT.AWU_256K, RO. -/
abbrev GLY_BUDGET_STAT_AWU_256K : Fld := ⟨.GLY_BUDGET_STAT, 2, 1⟩
/-- GLY_BUDGET_STAT.RESERVED, RO. -/
abbrev GLY_BUDGET_STAT_RESERVED : Fld := ⟨.GLY_BUDGET_STAT, 8, 17⟩
/-- GLY_BUDGET_STAT.DIRTY, RO. -/
abbrev GLY_BUDGET_STAT_DIRTY : Fld := ⟨.GLY_BUDGET_STAT, 25, 17⟩
/-- GLY_BUDGET_STAT.WAITING, RO. -/
abbrev GLY_BUDGET_STAT_WAITING : Fld := ⟨.GLY_BUDGET_STAT, 42, 16⟩
/-- GLY_DISPATCH_CTL.READ, RW. -/
abbrev GLY_DISPATCH_CTL_READ : Fld := ⟨.GLY_DISPATCH_CTL, 0, 6⟩
/-- GLY_DISPATCH_CTL.WRITE, RW. -/
abbrev GLY_DISPATCH_CTL_WRITE : Fld := ⟨.GLY_DISPATCH_CTL, 8, 6⟩
/-- GLY_DISPATCH_CTL.OTHER, RW. -/
abbrev GLY_DISPATCH_CTL_OTHER : Fld := ⟨.GLY_DISPATCH_CTL, 16, 6⟩
/-- GLY_DISPATCH_CTL.FLUSH, RW. -/
abbrev GLY_DISPATCH_CTL_FLUSH : Fld := ⟨.GLY_DISPATCH_CTL, 24, 6⟩
/-- GLY_DRAIN.GO, W1S. -/
abbrev GLY_DRAIN_GO : Fld := ⟨.GLY_DRAIN, 0, 1⟩
/-- GLY_DRAIN.DONE, RO. -/
abbrev GLY_DRAIN_DONE : Fld := ⟨.GLY_DRAIN, 1, 1⟩
/-- GLY_DRAIN.OCCUPIED, RO. -/
abbrev GLY_DRAIN_OCCUPIED : Fld := ⟨.GLY_DRAIN, 2, 14⟩
/-- GLY_DRAIN.ELAPSED, RO. -/
abbrev GLY_DRAIN_ELAPSED : Fld := ⟨.GLY_DRAIN, 16, 12⟩
/-- GLY_ASN_NEXT.ASN, RO. -/
abbrev GLY_ASN_NEXT_ASN : Fld := ⟨.GLY_ASN_NEXT, 0, 64⟩
/-- GLY_ASN_FLOOR.ASN, WO. -/
abbrev GLY_ASN_FLOOR_ASN : Fld := ⟨.GLY_ASN_FLOOR, 0, 64⟩
/-- GLY_QEXT_BASE.BASE, RW. -/
abbrev GLY_QEXT_BASE_BASE : Fld := ⟨.GLY_QEXT_BASE, 0, 40⟩
/-- GLY_WBUF_BASE.BASE, RW. -/
abbrev GLY_WBUF_BASE_BASE : Fld := ⟨.GLY_WBUF_BASE, 0, 40⟩
/-- GLY_WBUF_SIZE.MIB, RW. -/
abbrev GLY_WBUF_SIZE_MIB : Fld := ⟨.GLY_WBUF_SIZE, 0, 14⟩
/-- GLY_ZONE_BASE.BASE, RW. -/
abbrev GLY_ZONE_BASE_BASE : Fld := ⟨.GLY_ZONE_BASE, 0, 40⟩
/-- GLY_QCTX_SEL.IDX, RW. -/
abbrev GLY_QCTX_SEL_IDX : Fld := ⟨.GLY_QCTX_SEL, 0, 16⟩
/-- GLY_QCTX_LO.VAL, RW. -/
abbrev GLY_QCTX_LO_VAL : Fld := ⟨.GLY_QCTX_LO, 0, 64⟩
/-- GLY_QCTX_HI.VAL, RW. -/
abbrev GLY_QCTX_HI_VAL : Fld := ⟨.GLY_QCTX_HI, 0, 64⟩
/-- GLY_CNT.OVERLAP_WAIT, RC. -/
abbrev GLY_CNT_OVERLAP_WAIT : Fld := ⟨.GLY_CNT, 0, 16⟩
/-- GLY_CNT.BUDGET_WAIT, RC. -/
abbrev GLY_CNT_BUDGET_WAIT : Fld := ⟨.GLY_CNT, 16, 16⟩
/-- GLY_CNT.BUF_READS, RC. -/
abbrev GLY_CNT_BUF_READS : Fld := ⟨.GLY_CNT, 32, 16⟩
/-- GLY_CNT.ABORTS, RC. -/
abbrev GLY_CNT_ABORTS : Fld := ⟨.GLY_CNT, 48, 16⟩
/-- GLY_SLOT_CMD.HANDLE, RW. -/
abbrev GLY_SLOT_CMD_HANDLE : Fld := ⟨.GLY_SLOT_CMD, 0, 53⟩
/-- GLY_SLOT_CMD.OP, RW. -/
abbrev GLY_SLOT_CMD_OP : Fld := ⟨.GLY_SLOT_CMD, 53, 2⟩
/-- GLY_SLOT_CMD.GO, WO. -/
abbrev GLY_SLOT_CMD_GO : Fld := ⟨.GLY_SLOT_CMD, 55, 1⟩
/-- GLY_SLOT_CMD.RESULT, RO. -/
abbrev GLY_SLOT_CMD_RESULT : Fld := ⟨.GLY_SLOT_CMD, 56, 8⟩
/-- GLY_SLOT_ARG.WORD, RW. -/
abbrev GLY_SLOT_ARG_WORD : Fld := ⟨.GLY_SLOT_ARG, 0, 64⟩
/-- GLY_SLOT_RD.HANDLE, RW. -/
abbrev GLY_SLOT_RD_HANDLE : Fld := ⟨.GLY_SLOT_RD, 0, 53⟩
/-- GLY_SLOT_RD.STALE, RO. -/
abbrev GLY_SLOT_RD_STALE : Fld := ⟨.GLY_SLOT_RD, 63, 1⟩
/-- GLY_WB_CMD.NSID, RW. -/
abbrev GLY_WB_CMD_NSID : Fld := ⟨.GLY_WB_CMD, 0, 32⟩
/-- GLY_WB_CMD.COUNT, RW. -/
abbrev GLY_WB_CMD_COUNT : Fld := ⟨.GLY_WB_CMD, 32, 9⟩
/-- GLY_WB_CMD.OP, RW. -/
abbrev GLY_WB_CMD_OP : Fld := ⟨.GLY_WB_CMD, 41, 3⟩
/-- GLY_WB_CMD.GO, WO. -/
abbrev GLY_WB_CMD_GO : Fld := ⟨.GLY_WB_CMD, 44, 1⟩
/-- GLY_WB_LBA.LBA, RW. -/
abbrev GLY_WB_LBA_LBA : Fld := ⟨.GLY_WB_LBA, 0, 64⟩
/-- GLY_WB_RES.RES, RO. -/
abbrev GLY_WB_RES_RES : Fld := ⟨.GLY_WB_RES, 0, 64⟩
/-- GLY_WB_ASN.ASN, RW. -/
abbrev GLY_WB_ASN_ASN : Fld := ⟨.GLY_WB_ASN, 0, 64⟩
/-- GLY_SLOT_IMG.WORD, RO. -/
abbrev GLY_SLOT_IMG_WORD : Fld := ⟨.GLY_SLOT_IMG, 0, 64⟩
/-- HFE_CFG.PERSONA, RO. -/
abbrev HFE_CFG_PERSONA : Fld := ⟨.HFE_CFG, 0, 1⟩
/-- HFE_CFG.DUAL, RO. -/
abbrev HFE_CFG_DUAL : Fld := ⟨.HFE_CFG, 1, 1⟩
/-- HFE_CFG.SPEED_0, RO. -/
abbrev HFE_CFG_SPEED_0 : Fld := ⟨.HFE_CFG, 2, 3⟩
/-- HFE_CFG.WIDTH_0, RO. -/
abbrev HFE_CFG_WIDTH_0 : Fld := ⟨.HFE_CFG, 5, 3⟩
/-- HFE_CFG.SPEED_1, RO. -/
abbrev HFE_CFG_SPEED_1 : Fld := ⟨.HFE_CFG, 8, 3⟩
/-- HFE_CFG.WIDTH_1, RO. -/
abbrev HFE_CFG_WIDTH_1 : Fld := ⟨.HFE_CFG, 11, 3⟩
/-- HFE_ID.ID, RW. -/
abbrev HFE_ID_ID : Fld := ⟨.HFE_ID, 0, 64⟩
/-- HFE_RESET_STAT.PEND, W1C. -/
abbrev HFE_RESET_STAT_PEND : Fld := ⟨.HFE_RESET_STAT, 0, 2⟩
/-- HFE_PI_CNT.GUARD, RC. -/
abbrev HFE_PI_CNT_GUARD : Fld := ⟨.HFE_PI_CNT, 0, 16⟩
/-- HFE_PI_CNT.APP, RC. -/
abbrev HFE_PI_CNT_APP : Fld := ⟨.HFE_PI_CNT, 16, 16⟩
/-- HFE_PI_CNT.REF, RC. -/
abbrev HFE_PI_CNT_REF : Fld := ⟨.HFE_PI_CNT, 32, 16⟩
/-- HFE_LINK_CNT.PORT0, RC. -/
abbrev HFE_LINK_CNT_PORT0 : Fld := ⟨.HFE_LINK_CNT, 0, 16⟩
/-- HFE_LINK_CNT.PORT1, RC. -/
abbrev HFE_LINK_CNT_PORT1 : Fld := ⟨.HFE_LINK_CNT, 16, 16⟩
/-- HFE_LINK_CNT.AER, RC. -/
abbrev HFE_LINK_CNT_AER : Fld := ⟨.HFE_LINK_CNT, 32, 16⟩
/-- HFE_SAS_ADDR_0.ADDR, RW. -/
abbrev HFE_SAS_ADDR_0_ADDR : Fld := ⟨.HFE_SAS_ADDR_0, 0, 64⟩
/-- HFE_SAS_ADDR_1.ADDR, RW. -/
abbrev HFE_SAS_ADDR_1_ADDR : Fld := ⟨.HFE_SAS_ADDR_1, 0, 64⟩
/-- MGT_CTL.EN, RW. -/
abbrev MGT_CTL_EN : Fld := ⟨.MGT_CTL, 0, 1⟩
/-- MGT_CTL.SPEED, RW. -/
abbrev MGT_CTL_SPEED : Fld := ⟨.MGT_CTL, 1, 2⟩
/-- MGT_ADDR.MCTP, RW. -/
abbrev MGT_ADDR_MCTP : Fld := ⟨.MGT_ADDR, 0, 7⟩
/-- MGT_ADDR.BASIC, RW. -/
abbrev MGT_ADDR_BASIC : Fld := ⟨.MGT_ADDR, 8, 7⟩
/-- MGT_TEMP.CTRL, RO. -/
abbrev MGT_TEMP_CTRL : Fld := ⟨.MGT_TEMP, 0, 10⟩
/-- MGT_TEMP.PWR, RO. -/
abbrev MGT_TEMP_PWR : Fld := ⟨.MGT_TEMP, 10, 10⟩
/-- MGT_TEMP.CRIT, RO. -/
abbrev MGT_TEMP_CRIT : Fld := ⟨.MGT_TEMP, 20, 1⟩
/-- MGT_TEMP.WARN, RO. -/
abbrev MGT_TEMP_WARN : Fld := ⟨.MGT_TEMP, 21, 1⟩
/-- MGT_TEMP_THR.WARN, RW. -/
abbrev MGT_TEMP_THR_WARN : Fld := ⟨.MGT_TEMP_THR, 0, 9⟩
/-- MGT_TEMP_THR.CRIT, RW. -/
abbrev MGT_TEMP_THR_CRIT : Fld := ⟨.MGT_TEMP_THR, 16, 9⟩
/-- MGT_STAT.PRIVILEGED, RO. -/
abbrev MGT_STAT_PRIVILEGED : Fld := ⟨.MGT_STAT, 0, 1⟩
/-- MGT_STAT.DEBUG_OPEN, RO. -/
abbrev MGT_STAT_DEBUG_OPEN : Fld := ⟨.MGT_STAT, 1, 1⟩
/-- MGT_CNT.PACKETS, RC. -/
abbrev MGT_CNT_PACKETS : Fld := ⟨.MGT_CNT, 0, 16⟩
/-- MGT_CNT.PEC, RC. -/
abbrev MGT_CNT_PEC : Fld := ⟨.MGT_CNT, 16, 16⟩
/-- MGT_CNT.DROPPED, RC. -/
abbrev MGT_CNT_DROPPED : Fld := ⟨.MGT_CNT, 32, 16⟩
/-- BFM_ECC_CTL.CE_MODE, RW. -/
abbrev BFM_ECC_CTL_CE_MODE : Fld := ⟨.BFM_ECC_CTL, 0, 1⟩
/-- BFM_ECC_CTL.CE_THR, RW. -/
abbrev BFM_ECC_CTL_CE_THR : Fld := ⟨.BFM_ECC_CTL, 8, 8⟩
/-- BFM_CE_CNT.SRAM, RC. -/
abbrev BFM_CE_CNT_SRAM : Fld := ⟨.BFM_CE_CNT, 0, 32⟩
/-- BFM_CE_CNT.DRAM, RC. -/
abbrev BFM_CE_CNT_DRAM : Fld := ⟨.BFM_CE_CNT, 32, 32⟩
/-- BFM_CE_LOG.ADDR, RO. -/
abbrev BFM_CE_LOG_ADDR : Fld := ⟨.BFM_CE_LOG, 0, 40⟩
/-- BFM_CE_LOG.REQ, RO. -/
abbrev BFM_CE_LOG_REQ : Fld := ⟨.BFM_CE_LOG, 40, 5⟩
/-- BFM_CE_LOG.DRAM, RO. -/
abbrev BFM_CE_LOG_DRAM : Fld := ⟨.BFM_CE_LOG, 46, 1⟩
/-- BFM_CE_LOG.VALID, RO. -/
abbrev BFM_CE_LOG_VALID : Fld := ⟨.BFM_CE_LOG, 63, 1⟩
/-- BFM_UE_LOG.ADDR, RO. -/
abbrev BFM_UE_LOG_ADDR : Fld := ⟨.BFM_UE_LOG, 0, 40⟩
/-- BFM_UE_LOG.REQ, RO. -/
abbrev BFM_UE_LOG_REQ : Fld := ⟨.BFM_UE_LOG, 40, 5⟩
/-- BFM_UE_LOG.POISON, RO. -/
abbrev BFM_UE_LOG_POISON : Fld := ⟨.BFM_UE_LOG, 45, 1⟩
/-- BFM_UE_LOG.DRAM, RO. -/
abbrev BFM_UE_LOG_DRAM : Fld := ⟨.BFM_UE_LOG, 46, 1⟩
/-- BFM_UE_LOG.TAG, RO. -/
abbrev BFM_UE_LOG_TAG : Fld := ⟨.BFM_UE_LOG, 47, 1⟩
/-- BFM_UE_LOG.OVERFLOW, RO. -/
abbrev BFM_UE_LOG_OVERFLOW : Fld := ⟨.BFM_UE_LOG, 62, 1⟩
/-- BFM_UE_LOG.VALID, W1C. -/
abbrev BFM_UE_LOG_VALID : Fld := ⟨.BFM_UE_LOG, 63, 1⟩
/-- BFM_SCRUB_CTL.EN, RW. -/
abbrev BFM_SCRUB_CTL_EN : Fld := ⟨.BFM_SCRUB_CTL, 0, 1⟩
/-- BFM_SCRUB_CTL.LAP_WARN, RW. -/
abbrev BFM_SCRUB_CTL_LAP_WARN : Fld := ⟨.BFM_SCRUB_CTL, 1, 15⟩
/-- BFM_SCRUB_LAP.US, RO. -/
abbrev BFM_SCRUB_LAP_US : Fld := ⟨.BFM_SCRUB_LAP, 0, 32⟩
/-- BFM_SCRUB_STAT.CUR, RO. -/
abbrev BFM_SCRUB_STAT_CUR : Fld := ⟨.BFM_SCRUB_STAT, 0, 32⟩
/-- BFM_SCRUB_STAT.LAPS, RO. -/
abbrev BFM_SCRUB_STAT_LAPS : Fld := ⟨.BFM_SCRUB_STAT, 32, 16⟩
/-- BFM_SCRUB_STAT.SLOW, RO. -/
abbrev BFM_SCRUB_STAT_SLOW : Fld := ⟨.BFM_SCRUB_STAT, 48, 1⟩
/-- BFM_DRAM_STAT.READY, RO. -/
abbrev BFM_DRAM_STAT_READY : Fld := ⟨.BFM_DRAM_STAT, 0, 1⟩
/-- BFM_DRAM_STAT.FAIL, RO. -/
abbrev BFM_DRAM_STAT_FAIL : Fld := ⟨.BFM_DRAM_STAT, 1, 1⟩
/-- BFM_DRAM_STAT.TRUNCATED, RO. -/
abbrev BFM_DRAM_STAT_TRUNCATED : Fld := ⟨.BFM_DRAM_STAT, 2, 1⟩
/-- BFM_DRAM_STAT.FITTED, RO. -/
abbrev BFM_DRAM_STAT_FITTED : Fld := ⟨.BFM_DRAM_STAT, 3, 4⟩
/-- BFM_DRAM_STAT.IN_USE, RO. -/
abbrev BFM_DRAM_STAT_IN_USE : Fld := ⟨.BFM_DRAM_STAT, 7, 4⟩
/-- BFM_DRAM_STAT.TWO_RANKS, RO. -/
abbrev BFM_DRAM_STAT_TWO_RANKS : Fld := ⟨.BFM_DRAM_STAT, 11, 1⟩
/-- BFM_DRAM_CNT.READS, RC. -/
abbrev BFM_DRAM_CNT_READS : Fld := ⟨.BFM_DRAM_CNT, 0, 32⟩
/-- BFM_DRAM_CNT.WRITES, RC. -/
abbrev BFM_DRAM_CNT_WRITES : Fld := ⟨.BFM_DRAM_CNT, 32, 32⟩
/-- SYC_CTL.EN, RW. -/
abbrev SYC_CTL_EN : Fld := ⟨.SYC_CTL, 0, 1⟩
/-- SYC_CTL.STREAM_EN, RW. -/
abbrev SYC_CTL_STREAM_EN : Fld := ⟨.SYC_CTL, 1, 1⟩
/-- SYC_ALLOC_CTL.POLICY, RW. -/
abbrev SYC_ALLOC_CTL_POLICY : Fld := ⟨.SYC_ALLOC_CTL, 0, 34⟩
/-- SYC_WAY_LOCK.WAYS, RW. -/
abbrev SYC_WAY_LOCK_WAYS : Fld := ⟨.SYC_WAY_LOCK, 0, 16⟩
/-- SYC_SCRATCH.COUNT, RW. -/
abbrev SYC_SCRATCH_COUNT : Fld := ⟨.SYC_SCRATCH, 0, 4⟩
/-- SYC_SCRATCH.BUSY, RO. -/
abbrev SYC_SCRATCH_BUSY : Fld := ⟨.SYC_SCRATCH, 4, 1⟩
/-- SYC_SCRATCH.REFUSED, W1C. -/
abbrev SYC_SCRATCH_REFUSED : Fld := ⟨.SYC_SCRATCH, 5, 1⟩
/-- SYC_RANGE_BASE.BASE, RW. -/
abbrev SYC_RANGE_BASE_BASE : Fld := ⟨.SYC_RANGE_BASE, 0, 40⟩
/-- SYC_RANGE_LEN.LEN, RW. -/
abbrev SYC_RANGE_LEN_LEN : Fld := ⟨.SYC_RANGE_LEN, 0, 40⟩
/-- SYC_RANGE_CMD.OP, RW. -/
abbrev SYC_RANGE_CMD_OP : Fld := ⟨.SYC_RANGE_CMD, 0, 3⟩
/-- SYC_RANGE_CMD.ALL, RW. -/
abbrev SYC_RANGE_CMD_ALL : Fld := ⟨.SYC_RANGE_CMD, 3, 1⟩
/-- SYC_RANGE_CMD.WAY, RW. -/
abbrev SYC_RANGE_CMD_WAY : Fld := ⟨.SYC_RANGE_CMD, 4, 4⟩
/-- SYC_RANGE_CMD.GO, WO. -/
abbrev SYC_RANGE_CMD_GO : Fld := ⟨.SYC_RANGE_CMD, 8, 1⟩
/-- SYC_RANGE_STAT.BUSY, RO. -/
abbrev SYC_RANGE_STAT_BUSY : Fld := ⟨.SYC_RANGE_STAT, 0, 1⟩
/-- SYC_RANGE_STAT.DONE, RO. -/
abbrev SYC_RANGE_STAT_DONE : Fld := ⟨.SYC_RANGE_STAT, 1, 1⟩
/-- SYC_RANGE_STAT.STATUS, RO. -/
abbrev SYC_RANGE_STAT_STATUS : Fld := ⟨.SYC_RANGE_STAT, 2, 8⟩
/-- SYC_RANGE_STAT.WRITTEN, RO. -/
abbrev SYC_RANGE_STAT_WRITTEN : Fld := ⟨.SYC_RANGE_STAT, 10, 18⟩
/-- SYC_RANGE_STAT.SKIPPED, RO. -/
abbrev SYC_RANGE_STAT_SKIPPED : Fld := ⟨.SYC_RANGE_STAT, 28, 18⟩
/-- SYC_RANGE_STAT.ERRORS, RO. -/
abbrev SYC_RANGE_STAT_ERRORS : Fld := ⟨.SYC_RANGE_STAT, 46, 8⟩
/-- SYC_CNT.HITS, RC. -/
abbrev SYC_CNT_HITS : Fld := ⟨.SYC_CNT, 0, 24⟩
/-- SYC_CNT.MISSES, RC. -/
abbrev SYC_CNT_MISSES : Fld := ⟨.SYC_CNT, 24, 24⟩
/-- SYC_CNT.CANCELS, RC. -/
abbrev SYC_CNT_CANCELS : Fld := ⟨.SYC_CNT, 48, 8⟩
/-- SYC_CNT.STREAMED, RC. -/
abbrev SYC_CNT_STREAMED : Fld := ⟨.SYC_CNT, 56, 8⟩
/-- SYC_EVB_STAT.ENTRIES, RO. -/
abbrev SYC_EVB_STAT_ENTRIES : Fld := ⟨.SYC_EVB_STAT, 0, 6⟩
/-- DMA_CH_CFG.EN, RW. -/
abbrev DMA_CH_CFG_EN : Fld := ⟨.DMA_CH_CFG, 0, 1⟩
/-- DMA_CH_CFG.PRIO, RW. -/
abbrev DMA_CH_CFG_PRIO : Fld := ⟨.DMA_CH_CFG, 1, 2⟩
/-- DMA_CH_CFG.RING_COH, RW. -/
abbrev DMA_CH_CFG_RING_COH : Fld := ⟨.DMA_CH_CFG, 3, 1⟩
/-- DMA_CH_CFG.LOG2_SIZE, RW. -/
abbrev DMA_CH_CFG_LOG2_SIZE : Fld := ⟨.DMA_CH_CFG, 4, 4⟩
/-- DMA_CH_RING.BASE, RW. -/
abbrev DMA_CH_RING_BASE : Fld := ⟨.DMA_CH_RING, 0, 40⟩
/-- DMA_CH_TAIL.TAIL, RW. -/
abbrev DMA_CH_TAIL_TAIL : Fld := ⟨.DMA_CH_TAIL, 0, 12⟩
/-- DMA_CH_HEAD.HEAD, RO. -/
abbrev DMA_CH_HEAD_HEAD : Fld := ⟨.DMA_CH_HEAD, 0, 12⟩
/-- DMA_CH_CTL.PAUSE, RW. -/
abbrev DMA_CH_CTL_PAUSE : Fld := ⟨.DMA_CH_CTL, 0, 1⟩
/-- DMA_CH_CTL.CLEAR, WO. -/
abbrev DMA_CH_CTL_CLEAR : Fld := ⟨.DMA_CH_CTL, 1, 1⟩
/-- DMA_CH_CTL.RETRY, WO. -/
abbrev DMA_CH_CTL_RETRY : Fld := ⟨.DMA_CH_CTL, 2, 1⟩
/-- DMA_CH_STATUS.STATE, RO. -/
abbrev DMA_CH_STATUS_STATE : Fld := ⟨.DMA_CH_STATUS, 0, 3⟩
/-- DMA_CH_STATUS.ERR, W1C. -/
abbrev DMA_CH_STATUS_ERR : Fld := ⟨.DMA_CH_STATUS, 3, 1⟩
/-- DMA_CH_STATUS.LATE_ERR, W1C. -/
abbrev DMA_CH_STATUS_LATE_ERR : Fld := ⟨.DMA_CH_STATUS, 4, 1⟩
/-- DMA_CH_STATUS.LATE_OVF, W1C. -/
abbrev DMA_CH_STATUS_LATE_OVF : Fld := ⟨.DMA_CH_STATUS, 5, 1⟩
/-- DMA_CH_STATUS.LAST_STATUS, RO. -/
abbrev DMA_CH_STATUS_LAST_STATUS : Fld := ⟨.DMA_CH_STATUS, 6, 8⟩
/-- DMA_CH_STATUS.FILL, RO. -/
abbrev DMA_CH_STATUS_FILL : Fld := ⟨.DMA_CH_STATUS, 14, 6⟩
/-- DMA_CH_STATUS.ERR_BEAT, RO. -/
abbrev DMA_CH_STATUS_ERR_BEAT : Fld := ⟨.DMA_CH_STATUS, 20, 27⟩
/-- DMA_CH_SRC.ADDR, RO. -/
abbrev DMA_CH_SRC_ADDR : Fld := ⟨.DMA_CH_SRC, 0, 64⟩
/-- DMA_CH_DST.ADDR, RO. -/
abbrev DMA_CH_DST_ADDR : Fld := ⟨.DMA_CH_DST, 0, 64⟩
/-- DMA_CH_COUNT.BYTES, RO. -/
abbrev DMA_CH_COUNT_BYTES : Fld := ⟨.DMA_CH_COUNT, 0, 32⟩
/-- DMA_CH_LATE.ADDR, RO. -/
abbrev DMA_CH_LATE_ADDR : Fld := ⟨.DMA_CH_LATE, 0, 40⟩
/-- DMA_CH_LATE.IDX, RO. -/
abbrev DMA_CH_LATE_IDX : Fld := ⟨.DMA_CH_LATE, 40, 12⟩
/-- DMA_CH_CNT.DONE, RC. -/
abbrev DMA_CH_CNT_DONE : Fld := ⟨.DMA_CH_CNT, 0, 32⟩
/-- DMA_CH_CNT.FAIL, RC. -/
abbrev DMA_CH_CNT_FAIL : Fld := ⟨.DMA_CH_CNT, 32, 16⟩
/-- DMA_CH_CNT.LATE, RC. -/
abbrev DMA_CH_CNT_LATE : Fld := ⟨.DMA_CH_CNT, 48, 16⟩
/-- SPL_PAR_CNT.BLOCK, RC. -/
abbrev SPL_PAR_CNT_BLOCK : Fld := ⟨.SPL_PAR_CNT, 0, 32⟩
/-- SPL_PAR_CNT.FW, RC. -/
abbrev SPL_PAR_CNT_FW : Fld := ⟨.SPL_PAR_CNT, 32, 32⟩
/-- SPL_FW_CFG.PROD, RW. -/
abbrev SPL_FW_CFG_PROD : Fld := ⟨.SPL_FW_CFG, 0, 1⟩
/-- SPL_FW_CFG.CONS, RW. -/
abbrev SPL_FW_CFG_CONS : Fld := ⟨.SPL_FW_CFG, 1, 1⟩
/-- SPL_FW_CFG.IRQ_EN, RW. -/
abbrev SPL_FW_CFG_IRQ_EN : Fld := ⟨.SPL_FW_CFG, 2, 1⟩
/-- SPL_FW_CFG.FLUSH, WO. -/
abbrev SPL_FW_CFG_FLUSH : Fld := ⟨.SPL_FW_CFG, 3, 1⟩
/-- SPL_FW_STAT.COUNT, RO. -/
abbrev SPL_FW_STAT_COUNT : Fld := ⟨.SPL_FW_STAT, 0, 5⟩
/-- SPL_FW_STAT.DEPTH, RO. -/
abbrev SPL_FW_STAT_DEPTH : Fld := ⟨.SPL_FW_STAT, 5, 5⟩
/-- SPL_FW_STAT.EMPTY, RO. -/
abbrev SPL_FW_STAT_EMPTY : Fld := ⟨.SPL_FW_STAT, 10, 1⟩
/-- SPL_FW_STAT.FULL, RO. -/
abbrev SPL_FW_STAT_FULL : Fld := ⟨.SPL_FW_STAT, 11, 1⟩
/-- SPL_FW_STAT.UNDERRUN, W1C. -/
abbrev SPL_FW_STAT_UNDERRUN : Fld := ⟨.SPL_FW_STAT, 12, 1⟩
/-- SPL_FW_STAT.OVERFLOW, W1C. -/
abbrev SPL_FW_STAT_OVERFLOW : Fld := ⟨.SPL_FW_STAT, 13, 1⟩
/-- SPL_FW_STAT.DROPPING, RO. -/
abbrev SPL_FW_STAT_DROPPING : Fld := ⟨.SPL_FW_STAT, 14, 1⟩
/-- SPL_FW_STAT.OPEN, RO. -/
abbrev SPL_FW_STAT_OPEN : Fld := ⟨.SPL_FW_STAT, 15, 1⟩
/-- SPL_FW_STAT.OWNER, RO. -/
abbrev SPL_FW_STAT_OWNER : Fld := ⟨.SPL_FW_STAT, 16, 6⟩
/-- SPL_FW_PUSH.WORD, WO. -/
abbrev SPL_FW_PUSH_WORD : Fld := ⟨.SPL_FW_PUSH, 0, 64⟩
/-- SPL_FW_PUSH_LAST.WORD, WO. -/
abbrev SPL_FW_PUSH_LAST_WORD : Fld := ⟨.SPL_FW_PUSH_LAST, 0, 64⟩
/-- SPL_FW_POP.WORD, RC. -/
abbrev SPL_FW_POP_WORD : Fld := ⟨.SPL_FW_POP, 0, 64⟩
/-- SPL_FW_DROP.DROP_PKT, WO. -/
abbrev SPL_FW_DROP_DROP_PKT : Fld := ⟨.SPL_FW_DROP, 0, 1⟩
/-- SPL_POPSTAT.LAST, RO. -/
abbrev SPL_POPSTAT_LAST : Fld := ⟨.SPL_POPSTAT, 0, 1⟩
/-- SPL_POPSTAT.POISON, RO. -/
abbrev SPL_POPSTAT_POISON : Fld := ⟨.SPL_POPSTAT, 1, 1⟩
/-- SPL_POPSTAT.UNDERRUN, RO. -/
abbrev SPL_POPSTAT_UNDERRUN : Fld := ⟨.SPL_POPSTAT, 2, 1⟩
/-- FLT_CTL.EN, RW. -/
abbrev FLT_CTL_EN : Fld := ⟨.FLT_CTL, 0, 1⟩
/-- FLT_CTL.RETIRE_COMMIT, W1S. -/
abbrev FLT_CTL_RETIRE_COMMIT : Fld := ⟨.FLT_CTL, 1, 1⟩
/-- FLT_CTL.Q_LOG2, RW. -/
abbrev FLT_CTL_Q_LOG2 : Fld := ⟨.FLT_CTL, 4, 4⟩
/-- FLT_STAT.STATE, RO. -/
abbrev FLT_STAT_STATE : Fld := ⟨.FLT_STAT, 0, 4⟩
/-- FLT_STAT.RETIRE_REQ, RO. -/
abbrev FLT_STAT_RETIRE_REQ : Fld := ⟨.FLT_STAT, 4, 1⟩
/-- FLT_STAT.IMAGE_HELD, RO. -/
abbrev FLT_STAT_IMAGE_HELD : Fld := ⟨.FLT_STAT, 5, 1⟩
/-- FLT_STAT.IMAGE_STATUS, RO. -/
abbrev FLT_STAT_IMAGE_STATUS : Fld := ⟨.FLT_STAT, 6, 2⟩
/-- FLT_STAT.THROTTLING, RO. -/
abbrev FLT_STAT_THROTTLING : Fld := ⟨.FLT_STAT, 8, 1⟩
/-- FLT_STAT.WRITE_WAIT, RO. -/
abbrev FLT_STAT_WRITE_WAIT : Fld := ⟨.FLT_STAT, 9, 1⟩
/-- FLT_STAT.USABLE_DIES, RO. -/
abbrev FLT_STAT_USABLE_DIES : Fld := ⟨.FLT_STAT, 16, 7⟩
/-- FLT_STAT.W, RO. -/
abbrev FLT_STAT_W : Fld := ⟨.FLT_STAT, 23, 5⟩
/-- FLT_SPARE.SPARE, RO. -/
abbrev FLT_SPARE_SPARE : Fld := ⟨.FLT_SPARE, 0, 24⟩
/-- FLT_SPARE.SPARE_INIT, RO. -/
abbrev FLT_SPARE_SPARE_INIT : Fld := ⟨.FLT_SPARE, 24, 24⟩
/-- FLT_SPARE.SPARE_PPM, RO. -/
abbrev FLT_SPARE_SPARE_PPM : Fld := ⟨.FLT_SPARE, 48, 16⟩
/-- FLT_HU_STAT.FLUSH_RATE, RO. -/
abbrev FLT_HU_STAT_FLUSH_RATE : Fld := ⟨.FLT_HU_STAT, 0, 16⟩
/-- FLT_HU_STAT.W_F, RO. -/
abbrev FLT_HU_STAT_W_F : Fld := ⟨.FLT_HU_STAT, 16, 5⟩
/-- FLT_HU_STAT.T_PROG, RO. -/
abbrev FLT_HU_STAT_T_PROG : Fld := ⟨.FLT_HU_STAT, 21, 11⟩
/-- FLT_HU_CTL.MAX_ACTIVE, RW. -/
abbrev FLT_HU_CTL_MAX_ACTIVE : Fld := ⟨.FLT_HU_CTL, 0, 5⟩
/-- FLT_LIFE_PCT.PCT, RO. -/
abbrev FLT_LIFE_PCT_PCT : Fld := ⟨.FLT_LIFE_PCT, 0, 8⟩
/-- FLT_LIFE_PCT.LIMIT, RO. -/
abbrev FLT_LIFE_PCT_LIMIT : Fld := ⟨.FLT_LIFE_PCT, 8, 1⟩
/-- FLT_GEOM.PAGE, RO. -/
abbrev FLT_GEOM_PAGE : Fld := ⟨.FLT_GEOM, 0, 16⟩
/-- FLT_GEOM.PLANES, RO. -/
abbrev FLT_GEOM_PLANES : Fld := ⟨.FLT_GEOM, 16, 3⟩
/-- FLT_GEOM.BPC, RO. -/
abbrev FLT_GEOM_BPC : Fld := ⟨.FLT_GEOM, 19, 3⟩
/-- FLT_GEOM.NATIVE, RO. -/
abbrev FLT_GEOM_NATIVE : Fld := ⟨.FLT_GEOM, 22, 16⟩
/-- FLT_GEOM.BLOCKS, RO. -/
abbrev FLT_GEOM_BLOCKS : Fld := ⟨.FLT_GEOM, 38, 16⟩
/-- FLT_DIE_MAP.MAP, RO. -/
abbrev FLT_DIE_MAP_MAP : Fld := ⟨.FLT_DIE_MAP, 0, 64⟩
/-- FLT_ONFI_CTL.GRADE, RW. -/
abbrev FLT_ONFI_CTL_GRADE : Fld := ⟨.FLT_ONFI_CTL, 0, 3⟩
/-- FLT_ONFI_CTL.REACHED, RO. -/
abbrev FLT_ONFI_CTL_REACHED : Fld := ⟨.FLT_ONFI_CTL, 3, 12⟩
/-- FLT_LOGICAL.COUNT, RO. -/
abbrev FLT_LOGICAL_COUNT : Fld := ⟨.FLT_LOGICAL, 0, 29⟩
/-- FLT_MAP_BASE.BASE, RW. -/
abbrev FLT_MAP_BASE_BASE : Fld := ⟨.FLT_MAP_BASE, 0, 40⟩
/-- FLT_Q_BASE.BASE, RW. -/
abbrev FLT_Q_BASE_BASE : Fld := ⟨.FLT_Q_BASE, 0, 40⟩
/-- FLT_Q_TAIL.TAIL, RW. -/
abbrev FLT_Q_TAIL_TAIL : Fld := ⟨.FLT_Q_TAIL, 0, 12⟩
/-- FLT_Q_HEAD.HEAD, RO. -/
abbrev FLT_Q_HEAD_HEAD : Fld := ⟨.FLT_Q_HEAD, 0, 12⟩
/-- FLT_SLC_CTL.PCT, RW. -/
abbrev FLT_SLC_CTL_PCT : Fld := ⟨.FLT_SLC_CTL, 0, 5⟩
/-- FLT_SLC_CTL.FOLD_LOW, RW. -/
abbrev FLT_SLC_CTL_FOLD_LOW : Fld := ⟨.FLT_SLC_CTL, 5, 7⟩
/-- FLT_THROTTLE.RATE, RW. -/
abbrev FLT_THROTTLE_RATE : Fld := ⟨.FLT_THROTTLE, 0, 16⟩
/-- FLT_VERIFY_CTL.THR, RW. -/
abbrev FLT_VERIFY_CTL_THR : Fld := ⟨.FLT_VERIFY_CTL, 0, 7⟩
/-- FLT_GC_CTL.GC_START, RW. -/
abbrev FLT_GC_CTL_GC_START : Fld := ⟨.FLT_GC_CTL, 0, 8⟩
/-- FLT_GC_CTL.GC_URGENT, RW. -/
abbrev FLT_GC_CTL_GC_URGENT : Fld := ⟨.FLT_GC_CTL, 8, 8⟩
/-- FLT_GC_CTL.WL_GAP, RW. -/
abbrev FLT_GC_CTL_WL_GAP : Fld := ⟨.FLT_GC_CTL, 16, 16⟩
/-- FLT_PE_RATED.RATED, RW. -/
abbrev FLT_PE_RATED_RATED : Fld := ⟨.FLT_PE_RATED, 0, 20⟩
/-- FLT_PE_RATED.SLC_WEIGHT, RW. -/
abbrev FLT_PE_RATED_SLC_WEIGHT : Fld := ⟨.FLT_PE_RATED, 20, 4⟩
/-- FLT_WEAR.AVG, RO. -/
abbrev FLT_WEAR_AVG : Fld := ⟨.FLT_WEAR, 0, 28⟩
/-- FLT_WEAR.MAX, RO. -/
abbrev FLT_WEAR_MAX : Fld := ⟨.FLT_WEAR, 28, 28⟩
/-- FLT_ERR_CNT.PROGRAM, RO. -/
abbrev FLT_ERR_CNT_PROGRAM : Fld := ⟨.FLT_ERR_CNT, 0, 16⟩
/-- FLT_ERR_CNT.ERASE, RO. -/
abbrev FLT_ERR_CNT_ERASE : Fld := ⟨.FLT_ERR_CNT, 16, 16⟩
/-- FLT_ERR_CNT.VERIFY, RO. -/
abbrev FLT_ERR_CNT_VERIFY : Fld := ⟨.FLT_ERR_CNT, 32, 16⟩
/-- FLT_ERR_CNT.REBUILD, RO. -/
abbrev FLT_ERR_CNT_REBUILD : Fld := ⟨.FLT_ERR_CNT, 48, 16⟩
/-- FLT_LOST_CNT.N, RO. -/
abbrev FLT_LOST_CNT_N : Fld := ⟨.FLT_LOST_CNT, 0, 28⟩
/-- FLT_PIN_CNT.N, RO. -/
abbrev FLT_PIN_CNT_N : Fld := ⟨.FLT_PIN_CNT, 0, 28⟩
/-- FLT_VALID_CNT.N, RO. -/
abbrev FLT_VALID_CNT_N : Fld := ⟨.FLT_VALID_CNT, 0, 29⟩
/-- FLT_CKPT_CTL.N, RW. -/
abbrev FLT_CKPT_CTL_N : Fld := ⟨.FLT_CKPT_CTL, 0, 8⟩
/-- FLT_RR_CTL.ADDR, RW. -/
abbrev FLT_RR_CTL_ADDR : Fld := ⟨.FLT_RR_CTL, 0, 8⟩
/-- FLT_RR_CTL.STEPS, RW. -/
abbrev FLT_RR_CTL_STEPS : Fld := ⟨.FLT_RR_CTL, 8, 4⟩
/-- FLT_RR_VAL.VAL, RW. -/
abbrev FLT_RR_VAL_VAL : Fld := ⟨.FLT_RR_VAL, 0, 32⟩
/-- FLT_TEMP_HIST.MIN, RO. -/
abbrev FLT_TEMP_HIST_MIN : Fld := ⟨.FLT_TEMP_HIST, 0, 32⟩
/-- SVC_MTIME.T, RW. -/
abbrev SVC_MTIME_T : Fld := ⟨.SVC_MTIME, 0, 64⟩
/-- SVC_IPI_SET.CORES, W1S. -/
abbrev SVC_IPI_SET_CORES : Fld := ⟨.SVC_IPI_SET, 0, 16⟩
/-- SVC_NMI_VEC.VEC, RW. -/
abbrev SVC_NMI_VEC_VEC : Fld := ⟨.SVC_NMI_VEC, 0, 40⟩
/-- SVC_DQ_THR.THR, RW. -/
abbrev SVC_DQ_THR_THR : Fld := ⟨.SVC_DQ_THR, 0, 7⟩
/-- SVC_SEM_ERR.N, RC. -/
abbrev SVC_SEM_ERR_N : Fld := ⟨.SVC_SEM_ERR, 0, 16⟩
/-- SVC_MTIMECMP.T, RW. -/
abbrev SVC_MTIMECMP_T : Fld := ⟨.SVC_MTIMECMP, 0, 64⟩
/-- SVC_MSIP.MSIP, RW. -/
abbrev SVC_MSIP_MSIP : Fld := ⟨.SVC_MSIP, 0, 1⟩
/-- SVC_CORE_CTL.RUN, RW. -/
abbrev SVC_CORE_CTL_RUN : Fld := ⟨.SVC_CORE_CTL, 0, 1⟩
/-- SVC_CORE_CTL.DQ_IE, RW. -/
abbrev SVC_CORE_CTL_DQ_IE : Fld := ⟨.SVC_CORE_CTL, 1, 1⟩
/-- SVC_CORE_CTL.DQ_STEAL_IE, RW. -/
abbrev SVC_CORE_CTL_DQ_STEAL_IE : Fld := ⟨.SVC_CORE_CTL, 2, 1⟩
/-- SVC_CORE_CTL.STATE, RO. -/
abbrev SVC_CORE_CTL_STATE : Fld := ⟨.SVC_CORE_CTL, 3, 2⟩
/-- SVC_CORE_PC.PC, RW. -/
abbrev SVC_CORE_PC_PC : Fld := ⟨.SVC_CORE_PC, 0, 40⟩
/-- SVC_SEM.BUSY, RO. -/
abbrev SVC_SEM_BUSY : Fld := ⟨.SVC_SEM, 0, 1⟩
/-- SVC_SEM.OWNER, RO. -/
abbrev SVC_SEM_OWNER : Fld := ⟨.SVC_SEM, 1, 6⟩
/-- SVC_SEM.ORPHANED, RC. -/
abbrev SVC_SEM_ORPHANED : Fld := ⟨.SVC_SEM, 7, 1⟩
/-- SVC_SEM.RELEASE, WO. -/
abbrev SVC_SEM_RELEASE : Fld := ⟨.SVC_SEM, 31, 1⟩
/-- SVC_CL_CNT.MISSES, RC. -/
abbrev SVC_CL_CNT_MISSES : Fld := ⟨.SVC_CL_CNT, 0, 32⟩
/-- SVC_CL_CNT.INVALS, RC. -/
abbrev SVC_CL_CNT_INVALS : Fld := ⟨.SVC_CL_CNT, 32, 32⟩
/-- OFL_WV_RING.BASE, RW. -/
abbrev OFL_WV_RING_BASE : Fld := ⟨.OFL_WV_RING, 0, 40⟩
/-- OFL_WV_RING.LOG2, RW. -/
abbrev OFL_WV_RING_LOG2 : Fld := ⟨.OFL_WV_RING, 40, 4⟩
/-- OFL_WV_TAIL.TAIL, RW. -/
abbrev OFL_WV_TAIL_TAIL : Fld := ⟨.OFL_WV_TAIL, 0, 12⟩
/-- OFL_WV_HEAD.HEAD, RO. -/
abbrev OFL_WV_HEAD_HEAD : Fld := ⟨.OFL_WV_HEAD, 0, 12⟩
/-- OFL_WV_STAT.BUSY, RO. -/
abbrev OFL_WV_STAT_BUSY : Fld := ⟨.OFL_WV_STAT, 0, 1⟩
/-- OFL_WV_STAT.STATUS, RO. -/
abbrev OFL_WV_STAT_STATUS : Fld := ⟨.OFL_WV_STAT, 1, 8⟩
/-- OFL_CD_RING.BASE, RW. -/
abbrev OFL_CD_RING_BASE : Fld := ⟨.OFL_CD_RING, 0, 40⟩
/-- OFL_CD_RING.LOG2, RW. -/
abbrev OFL_CD_RING_LOG2 : Fld := ⟨.OFL_CD_RING, 40, 4⟩
/-- OFL_CD_TAIL.TAIL, RW. -/
abbrev OFL_CD_TAIL_TAIL : Fld := ⟨.OFL_CD_TAIL, 0, 12⟩
/-- OFL_CD_HEAD.HEAD, RO. -/
abbrev OFL_CD_HEAD_HEAD : Fld := ⟨.OFL_CD_HEAD, 0, 12⟩
/-- OFL_CD_STAT.BUSY, RO. -/
abbrev OFL_CD_STAT_BUSY : Fld := ⟨.OFL_CD_STAT, 0, 1⟩
/-- OFL_CD_STAT.STATUS, RO. -/
abbrev OFL_CD_STAT_STATUS : Fld := ⟨.OFL_CD_STAT, 1, 8⟩
/-- OFL_CNT.WEAVE, RC. -/
abbrev OFL_CNT_WEAVE : Fld := ⟨.OFL_CNT, 0, 16⟩
/-- OFL_CNT.MISMATCH, RC. -/
abbrev OFL_CNT_MISMATCH : Fld := ⟨.OFL_CNT, 16, 16⟩
/-- OFL_CNT.CARDER, RC. -/
abbrev OFL_CNT_CARDER : Fld := ⟨.OFL_CNT, 32, 16⟩
/-- OFL_CNT.FAIL, RC. -/
abbrev OFL_CNT_FAIL : Fld := ⟨.OFL_CNT, 48, 16⟩
/-- FCL_STAT.SAFE, RO. -/
abbrev FCL_STAT_SAFE : Fld := ⟨.FCL_STAT, 0, 1⟩
/-- FCL_STAT.ERRN_LATCH, W1C. -/
abbrev FCL_STAT_ERRN_LATCH : Fld := ⟨.FCL_STAT, 1, 1⟩
/-- FCL_STAT.NMI_LOST, W1C. -/
abbrev FCL_STAT_NMI_LOST : Fld := ⟨.FCL_STAT, 2, 1⟩
/-- FCL_STAT.SELF, RO. -/
abbrev FCL_STAT_SELF : Fld := ⟨.FCL_STAT, 3, 1⟩
/-- FCL_STAT.ERR_N_LOW, RO. -/
abbrev FCL_STAT_ERR_N_LOW : Fld := ⟨.FCL_STAT, 4, 1⟩
/-- FCL_CTL.SAFE_ENTER, WO. -/
abbrev FCL_CTL_SAFE_ENTER : Fld := ⟨.FCL_CTL, 0, 1⟩
/-- FCL_CAUSE.MSG, RO. -/
abbrev FCL_CAUSE_MSG : Fld := ⟨.FCL_CAUSE, 0, 64⟩
/-- FCL_CAUSE_INFO.TIME, RO. -/
abbrev FCL_CAUSE_INFO_TIME : Fld := ⟨.FCL_CAUSE_INFO, 0, 48⟩
/-- FCL_CAUSE_INFO.REASON, RO. -/
abbrev FCL_CAUSE_INFO_REASON : Fld := ⟨.FCL_CAUSE_INFO, 48, 3⟩
/-- FCL_CAUSE_INFO.VALID, W1C. -/
abbrev FCL_CAUSE_INFO_VALID : Fld := ⟨.FCL_CAUSE_INFO, 63, 1⟩
/-- FCL_LAST.MSG, RO. -/
abbrev FCL_LAST_MSG : Fld := ⟨.FCL_LAST, 0, 64⟩
/-- FCL_CNT.ACCEPTED, RC. -/
abbrev FCL_CNT_ACCEPTED : Fld := ⟨.FCL_CNT, 0, 32⟩
/-- FCL_CNT.LOST, RC. -/
abbrev FCL_CNT_LOST : Fld := ⟨.FCL_CNT, 32, 16⟩
/-- FCL_CNT.CORRECTED, RC. -/
abbrev FCL_CNT_CORRECTED : Fld := ⟨.FCL_CNT, 48, 16⟩
/-- FCL_SW_SET.SOURCE, WO. -/
abbrev FCL_SW_SET_SOURCE : Fld := ⟨.FCL_SW_SET, 0, 11⟩
/-- FCL_SW_RAISE.MSG, WO. -/
abbrev FCL_SW_RAISE_MSG : Fld := ⟨.FCL_SW_RAISE, 0, 64⟩
/-- FCL_CLAIM.SOURCE, RC. -/
abbrev FCL_CLAIM_SOURCE : Fld := ⟨.FCL_CLAIM, 0, 11⟩
/-- FCL_CLAIM.VALID, RC. -/
abbrev FCL_CLAIM_VALID : Fld := ⟨.FCL_CLAIM, 11, 1⟩
/-- FCL_THRESH.PRIO, RW. -/
abbrev FCL_THRESH_PRIO : Fld := ⟨.FCL_THRESH, 0, 3⟩
/-- FCL_PEND.BITS, W1C. -/
abbrev FCL_PEND_BITS : Fld := ⟨.FCL_PEND, 0, 64⟩
/-- FCL_SRC_CFG.IRQ, RW. -/
abbrev FCL_SRC_CFG_IRQ : Fld := ⟨.FCL_SRC_CFG, 0, 1⟩
/-- FCL_SRC_CFG.CORE, RW. -/
abbrev FCL_SRC_CFG_CORE : Fld := ⟨.FCL_SRC_CFG, 1, 4⟩
/-- FCL_SRC_CFG.PRIO, RW. -/
abbrev FCL_SRC_CFG_PRIO : Fld := ⟨.FCL_SRC_CFG, 5, 3⟩
/-- FCL_SRC_CFG.NMI, RW. -/
abbrev FCL_SRC_CFG_NMI : Fld := ⟨.FCL_SRC_CFG, 8, 1⟩
/-- FCL_SRC_CFG.BRESET, RW. -/
abbrev FCL_SRC_CFG_BRESET : Fld := ⟨.FCL_SRC_CFG, 9, 1⟩
/-- FCL_SRC_CFG.CRESET, RW. -/
abbrev FCL_SRC_CFG_CRESET : Fld := ⟨.FCL_SRC_CFG, 10, 1⟩
/-- FCL_SRC_CFG.ERRN, RW. -/
abbrev FCL_SRC_CFG_ERRN : Fld := ⟨.FCL_SRC_CFG, 11, 1⟩
/-- FCL_SRC_CFG.SAFE, RW. -/
abbrev FCL_SRC_CFG_SAFE : Fld := ⟨.FCL_SRC_CFG, 12, 1⟩
/-- FCL_SRC_CFG.SEV_MIN, RW. -/
abbrev FCL_SRC_CFG_SEV_MIN : Fld := ⟨.FCL_SRC_CFG, 13, 3⟩
/-- FCL_SRC_CFG.HOST, RW. -/
abbrev FCL_SRC_CFG_HOST : Fld := ⟨.FCL_SRC_CFG, 16, 1⟩
/-- FCL_SRC_CFG.HOST_IDX, RW. -/
abbrev FCL_SRC_CFG_HOST_IDX : Fld := ⟨.FCL_SRC_CFG, 17, 8⟩
/-- FCL_SRC_CFG.PAR, RO. -/
abbrev FCL_SRC_CFG_PAR : Fld := ⟨.FCL_SRC_CFG, 31, 1⟩
/-- EVR_CTL.EN, RW. -/
abbrev EVR_CTL_EN : Fld := ⟨.EVR_CTL, 0, 1⟩
/-- EVR_CTL.MODE, RW. -/
abbrev EVR_CTL_MODE : Fld := ⟨.EVR_CTL, 1, 1⟩
/-- EVR_CTL.PERSIST, RW. -/
abbrev EVR_CTL_PERSIST : Fld := ⟨.EVR_CTL, 2, 16⟩
/-- EVR_STAT.RING, RO. -/
abbrev EVR_STAT_RING : Fld := ⟨.EVR_STAT, 0, 11⟩
/-- EVR_STAT.LOADING, RO. -/
abbrev EVR_STAT_LOADING : Fld := ⟨.EVR_STAT, 11, 1⟩
/-- EVR_STAT.LOADED, RO. -/
abbrev EVR_STAT_LOADED : Fld := ⟨.EVR_STAT, 12, 1⟩
/-- EVR_STAT.DIRTY, RO. -/
abbrev EVR_STAT_DIRTY : Fld := ⟨.EVR_STAT, 13, 5⟩
/-- EVR_STAT.PERSIST_FAIL, W1C. -/
abbrev EVR_STAT_PERSIST_FAIL : Fld := ⟨.EVR_STAT, 18, 1⟩
/-- EVR_LOG_BASE.BASE, RW. -/
abbrev EVR_LOG_BASE_BASE : Fld := ⟨.EVR_LOG_BASE, 0, 40⟩
/-- EVR_DROPS.N, RC. -/
abbrev EVR_DROPS_N : Fld := ⟨.EVR_DROPS, 0, 32⟩
/-- EVR_SEQ_NEXT.SEQ, RO. -/
abbrev EVR_SEQ_NEXT_SEQ : Fld := ⟨.EVR_SEQ_NEXT, 0, 48⟩
/-- EVR_DIRTY.PAGES, RC. -/
abbrev EVR_DIRTY_PAGES : Fld := ⟨.EVR_DIRTY, 0, 64⟩
/-- EVR_FW_CMD.CODE, RW. -/
abbrev EVR_FW_CMD_CODE : Fld := ⟨.EVR_FW_CMD, 0, 10⟩
/-- EVR_FW_CMD.SEV, RW. -/
abbrev EVR_FW_CMD_SEV : Fld := ⟨.EVR_FW_CMD, 10, 3⟩
/-- EVR_FW_CMD.PRIV, RW. -/
abbrev EVR_FW_CMD_PRIV : Fld := ⟨.EVR_FW_CMD, 13, 1⟩
/-- EVR_FW_CMD.GO, WO. -/
abbrev EVR_FW_CMD_GO : Fld := ⟨.EVR_FW_CMD, 14, 1⟩
/-- EVR_FW_CMD.STATUS, RO. -/
abbrev EVR_FW_CMD_STATUS : Fld := ⟨.EVR_FW_CMD, 15, 8⟩
/-- EVR_FW_CMD.P0, RW. -/
abbrev EVR_FW_CMD_P0 : Fld := ⟨.EVR_FW_CMD, 32, 32⟩
/-- EVR_FW_P.P, RW. -/
abbrev EVR_FW_P_P : Fld := ⟨.EVR_FW_P, 0, 64⟩
/-- EVR_RATE.BURST, RW. -/
abbrev EVR_RATE_BURST : Fld := ⟨.EVR_RATE, 0, 8⟩
/-- EVR_RATE.PERIOD, RW. -/
abbrev EVR_RATE_PERIOD : Fld := ⟨.EVR_RATE, 8, 16⟩
/-- EVR_RATE.TOKENS, RO. -/
abbrev EVR_RATE_TOKENS : Fld := ⟨.EVR_RATE, 24, 8⟩
/-- SEC_LC.STATE, RO. -/
abbrev SEC_LC_STATE : Fld := ⟨.SEC_LC, 0, 3⟩
/-- SEC_LC.DEBUG_OPEN, RO. -/
abbrev SEC_LC_DEBUG_OPEN : Fld := ⟨.SEC_LC, 3, 1⟩
/-- SEC_LC.USED, RO. -/
abbrev SEC_LC_USED : Fld := ⟨.SEC_LC, 4, 6⟩
/-- SEC_LC_REQ.TARGET, RW. -/
abbrev SEC_LC_REQ_TARGET : Fld := ⟨.SEC_LC_REQ, 0, 3⟩
/-- SEC_LC_REQ.DISCARD_DIRTY, RW. -/
abbrev SEC_LC_REQ_DISCARD_DIRTY : Fld := ⟨.SEC_LC_REQ, 3, 1⟩
/-- SEC_LC_REQ.GO, WO. -/
abbrev SEC_LC_REQ_GO : Fld := ⟨.SEC_LC_REQ, 4, 1⟩
/-- SEC_LC_REQ.STATUS, RO. -/
abbrev SEC_LC_REQ_STATUS : Fld := ⟨.SEC_LC_REQ, 5, 8⟩
/-- SEC_LC_REQ.BUSY, RO. -/
abbrev SEC_LC_REQ_BUSY : Fld := ⟨.SEC_LC_REQ, 13, 1⟩
/-- SEC_OTP_STAT.ROOTS, RO. -/
abbrev SEC_OTP_STAT_ROOTS : Fld := ⟨.SEC_OTP_STAT, 0, 4⟩
/-- SEC_OTP_STAT.REVOKE, RO. -/
abbrev SEC_OTP_STAT_REVOKE : Fld := ⟨.SEC_OTP_STAT, 4, 4⟩
/-- SEC_OTP_STAT.HDA_ROOT, RO. -/
abbrev SEC_OTP_STAT_HDA_ROOT : Fld := ⟨.SEC_OTP_STAT, 8, 1⟩
/-- SEC_OTP_STAT.ADMIN_ROOT, RO. -/
abbrev SEC_OTP_STAT_ADMIN_ROOT : Fld := ⟨.SEC_OTP_STAT, 9, 1⟩
/-- SEC_OTP_STAT.KEY_EPOCH, RO. -/
abbrev SEC_OTP_STAT_KEY_EPOCH : Fld := ⟨.SEC_OTP_STAT, 10, 6⟩
/-- SEC_OTP_CMD.FIELD, RW. -/
abbrev SEC_OTP_CMD_FIELD : Fld := ⟨.SEC_OTP_CMD, 0, 4⟩
/-- SEC_OTP_CMD.GO, RW. -/
abbrev SEC_OTP_CMD_GO : Fld := ⟨.SEC_OTP_CMD, 4, 1⟩
/-- SEC_OTP_CMD.STATUS, RW. -/
abbrev SEC_OTP_CMD_STATUS : Fld := ⟨.SEC_OTP_CMD, 5, 8⟩
/-- SEC_BOOT_STAT.WARM, RO. -/
abbrev SEC_BOOT_STAT_WARM : Fld := ⟨.SEC_BOOT_STAT, 0, 1⟩
/-- SEC_BOOT_STAT.TRIAL, RO. -/
abbrev SEC_BOOT_STAT_TRIAL : Fld := ⟨.SEC_BOOT_STAT, 1, 1⟩
/-- SEC_BOOT_STAT.TRIAL_S, RO. -/
abbrev SEC_BOOT_STAT_TRIAL_S : Fld := ⟨.SEC_BOOT_STAT, 2, 5⟩
/-- SEC_BOOT_STAT.SVN, RO. -/
abbrev SEC_BOOT_STAT_SVN : Fld := ⟨.SEC_BOOT_STAT, 7, 7⟩
/-- SEC_BOOT_STAT.IMG_SVN, RO. -/
abbrev SEC_BOOT_STAT_IMG_SVN : Fld := ⟨.SEC_BOOT_STAT, 14, 7⟩
/-- SEC_BOOT_STAT.ROOT, RO. -/
abbrev SEC_BOOT_STAT_ROOT : Fld := ⟨.SEC_BOOT_STAT, 21, 4⟩
/-- SEC_BOOT_CTL.CONFIRM, WO. -/
abbrev SEC_BOOT_CTL_CONFIRM : Fld := ⟨.SEC_BOOT_CTL, 0, 1⟩
/-- SEC_BOOT_CTL.FAIL, WO. -/
abbrev SEC_BOOT_CTL_FAIL : Fld := ⟨.SEC_BOOT_CTL, 1, 1⟩
/-- SEC_STAGE_BASE.BASE, RW. -/
abbrev SEC_STAGE_BASE_BASE : Fld := ⟨.SEC_STAGE_BASE, 0, 40⟩
/-- SEC_UPD_ADDR.ADDR, RW. -/
abbrev SEC_UPD_ADDR_ADDR : Fld := ⟨.SEC_UPD_ADDR, 0, 40⟩
/-- SEC_UPD_CMD.OP, RW. -/
abbrev SEC_UPD_CMD_OP : Fld := ⟨.SEC_UPD_CMD, 0, 2⟩
/-- SEC_UPD_CMD.SOURCE, RW. -/
abbrev SEC_UPD_CMD_SOURCE : Fld := ⟨.SEC_UPD_CMD, 2, 3⟩
/-- SEC_UPD_CMD.OFFSET, RW. -/
abbrev SEC_UPD_CMD_OFFSET : Fld := ⟨.SEC_UPD_CMD, 5, 25⟩
/-- SEC_UPD_CMD.LEN, RW. -/
abbrev SEC_UPD_CMD_LEN : Fld := ⟨.SEC_UPD_CMD, 30, 24⟩
/-- SEC_UPD_CMD.GO, WO. -/
abbrev SEC_UPD_CMD_GO : Fld := ⟨.SEC_UPD_CMD, 54, 1⟩
/-- SEC_UPD_CMD.STATUS, RO. -/
abbrev SEC_UPD_CMD_STATUS : Fld := ⟨.SEC_UPD_CMD, 55, 8⟩
/-- SEC_UPD_CMD.BUSY, RO. -/
abbrev SEC_UPD_CMD_BUSY : Fld := ⟨.SEC_UPD_CMD, 63, 1⟩
/-- SEC_UPD_STAT.STATE, RO. -/
abbrev SEC_UPD_STAT_STATE : Fld := ⟨.SEC_UPD_STAT, 0, 2⟩
/-- SEC_UPD_STAT.OWNER, RO. -/
abbrev SEC_UPD_STAT_OWNER : Fld := ⟨.SEC_UPD_STAT, 2, 3⟩
/-- SEC_UPD_STAT.GOOD, RO. -/
abbrev SEC_UPD_STAT_GOOD : Fld := ⟨.SEC_UPD_STAT, 5, 14⟩
/-- SEC_UPD_STAT.N, RO. -/
abbrev SEC_UPD_STAT_N : Fld := ⟨.SEC_UPD_STAT, 19, 14⟩
/-- SEC_UPD_STAT.BAD_FOLIO, RO. -/
abbrev SEC_UPD_STAT_BAD_FOLIO : Fld := ⟨.SEC_UPD_STAT, 33, 14⟩
/-- SEC_UPD_STAT.IDLE, RO. -/
abbrev SEC_UPD_STAT_IDLE : Fld := ⟨.SEC_UPD_STAT, 47, 10⟩
/-- SEC_UPD_STAT.PROGRESS, RO. -/
abbrev SEC_UPD_STAT_PROGRESS : Fld := ⟨.SEC_UPD_STAT, 57, 7⟩
/-- SEC_PATCH_ADDR.ADDR, RW. -/
abbrev SEC_PATCH_ADDR_ADDR : Fld := ⟨.SEC_PATCH_ADDR, 0, 40⟩
/-- SEC_PATCH_CMD.GO, WO. -/
abbrev SEC_PATCH_CMD_GO : Fld := ⟨.SEC_PATCH_CMD, 0, 1⟩
/-- SEC_PATCH_CMD.STATUS, RO. -/
abbrev SEC_PATCH_CMD_STATUS : Fld := ⟨.SEC_PATCH_CMD, 1, 8⟩
/-- SEC_PATCH_CMD.BUSY, RO. -/
abbrev SEC_PATCH_CMD_BUSY : Fld := ⟨.SEC_PATCH_CMD, 9, 1⟩
/-- SEC_KEY_CMD.OP, RW. -/
abbrev SEC_KEY_CMD_OP : Fld := ⟨.SEC_KEY_CMD, 0, 2⟩
/-- SEC_KEY_CMD.SLOT, RW. -/
abbrev SEC_KEY_CMD_SLOT : Fld := ⟨.SEC_KEY_CMD, 2, 8⟩
/-- SEC_KEY_CMD.GO, WO. -/
abbrev SEC_KEY_CMD_GO : Fld := ⟨.SEC_KEY_CMD, 10, 1⟩
/-- SEC_KEY_CMD.STATUS, RO. -/
abbrev SEC_KEY_CMD_STATUS : Fld := ⟨.SEC_KEY_CMD, 11, 8⟩
/-- SEC_TOKEN_ADDR.ADDR, RW. -/
abbrev SEC_TOKEN_ADDR_ADDR : Fld := ⟨.SEC_TOKEN_ADDR, 0, 40⟩
/-- SEC_NONCE.WORD, RC. -/
abbrev SEC_NONCE_WORD : Fld := ⟨.SEC_NONCE, 0, 64⟩
/-- SEC_OTP_ADDR.ADDR, RW. -/
abbrev SEC_OTP_ADDR_ADDR : Fld := ⟨.SEC_OTP_ADDR, 0, 40⟩
/-- SEC_CRED.WORD, WO. -/
abbrev SEC_CRED_WORD : Fld := ⟨.SEC_CRED, 0, 64⟩
/-- SEC_CERT_BASE.BASE, RW. -/
abbrev SEC_CERT_BASE_BASE : Fld := ⟨.SEC_CERT_BASE, 0, 40⟩
/-- SEC_SIGN_CMD.GO, WO. -/
abbrev SEC_SIGN_CMD_GO : Fld := ⟨.SEC_SIGN_CMD, 0, 1⟩
/-- SEC_SIGN_CMD.STATUS, RO. -/
abbrev SEC_SIGN_CMD_STATUS : Fld := ⟨.SEC_SIGN_CMD, 1, 8⟩
/-- SEC_SIGN_CMD.BUSY, RO. -/
abbrev SEC_SIGN_CMD_BUSY : Fld := ⟨.SEC_SIGN_CMD, 9, 1⟩
/-- SEC_SIGN_DIG.WORD, WO. -/
abbrev SEC_SIGN_DIG_WORD : Fld := ⟨.SEC_SIGN_DIG, 0, 64⟩
/-- SEC_SIGN_OUT.WORD, RO. -/
abbrev SEC_SIGN_OUT_WORD : Fld := ⟨.SEC_SIGN_OUT, 0, 64⟩
/-- SEC_RANGE.FIRST, RW. -/
abbrev SEC_RANGE_FIRST : Fld := ⟨.SEC_RANGE, 0, 40⟩
/-- SEC_RANGE.NSID_M1, RW. -/
abbrev SEC_RANGE_NSID_M1 : Fld := ⟨.SEC_RANGE, 40, 7⟩
/-- SEC_RANGE.RLOCK, RW. -/
abbrev SEC_RANGE_RLOCK : Fld := ⟨.SEC_RANGE, 47, 1⟩
/-- SEC_RANGE.WLOCK, RW. -/
abbrev SEC_RANGE_WLOCK : Fld := ⟨.SEC_RANGE, 48, 1⟩
/-- SEC_RANGE.LOCK_ON_RESET, RW. -/
abbrev SEC_RANGE_LOCK_ON_RESET : Fld := ⟨.SEC_RANGE, 49, 1⟩
/-- SEC_RANGE.VALID, RW. -/
abbrev SEC_RANGE_VALID : Fld := ⟨.SEC_RANGE, 50, 1⟩
/-- SEC_RANGE_LEN.BLOCKS, RW. -/
abbrev SEC_RANGE_LEN_BLOCKS : Fld := ⟨.SEC_RANGE_LEN, 0, 40⟩
/-- SEC_MEAS.WORD, RO. -/
abbrev SEC_MEAS_WORD : Fld := ⟨.SEC_MEAS, 0, 64⟩
/-- CKR_STRAP.HOST_SEL, RO. -/
abbrev CKR_STRAP_HOST_SEL : Fld := ⟨.CKR_STRAP, 0, 1⟩
/-- CKR_STRAP.PE_MODE, RO. -/
abbrev CKR_STRAP_PE_MODE : Fld := ⟨.CKR_STRAP, 1, 1⟩
/-- CKR_UNITS.ACT, RO. -/
abbrev CKR_UNITS_ACT : Fld := ⟨.CKR_UNITS, 0, 4⟩
/-- CKR_UNITS.LANE, RO. -/
abbrev CKR_UNITS_LANE : Fld := ⟨.CKR_UNITS, 4, 8⟩
/-- CKR_UNITS.DEC, RO. -/
abbrev CKR_UNITS_DEC : Fld := ⟨.CKR_UNITS, 12, 12⟩
/-- CKR_UNITS.CLUS, RO. -/
abbrev CKR_UNITS_CLUS : Fld := ⟨.CKR_UNITS, 24, 4⟩
/-- CKR_UNITS.PCIE, RO. -/
abbrev CKR_UNITS_PCIE : Fld := ⟨.CKR_UNITS, 28, 1⟩
/-- CKR_UNITS.SAS, RO. -/
abbrev CKR_UNITS_SAS : Fld := ⟨.CKR_UNITS, 29, 1⟩
/-- CKR_UNITS.FLT, RO. -/
abbrev CKR_UNITS_FLT : Fld := ⟨.CKR_UNITS, 30, 1⟩
/-- CKR_UNITS.WEAVE, RO. -/
abbrev CKR_UNITS_WEAVE : Fld := ⟨.CKR_UNITS, 31, 1⟩
/-- CKR_UNITS.WEAVE_MIRROR_ONLY, RO. -/
abbrev CKR_UNITS_WEAVE_MIRROR_ONLY : Fld := ⟨.CKR_UNITS, 32, 1⟩
/-- CKR_UNITS.CARDER, RO. -/
abbrev CKR_UNITS_CARDER : Fld := ⟨.CKR_UNITS, 33, 1⟩
/-- CKR_UNITS.SHT, RO. -/
abbrev CKR_UNITS_SHT : Fld := ⟨.CKR_UNITS, 34, 24⟩
/-- CKR_LIMITS.HEADS_MAX, RO. -/
abbrev CKR_LIMITS_HEADS_MAX : Fld := ⟨.CKR_LIMITS, 0, 6⟩
/-- CKR_LIMITS.NAND_DIES_MAX, RO. -/
abbrev CKR_LIMITS_NAND_DIES_MAX : Fld := ⟨.CKR_LIMITS, 6, 7⟩
/-- CKR_LIMITS.DRAM_GIB_MAX, RO. -/
abbrev CKR_LIMITS_DRAM_GIB_MAX : Fld := ⟨.CKR_LIMITS, 13, 4⟩
/-- CKR_READY.OTP, RO. -/
abbrev CKR_READY_OTP : Fld := ⟨.CKR_READY, 0, 1⟩
/-- CKR_READY.DRAM, RO. -/
abbrev CKR_READY_DRAM : Fld := ⟨.CKR_READY, 1, 1⟩
/-- CKR_READY.LINK, RO. -/
abbrev CKR_READY_LINK : Fld := ⟨.CKR_READY, 2, 2⟩
/-- CKR_READY.SIDEBAND, RO. -/
abbrev CKR_READY_SIDEBAND : Fld := ⟨.CKR_READY, 4, 1⟩
/-- CKR_READY.HOST, RO. -/
abbrev CKR_READY_HOST : Fld := ⟨.CKR_READY, 5, 1⟩
/-- CKR_READY.EVR, RO. -/
abbrev CKR_READY_EVR : Fld := ⟨.CKR_READY, 6, 1⟩
/-- CKR_READY.HDA, RO. -/
abbrev CKR_READY_HDA : Fld := ⟨.CKR_READY, 7, 1⟩
/-- CKR_READY.SPINDLE, RO. -/
abbrev CKR_READY_SPINDLE : Fld := ⟨.CKR_READY, 8, 1⟩
/-- CKR_READY.ACT, RO. -/
abbrev CKR_READY_ACT : Fld := ⟨.CKR_READY, 9, 4⟩
/-- CKR_READY.TIER_READ, RO. -/
abbrev CKR_READY_TIER_READ : Fld := ⟨.CKR_READY, 13, 1⟩
/-- CKR_READY.TIER_WRITE, RO. -/
abbrev CKR_READY_TIER_WRITE : Fld := ⟨.CKR_READY, 14, 1⟩
/-- CKR_READY.PROTECTED, RO. -/
abbrev CKR_READY_PROTECTED : Fld := ⟨.CKR_READY, 15, 1⟩
/-- CKR_READY.MEDIA, RO. -/
abbrev CKR_READY_MEDIA : Fld := ⟨.CKR_READY, 16, 1⟩
/-- CKR_FWREADY.HOST, RW. -/
abbrev CKR_FWREADY_HOST : Fld := ⟨.CKR_FWREADY, 0, 1⟩
/-- CKR_FWREADY.MEDIA, RW. -/
abbrev CKR_FWREADY_MEDIA : Fld := ⟨.CKR_FWREADY, 1, 1⟩
/-- CKR_RST.CHIP, WO. -/
abbrev CKR_RST_CHIP : Fld := ⟨.CKR_RST, 0, 1⟩
/-- CKR_BRST.LANE, W1S. -/
abbrev CKR_BRST_LANE : Fld := ⟨.CKR_BRST, 0, 4⟩
/-- CKR_BRST.DCP, W1S. -/
abbrev CKR_BRST_DCP : Fld := ⟨.CKR_BRST, 4, 1⟩
/-- CKR_BRST.WRP, W1S. -/
abbrev CKR_BRST_WRP : Fld := ⟨.CKR_BRST, 5, 1⟩
/-- CKR_BRST.SVG, W1S. -/
abbrev CKR_BRST_SVG : Fld := ⟨.CKR_BRST, 6, 4⟩
/-- CKR_BRST.CTE, W1S. -/
abbrev CKR_BRST_CTE : Fld := ⟨.CKR_BRST, 10, 1⟩
/-- CKR_BRST.SPN, W1S. -/
abbrev CKR_BRST_SPN : Fld := ⟨.CKR_BRST, 11, 1⟩
/-- CKR_BRST.PWS, W1S. -/
abbrev CKR_BRST_PWS : Fld := ⟨.CKR_BRST, 12, 1⟩
/-- CKR_BRST.HDL, W1S. -/
abbrev CKR_BRST_HDL : Fld := ⟨.CKR_BRST, 13, 1⟩
/-- CKR_BRST.SHT, W1S. -/
abbrev CKR_BRST_SHT : Fld := ⟨.CKR_BRST, 14, 1⟩
/-- CKR_BRST.LOOM, W1S. -/
abbrev CKR_BRST_LOOM : Fld := ⟨.CKR_BRST, 15, 1⟩
/-- CKR_BRST.DMA, W1S. -/
abbrev CKR_BRST_DMA : Fld := ⟨.CKR_BRST, 16, 4⟩
/-- CKR_BRST.SPL, W1S. -/
abbrev CKR_BRST_SPL : Fld := ⟨.CKR_BRST, 20, 1⟩
/-- CKR_BRST.OFL, W1S. -/
abbrev CKR_BRST_OFL : Fld := ⟨.CKR_BRST, 21, 1⟩
/-- CKR_BRST.MGT, W1S. -/
abbrev CKR_BRST_MGT : Fld := ⟨.CKR_BRST, 22, 1⟩
/-- CKR_BRST.CAL, W1S. -/
abbrev CKR_BRST_CAL : Fld := ⟨.CKR_BRST, 23, 1⟩
/-- CKR_BRST.HFE, W1S. -/
abbrev CKR_BRST_HFE : Fld := ⟨.CKR_BRST, 24, 1⟩
/-- CKR_PWR_STAT.VIN_OK, RO. -/
abbrev CKR_PWR_STAT_VIN_OK : Fld := ⟨.CKR_PWR_STAT, 0, 1⟩
/-- CKR_PWR_STAT.LOSS, RO. -/
abbrev CKR_PWR_STAT_LOSS : Fld := ⟨.CKR_PWR_STAT, 1, 1⟩
/-- CKR_PWR_STAT.DIRTY_OUT, RO. -/
abbrev CKR_PWR_STAT_DIRTY_OUT : Fld := ⟨.CKR_PWR_STAT, 2, 1⟩
/-- CKR_PWR_STAT.RAIL_FLT, RO. -/
abbrev CKR_PWR_STAT_RAIL_FLT : Fld := ⟨.CKR_PWR_STAT, 3, 9⟩
/-- CKR_DIRTY_TIER.N, RW. -/
abbrev CKR_DIRTY_TIER_N : Fld := ⟨.CKR_DIRTY_TIER, 0, 17⟩
/-- CKR_SHUTDOWN.GO, W1S. -/
abbrev CKR_SHUTDOWN_GO : Fld := ⟨.CKR_SHUTDOWN, 0, 1⟩
/-- CKR_SHUTDOWN.DONE, RO. -/
abbrev CKR_SHUTDOWN_DONE : Fld := ⟨.CKR_SHUTDOWN, 1, 1⟩
/-- CKR_CLK_STAT.XTAL_OK, RO. -/
abbrev CKR_CLK_STAT_XTAL_OK : Fld := ⟨.CKR_CLK_STAT, 0, 1⟩
/-- CKR_CLK_STAT.ON_BACKUP, RO. -/
abbrev CKR_CLK_STAT_ON_BACKUP : Fld := ⟨.CKR_CLK_STAT, 1, 1⟩
/-- CKR_CLK_STAT.PLL, RO. -/
abbrev CKR_CLK_STAT_PLL : Fld := ⟨.CKR_CLK_STAT, 2, 10⟩
/-- CKR_CLK_STAT.TIME_LOST, RO. -/
abbrev CKR_CLK_STAT_TIME_LOST : Fld := ⟨.CKR_CLK_STAT, 12, 1⟩
/-- CKR_DTIME.MS, RO. -/
abbrev CKR_DTIME_MS : Fld := ⟨.CKR_DTIME, 0, 48⟩
/-- CKR_PCYCLE.N, RO. -/
abbrev CKR_PCYCLE_N : Fld := ⟨.CKR_PCYCLE, 0, 32⟩
/-- CAL_CTL.BG_EN, RW. -/
abbrev CAL_CTL_BG_EN : Fld := ⟨.CAL_CTL, 0, 1⟩
/-- CAL_CTL.TMO, RW. -/
abbrev CAL_CTL_TMO : Fld := ⟨.CAL_CTL, 1, 15⟩
/-- CAL_CMD.ITEM, RW. -/
abbrev CAL_CMD_ITEM : Fld := ⟨.CAL_CMD, 0, 11⟩
/-- CAL_CMD.GO, WO. -/
abbrev CAL_CMD_GO : Fld := ⟨.CAL_CMD, 11, 1⟩
/-- CAL_CMD.STATUS, RO. -/
abbrev CAL_CMD_STATUS : Fld := ⟨.CAL_CMD, 12, 8⟩
/-- CAL_CMD.QUEUED, RO. -/
abbrev CAL_CMD_QUEUED : Fld := ⟨.CAL_CMD, 20, 5⟩
/-- CAL_STAT.QUEUED, RO. -/
abbrev CAL_STAT_QUEUED : Fld := ⟨.CAL_STAT, 0, 5⟩
/-- CAL_STAT.RUNNING, RO. -/
abbrev CAL_STAT_RUNNING : Fld := ⟨.CAL_STAT, 5, 5⟩
/-- CAL_STAT.BG, RO. -/
abbrev CAL_STAT_BG : Fld := ⟨.CAL_STAT, 10, 1⟩
/-- CAL_CNT.TAKEN, RC. -/
abbrev CAL_CNT_TAKEN : Fld := ⟨.CAL_CNT, 0, 16⟩
/-- CAL_CNT.DISAGREE, RC. -/
abbrev CAL_CNT_DISAGREE : Fld := ⟨.CAL_CNT, 16, 16⟩
/-- CAL_CNT.ABANDONED, RC. -/
abbrev CAL_CNT_ABANDONED : Fld := ⟨.CAL_CNT, 32, 16⟩
/-- CAL_CNT.TIMEOUT, RC. -/
abbrev CAL_CNT_TIMEOUT : Fld := ⟨.CAL_CNT, 48, 16⟩
/-- CAL_TRACK.TRACK, RW. -/
abbrev CAL_TRACK_TRACK : Fld := ⟨.CAL_TRACK, 0, 21⟩
/-- CAL_COUNT.COUNT, RO. -/
abbrev CAL_COUNT_COUNT : Fld := ⟨.CAL_COUNT, 0, 24⟩
/-- CAL_COUNT.LAST_STATUS, RO. -/
abbrev CAL_COUNT_LAST_STATUS : Fld := ⟨.CAL_COUNT, 24, 8⟩
/-- CAL_LAST.TIME, RO. -/
abbrev CAL_LAST_TIME : Fld := ⟨.CAL_LAST, 0, 48⟩

end F

/-- The key of a register's instance in the register store: no two share one. -/
def regKey (r : Reg) (i : Nat) : Nat := r.ctorIdx + 1024 * i

/-- The register of a key. -/
def keyReg (k : Nat) : Reg := Reg.all.getD (k % 1024) .HDL_HEADMAP_LOCK

/-- The reset value of a key of the register store. -/
def regDefault (p : Part) (k : Nat) : Word := Reg.reset p (keyReg k) (k / 1024)

/-- The offset of a register's instance in its block's window. -/
def Reg.offset (r : Reg) (i : Nat) : Nat :=
  let d := r.info
  if d.mul = 0 then d.base + d.s2 * i else d.base + d.s1 * (i / d.mul) + d.s2 * (i % d.mul)

/-- The address of a register's instance in control space (R18). -/
def Reg.addr (r : Reg) (i : Nat) : Nat := r.info.block.base + r.offset i

/-- The instance of a register that covers an offset of its block's window, with the byte offset within it. -/
def Reg.matchOffset (r : Reg) (off : Nat) : Option (Nat × Nat) :=
  let d := r.info
  let sz := if d.wide then 8 else 4
  if off < d.base then none
  else
    let x := off - d.base
    if d.mul = 0 then
      if d.n2 = 1 then (if x < sz then some (0, x) else none)
      else if x / d.s2 < d.n2 ∧ x % d.s2 < sz then some (x / d.s2, x % d.s2) else none
    else
      let y := x % d.s1
      if x / d.s1 < d.n1 ∧ y / d.s2 < d.n2 ∧ y % d.s2 < sz then some (d.mul * (x / d.s1) + y / d.s2, y % d.s2)
      else none

/-- The block whose window holds a control-space address (R18). -/
def blockAt (a : Nat) : Option Block :=
  Block.all.find? (fun b => decide (b.base ≤ a ∧ a < b.base + b.window))

/-- The register instance a control-space address falls in, with the byte offset within it. -/
def regAt (a : Nat) : Option (Reg × Nat × Nat) :=
  match blockAt a with
  | none => none
  | some b =>
    Reg.all.findSome? (fun r =>
      if r.info.block = b then (r.matchOffset (a - b.base)).map (fun x => (r, x.1, x.2)) else none)

/-- A 64-bit register whose read has a side effect accepts only a whole read (R10). -/
def Reg.popRead (r : Reg) : Bool := r.info.wide && r.info.flds.any (fun f => decide (f.acc = .rc))

end Sys2Proof.Machine
end

