-- ==== Sys2Proof/Machine/State.lean ====
section
/-!
DEFINITION. The state of the block as plain data: the named registers (`regs`, a canonical sparse table over the
reset values of the part), memory, and for every unit the state its rules speak of beside its registers; the
faults and refusals; and the state after reset.
-/

namespace Sys2Proof.Machine

/-- Why the model stops with a fault: for no reason. Every access the spec denies is answered with a bus error (R11), and
every other stop it names is a state of the block. -/
inductive Fault where
deriving DecidableEq, Repr

/-- Why the model refuses a command. -/
inductive Refusal where
  /-- A command with no meaning yet, by its mnemonic. Safe. -/
  | notModelled (mnemonic : String)
  /-- A Coava instruction whose opcode an enabled SHT_MATCH patch redirects to loaded microcode (R312, R317): the
  spec gives no meaning to patch words. Safe. -/
  | patchedInstruction
deriving DecidableEq, Repr

/-! ### HDL: the head-disk assembly link (chapter 02) -/

/-- Who asked for a preamp frame, in the port arbiter's order (R45). Head control covers head switches and WRP's
heat frames (R153). -/
inductive PspWho where
  | headControl | firmware | faultRead
deriving DecidableEq, Repr

/-- What a head-control frame is for: a head switch, or WRP's read-mode or write-mode frame (R48, R153). -/
inductive HeadCtl where
  | switch | readMode | writeMode
deriving DecidableEq, Repr

/-- A preamp serial frame on a port (R44). -/
structure PspFrame where
  who : PspWho := .firmware
  ctl : HeadCtl := .switch
  rnw : Bool := false
  addr : Nat := 0
  data : Nat := 0
  /-- for a heat frame: the head it heats, and the number of the run it serves -/
  head : Nat := 0
  run : Nat := 0
deriving DecidableEq, Repr

/-- A media operation a unit serves: the Shuttle and its tag; tag 8 is the synchronous operation (R283). -/
structure OpRef where
  sh : Nat := 0
  tag : Nat := 0
deriving DecidableEq, Repr

/-- A requested head switch: from a media descriptor, or from HDL_HSEL_a (R48). -/
structure HeadSwitch where
  head : Nat := 0
  media : Option OpRef := none
  /-- its select frame has been granted: inhibit 6 of Table 2.4 -/
  granted : Bool := false
  /-- its select frame has ended and the settle runs -/
  settling : Bool := false
deriving DecidableEq, Repr

/-- HDL's state for one actuator (R42 to R50, R153). -/
structure HdlAct where
  /-- the write gate pin WG_a -/
  wg : Bool := false
  /-- PFLT_N_a is held low -/
  pfltLow : Bool := false
  /-- the frame running on the port -/
  running : Option PspFrame := none
  /-- a fault read waits for the port (R50) -/
  faultPending : Bool := false
  /-- the port arbiter's pointer (R45, R25) -/
  ptr : Nat := 0
  /-- head switches waiting or in progress, oldest first (R48) -/
  switches : List HeadSwitch := []
  /-- reader routing crossed (R43) -/
  swap : Bool := false
deriving DecidableEq, Repr

/-- The command HDL has sent to the Dilon tag (Table 2.5, Table 2.6). -/
inductive TagCmd where
  | getId | getCert | challenge | readCtr | readLimits | incCtr (k : Nat)
deriving DecidableEq, Repr

/-- The tag port and the life counters (R51 to R60). -/
structure TagPort where
  /-- the command waiting for its answer -/
  cmd : Option TagCmd := none
  /-- its last attempt failed and a retry is due (R51) -/
  retryDue : Bool := false
  /-- retries used on this command, 0 to 2 -/
  retries : Nat := 0
  /-- GET_CERT chunks read, 0 to 8 (Table 2.6) -/
  chunks : Nat := 0
  /-- SEC has released HDL since the last chip reset (R53) -/
  released : Bool := false
  /-- the identity hash and serial the tag gave (Table 2.5) -/
  identity : Option Nat := none
  serial : Nat := 0
  /-- committed counter values, keyed by k (R57) -/
  committed : List (Nat × Nat) := []
  /-- shadow deltas, keyed by k (R57) -/
  shadow : List (Nat × Nat) := []
  /-- what has not yet made a whole unit of counter k: bytes of counter 3, milliseconds of counters 1, 2 and 4 -/
  part : List (Nat × Nat) := []
  /-- a commit runs, at counter k (R58) -/
  commit : Option Nat := none
  /-- a commit request waits for the one running or for Table 2.6 (R58) -/
  commitWaiting : Bool := false
  /-- the first command of Table 2.6, or of its steps 7 and 8, waits for a running commit to end (R58) -/
  startWaiting : Option TagCmd := none
  /-- the delta of the INC_CTR sent (R58) -/
  sent : Nat := 0
  /-- drive time of the last 4 h commit (R58) -/
  lastTimer : Nat := 0
deriving DecidableEq, Repr

/-! ### LNE: the read lanes (chapter 03) -/

/-- The live path's states (R89, Table 3.3), with LNE_RUN_STAT_a.STATE's encoding by order. -/
inductive Live where
  | off | idle | armed | acquire | syncA | stream | bSearch
deriving DecidableEq, Repr

/-- The values of the adaptation and timing loops of one lane pair (R69, R71, R72, R75, R82): gain, baseline and
asymmetry of lanes 2a and 2a+1 at register resolution, the 64 taps and 4 target coefficients as 16-bit patterns,
the timing integrator in
2^−20 bit per clock, and the phase and the differential phase in 2^−20 bit. -/
structure LoopVals where
  gainL : Nat := 0
  baseL : Nat := 0
  asymL : Nat := 0
  gainT : Nat := 0
  baseT : Nat := 0
  asymT : Nat := 0
  taps : List Nat := []
  target : Nat := 0
  nu : Int := 0
  phi : Nat := 0
  delta : Int := 0
deriving DecidableEq, Repr

/-- What the front end of one lane made of one sample (R69): u = s − b in 1/16 LSB and the output x in 2^−40, with the sample
s it came from. -/
structure Front where
  s : Int := 0
  u : Int := 0
  x : Int := 0
deriving DecidableEq, Repr

/-- The trailer word of an LLR packet, by field (R74, Table 3.1). -/
structure Trailer where
  status : Nat := 0
  aFound : Bool := false
  bFound : Bool := false
  aDist : Nat := 7
  bDist : Nat := 7
  aOff : Int := 0
  bOff : Int := 0
  slot : Nat := 0
  seq : Nat := 0
  erased : Nat := 0
  scaled : Bool := false
  replay : Bool := false
  deferred : Bool := false
deriving DecidableEq, Repr

/-- A sector on the live path, from its preamble to its trailer (R90). -/
structure LiveSector where
  index : Nat := 0
  ctx : Nat := 0
  code : Nat := 0
  slot : Nat := 0
  seq : Nat := 0
  /-- the decoder queue entry reserved at the read gate; none: deferred (R91) -/
  entry : Option Nat := none
  aFound : Option (Int × Nat) := none
  /-- mark A's window has been decided -/
  aDone : Bool := false
  slip : Bool := false
  /-- the bit at which timing trust ended (R81); none: it holds -/
  lostAt : Option Nat := none
  /-- the last sector of its run -/
  last : Bool := false
  /-- the number of its run on the pair -/
  run : Nat := 0
  /-- zero-phase start took its first 32 bits (R83) -/
  zps : Bool := false
  /-- the equaliser's output y, and the trailing section's alone, from the preamble's first bit (R71, R82) -/
  ys : List Int := []
  ts : List Int := []
  /-- where the defect detector flagged each reader, guard not included (R79) -/
  flagL : List Bool := []
  flagT : List Bool := []
  /-- windows detected, and the hard decisions and LLRs that have left the detector, by bit (R73) -/
  windows : Nat := 0
  bits : List Bool := []
  llrs : List Int := []
deriving DecidableEq, Repr

/-- A read run accepted on a pair (R88). -/
structure LaneRun where
  owner : OpRef := {}
  code : Nat := 0
  count : Nat := 0
  ctx : Nat := 0
  /-- the position of its first sector: head, track, first logical sector and that sector's slot (R88, R145) -/
  head : Nat := 0
  track : Nat := 0
  first : Nat := 0
  slot0 : Nat := 0
  /-- the next sector to read -/
  next : Nat := 0
  /-- SEED_PHASE as it stood at the run's start (R84) -/
  seedPhase : Bool := false
  /-- the status the run ends with once the sector being read is done (R88, R92) -/
  ending : Option Nat := none
deriving DecidableEq, Repr

/-- A retention slot (R93, R94). -/
structure RetSlot where
  valid : Bool := false
  seq : Nat := 0
  /-- order of claiming: the oldest is the least -/
  stamp : Nat := 0
  code : Nat := 0
  ctx : Nat := 0
  sector : Nat := 0
  /-- offset and distance of each mark accepted -/
  markA : Option (Int × Nat) := none
  markB : Option (Int × Nat) := none
  target : Nat := 0
  scale : Nat := 0
  /-- the equalised samples of the 48 bits before the preamble and of the bits from the preamble on -/
  pre : List Int := []
  ys : List Int := []
  /-- the defect flags of both readers from the preamble on, guard included -/
  flagL : List Bool := []
  flagT : List Bool := []
  pinFw : Bool := false
  pinPool : Bool := false
deriving DecidableEq, Repr

/-- Who asked for a replay (R95). -/
inductive ReplayWho where
  | live | pool (id : Nat) | firmware
deriving DecidableEq, Repr

/-- A replay request (R95). -/
structure Replay where
  who : ReplayWho := .firmware
  slot : Nat := 0
  seq : Nat := 0
  offset : Int := 0
  useB : Bool := false
  override : Bool := false
  /-- the entry it fills: a B_ONLY replay keeps the live read's, the others reserve one at the head of the queue -/
  entry : Option Nat := none
  bOnly : Bool := false
  deferred : Bool := false
  ctx : Nat := 0
  sector : Nat := 0
  code : Nat := 0
  /-- the live sector's marks and flags, for a live-path request's trailer -/
  base : Trailer := {}
  running : Bool := false
deriving DecidableEq, Repr

/-- A packet in the Spool to the decoder queue (R74). -/
structure Packet where
  entry : Nat := 0
  ctx : Nat := 0
  sector : Nat := 0
  code : Nat := 0
  trailer : Trailer := {}
  /-- the LLR words (R74) -/
  words : List Word := []
  /-- the packet holds the trailer word only -/
  only : Bool := false
  /-- the recovery job it serves; none for a live packet -/
  job : Option Nat := none
  live : Bool := true
deriving DecidableEq, Repr

/-- The state of one lane pair (R64 to R101). -/
structure Pair where
  live : Live := .off
  /-- the bit rate the synthesisers run at, 100 kb/s; differs from LNE_RATE_a while a write waits for a run's end (R65) -/
  rate : Nat := 60000
  ratePending : Bool := false
  gate : Bool := false
  run : Option LaneRun := none
  /-- sectors read and not yet past mark B, oldest first; the sector being read is the last -/
  sectors : List LiveSector := []
  /-- the sector being read: set from its preamble to its splice gap -/
  reading : Bool := false
  vals : LoopVals := {}
  /-- the integrator, phase and differential phase at the start of the flagged span now running, and those at which the next
  preamble's acquisition restarts (R81) -/
  spanTiming : Option (Int × Nat × Int) := none
  relock : Option (Int × Nat × Int) := none
  /-- the pair Spool (R66): words of eight samples of lane 2a+1, oldest first; recentre asked for the next gap -/
  spool : List Word := List.replicate 6 0#64
  recentre : Bool := false
  /-- what the front ends of lanes 2a and 2a+1 gave, newest first (R69), as far back as anything uses it -/
  lead : List Front := []
  trail : List Front := []
  /-- the equaliser's last 48 outputs before the next preamble (R93) -/
  preY : List Int := []
  /-- the sampling phase of lane 2a+1, in 2^−20 bit (R82) -/
  phaseT : Nat := 0
  /-- fast-recovery pulses HDL has issued to lanes 2a and 2a+1 (R67) -/
  pulseL : Nat := 0
  pulseT : Nat := 0
  slots : List (Nat × RetSlot) := []
  nextSeq : Nat := 0
  stamps : Nat := 0
  replays : List Replay := []
  packets : List Packet := []
  /-- arbiter over replay requesters (R95) and over runs (R148) -/
  replayPtr : Nat := 0
  runPtr : Nat := 0
  /-- the pair's lanes correct their slices by swapping spares; else by trimming, the spares powered down (R99) -/
  redundant : Bool := false
  /-- runs accepted on the pair -/
  runs : Nat := 0
deriving DecidableEq, Repr

/-! ### DCP: the decoder pool (chapter 04) -/

/-- The states of a queue entry (R115, Table 4.3). -/
inductive EntryState where
  | free | reserved | ready | decoding | held
deriving DecidableEq, Repr

/-- One replay attempt of the pool's ladder (R124, R125). -/
structure Attempt where
  rung : Nat := 0
  useB : Bool := false
  off : Int := 0
  cap : Nat := 0
deriving DecidableEq, Repr

/-- One entry of an actuator's decoder queue (R115). -/
structure Entry where
  st : EntryState := .free
  ctx : Nat := 0
  sector : Nat := 0
  /-- live entry, with a deadline; otherwise a recovery entry -/
  live : Bool := false
  job : Nat := 0
  stamp : Nat := 0
  /-- deadline in ns since chip reset (R118) -/
  deadline : Nat := 0
  urgent : Bool := false
  missed : Bool := false
  aged : Bool := false
  erasures : Nat := 0
  /-- the packet's LLR words, or the posteriors of a yielded decode (R115) -/
  words : List Word := []
  /-- the replay attempt its packet serves; none: a live packet, or rung 2 -/
  attempt : Option Attempt := none
  /-- the sector's next replay has been requested at the start of this entry's decode (R127) -/
  asked : Bool := false
  /-- iterations its attempt may still run, where a decode of it has begun -/
  cap : Nat := 0
  /-- when it began to wait, in ns since chip reset (R119) -/
  since : Nat := 0
deriving DecidableEq, Repr

/-- A run context (R116). -/
structure RunCtx where
  used : Bool := false
  code : Nat := 0
  lba : Word := 0#64
  base : Nat := 0
  stride : Nat := 0
  count : Nat := 0
  posted : Nat := 0
  /-- rung 1 only: a VERIFY (R286) -/
  verify : Bool := false
  /-- the run has ended: no further sector will be delivered -/
  ended : Bool := false
  delivered : Nat := 0
deriving DecidableEq, Repr

/-- A sector in the pool, from its packet to its record; a firmware job of R130 too. -/
structure Job where
  id : Nat := 0
  ctx : Nat := 0
  sector : Nat := 0
  slot : Nat := 0
  seq : Nat := 0
  trailer : Trailer := {}
  rung : Nat := 1
  liveIter : Nat := 0
  recIter : Nat := 0
  /-- recovery iterations left of RCV_ITER (R128) -/
  left : Nat := 0
  /-- the pool holds a pin on the slot (R126) -/
  pin : Bool := false
  pinRefused : Bool := false
  miscorrect : Bool := false
  /-- the live decode has failed: the job is on the pool rungs -/
  failed : Bool := false
  /-- DCP_RCV_CTL as it stood at the live failure (R140) -/
  rcv : Word := 0#64
  plan : List Attempt := []
  /-- the attempt whose replay is outstanding -/
  current : Option Attempt := none
  /-- the next replay is to be requested -/
  want : Bool := false
  /-- its replay is in the lane pair's queue or its packet in flight -/
  out : Bool := false
  /-- a decode of it runs -/
  busy : Bool := false
  /-- an attempt has succeeded: its write-back is under way (R129) -/
  won : Bool := false
  /-- a firmware job's cap (R130) -/
  submit : Option Nat := none
  override : Bool := false
  dec : Nat := 0
  /-- the LLRs were lost under R117 -/
  lost : Bool := false
deriving DecidableEq, Repr

/-- A write-back whose responses are awaited (R114, R123). -/
structure WriteBack where
  job : Nat := 0
  dec : Nat := 0
  addr : Nat := 0
  data : List Byte := []
  /-- its run context; 8: the context has been freed by a reset (R135) -/
  ctx : Nat := 0
  record : Word := 0#64
  counts : Bool := true
deriving DecidableEq, Repr

/-- A record waiting for ring space, held by a decoder (R123). -/
structure HeldRecord where
  dec : Nat := 0
  record : Word := 0#64
  /-- its run context; 8: none -/
  ctx : Nat := 0
  /-- the record of a sector of that run, not of a firmware job -/
  counts : Bool := true
  /-- slot and SEQ of the pool's pin released when it posts (R126) -/
  unpin : Option (Nat × Nat) := none
deriving DecidableEq, Repr

/-- The pool's state for one actuator. -/
structure DcpAct where
  entries : List (Nat × Entry) := []
  ctxs : List (Nat × RunCtx) := []
  ring : List Word := []
  held : List HeldRecord := []
  jobs : List Job := []
  nextJob : Nat := 1
  wbs : List WriteBack := []
  /-- pointer of the queue's grant over decoders (R120) -/
  grantPtr : Nat := 0
deriving DecidableEq, Repr

/-- What a decoder works on. -/
structure DecWork where
  act : Nat := 0
  entry : Nat := 0
  job : Nat := 0
  live : Bool := true
  cls : Nat := 0
  /-- the state its entry returns to if the decoder's memories fail (R137) -/
  home : EntryState := .ready
  /-- the cap of a recovery attempt -/
  cap : Nat := 0
  /-- iterations of the current attempt as last marked by an event -/
  done : Nat := 0
  /-- when its iterations began, in ns since chip reset, and the code's columns (R114, Table 4.2) -/
  start : Nat := 0
  columns : Nat := 0
deriving DecidableEq, Repr

/-- One LDPC decoder (R119, R137). -/
structure Decoder where
  work : Option DecWork := none
  out : Bool := false
  /-- pointers over actuators, one per class (R119) -/
  ptrs : List (Nat × Nat) := []
deriving DecidableEq, Repr

/-! ### WRP: the write path (chapter 05) -/

/-- The heat mode of an actuator (R153). -/
inductive HeatMode where
  | off | read | write
deriving DecidableEq, Repr

/-- One staged sector of a write run: its 4,112 information bytes, the CRC included (R149). -/
structure Staged where
  index : Nat := 0
  data : List Byte := []
deriving DecidableEq, Repr

/-- A write run accepted on an actuator (R148, R149). -/
structure WrRun where
  owner : OpRef := {}
  /-- the run's number on its actuator -/
  no : Nat := 0
  head : Nat := 0
  track : Nat := 0
  first : Nat := 0
  count : Nat := 0
  lba : Word := 0#64
  base : Nat := 0
  stride : Nat := 0
  /-- the zone as it stood at acceptance: code, slots per track, group (R143) -/
  code : Nat := 0
  spt : Nat := 0
  slot0 : Nat := 0
  group : Nat := 0
  /-- sync marks A and B as they stood at acceptance (R150) -/
  marks : Word := 0#64
  /-- sectors being fetched, and sectors staged (at most two, R149) -/
  fetching : List Nat := []
  staged : List Staged := []
  /-- the write-mode frame has ended -/
  frameDone : Bool := false
  /-- WG has risen: STATE is WRITING -/
  writing : Bool := false
  /-- WG is low between the track's last slot and slot 0 (R145) -/
  pad : Bool := false
  /-- some of the current sector's slot has been written -/
  inSector : Bool := false
  /-- the run ends with this status after the sector being written (R149, R157) -/
  ending : Option Nat := none
  /-- the first sector whose fetch returned a bus error (R149) -/
  bad : Option Nat := none
deriving DecidableEq, Repr

/-- WRP's state for one actuator. -/
structure WrpAct where
  run : Option WrRun := none
  heat : HeatMode := .off
  heatHead : Nat := 0
  heatCode : Nat := 0
  assistCode : Nat := 0
  /-- read-mode frames that wait for the port, oldest first: after a write run its parameter group and head, after a head
  switch neither (R153, R154) -/
  readFrames : List (Option (Nat × Nat)) := []
  /-- a write-mode frame waits for the port -/
  writeFrame : Bool := false
  /-- the last track carried with TRK_VALID = 1 since the actuator last loaded (R153) -/
  lastTrack : Option Nat := none
  /-- PREHEAT has passed since the read-mode frame that ended WRITE mode: reads may open the gate (R154) -/
  readReady : Bool := true
  /-- write runs accepted -/
  runs : Nat := 0
  /-- what the WD pair carried for the last sector written in full: the slot's bits (R150), and each transition's bit and its
  time in 1/64 bit from the slot's start, precompensated (R152) -/
  line : List Bool := []
  edges : List (Nat × Int) := []
  /-- where each written bit begins against tone A: 48 θ + WR_OFFSET/64, in 2^−20 bit, at the gate's rise (R151) -/
  bitPhase : Nat := 0
deriving DecidableEq, Repr

/-! ### SVG and CTE: selvage servo and the control engine (chapter 06) -/

/-- One SVG channel beside its registers (R175 to R184). -/
structure Svg where
  /-- the carried track and its flags, sample by sample; SVG_TRK_a is the snapshot -/
  track : Nat := 0
  trkValid : Bool := false
  idConf : Bool := false
  angle : Nat := 0
  angValid : Bool := false
  /-- the Costas loop's polarity, resolved by the first accepted frame (R176) -/
  inverted : Bool := false
  /-- tone-A cycles counted in all; the count at the last crossing and at the last sample that was not LIN (R180) -/
  cycles : Nat := 0
  crossAt : Option Nat := none
  outAt : Option Nat := none
  /-- changes of the carried track within a frame's length, the newest first: the count at each and the track before it
  (R181) -/
  moves : List (Nat × Nat) := []
  /-- the track a disagreeing still frame decoded, if the last accepted still frame disagreed (R181) -/
  lastBad : Option Nat := none
  /-- the last frame checked had the wrong SURFACE (R180) -/
  surfBad : Bool := false
  /-- sample strobes since the last accepted frame, saturating at 255 × 64 (R183, R214) -/
  age : Nat := 16320
  /-- the head whose selvage reader the channel takes (R184) -/
  head : Nat := 0
  /-- samples since the last snapshot -/
  count : Nat := 0
deriving DecidableEq, Repr

/-- One demodulated sample with its flags (R177, R178). -/
structure Sample where
  pes : Int := 0
  sum : Nat := 0
  clip : Bool := false
  low : Bool := false
  unlock : Bool := false
  lin : Bool := false
deriving DecidableEq, Repr

/-- A condition of Table 6.6 that has been met and waits for the law boundary (R193). -/
inductive CteDue where
  | stripe | loadTmo | acqTmo | settleTmo | holdTmo
deriving DecidableEq, Repr

/-- Who asked for a seek (R194). -/
inductive SeekWho where
  | media (o : OpRef)
  | firmware
deriving DecidableEq, Repr

/-- A seek waiting for a law boundary, or in progress. -/
structure SeekReq where
  who : SeekWho := .firmware
  track : Nat := 0
  offset : Int := 0
deriving DecidableEq, Repr

/-- A command of CTE_CMD_a (R217). -/
inductive CteCmd where
  | load | park | resume
deriving DecidableEq, Repr

/-- One actuator context of CTE beside its registers (R185 to R209). -/
structure Cte where
  /-- observer state, eight Q1.31 values; law outputs -/
  xh : List Int := []
  uv : Int := 0
  um : Int := 0
  /-- notch states x1, x2, y1, y2 by section: cascade V 0 to 7, cascade M 8 to 15 -/
  notch : List (Nat × List Int) := []
  /-- reference position in 2^−27 track and its speed, Q1.31 (R196) -/
  rp : Int := 0
  rv : Int := 0
  /-- the target track and offset of Y_ref, and the external set-point's part (R205) -/
  track : Nat := 0
  offset : Int := 0
  ext : Int := 0
  /-- the last sample's error against Y_ref, if it was LIN -/
  err : Option Int := none
  /-- position of the last LIN sample, 2^−14 track -/
  pos : Int := 0
  /-- the coefficient set of the present state at the present tick; 8: none -/
  active : Nat := 8
  /-- seeks waiting at the media port, firmware's seek and command waiting, and the arbiter's pointer (R194) -/
  mediaReq : List SeekReq := []
  fwReq : Option SeekReq := none
  cmdReq : Option CteCmd := none
  ptr : Nat := 0
  /-- the seek and the command in progress -/
  seek : Option SeekReq := none
  cmd : Option CteCmd := none
  /-- an unload is asked for by PARK or by SPN (R194) -/
  unload : Bool := false
  /-- UNLOADING: 0 park seek, 1 unload drive, 2 hold (R207) -/
  phase : Nat := 0
  /-- HDL has reported a head switch done (R200) -/
  switched : Bool := false
  /-- the carried track has slipped (R201) -/
  slipped : Bool := false
  /-- HOLD follows at the next law boundary, with this cause (R202, R203) -/
  hold : Option Nat := none
  /-- a stripe found or a time elapsed in the present state, for the next law boundary (R193) -/
  due : Option CteDue := none
  /-- samples since the law tick, and the fourth, whose update is the tick's own (R185, R188); the inner none is a sample the
  channel did not produce -/
  nth : Nat := 0
  held : Option (Option Sample) := none
  /-- registers written since the last law boundary, by key, with the value still in force (R192) -/
  late : List (Nat × Word) := []
  settleRun : Nat := 0
  cleanRun : Nat := 0
  coastRun : Nat := 0
  sumRun : Nat := 0
  /-- DAC codes last sent (R189) -/
  vcm : Int := 0
  mact : Int := 0
deriving DecidableEq, Repr


/-! ### SPN and PWS: spindle and power stage (chapter 07) -/

/-- What the spindle bridge does (R229, R237, R246, R249, R256). -/
inductive Bridge where
  | highZ | shortBrake | align | ramp | drive | regen | rectify | passive
deriving DecidableEq, Repr

/-- SPN and PWS beside their registers (R226 to R268). -/
structure Spn where
  bridge : Bridge := .highZ
  /-- the set speed in effect, 0.01 rpm, and whether an accepted one waits for a commutation boundary (R228) -/
  set : Nat := 720000
  setWaits : Bool := false
  /-- the window and observer parameters in effect: SPN_WIN_CTL as last taken at a boundary (R229) -/
  win : Option Word := none
  /-- the pending commands (R240) -/
  start : Bool := false
  stop : Bool := false
  /-- UNLOAD_WAIT was reached by LOS; a STOP has been accepted since it was reached (Table 7.1) -/
  byLos : Bool := false
  stopSeen : Bool := false
  /-- CATCH was entered after a LOS -/
  catchLos : Bool := false
  /-- RUN has been reached since START was accepted (R262) -/
  reached : Bool := false
  /-- RECTIFY was entered by VM_LOW -/
  vmCause : Bool := false
  /-- electrical angle at the last crossing event, 2^−16 cycle, the cycle count modulo 4 (R244), and the 2 µs frames
  since that event -/
  theta : Nat := 0
  cycle : Nat := 0
  frames : Nat := 0
  /-- the interval before the last crossing, 2.5 ns units; 0: none -/
  last : Nat := 0
  /-- time since RAMP began, 2.5 ns units -/
  rampT : Nat := 0
  /-- consecutive crossings out of tolerance (R234), and valid ones (Table 7.1) -/
  wide : Nat := 0
  valid : Nat := 0
  /-- the revolution being averaged: crossings and time; revolutions within ±0.01% and outside ±0.05% (R239) -/
  revN : Nat := 0
  revT : Nat := 0
  good : Nat := 0
  bad : Nat := 0
  /-- φ_ref in units of 1 / (3 · 10^9 · 2^20 · 10^6) revolution, and the reference speed's deviation from the set speed
  in units of 1 / (2^20 · 10^6) (R243, R245) -/
  phiRef : Nat := 0
  refDev : Int := 0
  /-- the angular index has been aligned since START (R244) -/
  aligned : Bool := false
  /-- an edge has been accepted since EN was set or FREE was entered; edges outside 1.0° in a row (R245) -/
  edge : Bool := false
  edgeBad : Nat := 0
  /-- the set speed of the accepted HOLDUP measurement (R258) -/
  huSet : Nat := 0
  /-- the modulation depth in force, Q1.15, and the phases' PWM duties in 2^−16, none while one floats, as of the last frame in
  which the bridge drives (R229, R230) -/
  depth : Int := 0
  legs : List (Option Nat) := []
  /-- the power die's autonomous retract runs: none, or by its cause (R21, R249) -/
  retract : Option Nat := none
deriving DecidableEq, Repr

/-! ### SHT and LOOM: Shuttle sequencers, deques and barriers (chapter 08) -/

/-- The states of a Shuttle, in SHT_STAT_s.STATE's order (R274). -/
inductive ShState where
  | off | idle | run | stall | wait | trapped
deriving DecidableEq, Repr

/-- The media operations (R286). -/
inductive MediaKind where
  | seek | rdrun | wrrun | verify
deriving DecidableEq, Repr

/-- Where an issued media operation stands (R286, R287). -/
inductive MediaPhase where
  /-- waits for the head switch its SEEK asked for -/
  | headSwitch
  /-- waits for a free run context -/
  | runContext
  /-- handed to its unit -/
  | issued
  /-- the unit has answered: status, sectors done, last sector cut -/
  | done (status sectors : Nat) (cut : Bool)
deriving DecidableEq, Repr

/-- Who owns a tag: the running task, or the frame its task yielded into (R283). -/
inductive TagOwner where
  | running
  | frame (f : Nat)
  | nobody
deriving DecidableEq, Repr

/-- A media operation in progress under a tag (R282, R283). -/
structure MediaOp where
  kind : MediaKind := .seek
  act : Nat := 0
  /-- address of its descriptor in local store -/
  desc : Nat := 0
  owner : TagOwner := .running
  /-- the destination register of a synchronous operation -/
  rd : Nat := 0
  phase : MediaPhase := .issued
  ctx : Option Nat := none
  /-- ended by its TIMEOUT: STATUS is overwritten (R287) -/
  timedOut : Bool := false
  /-- its TIMEOUT field, 0: none -/
  timeout : Nat := 0
  /-- a SEEK's target -/
  track : Nat := 0
  offset : Int := 0
  /-- words 0 to 5 of its descriptor, as read at issue (R282) -/
  words : List Word := []
deriving DecidableEq, Repr

/-- A saved frame of a yielded task; its 256 bytes lie in local store (R305). -/
structure Frame where
  f : Nat := 0
  /-- the result when it became ready: 0, WAIT_TMO or TAG_INVALID -/
  ready : Option Nat := none
  /-- the task word under which its task started (R310) -/
  task : Word := 0#64
  /-- the register YIELD names for the result -/
  rd : Nat := 0
deriving DecidableEq, Repr

/-- An event of R298 with its timeout, in µs; 0: none. -/
structure Event where
  kind : Nat := 0
  sel : Nat := 0
  timeout : Nat := 0
deriving DecidableEq, Repr

/-- One Shuttle (R269 to R274). -/
structure Shuttle where
  st : ShState := .off
  /-- w1 to w15; w0 reads zero and is never stored (R272) -/
  w : List (Nat × Word) := []
  ls : Nat := 0
  pc : Nat := 0
  task : Word := 0#64
  /-- local store bytes that are not zero (R270) -/
  store : List (Nat × Byte) := []
  /-- media operations by tag; tag 8 is the synchronous one (R283) -/
  tags : List (Nat × Option MediaOp) := []
  /-- frames in use, oldest saved first (R305) -/
  frames : List Frame := []
  /-- the WAIT in progress: its event and destination -/
  waiting : Option (Event × Nat) := none
  /-- the barrier it has arrived at and the destination register (R308) -/
  barrier : Option (Nat × Nat) := none
  /-- the thief's pointer over engine indices (R302) -/
  ptr : Nat := 0
deriving DecidableEq, Repr

/-- A barrier's arrivals in the current generation: engine index and contribution (R308). -/
structure Barrier where
  arrived : List (Nat × Word) := []
deriving DecidableEq, Repr

/-- LOOM (R300, R308): a deque's list runs from its top, the oldest task, to its bottom. -/
structure Loom where
  deques : List (Nat × List Word) := []
  inject : List Word := []
  barriers : List (Nat × Barrier) := []
  /-- the cores' round-robin pointers over engine indices, as thieves (R302) -/
  ptrs : List (Nat × Nat) := []
deriving DecidableEq, Repr

/-- The code copy of SHT_LOAD in progress (R324). -/
structure CodeLoad where
  src : Nat := 0
  lines : Nat := 0
  mask : Nat := 0
deriving DecidableEq, Repr

/-- The patch RAMs: valid words only (R312, R318). -/
structure PatchRam where
  micro : List (Nat × BitVec 20) := []
  nano : List (Nat × BitVec 144) := []
deriving DecidableEq, Repr

/-! ### GLY and HFE: host commands and ports (chapters 09 and 10) -/

/-- A queue context (R328, Table 9.1). -/
structure QCtx where
  sqTail : Nat := 0
  sqHead : Nat := 0
  cqTail : Nat := 0
  cqHead : Nat := 0
  cqIndex : Nat := 0
  sqEn : Bool := false
  cqEn : Bool := false
  phase : Bool := false
  prio : Nat := 0
  ien : Bool := false
  iv : Nat := 0
  fetchErr : Bool := false
  inflight : Nat := 0
deriving DecidableEq, Repr

/-- The states of a slot, in STATE's encoding (R336). -/
inductive SlotState where
  | free | accepted | waitOrder | waitBudget | dataIn | dispatched | gated | orphan
deriving DecidableEq, Repr

/-- What a completion tells the host: the rows of Table 10.6, and the outcomes the spec gives by name. -/
inductive HostStatus where
  | success
  | unrecovered
  | noSpare
  | guardCheck
  | appTagCheck
  | refTagCheck
  | compareFailure
  | notReady
  | hdaBlocked
  | transferError
  | interrupted
  | zoneInvalid
  | absentUnit
  | abortRequested
  | otherFailure
  /-- Command Aborted due to Missing Fused Command (R332) -/
  | missingFused
  /-- Command Aborted due to Failed Fused Command (R352) -/
  | failedFused
  /-- Invalid Command Opcode (R385) -/
  | invalidOpcode
  /-- Invalid Field in Command (R385, R386) -/
  | invalidField
  /-- the refusal status of a zone that takes no writes (R354) -/
  | zoneRefuse (code : Nat)
  /-- OVERLAPPED COMMANDS ATTEMPTED (R333) -/
  | overlapped
  /-- Access Denied or DATA PROTECT: a locked range (R584) -/
  | accessDenied
  /-- more than one locking range (R584) -/
  | manyRanges
  /-- status BUSY (R607) -/
  | busy
  /-- NOT READY in the safe state (Table 10.6) -/
  | safeState
deriving DecidableEq, Repr

/-- A slot (R335, Table 9.2), with what Galley knows of its command besides. -/
structure Slot where
  st : SlotState := .free
  cmd : List Word := []
  asn : Nat := 0
  queue : Nat := 0
  cid : Nat := 0
  ctrl : Nat := 0
  attr : Nat := 0
  fuse : Nat := 0
  okind : Nat := 0
  tAcc : Nat := 0
  nsid : Nat := 0
  nlb : Nat := 0
  slba : Nat := 0
  holds : Nat := 0
  outcome : Option Word := none
  abortReq : Bool := false
  landed : Bool := false
  durable : Bool := false
  descOut : Nat := 0
  rsv : Nat := 0
  result : Word := 0#64
  cls : CmdClass := .admin
  fua : Bool := false
  /-- bytes of the command's data -/
  bytes : Nat := 0
  /-- an outcome the host is told in place of the outcome word's -/
  special : Option HostStatus := none
  /-- the failing STATUS of a descriptor that named the slot (R338) -/
  descFail : Option Nat := none
  /-- a HEAD OF QUEUE command: the ASNs of the dormant commands it goes before (R351) -/
  ahead : List Nat := []
  /-- a flush: the posting sequence at its fetch (R348) -/
  fetchSeq : Nat := 0
  /-- a zone write or append: its zone's entry and its place taken (R353) -/
  zone : Option Nat := none
  /-- the slot of the other half of a fused pair (R352) -/
  pair : Option Nat := none
  /-- a write: blocks landed, and the part in transfer with its buffer address and its charge in 4 KiB units (R357) -/
  done : Nat := 0
  part : Nat := 0
  addr : Nat := 0
  charge : Nat := 0
  /-- the charge is against the protected budget -/
  budgeted : Bool := false
  /-- its host transfer runs -/
  moving : Bool := false
  /-- an admin command of the management sideband (R396) -/
  sideband : Bool := false
  /-- a flush that R348 did not already satisfy at its acceptance (R364) -/
  flushWork : Bool := false
  /-- the ranges, first block and count, that the command deallocates or sanitises (R165) -/
  freed : List (Nat × Nat) := []
  /-- the LBA format of its namespace (Table 10.4) -/
  lbaf : Nat := 0
  /-- its protection information is generated on a write and stripped on a read (R388) -/
  pract : Bool := false
  /-- the keys it began with (R584): of entry 0, and of each locking range of its namespace by first block and length -/
  key0 : Option Nat := none
  keys : List ((Nat × Nat) × Option Nat) := []
deriving DecidableEq, Repr

/-- One block's version in the write buffer (R343, R344). -/
structure Version where
  nsid : Nat := 0
  lba : Nat := 0
  asn : Nat := 0
  addr : Nat := 0
  /-- bytes of the block as stored -/
  size : Nat := 0
  /-- bytes charged to the budget (R357) -/
  charge : Nat := 0
  budgeted : Bool := false
  durable : Bool := false
  /-- marked as being destaged (R345) -/
  destaging : Bool := false
  /-- its destage is confirmed: clean cached data -/
  clean : Bool := false
  /-- removed from lookup, its data not yet released (R344) -/
  retired : Bool := false
  /-- pinned: out of lookup, its data never evicted (R163 to R165) -/
  pinned : Bool := false
  /-- the posting sequence of its write, posted while not durable (R349) -/
  posted : Option Nat := none
deriving DecidableEq, Repr

/-- An entry read from host memory and not yet accepted (R332). -/
structure Fetched where
  queue : Nat := 0
  ctrl : Nat := 0
  cmd : List Word := []
  /-- entries by which SQ_HEAD advances when this one has been accepted -/
  advance : Nat := 0
  /-- a first half fetched alone -/
  alone : Bool := false
  fetchSeq : Nat := 0
  sideband : Bool := false
deriving DecidableEq, Repr

/-- A work item that waits for its target deque (R337). -/
structure WorkItem where
  asn : Nat := 0
  engine : Nat := 0
  word : Word := 0#64
deriving DecidableEq, Repr

/-- A task management function whose answer waits for its targets (R361), by slot and ASN. -/
structure TaskMgmt where
  port : Nat := 0
  nexus : Nat := 0
  targets : List (Nat × Nat) := []
deriving DecidableEq, Repr

/-- What the module sends to the host: the model's own record of it, newest last. -/
inductive HostOut where
  /-- an NVMe completion entry: completion context, dwords 0 and 1, the submission head and identifier, the command
  identifier, the phase and the status -/
  | cqe (ctrl cq : Nat) (result : Word) (sqHead sq cid : Nat) (phase : Bool) (st : HostStatus)
  | interrupt (ctrl iv : Nat)
  /-- a SAS response -/
  | response (port nexus tag : Nat) (st : HostStatus)
  /-- a failing block's index, in the NVMe Error Information log entry and in the SAS sense INFORMATION field (R339) -/
  | errorEntry (ctrl sq cid block : Nat)
  | senseInfo (port nexus tag block : Nat)
  | functionComplete (port nexus : Nat)
  /-- read data Galley serves, as the buffer stores it -/
  | readData (slot asn : Nat) (data : List Byte)
  /-- a beat a Bobbin channel writes to host space -/
  | beat (fn addr : Nat) (data : List Byte)
  /-- an asynchronous event: Namespace Attribute Changed (R384) -/
  | namespaceChanged (ctrl : Nat)
  /-- an asynchronous event: the SMART critical warning for temperature (R397) -/
  | temperature (ctrl : Nat)
  /-- the completion of a sideband admin command (R396) -/
  | sideband (result : Word) (st : HostStatus)
deriving DecidableEq, Repr

/-- GLY beside its registers. -/
structure Gly where
  ctx : List (Nat × QCtx) := []
  slots : List (Nat × Slot) := []
  index : List Version := []
  fetched : List Fetched := []
  /-- queues whose head is a first half that waits for its second (R332) -/
  fusedWait : List Nat := []
  /-- the slot of an accepted first half whose second half is the next command -/
  pairOpen : Option Nat := none
  /-- arbitration: the controller pointer, and by controller × 8 + level the pointers and credits (R331) -/
  ptr : Nat := 0
  ptrs : List (Nat × Nat) := []
  credits : List (Nat × Nat) := []
  items : List WorkItem := []
  tasks : List TaskMgmt := []
  postSeq : Nat := 0
  /-- the slots that may be posted, with their ASNs, in the order in which they came to (R356) -/
  order : List (Nat × Nat) := []
  /-- crystal periods at GLY_DRAIN.GO -/
  drainAt : Nat := 0
deriving DecidableEq, Repr

/-- HFE beside its registers: per controller CC.EN and whether CSTS.RDY has risen since the chip reset, and what has been
sent to the host. -/
structure Hfe where
  ccEn : List (Nat × Bool) := []
  rdy : List (Nat × Bool) := []
  idLocked : Bool := false
  /-- CSTS.CFS (R544) -/
  cfs : Bool := false
  out : List HostOut := []
deriving DecidableEq, Repr

/-! ### MGT: the management sideband (chapter 10) -/

/-- What the sideband answers: the model's own record of it. -/
inductive SideOut where
  /-- the address is not acknowledged -/
  | nak
  /-- a packet of a message still to be completed, acknowledged -/
  | taken
  | control
  | unsupported
  | structures
  | done
  /-- the Basic Management Command: the composite in K and whether the drive is functional (R397, R545) -/
  | basic (kelvin : Nat) (functional : Bool)
  /-- life percentages, with the health detail or without (R398) -/
  | health (detail : Bool)
  /-- an admin command handed to Galley (R396) -/
  | queued
  /-- PLDM RequestUpdate accepted, or ALREADY_IN_UPDATE_MODE (R577) -/
  | updateMode (accepted : Bool)
  | records (l : List (List Byte))
  /-- an answer of the provisioning responder: a status of Table 16.8 and data (R571) -/
  | provision (status : Nat) (data : List Word)
deriving DecidableEq, Repr

/-- MGT beside its registers. -/
structure Mgt where
  /-- packets of an MCTP message not yet whole -/
  parts : Nat := 0
  /-- SPDM sessions over MCTP, and whether their requester is privileged (R394) -/
  sessions : List (Nat × Bool) := []
  /-- a PLDM firmware update is under way -/
  updating : Bool := false
  /-- the SMART critical warning for temperature (R397) -/
  warning : Bool := false
  /-- temperature samples of the present minute (R505) -/
  samples : Nat := 0
  /-- what the module has answered, newest last -/
  out : List SideOut := []
deriving DecidableEq, Repr

/-! ### BFM and SYC: memory, cache and protection (chapter 11) -/

/-- A line of the system cache (R420, R421): its line number, 64 bytes, and the words of it that hold an uncorrectable
error, as a mask of eight. -/
structure CacheLine where
  line : Nat := 0
  data : List Byte := []
  dirty : Bool := false
  ref : Bool := false
  bad : Nat := 0
  /-- the words whose stored copy holds a correctable error, as a mask of eight -/
  soft : Nat := 0
deriving DecidableEq, Repr

/-- A range operation in progress (R428): its counts and whether a memory error was met. -/
structure RangeRun where
  written : Nat := 0
  skipped : Nat := 0
  errors : Nat := 0
deriving DecidableEq, Repr

/-- SYC beside its registers (R420 to R431). -/
structure Syc where
  /-- lines by 16 × set + way -/
  lines : List (Nat × Option CacheLine) := []
  /-- the eviction buffer, oldest entry first, at most 32 (R431) -/
  evb : List CacheLine := []
  /-- stream trackers: last line stored and count, by Bobbin channel, else 64 + requester (R423) -/
  streams : List (Nat × (Nat × Nat)) := []
  range : Option RangeRun := none
  /-- stores passed by the streaming detector below a whole unit of 2^16 -/
  streamed : Nat := 0
deriving DecidableEq, Repr

/-- BFM beside its registers (R404 to R419). -/
structure Bfm where
  /-- poisoned DRAM lines, by line number (R415) -/
  poison : List (Nat × Bool) := []
  /-- words of DRAM and of the scratch window, by address, that hold an uncorrectable error -/
  bad : List (Nat × Bool) := []
  /-- words of DRAM and of the scratch window, by address, whose stored copy holds a correctable error (R413) -/
  soft : List (Nat × Bool) := []
  /-- the line buffers of the DRAM port (R412): the Bobbin reads, by channel and beat, and the writes, by channel and
  address, that hold one until their response -/
  readBufs : List (Nat × Nat) := []
  writeBufs : List (Nat × Nat) := []
  /-- corrected errors of the present lap (R417), and crystal periods at its start (R419) -/
  lapCe : Nat := 0
  lapAt : Nat := 0
deriving DecidableEq, Repr

/-- A line of a cluster L2 (R433). -/
structure L2Line where
  data : List Byte := []
  dirty : Bool := false
  /-- the words that hold an uncorrectable error, as a mask of eight (R513) -/
  bad : Nat := 0
deriving DecidableEq, Repr

/-! ### DMA and SPL: Bobbin channels and Spools (chapter 12) -/

/-- A Bobbin descriptor as its channel runs it (R442). -/
structure DmaDesc where
  src : Nat := 0
  dst : Nat := 0
  count : Nat := 0
  srcHost : Bool := false
  dstHost : Bool := false
  fn : Nat := 0
  coh : Bool := false
  landed : Bool := false
  irq : Bool := false
  /-- the slot it names and the slot's ASN -/
  slot : Option (Nat × Nat) := none
  /-- its ring index -/
  ring : Nat := 0
deriving DecidableEq, Repr

/-- The writes of a descriptor that has posted DONE, still to be answered (R450, R451): destination addresses with the
answers that device space has already given. -/
structure DmaTail where
  ring : Nat := 0
  slot : Option (Nat × Nat) := none
  writes : List (Nat × Bool) := []
  late : Bool := false
deriving DecidableEq, Repr

/-- A Bobbin channel beside its registers: beats are numbered from the descriptor's first. -/
structure Chan where
  desc : Option DmaDesc := none
  nextRead : Nat := 0
  nextWrite : Nat := 0
  /-- outstanding reads: the beat, and its data where device space has given it; none: a bus error, or host space -/
  reads : List (Nat × Option (List Byte)) := []
  /-- data held, by beat -/
  buf : List (Nat × List Byte) := []
  /-- outstanding writes: the beat, its address, and whether device space has accepted it -/
  writes : List (Nat × (Nat × Bool)) := []
  tails : List DmaTail := []
  /-- the lowest failing beat and its STATUS (R452) -/
  fail : Option (Nat × Nat) := none
  /-- it is to complete STOPPED or RESET (R455) -/
  stop : Option Nat := none
  /-- halted by a check at fetch: no data has moved (R443) -/
  unfetched : Bool := false
deriving DecidableEq, Repr

/-- A firmware Spool beside its registers (R456 to R464): words with LAST and POISON, oldest first. -/
structure Spool where
  words : List (Word × (Bool × Bool)) := []
  /-- data of the last word read, and whether it was LAST or nothing has been read -/
  last : Word := 0#64
  atEnd : Bool := true
  dropping : Bool := false
  /-- the engine index of the producer whose packet is open -/
  owner : Option Nat := none
  /-- a closing word waits for space -/
  closing : Bool := false
deriving DecidableEq, Repr

/-! ### FLT: the flash tier (chapter 13) -/

/-- A copy of a TLP in a stripe: its die, data and tag, and whether it reads UE (R477). -/
structure TlpCopy where
  tlp : Nat := 0
  die : Nat := 0
  data : List Byte := []
  tag : List Byte := []
  ue : Bool := false
deriving DecidableEq, Repr

/-- A stripe (R478, R479): its die group, its mode, whether every position is programmed and verified, the copies it holds,
and for a destination of folding or garbage collection the stripes it copies (R486). -/
structure Stripe where
  group : Nat := 0
  slc : Bool := true
  closed : Bool := false
  copies : List TlpCopy := []
  srcs : List Nat := []
deriving DecidableEq, Repr

/-- A tier command in flight (R474): its words, and its end when reached: STATUS and DONE. -/
structure TierCmd where
  /-- ring index -/
  idx : Nat := 0
  op : Nat := 0
  flags : Nat := 0
  count : Nat := 0
  tlp : Nat := 0
  buf : Nat := 0
  tagbuf : Nat := 0
  /-- a WRITE: the stripe its TLPs went to -/
  stripe : Nat := 0
  fin : Option (Nat × Nat) := none
deriving DecidableEq, Repr

/-- A NAND operation that waits for its channel, or runs on its die (R472): its class, its die and what it is, 0 read, 1
program, 2 erase. -/
structure NandWork where
  cls : Nat := 0
  die : Nat := 0
  op : Nat := 0
  running : Bool := false
  /-- an erase that a read suspended -/
  suspended : Bool := false
deriving DecidableEq, Repr

/-- The flush image (R496): the image of each occupied slot, the durable versions with their data, and whether the commit
record is written. -/
structure FlushImage where
  slots : List (Nat × List Word) := []
  versions : List (Version × List Byte) := []
  pc : Nat := 0
  committed : Bool := false
  /-- the EVR power-loss record that the commit record carries -/
  power : List Word := []
deriving DecidableEq, Repr

/-- FLT beside its registers. What the NAND holds survives power and chip resets. -/
structure Flt where
  formatted : Bool := false
  /-- the retired mark of the root -/
  retiredMark : Bool := false
  /-- the dies FORMAT took, and the dies lost since -/
  dies : List Nat := []
  lostDies : List Nat := []
  usable : Nat := 0
  width : Nat := 0
  logical : Nat := 0
  nTotal : Nat := 0
  spare : Nat := 0
  spareInit : Nat := 0
  /-- retired blocks by die × 2^16 + block (R490) -/
  retired : List (Nat × Bool) := []
  /-- wear by die × 2^16 + block, 1/16 cycle (R499) -/
  wear : List (Nat × Nat) := []
  /-- erases by block, as wear (R485) -/
  erases : List (Nat × Nat) := []
  program : Nat := 0
  erase : Nat := 0
  verify : Nat := 0
  rebuild : Nat := 0
  lost : Nat := 0
  stripes : List (Nat × Option Stripe) := []
  /-- the stripe that holds each mapped TLP -/
  map : List (Nat × Option Nat) := []
  pinned : List (Nat × Bool) := []
  /-- NAND operations, oldest first, and the pointers of each channel's classes by 8 × channel + class (R472) -/
  work : List NandWork := []
  classPtr : List (Nat × Nat) := []
  image : Option FlushImage := none
  /-- the flush reserve and the retirement reserve are erased (R495) -/
  erased : Bool := false
  /-- commands in flight, in the order of their fetch, at most 64 -/
  cmds : List TierCmd := []
  nextFetch : Nat := 0
  /-- times of the last 1,024 SLC programs on dies of the flush stripes, newest first, µs (R497) -/
  progs : List Nat := []
  /-- t_prog behind the reported rate -/
  rateProg : Nat := 0
  /-- WRITE data admitted while CONSTRAINED: drive time in ms and bytes (R492) -/
  admitted : List (Nat × Nat) := []
deriving DecidableEq, Repr

/-! ### SVC and OFL: service cores, semaphores and offload engines (chapter 14) -/

/-- A hardware semaphore (R514): the engine index of its owner, none when free, and its ORPHANED mark (R515). -/
structure Sem where
  owner : Option Nat := none
  orphaned : Bool := false
deriving DecidableEq, Repr

/-- SVC beside its registers. -/
structure Svc where
  sems : List (Nat × Sem) := []
  /-- cores whose timer interrupt input is asserted (R516) -/
  timer : List (Nat × Bool) := []
deriving DecidableEq, Repr

/-- The Weave command that runs (R521): its words, the lines done, and its end when reached: STATUS and OFFSET. -/
structure WeaveRun where
  words : List Word := []
  lines : Nat := 0
  fin : Option (Nat × Nat) := none
deriving DecidableEq, Repr

/-- A term of a Carder filter (R526): its three words. -/
structure Term where
  ctl : Word := 0#64
  value : Word := 0#64
  mask : Word := 0#64
deriving DecidableEq, Repr

/-- The Carder command that runs (R526, R527): its words, its terms, what it has consumed, produced and matched, and its
STATUS when it has ended. -/
structure CarderRun where
  words : List Word := []
  terms : List Term := []
  consumed : Nat := 0
  produced : Nat := 0
  found : Nat := 0
  fin : Option Nat := none
deriving DecidableEq, Repr

/-- OFL beside its registers. -/
structure Ofl where
  weave : Option WeaveRun := none
  carder : Option CarderRun := none
deriving DecidableEq, Repr

/-! ### FCL and EVR: faults and the event history (chapter 15) -/

/-- FCL's state beside its registers: messages waiting by the block's arbitration number (R539), the messages whose
fatal lines are driven, the arbiter's pointer, the notices forwarded to the host (R536), and the cores that hold an
NMI not yet taken (R541). -/
structure Fcl where
  waiting : List (Nat × List Word) := []
  fatal : List Word := []
  ptr : Nat := 0
  notices : List Nat := []
  nmi : List Nat := []
  /-- drive time at which the safe state was entered -/
  safeAt : Nat := 0
deriving DecidableEq, Repr

/-- An event record before it has its sequence number (R549, Table 15.5). -/
structure EvRec where
  code : Nat := 0
  sev : Nat := 0
  priv : Bool := false
  source : Nat := 0
  pcycle : Nat := 0
  time : Nat := 0
  suppressed : Nat := 0
  tag : Nat := 0
  p1 : Word := 0#64
  p2 : Word := 0#64
  p3 : Word := 0#64
  p4 : Word := 0#64
deriving DecidableEq, Repr

/-- A slot of the log memory as EVR knows it: the record's severity and sequence number (R553). -/
structure LogSlot where
  sev : Nat := 0
  seq : Nat := 0
  code : Nat := 0
deriving DecidableEq, Repr

/-- A dirty page of the log memory in MODE 0 (R554). -/
structure DirtyPage where
  page : Nat := 0
  /-- drive time of its first change -/
  since : Nat := 0
  urgent : Bool := false
  writing : Bool := false
  /-- changed again while being written -/
  again : Bool := false
  failed : Option Nat := none
  /-- the page as its write took it -/
  image : List Byte := []
deriving DecidableEq, Repr

/-- EVR's state beside its registers (R549 to R556). -/
structure Evr where
  /-- the ring, oldest record first, at most 1,024 -/
  ring : List EvRec := []
  /-- the log memory's used slots -/
  log : List (Nat × Option LogSlot) := []
  dirty : List DirtyPage := []
  /-- the log area of the tier's root area, by page: it keeps its pages through resets (R554) -/
  area : List (Nat × List Byte) := []
  /-- suppressed counts by code (R552) -/
  suppressed : List (Nat × Nat) := []
  /-- a persistence failure run is on (R554) -/
  failing : Bool := false
  /-- loading has started since the last chip reset (R556) -/
  started : Bool := false
deriving DecidableEq, Repr

/-! ### SEC: security, life cycle and firmware update (chapter 16) -/

/-- The OTP (R567): it keeps its content through every reset. -/
structure Otp where
  serial : Option Nat := none
  secret : Option Nat := none
  patchKey : Option Nat := none
  /-- ROOT_HASH_j, by j -/
  roots : List (Nat × Option Nat) := []
  /-- bit j: ROOT_HASH_j revoked -/
  revoke : Nat := 0
  hdaRoot : Option Nat := none
  adminRoot : Option Nat := none
  /-- thermometers -/
  svn : Nat := 0
  epoch : Nat := 0
  /-- LC_LOG entries written, oldest first; the code in [3:0], its complement in [7:4] -/
  log : List Nat := []
  /-- fields with an uncorrectable word, as the last read found them (R568) -/
  damaged : List OtpField := []
deriving DecidableEq, Repr

/-- A folio of the staging area (R575): its received 4-byte words as a mask of 1,024 bits, and whether it is GOOD. -/
structure Folio where
  mask : Nat := 0
  good : Bool := false
deriving DecidableEq, Repr

/-- Where the boot ROM stands (R569). -/
inductive BootPhase where
  | waitOtp | provisioning | loading | running | dead
deriving DecidableEq, Repr

/-- A key blob of the NOR key store (R585): the key, and what its key-encryption key was derived from. -/
structure Blob where
  key : Nat := 0
  secret : Nat := 0
  epoch : Nat := 0
  cred : List Word := []
deriving DecidableEq, Repr

/-- SEC beside its registers (R567 to R597). -/
structure Sec where
  otp : Otp := {}
  /-- the identity hash of the HDA paired (R53) -/
  pairing : Option Nat := none
  boot : BootPhase := .waitOtp
  folios : List (Nat × Folio) := []
  /-- T of a GOOD header (Table 16.3); 0 before -/
  tables : Nat := 0
  /-- the image of a commit that has been verified and is being programmed (R576) -/
  commit : Option (List Byte) := none
  /-- drive time of the owner's last command (R574) -/
  ownerAt : Nat := 0
  /-- the slot in the NOR: its image, the trial mark and the failure mark (R576, R579); none: blank or damaged -/
  slot : Option (List Byte) := none
  trialMark : Bool := false
  failMark : Bool := false
  /-- the NOR last-records area (R581) and the key store by slot (R585) -/
  lastRecords : List (List Byte) := []
  blobs : List (Nat × Option Blob) := []
  /-- times the NOR has been programmed or erased: its layout is not given (`Config.norByte`) -/
  norGen : Nat := 0
  /-- key slots (R585) -/
  keys : List (Nat × Option Nat) := []
  /-- the first 80 bytes of the header of the image that runs (Table 16.2) -/
  header : List Byte := []
  /-- words read of the present nonce, the token nonce they make once six have been read (R587) -/
  nonceRead : List Word := []
  nonce : Option (List Word) := none
  /-- the provisioning responder's nonce and session key (R571) -/
  respNonce : Option Nat := none
  session : Option Nat := none
  /-- credential and digest words as written (R597) -/
  cred : List (Nat × Word) := []
  digest : List (Nat × Word) := []
  /-- drive time at which the trial timer started; a failed trial that waits for its chip reset (R579) -/
  trialAt : Option Nat := none
  trialFailed : Bool := false
  /-- what the alias key in force was derived from (R586) -/
  aliasOf : List Nat := []
  /-- the life-cycle transition EV_LIFECYCLE has yet to record: old and new state (R588) -/
  lcEvent : Option (Nat × Nat) := none
deriving DecidableEq, Repr

/-! ### CKR and CAL: supplies, clocks, reset and calibration (chapter 17) -/

/-- One copy of the time store (R601). -/
structure TimeCopy where
  seq : Nat := 0
  dtime : Nat := 0
  pcycle : Nat := 0
  good : Bool := false
deriving DecidableEq, Repr

/-- The progress of the power-loss sequence (R38, R600). -/
structure PowerLoss where
  /-- VIN has returned (R40) -/
  vinBack : Bool := false
  /-- the flush of R41 runs -/
  flush : Bool := false
  committed : Bool := false
  /-- the parameters of the EVR power-loss record, which the commit record carries (R496) -/
  record : List Word := []
deriving DecidableEq, Repr

/-- CKR's state beside its registers. -/
structure Ckr where
  /-- held in power-on reset (R598) -/
  por : Bool := false
  /-- a chip reset is in progress (R605) -/
  inReset : Bool := false
  /-- RST_N is low -/
  rstLow : Bool := false
  /-- the crystal has not started: the chip stays in reset (R603) -/
  noCrystal : Bool := false
  loss : Option PowerLoss := none
  /-- logic quiesced: cores and Shuttles held, clocks stopped (R600) -/
  quiesced : Bool := false
  /-- the module has no power: hold-up has ended (R599) -/
  dead : Bool := false
  /-- clock domains gated by a lost PLL, by PLL number (R602) -/
  gated : List Nat := []
  storeA : TimeCopy := {}
  storeB : TimeCopy := {}
  /-- drive time in ms and the power-cycle count (R15) -/
  dtime : Nat := 0
  pcycle : Nat := 0
  /-- crystal periods of the current ms of drive time, and since chip reset -/
  sub : Nat := 0
  up : Nat := 0
  /-- FK_CKR_TIMESTORE waits for EVR to be loaded (R601) -/
  storeFault : Bool := false
  /-- a chip reset has been requested by SEC, FCL or R40 and has not started -/
  resetRequested : Bool := false
deriving DecidableEq, Repr

/-- The calibration request or background item running (R612): its item and the unit it belongs to, actuator 0 to 3
or 4 for the spindle; and, for a background item of redundancy mode, the position visited (R101). -/
structure CalRun where
  item : Nat := 0
  owner : Nat := 0
deriving DecidableEq, Repr

/-- A pending result (R614): the item and its field values; for SLICE_TRIM and SLICE_SWAP, three corrections for each
position of `places` (R100, R101). -/
structure CalPend where
  item : Nat := 0
  vals : List Int := []
  places : List Nat := []
deriving DecidableEq, Repr

/-- CAL's state beside its registers. -/
structure Cal where
  queue : List Nat := []
  running : List CalRun := []
  background : List CalRun := []
  pending : List CalPend := []
  /-- the next position each lane visits in redundancy mode (R101) -/
  positions : List (Nat × Nat) := []
  /-- corrections in force of the items whose results have no register, by item number (Tables 6.11 and 7.8) -/
  trims : List (Nat × List Int) := []
deriving DecidableEq, Repr


/-! ### The board and the whole state -/

/-- What the board around the module fits and straps: not registers of the spec's maps, read by its rules. -/
structure Board where
  /-- fitted DRAM in GiB (R407) -/
  dramGib : Nat := 8
  /-- fitted NOR in MiB, 64 to 256 (R19) -/
  norMib : Nat := 256
  /-- NAND dies fitted (R466) -/
  dies : Nat := 64
  /-- heads the HDA carries, from the tag (R60) -/
  heads : Nat := 32
  /-- the straps HOST_SEL and PE_MODE, high (R379) -/
  hostSel : Bool := false
  peMode : Bool := false
deriving DecidableEq, Repr

/-- The answer of the last control-space access (R10, R11): the value a read returned, and a bus error. The model's
own field: nothing in the machine reads it but the Coava load that made the access. -/
structure Bus where
  value : Word := 0#64
  err : Bool := false
deriving DecidableEq, Repr

/-- The state of the block. -/
structure State where
  part : Part := .fjd7440
  board : Board := {}
  /-- named registers that differ from their reset value, by `regKey` -/
  regs : List (Nat × Word) := []
  /-- memory bytes that are not zero, by address -/
  mem : List Host.Cell := []
  /-- the model's own counter behind the free values of `Config` -/
  free : Nat := 0
  bus : Bus := {}
  ckr : Ckr := {}
  cal : Cal := {}
  fcl : Fcl := {}
  evr : Evr := {}
  /-- the zone table in force: WRP_ZONE_z and WRP_ZONE2_z as the last WRRUN acceptance took them (R143) -/
  zones : List (Word × Word) := []
  svg : List (Nat × Svg) := []
  cte : List (Nat × Cte) := []
  spn : Spn := {}
  sec : Sec := {}
  syc : Syc := {}
  bfm : Bfm := {}
  /-- cluster L2 lines by cluster × 2^34 + line number -/
  l2 : List (Nat × Option L2Line) := []
  gly : Gly := {}
  hfe : Hfe := {}
  chans : List (Nat × Chan) := []
  spools : List (Nat × Spool) := []
  flt : Flt := {}
  svc : Svc := {}
  ofl : Ofl := {}
  mgt : Mgt := {}
  /-- round-robin pointers of the Bobbin engines, by engine × 4 + class (R446) -/
  dmaPtr : List (Nat × Nat) := []
  hdl : List (Nat × HdlAct) := []
  tag : TagPort := {}
  pairs : List (Nat × Pair) := []
  dcp : List (Nat × DcpAct) := []
  decoders : List (Nat × Decoder) := []
  wrp : List (Nat × WrpAct) := []
  shts : List (Nat × Shuttle) := []
  loom : Loom := {}
  codeLoad : Option CodeLoad := none
  patch : PatchRam := {}
  /-- the commands that wait, first in first out -/
  pending : List Instr := []
deriving DecidableEq, Repr

/-- The machine right after a chip reset has been released (R605): an FJD-7440, every register at its reset value,
no memory written, no command waiting. -/
def State.reset : State := {}

end Sys2Proof.Machine
end

