-- ==== Sys2Proof/Machine/Ops.lean ====
section
/-!
DEFINITION. The named operations every family uses: reading and writing registers by field, counters, per-instance
tables, memory, event sources, fault messages, and the entry of records into the event ring.
-/

namespace Sys2Proof.Machine

/-- What a meaning answers. -/
abbrev Result := Host.Outcome State Fault Refusal

/-! ### Registers -/

/-- The stored value of a register's instance. -/
def rd (s : State) (r : Reg) (i : Nat) : Word := tget (regDefault s.part) s.regs (regKey r i)

/-- A register's instance stored whole. -/
def wr (s : State) (r : Reg) (i : Nat) (v : Word) : State :=
  { s with regs := tset (regDefault s.part) s.regs (regKey r i) v }

/-- A field's value. -/
def fld (s : State) (f : Fld) (i : Nat := 0) : Nat := getBits (rd s f.reg i) f.lo f.w

/-- A field that is a flag. -/
def flag (s : State) (f : Fld) (i : Nat := 0) : Bool := fld s f i != 0

/-- A field set. -/
def setFld (s : State) (f : Fld) (i : Nat) (v : Nat) : State :=
  wr s f.reg i (setBits (rd s f.reg i) f.lo f.w v)

/-- A flag set. -/
def setFlag (s : State) (f : Fld) (i : Nat) (b : Bool) : State := setFld s f i (b2n b)

/-- A saturating counter raised by n. -/
def bump (s : State) (f : Fld) (i : Nat := 0) (n : Nat := 1) : State :=
  setFld s f i (min (fld s f i + n) (2 ^ f.w - 1))

/-- Several fields of one register instance set. -/
def setFlds (s : State) (i : Nat) : List (Fld × Nat) → State
  | [] => s
  | (f, v) :: t => setFlds (setFld s f i v) i t

/-- The state when a condition holds, else the state unchanged. -/
def when (b : Bool) (f : State → State) (s : State) : State := if b then f s else s

/-- A state change for each element of a list, in order. -/
def each {α : Type} (l : List α) (f : α → State → State) (s : State) : State := l.foldl (fun t x => f x t) s

/-- The answer of a control-space access recorded. -/
def answer (s : State) (v : Word) : State := { s with bus := { value := v, err := false } }

/-! ### Per-instance state -/

/-- The default of a sparse per-instance table. -/
def dflt {α : Type} (a : α) : Nat → α := fun _ => a

/-- HDL's state for actuator a. -/
def hdlOf (s : State) (a : Nat) : HdlAct := tget (dflt {}) s.hdl a
/-- HDL's state for actuator a replaced. -/
def setHdl (s : State) (a : Nat) (h : HdlAct) : State := { s with hdl := tset (dflt {}) s.hdl a h }
/-- The lane pair of actuator a. -/
def pairOf (s : State) (a : Nat) : Pair := tget (dflt {}) s.pairs a
/-- The lane pair of actuator a replaced. -/
def setPair (s : State) (a : Nat) (h : Pair) : State := { s with pairs := tset (dflt {}) s.pairs a h }
/-- The pool's state for actuator a. -/
def dcpOf (s : State) (a : Nat) : DcpAct := tget (dflt {}) s.dcp a
/-- The pool's state for actuator a replaced. -/
def setDcp (s : State) (a : Nat) (h : DcpAct) : State := { s with dcp := tset (dflt {}) s.dcp a h }
/-- Decoder d. -/
def decOf (s : State) (d : Nat) : Decoder := tget (dflt {}) s.decoders d
/-- Decoder d replaced. -/
def setDec (s : State) (d : Nat) (h : Decoder) : State := { s with decoders := tset (dflt {}) s.decoders d h }
/-- The write path of actuator a. -/
def wrpOf (s : State) (a : Nat) : WrpAct := tget (dflt {}) s.wrp a
/-- The write path of actuator a replaced. -/
def setWrp (s : State) (a : Nat) (h : WrpAct) : State := { s with wrp := tset (dflt {}) s.wrp a h }
/-- Shuttle k. -/
def shtOf (s : State) (k : Nat) : Shuttle := tget (dflt {}) s.shts k
/-- Shuttle k replaced. -/
def setSht (s : State) (k : Nat) (h : Shuttle) : State := { s with shts := tset (dflt {}) s.shts k h }

/-- SVG channel a. -/
def svgOf (s : State) (a : Nat) : Svg := tget (dflt {}) s.svg a
/-- SVG channel a replaced. -/
def setSvg (s : State) (a : Nat) (h : Svg) : State := { s with svg := tset (dflt {}) s.svg a h }
/-- The actuator context of CTE. -/
def cteOf (s : State) (a : Nat) : Cte := tget (dflt {}) s.cte a
/-- The actuator context of CTE replaced. -/
def setCte (s : State) (a : Nat) (h : Cte) : State := { s with cte := tset (dflt {}) s.cte a h }

/-! ### Free values -/

/-- A free word, and the state with the model's counter advanced. -/
def freshWord (s : State) : Word × State := (Config.freeWord s.free, { s with free := s.free + 1 })

/-- A free number of n words, and the state with the model's counter advanced. -/
def freshNat (s : State) : Nat → Nat × State
  | 0 => (0, s)
  | n + 1 =>
    let r := freshNat s n
    let f := freshWord r.2
    (r.1 * 2 ^ 64 + f.1.toNat, f.2)

/-- A free bit, and the state with the model's counter advanced. -/
def freshBit (s : State) : Bool × State := (Config.freeBit s.free, { s with free := s.free + 1 })

/-! ### Memory -/

/-- What an unlisted address of memory reads as. -/
def memDefault : Nat → Byte := fun _ => 0#8

/-- One byte of memory. -/
def readByte (s : State) (a : Nat) : Byte := tget memDefault s.mem a

/-- One byte of memory stored. -/
def writeByte (s : State) (a : Nat) (v : Byte) : State := { s with mem := tset memDefault s.mem a v }

/-- The form of memory: addresses strictly rising, no entry equal to what an unlisted address reads as. -/
abbrev Memory.wf (m : List Host.Cell) : Prop := tabWf memDefault m

/-- Bytes of memory from an address. -/
def readBytes (s : State) (a n : Nat) : List Byte := (List.range n).map (fun k => readByte s (a + k))

/-- Bytes stored from an address. -/
def writeBytes (s : State) (a : Nat) : List Byte → State
  | [] => s
  | b :: t => writeBytes (writeByte s a b) (a + 1) t

/-- A little-endian 64-bit word of memory (R10). -/
def readWord (s : State) (a : Nat) : Word := BitVec.ofNat 64 (leNat (readBytes s a 8))

/-- A little-endian 64-bit word stored (R10). -/
def writeWord (s : State) (a : Nat) (w : Word) : State := writeBytes s a (wordBytes w)

/-- The address regions of Table 0.5 with their populated parts (R19). -/
inductive Region where
  | rom | nor | scratch | control | dram | hole
deriving DecidableEq, Repr

/-- The base of DRAM (Table 0.5). -/
def dramBase : Nat := 0x1000000000

/-- The usable DRAM: seven eighths of the fitted capacity, of which no more than the part's limit is in use (R19, R408,
R409). -/
def dramBytes (s : State) : Nat := min s.board.dramGib s.part.dramGib * 2 ^ 30 * 7 / 8

/-- The bytes of the cache scratch window: the ways converted to scratch, 512 KiB each (R19); none while a conversion
runs (R425). -/
def scratchBytes (s : State) : Nat := if flag s F.SYC_SCRATCH_BUSY then 0 else fld s F.SYC_SCRATCH_COUNT * 524288

/-- The region an address falls in (R9, R19). -/
def regionOf (s : State) (a : Nat) : Region :=
  if a < 0x80000 then .rom
  else if 0x10000000 ≤ a ∧ a < 0x10000000 + s.board.norMib * 2 ^ 20 then .nor
  else if 0xE0000000 ≤ a ∧ a < 0xE0000000 + scratchBytes s then .scratch
  else if 0xF0000000 ≤ a ∧ a < 0x100000000 then .control
  else if dramBase ≤ a ∧ a < dramBase + dramBytes s then .dram
  else .hole

/-- A number as k words, the least significant first. -/
def natWords (n k : Nat) : List Word := (List.range k).map (fun w => BitVec.ofNat 64 (n / 2 ^ (64 * w)))

/-- Measurement k kept in SEC_MEAS_i (R586). -/
def setMeas (s : State) (k v : Nat) : State :=
  each (List.range 6) (fun w t => wr t .SEC_MEAS (8 * (k - 1) + w) ((natWords v 6).getD w 0#64)) s

/-! ### Time -/

/-- Drive time in ms (R15). -/
def now (s : State) : Nat := s.ckr.dtime

/-- Nanoseconds since the chip reset, from the crystal's 40 ns period. -/
def nowNs (s : State) : Nat := s.ckr.up * 40

/-! ### Event sources and fault messages -/

/-- The pending bit of a source. -/
def pendingBit (s : State) (n : Nat) : Bool := bit (rd s .FCL_PEND (n / 64)) (n % 64)

/-- A source sets its pending bit; a rise with HOST = 1 forwards one notice, outside the safe state (R534, R536). -/
def raiseSource (s : State) (n : Nat) : State :=
  let w := rd s .FCL_PEND (n / 64)
  let rise := !bit w (n % 64)
  let t := wr s .FCL_PEND (n / 64) (setBits w (n % 64) 1 1)
  if rise && flag s F.FCL_SRC_CFG_HOST n && !flag s F.FCL_STAT_SAFE then
    { t with fcl := { t.fcl with notices := t.fcl.notices ++ [fld s F.FCL_SRC_CFG_HOST_IDX n] } }
  else t

/-! Fault kinds (R538 Table 15.3; R597 Table 16 and R616 Table 17.8 for 0x09 to 0x0F and 0x74 to 0x7F). -/
namespace FK
/-- Kind 0x01. -/
abbrev busDecode : Nat := 0x01
/-- Kind 0x02. -/
abbrev fclMsg : Nat := 0x02
/-- Kind 0x03. -/
abbrev evrPersist : Nat := 0x03
/-- Kind 0x04. -/
abbrev fclSelf : Nat := 0x04
/-- Kind 0x05. -/
abbrev safeEnter : Nat := 0x05
/-- Kind 0x08. -/
abbrev calDisagree : Nat := 0x08
/-- Kind 0x09. -/
abbrev ckrPll : Nat := 0x09
/-- Kind 0x0A. -/
abbrev ckrXtal : Nat := 0x0A
/-- Kind 0x0B. -/
abbrev ckrRail : Nat := 0x0B
/-- Kind 0x0C. -/
abbrev ckrTimestore : Nat := 0x0C
/-- Kind 0x0D. -/
abbrev calTimeout : Nat := 0x0D
/-- Kind 0x10. -/
abbrev glyFetch : Nat := 0x10
/-- Kind 0x11. -/
abbrev glyBudgetCut : Nat := 0x11
/-- Kind 0x12. -/
abbrev glyDrain : Nat := 0x12
/-- Kind 0x18. -/
abbrev shtTrap : Nat := 0x18
/-- Kind 0x20. -/
abbrev lanePairSlip : Nat := 0x20
/-- Kind 0x24. -/
abbrev dcpDeadline : Nat := 0x24
/-- Kind 0x25. -/
abbrev dcpDecoder : Nat := 0x25
/-- Kind 0x28. -/
abbrev writeNoSpare : Nat := 0x28
/-- Kind 0x30. -/
abbrev svgSurface : Nat := 0x30
/-- Kind 0x31. -/
abbrev svgTrackSlip : Nat := 0x31
/-- Kind 0x32. -/
abbrev svgLost : Nat := 0x32
/-- Kind 0x38. -/
abbrev cteSat : Nat := 0x38
/-- Kind 0x39. -/
abbrev cteLoad : Nat := 0x39
/-- Kind 0x3A. -/
abbrev cteImplausible : Nat := 0x3A
/-- Kind 0x3B. -/
abbrev cteResetRefused : Nat := 0x3B
/-- Kind 0x40. -/
abbrev spnLos : Nat := 0x40
/-- Kind 0x41. -/
abbrev spnStart : Nat := 0x41
/-- Kind 0x42. -/
abbrev spnResetRefused : Nat := 0x42
/-- Kind 0x48. -/
abbrev pwsVcmShort : Nat := 0x48
/-- Kind 0x49. -/
abbrev pwsBoost : Nat := 0x49
/-- Kind 0x4A. -/
abbrev pwsVmLow : Nat := 0x4A
/-- Kind 0x4B. -/
abbrev pwsThermal : Nat := 0x4B
/-- Kind 0x4C. -/
abbrev pwsChopOpen : Nat := 0x4C
/-- Kind 0x4D. -/
abbrev pwsChopStuck : Nat := 0x4D
/-- Kind 0x4E. -/
abbrev pwsVmTrip : Nat := 0x4E
/-- Kind 0x4F. -/
abbrev pwsLink : Nat := 0x4F
/-- Kind 0x50. -/
abbrev preampFault : Nat := 0x50
/-- Kind 0x51. -/
abbrev hdaAuth : Nat := 0x51
/-- Kind 0x52. -/
abbrev hdaMismatch : Nat := 0x52
/-- Kind 0x53. -/
abbrev tagCommit : Nat := 0x53
/-- Kind 0x58. -/
abbrev memCe : Nat := 0x58
/-- Kind 0x59. -/
abbrev memUe : Nat := 0x59
/-- Kind 0x5A. -/
abbrev sycTag : Nat := 0x5A
/-- Kind 0x5B. -/
abbrev scrubSlow : Nat := 0x5B
/-- Kind 0x5C. -/
abbrev dramTrain : Nat := 0x5C
/-- Kind 0x5D. -/
abbrev splParity : Nat := 0x5D
/-- Kind 0x60. -/
abbrev fltUe : Nat := 0x60
/-- Kind 0x61. -/
abbrev fltVerify : Nat := 0x61
/-- Kind 0x62. -/
abbrev fltDie : Nat := 0x62
/-- Kind 0x63. -/
abbrev fltProgram : Nat := 0x63
/-- Kind 0x64. -/
abbrev fltDown : Nat := 0x64
/-- Kind 0x65. -/
abbrev fltConstrained : Nat := 0x65
/-- Kind 0x66. -/
abbrev fltRetire : Nat := 0x66
/-- Kind 0x67. -/
abbrev fltImage : Nat := 0x67
/-- Kind 0x70. -/
abbrev weaveDataLoss : Nat := 0x70
/-- Kind 0x74. -/
abbrev secFolio : Nat := 0x74
/-- Kind 0x75. -/
abbrev secImage : Nat := 0x75
/-- Kind 0x76. -/
abbrev secTrial : Nat := 0x76
/-- Kind 0x77. -/
abbrev secOtp : Nat := 0x77
/-- Kind 0x78. -/
abbrev secKey : Nat := 0x78
/-- Kind 0x79. -/
abbrev secPatch : Nat := 0x79
/-- Kind 0x7A. -/
abbrev secLc : Nat := 0x7A
end FK

/-- The parity bit of a fault message (R537): even parity over bits [62:0]. -/
def msgPar (w : Word) : Bool := ((List.range 63).filter (fun k => bit w k)).length % 2 == 1

/-- A fault message with the parity its sender computes (R537, Table 15.2). -/
def faultMsg (source kind sev addr : Nat) : Word :=
  let w : Word := BitVec.ofNat 64
    (addr % 2 ^ 40 + kind % 256 * 2 ^ 40 + sev % 8 * 2 ^ 48 + source % 2048 * 2 ^ 51)
  setBits w 63 1 (b2n (msgPar w))

/-- The numbers by which blocks contend for FCL (R539). -/
def Block.fclIdx : Block → Nat
  | .hfe => 0 | .gly => 1 | .sht => 2 | .loom => 3 | .lne => 4 | .dcp => 5 | .wrp => 6 | .svg => 7 | .cte => 8
  | .spn => 9 | .pws => 10 | .hdl => 11 | .bfm => 12 | .syc => 13 | .dma => 14 | .spl => 15 | .flt => 16
  | .svc => 17 | .ofl => 18 | .fcl => 19 | .evr => 20 | .ckr => 21 | .cal => 22 | .sec => 23 | .mgt => 24

/-- The messages a block holds waiting. -/
def waitingAt (s : State) (b : Block) : List Word := tget (dflt []) s.fcl.waiting b.fclIdx

/-- A composed message put in its block's waiting places (R539): a fifth below severity 7 is dropped, counted and
raises source 33, its own source still pending; one of severity 7 is never dropped and drives the fatal line. -/
def sendMsg (s : State) (b : Block) (w : Word) : State :=
  let q := waitingAt s b
  let sev := getBits w 48 3
  if sev < 7 ∧ 4 ≤ q.length then
    raiseSource (raiseSource (bump s F.FCL_CNT_LOST) 33) (getBits w 51 11)
  else
    { s with fcl := { s.fcl with
        waiting := tset (dflt []) s.fcl.waiting b.fclIdx (q ++ [w])
        fatal := if sev = 7 then s.fcl.fatal ++ [w] else s.fcl.fatal } }

/-- A block raises a fault message (R537, R539). -/
def sendFault (s : State) (b : Block) (source kind sev addr : Nat) : State :=
  sendMsg s b (faultMsg source kind sev addr)

/-- An uncorrectable memory error (R414, R416, R417): BFM_UE_LOG latches the first and marks a later one, and the owner
of the memory sends FK_MEM_UE at severity 5. -/
def memUe (s : State) (b : Block) (addr req : Nat) (poison dram : Bool) : State :=
  let t := if flag s F.BFM_UE_LOG_VALID then setFlag s F.BFM_UE_LOG_OVERFLOW 0 true
    else setFlds s 0 [(F.BFM_UE_LOG_ADDR, addr), (F.BFM_UE_LOG_REQ, req), (F.BFM_UE_LOG_POISON, b2n poison),
      (F.BFM_UE_LOG_DRAM, b2n dram), (F.BFM_UE_LOG_TAG, 0), (F.BFM_UE_LOG_VALID, 1)]
  sendFault t b b.faultSource FK.memUe 5 addr

/-- The address field of a block's own SRAM (R416): bit 39, the memory number, the byte offset. -/
def sramAddr (memory off : Nat) : Nat := 2 ^ 39 + memory * 2 ^ 32 + off

/-- An uncorrectable error in one of a block's own SRAMs (R416): the spec numbers no memories, so the number is free. -/
def sramUe (s : State) (b : Block) (off req : Nat) : State :=
  let f := freshWord s
  memUe f.2 b (sramAddr (getBits f.1 0 7) off) req false false

end Sys2Proof.Machine
end

