-- ==== Sys2Proof/Machine/Mem.lean ====
section
/-!
DEFINITION. Memory as the fabric sees it (chapter 11): the DRAM port with poison and uncorrectable words (R405, R414,
R415), the system cache (R420 to R423, R427, R431), the cluster L2s (R433), and accesses by physical address (R9, R19).
-/

namespace Sys2Proof.Machine

/-- Who makes an access: its index of Table 1.3, its stream tracker (R423), and whether it is coherent (R432). -/
structure Port where
  idx : Nat
  stream : Nat
  coh : Bool
deriving DecidableEq, Repr

/-- A requester with one stream tracker. -/
def port (idx : Nat) (coh : Bool) : Port := { idx := idx, stream := 64 + idx, coh := coh }

/-! ### Errors -/

/-- A corrected error (R417): counted, logged, and reported each time the lap's count reaches a multiple of CE_THR. -/
def corrected (s : State) (b : Block) (addr req : Nat) (dram : Bool) : State :=
  let t := bump s (if dram then F.BFM_CE_CNT_DRAM else F.BFM_CE_CNT_SRAM)
  let t := setFlds t 0 [(F.BFM_CE_LOG_ADDR, addr), (F.BFM_CE_LOG_REQ, req), (F.BFM_CE_LOG_DRAM, b2n dram),
    (F.BFM_CE_LOG_VALID, 1)]
  let n := s.bfm.lapCe + 1
  let t := { t with bfm := { t.bfm with lapCe := n } }
  if n % max 1 (fld s F.BFM_ECC_CTL_CE_THR) = 0 then sendFault t b b.faultSource FK.memCe 3 addr else t

/-- A line is poisoned. -/
def poisoned (s : State) (line : Nat) : Bool := tget (dflt false) s.bfm.poison line

/-- A line's POISON bit set or cleared. -/
def setPoison (s : State) (line : Nat) (b : Bool) : State :=
  { s with bfm := { s.bfm with poison := tset (dflt false) s.bfm.poison line b } }

/-- A DRAM word holds an uncorrectable error. -/
def badWord (s : State) (addr : Nat) : Bool := tget (dflt false) s.bfm.bad (addr / 8 * 8)

/-- The mark of a DRAM word. -/
def setBad (s : State) (addr : Nat) (b : Bool) : State :=
  { s with bfm := { s.bfm with bad := tset (dflt false) s.bfm.bad (addr / 8 * 8) b } }

/-- The stored copy of a DRAM or scratch word holds a correctable error. -/
def softWord (s : State) (addr : Nat) : Bool := tget (dflt false) s.bfm.soft (addr / 8 * 8)

/-- The mark of a correctable error. -/
def setSoft (s : State) (addr : Nat) (b : Bool) : State :=
  { s with bfm := { s.bfm with soft := tset (dflt false) s.bfm.soft (addr / 8 * 8) b } }

/-- A word written whole, with fresh check bits: no error is left in it (R405). -/
def freshCheck (s : State) (addr : Nat) : State := setSoft (setBad s addr false) addr false

/-- The correctable errors of the words an access reads (R413, R414): counted; the stored copy repaired under FIX. -/
def softRead (s : State) (b : Block) (req : Nat) (dram : Bool) (words : List Nat) : State :=
  each (words.filter (softWord s)) (fun a t =>
    let t := corrected t b a req dram
    if flag s F.BFM_ECC_CTL_CE_MODE then setSoft t a false else t) s

/-- The correctable errors of the words an access writes in part (R405): corrected as they are merged. -/
def softMerge (s : State) (b : Block) (req : Nat) (dram : Bool) (words : List Nat) : State :=
  each (words.filter (softWord s)) (fun a t => setSoft (corrected t b a req dram) a false) s

/-- The addresses of a line's words. -/
def lineWords (line : Nat) : List Nat := (List.range 8).map (fun k => line * 64 + 8 * k)

/-! ### The DRAM port -/

/-- Where a physical address of the DRAM region stands at the devices (R409, Table 11.2): its byte, its data line within the
block, the block's check line, and the check byte of its word within that line. -/
structure DevPlace where
  dev : Nat
  line : Nat
  chk : Nat
  byte : Nat
deriving DecidableEq, Repr

/-- The block of 448 data bytes an address of the DRAM region falls in (R409). -/
def dramBlock (addr : Nat) : Nat := (addr - dramBase) / 448

/-- The mapping of R409. -/
def devPlace (addr : Nat) : DevPlace :=
  let off := (addr - dramBase) % 448
  { dev := dramBlock addr * 512 + off
    line := off / 64
    chk := dramBlock addr * 512 + 448
    byte := 8 * (off / 64) + off % 64 / 8 }

/-- Lines moved at the devices are counted; a check line moves with the data line unless the check-line buffer holds it,
which the spec leaves to the buffer's state (R411): a free bit. -/
def countDram (s : State) (write : Bool) : State :=
  let f := freshBit s
  bump f.2 (if write then F.BFM_DRAM_CNT_WRITES else F.BFM_DRAM_CNT_READS) 0 (1 + b2n f.1)

/-- A line read at the DRAM port (R414): an uncorrectable word or poison is a bus error. -/
def dramRead (s : State) (r : Port) (line : Nat) : Option (List Byte) × State :=
  let s := countDram s false
  let a := line * 64
  if poisoned s line then (none, memUe s .bfm a r.idx true true)
  else
    match (List.range 8).find? (fun k => badWord s (a + 8 * k)) with
    | some k => (none, memUe s .bfm (a + 8 * k) r.idx false true)
    | none => (some (readBytes s a 64), softRead s .bfm r.idx true (lineWords line))

/-- A line written back whole (R415): with bad words it is written poisoned; correctable errors met on the way are counted
as SYC's own. -/
def writeBack (s : State) (x : CacheLine) : State :=
  let s := each ((List.range 8).filter (fun k => Nat.testBit x.soft k)) (fun k t =>
    corrected t .syc (x.line * 64 + 8 * k) 30 false) s
  let t := writeBytes (countDram s true) (x.line * 64) x.data
  let t := each (List.range 8) (fun k u => freshCheck u (x.line * 64 + 8 * k)) t
  setPoison t x.line (x.bad != 0)

/-- A store of bytes within a line at the DRAM port (R405, R415): refused by an uncorrectable error in a word covered in
part, or by poison unless it covers the line. -/
def dramWrite (s : State) (r : Port) (line off : Nat) (bytes : List Byte) : Bool × State :=
  let a := line * 64 + off
  let n := bytes.length
  let whole (k : Nat) : Bool := decide (off ≤ 8 * k ∧ 8 * k + 8 ≤ off + n)
  let touched (k : Nat) : Bool := decide (8 * k < off + n ∧ off < 8 * k + 8)
  if n < 64 ∧ poisoned s line then (false, memUe s .bfm (a / 8 * 8) r.idx true true)
  else
    match (List.range 8).find? (fun k => touched k && !whole k && badWord s (line * 64 + 8 * k)) with
    | some k => (false, memUe s .bfm (line * 64 + 8 * k) r.idx false true)
    | none =>
      let t := softMerge (countDram s true) .bfm r.idx true
        (((List.range 8).filter (fun k => touched k && !whole k)).map (fun k => line * 64 + 8 * k))
      let t := each ((List.range 8).filter whole) (fun k u => freshCheck u (line * 64 + 8 * k)) t
      (true, setPoison (writeBytes t a bytes) line false)

/-! ### The system cache -/

/-- The set of a line. -/
def setOf (line : Nat) : Nat := line % 8192

/-- A way of a set. -/
def wayLine (s : State) (set w : Nat) : Option CacheLine := tget (dflt none) s.syc.lines (16 * set + w)

/-- A way of a set replaced. -/
def setWay (s : State) (set w : Nat) (x : Option CacheLine) : State :=
  { s with syc := { s.syc with lines := tset (dflt none) s.syc.lines (16 * set + w) x } }

/-- A way converted to scratch (R425). -/
def scratchWay (s : State) (w : Nat) : Bool := decide (16 ≤ w + fld s F.SYC_SCRATCH_COUNT)

/-- A locked way; the lock bit of a scratch way is ignored (R424). -/
def lockedWay (s : State) (w : Nat) : Bool := Nat.testBit (fld s F.SYC_WAY_LOCK_WAYS) w && !scratchWay s w

/-- An eligible way (R421). -/
def eligible (s : State) (w : Nat) : Bool := !lockedWay s w && !scratchWay s w

/-- The way that holds a line. -/
def sycFind (s : State) (line : Nat) : Option Nat :=
  (List.range 16).find? (fun w => match wayLine s (setOf line) w with | some x => x.line == line | none => false)

/-- A way's reference bit. -/
def wayRef (s : State) (set w : Nat) : Bool := match wayLine s set w with | some x => x.ref | none => false

/-- The reference bit set by a hit or a fill (R421): when every eligible way has its bit, the others' are cleared. -/
def touchRef (s : State) (set w : Nat) : State :=
  let mark (t : State) (v : Nat) (b : Bool) : State :=
    match wayLine t set v with
    | some x => setWay t set v (some { x with ref := b })
    | none => t
  let t := mark s w true
  if (List.range 16).all (fun v => !eligible t v || wayRef t set v) then
    each ((List.range 16).filter (fun v => eligible t v && decide (v ≠ w))) (fun v u => mark u v false) t
  else t

/-- The oldest entry of a full eviction buffer is written back, for a victim that waits (R431). -/
def evbRoom (s : State) : State :=
  match s.syc.evb with
  | x :: rest => if 32 ≤ s.syc.evb.length then writeBack { s with syc := { s.syc with evb := rest } } x else s
  | [] => s

/-- A line leaves its way (R431): dirty, it enters the eviction buffer; clean, it is dropped. -/
def evict (s : State) (set w : Nat) : State :=
  match wayLine s set w with
  | none => s
  | some x =>
    let t := setWay s set w none
    if x.dirty then
      let t := evbRoom t
      { t with syc := { t.syc with evb := t.syc.evb ++ [x] } }
    else t

/-- The victim of R421; none when the set has no eligible way. -/
def victim (s : State) (set : Nat) : Option Nat :=
  let e := (List.range 16).filter (eligible s)
  match e.find? (fun w => (wayLine s set w).isNone) with
  | some w => some w
  | none => match e.find? (fun w => !wayRef s set w) with
    | some w => some w
    | none => e.head?

/-- A line put into its set, with the way it took; none when no way is eligible. -/
def allocate (s : State) (x : CacheLine) : Option (Nat × State) :=
  let set := setOf x.line
  match victim s set with
  | none => none
  | some w => some (w, touchRef (setWay (evict s set w) set w (some x)) set w)

/-- The eviction buffer's entry for a line, taken out. -/
def evbTake (s : State) (line : Nat) : Option (CacheLine × State) :=
  match s.syc.evb.find? (fun x => x.line == line) with
  | some x => some (x, { s with syc := { s.syc with evb := s.syc.evb.filter (fun y => decide (y.line ≠ line)) } })
  | none => none

/-- A request meets an eviction of its line (R431): cancelled, and the line reinstated dirty; with no eligible way the
write-back completes first. -/
def evbRace (s : State) (line : Nat) : State :=
  match evbTake s line with
  | none => s
  | some (x, t) =>
    match allocate t { x with dirty := true } with
    | some (_, u) => bump u F.SYC_CNT_CANCELS
    | none => writeBack t x

/-- The bytes of a line from some offset replaced. -/
def spliceBytes (data : List Byte) (off : Nat) (bytes : List Byte) : List Byte :=
  data.take off ++ bytes ++ data.drop (off + bytes.length)

/-- The policy of a requester (R422). -/
def policy (s : State) (idx : Nat) : Nat := fld s F.SYC_ALLOC_CTL_POLICY / 4 ^ idx % 4

/-- A hit's line as a reader may use it: a clean line with an uncorrectable word is invalidated and counted as corrected
(R414). -/
def hitLine (s : State) (r : Port) (line : Nat) : Option (Nat × CacheLine) × State :=
  let set := setOf line
  match sycFind s line with
  | none => (none, s)
  | some w =>
    match wayLine s set w with
    | none => (none, s)
    | some x =>
      if x.bad ≠ 0 ∧ x.dirty = false then (none, corrected (setWay s set w none) .syc (line * 64) r.idx false)
      else (some (w, x), s)

/-- A cached line's correctable errors met by a read (R413): counted; the stored copy repaired under FIX. -/
def softHit (s : State) (r : Port) (w : Nat) (x : CacheLine) : State :=
  if x.soft = 0 then s
  else
    let t := each ((List.range 8).filter (fun k => Nat.testBit x.soft k)) (fun k t =>
      corrected t .syc (x.line * 64 + 8 * k) r.idx false) s
    if flag s F.BFM_ECC_CTL_CE_MODE then setWay t (setOf x.line) w (some { x with soft := 0 }) else t

/-- A line read through the cache. -/
def sycRead (s : State) (r : Port) (line : Nat) : Option (List Byte) × State :=
  if !flag s F.SYC_CTL_EN then
    -- R427: DRAM requests pass; an eviction under way completes first (R431)
    let t := match evbTake s line with | some (x, t) => writeBack t x | none => s
    dramRead t r line
  else
    let s := evbRace s line
    match hitLine s r line with
    | (some (w, x), s) =>
      let s := bump s F.SYC_CNT_HITS
      if x.bad ≠ 0 then (none, memUe s .syc (line * 64) r.idx false false)
      else (some x.data, touchRef (softHit s r w x) (setOf line) w)
    | (none, s) =>
      let s := bump s F.SYC_CNT_MISSES
      match dramRead s r line with
      | (none, t) => (none, t)
      | (some d, t) =>
        if policy t r.idx = 0 then
          match allocate t { line := line, data := d } with
          | some (_, u) => (some d, u)
          | none => (some d, t)
        else (some d, t)

/-- A store's stream (R423): whether a store that misses passes to DRAM. -/
def stream (s : State) (r : Port) (line : Nat) (full : Bool) : Bool × State :=
  let c := tget (dflt (0, 0)) s.syc.streams r.stream
  let goes := full && decide (c.2 ≠ 0 ∧ line = c.1 + 1 ∧ line / 64 = c.1 / 64)
  let n := if goes then c.2 + 1 else 1
  (flag s F.SYC_CTL_STREAM_EN && decide (8 ≤ n),
   { s with syc := { s.syc with streams := tset (dflt (0, 0)) s.syc.streams r.stream (line, min n 64) } })

/-- A store passed by the streaming detector is counted in units of 2^16. -/
def countStreamed (s : State) : State :=
  let n := s.syc.streamed + 1
  let t := { s with syc := { s.syc with streamed := n % 65536 } }
  if n = 65536 then bump t F.SYC_CNT_STREAMED else t

/-- Bytes stored within a line through the cache; false for a bus error. -/
def sycWrite (s : State) (r : Port) (line off : Nat) (bytes : List Byte) : Bool × State :=
  let full := decide (bytes.length = 64)
  let (pass, s) := stream s r line full
  if !flag s F.SYC_CTL_EN then
    let t := match evbTake s line with | some (x, t) => writeBack t x | none => s
    dramWrite t r line off bytes
  else
    let s := evbRace s line
    match hitLine s r line with
    | (some (w, x), s) =>
      let s := bump s F.SYC_CNT_HITS
      let n := bytes.length
      let whole (k : Nat) : Bool := decide (off ≤ 8 * k ∧ 8 * k + 8 ≤ off + n)
      let touched (k : Nat) : Bool := decide (8 * k < off + n ∧ off < 8 * k + 8)
      if (List.range 8).any (fun k => touched k && !whole k && Nat.testBit x.bad k) then
        (false, memUe s .syc (line * 64) r.idx false false)
      else
        let bad := (List.range 8).foldl (fun m k => m + (if Nat.testBit x.bad k && !whole k then 2 ^ k else 0)) 0
        let soft := (List.range 8).foldl (fun m k => m + (if Nat.testBit x.soft k && !touched k then 2 ^ k else 0)) 0
        let s := each ((List.range 8).filter (fun k => touched k && !whole k && Nat.testBit x.soft k)) (fun k t =>
          corrected t .syc (line * 64 + 8 * k) r.idx false) s
        (true, touchRef (setWay s (setOf line) w
          (some { x with data := spliceBytes x.data off bytes, dirty := true, bad := bad, soft := soft })) (setOf line) w)
    | (none, s) =>
      let s := bump s F.SYC_CNT_MISSES
      let p := policy s r.idx
      if p = 2 ∨ p = 3 then dramWrite s r line off bytes
      else if pass then
        let x := dramWrite s r line off bytes
        (x.1, countStreamed x.2)
      else if (victim s (setOf line)).isNone then dramWrite s r line off bytes
      else if full then
        match allocate s { line := line, data := bytes, dirty := true } with
        | some (_, u) => (true, u)
        | none => (true, s)
      else
        match dramRead s r line with
        | (none, t) => (false, t)
        | (some d, t) =>
          match allocate t { line := line, data := spliceBytes d off bytes, dirty := true } with
          | some (_, u) => (true, u)
          | none => dramWrite t r line off bytes

/-! ### Cluster L2s -/

/-- A cluster's L2 is consulted: present, with a core that runs (R433). -/
def l2Live (s : State) (c : Nat) : Bool :=
  decide (c < s.part.clusters) && (List.range 4).any (fun k => flag s F.SVC_CORE_CTL_RUN (4 * c + k))

/-- The key of a line in a cluster's L2. -/
def l2Key (c line : Nat) : Nat := c * 2 ^ 34 + line

/-- A line of a cluster's L2. -/
def l2Line (s : State) (c line : Nat) : Option L2Line := tget (dflt none) s.l2 (l2Key c line)

/-- A line of a cluster's L2 replaced. -/
def setL2 (s : State) (c line : Nat) (x : Option L2Line) : State :=
  { s with l2 := tset (dflt none) s.l2 (l2Key c line) x }

/-- A line written to SYC poisoned (R415, R513): its words hold their errors there, or its POISON bit is set in DRAM. -/
def poisonLine (s : State) (line bad : Nat) : State :=
  match sycFind s line with
  | some w => (match wayLine s (setOf line) w with
    | some x => setWay s (setOf line) w (some { x with bad := bad })
    | none => s)
  | none => setPoison s line true

/-- An L2 line written back to SYC, if dirty, poisoned if it holds an uncorrectable error (R513); it stays, clean, unless it
does. -/
def l2WriteBack (s : State) (c line : Nat) : State :=
  match l2Line s c line with
  | some x =>
    if x.dirty then
      let t := (sycWrite s (port c true) line 0 x.data).2
      if x.bad ≠ 0 then setL2 (poisonLine t line x.bad) c line none
      else setL2 t c line (some { x with dirty := false })
    else s
  | none => s

/-- Every L2 copy of a line invalidated, a dirty one written back first (R433). -/
def l2Invalidate (s : State) (line : Nat) : State :=
  each (List.range 4) (fun c t =>
    if l2Live t c then setL2 (l2WriteBack t c line) c line none else t) s

/-- A line read by a requester: a coherent one takes it from the L2 that holds it. With an uncorrectable error there, a clean
line is refetched, counted as corrected, and a dirty one gives the reader a bus error and FK_MEM_UE (R513). -/
def lineRead (s : State) (r : Port) (line : Nat) : Option (List Byte) × State :=
  match (List.range 4).find? (fun c => r.coh && l2Live s c && (l2Line s c line).isSome) with
  | some c => (match l2Line s c line with
    | some x =>
      if x.bad = 0 then (some x.data, s)
      else if x.dirty then (none, memUe s .svc (line * 64) r.idx false false)
      else sycRead (corrected (setL2 s c line none) .svc (line * 64) r.idx false) r line
    | none => sycRead s r line)
  | none => sycRead s r line

/-- Bytes stored within a line by a requester. -/
def lineWrite (s : State) (r : Port) (line off : Nat) (bytes : List Byte) : Bool × State :=
  sycWrite (if r.coh then l2Invalidate s line else s) r line off bytes

/-! ### Accesses by address -/

/-- An access that reaches nothing (R11, R19): FK_BUS_DECODE on source 35. -/
def busDecode (s : State) (addr : Nat) : State := sendFault s .fcl 35 FK.busDecode 4 addr

/-- A unit that is absent as a block: its whole window reads zero and ignores writes (R3). -/
def blockAbsent (s : State) (b : Block) : Bool :=
  match b with
  | .flt => !s.part.hasFlt
  | .ofl => !s.part.hasOfl
  | _ => false

/-- A beat that no register takes (R10): a message besides the bus error where nothing decodes it (R11, R19). -/
def beatRefused (s : State) (addr : Nat) : State :=
  match blockAt addr, regAt addr with
  | none, _ => busDecode s addr
  | some b, none => if blockAbsent s b then s else sendFault s b b.faultSource FK.busDecode 4 addr
  | some _, some _ => s

/-- The words n bytes at an address touch, by address. -/
def wordsOf (addr n : Nat) : List Nat := (List.range ((addr % 8 + n + 7) / 8)).map (fun k => addr / 8 * 8 + 8 * k)

/-- A word lies whole within n bytes at an address. -/
def wholeWord (addr n a : Nat) : Bool := decide (addr ≤ a ∧ a + 8 ≤ addr + n)

/-- Bytes of the scratch window read (R426, R414). -/
def scratchRead (s : State) (r : Port) (addr n : Nat) : Option (List Byte) × State :=
  match (wordsOf addr n).find? (badWord s) with
  | some a => (none, memUe s .syc a r.idx false false)
  | none => (some (readBytes s addr n), softRead s .syc r.idx false (wordsOf addr n))

/-- Bytes of the scratch window stored (R405): a word stored in part that holds an uncorrectable error refuses the
write, a word stored whole clears its error. -/
def scratchWrite (s : State) (r : Port) (addr : Nat) (bytes : List Byte) : Bool × State :=
  let ws := wordsOf addr bytes.length
  match ws.find? (fun a => !wholeWord addr bytes.length a && badWord s a) with
  | some a => (false, memUe s .syc a r.idx false false)
  | none =>
    let t := softMerge s .syc r.idx false (ws.filter (fun a => !wholeWord addr bytes.length a))
    let t := each (ws.filter (wholeWord addr bytes.length)) (fun a u => freshCheck u a) t
    (true, writeBytes t addr bytes)

/-- Bytes within one line read at an address; the state with the access's effects, and none for a bus error. Until DRAM
is ready its region answers with a bus error alone (R408). -/
def readPiece (s : State) (r : Port) (addr n : Nat) : Option (List Byte) × State :=
  match regionOf s addr with
  | .dram =>
    if flag s F.BFM_DRAM_STAT_READY then
      match lineRead s r (addr / 64) with
      | (some d, t) => (some ((d.drop (addr % 64)).take n), t)
      | (none, t) => (none, t)
    else (none, s)
  | .rom => (some ((List.range n).map (fun k => Config.romByte (addr + k))), s)
  | .nor => (some ((List.range n).map (fun k => Config.norByte s.sec.norGen (addr - 0x10000000 + k))), s)
  | .scratch => scratchRead s r addr n
  | .control => (none, beatRefused s addr)
  | .hole => if dramBase ≤ addr ∧ addr < dramBase + dramBytes s then (none, s) else (none, busDecode s addr)

/-- Bytes within one line stored at an address; the boot ROM and the NOR window take no writes (R9, R570). -/
def writePiece (s : State) (r : Port) (addr : Nat) (bytes : List Byte) : Bool × State :=
  match regionOf s addr with
  | .dram => if flag s F.BFM_DRAM_STAT_READY then lineWrite s r (addr / 64) (addr % 64) bytes else (false, s)
  | .scratch => scratchWrite s r addr bytes
  | .control => (false, beatRefused s addr)
  | _ => (false, busDecode s addr)

/-- Bytes read from an address, line by line, for so many lines; none after a bus error. -/
def readLines (r : Port) : Nat → Nat → Nat → State → Option (List Byte) × State
  | 0, _, _, s => (some [], s)
  | k + 1, addr, n, s =>
    let m := min n (64 - addr % 64)
    match readPiece s r addr m with
    | (none, t) => (none, t)
    | (some d, t) =>
      match readLines r k (addr + m) (n - m) t with
      | (none, u) => (none, u)
      | (some e, u) => (some (d ++ e), u)

/-- Bytes stored at an address, line by line; a bus error stops it. -/
def writeLines (r : Port) : Nat → Nat → List Byte → State → Bool × State
  | 0, _, _, s => (true, s)
  | k + 1, addr, bytes, s =>
    let m := min bytes.length (64 - addr % 64)
    match writePiece s r addr (bytes.take m) with
    | (false, t) => (false, t)
    | (true, t) => writeLines r k (addr + m) (bytes.drop m) t

/-- The lines n bytes at an address touch. -/
def linesOf (addr n : Nat) : Nat := (addr % 64 + n + 63) / 64

/-- n bytes read at an address. -/
def busRead (s : State) (r : Port) (addr n : Nat) : Option (List Byte) × State := readLines r (linesOf addr n) addr n s

/-- Bytes stored at an address; false for a bus error. -/
def busWrite (s : State) (r : Port) (addr : Nat) (bytes : List Byte) : Bool × State :=
  writeLines r (linesOf addr bytes.length) addr bytes s

/-- A 64-bit little-endian word read. -/
def busReadWord (s : State) (r : Port) (addr : Nat) : Option Word × State :=
  let x := busRead s r addr 8
  (x.1.map (fun l => BitVec.ofNat 64 (leNat l)), x.2)

/-- A 64-bit little-endian word stored. -/
def busWriteWord (s : State) (r : Port) (addr : Nat) (w : Word) : Bool × State := busWrite s r addr (wordBytes w)

/-- The requesters of Table 1.3 by name (Table 11.6). -/
abbrev portSht : Port := port 8 true
/-- Galley's own accesses. -/
abbrev portGly : Port := port 9 true
/-- HFE. -/
abbrev portHfe : Port := port 10 false
/-- DCP. -/
abbrev portDcp : Port := port 11 false
/-- WRP. -/
abbrev portWrp : Port := port 12 false
/-- FLT. -/
abbrev portFlt : Port := port 13 false
/-- OFL. -/
abbrev portOfl : Port := port 14 true
/-- SEC. -/
abbrev portSec : Port := port 15 true
/-- The port CKR, CAL, FCL, EVR, MGT and SPL share. -/
abbrev portShared : Port := port 16 false

/-- A DRAM line as it stands: in the cache, in the eviction buffer, or at the devices. -/
def peekLine (s : State) (line : Nat) : List Byte :=
  let held := if flag s F.SYC_CTL_EN then (sycFind s line).bind (wayLine s (setOf line)) else none
  match held, s.syc.evb.find? (fun x => x.line == line) with
  | some x, _ => x.data
  | none, some x => x.data
  | none, none => readBytes s (line * 64) 64

/-! ### Wipes -/

/-- Memory bytes of a range cleared. -/
def clearRange (s : State) (a n : Nat) : State :=
  { s with mem := s.mem.filter (fun c => !(decide (a ≤ c.1) && decide (c.1 < a + n))) }

/-- The scratch window cleared, all 12 ways of it. -/
def clearScratch (s : State) : State := clearRange s 0xE0000000 (12 * 524288)

/-- DRAM content lost: every check line zero (R410). -/
def wipeDram (s : State) : State :=
  let t := clearRange s dramBase (2 ^ 36)
  { t with bfm := { t.bfm with poison := [], bad := [], soft := [] } }

/-- The SRAM of SYC, the scratch window and the cluster L2s wiped (R406). -/
def wipeCaches (s : State) : State :=
  let t := clearScratch s
  { t with syc := { t.syc with lines := [], evb := [] }, l2 := [] }

end Sys2Proof.Machine
end

