-- ==== Sys2Proof/Machine/Ring.lean ====
section
/-!
DEFINITION. The entry of records into the event ring and the log memory (R549 to R554), and the states other blocks ask
for: readiness (R607), the flash tier's state (R489), power loss and the safe state.
-/

namespace Sys2Proof.Machine

/-! ### The event ring and the log memory -/

/-- EVR drains: enabled and loaded (R553). -/
def evrDraining (s : State) : Bool := flag s F.EVR_CTL_EN && flag s F.EVR_STAT_LOADED

/-- The 64 bytes of a record (R549, Table 15.5). -/
def recordBytes (r : EvRec) (seq : Nat) : List Byte :=
  let n (k : Nat) : Word := BitVec.ofNat 64 k
  let body := wordBytes (n (r.code % 2 ^ 16 + r.sev % 8 * 2 ^ 16 + b2n r.priv * 2 ^ 19 + r.source % 2048 * 2 ^ 20
      + r.pcycle % 2 ^ 32 * 2 ^ 32))
    ++ wordBytes (n (r.time % 2 ^ 48 + min r.suppressed 65535 * 2 ^ 48))
    ++ wordBytes (n (seq % 2 ^ 48 + r.tag % 65536 * 2 ^ 48))
    ++ wordBytes r.p1 ++ wordBytes r.p2 ++ wordBytes r.p3 ++ wordBytes r.p4
  body ++ wordBytes (n ((crc32c body).toNat + 0xC3 * 2 ^ 32))

/-- The lowest key from n on that a sorted table does not list. -/
def lowestFree {α : Type} : List (Nat × α) → Nat → Nat
  | [], n => n
  | (k, _) :: t, n => if k = n then lowestFree t (n + 1) else n

/-- The least severity found in a list, below a bound. -/
def leastSev (bound : Nat) (l : List Nat) : Option Nat :=
  l.foldl (fun m x => match m with
    | none => if x < bound then some x else none
    | some y => some (min x y)) none

/-- The slot a record takes: the lowest free; with none, that of the stored record of least severity below its own,
the oldest on a tie (R553). -/
def logSlotFor (s : State) (sev : Nat) : Option Nat :=
  let f := lowestFree s.evr.log 0
  if f < 65536 then some f
  else
    let used := s.evr.log.filterMap (fun c => c.2.map (fun x => (c.1, x)))
    match leastSev sev (used.map (fun c => c.2.sev)) with
    | none => none
    | some m =>
      if m < sev then
        ((used.filter (fun c => decide (c.2.sev = m))).foldl
          (fun (b : Option (Nat × LogSlot)) c => match b with
            | none => some c
            | some d => if c.2.seq < d.2.seq then some c else some d) none).map Prod.fst
      else none

/-- A page of the log memory changes (R554). In MODE 0 it becomes dirty, at once due when the record is of severity 6
or above or 16 pages are dirty; in MODE 1 its bit in EVR_DIRTY_k is set. -/
def markPage (s : State) (page sev : Nat) : State :=
  if flag s F.EVR_CTL_MODE then
    wr s .EVR_DIRTY (page / 64) (setBits (rd s .EVR_DIRTY (page / 64)) (page % 64) 1 1)
  else
    let old := s.evr.dirty.find? (fun d => decide (d.page = page))
    let urgent := decide (6 ≤ sev)
    let dirty : List DirtyPage := match old with
      | some _ => s.evr.dirty.map (fun d => if d.page = page then
          { d with urgent := d.urgent || urgent, again := d.again || d.writing } else d)
      | none => s.evr.dirty ++ [{ page := page, since := now s, urgent := urgent }]
    let dirty : List DirtyPage := if 16 ≤ dirty.length then dirty.map (fun d => { d with urgent := true }) else dirty
    { s with evr := { s.evr with dirty := dirty } }

/-- The page may change: MODE 1, or it is dirty already, or fewer than 16 pages are dirty (R554). -/
def pageOpen (s : State) (page : Nat) : Bool :=
  flag s F.EVR_CTL_MODE || s.evr.dirty.any (fun d => decide (d.page = page)) || decide (s.evr.dirty.length < 16)

/-- EVR drains the oldest record of the ring into the log memory (R553, R554): it takes SEQ and the lowest free slot;
with the log memory full it replaces a record or is dropped and counted. A record bound for a clean page while 16 are
dirty waits. -/
def drainOne (s : State) : State :=
  match evrDraining s, s.evr.ring with
  | true, r :: rest =>
    match logSlotFor s r.sev with
    | none => raiseSource (bump { s with evr := { s.evr with ring := rest } } F.EVR_DROPS_N) 50
    | some slot =>
      if pageOpen s (slot / 64) then
        let seq := fld s F.EVR_SEQ_NEXT_SEQ
        let t := { s with evr := { s.evr with
          ring := rest
          log := tset (dflt none) s.evr.log slot (some { sev := r.sev, seq := seq, code := r.code }) } }
        let t := (busWrite t portShared (fld s F.EVR_LOG_BASE_BASE + 64 * slot) (recordBytes r seq)).2
        let t := setFld t F.EVR_SEQ_NEXT_SEQ 0 (seq + 1)
        raiseSource (markPage t (slot / 64) r.sev) 49
      else s
  | _, _ => s

/-- The index of the first element that satisfies a test. -/
def firstIdx {α : Type} (p : α → Bool) : List α → Nat → Option Nat
  | [], _ => none
  | x :: t, n => if p x then some n else firstIdx p t (n + 1)

/-- A record enters the ring; with the ring full it takes the place of the oldest record of least severity below its
own, or is dropped and counted (R553). True when it was kept. -/
def ringPut (s : State) (r : EvRec) : Bool × State :=
  let s := if 1024 ≤ s.evr.ring.length then drainOne s else s
  if s.evr.ring.length < 1024 then (true, { s with evr := { s.evr with ring := s.evr.ring ++ [r] } })
  else
    match leastSev r.sev (s.evr.ring.map (fun x => x.sev)) with
    | none => (false, raiseSource (bump s F.EVR_DROPS_N) 50)
    | some m =>
      if m < r.sev then
        match firstIdx (fun (x : EvRec) => decide (x.sev = m)) s.evr.ring 0 with
        | some k => (true, { s with evr := { s.evr with ring := s.evr.ring.eraseIdx k ++ [r] } })
        | none => (false, s)
      else (false, raiseSource (bump s F.EVR_DROPS_N) 50)

/-- The outcome of a record request, in EVR_FW_CMD_c.STATUS's encoding (R565). -/
inductive RecStatus where
  | ok | suppressed | dropped
deriving DecidableEq, Repr

/-- The encoding of a record request's outcome (Table 15.14). -/
def RecStatus.code : RecStatus → Nat
  | .ok => 0 | .suppressed => 0xF0 | .dropped => 0xF1

/-- A record request with the outcome (R551, R552): the code's bucket gives a token or suppresses the record; the time
and the power-cycle count are stamped at entry. -/
def evrRequest (s : State) (r : EvRec) : RecStatus × State :=
  let i := r.code
  let free := fld s F.EVR_RATE_PERIOD i = 0 ∨ r.sev = 7
  let tokens := fld s F.EVR_RATE_TOKENS i
  let count := tget (dflt 0) s.evr.suppressed i
  if free ∨ 0 < tokens then
    let s1 := if free then s else setFld s F.EVR_RATE_TOKENS i (tokens - 1)
    let s2 := { s1 with evr := { s1.evr with suppressed := tset (dflt 0) s1.evr.suppressed i 0 } }
    let p := ringPut s2 { r with pcycle := s.ckr.pcycle, time := now s, suppressed := count }
    (if p.1 then .ok else .dropped, p.2)
  else
    (.suppressed, { s with evr := { s.evr with suppressed := tset (dflt 0) s.evr.suppressed i (min (count + 1) 65535) } })

/-- A hardware event enters the ring (R550, Table 15.6). -/
def evrEvent (s : State) (code sev source : Nat) (p1 : Word := 0#64) (p2 : Word := 0#64) (p3 : Word := 0#64)
    (p4 : Word := 0#64) : State :=
  (evrRequest s { code := code, sev := sev, source := source, p1 := p1, p2 := p2, p3 := p3, p4 := p4 }).2

/-! ### Readiness -/

/-- A readiness bit set or cleared; a change raises source 2 and enters EV_READY (R607, Tables 15.1 and 15.6). -/
def setReady (s : State) (f : Fld) (lane : Nat) (b : Bool) : State :=
  let w := rd s .CKR_READY 0
  if bit w (f.lo + lane) = b then s
  else
    let v := setBits w (f.lo + lane) 1 (b2n b)
    raiseSource (evrEvent (wr s .CKR_READY 0 v) 11 2 2 v) 2

/-- A readiness bit. -/
def ready (s : State) (f : Fld) (lane : Nat := 0) : Bool := bit (rd s .CKR_READY 0) (f.lo + lane)

/-- The flash tier's states, in FLT_STAT.STATE's encoding (R489). -/
inductive FltState where
  | off | init | unformatted | down | serving | ready | constrained | retired
deriving DecidableEq, Repr

/-- The tier's state. -/
def fltState (s : State) : FltState :=
  match fld s F.FLT_STAT_STATE with
  | 0 => .off | 1 => .init | 2 => .unformatted | 3 => .down
  | 4 => .serving | 5 => .ready | 6 => .constrained | _ => .retired

/-- The tier serves reads (R489). -/
def fltReads (s : State) : Bool := decide (fltState s ∈ [.serving, .ready, .constrained, .retired])

/-- The tier serves writes (R489). -/
def fltWrites (s : State) : Bool := decide (fltState s ∈ [.ready, .constrained])

/-- Power-loss sequence in progress (R38). -/
def powerLost (s : State) : Bool := s.ckr.loss.isSome

/-- The safe state holds (R543). -/
def safeState (s : State) : Bool := flag s F.FCL_STAT_SAFE

end Sys2Proof.Machine
end

