-- ==== Sys2Proof/Machine/Evr.lean ====
section
/-!
DEFINITION. The event recorder: firmware records, token buckets, the ring's drain, persistence and loading
(chapter 15, R549 to R556).
-/

namespace Sys2Proof.Machine

/-- The oldest record of the ring drains into the log memory (R553). -/
def execRingDrain (s : State) : Result := .next (drainOne s)

/-- A bucket gains one token, up to BURST; PERIOD = 0 disables it (R552). -/
def execTokenRefill (i : Nat) (s : State) : Result :=
  .next (if i < 1024 ∧ fld s F.EVR_RATE_PERIOD i ≠ 0 then
    setFld s F.EVR_RATE_TOKENS i (min (fld s F.EVR_RATE_TOKENS i + 1) (fld s F.EVR_RATE_BURST i)) else s)

/-- A write of EVR_RATE_i sets TOKENS to the new BURST (R564). -/
def execEvrRateWrite (i : Nat) (value : Word) (s : State) : Result :=
  .next (if i < 1024 then
    setFlds s i [(F.EVR_RATE_BURST, getBits value 0 8), (F.EVR_RATE_PERIOD, getBits value 8 16),
      (F.EVR_RATE_TOKENS, getBits value 0 8)] else s)

/-- EVR accepts a firmware record: its code is 512 to 1,023, or 4 for EV_SHUTDOWN, and the upper half of P0 is zero
(R550, R565). -/
def fwRecordValid (code p0 : Nat) : Bool := (decide (512 ≤ code ∧ code < 1024) || code == 4) && decide (p0 < 65536)

/-- A write of EVR_FW_CMD_c. GO enters the record and STATUS tells its outcome (R551, R565). -/
def execEvrFwRecord (c : Nat) (value : Word) (s : State) : Result :=
  if c < s.part.cores then
    let code := getBits value 0 10
    let p0 := getBits value 32 32
    let t := setFlds s c [(F.EVR_FW_CMD_CODE, code), (F.EVR_FW_CMD_SEV, getBits value 10 3),
      (F.EVR_FW_CMD_PRIV, getBits value 13 1), (F.EVR_FW_CMD_P0, p0)]
    if bit value 14 then
      if fwRecordValid code p0 then
        let r := evrRequest t {
          code := code, sev := getBits value 10 3, priv := bit value 13, tag := p0,
          p1 := rd s .EVR_FW_P (4 * c), p2 := rd s .EVR_FW_P (4 * c + 1), p3 := rd s .EVR_FW_P (4 * c + 2),
          p4 := rd s .EVR_FW_P (4 * c + 3) }
        .next (setFld r.2 F.EVR_FW_CMD_STATUS c r.1.code)
      else .next (setFld t F.EVR_FW_CMD_STATUS c 0xF2)
    else .next t
  else .next s

/-- FLT accepts EVR's writes (R554). -/
def persistAccepted (s : State) : Bool := s.part.hasFlt && fltReads s

/-- The dirty pages with one changed. -/
def mapDirty (s : State) (page : Nat) (f : DirtyPage → DirtyPage) : State :=
  { s with evr := { s.evr with dirty := s.evr.dirty.map (fun d => if d.page = page then f d else d) } }

/-- A page write that fails or is not accepted keeps its page dirty, sets PERSIST_FAIL, and raises FK_EVR_PERSIST
once in a failure run (R554). -/
def persistFail (s : State) (page : Nat) : State :=
  let t := mapDirty s page (fun d => { d with writing := false, urgent := false, failed := some (now s) })
  let t := setFlag t F.EVR_STAT_PERSIST_FAIL 0 true
  if s.evr.failing then t
  else raiseSource (sendFault { t with evr := { t.evr with failing := true } } .evr 48 FK.evrPersist 5 0) 51

/-- EVR starts the write of a dirty page in MODE 0 (R554). -/
def execPagePersist (page : Nat) (s : State) : Result :=
  .next (match s.evr.dirty.find? (fun d => decide (d.page = page)) with
    | none => s
    | some d =>
      if d.writing || flag s F.EVR_CTL_MODE then s
      else if persistAccepted s then
        let x := busRead s portShared (fld s F.EVR_LOG_BASE_BASE + 4096 * page) 4096
        mapDirty x.2 page (fun d => { d with
          writing := true, again := false, urgent := false, image := x.1.getD [] })
      else persistFail s page)

/-- A page's write ends: the log area holds the page, which is clean unless it changed again meanwhile (R554). -/
def execPageWriteDone (page : Nat) (ok : Bool) (s : State) : Result :=
  .next (match s.evr.dirty.find? (fun d => decide (d.page = page)) with
    | none => s
    | some d =>
      if d.writing then
        if ok then
          let t := { s with evr := { s.evr with failing := false, area := tset (dflt []) s.evr.area page d.image } }
          if d.again then
            mapDirty t page (fun d => { d with writing := false, again := false, since := now s, image := [], failed := none })
          else { t with evr := { t.evr with dirty := t.evr.dirty.filter (fun d => decide (d.page ≠ page)) } }
        else persistFail s page
      else s)

/-- EV_LIFECYCLE, if a transition waits to be recorded (R588). -/
def recordLc (s : State) : State :=
  match s.sec.lcEvent with
  | some (a, b) =>
    evrEvent { s with sec := { s.sec with lcEvent := none } } 7 3 67 (BitVec.ofNat 64 (a % 8 + b % 8 * 8))
  | none => s

/-- A write of EVR_CTL (R556, R562, R588): EN = 1 is ignored while DRAM is not ready; MODE and PERSIST change only while
EN = 0; the first rise of EN since the chip reset starts loading, and records a life-cycle transition. -/
def execEvrEnable (value : Word) (s : State) : Result :=
  let en := bit value 0 && flag s F.BFM_DRAM_STAT_READY
  let t := if flag s F.EVR_CTL_EN then s
    else setFlds s 0 [(F.EVR_CTL_MODE, getBits value 1 1), (F.EVR_CTL_PERSIST, max 1 (getBits value 2 16))]
  let rise := en && !s.evr.started
  let t := setFlag t F.EVR_CTL_EN 0 en
  .next (if rise then
    recordLc (setFlag { t with evr := { t.evr with started := true } } F.EVR_STAT_LOADING 0 true) else t)

/-- A record's slot as EVR knows it, if its 64 bytes have a good MARK and CRC (R549). -/
def goodRecord (b : List Byte) : Option LogSlot :=
  let n (i k : Nat) : Nat := leNat ((b.drop i).take k)
  if n 60 1 = 0xC3 ∧ crc32c (b.take 56) = BitVec.ofNat 32 (n 56 4) then
    some { sev := n 2 1 % 8, seq := n 16 6, code := n 0 2 }
  else none

/-- The slots of the log memory that hold a valid record (R556), as its 64-byte lines stand in the cache or in DRAM:
those with a byte that is not zero. -/
def validSlots (s : State) (base : Nat) : List (Nat × Option LogSlot) :=
  let held := s.mem.map (fun c => c.1) ++ s.syc.lines.filterMap (fun c => c.2.map (fun x => 64 * x.line))
  let slots := (held.filter (fun a => decide (base ≤ a ∧ a < base + 0x400000))).map (fun a => (a - base) / 64)
  slots.foldl (fun l k => tset (dflt none) l k (goodRecord (peekLine s (base / 64 + k)))) []

/-- The record of greatest SEQ. -/
def newestSlot (l : List (Nat × Option LogSlot)) : Option LogSlot :=
  l.foldl (fun b c => match b, c.2 with
    | none, x => x
    | some d, some x => if d.seq < x.seq then some x else some d
    | some d, none => some d) none

/-- In MODE 0 the log area is copied into the log memory (R556). -/
def copyArea (s : State) (base : Nat) : State :=
  if flag s F.EVR_CTL_MODE then s
  else each s.evr.area (fun c t => (busWrite t portShared (base + 4096 * c.1) c.2).2) s

/-- Loading ends (R556): every slot is validated, EVR_SEQ_NEXT follows the largest valid SEQ, LOADED sets, and
EV_POWER_ON and then, with a cause held, EV_CHIP_RESET go into the log before the records of the ring. FK_CKR_TIMESTORE,
if it waits for this, is raised (R601). -/
def execEvrLoadDone (s : State) : Result :=
  if flag s F.EVR_STAT_LOADING && (flag s F.EVR_CTL_MODE || ready s F.CKR_READY_TIER_READ) then
    let base := fld s F.EVR_LOG_BASE_BASE
    let s1 := copyArea s base
    let v := validSlots s1 base
    let newest := newestSlot v
    let p1 : Word := match newest with
      | none => 0#64
      | some d => if d.code = 4 ∨ d.code = 2 then 0#64 else 1#64
    let ring := s1.evr.ring
    let s2 := { s1 with evr := { s1.evr with ring := [], log := v } }
    let s3 := setFld s2 F.EVR_SEQ_NEXT_SEQ 0 (match newest with | none => 0 | some d => d.seq + 1)
    let s4 := setFlag (setFlag s3 F.EVR_STAT_LOADING 0 false) F.EVR_STAT_LOADED 0 true
    let s5 := evrEvent s4 0 2 0 p1
    let s6 := if flag s5 F.FCL_CAUSE_INFO_VALID then
      evrEvent s5 1 3 0 (rd s5 .FCL_CAUSE 0) (rd s5 .FCL_CAUSE_INFO 0) else s5
    let s7 := drainOne (drainOne s6)
    let s8 := { s7 with evr := { s7.evr with ring := s7.evr.ring ++ ring } }
    let s9 := if s8.ckr.storeFault then
      sendFault { s8 with ckr := { s8.ckr with storeFault := false } } .ckr 0 FK.ckrTimestore 5 0 else s8
    .next (setReady s9 F.CKR_READY_EVR 0 true)
  else .next s

/-- A read of EVR_DIRTY_k returns its bits and clears them (R554). -/
def execEvrDirtyRead (k : Nat) (s : State) : Result :=
  .next (if k < 16 then wr (answer s (rd s .EVR_DIRTY k)) .EVR_DIRTY k 0#64 else s)

end Sys2Proof.Machine
end

