-- ==== Sys2Proof/Machine/Budget.lean ====
section
/-!
DEFINITION. The host personality (R379), the protected cache and its budget as the registers of GLY report them (R357
to R359, R374, R384), and LOOM's deques (R300), which several blocks push to.
-/

namespace Sys2Proof.Machine

/-! ### The personality -/

/-- The SAS personality (R379). -/
def isSas (s : State) : Bool := if s.part.hasPcie && s.part.hasSas then s.board.hostSel else s.part.hasSas

/-- Two controllers on the dual x2 port (R372, R379). -/
def isDual (s : State) : Bool := s.board.peMode && !isSas s

/-- Controllers or ports present: one NVMe controller, two with two x2 ports, two SAS ports (R383, R389). -/
def hostPorts (s : State) : Nat := if isSas s || isDual s then 2 else 1

/-- Something sent to the host. -/
def toHost (s : State) (o : HostOut) : State := { s with hfe := { s.hfe with out := s.hfe.out ++ [o] } }

/-! ### Slots -/

/-- Slot n. -/
def glySlot (s : State) (n : Nat) : Slot := tget (dflt {}) s.gly.slots n

/-- Slot n replaced. -/
def setGlySlot (s : State) (n : Nat) (x : Slot) : State :=
  { s with gly := { s.gly with slots := tset (dflt {}) s.gly.slots n x } }

/-- A slot changed. -/
def modGlySlot (s : State) (n : Nat) (f : Slot → Slot) : State := setGlySlot s n (f (glySlot s n))

/-- The occupied slots. -/
def occupiedSlots (s : State) : List (Nat × Slot) := s.gly.slots.filter (fun e => decide (e.2.st ≠ .free))

/-- Slots occupied. -/
def occupied (s : State) : Nat := (occupiedSlots s).length

/-! ### The protected cache -/

/-- The effective budget in 8 MiB units (R358). -/
def effBudget (s : State) : Nat := min (fld s F.GLY_BUDGET_SIZE) (fld s F.SPN_HU_STAT_B_MAX)

/-- The states of the protected cache, in PC_STATE's encoding (R374). -/
inductive PcState where
  | none | ready | retiring
deriving DecidableEq, Repr

/-- The protected cache (R358, R359): RETIRING from the tier's request for retirement until it is RETIRED. -/
def pcState (s : State) : PcState :=
  let st := fltState s
  if (st = .ready ∨ st = .constrained) ∧ flag s F.SPN_HU_STAT_VALID = true ∧ effBudget s ≠ 0 then
    if flag s F.FLT_STAT_RETIRE_REQ then .retiring else .ready
  else .none

/-- PC_STATE's encoding. -/
def PcState.code : PcState → Nat
  | .none => 0 | .ready => 1 | .retiring => 2

/-- Bytes rounded up to 4 KiB units. -/
def units4k (n : Nat) : Nat := (n + 4095) / 4096

/-- Budget reserved, in 4 KiB units: by transfers under way and by versions that depend on the hold-up flush (R37). -/
def budgetReserved (s : State) : Nat :=
  ((occupiedSlots s).map (fun e => if e.2.moving && e.2.budgeted then e.2.charge else 0)).sum +
    units4k ((s.gly.index.map (fun v => if v.budgeted then v.charge else 0)).sum)

/-- Protected data not yet destaged, in 4 KiB units. -/
def budgetDirty (s : State) : Nat :=
  units4k ((s.gly.index.map (fun v => if v.budgeted && !v.clean then v.charge else 0)).sum)

/-- B_MAX lies below what is reserved (R358): Galley grants no reservation. -/
def budgetCut (s : State) : Bool := decide (fld s F.SPN_HU_STAT_B_MAX * 2048 < budgetReserved s)

/-! ### Outcomes and posting (R356) -/

/-- A success code (R339). -/
def okStatus (w : Word) : Bool := decide (getBits w 0 8 ≤ 1)

/-- A slot's outcome is a failure. -/
def slotFailed (x : Slot) : Bool :=
  x.special.isSome || (match x.outcome with | some w => !okStatus w | none => false)

/-- Galley is frozen (Table 9.5, R297, R369). -/
def glyFrozen (s : State) : Bool := powerLost s || safeState s

/-- A version is durable as things stand (R349): destaged, or within the budget of a protected cache that is READY. -/
def safeVersion (s : State) (v : Version) : Bool := v.clean || (v.durable && decide (pcState s = .ready))

/-- Every block of a write is durable. -/
def writeDurable (s : State) (asn : Nat) : Bool :=
  (s.gly.index.filter (fun v => decide (v.asn = asn))).all (safeVersion s)

/-- A flush. -/
def isFlush (x : Slot) : Bool := match x.cls with | .flush => true | .syncCache im => !im | _ => false

/-- R348: every write in the flush's scope that was posted before its fetch is durable. -/
def flushDone (s : State) (x : Slot) : Bool :=
  s.gly.index.all (fun v => !(decide (x.nsid = 0xFFFFFFFF ∨ v.nsid = x.nsid) &&
    (match v.posted with | some q => decide (q ≤ x.fetchSeq) | none => false) && !v.durable))

/-- The volatile write cache is on for a slot's controller (R372). -/
def vwcOn (s : State) (x : Slot) : Bool := Nat.testBit (fld s F.GLY_CTL_VWC_EN) x.ctrl

/-- Some occupied slot other than n satisfies the test. -/
def otherSlot (s : State) (n : Nat) (p : Nat → Slot → Bool) : Bool :=
  (occupiedSlots s).any (fun e => decide (e.1 ≠ n) && p e.1 e.2)

/-- A slot meets every condition of R356 that its own command, its zone and its write or flush set. -/
def slotReady (s : State) (n : Nat) : Bool :=
  let x := glySlot s n
  decide (x.st = .gated ∧ x.descOut = 0 ∧ x.holds = 0) && x.outcome.isSome &&
  (slotFailed x || !x.landed || writeDurable s x.asn || (vwcOn s x && !x.fua)) &&
  (slotFailed x || !isFlush x || flushDone s x) &&
  (x.zone.isNone || !otherSlot s n (fun _ y => decide (y.zone = x.zone ∧ y.asn < x.asn)))

/-- A slot may be posted, with its pair (R352). -/
def pairReady (s : State) (n : Nat) : Bool :=
  slotReady s n && (match (glySlot s n).pair with | some m => slotReady s m | none => true)

/-- The slots that may be posted, in the order in which they came to (R356): the ones that still may keep their places. -/
def orderSync (s : State) : State :=
  let now := ((occupiedSlots s).map (fun e => (e.1, e.2.asn))).filter (fun e => pairReady s e.1)
  { s with gly := { s.gly with
    order := s.gly.order.filter (fun e => decide (e ∈ now)) ++ now.filter (fun e => decide (e ∉ s.gly.order)) } }

/-- The registers by which GLY reports itself brought up to date (R358, R365, R374, R384, R607): a change of the
protected cache raises source 195 and moves CKR_READY's PROTECTED; a change of AWU_256K tells every controller; a drain is
done when no slot is occupied. The posting order follows too (R356). -/
def glySync (s : State) : State :=
  let s := orderSync s
  let pc := pcState s
  let old := fld s F.GLY_BUDGET_STAT_PC_STATE
  let res := min (budgetReserved s) (2 ^ 17 - 1)
  let waiting := ((occupiedSlots s).filter (fun e => decide (e.2.st = .waitBudget))).length
  let occ := occupied s
  let t := setFlds s 0 [(F.GLY_BUDGET_EFFECTIVE, effBudget s), (F.GLY_BUDGET_STAT_PC_STATE, pc.code),
    (F.GLY_BUDGET_STAT_AWU_256K, b2n (decide (pc = .ready))), (F.GLY_BUDGET_STAT_RESERVED, res),
    (F.GLY_BUDGET_STAT_DIRTY, min (budgetDirty s) (2 ^ 17 - 1)), (F.GLY_BUDGET_STAT_WAITING, waiting),
    (F.GLY_STAT_OCCUPIED, occ), (F.GLY_STAT_DISPATCH_BLOCKED, b2n (!s.gly.items.isEmpty)),
    (F.GLY_DRAIN_OCCUPIED, occ)]
  let t := when (decide (pc.code ≠ old)) (fun u => raiseSource u 195) t
  let t := setReady t F.CKR_READY_PROTECTED 0 (decide (pc = .ready))
  let t := when (decide ((pc = .ready) ≠ (old = 1)) && !isSas t)
    (fun u => each (List.range (hostPorts u)) (fun p v => toHost v (.namespaceChanged p)) u) t
  let t := when (!s.gly.items.isEmpty && !flag s F.GLY_STAT_DISPATCH_BLOCKED) (fun u => raiseSource u 194) t
  if flag t F.GLY_DRAIN_GO && !flag t F.GLY_DRAIN_DONE && decide (occ = 0) then
    raiseSource (setFlag t F.GLY_DRAIN_DONE 0 true) 193
  else t

/-! ### The tier's states -/

/-- FltState's encoding in FLT_STAT.STATE (R489). -/
def FltState.code : FltState → Nat
  | .off => 0 | .init => 1 | .unformatted => 2 | .down => 3 | .serving => 4 | .ready => 5 | .constrained => 6
  | .retired => 7

/-- The tier enters a state (R489, R607): source 930, its readiness bits, and the protected cache that follows it. -/
def fltGo (s : State) (st : FltState) : State :=
  let t := raiseSource (setFld s F.FLT_STAT_STATE 0 st.code) 930
  let t := setReady t F.CKR_READY_TIER_READ 0 (fltReads t)
  glySync (setReady t F.CKR_READY_TIER_WRITE 0 (fltWrites t))

/-- OFF with EN = 1 and DRAM ready moves to INIT (Table 13.6). -/
def fltTryInit (s : State) : State :=
  if s.part.hasFlt && decide (fltState s = .off) && flag s F.FLT_CTL_EN && flag s F.BFM_DRAM_STAT_READY then
    fltGo s .init
  else s

/-! ### LOOM's deques -/

/-- An engine of R27 is present. -/
def enginePresent (s : State) (e : Nat) : Bool :=
  if e < 16 then decide (e < s.part.cores) else decide (e < 40 ∧ e - 16 < s.part.shuttles)

/-- The deque of an engine, top first. -/
def dequeOf (s : State) (e : Nat) : List Word := tget (dflt []) s.loom.deques e

/-- The deque of an engine replaced. -/
def setDeque (s : State) (e : Nat) (l : List Word) : State :=
  { s with loom := { s.loom with deques := tset (dflt []) s.loom.deques e l } }

/-- A task word pushed to the bottom of an engine's deque; none when the engine is absent or its deque holds 64. -/
def dequePush (s : State) (e : Nat) (w : Word) : Option State :=
  if enginePresent s e && decide ((dequeOf s e).length < 64) then some (setDeque s e (dequeOf s e ++ [w])) else none

end Sys2Proof.Machine
end

