-- ==== Sys2Proof/Machine/Slots.lean ====
section
/-!
DEFINITION. Galley's slots, overlap table and write-buffer index: the operations that the GLY commands, the Coava slot
instructions and the Bobbin channels share (R293 to R297, R335 to R346, R349, R353 to R356).
-/

namespace Sys2Proof.Machine

/-- The Bobbin channels Galley uses: engine 0 (R340). -/
abbrev portGlyChannel : Port := { idx := 4, stream := 0, coh := true }

/-! ### Outcomes -/

/-- Table 9.19: an outcome STATUS to the row of Table 10.6. -/
def statusRow (st : Nat) : HostStatus :=
  if st ≤ 1 then .success
  else if 0x30 ≤ st ∧ st ≤ 0x34 then .unrecovered
  else if st = 0x5A then .hdaBlocked
  else if 0xC0 ≤ st ∧ st ≤ 0xC5 then .transferError
  else if st = 0xF8 then .noSpare
  else if st = 0xF9 then .interrupted
  else if st = 0xFA then .notReady
  else if st = 0xFB then .abortRequested
  else if st = 0xFC then .zoneInvalid
  else if st = 0xFD then .compareFailure
  else if st = 0xFF then .absentUnit
  else .otherFailure

/-- Table 10.6, NVMe: (SCT, SC, DNR); none where the spec names a status and gives no number, or gives none. -/
def HostStatus.nvme : HostStatus → Option (Nat × Nat × Bool)
  | .unrecovered => some (2, 0x81, false)
  | .noSpare => some (2, 0x80, false)
  | .guardCheck => some (2, 0x82, false)
  | .appTagCheck => some (2, 0x83, false)
  | .refTagCheck => some (2, 0x84, false)
  | .compareFailure => some (2, 0x85, false)
  | .notReady => some (0, 0x82, false)
  | .hdaBlocked => some (0, 0x82, true)
  | .transferError => some (0, 0x04, false)
  | .interrupted => some (0, 0x21, false)
  | .zoneInvalid => some (1, 0xBC, false)
  | .absentUnit => some (0, 0x02, false)
  | .abortRequested => some (0, 0x07, false)
  | .otherFailure => some (0, 0x06, false)
  | .accessDenied => some (2, 0x86, false)
  | _ => none

/-- Table 10.6, SAS: additional sense code and qualifier; none where the table gives no sense. -/
def HostStatus.sense : HostStatus → Option (Nat × Nat)
  | .unrecovered => some (0x11, 0x00)
  | .noSpare => some (0x32, 0x00)
  | .guardCheck => some (0x10, 0x01)
  | .appTagCheck => some (0x10, 0x02)
  | .refTagCheck => some (0x10, 0x03)
  | .compareFailure => some (0x1D, 0x00)
  | .notReady => some (0x04, 0x01)
  | .hdaBlocked => some (0x04, 0x03)
  | .transferError => some (0x47, 0x00)
  | .interrupted => some (0x2C, 0x00)
  | .zoneInvalid => some (0x21, 0x04)
  | .absentUnit => some (0x24, 0x00)
  | .abortRequested => some (0x00, 0x00)
  | .otherFailure => some (0x44, 0x00)
  | .safeState => some (0x04, 0x00)
  | .accessDenied => some (0x20, 0x02)
  | .manyRanges => some (0x21, 0x00)
  | _ => none

/-- What a slot's completion tells the host (R339). -/
def slotStatus (x : Slot) : HostStatus :=
  match x.special with
  | some h => h
  | none => (match x.outcome with | some w => statusRow (getBits w 0 8) | none => .success)

/-! ### Formats and encryption (R387, R583) -/

/-- A key-value command (R341). -/
def isKv (cls : CmdClass) : Bool :=
  cls == .kvStore || cls == .kvRetrieve || cls == .kvDelete || cls == .kvExist || cls == .kvList

/-- Bytes of data in a block of an LBA format (Table 10.4). -/
def lbaData (lbaf : Nat) : Nat := if lbaf = 2 then 512 else 4096

/-- Bytes of protection information in a block of an LBA format (Table 10.4). -/
def lbaMeta (lbaf : Nat) : Nat := if lbaf = 1 then 8 else 0

/-- Bytes of a block of an LBA format as stored. -/
def blockBytes (lbaf : Nat) : Nat := lbaData lbaf + lbaMeta lbaf

/-- The locking ranges of a namespace with the keys their slots hold (R584). -/
def rangeKeys (s : State) (nsid : Nat) : List ((Nat × Nat) × Option Nat) :=
  ((List.range 129).filter (fun i => decide (i ≠ 0) && flag s F.SEC_RANGE_VALID i &&
    decide (fld s F.SEC_RANGE_NSID_M1 i + 1 = nsid))).map (fun i =>
      ((fld s F.SEC_RANGE_FIRST i, fld s F.SEC_RANGE_LEN_BLOCKS i), tget (dflt none) s.sec.keys i))

/-- The key of a block, of those its command began with (R584). -/
def blockKey (x : Slot) (lba : Nat) : Option Nat :=
  match x.keys.find? (fun e => decide (e.1.1 ≤ lba ∧ lba < e.1.1 + e.1.2)) with
  | some e => e.2
  | none => x.key0

/-- One data unit encrypted or decrypted (R583). -/
def cipherUnit (enc : Bool) (x : Slot) (lba : Nat) (data : List Byte) : List Byte :=
  (List.range data.length).map (fun i => Config.xts enc (blockKey x lba) x.nsid lba i data i)

/-- One block encrypted or decrypted, its protection information in clear (R583); a key-value command's value is one
unit. -/
def cipherBlock (enc : Bool) (x : Slot) (lba : Nat) (data : List Byte) : List Byte :=
  let n := if isKv x.cls then data.length else lbaData x.lbaf
  cipherUnit enc x lba (data.take n) ++ data.drop n

/-- Blocks of so many bytes, from a first one on, encrypted. -/
def cipherUnits (x : Slot) (first blk : Nat) (data : List Byte) : List Byte :=
  (List.range (data.length / max 1 blk)).flatMap (fun k => cipherBlock true x (first + k) ((data.drop (k * blk)).take blk))

/-- Blocks as the host sends them made blocks as stored: with PRACT each has its protection information generated (R388),
whose fields are another standard's. -/
def storedBlocks (x : Slot) (first n : Nat) (data : List Byte) : List Byte :=
  let w := lbaData x.lbaf
  if x.pract && decide (x.lbaf = 1) then
    (List.range n).flatMap (fun k =>
      let d := (data.drop (k * w)).take w
      d ++ (List.range (lbaMeta x.lbaf)).map (Config.piByte x.nsid (first + k) d))
  else data.take (n * blockBytes x.lbaf)

/-- A block as the host receives it: with PRACT its protection information is stripped (R388). -/
def hostBlock (x : Slot) (data : List Byte) : List Byte :=
  if x.pract && decide (x.lbaf = 1) then data.take (lbaData x.lbaf) else data

/-- One byte of a host transfer encrypted or decrypted, at its place in its command's data. -/
def cipherByte (enc : Bool) (x : Slot) (data : List Byte) (place i : Nat) : Byte :=
  let w := if x.pract then lbaData x.lbaf else blockBytes x.lbaf
  let k := place / w
  let o := place % w
  if o < lbaData x.lbaf then Config.xts enc (blockKey x (x.slba + k)) x.nsid (x.slba + k) o data i
  else data.getD i 0#8

/-- A beat between host and device space, for the slot it names, through HFE (R583): the user data of a media command is
encrypted on its way in and decrypted on its way out; what names no such slot passes as it is. Under SAS a host address is
the offset within the command's data (R442). -/
def cipherBeat (s : State) (enc : Bool) (slot : Option (Nat × Nat)) (addr : Nat) (data : List Byte) : List Byte :=
  match slot with
  | none => data
  | some (m, asn) =>
    let x := glySlot s m
    if x.st = .free ∨ x.asn ≠ asn ∨ x.okind = 0 ∨ x.okind = 3 then data
    else (List.range data.length).map (fun i =>
      cipherByte enc x data (if isSas s then addr + i else Config.hostPlace x.cmd (addr + i)) i)

/-! ### Queue contexts -/

/-- Context q. -/
def ctxQ (s : State) (q : Nat) : QCtx := tget (dflt {}) s.gly.ctx q

/-- Context q replaced. -/
def setCtxQ (s : State) (q : Nat) (c : QCtx) : State :=
  { s with gly := { s.gly with ctx := tset (dflt {}) s.gly.ctx q c } }

/-- A word of memory as it stands, without the effects of an access. -/
def peekWord (s : State) (addr : Nat) : Word :=
  if regionOf s addr = .dram then BitVec.ofNat 64 (leNat (((peekLine s (addr / 64)).drop (addr % 64)).take 8))
  else readWord s addr

/-- Word 2 of a context's extension (R329). -/
def extSizes (s : State) (q : Nat) : Word := peekWord s (fld s F.GLY_QEXT_BASE_BASE + 32 * q + 16)

/-- Entries of a context's submission queue. -/
def sqSize (s : State) (q : Nat) : Nat := getBits (extSizes s q) 0 16 + 1

/-- Entries of a context's completion queue. -/
def cqSize (s : State) (q : Nat) : Nat := getBits (extSizes s q) 16 16 + 1

/-- The first context of a controller: its admin queue (R328). -/
def ctlBase (s : State) (p : Nat) : Nat := if isDual s then 32768 * p else 0

/-- The controller of a context. -/
def ctlOf (s : State) (q : Nat) : Nat := if isDual s then q / 32768 else 0

/-! ### Versions (R343, R344) -/

/-- The higher ASN of a version and one found before. -/
def newer (b : Option Version) (v : Version) : Option Version :=
  match b with
  | some w => if w.asn < v.asn then some v else b
  | none => some v

/-- The version of highest ASN below a bound, of one block, that lookup sees. -/
def blockVersion (s : State) (nsid lba bound : Nat) : Option Version :=
  (s.gly.index.filter (fun v => decide (v.nsid = nsid ∧ v.lba = lba ∧ v.asn < bound) && !v.retired && !v.pinned)).foldl
    newer none

/-- The index changed. -/
def mapIndex (s : State) (f : Version → Version) : State := { s with gly := { s.gly with index := s.gly.index.map f } }

/-- The index filtered. -/
def filterIndex (s : State) (p : Version → Bool) : State :=
  { s with gly := { s.gly with index := s.gly.index.filter p } }

/-- A block of a slot's range. -/
def coversBlock (x : Slot) (nsid lba : Nat) : Bool :=
  decide (x.nsid = nsid ∧ x.slba ≤ lba ∧ lba < x.slba + x.nlb)

/-- A version is retired by one of higher ASN (R344): that one durable, and no occupied read between them. -/
def retiredBy (s : State) (v w : Version) : Bool :=
  decide (v.nsid = w.nsid ∧ v.lba = w.lba ∧ v.asn < w.asn) && w.durable &&
    !(occupiedSlots s).any (fun e => decide (e.2.okind = 1 ∧ v.asn < e.2.asn ∧ e.2.asn < w.asn) &&
      coversBlock e.2 v.nsid v.lba)

/-- Versions retired and released (R344, R37): a retired version is released with its destage, or when the destage of the
version that covers it is confirmed. A version whose covering one is discarded, or is durable no more, is not retired
(R39); a pinned one that is held elsewhere as well is released (R164). -/
def retireVersions (s : State) : State :=
  let t := mapIndex s (fun v => { v with retired := s.gly.index.any (retiredBy s v) })
  filterIndex t (fun v => !((v.pinned && v.clean) || (v.retired && (v.clean || t.gly.index.any (fun w =>
    decide (v.nsid = w.nsid ∧ v.lba = w.lba ∧ v.asn < w.asn) && w.clean)))))

/-- The versions of an aborted or failed write discarded (R344, R347); what they had retired is retired no more (R39). -/
def discardVersions (s : State) (asn : Nat) : State := retireVersions (filterIndex s (fun v => decide (v.asn ≠ asn)))

/-- A block lies in one of some ranges. -/
def inRanges (l : List (Nat × Nat)) (lba : Nat) : Bool := l.any (fun r => decide (r.1 ≤ lba ∧ lba < r.1 + r.2))

/-- The pinned data of deallocated or sanitised blocks is released (R165). -/
def releasePinned (s : State) (x : Slot) : State :=
  filterIndex s (fun v => !(v.pinned && decide (v.nsid = x.nsid ∧ v.asn < x.asn) && inRanges x.freed v.lba))

/-! ### Zones (R353, R354) -/

/-- The address of the entry of the zone that holds a block of a namespace; none when the namespace has no zones. -/
def zoneEntry (s : State) (nsid lba : Nat) : Option Nat :=
  if 1 ≤ nsid ∧ nsid ≤ 128 then
    let d := fld s F.GLY_ZONE_BASE_BASE + 16 * (nsid - 1)
    let w0 := peekWord s d
    let w1 := peekWord s (d + 8)
    if bit w1 32 then
      let z := lba / 2 ^ getBits w0 40 6
      if z < getBits w1 0 32 then some (getBits w0 0 40 + 16 * z) else none
    else none
  else none

/-- The first block of the zone that holds a block. -/
def zoneStart (s : State) (nsid lba : Nat) : Nat :=
  let z := 2 ^ getBits (peekWord s (fld s F.GLY_ZONE_BASE_BASE + 16 * (nsid - 1))) 40 6
  lba / z * z

/-- A field of a zone entry's word written through the system cache. -/
def zoneSet (s : State) (addr lo w v : Nat) : State :=
  match busReadWord s portGly addr with
  | (some x, t) => (busWriteWord t portGly addr (setBits x lo w v)).2
  | (none, t) => t

/-! ### Slots -/

/-- Dormant (R336). -/
def SlotState.dormant (st : SlotState) : Bool := st == .accepted || st == .waitOrder || st == .waitBudget

/-- The slot a handle names (R293). -/
def byHandle (s : State) (h : Nat) : Option Nat :=
  let n := h % 8192
  let x := glySlot s n
  if x.st ≠ .free ∧ x.asn % 2 ^ 40 = h / 8192 % 2 ^ 40 then some n else none

/-- A slot becomes FREE: its overlap entry goes, its queue's INFLIGHT falls, and a task management function whose last
target it was is answered (R341, R361). -/
def freeSlot (s : State) (n : Nat) : State :=
  let x := glySlot s n
  let t := setGlySlot s n {}
  let t := if isSas t || x.sideband then t else
    let c := ctxQ t x.queue
    setCtxQ t x.queue { c with inflight := c.inflight - 1 }
  let tasks := t.gly.tasks.map (fun k => { k with targets := k.targets.filter (fun p => decide (p ≠ (n, x.asn))) })
  let t := { t with gly := { t.gly with tasks := tasks.filter (fun k => !k.targets.isEmpty) } }
  each (tasks.filter (fun k => k.targets.isEmpty)) (fun k u => toHost u (.functionComplete k.port k.nexus)) t

/-- The transitions that end work on a slot (R336): DISPATCHED to GATED, ORPHAN to FREE; a failed orphan acts on no block
(R347). Frozen, no slot changes state (R369). -/
def slotEval (s : State) (n : Nat) : State :=
  let x := glySlot s n
  if x.outcome.isSome && decide (x.holds = 0 ∧ x.descOut = 0) && !glyFrozen s then
    if x.st = .dispatched then setGlySlot s n { x with st := .gated }
    else if x.st = .orphan ∧ x.moving = false then
      if slotFailed x then discardVersions (freeSlot s n) x.asn else retireVersions (freeSlot s n)
    else s
  else s

/-- A slot leaves work undone and waits for its posting with an outcome: reservation released, data discarded. -/
def endDormant (s : State) (n : Nat) (w : Word) : State :=
  let x := glySlot s n
  discardVersions (setGlySlot s n { x with st := .gated, outcome := some w, charge := 0, rsv := 0, moving := false }) x.asn

/-- A zone's write or append fails before it is posted (R353): every later one of the zone fails with Zone Invalid Write,
and PWP returns. -/
def zoneFail (s : State) (n : Nat) : State :=
  let x := glySlot s n
  match x.zone with
  | none => s
  | some e =>
    let later := (occupiedSlots s).filter (fun y => decide (y.2.zone = some e ∧ x.asn < y.2.asn))
    let t := each later (fun y u =>
      let v := glySlot u y.1
      if v.st.dormant then endDormant u y.1 0xFC#64
      else if slotFailed v then u
      else slotEval (setGlySlot u y.1 { v with outcome := some 0xFC#64 }) y.1) s
    zoneSet t e 0 40 x.slba

/-- A slot's outcome given (R295, R338): the first failure stands, and a descriptor's failure replaces a success. -/
def giveOutcome (s : State) (n : Nat) (w : Word) : State :=
  let x := glySlot s n
  let w := match x.descFail with
    | some f => if okStatus w then setBits w 0 8 f else w
    | none => w
  let now := match x.outcome with
    | some o => if okStatus o && !okStatus w then w else o
    | none => w
  let t := setGlySlot s n { x with outcome := some now }
  let t := if !okStatus now && !slotFailed x then zoneFail t n else t
  slotEval t n

/-- A descriptor that named a slot failed (R338). -/
def descriptorFailed (s : State) (n status : Nat) : State :=
  let x := glySlot s n
  let t := if x.descFail.isNone then setGlySlot s n { x with descFail := some status } else s
  match x.outcome with
  | some o => if okStatus o then giveOutcome t n (setBits o 0 8 status) else t
  | none => t

/-! ### Overlap and order (R342, R351, R355) -/

/-- Two commands conflict (R341, R342). -/
def conflicts (x y : Slot) : Bool :=
  decide (x.nsid = y.nsid) && (decide (x.okind = 3 ∨ y.okind = 3) ||
    (decide (x.okind ≠ 0 ∧ y.okind ≠ 0 ∧ (x.okind ≠ 1 ∨ y.okind ≠ 1)) &&
      decide (x.slba < y.slba + y.nlb ∧ y.slba < x.slba + x.nlb)))

/-- x goes before y: by ASN, but for what a HEAD OF QUEUE command was put before (R351). -/
def goesBefore (x y : Slot) : Bool :=
  if y.asn ∈ x.ahead then true else if x.asn ∈ y.ahead then false else decide (x.asn < y.asn)

/-- The OP-1 read gate is closed. -/
def gateRead (s : State) (n : Nat) (x : Slot) : Bool :=
  decide (x.okind = 1) && otherSlot s n (fun _ y => goesBefore y x && conflicts x y && decide (y.okind ≠ 1))

/-- The OP-1 media write gate is closed. -/
def gateMedia (s : State) (n : Nat) (x : Slot) : Bool :=
  x.landed && (otherSlot s n (fun _ y => goesBefore y x && conflicts x y && y.outcome.isNone) ||
    s.gly.index.any (fun v => coversBlock x v.nsid v.lba && decide (v.asn < x.asn) && v.destaging))

/-- The OP-1 namespace gate is closed. -/
def gateNamespace (s : State) (n : Nat) (x : Slot) : Bool :=
  otherSlot s n (fun _ y => goesBefore y x && conflicts x y && decide (x.okind = 3 ∨ y.okind = 3))

/-- The OP-5 gate is closed (R351). -/
def gateOrder (s : State) (n : Nat) (x : Slot) : Bool :=
  isSas s && otherSlot s n (fun _ y => decide (y.nsid = x.nsid) &&
    ((decide (x.attr = 1 ∧ y.asn < x.asn)) ||
     (decide (y.attr = 1 ∧ y.asn < x.asn) && !(decide (x.attr = 2) && y.st.dormant)) ||
     (decide (y.attr = 2) && y.st.dormant && goesBefore y x)))

/-- The OP-6 gate is closed (R352). -/
def gateFused (s : State) (n : Nat) (x : Slot) : Bool :=
  otherSlot s n (fun m y => goesBefore y x && conflicts x y && decide (y.okind = 4 ∧ x.pair ≠ some m))

/-- A gate of OP-1 is closed. -/
def gateOverlap (s : State) (n : Nat) (x : Slot) : Bool := gateRead s n x || gateMedia s n x || gateNamespace s n x

/-- Every gate of Table 9.5 that applies is open. -/
def gatesOpen (s : State) (n : Nat) (x : Slot) : Bool :=
  !gateOverlap s n x && !gateOrder s n x && !gateFused s n x && !glyFrozen s

/-! ### Slot operations (R293 to R297) -/

/-- The slot status word (Table 8.7). -/
def statusWord (s : State) (n : Nat) : Word :=
  let x := glySlot s n
  BitVec.ofNat 64 (1 + b2n x.outcome.isSome * 2 + x.holds % 16 * 4 +
    b2n (x.st == .waitOrder && gateOverlap s n x) * 64 + b2n x.abortReq * 128 + x.asn % 2 ^ 40 * 256)

/-- COMPLETE (R295): its status and the state. The outcome of a write that found no spare raises FK_WRITE_NO_SPARE, on
the write path's fault source (R162). -/
def slotComplete (s : State) (handle : Nat) (w : Word) : Nat × State :=
  if glyFrozen s then (0x8A, s)
  else match byHandle s handle with
    | none => (0x89, s)
    | some n =>
      let t := glySync (giveOutcome s n w)
      (0x00, when (decide (getBits w 0 8 = 0xF8)) (fun u => sendFault u .wrp 512 FK.writeNoSpare 6 0) t)

/-- HOLD (R296): its status and the state. -/
def slotHold (s : State) (handle : Nat) (add : Bool) : Nat × State :=
  if glyFrozen s then (0x8A, s)
  else match byHandle s handle with
    | none => (0x89, s)
    | some n =>
      let x := glySlot s n
      if add then
        if 15 ≤ x.holds then (0x8B, s) else (0x00, glySync (setGlySlot s n { x with holds := x.holds + 1 }))
      else (0x00, glySync (slotEval (setGlySlot s n { x with holds := x.holds - 1 }) n))

/-- A descriptor that names a slot is queued (R338, R443). -/
def descQueued (s : State) (n : Nat) : State := modGlySlot s n (fun x => { x with descOut := x.descOut + 1 })

/-- A descriptor that names a slot has finished, every response in (R450): failed or not. A frozen slot stays as it is
(R369). -/
def descFinished (s : State) (n asn : Nat) (fail : Option Nat) : State :=
  let x := glySlot s n
  if x.st = .free ∨ x.asn ≠ asn ∨ glyFrozen s = true then s
  else
    let t := setGlySlot s n { x with descOut := x.descOut - 1 }
    let t := match fail with | some f => descriptorFailed t n f | none => t
    glySync (slotEval t n)

end Sys2Proof.Machine
end

