-- ==== Sys2Proof/Machine/Gly.lean ====
section
/-!
DEFINITION. Galley's commands: doorbells and fetch (R328 to R333), acceptance (R334, R341, R353), dispatch (R336, R337,
R343, R355), reservation and landing (R349, R357), posting (R352, R353, R356), the core ports (R345, R346, R375, R376),
aborts (R360, R361), host resets (R363), drain (R365) and the ASN floor (R371).
-/

namespace Sys2Proof.Machine

/-! ### Doorbells and fetch -/

/-- A host doorbell (R328); a queue that does not exist takes none, and a new tail ends a wait for a second half. -/
def execDoorbell (p qid : Nat) (cq : Bool) (value : Nat) (s : State) : Result :=
  let q := ctlBase s p + qid
  let c := ctxQ s q
  if isSas s ∨ hostPorts s ≤ p then .next s
  else if cq then
    if c.cqEn then .next (setCtxQ s q { c with cqHead := value % 65536 }) else .next s
  else if c.sqEn then
    let t := setCtxQ s q { c with sqTail := value % 65536 }
    .next { t with gly := { t.gly with fusedWait := t.gly.fusedWait.filter (fun k => decide (k ≠ q)) } }
  else .next s

/-- Entries behind the tail of a queue that may be fetched. -/
def entriesIn (s : State) (q : Nat) : Nat :=
  let c := ctxQ s q
  let n := sqSize s q
  if c.sqEn && !c.fetchErr && decide (q ∉ s.gly.fusedWait) then (c.sqTail + n - c.sqHead % n) % n else 0

/-- Slots free. -/
def freeSlots (s : State) : Nat := 8192 - occupied s

/-- A queue of a controller may be granted (R331): it has entries, and room beside the slots kept for admin queues. -/
def grantable (s : State) (p q : Nat) : Bool :=
  decide (0 < entriesIn s q) &&
    (decide (q = ctlBase s p) || decide (fld s F.GLY_CTL_ADMIN_RSV < freeSlots s))

/-- The queues of a controller that may be granted, by context index. -/
def readyQueues (s : State) (p : Nat) : List Nat :=
  ((s.gly.ctx.map (·.1)).filter (fun q => ctlOf s q == p)).filter (grantable s p)

/-- The next of some indices under R25: the first at or after a pointer, wrapping. -/
def nextOf (l : List Nat) (ptr : Nat) : Option Nat := (l.find? (fun q => decide (ptr ≤ q))).or l.head?

/-- A level's pointer: the key is controller × 8 + level; 7 serves round robin. -/
def levelPtr (s : State) (k : Nat) : Nat := tget (dflt 0) s.gly.ptrs k

/-- The weight of a level, 1 to 256 (R331): 1 high, 2 medium, 3 low. -/
def levelWeight (s : State) (p l : Nat) : Nat :=
  (match l with
   | 1 => fld s F.GLY_ARB_CTL_HPW p
   | 2 => fld s F.GLY_ARB_CTL_MPW p
   | _ => fld s F.GLY_ARB_CTL_LPW p) + 1

/-- The credit of a level. -/
def levelCredit (s : State) (p l : Nat) : Nat := tget (dflt 0) s.gly.credits (8 * p + l)

/-- The credit of a level set. -/
def setCredit (s : State) (p l v : Nat) : State :=
  { s with gly := { s.gly with credits := tset (dflt 0) s.gly.credits (8 * p + l) v } }

/-- A pick within a level: the queue, with the pointer moved past it. -/
def pickLevel (s : State) (p l : Nat) (qs : List Nat) : Option (Nat × State) :=
  match nextOf qs (levelPtr s (8 * p + l)) with
  | some q => some (q, { s with gly := { s.gly with ptrs := tset (dflt 0) s.gly.ptrs (8 * p + l) (q + 1) } })
  | none => none

/-- The weighted pick (R331): the queue and its level. -/
def pickWeighted (s : State) (p : Nat) (qs : List Nat) : Option (Nat × Nat × State) :=
  let ofLevel (l : Nat) : List Nat := qs.filter (fun q => decide ((ctxQ s q).prio = l))
  let has (t : State) : Option Nat := [1, 2, 3].find? (fun l => decide (0 < levelCredit t p l) && !(ofLevel l).isEmpty)
  let s' := match has s with
    | some _ => s
    | none => each [1, 2, 3] (fun l t => setCredit t p l (levelWeight t p l)) s
  match has s' with
  | some l => (match pickLevel s' p l (ofLevel l) with
    | some (q, t) => some (q, l, t)
    | none => none)
  | none => none

/-- The queue a controller chooses (R331), the level that pays for it, and the state. -/
def chooseQueue (s : State) (p : Nat) : Option (Nat × Option Nat × State) :=
  let qs := readyQueues s p
  let admin := ctlBase s p
  if bit (rd s .HFE_RESET_STAT 0) p then none
  else if fld s F.GLY_ARB_CTL_MODE p = 0 then (pickLevel s p 7 qs).map (fun x => (x.1, none, x.2))
  else if admin ∈ qs then some (admin, none, s)
  else
    let urgent := qs.filter (fun q => decide ((ctxQ s q).prio = 0))
    if !urgent.isEmpty then (pickLevel s p 0 urgent).map (fun x => (x.1, none, x.2))
    else (pickWeighted s p qs).map (fun x => (x.1, some x.2.1, x.2.2))

/-- The FUSE field of a submission entry: 1 first half, 2 second half. -/
def fuseOf (e : Sqe) : Nat := getBits (e.getD 0 0#64) 8 2

/-- Galley may fetch (R331): enabled, not stopped, not frozen, and the last grant's entries accepted. -/
def mayFetch (s : State) : Bool :=
  flag s F.GLY_CTL_EN && !flag s F.GLY_CTL_FETCH_STOP && !glyFrozen s && s.gly.fetched.isEmpty && !isSas s

/-- The entries of a grant made ready for acceptance, the last of them advancing SQ_HEAD. -/
def fetchedOf (s : State) (q n : Nat) (alone : Bool) (entries : List Sqe) : List Fetched :=
  (List.range n).map (fun k =>
    { queue := q
      ctrl := ctlOf s q
      cmd := (entries.getD k []).take 8
      advance := if k + 1 = n then n else 0
      alone := alone
      fetchSeq := s.gly.postSeq })

/-- A fetch (R331, R332). -/
def execFetch (entries : List Sqe) (err : Bool) (s : State) : Result :=
  if !mayFetch s || decide (freeSlots s = 0) then .next s
  else
    match grant (hostPorts s) s.gly.ptr (fun p => (chooseQueue s p).isSome) with
    | none => .next s
    | some p =>
      match chooseQueue s p with
      | none => .next s
      | some (q, level, t) =>
        let t := { t with gly := { t.gly with ptr := grantNext (hostPorts s) p } }
        if err then
          let t := setCtxQ t q { ctxQ t q with fetchErr := true }
          .next (sendFault t .gly 192 FK.glyFetch 5 q)
        else
          let free := freeSlots s
          let inQueue := entriesIn s q
          let room := if q = ctlBase s p then free else free - fld s F.GLY_CTL_ADMIN_RSV
          let n := min (2 ^ fld s F.GLY_ARB_CTL_AB p) (min inQueue room)
          let lastFirst := decide (fuseOf (entries.getD (n - 1) []) = 1)
          -- plus one to keep a fused pair whole; a first half whose second is not behind the tail waits
          let m := if lastFirst then (if n < inQueue ∧ n < free then n + 1 else n - 1) else n
          let t := match level with | some l => setCredit t p l (levelCredit t p l - m) | none => t
          if m = 0 then
            .next { t with gly := { t.gly with fusedWait := t.gly.fusedWait ++ [q] } }
          else .next { t with gly := { t.gly with fetched := fetchedOf s q m false entries } }

/-- The 1 ms wait for a second half ends: the first half is fetched alone (R332). -/
def execFusedWaitTimeout (q : Nat) (entry : Sqe) (s : State) : Result :=
  if mayFetch s && decide (q ∈ s.gly.fusedWait ∧ 0 < freeSlots s) then
    let t := { s with gly := { s.gly with fusedWait := s.gly.fusedWait.filter (fun k => decide (k ≠ q)) } }
    .next { t with gly := { t.gly with fetched := fetchedOf s q 1 true [entry] } }
  else .next s

/-! ### Acceptance -/

/-- Overlap kind of a command (Table 9.4). -/
def overlapKind (cls : CmdClass) (fuse : Nat) : Nat :=
  if fuse = 1 ∨ fuse = 2 then 4
  else match cls with
  | .compareAndWrite => 4
  | .namespaceWide => 3
  | .read | .compare | .verify | .kvRetrieve | .kvExist | .kvList => 1
  | .copy | .write | .writeZeroes | .writeUncorrectable | .deallocate | .zoneAppend | .zoneAction | .kvStore
  | .kvDelete => 2
  | .flush | .syncCache _ | .admin | .abort _ _ | .namespaceCreate _ | .unsupported | .invalidField => 0

/-- A write whose data comes from the host. -/
def carriesData (x : Slot) : Bool :=
  decide (x.okind = 2) && (x.cls == .write || x.cls == .zoneAppend || x.cls == .kvStore)

/-- A command that OP-7 orders within a zone (R353). -/
def zoneWriter (cls : CmdClass) : Bool :=
  cls == .write || cls == .writeZeroes || cls == .writeUncorrectable || cls == .zoneAppend

/-- A slot given an outcome the spec names without a STATUS of Table 9.19: the outcome word is free but for being a
failure. -/
def endSpecial (s : State) (n : Nat) (h : HostStatus) : State :=
  let f := freshWord s
  modGlySlot f.2 n (fun x => { x with
    st := .gated
    special := some h
    outcome := some (setBits f.1 0 8 (2 + getBits f.1 0 8 % 254)) })

/-- The zone checks of OP-7 at acceptance (R353, R354). -/
def zoneAccept (s : State) (n : Nat) : State :=
  let x := glySlot s n
  if !zoneWriter x.cls then s
  else match zoneEntry s x.nsid x.slba with
    | none => s
    | some e =>
      let w0 := peekWord s e
      let w1 := peekWord s (e + 8)
      let pwp := getBits w0 0 40
      let first := if x.cls = .zoneAppend then pwp else x.slba
      if !bit w1 40 then endSpecial s n (.zoneRefuse (getBits w1 41 7))
      else if first ≠ pwp ∨ zoneStart s x.nsid x.slba + getBits w0 40 24 < first + x.nlb then endDormant s n 0xFC#64
      else
        let t := setGlySlot s n { x with
          slba := first
          zone := some e
          result := if x.cls = .zoneAppend then BitVec.ofNat 64 first else x.result }
        zoneSet t e 0 40 (first + x.nlb)

/-- The locking range of an entry that a command's blocks touch: how many of them (R584). -/
def rangeBlocks (s : State) (nsid first n i : Nat) : Nat :=
  let lo := fld s F.SEC_RANGE_FIRST i
  let hi := lo + fld s F.SEC_RANGE_LEN_BLOCKS i
  if flag s F.SEC_RANGE_VALID i && decide (fld s F.SEC_RANGE_NSID_M1 i + 1 = nsid) then min (first + n) hi - max first lo
  else 0

/-- The check of a command against the ranges (R584): in more than one locking range it is refused, and denied by a lock of
the range or of entry 0 where its blocks lie. In DECOMMISSIONED every range is locked (R589). A key-value command names
no LBA and lies in entry 0. -/
def rangeCheck (s : State) (info : CmdInfo) (kind : Nat) : Option HostStatus :=
  if kind ≠ 1 ∧ kind ≠ 2 ∧ kind ≠ 4 then none
  else
    let kv := isKv info.cls
    let rs := if kv then [] else
      (List.range 129).filter (fun i => decide (0 < i ∧ 0 < rangeBlocks s info.nsid info.slba info.nlb i))
    let covered := (rs.map (rangeBlocks s info.nsid info.slba info.nlb)).sum
    let outside : List Nat := if (kv ∨ covered < info.nlb) ∧ flag s F.SEC_RANGE_VALID 0 = true then [0] else []
    let touched := outside ++ rs
    let reads := decide (kind = 1 ∨ info.cls = .compareAndWrite ∨ info.cls = .compare ∨ info.cls = .copy)
    let writes := decide (kind = 2 ∨ info.cls = .compareAndWrite) || (decide (kind = 4) && decide (info.cls = .write))
    if 1 < rs.length then some .manyRanges
    else if (reads && touched.any (fun i => flag s F.SEC_RANGE_RLOCK i)) ||
        (writes && touched.any (fun i => flag s F.SEC_RANGE_WLOCK i)) ||
        decide (fld s F.SEC_LC_STATE = 4) then some .accessDenied
    else none

/-- The part offers a Weave protection (R386, R5). -/
def weaveOffered (p : Part) (protection : Nat) : Bool :=
  decide (protection = 0) || (p.hasOfl && (decide (protection = 1) || !p.mirrorOnly))

/-- A create or format command asks for an LBA format that Table 10.4 has, with protection information at 4,096 bytes and 8
of metadata alone (R387, R388). -/
def formatOk (info : CmdInfo) : Bool := decide (info.lbaf ≤ 2 ∧ (info.pi = 0 ∨ (info.lbaf = 1 ∧ info.pi ≤ 3)))

/-- A command's data fits (Tables 10.2 and 10.3): at most 2 MiB, the limit that MDTS reports under NVMe, with a key of 1 to
16 bytes in the key-value set. -/
def optionsOk (s : State) (info : CmdInfo) : Bool :=
  if isKv info.cls then decide (info.bytes ≤ 2 ^ 21) && (info.cls == .kvList || decide (1 ≤ info.keyLen ∧ info.keyLen ≤ 16))
  else isSas s || !(info.cls == .read || info.cls == .write || info.cls == .compare || info.cls == .zoneAppend) ||
    decide (info.nlb * lbaData info.lbaf ≤ 2 ^ 21)

/-- A command accepted into a slot (R334, R336, R341, R353, R364, R385, R387). -/
def accept (s : State) (n : Nat) (x : Slot) (info : CmdInfo) : State :=
  let asn := fld s F.GLY_ASN_NEXT_ASN
  let kv := isKv info.cls
  let kind := overlapKind info.cls x.fuse
  let y := { x with
    st := .accepted
    asn := asn
    okind := kind
    tAcc := s.ckr.up / 25 % 2 ^ 48
    nsid := info.nsid
    nlb := if kv then 1 else info.nlb
    slba := if kv then (Config.kvHash info.key info.keyLen).toNat else info.slba
    cls := info.cls
    fua := info.fua
    bytes := if kv then info.bytes else info.nlb * blockBytes info.lbaf
    lbaf := info.lbaf
    pract := info.pract
    key0 := tget (dflt none) s.sec.keys 0
    keys := rangeKeys s info.nsid
    freed := info.freed
    ahead := if x.attr = 2 then
      ((occupiedSlots s).filter (fun e => decide (e.2.nsid = info.nsid ∧ e.2.attr ≠ 2) && e.2.st.dormant)).map (·.2.asn)
      else [] }
  let t := setFld (setGlySlot s n y) F.GLY_ASN_NEXT_ASN 0 (asn + 1)
  let t := setGlySlot t n { y with flushWork := isFlush y && !flushDone t y }
  match info.cls with
  | .unsupported => endSpecial t n .invalidOpcode
  | .invalidField => endSpecial t n .invalidField
  | .namespaceCreate p =>
    if 2 < p ∨ formatOk info = false then endSpecial t n .invalidField
    else if weaveOffered s.part p then t
    else endSpecial t n .absentUnit
  | _ =>
    if (info.cls = .namespaceWide ∧ formatOk info = false) ∨ optionsOk s info = false then endSpecial t n .invalidField
    else match rangeCheck s info kind with
      | some h => endSpecial t n h
      | none => zoneAccept t n

/-- SQ_HEAD advanced past the entries of a grant. -/
def advanceHead (s : State) (f : Fetched) : State :=
  if f.advance = 0 then s
  else
    let c := ctxQ s f.queue
    setCtxQ s f.queue { c with sqHead := (c.sqHead + f.advance) % sqSize s f.queue }

/-- A completion entry posted to the completion queue of a context (R356): the phase flips as the queue wraps. -/
def postCqe (s : State) (q cid : Nat) (result : Word) (st : HostStatus) : State :=
  let c := ctxQ s q
  let d := ctxQ s c.cqIndex
  let n := cqSize s c.cqIndex
  let t := toHost s (.cqe (ctlOf s q) c.cqIndex result c.sqHead q cid d.phase st)
  let tail := (d.cqTail + 1) % n
  let t := setCtxQ t c.cqIndex { d with cqTail := tail, phase := if tail = 0 then !d.phase else d.phase }
  if d.ien then toHost t (.interrupt (ctlOf s q) d.iv) else t

/-- The completion queue of a context is full. -/
def cqFull (s : State) (q : Nat) : Bool :=
  let c := ctxQ s q
  let d := ctxQ s c.cqIndex
  decide ((d.cqTail + 1) % cqSize s c.cqIndex = d.cqHead % cqSize s c.cqIndex)

/-- An NVMe Abort answered (R360): dormant, the command is aborted; else it is marked. -/
def abortAnswer (s : State) (q sqid cid : Nat) (entry : Sqe) : State :=
  let target := ctlBase s (ctlOf s q) + sqid
  let hit := (occupiedSlots s).find? (fun e => decide (e.2.queue = target ∧ e.2.cid = cid) && !e.2.sideband &&
    decide (e.2.st ≠ .orphan))
  let r : Bool × State := match hit with
    | some (n, x) =>
      if x.st.dormant then (true, bump (zoneFail (endDormant s n 0xFB#64) n) F.GLY_CNT_ABORTS)
      else (false, setGlySlot s n { x with abortReq := true })
    | none => (false, s)
  postCqe r.2 q (getBits (entry.getD 0 0#64) 16 16) (BitVec.ofNat 64 (b2n !r.1)) .success

/-- A fetched command is accepted (R334, R336), unless Galley is frozen (R369) or EN is 0 (R372); an Abort is answered and takes no slot
(R360). -/
def execCommandAcceptance (info : CmdInfo) (slot : Nat) (s : State) : Result :=
  match s.gly.fetched with
  | [] => .next s
  | f :: rest =>
    if glyFrozen s || !flag s F.GLY_CTL_EN then .next s else
    let pop (t : State) : State := advanceHead { t with gly := { t.gly with fetched := rest } } f
    match info.cls with
    | .abort sqid cid =>
      if cqFull s f.queue then .next s else .next (glySync (abortAnswer (pop s) f.queue sqid cid f.cmd))
    | _ =>
      if 8192 ≤ slot ∨ (glySlot s slot).st ≠ .free then .next s
      else
        let e0 := f.cmd.getD 0 0#64
        let fuse := if f.sideband then 0 else fuseOf f.cmd
        let t := pop s
        let c := ctxQ t f.queue
        let t := if f.sideband then t else setCtxQ t f.queue { c with inflight := c.inflight + 1 }
        let x : Slot := {
          cmd := f.cmd
          queue := f.queue
          cid := getBits e0 16 16
          ctrl := f.ctrl
          fuse := fuse
          fetchSeq := f.fetchSeq
          sideband := f.sideband }
        let t := accept t slot x info
        -- a fused pair is linked; a half without its other half is aborted
        let t := match fuse, s.gly.pairOpen with
          | 2, some m => modGlySlot (modGlySlot t slot (fun y => { y with pair := some m })) m
              (fun y => { y with pair := some slot })
          | 2, none => endSpecial t slot .missingFused
          | _, some m => endSpecial t m .missingFused
          | _, none => t
        let t := if fuse = 1 ∧ f.alone = true then endSpecial t slot .missingFused else t
        .next (glySync { t with gly := { t.gly with
          pairOpen := if fuse = 1 ∧ f.alone = false then some slot else none } })

/-- A SAS command frame (R333, R607, Table 10.6). -/
def execSasCommandFrame (port nexus tag attr : Nat) (cmd : List Word) (info : CmdInfo) (slot : Nat) (s : State) :
    Result :=
  let answer (h : HostStatus) : Result := .next (toHost s (.response port nexus tag h))
  if !isSas s ∨ powerLost s then .next s
  else if safeState s then answer .safeState
  else if !ready s F.CKR_READY_HOST then answer .busy
  else if (occupiedSlots s).any (fun e => decide (e.2.queue = nexus ∧ e.2.cid = tag)) then answer .overlapped
  else if !flag s F.GLY_CTL_EN || flag s F.GLY_CTL_FETCH_STOP || bit (rd s .HFE_RESET_STAT 0) port ||
      decide (8192 ≤ slot ∨ (glySlot s slot).st ≠ .free) then .next s
  else
    let x : Slot := {
      cmd := cmd.take 8
      queue := nexus
      cid := tag
      ctrl := port
      attr := attr % 3
      fetchSeq := s.gly.postSeq }
    .next (glySync (accept s slot x info))

/-! ### Dispatch -/

/-- Work items pushed in ASN order until one finds no room (R337). -/
def pushItems : Nat → State → State
  | 0, s => s
  | k + 1, s =>
    match s.gly.items with
    | [] => s
    | i :: rest =>
      match dequePush { s with gly := { s.gly with items := rest } } i.engine i.word with
      | some t => pushItems k t
      | none => s

/-- A work item of a slot leaves for the deque of its kind (R337). -/
def pushWork (s : State) (n kind : Nat) (part : Bool) : State :=
  let x := glySlot s n
  let e := match kind with
    | 0 => fld s F.GLY_DISPATCH_CTL_READ
    | 1 => fld s F.GLY_DISPATCH_CTL_WRITE
    | 2 => fld s F.GLY_DISPATCH_CTL_OTHER
    | _ => fld s F.GLY_DISPATCH_CTL_FLUSH
  let i : WorkItem := {
    asn := x.asn
    engine := e
    word := BitVec.ofNat 64 (n + x.asn % 2 ^ 40 * 2 ^ 13 + kind * 2 ^ 53 + b2n part * 2 ^ 55 + 2 ^ 63) }
  let l := s.gly.items.filter (fun j => decide (j.asn ≤ x.asn)) ++ [i] ++
    s.gly.items.filter (fun j => decide (x.asn < j.asn))
  let t := { s with gly := { s.gly with items := l } }
  pushItems l.length t

/-- The versions a slot's read takes, read from the buffer by Galley, decrypted and stripped by HFE (R583, R388). -/
def readVersions (r : Port) (x : Slot) : List Version → State → Option (List Byte) × State
  | [], s => (some [], s)
  | v :: l, s =>
    match busRead s r v.addr v.size with
    | (none, t) => (none, t)
    | (some d, t) =>
      match readVersions r x l t with
      | (none, u) => (none, u)
      | (some e, u) => (some (hostBlock x (cipherBlock false x v.lba d) ++ e), u)

/-- Galley serves a read wholly held in the write buffer (R343). -/
def serveRead (s : State) (n : Nat) (vs : List Version) : State :=
  let x := glySlot s n
  let t := bump (setGlySlot s n { x with st := .dispatched }) F.GLY_CNT_BUF_READS
  match readVersions portGlyChannel x vs t with
  | (some d, u) => giveOutcome (toHost u (.readData n x.asn d)) n 0#64
  | (none, u) => giveOutcome u n 0xC0#64

/-- A write may be granted its reservation as things stand. -/
def reserveUnits (s : State) (x : Slot) : Nat × Nat :=
  let blk := x.bytes / max 1 x.nlb
  let left := x.nlb - x.done
  let half := effBudget s * 1024
  let n := if pcState s = .ready ∧ half < units4k (left * blk) then max 1 (half * 4096 / max 1 blk) else left
  (n, units4k (n * blk))

/-- Buffer space in use, in 4 KiB units. -/
def bufferUsed (s : State) : Nat :=
  ((occupiedSlots s).map (fun e => if e.2.moving then e.2.charge else 0)).sum +
    units4k ((s.gly.index.map (fun v => v.charge)).sum)

/-- The reservation of a write fits (R357, R344): none is granted while B_MAX lies below what is reserved (R358). -/
def reserveFits (s : State) (x : Slot) : Bool :=
  let r := reserveUnits s x
  !budgetCut s &&
  decide (bufferUsed s + r.2 ≤ fld s F.GLY_WBUF_SIZE_MIB * 256) &&
  (decide (pcState s ≠ .ready) || decide (budgetReserved s + r.2 ≤ effBudget s * 2048)) &&
  (List.range r.1).all (fun k => decide (
    (s.gly.index.filter (fun v => decide (v.nsid = x.nsid ∧ v.lba = x.slba + x.done + k) && !v.retired)).length < 4))

/-- Dispatch of a dormant command (R336, R343, R355, R364); frozen, nothing moves (R369). -/
def execDispatch (slot : Nat) (s : State) : Result :=
  let x := glySlot s slot
  if (x.st ≠ .accepted ∧ x.st ≠ .waitOrder) ∨ glyFrozen s = true then .next s
  else if !gatesOpen s slot x then
    let t := if x.st = .accepted ∧ gateOverlap s slot x = true then bump s F.GLY_CNT_OVERLAP_WAIT else s
    .next (setGlySlot t slot { x with st := .waitOrder })
  else if x.landed then
    .next (glySync (pushWork (setGlySlot s slot { x with st := .dispatched }) slot 1 false))
  else if isFlush x then
    let t := setGlySlot s slot { x with st := .gated, outcome := some 0#64 }
    .next (glySync (if x.flushWork then pushWork t slot 3 false else t))
  else if x.cls = .syncCache true then
    .next (glySync (setGlySlot s slot { x with st := .gated, outcome := some 0#64 }))
  else if carriesData x then
    let t := setGlySlot s slot { x with st := .waitBudget }
    .next (glySync (if reserveFits s x then t else bump t F.GLY_CNT_BUDGET_WAIT))
  else if x.okind = 1 then
    let vs := (List.range x.nlb).map (fun k => blockVersion s x.nsid (x.slba + k) x.asn)
    if x.cls = .read ∧ x.nlb ≠ 0 ∧ vs.all Option.isSome = true then
      .next (glySync (serveRead s slot (vs.filterMap id)))
    else .next (glySync (pushWork (setGlySlot s slot { x with st := .dispatched }) slot 0 (vs.any Option.isSome)))
  else .next (glySync (pushWork (setGlySlot s slot { x with st := .dispatched }) slot 2 false))

/-- Every 1 µs a kept work item is tried again (R337). -/
def execDispatchRetry (s : State) : Result := .next (glySync (pushItems s.gly.items.length s))

/-! ### Reservation and landing -/

/-- The buffer space at an address is free for so many 4 KiB units: within the write buffer and used by nothing that is
not clean. -/
def spaceFree (s : State) (addr n : Nat) : Bool :=
  let lo := fld s F.GLY_WBUF_BASE_BASE
  let clash (a b : Nat) : Bool := decide (a < addr + n * 4096 ∧ addr < a + b)
  decide (addr % 4096 = 0 ∧ lo ≤ addr ∧ addr + n * 4096 ≤ lo + fld s F.GLY_WBUF_SIZE_MIB * 2 ^ 20) &&
  (occupiedSlots s).all (fun e => !(e.2.moving && clash e.2.addr (e.2.charge * 4096))) &&
  s.gly.index.all (fun v => !(!v.clean && clash v.addr v.size))

/-- A reservation is granted in ASN order and the host transfer starts (R357). -/
def execBudgetReservation (slot addr : Nat) (s : State) : Result :=
  let x := glySlot s slot
  let first := !otherSlot s slot (fun _ y => decide (y.st = .waitBudget ∧ y.asn < x.asn))
  let r := reserveUnits s x
  if x.st = .waitBudget ∧ first = true ∧ glyFrozen s = false ∧ reserveFits s x = true ∧ spaceFree s addr r.2 = true then
    let t := filterIndex s (fun v => !(v.clean && decide (v.addr < addr + r.2 * 4096 ∧ addr < v.addr + v.size)))
    .next (glySync (setGlySlot t slot { x with
      st := .dataIn
      part := r.1
      addr := addr
      charge := r.2
      rsv := x.rsv + r.2
      budgeted := decide (pcState s = .ready)
      moving := true }))
  else .next s

/-- The STATUS and the host's status of a transfer that fails. -/
def transferFailure (res : Nat) : Word × Option HostStatus :=
  match res with
  | 1 => (0xC0#64, none)
  | 2 => (0xC1#64, none)
  | 3 => (0xC1#64, some .guardCheck)
  | 4 => (0xC1#64, some .appTagCheck)
  | _ => (0xC1#64, some .refTagCheck)

/-- A protection information error counted (R388). -/
def countPi (s : State) (res : Nat) : State :=
  match res with
  | 3 => raiseSource (bump s F.HFE_PI_CNT_GUARD) 133
  | 4 => raiseSource (bump s F.HFE_PI_CNT_APP) 133
  | 5 => raiseSource (bump s F.HFE_PI_CNT_REF) 133
  | _ => s

/-- The versions of a landed part (R344, R350). -/
def landVersions (s : State) (x : Slot) : List Version :=
  let blk := x.bytes / max 1 x.nlb
  (List.range x.part).map (fun k =>
    { nsid := x.nsid
      lba := x.slba + x.done + k
      asn := x.asn
      addr := x.addr + k * blk
      size := blk
      charge := if k + 1 = x.part then x.charge * 4096 - k * blk else blk
      budgeted := x.budgeted
      durable := x.budgeted && decide (pcState s = .ready) })

/-- A transfer ends in error: the landed data is discarded and the reservation released (R336). -/
def landFail (s : State) (n res : Nat) : State :=
  let x := glySlot s n
  let f := transferFailure res
  let t := zoneFail (endDormant s n f.1) n
  let t := modGlySlot t n (fun y => { y with special := f.2, st := if x.st = .orphan then .orphan else .gated })
  slotEval t n

/-- The last write response of a write's transfer arrives (R336, R344, R349, R357, R388): the part's data, encrypted, stands
in the buffer (R583). -/
def execLanded (slot res : Nat) (data : List Byte) (s : State) : Result :=
  let x := glySlot s slot
  if x.moving = false ∨ glyFrozen s = true then .next s
  else if res ≠ 0 then .next (glySync (landFail (countPi s res) slot res))
  else
    let blk := x.bytes / max 1 x.nlb
    let stored := if isKv x.cls then data.take (x.part * blk) else storedBlocks x (x.slba + x.done) x.part data
    match busWrite s portGlyChannel x.addr (cipherUnits x (x.slba + x.done) blk stored) with
    | (false, t) => .next (glySync (landFail t slot 2))
    | (true, t) =>
      let t := { t with gly := { t.gly with index := t.gly.index ++ landVersions t x } }
      let y := { x with done := x.done + x.part, part := 0, charge := 0, moving := false }
      if y.done < x.nlb ∧ x.st = .dataIn then .next (glySync (setGlySlot t slot { y with st := .waitBudget }))
      else
        let good := decide (pcState t = .ready) || vwcOn t x
        let z := { y with landed := true, durable := x.budgeted && decide (pcState t = PcState.ready) }
        if x.st = .orphan then
          -- aborted by SAS while its data moved: it acts whole or not at all (R361, R350)
          let t := if good && decide (y.done = x.nlb) then setGlySlot t slot { z with outcome := some 0#64 }
            else discardVersions (setGlySlot t slot { z with outcome := some 0xFB#64 }) x.asn
          .next (glySync (retireVersions (slotEval t slot)))
        else if good then
          .next (glySync (retireVersions (setGlySlot t slot { z with
            st := .gated
            outcome := some (x.outcome.getD 0#64) })))
        else .next (glySync (retireVersions (setGlySlot t slot { z with st := .waitOrder })))

/-! ### Posting -/

/-- A slot meets every condition of R356 but that its pair does too; GLY_CTL.EN is up (R372). -/
def postReady (s : State) (n : Nat) : Bool :=
  let x := glySlot s n
  slotReady s n && flag s F.GLY_CTL_EN && !glyFrozen s &&
  (isSas s || x.sideband || !cqFull s x.queue)

/-- No slot of its completion queue came before this one, but its pair (R356). -/
def postTurn (s : State) (n : Nat) : Bool :=
  let x := glySlot s n
  let cq (y : Slot) : Nat := (ctxQ s y.queue).cqIndex
  isSas s || x.sideband ||
    !(s.gly.order.takeWhile (fun e => decide (e ≠ (n, x.asn)))).any (fun e =>
      let y := glySlot s e.1
      !y.sideband && decide (cq y = cq x ∧ x.pair ≠ some e.1))

/-- A failing block is reported where the host status carries one (R339): an unrecovered sector or a write that found no
spare, by the index the outcome word gives. -/
def reportBlock (s : State) (x : Slot) (h : HostStatus) : State :=
  if (h = .unrecovered ∨ h = .noSpare) ∧ x.sideband = false then
    let b := getBits (x.outcome.getD 0#64) 8 16
    toHost s (if isSas s then .senseInfo x.ctrl x.queue x.cid b else .errorEntry x.ctrl x.queue x.cid b)
  else s

/-- A slot's completion posted and the slot freed (R356, R353, R349); a success releases the pinned data of what it
deallocated (R165). -/
def postOne (s : State) (n : Nat) (h : HostStatus) : State :=
  let x := glySlot s n
  let s := reportBlock s x h
  let t := if x.sideband then toHost s (.sideband x.result h)
    else if isSas s then toHost s (.response x.ctrl x.queue x.cid h)
    else postCqe s x.queue x.cid x.result h
  let t := match x.zone with
    | some e => if slotFailed x then t else zoneSet t (e + 8) 0 40 (x.slba + x.nlb)
    | none => t
  let seq := t.gly.postSeq + 1
  let t := { t with gly := { t.gly with postSeq := seq } }
  let t := if slotFailed x then discardVersions t x.asn
    else releasePinned (mapIndex t (fun v => if v.asn = x.asn then
      (if safeVersion t v then v else { v with durable := false, posted := some seq }) else v)) x
  retireVersions (freeSlot t n)

/-- A completion is posted in its turn (R356); of a fused pair both, the compare first (R352). -/
def execCompletionPost (slot : Nat) (s : State) : Result :=
  let x := glySlot s slot
  if !postReady s slot || !postTurn s slot then .next s
  else match x.pair with
    | none => .next (glySync (postOne s slot (slotStatus x)))
    | some m =>
      if !postReady s m then .next s
      else
        let c := if x.fuse = 1 then slot else m
        let w := if x.fuse = 1 then m else slot
        let failed := slotFailed (glySlot s c)
        let t := if failed then modGlySlot s w (fun y => { y with special := some .failedFused }) else s
        let t := postOne t c (slotStatus (glySlot t c))
        .next (glySync (postOne t w (slotStatus (glySlot t w))))

/-! ### The core ports -/

/-- A write of GLY_SLOT_CMD_c (R375): OP and HANDLE stored; with GO, the operation. -/
def slotCmdWrite (s : State) (c : Nat) (value : Word) : State :=
  let h := getBits value 0 53
  let op := getBits value 53 2
  let t := setFlds s c [(F.GLY_SLOT_CMD_HANDLE, h), (F.GLY_SLOT_CMD_OP, op)]
  if !bit value 55 then t
  else
    let r : Nat × State := match op with
      | 0 => (match byHandle t h with
        | some n => (0x00, wr t .GLY_SLOT_ARG c (statusWord t n))
        | none => (0x89, wr t .GLY_SLOT_ARG c 0#64))
      | 1 => slotComplete t h (rd t .GLY_SLOT_ARG c)
      | 2 => slotHold t h true
      | _ => slotHold t h false
    setFld r.2 F.GLY_SLOT_CMD_RESULT c r.1

/-- A GO of a named slot operation. -/
def slotGo (value : Word) (op : Nat) : Word := setBits (setBits value 53 2 op) 55 1 1

/-- STATUS by a core (R375). -/
def execGlySlotStatus (c : Nat) (value : Word) (s : State) : Result :=
  .next (if c < s.part.cores then slotCmdWrite s c (slotGo value 0) else s)

/-- COMPLETE by a core (R375). -/
def execGlyComplete (c : Nat) (value : Word) (s : State) : Result :=
  .next (if c < s.part.cores then slotCmdWrite s c (slotGo value 1) else s)

/-- HOLD add by a core (R375). -/
def execHoldAdd (c : Nat) (value : Word) (s : State) : Result :=
  .next (if c < s.part.cores then slotCmdWrite s c (slotGo value 2) else s)

/-- HOLD release by a core (R375). -/
def execHoldRelease (c : Nat) (value : Word) (s : State) : Result :=
  .next (if c < s.part.cores then slotCmdWrite s c (slotGo value 3) else s)

/-- The run of versions from a block that a test accepts, contiguous in the buffer, at most so many. -/
def versionRun (s : State) (nsid bound : Nat) (ok : Version → Bool) : Nat → Nat → Option Nat → List Version
  | 0, _, _ => []
  | k + 1, lba, next =>
    match blockVersion s nsid lba bound with
    | some v =>
      if ok v && (match next with | some a => decide (v.addr = a) | none => true) then
        v :: versionRun s nsid bound ok k (lba + 1) (some (v.addr + v.size))
      else []
    | none => []

/-- A version's destage may not begin (R346). -/
def beginBlocked (s : State) (v : Version) : Bool :=
  (occupiedSlots s).any (fun e => decide (e.2.okind = 1 ∧ e.2.asn < v.asn) && e.2.outcome.isNone &&
    coversBlock e.2 v.nsid v.lba) ||
  s.gly.index.any (fun w => decide (w.nsid = v.nsid ∧ w.lba = v.lba ∧ w.asn ≤ v.asn) && w.destaging)

/-- The result of an index operation (R376): status, address, count. -/
def wbResult (s : State) (c status addr count : Nat) : State :=
  wr s .GLY_WB_RES c (BitVec.ofNat 64 (addr % 2 ^ 40 + status * 2 ^ 40 + count % 65536 * 2 ^ 48))

/-- A version is among the marked blocks of a range. -/
def markedIn (nsid lba count : Nat) (v : Version) : Bool :=
  v.destaging && decide (v.nsid = nsid ∧ lba ≤ v.lba ∧ v.lba < lba + count)

/-- A destage confirmed (R345, R37): the budget is released and the version durable. -/
def confirmMarked (s : State) (nsid lba count : Nat) : State :=
  let t := mapIndex s (fun v => if markedIn nsid lba count v then
    { v with destaging := false, clean := true, durable := true, charge := 0, budgeted := false, posted := none } else v)
  let t := retireVersions t
  each ((occupiedSlots t).filter (fun e => e.2.landed)) (fun e u =>
    setGlySlot u e.1 { e.2 with durable := writeDurable u e.2.asn }) t

/-- A pinned block's record in EVR (R164): its LBA in P1 and where its data is held in P2, in the buffer (P3 = 0) or the
tier (P3 = 1). Table 15.6 assigns it no code, so the code is a free one of firmware's range (R550), the severity free. -/
def pinRecord (s : State) (lba place : Nat) (tier : Bool) : State :=
  let f := freshWord s
  let g := freshWord f.2
  (evrRequest g.2 {
    code := 512 + f.1.toNat % 512
    sev := g.1.toNat % 8
    p1 := BitVec.ofNat 64 lba
    p2 := BitVec.ofNat 64 place
    p3 := BitVec.ofNat 64 (b2n tier) }).2

/-- PIN (R163, R164): the blocks leave lookup. Data whose destage, here the copy into the tier's pinned area, END_OK has
confirmed is held there and its buffer space is free; the rest stays pinned in DRAM with its budget (R37). -/
def pinVersions (s : State) (hit : Version → Bool) : State :=
  let t := each (s.gly.index.filter (fun v => hit v && !v.retired && !v.pinned))
    (fun v u => pinRecord u v.lba v.addr v.clean) s
  retireVersions (mapIndex t (fun v => if hit v then { v with pinned := true } else v))

/-- A write of GLY_WB_CMD_c (R345, R376). -/
def wbCmdWrite (s : State) (c : Nat) (value : Word) : State :=
  let nsid := getBits value 0 32
  let count := max 1 (min 256 (getBits value 32 9))
  let op := getBits value 41 3
  let s := setFlds s c [(F.GLY_WB_CMD_NSID, nsid), (F.GLY_WB_CMD_COUNT, max 1 (getBits value 32 9)),
    (F.GLY_WB_CMD_OP, op)]
  if !bit value 44 then s
  else
    let lba := (rd s .GLY_WB_LBA c).toNat
    if 2 ^ 64 < lba + count ∨ 4 < op then wbResult s c 0xA3 0 0
    else match op with
    | 0 =>
      let asn := (rd s .GLY_WB_ASN c).toNat
      let bound := if asn = 0 then fld s F.GLY_ASN_NEXT_ASN else asn
      (match versionRun s nsid bound (fun _ => true) count lba none with
       | v :: l => wbResult s c 0x00 v.addr (l.length + 1)
       | [] => wbResult s c 0xA0 0 0)
    | 1 =>
      (match blockVersion s nsid lba (2 ^ 64) with
       | none => wbResult s c 0xA0 0 0
       | some v =>
         if v.clean then wbResult s c 0xA2 0 0
         else
           let run := versionRun s nsid (2 ^ 64) (fun w => !w.clean) count lba none
           if run.any (beginBlocked s) then wbResult s c 0xA1 0 0
           else wbResult (mapIndex s (fun w => if w ∈ run then { w with destaging := true } else w)) c 0x00 v.addr
             run.length)
    | 2 =>
      if s.gly.index.any (markedIn nsid lba count) then
        glySync (wbResult (confirmMarked s nsid lba count) c 0x00 0 0)
      else wbResult s c 0xA2 0 0
    | 3 =>
      if s.gly.index.any (markedIn nsid lba count) then
        wbResult (mapIndex s (fun v => if markedIn nsid lba count v then { v with destaging := false } else v)) c
          0x00 0 0
      else wbResult s c 0xA2 0 0
    | _ =>
      let hit (v : Version) : Bool := decide (v.nsid = nsid ∧ lba ≤ v.lba ∧ v.lba < lba + count)
      if s.gly.index.any (fun v => hit v && !v.retired && !v.pinned) then glySync (wbResult (pinVersions s hit) c 0x00 0 0)
      else wbResult s c 0xA0 0 0

/-- A GO of a named index operation. -/
def wbGo (value : Word) (op : Nat) : Word := setBits (setBits value 41 3 op) 44 1 1

/-- LOOKUP (R345). -/
def execLookup (c : Nat) (value : Word) (s : State) : Result :=
  .next (if c < s.part.cores then wbCmdWrite s c (wbGo value 0) else s)

/-- BEGIN (R345, R346). -/
def execBegin (c : Nat) (value : Word) (s : State) : Result :=
  .next (if c < s.part.cores then wbCmdWrite s c (wbGo value 1) else s)

/-- END_OK (R345). -/
def execEndOk (c : Nat) (value : Word) (s : State) : Result :=
  .next (if c < s.part.cores then wbCmdWrite s c (wbGo value 2) else s)

/-- END_FAIL (R345). -/
def execEndFail (c : Nat) (value : Word) (s : State) : Result :=
  .next (if c < s.part.cores then wbCmdWrite s c (wbGo value 3) else s)

/-- PIN (R345). -/
def execPin (c : Nat) (value : Word) (s : State) : Result :=
  .next (if c < s.part.cores then wbCmdWrite s c (wbGo value 4) else s)

/-! ### Aborts -/

/-- An Abort at the head of an admin queue is fetched even with no slot free, and answered (R360). -/
def execNvmeAbort (p : Nat) (entry : List Word) (sqid cid : Nat) (s : State) : Result :=
  let q := ctlBase s p
  if mayFetch s && decide (p < hostPorts s ∧ 0 < entriesIn s q) && !bit (rd s .HFE_RESET_STAT 0) p && !cqFull s q then
    let c := ctxQ s q
    let t := setCtxQ s q { c with sqHead := (c.sqHead + 1) % sqSize s q }
    .next (glySync (abortAnswer t q sqid cid entry))
  else .next s

/-- The targets of a SAS task management function (R361): a dormant one becomes FREE with its reservation released, every
other becomes ORPHAN and its response is never sent; the answer waits until all are FREE. -/
def taskMgmt (s : State) (port nexus : Nat) (p : Slot → Bool) : State :=
  let targets := (occupiedSlots s).filter (fun e => p e.2 && decide (e.2.st ≠ .orphan))
  let task : TaskMgmt := { port := port, nexus := nexus, targets := targets.map (fun e => (e.1, e.2.asn)) }
  if targets.isEmpty then toHost s (.functionComplete port nexus)
  else
    let t := { s with gly := { s.gly with tasks := s.gly.tasks ++ [task] } }
    let t := each targets (fun e u =>
      let x := glySlot u e.1
      if x.asn ≠ e.2.asn then u
      else if x.st.dormant then freeSlot (zoneFail (endDormant u e.1 0xFB#64) e.1) e.1
      else slotEval (setGlySlot u e.1 { x with st := .orphan, abortReq := true }) e.1) t
    bump t F.GLY_CNT_ABORTS 0 targets.length

/-- ABORT TASK (R361). -/
def execAbortTask (port nexus lun tag : Nat) (s : State) : Result :=
  if isSas s && !glyFrozen s then
    .next (glySync (taskMgmt s port nexus (fun x => decide (x.queue = nexus ∧ x.cid = tag ∧ x.nsid = lun + 1))))
  else .next s

/-- ABORT TASK SET (R361): the tasks of its nexus. -/
def execAbortTaskSet (port nexus lun : Nat) (s : State) : Result :=
  if isSas s && !glyFrozen s then
    .next (glySync (taskMgmt s port nexus (fun x => decide (x.queue = nexus ∧ x.nsid = lun + 1))))
  else .next s

/-- CLEAR TASK SET (R361): every task of the logical unit's task set. -/
def execClearTaskSet (port lun : Nat) (s : State) : Result :=
  if isSas s && !glyFrozen s then
    .next (glySync (taskMgmt s port 0 (fun x => decide (x.nsid = lun + 1))))
  else .next s

/-! ### Host resets, drain, floor and budget -/

/-- A host controller reset acting on one slot (Table 9.9). -/
def resetSlot (n : Nat) (s : State) : State :=
  let x := glySlot s n
  if x.st.dormant ∨ x.st = .dataIn then freeSlot (zoneFail (endDormant s n 0xFB#64) n) n
  else if x.st = .dispatched ∨ x.st = .gated then slotEval (setGlySlot s n { x with st := .orphan }) n
  else s

/-- A host controller reset of a controller or port, or of a logical unit (R363). -/
def hostReset (s : State) (p : Nat) (lun : Option Nat) : State :=
  let t := wr s .HFE_RESET_STAT 0 (setBits (rd s .HFE_RESET_STAT 0) p 1 1)
  let t := raiseSource t (129 + p)
  let mine (x : Slot) : Bool := match lun with
    | some l => decide (x.nsid = l + 1)
    | none => decide (x.ctrl = p) && !x.sideband
  let t := each ((occupiedSlots t).filter (fun e => mine e.2)) (fun e u => resetSlot e.1 u) t
  let t := match lun with
    | some _ => t
    | none => { t with gly := { t.gly with
        fetched := t.gly.fetched.filter (fun f => decide (f.ctrl ≠ p) || f.sideband)
        fusedWait := t.gly.fusedWait.filter (fun q => decide (ctlOf t q ≠ p))
        pairOpen := match t.gly.pairOpen with
          | some m => if (glySlot t m).st = .free ∨ (glySlot t m).st = .orphan then none else some m
          | none => none } }
  let t := if isSas t then t
    else { t with hfe := { t.hfe with
      ccEn := tset (dflt false) t.hfe.ccEn p false
      rdy := tset (dflt false) t.hfe.rdy p false } }
  glySync (retireVersions t)

/-- A host controller reset (R363). -/
def execControllerReset (p : Nat) (lun : Option Nat) (s : State) : Result :=
  if hostPorts s ≤ p ∨ (lun.isSome = true ∧ isSas s = false) ∨ powerLost s = true then .next s
  else .next (hostReset s p lun)

/-- A write of HFE_RESET_STAT (R363): the reset is reported done and the controller's contexts are cleared. -/
def execResetDoneReport (value : Word) (s : State) : Result :=
  .next (each (List.range 2) (fun p t =>
    if bit value p && bit (rd t .HFE_RESET_STAT 0) p then
      let t := wr t .HFE_RESET_STAT 0 (setBits (rd t .HFE_RESET_STAT 0) p 1 0)
      if isSas t then t
      else { t with gly := { t.gly with ctx := t.gly.ctx.filter (fun e => decide (ctlOf t e.1 ≠ p)) } }
    else t) s)

/-- GLY_DRAIN.GO (R365, R377). -/
def execDrain (s : State) : Result :=
  let t := setFlds s 0 [(F.GLY_CTL_FETCH_STOP, 1), (F.GLY_DRAIN_GO, 1), (F.GLY_DRAIN_DONE, 0)]
  .next (glySync { t with gly := { t.gly with drainAt := t.ckr.up } })

/-- 2 s after GO: media commands still running end with Command Interrupted (R365). -/
def execDrainInterrupt (s : State) : Result :=
  if flag s F.GLY_DRAIN_GO && !glyFrozen s then
    .next (glySync (each ((occupiedSlots s).filter (fun e => decide (e.2.st = .dispatched ∧ (e.2.okind = 1 ∨
      e.2.okind = 2 ∨ e.2.okind = 4)) && e.2.outcome.isNone)) (fun e t => giveOutcome t e.1 0xF9#64) s))
  else .next s

/-- 8 s after GO without DONE (R365). -/
def execDrainTimeout (s : State) : Result :=
  if flag s F.GLY_DRAIN_GO && !flag s F.GLY_DRAIN_DONE then .next (sendFault s .gly 192 FK.glyDrain 5 0) else .next s

/-- A write of GLY_ASN_FLOOR (R371). -/
def execAsnFloor (value : Word) (s : State) : Result :=
  if flag s F.GLY_CTL_EN then .next s
  else .next (setFld s F.GLY_ASN_NEXT_ASN 0 (max (fld s F.GLY_ASN_NEXT_ASN) value.toNat))

/-- A write of GLY_BUDGET (R358, R374); REFUSED is W1C. -/
def execBudgetWrite (value : Word) (s : State) : Result :=
  let n := getBits value 0 6
  let s := when (bit value 6) (fun t => setFlag t F.GLY_BUDGET_REFUSED 0 false) s
  if fld s F.SPN_HU_STAT_B_MAX < n then .next (setFlag s F.GLY_BUDGET_REFUSED 0 true)
  else .next (glySync (setFld s F.GLY_BUDGET_SIZE 0 n))

/-- At the flash tier's request for retirement (R359, Table 9.8): what has landed and is not posted follows the NONE rows
of Table 9.7. -/
def glyRetiring (s : State) : State :=
  let unposted (v : Version) : Bool := (occupiedSlots s).any (fun e => decide (e.2.asn = v.asn))
  glySync (retireVersions (mapIndex s (fun v => if unposted v && !v.clean then { v with durable := false } else v)))

end Sys2Proof.Machine
end

