-- ==== Sys2Proof/Machine/Calib.lean ====
section
/-!
DEFINITION. What the calibration controller does to other units and they to it: the items and their owners (R611,
R612), a result taking effect at its boundary (R614), and what abandons an item (R615).
-/

namespace Sys2Proof.Machine

/-- The head of a per-head item number (Table 17.6). -/
def itemHead (n : Nat) : Nat :=
  if n < 576 then (n - 64) / 16 else if n < 1088 then (n - 576) / 16 else (n - 1088) / 16

/-- The parameter group of a per-head item number. -/
def itemGroup (n : Nat) : Nat := n % 16

/-- The unit an item belongs to (R612): actuator 0 to 3, or 4 for the spindle. -/
def itemOwner (s : State) (n : Nat) : Nat :=
  if n < 8 then n / 2
  else if n < 16 then (n - 8) / 2
  else if n < 24 then (n - 16) / 2
  else if n < 40 then n % 4
  else if n < 47 then 4
  else fld s F.HDL_HEADMAP_ACT (itemHead n)

/-- A request runs that belongs to the actuator: CAL holds it (R613). -/
def calHolds (s : State) (a : Nat) : Bool := s.cal.running.any (fun r => r.owner == a)

/-- An item is WR_PHASE or PRECOMP. -/
def writeItem (n : Nat) : Bool := decide (64 ≤ n ∧ n < 1088)

/-- An item of a lane pair: SLICE_TRIM, SLICE_SWAP, CTF, PAIR_SKEW and SV_OFFSET of its lanes and of itself. -/
def laneItem (a n : Nat) : Bool :=
  decide (n < 24 ∧ n % 8 / 2 = a) || decide (24 ≤ n ∧ n < 32 ∧ n % 4 = a)

/-- An item of the spindle: ISENSE, BEMF_SENSE and HOLDUP. -/
def spindleItem (n : Nat) : Bool := decide (40 ≤ n ∧ n < 47)

/-- A lane's slice of a position is swapped with a spare, of the two the one in LNE_SLICE_MAP_HI_n [24:20], which the released
slice replaces there (R101). -/
def swapSlice (s : State) (lane p : Nat) : State :=
  let lo := fld s F.LNE_SLICE_MAP_LO_MAP lane
  let hi := fld s F.LNE_SLICE_MAP_HI_MAP lane
  let old := if p < 12 then lo / 2 ^ (5 * p) % 32 else hi / 2 ^ (5 * (p - 12)) % 32
  let spare := hi / 2 ^ 20 % 32
  let put (w k v : Nat) : Nat := getBits (setBits (BitVec.ofNat 64 w) (5 * k) 5 v) 0 60
  let t := if p < 12 then setFld s F.LNE_SLICE_MAP_LO_MAP lane (put lo p spare)
    else setFld s F.LNE_SLICE_MAP_HI_MAP lane (put hi (p - 12) spare)
  setFld t F.LNE_SLICE_MAP_HI_MAP lane (put (fld t F.LNE_SLICE_MAP_HI_MAP lane) 4 old)

/-- The physical slice in service at a position of a lane. -/
def sliceAt (s : State) (lane p : Nat) : Nat :=
  if p < 12 then fld s F.LNE_SLICE_MAP_LO_MAP lane / 2 ^ (5 * p) % 32
  else fld s F.LNE_SLICE_MAP_HI_MAP lane / 2 ^ (5 * (p - 12)) % 32

/-- A slice's trim DACs stepped by three corrections, each DAC's range saturating (R100). -/
def stepTrim (s : State) (lane slice : Nat) (vals : List Int) (k : Nat) : State :=
  let i := 18 * lane + slice
  let go (f : Fld) (kind : Nat) : Nat :=
    narrow 8 (clampInt (-128) 127 (signed 8 (fld s f i) + Config.trimStep kind (vals.getD (k + kind) 0)))
  setFlds s i [(F.LNE_TRIM_OFFSET, go F.LNE_TRIM_OFFSET 0), (F.LNE_TRIM_GAIN, go F.LNE_TRIM_GAIN 1),
    (F.LNE_TRIM_SKEW, go F.LNE_TRIM_SKEW 2)]

/-- The values of a result put in force (Tables 3.6, 5.4, 6.11 and 7.8). -/
def putResult (s : State) (x : CalPend) : State :=
  let v (k : Nat) : Int := x.vals.getD k 0
  let n := x.item
  if n < 8 then each x.places (fun p t => stepTrim t n (sliceAt t n p) x.vals (3 * p)) s
  else if n < 16 then
    each x.places (fun p t =>
      swapSlice (stepTrim t (n - 8) (fld t F.LNE_SLICE_MAP_HI_MAP (n - 8) / 2 ^ 20 % 32) x.vals (3 * p)) (n - 8) p) s
  else if n < 24 then
    setFlds s (n - 16) [(F.LNE_AFE_CTL_CTF_BOOST, (v 0).toNat), (F.LNE_AFE_CTL_CTF_FC, (v 1).toNat)]
  else if n < 28 then
    setFlds s (n - 24) [(F.LNE_PAIR_SKEW_INT, (v 0 / 64).toNat), (F.LNE_PAIR_SKEW_FRAC, (v 0 % 64).toNat)]
  else if n < 32 then setFld s F.LNE_SV_OFFSET_OFS (n - 28) (narrow 8 (v 0))
  else if n < 46 then { s with cal := { s.cal with trims := tset (dflt []) s.cal.trims n x.vals } }
  else if n = 46 then
    setFlds s 0 [(F.SPN_HU_MEAS_KE, (v 0).toNat), (F.SPN_HU_MEAS_J, (v 1).toNat), (F.SPN_HU_MEAS_DRAG, (v 2).toNat),
      (F.SPN_HU_MEAS_VALID, 1)]
  else if n < 576 then setFld s F.WRP_PC_WR_OFFSET (n - 64) (narrow 6 (v 0))
  else if n < 1088 then
    setFld s F.WRP_PC_PC (n - 576) ((List.range 8).foldl (fun w k => w + narrow 6 (v k) * 2 ^ (6 * k)) 0)
  else setFlds s (n - 1088) [(F.SVG_PESCAL_PES_GAIN, (v 0).toNat), (F.SVG_PESCAL_PES_OFS, narrow 16 (v 1)),
    (F.SVG_PESCAL_SUM_NOM, (v 2).toNat)]

/-- A pending result takes effect (R614): it counts, CAL_LAST takes the drive time, and source 17 is raised. -/
def takeEffect (s : State) (x : CalPend) : State :=
  let t := putResult s x
  let t := setFld (bump t F.CAL_COUNT_COUNT x.item) F.CAL_COUNT_LAST_STATUS x.item 0
  raiseSource (setFld (bump t F.CAL_CNT_TAKEN) F.CAL_LAST_TIME x.item (now s)) 17

/-- A boundary: the pending results of the items named take effect, in the order they became pending. -/
def calBoundary (s : State) (p : Nat → Bool) : State :=
  let t := { s with cal := { s.cal with pending := s.cal.pending.filter (fun x => !p x.item) } }
  each (s.cal.pending.filter (fun x => p x.item)) (fun x u => takeEffect u x) t

/-- An item's abandonment is recorded (R615). -/
def abandoned (s : State) (n : Nat) : State :=
  bump (setFld s F.CAL_COUNT_LAST_STATUS n 0x11) F.CAL_CNT_ABANDONED

/-- Requests and background items in progress, and pending results, are abandoned for the items named (R615). -/
def calDrop (s : State) (p : Nat → Bool) : State :=
  let c := s.cal
  let gone := ((c.running ++ c.background).map (fun r => r.item) ++ c.pending.map (fun x => x.item)).filter p
  let t := { s with cal := { c with
    running := c.running.filter (fun r => !p r.item)
    background := c.background.filter (fun r => !p r.item)
    pending := c.pending.filter (fun x => !p x.item) } }
  each gone (fun n u => abandoned u n) t

/-- A head switch on an actuator, or its leaving FOLLOW, abandons its items (R615). -/
def calDropAct (s : State) (a : Nat) : State := calDrop s (fun n => itemOwner s n == a)

end Sys2Proof.Machine
end

