-- ==== Sys2Proof/Machine/Link.lean ====
section
/-!
DEFINITION. Operations shared by the media blocks: answers to media operations (R286), the write-gate inhibits of
Table 2.4, the preamp port's arbiter and frames (R43 to R50, R153), head selection (R48), and the life counters (R57).
-/

namespace Sys2Proof.Machine

/-! ### Answers to media operations -/

/-- The media operation under a tag of a Shuttle. -/
def opAt (s : State) (o : OpRef) : Option MediaOp := tget (dflt none) (shtOf s o.sh).tags o.tag

/-- The media operation under a tag replaced. -/
def setOp (s : State) (o : OpRef) (m : Option MediaOp) : State :=
  let h := shtOf s o.sh
  setSht s o.sh { h with tags := tset (dflt none) h.tags o.tag m }

/-- A unit answers a media operation: status, sectors done, and whether the last was cut (R286, R287). -/
def mediaDone (s : State) (o : OpRef) (status sectors : Nat) (cut : Bool) : State :=
  match opAt s o with
  | none => s
  | some m => setOp s o (some { m with phase := .done (if m.timedOut then 0x83 else status) sectors cut })

/-! ### Write-gate inhibits -/

/-- The head HDL has selected on actuator a. -/
def selHead (s : State) (a : Nat) : Nat := fld s F.HDL_HSEL_HEAD a

/-- The status of selecting a head on an actuator: 0 when it may be selected (R47, R48, R285). -/
def headStatus (s : State) (a h : Nat) : Nat :=
  if h < s.part.heads ∧ flag s F.HDL_HEADMAP_LOCK_LOCK ∧ flag s F.HDL_HEADMAP_VALID h ∧ fld s F.HDL_HEADMAP_ACT h = a
  then (if flag s F.HDL_HEADMAP_DISABLED h then 0x44 else 0)
  else 0x43

/-- PFLT_N_a is asserted, or was and firmware has not cleared LATCHED (R50). -/
def pfltInhibit (s : State) (a : Nat) : Bool := flag s F.HDL_PFLT_ACTIVE a || flag s F.HDL_PFLT_LATCHED a

/-- A head switch is in progress, from the grant of its select frame. -/
def switching (s : State) (a : Nat) : Bool := (hdlOf s a).switches.any (fun x => x.granted)

/-- The tag is PAIRED. -/
def paired (s : State) : Bool := fld s F.HDL_TAG_STATUS_STATE == 2

/-- The active inhibits of Table 2.4, by bit (R49). -/
def inhibit (s : State) (a : Nat) : Nat → Bool
  | 0 => safeState s
  | 1 => flag s F.CTE_STAT_OT a
  | 2 => pfltInhibit s a
  | 3 => headStatus s a (selHead s a) != 0
  | 4 => !paired s
  | 5 => powerLost s
  | 6 => switching s a
  | _ => false

/-- HDL_WG_STAT_a. -/
def inhibits (s : State) (a : Nat) : Nat := (List.range 7).foldl (fun n k => n + b2n (inhibit s a k) * 2 ^ k) 0

/-! ### The preamp serial port -/

/-- The zone table in the registers. -/
def zoneRegs (s : State) : List (Word × Word) :=
  (List.range 64).map (fun z => (rd s .WRP_ZONE z, rd s .WRP_ZONE2 z))

/-- A field of entry z of a zone table: of WRP_ZONE_z, or of WRP_ZONE2_z. -/
def zoneFld (t : List (Word × Word)) (f : Fld) (z : Nat) : Nat := getBits (t.getD z (0#64, 0#64)).1 f.lo f.w
/-- A field of WRP_ZONE2_z of a table. -/
def zone2Fld (t : List (Word × Word)) (f : Fld) (z : Nat) : Nat := getBits (t.getD z (0#64, 0#64)).2 f.lo f.w

/-- The zone of a track: the valid entry of highest index whose FIRST_TRACK is at or below it (R143). -/
def zoneOf (t : List (Word × Word)) (track : Nat) : Option Nat :=
  ((List.range 64).reverse).find? (fun z =>
    decide (zoneFld t F.WRP_ZONE_VALID z ≠ 0) && decide (zoneFld t F.WRP_ZONE_FIRST_TRACK z ≤ track))

/-- The parameter group of a track's zone by the table in force; 0 where no zone covers it. -/
def groupOfTrack (s : State) (t : Nat) : Nat :=
  match zoneOf s.zones t with
  | some z => zoneFld s.zones F.WRP_ZONE_PGRP z
  | none => 0

/-- The parameter group of the carried track while TRK_VALID = 1, else of the last one carried, else 0 (R153). -/
def carriedGroup (s : State) (a : Nat) : Nat :=
  if (svgOf s a).trkValid then groupOfTrack s (svgOf s a).track
  else match (wrpOf s a).lastTrack with
    | some t => groupOfTrack s t
    | none => 0

/-- A head switch waits and none is in progress. -/
def switchWaits (h : HdlAct) : Bool := !h.switches.isEmpty && !(h.switches.any (fun x => x.granted))

/-- The requesters of a preamp port (R45). -/
def pspRequest (s : State) (a : Nat) : Nat → Bool
  | 0 => (wrpOf s a).writeFrame || !(wrpOf s a).readFrames.isEmpty || switchWaits (hdlOf s a)
  | 1 => flag s F.HDL_PSP_CMD_BUSY a
  | 2 => (hdlOf s a).faultPending
  | _ => false

/-- Frames other than the fault read are held while WG_a is high or the pair's read gate is open (R46). -/
def pspHeld (s : State) (a : Nat) : Bool := (hdlOf s a).wg || (pairOf s a).gate

/-- The requester granted: under R25 among those not held. -/
def pspGrant (s : State) (a : Nat) : Option Nat :=
  grant 3 (hdlOf s a).ptr (fun k => pspRequest s a k && (k == 2 || !pspHeld s a))

/-- The head-control frame granted: WRP's write-mode or read-mode frame, else the select frame of the oldest switch. The
register and data of a select frame are not given: it writes the preamp's head number to address 0. -/
def headControlFrame (s : State) (a : Nat) : State :=
  let h := hdlOf s a
  let w := wrpOf s a
  if w.writeFrame then
    match w.run with
    | some r =>
      let i := 16 * r.head + r.group
      let assist := if flag s F.WRP_CTL_ASSIST_EN then fld s F.WRP_HA_ASSIST i else 0
      let t := setWrp s a { w with writeFrame := false }
      setHdl t a { h with running := some {
        who := .headControl, ctl := .writeMode, addr := fld s F.WRP_PA_CFG_WR_ADDR, head := r.head, run := r.no
        data := fld s F.WRP_HA_HEAT_WR i + 256 * assist } }
    | none => setWrp s a { w with writeFrame := false }
  else
    match w.readFrames with
    | g :: rest =>
      let head := selHead s a
      let group := match g with | some x => x.1 | none => carriedGroup s a
      let t := setWrp s a { w with readFrames := rest }
      setHdl t a { h with running := some {
        who := .headControl, ctl := .readMode, addr := fld s F.WRP_PA_CFG_RD_ADDR, head := head
        data := fld s F.WRP_HA_HEAT_RD (16 * head + group) } }
    | [] =>
      match h.switches with
      | x :: rest =>
        setHdl s a { h with
          switches := { x with granted := true } :: rest
          running := some { who := .headControl, ctl := .switch, data := fld s F.HDL_HEADMAP_PREAMP_HEAD x.head } }
      | [] => s

/-- The port's arbiter (R45, R46): with the port free, the granted requester's frame starts. -/
def pspArb (s : State) (a : Nat) : State :=
  if (hdlOf s a).running.isSome then s
  else
    match pspGrant s a with
    | none => s
    | some k =>
      let t := setHdl s a { hdlOf s a with ptr := grantNext 3 k }
      let h := hdlOf t a
      match k with
      | 0 => headControlFrame t a
      | 1 => setHdl t a { h with running := some {
          who := .firmware, rnw := flag s F.HDL_PSP_CMD_RNW a, addr := fld s F.HDL_PSP_CMD_ADDR a
          data := fld s F.HDL_PSP_CMD_DATA a } }
      | _ => setHdl t a { h with
          faultPending := false
          running := some { who := .faultRead, rnw := true, addr := fld s F.HDL_PFLT_ADDR_ADDR a } }

/-- A head switch requested (R48): refused with its status, or queued for the port. -/
def requestSwitch (s : State) (a head : Nat) (media : Option OpRef) : Nat × State :=
  let st := headStatus s a head
  if st = 0 then
    let h := hdlOf s a
    let t := setHdl s a { h with switches := h.switches ++ [{ head := head, media := media }] }
    (0, pspArb (setFlag t F.HDL_HSEL_PENDING a true) a)
  else (st, setFld s F.HDL_HSEL_STATUS a st)

/-- A head switch is pending on the actuator. -/
def switchPending (s : State) (a : Nat) : Bool := !(hdlOf s a).switches.isEmpty

/-! ### HDA life -/

/-- A life counter's shadow delta raised (R57). -/
def lifeAdd (s : State) (k n : Nat) : State :=
  { s with tag := { s.tag with shadow := tset (dflt 0) s.tag.shadow k (tget (dflt 0) s.tag.shadow k + n) } }

/-- A life counter raised by a part of its unit: whole units go to the shadow delta (Table 2.8). -/
def lifePart (s : State) (k unit n : Nat) : State :=
  let x := tget (dflt 0) s.tag.part k + n
  lifeAdd { s with tag := { s.tag with part := tset (dflt 0) s.tag.part k (x % unit) } } k (x / unit)

/-- HDL_LIFE_USED_k: committed value plus shadow delta (R57). -/
def lifeUsed (s : State) (k : Nat) : Nat := tget (dflt 0) s.tag.committed k + tget (dflt 0) s.tag.shadow k

/-- A limit the tag gave (HDL_LIFE_RATED_k). -/
def lifeLimit (s : State) (k : Nat) : Nat := (rd s .HDL_LIFE_RATED k).toNat

/-- The rated life of counter k as a fraction (R57, Table 2.8): 600,000 cycles; for the workload 550 TB a year times the
power-on limit over 31,536,000, in MB; else the tag's limit. -/
def lifeRated (s : State) (k : Nat) : Nat × Nat :=
  match k with
  | 0 => (if lifeLimit s 0 = 0 then 0 else 600000, 1)
  | 3 => (550000000 * lifeLimit s 4, 31536000)
  | _ => (lifeLimit s k, 1)

/-- A counter's used/rated ratio as a fraction; before the tag's limits are loaded no ratio is formed and it is 0 (R60). -/
def lifeRatio (s : State) (k : Nat) : Nat × Nat :=
  let r := lifeRated s k
  if r.1 = 0 then (0, 1) else (lifeUsed s k * r.2, r.1)

/-- The counter of largest ratio, the lowest index on a tie (R60). -/
def lifeLimiting (s : State) : Nat :=
  (List.range 5).foldl (fun m k =>
    if (lifeRatio s m).1 * (lifeRatio s k).2 < (lifeRatio s k).1 * (lifeRatio s m).2 then k else m) 0

/-- HDA life in percent, rounded down and saturating at 255, and its counter (R60). -/
def lifePct (s : State) : Nat × Nat :=
  let k := lifeLimiting s
  (min 255 ((lifeRatio s k).1 * 100 / (lifeRatio s k).2), k)

end Sys2Proof.Machine
end

