-- ==== Sys2Proof/Machine/Write.lean ====
section
/-!
DEFINITION. The write path: zones, slots and refusals (R143 to R148), the run from acceptance to its end (R149 to
R157), and the WRP events.
-/

namespace Sys2Proof.Machine

/-! ### Zones and slots -/

/-- Channel bits of a sector under a code (Table 4.2). -/
def sectorBits : Nat → Nat
  | 0 => 38112
  | 1 => 37088
  | _ => 36064

/-- The bits of a code's codeword: N of Table 4.2. -/
def codeN : Nat → Nat
  | 0 => 37888
  | 1 => 36864
  | _ => 35840

/-- A zone may be written (R144). -/
def zoneWritable (t : List (Word × Word)) (z : Nat) : Bool :=
  let code := zoneFld t F.WRP_ZONE_CODE z
  let spt := zoneFld t F.WRP_ZONE_SPT z
  decide (spt * sectorBits code + 48 ≤ 48 * zoneFld t F.WRP_ZONE_REV_CYCLES z)
    && decide (zone2Fld t F.WRP_ZONE2_TRACK_SKEW z < spt) && code != 3
    && (zoneFld t F.WRP_ZONE_KIND z == 0 || decide (2 ≤ zone2Fld t F.WRP_ZONE2_BAND_TRACKS z))

/-- The track after the last of a zone: the next valid entry's FIRST_TRACK, else WRP_MAX_TRACK (R143). -/
def zoneEnd (s : State) (t : List (Word × Word)) (z : Nat) : Nat :=
  match (List.range 64).find? (fun k => decide (z < k ∧ zoneFld t F.WRP_ZONE_VALID k ≠ 0)) with
  | some k => zoneFld t F.WRP_ZONE_FIRST_TRACK k
  | none => fld s F.WRP_MAX_TRACK_TRACKS

/-- A track is the guard track of a band (R147). -/
def guardTrack (s : State) (t : List (Word × Word)) (z track : Nat) : Bool :=
  let band := zone2Fld t F.WRP_ZONE2_BAND_TRACKS z
  decide (zoneFld t F.WRP_ZONE_KIND z ≠ 0) && decide (track + zone2Fld t F.WRP_ZONE2_SPARE_TRACKS z < zoneEnd s t z)
    && decide ((track - zoneFld t F.WRP_ZONE_FIRST_TRACK z) % band = band - 1)

/-- The slot of logical sector j of a track in zone z (R145). -/
def slotOf (t : List (Word × Word)) (z track j : Nat) : Nat :=
  (j + (track - zoneFld t F.WRP_ZONE_FIRST_TRACK z) * zone2Fld t F.WRP_ZONE2_TRACK_SKEW z) % zoneFld t F.WRP_ZONE_SPT z

/-- The pair is in a read or a write run. -/
def inRun (s : State) (a : Nat) : Bool := (pairOf s a).run.isSome || (wrpOf s a).run.isSome

/-- The refusal of a WRRUN on a present actuator, the checks of Table 5.1 in its order; 0 when accepted (R148). -/
def wrrunStatus (s : State) (a track first count : Nat) : Nat :=
  let tab := zoneRegs s
  let z := zoneOf tab track
  let past := match z with
    | some z => decide (zoneFld tab F.WRP_ZONE_SPT z ≤ first + count - 1)
    | none => false
  if fld s F.WRP_MAX_TRACK_TRACKS ≤ track ∨ count = 0 ∨ past = true then 0x41
  else
    match z with
    | none => 0x40
    | some z =>
      if !zoneWritable tab z then 0x40
      else if guardTrack s tab z track then 0x42
      else if switchPending s a then 0x16
      else if inRun s a || calHolds s a then 0x18
      else if (List.range 6).any (inhibit s a) then 0x50
      else 0

/-! ### The run -/

/-- WRP_RUN_STAT_a and the completion of a run (R157, Table 5.3): WG falls, the status is recorded, the media operation
is answered, source 512 + 8 + a is raised, and a read-mode frame is due (R153). -/
def wrpEnd (s : State) (a status : Nat) (cut : Bool) : State :=
  match (wrpOf s a).run with
  | none => s
  | some r =>
    let written := fld s F.WRP_RUN_STAT_WRITTEN a
    let t := setHdl s a { hdlOf s a with wg := false }
    let t := setFlds t a [(F.WRP_RUN_STAT_STATE, 0), (F.WRP_RUN_STAT_STATUS, status), (F.WRP_RUN_STAT_CUT, b2n cut)]
    let t := when cut (fun u => bump u F.WRP_CNT_CUT_RUNS a) t
    let t := when (status == 0x54 || status == 0x55) (fun u => bump u F.WRP_CNT_DATA_FAIL a) t
    let w := wrpOf t a
    let t := setWrp t a { w with run := none, writeFrame := false, readFrames := w.readFrames ++ [some (r.group, r.head)] }
    let t := mediaDone t r.owner status written cut
    let t := calBoundary t (fun n => writeItem n && itemOwner t n == a)
    pspArb (raiseSource t (520 + a)) a

/-- The place of a status in Table 5.3. -/
def endOrder (st : Nat) : Nat := ([0x00, 0x11, 0x14, 0x50, 0x53, 0x54, 0x55].idxOf st)

/-- Of the status a run is ending with and another cause, the first of Table 5.3 (R157). -/
def firstEnd (ending : Option Nat) (st : Nat) : Nat :=
  match ending with
  | some e => if endOrder e < endOrder st then e else st
  | none => st

/-- A cause that drops WG at once ends the run; it cuts the sector whose slot has begun (R157). -/
def wrpCut (s : State) (a status : Nat) : State :=
  match (wrpOf s a).run with
  | none => s
  | some r => wrpEnd s a (firstEnd r.ending status) ((hdlOf s a).wg && r.inSector)

/-- A run ends after the sector being written, or at once when none has begun (R149, R157). -/
def wrpEndAfter (s : State) (a status : Nat) : State :=
  match (wrpOf s a).run with
  | none => s
  | some r =>
    if (hdlOf s a).wg && r.inSector then
      setWrp s a { wrpOf s a with run := some { r with ending := some (firstEnd r.ending status) } }
    else wrpEnd s a (firstEnd r.ending status) false

/-- The power-loss broadcast ends a run after the sector being written, or at once when none has begun (R38, R157). -/
def wrpPowerLoss (s : State) (a : Nat) : State := wrpEndAfter s a 0x11

/-- A WRRUN handed to WRP (R148, R149): refused with its status, or accepted; the zone table takes effect (R143), sectors 0
and 1 are fetched, the write-mode frame is due, and the read-mode frame after a write run on the same head that still waits
is withdrawn (R154). -/
def wrpRequest (s : State) (o : OpRef) (a head track first count : Nat) (lba : Word) (base stride : Nat) : State :=
  let st := wrrunStatus s a track first count
  let tab := zoneRegs s
  if st ≠ 0 then mediaDone (setFld s F.WRP_RUN_STAT_STATUS a st) o st 0 false
  else
    match zoneOf tab track with
    | none => s
    | some z =>
      let t := setFlds { s with zones := tab } a
        [(F.WRP_RUN_STAT_STATE, 1), (F.WRP_RUN_STAT_WRITTEN, 0), (F.WRP_RUN_STAT_CUT, 0)]
      let w := wrpOf t a
      pspArb (setWrp t a { w with
        writeFrame := true, runs := w.runs + 1
        readFrames := w.readFrames.filter (fun x => match x with | some g => decide (g.2 ≠ head) | none => true)
        run := some {
          owner := o, no := w.runs, head := head, track := track, first := first, count := count, lba := lba, base := base
          stride := stride, code := zoneFld tab F.WRP_ZONE_CODE z, spt := zoneFld tab F.WRP_ZONE_SPT z
          slot0 := slotOf tab z track first, group := zoneFld tab F.WRP_ZONE_PGRP z, marks := rd s .LNE_SYNC_PAT a
          fetching := if count = 1 then [0] else [0, 1] } }) a

/-- The sector CRC of R112 over the media LBA and bytes 0 to 4,107. -/
def sectorCrc (lba : Word) (bytes : List Byte) : BitVec 32 := crc32c (wordBytes lba ++ bytes)

/-- The 4,112 information bytes of a sector from the 4,104 bytes fetched (Table 4.1, R149). -/
def infoBytes (lba : Word) (bytes : List Byte) : List Byte :=
  let b := bytes ++ [0#8, 0#8, 0#8, 0#8]
  let c := sectorCrc lba b
  b ++ (List.range 4).map (fun k => c.extractLsb' (8 * k) 8)

/-- A sector's data arrives and is staged with its CRC; a bus error ends the run DATA_ECC before that sector (R149). -/
def execSectorFetchDone (a sector : Nat) (err : Bool) (s : State) : Result :=
  .next (match (wrpOf s a).run with
    | none => s
    | some r =>
      if sector ∈ r.fetching then
        let rest := r.fetching.filter (fun k => decide (k ≠ sector))
        let x := if err then (none, s) else busRead s portWrp (r.base + sector * r.stride) 4104
        let s := x.2
        match x.1 with
        | none =>
          let t := setWrp s a { wrpOf s a with run := some { r with
            fetching := rest, bad := some (match r.bad with | some b => min b sector | none => sector) } }
          if fld s F.WRP_RUN_STAT_WRITTEN a = sector then wrpEnd t a 0x55 false else t
        | some bytes =>
          setWrp s a { wrpOf s a with run := some { r with
            fetching := rest
            staged := r.staged ++ [{
              index := sector
              data := infoBytes (r.lba + BitVec.ofNat 64 sector) bytes }] } }
      else s)

/-- The next sector of a run is staged. -/
def nextStaged (s : State) (a : Nat) (r : WrRun) : Bool :=
  r.staged.any (fun x => decide (x.index = fld s F.WRP_RUN_STAT_WRITTEN a))

/-- A sector begins to be written: the fetch of sector k, for k ≥ 2, starts when sector k − 1 begins (R149). -/
def beginSector (s : State) (a : Nat) : State :=
  match (wrpOf s a).run with
  | none => s
  | some r =>
    let j := fld s F.WRP_RUN_STAT_WRITTEN a
    if (hdlOf s a).wg && r.writing && !r.inSector && nextStaged s a r && decide (j < r.count) then
      setWrp s a { wrpOf s a with run := some { r with
        inSector := true, fetching := if 1 ≤ j ∧ j + 1 < r.count then r.fetching ++ [j + 1] else r.fetching } }
    else s

/-- A sector's data is not complete in time: the run ends DATA_LATE, after the sector being written if one is (R149). -/
def execDataLate (a : Nat) (s : State) : Result :=
  .next (match (wrpOf s a).run with
    | none => s
    | some r =>
      let j := fld s F.WRP_RUN_STAT_WRITTEN a
      let next := if r.inSector then j + 1 else j
      if next < r.count ∧ !(r.staged.any (fun x => decide (x.index = next))) then wrpEndAfter s a 0x54 else s)

/-! ### What a slot holds -/

/-- The 0, 0, 1, 1 pattern of preamble, postamble and gap fill (R150, R151). -/
def fill0011 (n : Nat) : List Bool := (List.range n).map (fun i => decide (2 ≤ i % 4))

/-- The 32 bits of a sync mark, bit 0 first (R150). -/
def markBits (w : Word) : List Bool := (List.range 32).map (bit w)

/-- The bits of a codeword (R111, R149). -/
def codewordBits (code : Nat) (data : List Byte) : List Bool :=
  (List.range (codeN code)).map (Config.codeword code data)

/-- The bits of a slot (R150): preamble, mark A, codeword, mark B, postamble, and the gap's fill (R151). -/
def slotBits (r : WrRun) (data : List Byte) : List Bool :=
  fill0011 96 ++ markBits r.marks ++ codewordBits r.code data ++ markBits (r.marks >>> 32) ++ fill0011 16 ++ fill0011 48

/-- The bits of a stream where it changes, the bit before the first given (R152). -/
def transitionsFrom (before : Bool) : Nat → List Bool → List Nat
  | _, [] => []
  | m, b :: t => if b != before then m :: transitionsFrom b (m + 1) t else transitionsFrom b (m + 1) t

/-- The transitions of a slot: the bit before its first is the 1 that ends the pattern in the gap before it (R152). -/
def slotTransitions (bits : List Bool) : List Nat := transitionsFrom true 0 bits

/-- PC_k in 1/64 bit of a precompensation word (Table 5.8). -/
def pcOf (pc : Nat) (k : Nat) : Int := signed 6 (pc / 2 ^ (6 * k))

/-- The times of transitions in 1/64 bit (R152), from those at bits l, with the last one's bit, the one's before it and its
time; each shifted by PC_k, k = 4 p1 + 2 p2 + n1, and none less than half a bit after the one before. -/
def edgeTimes (pc : Option Nat) : Option (Nat × Int) → Option Nat → List Nat → List (Nat × Int)
  | _, _, [] => []
  | last, prev2, m :: t =>
    let p1 := match last with | some x => decide (x.1 + 1 = m) | none => false
    let p2 := (match last with | some x => decide (x.1 + 2 = m) | none => false) ||
      (match prev2 with | some x => decide (x + 2 = m) | none => false)
    let n1 := decide (t.head? = some (m + 1))
    let shift := match pc with | some w => pcOf w (4 * b2n p1 + 2 * b2n p2 + b2n n1) | none => 0
    let free := 64 * (m : Int) + shift
    let time := match last with | some x => max free (x.2 + 32) | none => free
    (m, time) :: edgeTimes pc (some (m, time)) (last.map Prod.fst) t

/-- The transitions of a slot with their times: shifted while PRECOMP_EN = 1. The gap before the slot changed at the bit two
before its first. -/
def slotEdges (s : State) (r : WrRun) (bits : List Bool) : List (Nat × Int) :=
  let pc := if flag s F.WRP_CTL_PRECOMP_EN then some (fld s F.WRP_PC_PC (16 * r.head + r.group)) else none
  (edgeTimes pc (some (0, 0)) none ((slotTransitions bits).map (· + 2))).map (fun x => (x.1 - 2, x.2 - 128))

/-- The write waits one revolution and counts it (R154). -/
def execPreheatSlip (a : Nat) (s : State) : Result :=
  .next (match (wrpOf s a).run with
    | some r => if r.writing then s else bump s F.WRP_CNT_PREHEAT_SLIP a
    | none => s)

/-- WG_a rises: the run is accepted, its write-mode frame has ended, its next sector is staged and no inhibit holds the
gate (R49, R151, R154); once for a run, and again after the pad (R145). The bits' phase against tone A is that of R151. -/
def execWgRise (g : GatePhase) (s : State) : Result :=
  let a := g.act
  .next (match (wrpOf s a).run with
    | none => s
    | some r =>
      if (!r.writing || r.pad) && r.frameDone && nextStaged s a r && decide (inhibits s a = 0) then
        let t := setHdl s a { hdlOf s a with wg := true }
        setWrp (setFld t F.WRP_RUN_STAT_STATE a 2) a { wrpOf t a with
          bitPhase := (768 * g.theta + 2 ^ 14 * fld s F.WRP_PC_WR_OFFSET (16 * r.head + r.group)) % 2 ^ 20
          run := some { r with writing := true, pad := false } }
      else s)

/-- After a sector of a run that goes on: past the track's last slot WG falls for the pad (R145). -/
def crossPad (s : State) (a : Nat) (r : WrRun) : State :=
  if (r.slot0 + fld s F.WRP_RUN_STAT_WRITTEN a) % r.spt = 0 ∧ fld s F.WRP_RUN_STAT_WRITTEN a < r.count then
    pspArb (setWrp (setHdl s a { hdlOf s a with wg := false }) a { wrpOf s a with run := some { r with pad := true } }) a
  else s

/-- A sector's last postamble bit is written with WG high (R157): what WD carried is the slot's (R150, R152), the sector
counts as written and feeds life counter 3 (R155); a run that is ending, or whose next sector met a bus error, ends here, OK
where this sector was its last. -/
def sectorWritten (s : State) (a : Nat) : State :=
  let s := beginSector s a
  match (wrpOf s a).run with
  | none => s
  | some r =>
    let j := fld s F.WRP_RUN_STAT_WRITTEN a
    if (hdlOf s a).wg && r.inSector then
      let bits := match r.staged.find? (fun x => decide (x.index = j)) with | some x => slotBits r x.data | none => []
      let q := { r with inSector := false, staged := r.staged.filter (fun x => decide (x.index ≠ j)) }
      let t := setFld s F.WRP_RUN_STAT_WRITTEN a (j + 1)
      let t := lifePart (bump t F.WRP_CNT_SECTORS a) 3 1000000 4096
      let t := setWrp t a { wrpOf t a with line := bits, edges := slotEdges s r bits, run := some q }
      match r.ending with
      | some st => wrpEnd t a (if j + 1 = r.count then 0 else st) false
      | none => if r.bad = some (j + 1) then wrpEnd t a 0x55 false else crossPad t a q
    else s

/-- WG falls WG_TRAIL bits after the last postamble and the run ends OK (R156). -/
def execWriteRunEnd (a : Nat) (s : State) : Result :=
  .next (match (wrpOf s a).run with
    | none => s
    | some r =>
      if r.writing && !r.inSector && decide (fld s F.WRP_RUN_STAT_WRITTEN a = r.count) then wrpEnd s a 0 false else s)

/-- A block reset of WRP (R157, R606): every run ends WRP_RESET, with its read-mode frame due as at any end (R153). -/
def wrpBlockReset (s : State) : State :=
  let t := each (List.range s.part.acts) (fun a u => wrpCut u a 0x53) s
  setFlag (calDrop t writeItem) F.CKR_BRST_WRP 0 false

/-- A block reset of WRP. -/
def execWrpBlockReset (s : State) : Result := .next (wrpBlockReset s)

/-- A Shuttle abort of a write run ends it RUN_ABORTED (R287, Table 5.3). -/
def wrpAbort (s : State) (o : OpRef) (a : Nat) : State :=
  match (wrpOf s a).run with
  | some r => if r.owner = o then wrpCut s a 0x11 else s
  | none => s

end Sys2Proof.Machine
end

