-- ==== Sys2Proof/Machine/Signal.lean ====
section
/-!
DEFINITION. The signal path of a lane pair: slices (R68), front end (R69), pair Spool (R66), joint equaliser and target (R70
to R72), soft-output detector (R73), LLR words (R74), adaptation (R75 to R78), defects (R79 to R81) and timing (R82, R83).
-/

namespace Sys2Proof.Machine

/-! ### Rounding -/

/-- A quotient at the resolution of its register: exact where it is, else the step below or above. -/
def roundStep (up : Bool) (num : Int) (den : Nat) : Int :=
  if num % den = 0 then num / den else num / den + b2n up

/-- A quotient rounded to nearest; a half goes up or down. -/
def roundNear (up : Bool) (num : Int) (den : Nat) : Int :=
  if 2 * (num % den) = den then num / den + b2n up else (2 * num + den) / (2 * den)

/-- A value in a signed field of w bits, else a free one (R75 states a clamp for the gain alone). -/
def fitSigned (w : Nat) (free : Nat) (v : Int) : Nat :=
  if -(2 ^ (w - 1) : Int) ≤ v ∧ v < 2 ^ (w - 1) then narrow w v else free % 2 ^ w

/-! ### From the slices to the equaliser -/

/-- Samples of the bit positions of a span, in time order (R68): position m takes the slice the map puts at m mod 16. -/
def laneSamples (s : State) (lane : Nat) (slices : List Int) : List Int :=
  (List.range 16).map (fun p => clampInt (-64) 63 (slices.getD (sliceAt s lane p) 0))

/-- A word of the pair Spool (R66): eight 7-bit samples in [55:0]. -/
def spoolWord (l : List Int) : Word :=
  BitVec.ofNat 64 ((List.range 8).foldl (fun n i => n + narrow 7 (l.getD i 0) * 2 ^ (7 * i)) 0)

/-- The samples of a word of the pair Spool. -/
def spoolSamples (w : Word) : List Int := (List.range 8).map (fun i => signed 7 (getBits w (7 * i) 7))

/-- The front end of a lane (R69): u in 1/16 LSB, v = u − a_s u²/64 in 2^−28, x = g v in 2^−40. -/
def front (gain base asym : Nat) (s : Int) : Front :=
  let u := 16 * s - signed 12 base
  { s := s, u := u, x := (gain : Int) * (u * 2 ^ 24 - signed 16 asym * (u * u)) }

/-- The sum of 32 taps from tap j0 over a stream, newest first, as it stood k samples ago: in 2^−54 (R71). -/
def tapSum (taps : List Nat) (j0 k : Nat) (h : List Front) : Int :=
  (List.range 32).foldl (fun n j => n + signed 16 (taps.getD (j0 + j) 0) * (h.getD (k + j) {}).x) 0

/-- Target coefficient g_i, 1 to 4, of a target word, in 2^−14 (R72). -/
def targetCoef (target i : Nat) : Int := signed 16 (target / 2 ^ (16 * (i - 1)))

/-- The target output for the decision d0 and the four before it, latest first, in 1/32 LSB (R72). -/
def targetOut (target : Nat) (d0 : Int) (prev : List Int) : Int :=
  2 ^ 14 * d0 + (List.range 4).foldl (fun n i => n + targetCoef target (i + 1) * prev.getD i 0) 0

/-! ### The detector -/

/-- The level of a written bit (R72): +1 for 0, −1 for 1. -/
def level (b : Bool) : Int := if b then -1 else 1

/-- The four levels a state stands for, latest first: bit i of the state is written bit m − 1 − i (R73). -/
def stateLevels (st : Nat) : List Int := (List.range 4).map (fun i => level (Nat.testBit st i))

/-- The branch metric of written bit b from a state, in 2^−10 LSB² (R73). -/
def branch (target st b : Nat) (y : Int) : Int :=
  let e := 32 * y - targetOut target (level (b == 1)) (stateLevels st)
  e * e

/-- The least of a list. -/
def leastInt (l : List Int) : Int := l.foldl min (l.headD 0)

/-- Path metrics by state after one more sample. -/
def forwardStep (target : Nat) (a : List Int) (y : Int) : List Int :=
  (List.range 16).map (fun t =>
    min (a.getD (t / 2) 0 + branch target (t / 2) (t % 2) y) (a.getD (t / 2 + 8) 0 + branch target (t / 2 + 8) (t % 2) y))

/-- Path metrics by state from one sample on to the window's end. -/
def backwardStep (target : Nat) (b : List Int) (y : Int) : List Int :=
  (List.range 16).map (fun st =>
    min (b.getD (2 * st % 16) 0 + branch target st 0 y) (b.getD ((2 * st + 1) % 16) 0 + branch target st 1 y))

/-- The metrics before each sample of a window. -/
def forwardAll (target : Nat) : List Int → List Int → List (List Int)
  | _, [] => []
  | a, y :: t => a :: forwardAll target (forwardStep target a y) t

/-- The metrics after each sample of a window, its first sample's first, and the metrics before it. -/
def backwardAll (target : Nat) : List Int → List (List Int) × List Int
  | [] => ([], List.replicate 16 0)
  | y :: t =>
    let r := backwardAll target t
    (r.2 :: r.1, backwardStep target r.2 y)

/-- dm of one sample from the metrics before and after it, in 2^−10 LSB² (R73). -/
def metricGap (target : Nat) (a b : List Int) (y : Int) : Int :=
  let best (v : Nat) : Int := leastInt ((List.range 16).map (fun st =>
    a.getD st 0 + branch target st v y + b.getD ((2 * st + v) % 16) 0))
  best 1 - best 0

/-- dm of every sample of a window. -/
def windowGaps (target : Nat) (ys : List Int) : List Int :=
  List.zipWith (fun ab y => metricGap target ab.1 ab.2 y)
    (List.zip (forwardAll target (List.replicate 16 0) ys) (backwardAll target ys).1) ys

/-- The LLR of a bit (R73). -/
def llrOf (up : Bool) (scale : Nat) (dm : Int) : Int := clampInt (-31) 31 (roundNear up (dm * scale) (2 ^ 30))

/-- The hard decision of a bit: 0 where its LLR favours 0; equal metrics leave it open. -/
def decideBit (tie : Bool) (dm : Int) : Bool := if dm = 0 then tie else decide (dm < 0)

/-- The samples of window k of a stream: 256, overlapped by 64 (R73). -/
def windowOf (ys : List Int) (k : Nat) : List Int := (ys.drop (192 * k)).take 256

/-- What window k adds: decisions and LLRs of its bits, up to 32 before its end or, for the last, to its end, without those
the window before it gave. -/
def windowOut (target scale n : Nat) (ys : List Int) (k : Nat) (last : Bool) : List (Bool × Int) :=
  let g := windowGaps target (windowOf ys k)
  let from_ := if k = 0 then 0 else 32
  let kept := (if last then g else g.take 224).drop from_
  kept.mapIdx (fun i dm =>
    let m := 192 * k + from_ + i
    (decideBit (Config.tieBit n (2 * m)) dm, llrOf (Config.tieBit n (2 * m + 1)) scale dm))

/-- A whole stream detected: its windows in turn, so many at most. -/
def detectAll (target scale n : Nat) (ys : List Int) : Nat → Nat → List (Bool × Int)
  | 0, _ => []
  | fuel + 1, k =>
    if ys.length ≤ 192 * k + 256 then windowOut target scale n ys k true
    else windowOut target scale n ys k false ++ detectAll target scale n ys fuel (k + 1)

/-! ### Defect flags and the LLRs sent -/

/-- A flag at bit m with its guard (R79): a flagged bit no more than g away. -/
def guarded (l : List Bool) (g m : Nat) : Bool := ((l.drop (m - g)).take (min g m + g + 1)).any id

/-- A list of flags with the guard on both sides of each span. -/
def guardAll (l : List Bool) (g n : Nat) : List Bool := (List.range n).map (guarded l g)

/-- An LLR as it is sent (R80, R81): erased, scaled, or as detected; with whether it counts in ERASED and in SCALED. -/
def sendLlr (scale : Nat) (fl ft lost : Bool) (lam : Int) : Int × Bool × Bool :=
  if lost || (fl && ft) then (0, true, false)
  else if fl || ft then
    match scale with
    | 0 => (lam, false, false)
    | 1 => (lam.tdiv 2, false, true)
    | 2 => (lam.tdiv 4, false, true)
    | _ => (0, true, false)
  else (lam, false, false)

/-- Ten LLRs in a word, the first in [5:0] (R74). -/
def llrWord (l : List Int) : Word :=
  BitVec.ofNat 64 ((List.range 10).foldl (fun n i => n + narrow 6 (l.getD i 0) * 2 ^ (6 * i)) 0)

/-- LLR words of a codeword: n of them, ten LLRs each, the last filled with zeros (R74). -/
def llrWords : Nat → List Int → List Word
  | 0, _ => []
  | n + 1, l => llrWord (l.take 10) :: llrWords n (l.drop 10)

/-- The LLRs of a packet as they are sent: the codeword's n from bit start on, with its flags. -/
def packetLlrs (scale start n : Nat) (lost : Option Nat) (llrs : List Int) (fl ft : List Bool) : List (Int × Bool × Bool) :=
  (List.range n).map (fun i =>
    let m := start + i
    sendLlr scale (fl.getD m false) (ft.getD m false) (match lost with | some b => decide (b ≤ m) | none => false)
      (llrs.getD m 0))

/-- The LLR words, the count of erased LLRs and SCALED, of LLRs sent. -/
def packed (l : List (Int × Bool × Bool)) : List Word × Nat × Bool :=
  (llrWords ((l.length + 9) / 10) (l.map (fun x => x.1)), (l.filter (fun x => x.2.1)).length, l.any (fun x => x.2.2))

/-! ### The registers a live path works by -/

/-- What the registers of a pair set for its live path. -/
structure PathCtl where
  int : Nat
  frac : Nat
  /-- the shifts SG, SB, SA, SE and ST, and the loop enables -/
  shift : List Nat
  enable : List Bool
  freeze : Bool
  main : Nat
  /-- KP and KI of the preamble, and after it; KD -/
  kpAcq : Nat
  kiAcq : Nat
  kpTrk : Nat
  kiTrk : Nat
  kd : Nat
  dropThr : Nat
  taThr : Nat
  guard : Nat
  coastMax : Nat
  llrScale : Nat
deriving DecidableEq, Repr

/-- A pair's settings (R70, R103, R104, R106). -/
def pathCtl (s : State) (a : Nat) : PathCtl :=
  { int := fld s F.LNE_PAIR_SKEW_INT a, frac := fld s F.LNE_PAIR_SKEW_FRAC a
    shift := [fld s F.LNE_LOOP_CTL_SG a, fld s F.LNE_LOOP_CTL_SB a, fld s F.LNE_LOOP_CTL_SA a, fld s F.LNE_LOOP_CTL_SE a,
      fld s F.LNE_LOOP_CTL_ST a]
    enable := [flag s F.LNE_LOOP_CTL_GAIN_EN a, flag s F.LNE_LOOP_CTL_BASE_EN a, flag s F.LNE_LOOP_CTL_ASYM_EN a,
      flag s F.LNE_LOOP_CTL_EQ_EN a, flag s F.LNE_LOOP_CTL_TGT_EN a]
    freeze := flag s F.LNE_LOOP_CTL_FREEZE a, main := fld s F.LNE_LOOP_CTL_MAIN_TAP a
    kpAcq := fld s F.LNE_TIM_CTL_KP_ACQ a, kiAcq := fld s F.LNE_TIM_CTL_KI_ACQ a
    kpTrk := fld s F.LNE_TIM_CTL_KP_TRK a, kiTrk := fld s F.LNE_TIM_CTL_KI_TRK a, kd := fld s F.LNE_TIM_CTL_KD a
    dropThr := fld s F.LNE_DEF_CTL_DROP_THR a, taThr := fld s F.LNE_DEF_CTL_TA_THR a
    guard := fld s F.LNE_DEF_CTL_GUARD a, coastMax := fld s F.LNE_DEF_CTL_COAST_MAX a
    llrScale := fld s F.LNE_DET_CTL_LLR_SCALE a }

/-! ### The loops -/

/-- The 2T pattern of the preamble (R76, R150): 0, 0, 1, 1 repeated. -/
def tone2T (m : Int) : Int := if m % 4 < 2 then 1 else -1

/-- The decision of bit m of a sector (R76): the known pattern in the preamble, the detector's after it. -/
def decisionAt (x : LiveSector) (preamble : Bool) (m : Int) : Int :=
  if preamble || decide (m < 0) then tone2T m else level (x.bits.getD m.toNat false)

/-- What one loop update works on (R75, R82), summed over the clock's bits: e·yt in 2^−10, e in 2^−5, e·u² of each lane in
2^−13, e·x of each tap in 2^−45, e·d of each target coefficient in 2^−5, and te, te_t in 1/512. -/
structure LoopSums where
  gain : Int
  base : Int
  asymL : Int
  asymT : Int
  taps : List Int
  target : List Int
  te : Int
  teT : Int
deriving DecidableEq, Repr

/-- A sum over a list. -/
def sumOver {α : Type} (l : List α) (f : α → Int) : Int := l.foldl (fun n x => n + f x) 0

/-- The loop sums of the bits ms of a sector: age m gives how many samples ago bit m entered the path. -/
def loopSums (p : Pair) (x : LiveSector) (int : Nat) (preamble : Bool) (age : Nat → Nat) (ms : List Nat) : LoopSums :=
  let d (m : Int) : Int := decisionAt x preamble m
  let y (m : Int) : Int := if m < 0 then 0 else x.ys.getD m.toNat 0
  let t (m : Int) : Int := if m < 0 then 0 else x.ts.getD m.toNat 0
  let yt (m : Nat) : Int := targetOut p.vals.target (d m) ((List.range 4).map (fun i => d ((m : Int) - 1 - i)))
  let e (m : Nat) : Int := 32 * y m - yt m
  let xl (m j : Nat) : Front := p.lead.getD (age m + int + j) {}
  let xt (m j : Nat) : Front := p.trail.getD (age m + j) {}
  { gain := sumOver ms (fun m => e m * yt m)
    base := sumOver ms e
    asymL := sumOver ms (fun m => e m * ((xl m 0).u * (xl m 0).u))
    asymT := sumOver ms (fun m => e m * ((xt m 0).u * (xt m 0).u))
    taps := (List.range 64).map (fun j => sumOver ms (fun m => e m * (if j < 32 then xl m j else xt m (j - 32)).x))
    target := (List.range 4).map (fun i => sumOver ms (fun m => e m * d ((m : Int) - 1 - i)))
    te := sumOver ms (fun m => y m * d ((m : Int) - 1) - y ((m : Int) - 1) * d m)
    teT := sumOver ms (fun m => t m * d ((m : Int) - 1) - t ((m : Int) - 1) * d m) }

/-- The five adaptation loops updated once (R75), each while it is enabled; in the preamble the gain and baseline loops
alone (R76). Tap cl[MAIN_TAP] never adapts. -/
def adaptLoops (c : PathCtl) (n : Nat) (preamble : Bool) (q : LoopSums) (v : LoopVals) : LoopVals :=
  let on (k : Nat) : Bool := c.enable.getD k false && (decide (k < 2) || !preamble)
  let sh (k : Nat) : Nat := c.shift.getD k 0
  let up (ch : Nat) : Bool := Config.roundUp n ch
  let free (ch : Nat) : Nat := Config.loopWord n ch
  let mainL := (signed 16 (v.taps.getD c.main 0)).sign
  let mainT := (signed 16 (v.taps.getD (32 + c.main) 0)).sign
  let gain (g ch : Nat) : Nat :=
    if on 0 then (clampInt 0 65535 (roundStep (up ch) ((g : Int) * 2 ^ (15 + sh 0) - q.gain) (2 ^ (15 + sh 0)))).toNat else g
  let base (b ch : Nat) (sg : Int) : Nat :=
    if on 1 then fitSigned 12 (free ch) (roundStep (up ch) (signed 12 b * 2 ^ (9 + sh 1) + q.base * sg) (2 ^ (9 + sh 1))) else b
  let asym (x ch : Nat) (sum sg : Int) : Nat :=
    if on 2 then fitSigned 16 (free ch) (roundStep (up ch) (signed 16 x * 2 ^ (7 + sh 2) + sum * sg) (2 ^ (7 + sh 2))) else x
  let tap (j : Nat) : Nat :=
    let t := v.taps.getD j 0
    if on 3 && decide (j ≠ c.main) then
      fitSigned 16 (free (16 + j)) (roundStep (up (16 + j)) (signed 16 t * 2 ^ (39 + sh 3) - q.taps.getD j 0) (2 ^ (39 + sh 3)))
    else t
  let coef (i : Nat) : Nat :=
    let g := v.target / 2 ^ (16 * i) % 65536
    if on 4 then
      fitSigned 16 (free (8 + i)) (roundStep (up (8 + i)) (signed 16 g * 2 ^ (8 + sh 4) + q.target.getD i 0) (2 ^ (8 + sh 4)))
    else g
  { v with
    gainL := gain v.gainL 0, gainT := gain v.gainT 1
    baseL := base v.baseL 2 mainL, baseT := base v.baseT 3 mainT
    asymL := asym v.asymL 4 q.asymL mainL, asymT := asym v.asymT 5 q.asymT mainT
    taps := (List.range 64).map tap
    target := (List.range 4).foldl (fun w i => w + coef i * 2 ^ (16 * i)) 0 }

/-- The clamp of nu (R82): ±0.016 bit per clock. -/
def clampNu (v : Int) : Int := clampInt (-16777) 16777 v

/-- The phase one clock on at the integrator's rate alone (R78). -/
def coast (v : LoopVals) : LoopVals := { v with phi := ((v.phi + v.nu) % 2 ^ 20).toNat }

/-- The timing loop updated once (R82). -/
def timeLoop (c : PathCtl) (n : Nat) (preamble : Bool) (q : LoopSums) (v : LoopVals) : LoopVals :=
  let kp := if preamble then c.kpAcq else c.kpTrk
  let ki := if preamble then c.kiAcq else c.kiTrk
  let nu := clampNu (v.nu + roundStep (Config.roundUp n 100) (q.te * 2 ^ 11) (2 ^ ki))
  { v with
    nu := nu
    phi := ((v.phi + roundStep (Config.roundUp n 101) (q.te * 2 ^ 11) (2 ^ kp) + nu) % 2 ^ 20).toNat
    delta := v.delta + roundStep (Config.roundUp n 102) (q.teT * 2 ^ 11) (2 ^ c.kd) }

/-- Lane 2a+1's sampling phase (R82): phi + FRAC/64 + delta. -/
def trailPhase (c : PathCtl) (v : LoopVals) : Nat := ((v.phi + c.frac * 2 ^ 14 + v.delta) % 2 ^ 20).toNat

/-! ### One lane clock -/

/-- The newest sector changed. -/
def modLast (l : List LiveSector) (f : LiveSector → LiveSector) : List LiveSector :=
  match l.getLast? with
  | some x => l.dropLast ++ [f x]
  | none => l

/-- A reader is flagged (R79): the mean of |x| over 16 bits below DROP_THR/64 of the nominal amplitude of 512, or the mean of
x over 64 bits outside ±TA_THR. -/
def defect (c : PathCtl) (h : List Front) : Bool :=
  (decide (16 ≤ h.length) &&
    decide (sumOver (h.take 16) (fun f => |f.x|) < (c.dropThr * 8 * 16 * 2 ^ 40 : Int))) ||
  (decide (64 ≤ h.length) && decide ((c.taThr * 64 * 2 ^ 40 : Int) < |sumOver (h.take 64) (fun f => f.x)|))

/-- How many flags stand at the end of a list in one span. -/
def spanLength (l : List Bool) : Nat := (l.reverse.takeWhile id).length

/-- Samples older than the equaliser, its delay and the detector's latency need are let go. -/
def keepHistory (h : List Front) : List Front := h.take 704

/-- The bits whose loop update a clock makes, and whether they are the preamble's (R76): those just sampled up to bit 96;
after it those sampled 384 bits before, from the preamble's end to the codeword's. -/
def updateBits (x : LiveSector) (codeEnd pos : Nat) : List Nat × Bool :=
  if pos < 96 then ((List.range 8).map (fun i => pos + i) |>.filter (fun m => decide (m < 96) && (!x.zps || decide (32 ≤ m))), true)
  else ((List.range 8).map (fun i => pos + i) |>.filter (fun m => decide (480 ≤ m ∧ m - 384 < codeEnd)) |>.map (fun m => m - 384), false)

/-- The bit after the codeword's last. -/
def codeEnd (x : LiveSector) : Nat := (128 + codeN x.code + (x.aFound.map Prod.fst).getD 0).toNat

/-- The loops of a clock (R75 to R78, R82): they hold under FREEZE, a slipped pair Spool or a flagged bit, the phase going on
at nu. -/
def loopClock (c : PathCtl) (n : Nat) (p : Pair) (x : LiveSector) (pos : Nat) : LoopVals :=
  let b := updateBits x (codeEnd x) pos
  let flagged := b.1.any (fun m => guarded x.flagL c.guard m || guarded x.flagT c.guard m)
  if b.1.isEmpty || c.freeze || x.slip || flagged then coast p.vals
  else
    let last := pos + 7
    let q := loopSums p x c.int b.2 (fun m => last - m) b.1
    timeLoop c n b.2 q (adaptLoops c n b.2 q p.vals)

/-- The detector of a sector with 256 samples of its next window (R73). -/
def detectClock (c : PathCtl) (n target : Nat) (x : LiveSector) : LiveSector :=
  if 192 * x.windows + 256 ≤ x.ys.length then
    let o := windowOut target c.llrScale n x.ys x.windows false
    { x with windows := x.windows + 1, bits := x.bits ++ o.map Prod.fst, llrs := x.llrs ++ o.map Prod.snd }
  else x

/-- The last window of a sector whose samples are complete. -/
def detectLast (c : PathCtl) (n target : Nat) (x : LiveSector) : LiveSector :=
  if x.llrs.length < x.ys.length then
    let o := windowOut target c.llrScale n x.ys x.windows true
    { x with windows := x.windows + 1, bits := x.bits ++ o.map Prod.fst, llrs := x.llrs ++ o.map Prod.snd }
  else x

/-- What a sector's clock adds to it: outputs, flags, and the end of timing trust where a flagged span passes COAST_MAX
(R81). -/
def sectorClock (c : PathCtl) (ys ts : List Int) (fl ft : Bool) (x : LiveSector) : LiveSector :=
  let y := { x with
    ys := x.ys ++ ys, ts := x.ts ++ ts
    flagL := x.flagL ++ List.replicate ys.length fl, flagT := x.flagT ++ List.replicate ys.length ft }
  let past := decide (c.coastMax < spanLength y.flagL ∨ c.coastMax < spanLength y.flagT)
  if past && y.lostAt.isNone then { y with lostAt := some x.ys.length } else y

/-- One lane clock of a live path: eight samples of lane 2a and a word out of the pair Spool pass the front ends and the
equaliser; outside a sector the outputs are only kept for the next slot's first 48 bits (R93). -/
def pathClock (c : PathCtl) (n : Nat) (ls ts : List Int) (p : Pair) : Pair :=
  let v := p.vals
  let lead := keepHistory ((ls.map (front v.gainL v.baseL v.asymL)).reverse ++ p.lead)
  let trail := keepHistory ((ts.map (front v.gainT v.baseT v.asymT)).reverse ++ p.trail)
  let p := { p with lead := lead, trail := trail }
  let sum (i : Nat) : Int := tapSum v.taps 0 (7 - i + c.int) lead
  let sumT (i : Nat) : Int := tapSum v.taps 32 (7 - i) trail
  let ys := (List.range 8).map (fun i => clampInt (-2047) 2047 (roundStep (Config.roundUp n (200 + i)) (sum i + sumT i) (2 ^ 54)))
  if p.reading then
    let us := (List.range 8).map (fun i => roundStep (Config.roundUp n (208 + i)) (sumT i) (2 ^ 54))
    let fl := defect c (lead.drop c.int)
    let ft := defect c trail
    let flagged := (match p.sectors.getLast? with
      | some x => decide (0 < spanLength x.flagL ∨ 0 < spanLength x.flagT)
      | none => false)
    let now := some (v.nu, v.phi, v.delta)
    let span := if fl || ft then (if flagged then p.spanTiming else now) else none
    let p := { p with spanTiming := span, sectors := modLast p.sectors (sectorClock c ys us fl ft) }
    match p.sectors.getLast? with
    | some x =>
      let x := detectClock c n v.target x
      let p := { p with sectors := modLast p.sectors (fun _ => x) }
      let w := loopClock c n p x (x.ys.length - 8)
      let p := { p with vals := w, phaseT := trailPhase c w }
      if x.lostAt = some (x.ys.length - 8) then { p with relock := p.spanTiming } else p
    | none => p
  else
    let w := coast v
    { p with vals := w, phaseT := trailPhase c w, preY := ((p.preY ++ ys).reverse.take 48).reverse }

/-- A clock of both lanes: lane 2a+1's samples enter the pair Spool and its oldest word leaves (R66). -/
def laneClock (c : PathCtl) (n : Nat) (lead trail : List Int) (p : Pair) : Pair :=
  let out := spoolSamples (p.spool.headD 0#64)
  pathClock c n lead out { p with spool := p.spool.drop 1 ++ [spoolWord trail] }

/-- Clocks of both lanes in turn, from value n of the model's counter on. -/
def laneClocks (c : PathCtl) : Nat → List (List Int × List Int) → Pair → Pair
  | _, [], p => p
  | n, x :: t, p => laneClocks c (n + 1) t (laneClock c n x.1 x.2 p)

/-- The two clocks of each span of samples, as lanes 2a and 2a+1 sample them (R68). -/
def spanClocks (s : State) (a : Nat) (l : List AdcSpan) : List (List Int × List Int) :=
  l.flatMap (fun x =>
    let u := laneSamples s (2 * a) x.lead
    let t := laneSamples s (2 * a + 1) x.trail
    [(u.take 8, t.take 8), (u.drop 8, t.drop 8)])

/-! ### Zero-phase start -/

/-- Sines of k × π/128 for k from 0 to 64, in 2^−30. -/
def sineTable : List Int :=
  [0, 26350943, 52686014, 78989349, 105245103, 131437462, 157550647, 183568930, 209476638, 235258165, 260897982, 286380643,
   311690799, 336813204, 361732726, 386434353, 410903207, 435124548, 459083786, 482766489, 506158392, 529245404] ++
  [552013618, 574449320, 596538995, 618269338, 639627258, 660599890, 681174602, 701339000, 721080937, 740388522, 759250125,
   777654384, 795590213, 813046808, 830013654, 846480531, 862437520, 877875009, 892783698, 907154608, 920979082] ++
  [934248793, 946955747, 959092290, 970651112, 981625251, 992008094, 1001793390, 1010975242, 1019548121, 1027506862, 1034846671,
   1041563127, 1047652185, 1053110176, 1057933813, 1062120190, 1065666786, 1068571464, 1070832474, 1072448455, 1073418433, 1073741824]

/-- The angle of a vector in the first quadrant, in 1/256 turn, rounded down: 0 to 63. -/
def angleIn (c s : Int) : Nat :=
  countBelow (fun k => decide (c * sineTable.getD (k + 1) 0 ≤ s * sineTable.getD (63 - k) 0)) 63

/-- atan2(s, c) in 1/256 turn, rounded down, for a vector other than zero. -/
def angleOf (c s : Int) : Nat :=
  if 0 < c ∧ 0 ≤ s then angleIn c s
  else if c ≤ 0 ∧ 0 < s then 64 + angleIn s (-c)
  else if c < 0 ∧ s ≤ 0 then 128 + angleIn (-c) (-s)
  else 192 + angleIn (-s) c

/-- The correlation of 32 outputs, oldest first, with a tone of four bits' period (R83). -/
def correlate (l : List Front) (tone : List Int) : Int :=
  (List.range 32).foldl (fun n m => n + (l.getD m {}).x * tone.getD (m % 4) 0) 0

/-- The gain that brings a magnitude to nominal, 16 × 512 for 32 bits of the tone: g × 8192 / √(ci² + cq²), at Q4.12, rounded
down or up; free where nothing was read (R83). -/
def zpsGain (n ch g : Nat) (ci cq : Int) : Nat :=
  let m := (ci * ci + cq * cq).toNat
  if m = 0 then Config.loopWord n ch % 65536
  else
    let q := isqrt (g * g * 2 ^ 106 / m)
    min 65535 (if q * q * m = g * g * 2 ^ 106 then q else q + b2n (Config.roundUp n ch))

/-- The baseline from the mean of the 32 samples, in 1/16 LSB (R83). -/
def zpsBase (n ch : Nat) (l : List Front) : Nat := narrow 12 (roundStep (Config.roundUp n ch) (sumOver l (fun f => f.s)) 2)

/-- Zero-phase start over a preamble's first 32 bits (R83): the phase moves by 4 × atan2(cq, ci) / 2π bit, reduced to (−0.5,
+0.5], and each lane's baseline and gain are set. -/
def zeroPhase (c : PathCtl) (n : Nat) (p : Pair) : LoopVals :=
  let l := ((p.lead.drop c.int).take 32).reverse
  let t := (p.trail.take 32).reverse
  let c4 : List Int := [1, 0, -1, 0]
  let s4 : List Int := [0, 1, 0, -1]
  let ci := correlate l c4
  let cq := correlate l s4
  let turn := if ci = 0 ∧ cq = 0 then Config.loopWord n 300 % 64 else (angleOf ci cq + b2n (Config.roundUp n 301)) % 64
  let step : Int := if 32 < turn then (turn : Int) - 64 else turn
  { p.vals with
    phi := ((p.vals.phi + step * 2 ^ 14) % 2 ^ 20).toNat
    gainL := zpsGain n 302 p.vals.gainL ci cq, gainT := zpsGain n 303 p.vals.gainT (correlate t c4) (correlate t s4)
    baseL := zpsBase n 304 l, baseT := zpsBase n 305 t }

/-! ### Retained samples and replays -/

/-- A list written over another from its start, what lies beyond staying. -/
def overlay {α : Type} (new old : List α) : List α := new ++ old.drop new.length

/-- The slot's sample at a bit position counted from the preamble's first bit (R93). -/
def slotSample (x : RetSlot) (m : Int) : Int :=
  if m < 0 then x.pre.getD (x.pre.length + m).toNat 0 else x.ys.getD m.toNat 0

/-- A flag of a slot at a bit position. -/
def slotFlag (l : List Bool) (m : Int) : Bool := if m < 0 then false else l.getD m.toNat false

/-- The LLRs of a replay (R95): the codeword's n bits from a start, detected over the slot's samples with a target and a
scale, its flags applied. -/
def replayLlrs (x : RetSlot) (start : Int) (n target scale def_ free : Nat) : List (Int × Bool × Bool) :=
  let ys := (List.range n).map (fun i => slotSample x (start + i))
  (detectAll target scale free ys (n / 192 + 1) 0).mapIdx (fun i o =>
    sendLlr def_ (slotFlag x.flagL (start + i)) (slotFlag x.flagT (start + i)) false o.2)

end Sys2Proof.Machine
end

