-- ==== Sys2Proof/Machine/Lane.lean ====
section
/-!
DEFINITION. The read lanes: decoder queue entries and run contexts as the lanes use them (R115, R116), runs and the live
path (R88 to R92), sync marks (R85 to R87), retention and replay (R93 to R97), and the LNE events.
-/

namespace Sys2Proof.Machine

/-! ### Queue entries and run contexts -/

/-- An entry of actuator a's decoder queue. -/
def entryOf (s : State) (a e : Nat) : Entry := tget (dflt {}) (dcpOf s a).entries e

/-- An entry replaced. -/
def setEntry (s : State) (a e : Nat) (x : Entry) : State :=
  let d := dcpOf s a
  setDcp s a { d with entries := tset (dflt {}) d.entries e x }

/-- The lowest free entry of a queue of 16 (R115). -/
def freeEntry (s : State) (a : Nat) : Option Nat := firstFree (fun e => decide ((entryOf s a e).st ≠ .free)) 16

/-- A run context. -/
def ctxOf (s : State) (a k : Nat) : RunCtx := tget (dflt {}) (dcpOf s a).ctxs k

/-- A run context replaced. -/
def setCtx (s : State) (a k : Nat) (x : RunCtx) : State :=
  let d := dcpOf s a
  setDcp s a { d with ctxs := tset (dflt {}) d.ctxs k x }

/-- A context is released once its run has ended, every sector delivered has its record and no job names it (R116). -/
def releaseCtx (s : State) (a k : Nat) : State :=
  let c := ctxOf s a k
  if c.used && c.ended && decide (c.delivered ≤ c.posted) && (dcpOf s a).jobs.all (fun j => decide (j.ctx ≠ k)) then
    setCtx s a k {}
  else s

/-! ### The run and the live path -/

/-- Both lanes of a pair are enabled. -/
def lanesOn (s : State) (a : Nat) : Bool := flag s F.LNE_AFE_CTL_EN (2 * a) && flag s F.LNE_AFE_CTL_EN (2 * a + 1)

/-- The refusal of an RDRUN on a present pair, in the order of Table 3.2; 0 when it arms (R88). -/
def rdrunStatus (s : State) (a : Nat) : Nat :=
  if !lanesOn s a then 0x17
  else if !flag s F.LNE_RATE_STAT_LOCKED a then 0x13
  else if (hdlOf s a).wg then 0x15
  else if switchPending s a then 0x16
  else if inRun s a || calHolds s a then 0x18
  else 0

/-- The replay engine is stopped: safe state or power loss (R92). -/
def replayStopped (s : State) : Bool := safeState s || powerLost s

/-- The number of enabled lanes (R99). -/
def activeLanes (s : State) : Nat := countBelow (fun n => flag s F.LNE_AFE_CTL_EN n) s.part.lanes

/-- Redundancy mode: five or more lanes active (R99). -/
def redundancy (s : State) : Bool := decide (5 ≤ activeLanes s)

/-- A pair's run completes (R88): its status is recorded, the media operation and the run context are told, and a rate
written during the run takes effect (R65), as do the pair's pending calibration results (R98) and the ADC mode (R99). -/
def lneEnd (s : State) (a status : Nat) : State :=
  let p := pairOf s a
  match p.run with
  | none => s
  | some r =>
    let done := fld s F.LNE_RUN_STAT_SECTORS a
    let waiting := (p.sectors.filter (fun x => decide (x.run = p.runs))).length
    let t := setPair s a { p with
      run := none, gate := false, reading := false, ratePending := false, redundant := redundancy s
      live := if p.live = .off then .off else .idle
      rate := if p.ratePending then fld s F.LNE_RATE_RATE a else p.rate }
    let t := when p.ratePending (fun u => setFlag u F.LNE_RATE_STAT_LOCKED a false) t
    let t := setFld t F.LNE_RUN_STAT_RUN_STATUS a status
    let t := setCtx t a r.ctx { ctxOf t a r.ctx with ended := true, delivered := done + waiting }
    pspArb (calBoundary (mediaDone (releaseCtx t a r.ctx) r.owner status done false) (laneItem a)) a

/-- The run ends at once (R88, Table 3.3): the gate closes, the sector being read sends no packet and its entry is
freed; the sectors before it keep theirs. -/
def lneAbort (s : State) (a status : Nat) : State :=
  let p := pairOf s a
  match p.run with
  | none => s
  | some _ =>
    let t := if p.reading then
      match p.sectors.getLast? with
      | some x =>
        let u := setPair s a { p with sectors := p.sectors.dropLast }
        (match x.entry with | some e => setEntry u a e {} | none => u)
      | none => s
    else s
    lneEnd t a status

/-- A run that ends at a sector boundary: it completes once every sector read has passed its mark B (R88). -/
def lneBoundary (s : State) (a status : Nat) : State :=
  let p := pairOf s a
  match p.run with
  | none => s
  | some r =>
    if p.sectors.isEmpty then lneEnd s a status
    else setPair s a { p with live := .idle, run := some { r with ending := some status } }

/-- PFLT_N_a asserted during a run (R92): a sector being read completes and the run ends after it; while the pair is ARMED
the run ends at once, the sectors before keeping their packets; once its last sector is read, the run ends at its decision. -/
def lnePreampFault (s : State) (a : Nat) : State :=
  let p := pairOf s a
  match p.run with
  | none => s
  | some r =>
    if p.live = .armed then lneEnd s a 0x14
    else setPair s a { p with run := some { r with ending := some (r.ending.getD 0x14) } }

/-- The safe state or the power-loss broadcast (R92): runs end RUN_ABORTED, and the replay engine stops with its queue
discarded. -/
def lneStop (s : State) (a : Nat) : State :=
  let t := lneAbort s a 0x11
  let p := pairOf t a
  let t := each p.replays (fun q u => match q.entry with | some e => setEntry u a e {} | none => u) t
  setPair t a { pairOf t a with replays := [], gate := false }

/-- A Shuttle abort of a read run (R287). -/
def lneStopOp (s : State) (o : OpRef) (a : Nat) : State :=
  match (pairOf s a).run with
  | some r => if r.owner = o then lneAbort s a 0x11 else s
  | none => s

/-- The lane enables or the lock changed (R89): both enabled and locked leaves OFF, either disabled enters it and
aborts the run. -/
def lneEnable (s : State) (a : Nat) : State :=
  if lanesOn s a then
    if flag s F.LNE_RATE_STAT_LOCKED a then
      (match (pairOf s a).live with
        | .off => setPair s a { pairOf s a with live := .idle }
        | _ => s)
    else s
  else
    let t := lneAbort s a 0x11
    setPair t a { pairOf t a with live := .off }

/-- The frequency seed of R84 in 2^−20 bit per lane clock, clamped to ±2,000 ppm (R82). -/
def freqSeed (s : State) (a : Nat) : Int :=
  let fbit := (pairOf s a).rate * 100000
  let fa := fld s F.SVG_TONE_F_A a
  clampInt (-16777) 16777 (divRound (8 * 2 ^ 20 * ((48 * fa : Int) - fbit)) fbit)

/-- The phase seed of R84 in 2^−20 bit: frac(48 θ + offset). -/
def phaseSeed (s : State) (a theta : Nat) : Nat :=
  ((768 * (theta : Int) + 2 ^ 14 * signed 8 (fld s F.LNE_SV_OFFSET_OFS a)) % 2 ^ 20).toNat

/-- The start values a run loads (R77). -/
def startVals (s : State) (a : Nat) : LoopVals :=
  { gainL := fld s F.LNE_GAIN_GAIN (2 * a), baseL := fld s F.LNE_BASE_BASE (2 * a), asymL := fld s F.LNE_ASYM_ASYM (2 * a)
    gainT := fld s F.LNE_GAIN_GAIN (2 * a + 1), baseT := fld s F.LNE_BASE_BASE (2 * a + 1)
    asymT := fld s F.LNE_ASYM_ASYM (2 * a + 1)
    taps := (List.range 64).map (fun j => fld s F.LNE_EQ_TAP (64 * a + j))
    target := (rd s .LNE_TARGET a).toNat
    nu := if flag s F.LNE_TIM_CTL_SEED_FREQ a then freqSeed s a else 0
    phi := 0, delta := 0 }

/-- An RDRUN handed to LNE (R88): refused with its status, or armed under the run context with its first sector's position.
Sectors of the run before that still await mark B keep their packets. -/
def laneRequest (s : State) (o : OpRef) (a ctx code count head track first : Nat) : State :=
  let st := rdrunStatus s a
  if st ≠ 0 then
    let t := setCtx s a ctx {}
    mediaDone (setFld t F.LNE_RUN_STAT_RUN_STATUS a st) o st 0 false
  else
    let t := setFld s F.LNE_RUN_STAT_SECTORS a 0
    let p := pairOf t a
    setPair t a { p with
      live := .armed, vals := startVals s a, reading := false, runs := p.runs + 1
      run := some {
        owner := o, code := code, count := count, ctx := ctx, seedPhase := flag s F.LNE_TIM_CTL_SEED_PHASE a
        head := head, track := track, first := first
        slot0 := match zoneOf s.zones track with | some z => slotOf s.zones z track first | none => first } }

/-! ### Retention -/

/-- A retention slot. -/
def slotAt (p : Pair) (k : Nat) : RetSlot := tget (dflt {}) p.slots k

/-- A retention slot replaced. -/
def setSlot (p : Pair) (k : Nat) (x : RetSlot) : Pair := { p with slots := tset (dflt {}) p.slots k x }

/-- The slot is that of the sector being read. -/
def slotReading (p : Pair) (k : Nat) : Bool :=
  p.reading && (match p.sectors.getLast? with | some x => decide (x.slot = k) | none => false)

/-- A slot is held: with a replay queued or running, or pinned, a pin on the sector being read once that sector ends (R94). -/
def slotHeld (p : Pair) (k : Nat) : Bool :=
  (((slotAt p k).pinFw || (slotAt p k).pinPool) && !slotReading p k) || p.replays.any (fun q => decide (q.slot = k))

/-- The oldest of four slots that is not held (R93). -/
def claimable (p : Pair) : Option Nat :=
  (List.range 4).foldl (fun b k =>
    if slotHeld p k then b
    else match b with
      | none => some k
      | some m => if (slotAt p k).stamp < (slotAt p m).stamp then some k else some m) none

/-- How many slots are pinned. -/
def pinCount (p : Pair) : Nat := countBelow (fun k => (slotAt p k).pinFw || (slotAt p k).pinPool) 4

/-- A pin requested by firmware or by the pool (R94): OK, RETAIN_LOST or PIN_LIMIT. -/
def pinSlot (p : Pair) (k seq : Nat) (pool : Bool) : Nat × Pair :=
  let x := slotAt p k
  if !x.valid ∨ x.seq ≠ seq then (0x21, p)
  else if !(x.pinFw || x.pinPool) ∧ 2 ≤ pinCount p then (0x22, p)
  else (0, setSlot p k (if pool then { x with pinPool := true } else { x with pinFw := true }))

/-- The pool's pin released, while the slot still holds the sector it pinned (R126). -/
def poolUnpinSlot (p : Pair) (k seq : Nat) : Pair :=
  let x := slotAt p k
  if x.seq = seq then setSlot p k { x with pinPool := false } else p

/-- Firmware's UNPIN releases the named slot's pin (R107), the pool's too (R126). SEQ is not compared: R94 refuses pins. -/
def unpinSlot (p : Pair) (k : Nat) : Pair := setSlot p k { slotAt p k with pinFw := false, pinPool := false }

/-- LNE_RETAIN_a's fields recorded with a status (R107). -/
def retainRecord (s : State) (a slot seq status : Nat) : State :=
  setFlds s a [(F.LNE_RETAIN_SLOT, slot), (F.LNE_RETAIN_SEQ, seq), (F.LNE_RETAIN_STATUS, status)]

/-- LNE_RETAIN_a written with PIN. -/
def execRetainPin (a slot seq : Nat) (s : State) : Result :=
  .next (if a < s.part.acts ∧ slot < 4 then
    let r := pinSlot (pairOf s a) slot seq false
    retainRecord (setPair s a r.2) a slot seq r.1
  else s)

/-- LNE_RETAIN_a written with UNPIN. -/
def execRetainUnpin (a slot seq : Nat) (s : State) : Result :=
  .next (if a < s.part.acts ∧ slot < 4 then
    retainRecord (setPair s a (unpinSlot (pairOf s a) slot)) a slot seq 0
  else s)

/-! ### Rate and lock -/

/-- A write of LNE_RATE_a (R65): out of range it sets RANGE_ERR; in a run it waits for the run's end. -/
def execLaneRateWrite (a rate : Nat) (s : State) : Result :=
  .next (if a < s.part.acts then
    if 10000 ≤ rate ∧ rate ≤ 60000 then
      let t := setFld s F.LNE_RATE_RATE a rate
      let p := pairOf t a
      if p.run.isSome then setPair t a { p with ratePending := true }
      else setFlag (setPair t a { p with rate := rate }) F.LNE_RATE_STAT_LOCKED a false
    else setFlag s F.LNE_RATE_STAT_RANGE_ERR a true
  else s)

/-- The synthesisers of a pair lock (R65). -/
def execRateLocked (a : Nat) (s : State) : Result :=
  .next (if a < s.part.acts then lneEnable (setFlag s F.LNE_RATE_STAT_LOCKED a true) a else s)

/-! ### One sector on the live path -/

/-- The pair's reads may open a gate: the actuator is not in WRITE heat mode, and PREHEAT has passed since the read-mode frame
that ended it (R154). -/
def readHeatReady (s : State) (a : Nat) (preheated : Bool) : Bool :=
  decide ((wrpOf s a).heat ≠ .write) && ((wrpOf s a).readReady || preheated)

/-- A pair's samples so far put into the slot of the sector being read (R93). -/
def retainSamples (c : PathCtl) (p : Pair) : Pair :=
  match p.reading, p.sectors.getLast? with
  | true, some x =>
    let y := slotAt p x.slot
    if y.seq = x.seq then
      setSlot p x.slot { y with
        ys := overlay x.ys y.ys
        flagL := overlay (guardAll x.flagL c.guard x.flagL.length) y.flagL
        flagT := overlay (guardAll x.flagT c.guard x.flagT.length) y.flagT }
    else p
  | _, _ => p

/-- The pair with more samples through its lanes. -/
def sampled (s : State) (a : Nat) (spans : List AdcSpan) : Pair :=
  let c := pathCtl s a
  retainSamples c (laneClocks c s.free (spanClocks s a spans) (pairOf s a))

/-- The lanes of a pair take samples; the model's counter moves on by a step for each clock. -/
def takeSamples (s : State) (a : Nat) (spans : List AdcSpan) : State :=
  setPair { s with free := s.free + 2 * spans.length } a (sampled s a spans)

/-- The sector to read takes a slot and, if one is free, a queue entry; the gate opens (R89, R90, R91, R93). -/
def openSector (s : State) (a k : Nat) (r : LaneRun) (phase : Option Nat) (zps : Bool) : State :=
  let e := freeEntry s a
  let s := match e with
    | some e => setEntry s a e { st := .reserved, ctx := r.ctx, sector := r.next, live := true }
    | none => s
  let p := pairOf s a
  let v := match p.relock with
    | some h => { p.vals with nu := h.1, phi := h.2.1, delta := h.2.2 }
    | none => p.vals
  let v := match phase with
    | some f => { v with phi := f }
    | none => v
  let old := slotAt p k
  let p := setSlot p k { old with
    valid := true, seq := p.nextSeq, stamp := p.stamps + 1, code := r.code, ctx := r.ctx, sector := r.next
    markA := none, markB := none, target := v.target, scale := fld s F.LNE_DET_CTL_LLR_SCALE a
    pre := overlay p.preY old.pre, pinFw := false, pinPool := false }
  setPair s a { p with
    live := .acquire, gate := true, reading := true, vals := v, relock := none, spanTiming := none
    nextSeq := (p.nextSeq + 1) % 65536, stamps := p.stamps + 1
    run := some { r with next := r.next + 1 }
    sectors := p.sectors ++ [{
      index := r.next, ctx := r.ctx, code := r.code, slot := k, seq := p.nextSeq, entry := e, run := p.runs, zps := zps
      last := decide (r.count ≤ r.next + 1) }] }

/-- The preamble of the next sector to read starts (R89, R90, R91, R93): the oldest slot not held is claimed, a queue
entry is reserved if one is free, the gate opens, and the phase seed or zero-phase start over its first 32 bits applies
(R83, R84). With no slot the run ends RETAIN_FULL. -/
def execSectorPreambleStart (a theta : Nat) (spans : GateSpans) (preheated : Bool) (s : State) : Result :=
  .next (match (pairOf s a).live, (pairOf s a).run with
    | .armed, some r =>
      if !readHeatReady s a preheated then s
      else
        match claimable (pairOf s a) with
        | none => lneBoundary s a 0x10
        | some k =>
          let s := setWrp s a { wrpOf s a with readReady := true }
          let s := takeSamples s a spans.before
          let zps := !r.seedPhase && flag s F.LNE_TIM_CTL_ZPS_EN a
          let t := takeSamples (openSector s a k r (if r.seedPhase then some (phaseSeed s a theta) else none) zps) a
            spans.preamble
          if zps then
            setPair { t with free := t.free + 1 } a { pairOf t a with vals := zeroPhase (pathCtl t a) t.free (pairOf t a) }
          else t
    | _, _ => s)

/-- Bit 96 of the preamble (Table 3.3): tracking gains. -/
def execAcquireEnd (a : Nat) (spans : List AdcSpan) (s : State) : Result :=
  .next (match (pairOf s a).live with
    | .acquire =>
      let t := takeSamples s a spans
      setPair t a { pairOf t a with live := .syncA }
    | _ => s)

/-- The sync detector over the decisions of a window (R85): of the 2 WIN + 1 candidates the earliest of least Hamming
distance, if that is at most THR; its offset and distance. -/
def syncSearch (mark : Word) (win thr : Nat) (bits : List Bool) : Option (Int × Nat) :=
  let dist (k : Nat) : Nat :=
    countBelow (fun i => (bits.drop k).getD i false != bit mark i) 32
  let best := (List.range (2 * win + 1)).foldl (fun (b : Option (Nat × Nat)) k =>
    match b with
    | none => some (k, dist k)
    | some m => if dist k < m.2 then some (k, dist k) else some m) none
  match best with
  | some m => if m.2 ≤ thr then some ((m.1 : Int) - win, m.2) else none
  | none => none

/-- Sync mark A of a pair, and mark B. -/
def markA (s : State) (a : Nat) : Word := (rd s .LNE_SYNC_PAT a) &&& 0xFFFFFFFF#64
/-- Sync mark B of a pair. -/
def markB (s : State) (a : Nat) : Word := (rd s .LNE_SYNC_PAT a) >>> 32

/-- The search for a mark expected at bit m of a sector (R85). -/
def findMark (s : State) (a : Nat) (mark : Word) (m : Nat) (bits : List Bool) : Option (Int × Nat) :=
  let win := fld s F.LNE_SYNC_CTL_WIN a
  syncSearch mark win (fld s F.LNE_SYNC_CTL_THR a) (bits.drop (m - win))

/-- The mark A window is decided (R86, R87): the path streams, or enters B_SEARCH. It is decided once its last candidate's
last bit has left the detector (R85). -/
def execMarkADecision (a : Nat) (preamble window : List AdcSpan) (s : State) : Result :=
  .next (match (pairOf s a).live with
    | .syncA =>
      let t := takeSamples s a (preamble ++ window)
      let p := pairOf t a
      (match p.sectors.getLast? with
        | some x =>
          if 128 + fld t F.LNE_SYNC_CTL_WIN a ≤ x.bits.length then
            let r := findMark t a (markA t a) 96 x.bits
            let q := setSlot p x.slot (let y := slotAt p x.slot; if y.seq = x.seq then { y with markA := r } else y)
            setPair t a { q with
              live := if r.isSome then .stream else .bSearch
              sectors := modLast p.sectors (fun y => { y with aFound := r, aDone := true }) }
          else t
        | none => t)
    | _ => s)

/-- Words of lane 2a+1 written into the pair Spool while lane 2a takes none, to its depth of 13 (R66). -/
def fillSpool (p : Pair) (ws : List Word) : Pair := { p with spool := (p.spool ++ ws).take 13 }

/-- Words taken from the pair Spool with lane 2a's samples while lane 2a+1 writes none (R66). -/
def drainSpool (c : PathCtl) : Nat → List (List Int) → Pair → Pair
  | _, [], p => p
  | n, l :: t, p =>
    match p.spool with
    | [] => p
    | w :: ws => drainSpool c (n + 1) t (pathClock c n l (spoolSamples w) { p with spool := ws })

/-- One lane of a pair ahead of the other by what spans hold. -/
def spoolDrift (s : State) (a : Nat) (full : Bool) (spans : List AdcSpan) : Pair :=
  let p := pairOf s a
  let l := spanClocks s a spans
  let c := pathCtl s a
  if full then fillSpool p (l.map (fun x => spoolWord x.2))
  else retainSamples c (drainSpool c s.free (l.map Prod.fst) p)

/-- The pair Spool's fill reaches 0 or 13 (R66, R78): the sector takes PAIR_SLIP, FK_LANE_PAIR_SLIP is raised and the
Spool is recentred in the next gap. -/
def execPairSlip (p : PairSpans) (full : Bool) (s : State) : Result :=
  let a := p.act
  .next (if (pairOf s a).reading then
    let t := { s with free := s.free + 2 * p.spans.length }
    let p := spoolDrift s a full p.spans
    if p.spool.length = (if full then 13 else 0) then
      sendFault (setPair t a { p with recentre := true, sectors := modLast p.sectors (fun y => { y with slip := true }) })
        .lne (392 + a) FK.lanePairSlip 4 0
    else setPair t a p
  else s)

/-- The samples up to a flagged span's passing COAST_MAX (R81): the sector is LOST_LOCK from there (`sectorClock`), and
acquisition restarts at the next preamble from the timing held at the span's start (`pathClock`, `openSector`). -/
def execFlaggedSpanOverrun (p : PairSpans) (s : State) : Result :=
  .next (if (pairOf s p.act).reading then takeSamples s p.act p.spans else s)

/-! ### Replays and packets -/

/-- How many requests of the replay queue the live path, or DCP and firmware together, have (R95). -/
def liveReplays (p : Pair) : Nat := (p.replays.filter (fun q => q.who == .live)).length

/-- The codeword's start of a replay, in bits from the preamble, if its mark was accepted (R95). -/
def replayStart (x : RetSlot) (useB : Bool) (off : Int) : Option Int :=
  if useB then x.markB.map (fun b => 128 + b.1 + off) else x.markA.map (fun m => 128 + m.1 + off)

/-- The refusal of a replay request, 0 when accepted (R95, R96, Table 3.5). -/
def replayStatus (p : Pair) (k seq : Nat) (useB : Bool) (off : Int) : Nat :=
  let x := slotAt p k
  if !x.valid ∨ x.seq ≠ seq then 0x21
  else if slotReading p k then 0x27
  else if 4 ≤ p.replays.length - liveReplays p then 0x23
  else
    match replayStart x useB off with
    | none => 0x25
    | some c => if -48 ≤ c ∧ c ≤ 224 then 0 else 0x26

/-- LNE_REPLAY_a written (R108): its fields are stored, and with GO the request is queued or refused; the stopped engine takes
none (R92). -/
def execReplayRequest (a : Nat) (value : Word) (s : State) : Result :=
  .next (if a < s.part.acts then
    let k := getBits value 0 2
    let seq := getBits value 2 16
    let off := signed 7 (getBits value 18 7)
    let useB := bit value 25
    let t := setFlds s a [(F.LNE_REPLAY_SLOT, k), (F.LNE_REPLAY_SEQ, seq), (F.LNE_REPLAY_OFFSET, getBits value 18 7),
      (F.LNE_REPLAY_USE_B, b2n useB), (F.LNE_REPLAY_OVERRIDE, getBits value 26 1)]
    if bit value 27 && !replayStopped t then
      let p := pairOf t a
      let st := replayStatus p k seq useB off
      let t := setFld t F.LNE_REPLAY_STATUS a st
      if st = 0 then
        let x := slotAt p k
        setPair t a { p with replays := p.replays ++ [{
          who := .firmware, slot := k, seq := seq, offset := off, useB := useB, override := bit value 26
          ctx := x.ctx, sector := x.sector, code := x.code }] }
      else t
    else t
  else s)

/-- A packet put into the Spool to the decoder queue. -/
def sendPacket (s : State) (a : Nat) (k : Packet) : State :=
  let p := pairOf s a
  setPair s a { p with packets := p.packets ++ [k] }

/-- The head of the replay queue starts (R95): the replay of a B_ONLY sector fills the entry its live read reserved;
any other reserves one, and waits while none is free. -/
def execReplayStart (a : Nat) (s : State) : Result :=
  let p := pairOf s a
  .next (match p.replays with
    | q :: rest =>
      if q.running || replayStopped s then s
      else
        match q.entry, freeEntry s a with
        | some _, _ => setPair s a { p with replays := { q with running := true } :: rest }
        | none, some e =>
          let t := setPair s a { p with replays := { q with running := true, entry := some e } :: rest }
          setEntry t a e { st := .reserved, ctx := q.ctx, sector := q.sector, live := q.who == .live }
        | none, none => s
    | [] => s)

/-- The job a replay serves. -/
def ReplayWho.job : ReplayWho → Option Nat
  | .pool id => some id
  | _ => none

/-- The trailer a replay is built on: the live sector's for a live-path request, else one of the slot's marks (R638). -/
def replayTrailer (q : Replay) (x : RetSlot) : Trailer :=
  if q.who == .live then q.base else
    { aFound := x.markA.isSome, bFound := x.markB.isSome, aOff := (x.markA.map Prod.fst).getD 0
      bOff := (x.markB.map Prod.fst).getD 0, aDist := (x.markA.map Prod.snd).getD 7, bDist := (x.markB.map Prod.snd).getD 7 }

/-- The LLRs a replay sends (R95, R108): under the slot's recorded target and scale, or with OVERRIDE the registers'. -/
def replayOut (s : State) (a : Nat) (q : Replay) (x : RetSlot) : List (Int × Bool × Bool) :=
  replayLlrs x ((replayStart x q.useB q.offset).getD 128) (codeN q.code)
    (if q.override then (rd s .LNE_TARGET a).toNat else x.target)
    (if q.override then fld s F.LNE_DET_CTL_LLR_SCALE a else x.scale) (fld s F.LNE_DEF_CTL_SCALE a) s.free

/-- A replay ends (R96, R97): its packet goes out with REPLAY = 1. On an uncorrectable error the request completes
RETAIN_ECC: a live-path request sends a trailer alone, any other frees the entry it held. With it the pool's job whose replay
failed. -/
def replayDone (s : State) (a : Nat) (ecc : Bool) : State × Option Nat :=
  let p := pairOf s a
  match p.replays with
  | q :: rest =>
    if q.running then
      let t := setPair s a { p with replays := rest }
      let e := q.entry.getD 16
      let x := slotAt p q.slot
      let base : Trailer := { replayTrailer q x with slot := q.slot, seq := q.seq, replay := true, deferred := q.deferred }
      if ecc then
        let f := freshWord t
        let t := sramUe f.2 .lne (65536 * q.slot) f.1.toNat
        let drop := if e < 16 then setEntry t a e {} else t
        match q.who with
        | .live => (sendPacket t a {
            entry := e, ctx := q.ctx, sector := q.sector, code := q.code, trailer := { base with status := 5 }, only := true }, none)
        | .firmware => (setFld drop F.LNE_REPLAY_STATUS a 0x24, none)
        | .pool id => (drop, some id)
      else
        let o := packed (replayOut t a q x)
        let t := { t with free := t.free + 1 }
        let t := sendPacket t a {
          entry := e, ctx := q.ctx, sector := q.sector, code := q.code, job := q.who.job, live := q.who == .live, words := o.1
          trailer := { base with erased := min o.2.1 65535, scaled := o.2.2 } }
        (if q.who == .firmware then setFld t F.LNE_REPLAY_STATUS a 0 else t, none)
    else (s, none)
  | [] => (s, none)

/-- A sector's status (R638): of those that apply, the first of SYNC_LOST, PAIR_SLIP, LOST_LOCK, B_ONLY and OK. -/
def sectorStatus (x : LiveSector) (b : Option (Int × Nat)) : Nat :=
  if x.aFound.isNone && b.isNone then 2 else if x.slip then 4 else if x.lostAt.isSome then 3
  else if x.aFound.isSome then 0 else 1

/-- A sector's trailer from its marks (Table 3.1). -/
def sectorTrailer (x : LiveSector) (b : Option (Int × Nat)) : Trailer :=
  { status := sectorStatus x b, aFound := x.aFound.isSome, bFound := b.isSome
    aDist := (x.aFound.map Prod.snd).getD 7, bDist := (b.map Prod.snd).getD 7
    aOff := (x.aFound.map Prod.fst).getD 0, bOff := (b.map Prod.fst).getD 0
    slot := x.slot, seq := x.seq, deferred := x.entry.isNone }

/-- The LLRs of a live packet (R74, R80, R86): the codeword's, from bit 128 + A_OFF. -/
def liveOut (s : State) (a : Nat) (x : LiveSector) : List (Int × Bool × Bool) :=
  let n := x.llrs.length
  let g := fld s F.LNE_DEF_CTL_GUARD a
  packetLlrs (fld s F.LNE_DEF_CTL_SCALE a) (128 + (x.aFound.map Prod.fst).getD 0).toNat (codeN x.code) x.lostAt x.llrs
    (guardAll x.flagL g n) (guardAll x.flagT g n)

/-- The counter of a sector's status (LNE_CNT_a). -/
def countSector (s : State) (a status : Nat) : State :=
  match status with
  | 1 => bump s F.LNE_CNT_B_ONLY a
  | 2 => bump s F.LNE_CNT_SYNC_LOST a
  | 3 => bump s F.LNE_CNT_LOST_LOCK a
  | 4 => bump s F.LNE_CNT_PAIR_SLIP a
  | _ => s

/-- A sector is delivered (R86, R87, R91): a trailer alone where no mark was accepted, its packet where mark A was and an
entry is reserved, else a replay queued, unless the engine is stopped (R92). -/
def deliverSector (s : State) (a : Nat) (x : LiveSector) (b : Option (Int × Nat)) : State :=
  let tr := sectorTrailer x b
  let pk : Packet := { entry := x.entry.getD 16, ctx := x.ctx, sector := x.index, code := x.code, trailer := tr }
  if tr.status = 2 then sendPacket s a { pk with only := true }
  else if x.aFound.isSome ∧ x.entry.isSome then
    let o := packed (liveOut s a x)
    sendPacket s a { pk with words := o.1, trailer := { tr with erased := min o.2.1 65535, scaled := o.2.2 } }
  else if replayStopped s then (match x.entry with | some e => setEntry s a e {} | none => s)
  else
    let p := pairOf s a
    setPair s a { p with replays := p.replays ++ [{
      who := .live, slot := x.slot, seq := x.seq, useB := x.aFound.isNone, entry := x.entry, bOnly := x.aFound.isNone
      deferred := x.entry.isNone, ctx := x.ctx, sector := x.index, code := x.code, base := tr }] }

/-- The mark B window of the oldest sector read is decided (R86, R87, R88, R638): its packet or a trailer alone goes
out, or its replay is queued; the run completes after its last sector. -/
def markBDecision (s : State) (a : Nat) : State :=
  let p := pairOf s a
  match p.sectors with
  | x :: rest =>
    if !x.aDone ∨ (p.reading = true ∧ rest = []) then s
    else
      let search := if x.aFound.isSome then flag s F.LNE_SYNC_CTL_B_CHECK a else flag s F.LNE_SYNC_CTL_B_FALLBACK a
      let b := if search then findMark s a (markB s a) (128 + codeN x.code) x.bits else none
      let q := setSlot p x.slot (let y := slotAt p x.slot
        if y.seq = x.seq then { y with markB := b } else y)
      let t := countSector (setPair s a { q with sectors := rest }) a (sectorStatus x b)
      let t := when (decide (x.run = p.runs)) (fun u => bump u F.LNE_RUN_STAT_SECTORS a) t
      let t := deliverSector (lifePart t 3 1000000 4096) a x b
      let u := pairOf t a
      match u.run with
      | some r =>
        if rest.isEmpty ∧ u.live = .idle then lneEnd t a (r.ending.getD 0) else t
      | none => t
  | [] => s

/-- The mark B window is decided; a next sector being read takes its samples up to then. -/
def execMarkBDecision (a : Nat) (preamble window codeword trailer : List AdcSpan) (s : State) : Result :=
  .next (if (pairOf s a).reading then markBDecision (takeSamples s a (preamble ++ window ++ codeword ++ trailer)) a
    else markBDecision s a)

/-- The pair Spool recentred (R66): six words; those it did not hold are what its memory last had, which is left open. -/
def recentred (n : Nat) (l : List Word) : List Word :=
  let k := 6 - l.length
  (List.range k).map (fun i => Config.freeWord (n + i) &&& 0xFFFFFFFFFFFFFF#64) ++ l.drop (l.length - 6)

/-- The last window of the sector read, its samples complete, and the 48 outputs before the next preamble (R73, R93). -/
def closeSector (s : State) (a : Nat) (p : Pair) : Pair :=
  match p.sectors.getLast? with
  | some x => { p with
      preY := (x.ys.reverse.take 48).reverse
      sectors := modLast p.sectors (detectLast (pathCtl s a) s.free p.vals.target) }
  | none => p

/-- The splice gap ends (Table 3.3): the gate closes; with sectors left the path is ARMED, else IDLE. A run that PFLT_N
is ending goes no further (R92). The pair Spool recentres (R66) and a change of ADC mode takes effect (R99). -/
def spliceGapEnd (s : State) (a : Nat) : State :=
  let p := closeSector s a (pairOf s a)
  match p.run with
  | some r =>
    if p.live = .stream ∨ p.live = .bSearch then
      let more := decide (r.next < r.count) && r.ending.isNone
      let q := { p with
        gate := false, reading := false, live := if more then .armed else .idle, redundant := redundancy s
        spool := if p.recentre then recentred (s.free + 1) p.spool else p.spool, recentre := false }
      let t := pspArb (setPair { s with free := s.free + 7 } a q) a
      if !more ∧ (pairOf t a).sectors = [] then lneEnd t a (r.ending.getD 0) else t
    else s
  | none => s

/-- The splice gap ends, with what takes effect at a sector gap (R98). -/
def execSpliceGapEnd (p : PairSpans) (s : State) : Result :=
  let x := pairOf s p.act
  .next (if x.run.isSome ∧ (x.live = .stream ∨ x.live = .bSearch) then
    calBoundary (spliceGapEnd (takeSamples s p.act p.spans) p.act) (fun n => decide (n < 16) && laneItem p.act n)
  else s)

/-- The lane count has changed from what it was in the state before (R99): a calibration in progress under the old mode
is abandoned, and a pair with no run changes mode; one in a run does at its next sector gap. -/
def adcMode (before s : State) : State :=
  if redundancy before = redundancy s then s
  else each (List.range s.part.acts) (fun a t =>
    let p := pairOf t a
    setPair t a { p with redundant := if p.run.isSome then p.redundant else redundancy s })
    (calDrop s (fun n => decide (n < 16)))

/-- A head switch's fast-recovery pulse to each lane of the pair with HPF_FAST = 1 (R67). -/
def hpfPulse (s : State) (a : Nat) : State :=
  let p := pairOf s a
  setPair s a { p with
    pulseL := p.pulseL + b2n (flag s F.LNE_AFE_CTL_HPF_FAST (2 * a))
    pulseT := p.pulseT + b2n (flag s F.LNE_AFE_CTL_HPF_FAST (2 * a + 1)) }

/-- A block reset of pair a (R92): its run ends LANE_RESET, replays, slots and pins go, loop values and the pair Spool
return to their start state. -/
def laneBlockReset (s : State) (a : Nat) : State :=
  let t := lneAbort (calDrop s (laneItem a)) a 0x12
  let p := pairOf t a
  let free (e : Option Nat) (u : State) : State := match e with | some e => setEntry u a e {} | none => u
  let t := each p.replays (fun q u => free q.entry u) t
  let t := each p.sectors (fun x u => free x.entry u) t
  let t := each p.packets (fun k u => if k.entry < 16 then setEntry u a k.entry {} else u) t
  let t := setPair t a { p with
    replays := [], sectors := [], packets := [], slots := [], vals := startVals s a, relock := none, spanTiming := none
    spool := List.replicate 6 0#64, recentre := false, lead := [], trail := [], preY := []
    phaseT := trailPhase (pathCtl s a) (startVals s a), replayPtr := 0, runPtr := 0 }
  let w := rd t .CKR_BRST 0
  wr t .CKR_BRST 0 (setBits w a 1 0)

end Sys2Proof.Machine
end

