-- ==== Sys2Proof/Machine/Svg.lean ====
section
/-!
DEFINITION. The Selvage channels: tone lock, demodulation, crossings, identity frames and the carried track
(R174 to R184).
-/

namespace Sys2Proof.Machine

/-- The SVG zone of a track, by the registers as they stand (R143, R212). -/
def svgZone (s : State) (t : Nat) : Option Nat :=
  ((List.range 64).reverse).find? (fun z => flag s F.SVG_ZONE_VALID z && decide (fld s F.SVG_ZONE_FIRST_TRACK z ≤ t))

/-- Tone-A cycles per revolution of a track's zone. -/
def revCycles (s : State) (t : Nat) : Nat :=
  match svgZone s t with
  | some z => fld s F.SVG_ZONE_REV_CYCLES z
  | none => 0

/-- The oscillator's preset at a change of zone (R176): LOCKED and ANG_VALID clear, and f_A = REV_CYCLES × speed / 60 where a
zone covers the track. -/
def presetTone (s : State) (a : Nat) (z : Option Nat) : State :=
  let t := match z with
    | some z => setFld s F.SVG_TONE_F_A a (fld s F.SVG_ZONE_REV_CYCLES z * s.spn.set / 6000)
    | none => s
  let t := setFlag t F.SVG_TONE_LOCKED a false
  setSvg t a { svgOf t a with angValid := false }

/-- The carried track replaced; a change of its zone presets the oscillator (R176). -/
def setTrack (s : State) (a t : Nat) : State :=
  let g := svgOf s a
  let u := setSvg s a { g with track := t, moves := (g.cycles, g.track) :: g.moves }
  if svgZone s g.track ≠ svgZone s t then presetTone u a (svgZone s t) else u

/-- SVG_ZONE_z changed from the table of an earlier state: an actuator whose carried track has another zone now, or another
REV_CYCLES, has its oscillator preset (R176). -/
def zoneChanged (old s : State) : State :=
  each (List.range s.part.acts) (fun a u =>
    let k := (svgOf s a).track
    if svgZone old k ≠ svgZone s k ∨ revCycles old k ≠ revCycles s k then presetTone u a (svgZone s k) else u) s

/-- WRP remembers the last track carried with TRK_VALID = 1 (R153). -/
def noteGroup (s : State) (a : Nat) : State :=
  if (svgOf s a).trkValid then
    setWrp s a { wrpOf s a with lastTrack := some (svgOf s a).track }
  else s

/-- The tone-A phase error has stayed small for 16 samples: LOCKED rises (R176). -/
def execToneLock (a : Nat) (s : State) : Result :=
  .next (if a < s.part.acts ∧ flag s F.SVG_CTL_EN a then setFlag s F.SVG_TONE_LOCKED a true else s)

/-- ANGLE advanced by tone-A cycles, around the revolution (R173). -/
def advanceAngle (s : State) (a cycles : Nat) : Nat :=
  let g := svgOf s a
  let r := revCycles s g.track
  if r = 0 then (g.angle + cycles) % 2 ^ 21 else (g.angle + cycles) % r

/-- Tone-A cycles pass on a channel. -/
def passCycles (s : State) (a cycles : Nat) : State :=
  let g := svgOf s a
  setSvg s a { g with angle := advanceAngle s a cycles, cycles := g.cycles + cycles }

/-- The count of a crossing is lost (R179): TRK_VALID and ID_CONF clear and RATE_HIGH counts. -/
def crossingLost (s : State) (a : Nat) : State :=
  bump (setSvg s a { svgOf s a with trkValid := false, idConf := false }) F.SVG_CNT_RATE_HIGH a

/-- A stripe crossing (R179): counted with ID_CONF cleared; beyond the countable rate it is lost, and so it is where LOCKED
falls during it, by the loop or by a change of zone (R176). -/
def stripeCrossing (s : State) (a : Nat) (inward fast unlock : Bool) (cycles : Nat) : State :=
  let s := passCycles s a cycles
  let g := svgOf s a
  let t := setSvg s a { g with idConf := false, crossAt := some g.cycles }
  if fast then crossingLost (when unlock (fun u => setFlag u F.SVG_TONE_LOCKED a false) t) a
  else
    let t := noteGroup (setTrack t a ((if inward then g.track + 1 else g.track + 2 ^ 21 - 1) % 2 ^ 21)) a
    let t := when unlock (fun u => setFlag u F.SVG_TONE_LOCKED a false) t
    if flag s F.SVG_TONE_LOCKED a ∧ flag t F.SVG_TONE_LOCKED a = false then crossingLost t a else t

/-- A stripe crossing. -/
def execStripeCrossing (a : Nat) (inward : Bool) (x : Crossing) (s : State) : Result :=
  .next (if a < s.part.acts ∧ flag s F.SVG_CTL_EN a then stripeCrossing s a inward x.fast x.unlock x.cycles else s)

/-! ### Demodulation -/

/-- A sample is valid when CLIP, LOW and UNLOCK are all 0 (R178). -/
def Sample.valid (x : Sample) : Bool := !x.clip && !x.low && !x.unlock

/-- The SVG_PESCAL entry of the channel's head and the parameter group of the carried track's zone, group 0 where no zone
covers it (R177, R184). -/
def pescal (s : State) (a : Nat) : Nat :=
  16 * (svgOf s a).head + (match svgZone s (svgOf s a).track with | some z => fld s F.SVG_ZONE_PGRP z | none => 0)

/-- The nest 1 − z/d (1 − …) of a sine's or a cosine's series, in 2^−32, the innermost divisor first. -/
def series (l : List Nat) (z : Nat) : Nat := l.foldl (fun acc d => 2 ^ 32 - z * acc / (d * 2 ^ 32)) (2 ^ 32)

/-- The sine of a phase in 2^−32 cycle, in 2^−32: by its series from the quarter it lies in. -/
def sineOf (phase : Nat) : Int :=
  let t := phase % 2 ^ 30 * 26986075409 / 2 ^ 32
  let z := t * t / 2 ^ 32
  let sn : Int := (t * series [156, 110, 72, 42, 20, 6] z / 2 ^ 32 : Nat)
  let cs : Int := series [132, 90, 56, 30, 12, 2] z
  match phase / 2 ^ 30 % 4 with
  | 0 => sn
  | 1 => cs
  | 2 => -sn
  | _ => -cs

/-- |Σ x[i] exp(−j 2π p[i])| over consecutive samples, the newest first, whose phase steps by num / den cycle a sample, in
2^−32 LSB (R177). -/
def toneMag (num den : Nat) (l : List Int) : Nat :=
  let sums := l.foldl (fun (acc : Nat × Int × Int) x =>
    let ph := acc.1 * num * 2 ^ 32 / den
    (acc.1 + 1, acc.2.1 + x * sineOf (ph + 2 ^ 30), acc.2.2 + x * sineOf ph)) (0, 0, 0)
  isqrt (sums.2.1 * sums.2.1 + sums.2.2 * sums.2.2).toNat

/-- The window's beats (R177): WIN_BEATS of the carried track's zone, entry 0's where none covers it, and at most the whole
beats of 7 / f_A that fit in 1.0 µs. -/
def winBeats (s : State) (a fA : Nat) : Nat :=
  min (fld s F.SVG_ZONE_WIN_BEATS ((svgZone s (svgOf s a).track).getD 0)) (fA / 7000000)

/-- The window that ends at the strobe: the samples nearest to its beats' length, at 500 MS/s, the newest first. -/
def window (s : State) (a fA : Nat) (samples : List Int) : List Int :=
  if fA = 0 then [] else samples.take (min 500 ((winBeats s a fA * 7 * 500000000 + fA / 2) / fA))

/-- The samples of a window after the symbol boundary it contains, if any: by ANGLE, or while ANG_VALID = 0 by the count
given. -/
def splitAt (s : State) (a fA theta n : Nat) (boundary : Option Nat) : Option Nat :=
  let g := svgOf s a
  let b := if g.angValid then
      if fA = 0 then none
      else some (((g.angle % 128 * 65536 + theta % 65536) * 500000000 + 32768 * fA) / (65536 * fA))
    else boundary
  b.filter (fun k => decide (k < n))

/-- The tone magnitudes A and B of a window (R177). -/
def toneMags (s : State) (a fA theta : Nat) (boundary : Option Nat) (w : List Int) : Nat × Nat :=
  let part := toneMag fA 500000000
  let A := match splitAt s a fA theta w.length boundary with
    | some k => part (w.take k) + part (w.drop k)
    | none => part w
  (A, toneMag (48 * fA) (56 * 500000000) w)

/-- Samples of a window at the ADC's full scale, 10 bits. -/
def fullScale (w : List Int) : Nat := w.countP (fun x => decide (x ≤ -512 ∨ 511 ≤ x))

/-- The demodulation of a window (R177, R178). The spec gives no p for two absent tones, no SUM for SUM_NOM = 0 and no unit
for SUM_NOM: free values. -/
def demod (s : State) (a : Nat) (samples : List Int) (boundary : Option Nat) (fA theta : Nat) : Sample :=
  let w := window s a fA samples
  let m := toneMags s a fA theta boundary w
  let i := pescal s a
  let tot := m.1 + m.2
  let gain := fld s F.SVG_PESCAL_PES_GAIN i
  let nom := fld s F.SVG_PESCAL_SUM_NOM i
  let ofs := signed 16 (fld s F.SVG_PESCAL_PES_OFS i)
  let pes := if tot = 0 then (Config.freeWord s.free).toNat % 4096 - (2048 : Int)
    else clampInt (-2048) 2047 (divRound (((m.1 : Int) - m.2) * 1024 * gain) (tot * 16384) + ofs)
  let small := if tot = 0 then Config.freeBit s.free else decide (16 * (max m.1 m.2 - min m.1 m.2) ≤ 15 * tot)
  let sum := if nom = 0 then (Config.freeWord (s.free + 1)).toNat % 4096
    else min 4095 (tot * 2048 / (nom * (Config.sumUnit w.length + 1)))
  let clip := decide (fld s F.SVG_CTL_CLIP_MAX a < fullScale w)
  let low := decide (sum * 64 < fld s F.SVG_CTL_SUM_MIN a * 2048)
  let unlock := !flag s F.SVG_TONE_LOCKED a
  { pes := pes, sum := sum, clip := clip, low := low, unlock := unlock
    lin := !clip && !low && !unlock && small && decide (pes.natAbs ≤ 1024) }

/-- The 32 µs snapshot of SVG_TRK_a (R183). -/
def snapshot (s : State) (a : Nat) : State :=
  let g := svgOf s a
  setFlds s a [(F.SVG_TRK_TRACK, g.track), (F.SVG_TRK_TRK_VALID, b2n g.trkValid), (F.SVG_TRK_ID_CONF, b2n g.idConf),
    (F.SVG_TRK_ANGLE, g.angle), (F.SVG_TRK_ANG_VALID, b2n g.angValid), (F.SVG_TRK_FRAME_AGE, g.age / 64)]

/-- A sample strobe passes: the time since the last accepted frame counts, whether the channel is enabled or not (R214). -/
def strobe (s : State) (a : Nat) : State := setSvg s a { svgOf s a with age := min 16320 ((svgOf s a).age + 1) }

/-- A sample published by an enabled channel (R176, R177, R183, R213). -/
def publish (s : State) (a : Nat) (x : Sample) (fA theta : Nat) : State :=
  let g := svgOf s a
  let n := fld s F.SVG_PES_SAMPLE a + 1
  let t := { s with free := s.free + 2 }
  let t := setFlds t a [(F.SVG_PES_PES, narrow 16 x.pes), (F.SVG_PES_SUM, x.sum), (F.SVG_PES_VALID, b2n x.valid),
    (F.SVG_PES_CLIP, b2n x.clip), (F.SVG_PES_LOW, b2n x.low), (F.SVG_PES_UNLOCK, b2n x.unlock),
    (F.SVG_PES_LIN, b2n x.lin), (F.SVG_PES_SAMPLE, n), (F.SVG_TONE_F_A, fA), (F.SVG_TONE_THETA, theta)]
  let snap := decide (64 ≤ g.count + 1)
  let t := setSvg t a { g with
    outAt := if x.lin then g.outAt else some g.cycles, count := if snap then 0 else g.count + 1 }
  if snap then snapshot t a else t

/-! ### Identity frames -/

/-- Symbols i to i + n − 1 of a frame, most significant first (R172). -/
def symField (w i n : Nat) : Nat := w / 2 ^ (64 - i - n) % 2 ^ n

/-- The 13-symbol sync sequence of Table 6.1. -/
def syncWord : Nat := 0b0000011001010

/-- Hamming distance of two 13-bit numbers. -/
def dist13 (x y : Nat) : Nat := countBelow (fun k => Nat.testBit x k != Nat.testBit y k) 13

/-- A reflected Gray code decoded (R172). -/
def grayDecode (n g : Nat) : Nat := (List.range n).foldl (fun b k => b ^^^ (g / 2 ^ k)) 0

/-- CRC-8 of R172 over n bits, most significant first. -/
def crc8 (n v : Nat) : Nat :=
  (List.range n).foldl (fun c k =>
    let top := (c / 128 + v / 2 ^ (n - 1 - k)) % 2
    (c * 2 % 256) ^^^ (if top = 1 then 7 else 0)) 0

/-- The frame's symbols with the loop's polarity resolved (R176), if its SYNC is found within distance 2 (R180). -/
def frameSymbols (g : Svg) (w : Nat) : Option (Nat × Bool) :=
  let v := 2 ^ 64 - 1 - w % 2 ^ 64
  let fits (x : Nat) : Bool := decide (dist13 (symField x 0 13) syncWord ≤ 2)
  if g.angValid then
    let x := if g.inverted then v else w % 2 ^ 64
    if fits x then some (x, g.inverted) else none
  else if fits (w % 2 ^ 64) then some (w % 2 ^ 64, false)
  else if fits v then some (v, true)
  else none

/-- The frame that ends now lies at a position ANGLE predicts: its first symbol's number is a multiple of 64 (R173, R180). -/
def framePosition (s : State) (a : Nat) : Bool :=
  let g := svgOf s a
  let r := revCycles s g.track
  let start := if r = 0 then 0 else (g.angle + 2 * r - 8192 % r) % r
  !g.angValid || decide (start / 128 % 64 = 0)

/-- A count of tone-A cycles lies within the 64 symbols that end now. -/
def inFrame (g : Svg) (c : Nat) : Bool := decide (g.cycles < c + 8192)

/-- No crossing was counted during the frame's 64 symbols and every sample over it was LIN (R180). -/
def frameStill (g : Svg) : Bool := !(g.crossAt.any (inFrame g)) && !(g.outAt.any (inFrame g))

/-- The carried tracks during the frame (R181): the present one and those before each change within it. -/
def frameTracks (g : Svg) : List Nat := g.track :: (g.moves.filter (fun x => inFrame g x.1)).map Prod.snd

/-- The frame's action on the carried track (R181, Table 6.3). -/
def frameTrack (s : State) (a tf : Nat) (still : Bool) : State :=
  let g := svgOf s a
  if !g.trkValid then
    if still then
      let t := setSvg s a { g with trkValid := true, idConf := true, lastBad := none }
      noteGroup (setTrack t a tf) a
    else s
  else if still then
    if tf = g.track then setSvg s a { g with idConf := true, lastBad := none }
    else if g.lastBad = some tf then
      let t := setTrack (setSvg s a { g with idConf := true, lastBad := none }) a tf
      let t := setCte t a { cteOf t a with slipped := true }
      noteGroup (sendFault (bump t F.SVG_CNT_TRACK_SLIP a) .svg (552 + a) FK.svgTrackSlip 5 0) a
    else bump (setSvg s a { g with idConf := false, lastBad := some tf }) F.SVG_CNT_ID_ERR a
  else if (frameTracks g).any (fun t => decide (t ≤ tf + 1)) ∧ (frameTracks g).any (fun t => decide (tf ≤ t + 1)) then s
  else bump s F.SVG_CNT_ID_ERR a

/-- An accepted frame checks ANGLE (R182). -/
def frameAngle (s : State) (a index : Nat) : State :=
  let g := svgOf s a
  let r := revCycles s g.track
  let want := if r = 0 then index * 128 + 8192 else (index * 128 + 8192) % r
  if g.angValid then
    if g.angle = want then s else bump (setSvg s a { g with angle := want }) F.SVG_CNT_ANG_SLIP a
  else setSvg s a { g with angle := want, angValid := true }

/-- An identity frame ends (R180 to R182): checked, and when accepted it acts on the carried track and on ANGLE. -/
def identityFrame (s : State) (a symbols cycles : Nat) : State :=
  let s := passCycles s a cycles
  let g := svgOf s a
  let s := setSvg s a { g with moves := g.moves.filter (fun x => inFrame g x.1) }
  match (if framePosition s a then frameSymbols g symbols else none) with
  | none => s
  | some (w, inv) =>
    if crc8 22 (symField w 34 22) ≠ symField w 56 8 then s
    else if flag s F.SVG_CTL_SURF_CHK a ∧ symField w 50 3 ≠ fld s F.HDL_HEADMAP_PREAMP_HEAD g.head then
      let u := bump (setSvg s a { svgOf s a with surfBad := true }) F.SVG_CNT_SURF_ERR a
      if g.surfBad then sendFault u .svg (552 + a) FK.svgSurface 5 0 else u
    else
      let u := setSvg s a { svgOf s a with inverted := inv, surfBad := false, age := 0 }
      let u := frameAngle u a (symField w 34 16)
      frameTrack u a (grayDecode 21 (symField w 13 21)) (frameStill g)

/-- An identity frame ends. -/
def execIdentityFrame (a symbols cycles : Nat) (s : State) : Result :=
  .next (if a < s.part.acts ∧ flag s F.SVG_CTL_EN a then identityFrame s a symbols cycles else s)

/-- TRK_VALID, ID_CONF and ANG_VALID clear (R184). -/
def svgClear (s : State) (a : Nat) : State :=
  setSvg s a { svgOf s a with trkValid := false, idConf := false, angValid := false }

/-- A head switch is done (R184): the channel takes the new head's reader and calibration, and clears the three bits. -/
def svgHeadSwitch (s : State) (a head : Nat) : State :=
  let t := svgClear s a
  setSvg t a { svgOf t a with head := head }

/-- A block reset of an SVG channel (R184). -/
def svgBlockReset (s : State) (a : Nat) : State :=
  let t := calDrop s (fun n => n == 32 + a || (decide (1088 ≤ n) && itemOwner s n == a))
  let t := setFlag (svgClear t a) F.SVG_TONE_LOCKED a false
  let w := rd t .CKR_BRST 0
  wr t .CKR_BRST 0 (setBits w (6 + a) 1 0)

/-- A block reset of an SVG channel. -/
def execSvgBlockReset (a : Nat) (s : State) : Result := .next (if a < s.part.acts then svgBlockReset s a else s)

end Sys2Proof.Machine
end

