-- ==== Sys2Proof/Machine/Cte.lean ====
section
/-!
DEFINITION. The control engine's actuator contexts: Q1.31 arithmetic, observer and law (R186 to R189), coefficient sets
(R190, R191), actuator states and requests (R193 to R195), seeks (R196 to R201), supervision (R202 to R204), the
external set-point (R205), load and park (R206 to R209).
-/

namespace Sys2Proof.Machine

/-! ### Q1.31 arithmetic -/

/-- The largest Q1.31 value. -/
def qMax : Int := 2 ^ 31 - 1
/-- The least Q1.31 value. -/
def qMin : Int := -(2 ^ 31)

/-- A value saturated to Q1.31, and whether it saturated (R186). -/
def qSat (v : Int) : Int × Bool := (clampInt qMin qMax v, decide (v < qMin ∨ qMax < v))

/-- A sum of products of Q1.31 values shifted left by sh, rounded to nearest with ties away from zero, saturated
(R186). -/
def qSum (sh : Nat) (v : Int) : Int × Bool := qSat (divRound (v * 2 ^ sh) (2 ^ 31))

/-- A coefficient word of CTE memory (R190, R225). -/
def coef (s : State) (n set w : Nat) : Int := signed 32 (fld s F.CTE_COEF_WORD (n * 2048 + set * 256 + w))

/-- A dot product of coefficient words from a base with a state vector. -/
def dotCoef (s : State) (n set base stride ns : Nat) (x : List Int) : Int :=
  (List.range ns).foldl (fun acc j => acc + coef s n set (base + stride * j) * x.getD j 0) 0

/-- NS of a set: 1 to 8 (Table 6.5). -/
def setNs (s : State) (n set : Nat) : Nat :=
  let v := getBits (BitVec.ofInt 64 (coef s n set 117)) 8 4
  if v = 0 then 1 else min v 8

/-- Saturation flags met in a tick: input, observer, first and second output, notch (R186). -/
structure Sats where
  input : Bool := false
  observer : Bool := false
  out0 : Bool := false
  out1 : Bool := false
  notch : Bool := false
deriving DecidableEq, Repr

/-- The observer's next state (R188), and whether a row saturated. -/
def observe (s : State) (n set : Nat) (xh : List Int) (uv um r : Int) : List Int × Bool :=
  let ns := setNs s n set
  let shifts := BitVec.ofInt 64 (coef s n set 116)
  (List.range ns).foldl (fun (acc : List Int × Bool) i =>
    let v := dotCoef s n set (8 * i) 1 ns xh + coef s n set (64 + 2 * i) * uv + coef s n set (65 + 2 * i) * um
      + coef s n set (80 + i) * r
    let q := qSum (getBits shifts (4 * i) 4) v
    (acc.1 ++ [q.1], acc.2 || q.2)) ([], false)

/-- One biquad section (R188): its output, its new state x1, x2, y1, y2, and whether it saturated. -/
def biquad (s : State) (n set base : Nat) (st : List Int) (x : Int) : Int × List Int × Bool :=
  let c (k : Nat) := coef s n set (base + k)
  let x1 := st.getD 0 0
  let x2 := st.getD 1 0
  let y1 := st.getD 2 0
  let y2 := st.getD 3 0
  let q := qSum 1 (c 0 * x + c 1 * x1 + c 2 * x2 - c 3 * y1 - c 4 * y2)
  (q.1, [x, x1, q.1, y1], q.2)

/-- A cascade of notch sections: those enabled in the mask run in ascending order (R188). -/
def cascade (s : State) (n set base mask key : Nat) (st : List (Nat × List Int)) (x : Int) :
    Int × List (Nat × List Int) × Bool :=
  (List.range 8).foldl (fun (acc : Int × List (Nat × List Int) × Bool) k =>
    if Nat.testBit mask k then
      let r := biquad s n set (base + 5 * k) (tget (dflt []) acc.2.1 (key + k)) acc.1
      (r.1, tset (dflt []) acc.2.1 (key + k) r.2.1, acc.2.2 || r.2.2)
    else acc) (x, st, false)

/-- CTE_SAT_n's flags set; the first to set after all have read zero raises FK_CTE_SAT at severity 3 (R186). -/
def recordSats (s : State) (n : Nat) (x : Sats) : State :=
  let old := rd s .CTE_SAT n
  let new := old ||| BitVec.ofNat 64 (b2n x.input + 2 * b2n x.observer + 4 * b2n x.out0 + 8 * b2n x.out1 + 16 * b2n x.notch)
  if new = old then s
  else
    let t := wr s .CTE_SAT n new
    if old = 0#64 then sendFault t .cte (584 + n) FK.cteSat 3 0 else t

/-! ### States, statuses and completions -/

/-- The state of an actuator, in CTE_STAT_a.STATE's encoding (R193). -/
abbrev stParked : Nat := 0
/-- LOADING. -/
abbrev stLoading : Nat := 1
/-- ACQUIRE. -/
abbrev stAcquire : Nat := 2
/-- SEEK. -/
abbrev stSeek : Nat := 3
/-- REACQ. -/
abbrev stReacq : Nat := 4
/-- SETTLE. -/
abbrev stSettle : Nat := 5
/-- FOLLOW. -/
abbrev stFollow : Nat := 6
/-- HOLD. -/
abbrev stHold : Nat := 7
/-- UNLOADING. -/
abbrev stUnloading : Nat := 8
/-- EXT. -/
abbrev stExt : Nat := 9

/-- An actuator's state. -/
def cteState (s : State) (a : Nat) : Nat := fld s F.CTE_STAT_STATE a

/-- The off-track flag rises (R198); a write run on the actuator is cut (R157, inhibit 1). -/
def raiseOt (s : State) (a : Nat) : State :=
  let t := setFlag (setCte s a { cteOf s a with cleanRun := 0 }) F.CTE_STAT_OT a true
  wrpCut t a 0x50

/-- A register of context a as it stood at the last law boundary (R192). -/
def inForce (s : State) (a : Nat) (r : Reg) (i : Nat) : Word :=
  match (cteOf s a).late.find? (fun x => x.1 == regKey r i) with
  | some x => x.2
  | none => rd s r i

/-- A field of a register as it stood at the last law boundary. -/
def fldIn (s : State) (a : Nat) (f : Fld) (i : Nat) : Nat := getBits (inForce s a f.reg i) f.lo f.w

/-- An actuator's state set: FOLLOW and EXT are its readiness (R607); in any other the off-track flag is up
(R198). Leaving FOLLOW abandons the actuator's calibrations (R615). -/
def setCteState (s : State) (a st : Nat) : State :=
  let s := if cteState s a = stFollow ∧ st ≠ stFollow then calDropAct s a else s
  let t := setFld (setCte s a { cteOf s a with due := none }) F.CTE_STAT_STATE a st
  let on := decide (st = stFollow ∨ st = stExt)
  let t := setReady t F.CKR_READY_ACT a on
  if on then t else raiseOt t a

/-- A seek completes (R195, Table 6.7): its requester is answered and the counters count. -/
def seekDone (s : State) (a : Nat) (q : SeekReq) (status : Nat) : State :=
  let t := match status with
    | 0 => bump s F.CTE_CNT_SEEKS_OK a
    | 0x60 => bump s F.CTE_CNT_SEEK_FAIL a
    | 0x64 => bump s F.CTE_CNT_SEEK_FAIL a
    | _ => s
  let t := match q.who with
    | .media o => mediaDone t o status 0 false
    | .firmware => setFlds t a [(F.CTE_SEEK_STATUS, status), (F.CTE_SEEK_BUSY, 0)]
  raiseSource t (592 + a)

/-- The seek in progress completes. -/
def endSeek (s : State) (a status : Nat) : State :=
  match (cteOf s a).seek with
  | some q => seekDone (setCte s a { cteOf s a with seek := none }) a q status
  | none => s

/-- A command of CTE_CMD_a completes (R195, R217). -/
def cmdDone (s : State) (a status : Nat) : State :=
  raiseSource (setFlds s a [(F.CTE_CMD_STATUS, status), (F.CTE_CMD_BUSY, 0)]) (592 + a)

/-- The command in progress completes, if it is one of those named. -/
def endCmd (s : State) (a : Nat) (which : List CteCmd) (status : Nat) : State :=
  match (cteOf s a).cmd with
  | some c => if c ∈ which then cmdDone (setCte s a { cteOf s a with cmd := none }) a status else s
  | none => s

/-- HOLD entered with a cause (R202 to R204): a pending SEEK, LOAD or RESUME completes IN_HOLD, a lost seek
SEEK_LOST. -/
def enterHold (s : State) (a cause : Nat) : State :=
  let t := endSeek s a (if cause = 3 then 0x64 else 0x63)
  let t := endCmd t a [.load, .resume] 0x63
  let t := setCte t a { cteOf t a with hold := none, rv := 0 }
  bump (setCteState (setFld t F.CTE_STAT_HOLD_CAUSE a cause) a stHold) F.CTE_CNT_HOLDS a

/-- A waiting request outranked by unloading completes SEEK_ABORTED (R194). -/
def abortRequests (s : State) (a : Nat) : State :=
  let c := cteOf s a
  let t := setCte s a { c with mediaReq := [], fwReq := none, cmdReq := match c.cmdReq with | some .park => some .park | _ => none }
  let t := each (c.mediaReq ++ c.fwReq.toList) (fun q u => seekDone u a q 0x61) t
  match c.cmdReq with
  | some .load => cmdDone t a 0x61
  | some .resume => cmdDone t a 0x61
  | _ => t

/-- The trajectory starts at the present position (R196). -/
def startTrajectory (s : State) (a : Nat) : State :=
  let c := cteOf s a
  setCte s a { c with rp := c.pos * 2 ^ 13, rv := 0 }

/-- UNLOADING entered (R193, R207): pending work completes SEEK_ABORTED; the park seek runs if the track is known and
the state left was not HOLD, else the unload drive starts and EMERG counts. -/
def enterUnload (s : State) (a : Nat) : State :=
  let from_ := cteState s a
  let t := endSeek s a 0x61
  let t := endCmd t a [.load, .resume] 0x61
  let t := abortRequests t a
  let closed := (svgOf t a).trkValid && decide (from_ ≠ stHold)
  let t := startTrajectory t a
  let t := setCte t a { cteOf t a with
    phase := if closed then 0 else 1, track := fld t F.CTE_PARK_PARK_TRACK a, offset := 0, ext := 0, unload := false, hold := none
    slipped := false }
  let t := when (!closed) (fun u => bump u F.CTE_CNT_EMERG a) t
  setCteState (setFld t F.CTE_STAT_HOLD_CAUSE a 0) a stUnloading

/-- An unload is due at the next law boundary: a PARK or SPN's request, the safe state, or power loss once WG_a is low
(R193, R208): a writing actuator stays in its state until its sector has ended. -/
def unloadDue (s : State) (a : Nat) : Bool :=
  if powerLost s then !(hdlOf s a).wg else (cteOf s a).unload || safeState s

/-- ACQUIRE entered (R193): TRK_VALID clears and the loop closes on the nearest stripe. -/
def enterAcquire (s : State) (a : Nat) : State :=
  let t := setSvg s a { svgOf s a with trkValid := false }
  let t := setCte t a { cteOf t a with offset := 0, ext := 0, rv := 0, switched := false, coastRun := 0 }
  setCteState (setFld (setFld t F.CTE_STAT_HOLD_CAUSE a 0) F.CTE_STAT_RES_RUN a 0) a stAcquire

/-- SETTLE entered at a target. -/
def enterSettle (s : State) (a : Nat) : State :=
  setCteState (setCte s a { cteOf s a with settleRun := 0, rv := 0 }) a stSettle

/-- SEEK entered towards a target: the trajectory starts at the present position (R196). -/
def enterSeek (s : State) (a : Nat) : State := setCteState (startTrajectory s a) a stSeek

/-! ### Samples -/

/-- Y_ref in 2^−14 track: target and offset, and in EXT the set-point (R196, R205); in ACQUIRE the nearest stripe. -/
def yRef (s : State) (a : Nat) : Int :=
  let c := cteOf s a
  if cteState s a = stAcquire then ((svgOf s a).track * 16384 : Nat)
  else ((c.track * 16384 : Nat) : Int) + (if cteState s a = stExt then c.ext else c.offset)

/-- The distance of entry i of a velocity table, 2^(i/8) tracks, in 2^−27 track (R196). -/
def entryDistance (i : Nat) : Nat :=
  let c := [4294967296, 4683695048, 5107605667, 5569883475, 6074001000, 6623745059, 7223245206, 7877004752]
  2 ^ (i / 8) * c.getD (i % 8) 0 / 2 ^ 5

/-- The speed the velocity table gives at a remaining distance in 2^−27 track (R196): linear to zero below one track, else
linear in the distance between the entries at floor(8 log2 |d|) and the next. -/
def tableSpeed (s : State) (a d : Nat) : Int :=
  let v (i : Nat) : Int := (signed 32 (fldIn s a F.CTE_VEL_V (256 * a + i))).natAbs
  if d < 2 ^ 27 then divRound (v 0 * d) (2 ^ 27)
  else
    let i := min 255 (Nat.log2 (d ^ 8) - 216)
    let lo := entryDistance i
    if i = 255 then v 255 else v i + divRound ((v (i + 1) - v i) * (d - lo : Nat)) (entryDistance (i + 1) - lo)

/-- The reference trajectory advances one sample (R196): in SEEK and the park seek by the table, in REACQ its speed
ramps to zero, at a rate the spec leaves open. -/
def trajectory (s : State) (a : Nat) : State :=
  let c := cteOf s a
  let st := cteState s a
  if st = stSeek ∨ (st = stUnloading ∧ c.phase = 0) then
    let d : Int := ((c.track * 16384 : Nat) + c.offset) * 2 ^ 13 - c.rp
    let v := tableSpeed s a d.natAbs
    let v := if d < 0 then -v else v
    setCte s a { c with rv := v, rp := c.rp + v }
  else if st = stReacq then
    let m : Int := (Config.freeWord s.free).toNat % (c.rv.natAbs + 1)
    let v := if c.rv < 0 then -m else m
    { setCte s a { c with rv := v, rp := c.rp + v } with free := s.free + 1 }
  else s

/-- A sample acts on a context (R187, R188, R198, R202, R203): measurement and observer, the residual's run, the coast run, the
off-track flag, and the trajectory. An absent sample counts as invalid. -/
def cteSample (s : State) (a : Nat) (x : Option Sample) : State :=
  let s := trajectory s a
  let c := cteOf s a
  let g := svgOf s a
  let st := cteState s a
  let valid := match x with | some x => x.valid | none => false
  let lin := match x with | some x => x.lin | none => false
  let pes := match x with | some x => x.pes | none => 0
  let y : Int := ((g.track * 16384 : Nat) : Int) - pes
  let e := y - yRef s a
  let scale : Int := 2 ^ (17 - fldIn s a F.CTE_LAW_CTL_ESC a)
  let m := qSat (e * scale)
  let set := c.active % 8
  let meas := lin && decide (st ≠ stHold)
  let r : Int × Bool := if meas then qSum 0 (m.1 * 2 ^ 31 - dotCoef s a set 88 1 (setNs s a set) c.xh) else (0, false)
  let o := if c.active < 8 then observe s a set c.xh c.uv c.um r.1 else (c.xh, false)
  let sup := decide (st = stAcquire ∨ st = stSettle ∨ st = stFollow ∨ st = stExt)
  let above := decide ((fldIn s a F.CTE_RES_LIM_LIM a : Int) * scale < r.1.natAbs)
  let run := fld s F.CTE_STAT_RES_RUN a
  let run := if sup && lin then (if above then min 255 (run + 1) else 0) else run
  let ec := y - ((c.track * 16384 : Nat) : Int)
  let bad := decide (¬(st = stFollow ∨ st = stExt)) || decide (fldIn s a F.CTE_OT_OT_LIM a < ec.natAbs) || !valid
    || !g.idConf || !g.angValid
  let sumOk := match x with | some x => decide (fldIn s a F.CTE_LOAD_LOAD_SUM a * 2048 ≤ x.sum * 64) | none => false
  let t := setCte s a { c with
    xh := o.1, err := if lin then some e else none, pos := if lin then y else c.pos
    coastRun := if valid || !sup then 0 else c.coastRun + 1
    cleanRun := if bad then 0 else c.cleanRun + 1
    sumRun := if sumOk then c.sumRun + 1 else 0 }
  let t := setFlds t a [(F.CTE_STAT_RES_RUN, run), (F.CTE_STAT_ERR, narrow 16 (clampInt (-32768) 32767 ec))]
  let t := recordSats t a { input := lin && m.2, observer := o.2 || r.2 }
  if bad then raiseOt t a else t

/-- A sample reaches CTE (R185): the first three after a law tick act at once; the fourth acts in the law tick, whose slot
begins with it, after its boundary (R192). -/
def takeSample (s : State) (a : Nat) (x : Option Sample) : State :=
  let c := cteOf s a
  if c.nth < 3 then
    let t := cteSample s a x
    setCte t a { cteOf t a with nth := c.nth + 1 }
  else
    let t := match c.held with | some y => cteSample s a y | none => s
    setCte t a { cteOf t a with held := some x }

/-- A sample strobe (R177): the channel demodulates and publishes, and the sample reaches CTE; with the channel disabled it
counts as invalid (R175). -/
def execPesSample (a : Nat) (newer older : List Int) (boundary : Option Nat) (fA theta cycles : Nat) (s : State) : Result :=
  .next (if a < s.part.acts then
    let s := passCycles (strobe s a) a cycles
    if flag s F.SVG_CTL_EN a then
      let x := demod s a (newer ++ older) boundary fA theta
      takeSample (publish s a x fA theta) a (some x)
    else takeSample s a none
  else s)

/-! ### Requests -/

/-- The refusal of a SEEK on a present actuator, in the order of R195; 0 when taken. -/
def seekStatus (s : State) (a track : Nat) : Nat :=
  let st := cteState s a
  let c := cteOf s a
  if !paired s then 0x5A
  else if fld s F.CTE_MAX_TRACK_TRACKS ≤ track then 0x41
  else if st = stParked ∨ st = stLoading ∨ st = stUnloading then 0x62
  else if st = stHold then 0x63
  else if st = stExt then 0x69
  else if (st = stAcquire ∧ c.seek.isSome) ∨ st = stSeek ∨ st = stReacq ∨ calHolds s a = true then 0x65
  else 0

/-- A seek taken at a law boundary (R193, R196): a pending one in SETTLE completes SEEK_ABORTED; in ACQUIRE it waits for
the track. -/
def takeSeek (s : State) (a : Nat) (q : SeekReq) : State :=
  let st := seekStatus s a q.track
  if st ≠ 0 then seekDone s a q st
  else
    let t := endSeek s a 0x61
    let t := setCte t a { cteOf t a with seek := some q, track := q.track, offset := q.offset, ext := 0 }
    let t := setFld t F.CTE_STAT_REACQ_USED a 0
    if cteState s a = stAcquire then t
    else if q.track = (svgOf s a).track then enterSettle t a
    else enterSeek t a

/-- SPN reports the spindle locked at speed (R206). -/
def spindleLocked (s : State) : Bool := flag s F.SPN_STAT_AT_SPEED

/-- A command taken at a law boundary (R195, R204, R206). -/
def takeCmd (s : State) (a : Nat) (c : CteCmd) : State :=
  let st := cteState s a
  match c with
  | .load =>
    if !paired s then cmdDone s a 0x5A
    else if st ≠ stParked then cmdDone s a 0x69
    else if !spindleLocked s then cmdDone s a 0x66
    else
      let t := setCte s a { cteOf s a with cmd := some .load, sumRun := 0 }
      -- the track that a read-mode frame goes by is known again once the channel has one (R153)
      let t := setWrp t a { wrpOf t a with lastTrack := none }
      setCteState (lifeAdd t 0 1) a stLoading
  | .resume =>
    if st = stParked ∨ st = stLoading ∨ st = stUnloading then cmdDone s a 0x62
    else if st ≠ stHold then cmdDone s a 0x69
    else enterAcquire (setCte s a { cteOf s a with cmd := some .resume }) a
  | .park => s

/-- At most one waiting request is taken at a law boundary (R194, R25). -/
def takeRequest (s : State) (a : Nat) : State :=
  let c := cteOf s a
  let req : Nat → Bool
    | 0 => !c.mediaReq.isEmpty
    | 1 => c.fwReq.isSome
    | _ => c.cmdReq.isSome
  match grant 3 c.ptr req with
  | none => s
  | some k =>
    let c := { c with ptr := grantNext 3 k }
    match k, c.mediaReq, c.fwReq, c.cmdReq with
    | 0, q :: rest, _, _ => takeSeek (setCte s a { c with mediaReq := rest }) a q
    | 1, _, some q, _ => takeSeek (setCte s a { c with fwReq := none }) a q
    | 2, _, _, some x => takeCmd (setCte s a { c with cmdReq := none }) a x
    | _, _, _, _ => s

/-! ### The law boundary -/

/-- The remaining reference distance is at most half a track. -/
def nearTarget (c : Cte) : Bool :=
  decide ((((c.track * 16384 : Nat) + c.offset) * 2 ^ 13 - c.rp).natAbs ≤ 2 ^ 26)

/-- The external set-point is enabled for an actuator, in a life cycle that allows it (R205). -/
def extOn (s : State) (a : Nat) : Bool :=
  flag s F.CTE_EXT_CTL_EN && fld s F.CTE_EXT_CTL_ACT == a && decide (fld s F.SEC_LC_STATE ∈ [1, 3])

/-- What a condition that waited for the boundary does (R193, Table 6.6): the stripe found in LOADING; LOAD_TMO, with LOAD_FAIL
and FK_CTE_LOAD; ACQ_TMO in ACQUIRE (HOLD, cause SVG_LOST) or in REACQ (HOLD, cause SEEK_LOST, FK_SVG_LOST); SETTLE_TMO with a
seek pending, which completes SEEK_TIMEOUT while settling continues; HOLD_TMO. -/
def dueAction (s : State) (a : Nat) (d : CteDue) : State :=
  let s := setCte s a { cteOf s a with due := none }
  match d with
  | .stripe => enterAcquire s a
  | .loadTmo => sendFault (enterUnload (endCmd s a [.load] 0x67) a) .cte (584 + a) FK.cteLoad 5 0
  | .acqTmo =>
    if cteState s a = stReacq then sendFault (enterHold s a 3) .svg (552 + a) FK.svgLost 5 0 else enterHold s a 2
  | .settleTmo => endSeek s a 0x60
  | .holdTmo => enterUnload s a

/-- The time that waits for the boundary still acts: ACQ_TMO in ACQUIRE only while TRK_VALID = 0, and LOADING, REACQ, SETTLE and
HOLD have not been left. -/
def dueStands (s : State) (a : Nat) : CteDue → Bool
  | .stripe => cteState s a == stLoading
  | .loadTmo => cteState s a == stLoading
  | .acqTmo => cteState s a == stReacq || (cteState s a == stAcquire && !(svgOf s a).trkValid)
  | .settleTmo => cteState s a == stSettle
  | .holdTmo => cteState s a == stHold

/-- The transitions of a law boundary that its conditions decide (R192, R193, Table 6.6), unloading first. -/
def transitions (s : State) (a : Nat) : State :=
  let st := cteState s a
  let c := cteOf s a
  let v := (svgOf s a).trkValid
  if unloadDue s a ∧ st ≠ stParked ∧ st ≠ stUnloading then enterUnload s a
  else if unloadDue s a ∧ st = stParked then abortRequests (setCte s a { c with unload := false }) a
  else
    match c.hold, c.due.filter (dueStands s a) with
    | some cause, _ => enterHold s a cause
    | none, some d => dueAction s a d
    | none, none =>
      if c.switched ∧ (st = stSettle ∨ st = stFollow ∨ st = stExt) then enterAcquire s a
      else if st = stAcquire ∧ v then
        let target := match c.seek with | some q => q.track | none => (svgOf s a).track
        let t := setCte s a { c with track := target, offset := match c.seek with | some q => q.offset | none => 0 }
        if target = (svgOf s a).track then enterSettle t a else enterSeek t a
      else if st = stSeek ∧ !v then
        if flag s F.CTE_STAT_REACQ_USED a then
          sendFault (enterHold s a 3) .svg (552 + a) FK.svgLost 5 0
        else setCteState (setFlag s F.CTE_STAT_REACQ_USED a true) a stReacq
      else if st = stReacq ∧ v then enterSeek s a
      else if st = stSeek ∧ nearTarget c then enterSettle s a
      else if st = stUnloading ∧ c.phase = 0 ∧ (nearTarget c ∨ !v) then setCte s a { c with phase := 1, rv := 0 }
      else if c.slipped ∧ (st = stSettle ∨ st = stFollow) then
        enterSeek (setFld (setCte s a { c with slipped := false }) F.CTE_STAT_REACQ_USED a 0) a
      else if st = stFollow ∧ extOn s a then setCteState (setCte s a { c with ext := 0 }) a stExt
      else if st = stExt ∧ !extOn s a then enterSettle (setCte s a { c with offset := 0 }) a
      else takeRequest (setCte s a { c with slipped := false }) a

/-- The coefficient set a state uses (R219); 8 for PARKED, which uses none. -/
def setFor (s : State) (a : Nat) : Nat :=
  match cteState s a with
  | 0 => 8
  | 1 => fld s F.CTE_MODESET_HOLD a
  | 2 => fld s F.CTE_MODESET_ACQUIRE a
  | 3 => fld s F.CTE_MODESET_SEEK a
  | 4 => fld s F.CTE_MODESET_SEEK a
  | 5 => fld s F.CTE_MODESET_SETTLE a
  | 6 => fld s F.CTE_MODESET_FOLLOW a
  | 7 => fld s F.CTE_MODESET_HOLD a
  | 8 => if (cteOf s a).phase = 0 then fld s F.CTE_MODESET_SEEK a else fld s F.CTE_MODESET_HOLD a
  | _ => fld s F.CTE_MODESET_EXT a

/-- The active set is selected; with NOTCH_INIT a switch zeroes the notch states (R191). -/
def selectSet (s : State) (a : Nat) : State :=
  let c := cteOf s a
  let n := setFor s a
  setCte s a { c with
    active := n, notch := if n ≠ c.active ∧ flag s F.CTE_LAW_CTL_NOTCH_INIT a then [] else c.notch }

/-- The open-loop VCM code of a state: load drive, unload drive, hold drive, or zero when parked (R193, R207). -/
def driveCode (s : State) (a : Nat) : Option Int :=
  let u := signed 16 (fld s F.CTE_PARK_UNLOAD_I a)
  match cteState s a with
  | 0 => some 0
  | 1 => some (signed 16 (fld s F.CTE_LOAD_LOAD_I a))
  | 8 => match (cteOf s a).phase with
    | 0 => none
    | 1 => some u
    | _ => some (u / 4)
  | _ => none

/-- What the VCM driver takes of a law tick's code (R247, R249): nothing while a retract runs, zero after a short. -/
def vcmTaken (s : State) (a : Nat) (code : Int) : Int :=
  if s.spn.retract.isSome then (cteOf s a).vcm
  else if Nat.testBit (fld s F.PWS_FAULT_VCM_SHORT) a then 0
  else code

/-- What the microactuator driver takes (R248, R249): zero without the boost and while a retract runs. -/
def mactTaken (s : State) (code : Int) : Int :=
  if flag s F.PWS_STAT_BOOST_OK && s.spn.retract.isNone then code else 0

/-- The microactuators at 0 V (R248). -/
def mactZero (s : State) : State := each (List.range s.part.acts) (fun a t => setCte t a { cteOf t a with mact := 0 }) s

/-- Every present VCM at one code, the microactuators at zero (R249). -/
def retractDrive (s : State) (code : Int) : State :=
  each (List.range s.part.acts) (fun a t => setCte t a { cteOf t a with vcm := code, mact := 0 }) s

/-- The power die's retract starts, at RETRACT_I, unless one runs, which goes on as it began (R21, R249). -/
def startRetract (s : State) (cause : Nat) : State :=
  if s.spn.retract.isSome then s
  else retractDrive { s with spn := { s.spn with retract := some cause } } (signed 16 (fld s F.PWS_RETRACT_RETRACT_I))

/-- The law tick's drive (R188, R189): uv and um from the observer and the reference, through their notches, to the drivers. -/
def lawDrive (s : State) (a : Nat) : State :=
  let c := cteOf s a
  if c.active < 8 then
    let set := c.active
    let ns := setNs s a set
    let sh := BitVec.ofInt 64 (coef s a set 117)
    let st := cteState s a
    let seeking := decide (st = stSeek ∨ st = stReacq ∨ (st = stUnloading ∧ c.phase = 0))
    let esc := fld s F.CTE_LAW_CTL_ESC a
    let target : Int := ((c.track * 16384 : Nat) + c.offset) * 2 ^ 13
    let rp := if seeking then (qSat (divRound ((c.rp - target) * 2 ^ (17 - esc)) (2 ^ 13))).1 else 0
    let rv := if seeking then c.rv else 0
    let v := qSum (getBits sh 0 4) (-(dotCoef s a set 96 1 ns c.xh) + coef s a set 112 * rp + coef s a set 113 * rv)
    let m := qSum (getBits sh 4 4) (-(dotCoef s a set 104 1 ns c.xh) + coef s a set 114 * rp + coef s a set 115 * rv)
    let mask := BitVec.ofInt 64 (coef s a set 200)
    let nv := cascade s a set 120 (getBits mask 0 8) 0 c.notch v.1
    let nm := cascade s a set 160 (getBits mask 8 8) 8 nv.2.1 m.1
    let uv := match driveCode s a with | some d => d * 65536 | none => nv.1
    let t := setCte s a { c with
      uv := uv, um := nm.1, notch := nm.2.1, vcm := vcmTaken s a (uv / 65536), mact := mactTaken s (nm.1 / 262144) }
    recordSats t a { out0 := v.2, out1 := m.2, notch := nv.2.2 || nm.2.2 }
  else setCte s a { c with uv := 0, um := 0, vcm := vcmTaken s a 0, mact := 0 }

/-- The settle criteria's count of law ticks with |e| ≤ SETTLE_LIM (R197). -/
def settleCount (s : State) (a : Nat) : State :=
  let c := cteOf s a
  let ok := cteState s a == stSettle &&
    (match c.err with | some e => decide (e.natAbs ≤ fld s F.CTE_SETTLE_SETTLE_LIM a) | none => false)
  setCte s a { c with settleRun := if ok then c.settleRun + 1 else 0 }

/-- The external set-point's sample, once per law tick of the actuator CTE_EXT_CTL names (R205). -/
def extSample (s : State) (a ain : Nat) : State :=
  let t := when (fld s F.CTE_EXT_CTL_ACT == a) (fun u => setFld u F.CTE_EXT_STAT_CODE 0 (ain % 4096)) s
  if cteState s a = stExt then
    setCte t a { cteOf t a with ext := ((((ain % 4096 : Nat) : Int) - 2048) * fld s F.CTE_EXT_CTL_SCALE) / 256 }
  else t

/-- The law boundary applies the writes that arrived before it (R192). -/
def applyWrites (s : State) (a : Nat) : State := setCte s a { cteOf s a with late := [] }

/-- The law tick's own observer update: the sample its slot begins with (R185, R188). -/
def tickSample (s : State) (a : Nat) : State :=
  let c := cteOf s a
  match c.held with
  | some x =>
    let t := cteSample s a x
    setCte t a { cteOf t a with held := none, nth := 0 }
  | none => setCte s a { c with nth := 0 }

/-- An actuator context's law boundary (R192): writes, transitions, active set, then the tick: observer, then law. -/
def actLawTick (s : State) (a ain : Nat) : State :=
  let t := selectSet (extSample (transitions (applyWrites s a) a) a ain) a
  settleCount (lawDrive (tickSample t a) a) a

/-! ### Events of the actuator states -/

/-- The settle criteria are met (R197): FOLLOW, and the pending SEEK, LOAD or RESUME completes OK. -/
def execSettleCriteriaMet (a : Nat) (s : State) : Result :=
  .next (if cteState s a = stSettle ∧ fld s F.CTE_SETTLE_SETTLE_CNT a ≤ (cteOf s a).settleRun ∧
      (svgOf s a).trkValid = true ∧ (svgOf s a).track = (cteOf s a).track then
    endCmd (endSeek (setCteState s a stFollow) a 0) a [.load, .resume] 0
  else s)

/-- OT_CLR consecutive clean samples lower the off-track flag (R198). -/
def execOffTrackClear (a : Nat) (s : State) : Result :=
  .next (if fldIn s a F.CTE_OT_OT_CLR a ≤ (cteOf s a).cleanRun ∧ (cteState s a = stFollow ∨ cteState s a = stExt) then
    setFlag s F.CTE_STAT_OT a false else s)

/-- A supervised state (R202, R203). -/
def supervised (s : State) (a : Nat) : Bool := decide (cteState s a ∈ [stAcquire, stSettle, stFollow, stExt])

/-- The residual test fails (R202): the off-track flag rises, FK_CTE_IMPLAUSIBLE is raised, and HOLD follows. -/
def execResidualFail (a : Nat) (s : State) : Result :=
  .next (if supervised s a ∧ max 1 (fldIn s a F.CTE_RES_CNT_CNT a) ≤ fld s F.CTE_STAT_RES_RUN a ∧ (cteOf s a).hold = none then
    let t := raiseOt s a
    sendFault (setCte t a { cteOf t a with hold := some 1 }) .cte (584 + a) FK.cteImplausible 5 0
  else s)

/-- COAST_MAX consecutive invalid samples (R203): HOLD follows with cause SVG_LOST. -/
def execCoastMaxReached (a : Nat) (s : State) : Result :=
  .next (if supervised s a ∧ max 1 (fld s F.SVG_CTL_COAST_MAX a) ≤ (cteOf s a).coastRun ∧ (cteOf s a).hold = none then
    let t := raiseOt s a
    sendFault (setCte t a { cteOf t a with hold := some 2 }) .svg (552 + a) FK.svgLost 5 0
  else s)

/-- A condition of Table 6.6 is met in the present state; its transition takes place at the next law boundary (R193). -/
def noteDue (s : State) (a : Nat) (d : CteDue) : State :=
  if dueStands s a d then setCte s a { cteOf s a with due := some d } else s

/-- The stripe is found in LOADING: SUM has been high enough on 8 consecutive samples (R193). -/
def execLoadStripeFound (a : Nat) (s : State) : Result :=
  .next (if 8 ≤ (cteOf s a).sumRun then noteDue s a .stripe else s)

/-- LOAD_TMO elapses in LOADING (R193, R206). -/
def execLoadTimeout (a : Nat) (s : State) : Result := .next (noteDue s a .loadTmo)

/-- ACQ_TMO elapses in REACQ, or with TRK_VALID = 0 in ACQUIRE (R193). -/
def execAcquireTimeout (a : Nat) (s : State) : Result := .next (noteDue s a .acqTmo)

/-- SETTLE_TMO has passed in SETTLE (R193). -/
def execSettleTimeout (a : Nat) (s : State) : Result := .next (noteDue s a .settleTmo)

/-- HOLD_TMO elapses in HOLD (R204). -/
def execHoldTimeout (a : Nat) (s : State) : Result := .next (noteDue s a .holdTmo)

/-- UNLOAD_T ends: the hold drive follows (R207). -/
def execUnloadDriveEnd (a : Nat) (s : State) : Result :=
  .next (if cteState s a = stUnloading ∧ (cteOf s a).phase = 1 then setCte s a { cteOf s a with phase := 2 } else s)

/-- PARKED entered: zero drive; a PARK command completes OK (R207, R217). -/
def enterParked (s : State) (a : Nat) : State :=
  let t := setCte s a { cteOf s a with active := 8, uv := 0, um := 0, vcm := 0, mact := 0, rv := 0, phase := 0, unload := false }
  endCmd (setCteState t a stParked) a [.park] 0

/-- PHOLD_T ends: the actuator is PARKED (R207). -/
def parkHoldEnd (s : State) (a : Nat) : State :=
  if cteState s a = stUnloading ∧ (cteOf s a).phase = 2 then enterParked s a else s

/-- Loss of the die-to-die link: every actuator is PARKED at once, the power die retracting it (R21, R193); what was pending
on it completes SEEK_ABORTED, as under an unload. -/
def linkParked (s : State) : State :=
  each (List.range s.part.acts) (fun a t =>
    if cteState t a = stParked then t
    else enterParked (abortRequests (endCmd (endSeek t a 0x61) a [.load, .resume] 0x61) a) a) s

/-- Every present actuator is PARKED. -/
def allParked (s : State) : Bool := (List.range s.part.acts).all (fun a => cteState s a == stParked)

/-! ### Commands -/

/-- CTE_SEEK_a written (R216): TRACK and OFFSET are set; with GO a seek is issued, or completes SEEK_BUSY while one runs, which
goes on unchanged. -/
def execCteSeek (a : Nat) (value : Word) (s : State) : Result :=
  let t := setFlds s a [(F.CTE_SEEK_TRACK, getBits value 0 21), (F.CTE_SEEK_OFFSET, getBits value 21 16)]
  .next (if a < s.part.acts then
    if !bit value 37 then t
    else if flag s F.CTE_SEEK_BUSY a then raiseSource (setFld t F.CTE_SEEK_STATUS a 0x65) (592 + a)
    else
      let t := setFlag t F.CTE_SEEK_BUSY a true
      setCte t a { cteOf t a with fwReq := some {
        who := .firmware, track := getBits value 0 21, offset := signed 16 (getBits value 21 16) } }
  else s)

/-- A command other than PARK written to CTE_CMD_a (R217): taken at a law boundary, or OVERRUN while busy. -/
def issueCmd (s : State) (a : Nat) (c : CteCmd) : State :=
  if a < s.part.acts then
    if flag s F.CTE_CMD_BUSY a then setFlag s F.CTE_CMD_OVERRUN a true
    else setFlag (setCte s a { cteOf s a with cmdReq := some c }) F.CTE_CMD_BUSY a true
  else s

/-- CTE_CMD_a written with LOAD. -/
def execLoad (a : Nat) (s : State) : Result := .next (issueCmd s a .load)

/-- CTE_CMD_a written with RESUME. -/
def execResume (a : Nat) (s : State) : Result := .next (issueCmd s a .resume)

/-- CTE_CMD_a written with PARK (R217): always taken; a pending LOAD or RESUME completes SEEK_ABORTED; it completes at
once when the actuator is PARKED already. -/
def execPark (a : Nat) (s : State) : Result :=
  .next (if a < s.part.acts then
    let t := endCmd s a [.load, .resume] 0x61
    let t := if (cteOf t a).cmdReq.isSome then cmdDone (setCte t a { cteOf t a with cmdReq := none }) a 0x61 else t
    if cteState s a = stParked then cmdDone t a 0
    else
      let t := setCte t a { cteOf t a with cmd := some .park, unload := decide (cteState s a ≠ stUnloading) }
      setFlag t F.CTE_CMD_BUSY a true
  else s)

/-- A write of CTE_EXT_CTL (R205, R224): an enable outside MANUFACTURE and RETURN is ignored and sets REFUSED. -/
def execExtEnable (value : Word) (s : State) : Result :=
  let ok := decide (fld s F.SEC_LC_STATE ∈ [1, 3])
  let t := if bit value 19 then setFlag s F.CTE_EXT_CTL_REFUSED 0 false else s
  .next (if bit value 0 && !ok then setFlag t F.CTE_EXT_CTL_REFUSED 0 true
  else setFlds t 0 [(F.CTE_EXT_CTL_EN, getBits value 0 1), (F.CTE_EXT_CTL_ACT, getBits value 1 2),
    (F.CTE_EXT_CTL_SCALE, getBits value 3 16)])

/-- A seek from a media operation reaches CTE's media port (R286). -/
def mediaSeek (s : State) (o : OpRef) (a track : Nat) (offset : Int) : State :=
  setCte s a { cteOf s a with mediaReq := (cteOf s a).mediaReq ++ [{ who := .media o, track := track, offset := offset }] }

/-- A seek whose Shuttle has detached carries on and its status is discarded (R287). -/
def detachSeek (s : State) (o : OpRef) (a : Nat) : State :=
  let c := cteOf s a
  let f (q : SeekReq) : SeekReq := if q.who = .media o then { q with who := .media { sh := 24, tag := 0 } } else q
  setCte s a { c with seek := c.seek.map f, mediaReq := c.mediaReq.map f }

/-- The head switch is done (R193, R200): the context reacquires at the next law boundary. -/
def cteHeadSwitch (s : State) (a : Nat) : State := setCte s a { cteOf s a with switched := true }

/-- SPN asks every loaded actuator to unload (R209, R235). -/
def requestUnload (s : State) : State :=
  each (List.range s.part.acts) (fun a t =>
    if cteState t a = stParked ∨ cteState t a = stUnloading then t
    else setCte t a { cteOf t a with unload := true }) s

end Sys2Proof.Machine
end

