-- ==== Sys2Proof/Machine/Spn.lean ====
section
/-!
DEFINITION. The spindle: commands (R240 to R242), set speed (R228), the crossing observer (R229 to R233), loss of
synchronism (R234, R235), Table 7.1 (R236 to R239), speed and phase lock in CTE context 4 (R243 to R245), braking (R246)
and the hold-up window (R257, R258); with the law boundaries and the park end, which reach it.
-/

namespace Sys2Proof.Machine

/-! ### States -/

/-- SPN's state, in SPN_STAT.STATE's encoding (R237). -/
def spnState (s : State) : Nat := fld s F.SPN_STAT_STATE

/-- OFF. -/
abbrev spOff : Nat := 0
/-- SENSE. -/
abbrev spSense : Nat := 1
/-- BRAKE_REV. -/
abbrev spBrakeRev : Nat := 2
/-- BRAKE_SETTLE. -/
abbrev spBrakeSettle : Nat := 3
/-- ALIGN. -/
abbrev spAlign : Nat := 4
/-- RAMP. -/
abbrev spRamp : Nat := 5
/-- CATCH. -/
abbrev spCatch : Nat := 6
/-- ACCEL. -/
abbrev spAccel : Nat := 7
/-- RUN. -/
abbrev spRun : Nat := 8
/-- UNLOAD_WAIT. -/
abbrev spUnloadWait : Nat := 9
/-- BRAKE. -/
abbrev spBrake : Nat := 10
/-- RECTIFY. -/
abbrev spRectify : Nat := 11
/-- FAULT. -/
abbrev spFault : Nat := 12

/-- The states in which SPN commutates (R228). -/
def commutates (s : State) : Bool := decide (spnState s ∈ [spRamp, spCatch, spAccel, spRun, spRectify])

/-- AT_SPEED set or cleared, with its readiness bit and source 610 (R239, R607). -/
def setAtSpeed (s : State) (b : Bool) : State :=
  if flag s F.SPN_STAT_AT_SPEED = b then s
  else raiseSource (setReady (setFlag s F.SPN_STAT_AT_SPEED 0 b) F.CKR_READY_SPINDLE 0 b) 610

/-! ### Hold-up -/

/-- π × 10^30, rounded down. -/
def piE30 : Nat := 3141592653589793238462643383279

/-- The hold-up window in ms and B_MAX in 8 MiB units (R257, R258): DRAG is scaled by the cube of the speed ratio, the
pass is exact but for π. Zero where the rotor stands below ω_min. -/
def holdUp (s : State) : Nat × Nat :=
  let ke : Rat := (fld s F.SPN_HU_MEAS_KE : Rat) / 1000000
  let j : Rat := (fld s F.SPN_HU_MEAS_J : Rat) / 1000000000
  let drag : Rat := (fld s F.SPN_HU_MEAS_DRAG : Rat) / 1000
  let load : Rat := fld s F.PWS_HU_LOAD_LOAD
  let set : Rat := s.spn.set
  let meas : Rat := s.spn.huSet
  let scaled : Rat := if s.spn.huSet = 0 then drag else drag * (set / meas) * (set / meas) * (set / meas)
  let w0 : Rat := set * piE30 / (3000 * 10 ^ 30)
  let wmin : Rat := (max 4 (load / 2550)) / ke
  let tms : Rat := 1000 * j * (w0 * w0 - wmin * wmin) / 2 / (scaled + load / 850)
  if ke ≤ 0 ∨ tms ≤ 0 then (0, 0)
  else
    let rate := fld s F.FLT_HU_STAT_FLUSH_RATE
    let noFlush := !s.part.hasFlt || decide (fltState s = .retired)
    let need (u : Nat) : Rat :=
      if noFlush then 30 else max 30 (12 / 10 + (u * 8388608 : Rat) / (rate * 1000))
    let fits (u : Nat) : Bool := decide ((noFlush = true ∨ u = 0 ∨ rate ≠ 0) ∧ need u * 3 / 2 ≤ tms)
    (min 65535 tms.floor.toNat, (((List.range 33).filter fits).getLast?).getD 0)

/-- SPN_HU_STAT recomputed (R258), once a measurement has been accepted; the protected cache follows it, and a B_MAX that
falls below what is reserved raises FK_GLY_BUDGET_CUT (R358). -/
def recomputeHoldUp (s : State) : State :=
  if flag s F.SPN_HU_MEAS_VALID then
    let h := holdUp s
    let t := glySync (setFlds s 0 [(F.SPN_HU_STAT_T_HU, h.1), (F.SPN_HU_STAT_B_MAX, h.2), (F.SPN_HU_STAT_VALID, 1)])
    when (budgetCut t && !budgetCut s) (fun u => sendFault u .gly 192 FK.glyBudgetCut 4 0) t
  else s

/-! ### Entering states -/

/-- The accepted set speed takes effect (R228, R258). -/
def takeSetSpeed (s : State) : State :=
  recomputeHoldUp { s with spn := { s.spn with set := fld s F.SPN_SPEED_SET, setWaits := false } }

/-- SPN's state and bridge changed. Leaving RUN drops AT_SPEED (R239), idles context 4 and abandons the spindle's
calibrations (R615); a set speed that waits takes effect where no commutation boundary will come (R228). -/
def spnGo (s : State) (st : Nat) (b : Bridge) : State :=
  let t := if spnState s = spRun ∧ st ≠ spRun then
    setFlag (setAtSpeed (calDrop s spindleItem) false) F.SPN_STAT_CLAMPED 0 false
  else s
  let was := commutates t
  let t := setFld { t with spn := { t.spn with bridge := b } } F.SPN_STAT_STATE 0 st
  let t := if commutates t && !was then { t with spn := { t.spn with
    win := some (rd t .SPN_WIN_CTL 0), valid := 0, wide := 0, last := 0 } } else t
  if t.spn.setWaits && !commutates t then takeSetSpeed t else t

/-- A command completes (R240, Table 7.2). -/
def spnDone (s : State) (status : Nat) : State :=
  raiseSource (setFlds s 0 [(F.SPN_CMD_STATUS, status), (F.SPN_CMD_BUSY, b2n (s.spn.start || s.spn.stop))]) 609

/-- A pending START completes. -/
def startDone (s : State) (status : Nat) : State :=
  if s.spn.start then spnDone { s with spn := { s.spn with start := false } } status else s

/-- A pending STOP completes. -/
def stopDone (s : State) (status : Nat) : State :=
  if s.spn.stop then spnDone { s with spn := { s.spn with stop := false } } status else s

/-- The unload request to CTE is raised (R193, R235, R237). -/
def raiseUnload (s : State) : State := requestUnload (setFlag s F.SPN_STAT_UNLOAD_REQ 0 true)

/-- FAULT entered (Table 7.1): the bridge floats, a pending START completes START_FAIL and a pending STOP ABORTED, the
unload request stays raised, and FK_SPN_START is raised at severity 6. -/
def enterFault (s : State) (cause : Nat) : State :=
  let t := setFld (spnGo s spFault .highZ) F.SPN_STAT_FAULT_CAUSE 0 cause
  let t := stopDone (startDone t 0x73) 0x61
  sendFault (raiseUnload t) .spn 608 FK.spnStart 6 0

/-- SENSE entered (R236): a start under the start rule begins its align attempts anew (R238). -/
def enterSense (s : State) : State := spnGo s spSense .highZ

/-- BRAKE entered (R246): by MODE, or by short braking where only that is allowed. The spec gives MODE 3 no braking:
which of the three it acts as is a free value. -/
def enterBrake (s : State) (shortOnly : Bool) : State :=
  let m := fld s F.SPN_BRAKE_CTL_MODE
  let m := if m = 3 then (Config.freeWord s.free).toNat % 3 else m
  let b : Bridge := if shortOnly || safeState s || m == 1 then .shortBrake
    else if m = 2 then .highZ
    else if flag s F.PWS_CLAMP_REGEN_EN then .regen else .shortBrake
  setFlag (spnGo { s with free := s.free + 1 } spBrake b) F.SPN_STAT_UNLOAD_REQ 0 false

/-- What follows once every present actuator is PARKED (Table 7.1). Under a power loss the spindle is braked only at the
sequence's step 10 (R38). -/
def spnParked (s : State) : State :=
  if !allParked s then s
  else if spnState s = spUnloadWait then
    if !s.spn.byLos || s.spn.stopSeen then enterBrake s false
    else if fld s F.SPN_STAT_LOS_RUN < 3 then
      setFld (enterSense (setFlag s F.SPN_STAT_UNLOAD_REQ 0 false)) F.SPN_STAT_ATTEMPT 0 0
    else enterFault s 3
  else if spnState s = spRectify ∧ s.spn.vmCause = true ∧ powerLost s = false then enterBrake s true
  else s

/-- UNLOAD_WAIT entered with the unload request; it passes on at once when every actuator is PARKED already. -/
def enterUnloadWait (s : State) (byLos : Bool) (b : Bridge) : State :=
  let t := spnGo s spUnloadWait b
  spnParked (raiseUnload { t with spn := { t.spn with byLos := byLos, stopSeen := t.spn.stop } })

/-- RECTIFY entered by the power-loss broadcast or by VM_LOW (Table 7.1, R256). -/
def enterRectify (s : State) (byVm : Bool) : State :=
  if decide (spnState s ∈ [spCatch, spAccel, spRun, spUnloadWait, spBrake]) then
    let t := spnGo s spRectify .rectify
    spnParked (raiseUnload { t with spn := { t.spn with vmCause := byVm } })
  else s

/-- RUN entered (R243): context 4 is engaged bumplessly, with its observer and notch states zeroed and φ_ref set to φ̂. -/
def engage4 (s : State) : State :=
  let t := setCte s 4 { cteOf s 4 with xh := [], notch := [], uv := 0, um := 0 }
  let p := s.spn
  let phi := (p.cycle * 65536 + fld s F.SPN_OBS_THETA) % 2 ^ 18
  { t with spn := { p with phiRef := phi * (3 * 10 ^ 9 * 2 ^ 20 * 10 ^ 6) / 2 ^ 18 } }

/-- RUN entered. -/
def enterRun (s : State) : State :=
  let t := engage4 (spnGo s spRun .drive)
  { t with spn := { t.spn with reached := true, good := 0, bad := 0, revN := 0, revT := 0, refDev := 0 } }

/-! ### Starting and stopping -/

/-- START judged and accepted in OFF (R240): the first refusal that applies, else SENSE. -/
def tryStart (s : State) : State :=
  let t := { s with spn := { s.spn with start := false } }
  if flag s F.PWS_STAT_RESTART_BLOCK then spnDone t 0x71
  else if !flag s F.PWS_STAT_VM_OK then spnDone t 0x70
  else
    let t := { t with spn := { t.spn with start := true, reached := false, aligned := false, catchLos := false } }
    setFlds (enterSense t) 0 [(F.SPN_STAT_ATTEMPT, 0), (F.SPN_CMD_BUSY, 1)]

/-- SPN_CMD written with START (R240). -/
def execStart (s : State) : Result :=
  .next (if flag s F.SPN_CMD_BUSY then setFlag s F.SPN_CMD_OVERRUN 0 true
  else if spnState s = spFault then spnDone s 0x69
  else if flag s F.PWS_STAT_RESTART_BLOCK then spnDone s 0x71
  else if !flag s F.PWS_STAT_VM_OK then spnDone s 0x70
  else if spnState s = spOff then tryStart s
  else if flag s F.SPN_STAT_AT_SPEED then spnDone s 0
  else setFlag { s with spn := { s.spn with start := true } } F.SPN_CMD_BUSY 0 true)

/-- Dirty protected data lies outside the flash tier (R241, R610). -/
def dirtyOut (s : State) : Bool := decide (fld s F.CKR_DIRTY_TIER_N < fld s F.GLY_BUDGET_STAT_DIRTY)

/-- STOP acts in the present state (Table 7.1, R241). -/
def stopActs (s : State) : State :=
  if decide (spnState s ∈ [spSense, spBrakeRev, spBrakeSettle, spAlign, spRamp]) then enterBrake s false
  else if spnState s = spCatch ∨ spnState s = spAccel then enterUnloadWait s false .highZ
  else if spnState s = spRun ∧ dirtyOut s = false then enterUnloadWait s false .drive
  else if spnState s = spUnloadWait then { s with spn := { s.spn with stopSeen := true } }
  else s

/-- SPN_CMD written with STOP (R240, R241): accepted at any time; it completes a pending START with ABORTED, and at once
in OFF and in FAULT. -/
def execStop (s : State) : Result :=
  let t := startDone s 0x61
  .next (if spnState s = spOff then spnDone t 0
  else if spnState s = spFault then spnDone t 0x69
  else stopActs (setFlag { t with spn := { t.spn with stop := true } } F.SPN_CMD_BUSY 0 true))

/-- SPN_CMD written with CLEAR (R240): FAULT is left for OFF, or the command is refused. -/
def execClear (s : State) : Result :=
  .next (if flag s F.SPN_CMD_BUSY then setFlag s F.SPN_CMD_OVERRUN 0 true
  else if spnState s ≠ spFault then spnDone s 0x69
  else if flag s F.PWS_STAT_RESTART_BLOCK then spnDone s 0x71
  else spnDone (setFlag (spnGo s spOff .highZ) F.SPN_STAT_UNLOAD_REQ 0 false) 0)

/-- The present speed differs from the set speed in effect by more than 0.5% (R228). -/
def offSpeed (s : State) : Bool :=
  let w := fld s F.SPN_OBS_SPEED
  decide (s.spn.set < 200 * (max w s.spn.set - min w s.spn.set))

/-- A set speed that waits takes effect at a commutation boundary (R228); a RUN state returns to ACCEL. -/
def boundarySpeed (s : State) : State :=
  if s.spn.setWaits then
    let t := takeSetSpeed s
    if spnState t = spRun ∧ offSpeed t = true then spnGo t spAccel .drive else t
  else s

/-- A write of SPN_SPEED (R228). -/
def execSetSpeedWrite (value : Word) (s : State) : Result :=
  let v := getBits value 0 21
  let t := if bit value 21 then setFlag s F.SPN_SPEED_RANGE 0 false else s
  let t := if bit value 22 then setFlag t F.SPN_SPEED_REFUSED 0 false else t
  let bad := decide (v < 360000 ∨ 1500000 < v)
  let held := decide (spnState s ∈ [spCatch, spAccel, spRun, spUnloadWait]) && !allParked s
  let t := if bad then setFlag t F.SPN_SPEED_RANGE 0 true else t
  let t := if held then setFlag t F.SPN_SPEED_REFUSED 0 true else t
  .next (if bad || held then t
  else
    let t := setFld t F.SPN_SPEED_SET 0 v
    if commutates s then { t with spn := { t.spn with setWaits := true } } else takeSetSpeed t)

/-! ### The observer -/

/-- The crossing period times the speed: P̂ = 10^11 / speed, in 2.5 ns units and 0.01 rpm. -/
def periodSpeed : Nat := 10 ^ 11

/-- A rounding the spec leaves open: the number below, or the one above by a free bit. -/
def roundFree (s : State) (k : Nat) (num : Int) (den : Nat) : Int :=
  num / den + (if num % den = 0 then 0 else b2n (Config.freeBit (s.free + k)))

/-- The observer takes a crossing event dt after the previous one, with correction num / (10^11 · 2^shift) (R233). -/
def observeCrossing (s : State) (dt : Nat) (num : Int) : State :=
  let win := s.spn.win.getD (rd s .SPN_WIN_CTL 0)
  let kp := getBits win F.SPN_WIN_CTL_OBS_KP.lo 4
  let ki := getBits win F.SPN_WIN_CTL_OBS_KI.lo 4
  let w := fld s F.SPN_OBS_SPEED
  let th := (s.spn.cycle * 65536 + s.spn.theta : Nat) +
    roundFree s 0 (65536 * ((dt * w : Nat) * 2 ^ kp + num)) (6 * periodSpeed * 2 ^ kp)
  let w' := clampInt 0 (2 ^ 24 - 1) ((w : Int) + roundFree s 1 (w * num) (periodSpeed * 2 ^ ki))
  let th := (th % 2 ^ 18).toNat
  let t := { s with
    free := s.free + 2
    spn := { s.spn with theta := th % 65536, cycle := th / 65536, frames := 0 } }
  setFlds t 0 [(F.SPN_OBS_THETA, th % 65536), (F.SPN_OBS_SPEED, w'.toNat)]

/-- The observer advances one sixth of a cycle at a predicted crossing, without correction (R231, R233). -/
def advanceCrossing (s : State) : State :=
  let th := (s.spn.cycle * 65536 + s.spn.theta + (roundFree s 0 65536 6).toNat) % 2 ^ 18
  let t := { s with free := s.free + 1, spn := { s.spn with theta := th % 65536, cycle := th / 65536, frames := 0 } }
  setFld t F.SPN_OBS_THETA 0 (th % 65536)

/-- The observer seeded from a crossing (Table 7.1): its angle, and the speed of the interval before it. -/
def seedObserver (s : State) (dt sector : Nat) : State :=
  let th := (roundFree s 0 (65536 * (sector % 6)) 6).toNat
  let w := (clampInt 0 (2 ^ 24 - 1) (if dt = 0 then 0 else roundFree s 1 periodSpeed dt)).toNat
  let t := { s with free := s.free + 2, spn := { s.spn with theta := th, frames := 0 } }
  setFlds t 0 [(F.SPN_OBS_THETA, th), (F.SPN_OBS_SPEED, w), (F.SPN_OBS_BACKWARD, 0)]

/-- A commutation boundary (R229): new drive parameters, calibration results and the set speed take effect. -/
def commutation (s : State) : State :=
  let t := { s with spn := { s.spn with win := some (rd s .SPN_WIN_CTL 0) } }
  let hu := t.cal.pending.any (fun x => x.item == 46)
  let t := calBoundary t spindleItem
  let t := if hu then recomputeHoldUp { t with spn := { t.spn with huSet := t.spn.set } } else t
  boundarySpeed t

/-- A revolution of 24 crossings is judged against the reference speed (R239). -/
def revolution (s : State) (dt : Nat) : State :=
  let p := s.spn
  if p.revN + 1 < 24 then { s with spn := { p with revN := p.revN + 1, revT := p.revT + dt } }
  else
    let total := p.revT + dt
    let unit : Int := 2 ^ 20 * 10 ^ 6
    let ref : Int := p.set * (unit + p.refDev) * total
    let dev := ((24 * 10 ^ 11 : Int) * unit - ref).natAbs
    { s with spn := { p with
      revN := 0, revT := 0
      good := if dev * 10000 ≤ ref.natAbs then p.good + 1 else 0
      bad := if ref.natAbs < dev * 2000 then p.bad + 1 else 0 } }

/-! ### Loss of synchronism -/

/-- SPN declares a LOS (R234, R235). -/
def declareLos (s : State) : State :=
  let t := sendFault (bump s F.SPN_CNT_LOS) .spn 608 FK.spnLos 5 0
  let t := bump { t with spn := { t.spn with wide := 0 } } F.SPN_STAT_LOS_RUN
  if spnState s = spRectify then { t with spn := { t.spn with bridge := .passive } }
  else if 4 * t.spn.set ≤ 5 * fld s F.SPN_OBS_SPEED ∧ fld t F.SPN_STAT_LOS_RUN < 3 then
    let t := spnGo t spCatch .highZ
    { t with spn := { t.spn with catchLos := true, valid := 0, wide := 0, last := 0 } }
  else enterUnloadWait t true .highZ

/-! ### Crossings -/

/-- A measured crossing lies within a quarter of the open-loop crossing period of the ramp's prediction (Table 7.1): the
ramp turns from the align angle at RAMP_ACC, so crossing n comes at the root of its angle. -/
def rampValid (s : State) (time : Nat) : Bool :=
  let acc := fld s F.SPN_START_CTL_RAMP_ACC
  let odd := fld s F.SPN_STAT_ATTEMPT % 2
  -- half crossings turned through, in units of 1 / (8 · 10^16)
  let turned := 2 * acc * time * time
  let n := (turned / (8 * 10 ^ 16) + odd + 1) / 2
  let half := 2 * n - odd
  if acc = 0 ∨ half = 0 then false
  else
    let at_ := isqrt (half * 4 * 10 ^ 16 / acc)
    decide (4 * (max at_ time - min at_ time) * (acc * at_) ≤ 4 * 10 ^ 16)

/-- The driven states of a crossing: CATCH counts valid crossings, ACCEL ends near the set speed, a regenerative brake
ends at REGEN_END, and RUN averages revolutions. -/
def crossingActs (s : State) (dt : Nat) : State :=
  if spnState s = spAccel ∧ offSpeed s = false then enterRun s
  else if spnState s = spRun then revolution s dt
  else if spnState s = spBrake ∧ s.spn.bridge = .regen ∧
      fld s F.SPN_OBS_SPEED * 100 ≤ fld s F.SPN_BRAKE_CTL_REGEN_END * s.spn.set then
    { s with spn := { s.spn with bridge := .shortBrake } }
  else s

/-- The crossings needed to close the loop. -/
def validN (s : State) : Nat := max 1 (fld s F.SPN_START_CTL_VALID_N)

/-- A measured crossing (R233, R234, Table 7.1). -/
def execBemfCrossing (dt sector : Nat) (forward : Bool) (s : State) : Result :=
  let p := s.spn
  .next (if spnState s = spRamp then
    let time := p.rampT + dt
    let v := if rampValid s time && forward then p.valid + 1 else 0
    let t := { s with spn := { p with rampT := time, valid := v } }
    let t := commutation t
    if validN s ≤ v then spnGo (seedObserver t dt sector) spAccel .drive else t
  else if spnState s = spCatch ∨ spnState s = spAccel ∨ spnState s = spRun ∨ p.bridge = .rectify ∨ p.bridge = .drive
      ∨ p.bridge = .regen then
    let num : Int := periodSpeed - (dt * fld s F.SPN_OBS_SPEED : Nat)
    let out := decide (periodSpeed < 4 * num.natAbs)
    let judged := decide (spnState s ∈ [spCatch, spAccel, spRun, spRectify])
    let near := decide (p.last ≠ 0 ∧ 4 * (max dt p.last - min dt p.last) ≤ p.last)
    let v := if near && forward then p.valid + 1 else 0
    let t := observeCrossing s dt num
    let t := { t with spn := { t.spn with
      last := dt, valid := if spnState s = spCatch then v else 0, wide := if out && judged then p.wide + 1 else 0 } }
    let t := commutation t
    if 3 ≤ t.spn.wide then declareLos t
    else if spnState s = spCatch ∧ validN s ≤ v then
      bump (spnGo (seedObserver t dt sector) spAccel .drive) F.SPN_CNT_CATCHES
    else crossingActs t dt
  else s)

/-- R230's clamp applies: in RUN, unless a calibration item of the spindle runs (R231). -/
def clampApplies (s : State) : Bool :=
  decide (spnState s = spRun) && !s.cal.running.any (fun r => spindleItem r.item)

/-- A crossing whose window is not opened (R231): the observer advances without correction. Where the clamp applies, every
window is open long enough. -/
def execPredictedCrossing (s : State) : Result :=
  let w := fld s F.SPN_OBS_SPEED
  .next (if decide (s.spn.bridge ∈ [.ramp, .drive, .rectify, .regen]) && w != 0 && !clampApplies s then
    crossingActs (commutation (bump (advanceCrossing s) F.SPN_CNT_SKIPPED)) (periodSpeed / w)
  else s)

/-- An open window reaches 1.5 P̂ (R232, R234). -/
def execCrossingWindowTimeout (s : State) : Result :=
  .next (if decide (spnState s ∈ [spCatch, spAccel, spRun]) || decide (spnState s = spRectify ∧ s.spn.bridge = .rectify)
  then declareLos s else s)

/-! ### Timed transitions of Table 7.1 -/

/-- The 24 ms listen of SENSE ends (R236, Table 7.1). -/
def execSenseEnd (speed : Nat) (backward : Bool) (s : State) : Result :=
  .next (if spnState s = spSense then
    let t := setFlds s 0 [(F.SPN_OBS_SPEED, min speed (2 ^ 24 - 1)), (F.SPN_OBS_BACKWARD, b2n backward),
      (F.SPN_STAT_REVERSE, 0)]
    if !backward && decide (4 * s.spn.set ≤ 100 * speed) then
      let t := spnGo t spCatch .highZ
      { t with spn := { t.spn with catchLos := false } }
    else if backward && decide (s.spn.set ≤ 100 * speed) then
      setFlag (spnGo t spBrakeRev .shortBrake) F.SPN_STAT_REVERSE 0 true
    else spnGo t spBrakeSettle .shortBrake
  else s)

/-- 200 ms of reverse braking end. -/
def execBrakeRevEnd (s : State) : Result :=
  .next (if spnState s = spBrakeRev then spnGo s spSense .highZ else s)

/-- 5 s since START have elapsed in BRAKE_REV. -/
def execBrakeRevTimeout (s : State) : Result :=
  .next (if spnState s = spBrakeRev then enterFault s 4 else s)

/-- 200 ms of settle braking end. -/
def execBrakeSettleEnd (s : State) : Result :=
  .next (if spnState s = spBrakeSettle then spnGo s spAlign .align else s)

/-- ALIGN_T ends (R238). -/
def execAlignEnd (s : State) : Result :=
  .next (if spnState s = spAlign then
    let t := spnGo s spRamp .ramp
    { t with spn := { t.spn with rampT := 0 } }
  else s)

/-- 800 ms of RAMP without closing the loop. -/
def execRampTimeout (s : State) : Result :=
  .next (if spnState s = spRamp then
    let k := fld s F.SPN_STAT_ATTEMPT
    if k < 5 then
      bump (setFld (spnGo s spBrakeSettle .shortBrake) F.SPN_STAT_ATTEMPT 0 (k + 1)) F.SPN_CNT_START_RETRIES
    else enterFault s 1
  else s)

/-- 50 ms in CATCH without valid crossings: back to align from SENSE, a further LOS after a LOS. -/
def execCatchTimeout (s : State) : Result :=
  .next (if spnState s = spCatch then
    if s.spn.catchLos then
      let t := sendFault (bump s F.SPN_CNT_LOS) .spn 608 FK.spnLos 5 0
      enterUnloadWait (bump t F.SPN_STAT_LOS_RUN) true .highZ
    else spnGo s spBrakeSettle .shortBrake
  else s)

/-- SPINUP_TMO since START passes before RUN. -/
def execSpinupTimeout (s : State) : Result :=
  .next (if decide (spSense ≤ spnState s ∧ spnState s ≤ spAccel) && !s.spn.reached then enterFault s 2 else s)

/-- No back-EMF for 200 ms: OFF; a STOP completes OK, and a START that waits is taken. -/
def execBrakeEnd (s : State) : Result :=
  .next (if spnState s = spBrake then
    let t := stopDone (spnGo s spOff .highZ) 0
    if t.spn.start then tryStart t else t
  else s)

/-! ### Speed and phase lock -/

/-- The count of electrical cycles is aligned to the angular index of the lowest actuator that knows it (R244). -/
def alignIndex (s : State) : State :=
  if s.spn.aligned || !flag s F.SPN_STAT_AT_SPEED then s
  else
    match (List.range s.part.acts).find? (fun a => (svgOf s a).angValid) with
    | none => s
    | some a =>
      let g := svgOf s a
      let r := revCycles s g.track
      if r = 0 then s
      else
        let want := g.angle * 2 ^ 18 / r
        let off (k : Nat) : Nat :=
          let d := (k * 65536 + s.spn.theta + 2 ^ 18 - want % 2 ^ 18) % 2 ^ 18
          min d (2 ^ 18 - d)
        let best := (List.range 4).foldl (fun b k => if off k < off b then k else b) 0
        { s with spn := { s.spn with cycle := best, aligned := true } }

/-- AT_SPEED rises after four good revolutions, or falls after two bad ones (R239). -/
def execAtSpeedChange (s : State) : Result :=
  .next (if spnState s = spRun ∧ flag s F.SPN_STAT_AT_SPEED = false ∧ 4 ≤ s.spn.good then
    alignIndex (startDone (setFld (setAtSpeed s true) F.SPN_STAT_LOS_RUN 0 0) 0)
  else if spnState s = spRun ∧ flag s F.SPN_STAT_AT_SPEED = true ∧ 2 ≤ s.spn.bad then
    setAtSpeed (calDrop s (fun n => n == 46)) false
  else s)

/-- A difference of positions wrapped to half a revolution, 2^−16 revolution. -/
def wrap16 (d : Int) : Int := (d + 32768) % 65536 - 32768

/-- φ_ref in 2^−16 revolution. -/
def phiRef16 (s : State) : Int := s.spn.phiRef * 65536 / (3 * 10 ^ 9 * 2 ^ 20 * 10 ^ 6)

/-- φ̂ in 2^−16 revolution (R244). -/
def phiHat16 (s : State) : Int := ((s.spn.cycle * 65536 + fld s F.SPN_OBS_THETA) / 4 : Nat)

/-- SPN_STAT.SYNC changed; a change raises source 611. -/
def setSync (s : State) (v : Nat) : State :=
  if fld s F.SPN_STAT_SYNC = v then s else raiseSource (setFld s F.SPN_STAT_SYNC 0 v) 611

/-- A write of SPN_SYNC_CTL (R245, R264): EN enters FREE, or OFF. -/
def spnSyncWrite (s : State) (value : Word) : State :=
  let en := flag s F.SPN_SYNC_CTL_EN
  let t := setFlds s 0 [(F.SPN_SYNC_CTL_EN, getBits value 0 1), (F.SPN_SYNC_CTL_POL, getBits value 1 1),
    (F.SPN_SYNC_CTL_OFS, getBits value 2 16), (F.SPN_SYNC_CTL_PULL_PPM, min 1000 (getBits value 18 10))]
  if bit value 0 then
    if en then t else setSync { t with spn := { t.spn with edge := false, edgeBad := 0 } } 1
  else setSync { t with spn := { t.spn with edge := false, refDev := 0 } } 0

/-- An SPSYNC edge (R245). -/
def execSpsyncEdge (rising : Bool) (dt : Nat) (s : State) : Result :=
  let rev := 24 * 10 ^ 11
  .next (if flag s F.SPN_SYNC_CTL_EN && (rising != flag s F.SPN_SYNC_CTL_POL) then
    -- a set-speed revolution is rev / set
    if s.spn.edge ∧ rev < 100 * (max (dt * s.spn.set) rev - min (dt * s.spn.set) rev) then bump s F.SPN_SYNC_STAT_REJECTS
    else
      let ofs : Int := fld s F.SPN_SYNC_CTL_OFS
      let lim : Int := fld s F.SPN_SYNC_CTL_PULL_PPM * 2 ^ 20
      let dev := clampInt (-lim) lim (wrap16 (ofs - phiRef16 s) * 10 ^ 6)
      let perr := wrap16 (ofs - phiHat16 s)
      let n := if perr.natAbs ≤ 91 then min 255 (fld s F.SPN_SYNC_STAT_GOOD + 1) else 0
      let far := if 182 < perr.natAbs then s.spn.edgeBad + 1 else 0
      let t := setFlds { s with spn := { s.spn with refDev := dev, edge := true, edgeBad := far } } 0
        [(F.SPN_SYNC_STAT_PERR, narrow 16 perr), (F.SPN_SYNC_STAT_GOOD, n)]
      let locked := decide (fld s F.SPN_STAT_SYNC = 3)
      setSync t (if locked then (if 2 ≤ far then 2 else 3) else if 8 ≤ n then 3 else 2)
  else s)

/-- No edge accepted for two revolutions (R245): FREE; the next edge is a first edge again. -/
def execSyncFree (s : State) : Result :=
  .next (if flag s F.SPN_SYNC_CTL_EN then
    setSync { setFld s F.SPN_SYNC_STAT_GOOD 0 0 with spn := { s.spn with refDev := 0, edge := false, edgeBad := 0 } } 1
  else s)

/-- sin(π × 6 µs / T_e) (R230), by its series with exact rational terms. -/
def windowSine (s : State) : Rat :=
  let w : Rat := fld s F.SPN_OBS_SPEED
  let x : Rat := w * (4 * piE30 : Nat) / (10 ^ 9 * 10 ^ 30)
  x - x * x * x / 6 + x * x * x * x * x / 120 - x * x * x * x * x * x * x / 5040

/-- F × 256: SPN_WIN_CTL.FLOAT_LVL as last taken at a boundary (R229). -/
def floatLvl (s : State) : Nat := getBits (s.spn.win.getD (rd s .SPN_WIN_CTL 0)) 0 8

/-- |M| exceeds m_max = F / sin(π × 6 µs / T_e) (R230): a window at this depth would be below 6 µs. -/
def clampBinds (s : State) (m : Int) : Bool :=
  decide ((floatLvl s : Rat) / 256 < windowSine s * (m.natAbs : Rat) / 32768)

/-- The depth SPN applies of the law's M: clamped to m_max where R230 applies, and no braking torque while an actuator is
not PARKED (R246). -/
def depthOf (s : State) (m : Int) : Int :=
  let m := if m < 0 ∧ allParked s = false then 0 else m
  let lim : Int := (floatLvl s * 128 / windowSine s).floor
  if clampApplies s && clampBinds s m then clampInt (-lim) lim m else m

/-- The angle of phase k at angle θ, in 2^−16 cycle: θ − k × 120°. -/
def phaseAngle (th k : Nat) : Nat := (3 * th + 3 * 65536 - 65536 * k) / 3 % 65536

/-- Phase k's leg at angle θ with depth m and advance adv (R229): floating within its window, which is at most 60° wide and
spans |sin| ≤ F / |M| about the crossing, and is not opened below 6 µs outside RUN (R231); else driven at its duty. -/
def legOf (s : State) (th : Nat) (m : Int) (adv k : Nat) : Option Nat :=
  let off := phaseAngle th k % 32768
  let near := decide (min off (32768 - off) * 6 ≤ 32768)
  let inside := decide (m.natAbs * (sineOf (phaseAngle th k * 2 ^ 16)).natAbs ≤ floatLvl s * 128 * 2 ^ 32)
  if near && inside && (clampApplies s || !clampBinds s m) then none
  else some (32768 + m * sineOf ((phaseAngle th k + adv) % 65536 * 2 ^ 16) / 2 ^ 32).toNat

/-- The depth put in force and the legs driven by it (R229). -/
def driveLegs (s : State) (m : Int) (adv : Nat) : State :=
  let th := fld s F.SPN_OBS_THETA
  { s with spn := { s.spn with depth := m, legs := (List.range 3).map (legOf s th m adv) } }

/-- Context 4's slot (R243): the observer update and the law tick, once per 2 µs frame, while the speed law runs. -/
def spnLawTick (s : State) : State :=
  let runs := decide (s.spn.bridge = .drive) && decide (spnState s ∈ [spRun, spUnloadWait])
  let w := fld s F.SPN_OBS_SPEED
  let p := { s.spn with frames := s.spn.frames + 1 }
  -- θ̂ carried forward: 2 µs at w, 65536 · 4 · w / 6000 · 2 · 10^−6
  let th := p.theta + roundFree s 0 (65536 * 8 * (w * p.frames)) (6 * 10 ^ 9)
  let t := { s with free := s.free + 2, spn := p }
  let t := if decide (p.bridge ∈ [.drive, .rectify, .regen, .ramp]) then setFld t F.SPN_OBS_THETA 0 (th % 65536).toNat else t
  let t := alignIndex t
  if !runs then
    -- ACCEL drives the largest M that R227 allows, at ADV = 0 (R243): the current limit makes it a free one
    if p.bridge = .drive then
      let f := freshWord t
      driveLegs f.2 (f.1.toNat % 32768) 0
    else t
  else
    let unit : Int := 2 ^ 20 * 10 ^ 6
    let m := 3 * 10 ^ 9 * 2 ^ 20 * 10 ^ 6
    let ref := (t.spn.phiRef + (t.spn.set * (unit + t.spn.refDev)).toNat) % m
    let t := { t with spn := { t.spn with phiRef := ref } }
    let hat : Int := (t.spn.cycle * 65536 : Nat) + th
    let perr := wrap16 (roundFree s 1 (ref * 2 ^ 18 - hat * m) (4 * m))
    let c := cteOf t 4
    let set := fld t F.CTE_SPN_CTL_SET
    let x := qSat (perr * 2 ^ (16 + fld t F.CTE_SPN_CTL_ESC))
    let r := qSum 0 (x.1 * 2 ^ 31 - dotCoef t 4 set 88 1 (setNs t 4 set) c.xh)
    let o := observe t 4 set c.xh c.uv c.um r.1
    let notch := if set ≠ c.active ∧ flag t F.CTE_SPN_CTL_NOTCH_INIT then [] else c.notch
    let sh := BitVec.ofInt 64 (coef t 4 set 117)
    let ns := setNs t 4 set
    let v := qSum (getBits sh 0 4) (-(dotCoef t 4 set 96 1 ns o.1))
    let u := qSum (getBits sh 4 4) (-(dotCoef t 4 set 104 1 ns o.1))
    let mask := BitVec.ofInt 64 (coef t 4 set 200)
    let nv := cascade t 4 set 120 (getBits mask 0 8) 0 notch v.1
    let nu := cascade t 4 set 160 (getBits mask 8 8) 8 nv.2.1 u.1
    let t := setCte t 4 { c with xh := o.1, uv := nv.1, um := nu.1, notch := nu.2.1, active := set }
    let t := setFlds t 0 [(F.CTE_SPN_OUT_M, narrow 16 (nv.1 / 65536)), (F.CTE_SPN_OUT_ADV, narrow 16 (nu.1 / 65536)),
      (F.SPN_STAT_CLAMPED, b2n (decide (spnState t = spRun) && clampBinds t (nv.1 / 65536)))]
    let t := driveLegs t (depthOf t (nv.1 / 65536)) (narrow 16 (nu.1 / 65536))
    let t := recordSats t 4 { input := x.2, observer := o.2 || r.2, out0 := v.2, out1 := u.2, notch := nv.2.2 || nu.2.2 }
    if spnState t = spRun ∧ t.spn.stop = true then stopActs t else t

/-- A law boundary of an actuator context, or the slot of context 4 (R192, R243). Calibration results of the actuator's
driver and servo channel take effect here, PES_LIN while its head is selected (Tables 6.11 and 7.8). -/
def execLawTick (n ain : Nat) (s : State) : Result :=
  .next (if n < s.part.acts then
    let t := calBoundary s (fun k => k == 32 + n || k == 36 + n ||
      (decide (1088 ≤ k) && itemOwner s k == n && itemHead k == selHead s n))
    actLawTick t n ain
  else if n = 4 then spnLawTick s
  else s)

/-- PHOLD_T ends (R207): the actuator is PARKED, and SPN moves on when it was the last (Table 7.1). -/
def execParkHoldEnd (a : Nat) (s : State) : Result :=
  .next (if a < s.part.acts then spnParked (parkHoldEnd s a) else s)

/-! ### Resets and the sequences that reach SPN -/

/-- A block reset of CTE (R209). -/
def execCteBlockReset (s : State) : Result :=
  let t := setFlag s F.CKR_BRST_CTE 0 false
  .next (if allParked s then
    let t := each (List.range 5) (fun n u => setCte u n { cteOf u n with
      xh := [], notch := [], uv := 0, um := 0, vcm := 0, mact := 0, nth := 0, held := none, late := [], ptr := 0 }) t
    if spnState t = spRun then engage4 t else t
  else sendFault t .cte 576 FK.cteResetRefused 4 0)

/-- A block reset of SPN (R242). -/
def execSpnBlockReset (s : State) : Result :=
  let t := setFlag s F.CKR_BRST_SPN 0 false
  .next (if allParked s then
    let t := stopDone (startDone (calDrop t spindleItem) 0x61) 0
    setFlag (spnGo t spOff .highZ) F.SPN_STAT_UNLOAD_REQ 0 false
  else sendFault t .spn 608 FK.spnResetRefused 4 0)

/-- The safe state reaches SPN (Table 7.1, R256). -/
def spnSafe (s : State) : State :=
  if spSense ≤ spnState s ∧ spnState s ≤ spRun then
    enterUnloadWait (startDone s 0x61) false (if spnState s = spRun then .drive else .highZ)
  else s

/-- The power-loss broadcast reaches SPN (Table 7.1): a pending START is overtaken. -/
def spnPowerLoss (s : State) : State := enterRectify (startDone s 0x61) false

/-- CKR quiesces logic: RECTIFY ends in short braking (R38 step 10). -/
def spnQuiesce (s : State) : State := if spnState s = spRectify then enterBrake s true else s

/-- A power-die fatal fault: FAULT, with the bridge at high impedance (R253, R254, Table 7.5). -/
def spnPowerFault (s : State) : State := if spnState s = spFault then s else enterFault s 5

end Sys2Proof.Machine
end

