-- ==== Sys2Proof/Machine/Flt.lean ====
section
/-!
DEFINITION. The flash tier (chapter 13): states (R489), tier commands (R474 to R477), stripes and copies (R479 to R487),
spares, wear and life (R488, R499, R500), the flush rate and the flush image (R496 to R498).
-/

namespace Sys2Proof.Machine

/-! ### What the tier holds -/

/-- A stripe. -/
def stripeOf (s : State) (k : Nat) : Option Stripe := tget (dflt none) s.flt.stripes k

/-- A stripe replaced. -/
def setStripe (s : State) (k : Nat) (x : Option Stripe) : State :=
  { s with flt := { s.flt with stripes := tset (dflt none) s.flt.stripes k x } }

/-- The stripe a TLP is mapped to. -/
def mapOf (s : State) (tlp : Nat) : Option Nat := tget (dflt none) s.flt.map tlp

/-- A TLP mapped or unmapped. -/
def setMap (s : State) (tlp : Nat) (x : Option Nat) : State :=
  { s with flt := { s.flt with map := tset (dflt none) s.flt.map tlp x } }

/-- A TLP is pinned. -/
def tlpPinned (s : State) (tlp : Nat) : Bool := tget (dflt false) s.flt.pinned tlp

/-- A TLP's pin. -/
def setPinned (s : State) (tlp : Nat) (b : Bool) : State :=
  { s with flt := { s.flt with pinned := tset (dflt false) s.flt.pinned tlp b } }

/-- The last copy of a TLP in a stripe. -/
def copyIn (x : Stripe) (tlp : Nat) : Option TlpCopy := (x.copies.filter (fun c => decide (c.tlp = tlp))).getLast?

/-- The mapped copy of a TLP. -/
def tlpCopy (s : State) (tlp : Nat) : Option TlpCopy :=
  match mapOf s tlp with
  | some k => (stripeOf s k).bind (fun x => copyIn x tlp)
  | none => none

/-- The die group of a die (R478). -/
def groupOf (s : State) (die : Nat) : Nat := s.flt.dies.idxOf die / max 1 s.flt.width

/-- The die that holds a stripe's parity units (R478): at its number modulo W within its group. -/
def parityDie (s : State) (stripe group : Nat) : Option Nat := s.flt.dies[group * s.flt.width + stripe % max 1 s.flt.width]?

/-- A stripe of a group may take data on a die: one of the group's, not lost, that does not hold the stripe's parity
(R478, R482). -/
def dataDie (s : State) (stripe group die : Nat) : Bool :=
  decide (die ∈ s.flt.dies ∧ die ∉ s.flt.lostDies ∧ groupOf s die = group ∧ parityDie s stripe group ≠ some die)

/-- TLPs of a stripe that are mapped to it. -/
def validIn (s : State) (k : Nat) : List Nat :=
  match stripeOf s k with
  | some x => (x.copies.map (·.tlp)).eraseDups.filter (fun t => decide (mapOf s t = some k))
  | none => []

/-! ### Counts, wear and life -/

/-- SPARE in parts per million of N_total (R488). -/
def sparePpm (s : State) : Nat := if s.flt.nTotal = 0 then 0 else s.flt.spare * 1000000 / s.flt.nTotal

/-- The geometry's program unit in bytes (R470). -/
def unitBytes (geom : Word) : Nat := getBits geom 16 3 * 16384

/-- Blocks that are not retired, of the dies in use. -/
def goodBlocks (s : State) : Nat :=
  s.flt.nTotal - (s.flt.retired.filter (fun e => e.2)).length

/-- The average and maximum wear over good blocks, 1/16 cycle (R499). -/
def wearOf (s : State) : Nat × Nat :=
  let l := (s.flt.wear.filter (fun e => !tget (dflt false) s.flt.retired e.1)).map (·.2)
  (l.sum / max 1 (goodBlocks s), l.foldl max 0)

/-- The registers that report the tier's accounting brought up to date (R499, R500, R504, R506). -/
def fltReport (s : State) : State :=
  let w := wearOf s
  let f := s.flt
  let wear := 100 * w.1 / (16 * max 1 (fld s F.FLT_PE_RATED_RATED))
  let spare := if f.spareInit = 0 then 0 else 100 * (f.spareInit - f.spare) / f.spareInit
  let pct := min 255 (max wear spare)
  let pct := if fltState s = .retired then max 100 pct else pct
  setFlds s 0 [(F.FLT_SPARE_SPARE, min f.spare (2 ^ 24 - 1)), (F.FLT_SPARE_SPARE_INIT, min f.spareInit (2 ^ 24 - 1)),
    (F.FLT_SPARE_SPARE_PPM, min (sparePpm s) 65535), (F.FLT_WEAR_AVG, w.1), (F.FLT_WEAR_MAX, w.2),
    (F.FLT_ERR_CNT_PROGRAM, f.program), (F.FLT_ERR_CNT_ERASE, f.erase), (F.FLT_ERR_CNT_VERIFY, f.verify),
    (F.FLT_ERR_CNT_REBUILD, f.rebuild), (F.FLT_LOST_CNT_N, f.lost),
    (F.FLT_PIN_CNT_N, (f.pinned.filter (fun e => e.2)).length),
    (F.FLT_VALID_CNT_N, (f.map.filter (fun e => e.2.isSome)).length), (F.FLT_LOGICAL_COUNT, f.logical),
    (F.FLT_LIFE_PCT_PCT, pct), (F.FLT_LIFE_PCT_LIMIT, b2n (decide (wear < spare))),
    (F.FLT_STAT_USABLE_DIES, f.usable), (F.FLT_STAT_W, f.width)]

/-- A 16-bit lifetime count raised. -/
def count16 (n k : Nat) : Nat := min 65535 (n + k)

/-- The states that SPARE decides (R489): CONSTRAINED below 5,000 ppm, retirement asked for at 0. -/
def fltSpares (s : State) : State :=
  let s := fltReport s
  let s := if fltState s = .ready ∧ sparePpm s < 5000 then
      sendFault (fltGo s .constrained) .flt 928 FK.fltConstrained 4 0
    else s
  if (fltState s = .ready ∨ fltState s = .constrained) ∧ s.flt.spare = 0 ∧ flag s F.FLT_STAT_RETIRE_REQ = false then
    let t := setFlag s F.FLT_STAT_RETIRE_REQ 0 true
    let t := sendFault t .flt 928 FK.fltRetire 6 0
    fltReport (glyRetiring (if fltState t = .ready then fltGo t .constrained else t))
  else s

/-- Blocks retired (R488). -/
def retireBlocks (s : State) (keys : List Nat) : State :=
  let new := keys.filter (fun k => !tget (dflt false) s.flt.retired k)
  fltSpares { s with flt := { s.flt with
    retired := new.foldl (fun l k => tset (dflt false) l k true) s.flt.retired
    spare := s.flt.spare - new.length } }

/-- A TLP of a stripe becomes uncorrectable (R477, R482). -/
def markUe (s : State) (k tlp : Nat) : State :=
  match stripeOf s k with
  | some x =>
    let t := setStripe s k (some { x with copies := x.copies.map (fun c => if c.tlp = tlp then { c with ue := true } else c) })
    if mapOf s tlp = some k then { t with flt := { t.flt with lost := min (2 ^ 28 - 1) (t.flt.lost + 1) } } else t
  | none => s

/-! ### The flush rate -/

/-- Dies of the flush stripes (R496). -/
def flushWidth (s : State) : Nat :=
  min (fld s F.FLT_HU_CTL_MAX_ACTIVE) (s.flt.dies.filter (fun d => decide (d ∉ s.flt.lostDies))).length

/-- Trained channels (R471): those whose reached grade is 800 MT/s or above. -/
def trainedChannels (s : State) : Nat :=
  ((List.range 4).filter (fun c => decide (0 < getBits (rd s .FLT_ONFI_CTL 0) (3 + 3 * c) 3))).length

/-- The flush rate reported (R497); SPN recomputes B_MAX and Galley follows (R258, R358). -/
def flushRate (s : State) : State :=
  let wf := flushWidth s
  let tp := s.flt.progs.foldl max 0
  let rate := if tp = 0 then 0
    else min (9600 * trainedChannels s / 4) ((wf - 1) * unitBytes (rd s .FLT_GEOM 0) / tp)
  let t := { s with flt := { s.flt with rateProg := tp } }
  let t := setFlds t 0 [(F.FLT_HU_STAT_FLUSH_RATE, min 65535 rate), (F.FLT_HU_STAT_W_F, wf),
    (F.FLT_HU_STAT_T_PROG, min 2047 tp)]
  if fld t F.FLT_HU_STAT_FLUSH_RATE ≠ fld s F.FLT_HU_STAT_FLUSH_RATE then recomputeHoldUp t else t

/-- The time of an SLC program on a die of the flush stripes (R497). -/
def programTime (s : State) (usec : Nat) : State :=
  let t := { s with flt := { s.flt with progs := (usec :: s.flt.progs).take 1024 } }
  let tp := t.flt.progs.foldl max 0
  let old := t.flt.rateProg
  if old = 0 ∨ old ≤ 100 * (max tp old - min tp old) then flushRate t else t

/-! ### States -/

/-- SERVING moves on (Table 13.6). -/
def fltAdvance (s : State) : State :=
  if fltState s = .serving then
    if s.flt.retiredMark then fltReport (fltGo s .retired)
    else if s.flt.image.isNone ∧ s.flt.erased = true then
      if 5000 ≤ sparePpm s then fltSpares (fltGo s .ready) else fltSpares (fltGo s .constrained)
    else s
  else s

/-- Every stripe completed, verified and closed (R481, R489). -/
def closeAll (l : List (Nat × Option Stripe)) : List (Nat × Option Stripe) :=
  l.map (fun e => (e.1, e.2.map (fun x => { x with closed := true, srcs := [] })))

/-- A write of FLT_CTL (R489, R493, R502); in DECOMMISSIONED a write of EN is ignored (R589). -/
def fltCtlWrite (s : State) (value : Word) : State :=
  if !s.part.hasFlt then s
  else
    let value := if fld s F.SEC_LC_STATE = 4 then setBits value 0 1 (fld s F.FLT_CTL_EN) else value
    let off := decide (fltState s = .off)
    let t := if off then setFld s F.FLT_CTL_Q_LOG2 0 (clampNat 4 12 (getBits value 4 4)) else s
    let t := if bit value 0 || off then setFld t F.FLT_CTL_EN 0 (getBits value 0 1) else t
    let t := if bit value 1 && flag t F.FLT_STAT_RETIRE_REQ && decide (fltState t = .constrained) then
        let t := { t with flt := { t.flt with
          retiredMark := true
          stripes := closeAll s.flt.stripes } }
        fltReport (fltGo t .retired)
      else t
    fltTryInit t

/-- FLT_CTL.EN rises (R489). -/
def execFltEnable (value : Word) (s : State) : Result := .next (fltCtlWrite s (setBits value 0 1 1))

/-- FLT_CTL.RETIRE_COMMIT (R493): ignored while RETIRE_REQ = 0. -/
def execRetireCommit (s : State) : Result := .next (fltCtlWrite s (setBits (rd s .FLT_CTL 0) 1 1 1))

/-- INIT ends (R489, R470, R471, R481, R498). -/
def execFltInitDone (usable geom : Word) (grades : Nat) (rootOk : Bool) (s : State) : Result :=
  if fltState s ≠ .init then .next s
  else
    let mask := (List.range 64).filter (fun d => bit usable d && decide (d < s.part.dies))
    let map := mask.foldl (fun w d => setBits w d 1 1) (0#64)
    let t := wr (wr (setFld s F.FLT_ONFI_CTL_REACHED 0 grades) .FLT_GEOM 0 geom) .FLT_DIE_MAP 0 map
    let t := { t with flt := { t.flt with usable := mask.length } }
    let t := fltReport t
    if mask.length < 4 ∨ (t.flt.formatted = true ∧ rootOk = false) then
      .next (sendFault (fltGo t .down) .flt 928 FK.fltDown 6 0)
    else if !t.flt.formatted then .next (fltGo t .unformatted)
    else
      -- open stripes are completed, verified and closed; what no command completed is not mapped
      let t := { t with flt := { t.flt with
        stripes := closeAll t.flt.stripes
        cmds := []
        nextFetch := 0 } }
      let t := match t.flt.image with
        | some i =>
          let u := raiseSource (setFlds t 0 [(F.FLT_STAT_IMAGE_HELD, 1),
            (F.FLT_STAT_IMAGE_STATUS, if i.committed then 1 else 2)]) 931
          if i.committed then u else sendFault u .flt 928 FK.fltImage 6 0
        | none => t
      .next (fltAdvance (flushRate (fltGo t .serving)))

/-- SEC replaces the tier key (Table 13.6): the map is discarded, the retired blocks are kept. -/
def fltKeyReplaced (s : State) : State :=
  if fltState s = .off then { s with flt := { s.flt with formatted := false, map := [], pinned := [], stripes := [] } }
  else
    let t := { s with flt := { s.flt with
      formatted := false, map := [], pinned := [], stripes := [], cmds := [], work := [] } }
    fltReport (fltGo t .unformatted)

/-! ### NAND operations on the channels (R472) -/

/-- An operation may be granted: its die is idle, or it is a READ's and its die erases. -/
def nandReady (s : State) (w : NandWork) : Bool :=
  !w.running && s.flt.work.all (fun x => !(x.running && decide (x.die = w.die)) || x.suspended ||
    decide (w.cls = 1 ∧ x.op = 2))

/-- A channel's next grant (R472, R26): the highest class with an operation that may run, and R25 over its dies. -/
def nandNext (s : State) (ch : Nat) : Option (Nat × Nat) :=
  (List.range 5).findSome? (fun cls =>
    (grant 64 (tget (dflt 0) s.flt.classPtr (8 * ch + cls)) (fun d => decide (d % 4 = ch) &&
      s.flt.work.any (fun w => decide (w.cls = cls ∧ w.die = d) && nandReady s w))).map (fun d => (cls, d)))

/-- The first operation that satisfies a test changed. -/
def modFirst (p : NandWork → Bool) (f : NandWork → NandWork) : List NandWork → List NandWork
  | [] => []
  | w :: l => if p w then f w :: l else w :: modFirst p f l

/-- One grant of a channel; a read suspends the erase it finds on its die. -/
def nandGrant (s : State) (ch : Nat) : State :=
  match nandNext s ch with
  | none => s
  | some (cls, d) =>
    let l := s.flt.work.map (fun w => if w.running ∧ w.die = d ∧ w.op = 2 then { w with suspended := true } else w)
    let l := modFirst (fun w => decide (w.cls = cls ∧ w.die = d) && !w.running) (fun w => { w with running := true }) l
    { s with flt := { s.flt with work := l, classPtr := tset (dflt 0) s.flt.classPtr (8 * ch + cls) (grantNext 64 d) } }

/-- Every channel grants its idle dies. -/
def nandGrants (s : State) : State :=
  each (List.range 4) (fun ch t => each (List.range 16) (fun _ u => nandGrant u ch) t) s

/-- Operations of a class asked of some dies. -/
def nandAsk (s : State) (cls op : Nat) (dies : List Nat) : State :=
  if dies.isEmpty then s
  else nandGrants { s with flt := { s.flt with
    work := s.flt.work ++ dies.map (fun d => { cls := cls, die := d, op := op }) } }

/-- An operation ends on its die; an erase that a read had suspended resumes. -/
def nandEnd (s : State) (op die : Nat) : State :=
  let gone (l : List NandWork) : List NandWork :=
    match l.find? (fun w => w.running && decide (w.die = die ∧ w.op = op)) with
    | some w => l.erase w
    | none => l
  let l := gone s.flt.work
  let l := if l.any (fun w => w.running && !w.suspended && decide (w.die = die)) then l
    else l.map (fun w => if w.die = die then { w with suspended := false } else w)
  if s.flt.work.isEmpty then s else nandGrants { s with flt := { s.flt with work := l } }

/-- An erase of a die stands suspended. -/
def eraseSuspended (s : State) (die : Nat) : Bool :=
  s.flt.work.any (fun w => w.suspended && decide (w.die = die))

/-- The erase of a closed stripe that nothing maps to is asked of its dies, once (R485). -/
def askErase (s : State) (dies : List Nat) : State := nandAsk s 4 2 dies.eraseDups

/-! ### Tier commands -/

/-- The ring's size. -/
def tierRing (s : State) : Nat := 2 ^ fld s F.FLT_CTL_Q_LOG2

/-- The words the flush image is made of, in the order of R496. -/
def imageWords (i : FlushImage) : List Nat :=
  (i.slots.map (fun e => e.1 :: e.2.map (·.toNat))).flatten ++
  (i.versions.map (fun v => [v.1.nsid, v.1.lba, v.1.size, v.1.asn] ++ v.2.map (·.toNat))).flatten ++
  [i.pc, b2n i.committed] ++ i.power.map (·.toNat)

/-- The image's length in 4 KiB units. -/
def imageLen (s : State) : Nat := match s.flt.image with | some i => Config.imageUnits (imageWords i) | none => 0

/-- The flags an operation takes (Table 13.3). -/
def opFlags (op : Nat) : Option Nat :=
  match op with
  | 0x01 => some 0x07 | 0x02 => some 0x08 | 0x03 => some 0x10 | 0x04 => some 0 | 0x05 => some 0 | _ => none

/-- The checks of a tier command in Table 13.4's order: the failing STATUS, or 0. -/
def tierCheck (s : State) (w : Nat → Word) : Nat :=
  let op := getBits (w 0) 0 8
  let flags := getBits (w 0) 8 8
  let count := getBits (w 0) 16 10
  let tlp := getBits (w 0) 32 32
  let st := fltState s
  let req := flag s F.FLT_STAT_RETIRE_REQ
  let image := decide (op = 0x02 ∧ flags / 8 % 2 = 1)
  let badFlags := match opFlags op with | some m => decide (flags &&& m ≠ flags) | none => true
  let badCount := if op = 0x05 then decide (count ≠ 0) else decide (count = 0 ∨ 512 < count)
  let reserved := decide (getBits (w 0) 26 6 ≠ 0 ∨ getBits (w 1) 40 24 ≠ 0 ∨ getBits (w 2) 40 24 ≠ 0)
  let align := decide (getBits (w 1) 0 6 ≠ 0 ∨ getBits (w 2) 0 6 ≠ 0)
  let served := decide (st = .serving ∨ st = .ready ∨ st = .constrained ∨ st = .retired)
  let lc := fld s F.SEC_LC_STATE
  let formatOk := decide (st = .unformatted ∨ st = .down ∨ lc = 1 ∨ lc = 3)
  if badFlags || badCount || reserved || align then 0xD8
  else if powerLost s || safeState s then 0xD6
  else if (op = 0x05 ∧ formatOk = false) ∨ (op ≠ 0x05 ∧ served = false) ∨ (op = 0x01 ∧ st = .serving) then 0xD0
  else if op ≠ 0x05 ∧ op ≠ 0x04 ∧ ((image = false ∧ s.flt.logical < tlp + count) ∨
      (image = true ∧ s.flt.image.isSome = true ∧ imageLen s < tlp + count)) then 0xD3
  else if op = 0x01 ∧ (st = .retired ∨ (req = true ∧ flags / 4 % 2 = 0)) then 0xD1
  else if op = 0x01 ∧ flags / 2 % 2 = 1 ∧ st = .constrained then 0xD2
  else if op = 0x03 ∧ flags / 16 % 2 = 0 ∧ (List.range count).any (fun k => tlpPinned s (tlp + k)) = true then 0xD4
  else if (op = 0x04 ∨ image = true) ∧ s.flt.image.isNone = true then 0xD9
  else 0

/-- A command in flight by its place. -/
def tierCmd (s : State) (k : Nat) : Option TierCmd := s.flt.cmds[k]?

/-- A command in flight replaced. -/
def setTier (s : State) (k : Nat) (c : TierCmd) : State := { s with flt := { s.flt with cmds := s.flt.cmds.set k c } }

/-- A command's end written to its word 3, HEAD advanced and the completion source raised (R474). -/
def tierComplete (s : State) (idx status done : Nat) : State :=
  let a := fld s F.FLT_Q_BASE_BASE + 32 * idx + 24
  let t := (busWriteWord s portFlt a (BitVec.ofNat 64 (status + 2 ^ 8 + done * 2 ^ 9))).2
  raiseSource (setFld t F.FLT_Q_HEAD_HEAD 0 ((fld t F.FLT_Q_HEAD_HEAD + 1) % tierRing t)) 929

/-- FLT fetches and checks a tier command (R474, R475); absent, it completes UNIT_ABSENT (R4). -/
def execTierCommandFetch (s : State) : Result :=
  let st := fltState s
  if !s.part.hasFlt || decide (st = .off ∨ st = .init ∨ 64 ≤ s.flt.cmds.length) ||
      decide (s.flt.nextFetch = fld s F.FLT_Q_TAIL_TAIL) || powerLost s then .next s
  else
    let idx := s.flt.nextFetch
    match busRead s portFlt (fld s F.FLT_Q_BASE_BASE + 32 * idx) 32 with
    | (none, t) =>
      .next (tierComplete { t with flt := { t.flt with nextFetch := (idx + 1) % tierRing t } } idx 0xD7 0)
    | (some l, t) =>
      let w (k : Nat) : Word := BitVec.ofNat 64 (leNat ((l.drop (8 * k)).take 8))
      let t := { t with flt := { t.flt with nextFetch := (idx + 1) % tierRing t } }
      let bad := tierCheck t w
      if bad ≠ 0 then .next (tierComplete t idx bad 0)
      else .next { t with flt := { t.flt with cmds := t.flt.cmds ++ [{
        idx := idx
        op := getBits (w 0) 0 8
        flags := getBits (w 0) 8 8
        count := getBits (w 0) 16 10
        tlp := getBits (w 0) 32 32
        buf := getBits (w 1) 0 40
        tagbuf := getBits (w 2) 0 40 }] } }

/-- Two commands overlap, one of them a WRITE or TRIM (R476). -/
def tierOverlap (a b : TierCmd) : Bool :=
  let range (c : TierCmd) : Bool := c.op == 1 || c.op == 3 || (c.op == 2 && decide (c.flags / 8 % 2 = 0))
  range a && range b && decide (a.op ≠ 2 ∨ b.op ≠ 2) && decide (a.tlp < b.tlp + b.count ∧ b.tlp < a.tlp + a.count)

/-- A command may start: it is of the operation, not ended, and behind no earlier overlapping one (R476). -/
def tierStart (s : State) (k op : Nat) : Option TierCmd :=
  match tierCmd s k with
  | some c =>
    if c.op = op ∧ c.fin.isNone = true ∧ (s.flt.cmds.take k).all (fun e => !tierOverlap e c) = true then some c else none
  | none => none

/-- The data and tags of a WRITE read from its buffers. -/
def readTlps (c : TierCmd) : Nat → Nat → State → Option (List (List Byte × List Byte)) × State
  | 0, _, s => (some [], s)
  | n + 1, j, s =>
    match busRead s portFlt (c.buf + 4096 * j) 4096 with
    | (none, t) => (none, t)
    | (some d, t) =>
      match busRead t portFlt (c.tagbuf + 16 * j) 16 with
      | (none, u) => (none, u)
      | (some g, u) =>
        match readTlps c n (j + 1) u with
        | (none, v) => (none, v)
        | (some l, v) => (some ((d, g) :: l), v)

/-- A command has reached its end; the tier is in a state that serves it. -/
def tierEnd (s : State) (k : Nat) (c : TierCmd) (status done : Nat) : State :=
  setTier s k { c with fin := some (status, done) }

/-- Data admitted in the last 100 ms (R492). -/
def admittedNow (s : State) : Nat :=
  ((s.flt.admitted.filter (fun e => decide (now s < e.1 + 100))).map (·.2)).sum

/-- A tier WRITE programs its TLPs (R476, R485, R492). The map switches when the command completes. -/
def execWrite (k stripe : Nat) (dies : List Nat) (wait : Bool) (s : State) : Result :=
  match tierStart s k 1 with
  | none => .next s
  | some c =>
    let bytes := c.count * 4096
    let limited := decide (fltState s = .constrained ∧ c.flags / 4 % 2 = 0)
    if powerLost s then .next s
    else if wait then .next (setFlag s F.FLT_STAT_WRITE_WAIT 0 true)
    else if limited && decide (fld s F.FLT_THROTTLE_RATE * 100000 < admittedNow s + bytes ∧ admittedNow s ≠ 0) then
      .next (setFlag s F.FLT_STAT_THROTTLING 0 true)
    else
      let x := (stripeOf s stripe).getD { group := groupOf s (dies.headD 0) }
      if x.closed ∨ x.slc = false ∨ x.srcs.isEmpty = false ∨ dies.length ≠ c.count ∨
          dies.all (dataDie s stripe x.group) = false then .next s
      else
        let s := setFlds s 0 [(F.FLT_STAT_WRITE_WAIT, 0), (F.FLT_STAT_THROTTLING, 0)]
        match readTlps c c.count 0 s with
        | (none, t) => .next (tierEnd t k c 0xD7 0)
        | (some l, t) =>
          let copies := (List.range c.count).map (fun j => {
            tlp := c.tlp + j
            die := dies.getD j 0
            data := (l.getD j ([], [])).1
            tag := (l.getD j ([], [])).2 : TlpCopy })
          let t := setStripe t stripe (some { x with copies := x.copies ++ copies })
          let t := if limited then { t with flt := { t.flt with
            admitted := t.flt.admitted.filter (fun e => decide (now t < e.1 + 100)) ++ [(now t, bytes)] } } else t
          .next (nandAsk (tierEnd t k { c with stripe := stripe } 0x00 c.count) 2 1 dies)

/-- One TLP returned to a READ's buffers; false for a bus error. -/
def returnTlp (s : State) (c : TierCmd) (j : Nat) (data tag : List Byte) : Bool × State :=
  match busWrite s portFlt (c.buf + 4096 * j) data with
  | (false, t) => (false, t)
  | (true, t) => busWrite t portFlt (c.tagbuf + 16 * j) tag

/-- A READ's TLPs in order (R477): its end. -/
def readRun (c : TierCmd) (bad : List Nat) : Nat → Nat → State → (Nat × Nat) × State
  | 0, j, s => ((0x00, j), s)
  | n + 1, j, s =>
    let tlp := c.tlp + j
    let zero : List Byte × List Byte := (List.replicate 4096 0#8, List.replicate 16 0#8)
    let got : Option (List Byte × List Byte) × State := match tlpCopy s tlp, mapOf s tlp with
      | some x, some q =>
        let opened := match stripeOf s q with | some y => !y.closed | none => false
        if x.ue then (none, s)
        else if tlp ∈ bad then
          if opened then (some (x.data, x.tag), { s with flt := { s.flt with rebuild := count16 s.flt.rebuild 1 } })
          else (none, markUe s q tlp)
        else (some (x.data, x.tag), s)
      | _, _ => (some zero, s)
    match got with
    | (none, t) => ((0xD5, j), fltReport (sendFault t .flt 928 FK.fltUe 5 tlp))
    | (some d, t) =>
      match returnTlp t c j d.1 d.2 with
      | (false, u) => ((0xD7, j), u)
      | (true, u) => readRun c bad n (j + 1) u

/-- The flush image's units returned to a READ (R498). -/
def imageRun (c : TierCmd) (w : List Nat) : Nat → Nat → State → (Nat × Nat) × State
  | 0, j, s => ((0x00, j), s)
  | n + 1, j, s =>
    let data := (List.range 4096).map (fun b => Config.imageByte w ((c.tlp + j) * 4096 + b))
    match returnTlp s c j data (List.replicate 16 0#8) with
    | (false, t) => ((0xD7, j), t)
    | (true, t) => imageRun c w n (j + 1) t

/-- A tier READ (R477, R498). -/
def execRead (k : Nat) (bad : List Nat) (s : State) : Result :=
  match tierStart s k 2 with
  | none => .next s
  | some c =>
    if powerLost s then .next s
    else
      let r := match s.flt.image with
        | some i => if c.flags / 8 % 2 = 1 then imageRun c (imageWords i) c.count 0 s else readRun c bad c.count 0 s
        | none => readRun c bad c.count 0 s
      let dies := if c.flags / 8 % 2 = 1 then [] else
        (List.range c.count).filterMap (fun j => (tlpCopy s (c.tlp + j)).map (·.die))
      .next (nandAsk (tierEnd (fltReport r.2) k c r.1.1 r.1.2) 1 0 dies)

/-- A tier TRIM (R474). -/
def execTrim (k : Nat) (s : State) : Result :=
  match tierStart s k 3 with
  | none => .next s
  | some c =>
    if powerLost s then .next s
    else
      let t := each (List.range c.count) (fun j u => setPinned (setMap u (c.tlp + j) none) (c.tlp + j) false) s
      .next (tierEnd (fltReport t) k c 0x00 c.count)

/-- A tier RELEASE_IMAGE (R498): the flush reserve is to be erased. -/
def execReleaseImage (k : Nat) (s : State) : Result :=
  match tierStart s k 4 with
  | none => .next s
  | some c =>
    if powerLost s then .next s
    else
      let t := { s with flt := { s.flt with image := none, erased := false } }
      .next (tierEnd (setFlag t F.FLT_STAT_IMAGE_HELD 0 false) k c 0x00 c.count)

/-- The stripe width of D dies (R478). -/
def stripeWidth (d : Nat) : Nat := if d % 16 = 0 then 16 else if d % 8 = 0 then 8 else 4

/-- A tier FORMAT (R478, R483, R488, R490). -/
def execFormat (k : Nat) (s : State) : Result :=
  match tierStart s k 5 with
  | none => .next s
  | some c =>
    if powerLost s then .next s
    else
      let geom := rd s .FLT_GEOM 0
      let usable := (List.range 64).filter (fun d => bit (rd s .FLT_DIE_MAP 0) d && decide (d ∉ s.flt.lostDies))
      let d := 4 * (usable.length / 4)
      let total := usable.length * getBits geom 38 16
      let good := total - (s.flt.retired.filter (fun e => e.2 && decide (e.1 / 2 ^ 16 ∈ usable))).length
      let spare (n : Nat) : Nat := good - Config.fltNeed n (fld s F.FLT_SLC_CTL_PCT) geom d
      let fits (n : Nat) : Bool := decide (30000 ≤ spare n * 1000000 / max 1 total)
      let limit := if c.tlp = 0 then 2 ^ 28 else min c.tlp (2 ^ 28)
      let count := (((List.range (limit + 1)).reverse.find? fits)).getD 0
      let t := { s with flt := { s.flt with
        formatted := true
        retiredMark := false
        dies := usable.take d
        usable := usable.length
        width := stripeWidth d
        logical := count
        nTotal := total
        spare := spare count
        spareInit := spare count
        stripes := []
        map := []
        pinned := []
        image := none
        erased := true
        admitted := [] } }
      let t := setFlds t 0 [(F.FLT_STAT_RETIRE_REQ, 0), (F.FLT_STAT_IMAGE_HELD, 0), (F.FLT_STAT_IMAGE_STATUS, 0)]
      let t := tierEnd (fltReport t) k c 0x00 0
      .next (fltAdvance (flushRate (fltGo t .serving)))

/-- A tier command completes (R474, R476): a WRITE's TLPs are mapped to what it programmed, and pinned as its PIN flag
says: data written without PIN in a pinned TLP's place releases what was pinned (R165). -/
def execTierCommandDone (k : Nat) (s : State) : Result :=
  match tierCmd s k with
  | some c => (match c.fin with
    | some (status, done) =>
      let t := if c.op = 1 ∧ status = 0 then
          each (List.range c.count) (fun j u =>
            let u := setMap u (c.tlp + j) (some c.stripe)
            setPinned u (c.tlp + j) (decide (c.flags % 2 = 1))) s
        else s
      let t := { t with flt := { t.flt with cmds := t.flt.cmds.eraseIdx k } }
      .next (tierComplete (fltReport t) c.idx status done)
    | none => .next s)
  | none => .next s

/-! ### NAND operations, verification, copies -/

/-- A NAND operation ends (R472, R479, R487, R488, R495, R497, R499), and its channel grants what waits; a suspended erase does
not end. -/
def execNandOpDone (op die block usec : Nat) (slc ok : Bool) (stripe : Nat) (lost : List Nat) (s : State) : Result :=
  if !s.part.hasFlt || decide (fltState s = .off) then .next s
  else if op = 2 ∧ eraseSuspended s die = true then .next s
  else
    let s := nandEnd s (min op 2) die
    let key := die * 2 ^ 16 + block % 2 ^ 16
    match op with
    | 0 => .next (fltReport (each lost (fun t u => markUe u stripe t) s))
    | 1 =>
      if ok then .next (if slc && decide (die ∈ s.flt.dies) then programTime s usec else s)
      else
        let t := { s with flt := { s.flt with
          program := count16 s.flt.program 1, rebuild := count16 s.flt.rebuild 1 } }
        let t := each lost (fun x u => markUe u stripe x) t
        .next (retireBlocks (sendFault t .flt 928 FK.fltProgram 4 die) [key])
    | 2 =>
      if ok then
        let add := if slc then fld s F.FLT_PE_RATED_SLC_WEIGHT else 16
        let t := { s with flt := { s.flt with
          wear := tset (dflt 0) s.flt.wear key (tget (dflt 0) s.flt.wear key + add)
          erases := tset (dflt 0) s.flt.erases key (tget (dflt 0) s.flt.erases key + 1) } }
        -- a stripe is given up once nothing maps to it (R486)
        let t := match stripeOf t stripe with
          | some x => if x.closed ∧ (validIn t stripe).isEmpty = true then setStripe t stripe none else t
          | none => t
        .next (fltReport t)
      else
        let t := { s with flt := { s.flt with erase := count16 s.flt.erase 1 } }
        .next (retireBlocks t [key])
    | _ =>
      if s.flt.image.isNone then .next (fltAdvance { s with flt := { s.flt with erased := true } }) else .next s

/-- A stripe is read back (R480, R486): it closes when every unit passes; else its failing blocks are retired and rebuilt.
A destination's TLPs are mapped to it where the map still names their sources. -/
def execStripeVerify (stripe : Nat) (failing lost : List Nat) (s : State) : Result :=
  match stripeOf s stripe with
  | none => .next s
  | some x =>
    if x.closed ∨ powerLost s = true then .next s
    else if failing.isEmpty then
      let t := setStripe s stripe (some { x with closed := true, srcs := [] })
      let t := each x.copies (fun c u => match mapOf u c.tlp with
        | some q => if q ∈ x.srcs then setMap u c.tlp (some stripe) else u
        | none => u) t
      -- the sources that nothing maps to any more are erased (R485, R486)
      let dead := x.srcs.filter (fun q => (validIn t q).isEmpty)
      .next (askErase (fltReport t) (dead.flatMap (fun q => match stripeOf t q with
        | some y => y.copies.map (·.die)
        | none => [])))
    else
      let t := each failing (fun d u =>
        let u := { u with flt := { u.flt with verify := count16 u.flt.verify 1, rebuild := count16 u.flt.rebuild 1 } }
        sendFault u .flt 928 FK.fltVerify 4 (d / 2 ^ 16)) s
      let t := each lost (fun q u => markUe u stripe q) t
      .next (retireBlocks t failing)

/-- A die is lost (R482). -/
def execDieLost (die : Nat) (lost : List Nat) (s : State) : Result :=
  if die ∉ s.flt.dies ∨ die ∈ s.flt.lostDies ∨ fltState s = .off then .next s
  else
    let t := sendFault s .flt 928 FK.fltDie 6 die
    let t := { t with flt := { t.flt with lostDies := t.flt.lostDies ++ [die] } }
    let closed := t.flt.stripes.filter (fun e => match e.2 with | some x => x.closed | none => false)
    let t := each closed (fun e u => match e.2 with
      | some x => each ((x.copies.filter (fun c => decide (c.die = die))).map (·.tlp)).eraseDups (fun q v => markUe v e.1 q) u
      | none => u) t
    let opened := t.flt.stripes.filter (fun e => match e.2 with | some x => !x.closed | none => false)
    let t := each opened (fun e u => each lost (fun q v => markUe v e.1 q) u) t
    let t := { t with flt := { t.flt with rebuild := count16 t.flt.rebuild opened.length } }
    let blocks := getBits (rd t .FLT_GEOM 0) 38 16
    let dead := (t.flt.retired.filter (fun e => e.2 && decide (e.1 / 2 ^ 16 = die))).length
    let t := { t with flt := { t.flt with spare := t.flt.spare - (blocks - dead) } }
    .next (flushRate (fltSpares t))

/-- Copies of the valid TLPs of some stripes into a new native stripe (R486). -/
def copyInto (s : State) (srcs : List Nat) (dest : Nat) (dies : List Nat) : State :=
  let tlps := (srcs.map (validIn s)).flatten
  let copies := (List.range tlps.length).filterMap (fun j =>
    (tlpCopy s (tlps.getD j 0)).map (fun c => { c with die := dies.getD j 0 }))
  let t := setStripe s dest (some { group := groupOf s (dies.headD 0), slc := false, copies := copies, srcs := srcs })
  nandAsk (nandAsk t 3 0 (tlps.filterMap (fun q => (tlpCopy s q).map (·.die)))) 3 1 (copies.map (·.die))

/-- Copies run (R489): not in RETIRED, nor after the power-loss broadcast; into a new stripe's data units (R478). -/
def mayCopy (s : State) (dest : Nat) (dies : List Nat) : Bool :=
  fltReads s && decide (fltState s ≠ .retired) && !powerLost s && (stripeOf s dest).isNone &&
    dies.all (dataDie s dest (groupOf s (dies.headD 0)))

/-- Folding (R484): the oldest closed SLC stripes into a native one. -/
def execFold (srcs : List Nat) (dest : Nat) (dies : List Nat) (s : State) : Result :=
  let slc := (s.flt.stripes.filter (fun e => match e.2 with | some x => x.closed && x.slc | none => false)).map (·.1)
  if mayCopy s dest dies && decide (srcs ≠ [] ∧ srcs = slc.take srcs.length) then .next (copyInto s srcs dest dies)
  else .next s

/-- A closed stripe has the fewest valid TLPs of its group, and is the oldest of several (R485). -/
def fewestValid (s : State) (k : Nat) (x : Stripe) : Bool :=
  let n := (validIn s k).length
  s.flt.stripes.all (fun e => match e.2 with
    | some y => !(y.closed && decide (y.group = x.group)) ||
        decide (n < (validIn s e.1).length ∨ (n = (validIn s e.1).length ∧ k ≤ e.1))
    | none => true)

/-- Erase counts in a group differ by more than WL_GAP (R485). -/
def wornApart (s : State) (group : Nat) : Bool :=
  let l := (s.flt.erases.filter (fun e => decide (groupOf s (e.1 / 2 ^ 16) = group))).map (·.2)
  decide (fld s F.FLT_GC_CTL_WL_GAP < l.foldl max 0)

/-- Garbage collection (R485): the victim is a closed stripe of its group; the one with the fewest valid TLPs, the oldest of
several, or the least worn one, by erase counts that the stripes do not show. -/
def execGarbageCollection (victim dest : Nat) (dies : List Nat) (s : State) : Result :=
  match stripeOf s victim with
  | none => .next s
  | some x =>
    if mayCopy s dest dies && x.closed && (fewestValid s victim x || wornApart s x.group) then
      .next (copyInto s [victim] dest dies)
    else .next s

/-! ### Power loss -/

/-- The image of a slot (Table 9.2). -/
def slotWord (s : State) (n k : Nat) : Word :=
  let x := glySlot s n
  if k < 8 then x.cmd.getD k 0#64
  else match k with
  | 8 => BitVec.ofNat 64 x.asn
  | 9 => BitVec.ofNat 64 (x.queue % 2 ^ 16 + x.cid % 2 ^ 16 * 2 ^ 16 + x.ctrl % 2 * 2 ^ 32 + x.attr % 4 * 2 ^ 33 +
      x.fuse % 4 * 2 ^ 35 + x.okind % 8 * 2 ^ 37)
  | 10 => BitVec.ofNat 64 x.tAcc
  | 11 => BitVec.ofNat 64 (x.nsid % 2 ^ 32 + x.nlb % 2 ^ 32 * 2 ^ 32)
  | 12 => BitVec.ofNat 64 x.slba
  | 13 =>
    let st := match x.st with
      | .free => 0 | .accepted => 1 | .waitOrder => 2 | .waitBudget => 3 | .dataIn => 4 | .dispatched => 5 | .gated => 6
      | .orphan => 7
    BitVec.ofNat 64 (st + x.holds % 16 * 2 ^ 3 + b2n x.outcome.isSome * 2 ^ 7 + b2n x.abortReq * 2 ^ 8 +
      b2n x.landed * 2 ^ 9 + b2n x.durable * 2 ^ 10 + x.descOut % 2 ^ 16 * 2 ^ 11 + x.rsv % 2 ^ 17 * 2 ^ 27)
  | 14 => x.outcome.getD 0#64
  | _ => x.result

/-- The flush image taken at the power-loss broadcast (R496). -/
def takeImage (s : State) : FlushImage :=
  { slots := (occupiedSlots s).map (fun e => (e.1, (List.range 16).map (slotWord s e.1)))
    versions := (s.gly.index.filter (fun v => v.durable && !v.clean)).map (fun v =>
      (v, (List.range v.size).map (fun k => ((peekLine s ((v.addr + k) / 64)).getD ((v.addr + k) % 64) 0#8))))
    pc := fld s F.GLY_BUDGET_STAT_PC_STATE }

/-- The power-loss broadcast (R496): commands that have not completed end CUT, programs already started complete, erases are
suspended, all else stops, and with the protected cache READY or RETIRING the flush begins. -/
def fltPowerLoss (s : State) : State :=
  let t := each s.flt.cmds (fun c u => match c.fin with
    | some (st, n) => tierComplete u c.idx st n
    | none => tierComplete u c.idx 0xDA 0) s
  let t := { t with flt := { t.flt with
    cmds := []
    work := (t.flt.work.filter (fun w => w.running && decide (w.op ≠ 0))).map (fun w =>
      if w.op = 2 then { w with suspended := true } else w) } }
  if pcState t = .none then t
  else { t with flt := { t.flt with image := some (takeImage t), erased := false } }

/-- The flush's commit record is written, carrying the EVR power-loss record (R496). -/
def fltCommit (s : State) (record : List Word) : State :=
  match s.flt.image with
  | some i => { s with flt := { s.flt with image := some { i with committed := true, power := record } } }
  | none => s

end Sys2Proof.Machine
end

