-- ==== Sys2Proof/Machine/Mgt.lean ====
section
/-!
DEFINITION. The host ports' links and controller enables, and the management sideband (chapter 10).
-/

namespace Sys2Proof.Machine

/-! ### Host ports -/

/-- A rate and width a port can train to (Tables 10.1 and 10.8, R379). -/
def linkOk (s : State) (speed width : Nat) : Bool :=
  if isSas s then decide (1 ≤ speed ∧ speed ≤ 4 ∧ width = 1)
  else decide (1 ≤ speed ∧ speed ≤ 5 ∧ (width = 1 ∨ width = (if isDual s then 2 else 4)))

/-- A port trains or goes down (R382, R401, Table 17.4); in the dead state the host port stays untrained (R580). -/
def execLinkTrained (p speed width : Nat) (s : State) : Result :=
  let sf := if p = 0 then F.HFE_CFG_SPEED_0 else F.HFE_CFG_SPEED_1
  let wf := if p = 0 then F.HFE_CFG_WIDTH_0 else F.HFE_CFG_WIDTH_1
  let old := fld s sf
  if hostPorts s ≤ p ∨ s.sec.boot = .dead then .next s
  else if speed = 0 then
    if old = 0 then .next s
    else
      let t := bump s (if p = 0 then F.HFE_LINK_CNT_PORT0 else F.HFE_LINK_CNT_PORT1)
      .next (setReady (raiseSource (setFlds t 0 [(sf, 0), (wf, 0)]) (131 + p)) F.CKR_READY_LINK p false)
  else if linkOk s speed width then
    .next (setReady (raiseSource (setFlds s 0 [(sf, speed), (wf, width)]) (131 + p)) F.CKR_READY_LINK p true)
  else .next s

/-- CSTS.RDY follows CC.EN of every controller once HOST is 1, and stays 0 while it is 0 (R607); its first rise locks HFE_ID
(Table 10.10). -/
def hostReady (s : State) : State :=
  if isSas s then s
  else each (List.range (hostPorts s)) (fun p t =>
    let up := ready t F.CKR_READY_HOST && tget (dflt false) t.hfe.ccEn p && !t.hfe.cfs
    { t with hfe := { t.hfe with
        rdy := tset (dflt false) t.hfe.rdy p up
        idLocked := t.hfe.idLocked || up } }) s

/-- The host writes CC.EN (R607); clearing it is a host controller reset (R363). -/
def execCcEnSet (p : Nat) (en : Bool) (s : State) : Result :=
  if isSas s ∨ hostPorts s ≤ p then .next s
  else if en then
    .next (hostReady { s with hfe := { s.hfe with ccEn := tset (dflt false) s.hfe.ccEn p true } })
  else if tget (dflt false) s.hfe.ccEn p ∧ powerLost s = false then .next (hostReset s p none)
  else .next s

/-- A block reset of HFE (R618): a host controller reset of every controller or port. -/
def hfeBlockReset (s : State) : State :=
  setFld (each (List.range (hostPorts s)) (fun p t => hostReset t p none) s) F.CKR_BRST_HFE 0 0

/-- CKR_BRST.HFE (R618). -/
def execHfeBlockReset (s : State) : Result := .next (hfeBlockReset s)

/-! ### The sideband -/

/-- The sideband answers something. -/
def sideAnswer (s : State) (o : SideOut) : State := { s with mgt := { s.mgt with out := s.mgt.out ++ [o] } }

/-- The sideband is privileged by the life-cycle state (R398): MANUFACTURE or RETURN. -/
def sidePrivileged (s : State) : Bool := flag s F.MGT_STAT_PRIVILEGED

/-- A session's requester is privileged (R394). -/
def sessionPrivileged (s : State) (n : Nat) : Bool := s.mgt.sessions.any (fun x => decide (x.1 = n) && x.2)

/-- An admin command of the sideband enters Galley as one of controller 0 (R396); one that finds no place is dropped and
counted. -/
def sideAdmin (s : State) (entry : Sqe) : State :=
  if isSas s then sideAnswer s .unsupported
  else if glyFrozen s || !flag s F.GLY_CTL_EN || s.gly.fetched.any (fun f => f.sideband) then
    bump s F.MGT_CNT_DROPPED
  else
    let f : Fetched := { cmd := entry.take 8, fetchSeq := s.gly.postSeq, sideband := true }
    sideAnswer { s with gly := { s.gly with fetched := s.gly.fetched ++ [f] } } .queued

/-- PLDM RequestUpdate (R577, R400): refused while another source owns the staging area. -/
def pldmRequest (s : State) : State :=
  let ok := !s.mgt.updating && decide (fld s F.SEC_UPD_STAT_STATE = 0 ∨ fld s F.SEC_UPD_STAT_OWNER = 6)
  let t := if ok then { s with mgt := { s.mgt with updating := true } } else s
  sideAnswer t (.updateMode ok)

/-- A whole MCTP message served by a module whose firmware runs (R394 to R398). -/
def sideServe (s : State) : SideMsg → State
  | .control => sideAnswer s .control
  | .miRead => if isSas s then sideAnswer s .unsupported else sideAnswer s .structures
  | .miCommand health =>
    if isSas s then sideAnswer s .unsupported
    else if health then sideAnswer s (.health (sidePrivileged s)) else sideAnswer s .done
  | .miAdmin entry => sideAdmin s entry
  | .pldmRequestUpdate => pldmRequest s
  | .pldmData => if s.mgt.updating then sideAnswer s .done else sideAnswer s .unsupported
  | .pldmEnd => sideAnswer { s with mgt := { s.mgt with updating := false } } .done
  | .pldmOther => sideAnswer s .done
  | .spdmRequest => sideAnswer s .done
  | .spdmFinish n admin =>
    sideAnswer { s with mgt := { s.mgt with
      sessions := (n, admin) :: s.mgt.sessions.filter (fun x => decide (x.1 ≠ n)) } } .done
  | .spdmEnd n =>
    sideAnswer { s with mgt := { s.mgt with sessions := s.mgt.sessions.filter (fun x => decide (x.1 ≠ n)) } } .done
  | .spdmHealth n =>
    if s.mgt.sessions.any (fun x => decide (x.1 = n)) then
      sideAnswer s (.health (sidePrivileged s || sessionPrivileged s n))
    else sideAnswer s .unsupported
  | .lastRecords => sideAnswer s .unsupported
  | .other => sideAnswer s .unsupported

/-- A whole MCTP message as the ROM-resident responders serve it: in the dead state four messages (R580), in the
provisioning state MCTP control alone beside the requests of Table 16.16 (R571). -/
def sideMessage (s : State) (m : SideMsg) : State :=
  match s.sec.boot, m with
  | .dead, .control => sideAnswer s .control
  | .dead, .miRead => sideAnswer s .structures
  | .dead, .lastRecords => sideAnswer s (.records s.sec.lastRecords)
  | .dead, _ => sideAnswer s .unsupported
  | .provisioning, .control => sideAnswer s .control
  | .provisioning, _ => sideAnswer s .unsupported
  | _, m => sideServe s m

/-- An SMBus transaction (R395, Table 10.7): the Basic Management Command at its own address, or a packet of an MCTP
message, served when its last packet is in. Until SIDEBAND is 1 no address is acknowledged (Table 17.4). -/
def execSmbusTransaction (addr : Nat) (pecOk last : Bool) (msg : SideMsg) (s : State) : Result :=
  if !ready s F.CKR_READY_SIDEBAND || !flag s F.MGT_CTL_EN then .next (sideAnswer s .nak)
  else if addr = fld s F.MGT_ADDR_BASIC then
    .next (raiseSource (sideAnswer s (.basic ((800 + fld s F.MGT_TEMP_CTRL) / 4)
      (!safeState s && decide (s.sec.boot ≠ .dead)))) 97)
  else if addr = fld s F.MGT_ADDR_MCTP then
    let t := bump s F.MGT_CNT_PACKETS
    if !pecOk then .next (bump t F.MGT_CNT_PEC)
    else if !last then .next (sideAnswer { t with mgt := { t.mgt with parts := t.mgt.parts + 1 } } .taken)
    else .next (sideMessage (raiseSource { t with mgt := { t.mgt with parts := 0 } } 97) msg)
  else .next (sideAnswer s .nak)

/-- The bin of FLT_TEMP_HIST a composite falls in (R501): 25 °C is 98.15 K above 200 K. -/
def tempBin (ctrl : Nat) : Nat := if ctrl ≤ 392 then 0 else min 15 ((ctrl - 373) / 20)

/-- A minute of operation counted in the tier's histogram every 600 samples (R501). -/
def tempMinute (s : State) (ctrl : Nat) : State :=
  let n := s.mgt.samples + 1
  let t := { s with mgt := { s.mgt with samples := n % 600 } }
  if n = 600 ∧ s.part.hasFlt then bump t F.FLT_TEMP_HIST_MIN (tempBin ctrl) else t

/-- The SMART critical warning (R397): set at CCTEMP with one asynchronous event per crossing, cleared below CCTEMP − 2 K. -/
def tempWarning (s : State) (ctrl : Nat) : State :=
  let cc := fld s F.MGT_TEMP_THR_CRIT
  if 4 * cc ≤ 800 + ctrl then
    if s.mgt.warning then s
    else
      let t := { s with mgt := { s.mgt with warning := true } }
      if isSas s || safeState s then t
      else each (List.range (hostPorts s)) (fun p u => toHost u (.temperature p)) t
  else if 800 + ctrl < 4 * (cc - 2) then { s with mgt := { s.mgt with warning := false } }
  else s

/-- The readout of every 100 ms (R397, R402); source 98 when a threshold is reached. -/
def execTempSample (ctrl pwr : Nat) (s : State) : Result :=
  let c := min ctrl 1023
  let crit := decide (4 * fld s F.MGT_TEMP_THR_CRIT ≤ 800 + c)
  let warn := decide (4 * fld s F.MGT_TEMP_THR_WARN ≤ 800 + c)
  let rise := (crit && !flag s F.MGT_TEMP_CRIT) || (warn && !flag s F.MGT_TEMP_WARN)
  let t := setFlds s 0 [(F.MGT_TEMP_CTRL, c), (F.MGT_TEMP_PWR, min pwr 1023), (F.MGT_TEMP_CRIT, b2n crit),
    (F.MGT_TEMP_WARN, b2n warn)]
  .next (tempMinute (tempWarning (when rise (fun u => raiseSource u 98) t) c) c)

/-- A block reset of MGT (R400). -/
def mgtBlockReset (s : State) : State :=
  setFld { s with mgt := { s.mgt with parts := 0, sessions := [], updating := false } } F.CKR_BRST_MGT 0 0

/-- CKR_BRST.MGT (R400). -/
def execMgtBlockReset (s : State) : Result := .next (mgtBlockReset s)

end Sys2Proof.Machine
end

