-- ==== Sys2Proof/Machine/Otp.lean ====
section
/-!
DEFINITION. The OTP, the life-cycle state it gives, and the provisioning responder (R567, R568, R571, R587).
-/

namespace Sys2Proof.Machine

/-! ### SEC statuses -/

/-! Table 16.8. -/
namespace SecSt
/-- OK. -/
abbrev ok : Nat := 0x00
/-- REFUSED_STATE. -/
abbrev refusedState : Nat := 0x02
/-- AUTH_FAIL. -/
abbrev authFail : Nat := 0x03
/-- ROM_MISMATCH. -/
abbrev romMismatch : Nat := 0x04
/-- SVN_LOW. -/
abbrev svnLow : Nat := 0x05
/-- FOLIO_BAD. -/
abbrev folioBad : Nat := 0x06
/-- INCOMPLETE. -/
abbrev incomplete : Nat := 0x07
/-- NOT_OWNER. -/
abbrev notOwner : Nat := 0x08
/-- OVERLAP. -/
abbrev overlap : Nat := 0x09
/-- RANGE. -/
abbrev range : Nat := 0x0A
/-- NOR_FAIL. -/
abbrev norFail : Nat := 0x0B
/-- OTP_FULL. -/
abbrev otpFull : Nat := 0x0C
/-- KEY_INVALID. -/
abbrev keyInvalid : Nat := 0x0D
/-- PRECONDITION. -/
abbrev precondition : Nat := 0x0E
/-- TOKEN_BAD. -/
abbrev tokenBad : Nat := 0x0F
end SecSt

/-- A failing status the spec leaves open. -/
def freeFailure (s : State) : Nat × State :=
  let f := freshWord s
  (1 + f.1.toNat % 255, f.2)

/-! ### The OTP -/

/-- The state of a life-cycle log entry (R587): DECOMMISSIONED when its complement does not match. -/
def lcCode (e : Nat) : Nat := if e % 16 + e / 16 % 16 = 15 then (if e % 16 ≤ 4 then e % 16 else 4) else 4

/-- The life-cycle state of an OTP (R587). -/
def lcState (o : Otp) : Nat := match o.log.getLast? with | none => 0 | some e => lcCode e

/-- The log entry of a state (R567). -/
def lcEntry (code : Nat) : Nat := code + (15 - code) * 16

/-- ROOT_HASH_j as burned. -/
def rootOf (o : Otp) (j : Nat) : Option Nat := tget (dflt none) o.roots j

/-- ROOT_HASH_j is revoked. -/
def rootRevoked (o : Otp) (j : Nat) : Bool := Nat.testBit o.revoke j

/-- The burned roots, bit by bit. -/
def rootBits (o : Otp) : Nat := (List.range 4).foldl (fun n j => n + b2n (rootOf o j).isSome * 2 ^ j) 0

/-- The root a key hash matches, among those burned and not revoked (R573). -/
def rootFor (o : Otp) (hash : Nat) : Option Nat :=
  (List.range 4).find? (fun j => decide (rootOf o j = some hash) && !rootRevoked o j)

/-- A field is damaged. -/
def damagedField (o : Otp) (f : OtpField) : Bool := decide (f ∈ o.damaged)

/-- A field is burned already. -/
def burned (o : Otp) : OtpField → Bool
  | .serial => o.serial.isSome
  | .secret => o.secret.isSome
  | .patchKey => o.patchKey.isSome
  | .root j => (rootOf o j).isSome
  | .hdaRoot => o.hdaRoot.isSome
  | .adminRoot => o.adminRoot.isSome
  | .revoke | .svn | .epoch | .lcLog => false

/-- A field burned. -/
def burn (o : Otp) (f : OtpField) (v : Nat) : Otp :=
  if damagedField o f then o
  else match f with
  | .serial => { o with serial := some v }
  | .secret => { o with secret := some v }
  | .patchKey => { o with patchKey := some v }
  | .root j => { o with roots := tset (dflt none) o.roots j (some v) }
  | .revoke => { o with revoke := o.revoke ||| v % 16 }
  | .hdaRoot => { o with hdaRoot := some v }
  | .adminRoot => { o with adminRoot := some v }
  | .svn => { o with svn := min 64 (max o.svn v) }
  | .epoch => { o with epoch := min 32 (max o.epoch v) }
  | .lcLog => { o with log := o.log ++ [v] }

/-- The OTP replaced. -/
def setOtp (s : State) (o : Otp) : State := { s with sec := { s.sec with otp := o } }

/-- The registers that report the OTP and the life-cycle state, with what R398 and R399 take from it (R592, R597, Table
10.11), and measurement 5. -/
def applyLc (s : State) : State :=
  let o := s.sec.otp
  let lc := lcState o
  let service := b2n (decide (lc = 1 ∨ lc = 3))
  let t := setFlds s 0 [(F.SEC_LC_STATE, lc), (F.SEC_LC_DEBUG_OPEN, service), (F.SEC_LC_USED, min o.log.length 32),
    (F.MGT_STAT_PRIVILEGED, service), (F.MGT_STAT_DEBUG_OPEN, service),
    (F.SEC_OTP_STAT_ROOTS, rootBits o), (F.SEC_OTP_STAT_REVOKE, o.revoke), (F.SEC_OTP_STAT_HDA_ROOT, b2n o.hdaRoot.isSome),
    (F.SEC_OTP_STAT_ADMIN_ROOT, b2n o.adminRoot.isSome), (F.SEC_OTP_STAT_KEY_EPOCH, o.epoch),
    (F.SEC_BOOT_STAT_SVN, o.svn)]
  setMeas t 5 (Config.sha384 ((wordBytes (rd t .SEC_LC 0)).take 4))

/-- The number of a field in SEC_OTP_CMD and in the address of FK_SEC_OTP: its place in Table 16.1, counting the four
ROOT_HASH_j apart. -/
def otpCode : OtpField → Nat
  | .serial => 0 | .secret => 1 | .patchKey => 2 | .root j => 3 + j % 4 | .revoke => 7 | .hdaRoot => 8 | .adminRoot => 9
  | .svn => 10 | .epoch => 11 | .lcLog => 12

/-- The field of a number. -/
def otpOfCode : Nat → Option OtpField
  | 0 => some .serial | 1 => some .secret | 2 => some .patchKey | 3 => some (.root 0) | 4 => some (.root 1)
  | 5 => some (.root 2) | 6 => some (.root 3) | 7 => some .revoke | 8 => some .hdaRoot | 9 => some .adminRoot
  | 10 => some .svn | 11 => some .epoch | 12 => some .lcLog | _ => none

/-- SEC has read the OTP (R568, R569, Table 17.4): FK_SEC_OTP for each damaged field; MGT answers from here on. -/
def execOtpRead (damaged : List OtpField) (s : State) : Result :=
  if s.sec.boot ≠ .waitOtp then .next s
  else
    let o := s.sec.otp
    let t := setOtp s { o with damaged := o.damaged ++ damaged.filter (fun f => decide (f ∉ o.damaged)) }
    let t := each t.sec.otp.damaged (fun f u => sendFault u .sec 64 FK.secOtp 7 (otpCode f)) t
    let t := applyLc { t with sec := { t.sec with boot := .loading } }
    .next (setReady (setReady t F.CKR_READY_OTP 0 true) F.CKR_READY_SIDEBAND 0 true)

/-- A write of SEC_OTP_CMD (R567, Table 16.15): in MANUFACTURE and RETURN it burns the fields Table 16.1 has burned there. -/
def otpCmdWrite (s : State) (value : Word) : State :=
  let n := getBits value 0 4
  let t := setFlds s 0 [(F.SEC_OTP_CMD_FIELD, n), (F.SEC_OTP_CMD_GO, 0)]
  if !bit value 4 then t
  else
    let done (u : State) (st : Nat) : State := setFld u F.SEC_OTP_CMD_STATUS 0 st
    let lc := fld t F.SEC_LC_STATE
    match otpOfCode n with
    | none => done t SecSt.range
    | some f =>
      if (lc ≠ 1 ∧ lc ≠ 3) ∨ ¬ ((3 ≤ n ∧ n ≤ 6) ∨ n = 8 ∨ n = 9) then done t SecSt.refusedState
      else if burned t.sec.otp f || damagedField t.sec.otp f then done t SecSt.otpFull
      else
        match busRead t portSec (fld t F.SEC_OTP_ADDR_ADDR) 48 with
        | (none, u) =>
          let r := freeFailure u
          done r.2 r.1
        | (some d, u) => done (applyLc (setOtp u (burn u.sec.otp f (leNat d)))) SecSt.ok

/-- SEC_OTP_CMD.GO (R567). -/
def execOtpBurn (value : Word) (s : State) : Result := .next (otpCmdWrite s (setBits value 4 1 1))

/-! ### The provisioning responder (R571) -/

/-- An answer of the responder. -/
def provAnswer (s : State) (st : Nat) (data : List Word) : State := sideAnswer s (.provision st data)

/-- A request of Table 16.16 served in its states; elsewhere the responder refuses it, and where the responder does not run
the message is an unsupported one. -/
def provServe (s : State) (states : List Nat) (f : State → State) : State :=
  if !ready s F.CKR_READY_SIDEBAND then sideAnswer s .nak
  else if s.sec.boot ≠ .provisioning then sideAnswer s .unsupported
  else if fld s F.SEC_LC_STATE ∈ states then f s
  else provAnswer s SecSt.refusedState []

/-- GET_STATE: SEC_LC, SEC_OTP_STAT, SERIAL (zero when not burned), SHT_ROM_ID and the boot ROM version, which the spec does
not give. -/
def execGetState (s : State) : Result :=
  .next (provServe s [0, 1] (fun t =>
    let f := freshWord t
    provAnswer f.2 SecSt.ok [rd t .SEC_LC 0, rd t .SEC_OTP_STAT 0, BitVec.ofNat 64 (t.sec.otp.serial.getD 0),
      rd t .SHT_ROM_ID 0, f.1]))

/-- GET_NONCE. -/
def execGetNonce (s : State) : Result :=
  .next (provServe s [0, 1] (fun t =>
    let f := freshNat t 6
    provAnswer { f.2 with sec := { f.2.sec with respNonce := some f.1 } } SecSt.ok (natWords f.1 6)))

/-- GET_SESSION_KEY. -/
def execGetSessionKey (s : State) : Result :=
  .next (provServe s [0] (fun t =>
    let f := freshNat t 6
    provAnswer { f.2 with sec := { f.2.sec with session := some f.1 } } SecSt.ok
      (natWords (Config.sessionPublic f.1) 13)))

/-- PROVISION. -/
def execProvision (serial pub wrapped sig : Nat) (s : State) : Result :=
  .next (provServe s [0] (fun t =>
    let o := t.sec.otp
    let full := [OtpField.serial, .secret, .patchKey, .lcLog].any (fun f => burned o f || damagedField o f)
    match t.sec.respNonce, t.sec.session with
    | none, _ => provAnswer t SecSt.tokenBad []
    | some nonce, session =>
      if !Config.provisionSigOk nonce serial wrapped sig then provAnswer t SecSt.tokenBad []
      else match session.bind (fun k => Config.unwrapPatchKey k pub wrapped) with
      | none => provAnswer t SecSt.authFail []
      | some key =>
        if full then provAnswer t SecSt.otpFull []
        else
          let f := freshNat t 4
          let o := burn (burn (burn (burn o .serial serial) .secret f.1) .patchKey key) .lcLog (lcEntry 1)
          let u := applyLc (setOtp f.2 o)
          let u := { u with sec := { u.sec with lcEvent := some (0, 1) }, ckr := { u.ckr with resetRequested := true } }
          provAnswer u SecSt.ok []))

/-- BURN_ROOTS. -/
def execBurnRoots (roots : List (Option Nat)) (hda admin : Option Nat) (s : State) : Result :=
  .next (provServe s [1] (fun t =>
    let o := t.sec.otp
    let want : List (OtpField × Nat) :=
      (List.range 4).filterMap (fun j => (roots.getD j none).map (fun v => (OtpField.root j, v))) ++
      (hda.toList.map (fun v => (OtpField.hdaRoot, v))) ++ (admin.toList.map (fun v => (OtpField.adminRoot, v)))
    if (List.range 4).all (fun j => (roots.getD j none).isNone) then provAnswer t SecSt.range []
    else if rootBits o ≠ 0 then provAnswer t SecSt.refusedState []
    else if want.any (fun x => burned o x.1 || damagedField o x.1) then provAnswer t SecSt.otpFull []
    else provAnswer (applyLc (setOtp t (want.foldl (fun o x => burn o x.1 x.2) o))) SecSt.ok []))

/-- RESET. -/
def execReset (s : State) : Result :=
  .next (provServe s [0, 1] (fun t => provAnswer { t with ckr := { t.ckr with resetRequested := true } } SecSt.ok []))

end Sys2Proof.Machine
end

