-- ==== Sys2Proof/Machine/Dcp.lean ====
section
/-!
DEFINITION. The decoder pool: intake (R115 to R117), selection (R119 to R121), completion records (R123), the recovery
ladder in the pool (R124 to R130), resets (R135 to R137), and the DCP events.
-/

namespace Sys2Proof.Machine

/-! ### Jobs and records -/

/-- A job of actuator a by its number. -/
def jobOf (s : State) (a id : Nat) : Option Job := (dcpOf s a).jobs.find? (fun j => decide (j.id = id))

/-- A job changed. -/
def modJob (s : State) (a id : Nat) (f : Job → Job) : State :=
  let d := dcpOf s a
  setDcp s a { d with jobs := d.jobs.map (fun j => if j.id = id then f j else j) }

/-- The pool is stopped: safe state or power loss (R136). -/
def dcpFrozen (s : State) : Bool := safeState s || powerLost s

/-- A completion record (Table 4.4). -/
def makeRecord (j : Job) (outcome : Nat) (timeout : Bool) : Word :=
  BitVec.ofNat 64 (outcome + min 255 (j.liveIter + j.recIter) * 2 ^ 8 + j.dec % 16 * 2 ^ 16 + j.rung % 8 * 2 ^ 20
    + 2 ^ 23 + j.trailer.status % 16 * 2 ^ 24 + b2n timeout * 2 ^ 28 + j.ctx % 8 * 2 ^ 29 + j.sector % 65536 * 2 ^ 32
    + j.seq % 65536 * 2 ^ 48)

/-- The counters a record's outcome raises (DCP_CNT_a). -/
def countOutcome (s : State) (a outcome : Nat) : State :=
  match outcome with
  | 0 => bump s F.DCP_CNT_OK a
  | 1 => bump s F.DCP_CNT_RECOVERED a
  | 0x30 => bump s F.DCP_CNT_UNCORRECTED a
  | 0x31 => bump s F.DCP_CNT_UNCORRECTED a
  | _ => s

/-- A record enters the ring of 64, or is held by its decoder while the ring is full (R123). As it posts, the pool's pin is
released (R126), and its run context once it was the last to wait for (R116). -/
def postRecord (s : State) (a : Nat) (h : HeldRecord) : State :=
  let d := dcpOf s a
  if d.ring.length < 64 then
    let t := raiseSource (setDcp s a { d with ring := d.ring ++ [h.record] }) (456 + a)
    let t := countOutcome t a (getBits h.record 0 8)
    let t := match h.unpin with
      | some x => setPair t a (poolUnpinSlot (pairOf t a) x.1 x.2)
      | none => t
    if h.ctx < 8 then
      let c := ctxOf t a h.ctx
      releaseCtx (setCtx t a h.ctx { c with posted := c.posted + b2n h.counts }) a h.ctx
    else t
  else setDcp s a { d with held := d.held ++ [h] }

/-- A job's outstanding replay is cancelled (R129): a queued request is withdrawn with the entry it holds; a packet that
comes later finds no job. -/
def cancelReplay (s : State) (a id : Nat) : State :=
  let p := pairOf s a
  let mine (q : Replay) : Bool := q.who == .pool id && !q.running
  let t := setPair s a { p with replays := p.replays.filter (fun q => !mine q) }
  each (p.replays.filter mine) (fun q u => match q.entry with | some e => setEntry u a e {} | none => u) t

/-- An entry that holds a packet of a job. -/
def entryOfJob (x : Entry) (id : Nat) : Bool := decide (x.job = id ∧ (x.st = .ready ∨ x.st = .held ∨ x.st = .decoding))

/-- The entries of a job's packets freed. -/
def freeJobEntries (s : State) (a id : Nat) : State :=
  each (List.range 16) (fun e u => if entryOfJob (entryOf u a e) id then setEntry u a e {} else u) s

/-- Decoders working for a job stop. -/
def stopDecoders (s : State) (a id : Nat) : State :=
  each (List.range 12) (fun d u =>
    match (decOf u d).work with
    | some w => if w.act = a ∧ w.job = id then setDec u d { decOf u d with work := none } else u
    | none => u) s

/-- A job leaves the pool: decoders stopped, replay cancelled, entries freed. -/
def dropJob (s : State) (a : Nat) (j : Job) : State :=
  let t := freeJobEntries (cancelReplay (stopDecoders s a j.id) a j.id) a j.id
  let d := dcpOf t a
  setDcp t a { d with jobs := d.jobs.filter (fun x => decide (x.id ≠ j.id)) }

/-- The pin a job's record releases (R126): its own, unless the outcome is a failure and KEEP_PIN leaves it to firmware. -/
def jobUnpin (s : State) (j : Job) (failed : Bool) : Option (Nat × Nat) :=
  if j.pin && !(failed && flag s F.DCP_CTL_KEEP_PIN) then some (j.slot, j.seq) else none

/-- A job ends without a write-back: its record is posted (R123, R126). -/
def finishRecord (s : State) (a : Nat) (j : Job) (record : Word) : State :=
  postRecord (dropJob s a j) a {
    dec := j.dec, record := record, ctx := j.ctx, counts := j.submit.isNone, unpin := jobUnpin s j true }

/-- The failing outcome of a job (Table 4.4). -/
def failOutcome (j : Job) : Nat := if j.miscorrect then 0x31 else 0x30

/-- A job ends in failure (R124, R128). -/
def finishJob (s : State) (a : Nat) (j : Job) (timeout : Bool) : State :=
  finishRecord s a j (makeRecord j (failOutcome j) timeout)

/-! ### Replays of the ladder -/

/-- A field of DCP_RCV_CTL as it stood when a sector failed (R140). -/
def rcvFld (w : Word) (f : Fld) : Nat := getBits w f.lo f.w

/-- The pool rungs that a job's failed live decode leaves (R124, R125): rung 3, then the shifts of rung 4. -/
def ladder (j : Job) : List Attempt :=
  let t := j.trailer
  let ok := decide (t.status = 0 ∨ t.status = 1) || j.lost
  let useB := decide (t.status = 1)
  let alt := rcvFld j.rcv F.DCP_RCV_CTL_ALT_CAP
  let shift := rcvFld j.rcv F.DCP_RCV_CTL_SHIFT_CAP
  let r3 : List Attempt :=
    if j.lost then [{ rung := 3, useB := useB, cap := alt }]
    else if ok && t.bFound && decide (t.bOff ≠ t.aOff) then [{ rung := 3, useB := true, cap := alt }] else []
  let r4 : List Attempt :=
    if ok then (List.range (rcvFld j.rcv F.DCP_RCV_CTL_SHIFT_MAX)).flatMap (fun k =>
      [{ rung := 4, useB := useB, off := (k : Int) + 1, cap := shift }, { rung := 4, useB := useB, off := -((k : Int) + 1), cap := shift }])
    else []
  if j.pin then r3 ++ r4 else []

/-- The next replay of a plan is requested from LNE (R95, R127): an attempt whose mark or span the slot does not offer
does not apply; with the request queue full the job waits; a lost slot ends the pool rungs. -/
def requestReplay (s : State) (a id : Nat) : List Attempt → State
  | [] => modJob s a id (fun j => { j with plan := [], want := false })
  | x :: rest =>
    match jobOf s a id with
    | none => s
    | some j =>
      match replayStatus (pairOf s a) j.slot j.seq x.useB x.off with
      | 0 =>
        let p := pairOf s a
        let y := slotAt p j.slot
        let t := setPair s a { p with replays := p.replays ++ [{
          who := .pool id, slot := j.slot, seq := j.seq, offset := x.off, useB := x.useB, override := j.override
          ctx := j.ctx, sector := j.sector, code := y.code }] }
        modJob t a id (fun j => { j with plan := rest, current := some x, want := false, out := true })
      | 0x23 => modJob s a id (fun j => { j with plan := x :: rest, want := true })
      | 0x21 => modJob s a id (fun j => { j with plan := [], want := false })
      | _ => requestReplay s a id rest

/-- A packet of the job waits or is being decoded. -/
def jobWaits (s : State) (a id : Nat) : Bool := (List.range 16).any (fun e => entryOfJob (entryOf s a e) id)

/-- A job with nothing running, outstanding, waiting or planned, or with its budget spent, posts its final record (R124,
R128). -/
def settleJob (s : State) (a id : Nat) : State :=
  match jobOf s a id with
  | none => s
  | some j =>
    if !j.busy ∧ !j.won ∧ j.failed ∧ (j.left = 0 ∨ (j.out = false ∧ j.plan = [] ∧ jobWaits s a id = false)) then
      finishJob s a j false
    else s

/-- Requests that found the replay queue full are made again, now that room may have come (R95, R127). -/
def retryWants (s : State) (a : Nat) : State :=
  each ((dcpOf s a).jobs.filter (fun j => j.want)) (fun j u => settleJob (requestReplay u a j.id j.plan) a j.id) s

/-- The pool after a step on an actuator's queue. -/
def poolNext (s : State) (a : Nat) : State := if dcpFrozen s then s else retryWants s a

/-- The pool pins a slot under its quota (R126). -/
def poolPin (s : State) (a id : Nat) : State :=
  match jobOf s a id with
  | none => s
  | some j =>
    let p := pairOf s a
    if j.pin then s
    else if fld s F.DCP_RCV_CTL_PIN_QUOTA ≤ countBelow (fun k => (slotAt p k).pinPool) 4 then
      modJob s a id (fun j => { j with pinRefused := true })
    else
      let r := pinSlot p j.slot j.seq true
      if r.1 = 0 then modJob (setPair s a r.2) a id (fun j => { j with pin := true, pinRefused := false })
      else modJob s a id (fun j => { j with pinRefused := true })

/-- The pin sought at a live failure (R126): only with EARLY_ITER = 0, or where the first attempt was refused. -/
def failurePin (s : State) (a id : Nat) : State :=
  match jobOf s a id with
  | some j => if fld s F.DCP_OTF_CTL_EARLY_ITER = 0 ∨ j.pinRefused then poolPin s a id else s
  | none => s

/-- Decoders now running recovery. -/
def rcvBusy (s : State) : Nat :=
  countBelow (fun d => match (decOf s d).work with | some w => !w.live | none => false) 12

/-- A live entry waits that is urgent (R118). -/
def urgentWaits (s : State) : Bool :=
  (List.range s.part.acts).any (fun a => (List.range 16).any (fun e =>
    let x := entryOf s a e
    decide (x.st = .ready) && x.live && x.urgent))

/-- Entries HELD on an actuator. -/
def heldCount (s : State) (a : Nat) : Nat := countBelow (fun e => decide ((entryOf s a e).st = .held)) 16

/-- A decoder's work ends and its entry is freed. -/
def endWork (s : State) (d : Nat) (w : DecWork) : State :=
  setDec (setEntry s w.act w.entry {}) d { decOf s d with work := none }

/-- An entry takes the posteriors of its decode and waits HELD, from now on (R115, R121, R127). The posteriors are the
decoder's, whose matrices the spec does not give: they are free values. -/
def holdEntry (s : State) (a e cap : Nat) : State :=
  let d := dcpOf s a
  let x := entryOf s a e
  let t := setEntry (setDcp s a { d with nextJob := d.nextJob + 1 }) a e { x with
    st := .held, live := false, since := nowNs s, stamp := d.nextJob, aged := false, cap := cap
    words := (List.range x.words.length).map (fun k => Config.freeWord (s.free + k)) }
  { t with free := t.free + x.words.length }

/-- A live decode has failed (R124 to R128): in a VERIFY or with AUTO = 0 the record is posted; else the pin is sought, the
ladder is planned under DCP_RCV_CTL as it stands and its first replay requested, and rung 2 continues on the same decoder,
waits HELD, or is skipped. -/
def failLive (s : State) (d : Nat) (w : DecWork) (skip2 : Bool) : State :=
  match jobOf s w.act w.job with
  | none => setDec s d { decOf s d with work := none }
  | some j =>
    let a := w.act
    if (ctxOf s a j.ctx).verify || !flag s F.DCP_CTL_AUTO then finishJob (endWork s d w) a j false
    else
      let s := modJob s a w.job (fun j => { j with
        failed := true, busy := false, left := fld s F.DCP_RCV_CTL_RCV_ITER, rcv := rd s .DCP_RCV_CTL 0 })
      let s := failurePin s a w.job
      let s := requestReplay s a w.job (match jobOf s a w.job with | some j => ladder j | none => [])
      let ext := min (fld s F.DCP_RCV_CTL_EXT_CAP - j.liveIter) (fld s F.DCP_RCV_CTL_RCV_ITER)
      if skip2 ∨ ext = 0 ∨ j.lost ∨ fld s F.DCP_RCV_CTL_EXT_CAP ≤ fld s F.DCP_OTF_CTL_ITER_CAP then
        settleJob (endWork s d w) a w.job
      else if rcvBusy s < fld s F.DCP_CTL_RCV_MAX ∧ urgentWaits s = false then
        let t := modJob s a w.job (fun j => { j with busy := true, rung := 2 })
        let t := setEntry t a w.entry { entryOf t a w.entry with live := false, cap := ext }
        setDec t d { decOf t d with work := some { w with live := false, home := .ready, done := 0, cap := ext, start := nowNs s } }
      else if heldCount s a < fld s F.DCP_RCV_CTL_HOLD_MAX then
        let t := holdEntry s a w.entry ext
        setDec t d { decOf t d with work := none }
      else settleJob (endWork s d w) a w.job

/-- A recovery attempt has failed after some iterations: they are charged, and the next rung proceeds (R128). A firmware
job posts its record (R130). -/
def failRecovery (s : State) (d : Nat) (w : DecWork) (iters : Nat) : State :=
  settleJob (modJob (endWork s d w) w.act w.job (fun j => { j with
    recIter := j.recIter + iters, left := if j.submit.isSome then 0 else j.left - iters, busy := false })) w.act w.job

/-- An attempt has failed. -/
def failAttempt (s : State) (d iters : Nat) (skip2 : Bool) : State :=
  match (decOf s d).work with
  | none => s
  | some w =>
    if w.live then failLive (modJob s w.act w.job (fun j => { j with liveIter := iters, dec := d })) d w skip2
    else failRecovery (modJob s w.act w.job (fun j => { j with dec := d })) d w iters

/-- The cap of the attempt a decoder runs (R121, R128, R130). -/
def attemptCap (s : State) (w : DecWork) : Nat := if w.live then fld s F.DCP_OTF_CTL_ITER_CAP else w.cap

/-- The LLRs of an entry whose sector was on rung 1 or 2 are lost in loading (R117): the sector goes to rung 3 with a
re-delivery. A sector that had already failed on the fly takes a new number, so that a replay of it now running finds no
job. -/
def loseLlrs (s : State) (d : Nat) (w : DecWork) : State :=
  if w.live then failLive (modJob s w.act w.job (fun j => { j with lost := true })) d w true
  else
    let t := cancelReplay (endWork s d w) w.act w.job
    let q := dcpOf t w.act
    let id := q.nextJob
    let t := setDcp t w.act { q with
      nextJob := id + 1
      jobs := q.jobs.map (fun j => if j.id = w.job then
        { j with id := id, lost := true, busy := false, current := none, out := false, want := false } else j) }
    settleJob (requestReplay t w.act id (match jobOf t w.act id with | some j => ladder j | none => [])) w.act id

/-! ### Intake -/

/-- A new job for a packet. -/
def newJob (s : State) (a : Nat) (j : Job) : Nat × State :=
  let d := dcpOf s a
  (d.nextJob, setDcp s a { d with jobs := d.jobs ++ [{ j with id := d.nextJob }], nextJob := d.nextJob + 1 })

/-- LLR words with those that came poisoned set to zero (R117). -/
def cleared (words : List Word) (poisoned : List Nat) : List Word :=
  words.mapIdx (fun i w => if i ∈ poisoned then 0#64 else w)

/-- How many of a packet's words came poisoned. -/
def poisonCount (words : List Word) (poisoned : List Nat) : Nat :=
  ((List.range words.length).filter (fun i => decide (i ∈ poisoned))).length

/-- A packet's entry becomes READY for a job. -/
def readyEntry (s : State) (a : Nat) (k : Packet) (job : Nat) (poisoned : List Nat) (live : Bool) (attempt : Option Attempt) :
    State :=
  let d := dcpOf s a
  setEntry (setDcp s a { d with nextJob := d.nextJob + 1 }) a k.entry
    { st := .ready, ctx := k.ctx, sector := k.sector, live := live, job := job, stamp := d.nextJob
      deadline := nowNs s + fld s F.DCP_OTF_CTL_DEADLINE_MULT * fld s F.DCP_SECT_TIME_NS a
      erasures := min 65535 (k.trailer.erased + 10 * poisonCount k.words poisoned), since := nowNs s
      words := cleared k.words poisoned, attempt := attempt }

/-- The packet's entry is freed. -/
def freePacketEntry (s : State) (a : Nat) (k : Packet) : State := if k.entry < 16 then setEntry s a k.entry {} else s

/-- The record of a packet that makes no job. -/
def packetRecord (s : State) (a : Nat) (k : Packet) (j : Job) (outcome : Nat) : State :=
  postRecord (freePacketEntry s a k) a { record := makeRecord j outcome false, ctx := k.ctx, counts := k.live }

/-- A packet of a replay the pool asked for arrives for its job (R117, R129). -/
def replayPacket (s : State) (a : Nat) (k : Packet) (j : Job) (poisoned : List Nat) (poisonTrailer : Bool) : State :=
  if j.won then freePacketEntry s a k
  else if poisonTrailer then finishRecord (freePacketEntry s a k) a j (makeRecord { j with seq := 0 } 0x34 false)
  else
    readyEntry (modJob s a j.id (fun j => { j with
      out := false, current := none, trailer := if j.submit.isSome then k.trailer else j.trailer })) a k j.id poisoned false j.current

/-- Words of pair a's LLR Spool that failed their parity (R456): counted, and reported with the Spool's number. The lane
writes none poisoned, so a word that arrives so has failed. -/
def spoolParity (s : State) (a n : Nat) : State :=
  each (List.range n) (fun _ t =>
    sendFault (bump t F.SPL_PAR_CNT_BLOCK) .dcp (Block.faultSource .dcp) FK.splParity 4 a) s

/-- A packet's trailer word arrives (R115, R117, R129, R135). -/
def trailerArrival (s : State) (a : Nat) (poisoned : List Nat) (poisonTrailer : Bool) : State :=
  let p := pairOf s a
  match p.packets with
  | [] => s
  | k :: rest =>
    let t := spoolParity (setPair s a { p with packets := rest }) a (poisonCount k.words poisoned + b2n poisonTrailer)
    let fresh : Job := { ctx := k.ctx, sector := k.sector, slot := k.trailer.slot, seq := k.trailer.seq, trailer := k.trailer }
    if !(ctxOf t a k.ctx).used then freePacketEntry t a k
    else
      match k.job with
      | some id =>
        (match jobOf t a id with
          | none => freePacketEntry t a k
          | some j => replayPacket t a k j poisoned poisonTrailer)
      | none =>
        if poisonTrailer then packetRecord t a k { fresh with seq := 0 } 0x34
        else if k.only then packetRecord t a k fresh (if k.trailer.status = 5 then 0x33 else 0x32)
        else if k.live then
          let r := newJob t a fresh
          readyEntry r.2 a k r.1 poisoned true none
        else
          let cap := fld t F.DCP_OTF_CTL_ITER_CAP
          let r := newJob t a { fresh with rung := 7, failed := true, submit := some cap, left := cap }
          readyEntry r.2 a k r.1 poisoned false (some { rung := 7, cap := cap })

/-- A trailer word arrives. -/
def execTrailerArrival (a : Nat) (poisoned : List Nat) (poisonTrailer : Bool) (s : State) : Result :=
  .next (if dcpFrozen s then s else poolNext (trailerArrival s a poisoned poisonTrailer) a)

/-- A replay ends, with what the pool makes of one that failed (R97, R129): its job's pool rungs are over. -/
def execReplayDone (a : Nat) (eccY eccFlags eccMarks : Bool) (s : State) : Result :=
  let r := replayDone s a (eccY || eccFlags || eccMarks)
  .next (poolNext (match r.2 with
    | some id => settleJob (modJob r.1 a id (fun j => { j with current := none, plan := [], want := false, out := false })) a id
    | none => r.1) a)

/-! ### Selection -/

/-- The queue entries of an actuator that satisfy a test. -/
def entriesWhere (s : State) (a : Nat) (p : Entry → Bool) : List Nat := (List.range 16).filter (fun e => p (entryOf s a e))

/-- The entry of least key. -/
def leastBy (key : Nat → Nat) (l : List Nat) : Option Nat :=
  l.foldl (fun b e => match b with
    | none => some e
    | some m => if key e < key m then some e else some m) none

/-- A READY live entry. -/
def liveReady (x : Entry) : Bool := decide (x.st = .ready) && x.live

/-- A recovery job that is ready: HELD posteriors or a replay's packet, of a job that decodes nothing else. -/
def rcvReady (s : State) (a : Nat) (x : Entry) : Bool :=
  (decide (x.st = .held) || (decide (x.st = .ready) && !x.live)) &&
    (match jobOf s a x.job with | some j => !j.busy | none => false)

/-- Among actuators that offer a key, those of least key, the tie broken by the decoder's pointer for the class. -/
def pickAct (s : State) (d cls : Nat) (key : Nat → Option Nat) : Option Nat :=
  let best := (List.range s.part.acts).foldl (fun (b : Option Nat) a => match key a, b with
    | some k, some m => some (min k m)
    | some k, none => some k
    | none, b => b) none
  match best with
  | none => none
  | some m => grant 4 (tget (dflt 0) (decOf s d).ptrs cls) (fun a => decide (a < s.part.acts) && key a == some m)

/-- The order in which entries began to wait: by time, and within one time as they came. -/
def ageKey (s : State) (a e : Nat) : Nat :=
  (entryOf s a e).since * ((dcpOf s a).nextJob + 1) + (entryOf s a e).stamp

/-- The work an idle decoder selects (R119): actuator, entry and class. -/
def selectWork (s : State) (d : Nat) : Option (Nat × Nat × Nat) :=
  let h := d / 3
  let c0 (a : Nat) := leastBy (fun e => (entryOf s a e).deadline) (entriesWhere s a (fun x => liveReady x && x.urgent))
  let c1 (a : Nat) := leastBy (ageKey s a) (entriesWhere s a (fun x => rcvReady s a x && x.aged))
  let c2 (a : Nat) := leastBy (fun e => (entryOf s a e).stamp) (entriesWhere s a liveReady)
  let c4 (a : Nat) := leastBy (ageKey s a) (entriesWhere s a (rcvReady s a))
  let room := decide (rcvBusy s < fld s F.DCP_CTL_RCV_MAX)
  let with_ (cls : Nat) (a : Option Nat) (f : Nat → Option Nat) : Option (Nat × Nat × Nat) :=
    match a with
    | some a => (f a).map (fun e => (a, e, cls))
    | none => none
  let k0 (a : Nat) := (c0 a).map (fun e => (entryOf s a e).deadline)
  let k1 (a : Nat) := (c1 a).map (fun e => (entryOf s a e).since)
  let k3 (a : Nat) := if a ≠ h ∧ (c2 a).isSome then some (16 - (entriesWhere s a liveReady).length) else none
  let k4 (a : Nat) := (c4 a).map (fun e => (entryOf s a e).since)
  match with_ 0 (pickAct s d 0 k0) c0 with
  | some r => some r
  | none =>
    match (if room then with_ 1 (pickAct s d 1 k1) c1 else none) with
    | some r => some r
    | none =>
      match with_ 2 (some h) c2 with
      | some r => some r
      | none =>
        match (if flag s F.DCP_CTL_STEAL_EN then with_ 3 (pickAct s d 3 k3) c2 else none) with
        | some r => some r
        | none =>
          if room then
            (match with_ 4 (some h) c4 with
              | some r => some r
              | none => with_ 4 (pickAct s d 4 k4) c4)
          else none

/-- A decoder may select: present, enabled, idle, not OUT, holding no record, the pool not stopped (R119, R123). -/
def maySelect (s : State) (d : Nat) : Bool :=
  decide (d < s.part.decoders) && bit (rd s .DCP_CTL 0) d && (decOf s d).work.isNone && !(decOf s d).out && !dcpFrozen s
    && !((List.range s.part.acts).any (fun a => (dcpOf s a).held.any (fun h => decide (h.dec = d))))

/-- Columns of a code (Table 4.2). -/
def codeColumns : Nat → Nat
  | 0 => 296
  | 1 => 288
  | _ => 280

/-- The time decoder cycles take, in ns: 1.2 GHz (R114). -/
def cyclesNs (n : Nat) : Nat := n * 5 / 6

/-- Iterations of the attempt a decoder runs, by the time gone since its load ended (R114, Table 4.2). -/
def attemptIters (s : State) (w : DecWork) : Nat :=
  min (attemptCap s w) (max w.done ((nowNs s - w.start) * 6 / 5 / (w.columns + 96)))

/-- What an entry's attempt may run (R121, R124, R128, R130): what is left of a decode begun before, a firmware job's cap, or
its attempt's; never more than the budget leaves. -/
def entryCap (x : Entry) (j : Job) : Nat :=
  match j.submit with
  | some cap => if x.st = .held then x.cap else cap
  | none => min j.left (if x.st = .held then x.cap else match x.attempt with | some c => c.cap | none => x.cap)

/-- A decoder takes an entry of its queue (R119, R120): the sector's next replay is requested as a replay's decode starts
(R127). An uncorrectable error while loading ends the attempt, and below rung 3 the sector goes to rung 3 with a re-delivery
(R117). -/
def takeWork (s : State) (d a e cls : Nat) (loadErr : Bool) : State :=
  let x := entryOf s a e
  let dec := decOf s d
  let dec := if cls = 2 then dec else { dec with ptrs := tset (dflt 0) dec.ptrs cls (grantNext 4 a) }
  let t := setDcp s a { dcpOf s a with grantPtr := grantNext 12 d }
  match jobOf t a x.job with
  | none => setEntry t a e {}
  | some j =>
    let ask := x.attempt.isSome && !x.asked && j.submit.isNone
    let rung := if x.live then j.rung else max j.rung (match x.attempt with | some c => c.rung | none => 2)
    let w : DecWork := {
      act := a, entry := e, job := x.job, live := x.live, cls := cls, home := x.st, cap := entryCap x j
      start := nowNs s + cyclesNs ((x.words.length + 7) / 8), columns := codeColumns (ctxOf s a j.ctx).code }
    let t := setDec (setEntry t a e { x with st := .decoding, asked := x.asked || ask }) d { dec with work := some w }
    let t := modJob t a x.job (fun j => { j with busy := true, dec := d, rung := rung })
    let t := if ask then requestReplay t a x.job j.plan else t
    if loadErr then
      let t := sramUe t .dcp (32768 * e) 11
      if rung < 3 then loseLlrs t d w else failAttempt t d 0 true
    else t

/-- The entry a decoder selects, if it may: actuator, entry and class. -/
def selection (s : State) (d : Nat) : Option (Nat × Nat × Nat) := if maySelect s d then selectWork s d else none

/-- The decoder an actuator's queue grants in a cycle (R120), by the selections made in it: under R25, by decoder number. -/
def queueGrant (s : State) (decoders : List Nat) (a : Nat) : Option Nat :=
  grant 12 (dcpOf s a).grantPtr (fun d => decoders.contains d && (selection s d).any (fun x => x.1 == a))

/-- One cycle of selection by several idle decoders (R119 to R121): each queue grants one of those that selected it; recovery
is granted only while fewer than RCV_MAX decoders run it. A loser selects again in a later cycle. -/
def selectCycle (s : State) (decoders : List Nat) (loadErr : Bool) : State :=
  each (List.range s.part.acts) (fun a t =>
    match queueGrant s decoders a with
    | none => t
    | some d =>
      match selection s d with
      | none => t
      | some x =>
        if (x.2.2 = 1 ∨ x.2.2 = 4) ∧ fld t F.DCP_CTL_RCV_MAX ≤ rcvBusy t then t
        else poolNext (takeWork t d a x.2.1 x.2.2 loadErr) a) s

/-- Idle decoders select work. -/
def execDecoderSelect (decoders : List Nat) (loadErr : Bool) (s : State) : Result := .next (selectCycle s decoders loadErr)

/-! ### Ends of decodes -/

/-- A decode reaches a zero syndrome (R114, R131): with a good CRC its data is written back and its entry freed; a bad
CRC is a miscorrection and the attempt fails. -/
def decodeConverged (s : State) (d iters : Nat) (data : List Byte) : State :=
  match (decOf s d).work with
  | none => s
  | some w =>
    if dcpFrozen s ∨ iters = 0 ∨ attemptCap s w < iters then s
    else
      match jobOf s w.act w.job with
      | none => s
      | some j =>
        let c := ctxOf s w.act j.ctx
        let lba := c.lba + BitVec.ofNat 64 j.sector
        if data.length = 4112 ∧ sectorCrc lba (data.take 4108) = BitVec.ofNat 32 (leNat (data.drop 4108)) then
          let j' : Job := { j with
            dec := d, liveIter := if w.live then iters else j.liveIter, recIter := if w.live then j.recIter else j.recIter + iters }
          let t := freeJobEntries (cancelReplay (endWork s d w) w.act j.id) w.act j.id
          let t := if w.live ∧ j.pin then setPair t w.act (poolUnpinSlot (pairOf t w.act) j.slot j.seq) else t
          let t := modJob t w.act j.id (fun _ => { j' with
            busy := true, won := true, current := none, out := false, plan := [], want := false, pin := j.pin && !w.live })
          let q := dcpOf t w.act
          setDcp t w.act { q with wbs := q.wbs ++ [{
            job := j.id, dec := d, addr := c.base + j.sector * c.stride, data := data.take 4104, ctx := j.ctx
            counts := j.submit.isNone, record := makeRecord j' (if w.live then 0 else 1) false }] }
        else
          failAttempt (modJob s w.act w.job (fun j => { j with miscorrect := true })) d iters true

/-- The actuator a decoder works for. -/
def workAct (s : State) (d : Nat) : Nat := match (decOf s d).work with | some w => w.act | none => 0

/-- A decode reaches a zero syndrome. -/
def execDecodeConverged (d iters : Nat) (data : List Byte) (s : State) : Result :=
  .next (poolNext (decodeConverged s d iters data) (workAct s d))

/-- A decode reaches its iteration cap and fails (R121, R127). -/
def decodeCap (s : State) (d : Nat) : State :=
  match (decOf s d).work with
  | none => s
  | some w => if dcpFrozen s then s else failAttempt s d (attemptCap s w) false

/-- A decode reaches its iteration cap. -/
def execDecodeCap (d : Nat) (s : State) : Result := .next (poolNext (decodeCap s d) (workAct s d))

/-- A live decode reaches EARLY_ITER iterations without converging: its slot is pinned (R126). -/
def execEarlyPin (d : Nat) (s : State) : Result :=
  .next (match (decOf s d).work with
    | some w =>
      let n := fld s F.DCP_OTF_CTL_EARLY_ITER
      match jobOf s w.act w.job with
      | some j =>
        if w.live ∧ n ≠ 0 ∧ !dcpFrozen s ∧ flag s F.DCP_CTL_AUTO ∧ !(ctxOf s w.act j.ctx).verify then
          poolPin (setDec s d { decOf s d with work := some { w with done := n } }) w.act w.job
        else s
      | none => s
    | none => s)

/-- Some enabled decoder is idle. -/
def idleDecoder (s : State) : Bool := (List.range s.part.decoders).any (maySelect s)

/-- A recovery decode yields at an eighth iteration to an urgent live entry with no idle decoder (R121): its posteriors
go back to its entry, which is HELD, with its iteration count. -/
def execDecodeYield (d iters : Nat) (s : State) : Result :=
  .next (match (decOf s d).work with
    | some w =>
      if !w.live ∧ !dcpFrozen s ∧ 0 < iters ∧ iters % 8 = 0 ∧ iters < attemptCap s w ∧ urgentWaits s ∧ !idleDecoder s then
        let t := modJob s w.act w.job (fun j => { j with
          recIter := j.recIter + iters, left := if j.submit.isSome then j.left else j.left - iters, busy := false })
        let t := holdEntry t w.act w.entry (w.cap - iters)
        setDec t d { decOf t d with work := none }
      else s
    | none => s)

/-! ### Write-back, records, deadlines -/

/-- Bytes stored line by line for so many lines, a line that refuses them left as it is. -/
def storeLines : Nat → Nat → List Byte → State → State
  | 0, _, _, s => s
  | k + 1, addr, bytes, s =>
    let m := min bytes.length (64 - addr % 64)
    storeLines k (addr + m) (bytes.drop m) (writePiece s portDcp addr (bytes.take m)).2

/-- Data written back (R114); after a bus error the content of the sector's bytes is undefined: each is a free value. -/
def storeSector (s : State) (w : WriteBack) (err : Bool) : Bool × State :=
  let x := busWrite s portDcp w.addr w.data
  if x.1 && !err then x
  else
    let n := w.data.length
    let bytes := (List.range n).map (fun k => (Config.freeWord (x.2.free + k)).setWidth 8)
    (false, storeLines (linesOf w.addr n) w.addr bytes { x.2 with free := x.2.free + n })

/-- A write-back's last response arrives (R114, R123): the data is in the buffer, or after a bus error its bytes are
undefined and the outcome is WB_ERR; the record is posted and the pin released. -/
def writebackDone (s : State) (a job : Nat) (err : Bool) : State :=
  let d := dcpOf s a
  match d.wbs.find? (fun w => decide (w.job = job)) with
  | none => s
  | some w =>
    let x := storeSector (setDcp s a { d with wbs := d.wbs.filter (fun x => decide (x.job ≠ job)) }) w err
    let t := x.2
    let unpin := match jobOf t a job with | some j => jobUnpin t j (!x.1) | none => none
    let t := match jobOf t a job with | some j => dropJob t a j | none => t
    postRecord t a {
      dec := w.dec, record := if x.1 then w.record else setBits w.record 0 8 0x35, ctx := w.ctx, counts := w.counts, unpin := unpin }

/-- A write-back's last response arrives. -/
def execWritebackDone (a job : Nat) (err : Bool) (s : State) : Result := .next (poolNext (writebackDone s a job err) a)

/-- A live entry's deadline passes with its decode unfinished (R118). -/
def execDecodeDeadline (a entry : Nat) (s : State) : Result :=
  let x := entryOf s a entry
  .next (if x.live ∧ !x.missed ∧ (x.st = .ready ∨ x.st = .decoding) then
    sendFault (bump (setEntry s a entry { x with missed := true }) F.DCP_CNT_DEADLINE_MISS a) .dcp 448 FK.dcpDeadline 3 0
  else s)

/-- A live entry becomes urgent (R118). -/
def execEntryUrgent (a entry : Nat) (s : State) : Result :=
  let x := entryOf s a entry
  .next (if x.live ∧ x.st = .ready then setEntry s a entry { x with urgent := true } else s)

/-- A recovery job has waited RCV_AGE sector times (R119). -/
def execRecoveryJobAged (a entry : Nat) (s : State) : Result :=
  let x := entryOf s a entry
  .next (if rcvReady s a x then setEntry s a entry { x with aged := true } else s)

/-- HW_LIMIT, as it stood at the live failure, passes since it (R128, R140): the job's decode stops with its iterations
counted, its replay is cancelled, its pin released, and its record posted with TIMEOUT = 1. -/
def recoveryTimeout (s : State) (a job iters : Nat) : State :=
  match jobOf s a job with
  | some j =>
    if j.failed ∧ !j.won ∧ j.submit = none ∧ rcvFld j.rcv F.DCP_RCV_CTL_HW_LIMIT ≠ 0 then
      let ran := (List.range 12).foldl (fun n d => match (decOf s d).work with
        | some w => if w.act = a ∧ w.job = job then min iters (attemptCap s w) else n
        | none => n) 0
      finishJob s a { j with recIter := j.recIter + ran } true
    else s
  | none => s

/-- HW_LIMIT passes; the stopped pool stays as it is (R136). -/
def execRecoveryTimeout (a : Nat) (job : JobStop) (s : State) : Result :=
  .next (if dcpFrozen s then s else poolNext (recoveryTimeout s a job.job job.iters) a)

/-- Held records enter the ring as space frees, oldest first (R123). -/
def postHeld (s : State) (a : Nat) : State :=
  let d := dcpOf s a
  match d.held with
  | h :: rest => if d.ring.length < 64 then postRecord (setDcp s a { d with held := rest }) a h else s
  | [] => s

/-- The oldest completion record popped, 0 with the ring empty (R123). -/
def popRecord (s : State) (a : Nat) : Word × State :=
  let d := dcpOf s a
  match d.ring with
  | w :: rest => (w, postHeld (setDcp s a { d with ring := rest }) a)
  | [] => (0#64, s)

/-- A read of DCP_CPL_a pops the oldest record. -/
def execDcpCplRead (a : Nat) (s : State) : Result :=
  .next (if a < s.part.acts then answer (popRecord s a).2 (popRecord s a).1 else answer s 0#64)

/-! ### Firmware jobs -/

/-- A recovery job submitted (R130, R141): its status, and the state with its replay requested. -/
def submitJob (s : State) (a : Nat) (w : Word) : Nat × State :=
  let k := getBits w 0 2
  let seq := getBits w 2 16
  let off := signed 7 (getBits w 18 7)
  let useB := bit w 25
  let run := getBits w 27 3
  let cap := max 1 (getBits w 46 8)
  let p := pairOf s a
  let x := slotAt p k
  if !x.valid ∨ x.seq ≠ seq then (0x21, s)
  else if 4 ≤ p.replays.length - liveReplays p then (0x23, s)
  else if !(ctxOf s a run).used then (0x28, s)
  else
    let r := newJob s a {
      ctx := run, sector := getBits w 30 16, slot := k, seq := seq, rung := 7, failed := true, left := cap, submit := some cap
      override := bit w 26 }
    (0, settleJob (requestReplay r.2 a r.1 [{ rung := 7, useB := useB, off := off, cap := cap }]) a r.1)

/-- DCP_SUBMIT_a written; with GO the job is submitted. A write with GO while a submission is being accepted is ignored; the
stopped pool accepts none, and the submission stays BUSY (R136, R141). -/
def execDcpSubmit (a : Nat) (value : Word) (s : State) : Result :=
  .next (if a < s.part.acts ∧ !(bit value 54 && flag s F.DCP_SUBMIT_BUSY a) then
    let cap := max 1 (getBits value 46 8)
    let t := setFlds s a [(F.DCP_SUBMIT_SLOT, getBits value 0 2), (F.DCP_SUBMIT_SEQ, getBits value 2 16),
      (F.DCP_SUBMIT_OFFSET, getBits value 18 7), (F.DCP_SUBMIT_USE_B, getBits value 25 1),
      (F.DCP_SUBMIT_OVERRIDE, getBits value 26 1), (F.DCP_SUBMIT_RUN, getBits value 27 3),
      (F.DCP_SUBMIT_SECTOR, getBits value 30 16), (F.DCP_SUBMIT_CAP, cap)]
    if bit value 54 then
      if dcpFrozen t then setFlag t F.DCP_SUBMIT_BUSY a true
      else
        let r := submitJob t a value
        setFld r.2 F.DCP_SUBMIT_STATUS a r.1
    else t
  else s)

/-! ### Errors and resets -/

/-- A decoder finds an error in its own memories (R137): its attempt stops, its entry returns to READY or HELD with the
iteration count it had, FK_DCP_DECODER is raised, and its DEC_EN bit clears; it reads OUT. -/
def execDecoderMemoryError (d : Nat) (s : State) : Result :=
  .next (if d < s.part.decoders then
    let t := match (decOf s d).work with
      | some w =>
        let u := setEntry s w.act w.entry { entryOf s w.act w.entry with st := w.home }
        modJob u w.act w.job (fun j => { j with busy := false })
      | none => s
    let t := setDec t d { decOf t d with work := none, out := true }
    let v := rd t .DCP_CTL 0
    sendFault (wr t .DCP_CTL 0 (setBits v d 1 0)) .dcp (464 + d) FK.dcpDecoder 4 0
  else s)

/-- The pool discards actuator a's work (R135): entries, jobs and run contexts go, decoders working for it stop without
write-back; a write-back issued before completes, its record naming no context. -/
def dcpDiscard (s : State) (a : Nat) : State :=
  let d := dcpOf s a
  let t := setDcp s a { d with
    entries := [], ctxs := [], jobs := [], wbs := d.wbs.map (fun w => { w with ctx := 8 })
    held := d.held.map (fun h => { h with ctx := 8, unpin := none }) }
  each (List.range 12) (fun k u =>
    match (decOf u k).work with
    | some w => if w.act = a then setDec u k { decOf u k with work := none } else u
    | none => u) t

/-- A block reset of lane pair a with what the pool does at the same moment (R92, R135). -/
def pairReset (s : State) (a : Nat) : State := dcpDiscard (laneBlockReset s a) a

/-- A block reset of lane pair a. -/
def execLaneBlockReset (a : Nat) (s : State) : Result := .next (if a < s.part.acts then pairReset s a else s)

/-- A block reset of DCP (R135): every actuator's work is discarded, every decoder and pointer reset, and every present
lane pair block-reset. -/
def dcpBlockReset (s : State) : State :=
  let t := each (List.range s.part.acts) (fun a u =>
    let v := pairReset u a
    setDcp v a { dcpOf v a with grantPtr := 0 }) s
  let t := each (List.range s.part.decoders) (fun d u => setDec u d {}) t
  setFlag t F.CKR_BRST_DCP 0 false

/-- A block reset of DCP. -/
def execDcpBlockReset (s : State) : Result := .next (dcpBlockReset s)

/-- Every decoder stops at its next iteration boundary; entries stay frozen (R136). -/
def dcpStop (s : State) : State :=
  each (List.range s.part.decoders) (fun d u => setDec u d { decOf u d with work := none }) s

end Sys2Proof.Machine
end

