-- ==== Sys2Proof/Machine/Pws.lean ====
section
/-!
DEFINITION. The power stage: supply supervision (R250), the brake chopper (R251 to R253), the VM trip (R254), the drivers
(R247, R248), the link loss and its retract (R21, R249), and its latches (R267).
-/

namespace Sys2Proof.Machine

/-- VIN is good: no loss of VIN is in progress. -/
def vinGood (s : State) : Bool := !powerLost s

/-- VM as PWS last measured it. -/
def setVm (s : State) (mv : Nat) : State := setFld s F.PWS_VOLT_VM 0 (min mv 65535)

/-- VM below 9.5 V for 10 µs (Table 7.5). -/
def execVmLow (mv : Nat) (s : State) : Result :=
  .next (if mv < 9500 ∧ vinGood s = true ∧ flag s F.PWS_STAT_VM_OK = true then
    let t := setFlds (setVm s mv) 0 [(F.PWS_STAT_VM_OK, 0), (F.PWS_FAULT_VM_LOW, 1)]
    enterRectify (sendFault (raiseSource t 626) .pws 624 FK.pwsVmLow 6 0) true
  else s)

/-- VM rises to 10.0 V (Table 7.5). -/
def execVmOkRise (mv : Nat) (s : State) : Result :=
  .next (if 10000 ≤ mv ∧ flag s F.PWS_STAT_VM_OK = false then
    raiseSource (setFlag (setVm s mv) F.PWS_STAT_VM_OK 0 true) 626
  else s)

/-- VM reaches CLAMP_V: the chopper turns on (Table 7.5). -/
def execClampOn (mv : Nat) (s : State) : Result :=
  .next (if 10 * fld s F.PWS_CLAMP_CLAMP_V ≤ mv then setFlag (setVm s mv) F.PWS_STAT_CLAMP_ON 0 true else s)

/-- VM falls to CLAMP_V − 0.2 V: the chopper turns off (Table 7.5). -/
def execClampOff (mv : Nat) (s : State) : Result :=
  .next (if mv + 200 ≤ 10 * fld s F.PWS_CLAMP_CLAMP_V then setFlag (setVm s mv) F.PWS_STAT_CLAMP_ON 0 false else s)

/-- VM reaches 15.6 V (R254): the bridge floats and a restart is blocked. -/
def execVmTrip (mv : Nat) (s : State) : Result :=
  .next (if 15600 ≤ mv ∧ flag s F.PWS_FAULT_VM_TRIP = false then
    let t := setFlds (setVm s mv) 0 [(F.PWS_FAULT_VM_TRIP, 1), (F.PWS_STAT_RESTART_BLOCK, 1)]
    spnPowerFault (sendFault t .pws 624 FK.pwsVmTrip 7 0)
  else s)

/-- The chopper carries less than 0.5 A for 20 µs while on (R251, R252): an open fault. -/
def execChopOpen (ma : Nat) (s : State) : Result :=
  .next (if ma < 500 ∧ flag s F.PWS_STAT_CLAMP_ON = true ∧ flag s F.PWS_FAULT_CHOP_OPEN = false then
    let t := setFlds s 0 [(F.PWS_BRK_I_I, ma), (F.PWS_FAULT_CHOP_OPEN, 1), (F.PWS_CLAMP_REGEN_EN, 0)]
    let t := if t.spn.bridge = .regen then { t with spn := { t.spn with bridge := .shortBrake } } else t
    sendFault t .pws 624 FK.pwsChopOpen 5 0
  else s)

/-- The chopper carries more than 0.2 A for 20 µs while off (R251, R253): a stuck-on fault. -/
def execChopStuck (ma : Nat) (s : State) : Result :=
  .next (if 200 < ma ∧ flag s F.PWS_STAT_CLAMP_ON = false ∧ flag s F.PWS_FAULT_CHOP_STUCK = false then
    let t := setFlds s 0 [(F.PWS_BRK_I_I, min ma 4095), (F.PWS_FAULT_CHOP_STUCK, 1)]
    let t := sendFault t .pws 624 FK.pwsChopStuck 7 0
    let t := raiseSource (evrEvent t 6 7 625 (rd t .PWS_FAULT 0)) 625
    spnPowerFault t
  else s)

/-- The power die reaches 145 °C (Table 7.5). -/
def execThermalWarning (temp : Nat) (s : State) : Result :=
  .next (if 580 ≤ temp then
    sendFault (setFlds s 0 [(F.PWS_TEMP_TEMP, min temp 1023), (F.PWS_FAULT_THERM_WARN, 1)]) .pws 624 FK.pwsThermal 4 0
  else s)

/-- Causes of the autonomous retract (R21, R249). -/
abbrev retractAnnounced : Nat := 0
/-- An unannounced link loss. -/
abbrev retractUnannounced : Nat := 1
/-- Thermal shutdown. -/
abbrev retractThermal : Nat := 2

/-- The power die reaches 170 °C (Table 7.5): retract, and the bridge floats. -/
def execThermalShutdown (temp : Nat) (s : State) : Result :=
  .next (if 680 ≤ temp then
    let t := setFlds s 0 [(F.PWS_TEMP_TEMP, min temp 1023), (F.PWS_FAULT_THERM_SHUT, 1)]
    let t := startRetract t retractThermal
    spnPowerFault (sendFault t .pws 624 FK.pwsThermal 7 0)
  else s)

/-- VCM current above 2.0 A for 1 µs (R247): the driver turns off. -/
def execVcmShort (a : Nat) (s : State) : Result :=
  .next (if a < s.part.acts then
    let v := fld s F.PWS_FAULT_VCM_SHORT
    let t := if s.spn.retract.isSome then s else setCte s a { cteOf s a with vcm := 0 }
    sendFault (setFld t F.PWS_FAULT_VCM_SHORT 0 (v ||| 2 ^ a)) .pws (632 + a) FK.pwsVcmShort 7 0
  else s)

/-- The boost output stays below 32 V for 100 µs (R248): every microactuator goes to 0 V. -/
def execBoostFault (s : State) : Result :=
  .next (if flag s F.PWS_STAT_BOOST_OK then
    sendFault (mactZero (setFlds s 0 [(F.PWS_STAT_BOOST_OK, 0), (F.PWS_FAULT_BOOST, 1)])) .pws 624 FK.pwsBoost 5 0
  else s)

/-- The boost reaches regulation (R248). -/
def execBoostOk (s : State) : Result :=
  .next (if flag s F.PWS_UACT_CTL_BOOST_EN then setFlag s F.PWS_STAT_BOOST_OK 0 true else s)

/-- A write of PWS_FAULT (R254, R267): latches clear by a write of 1; VM_TRIP only while VM is below 13.2 V, and with it
RESTART_BLOCK falls. -/
def execPwsFaultClear (value : Word) (s : State) : Result :=
  let low := decide (fld s F.PWS_VOLT_VM < 13200)
  let w := if low then value else setBits value 2 1 0
  let keep := (rd s .PWS_FAULT 0) &&& ~~~ w
  let t := wr s .PWS_FAULT 0 keep
  .next (if bit w 2 && bit (rd s .PWS_FAULT 0) 2 then setFlag t F.PWS_STAT_RESTART_BLOCK 0 false else t)

/-- A write of PWS_CLAMP (R252, R266): CLAMP_V takes the nearer limit, and REGEN_EN stays 0 while CHOP_OPEN is latched. -/
def pwsClampWrite (s : State) (value : Word) : State :=
  setFlds s 0 [(F.PWS_CLAMP_CLAMP_V, clampNat 1300 1500 (getBits value 0 11)),
    (F.PWS_CLAMP_REGEN_EN, b2n (bit value 11 && !flag s F.PWS_FAULT_CHOP_OPEN))]

/-- A write of PWS_UACT_CTL (R248): without the boost, BOOST_OK falls. -/
def pwsUactWrite (s : State) (value : Word) : State :=
  let t := setFlag s F.PWS_UACT_CTL_BOOST_EN 0 (bit value 0)
  if bit value 0 then t else mactZero (setFlag t F.PWS_STAT_BOOST_OK 0 false)

/-- A block reset of PWS (R267, R615): every latch survives; the drivers' calibrations are abandoned. -/
def execPwsBlockReset (s : State) : Result :=
  .next (setFlag (calDrop s (fun n => decide (36 ≤ n ∧ n < 40))) F.CKR_BRST_PWS 0 false)

/-- No law-lane slot for 10 µs (R21, R193): every actuator is PARKED and the power die retracts, a retract that runs going on as
it began; the loss is announced when a chip reset is in progress. -/
def execLinkLoss (s : State) : Result :=
  .next (startRetract (linkParked (setFlag s F.PWS_STAT_LINK_OK 0 false))
    (if s.ckr.inReset then retractAnnounced else retractUnannounced))

/-- The retract has run out (R21, R249). -/
def execRetractEnd (s : State) : Result :=
  .next (match s.spn.retract with
    | none => s
    | some c =>
      let b : Bridge := if c = retractUnannounced then .shortBrake else .highZ
      let t := retractDrive { s with spn := { s.spn with retract := none, bridge := b } } 0
      if c = retractUnannounced then
        sendFault (setFlag t F.PWS_FAULT_LINK_LOSS 0 true) .pws 624 FK.pwsLink 7 0
      else t)

end Sys2Proof.Machine
end

