-- ==== Sys2Proof/Machine/Hdl.lean ====
section
/-!
DEFINITION. The head-disk assembly link: preamp frames (R44 to R46, R62), head map and head switches (R47, R48), preamp
faults (R50), the Dilon tag (R51 to R56), HDA life (R57 to R60) and the block reset (R61).
-/

namespace Sys2Proof.Machine

/-! ### Preamp frames -/

/-- A write of HDL_PSP_CMD_a (R62). -/
def execPspFrameLaunch (a : Nat) (value : Word) (s : State) : Result :=
  let busy := flag s F.HDL_PSP_CMD_BUSY a
  let take (t : State) : State := setFlds t a [(F.HDL_PSP_CMD_DATA, getBits value 0 16),
    (F.HDL_PSP_CMD_ADDR, getBits value 16 7), (F.HDL_PSP_CMD_RNW, getBits value 23 1)]
  .next (if s.part.acts ≤ a then s
  else if bit value 24 then
    if busy then setFlag s F.HDL_PSP_CMD_OVERRUN a true
    else
      let t := setFlag (take s) F.HDL_PSP_CMD_BUSY a true
      let t := if bit value 23 then setFlag t F.HDL_PSP_RDATA_VALID a false else t
      pspArb t a
  else
    let t := if bit value 30 then setFlag s F.HDL_PSP_CMD_OVERRUN a false else s
    if busy then t else take t)

/-- A frame's effect at its end (R44, R48, R50, R153, R155): the codes of a heat frame are the preamp's from here on, and a
write-mode frame serves the run it was sent for. -/
def frameEnd (s : State) (a : Nat) (f : PspFrame) (rdata : Nat) : State :=
  match f.who with
  | .firmware =>
    let t := setFlag s F.HDL_PSP_CMD_BUSY a false
    if f.rnw then setFlds t a [(F.HDL_PSP_RDATA_DATA, rdata), (F.HDL_PSP_RDATA_VALID, 1)] else t
  | .faultRead =>
    let t := setFld s F.HDL_PFLT_FAULT_CODE a rdata
    sendFault t .hdl (664 + a) FK.preampFault 5 (a * 2 ^ 38 + selHead s a * 2 ^ 33 + rdata % 2 ^ 16)
  | .headControl =>
    match f.ctl with
    | .switch =>
      let h := hdlOf s a
      (match h.switches with
      | x :: rest =>
        setHdl (setFld s F.HDL_HSEL_HEAD a x.head) a { h with switches := { x with settling := true } :: rest }
      | [] => s)
    | .readMode =>
      let w := wrpOf s a
      setWrp s a { w with
        heat := .read, heatHead := f.head, heatCode := f.data % 256, assistCode := 0
        readReady := w.readReady && w.heat != .write }
    | .writeMode =>
      let w := wrpOf s a
      setWrp s a { w with
        heat := .write, heatHead := f.head, heatCode := f.data % 256, assistCode := f.data / 256
        run := w.run.map (fun r => { r with frameDone := r.frameDone || r.no == f.run }) }

/-- A preamp frame ends, and the port frees (R44, R45). -/
def execPspFrameEnd (a rdata : Nat) (s : State) : Result :=
  .next (match (hdlOf s a).running with
    | none => s
    | some f => pspArb (frameEnd (setHdl s a { hdlOf s a with running := none }) a f (rdata % 65536)) a)

/-! ### Preamp faults -/

/-- PFLT_N_a stays low for 40 ns (R50). -/
def execPreampFault (a : Nat) (s : State) : Result :=
  .next (if a < s.part.acts ∧ (hdlOf s a).pfltLow = false then
    let t := setFlds (setHdl s a { hdlOf s a with pfltLow := true, faultPending := true }) a
      [(F.HDL_PFLT_ACTIVE, 1), (F.HDL_PFLT_LATCHED, 1)]
    pspArb (lnePreampFault (wrpCut t a 0x14) a) a
  else s)

/-- PFLT_N_a returns high (R50). -/
def execPfltNRelease (a : Nat) (s : State) : Result :=
  .next (if a < s.part.acts then
    setFlag (setHdl s a { hdlOf s a with pfltLow := false }) F.HDL_PFLT_ACTIVE a false
  else s)

/-! ### Head map and switches -/

/-- The first failing rule of R47 in entry order; 0 when the map may be locked. -/
def headMapError (s : State) : Nat :=
  let valid (h : Nat) : Bool := flag s F.HDL_HEADMAP_VALID h
  let act (h : Nat) : Nat := fld s F.HDL_HEADMAP_ACT h
  let rule (h : Nat) : Nat :=
    if !valid h then 0
    else if s.part.acts ≤ act h then 1
    else if (List.range h).any (fun k => valid k && act k == act h &&
      fld s F.HDL_HEADMAP_PREAMP_HEAD k == fld s F.HDL_HEADMAP_PREAMP_HEAD h) then 2
    else if 8 ≤ countBelow (fun k => valid k && act k == act h) h then 3
    else 0
  (((List.range s.part.heads).map rule).find? (fun e => e != 0)).getD 0

/-- A write of HDL_HEADMAP_LOCK (R47). -/
def execHeadmapLock (value : Word) (s : State) : Result :=
  .next (if bit value 0 ∧ flag s F.HDL_HEADMAP_LOCK_LOCK = false then
    let e := headMapError s
    setFlds s 0 [(F.HDL_HEADMAP_LOCK_LOCK, b2n (e == 0)), (F.HDL_HEADMAP_LOCK_ERR_CODE, e)]
  else s)

/-- Inhibit 3 arises during a write run, which ends WRITE_INHIBIT (Table 5.3). -/
def headInhibit (s : State) : State :=
  each (List.range s.part.acts) (fun a u => if inhibit u a 3 then wrpCut u a 0x50 else u) s

/-- A write of HDL_HEADMAP_h (R47, Table 2.3): once LOCK is 1 only DISABLED is writable. -/
def headMapWrite (s : State) (h : Nat) (value : Word) : State :=
  if s.part.heads ≤ h then s
  else if flag s F.HDL_HEADMAP_LOCK_LOCK then headInhibit (setFlag s F.HDL_HEADMAP_DISABLED h (bit value 7))
  else setFlds s h [(F.HDL_HEADMAP_PREAMP_HEAD, getBits value 0 3), (F.HDL_HEADMAP_ACT, getBits value 3 2),
    (F.HDL_HEADMAP_SWAP, getBits value 5 1), (F.HDL_HEADMAP_VALID, getBits value 6 1),
    (F.HDL_HEADMAP_DISABLED, getBits value 7 1)]

/-- A write of HDL_HSEL_a (R48). -/
def execHeadSwitchRequest (a head : Nat) (s : State) : Result :=
  .next (if a < s.part.acts then (requestSwitch s a (head % 32) none).2 else s)

/-- The settle of the oldest switch has passed (R43, R48, R67, R153, R184, R193, R615): the routing is applied, the front end
recovers, the channel and the control engine take the new head, a read-mode frame is due, and a media seek that asked for it
goes on. -/
def execHeadSwitchDone (a : Nat) (s : State) : Result :=
  let h := hdlOf s a
  .next (match h.switches with
    | x :: rest =>
      if x.settling then
        let t := setHdl s a { h with switches := rest, swap := flag s F.HDL_HEADMAP_SWAP x.head }
        let t := setFlds t a [(F.HDL_HSEL_STATUS, 0), (F.HDL_HSEL_PENDING, b2n (!rest.isEmpty))]
        let t := cteHeadSwitch (svgHeadSwitch (calDropAct (raiseSource t (668 + a)) a) a x.head) a
        let t := hpfPulse (setWrp t a { wrpOf t a with readFrames := (wrpOf t a).readFrames ++ [none] }) a
        let t := match x.media with
          | some o => (match opAt t o with
            | some m => if m.phase = .headSwitch then
                mediaSeek (setOp t o (some { m with phase := .issued })) o a m.track m.offset else t
            | none => t)
          | none => t
        pspArb t a
      else s
    | [] => s)

/-! ### The Dilon tag -/

/-- The tag's state set, with its reason; a change raises source 657. -/
def setTagState (s : State) (st reason : Nat) : State :=
  let t := setFlds s 0 [(F.HDL_TAG_STATUS_STATE, st), (F.HDL_TAG_STATUS_REASON, reason)]
  let t := if fld s F.HDL_TAG_STATUS_STATE = st then t else raiseSource t 657
  setReady t F.CKR_READY_HDA 0 (st == 2)

/-- A command sent to the tag (Table 2.5). -/
def sendTag (s : State) (c : TagCmd) : State :=
  { s with tag := { s.tag with cmd := some c, retryDue := false, retries := 0 } }

/-- INC_CTR of counter k sent with its shadow delta (R58). -/
def sendInc (s : State) (k : Nat) : State :=
  let t := sendTag s (.incCtr k)
  { t with tag := { t.tag with commit := some k, sent := tget (dflt 0) s.tag.shadow k } }

/-- Table 2.6 runs: the tag is AUTHENTICATING or REPAIRING. -/
def tagBusy (s : State) : Bool := decide (fld s F.HDL_TAG_STATUS_STATE = 1 ∨ fld s F.HDL_TAG_STATUS_STATE = 4)

/-- A life commit asked for (R58): it starts now, or when the running one or Table 2.6 ends. -/
def requestCommit (s : State) : State :=
  let t := setFlag s F.HDL_LIFE_COMMIT_BUSY 0 true
  if s.tag.commit.isSome || tagBusy s then { t with tag := { t.tag with commitWaiting := true } }
  else sendInc t 0

/-- The first command of Table 2.6, or of its steps 7 and 8: sent now, or when the running commit ends. -/
def startTag (s : State) (c : TagCmd) : State :=
  if s.tag.commit.isSome then { s with tag := { s.tag with startWaiting := some c } } else sendTag s c

/-- What waits starts when the tag port is free: Table 2.6 or a part of it, else a commit. -/
def tagIdle (s : State) : State :=
  if s.tag.commit.isSome then s
  else match s.tag.startWaiting with
    | some c => sendTag { s with tag := { s.tag with startWaiting := none } } c
    | none =>
      if s.tag.commitWaiting && !tagBusy s then sendInc { s with tag := { s.tag with commitWaiting := false } } 0
      else s

/-- A life commit ends (R58, R59). -/
def commitEnd (s : State) (ok : Bool) : State :=
  let t := { s with tag := { s.tag with cmd := none, retryDue := false, commit := none } }
  let t := setFlag t F.HDL_LIFE_COMMIT_BUSY 0 s.tag.commitWaiting
  let t := if ok then
      setFld (setFlds t 0 [(F.HDL_LIFE_COMMIT_FAIL, 0), (F.HDL_LIFE_COMMIT_FAILS, 0)]) F.HDL_LIFE_LAST_TIME 0 (now s)
    else
      let u := bump (setFlag t F.HDL_LIFE_COMMIT_FAIL 0 true) F.HDL_LIFE_COMMIT_FAILS
      if fld u F.HDL_LIFE_COMMIT_FAILS = 3 ∧ fld s F.HDL_LIFE_COMMIT_FAILS = 2 then
        sendFault u .hdl 656 FK.tagCommit 4 0 else u
  tagIdle t

/-- BLOCKED entered with its reason (Table 2.7); only out of AUTHENTICATING is a fault raised. -/
def tagBlock (s : State) (reason kind : Nat) : State :=
  let t := { s with tag := { s.tag with cmd := none, retryDue := false } }
  let was := fld s F.HDL_TAG_STATUS_STATE
  let t := setTagState t 3 (if was = 4 then 2 else reason)
  tagIdle (if was = 1 then sendFault t .hdl 656 kind 6 0 else t)

/-- PAIRED entered: readiness rises and EV_HDA_PAIRED is entered (Table 2.7, Table 15.6). -/
def tagPaired (s : State) : State :=
  let t := { s with tag := { s.tag with cmd := none } }
  let h := s.tag.identity.getD 0
  let w (k : Nat) : Word := BitVec.ofNat 64 (h / 2 ^ (64 * k))
  tagIdle (evrEvent (setTagState t 2 0) 10 3 657 (w 0) (w 1))

/-- SEC releases HDL, and the sequence of Table 2.6 starts (R53, R54). -/
def execTagAuthentication (s : State) : Result :=
  .next (if fld s F.HDL_TAG_STATUS_STATE = 0 then
    let t := setFld (setTagState s 1 0) F.HDL_TAG_STATUS_RETRIES 0 0
    startTag { t with tag := { t.tag with released := true, chunks := 0, identity := none } } .getId
  else s)

/-- Values loaded by index from a response. -/
def loadValues (l : List Nat) : List (Nat × Nat) :=
  (List.range 5).foldl (fun m k => tset (dflt 0) m k (l.getD k 0)) []

/-- The answer to INC_CTR of counter k (R52, R58): the tag's current value is the committed one, and what the tag has added
since leaves the shadow, so no delta counts twice (R61). With the value that the delta asked for, the next counter follows. A
higher one than the committed value, a mismatch after an add whose answer was lost, has the rest sent again; any other fails
the commit, whose later indices are then not sent. -/
def incAnswer (s : State) (k cur : Nat) : State :=
  let old := tget (dflt 0) s.tag.committed k
  let want := min (old + s.tag.sent) (2 ^ 64 - 1)
  let u := { s with tag := { s.tag with
    committed := tset (dflt 0) s.tag.committed k (max old cur)
    shadow := tset (dflt 0) s.tag.shadow k (tget (dflt 0) s.tag.shadow k - (if cur = want then s.tag.sent else cur - old)) } }
  if cur = want then (if k < 4 then sendInc u (k + 1) else commitEnd u true)
  else if old < cur then sendInc u k
  else commitEnd u false

/-- The tag answers the command sent (R51 to R54, R58): values are the answer's numbers, good the verdict of its
signature or chain. -/
def execTagResponse (values : List Nat) (good : Bool) (s : State) : Result :=
  let t := { s with tag := { s.tag with retryDue := false } }
  .next (if s.tag.retryDue then s
  else match s.tag.cmd with
    | none => s
    | some .getId =>
      let t := setMeas t 4 (values.getD 0 0)
      sendTag { t with tag := { t.tag with identity := some (values.getD 0 0), serial := values.getD 1 0, chunks := 0 } } .getCert
    | some .getCert =>
      if s.tag.chunks < 7 then sendTag { t with tag := { t.tag with chunks := s.tag.chunks + 1 } } .getCert
      else if good then sendTag t .challenge else tagBlock t 2 FK.hdaAuth
    | some .challenge =>
      if !good then tagBlock t 2 FK.hdaAuth
      else if s.sec.pairing.isNone then
        tagBlock t (if fld s F.SEC_LC_STATE = 2 then 4 else 3) FK.hdaMismatch
      else if s.sec.pairing = s.tag.identity then sendTag t .readCtr
      else tagBlock t 4 FK.hdaMismatch
    | some .readCtr =>
      if good then sendTag { t with tag := { t.tag with committed := loadValues values } } .readLimits
      else tagBlock t 2 FK.hdaAuth
    | some .readLimits =>
      if good then
        tagPaired (each (List.range 5) (fun k u => wr u .HDL_LIFE_RATED k (BitVec.ofNat 64 (values.getD k 0))) t)
      else tagBlock t 2 FK.hdaAuth
    | some (.incCtr k) => incAnswer t k (values.getD 1 0))

/-- No response within 200 ms, or a NAK (R51): a retry is due, or after two the command fails. -/
def execTagNoResponse (s : State) : Result :=
  .next (match s.tag.cmd with
    | none => s
    | some c =>
      if s.tag.retryDue then s
      else if s.tag.retries < 2 then { s with tag := { s.tag with retryDue := true } }
      else match c with
        | .incCtr _ => commitEnd s false
        | _ => tagBlock s 1 FK.hdaAuth)

/-- 10 ms after a failed attempt the command is sent again (R51). -/
def execTagRetry (s : State) : Result :=
  .next (if s.tag.cmd.isSome && s.tag.retryDue then
    let t := { s with tag := { s.tag with retryDue := false, retries := s.tag.retries + 1 } }
    if tagBusy s then bump t F.HDL_TAG_STATUS_RETRIES else t
  else s)

/-- The flash tier holds dirty data of the identity last paired: a flush image, or units firmware counts in
CKR_DIRTY_TIER (R56, R496, R610). -/
def tierDirty (s : State) : Bool := flag s F.FLT_STAT_IMAGE_HELD || decide (fld s F.CKR_DIRTY_TIER_N ≠ 0)

/-- Re-pairing to the tag's identity (R54, R56), from REPAIRING with its steps 7 and 8 on: dirty data of the old one, the flush
image and the count firmware keeps, is discarded first and recorded. -/
def acceptRepair (s : State) : State :=
  let t := if tierDirty s then
      let u := { s with flt := { s.flt with image := none, erased := s.flt.erased && s.flt.image.isNone } }
      setFld (setFlag (sendFault u .hdl 656 FK.hdaMismatch 6 0) F.FLT_STAT_IMAGE_HELD 0 false) F.CKR_DIRTY_TIER_N 0 0
    else s
  let t := { t with sec := { t.sec with pairing := t.tag.identity } }
  startTag (setTagState t 4 0) .readCtr

/-- A re-pair may be taken: BLOCKED with REASON UNPAIRED or MISMATCH (Table 2.7). -/
def repairable (s : State) : Bool :=
  decide (fld s F.HDL_TAG_STATUS_STATE = 3 ∧ (fld s F.HDL_TAG_STATUS_REASON = 3 ∨ fld s F.HDL_TAG_STATUS_REASON = 4))

/-- A write of HDL_TAG_REPAIR (R56): DISCARD_DIRTY is set by writing 1 and holds for the request that GO makes. The spec
numbers no status: an accepted request reads 0, and the status of a refusal is a free value other than 0. -/
def execTagRepair (value : Word) (s : State) : Result :=
  let discard := flag s F.HDL_TAG_REPAIR_DISCARD_DIRTY || bit value 1
  .next (if !bit value 0 then setFlag s F.HDL_TAG_REPAIR_DISCARD_DIRTY 0 discard
  else
    let s := setFlag s F.HDL_TAG_REPAIR_DISCARD_DIRTY 0 false
    let f := freshWord s
    if repairable s && decide (fld s F.SEC_LC_STATE ∈ [1, 3]) && (!tierDirty s || discard) then
      setFld (acceptRepair s) F.HDL_TAG_REPAIR_STATUS 0 0
    else setFld f.2 F.HDL_TAG_REPAIR_STATUS 0 (f.1.toNat % 255 + 1))

/-! ### Life commits -/

/-- A write of HDL_LIFE_COMMIT (R58). -/
def execLifeCommit (value : Word) (s : State) : Result := .next (if bit value 0 then requestCommit s else s)

/-- Every 4 h of drive time (R58). -/
def execLifeCommitTimer (s : State) : Result :=
  .next (if s.tag.lastTimer + 14400000 ≤ now s then
    requestCommit { s with tag := { s.tag with lastTimer := now s } }
  else s)

/-! ### Block reset -/

/-- A block reset's effect on one actuator's port (R61): frames and switches are abandoned, then the write run in progress
ends, with the read-mode frame that follows a run (R153). -/
def hdlResetAct (s : State) (a : Nat) : State :=
  let h := hdlOf s a
  let t := match h.switches with
    | [] => s
    | l => each l (fun x u => match x.media with | some o => mediaDone u o 0x45 0 false | none => u)
        (setFlds s a [(F.HDL_HSEL_STATUS, 0x45), (F.HDL_HSEL_PENDING, 0)])
  let t := setFlag t F.HDL_PSP_CMD_BUSY a false
  let t := setHdl t a { h with
    running := none, switches := [], ptr := 0, faultPending := h.pfltLow && (h.faultPending ||
      (match h.running with | some f => f.who == .faultRead | none => false)) }
  let t := wrpCut (setWrp t a { wrpOf t a with readFrames := [], writeFrame := false }) a 0x50
  setHdl t a { hdlOf t a with wg := false }

/-- A block reset of HDL (R61). -/
def hdlBlockReset (s : State) : State :=
  let t := each (List.range s.part.acts) (fun a u => pspArb (hdlResetAct u a) a) (setFlag s F.CKR_BRST_HDL 0 false)
  let t := { t with tag := { t.tag with cmd := none, retryDue := false, retries := 0, chunks := 0, startWaiting := none } }
  let t := when t.tag.commit.isSome (fun u => sendInc u 0) t
  match fld t F.HDL_TAG_STATUS_STATE with
  | 1 => startTag t .getId
  | 4 => startTag t .readCtr
  | _ => t

/-- A block reset of HDL. -/
def execHdlBlockReset (s : State) : Result := .next (hdlBlockReset s)

/-- A sector's last postamble bit is written (R157). -/
def execSectorWritten (a : Nat) (s : State) : Result := .next (sectorWritten s a)

end Sys2Proof.Machine
end

