-- ==== Sys2Proof/Machine/Spl.lean ====
section
/-!
DEFINITION. Firmware Spools (R456 to R464): the operations that cores and Shuttles share, and the core commands.
-/

namespace Sys2Proof.Machine

/-- Firmware Spool k. -/
def spoolOf (s : State) (k : Nat) : Spool := tget (dflt {}) s.spools k

/-- Firmware Spool k replaced; a Spool that holds a word asserts its source (R464). -/
def setSpool (s : State) (k : Nat) (x : Spool) : State :=
  let t := { s with spools := tset (dflt {}) s.spools k x }
  if flag t F.SPL_FW_CFG_IRQ_EN k && !x.words.isEmpty then raiseSource t (896 + k) else t

/-- The producer's side is the cores'. -/
def coreProducer (s : State) (k : Nat) : Bool := flag s F.SPL_FW_CFG_PROD k

/-- The consumer's side is the cores'. -/
def coreConsumer (s : State) (k : Nat) : Bool := flag s F.SPL_FW_CFG_CONS k

/-- The depth of a Spool (R461). -/
def spoolDepth (s : State) (k : Nat) : Nat := if coreProducer s k && !coreConsumer s k then 14 else 13

/-- Producer e sees the Spool as full (R459, R463). -/
def spoolFull (s : State) (k e : Nat) : Bool :=
  let x := spoolOf s k
  x.closing || decide (spoolDepth s k ≤ x.words.length) ||
    (match x.owner with | some o => decide (o ≠ e) | none => false)

/-- A word written by producer e, to whom the Spool is not full; while dropping it is discarded (R458, R463). -/
def spoolPut (s : State) (k e : Nat) (w : Word) (last : Bool) : State :=
  let x := spoolOf s k
  let owner := if last then none else some e
  if x.dropping then setSpool s k { x with owner := owner, dropping := !last, atEnd := last || x.atEnd }
  else setSpool s k { x with owner := owner, words := x.words ++ [(w, last, false)] }

/-- A word read by the consumer: the word, LAST, POISON, underrun, and the state (R456, R457). `bad`: the word's parity
fails; `source` and `b` name the consumer's block. -/
def spoolGet (s : State) (k : Nat) (bad : Bool) (b : Block) : (Word × Bool × Bool × Bool) × State :=
  let x := spoolOf s k
  match x.words with
  | [] => ((x.last, false, false, true), setFlag s F.SPL_FW_STAT_UNDERRUN k true)
  | (w, last, poison) :: rest =>
    let t := setSpool s k { x with words := rest, last := w, atEnd := last }
    let t := if bad then sendFault (bump t F.SPL_PAR_CNT_FW) b b.faultSource FK.splParity 4 k else t
    ((w, last, poison || bad, false), t)

/-- The words of a Spool after its next LAST word; none when no LAST word is held. -/
def afterLast : List (Word × (Bool × Bool)) → Option (List (Word × (Bool × Bool)))
  | [] => none
  | (_, last, _) :: rest => if last then some rest else afterLast rest

/-- DROP_PKT (R458). -/
def spoolDrop (s : State) (k : Nat) : State :=
  let x := spoolOf s k
  if x.atEnd ∨ x.dropping = true then s
  else match afterLast x.words with
    | some rest => setSpool s k { x with words := rest, atEnd := true }
    | none => setSpool s k { x with words := [], dropping := true }

/-- A Spool emptied (R464). -/
def spoolFlush (s : State) (k : Nat) : State := setSpool s k {}

/-- A producer was trapped or reset (R463): its open packets wait for their closing words. -/
def producerLost (s : State) (e : Nat) : State :=
  each (List.range 32) (fun k t =>
    let x := spoolOf t k
    if x.owner = some e then setSpool t k { x with closing := true } else t) s

/-- The closing word is written once there is space (R463). -/
def execClosingWord (k : Nat) (s : State) : Result :=
  let x := spoolOf s k
  if x.closing ∧ x.words.length < spoolDepth s k then
    if x.dropping then
      .next (setSpool s k { x with closing := false, owner := none, dropping := false, atEnd := true })
    else .next (setSpool s k { x with closing := false, owner := none, words := x.words ++ [(0#64, true, true)] })
  else .next s

/-- A push by core c (R461, R462). -/
def corePush (s : State) (c k : Nat) (w : Word) (last : Bool) : State :=
  if s.part.cores ≤ c ∨ 32 ≤ k then s
  else if !coreProducer s k || spoolFull s k c then setFlag s F.SPL_FW_STAT_OVERFLOW k true
  else spoolPut s k c w last

/-- SPL_FW_PUSH_k (R462). -/
def execSplFwPush (c k : Nat) (value : Word) (s : State) : Result := .next (corePush s c k value false)

/-- SPL_FW_PUSH_LAST_k (R462). -/
def execSplFwPushLast (c k : Nat) (value : Word) (s : State) : Result := .next (corePush s c k value true)

/-- A read of SPL_FW_POP_k by core c (R457, R461, R462). -/
def corePop (s : State) (c k : Nat) (bad : Bool) : State :=
  if s.part.cores ≤ c ∨ 32 ≤ k then s
  else if !coreConsumer s k then answer (setFlds s c [(F.SPL_POPSTAT_LAST, 0), (F.SPL_POPSTAT_POISON, 0),
    (F.SPL_POPSTAT_UNDERRUN, 1)]) 0#64
  else
    let r := spoolGet s k bad .svc
    answer (setFlds r.2 c [(F.SPL_POPSTAT_LAST, b2n r.1.2.1), (F.SPL_POPSTAT_POISON, b2n r.1.2.2.1),
      (F.SPL_POPSTAT_UNDERRUN, b2n r.1.2.2.2)]) r.1.1

/-- SPL_FW_POP_k (R457). -/
def execSplFwPop (c k : Nat) (bad : Bool) (s : State) : Result := .next (corePop s c k bad)

/-- A write of SPL_FW_DROP_k by core c (R458, R461). -/
def coreDrop (s : State) (c k : Nat) (value : Word) : State :=
  if s.part.cores ≤ c ∨ 32 ≤ k ∨ bit value 0 = false then s
  else if !coreConsumer s k then setFlag s F.SPL_FW_STAT_OVERFLOW k true
  else spoolDrop s k

/-- SPL_FW_DROP_k (R458). -/
def execDropPkt (c k : Nat) (value : Word) (s : State) : Result := .next (coreDrop s c k value)

/-- A write of SPL_FW_CFG_k (R461, R464). -/
def spoolCfgWrite (s : State) (k : Nat) (value : Word) : State :=
  if 32 ≤ k then s
  else
    let t := if bit value 3 then spoolFlush s k else s
    let t := setFlag t F.SPL_FW_CFG_IRQ_EN k (bit value 2)
    let x := spoolOf t k
    let t := setSpool t k x
    if x.words.isEmpty && x.owner.isNone &&
        (bit value 0 != flag t F.SPL_FW_CFG_PROD k || bit value 1 != flag t F.SPL_FW_CFG_CONS k) then
      spoolFlush (setFlds t k [(F.SPL_FW_CFG_PROD, getBits value 0 1), (F.SPL_FW_CFG_CONS, getBits value 1 1)]) k
    else t

/-- SPL_FW_CFG_k.FLUSH (R464). -/
def execFlush (k : Nat) (s : State) : Result := .next (if k < 32 then spoolFlush s k else s)

/-- A write of PROD or CONS (R461). -/
def execSpoolConfigWrite (k : Nat) (value : Word) (s : State) : Result := .next (spoolCfgWrite s k value)

/-- A block reset of SPL (R464). -/
def execSplBlockReset (s : State) : Result :=
  .next (setFlag (each (List.range 32) (fun k t => spoolFlush t k) s) F.CKR_BRST_SPL 0 false)

end Sys2Proof.Machine
end

