-- ==== Sys2Proof/Machine/Svc.lean ====
section
/-!
DEFINITION. Service cores as the control space sees them (R508, R509, R516, R517) and the hardware semaphores (R514,
R515).
-/

namespace Sys2Proof.Machine

/-- Semaphore n. -/
def semOf (s : State) (n : Nat) : Sem := tget (dflt {}) s.svc.sems n

/-- Semaphore n replaced. -/
def setSem (s : State) (n : Nat) (x : Sem) : State :=
  { s with svc := { s.svc with sems := tset (dflt {}) s.svc.sems n x } }

/-- An engine is reset, or trapped and resumed: its semaphores become free and orphaned (R515), and the packets it has
open on firmware Spools wait for their closing words (R463). -/
def engineLost (s : State) (e : Nat) : State :=
  producerLost (each (List.range 64) (fun n t =>
    if (semOf t n).owner = some e then setSem t n { owner := none, orphaned := true } else t) s) e

/-- A write of SVC_CORE_CTL_c (R509, R530). A core put in reset loses the NMI it has not taken; its deque is kept. -/
def coreCtlWrite (s : State) (c : Nat) (value : Word) : State :=
  if s.part.cores ≤ c then s
  else
    let was := flag s F.SVC_CORE_CTL_RUN c
    let run := bit value 0
    let t := setFlds s c [(F.SVC_CORE_CTL_RUN, b2n run), (F.SVC_CORE_CTL_DQ_IE, getBits value 1 1),
      (F.SVC_CORE_CTL_DQ_STEAL_IE, getBits value 2 1)]
    if run && !was then setFld t F.SVC_CORE_CTL_STATE c 1
    else if !run && was then
      engineLost { setFld t F.SVC_CORE_CTL_STATE c 0 with
        fcl := { t.fcl with nmi := t.fcl.nmi.filter (fun k => decide (k ≠ c)) } } c
    else t

/-- Setting SVC_CORE_CTL_c.RUN (R509): the core leaves reset and fetches from SVC_CORE_PC_c. -/
def execCoreRun (c : Nat) (value : Word) (s : State) : Result := .next (coreCtlWrite s c (setBits value 0 1 1))

/-- Clearing SVC_CORE_CTL_c.RUN (R509, R515). -/
def execCoreHold (c : Nat) (value : Word) (s : State) : Result := .next (coreCtlWrite s c (setBits value 0 1 0))

/-- SVC_SEM_n as a read returns it (Table 14.10). -/
def semWord (busy : Bool) (owner : Nat) (orphaned : Bool) : Word :=
  BitVec.ofNat 64 (b2n busy + owner % 64 * 2 + b2n orphaned * 2 ^ 7)

/-- A read of SVC_SEM_n by engine e (R514). -/
def semRead (s : State) (e n : Nat) : State :=
  if enginePresent s e = false ∨ 64 ≤ n then s
  else
    let x := semOf s n
    match x.owner with
    | none => answer (setSem s n { owner := some e, orphaned := false }) (semWord false e x.orphaned)
    | some o => answer s (semWord (decide (o ≠ e)) o x.orphaned)

/-- A read of SVC_SEM_n (R514). -/
def execSemaphoreRead (e n : Nat) (s : State) : Result := .next (semRead s e n)

/-- A write of SVC_SEM_n by engine e (R514): a release by another than the owner is ignored, counted, and raises SVC's
source. -/
def semWrite (s : State) (e n : Nat) (value : Word) : State :=
  if 64 ≤ n ∨ bit value 31 = false then s
  else if (semOf s n).owner = some e then setSem s n { semOf s n with owner := none }
  else raiseSource (bump s F.SVC_SEM_ERR_N) 993

/-- A write of SVC_SEM_n with RELEASE (R514). -/
def execSemaphoreRelease (e n : Nat) (value : Word) (s : State) : Result :=
  .next (semWrite s e n (setBits value 31 1 1))

/-- A write of SVC_IPI_SET (R517): bits of absent cores are ignored. -/
def ipiSet (s : State) (value : Word) : State :=
  each ((List.range s.part.cores).filter (bit value)) (fun c t => setFlag t F.SVC_MSIP_MSIP c true) s

/-- A write of SVC_IPI_SET (R517). -/
def execIpiSet (value : Word) (s : State) : Result := .next (ipiSet s value)

/-- The timer input of a core is due (Table 14.2). -/
def timerDue (s : State) (c : Nat) : Bool := decide ((rd s .SVC_MTIMECMP c).toNat ≤ (rd s .SVC_MTIME 0).toNat)

/-- SVC_MTIME has reached SVC_MTIMECMP_c (R516): the core's timer input is asserted. -/
def execTimerInterrupt (c : Nat) (s : State) : Result :=
  if c < s.part.cores ∧ timerDue s c = true then
    .next { s with svc := { s.svc with timer := tset (dflt false) s.svc.timer c true } }
  else .next s

/-- SVC_MTIME or a compare value is written: inputs no longer due fall (R516). -/
def timerFall (s : State) : State :=
  { s with svc := { s.svc with timer := s.svc.timer.filter (fun x => timerDue s x.1) } }

end Sys2Proof.Machine
end

