-- ==== Sys2Proof/Machine/Shuttle.lean ====
section
/-!
DEFINITION. A Shuttle's registers, local store, tags, frames and events (R269 to R274, R278, R283, R298, R305), and
what happens to it from outside its program: traps, timeouts, reset, enable and resume (R287, R310, R311).
-/

namespace Sys2Proof.Machine

/-- Shuttle k is present (R269). -/
def shPresent (s : State) (k : Nat) : Bool := decide (k < s.part.shuttles)

/-- A Shuttle changed. -/
def modSht (s : State) (k : Nat) (f : Shuttle → Shuttle) : State := setSht s k (f (shtOf s k))

/-! ### Registers and local store -/

/-- Register r; w0 reads zero (R272). -/
def wGet (h : Shuttle) (r : Nat) : Word := if r = 0 then 0#64 else tget (dflt 0#64) h.w r

/-- Register r set; a write to w0 is discarded (R272). -/
def wSet (h : Shuttle) (r : Nat) (v : Word) : Shuttle := if r = 0 then h else { h with w := tset (dflt 0#64) h.w r v }

/-- A byte of local store. -/
def lsByte (h : Shuttle) (a : Nat) : Byte := tget memDefault h.store a

/-- Bytes of local store. -/
def lsBytes (h : Shuttle) (a n : Nat) : List Byte := (List.range n).map (fun k => lsByte h (a + k))

/-- Bytes stored in local store. -/
def lsStore (h : Shuttle) (a : Nat) : List Byte → Shuttle
  | [] => h
  | b :: t => lsStore { h with store := tset memDefault h.store a b } (a + 1) t

/-- A 64-bit word of local store, little-endian (R10). -/
def lsWord (h : Shuttle) (a : Nat) : Word := BitVec.ofNat 64 (leNat (lsBytes h a 8))

/-- A 64-bit word stored in local store. -/
def lsStoreWord (h : Shuttle) (a : Nat) (v : Word) : Shuttle := lsStore h a (wordBytes v)

/-- The end of the code region (R270). -/
def codeTop (s : State) : Nat := fld s F.SHT_CODE_TOP_TOP

/-- The frames' region (Table 8.1). -/
def frameBase : Nat := 0x7C00

/-! ### Tags and frames -/

/-- The operation of a tag. -/
def tagOp (h : Shuttle) (t : Nat) : Option MediaOp := tget (dflt none) h.tags t

/-- The operation of a tag replaced. -/
def setTag (h : Shuttle) (t : Nat) (m : Option MediaOp) : Shuttle := { h with tags := tset (dflt none) h.tags t m }

/-- Tag t is in use by an owner. -/
def tagOwned (h : Shuttle) (t : Nat) (o : TagOwner) : Bool :=
  match tagOp h t with
  | some m => m.owner == o
  | none => false

/-- Some asynchronous tag is in use by an owner. -/
def ownsTags (h : Shuttle) (o : TagOwner) : Bool := (List.range 8).any (fun t => tagOwned h t o)

/-- The lowest free tag (R283). -/
def freeTag (h : Shuttle) : Option Nat := firstFree (fun t => (tagOp h t).isSome) 8

/-- Every tag of one owner given to another. -/
def passTags (h : Shuttle) (o p : TagOwner) : Shuttle :=
  (List.range 9).foldl (fun x t =>
    match tagOp x t with
    | some m => if m.owner = o then setTag x t (some { m with owner := p }) else x
    | none => x) h

/-- Frame f is in use. -/
def frameUsed (h : Shuttle) (f : Nat) : Bool := h.frames.any (fun x => decide (x.f = f))

/-! ### Events -/

/-- An event of Table 8.8 is true for an owner of tags; TIME is no event but the timeout itself, and with no timeout it has
elapsed. -/
def eventTrue (s : State) (k : Nat) (o : TagOwner) (e : Event) : Bool :=
  let h := shtOf s k
  match e.kind with
  | 0 => !tagOwned h (e.sel % 8) o
  | 1 => !(spoolOf s (e.sel % 32)).words.isEmpty
  | 2 => !spoolFull s (e.sel % 32) (16 + k)
  | 3 => decide (e.sel % 4 < s.part.acts) && !(dcpOf s (e.sel % 4)).ring.isEmpty
  | 4 => decide (e.timeout = 0)
  | 5 => pendingBit s (e.sel % 2048)
  | 6 => !ownsTags h o
  | _ => true

/-- What a timeout answers (R298, R299): 0 for TIME, else WAIT_TMO; none without a timeout. -/
def timeoutResult (e : Event) : Option Nat :=
  if e.timeout = 0 then none else if e.kind = 4 then some 0 else some 0x8F

/-- The event saved in a frame (R305): its deadline in place of its timeout. -/
def frameEvent (h : Shuttle) (f : Nat) : Event :=
  let w := lsWord h (frameBase + 0x100 * f + 120)
  { kind := getBits w 23 4, sel := getBits w 28 11, timeout := (lsWord h (frameBase + 0x100 * f + 128)).toNat }

/-! ### Retirement -/

/-- The running instruction retires and the next follows it (R274). -/
def retire (h : Shuttle) : Shuttle := { h with st := .run, pc := (h.pc + 4) % 2 ^ 64 }

/-- A status in LS, and the instruction retires (R273). -/
def retireLs (h : Shuttle) (status : Nat) : Shuttle := retire { h with ls := status % 256 }

/-- A status in RD and LS, and the instruction retires. -/
def retireBoth (h : Shuttle) (rd status : Nat) : Shuttle := retireLs (wSet h rd (BitVec.ofNat 64 status)) status

/-! ### Traps and resets -/

/-- A trap of Table 8.9 (R310). Its tags run on with no owner, its frames and its deque are kept. -/
def trap (s : State) (k cause addr op : Nat) : State :=
  let h := shtOf s k
  let t := setFlds s k [(F.SHT_TRAP_CAUSE, cause), (F.SHT_TRAP_PC, h.pc), (F.SHT_TRAP_ADDR, addr),
    (F.SHT_TRAP_OPCODE, op)]
  let t := bump (wr t .SHT_LOST k h.task) F.SHT_CNT_TRAPS k
  let t := setSht t k { passTags h .running .nobody with st := .trapped, waiting := none, barrier := none }
  let t := sendFault t .sht (264 + k) FK.shtTrap 5 ((16 + k) * 2 ^ 34 + cause * 2 ^ 29 + h.pc % 2 ^ 15)
  producerLost t (16 + k)

/-- A barrier arrival is withdrawn (R309). -/
def withdraw (s : State) (e : Nat) : State :=
  { s with loom := { s.loom with barriers := s.loom.barriers.filterMap (fun b =>
      let l := b.2.arrived.filter (fun x => decide (x.1 ≠ e))
      if l.isEmpty then none else some (b.1, { arrived := l })) } }

/-- A media operation given up by its Shuttle: a run not yet accepted is withdrawn, an accepted one receives a Shuttle
abort, a seek is detached (R287, Table 8.10). -/
def abortOp (s : State) (o : OpRef) (m : MediaOp) : State :=
  match m.phase, m.kind with
  | .issued, .seek => detachSeek s o m.act
  | .issued, .wrrun => wrpAbort s o m.act
  | .issued, _ => lneStopOp s o m.act
  | _, _ => s

/-- A Shuttle reset (Table 8.10): descriptors are not written, frames are discarded, tags freed; the deque is kept. -/
def shReset (s : State) (k : Nat) : State :=
  if shPresent s k then
    let h := shtOf s k
    let live := h.st == .run || h.st == .stall || h.st == .wait
    let t := wr s .SHT_LOST k (if live then h.task else 0#64)
    let t := each (List.range 9) (fun g u =>
      match tagOp h g with
      | some m => abortOp u { sh := k, tag := g } m
      | none => u) t
    let t := engineLost (withdraw t (16 + k)) (16 + k)
    modSht t k (fun x => { x with
      st := if flag s F.SHT_S_CTL_EN k then .idle else .off
      task := 0#64, tags := [], frames := [], waiting := none, barrier := none, ptr := 0 })
  else s

/-- A write of SHT_S_CTL_s (R319, Table 8.2). -/
def shCtlWrite (s : State) (k : Nat) (value : Word) : State :=
  if shPresent s k then
    let was := flag s F.SHT_S_CTL_EN k
    let t := setFlag s F.SHT_S_CTL_EN k (bit value 0)
    if (was && !bit value 0) || bit value 1 then shReset t k
    else if bit value 0 && !was then modSht t k (fun h => { h with st := .idle })
    else if bit value 2 && (shtOf t k).st == .trapped then
      engineLost (modSht t k (fun h => { h with st := .idle, task := 0#64 })) (16 + k)
    else t
  else s

/-- Setting EN (R274). -/
def execShuttleEnable (k : Nat) (s : State) : Result := .next (shCtlWrite s k 1#64)

/-- RESET (R311). -/
def execShuttleReset (k : Nat) (s : State) : Result :=
  .next (shCtlWrite s k (BitVec.ofNat 64 (b2n (flag s F.SHT_S_CTL_EN k) + 2)))

/-- Clearing EN (R311). -/
def execShuttleDisable (k : Nat) (s : State) : Result := .next (shCtlWrite s k 0#64)

/-- RESUME (R274, R515). -/
def execShuttleResume (k : Nat) (s : State) : Result :=
  .next (shCtlWrite s k (BitVec.ofNat 64 (b2n (flag s F.SHT_S_CTL_EN k) + 4)))

/-- A block reset of SHT (Table 8.10). -/
def shtBlockReset (s : State) : State :=
  let t := each (List.range s.part.shuttles) (fun k t => shReset t k) s
  setFlds { t with codeLoad := none } 0 [(F.SHT_LOAD_STAT_BUSY, 0), (F.CKR_BRST_SHT, 0)]

/-- A block reset of SHT (Table 8.10). -/
def execShtBlockReset (s : State) : Result := .next (shtBlockReset s)

/-- A task's limit passes (R310). -/
def execTaskTimeout (k : Nat) (s : State) : Result :=
  let h := shtOf s k
  if shPresent s k ∧ fld s F.SHT_TASK_TMO_US ≠ 0 ∧ (h.st = .run ∨ h.st = .stall ∨ h.st = .wait) then
    .next (trap s k 5 0 (getBits (lsWord h (h.pc % 2 ^ 15)) 24 8))
  else .next s

/-! ### Waiting -/

/-- A waited event becomes true (R299). -/
def execWaitEvent (k : Nat) (s : State) : Result :=
  let h := shtOf s k
  match h.st, h.waiting with
  | .wait, some (e, rd) =>
    if eventTrue s k .running e then .next (setSht s k (retireBoth { h with waiting := none } rd 0)) else .next s
  | _, _ => .next s

/-- A WAIT's timeout passes first (R299). -/
def execWaitTimeout (k : Nat) (s : State) : Result :=
  let h := shtOf s k
  match h.st, h.waiting with
  | .wait, some (e, rd) =>
    (match eventTrue s k .running e, timeoutResult e with
    | false, some r => .next (setSht s k (retireBoth { h with waiting := none } rd r))
    | _, _ => .next s)
  | _, _ => .next s

/-- A yielded frame becomes ready, by its event or by its deadline (R305). -/
def execFrameReady (k f : Nat) (deadline : Bool) (s : State) : Result :=
  let h := shtOf s k
  match h.frames.find? (fun x => decide (x.f = f)) with
  | none => .next s
  | some x =>
    let e := frameEvent h f
    let result : Option Nat := if x.ready.isSome then none
      else if deadline then (if eventTrue s k (.frame f) e then none else timeoutResult e)
      else if eventTrue s k (.frame f) e then some 0 else none
    match result with
    | none => .next s
    | some r =>
      .next (setSht s k { h with frames := h.frames.map (fun y => if y.f = f then { y with ready := some r } else y) })

/-! ### Finding work -/

/-- The oldest ready frame is restored (R302, R305). -/
def restoreFrame (h : Shuttle) (x : Frame) (r : Nat) : Shuttle :=
  let base := frameBase + 0x100 * x.f
  let info := lsWord h (base + 120)
  let g : Shuttle := { h with
    st := .run
    w := (List.range 15).foldl (fun m j => tset (dflt 0#64) m (j + 1) (lsWord h (base + 8 * j))) []
    ls := r
    pc := getBits info 8 15
    task := x.task
    frames := h.frames.filter (fun y => decide (y.f ≠ x.f)) }
  passTags (wSet g x.rd (BitVec.ofNat 64 r)) (.frame x.f) .running

/-- A task starts (R272). -/
def startTask (s : State) (k : Nat) (w : Word) : State :=
  bump (modSht s k (fun h => { h with
    st := .run, w := tset (dflt 0#64) [] 1 (BitVec.ofNat 64 (getBits w 16 47)), ls := 0, pc := getBits w 0 16, task := w }))
    F.SHT_CNT_TASKS k

/-- The victim of a thief among engines lo to hi − 1 (R302): the fullest deque, a tie to the first from the thief's
pointer. -/
def stealVictim (s : State) (lo hi self ptr : Nat) : Option Nat :=
  let es := (List.range hi).filter (fun e => decide (lo ≤ e ∧ e ≠ self) && enginePresent s e)
  let most := (es.map (fun e => (dequeOf s e).length)).foldl max 0
  if most = 0 then none
  else grant 40 ptr (fun e => decide (e ∈ es ∧ (dequeOf s e).length = most))

/-- An idle Shuttle looks for work (R302, R303). -/
def execTaskTake (k : Nat) (s : State) : Result :=
  let h := shtOf s k
  if !shPresent s k || h.st != .idle then .next s
  else
    match h.frames.find? (fun x => x.ready.isSome) with
    | some x => .next (setSht s k (restoreFrame h x (x.ready.getD 0)))
    | none =>
      match (dequeOf s (16 + k)).getLast? with
      | some w => .next (startTask (setDeque s (16 + k) (dequeOf s (16 + k)).dropLast) k w)
      | none =>
        match s.loom.inject with
        | w :: rest => .next (startTask { s with loom := { s.loom with inject := rest } } k w)
        | [] =>
          if !flag s F.LOOM_CTL_STEAL_SHT then .next s
          else
            match stealVictim s 16 40 (16 + k) h.ptr with
            | none => .next s
            | some v =>
              match dequeOf s v with
              | w :: rest =>
                let t := modSht (setDeque s v rest) k (fun x => { x with ptr := grantNext 40 v })
                .next (bump (startTask t k w) F.SHT_CNT_STEALS k)
              | [] => .next s

/-! ### Completion of media operations -/

/-- Word 6 of a descriptor as hardware writes it (Table 8.5). -/
def word6 (m : MediaOp) (status sectors : Nat) (cut : Bool) : Word :=
  let run := match m.kind, m.ctx with
    | .rdrun, some c => c
    | .verify, some c => c
    | _, _ => 0
  BitVec.ofNat 64 (status % 256 + sectors % 65536 * 2 ^ 8 + b2n cut * 2 ^ 24 + 2 ^ 25 + run % 8 * 2 ^ 32)

/-- A media operation completes (R282, R283): word 6 is written, then the tag is free; a synchronous one retires its
instruction with STATUS in RD and LS. -/
def mediaComplete (s : State) (k tag : Nat) : State :=
  let h := shtOf s k
  match tagOp h tag with
  | none => s
  | some m =>
    match m.phase with
    | .done st n cut =>
      let g := setTag (lsStoreWord h (m.desc + 48) (word6 m st n cut)) tag none
      setSht s k (if tag = 8 ∧ m.owner = .running ∧ h.st = .stall then retireBoth g m.rd st else g)
    | _ => s

/-- A media operation completes (R283). -/
def execMediaOpComplete (k tag : Nat) (s : State) : Result := .next (mediaComplete s k tag)

/-- An operation ended by MABORT or by its TIMEOUT (R287). -/
def endOp (s : State) (k tag : Nat) (m : MediaOp) (timeout : Bool) : State :=
  let o : OpRef := { sh := k, tag := tag }
  let put (t : State) (x : MediaOp) : State := modSht t k (fun h => setTag h tag (some x))
  match m.phase, m.kind with
  | .done _ _ _, _ => s
  | _, .seek => put (abortOp s o m) { m with phase := .done (if timeout then 0x83 else 0x91) 0 false }
  | .issued, _ => abortOp (put s { m with timedOut := timeout }) o m
  | _, _ => put s { m with phase := .done (if timeout then 0x83 else 0x11) 0 false }

/-- A media operation's TIMEOUT expires (R287). -/
def execMediaTimeout (k tag : Nat) (s : State) : Result :=
  match tagOp (shtOf s k) tag with
  | none => .next s
  | some m =>
    if m.timeout = 0 ∨ m.timedOut = true then .next s
    else match m.phase with
      | .done _ _ _ => .next s
      | _ => .next (bump (endOp s k tag m true) F.SHT_CNT_MEDIA_TMO k)

/-! ### Code loading and the local store port -/

/-- The Shuttles SHT_LOAD_MASK selects. -/
def loadTargets (s : State) : List Nat := (List.range s.part.shuttles).filter (bit (rd s .SHT_LOAD_MASK 0))

/-- A write of SHT_LOAD (R324, R325). -/
def shtLoadWrite (s : State) (value : Word) : State :=
  let lines := getBits value 40 9
  let t := setFlds s 0 [(F.SHT_LOAD_SRC, getBits value 0 40), (F.SHT_LOAD_LINES, lines)]
  if !bit value 49 then t
  else if (loadTargets s).any (fun k => flag s F.SHT_S_CTL_EN k) || decide (lines = 0 ∨ codeTop s < lines * 64) ||
      s.codeLoad.isSome then setFld t F.SHT_LOAD_STAT_STATUS 0 0x93
  else setFlag { t with codeLoad := some {
    src := getBits value 0 40, lines := lines, mask := fld s F.SHT_LOAD_MASK_MASK } } F.SHT_LOAD_STAT_BUSY 0 true

/-- SHT_LOAD (R324). -/
def execShtLoad (value : Word) (s : State) : Result := .next (shtLoadWrite s (setBits value 49 1 1))

/-- So many lines of a code load, each read once and written to every selected Shuttle; false after a bus error. -/
def copyCode (c : CodeLoad) : Nat → Nat → State → Bool × State
  | 0, _, s => (true, s)
  | n + 1, j, s =>
    match busRead s portSht (c.src / 64 * 64 + 64 * j) 64 with
    | (none, t) => (false, t)
    | (some l, t) =>
      let ks := (List.range s.part.shuttles).filter (Nat.testBit c.mask)
      copyCode c n (j + 1) (each ks (fun k u => modSht u k (fun h => lsStore h (64 * j) l)) t)

/-- The code load ends (R324, R325). -/
def execShtLoadDone (s : State) : Result :=
  match s.codeLoad with
  | none => .next s
  | some c =>
    let r := copyCode c c.lines 0 s
    .next (setFlds { r.2 with codeLoad := none } 0 [(F.SHT_LOAD_STAT_BUSY, 0),
      (F.SHT_LOAD_STAT_STATUS, if r.1 then 0 else 0x85)])

/-- The local store port's address steps. -/
def portStep (s : State) : State :=
  if flag s F.SHT_LS_PORT_ADDR_AUTOINC then
    setFld s F.SHT_LS_PORT_ADDR_ADDR 0 ((fld s F.SHT_LS_PORT_ADDR_ADDR + 8) % 2 ^ 15)
  else s

/-- The 8-byte aligned address of the port. -/
def portAddr (s : State) : Nat := fld s F.SHT_LS_PORT_ADDR_ADDR / 8 * 8

/-- A read of SHT_LS_PORT_DATA (R327). -/
def lsPortRead (s : State) : State :=
  let k := fld s F.SHT_LS_PORT_ADDR_SHUTTLE
  answer (portStep s) (if shPresent s k then lsWord (shtOf s k) (portAddr s) else 0#64)

/-- A write of SHT_LS_PORT_DATA (R325, R327): a Shuttle with EN = 1 ignores it. -/
def lsPortWrite (s : State) (value : Word) : State :=
  let ks := if flag s F.SHT_LS_PORT_ADDR_BCAST then List.range s.part.shuttles
    else (List.range s.part.shuttles).filter (fun k => decide (k = fld s F.SHT_LS_PORT_ADDR_SHUTTLE))
  let ks := ks.filter (fun k => !flag s F.SHT_S_CTL_EN k)
  portStep (each ks (fun k t => modSht t k (fun h => lsStoreWord h (portAddr s) value)) s)

/-- An access to SHT_LS_PORT_DATA (R327). -/
def execLsPortAccess (write : Bool) (value : Word) (s : State) : Result :=
  .next (if write then lsPortWrite s value else lsPortRead s)

end Sys2Proof.Machine
end

