-- ==== Sys2Proof/Machine/Update.lean ====
section
/-!
DEFINITION. Images, the staging area, commits, the boot ROM's verification, the warm restart and the trial (R569, R572 to
R581).
-/

namespace Sys2Proof.Machine

/-! ### Images -/

/-- A little-endian number of a byte string at an offset. -/
def leAt (b : List Byte) (i n : Nat) : Nat := leNat ((b.drop i).take n)

/-- T of a header (Table 16.2). -/
def hdrT (h : List Byte) : Nat := leAt h 6 2

/-- N of a header. -/
def hdrN (h : List Byte) : Nat := leAt h 8 4

/-- SVN of a header. -/
def hdrSvn (h : List Byte) : Nat := leAt h 12 4

/-- Folio 0 checks (Table 16.3): HDR_CRC, MAGIC, FORMAT and the ranges of Table 16.2. -/
def headerOk (h : List Byte) : Bool :=
  decide (leAt h 0 4 = 0x7440F011 ∧ leAt h 4 2 = 1 ∧ 1 ≤ hdrT h ∧ hdrT h ≤ 8 ∧ hdrT h + 3 ≤ hdrN h ∧ hdrN h ≤ 8192 ∧
    hdrSvn h ≤ 64) && decide (crc32c (h.take 4092) = BitVec.ofNat 32 (leAt h 4092 4))

/-- The root that signed an image of n folios, when its signature checks (R573). -/
def imageSigner (o : Otp) (img : List Byte) (n : Nat) : Option Nat :=
  let sig := img.drop (4096 * (n - 1))
  let key := sig.take 97
  match rootFor o (Config.sha384 key) with
  | some j => if Config.sigOk key (Config.sha384 (img.take (4096 * (n - 1)))) ((sig.drop 104).take 96) then some j else none
  | none => none

/-! ### The staging area -/

/-- Bytes as they stand in DRAM, the cache included. -/
def peekBytes (s : State) (addr n : Nat) : List Byte :=
  (((List.range (linesOf addr n)).flatMap (fun k => peekLine s (addr / 64 + k))).drop (addr % 64)).take n

/-- Staged bytes. -/
def stageBytes (s : State) (off n : Nat) : List Byte := peekBytes s (fld s F.SEC_STAGE_BASE_BASE + off) n

/-- Folio k of the staging area. -/
def folioOf (s : State) (k : Nat) : Folio := tget (dflt {}) s.sec.folios k

/-- Folio k replaced. -/
def setFolio (s : State) (k : Nat) (f : Folio) : State :=
  { s with sec := { s.sec with folios := tset (dflt {}) s.sec.folios k f } }

/-- Every word of a folio received. -/
def folioFull (f : Folio) : Bool := decide (f.mask = 2 ^ 1024 - 1)

/-- SEC_UPD_STAT.GOOD brought up to date. -/
def countGood (s : State) : State :=
  setFld s F.SEC_UPD_STAT_GOOD 0 ((s.sec.folios.filter (fun e => e.2.good)).length)

/-- A folio's check fails (Table 16.3). -/
def folioFail (s : State) (k : Nat) : State :=
  setFld (sendFault (setFolio s k {}) .sec 64 FK.secFolio 3 k) F.SEC_UPD_STAT_BAD_FOLIO 0 k

/-- A COMPLETE folio's check, where what vouches for it is GOOD (Table 16.3): whether it failed. -/
def folioCheck (s : State) (k : Nat) : Bool × State :=
  let f := folioOf s k
  let good (t : State) : Bool × State := (false, setFolio t k { f with good := true })
  let b := stageBytes s (4096 * k) 4096
  let crc : Nat := (crc32c b).toNat
  if !folioFull f || f.good then (false, s)
  else if k = 0 then
    if headerOk b then
      let t := setFld s F.SEC_UPD_STAT_N 0 (hdrN b)
      good { t with sec := { t.sec with tables := hdrT b } }
    else (true, folioFail s 0)
  else if !(folioOf s 0).good then (false, s)
  else if fld s F.SEC_UPD_STAT_N ≤ k then (true, folioFail s k)
  else if k ≤ s.sec.tables then
    if leAt (stageBytes s 0 4096) (32 + 4 * (k - 1)) 4 = crc then good s else (true, folioFail s k)
  else if 1 + k / 1024 ≤ s.sec.tables && (folioOf s (1 + k / 1024)).good then
    if leAt (stageBytes s (4096 + 4 * k) 4) 0 4 = crc then good s else (true, folioFail s k)
  else (false, s)

/-- Every folio checked in ascending order (R575): whether one failed. -/
def foliosCheck : List Nat → Bool → State → Bool × State
  | [], bad, s => (bad, s)
  | k :: rest, bad, s =>
    let r := folioCheck s k
    foliosCheck rest (bad || r.1) r.2

/-- The words of folio k that bytes [off, off + len) cover, as a mask. -/
def folioMask (off len k : Nat) : Nat :=
  let lo := max off (4096 * k) - 4096 * k
  let hi := min (off + len) (4096 * k + 4096) - 4096 * k
  (2 ^ ((hi - lo) / 4) - 1) * 2 ^ (lo / 4)

/-- The folios a chunk touches. -/
def chunkFolios (off len : Nat) : List Nat := (List.range ((off + len - 1) / 4096 + 1)).filter (fun k => decide (off / 4096 ≤ k))

/-- The area returns to FREE and its contents are discarded (R574). -/
def stageFree (s : State) : State :=
  let t := { s with sec := { s.sec with folios := [], tables := 0 } }
  raiseSource (setFlds t 0 [(F.SEC_UPD_STAT_STATE, 0), (F.SEC_UPD_STAT_OWNER, 0), (F.SEC_UPD_STAT_GOOD, 0),
    (F.SEC_UPD_STAT_N, 0)]) 65

/-- A staging command's status. -/
def updStatus (s : State) (st : Nat) : State := setFld s F.SEC_UPD_CMD_STATUS 0 st

/-- The owner has commanded: its idle time starts anew (R574). -/
def ownerActs (s : State) : State := { s with sec := { s.sec with ownerAt := now s } }

/-- A chunk (R574, R575). -/
def chunk (s : State) (source off len : Nat) : State :=
  let st := fld s F.SEC_UPD_STAT_STATE
  let addr := fld s F.SEC_UPD_ADDR_ADDR
  if st ≠ 0 ∧ fld s F.SEC_UPD_STAT_OWNER ≠ source then updStatus s SecSt.notOwner
  else if source = 0 ∨ 6 < source ∨ off % 4 ≠ 0 ∨ len % 4 ≠ 0 ∨ len < 4 ∨ 0x800000 < len ∨ 0x2000000 < off + len then
    updStatus s SecSt.range
  else if regionOf s addr ≠ .dram then updStatus s SecSt.range
  else if (chunkFolios off len).any (fun k => (folioOf s k).mask &&& folioMask off len k != 0) then
    updStatus s SecSt.overlap
  else
    match busRead s portSec addr len with
    | (none, t) =>
      let f := freeFailure t
      updStatus f.2 f.1
    | (some d, t) =>
      match busWrite t portSec (fld t F.SEC_STAGE_BASE_BASE + off) d with
      | (false, u) =>
        let f := freeFailure u
        updStatus f.2 f.1
      | (true, u) =>
        let u := if st = 0 then
            raiseSource (setFlds u 0 [(F.SEC_UPD_STAT_STATE, 1), (F.SEC_UPD_STAT_OWNER, source)]) 65
          else u
        let u := each (chunkFolios off len) (fun k v =>
          setFolio v k { folioOf v k with mask := (folioOf v k).mask ||| folioMask off len k }) (ownerActs u)
        let r := foliosCheck (u.sec.folios.map (·.1)) false u
        updStatus (countGood r.2) (if r.1 then SecSt.folioBad else SecSt.ok)

/-- A commit completes (R576, R591). -/
def updEnd (s : State) (st : Nat) : State := raiseSource (updStatus s st) 66

/-- A commit's checks, and the start of its programming (R576). The slot is erased from here on. -/
def commit (s : State) (source : Nat) : State :=
  let n := fld s F.SEC_UPD_STAT_N
  if fld s F.SEC_UPD_STAT_STATE ≠ 1 ∨ fld s F.SEC_UPD_STAT_OWNER ≠ source then updStatus s SecSt.notOwner
  else
    let t := ownerActs s
    if n = 0 ∨ fld t F.SEC_UPD_STAT_GOOD < n then updEnd t SecSt.incomplete
    else
      let img := stageBytes t 0 (4096 * n)
      let patch := leAt img 64 4
      match imageSigner t.sec.otp img n with
      | none => updEnd (stageFree (sendFault t .sec 64 FK.secImage 5 0)) SecSt.authFail
      | some _ =>
        if hdrSvn img < t.sec.otp.svn then updEnd (stageFree t) SecSt.svnLow
        else if patch ≠ 0 ∧
            Config.patchRomId ((img.drop (4096 * patch)).take (leAt img 68 4)) ≠ fld t F.SHT_ROM_ID_ID then
          updEnd (stageFree t) SecSt.romMismatch
        else
          let u := setFlds t 0 [(F.SEC_UPD_STAT_STATE, 2), (F.SEC_UPD_CMD_BUSY, 1)]
          raiseSource { u with sec := { u.sec with
            commit := some img, slot := none, trialMark := false, failMark := false, norGen := u.sec.norGen + 1 } } 65

/-- A write of SEC_UPD_CMD (R593); GO is ignored while BUSY. OP = 3 is no command and answers RANGE. -/
def updCmdWrite (s : State) (value : Word) : State :=
  let op := getBits value 0 2
  let source := getBits value 2 3
  let t := setFlds s 0 [(F.SEC_UPD_CMD_OP, op), (F.SEC_UPD_CMD_SOURCE, source),
    (F.SEC_UPD_CMD_OFFSET, getBits value 5 25), (F.SEC_UPD_CMD_LEN, getBits value 30 24)]
  if !bit value 54 || flag s F.SEC_UPD_CMD_BUSY then t
  else match op with
  | 0 => chunk t source (getBits value 5 25) (getBits value 30 24)
  | 1 => commit t source
  | 2 =>
    if fld t F.SEC_UPD_STAT_STATE ≠ 0 ∧ fld t F.SEC_UPD_STAT_OWNER = source then updStatus (stageFree t) SecSt.ok
    else updStatus t SecSt.notOwner
  | _ => updStatus t SecSt.range

/-- A GO of SEC_UPD_CMD with an operation. -/
def updGo (value : Word) (op : Nat) : Word := setBits (setBits value 0 2 op) 54 1 1

/-- CHUNK (R575). -/
def execChunk (value : Word) (s : State) : Result := .next (updCmdWrite s (updGo value 0))

/-- COMMIT (R576). -/
def execCommit (value : Word) (s : State) : Result := .next (updCmdWrite s (updGo value 1))

/-- ABORT (R574). -/
def execAbort (value : Word) (s : State) : Result := .next (updCmdWrite s (updGo value 2))

/-- A commit's programming ends (R576): the slot holds the image with its trial mark, or is invalid. -/
def execCommitDone (ok : Bool) (s : State) : Result :=
  match s.sec.commit with
  | none => .next s
  | some img =>
    let t := setFlag { s with sec := { s.sec with commit := none } } F.SEC_UPD_CMD_BUSY 0 false
    let t := stageFree t
    if ok then
      let t := { t with sec := { t.sec with slot := some img, trialMark := true, norGen := t.sec.norGen + 1 } }
      .next (evrEvent (updEnd t SecSt.ok) 8 3 66 (BitVec.ofNat 64 (leAt img 16 8)))
    else .next (updEnd t SecSt.norFail)

/-- 15 minutes of drive time without a command from the owner (R574). -/
def execStagingIdleTimeout (s : State) : Result :=
  if fld s F.SEC_UPD_STAT_STATE = 1 ∧ s.sec.ownerAt + 900000 ≤ now s then .next (stageFree s) else .next s

/-! ### What the host protocols answer (R577) -/

/-- How a protocol refuses a source that is not the owner (Table 16.4). -/
inductive UpdRefusal where
  /-- NVMe and NVMe-MI: Command Sequence Error -/
  | sequenceError
  /-- SAS: ILLEGAL REQUEST with a sense code and qualifier -/
  | illegal (asc ascq : Nat)
  /-- PLDM: ALREADY_IN_UPDATE_MODE -/
  | inUpdateMode
deriving DecidableEq, Repr

/-- The refusal a source's protocol gives when another source owns the staging area (R574, Table 16.4). -/
def notOwnerAnswer (source : Nat) : Option UpdRefusal :=
  if source = 1 ∨ source = 2 ∨ source = 3 then some .sequenceError
  else if source = 4 ∨ source = 5 then some (.illegal 0x2C 0x00)
  else if source = 6 then some .inUpdateMode
  else none

/-- The NVMe statuses of R577. -/
inductive UpdNvme where
  | invalidImage
  | activationProhibited
  | overlappingRange
deriving DecidableEq, Repr

/-- What NVMe answers for a SEC status (R577); none where the table maps no status. -/
def updNvme (st : Nat) : Option UpdNvme :=
  if st = SecSt.folioBad ∨ st = SecSt.incomplete ∨ st = SecSt.authFail ∨ st = SecSt.romMismatch then some .invalidImage
  else if st = SecSt.svnLow then some .activationProhibited
  else if st = SecSt.overlap then some .overlappingRange
  else none

/-- What SAS answers for a SEC status (R577): ILLEGAL REQUEST, 0x26/0x00, wherever NVMe has a status. -/
def updSense (st : Nat) : Option (Nat × Nat) := (updNvme st).map (fun _ => (0x26, 0x00))

/-- When a commit that arrives in-band activates its image (Table 16.4). -/
inductive UpdActivation where
  | atOnce
  | nextReset
  | refused
deriving DecidableEq, Repr

/-- NVMe Firmware Commit's actions (Table 16.4): 0 and 1 at the next chip reset, 3 at once, 2 refused with Invalid Field in
Command; other actions are not the table's. -/
def commitAction (action : Nat) : Option UpdActivation :=
  if action = 0 ∨ action = 1 then some .nextReset
  else if action = 2 then some .refused
  else if action = 3 then some .atOnce
  else none

/-! ### Boot -/

/-- The dead state (R580): media and tier stay locked, so no key slot holds a key. -/
def enterDead (s : State) : State := { s with sec := { s.sec with boot := .dead, keys := [], trialAt := none } }

/-- The alias certificate written to SEC_CERT_BASE, where that lies in DRAM that serves (R586). -/
def writeCert (s : State) : State :=
  let base := fld s F.SEC_CERT_BASE_BASE
  if s.sec.aliasOf.isEmpty || decide (regionOf s base ≠ .dram) || !flag s F.BFM_DRAM_STAT_READY then s
  else (busWrite s portSec base ((List.range 4096).map (Config.certByte s.sec.aliasOf))).2

/-- A measurement as SEC_MEAS holds it. -/
def measOf (s : State) (k : Nat) : Nat :=
  (List.range 6).foldl (fun n w => n + (rd s .SEC_MEAS (8 * (k - 1) + w)).toNat * 2 ^ (64 * w)) 0

/-- The alias key is derived anew from DEVICE_SECRET and measurements 2, 3 and 5 (R586). -/
def deriveAlias (s : State) : State :=
  writeCert { s with sec := { s.sec with
    aliasOf := [s.sec.otp.secret.getD 0, measOf s 2, measOf s 3, measOf s 5] } }

/-- Steps 3 to 6 of R569: the slot is verified against the OTP and its trial marks, and core 0 starts at the image's entry
point; a failure enters the dead state. -/
def bootSlot (s : State) : State :=
  match s.sec.slot with
  | none => enterDead s
  | some img =>
    let h := img.take 4096
    if !headerOk h || decide (img.length < 4096 * hdrN h) then enterDead s
    else match imageSigner s.sec.otp img (hdrN h) with
    | none => enterDead s
    | some j =>
      if hdrSvn h < s.sec.otp.svn ∨ s.sec.failMark = true then enterDead s
      else
        let hash := Config.sha384 (img.take (4096 * (hdrN h - 1)))
        let t := setFlds s 0 [(F.SEC_BOOT_STAT_TRIAL, b2n s.sec.trialMark), (F.SEC_BOOT_STAT_IMG_SVN, hdrSvn h),
          (F.SEC_BOOT_STAT_ROOT, 2 ^ j), (F.SVC_CORE_CTL_RUN, 1), (F.SVC_CORE_CTL_STATE, 1)]
        let t := setMeas (if flag s F.SEC_BOOT_STAT_WARM then t else setMeas t 1 hash) 2 hash
        deriveAlias { t with sec := { t.sec with
          boot := .running
          header := img.take 80
          trialAt := if s.sec.trialMark then some (now s) else none } }

/-- OTP damage that enters the dead state (R568). -/
def otpFatal (o : Otp) : Bool :=
  o.damaged.any (fun f => match f with
    | .lcLog => true
    | .secret => true
    | .root j => !rootRevoked o j
    | _ => false)

/-- The boot ROM (R569): from its first step after a chip reset, from step 3 after a warm restart. -/
def execBoot (s : State) : Result :=
  if s.sec.boot ≠ .loading then .next s
  else if flag s F.SEC_BOOT_STAT_WARM then .next (bootSlot s)
  else
    let o := s.sec.otp
    let lc := lcState o
    if otpFatal o then .next (enterDead s)
    else if lc = 0 ∨ (lc = 1 ∧ rootBits o = 0) then .next { s with sec := { s.sec with boot := .provisioning } }
    else .next (bootSlot s)

/-- The warm restart of R578: every core is held in reset and every Shuttle disabled; the boot ROM runs again. -/
def execWarmRestart (s : State) : Result :=
  if s.sec.boot = .running ∧ flag s F.GLY_DRAIN_DONE = true then
    let t := each (List.range s.part.cores) (fun c u => coreCtlWrite u c (setBits (rd u .SVC_CORE_CTL c) 0 1 0)) s
    let t := each (List.range s.part.shuttles) (fun k u => shCtlWrite u k 0#64) t
    let t := setFlag t F.SEC_BOOT_STAT_WARM 0 true
    .next { t with sec := { t.sec with boot := .loading, trialAt := none } }
  else .next s

/-! ### Trial -/

/-- SEC_BOOT_CTL acts: an image runs on trial and has not failed it. -/
def onTrial (s : State) : Bool := flag s F.SEC_BOOT_STAT_TRIAL && !s.sec.trialFailed

/-- CONFIRM (R579). -/
def confirm (s : State) : State :=
  if onTrial s then
    let h := s.sec.header
    let own := fld s F.SEC_BOOT_STAT_ROOT
    let o := burn s.sec.otp .revoke (((List.range 4).filter (fun j => Nat.testBit (leAt h 72 1) j && !Nat.testBit own j)).foldl
      (fun n j => n + 2 ^ j) 0)
    let o := if leAt h 73 1 = 1 then burn o .svn (hdrSvn h) else o
    let t := { s with sec := { s.sec with otp := o, trialMark := false, trialAt := none, norGen := s.sec.norGen + 1 } }
    applyLc (setFlag t F.SEC_BOOT_STAT_TRIAL 0 false)
  else s

/-- CONFIRM (R579). -/
def execConfirm (s : State) : Result := .next (confirm s)

/-- A log slot placed among others, the newest first. -/
def insNewest (x : Nat × LogSlot) : List (Nat × LogSlot) → List (Nat × LogSlot)
  | [] => [x]
  | y :: t => if y.2.seq ≤ x.2.seq then x :: y :: t else y :: insNewest x t

/-- The 64 newest records of severity 5 or above of the log memory, with the newest EV_FW_COMMIT among them (R581). -/
def newestRecords (s : State) : List (List Byte) :=
  let all := s.evr.log.filterMap (fun c => c.2.map (fun x => (c.1, x)))
  let sorted := (all.foldr insNewest [] : List (Nat × LogSlot))
  let commits := (sorted.filter (fun x => decide (x.2.code = 8))).take 1
  let high := sorted.filter (fun x => decide (5 ≤ x.2.sev))
  (high.take (64 - commits.length) ++ commits).map
    (fun x => peekBytes s (fld s F.EVR_LOG_BASE_BASE + 64 * x.1) 64)

/-- The trial fails (R579, R581): the last records are kept, the failure mark is programmed, and FK_SEC_TRIAL enters the
safe state. -/
def failTrial (s : State) : State :=
  if onTrial s then
    sendFault { s with sec := { s.sec with
      lastRecords := newestRecords s, failMark := true, trialFailed := true, trialAt := none,
      norGen := s.sec.norGen + 1 } } .sec 64 FK.secTrial 7 0
  else s

/-- FAIL (R579). -/
def execFail (s : State) : Result := .next (failTrial s)

/-- A write of SEC_BOOT_CTL (R595): CONFIRM before FAIL. -/
def bootCtlWrite (s : State) (value : Word) : State :=
  when (bit value 1) failTrial (when (bit value 0) confirm s)

/-- The 30 s of the trial timer lapse (R579). -/
def execTrialTimeout (s : State) : Result :=
  match s.sec.trialAt with
  | some t0 => .next (if t0 + 30000 ≤ now s then failTrial s else s)
  | none => .next s

/-- The trial timer at 25 s (R591). -/
def execTrialTimerWarning (s : State) : Result :=
  match s.sec.trialAt with
  | some t0 => .next (if t0 + 25000 ≤ now s then raiseSource s 70 else s)
  | none => .next s

/-- 2 s after the safe state's entry of a failed trial SEC requests a chip reset (R579). -/
def execTrialFailReset (s : State) : Result :=
  if s.sec.trialFailed && safeState s && decide (s.fcl.safeAt + 2000 ≤ now s) then
    .next { s with ckr := { s.ckr with resetRequested := true } }
  else .next s

end Sys2Proof.Machine
end

