-- ==== Sys2Proof/Machine/Keys.lean ====
section
/-!
DEFINITION. Media keys and locking ranges (R583 to R585), attestation (R586), tokens, life-cycle transitions and repair (R587
to R590), and microcode patches (R317, R582).
-/

namespace Sys2Proof.Machine

/-! ### Keys -/

/-- The blob of a key slot. -/
def blobOf (s : State) (n : Nat) : Option Blob := tget (dflt none) s.sec.blobs n

/-- The key a slot holds. -/
def keyOf (s : State) (n : Nat) : Option Nat := tget (dflt none) s.sec.keys n

/-- A key slot set or cleared. -/
def setKey (s : State) (n : Nat) (k : Option Nat) : State :=
  { s with sec := { s.sec with keys := tset (dflt none) s.sec.keys n k } }

/-- The credential digest in force for a slot (R585): the tier key needs none. -/
def credFor (s : State) (n : Nat) : List Word :=
  if n = 129 then [] else (List.range 6).map (fun k => tget (dflt 0#64) s.sec.cred k)

/-- The blob of a key under the credential in force. -/
def wrapKey (s : State) (n key : Nat) : Blob :=
  { key := key, secret := s.sec.otp.secret.getD 0, epoch := s.sec.otp.epoch, cred := credFor s n }

/-- A blob programmed into the key store. -/
def storeBlob (s : State) (n : Nat) (b : Blob) : State :=
  { s with sec := { s.sec with blobs := tset (dflt none) s.sec.blobs n (some b), norGen := s.sec.norGen + 1 } }

/-- GENKEY (R585): a new key replaces the slot's; on slot 129 the tier becomes UNFORMATTED. -/
def genKey (s : State) (n : Nat) : State :=
  let f := freshNat s 4
  let t := setKey (storeBlob f.2 n (wrapKey f.2 n f.1)) n (some f.1)
  if n = 129 then fltKeyReplaced t else t

/-- UNLOCK (R585): its status; a blob that is absent or does not unwrap gives KEY_INVALID and FK_SEC_KEY. -/
def unlockKey (s : State) (n : Nat) : Nat × State :=
  match blobOf s n with
  | some b =>
    if b = wrapKey s n b.key then (SecSt.ok, setKey s n (some b.key))
    else (SecSt.keyInvalid, sendFault s .sec 64 FK.secKey 5 n)
  | none => (SecSt.keyInvalid, sendFault s .sec 64 FK.secKey 5 n)

/-- REWRAP (R585): the blob of a slot whose key is unlocked, under the credential now in SEC_CRED. -/
def rewrapKey (s : State) (n : Nat) : Nat × State :=
  match keyOf s n, blobOf s n with
  | some k, some _ => (SecSt.ok, storeBlob s n (wrapKey s n k))
  | _, _ => (SecSt.keyInvalid, s)

/-- A write of SEC_KEY_CMD (R585, R589, R591). -/
def keyCmdWrite (s : State) (value : Word) : State :=
  let op := getBits value 0 2
  let n := getBits value 2 8
  let t := setFlds s 0 [(F.SEC_KEY_CMD_OP, op), (F.SEC_KEY_CMD_SLOT, n)]
  if !bit value 10 then t
  else
    let r : Nat × State :=
      if 129 < n then (SecSt.range, t)
      else if op ≠ 2 ∧ fld t F.SEC_LC_STATE = 4 then (SecSt.refusedState, t)
      else match op with
        | 0 => (SecSt.ok, genKey t n)
        | 1 => unlockKey t n
        | 2 => (SecSt.ok, setKey t n none)
        | _ => rewrapKey t n
    raiseSource (setFld r.2 F.SEC_KEY_CMD_STATUS 0 r.1) 68

/-- A GO of SEC_KEY_CMD with an operation. -/
def keyGo (value : Word) (op : Nat) : Word := setBits (setBits value 0 2 op) 10 1 1

/-- GENKEY. -/
def execGenkey (value : Word) (s : State) : Result := .next (keyCmdWrite s (keyGo value 0))

/-- UNLOCK. -/
def execUnlock (value : Word) (s : State) : Result := .next (keyCmdWrite s (keyGo value 1))

/-- LOCK. -/
def execLock (value : Word) (s : State) : Result := .next (keyCmdWrite s (keyGo value 2))

/-- REWRAP. -/
def execRewrap (value : Word) (s : State) : Result := .next (keyCmdWrite s (keyGo value 3))

/-! ### Ranges -/

/-- A locking range with the blocks it covers overlaps another of its namespace (R584). -/
def rangeOverlaps (s : State) (i nsid first len : Nat) : Bool :=
  (List.range 129).any (fun j => decide (j ≠ 0 ∧ j ≠ i) && flag s F.SEC_RANGE_VALID j &&
    decide (fld s F.SEC_RANGE_NSID_M1 j = nsid ∧ first < fld s F.SEC_RANGE_FIRST j + fld s F.SEC_RANGE_LEN_BLOCKS j ∧
      fld s F.SEC_RANGE_FIRST j < first + len))

/-- A write of SEC_RANGE_i (R584, R589, R596): refused when it would overlap; entry 0 has FIRST 0, and in DECOMMISSIONED
every range stays locked. -/
def rangeWrite (s : State) (i : Nat) (value : Word) : State :=
  if 129 ≤ i then s
  else
    let first := getBits value 0 40
    let v := setBits (setBits value 51 13 0) 0 40 (if i = 0 then 0 else first)
    let v := if fld s F.SEC_LC_STATE = 4 then setBits v 47 2 3 else v
    if i ≠ 0 ∧ bit value 50 = true ∧
        rangeOverlaps s i (getBits value 40 7) first (fld s F.SEC_RANGE_LEN_BLOCKS i) = true then s
    else wr s .SEC_RANGE i v

/-- A write of SEC_RANGE_i. -/
def execRangeWrite (i : Nat) (value : Word) (s : State) : Result := .next (rangeWrite s i value)

/-- A write of SEC_RANGE_LEN_i (R584, R596). -/
def rangeLenWrite (s : State) (i : Nat) (value : Word) : State :=
  if 129 ≤ i then s
  else if i ≠ 0 ∧ flag s F.SEC_RANGE_VALID i = true ∧
      rangeOverlaps s i (fld s F.SEC_RANGE_NSID_M1 i) (fld s F.SEC_RANGE_FIRST i) (getBits value 0 40) = true then s
  else setFld s F.SEC_RANGE_LEN_BLOCKS i (getBits value 0 40)

/-! ### Attestation -/

/-- A write of SEC_SIGN_CMD (R586): the digest signed with the alias key in force. -/
def signCmdWrite (s : State) (value : Word) : State :=
  if !bit value 0 then s
  else if s.sec.aliasOf.isEmpty then raiseSource (setFld s F.SEC_SIGN_CMD_STATUS 0 SecSt.refusedState) 69
  else
    let d := (List.range 6).map (fun w => tget (dflt 0#64) s.sec.digest w)
    let t := each (List.range 12) (fun w u => wr u .SEC_SIGN_OUT w (Config.signWord s.sec.aliasOf d w)) s
    raiseSource (setFld t F.SEC_SIGN_CMD_STATUS 0 SecSt.ok) 69

/-- SEC_SIGN_CMD.GO. -/
def execSign (value : Word) (s : State) : Result := .next (signCmdWrite s (setBits value 0 1 1))

/-- A 64-bit read of SEC_NONCE (R587, Table 16.15): a fresh word; the sixth completes a nonce, and the first of a new one
ends the old. -/
def nonceRead (s : State) : State :=
  let f := freshWord s
  let old := if s.sec.nonceRead.length = 6 then [] else s.sec.nonceRead
  let l := old ++ [f.1]
  answer { f.2 with sec := { f.2.sec with nonceRead := l, nonce := if l.length = 6 then some l else none } } f.1

/-- A read of SEC_NONCE. -/
def execSecNonceRead (s : State) : Result := .next (nonceRead s)

/-! ### Tokens -/

/-- The token at SEC_TOKEN_ADDR checks for a purpose (R587, R590): its serial, its nonce, its zero bytes, its key's hash
among those allowed, and its signature. -/
def tokenOk (s : State) (t : List Byte) (purpose : Nat) (admin : Bool) : Bool :=
  let key := (t.drop 60).take 97
  let hash := Config.sha384 key
  let nonce := match s.sec.nonce with | some l => l.flatMap wordBytes | none => []
  decide (t.length = 256 ∧ leAt t 0 4 = purpose ∧ some (leAt t 4 8) = s.sec.otp.serial ∧ (t.drop 12).take 48 = nonce ∧
    leAt t 157 3 = 0) &&
  ((rootFor s.sec.otp hash).isSome || (admin && decide (s.sec.otp.adminRoot = some hash))) &&
  Config.sigOk key (Config.sha384 (t.take 160)) ((t.drop 160).take 96)

/-- The token read and checked. -/
def tokenCheck (s : State) (purpose : Nat) (admin : Bool) : Bool × State :=
  match busRead s portSec (fld s F.SEC_TOKEN_ADDR_ADDR) 256 with
  | (some d, t) => (tokenOk t d purpose admin, t)
  | (none, t) => (false, t)

/-! ### Life cycle -/

/-- What a transition asks for (Table 16.6): a request, or a token of a purpose, its key ADMIN_ROOT allowed or not. -/
inductive LcNeed where
  | request
  | token (purpose : Nat) (admin : Bool)
deriving DecidableEq, Repr

/-- The transitions of Table 16.6 (R587). -/
def lcNeed (o : Otp) (src dst : Nat) : Option LcNeed :=
  if 31 ≤ o.log.length ∧ dst ≠ 4 then none
  else match src, dst with
  | 1, 2 => if rootBits o ≠ 0 ∧ o.hdaRoot.isSome = true ∧ o.adminRoot.isSome = true then some .request else none
  | 2, 3 => some (.token 1 false)
  | 3, 2 => some .request
  | 1, 4 => some (.token 3 true)
  | 2, 4 => some (.token 3 true)
  | 3, 4 => some (.token 3 true)
  | _, _ => none

/-- Every present actuator is PARKED and no dirty protected data lies outside the tier (R588, R610). -/
def lcReady (s : State) : Bool :=
  (List.range s.part.acts).all (fun a => decide (cteState s a = stParked)) &&
  decide (fld s F.GLY_BUDGET_STAT_DIRTY ≤ fld s F.CKR_DIRTY_TIER_N)

/-- Every SRAM wiped (R406), patches with it (R318). -/
def wipeSram (s : State) : State :=
  let t := wipeCaches s
  let t := each (List.range 32) (fun k u => wr u .SHT_MATCH k 0#64) (wr t .SHT_PATCH_STAT 0 0#64)
  { t with
    patch := {}
    shts := t.shts.map (fun e => (e.1, { e.2 with store := [] }))
    pairs := t.pairs.map (fun e => (e.1, { e.2 with slots := [] }))
    gly := { t.gly with ctx := [], slots := [], index := [], fetched := [] }
    evr := { t.evr with ring := [], log := [], dirty := [] } }

/-- A transition carried out (R588). -/
def lcGo (s : State) (src dst : Nat) : State :=
  let o := burn s.sec.otp .lcLog (lcEntry dst)
  let t := wipeDram (wipeSram (applyLc (setOtp s o)))
  let t := if dst = 4 then
      applyLc { t with sec := { t.sec with
        otp := burn t.sec.otp .epoch (t.sec.otp.epoch + 1), keys := [], blobs := [], norGen := t.sec.norGen + 1 } }
    else t
  { t with sec := { t.sec with lcEvent := some (src, dst) }, ckr := { t.ckr with resetRequested := true } }

/-- The end of a life-cycle or repair request (R591, Table 16.7). -/
def lcDone (s : State) (st : Nat) : State :=
  let t := if st = SecSt.ok then s else sendFault s .sec 64 FK.secLc 3 0
  raiseSource (setFld t F.SEC_LC_REQ_STATUS 0 st) 67

/-- A transition requested (R587, R588). -/
def lcRequest (s : State) (dst : Nat) : State :=
  let src := lcState s.sec.otp
  match lcNeed s.sec.otp src dst with
  | none => lcDone s SecSt.refusedState
  | some need =>
    if !lcReady s then lcDone s SecSt.precondition
    else match need with
    | .request => lcDone (lcGo s src dst) SecSt.ok
    | .token p admin =>
      let r := tokenCheck s p admin
      if r.1 then lcDone (lcGo r.2 src dst) SecSt.ok else lcDone r.2 SecSt.tokenBad

/-- A repair requested (R56, R590). Dirty data of another HDA without DISCARD_DIRTY answers PRECONDITION. -/
def repairRequest (s : State) (discard : Bool) : State :=
  if !repairable s then lcDone s SecSt.refusedState
  else if tierDirty s && !discard then lcDone s SecSt.precondition
  else
    let r := tokenCheck s 2 true
    if r.1 then lcDone (acceptRepair r.2) SecSt.ok else lcDone r.2 SecSt.tokenBad

/-- A write of SEC_LC_REQ (R592). -/
def lcReqWrite (s : State) (value : Word) : State :=
  let dst := getBits value 0 3
  let t := setFlds s 0 [(F.SEC_LC_REQ_TARGET, dst), (F.SEC_LC_REQ_DISCARD_DIRTY, getBits value 3 1)]
  if !bit value 4 then t
  else if dst = 7 then repairRequest t (bit value 3)
  else lcRequest t dst

/-- SEC_LC_REQ.GO with a life-cycle state as its target. -/
def execLifecycleTransition (value : Word) (s : State) : Result :=
  if getBits value 0 3 = 7 then .next s else .next (lcReqWrite s (setBits value 4 1 1))

/-- SEC_LC_REQ.GO with TARGET = 7. -/
def execRepair (value : Word) (s : State) : Result :=
  .next (lcReqWrite s (setBits (setBits value 0 3 7) 4 1 1))

/-! ### Microcode patches -/

/-- The outcome of a load recorded (R582): LOAD_STATUS, SEC_PATCH_CMD.STATUS, EV_PATCH_LOAD, and FK_SEC_PATCH when
refused. -/
def patchDone (s : State) (st : Nat) : State :=
  let t := setFld (setFld s F.SHT_PATCH_STAT_LOAD_STATUS 0 st) F.SEC_PATCH_CMD_STATUS 0 st
  let t := if st = SecSt.ok then t else sendFault t .sec 64 FK.secPatch 5 0
  evrEvent t 9 2 64 (rd t .SHT_PATCH_STAT 0)

/-- A patch written into the RAMs and the match registers, replacing the one before wholly (R317). -/
def patchWrite (s : State) (b : PatchBlob) : State :=
  let ms := b.matches_.take 32
  let micro := b.micro.take 1024
  let nano := b.nano.take 512
  let t := each (List.range 32) (fun k u => wr u .SHT_MATCH k (match ms[k]? with
    | some m => BitVec.ofNat 64 (m.1 % 2 ^ 14 + m.2 % 2 ^ 10 * 2 ^ 14 + 2 ^ 24)
    | none => 0#64)) s
  let t := setFlds t 0 [(F.SHT_PATCH_STAT_LOADED, 1), (F.SHT_PATCH_STAT_MATCHES, ms.length),
    (F.SHT_PATCH_STAT_UWORDS, micro.length), (F.SHT_PATCH_STAT_NWORDS, nano.length),
    (F.SHT_PATCH_STAT_PATCH_VER, b.version)]
  { setMeas t 3 b.hash with patch := {
      micro := (List.range micro.length).map (fun k => (k, BitVec.ofNat 20 (micro.getD k 0)))
      nano := (List.range nano.length).map (fun k => (k, BitVec.ofNat 144 (nano.getD k 0))) } }

/-- A write of SEC_PATCH_CMD (R317, R582): the signature, then the decryption with its tag, then ROM_ID. -/
def execPatchLoad (value : Word) (sigOk tagOk : Bool) (blob : PatchBlob) (s : State) : Result :=
  if !bit value 0 then .next s
  else if (List.range s.part.shuttles).any (fun k => flag s F.SHT_S_CTL_EN k) then .next (patchDone s SecSt.refusedState)
  else if !sigOk || !tagOk then .next (patchDone s SecSt.authFail)
  else if blob.romId ≠ fld s F.SHT_ROM_ID_ID then .next (patchDone s SecSt.romMismatch)
  else .next (patchDone (patchWrite s blob) SecSt.ok)

end Sys2Proof.Machine
end

