-- ==== Sys2Proof/Machine/Cal.lean ====
section
/-!
DEFINITION. The calibration controller's commands (R611 to R615).
-/

namespace Sys2Proof.Machine

/-- A calibration request waits on this actuator's runs: none is accepted. -/
def noRun (s : State) (a : Nat) : Bool := (pairOf s a).run.isNone && (wrpOf s a).run.isNone

/-- A number of Table 17.6 that names an item. -/
def itemUsed (n : Nat) : Bool := decide (n < 47 ∨ (64 ≤ n ∧ n < 1600))

/-- The unit or head of an item is present (R611). -/
def itemPresent (s : State) (n : Nat) : Bool :=
  if n < 24 then decide (n % 8 < s.part.lanes)
  else if n < 40 then decide (n % 4 < s.part.acts)
  else if n < 47 then true
  else decide (itemHead n < s.part.heads)

/-- An item's latest status. -/
def itemStatus (s : State) (n st : Nat) : State := setFld s F.CAL_COUNT_LAST_STATUS n st

/-- A write of CAL_CMD (R612, R619). -/
def calCmdWrite (s : State) (value : Word) : State :=
  let n := getBits value 0 11
  let t := setFld s F.CAL_CMD_ITEM 0 n
  if !bit value 11 then t
  else
    let st := if n < 16 ∨ itemUsed n = false then 0x15
      else if itemPresent s n = false then 0xFF
      else if 16 ≤ s.cal.queue.length then 0x14
      else 0x00
    let t := setFld t F.CAL_CMD_STATUS 0 st
    if st = 0 then { t with cal := { t.cal with queue := t.cal.queue ++ [n] } } else t

/-- CAL_CMD.GO. -/
def execCalRequest (value : Word) (s : State) : Result := .next (calCmdWrite s (setBits value 11 1 1))

/-- An item's precondition (R613). -/
def itemReady (s : State) (n : Nat) : Bool :=
  let a := itemOwner s n
  let follow := decide (cteState s a = stFollow)
  let onTrack := follow && decide ((cteOf s a).track = fld s F.CAL_TRACK_TRACK a) && noRun s a
  let wrGroup := (zoneOf (zoneRegs s) (cteOf s a).track).map (zoneFld (zoneRegs s) F.WRP_ZONE_PGRP)
  let svGroup := (svgZone s (cteOf s a).track).map (fun z => fld s F.SVG_ZONE_PGRP z)
  let headed (g : Option Nat) := decide (selHead s a = itemHead n ∧ g = some (itemGroup n))
  if n < 32 then onTrack
  else if n < 36 then flag s F.SVG_CTL_EN a
  else if n < 40 then decide (cteState s a = stParked)
  else if n < 46 then decide (spnState s = spRun)
  else if n = 46 then flag s F.SPN_STAT_AT_SPEED
  else if n < 1088 then onTrack && headed wrGroup
  else follow && headed svGroup

/-- The oldest queued request of an owner starts, when none of it runs (R612, R613). -/
def execCalStart (owner : Nat) (s : State) : Result :=
  match s.cal.running.any (fun r => r.owner == owner), firstIdx (fun n => itemOwner s n == owner) s.cal.queue 0 with
  | false, some k =>
    let n := s.cal.queue.getD k 0
    let t := { s with cal := { s.cal with queue := s.cal.queue.eraseIdx k } }
    .next (if itemReady s n then
      { t with cal := { t.cal with running := t.cal.running ++ [{ item := n, owner := owner }] } }
    else itemStatus t n 0x13)
  | _, _ => .next s

/-- Background calibration of an active lane, by the mode its lane has (R99): not while a change of mode waits for the lane's
next sector gap, nor while a swap of that lane waits for its own (R101). -/
def execBackgroundCalibration (lane : Nat) (s : State) : Result :=
  let mode := (pairOf s (lane / 2)).redundant
  let n := if mode then 8 + lane else lane
  .next (if flag s F.CAL_CTL_BG_EN && decide (lane < s.part.lanes) && flag s F.LNE_AFE_CTL_EN lane && !safeState s &&
      !powerLost s && !s.cal.background.any (fun r => r.item % 8 == lane) && mode == redundancy s &&
      !s.cal.pending.any (fun x => x.item == 8 + lane) then
    { s with cal := { s.cal with background := s.cal.background ++ [{ item := n, owner := lane / 2 }] } }
  else s)

/-- Two values within an absolute tolerance. -/
def nearAbs (tol a b : Int) : Bool := decide (a - b ≤ tol ∧ b - a ≤ tol)

/-- Two values within a percentage of their mean. -/
def nearPct (pct a b : Int) : Bool :=
  decide (200 * (a - b) ≤ pct * |a + b| ∧ 200 * (b - a) ≤ pct * |a + b|)

/-- The correction of place k of 16 positions and a spare against the mean of the 16 positions: kind 0 offset, 1 gain, 2 skew
(R100, R101). -/
def correction (l : List Int) (k kind : Nat) : Int :=
  let e (j : Nat) : Int := l.getD (3 * j + kind) 0
  e k - divRound ((List.range 16).foldl (fun n j => n + e j) 0) 16

/-- Two runs agree on a place's correction within 0.25 LSB, 0.2 % and 0.5 ps (Table 3.6). -/
def placeAgrees (x y : List Int) (k : Nat) : Bool :=
  nearAbs 250 (correction x k 0) (correction y k 0) && nearAbs 2000 (correction x k 1) (correction y k 1) &&
    nearAbs 500 (correction x k 2) (correction y k 2)

/-- The positions a SLICE_TRIM's runs agree on. -/
def placesAgreed (x y : List Int) : List Nat := (List.range 16).filter (placeAgrees x y)

/-- The two results agree within the item's tolerance (R614, Tables 3.6, 5.4, 6.11 and 7.8); SLICE_TRIM's agree where all 16
positions do. -/
def resultsAgree (n : Nat) (x y : List Int) : Bool :=
  let f (k : Nat) : Int := x.getD k 0
  let g (k : Nat) : Int := y.getD k 0
  if n < 8 then (placesAgreed x y).length == 16
  else if n < 16 then placeAgrees x y 16
  else if n < 24 then nearAbs 1 (f 0) (g 0) && nearAbs 1 (f 1) (g 1)
  else if n < 28 then nearAbs 1 (f 0) (g 0)
  else if n < 32 then nearAbs 2 (f 0) (g 0)
  else if n < 36 then nearAbs 500 (f 0) (g 0) && nearAbs 5000 (f 1) (g 1)
  else if n < 40 then nearAbs 200 (f 0) (g 0)
  else if n < 46 then nearAbs 2000 (f 0) (g 0) && nearAbs 5000 (f 1) (g 1)
  else if n = 46 then nearPct 1 (f 0) (g 0) && nearPct 3 (f 1) (g 1) && nearPct 5 (f 2) (g 2)
  else if n < 576 then nearAbs 2 (f 0) (g 0)
  else if n < 1088 then (List.range 8).all (fun k => nearAbs 2 (f k) (g k))
  else nearPct 1 (f 0) (g 0) && nearAbs 16 (f 1) (g 1) && nearPct 2 (f 2) (g 2)

/-- The mean of two results, rounded to the fields' resolution (R614). -/
def meanOf (x y : List Int) : List Int := (List.range x.length).map (fun k => divRound (x.getD k 0 + y.getD k 0) 2)

/-- What two runs leave pending (R614): the mean of the results, for SLICE_TRIM at the positions that agree, for SLICE_SWAP the
spare's correction at the position visited (R100, R101). -/
def calResult (item p : Nat) (x y : List Int) : Option CalPend :=
  let mean (k kind : Nat) : Int := divRound (correction x k kind + correction y k kind) 2
  if item < 8 then
    let l := placesAgreed x y
    if l.isEmpty then none
    else some { item := item, places := l, vals := (List.range 48).map (fun j => mean (j / 3) (j % 3)) }
  else if !resultsAgree item x y then none
  else if item < 16 then
    some { item := item, places := [p], vals := (List.range (3 * p + 3)).map (fun j => mean 16 (j % 3)) }
  else some { item := item, vals := meanOf x y }

/-- A run's result: for SLICE_SWAP the spare's estimate stands behind those of the 16 positions (R101). -/
def runResult (item : Nat) (x spare : List Int) : List Int :=
  if 8 ≤ item ∧ item < 16 then (List.range 48).map (fun k => x.getD k 0) ++ spare else x

/-- The two runs of an item have ended (R614): agreeing, the mean is pending, and takes effect at once on a lane or an
actuator that is idle (R98, Table 5.4); disagreeing, FK_CAL_DISAGREE. A SLICE_TRIM that agrees on some positions only does
both. -/
def execCalRunDone (item : Nat) (first second spare : List Int) (s : State) : Result :=
  let c := s.cal
  let first := runResult item first (spare.take 3)
  let second := runResult item second (spare.drop 3)
  if !(c.running ++ c.background).any (fun r => r.item == item) then .next s
  else
    let lane := item - 8
    let p := tget (dflt 0) c.positions lane
    let swap := decide (8 ≤ item ∧ item < 16)
    let t := { s with cal := { c with
      running := c.running.filter (fun r => r.item != item)
      background := c.background.filter (fun r => r.item != item)
      positions := if swap then tset (dflt 0) c.positions lane ((p + 1) % 16) else c.positions } }
    let t := if resultsAgree item first second then t
      else sendFault (bump (itemStatus t item 0x10) F.CAL_CNT_DISAGREE) .cal 16 FK.calDisagree 3 item
    match calResult item p first second with
    | none => .next t
    | some x =>
      let t := { t with cal := { t.cal with pending := t.cal.pending.filter (fun y => decide (y.item ≠ item)) ++ [x] } }
      let t := itemStatus t item 0x01
      let a := itemOwner t item
      let idle := if item < 32 then (pairOf t a).run.isNone else writeItem item && noRun t a
      .next (if idle then calBoundary t (fun n => n == item) else t)

/-- A request's two runs have not ended within CAL_CTL.TMO (R615). -/
def execCalTimeout (item : Nat) (s : State) : Result :=
  if s.cal.running.any (fun r => r.item == item) then
    let t := { s with cal := { s.cal with running := s.cal.running.filter (fun r => r.item != item) } }
    .next (sendFault (bump (itemStatus t item 0x12) F.CAL_CNT_TIMEOUT) .cal 16 FK.calTimeout 3 item)
  else .next s

/-- A block reset of CAL (R615): what runs and what is pending is abandoned, and every queued request with it. -/
def calBlockReset (s : State) : State :=
  let t := calDrop s (fun _ => true)
  let t := each t.cal.queue (fun n u => abandoned u n) t
  setFlag { t with cal := { t.cal with queue := [] } } F.CKR_BRST_CAL 0 false

/-- CKR_BRST.CAL (R615). -/
def execCalBlockReset (s : State) : Result := .next (calBlockReset s)

end Sys2Proof.Machine
end

