-- ==== Sys2Proof/Machine/Dma.lean ====
section
/-!
DEFINITION. Bobbin channels (chapter 12): descriptors and rings (R441 to R443), completion (R449 to R452), Table 12.4
(R453, R454) and the events of R455. The grant of a beat, which may reach the control space, stands in Bobbin.lean.
-/

namespace Sys2Proof.Machine

/-! ### Channels -/

/-- Channel n. -/
def chanOf (s : State) (n : Nat) : Chan := tget (dflt {}) s.chans n

/-- Channel n replaced. -/
def setChan (s : State) (n : Nat) (c : Chan) : State := { s with chans := tset (dflt {}) s.chans n c }

/-- A channel's state (R453). -/
def chState (s : State) (n : Nat) : Nat := fld s F.DMA_CH_STATUS_STATE n

/-- A channel's state set. -/
def chGo (s : State) (n st : Nat) : State := setFld s F.DMA_CH_STATUS_STATE n st

/-- IDLE. -/
abbrev chIdle : Nat := 0
/-- ACTIVE. -/
abbrev chActive : Nat := 1
/-- PAUSING. -/
abbrev chPausing : Nat := 2
/-- PAUSED. -/
abbrev chPaused : Nat := 3
/-- HALTED. -/
abbrev chHalted : Nat := 4
/-- OFF. -/
abbrev chOff : Nat := 5

/-- Channels 0 to 7 of engine 0 belong to Galley while it is enabled (R445). -/
def glyOwns (s : State) (n : Nat) : Bool := decide (n < 8) && flag s F.GLY_CTL_EN

/-- The requester of a channel's data or ring accesses. -/
def chPort (n : Nat) (coh : Bool) : Port := { idx := 4 + n / 16, stream := n, coh := coh }

/-- A channel enters IDLE, or PAUSED while PAUSE is set (Table 12.4). -/
def chRest (s : State) (n : Nat) : State := chGo s n (if flag s F.DMA_CH_CTL_PAUSE n then chPaused else chIdle)

/-- The ring's HEAD advanced. -/
def headOn (s : State) (n : Nat) : State :=
  setFld s F.DMA_CH_HEAD_HEAD n ((fld s F.DMA_CH_HEAD_HEAD n + 1) % 2 ^ fld s F.DMA_CH_CFG_LOG2_SIZE n)

/-! ### Beats -/

/-- The beats of a descriptor: one for each 64-byte line of the destination. -/
def beats (d : DmaDesc) : Nat := (d.dst % 64 + d.count + 63) / 64

/-- The offset and length of a beat within the transfer. -/
def beatRange (d : DmaDesc) (k : Nat) : Nat × Nat :=
  let lo := k * 64 - d.dst % 64
  let hi := min d.count ((k + 1) * 64 - d.dst % 64)
  (lo, hi - lo)

/-- SRC, DST and COUNT point at the start of a beat (R452, R454). -/
def pointAt (s : State) (n : Nat) (d : DmaDesc) (k : Nat) : State :=
  let off := if k < beats d then (beatRange d k).1 else d.count
  wr (wr (setFld s F.DMA_CH_COUNT_BYTES n (d.count - off)) .DMA_CH_SRC n (BitVec.ofNat 64 (d.src + off)))
    .DMA_CH_DST n (BitVec.ofNat 64 (d.dst + off))

/-! ### Completion -/

/-- Word 4 of a ring entry written (R442). -/
def writeWord4 (s : State) (n ring status errBeat : Nat) : State :=
  (busWriteWord s (chPort n (flag s F.DMA_CH_CFG_RING_COH n)) (fld s F.DMA_CH_RING_BASE n + 64 * ring + 32)
    (BitVec.ofNat 64 (status + b2n (decide (status ≠ 0)) * 2 ^ 8 + 2 ^ 9 + errBeat * 2 ^ 10))).2

/-- A descriptor completes with a failure and the channel halts (R443, R452, R453). -/
def chHalt (s : State) (n : Nat) (d : DmaDesc) (status beat : Nat) : State :=
  let c := chanOf s n
  let t := writeWord4 (pointAt s n d beat) n d.ring status beat
  let t := setFlds t n [(F.DMA_CH_STATUS_STATE, chHalted), (F.DMA_CH_STATUS_ERR, 1),
    (F.DMA_CH_STATUS_LAST_STATUS, status), (F.DMA_CH_STATUS_ERR_BEAT, beat)]
  let t := bump (bump t F.DMA_CH_CNT_DONE n) F.DMA_CH_CNT_FAIL n
  let t := setChan t n { c with
    desc := some d, nextRead := beat, nextWrite := beat, reads := [], buf := [], writes := [], fail := none, stop := none }
  raiseSource t (800 + n)

/-- A descriptor that Table 12.2 finds in error completes at once (R443): Table 12.4 halts no channel for it, HEAD advances
(R441) and the channel goes on. -/
def chRefuse (s : State) (n ring status : Nat) : State :=
  let t := writeWord4 s n ring status 0
  let t := setFlds t n [(F.DMA_CH_STATUS_ERR, 1), (F.DMA_CH_STATUS_LAST_STATUS, status), (F.DMA_CH_STATUS_ERR_BEAT, 0)]
  let t := headOn (bump (bump t F.DMA_CH_CNT_DONE n) F.DMA_CH_CNT_FAIL n) n
  raiseSource (chGo t n (if fld t F.DMA_CH_HEAD_HEAD n = fld t F.DMA_CH_TAIL_TAIL n then chIdle else chActive)) (800 + n)

/-- A late error (R451). -/
def lateError (s : State) (n ring addr : Nat) : State :=
  let t := evrEvent s 5 5 (800 + n) (BitVec.ofNat 64 (n + ring * 64)) (BitVec.ofNat 64 addr)
  let t := if flag t F.DMA_CH_STATUS_LATE_ERR n then setFlag t F.DMA_CH_STATUS_LATE_OVF n true
    else setFlds t n [(F.DMA_CH_STATUS_LATE_ERR, 1), (F.DMA_CH_LATE_ADDR, addr % 2 ^ 40), (F.DMA_CH_LATE_IDX, ring)]
  raiseSource (bump t F.DMA_CH_CNT_LATE n) (800 + n)

/-- Nothing is outstanding. -/
def drained (c : Chan) : Bool := c.reads.isEmpty && c.writes.isEmpty

/-- What follows once a channel's outstanding responses are in: a failure (R452), a STOPPED or RESET completion (R455),
or PAUSED (R454). -/
def chSettle (s : State) (n : Nat) : State :=
  let c := chanOf s n
  match c.desc with
  | none => s
  | some d =>
    let st := chState s n
    if st ≠ chActive ∧ st ≠ chPausing then s
    else if !drained c then s
    else match c.fail with
      | some (k, status) =>
        if c.buf.isEmpty then
          let t := chHalt s n d status k
          (match d.slot with | some (m, a) => descFinished t m a (some status) | none => t)
        else s
      | none => match c.stop with
        | some status =>
          if c.buf.isEmpty then
            let t := chHalt s n d status c.nextWrite
            (match d.slot with | some (m, a) => descFinished t m a (some status) | none => t)
          else s
        | none =>
          if st = chPausing ∧ c.buf.isEmpty = true ∧ c.tails.isEmpty = true ∧ c.nextWrite < beats d then
            chGo (pointAt s n d c.nextWrite) n chPaused
          else s

/-- An error of a beat before DONE (R452): no further read, and data not yet written is discarded from the failing beat on;
beats below it that are held are written, as SRC must be the first byte not yet moved (R454). -/
def beatFailed (s : State) (n k status : Nat) : State :=
  let c := chanOf s n
  let f := match c.fail with | some (j, x) => if j ≤ k then (j, x) else (k, status) | none => (k, status)
  setChan s n { c with fail := some f, buf := c.buf.filter (fun x => decide (x.1 < f.1)) }

/-- The oldest outstanding read of a channel is answered (R452, R388); HFE encrypts user data from the host (R583). -/
def execReadResponse (n res : Nat) (data : List Byte) (s : State) : Result :=
  let c := chanOf s n
  match c.desc, c.reads with
  | some d, (k, held) :: rest =>
    let s := match res with
      | 3 => if d.srcHost then raiseSource (bump s F.HFE_PI_CNT_GUARD) 133 else s
      | 4 => if d.srcHost then raiseSource (bump s F.HFE_PI_CNT_APP) 133 else s
      | 5 => if d.srcHost then raiseSource (bump s F.HFE_PI_CNT_REF) 133 else s
      | _ => s
    let got : Option (List Byte) := if d.srcHost then
        (if res = 0 then some (cipherBeat s true d.slot (d.src + (beatRange d k).1) (data.take (beatRange d k).2)) else none)
      else held
    let t := setChan s n { c with reads := rest }
    (match got with
     | some x =>
       if c.fail.isSome || c.stop == some 0xC4 then .next (chSettle t n)
       else .next (chSettle (setChan t n { c with reads := rest, buf := c.buf ++ [(k, x)] }) n)
     | none => .next (chSettle (beatFailed t n k 0xC0) n))
  | _, _ => .next s

/-- The slot a finished tail named is told (R450). -/
def tailDone (s : State) (x : DmaTail) : State :=
  match x.slot with
  | some (m, a) => descFinished s m a (if x.late then some 0xC1 else none)
  | none => s

/-- The oldest outstanding write of a channel is answered (R449 to R452). -/
def execWriteResponse (n res : Nat) (s : State) : Result :=
  let c := chanOf s n
  match c.tails with
  | x :: more =>
    (match x.writes with
     | (addr, ok) :: rest =>
       let good := ok && decide (res = 0)
       let y := { x with writes := rest, late := x.late || !good }
       let t := if good then s else lateError s n x.ring addr
       if rest.isEmpty then .next (chSettle (tailDone (setChan t n { chanOf t n with tails := more }) y) n)
       else .next (setChan t n { chanOf t n with tails := y :: more })
     | [] => .next (setChan s n { c with tails := more }))
  | [] =>
    match c.desc, c.writes with
    | some d, (k, _, ok) :: rest =>
      let s := match res with
        | 3 => if d.dstHost then raiseSource (bump s F.HFE_PI_CNT_GUARD) 133 else s
        | 4 => if d.dstHost then raiseSource (bump s F.HFE_PI_CNT_APP) 133 else s
        | 5 => if d.dstHost then raiseSource (bump s F.HFE_PI_CNT_REF) 133 else s
        | _ => s
      let good := if d.dstHost then decide (res = 0) else ok
      let t := setChan s n { c with writes := rest }
      .next (chSettle (if good then t else beatFailed t n k 0xC1) n)
    | _, _ => .next s

/-- A descriptor posts DONE (R449): its last write has left the engine, and under LANDED every response is in. -/
def execDescriptorDone (n : Nat) (s : State) : Result :=
  let c := chanOf s n
  match c.desc with
  | none => .next s
  | some d =>
    let st := chState s n
    if (st = chActive ∨ st = chPausing) ∧ c.fail.isNone = true ∧ c.stop.isNone = true ∧ beats d ≤ c.nextWrite ∧
        (d.landed = false ∨ (c.writes.isEmpty = true ∧ c.tails.isEmpty = true)) then
      let tail : DmaTail := { ring := d.ring, slot := d.slot, writes := c.writes.map (fun w => (w.2.1, w.2.2)) }
      let t := writeWord4 (pointAt s n d (beats d)) n d.ring 0 0
      let t := headOn (bump (setFld t F.DMA_CH_STATUS_LAST_STATUS n 0) F.DMA_CH_CNT_DONE n) n
      let t := if d.irq then raiseSource t (736 + n) else t
      let t := setChan t n { c with
        desc := none, nextRead := 0, nextWrite := 0, writes := []
        tails := if c.writes.isEmpty then c.tails else c.tails ++ [tail] }
      let t := if c.writes.isEmpty then tailDone t tail else t
      if flag t F.DMA_CH_CTL_PAUSE n then .next (chGo t n chPaused)
      else if fld t F.DMA_CH_HEAD_HEAD n = fld t F.DMA_CH_TAIL_TAIL n then .next (chGo t n chIdle)
      else .next (chGo t n chActive)
    else .next s

/-! ### Queueing and fetch -/

/-- A write of DMA_CH_TAIL_n (R441, R445). -/
def execDescriptorQueue (n : Nat) (value : Word) (s : State) : Result :=
  if 64 ≤ n ∨ glyOwns s n = true then .next s else .next (setFld s F.DMA_CH_TAIL_TAIL n (getBits value 0 12))

/-- The check of a descriptor in the order of Table 12.2: the failing STATUS, or 0. -/
def descCheck (s : State) (w : Nat → Word) : Nat :=
  let srcHost := bit (w 2) 32
  let dstHost := bit (w 2) 33
  let valid := bit (w 2) 38
  if getBits (w 2) 0 32 = 0 ∨ getBits (w 2) 39 25 ≠ 0 ∨ getBits (w 3) 53 11 ≠ 0 ∨
      (srcHost = false ∧ getBits (w 0) 40 24 ≠ 0) ∨ (dstHost = false ∧ getBits (w 1) 40 24 ≠ 0) ∨
      (isSas s = true ∧ (srcHost || dstHost) = true ∧ valid = false) then 0xC2
  else if safeState s || (powerLost s && (srcHost || dstHost)) then 0xC5
  else if valid && (byHandle s (getBits (w 3) 0 53)).isNone then 0x89
  else 0

/-- A channel fetches and checks its next descriptor (R441, R443). -/
def execDescriptorFetch (n : Nat) (s : State) : Result :=
  let c := chanOf s n
  let st := chState s n
  let head := fld s F.DMA_CH_HEAD_HEAD n
  if 64 ≤ n ∨ glyOwns s n = true ∨ (st ≠ chIdle ∧ st ≠ chActive) ∨ c.desc.isSome = true ∨
      flag s F.DMA_CH_CTL_PAUSE n = true ∨ head = fld s F.DMA_CH_TAIL_TAIL n ∨
      c.tails.any (fun x => !x.writes.isEmpty && decide (x.ring = head)) = true then .next s
  else
    let r := chPort n (flag s F.DMA_CH_CFG_RING_COH n)
    let at_ := fld s F.DMA_CH_RING_BASE n + 64 * head
    match busRead s r at_ 64 with
    | (none, t) => .next (chHalt t n { ring := head } 0xC0 0)
    | (some l, t) =>
      let w (k : Nat) : Word := BitVec.ofNat 64 (leNat ((l.drop (8 * k)).take 8))
      let t := (busWriteWord t r (at_ + 32) 0#64).2
      let slot := if bit (w 2) 38 then (byHandle t (getBits (w 3) 0 53)).map (fun m => (m, (glySlot t m).asn)) else none
      let d : DmaDesc := {
        src := (w 0).toNat
        dst := (w 1).toNat
        count := getBits (w 2) 0 32
        srcHost := bit (w 2) 32
        dstHost := bit (w 2) 33
        fn := getBits (w 2) 34 1
        coh := bit (w 2) 35
        landed := bit (w 2) 36
        irq := bit (w 2) 37
        slot := slot
        ring := head }
      let bad := descCheck t w
      if bad ≠ 0 ∧ bad ≠ 0xC5 then .next (chRefuse t n head bad)
      else if bad ≠ 0 then
        let u := chHalt t n { d with slot := none } bad 0
        .next (setChan u n { chanOf u n with unfetched := true })
      else
        let t := match slot with | some (m, _) => descQueued t m | none => t
        let t := setChan t n { c with
          desc := some d, nextRead := 0, nextWrite := 0, reads := [], buf := [], writes := [], unfetched := false }
        .next (chGo (pointAt t n d 0) n chActive)

/-! ### Enable, pause, halt -/

/-- A write of DMA_CH_CFG_n (R453, R465): clearing EN acts only in IDLE, PAUSED or HALTED. -/
def dmaCfgWrite (s : State) (n : Nat) (value : Word) : State :=
  if 64 ≤ n ∨ glyOwns s n = true then s
  else
    let t := setFlds s n [(F.DMA_CH_CFG_PRIO, getBits value 1 2), (F.DMA_CH_CFG_RING_COH, getBits value 3 1),
      (F.DMA_CH_CFG_LOG2_SIZE, clampNat 1 12 (getBits value 4 4))]
    let st := chState t n
    if bit value 0 then
      if st = chOff then chRest (setFlag t F.DMA_CH_CFG_EN n true) n else t
    else if st = chIdle ∨ st = chPaused ∨ st = chHalted then
      let c := chanOf t n
      let u := setChan (chGo (setFlag t F.DMA_CH_CFG_EN n false) n chOff) n { c with
        desc := none, nextRead := 0, nextWrite := 0, buf := [], fail := none, stop := none, unfetched := false }
      -- a paused descriptor is given up with every response in
      match st, c.desc with
      | 3, some d => (match d.slot with | some (m, a) => descFinished u m a none | none => u)
      | _, _ => u
    else t

/-- CHANNEL_ENABLE (R453). -/
def execChannelEnable (n : Nat) (value : Word) (s : State) : Result := .next (dmaCfgWrite s n (setBits value 0 1 1))

/-- CHANNEL_DISABLE (R453). -/
def execChannelDisable (n : Nat) (value : Word) (s : State) : Result := .next (dmaCfgWrite s n (setBits value 0 1 0))

/-- PAUSE set or cleared (R453, R454). -/
def dmaPause (s : State) (n : Nat) (b : Bool) : State :=
  let t := setFlag s F.DMA_CH_CTL_PAUSE n b
  let st := chState t n
  if b then
    if st = chIdle then chGo t n chPaused
    else if st = chActive then
      if (chanOf t n).desc.isNone then chGo t n chPaused else chSettle (chGo t n chPausing) n
    else t
  else if st = chPaused ∨ st = chPausing then
    chSettle (chGo t n (if (chanOf t n).desc.isSome then chActive else chIdle)) n
  else t

/-- CLEAR (R453): HEAD advances past the failed descriptor. -/
def dmaClear (s : State) (n : Nat) : State :=
  if chState s n = chHalted then
    let t := setChan s n { chanOf s n with desc := none, nextRead := 0, nextWrite := 0, unfetched := false }
    chRest (headOn t n) n
  else s

/-- RETRY (R453): the descriptor continues from SRC, DST and COUNT; one that failed its checks is fetched again. -/
def dmaRetry (s : State) (n : Nat) : State :=
  if chState s n = chHalted then
    let c := chanOf s n
    match c.desc with
    | none => chGo s n chActive
    | some d =>
      if c.unfetched ∨ d.count = 0 then chGo (setChan s n { c with desc := none, unfetched := false }) n chActive
      else
        let stop := if safeState s || (powerLost s && (d.srcHost || d.dstHost)) then some 0xC5 else none
        let t := chGo (setChan s n { c with stop := stop }) n (if flag s F.DMA_CH_CTL_PAUSE n then chPausing else chActive)
        -- it counts against its slot again until it completes
        let t := match d.slot with
          | some (m, a) => if (glySlot t m).st ≠ .free ∧ (glySlot t m).asn = a then descQueued t m else t
          | none => t
        chSettle t n
  else s

/-- A write of DMA_CH_CTL_n. -/
def dmaCtlWrite (s : State) (n : Nat) (value : Word) : State :=
  if 64 ≤ n ∨ glyOwns s n = true then s
  else
    let t := when (bit value 1) (fun u => dmaClear u n) s
    let t := when (bit value 2) (fun u => dmaRetry u n) t
    dmaPause t n (bit value 0)

/-- PAUSE (R454). -/
def execPause (n : Nat) (value : Word) (s : State) : Result := .next (dmaCtlWrite s n value)

/-- CLEAR (R453). -/
def execChannelClear (n : Nat) (value : Word) (s : State) : Result := .next (dmaCtlWrite s n (setBits value 1 1 1))

/-- RETRY (R453). -/
def execChannelRetry (n : Nat) (value : Word) (s : State) : Result := .next (dmaCtlWrite s n (setBits value 2 1 1))

/-! ### Events of R455 -/

/-- A running descriptor is to complete with a status once drained; a reset discards what is not yet written. -/
def chStop (s : State) (n status : Nat) (discard : Bool) : State :=
  let c := chanOf s n
  match c.desc with
  | none => s
  | some _ =>
    let st := chState s n
    if st = chHalted ∨ st = chOff then s
    else
      let c := { c with stop := some (c.stop.getD status), buf := if discard then [] else c.buf }
      let t := setChan s n c
      chSettle (if discard && decide (st = chPaused) then chGo t n chActive else t) n

/-- A block reset of an engine (R455). -/
def execDmaBlockReset (e : Nat) (s : State) : Result :=
  if 4 ≤ e then .next s
  else
    let t := each (List.range 16) (fun k t => chStop t (16 * e + k) 0xC4 true) s
    let t := { t with dmaPtr := t.dmaPtr.filter (fun p => decide (p.1 / 4 ≠ e)) }
    .next (setFld t F.CKR_BRST_DMA 0 (fld s F.CKR_BRST_DMA &&& (15 - 2 ^ e)))

/-- Every channel in the safe state (R455). -/
def dmaSafe (s : State) : State := each (List.range 64) (fun n t => chStop t n 0xC5 false) s

/-- The power-loss broadcast (R455): descriptors that touch host space stop. -/
def dmaPowerLoss (s : State) : State :=
  each (List.range 64) (fun n t =>
    match (chanOf t n).desc with
    | some d => if d.srcHost || d.dstHost then chStop t n 0xC5 false else t
    | none => t) s

end Sys2Proof.Machine
end

