-- ==== Sys2Proof/Machine/Loom.lean ====
section
/-!
DEFINITION. LOOM: deques, the injection queue, core takes and steals (R300 to R304, R518, R519), and barriers (R308,
R309).
-/

namespace Sys2Proof.Machine

/-- A write of LOOM_INJECT (R300, R301). -/
def loomInject (s : State) (w : Word) : State :=
  if bit w 63 && decide (s.loom.inject.length < 256) then { s with loom := { s.loom with inject := s.loom.inject ++ [w] } }
  else setFlag s F.LOOM_INJ_STAT_OVF 0 true

/-- LOOM_INJECT (R300). -/
def execLoomInject (value : Word) (s : State) : Result := .next (loomInject s value)

/-- A write of LOOM_PUSH_e (R300, R304); the registers of an absent engine ignore it (R3). -/
def loomPush (s : State) (e : Nat) (w : Word) : State :=
  if !enginePresent s e then s
  else match (if bit w 63 then dequePush s e w else none) with
    | some t => t
    | none => setFlag s F.LOOM_DQ_STAT_OVF e true

/-- LOOM_PUSH_e (R304). -/
def execLoomPush (e : Nat) (value : Word) (s : State) : Result := .next (loomPush s e value)

/-- A read of LOOM_TAKE_e by engine c (R302, R518, R519): the bottom of deque e; a core that reads its own index with its
deque empty steals the top of the fullest other core deque. -/
def loomTake (s : State) (c e : Nat) : State :=
  if !enginePresent s e then answer s 0#64
  else match (dequeOf s e).getLast? with
    | some w => answer (setDeque s e (dequeOf s e).dropLast) w
    | none =>
      if c = e ∧ c < 16 ∧ flag s F.LOOM_CTL_STEAL_CORE = true then
        match stealVictim s 0 16 c (tget (dflt 0) s.loom.ptrs c) with
        | none => answer s 0#64
        | some v =>
          match dequeOf s v with
          | w :: rest =>
            let t := setDeque s v rest
            answer { t with loom := { t.loom with ptrs := tset (dflt 0) t.loom.ptrs c (grantNext 40 v) } } w
          | [] => answer s 0#64
      else answer s 0#64

/-- LOOM_TAKE_e (R518). -/
def execLoomTake (c e : Nat) (s : State) : Result := .next (loomTake s c e)

/-! ### Barriers -/

/-- Barrier b's arrivals. -/
def barrierOf (s : State) (b : Nat) : Barrier := tget (dflt {}) s.loom.barriers b

/-- Barrier b's arrivals replaced. -/
def setBarrier (s : State) (b : Nat) (l : List (Nat × Word)) : State :=
  { s with loom := { s.loom with barriers := tset (dflt {}) s.loom.barriers b { arrived := l } } }

/-- The present members of a barrier (R308). -/
def members (s : State) (b : Nat) : List Nat :=
  (List.range 40).filter (fun e => bit (rd s .LOOM_BAR_CFG b) e && enginePresent s e)

/-- An arrival with its contribution; a second one of a generation replaces it. -/
def arrive (s : State) (b e : Nat) (v : Word) : State := setBarrier s b (tins e v (barrierOf s b).arrived)

/-- A core's write of LOOM_BAR_ARRIVE_b (R308): ignored from a core that is no member. -/
def coreArrive (s : State) (c b : Nat) (v : Word) : State :=
  if b < 16 ∧ c < 16 ∧ c ∈ members s b then arrive s b c v else s

/-- LOOM_BAR_ARRIVE_b (R308). -/
def execLoomBarArrive (c b : Nat) (value : Word) (s : State) : Result := .next (coreArrive s c b value)

/-- The combined value of a generation (R308): broadcast, sum, unsigned maximum or bitwise OR. -/
def combine (op : Nat) (l : List (Nat × Word)) : Word :=
  match op with
  | 0 => ((l.head?).map (·.2)).getD 0#64
  | 1 => l.foldl (fun a x => a + x.2) 0#64
  | 2 => l.foldl (fun a x => if a.toNat < x.2.toNat then x.2 else a) 0#64
  | _ => l.foldl (fun a x => a ||| x.2) 0#64

/-- A generation ends (R308, R309): the Shuttles that wait at the barrier receive a value and a status, the arrivals are
cleared and GEN advances. -/
def barrierEnd (s : State) (b : Nat) (v : Word) (status : Nat) : State :=
  let t := each (List.range s.part.shuttles) (fun k u =>
    let h := shtOf u k
    match h.barrier with
    | some (g, rd) => if g = b then setSht u k (retireLs (wSet { h with barrier := none } rd v) status) else u
    | none => u) s
  let t := setFld (setBarrier t b []) F.LOOM_BAR_STAT_GEN b ((fld s F.LOOM_BAR_STAT_GEN b + 1) % 65536)
  raiseSource (setFlag t F.LOOM_BAR_STAT_TIMED_OUT b (decide (status ≠ 0))) (336 + b)

/-- All members have arrived (R308). -/
def barrierFull (s : State) (b : Nat) : Bool :=
  let m := members s b
  !m.isEmpty && m.all (fun e => (barrierOf s b).arrived.any (fun x => decide (x.1 = e)))

/-- The release of a barrier (R308). -/
def execBarrierRelease (b : Nat) (s : State) : Result :=
  if b < 16 ∧ barrierFull s b = true then
    let v := combine (fld s F.LOOM_BAR_CFG_OP b) ((barrierOf s b).arrived.filter (fun x => decide (x.1 ∈ members s b)))
    .next (wr (barrierEnd s b v 0) .LOOM_BAR_RESULT b v)
  else .next s

/-- A barrier's TIMEOUT passes (R309). -/
def execBarrierTimeout (b : Nat) (s : State) : Result :=
  if b < 16 ∧ (barrierOf s b).arrived ≠ [] ∧ fld s F.LOOM_BAR_CFG_TIMEOUT b ≠ 0 ∧ barrierFull s b = false then
    .next (barrierEnd s b 0#64 0x8E)
  else .next s

/-- A write of LOOM_BAR_CFG_b (R309, R326). -/
def barCfgWrite (s : State) (b : Nat) (value : Word) : State :=
  if 16 ≤ b then s
  else if (barrierOf s b).arrived ≠ [] then setFlag s F.LOOM_BAR_STAT_CFG_REFUSED b true
  else setFlds s b [(F.LOOM_BAR_CFG_MEMBERS, getBits value 0 40), (F.LOOM_BAR_CFG_OP, getBits value 40 2),
    (F.LOOM_BAR_CFG_TIMEOUT, getBits value 42 16)]

/-- LOOM_BAR_CFG_b (R326). -/
def execLoomBarCfgWrite (b : Nat) (value : Word) (s : State) : Result := .next (barCfgWrite s b value)

/-- A block reset of LOOM (Table 8.10, R309). -/
def loomBlockReset (s : State) : State :=
  let t := each (List.range 16) (fun b u => if (barrierOf u b).arrived ≠ [] then barrierEnd u b 0#64 0x8E else u) s
  setFlag { t with loom := { t.loom with deques := [], inject := [], ptrs := [] } } F.CKR_BRST_LOOM 0 false

/-- A block reset of LOOM (Table 8.10). -/
def execLoomBlockReset (s : State) : Result := .next (loomBlockReset s)

end Sys2Proof.Machine
end

