-- ==== Sys2Proof/Machine/Ofl.lean ====
section
/-!
DEFINITION. The offload engines (R520 to R528): Weave's XOR, CHECK and COMPARE, and Carder's SCAN, line by line and
record by record, with their rings and completions.
-/

namespace Sys2Proof.Machine

/-- The entries of a ring: a LOG2 outside 1 to 12 acts as the nearer limit. DESIGN CHOICE: no rule says. -/
def oflRing (log2 : Nat) : Nat := 2 ^ clampNat 1 12 log2

/-- The address of a ring's head entry. -/
def oflEntry (base head log2 : Nat) : Nat := base / 64 * 64 + 64 * (head % oflRing log2)

/-- OFL fetches no commands: absent, at power loss, or in the safe state (R528). -/
def oflHalted (s : State) : Bool := !s.part.hasOfl || powerLost s || safeState s

/-- The word of a fetched command. -/
def cmdWord (l : List Byte) (k : Nat) : Word := BitVec.ofNat 64 (leNat ((l.drop (8 * k)).take 8))

/-! ### Weave -/

/-- Where a block of a protected namespace lies (Table 14.3): its row (its unit, when mirrored), its data unit and its
offset in the unit, and the actuators that hold the unit and its parity or its copies. -/
structure WeavePlace where
  /-- The row of three-plus-one parity, or the mirrored unit. -/
  row : Nat
  /-- The data unit of the row; 0 when mirrored. -/
  unit : Nat
  /-- The block of the unit. -/
  offset : Nat
  /-- The actuators that hold the data unit. -/
  data : List Nat
  /-- The row's parity actuator. -/
  parity : Option Nat
  deriving DecidableEq, Repr

/-- Table 14.3: the place of namespace block b under a protection; none where the part has no such layout. -/
def weavePlace (p : Part) (protection b : Nat) : Option WeavePlace :=
  if protection = 2 ∧ p.hasOfl = true ∧ p.mirrorOnly = false then
    let r := b / 192
    let k := b % 192 / 64
    let par := 3 - r % 4
    some { row := r, unit := k, offset := b % 64, data := [(par + 1 + k) % 4], parity := some par }
  else if protection = 1 ∧ p.hasOfl = true then
    let u := b / 64
    some { row := u, unit := 0, offset := b % 64, data := if p.mirrorOnly || u % 2 == 0 then [0, 1] else [2, 3], parity := none }
  else none

/-- The actuators of the other units of a row, from which a lost data unit is rebuilt by XOR (Table 14.5). -/
def weaveOthers (x : WeavePlace) : List Nat :=
  (List.range 4).filter (fun a => x.parity.isSome && !x.data.contains a)

/-- The address of Weave's head entry. -/
def weaveEntry (s : State) : Nat :=
  oflEntry (fld s F.OFL_WV_RING_BASE) (fld s F.OFL_WV_HEAD_HEAD) (fld s F.OFL_WV_RING_LOG2)

/-- Sources a Weave command names. -/
def weaveSources (w : List Word) : Nat := getBits (w.getD 0 0#64) 8 3

/-- The checks of a Weave command (Tables 14.4 and 14.6): its failing STATUS. On the FJD-7422 XOR and CHECK are absent
(R521). -/
def weaveCheck (s : State) (w : List Word) : Option Nat :=
  let w0 := w.getD 0 0#64
  let op := getBits w0 0 8
  let n := weaveSources w
  let len := getBits w0 32 32
  let src (k : Nat) : Word := w.getD (1 + k) 0#64
  let dst := w.getD 5 0#64
  let aligned (x : Word) : Bool := decide (getBits x 0 6 = 0 ∧ getBits x 40 24 = 0)
  let sources := (List.range 4).all (fun k => if k < n then aligned (src k) else decide (src k = 0#64))
  if s.part.mirrorOnly = true ∧ (op = 1 ∨ op = 2) then some 0xFF
  else if op = 0 ∨ 3 < op ∨ getBits w0 12 20 ≠ 0 ∨ n < 2 ∨ 4 < n ∨ (op = 3 ∧ n ≠ 2) ∨ len = 0 ∨ len % 64 ≠ 0 ∨
      sources = false ∨ (if op = 1 then aligned dst else decide (dst = 0#64)) = false then some 0xE0
  else none

/-- Two lines combined byte by byte. -/
def xorBytes (a b : List Byte) : List Byte := List.zipWith (· ^^^ ·) a b

/-- The XOR of n sources at an offset; none for a bus error. -/
def xorSources (w : List Word) (off : Nat) : Nat → State → Option (List Byte) × State
  | 0, s => (some (List.replicate 64 0#8), s)
  | n + 1, s =>
    match xorSources w off n s with
    | (none, t) => (none, t)
    | (some a, t) =>
      match busRead t portOfl (getBits (w.getD (1 + n) 0#64) 0 40 + off) 64 with
      | (none, u) => (none, u)
      | (some b, u) => (some (xorBytes a b), u)

/-- One line of a Weave command (R521): XOR stores it, CHECK and COMPARE end at the first line that differs. COMPARE of two
sources is a CHECK of both. -/
def weaveLine (s : State) (r : WeaveRun) : WeaveRun × State :=
  let off := 64 * r.lines
  let w0 := r.words.getD 0 0#64
  match xorSources r.words off (weaveSources r.words) s with
  | (none, t) => ({ r with fin := some (0xE4, off) }, t)
  | (some x, t) =>
    let stored : Bool × State :=
      if getBits w0 0 8 = 1 then busWrite t portOfl (getBits (r.words.getD 5 0#64) 0 40 + off) x else (true, t)
    if stored.1 = false then ({ r with fin := some (0xE4, off) }, stored.2)
    else if getBits w0 0 8 ≠ 1 ∧ x.any (fun b => decide (b ≠ 0#8)) = true then
      ({ r with fin := some (0xE1, off) }, t)
    else
      let r := { r with lines := r.lines + 1 }
      (if 64 * r.lines = getBits w0 32 32 then { r with fin := some (0, 0) } else r, stored.2)

/-- So many lines more of a Weave command. -/
def weaveLines : Nat → WeaveRun → State → WeaveRun × State
  | 0, r, s => (r, s)
  | n + 1, r, s =>
    if r.fin.isSome then (r, s)
    else
      let x := weaveLine s r
      weaveLines n x.1 x.2

/-- Weave fetches its head command. -/
def weaveFetch (s : State) : Option (WeaveRun × State) :=
  if oflHalted s ∨ s.ofl.weave.isSome = true ∨ fld s F.OFL_WV_HEAD_HEAD = fld s F.OFL_WV_TAIL_TAIL then none
  else
    match busRead s portOfl (weaveEntry s) 64 with
    | (none, t) => some ({ fin := some (0xE4, 0) }, setFlag t F.OFL_WV_STAT_BUSY 0 true)
    | (some l, t) =>
      let w := (List.range 8).map (cmdWord l)
      some ({ words := w, fin := (weaveCheck s w).map (fun c => (c, 0)) }, setFlag t F.OFL_WV_STAT_BUSY 0 true)

/-- Weave works on a command of operation op: the one that runs, or the head command once fetched. -/
def weaveRun (s : State) (op lines : Nat) : State :=
  let cur : Option (WeaveRun × State) := match s.ofl.weave with
    | some r => some (r, s)
    | none => weaveFetch s
  match cur with
  | none => s
  | some (r, t) =>
    if getBits (r.words.getD 0 0#64) 0 8 ≠ op then s
    else
      let x := weaveLines lines r t
      { x.2 with ofl := { x.2.ofl with weave := some x.1 } }

/-- XOR (R521). -/
def execWeaveXor (lines : Nat) (s : State) : Result := .next (weaveRun s 1 lines)

/-- CHECK (R521). -/
def execCheck (lines : Nat) (s : State) : Result := .next (weaveRun s 2 lines)

/-- COMPARE (R521). -/
def execCompare (lines : Nat) (s : State) : Result := .next (weaveRun s 3 lines)

/-! ### Carder -/

/-- The address of Carder's head entry. -/
def carderEntry (s : State) : Nat :=
  oflEntry (fld s F.OFL_CD_RING_BASE) (fld s F.OFL_CD_HEAD_HEAD) (fld s F.OFL_CD_RING_LOG2)

/-- The checks of a SCAN (Tables 14.6 and 14.7). -/
def carderCheck (w : List Word) : Bool :=
  let w0 := w.getD 0 0#64
  let fmt := getBits w0 8 2
  let rlen := getBits w0 16 16
  let addr (k : Nat) : Bool := decide (getBits (w.getD k 0#64) 0 3 = 0 ∧ getBits (w.getD k 0#64) 40 24 = 0)
  let len (k : Nat) : Bool := decide (getBits (w.getD k 0#64) 32 32 = 0)
  decide (getBits w0 0 8 = 1 ∧ fmt ≠ 3 ∧ getBits w0 32 32 = 0) && (decide (fmt = 0) == decide (rlen ≠ 0)) &&
    addr 1 && len 2 && addr 3 && len 4 && addr 5

/-- The terms of a filter from their bytes. -/
def termsOf (l : List Byte) (n : Nat) : List Term :=
  (List.range n).map (fun k => { ctl := cmdWord l (3 * k), value := cmdWord l (3 * k + 1), mask := cmdWord l (3 * k + 2) })

/-- A term's own fields are in range. -/
def termOk (t : Term) : Bool := decide (getBits t.ctl 18 3 ≠ 7 ∧ getBits t.ctl 21 43 = 0)

/-- A term is true of a record (R526): its field little-endian and unsigned; false when the field passes the record's
end. -/
def termTrue (record : List Byte) (t : Term) : Bool :=
  let off := getBits t.ctl 0 16
  let n := 2 ^ getBits t.ctl 16 2
  let f := leNat ((record.drop off).take n)
  let v := t.value.toNat
  decide (off + n ≤ record.length) &&
    match getBits t.ctl 18 3 with
    | 0 => decide (f = v)
    | 1 => decide (f ≠ v)
    | 2 => decide (f < v)
    | 3 => decide (f ≤ v)
    | 4 => decide (v < f)
    | 5 => decide (v ≤ f)
    | _ => decide (f &&& t.mask.toNat = v)

/-- A record matches the filter (Table 14.7 COMBINE). -/
def recordTrue (r : CarderRun) (record : List Byte) : Bool :=
  if getBits (r.words.getD 0 0#64) 11 1 = 1 then r.terms.any (termTrue record) else r.terms.all (termTrue record)

/-- The bytes of a record's length prefix (Table 14.7 FORMAT). -/
def prefixBytes (fmt : Nat) : Nat := if fmt = 1 then 2 else if fmt = 2 then 4 else 0

/-- The record at the scan's place (R526, R527): its bytes without padding and its extent with it; or the STATUS that
ends the scan. The record and its fields start at its length prefix. -/
def nextRecord (s : State) (r : CarderRun) : (Nat ⊕ (List Byte × Nat)) × State :=
  let w0 := r.words.getD 0 0#64
  let src := getBits (r.words.getD 1 0#64) 0 40 + r.consumed
  let left := getBits (r.words.getD 2 0#64) 0 32 - r.consumed
  let p := prefixBytes (getBits w0 8 2)
  let size : Option (Nat × Nat) × State :=
    if p = 0 then (some (getBits w0 16 16, getBits w0 16 16), s)
    else if left < p then (some (0, 0), s)
    else match busRead s portOfl src p with
      | (none, t) => (none, t)
      | (some l, t) => (some (if leNat l = 0 then (0, 0) else (p + leNat l, (p + leNat l + 7) / 8 * 8)), t)
  match size with
  | (none, t) => (.inl 0xE4, t)
  | (some (n, ext), t) =>
    if n = 0 ∨ left < ext then (.inl 0xE3, t)
    else match busRead t portOfl src ext with
      | (none, u) => (.inl 0xE4, u)
      | (some l, u) => (.inr (l.take n, ext), u)

/-- What a matching record puts in DST: itself with its padding, or its offset from SRC (Table 14.7 OUT). -/
def recordOut (s : State) (r : CarderRun) (ext : Nat) : Option (List Byte) × State :=
  if getBits (r.words.getD 0 0#64) 10 1 = 1 then (some (wordBytes (BitVec.ofNat 64 r.consumed)), s)
  else busRead s portOfl (getBits (r.words.getD 1 0#64) 0 40 + r.consumed) ext

/-- One record of a scan (R526, R527). -/
def scanRecord (s : State) (r : CarderRun) : CarderRun × State :=
  if r.consumed = getBits (r.words.getD 2 0#64) 0 32 then ({ r with fin := some 0 }, s)
  else
    match nextRecord s r with
    | (.inl st, t) => ({ r with fin := some st }, t)
    | (.inr (rec, ext), t) =>
      if recordTrue r rec = false then ({ r with consumed := r.consumed + ext }, t)
      else
        match recordOut t r ext with
        | (none, u) => ({ r with fin := some 0xE4 }, u)
        | (some out, u) =>
          if getBits (r.words.getD 4 0#64) 0 32 < r.produced + out.length then ({ r with fin := some 0xE2 }, u)
          else
            let x := busWrite u portOfl (getBits (r.words.getD 3 0#64) 0 40 + r.produced) out
            if x.1 = false then ({ r with fin := some 0xE4 }, x.2)
            else ({ r with
              consumed := r.consumed + ext
              produced := r.produced + out.length
              found := r.found + 1 }, x.2)

/-- So many records more of a scan; the last record's end is met with it. -/
def scanRecords : Nat → CarderRun → State → CarderRun × State
  | 0, r, s =>
    (if r.fin.isNone && decide (r.consumed = getBits (r.words.getD 2 0#64) 0 32) then { r with fin := some 0 } else r, s)
  | n + 1, r, s =>
    if r.fin.isSome then (r, s)
    else
      let x := scanRecord s r
      scanRecords n x.1 x.2

/-- Carder fetches its head command and its terms. -/
def carderFetch (s : State) : Option (CarderRun × State) :=
  if oflHalted s ∨ s.ofl.carder.isSome = true ∨ fld s F.OFL_CD_HEAD_HEAD = fld s F.OFL_CD_TAIL_TAIL then none
  else
    match busRead s portOfl (carderEntry s) 64 with
    | (none, t) => some ({ fin := some 0xE4 }, setFlag t F.OFL_CD_STAT_BUSY 0 true)
    | (some l, t) =>
      let w := (List.range 8).map (cmdWord l)
      let t := setFlag t F.OFL_CD_STAT_BUSY 0 true
      let n := getBits (cmdWord l 0) 12 3 + 1
      if carderCheck w = false then some ({ words := w, fin := some 0xE0 }, t)
      else match busRead t portOfl (getBits (cmdWord l 5) 0 40) (24 * n) with
        | (none, u) => some ({ words := w, fin := some 0xE4 }, u)
        | (some f, u) =>
          let ts := termsOf f n
          some ({ words := w, terms := ts, fin := if ts.all termOk then none else some 0xE0 }, u)

/-- SCAN (R526). -/
def execScan (records : Nat) (s : State) : Result :=
  let cur : Option (CarderRun × State) := match s.ofl.carder with
    | some r => some (r, s)
    | none => carderFetch s
  match cur with
  | none => .next s
  | some (r, t) =>
    if getBits (r.words.getD 0 0#64) 0 8 ≠ 1 then .next s
    else
      let x := scanRecords records r t
      .next { x.2 with ofl := { x.2.ofl with carder := some x.1 } }

/-! ### Completion and stops -/

/-- A status of OFL that OFL_CNT counts as a failure: every one but OK and MISMATCH. -/
def oflFailed (st : Nat) : Bool := decide (st ≠ 0 ∧ st ≠ 0xE1)

/-- A Weave command completes (R521): word 6 written, HEAD advanced, counts and its source. -/
def weaveComplete (s : State) (w : List Word) (st off : Nat) : State :=
  let t := (busWriteWord s portOfl (weaveEntry s + 48) (BitVec.ofNat 64 (st + 2 ^ 8 + off * 2 ^ 32))).2
  let t := setFlds t 0 [
    (F.OFL_WV_HEAD_HEAD, (fld t F.OFL_WV_HEAD_HEAD + 1) % oflRing (fld t F.OFL_WV_RING_LOG2)),
    (F.OFL_WV_STAT_BUSY, 0), (F.OFL_WV_STAT_STATUS, st)]
  let t := when (oflFailed st) (fun u => bump u F.OFL_CNT_FAIL)
    (when (decide (st = 0xE1)) (fun u => bump u F.OFL_CNT_MISMATCH) (bump t F.OFL_CNT_WEAVE))
  when (bit (w.getD 0 0#64) 11) (fun u => raiseSource u 1009) { t with ofl := { t.ofl with weave := none } }

/-- A Carder command completes (R526): words 6 and 7 written, HEAD advanced, counts and its source. -/
def carderComplete (s : State) (r : CarderRun) (st : Nat) : State :=
  let e := carderEntry s
  let t := (busWriteWord s portOfl (e + 48) (BitVec.ofNat 64 (st + 2 ^ 8 + r.found * 2 ^ 32))).2
  let t := (busWriteWord t portOfl (e + 56) (BitVec.ofNat 64 (r.consumed + r.produced * 2 ^ 32))).2
  let t := setFlds t 0 [
    (F.OFL_CD_HEAD_HEAD, (fld t F.OFL_CD_HEAD_HEAD + 1) % oflRing (fld t F.OFL_CD_RING_LOG2)),
    (F.OFL_CD_STAT_BUSY, 0), (F.OFL_CD_STAT_STATUS, st)]
  let t := when (oflFailed st) (fun u => bump u F.OFL_CNT_FAIL) (bump t F.OFL_CNT_CARDER)
  when (bit (r.words.getD 0 0#64) 15) (fun u => raiseSource u 1010) { t with ofl := { t.ofl with carder := none } }

/-- A command that has reached its end completes (R521, R526); so does a head command that no operation takes up, one
whose fetch fails or whose OP is unknown (Table 14.6). -/
def execOflCommandDone (carder : Bool) (s : State) : Result :=
  if carder then
    match s.ofl.carder with
    | some r => (match r.fin with | some st => .next (carderComplete s r st) | none => .next s)
    | none =>
      match carderFetch s with
      | some (r, t) => (match r.fin with
        | some st => if getBits (r.words.getD 0 0#64) 0 8 = 1 then .next s else .next (carderComplete t r st)
        | none => .next s)
      | none => .next s
  else
    match s.ofl.weave with
    | some r => (match r.fin with | some (st, off) => .next (weaveComplete s r.words st off) | none => .next s)
    | none =>
      match weaveFetch s with
      | some (r, t) =>
        let op := getBits (r.words.getD 0 0#64) 0 8
        (match r.fin with
        | some (st, off) => if op = 1 ∨ op = 2 ∨ op = 3 then .next s else .next (weaveComplete t r.words st off)
        | none => .next s)
      | none => .next s

/-- The running commands end STOPPED (R528). -/
def oflStop (s : State) : State :=
  { s with ofl := {
    weave := s.ofl.weave.map (fun r => if r.fin.isSome then r else { r with fin := some (0xE5, 64 * r.lines) })
    carder := s.ofl.carder.map (fun r => if r.fin.isSome then r else { r with fin := some 0xE5 }) } }

/-- A block reset of OFL (R528): the ring registers are kept. -/
def execOflBlockReset (s : State) : Result := .next (setFlag (oflStop s) F.CKR_BRST_OFL 0 false)

end Sys2Proof.Machine
end

