-- ==== Sys2Proof/Machine/Fcl.lean ====
section
/-!
DEFINITION. The fault collector: fault messages and their reactions, pending bits and claims, and the safe state (R533 to
R548).
-/

namespace Sys2Proof.Machine

/-- Fields of a fault message (Table 15.2). -/
def msgSource (w : Word) : Nat := getBits w 51 11
/-- KIND. -/
def msgKind (w : Word) : Nat := getBits w 40 8
/-- SEV. -/
def msgSev (w : Word) : Nat := getBits w 48 3

/-- ERR_N is low (R546, R580, R603): the safe state, the latch, a hold of the power die, the dead state, or a crystal that
has not started. -/
def errLow (s : State) : Bool :=
  safeState s || flag s F.FCL_STAT_ERRN_LATCH || flag s F.FCL_STAT_SELF || flag s F.PWS_FAULT_LINK_LOSS ||
  flag s F.PWS_FAULT_CHOP_STUCK || flag s F.PWS_FAULT_VM_TRIP || decide (s.sec.boot = .dead) || s.ckr.noCrystal

/-! ### Causes and the safe state -/

/-- FCL_CAUSE and FCL_CAUSE_INFO latch the first cause (R547, Table 15.10). -/
def latchCause (s : State) (reason : Nat) (msg : Word) : State :=
  if flag s F.FCL_CAUSE_INFO_VALID then s
  else setFlds (wr s .FCL_CAUSE 0 msg) 0 [(F.FCL_CAUSE_INFO_TIME, now s), (F.FCL_CAUSE_INFO_REASON, reason),
    (F.FCL_CAUSE_INFO_VALID, 1)]

/-- What the safe state does on one actuator (R544, Table 2.4, R92, R157): writing and reading end. -/
def safeAct (a : Nat) (s : State) : State := lneStop (wrpCut s a 0x11) a

/-- Every dirty page of the log is due at once (R553, R555). -/
def evrUrgent (s : State) : State :=
  { s with evr := { s.evr with dirty := s.evr.dirty.map (fun d => { d with urgent := true }) } }

/-- The flush of the safe state (R544 step 5), unless power loss has started it. -/
def safeFlush (s : State) : State :=
  if pcState s = .none ∨ powerLost s = true then s
  else { s with flt := { s.flt with image := some (takeImage s), erased := false } }

/-- Entry into the safe state (R543, R544), with its record; a second cause changes nothing here. -/
def safeEntry (s : State) (reason : Nat) (msg : Word) : State :=
  if safeState s then s
  else
    let t := latchCause s reason msg
    let t := setFlag t F.FCL_STAT_SAFE 0 true
    let t := { t with fcl := { t.fcl with safeAt := now s } }
    let t := each (List.range t.part.acts) safeAct t
    let t := dcpStop (calDrop t (fun _ => true))
    let t := { t with hfe := { t.hfe with cfs := true } }
    let t := oflStop (dmaSafe (safeFlush t))
    let t := spnSafe (requestUnload t)
    let t := evrUrgent (evrEvent t 3 7 (msgSource msg) msg (BitVec.ofNat 64 (fld t F.FCL_CAUSE_INFO_REASON)))
    glySync t

/-! ### Reactions -/

/-- A block reset asked of CKR_BRST: bits of absent units are ignored (R606). -/
def brstSet (s : State) (value : Word) : State :=
  let keep (f : Fld) (present : Nat → Bool) (t : State) : State :=
    let v := getBits value f.lo f.w
    let w := (List.range f.w).foldl (fun n j => n + b2n (Nat.testBit v j && present j) * 2 ^ j) 0
    setFld t f 0 (fld t f ||| w)
  let yes (_ : Nat) : Bool := true
  let t := keep F.CKR_BRST_SVG (fun a => decide (a < s.part.acts)) (keep F.CKR_BRST_LANE (fun a => decide (a < s.part.acts)) s)
  let t := keep F.CKR_BRST_DMA yes (keep F.CKR_BRST_OFL (fun _ => s.part.hasOfl) t)
  each [F.CKR_BRST_DCP, F.CKR_BRST_WRP, F.CKR_BRST_CTE, F.CKR_BRST_SPN, F.CKR_BRST_PWS, F.CKR_BRST_HDL, F.CKR_BRST_SHT,
    F.CKR_BRST_LOOM, F.CKR_BRST_SPL, F.CKR_BRST_MGT, F.CKR_BRST_CAL, F.CKR_BRST_HFE] (fun f u => keep f yes u) t

/-- The bits of CKR_BRST that a source's BRESET starts (R541): an instance alone where CKR_BRST has a bit for it, else the
whole block; none for the blocks of R606 without a block reset and for firmware sources. -/
def brstFor (n : Nat) : Nat :=
  if 16 ≤ n ∧ n < 32 then 2 ^ 23
  else if 96 ≤ n ∧ n < 128 then 2 ^ 22
  else if 128 ≤ n ∧ n < 192 then 2 ^ 24
  else if 256 ≤ n ∧ n < 320 then 2 ^ 14
  else if 320 ≤ n ∧ n < 384 then 2 ^ 15
  else if 392 ≤ n ∧ n < 396 then 2 ^ (n - 392)
  else if 384 ≤ n ∧ n < 448 then 15
  else if 448 ≤ n ∧ n < 512 then 2 ^ 4
  else if 512 ≤ n ∧ n < 544 then 2 ^ 5
  else if 552 ≤ n ∧ n < 556 then 2 ^ (6 + (n - 552))
  else if 544 ≤ n ∧ n < 576 then 15 * 2 ^ 6
  else if 576 ≤ n ∧ n < 608 then 2 ^ 10
  else if 608 ≤ n ∧ n < 624 then 2 ^ 11
  else if 624 ≤ n ∧ n < 656 then 2 ^ 12
  else if 656 ≤ n ∧ n < 688 then 2 ^ 13
  else if 736 ≤ n ∧ n < 864 then 2 ^ (16 + (n - 736) % 64 / 16)
  else if 864 ≤ n ∧ n < 928 then 2 ^ 20
  else if 1008 ≤ n ∧ n < 1024 then 2 ^ 21
  else 0

/-- The resumable NMI (R541): on CORE, or on the lowest core that runs; with none it is lost. -/
def raiseNmi (s : State) (core : Nat) : State :=
  let runs (c : Nat) : Bool := decide (c < s.part.cores) && flag s F.SVC_CORE_CTL_RUN c
  let target := if runs core then some core else (List.range s.part.cores).find? runs
  match target with
  | some c => { s with fcl := { s.fcl with nmi := if c ∈ s.fcl.nmi then s.fcl.nmi else s.fcl.nmi ++ [c] } }
  | none => raiseSource (setFlag s F.FCL_STAT_NMI_LOST 0 true) 34

/-- The message as FCL takes it (R537): one whose parity does not check is FK_FCL_MSG from source 32 at severity 7. -/
def received (w : Word) : Word :=
  if msgPar w = bit w 63 then w else faultMsg 32 FK.fclMsg 7 (getBits w 0 40)

/-- The configured reactions of a message (R541 step 2). -/
def react (s : State) (msg : Word) : State :=
  let n := msgSource msg
  let t := when (flag s F.FCL_SRC_CFG_ERRN n) (fun u => setFlag u F.FCL_STAT_ERRN_LATCH 0 true) s
  let t := when (flag s F.FCL_SRC_CFG_SAFE n) (fun u => safeEntry u (if msgSev msg = 7 then 1 else 2) msg) t
  let t := when (flag s F.FCL_SRC_CFG_BRESET n) (fun u => brstSet u (BitVec.ofNat 64 (brstFor n))) t
  let t := when (flag s F.FCL_SRC_CFG_NMI n) (fun u => raiseNmi u (fld s F.FCL_SRC_CFG_CORE n)) t
  when (flag s F.FCL_SRC_CFG_CRESET n) (fun u =>
    let v := latchCause u 3 msg
    { v with ckr := { v.ckr with resetRequested := true } }) t

/-- FCL applies an accepted message (R541): pending bit and FCL_LAST; the safe state at severity 7, which no configuration
holds back (R543); the reactions, which a self-fault has stopped (R548); the record. -/
def applyMessage (s : State) (msg : Word) : State :=
  let n := msgSource msg
  let sev := msgSev msg
  let t := bump (wr (raiseSource s n) .FCL_LAST 0 msg) F.FCL_CNT_ACCEPTED
  let t := when (decide (sev = 7)) (fun u => safeEntry u 1 msg) t
  let t := when (decide (fld s F.FCL_SRC_CFG_SEV_MIN n ≤ sev) && !flag s F.FCL_STAT_SELF) (fun u => react u msg) t
  (evrRequest t { code := 256 + msgKind msg, sev := sev, source := n, p1 := msg }).2

/-- FCL accepts one message (R539, R25): the block at or after the pointer, its oldest message; noise is what the path to FCL
inverts. -/
def execFaultMessage (noise : Word) (s : State) : Result :=
  if s.ckr.inReset then .next s
  else
    let q (i : Nat) : List Word := tget (dflt []) s.fcl.waiting i
    match grant 25 s.fcl.ptr (fun i => !(q i).isEmpty) with
    | none => .next s
    | some i =>
      match q i with
      | [] => .next s
      | w :: rest =>
        let t := { s with fcl := { s.fcl with
          waiting := tset (dflt []) s.fcl.waiting i rest
          fatal := s.fcl.fatal.erase w
          ptr := grantNext 25 i } }
        .next (applyMessage t (received (w ^^^ noise)))

/-- A fatal line enters the safe state ahead of its message (R539). -/
def execFatalLine (s : State) : Result :=
  if s.ckr.inReset then .next s
  else match s.fcl.fatal with
  | [] => .next s
  | w :: rest => .next (safeEntry { s with fcl := { s.fcl with fatal := rest } } 1 w)

/-! ### Firmware's faults and sources -/

/-- A write of FCL_SW_RAISE by an engine of R27, or by a Bobbin descriptor (R539, R542). -/
def swRaise (s : State) (writer : Nat) (msg : Word) : State :=
  if 1024 ≤ msgSource msg ∧ 128 ≤ msgKind msg then
    sendMsg s (if writer < 16 then .svc else if writer < 40 then .sht else .dma) msg
  else bump s F.FCL_CNT_LOST

/-- FCL_SW_RAISE (R542). -/
def execFclSwRaise (writer : Nat) (msg : Word) (s : State) : Result := .next (swRaise s writer msg)

/-- A write of FCL_SW_SET (Table 15.15). -/
def swSet (s : State) (value : Word) : State :=
  if 1024 ≤ getBits value 0 11 then raiseSource s (getBits value 0 11) else s

/-- FCL_SW_SET. -/
def execFclSwSet (value : Word) (s : State) : Result := .next (swSet s value)

/-- The level sources that are asserted set their pending bits (R534): a record ring that holds a record, a firmware Spool
that holds a word with its interrupt enabled. -/
def levels (s : State) : State :=
  let t := each (List.range s.part.acts) (fun a u => when (!(dcpOf u a).ring.isEmpty) (fun v => raiseSource v (456 + a)) u) s
  each (List.range 32) (fun k u =>
    when (flag u F.SPL_FW_CFG_IRQ_EN k && !(spoolOf u k).words.isEmpty) (fun v => raiseSource v (896 + k)) u) t

/-- A write of FCL_PEND_k (R534). -/
def pendClear (s : State) (k : Nat) (value : Word) : State :=
  if 32 ≤ k then s else levels (wr s .FCL_PEND k (rd s .FCL_PEND k &&& ~~~ value))

/-- FCL_PEND_k. -/
def execPendingClear (k : Nat) (value : Word) (s : State) : Result := .next (pendClear s k value)

/-- A source is presented to a core (R535). -/
def presented (s : State) (c n : Nat) : Bool :=
  pendingBit s n && flag s F.FCL_SRC_CFG_IRQ n &&
    decide (fld s F.FCL_SRC_CFG_CORE n = c ∧ fld s F.FCL_THRESH_PRIO c < fld s F.FCL_SRC_CFG_PRIO n)

/-- The external interrupt input of a core (R535, Table 14.2). -/
def extInput (s : State) (c : Nat) : Bool := (List.range 2048).any (presented s c)

/-- The software interrupt input of a core (Table 14.2). -/
def softInput (s : State) (c : Nat) : Bool := flag s F.SVC_MSIP_MSIP c

/-- The timer input of a core (Table 14.2). -/
def timerInput (s : State) (c : Nat) : Bool := timerDue s c

/-- The deque input of a core (Table 14.2): its own deque holds a task, or another core's deque holds SVC_DQ_THR tasks. -/
def dequeInput (s : State) (c : Nat) : Bool :=
  (flag s F.SVC_CORE_CTL_DQ_IE c && !(dequeOf s c).isEmpty) ||
  (flag s F.SVC_CORE_CTL_DQ_STEAL_IE c && (List.range s.part.cores).any (fun e =>
    decide (e ≠ c ∧ fld s F.SVC_DQ_THR_THR 0 ≤ (dequeOf s e).length)))

/-- The non-maskable input of a core (Table 14.2): a trap it is nominated for and has not entered. -/
def nmiInput (s : State) (c : Nat) : Bool := s.fcl.nmi.contains c

/-- The interrupt inputs a core sees asserted, by their RISC-V causes (Table 14.2): 3 software, 7 timer, 11 external, 16
deque. PRESUMED: the numbers of the three standard machine causes are the RISC-V privileged architecture's. -/
def coreInputs (s : State) (c : Nat) : List Nat :=
  if s.part.cores ≤ c then []
  else [(3, softInput s c), (7, timerInput s c), (11, extInput s c), (16, dequeInput s c)].filterMap (fun x =>
    if x.2 then some x.1 else none)

/-- The source a claim of core c takes: of the highest PRIO, the lowest number. -/
def claimOf (s : State) (c : Nat) : Option Nat :=
  (List.range 2048).foldl (fun b n =>
    if presented s c n then
      match b with
      | none => some n
      | some m => if fld s F.FCL_SRC_CFG_PRIO m < fld s F.FCL_SRC_CFG_PRIO n then some n else some m
    else b) none

/-- A read of FCL_CLAIM_c (R535, R559). -/
def claim (s : State) (c : Nat) : State :=
  match (if c < s.part.cores then claimOf s c else none) with
  | none => answer s 0#64
  | some n =>
    let t := pendClear s (n / 64) (BitVec.ofNat 64 (2 ^ (n % 64)))
    answer t (BitVec.ofNat 64 (n + 2 ^ 11))

/-- FCL_CLAIM_c. -/
def execFclClaim (c : Nat) (s : State) : Result := .next (claim s c)

/-! ### Entry by firmware and self-faults -/

/-- A write of FCL_CTL (R543): the composed message is latched and enters the safe state; it sets no pending bit and is no
fault record. -/
def safeEnterWrite (s : State) (writer : Nat) (value : Word) : State :=
  if bit value 0 then
    let msg := faultMsg 32 FK.safeEnter 7 (writer % 64)
    safeEntry (wr s .FCL_LAST 0 msg) 5 msg
  else s

/-- FCL_CTL.SAFE_ENTER. -/
def execSafeEnter (writer : Nat) (value : Word) (s : State) : Result := .next (safeEnterWrite s writer value)

/-- FCL's sweep (R548): a corrected error is counted, any other is a self-fault. -/
def execSelfCheckSweep (found off : Nat) (s : State) : Result :=
  if found = 0 then .next s
  else if found = 1 then .next (bump s F.FCL_CNT_CORRECTED)
  else .next (safeEntry (setFlag s F.FCL_STAT_SELF 0 true) 4 (faultMsg 32 FK.fclSelf 7 off))

end Sys2Proof.Machine
end

