-- ==== Sys2Proof/Machine/Ckr.lean ====
section
/-!
DEFINITION. Supplies, clocks, reset, power loss and bring-up (chapter 17, with R38 to R41).
-/

namespace Sys2Proof.Machine

/-! ### The time store -/

/-- The newer good copy (R601). -/
def storeNewest (c : Ckr) : Option TimeCopy :=
  match c.storeA.good, c.storeB.good with
  | true, true => if c.storeA.seq < c.storeB.seq then some c.storeB else some c.storeA
  | true, false => some c.storeA
  | false, true => some c.storeB
  | false, false => none

/-- Drive time and the power-cycle count written over the older copy (R601). -/
def storeWrite (c : Ckr) : Ckr :=
  let x : TimeCopy := {
    seq := (match storeNewest c with | some y => y.seq | none => 0) + 1
    dtime := c.dtime, pcycle := c.pcycle, good := true }
  if c.storeA.good = false ∨ (c.storeB.good = true ∧ c.storeA.seq < c.storeB.seq) then { c with storeA := x }
  else { c with storeB := x }

/-- The time store written. -/
def timeStore (s : State) : State := { s with ckr := storeWrite s.ckr }

/-- Every 60 s of drive time (R601). -/
def execTimeStoreWrite (s : State) : Result := if s.ckr.dead then .next s else .next (timeStore s)

/-! ### Resets -/

/-- The registers a reset keeps (R267, R546, R547, R603, R604): none of FCL's and the power die's after a loss of power. The
tier's counts survive power (R501). -/
def keptRegs (s : State) (power : Bool) : State → State := fun t =>
  let t := each (List.range 16) (fun k u => wr u .FLT_TEMP_HIST k (rd s .FLT_TEMP_HIST k)) t
  let t := wr (wr (wr t .FLT_WEAR 0 (rd s .FLT_WEAR 0)) .FLT_ERR_CNT 0 (rd s .FLT_ERR_CNT 0))
    .FLT_LOST_CNT 0 (rd s .FLT_LOST_CNT 0)
  if power then t
  else
    let t := wr (wr t .FCL_CAUSE 0 (rd s .FCL_CAUSE 0)) .FCL_CAUSE_INFO 0 (rd s .FCL_CAUSE_INFO 0)
    let t := setFlds t 0 [(F.CKR_CLK_STAT_XTAL_OK, fld s F.CKR_CLK_STAT_XTAL_OK),
      (F.CKR_CLK_STAT_ON_BACKUP, fld s F.CKR_CLK_STAT_ON_BACKUP)]
    setFlds t 0 [(F.PWS_FAULT_CHOP_STUCK, fld s F.PWS_FAULT_CHOP_STUCK), (F.PWS_FAULT_VM_TRIP, fld s F.PWS_FAULT_VM_TRIP),
      (F.PWS_FAULT_LINK_LOSS, fld s F.PWS_FAULT_LINK_LOSS),
      (F.PWS_STAT_RESTART_BLOCK, fld s F.PWS_STAT_RESTART_BLOCK)]

/-- What a reset leaves (Table 17.3): every register at its reset value but those kept, every SRAM wiped, DRAM and the patch
RAMs empty; the OTP, the time store, what the NOR, the NAND and the pairing hold, drive time and the power-cycle count stay.
The commands that wait stay too. -/
def resetState (s : State) (power : Bool) (ckr : Ckr) : State :=
  let x := s.sec
  let t : State := {
    part := s.part, board := s.board, free := s.free, bus := s.bus, pending := s.pending, ckr := ckr
    evr := { area := s.evr.area }
    flt := { s.flt with cmds := [], nextFetch := 0, progs := [], rateProg := 0, admitted := [], work := [], classPtr := [] }
    spn := { retract := s.spn.retract }
    sec := { otp := x.otp, pairing := x.pairing, slot := x.slot, trialMark := x.trialMark, failMark := x.failMark
             lastRecords := x.lastRecords, blobs := x.blobs, norGen := x.norGen, lcEvent := x.lcEvent } }
  keptRegs s power t

/-- A chip reset starts (R601, R604, R605): the time store is written, the reset is announced to the power die, which
retracts the heads unless a retract runs, which goes on as it began (R21), and everything Table 17.3 lists is cleared. -/
def chipReset (s : State) : State :=
  if s.ckr.dead || s.ckr.inReset then { s with ckr := { s.ckr with resetRequested := false } }
  else
    let c := storeWrite s.ckr
    let t := resetState s false { dtime := c.dtime, pcycle := c.pcycle, storeA := c.storeA, storeB := c.storeB, sub := c.sub
                                  rstLow := c.rstLow, inReset := true }
    if s.spn.retract.isSome then each (List.range s.part.acts) (fun a u => setCte u a { cteOf u a with vcm := (cteOf s a).vcm }) t
    else retractDrive { t with spn := { t.spn with retract := some retractAnnounced } } (signed 16 (fld s F.PWS_RETRACT_RETRACT_I))

/-- A chip reset (R605), from CKR_RST.CHIP, a CRESET, SEC or R40. -/
def execChipReset (s : State) : Result := .next (chipReset s)

/-- RST_N low (R605, R629): ignored from the power-loss broadcast until quiescence (R600). -/
def execRstNAssert (s : State) : Result :=
  if powerLost s && !s.ckr.quiesced then .next s
  else .next (chipReset { s with ckr := { s.ckr with rstLow := true } })

/-- The lock bits of the ten CKR PLLs: those of present units (R602, Table 17.2). -/
def pllBits (p : Part) : Nat := 1023 - (if p.hasFlt then 0 else 2 ^ 6) - (if p.hasSas then 0 else 2 ^ 7)

/-- A chip reset ends (R602, R605): RST_N is high and every PLL has locked; the straps are sampled. A power-on with a good
crystal has cleared ON_BACKUP (R603). -/
def execResetRelease (hostSel peMode : Bool) (s : State) : Result :=
  if s.ckr.inReset && !s.ckr.noCrystal && !s.ckr.dead then
    let t := setFlds s 0 [(F.CKR_STRAP_HOST_SEL, b2n hostSel), (F.CKR_STRAP_PE_MODE, b2n peMode),
      (F.CKR_PWR_STAT_VIN_OK, 1), (F.CKR_CLK_STAT_PLL, pllBits s.part), (F.PWS_STAT_VIN_OK, 1), (F.PWS_STAT_LINK_OK, 1)]
    let t := if flag s F.CKR_CLK_STAT_ON_BACKUP then t else setFlag t F.CKR_CLK_STAT_XTAL_OK 0 true
    .next { t with
      board := { t.board with hostSel := hostSel, peMode := peMode }
      ckr := { t.ckr with inReset := false, por := false, rstLow := false, gated := [], up := 0 } }
  else .next s

/-- VIN rises above 2.65 V (R598, R601): power-on reset; drive time resumes from the newer good copy of the time store and
the power-cycle count is one more (R15). The depot may have programmed the slot meanwhile (R580). -/
def execPowerOn (depot : DepotImage) (s : State) : Result :=
  if !s.ckr.dead then .next s
  else
    let newest := storeNewest s.ckr
    let base : Ckr := { storeA := s.ckr.storeA, storeB := s.ckr.storeB, por := true, inReset := true }
    let c : Ckr := match newest with
      | some x => { base with dtime := x.dtime, pcycle := min (x.pcycle + 1) (2 ^ 32 - 1) }
      | none => { base with pcycle := 1, storeFault := true }
    let t := resetState s true (storeWrite c)
    let t := match depot with
      | some img => { t with sec := { t.sec with
          slot := some img, trialMark := false, failMark := false, norGen := t.sec.norGen + 1 } }
      | none => t
    .next (setFlag t F.CKR_CLK_STAT_TIME_LOST 0 newest.isNone)

/-! ### Supplies and clocks -/

/-- The rails of a part (Table 17.1). -/
def railPresent (p : Part) (k : Nat) : Bool := decide (k < 7) || (p.hasFlt && decide (k < 9))

/-- A rail is switched off (R598). -/
def execRailFault (k : Nat) (s : State) : Result :=
  if railPresent s.part k then
    .next (sendFault (setFld s F.CKR_PWR_STAT_RAIL_FLT 0 (fld s F.CKR_PWR_STAT_RAIL_FLT ||| 2 ^ k)) .ckr 0 FK.ckrRail 7 k)
  else .next s

/-- The crystal stops or drifts (R603): the reference domain and the PLLs move onto the oscillator. -/
def execXtalFault (s : State) : Result :=
  if flag s F.CKR_CLK_STAT_ON_BACKUP then .next s
  else .next (sendFault (setFlds s 0 [(F.CKR_CLK_STAT_ON_BACKUP, 1), (F.CKR_CLK_STAT_XTAL_OK, 0)]) .ckr 0 FK.ckrXtal 7 0)

/-- The crystal has not started within 10 ms of power-on reset (R603). -/
def execXtalStartTimeout (s : State) : Result :=
  if s.ckr.por && s.ckr.inReset then
    .next { setFlag s F.CKR_CLK_STAT_XTAL_OK 0 false with ckr := { s.ckr with noCrystal := true } }
  else .next s

/-- A CKR PLL loses lock (R602): its domain is gated; without the control domain the law lane stops, and the power die
retracts the heads (R21). -/
def execPllLockLoss (n : Nat) (s : State) : Result :=
  if n < 10 ∧ Nat.testBit (pllBits s.part) n = true ∧ n ∉ s.ckr.gated then
    let v := fld s F.CKR_CLK_STAT_PLL
    let t := setFld s F.CKR_CLK_STAT_PLL 0 (v - (if Nat.testBit v n then 2 ^ n else 0))
    let t := sendFault { t with ckr := { t.ckr with gated := t.ckr.gated ++ [n] } } .ckr 0 FK.ckrPll 7 n
    if n = 4 then execLinkLoss t else .next t
  else .next s

/-! ### Power loss -/

/-- The parameters of EV_POWER_LOSS (Table 15.6). -/
def powerParams (s : State) : List Word :=
  [BitVec.ofNat 64 (fld s F.GLY_BUDGET_STAT_PC_STATE), BitVec.ofNat 64 (4096 * fld s F.GLY_BUDGET_STAT_DIRTY),
    BitVec.ofNat 64 (fld s F.SPN_OBS_SPEED), BitVec.ofNat 64 (fld s F.PWS_VOLT_VM)]

/-- The record of EV_POWER_LOSS enters the ring. -/
def powerLossEvent (s : State) : State :=
  let p := powerParams s
  evrEvent s 2 4 1 (p.getD 0 0#64) (p.getD 1 0#64) (p.getD 2 0#64) (p.getD 3 0#64)

/-- The loss of VIN and the power-loss broadcast (R38, R41, R555, R599 to R601). A fall of VIN during a chip reset, or a second
one in a sequence whose VIN had returned, changes nothing. A flush that the safe state has committed counts as this one's. -/
def execVinLoss (s : State) : Result :=
  if powerLost s || s.ckr.dead || s.ckr.inReset then .next s
  else
    let flush := decide (pcState s ≠ .none)
    let t := setFlds s 0 [(F.PWS_STAT_VIN_OK, 0), (F.PWS_STAT_HOLDUP, 1), (F.CKR_PWR_STAT_VIN_OK, 0),
      (F.CKR_PWR_STAT_LOSS, 1)]
    let t := powerLossEvent (raiseSource t 1)
    let done := safeState s && s.flt.image.any (fun i => i.committed)
    let t := { timeStore t with ckr := { storeWrite t.ckr with loss := some {
      flush := flush, committed := done, record := powerParams s } } }
    -- a flush that the safe state has started runs once (R544)
    let t := if safeState s && s.flt.image.isSome then t else fltPowerLoss t
    let t := each (List.range t.part.acts) (fun a u => lneStop (wrpPowerLoss u a) a) (calDrop t (fun _ => true))
    let t := oflStop (dmaPowerLoss (dcpStop t))
    let t := spnPowerLoss t
    .next (glySync (evrUrgent (requestCommit t)))

/-- EVR has nothing left to persist (R555, R600): the ring has drained and its dirty pages are written, or FLT does not
accept them, or MODE = 1. -/
def evrPersisted (s : State) : Bool :=
  flag s F.EVR_CTL_MODE || !(s.part.hasFlt && fltReads s) ||
    ((!evrDraining s || s.evr.ring.isEmpty) && s.evr.dirty.isEmpty)

/-- A flush is in flight. -/
def flushing (s : State) : Bool :=
  (powerLost s || safeState s) && (match s.flt.image with | some i => !i.committed | none => false)

/-- The commit record is written, after EVR's pages (R38 step 9, R496, R555); it ends the wait of a failed trial (R579). -/
def execFlushCommit (s : State) : Result :=
  if flushing s && evrPersisted s then
    let t := fltCommit s (match s.ckr.loss with | some l => l.record | none => [])
    let t := match t.ckr.loss with
      | some l => { t with ckr := { t.ckr with loss := some { l with committed := true } } }
      | none => t
    .next (if t.sec.trialFailed then { t with ckr := { t.ckr with resetRequested := true } } else t)
  else .next s

/-- The conditions of R600 for quiescence. -/
def mayQuiesce (s : State) : Bool :=
  (List.range s.part.acts).all (fun a => decide (cteState s a = stParked)) &&
  (match s.ckr.loss with | some l => l.committed || !l.flush | none => false) &&
  s.tag.commit.isNone && !s.tag.commitWaiting && evrPersisted s

/-- CKR quiesces logic (R38 step 10, R600), at once with VM below 4.5 V: cores and Shuttles are held in reset, clocks stop, SPN
short-brakes. With VIN returned the sequence runs through its commit and the module performs a chip reset instead (R40). -/
def execQuiesceLogic (vm : Nat) (s : State) : Result :=
  let s := setVm s vm
  let back := s.ckr.loss.any (fun l => l.vinBack)
  if !powerLost s || s.ckr.quiesced || !(mayQuiesce s || (!back && decide (vm < 4500))) then .next s
  else if back then .next (chipReset s)
  else
    let t := each (List.range s.part.cores) (fun c u => engineLost (setFld u F.SVC_CORE_CTL_STATE c 0) c) s
    let t := each (List.range s.part.shuttles) (fun k u => shReset u k) t
    .next (spnQuiesce { t with ckr := { t.ckr with quiesced := true } })

/-- VIN returns during the sequence (R40): it runs through its commit; from quiescence on the chip reset follows at once. -/
def execVinReturn (s : State) : Result :=
  match s.ckr.loss with
  | none => .next s
  | some l =>
    let t := setFlds s 0 [(F.PWS_STAT_VIN_OK, 1), (F.CKR_PWR_STAT_VIN_OK, 1)]
    if s.ckr.quiesced then .next (chipReset t)
    else .next { t with ckr := { t.ckr with loss := some { l with vinBack := true } } }

/-- The hold-up converter stops regulating (R599): the module has no power. What no reset keeps is gone, FCL_CAUSE and the
power-die latches with it (Table 17.3). -/
def execHoldUpEnd (s : State) : Result :=
  if powerLost s && !s.ckr.dead then
    .next { resetState s true { storeA := s.ckr.storeA, storeB := s.ckr.storeB, dead := true, inReset := true } with
      spn := {} }
  else .next s

/-! ### Readiness and shutdown -/

/-- A write of CKR_FWREADY (R607): HOST and MEDIA of CKR_READY mirror it, and CSTS.RDY follows HOST. -/
def fwReadyWrite (s : State) (value : Word) : State :=
  let t := setFlds s 0 [(F.CKR_FWREADY_HOST, getBits value 0 1), (F.CKR_FWREADY_MEDIA, getBits value 1 1)]
  hostReady (setReady (setReady t F.CKR_READY_HOST 0 (bit value 0)) F.CKR_READY_MEDIA 0 (bit value 1))

/-- A write of CKR_FWREADY. -/
def execFwReadyWrite (value : Word) (s : State) : Result := .next (fwReadyWrite s value)

/-- CKR_SHUTDOWN.GO (R609): the time store is written and DONE sets. -/
def shutdown (s : State) : State :=
  setFlds (timeStore s) 0 [(F.CKR_SHUTDOWN_GO, 1), (F.CKR_SHUTDOWN_DONE, 1)]

/-- CKR_SHUTDOWN.GO. -/
def execShutdown (s : State) : Result := .next (shutdown s)

end Sys2Proof.Machine
end

