-- ==== Sys2Proof/Machine/Syc.lean ====
section
/-!
DEFINITION. Chapter 11's commands: DRAM readiness (R408), the scrubber (R418, R419), the system cache's enable, scratch
ways, range operations and eviction buffer (R425 to R431), and the core cache-block operations (R512).
-/

namespace Sys2Proof.Machine

/-! ### DRAM readiness and the scrubber -/

/-- DRAM training ends (R408). -/
def execDramReady (ok twoRanks : Bool) (s : State) : Result :=
  if flag s F.BFM_DRAM_STAT_READY || flag s F.BFM_DRAM_STAT_FAIL then .next s
  else
    let use := min s.board.dramGib s.part.dramGib
    let t := setFlds s 0 [(F.BFM_DRAM_STAT_FITTED, s.board.dramGib), (F.BFM_DRAM_STAT_IN_USE, use),
      (F.BFM_DRAM_STAT_TRUNCATED, b2n (decide (s.part.dramGib < s.board.dramGib))),
      (F.BFM_DRAM_STAT_TWO_RANKS, b2n twoRanks)]
    if ok then
      .next (fltTryInit (setReady (setFlag (wipeDram t) F.BFM_DRAM_STAT_READY 0 true) F.CKR_READY_DRAM 0 true))
    else .next (sendFault (setFlag t F.BFM_DRAM_STAT_FAIL 0 true) .bfm 688 FK.dramTrain 6 0)

/-- A block by its FCL arbitration number (R539). -/
def blockOf (n : Nat) : Block :=
  ([.hfe, .gly, .sht, .loom, .lne, .dcp, .wrp, .svg, .cte, .spn, .pws, .hdl, .bfm, .syc, .dma, .spl, .flt, .svc, .ofl,
    .fcl, .evr, .ckr, .cal, .sec, .mgt].find? (fun b => Block.fclIdx b == n)).getD .bfm

/-- An uncorrectable error of the SYC tag or state arrays (R414): logged with TAG, FK_SYC_TAG at severity 7. -/
def sycTagError (s : State) (addr : Nat) : State :=
  let t := if flag s F.BFM_UE_LOG_VALID then setFlag s F.BFM_UE_LOG_OVERFLOW 0 true
    else setFlds s 0 [(F.BFM_UE_LOG_ADDR, addr), (F.BFM_UE_LOG_REQ, 31), (F.BFM_UE_LOG_POISON, 0),
      (F.BFM_UE_LOG_DRAM, 0), (F.BFM_UE_LOG_TAG, 1), (F.BFM_UE_LOG_VALID, 1)]
  sendFault t .syc 720 FK.sycTag 7 addr

/-- An uncorrectable error found in the SYC data of the line at an address (R414): a clean line is invalidated and the
error counted as corrected; a dirty one keeps it. -/
def sycDataError (s : State) (addr : Nat) : State :=
  let line := addr / 64
  match sycFind s line with
  | none => s
  | some w => match wayLine s (setOf line) w with
    | none => s
    | some x =>
      if x.dirty then
        let k := addr % 64 / 8
        let bad := if Nat.testBit x.bad k then x.bad else x.bad + 2 ^ k
        memUe (setWay s (setOf line) w (some { x with bad := bad })) .syc addr 31 false false
      else corrected (setWay s (setOf line) w none) .syc addr 31 false

/-- An uncorrectable error found in the L2 of cluster c (R513): a clean line is refetched, counted as corrected; a dirty one
keeps the error. -/
def l2Error (s : State) (c addr : Nat) : State :=
  match l2Line s c (addr / 64) with
  | none => s
  | some x =>
    if x.dirty then
      let k := addr % 64 / 8
      let bad := if Nat.testBit x.bad k then x.bad else x.bad + 2 ^ k
      memUe (setL2 s c (addr / 64) (some { x with bad := bad })) .svc addr 31 false false
    else corrected (setL2 s c (addr / 64) none) .svc addr 31 false

/-- A correctable error arises in a word of DRAM, of the scratch window or of the SYC data (R413): the next access meets
it. -/
def softArises (s : State) (kind addr : Nat) : State :=
  if kind = 0 ∨ (kind = 1 ∧ regionOf s addr = .scratch) then setSoft s addr true
  else if kind = 1 then
    match sycFind s (addr / 64) with
    | none => s
    | some w => match wayLine s (setOf (addr / 64)) w with
      | none => s
      | some x =>
        let k := addr % 64 / 8
        let soft := if Nat.testBit x.soft k then x.soft else x.soft + 2 ^ k
        setWay s (setOf (addr / 64)) w (some { x with soft := soft })
  else s

/-- The scrubber writes a corrected word back (R418). -/
def softRepaired (s : State) (kind addr : Nat) : State :=
  if kind = 0 ∨ (kind = 1 ∧ regionOf s addr = .scratch) then setSoft s addr false
  else if kind = 1 then
    match sycFind s (addr / 64) with
    | none => s
    | some w => match wayLine s (setOf (addr / 64)) w with
      | none => s
      | some x =>
        let k := addr % 64 / 8
        let soft := if Nat.testBit x.soft k then x.soft - 2 ^ k else x.soft
        setWay s (setOf (addr / 64)) w (some { x with soft := soft })
  else s

/-- A dirty entry of the check-line buffer is lost (R411): every data line of its block reads as poisoned, and FK_MEM_UE
carries the block's first data address. -/
def checkLost (s : State) (addr : Nat) : State :=
  let base := dramBase + dramBlock addr * 448
  let t := each (List.range 7) (fun k u => setPoison u (base / 64 + k) true) s
  memUe t .bfm base 31 false true

/-- One visit of the scrubber (R418); stopped, it visits nothing (R419). What it finds in a word is repaired or reported; the
errors that arise elsewhere reach the model with its visits. -/
def execScrubVisit (kind block addr found : Nat) (s : State) : Result :=
  if !flag s F.BFM_SCRUB_CTL_EN || found = 0 then .next s
  else if kind = 5 then .next (if found = 1 then s else checkLost s addr)
  else if found = 3 then .next (softArises s kind addr)
  else
    let b := match kind with | 0 => .bfm | 1 => .syc | 2 => .syc | 4 => .svc | _ => blockOf block
    if found = 1 then
      .next (corrected (softRepaired s kind addr) b addr 31 (decide (kind = 0)))
    else match kind with
      | 0 => .next (memUe (setSoft (setBad s addr true) addr false) .bfm addr 31 false true)
      | 1 => if regionOf s addr = .scratch then
               .next (memUe (setSoft (setBad s addr true) addr false) .syc addr 31 false false)
             else .next (sycDataError s addr)
      | 2 => .next (sycTagError s addr)
      | 4 => .next (l2Error s block addr)
      | _ => .next (memUe s b addr 31 false false)

/-- Microseconds of the current lap so far (R419). -/
def lapUs (s : State) : Nat := (s.ckr.up - s.bfm.lapAt) / 25

/-- A lap ends (R419, R417). -/
def execScrubLapComplete (s : State) : Result :=
  if !flag s F.BFM_SCRUB_CTL_EN then .next s
  else
    let t := setFld s F.BFM_SCRUB_LAP_US 0 (min (lapUs s) (2 ^ 32 - 1))
    let t := setFlag (bump t F.BFM_SCRUB_STAT_LAPS) F.BFM_SCRUB_STAT_SLOW 0 false
    .next (raiseSource { t with bfm := { t.bfm with lapCe := 0, lapAt := t.ckr.up } } 689)

/-- The lap has run past LAP_WARN (R419): once per lap. The time stopped counts. -/
def execScrubSlow (s : State) : Result :=
  if flag s F.BFM_SCRUB_STAT_SLOW || decide (lapUs s ≤ fld s F.BFM_SCRUB_CTL_LAP_WARN * 100000) then .next s
  else .next (sendFault (setFlag s F.BFM_SCRUB_STAT_SLOW 0 true) .bfm 688 FK.scrubSlow 4 0)

/-! ### The system cache -/

/-- A write of SYC_CTL (R427): the cache's contents stay as they are. -/
def execCacheEnableWrite (value : Word) (s : State) : Result :=
  .next (setFlds s 0 [(F.SYC_CTL_EN, getBits value 0 1), (F.SYC_CTL_STREAM_EN, getBits value 1 1)])

/-- A dirty line of a way written back, poisoned with its bad words (R415). -/
def cleanWay (s : State) (set w : Nat) : State :=
  match wayLine s set w with
  | some x => if x.dirty then setWay (writeBack s x) set w (some { x with dirty := false }) else s
  | none => s

/-- The lines of the cache, by 16 × set + way. -/
def cacheKeys (s : State) : List Nat := (s.syc.lines.filter (fun e => e.2.isSome)).map (·.1)

/-- A write of SYC_SCRATCH (R425); REFUSED is W1C. -/
def execScratchConvert (value : Word) (s : State) : Result :=
  let n := getBits value 0 4
  let cur := fld s F.SYC_SCRATCH_COUNT
  let s := when (bit value 5) (fun t => setFlag t F.SYC_SCRATCH_REFUSED 0 false) s
  if 12 < n then .next (setFlag s F.SYC_SCRATCH_REFUSED 0 true)
  else if cur < n then
    if (List.range 16).any (fun w => decide (16 - n ≤ w) && lockedWay s w) then
      .next (setFlag s F.SYC_SCRATCH_REFUSED 0 true)
    else
      let keys := (cacheKeys s).filter (fun k => decide (16 - n ≤ k % 16))
      let t := each keys (fun k u => setWay (cleanWay u (k / 16) (k % 16)) (k / 16) (k % 16) none) s
      let t := clearRange t (0xE0000000 + cur * 524288) ((n - cur) * 524288)
      .next (setFlds t 0 [(F.SYC_SCRATCH_COUNT, n), (F.SYC_SCRATCH_BUSY, 1)])
  else
    let t := clearRange s (0xE0000000 + n * 524288) ((cur - n) * 524288)
    .next (setFld t F.SYC_SCRATCH_COUNT 0 n)

/-- The conversion ends (R425). -/
def execScratchDone (s : State) : Result :=
  if flag s F.SYC_SCRATCH_BUSY then .next (raiseSource (setFlag s F.SYC_SCRATCH_BUSY 0 false) 722) else .next s

/-! ### Range operations -/

/-- The end of a range operation with a status (R429). -/
def rangeEnd (s : State) (st : Nat) : State :=
  raiseSource (setFlds { s with syc := { s.syc with range := none } } 0
    [(F.SYC_RANGE_STAT_BUSY, 0), (F.SYC_RANGE_STAT_DONE, 1), (F.SYC_RANGE_STAT_STATUS, st)]) 721

/-- A line lies in the operation's range (R428). -/
def inRange (s : State) (all : Bool) (line : Nat) : Bool :=
  let b := fld s F.SYC_RANGE_BASE_BASE / 64
  all || decide (b ≤ line ∧ line < b + fld s F.SYC_RANGE_LEN_LEN / 64)

/-- The range is aligned and lies within the usable DRAM (R428, R429). -/
def rangeOk (s : State) : Bool :=
  let b := fld s F.SYC_RANGE_BASE_BASE
  let n := fld s F.SYC_RANGE_LEN_LEN
  decide (b % 64 = 0 ∧ n % 64 = 0 ∧ dramBase ≤ b ∧ b + n ≤ dramBase + dramBytes s)

/-- A line written back by the range engine, counted (R429). -/
def rangeClean (s : State) (k : Nat) : State :=
  match wayLine s (k / 16) (k % 16) with
  | some x =>
    if x.dirty then
      let t := bump (cleanWay s (k / 16) (k % 16)) F.SYC_RANGE_STAT_WRITTEN
      if x.bad ≠ 0 then bump t F.SYC_RANGE_STAT_ERRORS else t
    else s
  | none => s

/-- One line of a range operation of OP 0 to 3 (Table 11.4). -/
def rangeLine (op k : Nat) (s : State) : State :=
  let locked := lockedWay s (k % 16)
  let drop (t : State) : State := setWay t (k / 16) (k % 16) none
  match op with
  | 0 => rangeClean s k
  | 1 => if locked then bump s F.SYC_RANGE_STAT_SKIPPED else drop s
  | 2 => if locked then bump s F.SYC_RANGE_STAT_SKIPPED else drop (rangeClean s k)
  | _ => drop (rangeClean s k)

/-- One line of LOAD_WAY (Table 11.4): not already cached, it is loaded into its set's way w. -/
def loadLine (w line : Nat) (s : State) : State :=
  let s := evbRace s line
  if (sycFind s line).isSome then s
  else
    let fail (t : State) : State := bump t F.SYC_RANGE_STAT_ERRORS
    if !flag s F.BFM_DRAM_STAT_READY then fail s
    else match dramRead s (port 30 false) line with
      | (none, t) => fail t
      | (some d, t) =>
        let k := 16 * setOf line + w
        let t := rangeClean t k
        touchRef (setWay t (setOf line) w (some { line := line, data := d })) (setOf line) w

/-- A GO of the range engine (R428 to R430, R439). The lines are acted on at the command; BUSY holds until the engine's
end is commanded. -/
def rangeGo (s : State) (value : Word) : State :=
  let op := getBits value 0 3
  let all := bit value 3
  let way := getBits value 4 4
  if flag s F.SYC_RANGE_STAT_BUSY then setFld s F.SYC_RANGE_STAT_STATUS 0 0xB1
  else
    let s := setFlds s 0 [(F.SYC_RANGE_CMD_OP, op), (F.SYC_RANGE_CMD_ALL, b2n all), (F.SYC_RANGE_CMD_WAY, way),
      (F.SYC_RANGE_STAT_DONE, 0), (F.SYC_RANGE_STAT_WRITTEN, 0), (F.SYC_RANGE_STAT_SKIPPED, 0),
      (F.SYC_RANGE_STAT_ERRORS, 0)]
    if 4 < op ∨ (all = false ∧ rangeOk s = false) then rangeEnd s 0xB0
    else if op = 4 ∧ scratchWay s way = true then rangeEnd s 0xB2
    else
      let s := setFlag s F.SYC_RANGE_STAT_BUSY 0 true
      if op = 4 then
        if all then s
        else each (List.range (fld s F.SYC_RANGE_LEN_LEN / 64))
          (fun j t => loadLine way (fld s F.SYC_RANGE_BASE_BASE / 64 + j) t) s
      else
        let keys := (cacheKeys s).filter (fun k => match wayLine s (k / 16) (k % 16) with
          | some x => inRange s all x.line
          | none => false)
        each keys (rangeLine op) s

/-- A write of SYC_RANGE_CMD (R438): with GO, the operation starts. Named by its OP below. -/
def rangeCmdWrite (value : Word) (s : State) : State :=
  if bit value 8 then rangeGo s value
  else setFlds s 0 [(F.SYC_RANGE_CMD_OP, getBits value 0 3), (F.SYC_RANGE_CMD_ALL, getBits value 3 1),
    (F.SYC_RANGE_CMD_WAY, getBits value 4 4)]

/-- A GO of a named operation: the value with OP and GO as the name says. -/
def goValue (value : Word) (op : Nat) : Word := setBits (setBits value 0 3 op) 8 1 1

/-- CLEAN (R428). -/
def execClean (value : Word) (s : State) : Result := .next (rangeCmdWrite (goValue value 0) s)

/-- INVALIDATE (R428). -/
def execInvalidate (value : Word) (s : State) : Result := .next (rangeCmdWrite (goValue value 1) s)

/-- CLEAN_INV (R428). -/
def execCleanInv (value : Word) (s : State) : Result := .next (rangeCmdWrite (goValue value 2) s)

/-- CLEAN_INV_LOCKED (R428). -/
def execCleanInvLocked (value : Word) (s : State) : Result := .next (rangeCmdWrite (goValue value 3) s)

/-- LOAD_WAY (R428). -/
def execLoadWay (value : Word) (s : State) : Result := .next (rangeCmdWrite (goValue value 4) s)

/-- The range engine ends (R429). -/
def execRangeOpDone (s : State) : Result :=
  if flag s F.SYC_RANGE_STAT_BUSY then
    .next (rangeEnd s (if fld s F.SYC_RANGE_STAT_ERRORS = 0 then 0x00 else 0xB3))
  else .next s

/-! ### The eviction buffer -/

/-- The DRAM write of an eviction-buffer entry is granted and answered (R431). -/
def execEvictionWritebackDone (line : Nat) (s : State) : Result :=
  match evbTake s line with
  | some (x, t) => .next (writeBack t x)
  | none => .next s

/-! ### Core cache-block operations -/

/-- A cache-block operation of a core on the line of an address (R512), in every cluster L2. -/
def cbo (s : State) (c : Nat) (f : Nat → State → State) : State :=
  if c < s.part.cores ∧ flag s F.SVC_CORE_CTL_RUN c = true then each (List.range s.part.clusters) f s else s

/-- cbo.clean (R512). -/
def execCboClean (c addr : Nat) (s : State) : Result :=
  .next (cbo s c (fun k t => l2WriteBack t k (addr / 64)))

/-- cbo.flush (R512). -/
def execCboFlush (c addr : Nat) (s : State) : Result :=
  .next (cbo s c (fun k t => setL2 (l2WriteBack t k (addr / 64)) k (addr / 64) none))

/-- cbo.inval (R512): dirty data is discarded. -/
def execCboInval (c addr : Nat) (s : State) : Result :=
  .next (cbo s c (fun k t => setL2 t k (addr / 64) none))

end Sys2Proof.Machine
end

