-- ==== Sys2Proof/Machine/Views.lean ====
section
/-!
DEFINITION. What a register shows (R12): its stored fields with those that report the state of a unit laid over them.
-/

namespace Sys2Proof.Machine

/-- A word with fields laid over it. -/
def withFlds (w : Word) (l : List (Fld × Nat)) : Word := l.foldl (fun x e => setBits x e.1.lo e.1.w e.2) w

/-- A number for a list of bits. -/
def bitSet (n : Nat) (p : Nat → Bool) : Nat := (List.range n).foldl (fun m k => m + b2n (p k) * 2 ^ k) 0

/-- The queue context of Table 9.1 as 128 bits. -/
def ctxImage (c : QCtx) : Nat :=
  c.sqTail % 65536 + c.sqHead % 65536 * 2 ^ 16 + c.cqTail % 65536 * 2 ^ 32 + c.cqHead % 65536 * 2 ^ 48 +
    c.cqIndex % 65536 * 2 ^ 64 + b2n c.sqEn * 2 ^ 80 + b2n c.cqEn * 2 ^ 81 + b2n c.phase * 2 ^ 82 + c.prio % 4 * 2 ^ 83 +
    b2n c.ien * 2 ^ 85 + c.iv % 2048 * 2 ^ 86 + b2n c.fetchErr * 2 ^ 97 + c.inflight % 65536 * 2 ^ 98

/-- The context GLY_QCTX_SEL selects. -/
def ctxSel (s : State) : Nat := fld s F.GLY_QCTX_SEL_IDX

/-- The status of a lane's loops (R69, R72): even lanes lead, odd lanes trail. -/
def dfeCur (v : LoopVals) (lane : Nat) : List (Fld × Nat) :=
  if lane % 2 = 0 then
    [(F.LNE_DFE_CUR_GAIN, v.gainL), (F.LNE_DFE_CUR_BASE, v.baseL), (F.LNE_DFE_CUR_ASYM, v.asymL)]
  else [(F.LNE_DFE_CUR_GAIN, v.gainT), (F.LNE_DFE_CUR_BASE, v.baseT), (F.LNE_DFE_CUR_ASYM, v.asymT)]

/-- LNE_RETAIN_a's live fields (R107). -/
def retainView (p : Pair) : List (Fld × Nat) :=
  [(F.LNE_RETAIN_HELD, bitSet 4 (slotHeld p)),
   (F.LNE_RETAIN_PINNED, bitSet 4 (fun k => (slotAt p k).pinFw || (slotAt p k).pinPool)),
   (F.LNE_RETAIN_CUR_SEQ, if p.stamps = 0 then 0 else (p.nextSeq + 65535) % 65536)]

/-- DCP_Q_STAT_a: entries by state, and records held (R115, R123). -/
def queueView (s : State) (a : Nat) : List (Fld × Nat) :=
  let n (st : EntryState) : Nat := countBelow (fun e => decide ((entryOf s a e).st = st)) 16
  [(F.DCP_Q_STAT_FREE, n .free), (F.DCP_Q_STAT_RESERVED, n .reserved), (F.DCP_Q_STAT_READY, n .ready),
   (F.DCP_Q_STAT_DECODING, n .decoding), (F.DCP_Q_STAT_HELD, n .held), (F.DCP_Q_STAT_RECORDS, (dcpOf s a).ring.length)]

/-- DCP_DEC_STAT_d (R142). -/
def decoderView (s : State) (d : Decoder) : List (Fld × Nat) :=
  match d.work with
  | some w => [(F.DCP_DEC_STAT_KIND, if d.out then 3 else if w.live then 1 else 2), (F.DCP_DEC_STAT_ACT, w.act),
      (F.DCP_DEC_STAT_ITER, min (attemptIters s w) 255), (F.DCP_DEC_STAT_CLASS, w.cls)]
  | none => [(F.DCP_DEC_STAT_KIND, if d.out then 3 else 0)]

/-- SPL_FW_STAT_k (R467). -/
def spoolView (s : State) (k : Nat) : List (Fld × Nat) :=
  let x := spoolOf s k
  [(F.SPL_FW_STAT_COUNT, x.words.length), (F.SPL_FW_STAT_DEPTH, spoolDepth s k),
   (F.SPL_FW_STAT_EMPTY, b2n x.words.isEmpty), (F.SPL_FW_STAT_FULL, b2n (decide (spoolDepth s k ≤ x.words.length))),
   (F.SPL_FW_STAT_DROPPING, b2n x.dropping), (F.SPL_FW_STAT_OPEN, b2n x.owner.isSome),
   (F.SPL_FW_STAT_OWNER, x.owner.getD 0)]

/-- SHT_STAT_s (R320). -/
def shuttleView (h : Shuttle) : List (Fld × Nat) :=
  [(F.SHT_STAT_STATE, h.st.ctorIdx), (F.SHT_STAT_LS, h.ls), (F.SHT_STAT_PC, h.pc),
   (F.SHT_STAT_TAGS, bitSet 8 (fun t => (tagOp h t).isSome)), (F.SHT_STAT_FRAMES, bitSet 4 (frameUsed h)),
   (F.SHT_STAT_READY, bitSet 4 (fun f => h.frames.any (fun x => decide (x.f = f) && x.ready.isSome)))]

/-- Word k of the slot image core c selects (R335, R378): zero when its handle is stale. -/
def slotImage (s : State) (i : Nat) : Word :=
  match byHandle s (fld s F.GLY_SLOT_RD_HANDLE (i / 16)) with
  | some n => slotWord s n (i % 16)
  | none => 0#64

/-- STALE of GLY_SLOT_RD_c; a handle of zero, the reset value, is not reported stale (R378). -/
def staleView (s : State) (h : Nat) : Nat := b2n (decide (h ≠ 0) && (byHandle s h).isNone)

/-- Seconds since the owner's last update command (Table 16.14), saturating. -/
def updIdle (s : State) : Nat :=
  if fld s F.SEC_UPD_STAT_STATE = 0 then 0 else min 1023 ((now s - s.sec.ownerAt) / 1000)

/-- PROGRESS of a commit in per cent (Table 16.12): a free value of at most 100 while one runs. -/
def updProgress (s : State) : Nat := if fld s F.SEC_UPD_STAT_STATE = 2 then min 100 (Config.progress s.ckr.up) else 0

/-- Seconds left of the trial timer (R595). -/
def trialLeft (s : State) : Nat :=
  match s.sec.trialAt with
  | some t => (30000 - (now s - t)) / 1000
  | none => 0

/-- The fields of a register that report live state. -/
def liveFlds (s : State) (r : Reg) (i : Nat) : List (Fld × Nat) :=
  match r with
  | .HDL_WG_STAT => [(F.HDL_WG_STAT_INHIBITS, inhibits s i)]
  | .HDL_LIFE_USED => [(F.HDL_LIFE_USED_VAL, lifeUsed s i)]
  | .HDL_LIFE_PCT => [(F.HDL_LIFE_PCT_PCT, (lifePct s).1), (F.HDL_LIFE_PCT_LIMIT, (lifePct s).2)]
  | .LNE_DFE_CUR => dfeCur (pairOf s (i / 2)).vals i
  | .LNE_EQ_CUR => [(F.LNE_EQ_CUR_TAP, (pairOf s (i / 64)).vals.taps.getD (i % 64) 0)]
  | .LNE_TARGET_CUR => [(F.LNE_TARGET_CUR_G, (pairOf s i).vals.target)]
  | .LNE_TIM_STAT =>
    [(F.LNE_TIM_STAT_NU, narrow 16 (pairOf s i).vals.nu), (F.LNE_TIM_STAT_PHI, ((pairOf s i).vals.phi + 2 ^ 13) / 2 ^ 14 % 64)]
  | .LNE_RUN_STAT => [(F.LNE_RUN_STAT_STATE, (pairOf s i).live.ctorIdx)]
  | .LNE_RETAIN => retainView (pairOf s i)
  | .LNE_REPLAY =>
    [(F.LNE_REPLAY_BUSY, b2n ((pairOf s i).replays.any (fun q => q.who == .firmware))),
     (F.LNE_REPLAY_QDEPTH, (pairOf s i).replays.length)]
  | .LNE_ADC_MODE => [(F.LNE_ADC_MODE_MODE, b2n (redundancy s)), (F.LNE_ADC_MODE_LANES, activeLanes s)]
  | .DCP_Q_STAT => queueView s i
  | .DCP_PINS =>
    [(F.DCP_PINS_PINS, countBelow (fun k => (slotAt (pairOf s i) k).pinPool) 4),
     (F.DCP_PINS_SLOTS, bitSet 4 (fun k => (slotAt (pairOf s i) k).pinPool))]
  | .DCP_DEC_STAT => decoderView s (decOf s i)
  | .WRP_HEAT_STAT => [(F.WRP_HEAT_STAT_MODE, (wrpOf s i).heat.ctorIdx), (F.WRP_HEAT_STAT_HEAD, (wrpOf s i).heatHead)]
  | .EVR_STAT => [(F.EVR_STAT_RING, s.evr.ring.length), (F.EVR_STAT_DIRTY, s.evr.dirty.length)]
  | .CKR_DTIME => [(F.CKR_DTIME_MS, s.ckr.dtime)]
  | .CKR_PCYCLE => [(F.CKR_PCYCLE_N, s.ckr.pcycle)]
  | .CKR_PWR_STAT => [(F.CKR_PWR_STAT_DIRTY_OUT, b2n (dirtyOut s))]
  | .CAL_STAT =>
    [(F.CAL_STAT_QUEUED, s.cal.queue.length), (F.CAL_STAT_RUNNING, s.cal.running.length),
     (F.CAL_STAT_BG, b2n (!s.cal.background.isEmpty))]
  | .CAL_CMD => [(F.CAL_CMD_QUEUED, s.cal.queue.length)]
  | .SYC_EVB_STAT => [(F.SYC_EVB_STAT_ENTRIES, s.syc.evb.length)]
  | .BFM_SCRUB_STAT => [(F.BFM_SCRUB_STAT_CUR, min (lapUs s) (2 ^ 32 - 1))]
  | .FCL_STAT => [(F.FCL_STAT_ERR_N_LOW, b2n (errLow s))]
  | .SPL_FW_STAT => spoolView s i
  | .DMA_CH_STATUS => [(F.DMA_CH_STATUS_FILL, (chanOf s i).reads.length + (chanOf s i).buf.length)]
  | .GLY_QCTX_LO => [(F.GLY_QCTX_LO_VAL, ctxImage (ctxQ s (ctxSel s)))]
  | .GLY_QCTX_HI => [(F.GLY_QCTX_HI_VAL, ctxImage (ctxQ s (ctxSel s)) / 2 ^ 64)]
  | .GLY_SLOT_IMG => [(F.GLY_SLOT_IMG_WORD, (slotImage s i).toNat)]
  | .GLY_SLOT_RD => [(F.GLY_SLOT_RD_STALE, staleView s (fld s F.GLY_SLOT_RD_HANDLE i))]
  | .GLY_STAT => [(F.GLY_STAT_FROZEN, b2n (glyFrozen s))]
  | .GLY_DRAIN =>
    [(F.GLY_DRAIN_ELAPSED, if flag s F.GLY_DRAIN_GO then min ((s.ckr.up - s.gly.drainAt) / 250000) 4095 else 0)]
  | .GLY_CTL => [(F.GLY_CTL_HOST, b2n (isSas s)), (F.GLY_CTL_DUAL, b2n (isDual s))]
  | .HFE_CFG => [(F.HFE_CFG_PERSONA, b2n (isSas s)), (F.HFE_CFG_DUAL, b2n (isDual s))]
  | .HFE_ID => if isSas s then [(F.HFE_ID_ID, 0)] else []
  | .HFE_SAS_ADDR_0 => if isSas s then [] else [(F.HFE_SAS_ADDR_0_ADDR, 0)]
  | .HFE_SAS_ADDR_1 => if isSas s then [] else [(F.HFE_SAS_ADDR_1_ADDR, 0)]
  | .LOOM_DQ_STAT => [(F.LOOM_DQ_STAT_COUNT, (dequeOf s i).length)]
  | .LOOM_INJ_STAT => [(F.LOOM_INJ_STAT_FREE, 256 - s.loom.inject.length)]
  | .LOOM_BAR_STAT => [(F.LOOM_BAR_STAT_ARRIVED, (barrierOf s i).arrived.length)]
  | .SHT_STAT => shuttleView (shtOf s i)
  | .SHT_LS_PORT_DATA =>
    [(F.SHT_LS_PORT_DATA_DATA, (lsWord (shtOf s (fld s F.SHT_LS_PORT_ADDR_SHUTTLE)) (portAddr s)).toNat)]
  | .SVC_IPI_SET => [(F.SVC_IPI_SET_CORES, bitSet 16 (fun c => flag s F.SVC_MSIP_MSIP c))]
  | .SEC_UPD_STAT => [(F.SEC_UPD_STAT_IDLE, updIdle s), (F.SEC_UPD_STAT_PROGRESS, updProgress s)]
  | .SEC_BOOT_STAT => [(F.SEC_BOOT_STAT_TRIAL_S, trialLeft s)]
  | _ => []

/-- The bits of a register whose access code satisfies a test. -/
def accMask (r : Reg) (p : Acc → Bool) : Word :=
  (r.info.flds.filter (fun f => p f.acc)).foldl (fun m f => m ||| fieldMask f.lo f.w) 0#64

/-- What a read of a register returns: write-only and reserved bits read zero (R12). -/
def regView (s : State) (r : Reg) (i : Nat) : Word :=
  withFlds (rd s r i) (liveFlds s r i) &&& accMask r (fun c => c != .wo)

end Sys2Proof.Machine
end

