-- ==== Sys2Proof/Machine/RegRead.lean ====
section
/-!
DEFINITION. A read of a register by an engine (R10, R12): what it returns and what it clears, pops, takes or claims.
-/

namespace Sys2Proof.Machine

/-- The fields of a register that a read clears are cleared (R12). -/
def clearRead (s : State) (r : Reg) (i : Nat) : State :=
  let m := accMask r (fun c => c == .rc)
  if m = 0#64 then s else wr s r i (rd s r i &&& ~~~ m)

/-- A read by engine e of a register of a present unit: the answer is left in `State.bus`. -/
def readReg (s : State) (e : Nat) (r : Reg) (i : Nat) : State :=
  match r with
  | .DCP_CPL => answer (popRecord s i).2 (popRecord s i).1
  | .LOOM_TAKE => loomTake s e i
  | .SPL_FW_POP => corePop s e i false
  | .SEC_NONCE => nonceRead s
  | .FCL_CLAIM => claim s i
  | .SVC_SEM => semRead s e i
  | .SHT_LS_PORT_DATA => lsPortRead s
  | .PWS_VOLT =>
    -- VIN is an analogue level no command brings: a free value
    let f := freshWord s
    answer f.2 (setBits (regView s r i) 16 16 f.1.toNat)
  | _ => clearRead (answer s (regView s r i)) r i

end Sys2Proof.Machine
end

