-- ==== Sys2Proof/Machine/RegWrite.lean ====
section
/-!
DEFINITION. A write of a register by an engine (R12): registers whose write is a command go to that command's meaning;
every other sets, clears or ignores its fields by their access codes, storing the limits its table states, with what
follows from the new value.
-/

namespace Sys2Proof.Machine

/-- The state a command's meaning answers; a meaning that stops leaves it unchanged. -/
def stateOf (r : Result) (s : State) : State :=
  match r with
  | .next t => t
  | _ => s

/-- A field of a value to be written, changed. -/
def modFld (v : Word) (f : Fld) (g : Nat → Nat) : Word := setBits v f.lo f.w (g (getBits v f.lo f.w))

/-- Zero stores one. -/
def atLeast1 (n : Nat) : Nat := max 1 n

/-- The value a write stores where a register's table limits it. -/
def clampValue (r : Reg) (v : Word) : Word :=
  match r with
  | .LNE_SYNC_CTL => modFld v F.LNE_SYNC_CTL_WIN (min 48)
  | .DCP_CTL => modFld v F.DCP_CTL_RCV_MAX (min 12)
  | .DCP_OTF_CTL => modFld (modFld v F.DCP_OTF_CTL_ITER_CAP atLeast1) F.DCP_OTF_CTL_DEADLINE_MULT (clampNat 8 64)
  | .DCP_RCV_CTL => modFld (modFld v F.DCP_RCV_CTL_SHIFT_MAX (min 4)) F.DCP_RCV_CTL_PIN_QUOTA (min 2)
  | .WRP_CTL => modFld (modFld v F.WRP_CTL_WG_LEAD (min 16)) F.WRP_CTL_WG_TRAIL (min 16)
  | .SVG_CTL => modFld v F.SVG_CTL_COAST_MAX atLeast1
  | .SVG_ZONE => modFld v F.SVG_ZONE_WIN_BEATS atLeast1
  | .CTE_OT => modFld (modFld v F.CTE_OT_OT_LIM (min 1024)) F.CTE_OT_OT_CLR atLeast1
  | .CTE_SETTLE => modFld v F.CTE_SETTLE_SETTLE_CNT atLeast1
  | .CTE_RES_CNT => modFld v F.CTE_RES_CNT_CNT atLeast1
  | .SPN_LIM => modFld v F.SPN_LIM_ILIM_PK (min 3000)
  | .SPN_START_CTL => modFld (modFld v F.SPN_START_CTL_ALIGN_I (min 3000)) F.SPN_START_CTL_VALID_N atLeast1
  | .SPN_WIN_CTL => modFld v F.SPN_WIN_CTL_FLOAT_LVL atLeast1
  | .BFM_ECC_CTL => modFld v F.BFM_ECC_CTL_CE_THR atLeast1
  | .SYC_ALLOC_CTL =>
    (List.range 17).foldl (fun w k => if getBits w (2 * k) 2 = 3 then setBits w (2 * k) 2 0 else w) v
  | .FLT_HU_CTL => modFld v F.FLT_HU_CTL_MAX_ACTIVE (clampNat 4 16)
  | .FLT_SLC_CTL => modFld v F.FLT_SLC_CTL_PCT (clampNat 4 16)
  | .FLT_CKPT_CTL => modFld v F.FLT_CKPT_CTL_N atLeast1
  | .SVC_DQ_THR => modFld v F.SVC_DQ_THR_THR atLeast1
  | _ => v

/-- A write that its register's table ignores. -/
def writeIgnored (s : State) (r : Reg) (i : Nat) (v : Word) : Bool :=
  match r with
  | .HFE_ID => isSas s || s.hfe.idLocked
  | .HFE_SAS_ADDR_0 => !isSas s
  | .HFE_SAS_ADDR_1 => !isSas s
  | .DMA_CH_RING => glyOwns s i
  | .SEC_STAGE_BASE => decide (fld s F.SEC_UPD_STAT_STATE ≠ 0)
  | .EVR_LOG_BASE => flag s F.EVR_CTL_EN
  | .SHT_CODE_TOP =>
    let n := getBits v 0 15
    decide (n % 0x400 ≠ 0 ∨ n < 0x400 ∨ 0x7800 < n) ||
      (List.range s.part.shuttles).any (fun k => flag s F.SHT_S_CTL_EN k)
  | .FLT_PE_RATED => decide (getBits v 0 20 = 0)
  | .MGT_TEMP_THR => decide (getBits v 16 9 < getBits v 0 9)
  | _ => false

/-- The stored value after a write by the access codes of Table 0.6. -/
def accWrite (r : Reg) (old v : Word) : Word :=
  let rw := accMask r (fun c => c == .rw)
  let c1 := accMask r (fun c => c == .w1c)
  let s1 := accMask r (fun c => c == .w1s)
  (((old &&& ~~~ rw) ||| (v &&& rw)) &&& ~~~ (v &&& c1)) ||| (v &&& s1)

/-- A register's fields written by their access codes. -/
def plainWrite (s : State) (r : Reg) (i : Nat) (v : Word) : State := wr s r i (accWrite r (rd s r i) (clampValue r v))

/-! ### Registers whose write is more than their fields -/

/-- LNE_RETAIN_a (R107): with PIN or UNPIN a pin is set or released, else SLOT and SEQ are stored. -/
def retainWrite (s : State) (a : Nat) (v : Word) : State :=
  let k := getBits v 0 2
  let seq := getBits v 2 16
  let t := setFlds s a [(F.LNE_RETAIN_SLOT, k), (F.LNE_RETAIN_SEQ, seq)]
  let t := when (bit v 18) (fun u => stateOf (execRetainPin a k seq u) u) t
  when (bit v 19) (fun u => stateOf (execRetainUnpin a k seq u) u) t

/-- LNE_AFE_CTL_n (R89, R99, R102). -/
def afeWrite (s : State) (n : Nat) (v : Word) : State :=
  adcMode s (lneEnable (plainWrite s .LNE_AFE_CTL n v) (n / 2))

/-- CTE_CMD_a (R217): OVERRUN is W1C; a value of CMD with no command is ignored. -/
def cteCmdWrite (s : State) (a : Nat) (v : Word) : State :=
  let t := when (bit v 3) (fun u => setFlag u F.CTE_CMD_OVERRUN a false) s
  match getBits v 0 3 with
  | 1 => stateOf (execLoad a t) t
  | 2 => stateOf (execPark a t) t
  | 3 => stateOf (execResume a t) t
  | _ => t

/-- SPN_CMD (R240, R260): OVERRUN is W1C; a value of CMD with no command is ignored. -/
def spnCmdWrite (s : State) (v : Word) : State :=
  let t := when (bit v 3) (fun u => setFlag u F.SPN_CMD_OVERRUN 0 false) s
  match getBits v 0 3 with
  | 1 => stateOf (execStart t) t
  | 2 => stateOf (execStop t) t
  | 3 => stateOf (execClear t) t
  | _ => t

/-- A CTE register written between law boundaries: the value of the last boundary stays in force until the next (R192). -/
def lateWrite (s : State) (a : Nat) (r : Reg) (i : Nat) (v : Word) : State :=
  let t := plainWrite s r i v
  let c := cteOf t a
  setCte t a { c with late := if c.late.any (fun x => x.1 == regKey r i) then c.late else (regKey r i, rd s r i) :: c.late }

/-- A word of a coefficient set (R190, R191): ignored in the active set of its context, which its ACT_WR records. -/
def coefWrite (s : State) (i : Nat) (v : Word) : State :=
  let n := i / 2048
  let runs := decide (n ≠ 4) || (decide (s.spn.bridge = .drive) && decide (spnState s ∈ [spRun, spUnloadWait]))
  if i / 256 % 8 = (cteOf s n).active ∧ runs = true then
    if n = 4 then setFlag s F.CTE_SPN_CTL_ACT_WR 0 true else setFlag s F.CTE_LAW_CTL_ACT_WR n true
  else plainWrite s .CTE_COEF i v

/-- GLY_CTL (R377): clearing FETCH_STOP clears the drain's GO and DONE. -/
def glyCtlWrite (s : State) (v : Word) : State :=
  let t := plainWrite s .GLY_CTL 0 v
  glySync (if bit v 3 then t else setFlds t 0 [(F.GLY_DRAIN_GO, 0), (F.GLY_DRAIN_DONE, 0)])

/-- The queue context port (R330): an enabled context takes only its enables; INFLIGHT is read only. -/
def qctxWrite (s : State) (hi : Bool) (v : Word) : State :=
  let q := ctxSel s
  let c := ctxQ s q
  let busy := c.sqEn || c.cqEn
  if hi then
    let e : QCtx := { c with sqEn := bit v 16, cqEn := bit v 17 }
    setCtxQ s q (if busy then e
      else { e with
        cqIndex := getBits v 0 16, phase := bit v 18, prio := getBits v 19 2, ien := bit v 21, iv := getBits v 22 11
        fetchErr := bit v 33 })
  else if busy then s
  else setCtxQ s q { c with
    sqTail := getBits v 0 16, sqHead := getBits v 16 16, cqTail := getBits v 32 16, cqHead := getBits v 48 16 }

/-- BFM_UE_LOG (R437): VALID and OVERFLOW clear together. -/
def ueLogWrite (s : State) (v : Word) : State :=
  if bit v 63 then setFlds s 0 [(F.BFM_UE_LOG_VALID, 0), (F.BFM_UE_LOG_OVERFLOW, 0)] else s

/-- FCL_SRC_CFG_n (R548, R558): PAR is the parity of bits 30 to 0. -/
def srcCfgWrite (s : State) (n : Nat) (v : Word) : State :=
  let t := plainWrite s .FCL_SRC_CFG n v
  setFlag t F.FCL_SRC_CFG_PAR n (decide ((countBelow (fun k => bit (rd t .FCL_SRC_CFG n) k) 31) % 2 = 1))

/-- EVR_CTL and what is W1C beside it. -/
def evrCtlWrite (s : State) (v : Word) : State := stateOf (execEvrEnable v s) s

/-- Words of the model's free values. -/
def freeList (s : State) (n : Nat) : List Nat := (List.range n).map (fun k => (Config.freeWord (s.free + k)).toNat)

/-- A patch blob the spec gives no layout (R582): every part of it is free. -/
def freeBlob (s : State) : PatchBlob :=
  let l := freeList s 2136
  let at_ (k : Nat) : Nat := l.getD k 0
  { romId := at_ 0 % 2 ^ 16
    version := at_ 1 % 2 ^ 16
    hash := (List.range 6).foldl (fun n w => n + at_ (2 + w) * 2 ^ (64 * w)) 0
    matches_ := (List.range (at_ 8 % 33)).map (fun k => (at_ (12 + 2 * k), at_ (13 + 2 * k)))
    micro := (List.range (at_ 9 % 1025)).map (fun k => at_ (76 + k))
    nano := (List.range (at_ 10 % 513)).map (fun k => at_ (1100 + 2 * k) + at_ (1101 + 2 * k) * 2 ^ 64) }

/-- SEC_PATCH_CMD written outside the row PATCH_LOAD: SEC's findings are free (R317, R582). -/
def patchCmdWrite (s : State) (v : Word) : State :=
  if bit v 0 then
    let blob := freeBlob s
    let ok := Config.freeBit s.free
    let tag := Config.freeBit (s.free + 1)
    let t := { s with free := s.free + 2136 }
    stateOf (execPatchLoad v ok tag blob t) t
  else s

/-- The registers whose write goes to the meaning of a command. -/
def commandWrite (s : State) (e : Nat) (r : Reg) (i : Nat) (v : Word) : Option State :=
  match r with
  | .HDL_HEADMAP_LOCK => some (stateOf (execHeadmapLock v s) s)
  | .HDL_HEADMAP => some (headMapWrite s i v)
  | .HDL_PSP_CMD => some (stateOf (execPspFrameLaunch i v s) s)
  | .HDL_HSEL => some (stateOf (execHeadSwitchRequest i (getBits v 0 5) s) s)
  | .HDL_TAG_REPAIR => some (stateOf (execTagRepair v s) s)
  | .HDL_LIFE_COMMIT => some (stateOf (execLifeCommit v s) s)
  | .LNE_AFE_CTL => some (afeWrite s i v)
  | .LNE_RATE => some (stateOf (execLaneRateWrite i (getBits v 0 16) s) s)
  | .LNE_RETAIN => some (retainWrite s i v)
  | .LNE_REPLAY => some (stateOf (execReplayRequest i v s) s)
  | .DCP_SUBMIT => some (stateOf (execDcpSubmit i v s) s)
  | .CTE_EXT_CTL => some (stateOf (execExtEnable v s) s)
  | .CTE_CMD => some (cteCmdWrite s i v)
  | .CTE_SEEK => some (stateOf (execCteSeek i v s) s)
  | .CTE_COEF => some (coefWrite s i v)
  | .CTE_LAW_CTL => some (lateWrite s i r i v)
  | .CTE_OT => some (lateWrite s i r i v)
  | .CTE_LOAD => some (lateWrite s i r i v)
  | .CTE_RES_LIM => some (lateWrite s i r i v)
  | .CTE_RES_CNT => some (lateWrite s i r i v)
  | .CTE_VEL => some (lateWrite s (i / 256) r i v)
  | .SVG_ZONE => some (zoneChanged s (plainWrite s r i v))
  | .SPN_CMD => some (spnCmdWrite s v)
  | .SPN_SPEED => some (stateOf (execSetSpeedWrite v s) s)
  | .SPN_SYNC_CTL => some (spnSyncWrite s v)
  | .PWS_CLAMP => some (pwsClampWrite s v)
  | .PWS_FAULT => some (stateOf (execPwsFaultClear v s) s)
  | .PWS_UACT_CTL => some (pwsUactWrite s v)
  | .SHT_LOAD => some (shtLoadWrite s v)
  | .SHT_LS_PORT_DATA => some (lsPortWrite s v)
  | .SHT_S_CTL => some (shCtlWrite s i v)
  | .LOOM_INJECT => some (loomInject s v)
  | .LOOM_PUSH => some (loomPush s i v)
  | .LOOM_BAR_CFG => some (barCfgWrite s i v)
  | .LOOM_BAR_ARRIVE => some (coreArrive s e i v)
  | .GLY_CTL => some (glyCtlWrite s v)
  | .GLY_BUDGET => some (stateOf (execBudgetWrite v s) s)
  | .GLY_DRAIN => some (if bit v 0 then stateOf (execDrain s) s else s)
  | .GLY_ASN_FLOOR => some (stateOf (execAsnFloor v s) s)
  | .GLY_QCTX_LO => some (qctxWrite s false v)
  | .GLY_QCTX_HI => some (qctxWrite s true v)
  | .GLY_SLOT_CMD => some (slotCmdWrite s i v)
  | .GLY_WB_CMD => some (wbCmdWrite s i v)
  | .HFE_RESET_STAT => some (stateOf (execResetDoneReport v s) s)
  | .BFM_UE_LOG => some (ueLogWrite s v)
  | .SYC_CTL => some (stateOf (execCacheEnableWrite v s) s)
  | .SYC_SCRATCH => some (stateOf (execScratchConvert v s) s)
  | .SYC_RANGE_CMD => some (rangeCmdWrite v s)
  | .DMA_CH_CFG => some (dmaCfgWrite s i v)
  | .DMA_CH_TAIL => some (stateOf (execDescriptorQueue i v s) s)
  | .DMA_CH_CTL => some (dmaCtlWrite s i v)
  | .SPL_FW_CFG => some (spoolCfgWrite s i v)
  | .SPL_FW_PUSH => some (corePush s e i v false)
  | .SPL_FW_PUSH_LAST => some (corePush s e i v true)
  | .SPL_FW_DROP => some (coreDrop s e i v)
  | .FLT_CTL => some (fltCtlWrite s v)
  | .SVC_IPI_SET => some (ipiSet s v)
  | .SVC_CORE_CTL => some (coreCtlWrite s i v)
  | .SVC_SEM => some (semWrite s e i v)
  | .FCL_CTL => some (safeEnterWrite s e v)
  | .FCL_SW_SET => some (swSet s v)
  | .FCL_SW_RAISE => some (swRaise s e v)
  | .FCL_PEND => some (pendClear s i v)
  | .FCL_SRC_CFG => some (srcCfgWrite s i v)
  | .EVR_CTL => some (evrCtlWrite s v)
  | .EVR_FW_CMD => some (stateOf (execEvrFwRecord i v s) s)
  | .EVR_RATE => some (stateOf (execEvrRateWrite i v s) s)
  | .SEC_LC_REQ => some (lcReqWrite s v)
  | .SEC_OTP_CMD => some (otpCmdWrite s v)
  | .SEC_BOOT_CTL => some (bootCtlWrite s v)
  | .SEC_UPD_CMD => some (updCmdWrite s v)
  | .SEC_PATCH_CMD => some (patchCmdWrite s v)
  | .SEC_KEY_CMD => some (keyCmdWrite s v)
  | .SEC_SIGN_CMD => some (signCmdWrite s v)
  | .SEC_RANGE => some (rangeWrite s i v)
  | .SEC_RANGE_LEN => some (rangeLenWrite s i v)
  | .SEC_CRED => some { s with sec := { s.sec with cred := tset (dflt 0#64) s.sec.cred i v } }
  | .SEC_SIGN_DIG => some { s with sec := { s.sec with digest := tset (dflt 0#64) s.sec.digest i v } }
  | .CKR_FWREADY => some (fwReadyWrite s v)
  | .CKR_RST => some (if bit v 0 then chipReset s else s)
  | .CKR_BRST => some (brstSet s v)
  | .CKR_SHUTDOWN => some (if bit v 0 then shutdown s else s)
  | .CAL_CMD => some (calCmdWrite s v)
  | _ => none

/-- What follows a plain write. -/
def afterWrite (s : State) (r : Reg) : State :=
  match r with
  | .SVC_MTIME => timerFall s
  | .SVC_MTIMECMP => timerFall s
  | .FLT_PE_RATED => if fltState s = .off ∨ fltState s = .init then s else fltReport s
  | .FLT_HU_CTL => flushRate s
  | .SEC_CERT_BASE => writeCert s
  | .CKR_DIRTY_TIER => glySync s
  | .GLY_WBUF_BASE => glySync s
  | _ => s

/-- A write by engine e of a register of a present unit. -/
def writeReg (s : State) (e : Nat) (r : Reg) (i : Nat) (v : Word) : State :=
  match commandWrite s e r i v with
  | some t => t
  | none => if writeIgnored s r i v then s else afterWrite (plainWrite s r i v) r

end Sys2Proof.Machine
end

