-- ==== Sys2Proof/Machine/RegAccess.lean ====
section
/-!
DEFINITION. Accesses to the control space by address (R3, R9 to R11, R19), and accesses of an engine to any address.
-/

namespace Sys2Proof.Machine

/-- A bus error as an access's answer. -/
def busError (s : State) : State := { s with bus := { value := 0#64, err := true } }

/-- No answer yet: what an access that returns nothing reads as. -/
def busClear (s : State) : State := { s with bus := {} }

/-- The width and alignment of a control-space access (R10). -/
def accessOk (addr bytes : Nat) : Bool := (bytes == 4 || bytes == 8) && addr % bytes == 0

/-- FK_BUS_DECODE from a present block (R11). -/
def blockDecode (s : State) (b : Block) (addr : Nat) : State := sendFault (busError s) b b.faultSource FK.busDecode 4 addr

/-- Where a control-space access lands. -/
inductive Target where
  /-- outside every window -/
  | nowhere
  /-- a window of an absent unit, or a register of an absent instance -/
  | absent
  /-- an undefined offset of a present block -/
  | undefined (b : Block)
  /-- a register and instance, with whether the access takes its upper half -/
  | reg (r : Reg) (i : Nat) (upper : Bool)
  /-- a whole 64-bit access to a 32-bit register -/
  | tooWide
deriving DecidableEq, Repr

/-- The target of a control-space address (R3, R10, R11). An 8-byte access to a 32-bit register of an absent instance is
a bus error: R10 refuses the width and R3 lets absent registers raise none; that R10 goes first is the model's choice
(DESIGN CHOICE, log 217). -/
def targetOf (s : State) (addr bytes : Nat) : Target :=
  match blockAt addr with
  | none => .nowhere
  | some b =>
    if blockAbsent s b then .absent
    else match regAt addr with
      | none => .undefined b
      | some (r, i, off) =>
        if bytes = 8 ∧ r.info.wide = false then .tooWide
        else if !r.info.unit.present s.part i then .absent
        else .reg r i (decide (off = 4))

/-- A control-space read by engine e. -/
def ctlRead (s : State) (e addr bytes : Nat) : State :=
  match targetOf s addr bytes with
  | .nowhere => busDecode (busError s) addr
  | .absent => answer s 0#64
  | .undefined b => blockDecode s b addr
  | .tooWide => busError s
  | .reg r i upper =>
    if bytes = 8 ∨ r.info.wide = false then readReg (busClear s) e r i
    else if r.popRead then blockDecode s r.info.block addr
    else
      let t := readReg (busClear s) e r i
      answer t (BitVec.ofNat 64 (getBits t.bus.value (if upper then 32 else 0) 32))

/-- The whole value a write of one half stands for (R10): the other half as its RW fields, or the words of SEC_CRED and
SEC_SIGN_DIG, stand, and zero elsewhere. -/
def halfValue (s : State) (r : Reg) (i : Nat) (upper : Bool) (v : Word) : Word :=
  let old := match r with
    | .SEC_CRED => tget (dflt 0#64) s.sec.cred i
    | .SEC_SIGN_DIG => tget (dflt 0#64) s.sec.digest i
    | _ => regView s r i &&& accMask r (fun c => c == .rw)
  if upper then setBits old 32 32 v.toNat else setBits old 0 32 v.toNat

/-- A control-space write by engine e. -/
def ctlWrite (s : State) (e addr bytes : Nat) (v : Word) : State :=
  match targetOf s addr bytes with
  | .nowhere => busDecode (busError s) addr
  | .absent => busClear s
  | .undefined b => blockDecode s b addr
  | .tooWide => busError s
  | .reg r i upper =>
    if r.info.wide then busClear (writeReg s e r i (if bytes = 8 then v else halfValue s r i upper v))
    else busClear (writeReg s e r i (BitVec.ofNat 64 (getBits v 0 32)))

/-- An access falls in the control space (R19). -/
def inControl (addr : Nat) : Bool := decide (0xF0000000 ≤ addr ∧ addr < 0x100000000)

/-- The fabric requester of an engine index, or of a Bobbin engine beyond them (Table 1.3). -/
def enginePort (e : Nat) : Port := if e < 16 then port (e / 4) true else if e < 40 then portSht else port 4 true

/-- An access reaches nothing that decodes it (R11, R19, R9). -/
def undecoded (s : State) (addr bytes : Nat) (write : Bool) : Bool :=
  if 2 ^ 40 ≤ addr then true
  else if inControl addr then
    (match targetOf s addr bytes with
     | .nowhere => true
     | .undefined _ => true
     | _ => false)
  else match regionOf s addr with
    | .hole => decide (addr < dramBase ∨ dramBase + dramBytes s ≤ addr)
    | .rom => write
    | .nor => write
    | _ => false

/-- An access of a width or alignment R10 refuses: a bus error, with FK_BUS_DECODE where nothing decodes it (R11, R19). -/
def refuseWidth (s : State) (addr bytes : Nat) (write : Bool) : State :=
  if undecoded s addr bytes write then
    match blockAt addr with
    | some b => if inControl addr then blockDecode s b addr else busDecode (busError s) addr
    | none => busDecode (busError s) addr
  else busError s

/-- A read of 4 or 8 bytes by an engine at any address. -/
def busLoad (s : State) (e addr bytes : Nat) : State :=
  if !accessOk addr bytes then refuseWidth s addr bytes false
  else if 2 ^ 40 ≤ addr then busDecode (busError s) addr
  else if inControl addr then ctlRead s e addr bytes
  else match busRead s (enginePort e) addr bytes with
    | (some l, t) => answer t (BitVec.ofNat 64 (leNat l))
    | (none, t) => busError t

/-- A write of 4 or 8 bytes by an engine at any address. -/
def busStore (s : State) (e addr bytes : Nat) (v : Word) : State :=
  if !accessOk addr bytes then refuseWidth s addr bytes true
  else if 2 ^ 40 ≤ addr then busDecode (busError s) addr
  else if inControl addr then ctlWrite s e addr bytes v
  else match busWrite s (enginePort e) addr ((wordBytes v).take bytes) with
    | (true, t) => busClear t
    | (false, t) => busError t

/-- A write of a control-space register (R12). -/
def execRegisterWrite (e addr bytes : Nat) (value : Word) (s : State) : Result :=
  .next (if inControl addr then busStore s e addr bytes value else s)

/-- An access that reaches nothing (R11): a bus error and FK_BUS_DECODE. -/
def execUndecodedAccess (e addr bytes : Nat) (write : Bool) (s : State) : Result :=
  if undecoded s addr bytes write then
    .next (if write then busStore s e addr bytes 0#64 else busLoad s e addr bytes)
  else .next s

end Sys2Proof.Machine
end

