-- ==== Sys2Proof/Machine/Bobbin.lean ====
section
/-!
DEFINITION. The grant of a Bobbin beat (R446 to R448).
-/

namespace Sys2Proof.Machine

/-- A beat's bytes read from device space: of the control space only a register's access is one (R10). -/
def beatRead (s : State) (n : Nat) (d : DmaDesc) (addr len : Nat) : Option (List Byte) × State :=
  if inControl addr then
    if accessOk addr len then
      let t := ctlRead s 40 addr len
      (if t.bus.err then none else some ((wordBytes t.bus.value).take len), t)
    else (none, refuseWidth s addr len false)
  else busRead s (chPort n d.coh) addr len

/-- A beat's bytes written to device space; false for a bus error. -/
def beatWrite (s : State) (n : Nat) (d : DmaDesc) (addr : Nat) (data : List Byte) : Bool × State :=
  if inControl addr then
    if accessOk addr data.length then
      let t := ctlWrite s 40 addr data.length (BitVec.ofNat 64 (leNat data))
      (!t.bus.err, t)
    else (false, refuseWidth s addr data.length true)
  else busWrite s (chPort n d.coh) addr data

/-! ### The DRAM port's line buffers (R412) -/

/-- A beat's read goes to the DRAM port: its line is in no L2 that serves it and not in the system cache. -/
def readMisses (s : State) (n : Nat) (d : DmaDesc) (addr : Nat) : Bool :=
  !d.srcHost && decide (regionOf s addr = .dram) && flag s F.BFM_DRAM_STAT_READY &&
    !(List.range 4).any (fun c => d.coh && l2Live s c && (l2Line s c (addr / 64)).isSome) &&
    (!flag s F.SYC_CTL_EN || (sycFind s (addr / 64)).isNone) && decide (n < 64)

/-- A beat's write passes to the DRAM port: the cache does not take it (R422, R423). -/
def writePasses (s : State) (n : Nat) (d : DmaDesc) (addr len : Nat) : Bool :=
  let r := chPort n d.coh
  !d.dstHost && decide (regionOf s addr = .dram) && flag s F.BFM_DRAM_STAT_READY &&
    (!flag s F.SYC_CTL_EN || ((sycFind s (addr / 64)).isNone &&
      (decide (policy s r.idx = 2 ∨ policy s r.idx = 3) || (stream s r (addr / 64) (decide (len = 64))).1 ||
        (victim s (setOf (addr / 64))).isNone)))

/-- The read line buffers in use: of the reads that are still to be answered. -/
def readsHeld (s : State) : List (Nat × Nat) := s.bfm.readBufs.filter (fun x => (chanOf s x.1).reads.any (fun y => y.1 == x.2))

/-- The write line buffers in use: of the writes that are still to be answered. -/
def writesHeld (s : State) : List (Nat × Nat) :=
  s.bfm.writeBufs.filter (fun x => (chanOf s x.1).writes.any (fun y => y.2.1 == x.2) ||
    (chanOf s x.1).tails.any (fun t => t.writes.any (fun y => y.1 == x.2)))

/-- A read beat takes a line buffer until its response, if it goes to the DRAM port. -/
def holdRead (s : State) (n k : Nat) (miss : Bool) : State :=
  { s with bfm := { s.bfm with
    readBufs := (readsHeld s).filter (fun x => decide (x ≠ (n, k))) ++ (if miss then [(n, k)] else []) } }

/-- A write beat takes a line buffer until its response, if it passes to the DRAM port. -/
def holdWrite (s : State) (n addr : Nat) (pass : Bool) : State :=
  { s with bfm := { s.bfm with
    writeBufs := (writesHeld s).filter (fun x => decide (x ≠ (n, addr))) ++ (if pass then [(n, addr)] else []) } }

/-- A channel can write: its buffer holds the next beat (R446), and the DRAM port grants it (R412). -/
def canWrite (s : State) (n : Nat) : Bool :=
  let c := chanOf s n
  (chState s n == chActive || chState s n == chPausing) &&
    match c.desc, c.buf with
    | some d, (k, data) :: _ =>
      !writePasses s n d (d.dst + (beatRange d k).1) data.length || decide ((writesHeld s).length < 32)
    | _, _ => false

/-- A channel can read: unread bytes, room beyond its outstanding reads, and PAUSE = 0 (R446, R448), and the DRAM port grants
it (R412). -/
def canRead (s : State) (n : Nat) : Bool :=
  let c := chanOf s n
  match c.desc with
  | some d => chState s n == chActive && !flag s F.DMA_CH_CTL_PAUSE n && c.fail.isNone && c.stop.isNone &&
      decide (c.nextRead < beats d ∧ c.reads.length + c.buf.length < 32) &&
      (!readMisses s n d (d.src + (beatRange d c.nextRead).1) || decide ((readsHeld s).length < 64))
  | none => false

/-- A read beat granted: device space is read as granted; host space answers later. -/
def grantRead (s : State) (n : Nat) : State :=
  let c := chanOf s n
  match c.desc with
  | none => s
  | some d =>
    let k := c.nextRead
    let (off, len) := beatRange d k
    let r : Option (List Byte) × State := if d.srcHost then (none, s) else beatRead s n d (d.src + off) len
    if (chanOf r.2 n).desc.isNone then r.2
    else
      let t := holdRead r.2 n k (readMisses s n d (d.src + off))
      setChan t n { chanOf t n with nextRead := k + 1, reads := (chanOf t n).reads ++ [(k, r.1)] }

/-- A write beat granted (R452, R454): the oldest beat held leaves the buffer; HFE decrypts user data for the host (R583). -/
def grantWrite (s : State) (n : Nat) : State :=
  let c := chanOf s n
  match c.desc, c.buf with
  | some d, (k, data) :: rest =>
    let addr := d.dst + (beatRange d k).1
    let r : Bool × State := if d.dstHost then (true, toHost s (.beat d.fn addr (cipherBeat s false d.slot addr data)))
      else beatWrite s n d addr data
    if (chanOf r.2 n).desc.isNone then r.2
    else
      let t := holdWrite r.2 n addr (writePasses s n d addr data.length)
      let t := setChan t n { chanOf t n with
        nextWrite := k + 1, buf := rest, writes := (chanOf t n).writes ++ [(k, addr, r.1)] }
      chSettle (pointAt t n d (k + 1)) n
  | _, _ => s

/-- The channel an engine's class grants next, and whether it writes (R25, R446). -/
def classGrant (s : State) (e cls : Nat) : Option (Nat × Bool) :=
  let ptr := tget (dflt 0) s.dmaPtr (4 * e + cls)
  let mine (k : Nat) : Bool := decide (fld s F.DMA_CH_CFG_PRIO (16 * e + k) = cls)
  match grant 16 ptr (fun k => mine k && canWrite s (16 * e + k)) with
  | some k => some (k, true)
  | none => (grant 16 ptr (fun k => mine k && canRead s (16 * e + k))).map (fun k => (k, false))

/-- Engine e grants one beat (R446): the highest class that can issue, a write before a read. -/
def execBeatGrant (e : Nat) (s : State) : Result :=
  if 4 ≤ e then .next s
  else match [3, 2, 1, 0].findSome? (fun cls => (classGrant s e cls).map (fun g => (cls, g))) with
    | none => .next s
    | some (cls, k, write) =>
      let t := { s with dmaPtr := tset (dflt 0) s.dmaPtr (4 * e + cls) (grantNext 16 k) }
      .next (if write then grantWrite t (16 * e + k) else grantRead t (16 * e + k))

end Sys2Proof.Machine
end

