-- ==== Sys2Proof/Machine/Operands.lean ====
section
/-!
DEFINITION. Coava instruction words and their operands (R275 to R277), what a Shuttle's fetch finds, and local-store
operand addresses (R270, R278, Table 8.1).
-/

namespace Sys2Proof.Machine

/-- An instruction word by field (Table 8.3). -/
structure Ins where
  op : Nat
  rd : Nat
  rs : Nat
  imm : Nat
deriving DecidableEq, Repr

/-- The fields of an instruction word. -/
def insOf (w : Word) : Ins := { op := getBits w 24 8, rd := getBits w 20 4, rs := getBits w 16 4, imm := getBits w 0 16 }

/-- The instruction word at a local-store address. -/
def insAt (h : Shuttle) (pc : Nat) : Ins := insOf (BitVec.ofNat 64 (leNat (lsBytes h pc 4)))

/-- A fetch succeeds: the PC is a multiple of 4 within the code region (R275). -/
def fetchOk (s : State) (pc : Nat) : Bool := decide (pc % 4 = 0 ∧ pc < codeTop s)

/-- Shuttle k runs. -/
def shRunning (s : State) (k : Nat) : Bool := shPresent s k && (shtOf s k).st == .run

/-! ### Microwords and nanowords (R312 to R316) -/

/-- A microword by field (R314). -/
structure MicroWord where
  seq : Nat
  arg : Nat
  nano : Nat
deriving DecidableEq, Repr

/-- The fields of a microword. -/
def microOf (w : BitVec 20) : MicroWord :=
  { seq := w.toNat / 2 ^ 18, arg := w.toNat / 2 ^ 12 % 64, nano := w.toNat % 2 ^ 12 }

/-- Where a microword is fetched: in the ROM, with or without the match comparison, or in the patch RAM. -/
inductive MicroAt where
  | rom (addr : Nat) (bypass : Bool)
  | patch (addr : Nat)
deriving DecidableEq, Repr

/-- The match comparison before a ROM fetch (R316): the lowest enabled register that matches gives the patch address. -/
def microFetch (s : State) : MicroAt → MicroAt
  | .patch a => .patch a
  | .rom a true => .rom a true
  | .rom a false =>
    match (List.range 32).find? (fun j => flag s F.SHT_MATCH_EN j && decide (fld s F.SHT_MATCH_MATCH_ADDR j = a)) with
    | some j => .patch (fld s F.SHT_MATCH_PATCH_ADDR j)
    | none => .rom a false

/-- The microword at a place. -/
def microAt (s : State) : MicroAt → MicroWord
  | .rom a _ => microOf (Config.microRom a)
  | .patch a => microOf (tget (dflt 0#20) s.patch.micro a)

/-- The nanoword a microword selects (R315): the ROM's, and from the patch RAM with NANO from 0xE00 the patch's. -/
def nanoAt (s : State) (at_ : MicroAt) (m : MicroWord) : BitVec 144 :=
  match at_ with
  | .rom _ _ => Config.nanoRom m.nano
  | .patch _ => if m.nano < 0xE00 then Config.nanoRom m.nano else tget (dflt 0#144) s.patch.nano (m.nano - 0xE00)

/-- The place one microword on, in the same store. -/
def microNext : MicroAt → MicroAt
  | .rom a _ => .rom ((a + 1) % 2 ^ 14) false
  | .patch a => .patch ((a + 1) % 2 ^ 10)

/-- The next microword of opcode op's instruction (R314): NEXT, END, BRANCH within the ROM block or patch page where the
condition holds, and ROM, which from the patch RAM bypasses the match registers. -/
def microGo (op : Nat) (cond : Bool) (m : MicroWord) (at_ : MicroAt) : Option MicroAt :=
  match m.seq, at_ with
  | 0, x => some (microNext x)
  | 1, _ => none
  | 2, .rom a b => some (if cond then .rom (a / 64 * 64 + m.arg) false else microNext (.rom a b))
  | 2, .patch a => some (if cond then .patch (a / 64 * 64 + m.arg) else microNext (.patch a))
  | _, .rom _ _ => some (.rom (op * 64 + m.arg) false)
  | _, .patch _ => some (.rom (op * 64 + m.arg) true)

/-- The places an instruction's microwords are fetched from, with their nanowords, from a place on (R314 to R316): at most so
many of them. -/
def microSeq (s : State) (op : Nat) : Nat → MicroAt → List (MicroAt × BitVec 144)
  | 0, _ => []
  | n + 1, x =>
    let x := microFetch s x
    let m := microAt s x
    let w := nanoAt s x m
    (x, w) :: (match microGo op (Config.microCond w s.free n) m x with
      | some y => microSeq s op n y
      | none => [])

/-- A place in the patch RAM. -/
def MicroAt.inPatch : MicroAt → Bool
  | .patch _ => true
  | .rom _ _ => false

/-- An instruction's sequence, from ROM microword OP × 64, meets the patch RAM (R313, R316). -/
def patched (s : State) (op : Nat) : Bool :=
  (List.range 32).any (fun j => flag s F.SHT_MATCH_EN j) &&
    (microSeq s op (2 ^ 14) (.rom (op * 64) false)).any (fun e => e.1.inPatch)

/-- The instruction a running Shuttle fetches. -/
def fetched (s : State) (k : Nat) : Option Ins :=
  if shRunning s k && fetchOk s (shtOf s k).pc then some (insAt (shtOf s k) (shtOf s k).pc) else none

/-- An instruction's effect, when Shuttle k fetches it with these operands (R277: only the fields the operation uses are
compared); otherwise the command does not occur. -/
def onInstr (s : State) (k op : Nat) (used : Ins → Bool) (f : Ins → State) : Result :=
  match fetched s k with
  | some i =>
    if i.op ≠ op ∨ used i = false then .next s
    else if patched s op then .refused .patchedInstruction
    else .next (f i)
  | none => .next s

/-- The sign extension of IMM to 64 bits. -/
def sextImm (imm : Nat) : Word := BitVec.ofInt 64 (signed 16 imm)

/-- The zero extension of IMM to 64 bits. -/
def zextImm (imm : Nat) : Word := BitVec.ofNat 64 (imm % 65536)

/-- A branch target: PC + 4 + 4 × sext(IMM), modulo 2^64. -/
def branchTarget (pc imm : Nat) : Nat := (BitVec.ofInt 64 ((pc : Int) + 4 + 4 * signed 16 imm)).toNat

/-- The operand address RS + sext(IMM). -/
def operandAddr (h : Shuttle) (rs imm : Nat) : Nat := (wGet h rs + sextImm imm).toNat

/-- A program may read n bytes at a local-store address (Table 8.1). -/
def lsReadOk (addr n : Nat) : Bool := decide (addr % n = 0 ∧ addr + n ≤ frameBase)

/-- A program may write n bytes at a local-store address (Table 8.1). -/
def lsWriteOk (s : State) (addr n : Nat) : Bool := decide (addr % n = 0 ∧ codeTop s ≤ addr ∧ addr + n ≤ frameBase)

/-- The event a WAIT or YIELD names (R298). -/
def eventOf (h : Shuttle) (i : Ins) : Event :=
  let sel := Nat.testBit i.imm 11
  { kind := i.imm / 2 ^ 12 % 16
    sel := if sel then getBits (wGet h i.rs) 0 11 else i.imm % 2048
    timeout := if sel then 0 else getBits (wGet h i.rs) 0 32 }

/-- A trap of the running instruction. -/
def trapHere (s : State) (k cause addr : Nat) : State :=
  trap s k cause (addr % 2 ^ 15) (insAt (shtOf s k) (shtOf s k).pc).op

/-- The running Shuttle changed, unless the instruction's own access has stopped it. -/
def finish (s : State) (k : Nat) (f : Shuttle → Shuttle) : State :=
  if (shtOf s k).st = .run then modSht s k f else s

end Sys2Proof.Machine
end

