-- ==== Sys2Proof/Machine/Flags.lean ====
section
/-!
DEFINITION. The statuses a Coava instruction leaves in LS (R273, Table 8.6) and the conditions a branch tests on it
(Table 8.4).
-/

namespace Sys2Proof.Machine

/-! Status codes of Table 8.6. -/
namespace LsCode
/-- OK. -/
abbrev ok : Nat := 0x00
/-- EOP. -/
abbrev eop : Nat := 0x01
/-- HDA_BLOCKED (R285). -/
abbrev hdaBlocked : Nat := 0x5A
/-- DESC_INVALID. -/
abbrev descInvalid : Nat := 0x80
/-- NOT_ON_TRACK. -/
abbrev notOnTrack : Nat := 0x81
/-- HEAD_MISMATCH. -/
abbrev headMismatch : Nat := 0x82
/-- POWER_LOSS. -/
abbrev powerLoss : Nat := 0x84
/-- BUS_ERR. -/
abbrev busErr : Nat := 0x85
/-- SPOOL_FULL. -/
abbrev spoolFull : Nat := 0x86
/-- UNDERRUN. -/
abbrev underrun : Nat := 0x87
/-- POISON. -/
abbrev poison : Nat := 0x88
/-- STALE_SLOT. -/
abbrev staleSlot : Nat := 0x89
/-- DEQUE_FULL. -/
abbrev dequeFull : Nat := 0x8C
/-- YIELD_FULL. -/
abbrev yieldFull : Nat := 0x8D
/-- TAG_INVALID. -/
abbrev tagInvalid : Nat := 0x90
/-- NOT_MEMBER. -/
abbrev notMember : Nat := 0x92
/-- UNIT_ABSENT (R4). -/
abbrev unitAbsent : Nat := 0xFF
end LsCode

/-! Trap causes of Table 8.9. -/
namespace Cause
/-- ILLEGAL_OP. -/
abbrev illegalOp : Nat := 1
/-- FETCH_RANGE. -/
abbrev fetchRange : Nat := 2
/-- LS_RANGE. -/
abbrev lsRange : Nat := 3
/-- DESC_ADDR. -/
abbrev descAddr : Nat := 4
/-- LS_ECC. -/
abbrev lsEcc : Nat := 6
/-- MICRO_ECC. -/
abbrev microEcc : Nat := 7
end Cause

/-- The condition of BLS (Table 8.4); none: the condition value has no meaning. -/
def lsCond (cond ls : Nat) : Option Bool :=
  match cond with
  | 0 => some (decide (ls ≠ 0))
  | 1 => some (decide (ls = 0))
  | 2 => some (decide (0x10 ≤ ls))
  | 3 => some (decide (ls = 1))
  | _ => none

/-- LS after a POP (R292): POISON before EOP. -/
def popStatus (last poison underrun : Bool) : Nat :=
  if underrun then LsCode.underrun else if poison then LsCode.poison else if last then LsCode.eop else LsCode.ok

/-- LS after a fabric access (R279). -/
def busStatus (err : Bool) : Nat := if err then LsCode.busErr else LsCode.ok

end Sys2Proof.Machine
end

