-- ==== Sys2Proof/Machine/Coava.lean ====
section
/-!
DEFINITION. The Coava instructions of Table 8.4 but the media operations: control flow, arithmetic, local store, fabric,
Spool, slot, waiting and LOOM instructions (R276 to R281, R290 to R299, R304 to R308), and traps at fetch (R310).
-/

namespace Sys2Proof.Machine

/-! ### Control flow -/

/-- The running Shuttle goes to a PC. -/
def jump (s : State) (k pc : Nat) : State := modSht s k (fun h => { h with pc := pc })

/-- A branch taken or not. -/
def branchIf (s : State) (k imm : Nat) (c : Bool) : State :=
  let h := shtOf s k
  if c then jump s k (branchTarget h.pc imm) else modSht s k retire

/-- A branch on two registers. -/
def branch2 (op k rd rs imm : Nat) (c : Word → Word → Bool) (s : State) : Result :=
  onInstr s k op (fun i => decide (i.rd = rd ∧ i.rs = rs ∧ i.imm = imm))
    (fun _ => branchIf s k imm (c (wGet (shtOf s k) rd) (wGet (shtOf s k) rs)))

/-- NOP. -/
def execNop (k : Nat) (s : State) : Result := onInstr s k 0x00 (fun _ => true) (fun _ => modSht s k retire)

/-- HALT's effect (R307). -/
def haltBody (s : State) (k : Nat) : State :=
  modSht s k (fun h => if ownsTags h .running then { h with st := .stall } else { h with st := .idle, task := 0#64 })

/-- HALT (R307). -/
def execHalt (k : Nat) (s : State) : Result := onInstr s k 0x01 (fun _ => true) (fun _ => haltBody s k)

/-- B. -/
def execB (k imm : Nat) (s : State) : Result :=
  onInstr s k 0x02 (fun i => decide (i.imm = imm)) (fun _ => branchIf s k imm true)

/-- BZ. -/
def execBz (k rs imm : Nat) (s : State) : Result :=
  onInstr s k 0x03 (fun i => decide (i.rs = rs ∧ i.imm = imm))
    (fun _ => branchIf s k imm (decide (wGet (shtOf s k) rs = 0#64)))

/-- BNZ. -/
def execBnz (k rs imm : Nat) (s : State) : Result :=
  onInstr s k 0x04 (fun i => decide (i.rs = rs ∧ i.imm = imm))
    (fun _ => branchIf s k imm (decide (wGet (shtOf s k) rs ≠ 0#64)))

/-- BEQ. -/
def execBeq (k rd rs imm : Nat) (s : State) : Result := branch2 0x05 k rd rs imm (fun a b => decide (a = b)) s

/-- BNE. -/
def execBne (k rd rs imm : Nat) (s : State) : Result := branch2 0x06 k rd rs imm (fun a b => decide (a ≠ b)) s

/-- BLT, signed. -/
def execBlt (k rd rs imm : Nat) (s : State) : Result := branch2 0x07 k rd rs imm (fun a b => a.slt b) s

/-- BGE, signed. -/
def execBge (k rd rs imm : Nat) (s : State) : Result := branch2 0x08 k rd rs imm (fun a b => !a.slt b) s

/-- BLTU. -/
def execBltu (k rd rs imm : Nat) (s : State) : Result := branch2 0x09 k rd rs imm (fun a b => a.ult b) s

/-- BGEU. -/
def execBgeu (k rd rs imm : Nat) (s : State) : Result := branch2 0x0A k rd rs imm (fun a b => !a.ult b) s

/-- BLS: a condition with no meaning traps ILLEGAL_OP. -/
def execBls (k rd imm : Nat) (s : State) : Result :=
  onInstr s k 0x0B (fun i => decide (i.rd = rd ∧ i.imm = imm)) (fun _ =>
    match lsCond rd (shtOf s k).ls with
    | some c => branchIf s k imm c
    | none => trapHere s k Cause.illegalOp 0)

/-- CALL. -/
def execCall (k rd imm : Nat) (s : State) : Result :=
  onInstr s k 0x0C (fun i => decide (i.rd = rd ∧ i.imm = imm)) (fun _ =>
    modSht s k (fun h => { wSet h rd (BitVec.ofNat 64 (h.pc + 4)) with pc := branchTarget h.pc imm }))

/-- RET. -/
def execRet (k rs : Nat) (s : State) : Result :=
  onInstr s k 0x0D (fun i => decide (i.rs = rs)) (fun _ => jump s k (wGet (shtOf s k) rs).toNat)

/-! ### Arithmetic -/

/-- An instruction whose result of RD and RS goes to RD. -/
def aluRr (op k rd rs : Nat) (f : Word → Word → Word) (s : State) : Result :=
  onInstr s k op (fun i => decide (i.rd = rd ∧ i.rs = rs)) (fun _ =>
    modSht s k (fun h => retire (wSet h rd (f (wGet h rd) (wGet h rs)))))

/-- An instruction whose result of RS and IMM goes to RD. -/
def aluRi (op k rd rs imm : Nat) (f : Word → Word) (s : State) : Result :=
  onInstr s k op (fun i => decide (i.rd = rd ∧ i.rs = rs ∧ i.imm = imm)) (fun _ =>
    modSht s k (fun h => retire (wSet h rd (f (wGet h rs)))))

/-- A shift count modulo 64. -/
def shiftCount (b : Word) : Nat := b.toNat % 64

/-- MOV. -/
def execMov (k rd rs : Nat) (s : State) : Result := aluRr 0x10 k rd rs (fun _ b => b) s
/-- ADD. -/
def execAdd (k rd rs : Nat) (s : State) : Result := aluRr 0x11 k rd rs (fun a b => a + b) s
/-- SUB. -/
def execSub (k rd rs : Nat) (s : State) : Result := aluRr 0x12 k rd rs (fun a b => a - b) s
/-- AND. -/
def execAnd (k rd rs : Nat) (s : State) : Result := aluRr 0x13 k rd rs (fun a b => a &&& b) s
/-- OR. -/
def execOr (k rd rs : Nat) (s : State) : Result := aluRr 0x14 k rd rs (fun a b => a ||| b) s
/-- XOR. -/
def execXor (k rd rs : Nat) (s : State) : Result := aluRr 0x15 k rd rs (fun a b => a ^^^ b) s
/-- SHL. -/
def execShl (k rd rs : Nat) (s : State) : Result := aluRr 0x16 k rd rs (fun a b => a <<< shiftCount b) s
/-- SHR, logical. -/
def execShr (k rd rs : Nat) (s : State) : Result := aluRr 0x17 k rd rs (fun a b => a >>> shiftCount b) s
/-- SAR, arithmetic. -/
def execSar (k rd rs : Nat) (s : State) : Result := aluRr 0x18 k rd rs (fun a b => a.sshiftRight (shiftCount b)) s
/-- MUL, the low 64 bits. -/
def execMul (k rd rs : Nat) (s : State) : Result := aluRr 0x19 k rd rs (fun a b => a * b) s

/-- GETLS. -/
def execGetls (k rd : Nat) (s : State) : Result :=
  onInstr s k 0x1A (fun i => decide (i.rd = rd)) (fun _ =>
    modSht s k (fun h => retire (wSet h rd (BitVec.ofNat 64 h.ls))))

/-- TIME: nanoseconds since chip reset. -/
def execTime (k rd : Nat) (s : State) : Result :=
  onInstr s k 0x1B (fun i => decide (i.rd = rd)) (fun _ =>
    modSht s k (fun h => retire (wSet h rd (BitVec.ofNat 64 (nowNs s)))))

/-- LDI. -/
def execLdi (k rd imm : Nat) (s : State) : Result :=
  onInstr s k 0x20 (fun i => decide (i.rd = rd ∧ i.imm = imm)) (fun _ =>
    modSht s k (fun h => retire (wSet h rd (sextImm imm))))

/-- MOVK: the 16 bits from 16k of RD, with k the low two bits of the RS field. -/
def execMovk (k rd rs imm : Nat) (s : State) : Result :=
  onInstr s k 0x21 (fun i => decide (i.rd = rd ∧ i.rs % 4 = rs % 4 ∧ i.imm = imm)) (fun _ =>
    modSht s k (fun h => retire (wSet h rd (setBits (wGet h rd) (16 * (rs % 4)) 16 imm))))

/-- ADDI. -/
def execAddi (k rd rs imm : Nat) (s : State) : Result := aluRi 0x22 k rd rs imm (fun a => a + sextImm imm) s
/-- ANDI. -/
def execAndi (k rd rs imm : Nat) (s : State) : Result := aluRi 0x23 k rd rs imm (fun a => a &&& zextImm imm) s
/-- ORI. -/
def execOri (k rd rs imm : Nat) (s : State) : Result := aluRi 0x24 k rd rs imm (fun a => a ||| zextImm imm) s
/-- XORI. -/
def execXori (k rd rs imm : Nat) (s : State) : Result := aluRi 0x25 k rd rs imm (fun a => a ^^^ zextImm imm) s
/-- SHLI. -/
def execShli (k rd rs imm : Nat) (s : State) : Result := aluRi 0x26 k rd rs imm (fun a => a <<< (imm % 64)) s
/-- SHRI, logical. -/
def execShri (k rd rs imm : Nat) (s : State) : Result := aluRi 0x27 k rd rs imm (fun a => a >>> (imm % 64)) s
/-- SARI, arithmetic. -/
def execSari (k rd rs imm : Nat) (s : State) : Result := aluRi 0x28 k rd rs imm (fun a => a.sshiftRight (imm % 64)) s

/-- EXTR: IMM[11:6] + 1 bits from bit IMM[5:0]. -/
def execExtr (k rd rs imm : Nat) (s : State) : Result :=
  aluRi 0x29 k rd rs imm (fun a => BitVec.ofNat 64 ((a >>> (imm % 64)).toNat % 2 ^ (imm / 64 % 64 + 1))) s

/-! ### Local store -/

/-- A load of n bytes (R278). -/
def lsLoad (op n k rd rs imm : Nat) (s : State) : Result :=
  onInstr s k op (fun i => decide (i.rd = rd ∧ i.rs = rs ∧ i.imm = imm)) (fun _ =>
    let a := operandAddr (shtOf s k) rs imm
    if lsReadOk a n then
      modSht s k (fun h => retire (wSet h rd (BitVec.ofNat 64 (leNat (lsBytes h a n)))))
    else trapHere s k Cause.lsRange a)

/-- A store of n bytes (R278). -/
def lsPut (op n k rd rs imm : Nat) (s : State) : Result :=
  onInstr s k op (fun i => decide (i.rd = rd ∧ i.rs = rs ∧ i.imm = imm)) (fun _ =>
    let a := operandAddr (shtOf s k) rs imm
    if lsWriteOk s a n then
      modSht s k (fun h => retire (lsStore h a ((wordBytes (wGet h rd)).take n)))
    else trapHere s k Cause.lsRange a)

/-- LD. -/
def execLd (k rd rs imm : Nat) (s : State) : Result := lsLoad 0x30 8 k rd rs imm s
/-- ST. -/
def execSt (k rd rs imm : Nat) (s : State) : Result := lsPut 0x31 8 k rd rs imm s
/-- LD32. -/
def execLd32 (k rd rs imm : Nat) (s : State) : Result := lsLoad 0x32 4 k rd rs imm s
/-- ST32. -/
def execSt32 (k rd rs imm : Nat) (s : State) : Result := lsPut 0x33 4 k rd rs imm s

/-! ### Fabric access -/

/-- A fabric read (R279): a bus error leaves RD unchanged. -/
def fabLoad (op n k rd rs imm : Nat) (s : State) : Result :=
  onInstr s k op (fun i => decide (i.rd = rd ∧ i.rs = rs ∧ i.imm = imm)) (fun _ =>
    let t := busLoad s (16 + k) (operandAddr (shtOf s k) rs imm) n
    finish t k (fun h => retireLs (if t.bus.err then h else wSet h rd t.bus.value) (busStatus t.bus.err)))

/-- A fabric write (R279). -/
def fabStore (op n k rd rs imm : Nat) (s : State) : Result :=
  onInstr s k op (fun i => decide (i.rd = rd ∧ i.rs = rs ∧ i.imm = imm)) (fun _ =>
    let t := busStore s (16 + k) (operandAddr (shtOf s k) rs imm) n (wGet (shtOf s k) rd)
    finish t k (fun h => retireLs h (busStatus t.bus.err)))

/-- BLD. -/
def execBld (k rd rs imm : Nat) (s : State) : Result := fabLoad 0x50 8 k rd rs imm s
/-- BST. -/
def execBst (k rd rs imm : Nat) (s : State) : Result := fabStore 0x51 8 k rd rs imm s
/-- BLD32. -/
def execBld32 (k rd rs imm : Nat) (s : State) : Result := fabLoad 0x52 4 k rd rs imm s
/-- BST32. -/
def execBst32 (k rd rs imm : Nat) (s : State) : Result := fabStore 0x53 4 k rd rs imm s

/-- A 64-byte line read or written at a fabric address: no line lies in the control space (R10), and an address above
bit 39 reaches nothing (R9). -/
def lineAccess (s : State) (addr : Nat) (data : Option (List Byte)) : Option (List Byte) × State :=
  if 2 ^ 40 ≤ addr then (none, busDecode s addr)
  else if inControl addr then (none, refuseWidth s addr 64 data.isSome)
  else match data with
    | none => busRead s portSht addr 64
    | some l => let r := busWrite s portSht addr l
      (if r.1 then some [] else none, r.2)

/-- Lines copied into local store; false after a bus error (R280). -/
def copyIn_ (k fa la : Nat) : Nat → Nat → State → Bool × State
  | 0, _, s => (true, s)
  | n + 1, j, s =>
    match lineAccess s (fa + 64 * j) none with
    | (none, t) => (false, t)
    | (some l, t) => copyIn_ k fa la n (j + 1) (modSht t k (fun h => lsStore h (la + 64 * j) l))

/-- Lines copied out of local store; false after a bus error (R280). -/
def copyOut (k fa la : Nat) : Nat → Nat → State → Bool × State
  | 0, _, s => (true, s)
  | n + 1, j, s =>
    match lineAccess s (fa + 64 * j) (some (lsBytes (shtOf s k) (la + 64 * j) 64)) with
    | (none, t) => (false, t)
    | (some _, t) => copyOut k fa la n (j + 1) t

/-- The rules of R280 on a copy. While a Shuttle runs its EN is 1, so no port write can reach its code region (R325). -/
def copyOk (s : State) (fa la n : Nat) (toStore : Bool) : Bool :=
  decide (1 ≤ n ∧ n ≤ 512 ∧ fa % 64 = 0 ∧ la % 64 = 0) &&
    (decide (codeTop s ≤ la ∧ la + 64 * n ≤ frameBase) || (toStore && decide (la + 64 * n ≤ codeTop s)))

/-- BIN and BOUT (R280). -/
def copyLines (op k rd rs imm : Nat) (s : State) : Result :=
  onInstr s k op (fun i => decide (i.rd = rd ∧ i.rs = rs ∧ i.imm = imm)) (fun _ =>
    let h := shtOf s k
    let fa := (wGet h rs).toNat
    let la := (wGet h rd).toNat
    let n := imm % 1024
    let toStore := decide (op = 0x54)
    if copyOk s fa la n toStore then
      let r := if toStore then copyIn_ k fa la n 0 s else copyOut k fa la n 0 s
      finish r.2 k (fun x => retireLs x (busStatus !r.1))
    else trapHere s k Cause.lsRange la)

/-- BIN. -/
def execBin (k rd rs imm : Nat) (s : State) : Result := copyLines 0x54 k rd rs imm s
/-- BOUT. -/
def execBout (k rd rs imm : Nat) (s : State) : Result := copyLines 0x55 k rd rs imm s

/-! ### Decoder pool, Spools and slots -/

/-- SUBMIT (R290): the status goes to RD and LS. -/
def execSubmit (k rd rs : Nat) (s : State) : Result :=
  onInstr s k 0x60 (fun i => decide (i.rd = rd ∧ i.rs = rs)) (fun _ =>
    let w := wGet (shtOf s k) rs
    let a := getBits w 56 2
    let r := if a < s.part.acts then submitJob s a (setBits w 54 10 0) else (LsCode.unitAbsent, s)
    modSht r.2 k (fun h => retireBoth h rd r.1))

/-- AWAIT's effect (R291). -/
def awaitBody (s : State) (k : Nat) (i : Ins) : State :=
  let a := getBits (wGet (shtOf s k) i.rs) 0 2
  if s.part.acts ≤ a then modSht s k (fun h => retireLs (wSet h i.rd 0#64) LsCode.unitAbsent)
  else if (dcpOf s a).ring.isEmpty && Nat.testBit i.imm 0 then modSht s k (fun h => { h with st := .stall })
  else
    let r := popRecord s a
    modSht r.2 k (fun h => retireLs (wSet h i.rd r.1) LsCode.ok)

/-- AWAIT (R291). -/
def execAwait (k rd rs imm : Nat) (s : State) : Result :=
  onInstr s k 0x61 (fun i => decide (i.rd = rd ∧ i.rs = rs ∧ i.imm = imm)) (fun i => awaitBody s k i)

/-- PUSH's effect (R292, R461). -/
def pushBody (s : State) (k : Nat) (i : Ins) : State :=
  let p := i.imm % 32
  if coreProducer s p then trapHere s k Cause.illegalOp 0
  else if spoolFull s p (16 + k) then
    if Nat.testBit i.imm 6 then modSht s k (fun h => { h with st := .stall })
    else modSht s k (fun h => retireLs h LsCode.spoolFull)
  else
    let t := spoolPut s p (16 + k) (wGet (shtOf s k) i.rs) (Nat.testBit i.imm 5)
    modSht t k (fun h => retireLs h LsCode.ok)

/-- PUSH (R292). -/
def execPush (k rs imm : Nat) (s : State) : Result :=
  onInstr s k 0x70 (fun i => decide (i.rs = rs ∧ i.imm = imm)) (fun i => pushBody s k i)

/-- POP's effect (R292, R457, R461). -/
def popBody (s : State) (k : Nat) (i : Ins) (bad : Bool) : State :=
  let p := i.imm % 32
  if coreConsumer s p then trapHere s k Cause.illegalOp 0
  else if (spoolOf s p).words.isEmpty && Nat.testBit i.imm 6 then modSht s k (fun h => { h with st := .stall })
  else
    let r := spoolGet s p bad .sht
    modSht r.2 k (fun h => retireLs (wSet h i.rd r.1.1) (popStatus r.1.2.1 r.1.2.2.1 r.1.2.2.2))

/-- POP (R292). -/
def execPop (k rd imm : Nat) (bad : Bool) (s : State) : Result :=
  onInstr s k 0x71 (fun i => decide (i.rd = rd ∧ i.imm = imm)) (fun i => popBody s k i bad)

/-- SPDROP (R292, R461). -/
def execSpdrop (k imm : Nat) (s : State) : Result :=
  onInstr s k 0x72 (fun i => decide (i.imm = imm)) (fun _ =>
    let p := imm % 32
    if coreConsumer s p then trapHere s k Cause.illegalOp 0
    else modSht (spoolDrop s p) k (fun h => retireLs h LsCode.ok))

/-- The slot handle in a register (R293). -/
def handleIn (s : State) (k r : Nat) : Nat := getBits (wGet (shtOf s k) r) 0 53

/-- SLOT_STATUS (R294). -/
def execSlotStatus (k rd rs : Nat) (s : State) : Result :=
  onInstr s k 0x80 (fun i => decide (i.rd = rd ∧ i.rs = rs)) (fun _ =>
    match byHandle s (handleIn s k rs) with
    | some n => modSht s k (fun h => retireLs (wSet h rd (statusWord s n)) LsCode.ok)
    | none => modSht s k (fun h => retireLs (wSet h rd 0#64) LsCode.staleSlot))

/-- COMPLETE (R295, R297). -/
def execComplete (k rd rs : Nat) (s : State) : Result :=
  onInstr s k 0x81 (fun i => decide (i.rd = rd ∧ i.rs = rs)) (fun _ =>
    let r := slotComplete s (handleIn s k rs) (wGet (shtOf s k) rd)
    modSht r.2 k (fun h => retireLs h r.1))

/-- HOLD (R296, R297). -/
def execHold (k rs imm : Nat) (s : State) : Result :=
  onInstr s k 0x82 (fun i => decide (i.rs = rs ∧ i.imm = imm)) (fun _ =>
    let r := slotHold s (handleIn s k rs) (Nat.testBit imm 0)
    modSht r.2 k (fun h => retireLs h r.1))

/-! ### Waiting, tasks and barriers -/

/-- A status at which an event is refused at once (R4, R299): a tag not in use by this task, an absent actuator. -/
def eventRefused (s : State) (k : Nat) (e : Event) : Option Nat :=
  if e.kind = 0 ∧ tagOwned (shtOf s k) (e.sel % 8) .running = false then some LsCode.tagInvalid
  else if e.kind = 3 ∧ s.part.acts ≤ e.sel % 4 then some LsCode.unitAbsent
  else none

/-- WAIT (R298, R299). -/
def execWait (k rd rs imm : Nat) (s : State) : Result :=
  onInstr s k 0x90 (fun i => decide (i.rd = rd ∧ i.rs = rs ∧ i.imm = imm)) (fun i =>
    let e := eventOf (shtOf s k) i
    if 7 ≤ e.kind then trapHere s k Cause.illegalOp 0
    else match eventRefused s k e with
      | some st => modSht s k (fun h => retireBoth h rd st)
      | none =>
        if eventTrue s k .running e then modSht s k (fun h => retireBoth h rd 0)
        else modSht s k (fun h => { h with st := .wait, waiting := some (e, rd) }))

/-- SPAWN (R304). -/
def execSpawn (k rs imm : Nat) (s : State) : Result :=
  onInstr s k 0xA0 (fun i => decide (i.rs = rs ∧ i.imm = imm)) (fun _ =>
    let w := wGet (shtOf s k) rs
    let e := if Nat.testBit imm 6 then imm % 64 else 16 + k
    if !bit w 63 then trapHere s k Cause.illegalOp 0
    else if !enginePresent s e then modSht s k (fun h => retireLs h LsCode.unitAbsent)
    else match dequePush s e w with
      | some t => modSht t k (fun h => retireLs h LsCode.ok)
      | none => modSht s k (fun h => retireLs h LsCode.dequeFull))

/-- The words of a saved frame (R305): w1 to w15, LS with PC + 4 and the event, and the deadline. -/
def frameWords (s : State) (h : Shuttle) (i : Ins) (e : Event) : List Word :=
  (List.range 15).map (fun j => wGet h (j + 1)) ++
    [BitVec.ofNat 64 (h.ls % 256 + (h.pc + 4) % 2 ^ 15 * 2 ^ 8 + e.kind * 2 ^ 23 +
        b2n (Nat.testBit i.imm 11) * 2 ^ 27 + e.sel * 2 ^ 28),
     if e.timeout = 0 then 0#64 else BitVec.ofNat 64 (nowNs s + e.timeout * 1000)]

/-- YIELD's frame saved (R305). -/
def saveFrame (s : State) (k f : Nat) (i : Ins) (e : Event) : State :=
  let h := shtOf s k
  let g := lsStore h (frameBase + 0x100 * f) ((frameWords s h i e).flatMap wordBytes)
  let g := passTags g .running (.frame f)
  bump (setSht s k { g with
    st := .idle
    task := 0#64
    frames := g.frames ++ [{ f := f, ready := if e.kind = 15 then some 0 else none, task := h.task, rd := i.rd }] })
    F.SHT_CNT_YIELDS k

/-- YIELD (R305). -/
def execYield (k rd rs imm : Nat) (s : State) : Result :=
  onInstr s k 0xA1 (fun i => decide (i.rd = rd ∧ i.rs = rs ∧ i.imm = imm)) (fun i =>
    let e := eventOf (shtOf s k) i
    if 7 ≤ e.kind ∧ e.kind ≠ 15 then trapHere s k Cause.illegalOp 0
    else match eventRefused s k e with
      | some st => modSht s k (fun h => retireBoth h rd st)
      | none =>
        match firstFree (frameUsed (shtOf s k)) 4 with
        | some f => saveFrame s k f i e
        | none => modSht s k (fun h => retireBoth h rd LsCode.yieldFull))

/-- BARRIER (R308): a member arrives and stalls. -/
def execBarrier (k rd rs imm : Nat) (s : State) : Result :=
  onInstr s k 0xA2 (fun i => decide (i.rd = rd ∧ i.rs = rs ∧ i.imm = imm)) (fun _ =>
    let b := imm % 16
    if 16 + k ∈ members s b then
      modSht (arrive s b (16 + k) (wGet (shtOf s k) rs)) k (fun h => { h with st := .stall, barrier := some (b, rd) })
    else modSht s k (fun h => retireLs h LsCode.notMember))

/-! ### Traps at fetch -/

/-- The opcodes of Table 8.4. -/
def opDefined (op : Nat) : Bool :=
  decide (op ≤ 0x0D ∨ (0x10 ≤ op ∧ op ≤ 0x1B) ∨ (0x20 ≤ op ∧ op ≤ 0x29) ∨ (0x30 ≤ op ∧ op ≤ 0x33) ∨
    (0x40 ≤ op ∧ op ≤ 0x44) ∨ (0x50 ≤ op ∧ op ≤ 0x55) ∨ op = 0x60 ∨ op = 0x61 ∨ (0x70 ≤ op ∧ op ≤ 0x72) ∨
    (0x80 ≤ op ∧ op ≤ 0x82) ∨ op = 0x90 ∨ (0xA0 ≤ op ∧ op ≤ 0xA2))

/-- A trap that no instruction's own meaning takes (R310, Table 8.9): a fetch outside the code region or misaligned, an
opcode with no meaning and no patch, an uncorrectable error met in local store or in a patch RAM. -/
def execTrap (k cause addr : Nat) (s : State) : Result :=
  let h := shtOf s k
  if !shRunning s k then .next s
  else if !fetchOk s h.pc then .next (trap s k Cause.fetchRange (h.pc % 2 ^ 15) 0)
  else
    let op := (insAt h h.pc).op
    if !opDefined op then
      if patched s op then .refused .patchedInstruction else .next (trapHere s k Cause.illegalOp 0)
    else if cause = Cause.lsEcc ∧ addr < 2 ^ 15 then .next (trapHere (sramUe s .sht addr 8) k Cause.lsEcc addr)
    else if cause = Cause.microEcc ∧ flag s F.SHT_PATCH_STAT_LOADED = true then
      .next (trapHere (sramUe s .sht addr 8) k Cause.microEcc 0)
    else .next s

end Sys2Proof.Machine
end

