-- ==== Sys2Proof/Machine/Media.lean ====
section
/-!
DEFINITION. The media operations of the Shuttles (R282 to R288), and what a stalled instruction does when its unit answers
(R274).
-/

namespace Sys2Proof.Machine

/-- A media descriptor's words (Table 8.5). -/
structure Desc where
  w0 : Word
  w1 : Word
  w2 : Word
  w3 : Word
  w4 : Word
  w5 : Word
deriving DecidableEq, Repr

/-- Words 0 to 5 of the descriptor at a local-store address. -/
def descWords (h : Shuttle) (addr : Nat) : List Word := (List.range 6).map (fun j => lsWord h (addr + 8 * j))

/-- A descriptor of its words 0 to 5. -/
def descOf (l : List Word) : Desc :=
  let w (j : Nat) : Word := l.getD j 0#64
  { w0 := w 0, w1 := w 1, w2 := w 2, w3 := w 3, w4 := w 4, w5 := w 5 }

/-- The descriptor at a local-store address. -/
def descAt (h : Shuttle) (addr : Nat) : Desc := descOf (descWords h addr)

namespace Desc
/-- KIND. -/
def kind (d : Desc) : Nat := getBits d.w0 0 8
/-- ACT. -/
def act (d : Desc) : Nat := getBits d.w0 8 2
/-- HEAD. -/
def head (d : Desc) : Nat := getBits d.w0 10 5
/-- TRACK. -/
def track (d : Desc) : Nat := getBits d.w0 16 21
/-- OFFSET. -/
def offset (d : Desc) : Nat := getBits d.w0 37 16
/-- FIRST_SECTOR. -/
def first (d : Desc) : Nat := getBits d.w1 0 16
/-- COUNT. -/
def count (d : Desc) : Nat := getBits d.w1 16 16
/-- CODE. -/
def code (d : Desc) : Nat := getBits d.w1 32 2
/-- BUF_BASE. -/
def base (d : Desc) : Nat := getBits d.w3 0 40
/-- STRIDE. -/
def stride (d : Desc) : Nat := getBits d.w4 0 32
/-- TIMEOUT. -/
def timeout (d : Desc) : Nat := getBits d.w4 32 32
end Desc

/-- KIND's encoding. -/
def MediaKind.code : MediaKind → Nat
  | .seek => 1 | .rdrun => 2 | .wrrun => 3 | .verify => 4

/-- A descriptor fails check 2 of R284. -/
def descBad (m : MediaKind) (d : Desc) : Bool :=
  decide (d.kind ≠ m.code ∨ bit d.w0 15 = true ∨ getBits d.w0 53 11 ≠ 0 ∨ getBits d.w5 53 10 ≠ 0) ||
  (match m with
   | .seek => false
   | _ => decide (d.offset ≠ 0 ∨ getBits d.w1 34 30 ≠ 0 ∨ getBits d.w3 40 24 ≠ 0 ∨ d.code = 3 ∨ d.stride % 8 ≠ 0) ||
      (decide (d.stride < 4104) && !(m == .verify && d.stride == 0)))

/-- CTE is on the track of a run (R284 check 6). -/
def onTrack (s : State) (a track : Nat) : Bool :=
  (cteState s a == stFollow || cteState s a == stExt) && (svgOf s a).trkValid && (svgOf s a).track == track

/-- The status of the checks of R284, in their order; 0 when all pass. Check 7 of a run is made by its unit once the run
context is claimed (R286). -/
def mediaCheck (s : State) (m : MediaKind) (d : Desc) : Nat :=
  if s.part.acts ≤ d.act then LsCode.unitAbsent
  else if descBad m d then LsCode.descInvalid
  else if powerLost s || safeState s then LsCode.powerLoss
  else if !paired s then LsCode.hdaBlocked
  else match m with
  | .seek => seekStatus s d.act d.track
  | _ =>
    if d.head ≠ selHead s d.act then LsCode.headMismatch
    else if !onTrack s d.act d.track then LsCode.notOnTrack
    else 0

/-- The operation of a tag replaced. -/
def putOp (s : State) (k tag : Nat) (m : MediaOp) : State := modSht s k (fun h => setTag h tag (some m))

/-- A run handed to LNE once a context is free (R286, R116); it waits while none is. -/
def claimRun (s : State) (k tag : Nat) (m : MediaOp) (d : Desc) : State :=
  match firstFree (fun c => (ctxOf s m.act c).used) 8 with
  | none => putOp s k tag { m with phase := .runContext }
  | some c =>
    let t := setCtx s m.act c {
      used := true, code := d.code, lba := d.w2, base := d.base, stride := d.stride, count := d.count
      verify := decide (m.kind = .verify) }
    laneRequest (putOp t k tag { m with phase := .issued, ctx := some c }) { sh := k, tag := tag } m.act c d.code
      d.count d.head d.track d.first

/-- An operation that passed its checks goes to its unit (R286). -/
def handOver (s : State) (k tag : Nat) (m : MediaOp) (d : Desc) : State :=
  let o : OpRef := { sh := k, tag := tag }
  match m.kind with
  | .seek =>
    if d.head = selHead s m.act then mediaSeek s o m.act m.track m.offset
    else
      let t := putOp s k tag { m with phase := .headSwitch }
      let r := requestSwitch t m.act d.head (some o)
      if r.1 = 0 then r.2 else putOp r.2 k tag { m with phase := .done r.1 0 false }
  | .wrrun => wrpRequest s o m.act d.head d.track d.first d.count d.w2 d.base d.stride
  | _ => claimRun s k tag m d

/-- A media operation issues (R282 to R284): word 6 is cleared, an asynchronous one takes the lowest free tag and retires,
a synchronous one stalls the Shuttle; one that fails a check completes at once. -/
def mediaBody (s : State) (k : Nat) (kind : MediaKind) (i : Ins) : State :=
  let addr := i.imm % 2 ^ 15
  let async := Nat.testBit i.imm 15
  let h := shtOf s k
  if addr % 64 ≠ 0 ∨ addr < codeTop s ∨ frameBase < addr + 64 then trapHere s k Cause.descAddr addr
  else match (if async then freeTag h else some 8) with
    | none => modSht s k (fun h => { h with st := .stall })
    | some tag =>
      let d := descAt h addr
      let m : MediaOp := {
        kind := kind, act := d.act, desc := addr, owner := .running, rd := i.rd, timeout := d.timeout
        track := d.track, offset := signed 16 d.offset, words := descWords h addr }
      let t := modSht s k (fun h =>
        let g := lsStoreWord h (addr + 48) 0#64
        if async then retireLs (wSet g i.rd (BitVec.ofNat 64 tag)) LsCode.ok else { g with st := .stall })
      let st := mediaCheck s kind d
      let t := if st = 0 then handOver (putOp t k tag m) k tag m d
        else putOp t k tag { m with phase := .done st 0 false }
      mediaComplete t k tag

/-- A media instruction. -/
def mediaOp (op k rd imm : Nat) (kind : MediaKind) (s : State) : Result :=
  onInstr s k op (fun i => decide (i.rd = rd ∧ i.imm = imm)) (fun i => mediaBody s k kind i)

/-- SEEK (R286). -/
def execSeek (k rd imm : Nat) (s : State) : Result := mediaOp 0x40 k rd imm .seek s
/-- RDRUN (R286). -/
def execRdrun (k rd imm : Nat) (s : State) : Result := mediaOp 0x41 k rd imm .rdrun s
/-- WRRUN (R286). -/
def execWrrun (k rd imm : Nat) (s : State) : Result := mediaOp 0x42 k rd imm .wrrun s
/-- VERIFY (R286). -/
def execVerify (k rd imm : Nat) (s : State) : Result := mediaOp 0x43 k rd imm .verify s

/-- MABORT (R287). -/
def execMabort (k rs : Nat) (s : State) : Result :=
  onInstr s k 0x44 (fun i => decide (i.rs = rs)) (fun _ =>
    let tag := getBits (wGet (shtOf s k) rs) 0 3
    match tagOp (shtOf s k) tag with
    | some m =>
      if m.owner = .running then modSht (endOp s k tag m false) k (fun h => retireLs h LsCode.ok)
      else modSht s k (fun h => retireLs h LsCode.tagInvalid)
    | none => modSht s k (fun h => retireLs h LsCode.tagInvalid))

/-! ### Stalls -/

/-- What a stalled instruction does when it is tried again: none for one that its unit's own answer retires. -/
def retry (s : State) (k : Nat) : Option State :=
  let h := shtOf s k
  let i := insAt h h.pc
  let t := modSht s k (fun x => { x with st := .run })
  match i.op with
  | 0x01 => some (haltBody t k)
  | 0x40 => some (mediaBody t k .seek i)
  | 0x41 => some (mediaBody t k .rdrun i)
  | 0x42 => some (mediaBody t k .wrrun i)
  | 0x43 => some (mediaBody t k .verify i)
  | 0x61 => some (awaitBody t k i)
  | 0x70 => some (pushBody t k i)
  | 0x71 => some (popBody t k i false)
  | _ => none

/-- The stalled instruction waits for nothing of its own: no synchronous operation and no barrier. -/
def stallFree (h : Shuttle) : Bool := (tagOp h 8).isNone && h.barrier.isNone

/-- The unit a stalled instruction waits on answers (R274); with a tag below 9, a run context has freed for the operation
that waits for one (R286). -/
def execStallRelease (k tag : Nat) (s : State) : Result :=
  let h := shtOf s k
  if !shPresent s k then .next s
  else if tag < 9 then
    match tagOp h tag with
    | some m =>
      if m.phase = .runContext then
        .next (mediaComplete (claimRun s k tag m (descOf m.words)) k tag)
      else .next s
    | none => .next s
  else if h.st = .stall ∧ stallFree h = true then
    match retry s k with
    | some t => .next t
    | none => .next s
  else .next s

end Sys2Proof.Machine
end

