-- ==== Sys2Proof/Machine/Dispatch.lean ====
section
/-!
DEFINITION. The dispatch of a command to its meaning, one arm per constructor.
-/

namespace Sys2Proof.Machine

/-- The effect of a command on everything but the queue. -/
def exec (i : Instr) (s : State) : Host.Outcome State Fault Refusal :=
  match i with
  | .registerWrite e addr bytes value => Sys2Proof.Machine.execRegisterWrite e addr bytes value s
  | .undecodedAccess e addr bytes write => Sys2Proof.Machine.execUndecodedAccess e addr bytes write s
  | .powerOn depot => Sys2Proof.Machine.execPowerOn depot s
  | .railFault k => Sys2Proof.Machine.execRailFault k s
  | .xtalFault => Sys2Proof.Machine.execXtalFault s
  | .pllLockLoss n => Sys2Proof.Machine.execPllLockLoss n s
  | .rstNAssert => Sys2Proof.Machine.execRstNAssert s
  | .chipReset => Sys2Proof.Machine.execChipReset s
  | .resetRelease hostSel peMode => Sys2Proof.Machine.execResetRelease hostSel peMode s
  | .otpRead damaged => Sys2Proof.Machine.execOtpRead damaged s
  | .boot => Sys2Proof.Machine.execBoot s
  | .vinLoss => Sys2Proof.Machine.execVinLoss s
  | .flushCommit => Sys2Proof.Machine.execFlushCommit s
  | .quiesceLogic vm => Sys2Proof.Machine.execQuiesceLogic vm s
  | .vinReturn => Sys2Proof.Machine.execVinReturn s
  | .holdUpEnd => Sys2Proof.Machine.execHoldUpEnd s
  | .timeStoreWrite => Sys2Proof.Machine.execTimeStoreWrite s
  | .linkLoss => Sys2Proof.Machine.execLinkLoss s
  | .retractEnd => Sys2Proof.Machine.execRetractEnd s
  | .fwReadyWrite value => Sys2Proof.Machine.execFwReadyWrite value s
  | .shutdown => Sys2Proof.Machine.execShutdown s
  | .pspFrameLaunch a value => Sys2Proof.Machine.execPspFrameLaunch a value s
  | .pspFrameEnd a rdata => Sys2Proof.Machine.execPspFrameEnd a rdata s
  | .preampFault a => Sys2Proof.Machine.execPreampFault a s
  | .headmapLock value => Sys2Proof.Machine.execHeadmapLock value s
  | .headSwitchRequest a head => Sys2Proof.Machine.execHeadSwitchRequest a head s
  | .headSwitchDone a => Sys2Proof.Machine.execHeadSwitchDone a s
  | .tagAuthentication => Sys2Proof.Machine.execTagAuthentication s
  | .tagResponse values good => Sys2Proof.Machine.execTagResponse values good s
  | .tagNoResponse => Sys2Proof.Machine.execTagNoResponse s
  | .tagRetry => Sys2Proof.Machine.execTagRetry s
  | .tagRepair value => Sys2Proof.Machine.execTagRepair value s
  | .lifeCommit value => Sys2Proof.Machine.execLifeCommit value s
  | .lifeCommitTimer => Sys2Proof.Machine.execLifeCommitTimer s
  | .hdlBlockReset => Sys2Proof.Machine.execHdlBlockReset s
  | .laneRateWrite a rate => Sys2Proof.Machine.execLaneRateWrite a rate s
  | .rateLocked a => Sys2Proof.Machine.execRateLocked a s
  | .sectorPreambleStart a theta spans preheated => Sys2Proof.Machine.execSectorPreambleStart a theta spans preheated s
  | .acquireEnd a spans => Sys2Proof.Machine.execAcquireEnd a spans s
  | .markADecision a preamble window => Sys2Proof.Machine.execMarkADecision a preamble window s
  | .markBDecision a preamble window codeword trailer => Sys2Proof.Machine.execMarkBDecision a preamble window codeword trailer s
  | .spliceGapEnd p => Sys2Proof.Machine.execSpliceGapEnd p s
  | .pairSlip p full => Sys2Proof.Machine.execPairSlip p full s
  | .flaggedSpanOverrun p => Sys2Proof.Machine.execFlaggedSpanOverrun p s
  | .retainPin a slot seq => Sys2Proof.Machine.execRetainPin a slot seq s
  | .retainUnpin a slot seq => Sys2Proof.Machine.execRetainUnpin a slot seq s
  | .replayRequest a value => Sys2Proof.Machine.execReplayRequest a value s
  | .replayStart a => Sys2Proof.Machine.execReplayStart a s
  | .replayDone a eccY eccFlags eccMarks => Sys2Proof.Machine.execReplayDone a eccY eccFlags eccMarks s
  | .laneBlockReset a => Sys2Proof.Machine.execLaneBlockReset a s
  | .trailerArrival a poisoned poisonTrailer => Sys2Proof.Machine.execTrailerArrival a poisoned poisonTrailer s
  | .decoderSelect decoders loadErr => Sys2Proof.Machine.execDecoderSelect decoders loadErr s
  | .decodeConverged d iters data => Sys2Proof.Machine.execDecodeConverged d iters data s
  | .decodeCap d => Sys2Proof.Machine.execDecodeCap d s
  | .earlyPin d => Sys2Proof.Machine.execEarlyPin d s
  | .decodeYield d iters => Sys2Proof.Machine.execDecodeYield d iters s
  | .writebackDone a job err => Sys2Proof.Machine.execWritebackDone a job err s
  | .decodeDeadline a entry => Sys2Proof.Machine.execDecodeDeadline a entry s
  | .entryUrgent a entry => Sys2Proof.Machine.execEntryUrgent a entry s
  | .recoveryJobAged a entry => Sys2Proof.Machine.execRecoveryJobAged a entry s
  | .recoveryTimeout a job => Sys2Proof.Machine.execRecoveryTimeout a job s
  | .dcpCplRead a => Sys2Proof.Machine.execDcpCplRead a s
  | .dcpSubmit a value => Sys2Proof.Machine.execDcpSubmit a value s
  | .decoderMemoryError d => Sys2Proof.Machine.execDecoderMemoryError d s
  | .dcpBlockReset => Sys2Proof.Machine.execDcpBlockReset s
  | .sectorFetchDone a sector err => Sys2Proof.Machine.execSectorFetchDone a sector err s
  | .dataLate a => Sys2Proof.Machine.execDataLate a s
  | .preheatSlip a => Sys2Proof.Machine.execPreheatSlip a s
  | .wgRise g => Sys2Proof.Machine.execWgRise g s
  | .sectorWritten a => Sys2Proof.Machine.execSectorWritten a s
  | .writeRunEnd a => Sys2Proof.Machine.execWriteRunEnd a s
  | .wrpBlockReset => Sys2Proof.Machine.execWrpBlockReset s
  | .pesSample a newer older boundary fA theta cycles => Sys2Proof.Machine.execPesSample a newer older boundary fA theta cycles s
  | .toneLock a => Sys2Proof.Machine.execToneLock a s
  | .stripeCrossing a inward x => Sys2Proof.Machine.execStripeCrossing a inward x s
  | .identityFrame a symbols cycles => Sys2Proof.Machine.execIdentityFrame a symbols cycles s
  | .svgBlockReset a => Sys2Proof.Machine.execSvgBlockReset a s
  | .lawTick n ain => Sys2Proof.Machine.execLawTick n ain s
  | .settleCriteriaMet a => Sys2Proof.Machine.execSettleCriteriaMet a s
  | .offTrackClear a => Sys2Proof.Machine.execOffTrackClear a s
  | .residualFail a => Sys2Proof.Machine.execResidualFail a s
  | .coastMaxReached a => Sys2Proof.Machine.execCoastMaxReached a s
  | .loadStripeFound a => Sys2Proof.Machine.execLoadStripeFound a s
  | .loadTimeout a => Sys2Proof.Machine.execLoadTimeout a s
  | .acquireTimeout a => Sys2Proof.Machine.execAcquireTimeout a s
  | .settleTimeout a => Sys2Proof.Machine.execSettleTimeout a s
  | .holdTimeout a => Sys2Proof.Machine.execHoldTimeout a s
  | .unloadDriveEnd a => Sys2Proof.Machine.execUnloadDriveEnd a s
  | .parkHoldEnd a => Sys2Proof.Machine.execParkHoldEnd a s
  | .cteSeek a value => Sys2Proof.Machine.execCteSeek a value s
  | .load a => Sys2Proof.Machine.execLoad a s
  | .park a => Sys2Proof.Machine.execPark a s
  | .resume a => Sys2Proof.Machine.execResume a s
  | .extEnable value => Sys2Proof.Machine.execExtEnable value s
  | .cteBlockReset => Sys2Proof.Machine.execCteBlockReset s
  | .start => Sys2Proof.Machine.execStart s
  | .stop => Sys2Proof.Machine.execStop s
  | .clear => Sys2Proof.Machine.execClear s
  | .setSpeedWrite value => Sys2Proof.Machine.execSetSpeedWrite value s
  | .bemfCrossing dt sector forward => Sys2Proof.Machine.execBemfCrossing dt sector forward s
  | .predictedCrossing => Sys2Proof.Machine.execPredictedCrossing s
  | .crossingWindowTimeout => Sys2Proof.Machine.execCrossingWindowTimeout s
  | .senseEnd speed backward => Sys2Proof.Machine.execSenseEnd speed backward s
  | .brakeRevEnd => Sys2Proof.Machine.execBrakeRevEnd s
  | .brakeRevTimeout => Sys2Proof.Machine.execBrakeRevTimeout s
  | .brakeSettleEnd => Sys2Proof.Machine.execBrakeSettleEnd s
  | .alignEnd => Sys2Proof.Machine.execAlignEnd s
  | .rampTimeout => Sys2Proof.Machine.execRampTimeout s
  | .catchTimeout => Sys2Proof.Machine.execCatchTimeout s
  | .spinupTimeout => Sys2Proof.Machine.execSpinupTimeout s
  | .brakeEnd => Sys2Proof.Machine.execBrakeEnd s
  | .atSpeedChange => Sys2Proof.Machine.execAtSpeedChange s
  | .spsyncEdge rising dt => Sys2Proof.Machine.execSpsyncEdge rising dt s
  | .syncFree => Sys2Proof.Machine.execSyncFree s
  | .spnBlockReset => Sys2Proof.Machine.execSpnBlockReset s
  | .vmLow mv => Sys2Proof.Machine.execVmLow mv s
  | .vmOkRise mv => Sys2Proof.Machine.execVmOkRise mv s
  | .clampOn mv => Sys2Proof.Machine.execClampOn mv s
  | .clampOff mv => Sys2Proof.Machine.execClampOff mv s
  | .vmTrip mv => Sys2Proof.Machine.execVmTrip mv s
  | .chopOpen ma => Sys2Proof.Machine.execChopOpen ma s
  | .chopStuck ma => Sys2Proof.Machine.execChopStuck ma s
  | .thermalWarning temp => Sys2Proof.Machine.execThermalWarning temp s
  | .thermalShutdown temp => Sys2Proof.Machine.execThermalShutdown temp s
  | .vcmShort a => Sys2Proof.Machine.execVcmShort a s
  | .boostFault => Sys2Proof.Machine.execBoostFault s
  | .boostOk => Sys2Proof.Machine.execBoostOk s
  | .pwsFaultClear value => Sys2Proof.Machine.execPwsFaultClear value s
  | .pwsBlockReset => Sys2Proof.Machine.execPwsBlockReset s
  | .shuttleEnable k => Sys2Proof.Machine.execShuttleEnable k s
  | .shuttleReset k => Sys2Proof.Machine.execShuttleReset k s
  | .shuttleDisable k => Sys2Proof.Machine.execShuttleDisable k s
  | .shuttleResume k => Sys2Proof.Machine.execShuttleResume k s
  | .shtBlockReset => Sys2Proof.Machine.execShtBlockReset s
  | .taskTake k => Sys2Proof.Machine.execTaskTake k s
  | .trap k cause addr => Sys2Proof.Machine.execTrap k cause addr s
  | .taskTimeout k => Sys2Proof.Machine.execTaskTimeout k s
  | .stallRelease k tag => Sys2Proof.Machine.execStallRelease k tag s
  | .waitEvent k => Sys2Proof.Machine.execWaitEvent k s
  | .waitTimeout k => Sys2Proof.Machine.execWaitTimeout k s
  | .frameReady k f deadline => Sys2Proof.Machine.execFrameReady k f deadline s
  | .mediaOpComplete k tag => Sys2Proof.Machine.execMediaOpComplete k tag s
  | .mediaTimeout k tag => Sys2Proof.Machine.execMediaTimeout k tag s
  | .nop k => Sys2Proof.Machine.execNop k s
  | .halt k => Sys2Proof.Machine.execHalt k s
  | .b k imm => Sys2Proof.Machine.execB k imm s
  | .bz k rs imm => Sys2Proof.Machine.execBz k rs imm s
  | .bnz k rs imm => Sys2Proof.Machine.execBnz k rs imm s
  | .beq k rd rs imm => Sys2Proof.Machine.execBeq k rd rs imm s
  | .bne k rd rs imm => Sys2Proof.Machine.execBne k rd rs imm s
  | .blt k rd rs imm => Sys2Proof.Machine.execBlt k rd rs imm s
  | .bge k rd rs imm => Sys2Proof.Machine.execBge k rd rs imm s
  | .bltu k rd rs imm => Sys2Proof.Machine.execBltu k rd rs imm s
  | .bgeu k rd rs imm => Sys2Proof.Machine.execBgeu k rd rs imm s
  | .bls k rd imm => Sys2Proof.Machine.execBls k rd imm s
  | .call k rd imm => Sys2Proof.Machine.execCall k rd imm s
  | .ret k rs => Sys2Proof.Machine.execRet k rs s
  | .mov k rd rs => Sys2Proof.Machine.execMov k rd rs s
  | .add k rd rs => Sys2Proof.Machine.execAdd k rd rs s
  | .sub k rd rs => Sys2Proof.Machine.execSub k rd rs s
  | .and k rd rs => Sys2Proof.Machine.execAnd k rd rs s
  | .or k rd rs => Sys2Proof.Machine.execOr k rd rs s
  | .xor k rd rs => Sys2Proof.Machine.execXor k rd rs s
  | .shl k rd rs => Sys2Proof.Machine.execShl k rd rs s
  | .shr k rd rs => Sys2Proof.Machine.execShr k rd rs s
  | .sar k rd rs => Sys2Proof.Machine.execSar k rd rs s
  | .mul k rd rs => Sys2Proof.Machine.execMul k rd rs s
  | .getls k rd => Sys2Proof.Machine.execGetls k rd s
  | .time k rd => Sys2Proof.Machine.execTime k rd s
  | .ldi k rd imm => Sys2Proof.Machine.execLdi k rd imm s
  | .movk k rd rs imm => Sys2Proof.Machine.execMovk k rd rs imm s
  | .addi k rd rs imm => Sys2Proof.Machine.execAddi k rd rs imm s
  | .andi k rd rs imm => Sys2Proof.Machine.execAndi k rd rs imm s
  | .ori k rd rs imm => Sys2Proof.Machine.execOri k rd rs imm s
  | .xori k rd rs imm => Sys2Proof.Machine.execXori k rd rs imm s
  | .shli k rd rs imm => Sys2Proof.Machine.execShli k rd rs imm s
  | .shri k rd rs imm => Sys2Proof.Machine.execShri k rd rs imm s
  | .sari k rd rs imm => Sys2Proof.Machine.execSari k rd rs imm s
  | .extr k rd rs imm => Sys2Proof.Machine.execExtr k rd rs imm s
  | .ld k rd rs imm => Sys2Proof.Machine.execLd k rd rs imm s
  | .st k rd rs imm => Sys2Proof.Machine.execSt k rd rs imm s
  | .ld32 k rd rs imm => Sys2Proof.Machine.execLd32 k rd rs imm s
  | .st32 k rd rs imm => Sys2Proof.Machine.execSt32 k rd rs imm s
  | .seek k rd imm => Sys2Proof.Machine.execSeek k rd imm s
  | .rdrun k rd imm => Sys2Proof.Machine.execRdrun k rd imm s
  | .wrrun k rd imm => Sys2Proof.Machine.execWrrun k rd imm s
  | .verify k rd imm => Sys2Proof.Machine.execVerify k rd imm s
  | .mabort k rs => Sys2Proof.Machine.execMabort k rs s
  | .bld k rd rs imm => Sys2Proof.Machine.execBld k rd rs imm s
  | .bst k rd rs imm => Sys2Proof.Machine.execBst k rd rs imm s
  | .bld32 k rd rs imm => Sys2Proof.Machine.execBld32 k rd rs imm s
  | .bst32 k rd rs imm => Sys2Proof.Machine.execBst32 k rd rs imm s
  | .bin k rd rs imm => Sys2Proof.Machine.execBin k rd rs imm s
  | .bout k rd rs imm => Sys2Proof.Machine.execBout k rd rs imm s
  | .submit k rd rs => Sys2Proof.Machine.execSubmit k rd rs s
  | .await k rd rs imm => Sys2Proof.Machine.execAwait k rd rs imm s
  | .push k rs imm => Sys2Proof.Machine.execPush k rs imm s
  | .pop k rd imm bad => Sys2Proof.Machine.execPop k rd imm bad s
  | .spdrop k imm => Sys2Proof.Machine.execSpdrop k imm s
  | .slotStatus k rd rs => Sys2Proof.Machine.execSlotStatus k rd rs s
  | .complete k rd rs => Sys2Proof.Machine.execComplete k rd rs s
  | .hold k rs imm => Sys2Proof.Machine.execHold k rs imm s
  | .wait k rd rs imm => Sys2Proof.Machine.execWait k rd rs imm s
  | .spawn k rs imm => Sys2Proof.Machine.execSpawn k rs imm s
  | .yield k rd rs imm => Sys2Proof.Machine.execYield k rd rs imm s
  | .barrier k rd rs imm => Sys2Proof.Machine.execBarrier k rd rs imm s
  | .shtLoad value => Sys2Proof.Machine.execShtLoad value s
  | .shtLoadDone => Sys2Proof.Machine.execShtLoadDone s
  | .lsPortAccess write value => Sys2Proof.Machine.execLsPortAccess write value s
  | .patchLoad value sigOk tagOk blob => Sys2Proof.Machine.execPatchLoad value sigOk tagOk blob s
  | .loomInject value => Sys2Proof.Machine.execLoomInject value s
  | .loomPush e value => Sys2Proof.Machine.execLoomPush e value s
  | .loomTake c e => Sys2Proof.Machine.execLoomTake c e s
  | .loomBarArrive c b value => Sys2Proof.Machine.execLoomBarArrive c b value s
  | .barrierRelease b => Sys2Proof.Machine.execBarrierRelease b s
  | .barrierTimeout b => Sys2Proof.Machine.execBarrierTimeout b s
  | .loomBarCfgWrite b value => Sys2Proof.Machine.execLoomBarCfgWrite b value s
  | .loomBlockReset => Sys2Proof.Machine.execLoomBlockReset s
  | .doorbell p qid cq value => Sys2Proof.Machine.execDoorbell p qid cq value s
  | .fetch entries err => Sys2Proof.Machine.execFetch entries err s
  | .commandAcceptance info slot => Sys2Proof.Machine.execCommandAcceptance info slot s
  | .fusedWaitTimeout q entry => Sys2Proof.Machine.execFusedWaitTimeout q entry s
  | .sasCommandFrame port nexus tag attr cmd info slot => Sys2Proof.Machine.execSasCommandFrame port nexus tag attr cmd info slot s
  | .dispatch slot => Sys2Proof.Machine.execDispatch slot s
  | .dispatchRetry => Sys2Proof.Machine.execDispatchRetry s
  | .budgetReservation slot addr => Sys2Proof.Machine.execBudgetReservation slot addr s
  | .landed slot res data => Sys2Proof.Machine.execLanded slot res data s
  | .completionPost slot => Sys2Proof.Machine.execCompletionPost slot s
  | .glySlotStatus c value => Sys2Proof.Machine.execGlySlotStatus c value s
  | .glyComplete c value => Sys2Proof.Machine.execGlyComplete c value s
  | .holdAdd c value => Sys2Proof.Machine.execHoldAdd c value s
  | .holdRelease c value => Sys2Proof.Machine.execHoldRelease c value s
  | .lookup c value => Sys2Proof.Machine.execLookup c value s
  | .begin c value => Sys2Proof.Machine.execBegin c value s
  | .endOk c value => Sys2Proof.Machine.execEndOk c value s
  | .endFail c value => Sys2Proof.Machine.execEndFail c value s
  | .pin c value => Sys2Proof.Machine.execPin c value s
  | .nvmeAbort p entry sqid cid => Sys2Proof.Machine.execNvmeAbort p entry sqid cid s
  | .abortTask port nexus lun tag => Sys2Proof.Machine.execAbortTask port nexus lun tag s
  | .abortTaskSet port nexus lun => Sys2Proof.Machine.execAbortTaskSet port nexus lun s
  | .clearTaskSet port lun => Sys2Proof.Machine.execClearTaskSet port lun s
  | .controllerReset p lun => Sys2Proof.Machine.execControllerReset p lun s
  | .resetDoneReport value => Sys2Proof.Machine.execResetDoneReport value s
  | .drain => Sys2Proof.Machine.execDrain s
  | .drainInterrupt => Sys2Proof.Machine.execDrainInterrupt s
  | .drainTimeout => Sys2Proof.Machine.execDrainTimeout s
  | .asnFloor value => Sys2Proof.Machine.execAsnFloor value s
  | .budgetWrite value => Sys2Proof.Machine.execBudgetWrite value s
  | .linkTrained p speed width => Sys2Proof.Machine.execLinkTrained p speed width s
  | .smbusTransaction addr pecOk last msg => Sys2Proof.Machine.execSmbusTransaction addr pecOk last msg s
  | .tempSample ctrl pwr => Sys2Proof.Machine.execTempSample ctrl pwr s
  | .mgtBlockReset => Sys2Proof.Machine.execMgtBlockReset s
  | .hfeBlockReset => Sys2Proof.Machine.execHfeBlockReset s
  | .dramReady ok twoRanks => Sys2Proof.Machine.execDramReady ok twoRanks s
  | .scrubVisit kind block addr found => Sys2Proof.Machine.execScrubVisit kind block addr found s
  | .scrubLapComplete => Sys2Proof.Machine.execScrubLapComplete s
  | .scrubSlow => Sys2Proof.Machine.execScrubSlow s
  | .cacheEnableWrite value => Sys2Proof.Machine.execCacheEnableWrite value s
  | .scratchConvert value => Sys2Proof.Machine.execScratchConvert value s
  | .scratchDone => Sys2Proof.Machine.execScratchDone s
  | .clean value => Sys2Proof.Machine.execClean value s
  | .invalidate value => Sys2Proof.Machine.execInvalidate value s
  | .cleanInv value => Sys2Proof.Machine.execCleanInv value s
  | .cleanInvLocked value => Sys2Proof.Machine.execCleanInvLocked value s
  | .loadWay value => Sys2Proof.Machine.execLoadWay value s
  | .rangeOpDone => Sys2Proof.Machine.execRangeOpDone s
  | .evictionWritebackDone line => Sys2Proof.Machine.execEvictionWritebackDone line s
  | .cboClean c addr => Sys2Proof.Machine.execCboClean c addr s
  | .cboFlush c addr => Sys2Proof.Machine.execCboFlush c addr s
  | .cboInval c addr => Sys2Proof.Machine.execCboInval c addr s
  | .descriptorQueue n value => Sys2Proof.Machine.execDescriptorQueue n value s
  | .descriptorFetch n => Sys2Proof.Machine.execDescriptorFetch n s
  | .beatGrant e => Sys2Proof.Machine.execBeatGrant e s
  | .readResponse n res data => Sys2Proof.Machine.execReadResponse n res data s
  | .writeResponse n res => Sys2Proof.Machine.execWriteResponse n res s
  | .descriptorDone n => Sys2Proof.Machine.execDescriptorDone n s
  | .channelEnable n value => Sys2Proof.Machine.execChannelEnable n value s
  | .channelDisable n value => Sys2Proof.Machine.execChannelDisable n value s
  | .pause n value => Sys2Proof.Machine.execPause n value s
  | .channelClear n value => Sys2Proof.Machine.execChannelClear n value s
  | .channelRetry n value => Sys2Proof.Machine.execChannelRetry n value s
  | .dmaBlockReset e => Sys2Proof.Machine.execDmaBlockReset e s
  | .splFwPush c k value => Sys2Proof.Machine.execSplFwPush c k value s
  | .splFwPushLast c k value => Sys2Proof.Machine.execSplFwPushLast c k value s
  | .splFwPop c k bad => Sys2Proof.Machine.execSplFwPop c k bad s
  | .dropPkt c k value => Sys2Proof.Machine.execDropPkt c k value s
  | .flush k => Sys2Proof.Machine.execFlush k s
  | .spoolConfigWrite k value => Sys2Proof.Machine.execSpoolConfigWrite k value s
  | .closingWord k => Sys2Proof.Machine.execClosingWord k s
  | .splBlockReset => Sys2Proof.Machine.execSplBlockReset s
  | .fltEnable value => Sys2Proof.Machine.execFltEnable value s
  | .fltInitDone usable geom grades rootOk => Sys2Proof.Machine.execFltInitDone usable geom grades rootOk s
  | .tierCommandFetch => Sys2Proof.Machine.execTierCommandFetch s
  | .write k stripe dies wait => Sys2Proof.Machine.execWrite k stripe dies wait s
  | .read k bad => Sys2Proof.Machine.execRead k bad s
  | .trim k => Sys2Proof.Machine.execTrim k s
  | .releaseImage k => Sys2Proof.Machine.execReleaseImage k s
  | .format k => Sys2Proof.Machine.execFormat k s
  | .tierCommandDone k => Sys2Proof.Machine.execTierCommandDone k s
  | .nandOpDone op die block usec slc ok stripe lost => Sys2Proof.Machine.execNandOpDone op die block usec slc ok stripe lost s
  | .stripeVerify stripe failing lost => Sys2Proof.Machine.execStripeVerify stripe failing lost s
  | .dieLost die lost => Sys2Proof.Machine.execDieLost die lost s
  | .fold srcs dest dies => Sys2Proof.Machine.execFold srcs dest dies s
  | .garbageCollection victim dest dies => Sys2Proof.Machine.execGarbageCollection victim dest dies s
  | .retireCommit => Sys2Proof.Machine.execRetireCommit s
  | .coreRun c value => Sys2Proof.Machine.execCoreRun c value s
  | .coreHold c value => Sys2Proof.Machine.execCoreHold c value s
  | .semaphoreRead e n => Sys2Proof.Machine.execSemaphoreRead e n s
  | .semaphoreRelease e n value => Sys2Proof.Machine.execSemaphoreRelease e n value s
  | .ipiSet value => Sys2Proof.Machine.execIpiSet value s
  | .timerInterrupt c => Sys2Proof.Machine.execTimerInterrupt c s
  | .weaveXor lines => Sys2Proof.Machine.execWeaveXor lines s
  | .check lines => Sys2Proof.Machine.execCheck lines s
  | .compare lines => Sys2Proof.Machine.execCompare lines s
  | .scan records => Sys2Proof.Machine.execScan records s
  | .oflCommandDone carder => Sys2Proof.Machine.execOflCommandDone carder s
  | .oflBlockReset => Sys2Proof.Machine.execOflBlockReset s
  | .faultMessage noise => Sys2Proof.Machine.execFaultMessage noise s
  | .fatalLine => Sys2Proof.Machine.execFatalLine s
  | .fclSwRaise writer msg => Sys2Proof.Machine.execFclSwRaise writer msg s
  | .fclSwSet value => Sys2Proof.Machine.execFclSwSet value s
  | .pendingClear k value => Sys2Proof.Machine.execPendingClear k value s
  | .fclClaim c => Sys2Proof.Machine.execFclClaim c s
  | .safeEnter writer value => Sys2Proof.Machine.execSafeEnter writer value s
  | .selfCheckSweep found off => Sys2Proof.Machine.execSelfCheckSweep found off s
  | .evrFwRecord c value => Sys2Proof.Machine.execEvrFwRecord c value s
  | .ringDrain => Sys2Proof.Machine.execRingDrain s
  | .tokenRefill n => Sys2Proof.Machine.execTokenRefill n s
  | .pagePersist page => Sys2Proof.Machine.execPagePersist page s
  | .pageWriteDone page ok => Sys2Proof.Machine.execPageWriteDone page ok s
  | .evrEnable value => Sys2Proof.Machine.execEvrEnable value s
  | .evrLoadDone => Sys2Proof.Machine.execEvrLoadDone s
  | .evrDirtyRead k => Sys2Proof.Machine.execEvrDirtyRead k s
  | .evrRateWrite n value => Sys2Proof.Machine.execEvrRateWrite n value s
  | .getState => Sys2Proof.Machine.execGetState s
  | .getNonce => Sys2Proof.Machine.execGetNonce s
  | .getSessionKey => Sys2Proof.Machine.execGetSessionKey s
  | .provision serial pub wrapped sig => Sys2Proof.Machine.execProvision serial pub wrapped sig s
  | .burnRoots roots hda admin => Sys2Proof.Machine.execBurnRoots roots hda admin s
  | .reset => Sys2Proof.Machine.execReset s
  | .chunk value => Sys2Proof.Machine.execChunk value s
  | .commit value => Sys2Proof.Machine.execCommit value s
  | .commitDone ok => Sys2Proof.Machine.execCommitDone ok s
  | .abort value => Sys2Proof.Machine.execAbort value s
  | .stagingIdleTimeout => Sys2Proof.Machine.execStagingIdleTimeout s
  | .warmRestart => Sys2Proof.Machine.execWarmRestart s
  | .confirm => Sys2Proof.Machine.execConfirm s
  | .fail => Sys2Proof.Machine.execFail s
  | .trialTimeout => Sys2Proof.Machine.execTrialTimeout s
  | .trialTimerWarning => Sys2Proof.Machine.execTrialTimerWarning s
  | .genkey value => Sys2Proof.Machine.execGenkey value s
  | .unlock value => Sys2Proof.Machine.execUnlock value s
  | .lock value => Sys2Proof.Machine.execLock value s
  | .rewrap value => Sys2Proof.Machine.execRewrap value s
  | .lifecycleTransition value => Sys2Proof.Machine.execLifecycleTransition value s
  | .repair value => Sys2Proof.Machine.execRepair value s
  | .secNonceRead => Sys2Proof.Machine.execSecNonceRead s
  | .otpBurn value => Sys2Proof.Machine.execOtpBurn value s
  | .sign value => Sys2Proof.Machine.execSign value s
  | .rangeWrite n value => Sys2Proof.Machine.execRangeWrite n value s
  | .calRequest value => Sys2Proof.Machine.execCalRequest value s
  | .calStart owner => Sys2Proof.Machine.execCalStart owner s
  | .backgroundCalibration lane => Sys2Proof.Machine.execBackgroundCalibration lane s
  | .calRunDone item first second spare => Sys2Proof.Machine.execCalRunDone item first second spare s
  | .calTimeout item => Sys2Proof.Machine.execCalTimeout item s
  | .calBlockReset => Sys2Proof.Machine.execCalBlockReset s
  | .pfltNRelease a => Sys2Proof.Machine.execPfltNRelease a s
  | .ccEnSet p en => Sys2Proof.Machine.execCcEnSet p en s
  | .xtalStartTimeout => Sys2Proof.Machine.execXtalStartTimeout s
  | .trialFailReset => Sys2Proof.Machine.execTrialFailReset s

end Sys2Proof.Machine
end

