-- ==== Sys2Proof/Machine/Tick.lean ====
section
/-!
DEFINITION. The passing of time: what one period of the 25 MHz crystal does when no command waits.
-/

namespace Sys2Proof.Machine

/-- Some actuator's heat mode applies a non-zero heat code (R155, life counter 2). -/
def heaterOn (s : State) : Bool :=
  (List.range s.part.acts).any (fun a => decide ((wrpOf s a).heat ≠ .off ∧ (wrpOf s a).heatCode ≠ 0))

/-- Some write gate is high with a non-zero assist code (R155, life counter 1). -/
def assistOn (s : State) : Bool :=
  (List.range s.part.acts).any (fun a => (hdlOf s a).wg && decide ((wrpOf s a).assistCode ≠ 0))

/-- The life counters of time gain a millisecond of what runs (R57, R155); their unit is a second. -/
def lifeMs (s : State) : State :=
  let t := when (assistOn s) (fun u => lifePart u 1 1000 1) s
  let t := when (paired s && heaterOn s) (fun u => lifePart u 2 1000 1) t
  when (paired s) (fun u => lifePart u 4 1000 1) t

/-- A crystal period of drive time (R15): 25,000 of them are a millisecond. -/
def drivePeriod (s : State) : State :=
  if s.ckr.sub + 1 < 25000 then { s with ckr := { s.ckr with sub := s.ckr.sub + 1 } }
  else lifeMs { s with ckr := { s.ckr with sub := 0, dtime := min (s.ckr.dtime + 1) (2 ^ 48 - 1) } }

/-- A crystal period of the counts that run from chip reset: SVC_MTIME (R517) and the time behind TIME (R276). A sector
whose write can begin does (R149). -/
def countPeriod (s : State) : State :=
  let t := wr { s with ckr := { s.ckr with up := s.ckr.up + 1 } } .SVC_MTIME 0 (rd s .SVC_MTIME 0 + 1#64)
  each (List.range t.part.acts) (fun a u => beginSector u a) t

/-- One period of the crystal: nothing without power; drive time stands while the die is in power-on reset (R15), and the
counts of chip reset while one is in progress. -/
def tick (s : State) : State :=
  let t := if s.ckr.dead || s.ckr.por then s else drivePeriod s
  if s.ckr.dead || s.ckr.inReset then t else countPeriod t

end Sys2Proof.Machine
end

