-- ==== Sys2Proof/WellFormed.lean ====
section
/-!
DEFINITION. Which commands can occur at all: each operand within the range of what it names (R1, R3, R27 and the encodings of
the rules the constructors cite). An instance of an absent unit is within range: the commands that name one answer as R3 and
R4 say.
-/

namespace Sys2Proof

/-- The samples of sixteen bit times: at most 18 slices a lane, each a signed sample of 7 bits (R68). -/
def spanOk (x : AdcSpan) : Bool :=
  decide (x.lead.length ≤ 18 ∧ x.trail.length ≤ 18) &&
    (x.lead ++ x.trail).all (fun v => decide (-64 ≤ v ∧ v < 64))

/-- A host command names a format of Table 10.4 and a protection information type of 2 bits (R387). -/
def infoOk (x : CmdInfo) : Bool := decide (x.lbaf ≤ 2 ∧ x.pi ≤ 3)

/-- A command's operands are within their ranges: actuators 0 to 3, Shuttles 0 to 23, Coava register fields of 4 bits and
immediates of 16, engine indices 0 to 39 (40: a Bobbin descriptor), and so on by the register or table that numbers them. -/
def wellFormed (i : Instr) : Bool :=
  match i with
  | .registerWrite e addr bytes _ => decide (e ≤ 40 ∧ addr < 2 ^ 40 ∧ (bytes = 4 ∨ bytes = 8))
  | .undecodedAccess e addr bytes _ => decide (e ≤ 40 ∧ addr < 2 ^ 64 ∧ (0 < bytes ∧ bytes ≤ 64))
  | .powerOn _ => true
  | .railFault k => decide (k < 9)
  | .xtalFault => true
  | .pllLockLoss n => decide (n < 10)
  | .rstNAssert => true
  | .chipReset => true
  | .resetRelease _ _ => true
  | .otpRead _ => true
  | .boot => true
  | .vinLoss => true
  | .flushCommit => true
  | .quiesceLogic _ => true
  | .vinReturn => true
  | .holdUpEnd => true
  | .timeStoreWrite => true
  | .linkLoss => true
  | .retractEnd => true
  | .fwReadyWrite _ => true
  | .shutdown => true
  | .pspFrameLaunch a _ => decide (a < 4)
  | .pspFrameEnd a rdata => decide (a < 4 ∧ rdata < 65536)
  | .preampFault a => decide (a < 4)
  | .headmapLock _ => true
  | .headSwitchRequest a head => decide (a < 4 ∧ head < 32)
  | .headSwitchDone a => decide (a < 4)
  | .tagAuthentication => true
  | .tagResponse _ _ => true
  | .tagNoResponse => true
  | .tagRetry => true
  | .tagRepair _ => true
  | .lifeCommit _ => true
  | .lifeCommitTimer => true
  | .hdlBlockReset => true
  | .laneRateWrite a rate => decide (a < 4 ∧ rate < 65536)
  | .rateLocked a => decide (a < 4)
  | .sectorPreambleStart a _ spans _ => decide (a < 4 ∧ spans.before.all spanOk ∧ spans.preamble.all spanOk)
  | .acquireEnd a spans => decide (a < 4 ∧ spans.all spanOk)
  | .markADecision a preamble window => decide (a < 4 ∧ preamble.all spanOk ∧ window.all spanOk)
  | .markBDecision a preamble window codeword trailer => decide (a < 4 ∧ preamble.all spanOk ∧ window.all spanOk ∧ codeword.all spanOk ∧ trailer.all spanOk)
  | .spliceGapEnd p => decide (p.act < 4 ∧ p.spans.all spanOk)
  | .pairSlip p _ => decide (p.act < 4 ∧ p.spans.all spanOk)
  | .flaggedSpanOverrun p => decide (p.act < 4 ∧ p.spans.all spanOk)
  | .retainPin a slot _ => decide (a < 4 ∧ slot < 4)
  | .retainUnpin a slot _ => decide (a < 4 ∧ slot < 4)
  | .replayRequest a _ => decide (a < 4)
  | .replayStart a => decide (a < 4)
  | .replayDone a _ _ _ => decide (a < 4)
  | .laneBlockReset a => decide (a < 4)
  | .trailerArrival a _ _ => decide (a < 4)
  | .decoderSelect decoders _ => decoders.all (fun d => decide (d < 12))
  | .decodeConverged d _ data => decide (d < 12 ∧ data.length = 4112)
  | .decodeCap d => decide (d < 12)
  | .earlyPin d => decide (d < 12)
  | .decodeYield d _ => decide (d < 12)
  | .writebackDone a _ _ => decide (a < 4)
  | .decodeDeadline a _ => decide (a < 4)
  | .entryUrgent a _ => decide (a < 4)
  | .recoveryJobAged a _ => decide (a < 4)
  | .recoveryTimeout a _ => decide (a < 4)
  | .dcpCplRead a => decide (a < 4)
  | .dcpSubmit a _ => decide (a < 4)
  | .decoderMemoryError d => decide (d < 12)
  | .dcpBlockReset => true
  | .sectorFetchDone a _ _ => decide (a < 4)
  | .dataLate a => decide (a < 4)
  | .preheatSlip a => decide (a < 4)
  | .wgRise g => decide (g.act < 4)
  | .sectorWritten a => decide (a < 4)
  | .writeRunEnd a => decide (a < 4)
  | .wrpBlockReset => true
  | .pesSample a newer older _ _ _ _ => decide (a < 4 ∧ newer.all (fun x => decide (-512 ≤ x ∧ x < 512)) ∧ older.all (fun x => decide (-512 ≤ x ∧ x < 512)))
  | .toneLock a => decide (a < 4)
  | .stripeCrossing a _ _ => decide (a < 4)
  | .identityFrame a symbols _ => decide (a < 4 ∧ symbols < 2 ^ 64)
  | .svgBlockReset a => decide (a < 4)
  | .lawTick n ain => decide (n < 5 ∧ ain < 4096)
  | .settleCriteriaMet a => decide (a < 4)
  | .offTrackClear a => decide (a < 4)
  | .residualFail a => decide (a < 4)
  | .coastMaxReached a => decide (a < 4)
  | .loadStripeFound a => decide (a < 4)
  | .loadTimeout a => decide (a < 4)
  | .acquireTimeout a => decide (a < 4)
  | .settleTimeout a => decide (a < 4)
  | .holdTimeout a => decide (a < 4)
  | .unloadDriveEnd a => decide (a < 4)
  | .parkHoldEnd a => decide (a < 4)
  | .cteSeek a _ => decide (a < 4)
  | .load a => decide (a < 4)
  | .park a => decide (a < 4)
  | .resume a => decide (a < 4)
  | .extEnable _ => true
  | .cteBlockReset => true
  | .start => true
  | .stop => true
  | .clear => true
  | .setSpeedWrite _ => true
  | .bemfCrossing _ sector _ => decide (sector < 6)
  | .predictedCrossing => true
  | .crossingWindowTimeout => true
  | .senseEnd _ _ => true
  | .brakeRevEnd => true
  | .brakeRevTimeout => true
  | .brakeSettleEnd => true
  | .alignEnd => true
  | .rampTimeout => true
  | .catchTimeout => true
  | .spinupTimeout => true
  | .brakeEnd => true
  | .atSpeedChange => true
  | .spsyncEdge _ _ => true
  | .syncFree => true
  | .spnBlockReset => true
  | .vmLow _ => true
  | .vmOkRise _ => true
  | .clampOn _ => true
  | .clampOff _ => true
  | .vmTrip _ => true
  | .chopOpen _ => true
  | .chopStuck _ => true
  | .thermalWarning temp => decide (temp < 1024)
  | .thermalShutdown temp => decide (temp < 1024)
  | .vcmShort a => decide (a < 4)
  | .boostFault => true
  | .boostOk => true
  | .pwsFaultClear _ => true
  | .pwsBlockReset => true
  | .shuttleEnable k => decide (k < 24)
  | .shuttleReset k => decide (k < 24)
  | .shuttleDisable k => decide (k < 24)
  | .shuttleResume k => decide (k < 24)
  | .shtBlockReset => true
  | .taskTake k => decide (k < 24)
  | .trap k cause _ => decide (k < 24 ∧ cause < 16)
  | .taskTimeout k => decide (k < 24)
  | .stallRelease k tag => decide (k < 24 ∧ tag ≤ 9)
  | .waitEvent k => decide (k < 24)
  | .waitTimeout k => decide (k < 24)
  | .frameReady k f _ => decide (k < 24 ∧ f < 4)
  | .mediaOpComplete k tag => decide (k < 24 ∧ tag < 9)
  | .mediaTimeout k tag => decide (k < 24 ∧ tag < 9)
  | .nop k => decide (k < 24)
  | .halt k => decide (k < 24)
  | .b k imm => decide (k < 24 ∧ imm < 65536)
  | .bz k rs imm => decide (k < 24 ∧ rs < 16 ∧ imm < 65536)
  | .bnz k rs imm => decide (k < 24 ∧ rs < 16 ∧ imm < 65536)
  | .beq k rd rs imm => decide (k < 24 ∧ rd < 16 ∧ rs < 16 ∧ imm < 65536)
  | .bne k rd rs imm => decide (k < 24 ∧ rd < 16 ∧ rs < 16 ∧ imm < 65536)
  | .blt k rd rs imm => decide (k < 24 ∧ rd < 16 ∧ rs < 16 ∧ imm < 65536)
  | .bge k rd rs imm => decide (k < 24 ∧ rd < 16 ∧ rs < 16 ∧ imm < 65536)
  | .bltu k rd rs imm => decide (k < 24 ∧ rd < 16 ∧ rs < 16 ∧ imm < 65536)
  | .bgeu k rd rs imm => decide (k < 24 ∧ rd < 16 ∧ rs < 16 ∧ imm < 65536)
  | .bls k rd imm => decide (k < 24 ∧ rd < 16 ∧ imm < 65536)
  | .call k rd imm => decide (k < 24 ∧ rd < 16 ∧ imm < 65536)
  | .ret k rs => decide (k < 24 ∧ rs < 16)
  | .mov k rd rs => decide (k < 24 ∧ rd < 16 ∧ rs < 16)
  | .add k rd rs => decide (k < 24 ∧ rd < 16 ∧ rs < 16)
  | .sub k rd rs => decide (k < 24 ∧ rd < 16 ∧ rs < 16)
  | .and k rd rs => decide (k < 24 ∧ rd < 16 ∧ rs < 16)
  | .or k rd rs => decide (k < 24 ∧ rd < 16 ∧ rs < 16)
  | .xor k rd rs => decide (k < 24 ∧ rd < 16 ∧ rs < 16)
  | .shl k rd rs => decide (k < 24 ∧ rd < 16 ∧ rs < 16)
  | .shr k rd rs => decide (k < 24 ∧ rd < 16 ∧ rs < 16)
  | .sar k rd rs => decide (k < 24 ∧ rd < 16 ∧ rs < 16)
  | .mul k rd rs => decide (k < 24 ∧ rd < 16 ∧ rs < 16)
  | .getls k rd => decide (k < 24 ∧ rd < 16)
  | .time k rd => decide (k < 24 ∧ rd < 16)
  | .ldi k rd imm => decide (k < 24 ∧ rd < 16 ∧ imm < 65536)
  | .movk k rd rs imm => decide (k < 24 ∧ rd < 16 ∧ rs < 16 ∧ imm < 65536)
  | .addi k rd rs imm => decide (k < 24 ∧ rd < 16 ∧ rs < 16 ∧ imm < 65536)
  | .andi k rd rs imm => decide (k < 24 ∧ rd < 16 ∧ rs < 16 ∧ imm < 65536)
  | .ori k rd rs imm => decide (k < 24 ∧ rd < 16 ∧ rs < 16 ∧ imm < 65536)
  | .xori k rd rs imm => decide (k < 24 ∧ rd < 16 ∧ rs < 16 ∧ imm < 65536)
  | .shli k rd rs imm => decide (k < 24 ∧ rd < 16 ∧ rs < 16 ∧ imm < 65536)
  | .shri k rd rs imm => decide (k < 24 ∧ rd < 16 ∧ rs < 16 ∧ imm < 65536)
  | .sari k rd rs imm => decide (k < 24 ∧ rd < 16 ∧ rs < 16 ∧ imm < 65536)
  | .extr k rd rs imm => decide (k < 24 ∧ rd < 16 ∧ rs < 16 ∧ imm < 65536)
  | .ld k rd rs imm => decide (k < 24 ∧ rd < 16 ∧ rs < 16 ∧ imm < 65536)
  | .st k rd rs imm => decide (k < 24 ∧ rd < 16 ∧ rs < 16 ∧ imm < 65536)
  | .ld32 k rd rs imm => decide (k < 24 ∧ rd < 16 ∧ rs < 16 ∧ imm < 65536)
  | .st32 k rd rs imm => decide (k < 24 ∧ rd < 16 ∧ rs < 16 ∧ imm < 65536)
  | .seek k rd imm => decide (k < 24 ∧ rd < 16 ∧ imm < 65536)
  | .rdrun k rd imm => decide (k < 24 ∧ rd < 16 ∧ imm < 65536)
  | .wrrun k rd imm => decide (k < 24 ∧ rd < 16 ∧ imm < 65536)
  | .verify k rd imm => decide (k < 24 ∧ rd < 16 ∧ imm < 65536)
  | .mabort k rs => decide (k < 24 ∧ rs < 16)
  | .bld k rd rs imm => decide (k < 24 ∧ rd < 16 ∧ rs < 16 ∧ imm < 65536)
  | .bst k rd rs imm => decide (k < 24 ∧ rd < 16 ∧ rs < 16 ∧ imm < 65536)
  | .bld32 k rd rs imm => decide (k < 24 ∧ rd < 16 ∧ rs < 16 ∧ imm < 65536)
  | .bst32 k rd rs imm => decide (k < 24 ∧ rd < 16 ∧ rs < 16 ∧ imm < 65536)
  | .bin k rd rs imm => decide (k < 24 ∧ rd < 16 ∧ rs < 16 ∧ imm < 65536)
  | .bout k rd rs imm => decide (k < 24 ∧ rd < 16 ∧ rs < 16 ∧ imm < 65536)
  | .submit k rd rs => decide (k < 24 ∧ rd < 16 ∧ rs < 16)
  | .await k rd rs imm => decide (k < 24 ∧ rd < 16 ∧ rs < 16 ∧ imm < 65536)
  | .push k rs imm => decide (k < 24 ∧ rs < 16 ∧ imm < 65536)
  | .pop k rd imm _ => decide (k < 24 ∧ rd < 16 ∧ imm < 65536)
  | .spdrop k imm => decide (k < 24 ∧ imm < 65536)
  | .slotStatus k rd rs => decide (k < 24 ∧ rd < 16 ∧ rs < 16)
  | .complete k rd rs => decide (k < 24 ∧ rd < 16 ∧ rs < 16)
  | .hold k rs imm => decide (k < 24 ∧ rs < 16 ∧ imm < 65536)
  | .wait k rd rs imm => decide (k < 24 ∧ rd < 16 ∧ rs < 16 ∧ imm < 65536)
  | .spawn k rs imm => decide (k < 24 ∧ rs < 16 ∧ imm < 65536)
  | .yield k rd rs imm => decide (k < 24 ∧ rd < 16 ∧ rs < 16 ∧ imm < 65536)
  | .barrier k rd rs imm => decide (k < 24 ∧ rd < 16 ∧ rs < 16 ∧ imm < 65536)
  | .shtLoad _ => true
  | .shtLoadDone => true
  | .lsPortAccess _ _ => true
  | .patchLoad _ _ _ _ => true
  | .loomInject _ => true
  | .loomPush e _ => decide (e < 40)
  | .loomTake c e => decide (c < 16 ∧ e < 40)
  | .loomBarArrive c b _ => decide (c < 16 ∧ b < 16)
  | .barrierRelease b => decide (b < 16)
  | .barrierTimeout b => decide (b < 16)
  | .loomBarCfgWrite b _ => decide (b < 16)
  | .loomBlockReset => true
  | .doorbell p qid _ value => decide (p < 2 ∧ qid < 65536 ∧ value < 65536)
  | .fetch entries _ => entries.all (fun x => decide (x.length = 8))
  | .commandAcceptance info slot => decide (infoOk info ∧ slot < 8192)
  | .fusedWaitTimeout q entry => decide (q < 65536 ∧ entry.length = 8)
  | .sasCommandFrame port _ tag attr cmd info slot => decide (port < 2 ∧ tag < 65536 ∧ attr < 3 ∧ cmd.length = 8 ∧ infoOk info ∧ slot < 8192)
  | .dispatch slot => decide (slot < 8192)
  | .dispatchRetry => true
  | .budgetReservation slot addr => decide (slot < 8192 ∧ (addr < 2 ^ 40 ∧ addr % 4096 = 0))
  | .landed slot res _ => decide (slot < 8192 ∧ res < 6)
  | .completionPost slot => decide (slot < 8192)
  | .glySlotStatus c _ => decide (c < 16)
  | .glyComplete c _ => decide (c < 16)
  | .holdAdd c _ => decide (c < 16)
  | .holdRelease c _ => decide (c < 16)
  | .lookup c _ => decide (c < 16)
  | .begin c _ => decide (c < 16)
  | .endOk c _ => decide (c < 16)
  | .endFail c _ => decide (c < 16)
  | .pin c _ => decide (c < 16)
  | .nvmeAbort p entry sqid cid => decide (p < 2 ∧ entry.length = 8 ∧ sqid < 65536 ∧ cid < 65536)
  | .abortTask port _ _ tag => decide (port < 2 ∧ tag < 65536)
  | .abortTaskSet port _ _ => decide (port < 2)
  | .clearTaskSet port _ => decide (port < 2)
  | .controllerReset p _ => decide (p < 2)
  | .resetDoneReport _ => true
  | .drain => true
  | .drainInterrupt => true
  | .drainTimeout => true
  | .asnFloor _ => true
  | .budgetWrite _ => true
  | .linkTrained p _ _ => decide (p < 2)
  | .smbusTransaction addr _ _ _ => decide (addr < 128)
  | .tempSample ctrl pwr => decide (ctrl < 1024 ∧ pwr < 1024)
  | .mgtBlockReset => true
  | .hfeBlockReset => true
  | .dramReady _ _ => true
  | .scrubVisit kind block addr found => decide (kind < 6 ∧ block < 25 ∧ addr < 2 ^ 40 ∧ found < 4)
  | .scrubLapComplete => true
  | .scrubSlow => true
  | .cacheEnableWrite _ => true
  | .scratchConvert _ => true
  | .scratchDone => true
  | .clean _ => true
  | .invalidate _ => true
  | .cleanInv _ => true
  | .cleanInvLocked _ => true
  | .loadWay _ => true
  | .rangeOpDone => true
  | .evictionWritebackDone _ => true
  | .cboClean c addr => decide (c < 16 ∧ addr < 2 ^ 40)
  | .cboFlush c addr => decide (c < 16 ∧ addr < 2 ^ 40)
  | .cboInval c addr => decide (c < 16 ∧ addr < 2 ^ 40)
  | .descriptorQueue n _ => decide (n < 64)
  | .descriptorFetch n => decide (n < 64)
  | .beatGrant e => decide (e < 4)
  | .readResponse n res _ => decide (n < 64 ∧ res < 6)
  | .writeResponse n res => decide (n < 64 ∧ res < 6)
  | .descriptorDone n => decide (n < 64)
  | .channelEnable n _ => decide (n < 64)
  | .channelDisable n _ => decide (n < 64)
  | .pause n _ => decide (n < 64)
  | .channelClear n _ => decide (n < 64)
  | .channelRetry n _ => decide (n < 64)
  | .dmaBlockReset e => decide (e < 4)
  | .splFwPush c k _ => decide (c < 16 ∧ k < 32)
  | .splFwPushLast c k _ => decide (c < 16 ∧ k < 32)
  | .splFwPop c k _ => decide (c < 16 ∧ k < 32)
  | .dropPkt c k _ => decide (c < 16 ∧ k < 32)
  | .flush k => decide (k < 32)
  | .spoolConfigWrite k _ => decide (k < 32)
  | .closingWord k => decide (k < 32)
  | .splBlockReset => true
  | .fltEnable _ => true
  | .fltInitDone _ _ _ _ => true
  | .tierCommandFetch => true
  | .write k _ _ _ => decide (k < 64)
  | .read k _ => decide (k < 64)
  | .trim k => decide (k < 64)
  | .releaseImage k => decide (k < 64)
  | .format k => decide (k < 64)
  | .tierCommandDone k => decide (k < 64)
  | .nandOpDone op die _ _ _ _ _ _ => decide (op < 4 ∧ die < 64)
  | .stripeVerify _ _ _ => true
  | .dieLost die _ => decide (die < 64)
  | .fold _ _ _ => true
  | .garbageCollection _ _ _ => true
  | .retireCommit => true
  | .coreRun c _ => decide (c < 16)
  | .coreHold c _ => decide (c < 16)
  | .semaphoreRead e n => decide (e < 40 ∧ n < 64)
  | .semaphoreRelease e n _ => decide (e < 40 ∧ n < 64)
  | .ipiSet _ => true
  | .timerInterrupt c => decide (c < 16)
  | .weaveXor _ => true
  | .check _ => true
  | .compare _ => true
  | .scan _ => true
  | .oflCommandDone _ => true
  | .oflBlockReset => true
  | .faultMessage _ => true
  | .fatalLine => true
  | .fclSwRaise writer _ => decide (writer ≤ 40)
  | .fclSwSet _ => true
  | .pendingClear k _ => decide (k < 32)
  | .fclClaim c => decide (c < 16)
  | .safeEnter writer _ => decide (writer ≤ 40)
  | .selfCheckSweep _ _ => true
  | .evrFwRecord c _ => decide (c < 16)
  | .ringDrain => true
  | .tokenRefill n => decide (n < 1024)
  | .pagePersist page => decide (page < 1024)
  | .pageWriteDone page _ => decide (page < 1024)
  | .evrEnable _ => true
  | .evrLoadDone => true
  | .evrDirtyRead k => decide (k < 16)
  | .evrRateWrite n _ => decide (n < 1024)
  | .getState => true
  | .getNonce => true
  | .getSessionKey => true
  | .provision _ _ _ _ => true
  | .burnRoots _ _ _ => true
  | .reset => true
  | .chunk _ => true
  | .commit _ => true
  | .commitDone _ => true
  | .abort _ => true
  | .stagingIdleTimeout => true
  | .warmRestart => true
  | .confirm => true
  | .fail => true
  | .trialTimeout => true
  | .trialTimerWarning => true
  | .genkey _ => true
  | .unlock _ => true
  | .lock _ => true
  | .rewrap _ => true
  | .lifecycleTransition _ => true
  | .repair _ => true
  | .secNonceRead => true
  | .otpBurn _ => true
  | .sign _ => true
  | .rangeWrite n _ => decide (n < 129)
  | .calRequest _ => true
  | .calStart owner => decide (owner < 5)
  | .backgroundCalibration lane => decide (lane < 8)
  | .calRunDone item _ _ _ => decide (item < 1600)
  | .calTimeout item => decide (item < 1600)
  | .calBlockReset => true
  | .pfltNRelease a => decide (a < 4)
  | .ccEnSet p _ => decide (p < 2)
  | .xtalStartTimeout => true
  | .trialFailReset => true

end Sys2Proof
end

