-- ==== Sys2Proof/Safety.lean ====
section
/-!
DEFINITION. What counts as a sound state, in the terms the claims use.
-/

namespace Sys2Proof.Machine

/-- The register store and memory are in canonical form: keys strictly rising, and no entry that equals what an unlisted key
reads. Equal machines are then equal data. -/
def Inv (s : State) : Prop := Memory.wf s.mem ∧ tabWf (regDefault s.part) s.regs

/-- A command ends in a next state that satisfies a property. -/
def Ends (c : Instr) (s : State) (p : State → Prop) : Prop := ∃ t, exec c s = .next t ∧ p t

/-- Everything a command outside a unit leaves alone: memory reads as before, and so does every register outside the blocks
named. -/
def Leaves (bs : List Block) (s t : State) : Prop :=
  (∀ a, readByte t a = readByte s a) ∧
  (∀ (r : Reg) (i : Nat), r.info.block ∉ bs → rd t r i = rd s r i)

/-- Shuttle k retired an instruction that gave a register the value v: the register (w0 but for it), the PC one instruction
on, and nothing else of the machine is changed. -/
def Wrote (s t : State) (k rd : Nat) (v : Word) : Prop :=
  wGet (shtOf t k) rd = (if rd = 0 then 0#64 else v) ∧
  (∀ r, r ≠ rd → wGet (shtOf t k) r = wGet (shtOf s k) r) ∧
  t = setSht s k { shtOf s k with w := (shtOf t k).w, pc := ((shtOf s k).pc + 4) % 2 ^ 64 }

/-- Shuttle k runs on at a PC, and nothing else of the machine is changed. -/
abbrev Went (s t : State) (k pc : Nat) : Prop := t = setSht s k { shtOf s k with pc := pc }

/-- Shuttle k retired an instruction that left a status in LS; nothing but its LS and its PC is changed since the state
u that the instruction's own effect gave. -/
abbrev LeftStatus (u t : State) (k status : Nat) : Prop :=
  t = setSht u k { shtOf u k with ls := status, pc := ((shtOf u k).pc + 4) % 2 ^ 64 }

/-- A command is a Coava instruction, or the trap its fetch meets: where its sequence meets the patch RAM the spec gives
no meaning (R313, R316), and it alone stops. -/
def coava : Instr → Bool
  | .trap .. | .nop .. | .halt .. | .b .. | .bz .. | .bnz .. | .beq .. | .bne .. | .blt .. | .bge .. | .bltu .. |
    .bgeu .. | .bls .. | .call .. | .ret .. | .mov .. | .add .. | .sub .. | .and .. | .or .. | .xor .. | .shl .. |
    .shr .. | .sar .. | .mul .. | .getls .. | .time .. | .ldi .. | .movk .. | .addi .. | .andi .. | .ori .. |
    .xori .. | .shli .. | .shri .. | .sari .. | .extr .. | .ld .. | .st .. | .ld32 .. | .st32 .. | .seek .. |
    .rdrun .. | .wrrun .. | .verify .. | .mabort .. | .bld .. | .bst .. | .bld32 .. | .bst32 .. | .bin .. | .bout .. |
    .submit .. | .await .. | .push .. | .pop .. | .spdrop .. | .slotStatus .. | .complete .. | .hold .. | .wait .. |
    .spawn .. | .yield .. | .barrier .. => true
  | .registerWrite .. | .undecodedAccess .. | .powerOn .. | .railFault .. | .xtalFault | .pllLockLoss .. |
    .rstNAssert | .chipReset | .resetRelease .. | .otpRead .. | .boot | .vinLoss | .flushCommit | .quiesceLogic .. |
    .vinReturn | .holdUpEnd | .timeStoreWrite | .linkLoss | .retractEnd | .fwReadyWrite .. | .shutdown |
    .pspFrameLaunch .. | .pspFrameEnd .. | .preampFault .. | .headmapLock .. | .headSwitchRequest .. |
    .headSwitchDone .. | .tagAuthentication | .tagResponse .. | .tagNoResponse | .tagRetry | .tagRepair .. |
    .lifeCommit .. | .lifeCommitTimer | .hdlBlockReset | .laneRateWrite .. | .rateLocked .. |
    .sectorPreambleStart .. | .acquireEnd .. | .markADecision .. | .markBDecision .. | .spliceGapEnd .. |
    .pairSlip .. | .flaggedSpanOverrun .. | .retainPin .. | .retainUnpin .. | .replayRequest .. | .replayStart .. |
    .replayDone .. | .laneBlockReset .. | .trailerArrival .. | .decoderSelect .. | .decodeConverged .. |
    .decodeCap .. | .earlyPin .. | .decodeYield .. | .writebackDone .. | .decodeDeadline .. | .entryUrgent .. |
    .recoveryJobAged .. | .recoveryTimeout .. | .dcpCplRead .. | .dcpSubmit .. | .decoderMemoryError .. |
    .dcpBlockReset | .sectorFetchDone .. | .dataLate .. | .preheatSlip .. | .wgRise .. | .sectorWritten .. |
    .writeRunEnd .. | .wrpBlockReset | .pesSample .. | .toneLock .. | .stripeCrossing .. | .identityFrame .. |
    .svgBlockReset .. | .lawTick .. | .settleCriteriaMet .. | .offTrackClear .. | .residualFail .. |
    .coastMaxReached .. | .loadStripeFound .. | .loadTimeout .. | .acquireTimeout .. | .settleTimeout .. |
    .holdTimeout .. | .unloadDriveEnd .. | .parkHoldEnd .. | .cteSeek .. | .load .. | .park .. | .resume .. |
    .extEnable .. | .cteBlockReset | .start | .stop | .clear | .setSpeedWrite .. | .bemfCrossing .. |
    .predictedCrossing | .crossingWindowTimeout | .senseEnd .. | .brakeRevEnd | .brakeRevTimeout | .brakeSettleEnd |
    .alignEnd | .rampTimeout | .catchTimeout | .spinupTimeout | .brakeEnd | .atSpeedChange | .spsyncEdge .. |
    .syncFree | .spnBlockReset | .vmLow .. | .vmOkRise .. | .clampOn .. | .clampOff .. | .vmTrip .. | .chopOpen .. |
    .chopStuck .. | .thermalWarning .. | .thermalShutdown .. | .vcmShort .. | .boostFault | .boostOk |
    .pwsFaultClear .. | .pwsBlockReset | .shuttleEnable .. | .shuttleReset .. | .shuttleDisable .. |
    .shuttleResume .. | .shtBlockReset | .taskTake .. | .taskTimeout .. | .stallRelease .. | .waitEvent .. |
    .waitTimeout .. | .frameReady .. | .mediaOpComplete .. | .mediaTimeout .. | .shtLoad .. | .shtLoadDone |
    .lsPortAccess .. | .patchLoad .. | .loomInject .. | .loomPush .. | .loomTake .. | .loomBarArrive .. |
    .barrierRelease .. | .barrierTimeout .. | .loomBarCfgWrite .. | .loomBlockReset | .doorbell .. | .fetch .. |
    .commandAcceptance .. | .fusedWaitTimeout .. | .sasCommandFrame .. | .dispatch .. | .dispatchRetry |
    .budgetReservation .. | .landed .. | .completionPost .. | .glySlotStatus .. | .glyComplete .. | .holdAdd .. |
    .holdRelease .. | .lookup .. | .begin .. | .endOk .. | .endFail .. | .pin .. | .nvmeAbort .. | .abortTask .. |
    .abortTaskSet .. | .clearTaskSet .. | .controllerReset .. | .resetDoneReport .. | .drain | .drainInterrupt |
    .drainTimeout | .asnFloor .. | .budgetWrite .. | .linkTrained .. | .smbusTransaction .. | .tempSample .. |
    .mgtBlockReset | .hfeBlockReset | .dramReady .. | .scrubVisit .. | .scrubLapComplete | .scrubSlow |
    .cacheEnableWrite .. | .scratchConvert .. | .scratchDone | .clean .. | .invalidate .. | .cleanInv .. |
    .cleanInvLocked .. | .loadWay .. | .rangeOpDone | .evictionWritebackDone .. | .cboClean .. | .cboFlush .. |
    .cboInval .. | .descriptorQueue .. | .descriptorFetch .. | .beatGrant .. | .readResponse .. | .writeResponse .. |
    .descriptorDone .. | .channelEnable .. | .channelDisable .. | .pause .. | .channelClear .. | .channelRetry .. |
    .dmaBlockReset .. | .splFwPush .. | .splFwPushLast .. | .splFwPop .. | .dropPkt .. | .flush .. |
    .spoolConfigWrite .. | .closingWord .. | .splBlockReset | .fltEnable .. | .fltInitDone .. | .tierCommandFetch |
    .write .. | .read .. | .trim .. | .releaseImage .. | .format .. | .tierCommandDone .. | .nandOpDone .. |
    .stripeVerify .. | .dieLost .. | .fold .. | .garbageCollection .. | .retireCommit | .coreRun .. | .coreHold .. |
    .semaphoreRead .. | .semaphoreRelease .. | .ipiSet .. | .timerInterrupt .. | .weaveXor .. | .check .. |
    .compare .. | .scan .. | .oflCommandDone .. | .oflBlockReset | .faultMessage .. | .fatalLine | .fclSwRaise .. |
    .fclSwSet .. | .pendingClear .. | .fclClaim .. | .safeEnter .. | .selfCheckSweep .. | .evrFwRecord .. |
    .ringDrain | .tokenRefill .. | .pagePersist .. | .pageWriteDone .. | .evrEnable .. | .evrLoadDone |
    .evrDirtyRead .. | .evrRateWrite .. | .getState | .getNonce | .getSessionKey | .provision .. | .burnRoots .. |
    .reset | .chunk .. | .commit .. | .commitDone .. | .abort .. | .stagingIdleTimeout | .warmRestart | .confirm |
    .fail | .trialTimeout | .trialTimerWarning | .genkey .. | .unlock .. | .lock .. | .rewrap .. |
    .lifecycleTransition .. | .repair .. | .secNonceRead | .otpBurn .. | .sign .. | .rangeWrite .. | .calRequest .. |
    .calStart .. | .backgroundCalibration .. | .calRunDone .. | .calTimeout .. | .calBlockReset | .pfltNRelease .. |
    .ccEnSet .. | .xtalStartTimeout | .trialFailReset => false

/-- The blocks whose registers a command can change: those of its own unit, and of the units that its rules reach, as the
event recorder and the fault collector a fault goes to. A register write, and an access of an engine, reach any. -/
def blocksOf : Instr → List Block
  | .registerWrite .. | .undecodedAccess .. | .powerOn .. | .rstNAssert | .chipReset | .quiesceLogic .. | .vinReturn |
    .holdUpEnd | .bld .. | .bst .. | .bld32 .. | .bst32 .. | .beatGrant .. => Block.all
  | .railFault .. | .xtalFault | .cteBlockReset | .splBlockReset => [.fcl, .ckr]
  | .pllLockLoss .. | .linkLoss => [.lne, .wrp, .svg, .cte, .spn, .pws, .bfm, .syc, .fcl, .evr, .ckr, .cal]
  | .resetRelease .. => [.pws, .ckr]
  | .otpRead .. => [.bfm, .syc, .fcl, .evr, .ckr, .sec, .mgt]
  | .boot => [.bfm, .syc, .svc, .fcl, .sec]
  | .vinLoss => [.gly, .lne, .wrp, .svg, .spn, .pws, .hdl, .bfm, .syc, .dma, .flt, .fcl, .evr, .ckr, .cal, .sec]
  | .flushCommit | .timeStoreWrite | .acquireEnd .. | .markADecision .. | .flaggedSpanOverrun .. | .replayStart .. |
    .earlyPin .. | .decodeYield .. | .entryUrgent .. | .recoveryJobAged .. | .loadStripeFound .. | .loadTimeout .. |
    .acquireTimeout .. | .settleTimeout .. | .holdTimeout .. | .unloadDriveEnd .. | .waitEvent .. | .waitTimeout .. |
    .frameReady .. | .mediaOpComplete .. | .nop .. | .halt .. | .b .. | .bz .. | .bnz .. | .beq .. | .bne .. |
    .blt .. | .bge .. | .bltu .. | .bgeu .. | .call .. | .ret .. | .mov .. | .add .. | .sub .. | .and .. | .or .. |
    .xor .. | .shl .. | .shr .. | .sar .. | .mul .. | .getls .. | .time .. | .ldi .. | .movk .. | .addi .. |
    .andi .. | .ori .. | .xori .. | .shli .. | .shri .. | .sari .. | .extr .. | .slotStatus .. | .barrier .. |
    .loomTake .. | .loomBarArrive .. | .doorbell .. | .fusedWaitTimeout .. | .cboInval .. | .fold .. |
    .garbageCollection .. | .semaphoreRead .. | .timerInterrupt .. | .getState | .getNonce | .getSessionKey | .reset |
    .secNonceRead | .backgroundCalibration .. | .trialFailReset => []
  | .retractEnd | .vmOkRise .. | .chopOpen .. | .thermalWarning .. | .vcmShort .. | .boostFault => [.pws, .fcl]
  | .fwReadyWrite .. | .evrLoadDone => [.bfm, .syc, .fcl, .evr, .ckr]
  | .shutdown | .mgtBlockReset | .oflBlockReset | .xtalStartTimeout => [.ckr]
  | .pspFrameLaunch .. | .headmapLock .. | .headSwitchRequest .. | .tagRetry | .pfltNRelease .. => [.hdl]
  | .pspFrameEnd .. => [.hdl, .fcl]
  | .preampFault .. => [.lne, .wrp, .svg, .spn, .hdl, .fcl, .cal]
  | .headSwitchDone .. => [.hdl, .fcl, .cal]
  | .tagAuthentication => [.hdl, .bfm, .syc, .fcl, .evr, .ckr]
  | .tagResponse .. | .tagNoResponse => [.hdl, .bfm, .syc, .fcl, .evr, .ckr, .sec]
  | .tagRepair .. => [.hdl, .bfm, .syc, .flt, .fcl, .evr, .ckr]
  | .lifeCommit .. | .lifeCommitTimer => [.hdl, .fcl, .sec]
  | .hdlBlockReset => [.lne, .wrp, .svg, .spn, .hdl, .fcl, .ckr, .cal, .sec]
  | .laneRateWrite .. | .retainPin .. | .retainUnpin .. | .replayRequest .. => [.lne]
  | .rateLocked .. | .sectorPreambleStart .. | .markBDecision .. | .spliceGapEnd .. | .dataLate .. |
    .sectorWritten .. | .writeRunEnd .. | .mabort .. | .calRunDone .. => [.lne, .wrp, .svg, .spn, .fcl, .cal]
  | .pairSlip .. | .fetch .. | .drainTimeout | .flush .. | .closingWord .. | .fclSwRaise .. | .fclSwSet .. |
    .pendingClear .. | .fclClaim .. | .fail | .trialTimeout | .trialTimerWarning => [.fcl]
  | .replayDone .. => [.lne, .dcp, .bfm, .fcl]
  | .laneBlockReset .. | .dcpBlockReset | .wrpBlockReset => [.lne, .wrp, .svg, .spn, .fcl, .ckr, .cal]
  | .trailerArrival .. => [.dcp, .spl, .fcl]
  | .decoderSelect .. => [.dcp, .bfm, .fcl]
  | .decodeConverged .. | .decodeCap .. | .decodeDeadline .. | .recoveryTimeout .. | .dcpCplRead .. | .dcpSubmit .. |
    .decoderMemoryError .. | .submit .. | .await .. => [.dcp, .fcl]
  | .writebackDone .. => [.dcp, .bfm, .syc, .fcl]
  | .sectorFetchDone .. => [.lne, .wrp, .svg, .spn, .bfm, .syc, .fcl, .cal]
  | .preheatSlip .. | .wgRise .. => [.wrp]
  | .pesSample .. | .residualFail .. | .coastMaxReached .. => [.lne, .wrp, .svg, .cte, .spn, .fcl, .cal]
  | .toneLock .. | .stripeCrossing .. => [.svg]
  | .identityFrame .. => [.svg, .fcl]
  | .svgBlockReset .. => [.svg, .ckr, .cal]
  | .lawTick .. | .parkHoldEnd .. => [.gly, .lne, .wrp, .svg, .cte, .spn, .bfm, .syc, .fcl, .evr, .ckr, .cal]
  | .settleCriteriaMet .. => [.lne, .wrp, .svg, .cte, .spn, .bfm, .syc, .fcl, .evr, .ckr, .cal]
  | .offTrackClear .. | .load .. | .resume .. | .extEnable .. => [.cte]
  | .cteSeek .. | .park .. => [.cte, .fcl]
  | .start | .stop | .clear | .crossingWindowTimeout | .senseEnd .. | .brakeRevEnd | .brakeRevTimeout |
    .brakeSettleEnd | .alignEnd | .rampTimeout | .catchTimeout | .spinupTimeout | .brakeEnd |
    .spnBlockReset => [.gly, .spn, .bfm, .syc, .fcl, .evr, .ckr, .cal]
  | .setSpeedWrite .. => [.gly, .spn, .bfm, .syc, .fcl, .evr, .ckr]
  | .bemfCrossing .. | .predictedCrossing => [.gly, .lne, .wrp, .svg, .spn, .bfm, .syc, .fcl, .evr, .ckr, .cal]
  | .atSpeedChange => [.spn, .bfm, .syc, .fcl, .evr, .ckr, .cal]
  | .spsyncEdge .. | .syncFree => [.spn, .fcl]
  | .vmLow .. | .vmTrip .. | .chopStuck .. |
    .thermalShutdown .. => [.gly, .spn, .pws, .bfm, .syc, .fcl, .evr, .ckr, .cal]
  | .clampOn .. | .clampOff .. | .boostOk | .pwsFaultClear .. => [.pws]
  | .pwsBlockReset | .calBlockReset => [.ckr, .cal]
  | .shuttleEnable .. | .shuttleReset .. | .shuttleDisable .. | .shuttleResume .. |
    .mediaTimeout .. => [.sht, .lne, .wrp, .svg, .spn, .fcl, .cal]
  | .shtBlockReset => [.sht, .lne, .wrp, .svg, .spn, .fcl, .ckr, .cal]
  | .taskTake .. | .shtLoad .. | .lsPortAccess .. => [.sht]
  | .trap .. => [.sht, .bfm, .fcl]
  | .taskTimeout .. | .bls .. | .ld .. | .st .. | .ld32 .. | .st32 .. | .push .. | .spdrop .. | .wait .. | .spawn .. |
    .yield .. => [.sht, .fcl]
  | .stallRelease .. => [.sht, .lne, .dcp, .wrp, .hdl, .spl, .fcl]
  | .seek .. | .rdrun .. | .wrrun .. | .verify .. => [.sht, .lne, .wrp, .hdl, .fcl]
  | .bin .. | .bout .. | .shtLoadDone => [.sht, .bfm, .syc, .fcl]
  | .pop .. => [.sht, .spl, .fcl]
  | .complete .. | .hold .. | .commandAcceptance .. | .sasCommandFrame .. | .dispatch .. | .dispatchRetry |
    .budgetReservation .. | .completionPost .. | .glySlotStatus .. | .glyComplete .. | .holdAdd .. | .holdRelease .. |
    .lookup .. | .begin .. | .endOk .. | .endFail .. | .pin .. | .nvmeAbort .. | .abortTask .. | .abortTaskSet .. |
    .clearTaskSet .. | .drain | .drainInterrupt | .budgetWrite .. => [.gly, .bfm, .syc, .fcl, .evr, .ckr]
  | .patchLoad .. => [.sht, .bfm, .syc, .fcl, .evr, .sec]
  | .loomInject .. | .loomPush .. | .loomBarCfgWrite .. => [.loom]
  | .barrierRelease .. | .barrierTimeout .. => [.loom, .fcl]
  | .loomBlockReset => [.loom, .fcl, .ckr]
  | .landed .. | .controllerReset .. | .hfeBlockReset | .ccEnSet .. => [.hfe, .gly, .bfm, .syc, .fcl, .evr, .ckr]
  | .resetDoneReport .. => [.hfe]
  | .asnFloor .. => [.gly]
  | .linkTrained .. => [.hfe, .bfm, .syc, .fcl, .evr, .ckr]
  | .smbusTransaction .. => [.fcl, .mgt]
  | .tempSample .. => [.flt, .fcl, .mgt]
  | .dramReady .. | .fltEnable .. | .stripeVerify .. | .retireCommit => [.gly, .bfm, .syc, .flt, .fcl, .evr, .ckr]
  | .scrubVisit .. | .scrubLapComplete | .scrubSlow | .evictionWritebackDone .. => [.bfm, .fcl]
  | .cacheEnableWrite .. => [.syc]
  | .scratchConvert .. | .clean .. | .invalidate .. | .cleanInv .. | .cleanInvLocked .. | .loadWay .. | .cboClean .. |
    .cboFlush .. => [.bfm, .syc, .fcl]
  | .scratchDone | .rangeOpDone => [.syc, .fcl]
  | .descriptorQueue .. => [.dma]
  | .descriptorFetch .. => [.bfm, .syc, .dma, .fcl]
  | .readResponse .. | .writeResponse .. => [.hfe, .gly, .bfm, .syc, .dma, .fcl, .evr, .ckr]
  | .descriptorDone .. | .channelEnable .. | .channelDisable .. | .pause .. | .channelClear .. | .channelRetry .. |
    .dmaBlockReset .. => [.gly, .bfm, .syc, .dma, .fcl, .evr, .ckr]
  | .splFwPush .. | .splFwPushLast .. | .splFwPop .. | .dropPkt .. | .spoolConfigWrite .. => [.spl, .fcl]
  | .fltInitDone .. | .format .. | .nandOpDone .. | .dieLost .. => [.gly, .spn, .bfm, .syc, .flt, .fcl, .evr, .ckr]
  | .tierCommandFetch | .write .. | .read .. | .tierCommandDone .. => [.bfm, .syc, .flt, .fcl]
  | .trim .. | .releaseImage .. => [.flt]
  | .coreRun .. | .coreHold .. | .semaphoreRelease .. => [.svc, .fcl]
  | .ipiSet .. => [.svc]
  | .weaveXor .. | .check .. | .compare .. | .scan .. | .oflCommandDone .. => [.bfm, .syc, .ofl, .fcl]
  | .faultMessage .. | .fatalLine | .safeEnter .. |
    .selfCheckSweep .. => [.gly, .lne, .wrp, .svg, .spn, .bfm, .syc, .dma, .fcl, .evr, .ckr, .cal]
  | .evrFwRecord .. | .ringDrain | .pagePersist .. | .evrEnable .. => [.bfm, .syc, .fcl, .evr]
  | .tokenRefill .. | .evrDirtyRead .. | .evrRateWrite .. => [.evr]
  | .pageWriteDone .. => [.fcl, .evr]
  | .provision .. | .burnRoots .. | .confirm => [.sec, .mgt]
  | .chunk .. | .commit .. | .abort .. => [.bfm, .syc, .fcl, .sec]
  | .commitDone .. => [.bfm, .syc, .fcl, .evr, .sec]
  | .stagingIdleTimeout | .sign .. => [.fcl, .sec]
  | .warmRestart => [.sht, .lne, .wrp, .svg, .spn, .svc, .fcl, .cal, .sec]
  | .genkey .. | .unlock .. | .lock .. | .rewrap .. => [.gly, .bfm, .syc, .flt, .fcl, .evr, .ckr, .sec]
  | .lifecycleTransition .. | .repair .. => [.sht, .hdl, .bfm, .syc, .flt, .fcl, .evr, .ckr, .sec, .mgt]
  | .otpBurn .. => [.bfm, .syc, .fcl, .sec, .mgt]
  | .rangeWrite .. => [.sec]
  | .calRequest .. | .calStart .. => [.cal]
  | .calTimeout .. => [.fcl, .cal]

/-- A command can store to memory: its own data, a line the cache gives up on the way, or the wipe of a reset. -/
def storesMemory : Instr → Bool
  | .registerWrite .. | .undecodedAccess .. | .powerOn .. | .pllLockLoss .. | .rstNAssert | .chipReset | .otpRead .. |
    .boot | .vinLoss | .quiesceLogic .. | .vinReturn | .holdUpEnd | .linkLoss | .fwReadyWrite .. |
    .tagAuthentication | .tagResponse .. | .tagNoResponse | .tagRepair .. | .writebackDone .. | .sectorFetchDone .. |
    .lawTick .. | .settleCriteriaMet .. | .parkHoldEnd .. | .start | .stop | .clear | .setSpeedWrite .. |
    .bemfCrossing .. | .predictedCrossing | .crossingWindowTimeout | .senseEnd .. | .brakeRevEnd | .brakeRevTimeout |
    .brakeSettleEnd | .alignEnd | .rampTimeout | .catchTimeout | .spinupTimeout | .brakeEnd | .atSpeedChange |
    .spnBlockReset | .vmLow .. | .vmTrip .. | .chopStuck .. | .thermalShutdown .. | .bld .. | .bst .. | .bld32 .. |
    .bst32 .. | .bin .. | .bout .. | .complete .. | .hold .. | .shtLoadDone | .patchLoad .. | .commandAcceptance .. |
    .sasCommandFrame .. | .dispatch .. | .dispatchRetry | .budgetReservation .. | .landed .. | .completionPost .. |
    .glySlotStatus .. | .glyComplete .. | .holdAdd .. | .holdRelease .. | .lookup .. | .begin .. | .endOk .. |
    .endFail .. | .pin .. | .nvmeAbort .. | .abortTask .. | .abortTaskSet .. | .clearTaskSet .. |
    .controllerReset .. | .drain | .drainInterrupt | .budgetWrite .. | .linkTrained .. | .hfeBlockReset |
    .dramReady .. | .scratchConvert .. | .clean .. | .invalidate .. | .cleanInv .. | .cleanInvLocked .. |
    .loadWay .. | .evictionWritebackDone .. | .cboClean .. | .cboFlush .. | .descriptorFetch .. | .beatGrant .. |
    .readResponse .. | .writeResponse .. | .descriptorDone .. | .channelEnable .. | .channelDisable .. | .pause .. |
    .channelClear .. | .channelRetry .. | .dmaBlockReset .. | .fltEnable .. | .fltInitDone .. | .tierCommandFetch |
    .write .. | .read .. | .format .. | .tierCommandDone .. | .nandOpDone .. | .stripeVerify .. | .dieLost .. |
    .retireCommit | .weaveXor .. | .check .. | .compare .. | .scan .. | .oflCommandDone .. | .faultMessage .. |
    .fatalLine | .safeEnter .. | .selfCheckSweep .. | .evrFwRecord .. | .ringDrain | .pagePersist .. | .evrEnable .. |
    .evrLoadDone | .chunk .. | .commit .. | .commitDone .. | .abort .. | .genkey .. | .unlock .. | .lock .. |
    .rewrap .. | .lifecycleTransition .. | .repair .. | .otpBurn .. | .ccEnSet .. => true
  | .railFault .. | .xtalFault | .resetRelease .. | .flushCommit | .timeStoreWrite | .retractEnd | .shutdown |
    .pspFrameLaunch .. | .pspFrameEnd .. | .preampFault .. | .headmapLock .. | .headSwitchRequest .. |
    .headSwitchDone .. | .tagRetry | .lifeCommit .. | .lifeCommitTimer | .hdlBlockReset | .laneRateWrite .. |
    .rateLocked .. | .sectorPreambleStart .. | .acquireEnd .. | .markADecision .. | .markBDecision .. |
    .spliceGapEnd .. | .pairSlip .. | .flaggedSpanOverrun .. | .retainPin .. | .retainUnpin .. | .replayRequest .. |
    .replayStart .. | .replayDone .. | .laneBlockReset .. | .trailerArrival .. | .decoderSelect .. |
    .decodeConverged .. | .decodeCap .. | .earlyPin .. | .decodeYield .. | .decodeDeadline .. | .entryUrgent .. |
    .recoveryJobAged .. | .recoveryTimeout .. | .dcpCplRead .. | .dcpSubmit .. | .decoderMemoryError .. |
    .dcpBlockReset | .dataLate .. | .preheatSlip .. | .wgRise .. | .sectorWritten .. | .writeRunEnd .. |
    .wrpBlockReset | .pesSample .. | .toneLock .. | .stripeCrossing .. | .identityFrame .. | .svgBlockReset .. |
    .offTrackClear .. | .residualFail .. | .coastMaxReached .. | .loadStripeFound .. | .loadTimeout .. |
    .acquireTimeout .. | .settleTimeout .. | .holdTimeout .. | .unloadDriveEnd .. | .cteSeek .. | .load .. |
    .park .. | .resume .. | .extEnable .. | .cteBlockReset | .spsyncEdge .. | .syncFree | .vmOkRise .. | .clampOn .. |
    .clampOff .. | .chopOpen .. | .thermalWarning .. | .vcmShort .. | .boostFault | .boostOk | .pwsFaultClear .. |
    .pwsBlockReset | .shuttleEnable .. | .shuttleReset .. | .shuttleDisable .. | .shuttleResume .. | .shtBlockReset |
    .taskTake .. | .trap .. | .taskTimeout .. | .stallRelease .. | .waitEvent .. | .waitTimeout .. | .frameReady .. |
    .mediaOpComplete .. | .mediaTimeout .. | .nop .. | .halt .. | .b .. | .bz .. | .bnz .. | .beq .. | .bne .. |
    .blt .. | .bge .. | .bltu .. | .bgeu .. | .bls .. | .call .. | .ret .. | .mov .. | .add .. | .sub .. | .and .. |
    .or .. | .xor .. | .shl .. | .shr .. | .sar .. | .mul .. | .getls .. | .time .. | .ldi .. | .movk .. | .addi .. |
    .andi .. | .ori .. | .xori .. | .shli .. | .shri .. | .sari .. | .extr .. | .ld .. | .st .. | .ld32 .. |
    .st32 .. | .seek .. | .rdrun .. | .wrrun .. | .verify .. | .mabort .. | .submit .. | .await .. | .push .. |
    .pop .. | .spdrop .. | .slotStatus .. | .wait .. | .spawn .. | .yield .. | .barrier .. | .shtLoad .. |
    .lsPortAccess .. | .loomInject .. | .loomPush .. | .loomTake .. | .loomBarArrive .. | .barrierRelease .. |
    .barrierTimeout .. | .loomBarCfgWrite .. | .loomBlockReset | .doorbell .. | .fetch .. | .fusedWaitTimeout .. |
    .resetDoneReport .. | .drainTimeout | .asnFloor .. | .smbusTransaction .. | .tempSample .. | .mgtBlockReset |
    .scrubVisit .. | .scrubLapComplete | .scrubSlow | .cacheEnableWrite .. | .scratchDone | .rangeOpDone |
    .cboInval .. | .descriptorQueue .. | .splFwPush .. | .splFwPushLast .. | .splFwPop .. | .dropPkt .. | .flush .. |
    .spoolConfigWrite .. | .closingWord .. | .splBlockReset | .trim .. | .releaseImage .. | .fold .. |
    .garbageCollection .. | .coreRun .. | .coreHold .. | .semaphoreRead .. | .semaphoreRelease .. | .ipiSet .. |
    .timerInterrupt .. | .oflBlockReset | .fclSwRaise .. | .fclSwSet .. | .pendingClear .. | .fclClaim .. |
    .tokenRefill .. | .pageWriteDone .. | .evrDirtyRead .. | .evrRateWrite .. | .getState | .getNonce |
    .getSessionKey | .provision .. | .burnRoots .. | .reset | .stagingIdleTimeout | .warmRestart | .confirm | .fail |
    .trialTimeout | .trialTimerWarning | .secNonceRead | .sign .. | .rangeWrite .. | .calRequest .. | .calStart .. |
    .backgroundCalibration .. | .calRunDone .. | .calTimeout .. | .calBlockReset | .pfltNRelease .. |
    .xtalStartTimeout | .trialFailReset => false

end Sys2Proof.Machine
end

