-- ==== Sys2Proof/Certificates/Slice0/Obligations.lean ====
section
/-!
DEFINITION. The statements about the model, one `def Obligations.<Name> : Prop` each.
-/

open Sys2Proof Sys2Proof.Machine

/-- O1. Preamp frames and faults, the head map and head switches. HDL_PSP_CMD.GO with the port free starts the frame it describes; the end of a firmware read frame clears BUSY and loads RDATA; PFLT_N low sets ACTIVE and LATCHED and raises inhibit 2; PFLT_N high clears ACTIVE alone. LOCK is taken when no rule of R47 fails and ERR_CODE says which fails otherwise; HDL_HSEL refuses an unmapped or disabled head with its status and queues any other; at a switch's end STATUS is 0, PENDING follows the queue and source 668 + a is pending. (R44, R45, R46, R50, R62, R43, R47, R48, R63) -/
def Obligations.PreampPortAndHeads : Prop :=
  -- HDL_PSP_CMD_a with GO, no frame running, none held and none other waiting
  (∀ (s : State) (a : Nat) (v : Word),
    a < s.part.acts →
    bit v 24 = true →
    flag s F.HDL_PSP_CMD_BUSY a = false →
    (hdlOf s a).running = none →
    pspHeld s a = false →
    pspRequest s a 0 = false →
    (hdlOf s a).faultPending = false →
    Ends (.pspFrameLaunch a v) s (fun t =>
      flag t F.HDL_PSP_CMD_BUSY a = true ∧
      (hdlOf t a).running = some { who := .firmware, rnw := bit v 23, addr := getBits v 16 7, data := getBits v 0 16 })) ∧
  -- GO while BUSY
  (∀ (s : State) (a : Nat) (v : Word),
    a < s.part.acts →
    bit v 24 = true →
    flag s F.HDL_PSP_CMD_BUSY a = true →
    Ends (.pspFrameLaunch a v) s (fun t =>
      flag t F.HDL_PSP_CMD_OVERRUN a = true ∧
      hdlOf t a = hdlOf s a)) ∧
  -- a firmware read frame ends
  (∀ (s : State) (a rdata : Nat) (f : PspFrame),
    a < s.part.acts →
    (hdlOf s a).running = some f →
    f.who = .firmware →
    f.rnw = true →
    Ends (.pspFrameEnd a rdata) s (fun t =>
      flag t F.HDL_PSP_CMD_BUSY a = false ∧
      fld t F.HDL_PSP_RDATA_DATA a = rdata % 65536 ∧
      flag t F.HDL_PSP_RDATA_VALID a = true)) ∧
  -- PFLT_N_a goes low
  (∀ (s : State) (a : Nat),
    a < s.part.acts →
    (hdlOf s a).pfltLow = false →
    Ends (.preampFault a) s (fun t =>
      flag t F.HDL_PFLT_ACTIVE a = true ∧
      flag t F.HDL_PFLT_LATCHED a = true ∧
      (hdlOf t a).pfltLow = true ∧
      inhibit t a 2 = true)) ∧
  -- PFLT_N_a returns high
  (∀ (s : State) (a : Nat),
    a < s.part.acts →
    Ends (.pfltNRelease a) s (fun t =>
      flag t F.HDL_PFLT_ACTIVE a = false ∧
      flag t F.HDL_PFLT_LATCHED a = flag s F.HDL_PFLT_LATCHED a ∧
      (hdlOf t a).pfltLow = false)) ∧
  -- the map may be locked
  (∀ (s : State) (v : Word),
    bit v 0 = true →
    flag s F.HDL_HEADMAP_LOCK_LOCK = false →
    headMapError s = 0 →
    Ends (.headmapLock v) s (fun t =>
      flag t F.HDL_HEADMAP_LOCK_LOCK = true ∧
      fld t F.HDL_HEADMAP_LOCK_ERR_CODE = 0)) ∧
  -- a rule of R47 fails
  (∀ (s : State) (v : Word),
    bit v 0 = true →
    flag s F.HDL_HEADMAP_LOCK_LOCK = false →
    headMapError s ≠ 0 →
    Ends (.headmapLock v) s (fun t =>
      flag t F.HDL_HEADMAP_LOCK_LOCK = false ∧
      fld t F.HDL_HEADMAP_LOCK_ERR_CODE = headMapError s)) ∧
  -- a head that may not be selected
  (∀ (s : State) (a head : Nat),
    a < s.part.acts →
    headStatus s a (head % 32) ≠ 0 →
    Ends (.headSwitchRequest a head) s (fun t =>
      fld t F.HDL_HSEL_STATUS a = headStatus s a (head % 32) ∧
      hdlOf t a = hdlOf s a)) ∧
  -- a head that may be selected
  (∀ (s : State) (a head : Nat),
    a < s.part.acts →
    headStatus s a (head % 32) = 0 →
    Ends (.headSwitchRequest a head) s (fun t =>
      flag t F.HDL_HSEL_PENDING a = true ∧
      (hdlOf t a).switches.map (fun x => x.head) = (hdlOf s a).switches.map (fun x => x.head) ++ [head % 32])) ∧
  -- a switch settles
  (∀ (s : State) (a : Nat) (x : HeadSwitch) (rest : List HeadSwitch),
    a < s.part.acts →
    (hdlOf s a).switches = x :: rest →
    x.settling = true →
    Ends (.headSwitchDone a) s (fun t =>
      (hdlOf t a).swap = flag s F.HDL_HEADMAP_SWAP x.head ∧
      (hdlOf t a).switches.length = rest.length ∧
      fld t F.HDL_HSEL_STATUS a = 0 ∧
      flag t F.HDL_HSEL_PENDING a = !rest.isEmpty ∧
      pendingBit t (668 + a) = true))

/-- O2. The tag's authentication, retries and re-pairing; life commits, and HDL's block reset. Release starts Table 2.6 in AUTHENTICATING with GET_ID, at once or when a running life commit ends; each good answer sends the next command, the limits end in PAIRED, and a failed check blocks; a commit's answer moves its delta to the committed value; a missing answer is due for retry twice and then blocks; an allowed re-pair discards the tier's dirty data, stores the tag's identity and enters REPAIRING, and any other is refused. HDL_LIFE_COMMIT.GO and the 4 h timer start INC_CTR of counter 0 with its shadow delta when the tag port is idle, and the commit waits otherwise; a block reset drops WG, abandons head switches and frees the firmware port of every actuator. (R51, R53, R54, R56, R57, R58, R61) -/
def Obligations.TagSequenceAndLifeCommits : Prop :=
  -- SEC releases HDL
  (∀ (s : State),
    fld s F.HDL_TAG_STATUS_STATE = 0 →
    s.tag.commit = none →
    Ends (.tagAuthentication) s (fun t =>
      fld t F.HDL_TAG_STATUS_STATE = 1 ∧
      fld t F.HDL_TAG_STATUS_RETRIES = 0 ∧
      t.tag.cmd = some .getId ∧
      t.tag.retries = 0 ∧
      pendingBit t 657 = true)) ∧
  -- SEC releases HDL while a life commit runs: the sequence waits for its end
  (∀ (s : State),
    fld s F.HDL_TAG_STATUS_STATE = 0 →
    s.tag.commit.isSome = true →
    Ends (.tagAuthentication) s (fun t =>
      fld t F.HDL_TAG_STATUS_STATE = 1 ∧
      t.tag.startWaiting = some .getId ∧
      t.tag.cmd = s.tag.cmd)) ∧
  -- released already: nothing follows
  (∀ (s : State),
    fld s F.HDL_TAG_STATUS_STATE ≠ 0 →
    Ends (.tagAuthentication) s (fun t =>
      t = s)) ∧
  -- no answer is awaited: none is taken, and none is missed
  (∀ (s : State) (values : List Nat) (good : Bool),
    (s.tag.cmd = none ∨ s.tag.retryDue = true) →
    Ends (.tagResponse values good) s (fun t =>
      t = s)) ∧
  -- nothing was sent, or a retry is due already
  (∀ (s : State),
    (s.tag.cmd = none ∨ s.tag.retryDue = true) →
    Ends (.tagNoResponse) s (fun t =>
      t = s)) ∧
  -- GET_ID answered
  (∀ (s : State) (values : List Nat) (good : Bool),
    s.tag.retryDue = false →
    s.tag.cmd = some .getId →
    Ends (.tagResponse values good) s (fun t =>
      t.tag.cmd = some .getCert ∧
      t.tag.identity = some (values.getD 0 0) ∧
      t.tag.serial = values.getD 1 0)) ∧
  -- a chunk of the certificate before the last
  (∀ (s : State) (values : List Nat) (good : Bool),
    s.tag.retryDue = false →
    s.tag.cmd = some .getCert →
    s.tag.chunks < 7 →
    Ends (.tagResponse values good) s (fun t =>
      t.tag.cmd = some .getCert ∧
      t.tag.chunks = s.tag.chunks + 1)) ∧
  -- the last chunk of a certificate chain that checks
  (∀ (s : State) (values : List Nat),
    s.tag.retryDue = false →
    s.tag.cmd = some .getCert →
    7 ≤ s.tag.chunks →
    Ends (.tagResponse values true) s (fun t =>
      t.tag.cmd = some .challenge ∧
      t.regs = s.regs)) ∧
  -- a certificate chain, a counter or a limit whose signature does not check
  (∀ (s : State) (values : List Nat),
    s.tag.retryDue = false →
    ((s.tag.cmd = some .getCert ∧ 7 ≤ s.tag.chunks) ∨ s.tag.cmd = some .challenge ∨ s.tag.cmd = some .readCtr ∨ s.tag.cmd = some .readLimits) →
    Ends (.tagResponse values false) s (fun t =>
      fld t F.HDL_TAG_STATUS_STATE = 3 ∧
      fld t F.HDL_TAG_STATUS_REASON = 2 ∧
      flag t F.CKR_READY_HDA = false)) ∧
  -- the value of an INC_CTR that its delta asked for: it is the committed one, the delta leaves the shadow, and the next counter follows
  (∀ (s : State) (values : List Nat) (good : Bool) (k : Nat),
    s.tag.retryDue = false →
    s.tag.cmd = some (.incCtr k) →
    k < 4 →
    values.getD 1 0 = tget (dflt 0) s.tag.committed k + s.tag.sent →
    values.getD 1 0 < 2 ^ 64 →
    Ends (.tagResponse values good) s (fun t =>
      tget (dflt 0) t.tag.committed k = values.getD 1 0 ∧
      tget (dflt 0) t.tag.shadow k = tget (dflt 0) s.tag.shadow k - s.tag.sent ∧
      t.tag.cmd = some (.incCtr (k + 1)))) ∧
  -- the value of the last INC_CTR: the commit ends
  (∀ (s : State) (values : List Nat) (good : Bool),
    s.tag.retryDue = false →
    s.tag.cmd = some (.incCtr 4) →
    values.getD 1 0 = tget (dflt 0) s.tag.committed 4 + s.tag.sent →
    values.getD 1 0 < 2 ^ 64 →
    s.tag.startWaiting = none →
    s.tag.commitWaiting = false →
    Ends (.tagResponse values good) s (fun t =>
      tget (dflt 0) t.tag.committed 4 = values.getD 1 0 ∧
      t.tag.cmd = none ∧
      t.tag.commit = none ∧
      flag t F.HDL_LIFE_COMMIT_BUSY = false)) ∧
  -- another value than the delta asked for, above the committed one: it is taken, and the rest is sent again (the model's choice, log entry 218)
  (∀ (s : State) (values : List Nat) (good : Bool) (k : Nat),
    s.tag.retryDue = false →
    s.tag.cmd = some (.incCtr k) →
    tget (dflt 0) s.tag.committed k < values.getD 1 0 →
    values.getD 1 0 ≠ min (tget (dflt 0) s.tag.committed k + s.tag.sent) (2 ^ 64 - 1) →
    Ends (.tagResponse values good) s (fun t =>
      tget (dflt 0) t.tag.committed k = values.getD 1 0 ∧
      t.tag.cmd = some (.incCtr k) ∧
      t.tag.sent = tget (dflt 0) t.tag.shadow k)) ∧
  -- CHALLENGE answered while no pairing is stored, or by another identity than the paired one
  (∀ (s : State) (values : List Nat),
    s.tag.retryDue = false →
    s.tag.cmd = some .challenge →
    (s.sec.pairing = none ∨ s.sec.pairing ≠ s.tag.identity) →
    Ends (.tagResponse values true) s (fun t =>
      fld t F.HDL_TAG_STATUS_STATE = 3 ∧
      flag t F.CKR_READY_HDA = false)) ∧
  -- the counters answered
  (∀ (s : State) (values : List Nat) (k : Nat),
    s.tag.retryDue = false →
    s.tag.cmd = some .readCtr →
    k < 5 →
    Ends (.tagResponse values true) s (fun t =>
      t.tag.cmd = some .readLimits ∧
      tget (dflt 0) t.tag.committed k = values.getD k 0)) ∧
  -- CHALLENGE answered by the paired identity
  (∀ (s : State) (values : List Nat),
    s.tag.retryDue = false →
    s.tag.cmd = some .challenge →
    s.sec.pairing.isSome = true →
    s.sec.pairing = s.tag.identity →
    Ends (.tagResponse values true) s (fun t =>
      t.tag.cmd = some .readCtr)) ∧
  -- the limits answered
  (∀ (s : State) (values : List Nat),
    s.tag.retryDue = false →
    s.tag.cmd = some .readLimits →
    Ends (.tagResponse values true) s (fun t =>
      fld t F.HDL_TAG_STATUS_STATE = 2 ∧
      flag t F.CKR_READY_HDA = true ∧
      (∀ k ∈ List.range 5, rd t .HDL_LIFE_RATED k = BitVec.ofNat 64 (values.getD k 0)))) ∧
  -- no answer, a retry left
  (∀ (s : State),
    s.tag.cmd.isSome = true →
    s.tag.retryDue = false →
    s.tag.retries < 2 →
    Ends (.tagNoResponse) s (fun t =>
      t = { s with tag := { s.tag with retryDue := true } })) ∧
  -- no answer, no retry left
  (∀ (s : State),
    s.tag.cmd = some .getId →
    s.tag.retryDue = false →
    2 ≤ s.tag.retries →
    Ends (.tagNoResponse) s (fun t =>
      fld t F.HDL_TAG_STATUS_STATE = 3 ∧
      flag t F.CKR_READY_HDA = false)) ∧
  -- no answer to INC_CTR, no retry left: the commit ends and its delta stays in the shadow
  (∀ (s : State) (k : Nat),
    s.tag.cmd = some (.incCtr k) →
    s.tag.retryDue = false →
    2 ≤ s.tag.retries →
    Ends (.tagNoResponse) s (fun t =>
      t.tag.shadow = s.tag.shadow ∧
      t.tag.committed = s.tag.committed)) ∧
  -- the retry
  (∀ (s : State),
    s.tag.cmd.isSome = true →
    s.tag.retryDue = true →
    Ends (.tagRetry) s (fun t =>
      t.tag.retryDue = false ∧
      t.tag.retries = s.tag.retries + 1 ∧
      t.tag.cmd = s.tag.cmd)) ∧
  -- a re-pair that is taken
  (∀ (s : State) (v : Word),
    bit v 0 = true →
    repairable s = true →
    (fld s F.SEC_LC_STATE = 1 ∨ fld s F.SEC_LC_STATE = 3) →
    (tierDirty s = false ∨ bit v 1 = true) →
    s.tag.commit = none →
    Ends (.tagRepair v) s (fun t =>
      fld t F.HDL_TAG_STATUS_STATE = 4 ∧
      t.sec.pairing = s.tag.identity ∧
      t.tag.cmd = some .readCtr ∧
      fld t F.HDL_TAG_REPAIR_STATUS = 0 ∧
      tierDirty t = false ∧
      (tierDirty s = true → t.flt.image = none))) ∧
  -- dirty data of another HDA, not discarded
  (∀ (s : State) (v : Word),
    bit v 0 = true →
    tierDirty s = true →
    bit v 1 = false →
    flag s F.HDL_TAG_REPAIR_DISCARD_DIRTY = false →
    Ends (.tagRepair v) s (fun t =>
      fld t F.HDL_TAG_REPAIR_STATUS ≠ 0 ∧
      t.flt = s.flt ∧
      t.sec.pairing = s.sec.pairing ∧
      fld t F.HDL_TAG_STATUS_STATE = fld s F.HDL_TAG_STATUS_STATE)) ∧
  -- DISCARD_DIRTY is set by writing 1, and a write without GO asks for nothing
  (∀ (s : State) (v : Word),
    bit v 0 = false →
    Ends (.tagRepair v) s (fun t =>
      flag t F.HDL_TAG_REPAIR_DISCARD_DIRTY = (flag s F.HDL_TAG_REPAIR_DISCARD_DIRTY || bit v 1) ∧
      t.tag = s.tag ∧
      t.sec = s.sec)) ∧
  -- GO with the port idle
  (∀ (s : State) (v : Word),
    bit v 0 = true →
    s.tag.commit = none →
    tagBusy s = false →
    Ends (.lifeCommit v) s (fun t =>
      flag t F.HDL_LIFE_COMMIT_BUSY = true ∧
      t.tag.commit = some 0 ∧
      t.tag.cmd = some (.incCtr 0) ∧
      t.tag.sent = tget (dflt 0) s.tag.shadow 0)) ∧
  -- GO while Table 2.6 runs
  (∀ (s : State) (v : Word),
    bit v 0 = true →
    tagBusy s = true →
    Ends (.lifeCommit v) s (fun t =>
      flag t F.HDL_LIFE_COMMIT_BUSY = true ∧
      t.tag.commitWaiting = true ∧
      t.tag.cmd = s.tag.cmd)) ∧
  -- every 4 h of drive time
  (∀ (s : State),
    s.tag.lastTimer + 14400000 ≤ s.ckr.dtime →
    s.tag.commit = none →
    tagBusy s = false →
    Ends (.lifeCommitTimer) s (fun t =>
      t.tag.lastTimer = s.ckr.dtime ∧
      t.tag.commit = some 0 ∧
      flag t F.HDL_LIFE_COMMIT_BUSY = true)) ∧
  -- block reset
  (∀ (s : State),
    Ends (.hdlBlockReset) s (fun t =>
      flag t F.CKR_BRST_HDL = false ∧
      (∀ a ∈ List.range s.part.acts, (hdlOf t a).wg = false ∧ (hdlOf t a).switches = [] ∧ flag t F.HDL_PSP_CMD_BUSY a = false)))

/-- O3. A lane pair's bit rate, retention pins, replays and block reset. A rate in range is stored and drops the lock, or waits for the end of a run; a rate out of range sets RANGE_ERR and stores nothing; with both lanes enabled the lock moves an OFF path to IDLE; PIN and UNPIN answer OK, RETAIN_LOST or PIN_LIMIT. LNE_REPLAY.GO queues an acceptable replay behind the others or reports its refusal; the head of the queue reserves an entry when one is free; at its end its packet goes out; a block reset ends the run and drops replays, slots, sectors and packets. (R65, R89, R94, R103, R107, R92, R95, R96, R97, R108) -/
def Obligations.LaneRatesRetentionAndReplays : Prop :=
  -- a rate in range, no run
  (∀ (s : State) (a rate : Nat),
    a < s.part.acts →
    10000 ≤ rate →
    rate ≤ 60000 →
    (pairOf s a).run = none →
    Ends (.laneRateWrite a rate) s (fun t =>
      fld t F.LNE_RATE_RATE a = rate ∧
      flag t F.LNE_RATE_STAT_LOCKED a = false ∧
      (pairOf t a).rate = rate)) ∧
  -- a rate in range during a run
  (∀ (s : State) (a rate : Nat),
    a < s.part.acts →
    10000 ≤ rate →
    rate ≤ 60000 →
    (pairOf s a).run.isSome = true →
    Ends (.laneRateWrite a rate) s (fun t =>
      fld t F.LNE_RATE_RATE a = rate ∧
      flag t F.LNE_RATE_STAT_LOCKED a = flag s F.LNE_RATE_STAT_LOCKED a ∧
      (pairOf t a).ratePending = true ∧
      (pairOf t a).rate = (pairOf s a).rate)) ∧
  -- a rate out of range
  (∀ (s : State) (a rate : Nat),
    a < s.part.acts →
    (rate < 10000 ∨ 60000 < rate) →
    Ends (.laneRateWrite a rate) s (fun t =>
      flag t F.LNE_RATE_STAT_RANGE_ERR a = true ∧
      fld t F.LNE_RATE_RATE a = fld s F.LNE_RATE_RATE a ∧
      pairOf t a = pairOf s a)) ∧
  -- the synthesisers lock
  (∀ (s : State) (a : Nat),
    a < s.part.acts →
    lanesOn s a = true →
    (pairOf s a).live = .off →
    Ends (.rateLocked a) s (fun t =>
      flag t F.LNE_RATE_STAT_LOCKED a = true ∧
      (pairOf t a).live = .idle)) ∧
  -- PIN of a slot that holds the sector
  (∀ (s : State) (a slot seq : Nat),
    a < s.part.acts →
    slot < 4 →
    (slotAt (pairOf s a) slot).valid = true →
    (slotAt (pairOf s a) slot).seq = seq →
    pinCount (pairOf s a) < 2 →
    Ends (.retainPin a slot seq) s (fun t =>
      fld t F.LNE_RETAIN_STATUS a = 0 ∧
      (slotAt (pairOf t a) slot).pinFw = true)) ∧
  -- PIN of a slot that no longer holds it
  (∀ (s : State) (a slot seq : Nat),
    a < s.part.acts →
    slot < 4 →
    ((slotAt (pairOf s a) slot).valid = false ∨ (slotAt (pairOf s a) slot).seq ≠ seq) →
    Ends (.retainPin a slot seq) s (fun t =>
      fld t F.LNE_RETAIN_STATUS a = 0x21 ∧
      pairOf t a = pairOf s a)) ∧
  -- PIN with two slots pinned
  (∀ (s : State) (a slot seq : Nat),
    a < s.part.acts →
    slot < 4 →
    (slotAt (pairOf s a) slot).valid = true →
    (slotAt (pairOf s a) slot).seq = seq →
    (slotAt (pairOf s a) slot).pinFw = false →
    (slotAt (pairOf s a) slot).pinPool = false →
    2 ≤ pinCount (pairOf s a) →
    Ends (.retainPin a slot seq) s (fun t =>
      fld t F.LNE_RETAIN_STATUS a = 0x22 ∧
      pairOf t a = pairOf s a)) ∧
  -- UNPIN, whatever the slot holds
  (∀ (s : State) (a slot seq : Nat),
    a < s.part.acts →
    slot < 4 →
    Ends (.retainUnpin a slot seq) s (fun t =>
      fld t F.LNE_RETAIN_STATUS a = 0 ∧
      (slotAt (pairOf t a) slot).pinFw = false ∧
      (slotAt (pairOf t a) slot).pinPool = false)) ∧
  -- a replay that is refused
  (∀ (s : State) (a : Nat) (v : Word),
    a < s.part.acts →
    bit v 27 = true →
    replayStopped s = false →
    replayStatus (pairOf s a) (getBits v 0 2) (getBits v 2 16) (bit v 25) (signed 7 (getBits v 18 7)) ≠ 0 →
    Ends (.replayRequest a v) s (fun t =>
      fld t F.LNE_REPLAY_STATUS a = replayStatus (pairOf s a) (getBits v 0 2) (getBits v 2 16) (bit v 25) (signed 7 (getBits v 18 7)) ∧
      (pairOf t a).replays = (pairOf s a).replays)) ∧
  -- a replay that is accepted
  (∀ (s : State) (a : Nat) (v : Word),
    a < s.part.acts →
    bit v 27 = true →
    replayStopped s = false →
    replayStatus (pairOf s a) (getBits v 0 2) (getBits v 2 16) (bit v 25) (signed 7 (getBits v 18 7)) = 0 →
    Ends (.replayRequest a v) s (fun t =>
      fld t F.LNE_REPLAY_STATUS a = 0 ∧
      (pairOf t a).replays.length = (pairOf s a).replays.length + 1 ∧
      ((pairOf t a).replays.getLast?.map (fun q => (q.slot, q.seq))) = some (getBits v 0 2, getBits v 2 16))) ∧
  -- a replay asked for while the engine is stopped
  (∀ (s : State) (a : Nat) (v : Word),
    a < s.part.acts →
    replayStopped s = true →
    Ends (.replayRequest a v) s (fun t =>
      pairOf t a = pairOf s a ∧
      fld t F.LNE_REPLAY_STATUS a = fld s F.LNE_REPLAY_STATUS a)) ∧
  -- the head of the queue starts
  (∀ (s : State) (a e : Nat) (q : Replay) (rest : List Replay),
    (pairOf s a).replays = q :: rest →
    q.running = false →
    q.entry = none →
    replayStopped s = false →
    freeEntry s a = some e →
    Ends (.replayStart a) s (fun t =>
      (pairOf t a).replays = { q with running := true, entry := some e } :: rest ∧
      (entryOf t a e).st = .reserved)) ∧
  -- a replay ends
  (∀ (s : State) (a : Nat) (q : Replay) (rest : List Replay),
    (pairOf s a).replays = q :: rest →
    q.running = true →
    Ends (.replayDone a false false false) s (fun t =>
      (pairOf t a).replays = rest ∧
      (pairOf t a).packets.length = (pairOf s a).packets.length + 1 ∧
      ((pairOf t a).packets.getLast?.map (fun k => k.trailer.replay)) = some true)) ∧
  -- a block reset of the pair
  (∀ (s : State) (a : Nat),
    a < s.part.acts →
    Ends (.laneBlockReset a) s (fun t =>
      (pairOf t a).run = none ∧
      (pairOf t a).sectors = [] ∧
      (pairOf t a).packets = [] ∧
      (pairOf t a).replays = [] ∧
      (pairOf t a).slots = [] ∧
      (dcpOf t a).entries = [] ∧
      (dcpOf t a).jobs = [] ∧
      bit (rd t .CKR_BRST 0) a = false))

/-- O4. One sector on the live path, from its preamble to its splice gap. An armed pair opens the gate at the preamble and claims a slot; bit 96 begins tracking; the mark A window decides between streaming and B_SEARCH; the mark B window counts the sector and sends its packet; the splice gap closes the gate and arms for the next sector. (R81, R85, R86, R87, R88, R89, R90, R93) -/
def Obligations.LivePathSector : Prop :=
  -- the preamble starts
  (∀ (s : State) (a theta : Nat) (spans : GateSpans) (preheated : Bool) (r : LaneRun) (k : Nat),
    (pairOf s a).live = .armed →
    (pairOf s a).run = some r →
    readHeatReady s a preheated = true →
    claimable (pairOf s a) = some k →
    Ends (.sectorPreambleStart a theta spans preheated) s (fun t =>
      (pairOf t a).live = .acquire ∧
      (pairOf t a).gate = true ∧
      (pairOf t a).reading = true ∧
      (slotAt (pairOf t a) k).valid = true ∧
      (slotAt (pairOf t a) k).seq = (pairOf s a).nextSeq ∧
      (slotAt (pairOf t a) k).sector = r.next ∧
      (pairOf t a).sectors.length = (pairOf s a).sectors.length + 1)) ∧
  -- the preamble starts with every slot held
  (∀ (s : State) (a theta : Nat) (spans : GateSpans) (preheated : Bool) (r : LaneRun),
    (pairOf s a).live = .armed →
    (pairOf s a).run = some r →
    readHeatReady s a preheated = true →
    claimable (pairOf s a) = none →
    (pairOf s a).sectors ≠ [] →
    Ends (.sectorPreambleStart a theta spans preheated) s (fun t =>
      (pairOf t a).live = .idle ∧
      (pairOf t a).run = some { r with ending := some 0x10 } ∧
      (pairOf t a).slots = (pairOf s a).slots)) ∧
  -- bit 96 of the preamble
  (∀ (s : State) (a : Nat) (spans : List AdcSpan),
    (pairOf s a).live = .acquire →
    Ends (.acquireEnd a spans) s (fun t =>
      (pairOf t a).live = .syncA ∧
      (pairOf t a).sectors = (sampled s a spans).sectors ∧
      (pairOf t a).vals = (sampled s a spans).vals)) ∧
  -- the mark A window
  (∀ (s : State) (a : Nat) (preamble window : List AdcSpan) (x : LiveSector),
    (pairOf s a).live = .syncA →
    (sampled s a (preamble ++ window)).sectors.getLast? = some x →
    128 + fld s F.LNE_SYNC_CTL_WIN a ≤ x.bits.length →
    Ends (.markADecision a preamble window) s (fun t =>
      (pairOf t a).live = (if (findMark s a (markA s a) 96 x.bits).isSome then .stream else .bSearch) ∧
      ((pairOf t a).sectors.getLast?.map (fun y => y.aDone)) = some true ∧
      ((pairOf t a).sectors.getLast?.map (fun y => y.aFound)) = some (findMark s a (markA s a) 96 x.bits))) ∧
  -- the mark A window has not all left the detector
  (∀ (s : State) (a : Nat) (preamble window : List AdcSpan) (x : LiveSector),
    (pairOf s a).live = .syncA →
    (sampled s a (preamble ++ window)).sectors.getLast? = some x →
    x.bits.length < 128 + fld s F.LNE_SYNC_CTL_WIN a →
    Ends (.markADecision a preamble window) s (fun t =>
      pairOf t a = sampled s a (preamble ++ window))) ∧
  -- the mark B window of a sector whose mark A was found and whose entry is reserved
  (∀ (s : State) (a : Nat) (preamble window codeword trailer : List AdcSpan) (x : LiveSector) (rest : List LiveSector),
    (pairOf s a).sectors = x :: rest →
    (pairOf s a).reading = false →
    x.aDone = true →
    x.aFound.isSome = true →
    x.entry.isSome = true →
    x.run = (pairOf s a).runs →
    Ends (.markBDecision a preamble window codeword trailer) s (fun t =>
      fld t F.LNE_RUN_STAT_SECTORS a = min (fld s F.LNE_RUN_STAT_SECTORS a + 1) 65535 ∧
      (pairOf t a).sectors = rest ∧
      (pairOf t a).packets.length = (pairOf s a).packets.length + 1)) ∧
  -- the mark B window of a sector without mark A, mark B not sought
  (∀ (s : State) (a : Nat) (preamble window codeword trailer : List AdcSpan) (x : LiveSector) (rest : List LiveSector),
    (pairOf s a).sectors = x :: rest →
    (pairOf s a).reading = false →
    x.aDone = true →
    x.aFound = none →
    flag s F.LNE_SYNC_CTL_B_FALLBACK a = false →
    Ends (.markBDecision a preamble window codeword trailer) s (fun t =>
      (pairOf t a).sectors = rest ∧
      (pairOf t a).packets.length = (pairOf s a).packets.length + 1 ∧
      ((pairOf t a).packets.getLast?.map (fun k => (k.only, k.trailer.status))) = some (true, 2) ∧
      fld t F.LNE_CNT_SYNC_LOST a = min (fld s F.LNE_CNT_SYNC_LOST a + 1) 65535)) ∧
  -- the mark B window of a sector while the next one is read
  (∀ (s : State) (a : Nat) (preamble window codeword trailer : List AdcSpan) (x : LiveSector) (rest : List LiveSector),
    (sampled s a (preamble ++ window ++ codeword ++ trailer)).sectors = x :: rest →
    (sampled s a (preamble ++ window ++ codeword ++ trailer)).reading = true →
    (pairOf s a).reading = true →
    rest ≠ [] →
    x.aDone = true →
    Ends (.markBDecision a preamble window codeword trailer) s (fun t =>
      (pairOf t a).sectors = rest)) ∧
  -- the splice gap with sectors left
  (∀ (s : State) (a : Nat) (spans : List AdcSpan) (r : LaneRun),
    (pairOf s a).run = some r →
    ((pairOf s a).live = .stream ∨ (pairOf s a).live = .bSearch) →
    r.next < r.count →
    r.ending = none →
    Ends (.spliceGapEnd { act := a, spans := spans }) s (fun t =>
      (pairOf t a).live = .armed ∧
      (pairOf t a).gate = false ∧
      (pairOf t a).reading = false)) ∧
  -- the pair Spool slips
  (∀ (s : State) (a : Nat) (full : Bool) (spans : List AdcSpan) (x : LiveSector),
    (pairOf s a).reading = true →
    (pairOf s a).sectors.getLast? = some x →
    (spoolDrift s a full spans).spool.length = (if full then 13 else 0) →
    Ends (.pairSlip { act := a, spans := spans } full) s (fun t =>
      (pairOf t a).recentre = true ∧
      ((pairOf t a).sectors.getLast?.map (fun y => y.slip)) = some true ∧
      (pairOf t a).spool = (spoolDrift s a full spans).spool)) ∧
  -- the samples of a flagged span pass the lanes
  (∀ (s : State) (a : Nat) (spans : List AdcSpan),
    (pairOf s a).reading = true →
    Ends (.flaggedSpanOverrun { act := a, spans := spans }) s (fun t =>
      pairOf t a = sampled s a spans)) ∧
  -- a flagged span exceeds COAST_MAX in one clock: timing trust ends, and its start's timing is kept for the next preamble
  (∀ (c : PathCtl) (ys ts : List Int) (fl ft : Bool) (x : LiveSector),
    c.coastMax < spanLength (x.flagL ++ List.replicate ys.length fl) → x.lostAt = none →
    (sectorClock c ys ts fl ft x).lostAt = some x.ys.length ∧ sectorStatus { sectorClock c ys ts fl ft x with slip := false, aFound := some (0, 0) } none = 3)

/-- O5. A packet becomes a READY entry with its deadline; a decoder takes the entry its classes select. The trailer of a live packet makes its entry READY with the deadline of R118; an idle decoder takes the selected entry, which is DECODING; an early pin holds the slot; a recovery decode yields its decoder and goes HELD; urgency and age are marked. (R115, R118, R119, R120, R121, R126) -/
def Obligations.PoolIntakeAndSelection : Prop :=
  -- a live packet's trailer arrives
  (∀ (s : State) (a : Nat) (poisoned : List Nat) (k : Packet) (rest : List Packet),
    dcpFrozen s = false →
    (dcpOf s a).jobs.all (fun x => !x.want) = true →
    (pairOf s a).packets = k :: rest →
    (ctxOf s a k.ctx).used = true →
    k.job = none →
    k.only = false →
    k.live = true →
    Ends (.trailerArrival a poisoned false) s (fun t =>
      (entryOf t a k.entry).st = .ready ∧
      (entryOf t a k.entry).live = true ∧
      (entryOf t a k.entry).deadline = s.ckr.up * 40 + fld s F.DCP_OTF_CTL_DEADLINE_MULT * fld s F.DCP_SECT_TIME_NS a ∧
      (pairOf t a).packets = rest)) ∧
  -- a trailer that arrives poisoned
  (∀ (s : State) (a : Nat) (poisoned : List Nat) (k : Packet) (rest : List Packet),
    dcpFrozen s = false →
    (dcpOf s a).jobs.all (fun x => !x.want) = true →
    (pairOf s a).packets = k :: rest →
    (ctxOf s a k.ctx).used = true →
    k.job = none →
    k.entry < 16 →
    (dcpOf s a).ring.length < 64 →
    Ends (.trailerArrival a poisoned true) s (fun t =>
      (entryOf t a k.entry).st = .free ∧
      (dcpOf t a).ring.length = (dcpOf s a).ring.length + 1 ∧
      ((dcpOf t a).ring.getLast?.map (fun w => getBits w 0 8)) = some 0x34 ∧
      (dcpOf t a).jobs = (dcpOf s a).jobs)) ∧
  -- LLR words that arrive poisoned read as zero and count as erasures
  (∀ (words : List Word) (poisoned : List Nat) (i : Nat), i < words.length →
    (i ∈ poisoned → (cleared words poisoned).getD i 1#64 = 0#64) ∧ (i ∉ poisoned → (cleared words poisoned).getD i 0#64 = words.getD i 0#64)) ∧
  -- a decoder takes work
  (∀ (s : State) (d a e cls : Nat) (j : Job),
    d < 12 →
    a < s.part.acts →
    maySelect s d = true →
    selectWork s d = some (a, e, cls) →
    (dcpOf s a).jobs.all (fun x => !x.want) = true →
    jobOf s a (entryOf s a e).job = some j →
    Ends (.decoderSelect [d] false) s (fun t =>
      (entryOf t a e).st = .decoding ∧
      ((decOf t d).work.map (fun w => (w.act, w.entry, w.cls))) = some (a, e, cls))) ∧
  -- a live decode reaches EARLY_ITER
  (∀ (s : State) (d : Nat) (w : DecWork) (j : Job),
    (decOf s d).work = some w →
    w.live = true →
    fld s F.DCP_OTF_CTL_EARLY_ITER ≠ 0 →
    dcpFrozen s = false →
    flag s F.DCP_CTL_AUTO = true →
    jobOf s w.act w.job = some j →
    (ctxOf s w.act j.ctx).verify = false →
    j.pin = false →
    countBelow (fun k => (slotAt (pairOf s w.act) k).pinPool) 4 < fld s F.DCP_RCV_CTL_PIN_QUOTA →
    (slotAt (pairOf s w.act) j.slot).valid = true →
    (slotAt (pairOf s w.act) j.slot).seq = j.seq →
    pinCount (pairOf s w.act) < 2 →
    Ends (.earlyPin d) s (fun t =>
      (slotAt (pairOf t w.act) j.slot).pinPool = true)) ∧
  -- a recovery decode yields
  (∀ (s : State) (d iters : Nat) (w : DecWork),
    (decOf s d).work = some w →
    w.live = false →
    dcpFrozen s = false →
    0 < iters →
    iters % 8 = 0 →
    iters < attemptCap s w →
    urgentWaits s = true →
    idleDecoder s = false →
    Ends (.decodeYield d iters) s (fun t =>
      (decOf t d).work = none ∧
      (entryOf t w.act w.entry).st = .held)) ∧
  -- an entry becomes urgent
  (∀ (s : State) (a e : Nat),
    (entryOf s a e).live = true →
    (entryOf s a e).st = .ready →
    Ends (.entryUrgent a e) s (fun t =>
      entryOf t a e = { entryOf s a e with urgent := true })) ∧
  -- a recovery job ages
  (∀ (s : State) (a e : Nat),
    rcvReady s a (entryOf s a e) = true →
    Ends (.recoveryJobAged a e) s (fun t =>
      entryOf t a e = { entryOf s a e with aged := true })) ∧
  -- a live deadline passes
  (∀ (s : State) (a e : Nat),
    (entryOf s a e).live = true →
    (entryOf s a e).missed = false →
    ((entryOf s a e).st = .ready ∨ (entryOf s a e).st = .decoding) →
    Ends (.decodeDeadline a e) s (fun t =>
      (entryOf t a e).missed = true ∧
      fld t F.DCP_CNT_DEADLINE_MISS a = min (fld s F.DCP_CNT_DEADLINE_MISS a + 1) 65535))

/-- O6. A decode ends in a write-back or a record; records leave in order; resets and memory errors clear what they must. A converged decode with a good CRC frees its decoder and entry and issues its write-back; a VERIFY's decode that reaches its cap posts its record; write-backs and timeouts retire their jobs; a read pops the oldest record; submissions are refused or queued; a decoder with a memory error is OUT. (R114, R123, R128, R130, R131, R135, R137, R141) -/
def Obligations.PoolEndsAndRecords : Prop :=
  -- convergence with a good CRC
  (∀ (s : State) (d iters : Nat) (data : List Byte) (w : DecWork) (j : Job),
    (decOf s d).work = some w →
    dcpFrozen s = false →
    0 < iters →
    iters ≤ attemptCap s w →
    jobOf s w.act w.job = some j →
    data.length = 4112 →
    sectorCrc ((ctxOf s w.act j.ctx).lba + BitVec.ofNat 64 j.sector) (data.take 4108) = BitVec.ofNat 32 (leNat (data.drop 4108)) →
    Ends (.decodeConverged d iters data) s (fun t =>
      (decOf t d).work = none ∧
      (entryOf t w.act w.entry).st = .free ∧
      (dcpOf t w.act).wbs.length = (dcpOf s w.act).wbs.length + 1)) ∧
  -- a VERIFY's decode reaches its cap
  (∀ (s : State) (d : Nat) (w : DecWork) (j : Job),
    (decOf s d).work = some w →
    dcpFrozen s = false →
    w.live = true →
    jobOf s w.act w.job = some j →
    (ctxOf s w.act j.ctx).verify = true →
    Ends (.decodeCap d) s (fun t =>
      (decOf t d).work = none ∧
      (entryOf t w.act w.entry).st = .free ∧
      jobOf t w.act w.job = none)) ∧
  -- a write-back's last response
  (∀ (s : State) (a job : Nat) (err : Bool) (w : WriteBack),
    (dcpOf s a).wbs.find? (fun x => decide (x.job = job)) = some w →
    (dcpOf s a).ring.length < 64 →
    (dcpOf s a).jobs.all (fun x => !x.want) = true →
    Ends (.writebackDone a job err) s (fun t =>
      (dcpOf t a).wbs.all (fun x => decide (x.job ≠ job)) = true ∧
      (dcpOf t a).ring.length = (dcpOf s a).ring.length + 1)) ∧
  -- HW_LIMIT passes
  (∀ (s : State) (a job iters : Nat) (j : Job),
    dcpFrozen s = false →
    jobOf s a job = some j →
    j.failed = true →
    j.won = false →
    j.submit = none →
    rcvFld j.rcv F.DCP_RCV_CTL_HW_LIMIT ≠ 0 →
    Ends (.recoveryTimeout a { job := job, iters := iters }) s (fun t =>
      jobOf t a job = none)) ∧
  -- the stopped pool stays as it is
  (∀ (s : State) (a job iters : Nat),
    dcpFrozen s = true →
    Ends (.recoveryTimeout a { job := job, iters := iters }) s (fun t =>
      t = s)) ∧
  -- a read of DCP_CPL_a
  (∀ (s : State) (a : Nat) (w : Word) (rest : List Word),
    a < s.part.acts →
    (dcpOf s a).ring = w :: rest →
    (dcpOf s a).held = [] →
    Ends (.dcpCplRead a) s (fun t =>
      t.bus = { value := w, err := false } ∧
      (dcpOf t a).ring = rest)) ∧
  -- a read of an empty ring
  (∀ (s : State) (a : Nat),
    a < s.part.acts →
    (dcpOf s a).ring = [] →
    Ends (.dcpCplRead a) s (fun t =>
      t = { s with bus := { value := 0#64, err := false } })) ∧
  -- a submission of a slot that no longer holds the sector
  (∀ (s : State) (a : Nat) (v : Word),
    a < s.part.acts →
    bit v 54 = true →
    flag s F.DCP_SUBMIT_BUSY a = false →
    dcpFrozen s = false →
    ((slotAt (pairOf s a) (getBits v 0 2)).valid = false ∨ (slotAt (pairOf s a) (getBits v 0 2)).seq ≠ getBits v 2 16) →
    Ends (.dcpSubmit a v) s (fun t =>
      fld t F.DCP_SUBMIT_STATUS a = 0x21 ∧
      dcpOf t a = dcpOf s a ∧
      pairOf t a = pairOf s a)) ∧
  -- a submission that is accepted
  (∀ (s : State) (a : Nat) (v : Word),
    a < s.part.acts →
    bit v 54 = true →
    flag s F.DCP_SUBMIT_BUSY a = false →
    dcpFrozen s = false →
    replayStatus (pairOf s a) (getBits v 0 2) (getBits v 2 16) (bit v 25) (signed 7 (getBits v 18 7)) = 0 →
    (ctxOf s a (getBits v 27 3)).used = true →
    (dcpOf s a).jobs.all (fun x => decide (x.id ≠ (dcpOf s a).nextJob)) = true →
    Ends (.dcpSubmit a v) s (fun t =>
      fld t F.DCP_SUBMIT_STATUS a = 0 ∧
      (pairOf t a).replays.length = (pairOf s a).replays.length + 1 ∧
      (dcpOf t a).jobs.length = (dcpOf s a).jobs.length + 1)) ∧
  -- a submission with one still being accepted
  (∀ (s : State) (a : Nat) (v : Word),
    bit v 54 = true →
    flag s F.DCP_SUBMIT_BUSY a = true →
    Ends (.dcpSubmit a v) s (fun t =>
      t = s)) ∧
  -- a decoder's own memories fail
  (∀ (s : State) (d : Nat),
    d < s.part.decoders →
    Ends (.decoderMemoryError d) s (fun t =>
      (decOf t d).out = true ∧
      (decOf t d).work = none ∧
      bit (rd t .DCP_CTL 0) d = false)) ∧
  -- a block reset of DCP
  (∀ (s : State),
    Ends (.dcpBlockReset) s (fun t =>
      flag t F.CKR_BRST_DCP = false ∧
      (∀ d ∈ List.range s.part.decoders, decOf t d = {}) ∧
      (∀ a ∈ List.range s.part.acts, (dcpOf t a).entries = [] ∧ (dcpOf t a).jobs = [] ∧ (pairOf t a).run = none)))

/-- O7. A write run from its first fetch to its end or its block reset. WG_a rises when the accepted run's write-mode frame has ended, its first sector is staged and nothing inhibits the gate; a fetched sector is staged with its CRC; a bus error or data that comes late ends the run with its status; a slipped preheat revolution is counted. The last postamble bit of a sector written with WG high raises WRITTEN and SECTORS; after the last sector the run ends with STATUS 0, WG low and source 520 + a pending; a block reset of WRP ends each run with WRP_RESET. (R49, R149, R151, R154, R155, R156, R157) -/
def Obligations.WriteRuns : Prop :=
  -- WG_a rises
  (∀ (s : State) (a theta : Nat) (r : WrRun),
    a < s.part.acts →
    (wrpOf s a).run = some r →
    (r.writing = false ∨ r.pad = true) →
    r.frameDone = true →
    nextStaged s a r = true →
    inhibits s a = 0 →
    Ends (.wgRise { act := a, theta := theta }) s (fun t =>
      (hdlOf t a).wg = true ∧
      fld t F.WRP_RUN_STAT_STATE a = 2 ∧
      (wrpOf t a).run = some { r with writing := true, pad := false })) ∧
  -- a gate that an inhibit holds does not rise
  (∀ (s : State) (a theta : Nat),
    inhibits s a ≠ 0 →
    Ends (.wgRise { act := a, theta := theta }) s (fun t =>
      t = s)) ∧
  -- a sector's data arrives
  (∀ (s : State) (a sector : Nat) (r : WrRun),
    (wrpOf s a).run = some r →
    sector ∈ r.fetching →
    (busRead s portWrp (r.base + sector * r.stride) 4104).1.isSome = true →
    Ends (.sectorFetchDone a sector false) s (fun t =>
      (wrpOf t a).run = some { r with
          fetching := r.fetching.filter (fun k => decide (k ≠ sector)),
          staged := r.staged ++ [{
            index := sector,
            data := infoBytes (r.lba + BitVec.ofNat 64 sector)
                ((busRead s portWrp (r.base + sector * r.stride) 4104).1.getD []) }] })) ∧
  -- a fetch of the next sector to be written meets a bus error
  (∀ (s : State) (a sector : Nat) (r : WrRun),
    a < s.part.acts →
    (wrpOf s a).run = some r →
    sector ∈ r.fetching →
    fld s F.WRP_RUN_STAT_WRITTEN a = sector →
    Ends (.sectorFetchDone a sector true) s (fun t =>
      (wrpOf t a).run = none ∧
      fld t F.WRP_RUN_STAT_STATUS a = 0x55 ∧
      fld t F.WRP_RUN_STAT_STATE a = 0 ∧
      (hdlOf t a).wg = false ∧
      pendingBit t (520 + a) = true)) ∧
  -- a fetch of a later sector meets a bus error
  (∀ (s : State) (a sector : Nat) (r : WrRun),
    (wrpOf s a).run = some r →
    sector ∈ r.fetching →
    fld s F.WRP_RUN_STAT_WRITTEN a ≠ sector →
    r.bad = none →
    Ends (.sectorFetchDone a sector true) s (fun t =>
      ((wrpOf t a).run.map (fun x => (x.bad, x.staged))) = some (some sector, r.staged))) ∧
  -- the next sector's data is late while a sector is being written
  (∀ (s : State) (a : Nat) (r : WrRun),
    (wrpOf s a).run = some r →
    (hdlOf s a).wg = true →
    r.inSector = true →
    fld s F.WRP_RUN_STAT_WRITTEN a + 1 < r.count →
    r.staged.any (fun x => decide (x.index = fld s F.WRP_RUN_STAT_WRITTEN a + 1)) = false →
    Ends (.dataLate a) s (fun t =>
      (wrpOf t a).run = some { r with ending := some (firstEnd r.ending 0x54) })) ∧
  -- the data of the sector to be written is late
  (∀ (s : State) (a : Nat) (r : WrRun),
    a < s.part.acts →
    (wrpOf s a).run = some r →
    r.inSector = false →
    fld s F.WRP_RUN_STAT_WRITTEN a < r.count →
    r.staged.any (fun x => decide (x.index = fld s F.WRP_RUN_STAT_WRITTEN a)) = false →
    Ends (.dataLate a) s (fun t =>
      (wrpOf t a).run = none ∧
      fld t F.WRP_RUN_STAT_STATUS a = firstEnd r.ending 0x54 ∧
      (r.ending = none → fld t F.WRP_CNT_DATA_FAIL a = min (fld s F.WRP_CNT_DATA_FAIL a + 1) 255))) ∧
  -- a preheat revolution is lost
  (∀ (s : State) (a : Nat) (r : WrRun),
    (wrpOf s a).run = some r →
    r.writing = false →
    Ends (.preheatSlip a) s (fun t =>
      fld t F.WRP_CNT_PREHEAT_SLIP a = min (fld s F.WRP_CNT_PREHEAT_SLIP a + 1) 255 ∧
      (∃ u, t = { s with regs := u } ∧ ∀ q i, ¬(q = .WRP_CNT ∧ i = a) → rd t q i = rd s q i))) ∧
  -- a sector is written
  (∀ (s : State) (a : Nat) (r : WrRun),
    a < s.part.acts →
    (wrpOf s a).run = some r →
    (hdlOf s a).wg = true →
    r.inSector = true →
    r.ending = none →
    r.bad = none →
    (r.slot0 + (fld s F.WRP_RUN_STAT_WRITTEN a + 1) % 65536) % r.spt ≠ 0 →
    Ends (.sectorWritten a) s (fun t =>
      fld t F.WRP_RUN_STAT_WRITTEN a = (fld s F.WRP_RUN_STAT_WRITTEN a + 1) % 65536 ∧
      fld t F.WRP_CNT_SECTORS a = min (fld s F.WRP_CNT_SECTORS a + 1) 4294967295 ∧
      ((wrpOf t a).run.map (fun x => (x.inSector, x.count))) = some (false, r.count) ∧
      (hdlOf t a).wg = true)) ∧
  -- the sector written is in the track's last slot, and the run goes on
  (∀ (s : State) (a : Nat) (r : WrRun),
    a < s.part.acts →
    (wrpOf s a).run = some r →
    (hdlOf s a).wg = true →
    r.inSector = true →
    r.ending = none →
    r.bad = none →
    (r.slot0 + (fld s F.WRP_RUN_STAT_WRITTEN a + 1) % 65536) % r.spt = 0 →
    (fld s F.WRP_RUN_STAT_WRITTEN a + 1) % 65536 < r.count →
    Ends (.sectorWritten a) s (fun t =>
      fld t F.WRP_RUN_STAT_WRITTEN a = (fld s F.WRP_RUN_STAT_WRITTEN a + 1) % 65536 ∧
      ((wrpOf t a).run.map (fun x => (x.inSector, x.pad))) = some (false, true) ∧
      (hdlOf t a).wg = false)) ∧
  -- the times of a slot's transitions: never less than half a bit apart, and unshifted without precompensation
  (∀ (m k : Nat) (x : Nat × Int) (prev : Option Nat) (rest : List Nat) (pc : Option Nat),
    ((edgeTimes pc (some x) prev (m :: rest)).head?.map (fun e => (e.1, decide (x.2 + 32 ≤ e.2)))) = some (m, true) ∧
    (edgeTimes none none prev (m :: rest)).head? = some (m, 64 * (m : Int)) ∧
    (edgeTimes (some k) none none (m :: rest)).head? = some (m, 64 * (m : Int) + pcOf k (b2n (decide (rest.head? = some (m + 1)))))) ∧
  -- the run's last sector has been written
  (∀ (s : State) (a : Nat) (r : WrRun),
    a < s.part.acts →
    (wrpOf s a).run = some r →
    r.writing = true →
    r.inSector = false →
    fld s F.WRP_RUN_STAT_WRITTEN a = r.count →
    Ends (.writeRunEnd a) s (fun t =>
      (wrpOf t a).run = none ∧
      (hdlOf t a).wg = false ∧
      fld t F.WRP_RUN_STAT_STATE a = 0 ∧
      fld t F.WRP_RUN_STAT_STATUS a = 0 ∧
      fld t F.WRP_RUN_STAT_WRITTEN a = r.count ∧
      pendingBit t (520 + a) = true)) ∧
  -- a block reset of WRP
  (∀ (s : State) (a : Nat) (r : WrRun),
    a < s.part.acts →
    (wrpOf s a).run = some r →
    Ends (.wrpBlockReset) s (fun t =>
      (wrpOf t a).run = none ∧
      fld t F.WRP_RUN_STAT_STATUS a = firstEnd r.ending 0x53 ∧
      flag t F.CKR_BRST_WRP = false))

/-- O8. A Selvage channel's lock, samples, crossings, identity frames and block reset. LOCKED rises at the tone lock; a sample publishes the PES of R177 with its flags; a disabled channel's sample counts as invalid; the fourth sample after a law tick waits for the next; a crossing moves the carried track by one, and clears TRK_VALID when it is too fast or LOCKED falls during it; an accepted still frame makes the carried track the one it decodes; a block reset clears the channel's validity. (R175, R176, R177, R179, R180, R181, R184) -/
def Obligations.ServoChannel : Prop :=
  -- the tone locks
  (∀ (s : State) (a : Nat),
    a < s.part.acts →
    flag s F.SVG_CTL_EN a = true →
    Ends (.toneLock a) s (fun t =>
      flag t F.SVG_TONE_LOCKED a = true ∧
      (∃ u, t = { s with regs := u } ∧ ∀ q i, ¬(q = .SVG_TONE ∧ i = a) → rd t q i = rd s q i))) ∧
  -- what a window's two tones give (R177)
  (∀ (s : State) (a fA theta : Nat) (samples : List Int) (boundary : Option Nat) (A B : Nat),
    toneMags s a fA theta boundary (window s a fA samples) = (A, B) → 0 < A + B →
    (demod s a samples boundary fA theta).pes = clampInt (-2048) 2047 (divRound
    (((A : Int) - B) * 1024 * (fld s F.SVG_PESCAL_PES_GAIN (pescal s a) : Nat)) ((A + B) * 16384)
    + signed 16 (fld s F.SVG_PESCAL_PES_OFS (pescal s a))) ∧
    (demod s a samples boundary fA theta).unlock = !flag s F.SVG_TONE_LOCKED a ∧
    (demod s a samples boundary fA theta).clip = decide (fld s F.SVG_CTL_CLIP_MAX a < fullScale (window s a fA samples)) ∧
    ((demod s a samples boundary fA theta).lin = true → (demod s a samples boundary fA theta).pes.natAbs ≤ 1024)) ∧
  -- a sample of an enabled channel is published
  (∀ (s : State) (a fA theta cycles : Nat) (newer older : List Int) (boundary : Option Nat),
    a < s.part.acts →
    flag s F.SVG_CTL_EN a = true →
    Ends (.pesSample a newer older boundary fA theta cycles) s (fun t =>
      fld t F.SVG_PES_PES a = narrow 16 (demod (passCycles (strobe s a) a cycles) a (newer ++ older) boundary fA theta).pes ∧
      flag t F.SVG_PES_VALID a = (demod (passCycles (strobe s a) a cycles) a (newer ++ older) boundary fA theta).valid ∧
      flag t F.SVG_PES_UNLOCK a = !flag s F.SVG_TONE_LOCKED a ∧
      fld t F.SVG_PES_SAMPLE a = (fld s F.SVG_PES_SAMPLE a + 1) % 65536)) ∧
  -- a sample with the tone unlocked is invalid
  (∀ (s : State) (a fA theta cycles : Nat) (newer older : List Int) (boundary : Option Nat),
    a < s.part.acts →
    flag s F.SVG_CTL_EN a = true →
    flag s F.SVG_TONE_LOCKED a = false →
    (cteOf s a).nth < 3 →
    supervised s a = true →
    Ends (.pesSample a newer older boundary fA theta cycles) s (fun t =>
      flag t F.SVG_PES_VALID a = false ∧
      (cteOf t a).coastRun = (cteOf s a).coastRun + 1 ∧
      flag t F.CTE_STAT_OT a = true)) ∧
  -- a disabled channel's sample
  (∀ (s : State) (a fA theta cycles : Nat) (newer older : List Int) (boundary : Option Nat),
    a < s.part.acts →
    flag s F.SVG_CTL_EN a = false →
    (cteOf s a).nth < 3 →
    supervised s a = true →
    Ends (.pesSample a newer older boundary fA theta cycles) s (fun t =>
      rd t .SVG_PES a = rd s .SVG_PES a ∧
      (cteOf t a).coastRun = (cteOf s a).coastRun + 1 ∧
      flag t F.CTE_STAT_OT a = true)) ∧
  -- the fourth sample after a law tick waits for the next
  (∀ (s : State) (a fA theta cycles : Nat) (newer older : List Int) (boundary : Option Nat),
    a < s.part.acts →
    3 ≤ (cteOf s a).nth →
    (cteOf s a).held = none →
    Ends (.pesSample a newer older boundary fA theta cycles) s (fun t =>
      (cteOf t a).held.isSome = true ∧
      (cteOf t a).xh = (cteOf s a).xh ∧
      (cteOf t a).coastRun = (cteOf s a).coastRun)) ∧
  -- a crossing at a rate that can be counted
  (∀ (s : State) (a cycles : Nat) (inward unlock : Bool),
    a < s.part.acts →
    flag s F.SVG_CTL_EN a = true →
    Ends (.stripeCrossing a inward { fast := false, unlock := unlock, cycles := cycles }) s (fun t =>
      (svgOf t a).track = (if inward then (svgOf s a).track + 1 else (svgOf s a).track + 2 ^ 21 - 1) % 2 ^ 21 ∧
      (svgOf t a).idConf = false ∧
      (flag s F.SVG_TONE_LOCKED a = true → unlock = true → (svgOf t a).trkValid = false) ∧
      (flag s F.SVG_TONE_LOCKED a = false → (svgOf t a).trkValid = (svgOf s a).trkValid))) ∧
  -- a crossing counted, the tone and its zone as they were
  (∀ (s : State) (a cycles : Nat) (inward : Bool),
    a < s.part.acts →
    flag s F.SVG_CTL_EN a = true →
    svgZone s (svgOf s a).track = svgZone s ((if inward then (svgOf s a).track + 1 else (svgOf s a).track + 2 ^ 21 - 1) % 2 ^ 21) →
    Ends (.stripeCrossing a inward { fast := false, unlock := false, cycles := cycles }) s (fun t =>
      (svgOf t a).trkValid = (svgOf s a).trkValid ∧
      rd t .SVG_TONE a = rd s .SVG_TONE a ∧
      fld t F.SVG_CNT_RATE_HIGH a = fld s F.SVG_CNT_RATE_HIGH a)) ∧
  -- a crossing that takes the carried track to another zone
  (∀ (s : State) (a cycles z : Nat) (inward : Bool),
    a < s.part.acts →
    flag s F.SVG_CTL_EN a = true →
    flag s F.SVG_TONE_LOCKED a = true →
    svgZone s ((if inward then (svgOf s a).track + 1 else (svgOf s a).track + 2 ^ 21 - 1) % 2 ^ 21) = some z →
    svgZone s (svgOf s a).track ≠ some z →
    Ends (.stripeCrossing a inward { fast := false, unlock := false, cycles := cycles }) s (fun t =>
      flag t F.SVG_TONE_LOCKED a = false ∧
      (svgOf t a).angValid = false ∧
      (svgOf t a).trkValid = false ∧
      fld t F.SVG_CNT_RATE_HIGH a = min (fld s F.SVG_CNT_RATE_HIGH a + 1) 255)) ∧
  -- a crossing beyond the countable rate
  (∀ (s : State) (a cycles : Nat) (inward unlock : Bool),
    a < s.part.acts →
    flag s F.SVG_CTL_EN a = true →
    Ends (.stripeCrossing a inward { fast := true, unlock := unlock, cycles := cycles }) s (fun t =>
      (svgOf t a).trkValid = false ∧
      (svgOf t a).idConf = false ∧
      fld t F.SVG_CNT_RATE_HIGH a = min (fld s F.SVG_CNT_RATE_HIGH a + 1) 255)) ∧
  -- an accepted still frame while no track is carried
  (∀ (s : State) (a symbols cycles w : Nat) (inv : Bool),
    a < s.part.acts →
    flag s F.SVG_CTL_EN a = true →
    flag s F.SVG_CTL_SURF_CHK a = false →
    framePosition (passCycles s a cycles) a = true →
    frameSymbols (svgOf s a) symbols = some (w, inv) →
    crc8 22 (symField w 34 22) = symField w 56 8 →
    (svgOf s a).trkValid = false →
    frameStill (svgOf (passCycles s a cycles) a) = true →
    Ends (.identityFrame a symbols cycles) s (fun t =>
      (svgOf t a).trkValid = true ∧
      (svgOf t a).idConf = true ∧
      (svgOf t a).track = grayDecode 21 (symField w 13 21) ∧
      (svgOf t a).age = 0)) ∧
  -- a frame that does not fit its check is not accepted
  (∀ (s : State) (a symbols cycles w : Nat) (inv : Bool),
    a < s.part.acts →
    flag s F.SVG_CTL_EN a = true →
    frameSymbols (svgOf s a) symbols = some (w, inv) →
    crc8 22 (symField w 34 22) ≠ symField w 56 8 →
    Ends (.identityFrame a symbols cycles) s (fun t =>
      (svgOf t a).track = (svgOf s a).track ∧
      (svgOf t a).trkValid = (svgOf s a).trkValid ∧
      (svgOf t a).idConf = (svgOf s a).idConf ∧
      t.regs = s.regs)) ∧
  -- a block reset of a channel
  (∀ (s : State) (a : Nat),
    a < s.part.acts →
    Ends (.svgBlockReset a) s (fun t =>
      (svgOf t a).trkValid = false ∧
      (svgOf t a).idConf = false ∧
      (svgOf t a).angValid = false ∧
      flag t F.SVG_TONE_LOCKED a = false ∧
      getBits (rd t .CKR_BRST 0) (6 + a) 1 = 0))

/-- O9. Settling, the off-track flag, supervision and HOLD. The settle criteria bring FOLLOW and complete the seek; clean samples lower the off-track flag; a failed residual or a long coast raises it and asks for HOLD; the timeouts of SETTLE, ACQUIRE, REACQ and HOLD act at the next law boundary as Table 6.6 says. (R193, R197, R198, R202, R203, R204) -/
def Obligations.ActuatorSettling : Prop :=
  -- the settle criteria are met
  (∀ (s : State) (a : Nat),
    cteState s a = stSettle →
    fld s F.CTE_SETTLE_SETTLE_CNT a ≤ (cteOf s a).settleRun →
    (svgOf s a).trkValid = true →
    (svgOf s a).track = (cteOf s a).track →
    Ends (.settleCriteriaMet a) s (fun t =>
      cteState t a = stFollow ∧
      (cteOf t a).seek = none)) ∧
  -- enough clean samples
  (∀ (s : State) (a : Nat),
    (cteState s a = stFollow ∨ cteState s a = stExt) →
    fldIn s a F.CTE_OT_OT_CLR a ≤ (cteOf s a).cleanRun →
    Ends (.offTrackClear a) s (fun t =>
      flag t F.CTE_STAT_OT a = false ∧
      (∃ u, t = { s with regs := u } ∧ ∀ q i, ¬(q = .CTE_STAT ∧ i = a) → rd t q i = rd s q i))) ∧
  -- the residual test fails
  (∀ (s : State) (a : Nat),
    supervised s a = true →
    max 1 (fldIn s a F.CTE_RES_CNT_CNT a) ≤ fld s F.CTE_STAT_RES_RUN a →
    (cteOf s a).hold = none →
    Ends (.residualFail a) s (fun t =>
      (cteOf t a).hold = some 1 ∧
      flag t F.CTE_STAT_OT a = true)) ∧
  -- COAST_MAX invalid samples in a row
  (∀ (s : State) (a : Nat),
    supervised s a = true →
    max 1 (fld s F.SVG_CTL_COAST_MAX a) ≤ (cteOf s a).coastRun →
    (cteOf s a).hold = none →
    Ends (.coastMaxReached a) s (fun t =>
      (cteOf t a).hold = some 2 ∧
      flag t F.CTE_STAT_OT a = true)) ∧
  -- SETTLE_TMO in SETTLE: its transition waits for the next law boundary
  (∀ (s : State) (a : Nat),
    cteState s a = stSettle →
    Ends (.settleTimeout a) s (fun t =>
      t = setCte s a { cteOf s a with due := some .settleTmo })) ∧
  -- SETTLE_TMO at the boundary, a seek of firmware's pending
  (∀ (s : State) (a ain : Nat) (q : SeekReq),
    a < s.part.acts →
    unloadDue s a = false →
    (cteOf s a).hold = none →
    s.cal.pending = [] →
    (cteOf s a).due = some .settleTmo →
    cteState s a = stSettle →
    (cteOf s a).seek = some q →
    q.who = .firmware →
    Ends (.lawTick a ain) s (fun t =>
      fld t F.CTE_SEEK_STATUS a = 0x60 ∧
      flag t F.CTE_SEEK_BUSY a = false ∧
      fld t F.CTE_CNT_SEEK_FAIL a = min (fld s F.CTE_CNT_SEEK_FAIL a + 1) 65535 ∧
      cteState t a = stSettle ∧
      (cteOf t a).seek = none)) ∧
  -- ACQ_TMO in ACQUIRE without a track: its transition waits for the next law boundary
  (∀ (s : State) (a : Nat),
    cteState s a = stAcquire →
    (svgOf s a).trkValid = false →
    Ends (.acquireTimeout a) s (fun t =>
      t = setCte s a { cteOf s a with due := some .acqTmo })) ∧
  -- ACQ_TMO in REACQ: its transition waits for the next law boundary
  (∀ (s : State) (a : Nat),
    cteState s a = stReacq →
    Ends (.acquireTimeout a) s (fun t =>
      t = setCte s a { cteOf s a with due := some .acqTmo })) ∧
  -- ACQ_TMO at the boundary, in ACQUIRE without a track
  (∀ (s : State) (a ain : Nat),
    a < s.part.acts →
    unloadDue s a = false →
    (cteOf s a).hold = none →
    s.cal.pending = [] →
    (cteOf s a).due = some .acqTmo →
    cteState s a = stAcquire →
    (svgOf s a).trkValid = false →
    Ends (.lawTick a ain) s (fun t =>
      cteState t a = stHold ∧
      fld t F.CTE_STAT_HOLD_CAUSE a = 2 ∧
      (cteOf t a).seek = none ∧
      fld t F.CTE_CNT_HOLDS a = min (fld s F.CTE_CNT_HOLDS a + 1) 65535)) ∧
  -- ACQ_TMO at the boundary, in REACQ
  (∀ (s : State) (a ain : Nat),
    a < s.part.acts →
    unloadDue s a = false →
    (cteOf s a).hold = none →
    s.cal.pending = [] →
    (cteOf s a).due = some .acqTmo →
    cteState s a = stReacq →
    Ends (.lawTick a ain) s (fun t =>
      cteState t a = stHold ∧
      fld t F.CTE_STAT_HOLD_CAUSE a = 3 ∧
      (cteOf t a).seek = none)) ∧
  -- HOLD_TMO in HOLD: its transition waits for the next law boundary
  (∀ (s : State) (a : Nat),
    cteState s a = stHold →
    Ends (.holdTimeout a) s (fun t =>
      t = setCte s a { cteOf s a with due := some .holdTmo })) ∧
  -- HOLD_TMO at the boundary
  (∀ (s : State) (a ain : Nat),
    a < s.part.acts →
    unloadDue s a = false →
    (cteOf s a).hold = none →
    s.cal.pending = [] →
    (cteOf s a).due = some .holdTmo →
    cteState s a = stHold →
    Ends (.lawTick a ain) s (fun t =>
      cteState t a = stUnloading ∧
      (cteOf t a).phase = 1 ∧
      fld t F.CTE_CNT_EMERG a = min (fld s F.CTE_CNT_EMERG a + 1) 65535))

/-- O10. Loading, unloading and parking; a block reset of CTE. A LOAD waiting at a law boundary of a parked actuator starts LOADING at LOAD_I when the spindle is locked and the HDA paired; the stripe found brings ACQUIRE; LOAD_TMO fails the LOAD and unloads; UNLOAD_T and PHOLD_T lead through the hold drive to PARKED; a block reset is refused unless every actuator is PARKED. (R57, R192, R193, R206, R207, R209) -/
def Obligations.ActuatorLoadAndPark : Prop :=
  -- a LOAD taken at a law boundary
  (∀ (s : State) (a ain : Nat),
    a < s.part.acts →
    cteState s a = stParked →
    unloadDue s a = false →
    (cteOf s a).hold = none →
    (cteOf s a).mediaReq = [] →
    (cteOf s a).fwReq = none →
    (cteOf s a).cmdReq = some .load →
    s.cal.pending = [] →
    (cteOf s a).due = none →
    paired s = true →
    spindleLocked s = true →
    s.spn.retract = none →
    Nat.testBit (fld s F.PWS_FAULT_VCM_SHORT) a = false →
    Ends (.lawTick a ain) s (fun t =>
      cteState t a = stLoading ∧
      (cteOf t a).vcm = signed 16 (fld s F.CTE_LOAD_LOAD_I a) ∧
      tget (dflt 0) t.tag.shadow 0 = tget (dflt 0) s.tag.shadow 0 + 1 ∧
      (cteOf t a).cmdReq = none)) ∧
  -- a LOAD without a paired HDA
  (∀ (s : State) (a ain : Nat),
    a < s.part.acts →
    cteState s a = stParked →
    unloadDue s a = false →
    (cteOf s a).hold = none →
    (cteOf s a).mediaReq = [] →
    (cteOf s a).fwReq = none →
    (cteOf s a).cmdReq = some .load →
    s.cal.pending = [] →
    (cteOf s a).due = none →
    paired s = false →
    Ends (.lawTick a ain) s (fun t =>
      cteState t a = stParked ∧
      fld t F.CTE_CMD_STATUS a = 0x5A ∧
      flag t F.CTE_CMD_BUSY a = false)) ∧
  -- the stripe is found in LOADING: its transition waits for the next law boundary
  (∀ (s : State) (a : Nat),
    cteState s a = stLoading →
    8 ≤ (cteOf s a).sumRun →
    Ends (.loadStripeFound a) s (fun t =>
      t = setCte s a { cteOf s a with due := some .stripe })) ∧
  -- the stripe found, at the boundary
  (∀ (s : State) (a ain : Nat),
    a < s.part.acts →
    unloadDue s a = false →
    (cteOf s a).hold = none →
    s.cal.pending = [] →
    (cteOf s a).due = some .stripe →
    cteState s a = stLoading →
    Ends (.lawTick a ain) s (fun t =>
      cteState t a = stAcquire ∧
      (svgOf t a).trkValid = false)) ∧
  -- LOAD_TMO in LOADING: its transition waits for the next law boundary
  (∀ (s : State) (a : Nat),
    cteState s a = stLoading →
    Ends (.loadTimeout a) s (fun t =>
      t = setCte s a { cteOf s a with due := some .loadTmo })) ∧
  -- LOAD_TMO at the boundary
  (∀ (s : State) (a ain : Nat),
    a < s.part.acts →
    unloadDue s a = false →
    (cteOf s a).hold = none →
    s.cal.pending = [] →
    (cteOf s a).due = some .loadTmo →
    cteState s a = stLoading →
    (cteOf s a).cmd = some .load →
    (cteOf s a).cmdReq = none →
    Ends (.lawTick a ain) s (fun t =>
      cteState t a = stUnloading ∧
      fld t F.CTE_CMD_STATUS a = 0x67 ∧
      flag t F.CTE_CMD_BUSY a = false ∧
      ((cteOf t a).phase = if (svgOf s a).trkValid then 0 else 1))) ∧
  -- UNLOAD_T ends
  (∀ (s : State) (a : Nat),
    cteState s a = stUnloading →
    (cteOf s a).phase = 1 →
    Ends (.unloadDriveEnd a) s (fun t =>
      t = setCte s a { cteOf s a with phase := 2 })) ∧
  -- PHOLD_T ends
  (∀ (s : State) (a : Nat),
    a < s.part.acts →
    cteState s a = stUnloading →
    (cteOf s a).phase = 2 →
    (cteOf s a).cmd = some .park →
    Ends (.parkHoldEnd a) s (fun t =>
      cteState t a = stParked ∧
      (cteOf t a).vcm = 0 ∧
      fld t F.CTE_CMD_STATUS a = 0 ∧
      flag t F.CTE_CMD_BUSY a = false)) ∧
  -- a block reset with every actuator parked
  (∀ (s : State) (n : Nat),
    allParked s = true →
    spnState s ≠ spRun →
    n < 5 →
    Ends (.cteBlockReset) s (fun t =>
      cteOf t n = { cteOf s n with xh := [], notch := [], uv := 0, um := 0, vcm := 0, mact := 0, nth := 0, held := none, late := [], ptr := 0 } ∧
      flag t F.CKR_BRST_CTE = false)) ∧
  -- a block reset with an actuator loaded
  (∀ (s : State),
    allParked s = false →
    (waitingAt s .cte).length < 4 →
    Ends (.cteBlockReset) s (fun t =>
      t.cte = s.cte ∧
      waitingAt t .cte = waitingAt s .cte ++ [faultMsg 576 FK.cteResetRefused 4 0] ∧
      flag t F.CKR_BRST_CTE = false))

/-- O11. Commands written to CTE's registers. CTE_SEEK_a with GO issues a seek, or completes SEEK_BUSY while one runs; CTE_CMD_a issues LOAD and RESUME or records an overrun; PARK completes at once when parked and asks for an unload otherwise; the external set-point may be enabled only in MANUFACTURE and RETURN. (R195, R205, R216, R217, R224) -/
def Obligations.ActuatorCommands : Prop :=
  -- a seek is issued
  (∀ (s : State) (a : Nat) (v : Word),
    a < s.part.acts →
    flag s F.CTE_SEEK_BUSY a = false →
    bit v 37 = true →
    Ends (.cteSeek a v) s (fun t =>
      flag t F.CTE_SEEK_BUSY a = true ∧
      fld t F.CTE_SEEK_TRACK a = getBits v 0 21 ∧
      fld t F.CTE_SEEK_OFFSET a = getBits v 21 16 ∧
      (cteOf t a).fwReq = some { track := getBits v 0 21, offset := signed 16 (getBits v 21 16) })) ∧
  -- a seek while one runs
  (∀ (s : State) (a : Nat) (v : Word),
    a < s.part.acts →
    flag s F.CTE_SEEK_BUSY a = true →
    bit v 37 = true →
    Ends (.cteSeek a v) s (fun t =>
      fld t F.CTE_SEEK_STATUS a = 0x65 ∧
      flag t F.CTE_SEEK_BUSY a = true ∧
      fld t F.CTE_SEEK_TRACK a = getBits v 0 21 ∧
      pendingBit t (592 + a) = true ∧
      t.cte = s.cte)) ∧
  -- LOAD
  (∀ (s : State) (a : Nat),
    a < s.part.acts →
    flag s F.CTE_CMD_BUSY a = false →
    Ends (.load a) s (fun t =>
      (cteOf t a).cmdReq = some .load ∧
      flag t F.CTE_CMD_BUSY a = true)) ∧
  -- RESUME
  (∀ (s : State) (a : Nat),
    a < s.part.acts →
    flag s F.CTE_CMD_BUSY a = false →
    Ends (.resume a) s (fun t =>
      (cteOf t a).cmdReq = some .resume ∧
      flag t F.CTE_CMD_BUSY a = true)) ∧
  -- LOAD while a command runs
  (∀ (s : State) (a : Nat),
    a < s.part.acts →
    flag s F.CTE_CMD_BUSY a = true →
    Ends (.load a) s (fun t =>
      flag t F.CTE_CMD_OVERRUN a = true ∧
      t.cte = s.cte)) ∧
  -- PARK of a parked actuator
  (∀ (s : State) (a : Nat),
    a < s.part.acts →
    cteState s a = stParked →
    Ends (.park a) s (fun t =>
      fld t F.CTE_CMD_STATUS a = 0 ∧
      flag t F.CTE_CMD_BUSY a = false ∧
      (cteOf t a).cmdReq = none ∧
      pendingBit t (592 + a) = true)) ∧
  -- PARK of a loaded actuator
  (∀ (s : State) (a : Nat),
    a < s.part.acts →
    cteState s a ≠ stParked →
    Ends (.park a) s (fun t =>
      (cteOf t a).cmd = some .park ∧
      (cteOf t a).unload = decide (cteState s a ≠ stUnloading) ∧
      flag t F.CTE_CMD_BUSY a = true)) ∧
  -- the set-point enabled where the life cycle does not allow it
  (∀ (s : State) (v : Word),
    bit v 0 = true →
    fld s F.SEC_LC_STATE ≠ 1 →
    fld s F.SEC_LC_STATE ≠ 3 →
    Ends (.extEnable v) s (fun t =>
      flag t F.CTE_EXT_CTL_REFUSED = true ∧
      flag t F.CTE_EXT_CTL_EN = flag s F.CTE_EXT_CTL_EN)) ∧
  -- the set-point's control written
  (∀ (s : State) (v : Word),
    (bit v 0 = false ∨ fld s F.SEC_LC_STATE = 1 ∨ fld s F.SEC_LC_STATE = 3) →
    Ends (.extEnable v) s (fun t =>
      fld t F.CTE_EXT_CTL_EN = getBits v 0 1 ∧
      fld t F.CTE_EXT_CTL_ACT = getBits v 1 2 ∧
      fld t F.CTE_EXT_CTL_SCALE = getBits v 3 16))

/-- O12. START, STOP, CLEAR, the set speed and a block reset of SPN. START in OFF with VM good and no restart block enters SENSE; STOP completes at once in OFF, brakes from the starting states and waits for the actuators from RUN; CLEAR leaves FAULT; a set speed in range is taken; a block reset turns the spindle off when every actuator is parked and is refused otherwise. (R228, R236, R240, R241, R242) -/
def Obligations.SpindleCommands : Prop :=
  -- START in OFF
  (∀ (s : State),
    flag s F.SPN_CMD_BUSY = false →
    spnState s = spOff →
    flag s F.PWS_STAT_RESTART_BLOCK = false →
    flag s F.PWS_STAT_VM_OK = true →
    Ends (.start) s (fun t =>
      spnState t = spSense ∧
      flag t F.SPN_CMD_BUSY = true ∧
      fld t F.SPN_STAT_ATTEMPT = 0 ∧
      t.spn.start = true ∧
      t.spn.bridge = .highZ)) ∧
  -- START while blocked
  (∀ (s : State),
    flag s F.SPN_CMD_BUSY = false →
    spnState s = spOff →
    flag s F.PWS_STAT_RESTART_BLOCK = true →
    Ends (.start) s (fun t =>
      spnState t = spOff ∧
      fld t F.SPN_CMD_STATUS = 0x71 ∧
      t.spn = s.spn)) ∧
  -- STOP in OFF
  (∀ (s : State),
    spnState s = spOff →
    Ends (.stop) s (fun t =>
      spnState t = spOff ∧
      fld t F.SPN_CMD_STATUS = 0 ∧
      pendingBit t 609 = true)) ∧
  -- STOP from a starting state
  (∀ (s : State),
    spnState s ∈ [spSense, spBrakeRev, spBrakeSettle, spAlign, spRamp] →
    Ends (.stop) s (fun t =>
      spnState t = spBrake ∧
      t.spn.stop = true ∧
      t.spn.start = false ∧
      flag t F.SPN_CMD_BUSY = true)) ∧
  -- STOP from RUN with an actuator loaded
  (∀ (s : State),
    spnState s = spRun →
    dirtyOut s = false →
    allParked s = false →
    Ends (.stop) s (fun t =>
      spnState t = spUnloadWait ∧
      t.spn.stop = true ∧
      flag t F.SPN_STAT_UNLOAD_REQ = true ∧
      flag t F.SPN_STAT_AT_SPEED = false)) ∧
  -- CLEAR in FAULT
  (∀ (s : State),
    flag s F.SPN_CMD_BUSY = false →
    spnState s = spFault →
    flag s F.PWS_STAT_RESTART_BLOCK = false →
    Ends (.clear) s (fun t =>
      spnState t = spOff ∧
      fld t F.SPN_CMD_STATUS = 0 ∧
      flag t F.SPN_STAT_UNLOAD_REQ = false)) ∧
  -- a set speed in range outside the driven states
  (∀ (s : State) (v : Word),
    commutates s = false →
    spnState s ≠ spUnloadWait →
    360000 ≤ getBits v 0 21 ∧ getBits v 0 21 ≤ 1500000 →
    Ends (.setSpeedWrite v) s (fun t =>
      fld t F.SPN_SPEED_SET = getBits v 0 21 ∧
      t.spn.set = getBits v 0 21)) ∧
  -- a set speed out of range
  (∀ (s : State) (v : Word),
    (getBits v 0 21 < 360000 ∨ 1500000 < getBits v 0 21) →
    Ends (.setSpeedWrite v) s (fun t =>
      fld t F.SPN_SPEED_SET = fld s F.SPN_SPEED_SET ∧
      flag t F.SPN_SPEED_RANGE = true ∧
      t.spn = s.spn)) ∧
  -- a block reset with every actuator parked
  (∀ (s : State),
    allParked s = true →
    Ends (.spnBlockReset) s (fun t =>
      spnState t = spOff ∧
      t.spn.start = false ∧
      t.spn.stop = false ∧
      t.spn.bridge = .highZ ∧
      flag t F.CKR_BRST_SPN = false)) ∧
  -- a block reset with an actuator loaded
  (∀ (s : State),
    allParked s = false →
    (waitingAt s .spn).length < 4 →
    Ends (.spnBlockReset) s (fun t =>
      t.spn = s.spn ∧
      rd t .SPN_STAT 0 = rd s .SPN_STAT 0 ∧
      waitingAt t .spn = waitingAt s .spn ++ [faultMsg 608 FK.spnResetRefused 4 0]))

/-- O13. The timed transitions of Table 7.1 from START to OFF. SENSE, BRAKE_REV, BRAKE_SETTLE, ALIGN, RAMP and CATCH end as Table 7.1 says, FAULT takes the causes 1, 2 and 4, and a brake that ends completes the pending STOP. (R236, R237, R238, R240, R262) -/
def Obligations.SpindleStart : Prop :=
  -- SENSE ends with the rotor turning forward at four hundredths of the set speed or more
  (∀ (s : State) (speed : Nat),
    spnState s = spSense →
    4 * s.spn.set ≤ 100 * speed →
    Ends (.senseEnd speed false) s (fun t =>
      spnState t = spCatch ∧
      fld t F.SPN_OBS_SPEED = min speed (2 ^ 24 - 1))) ∧
  -- SENSE ends with the rotor at rest
  (∀ (s : State) (speed : Nat),
    spnState s = spSense →
    100 * speed < 4 * s.spn.set →
    Ends (.senseEnd speed false) s (fun t =>
      spnState t = spBrakeSettle ∧
      t.spn.bridge = .shortBrake)) ∧
  -- SENSE ends with the rotor turning backward
  (∀ (s : State) (speed : Nat),
    spnState s = spSense →
    s.spn.set ≤ 100 * speed →
    Ends (.senseEnd speed true) s (fun t =>
      spnState t = spBrakeRev ∧
      t.spn.bridge = .shortBrake ∧
      flag t F.SPN_STAT_REVERSE = true)) ∧
  -- reverse braking ends
  (∀ (s : State),
    spnState s = spBrakeRev →
    Ends (.brakeRevEnd) s (fun t =>
      spnState t = spSense ∧
      t.spn.bridge = .highZ)) ∧
  -- reverse braking lasts too long
  (∀ (s : State),
    spnState s = spBrakeRev →
    Ends (.brakeRevTimeout) s (fun t =>
      spnState t = spFault ∧
      fld t F.SPN_STAT_FAULT_CAUSE = 4 ∧
      t.spn.bridge = .highZ ∧
      t.spn.start = false)) ∧
  -- settle braking ends
  (∀ (s : State),
    spnState s = spBrakeSettle →
    Ends (.brakeSettleEnd) s (fun t =>
      spnState t = spAlign ∧
      t.spn.bridge = .align)) ∧
  -- the align ends
  (∀ (s : State),
    spnState s = spAlign →
    Ends (.alignEnd) s (fun t =>
      spnState t = spRamp ∧
      t.spn.bridge = .ramp ∧
      t.spn.rampT = 0)) ∧
  -- the ramp fails with attempts left
  (∀ (s : State),
    spnState s = spRamp →
    fld s F.SPN_STAT_ATTEMPT < 5 →
    Ends (.rampTimeout) s (fun t =>
      spnState t = spBrakeSettle ∧
      fld t F.SPN_STAT_ATTEMPT = fld s F.SPN_STAT_ATTEMPT + 1 ∧
      fld t F.SPN_CNT_START_RETRIES = min (fld s F.SPN_CNT_START_RETRIES + 1) 65535)) ∧
  -- the last ramp fails
  (∀ (s : State),
    spnState s = spRamp →
    5 ≤ fld s F.SPN_STAT_ATTEMPT →
    Ends (.rampTimeout) s (fun t =>
      spnState t = spFault ∧
      fld t F.SPN_STAT_FAULT_CAUSE = 1)) ∧
  -- CATCH from SENSE finds no valid crossings
  (∀ (s : State),
    spnState s = spCatch →
    s.spn.catchLos = false →
    Ends (.catchTimeout) s (fun t =>
      spnState t = spBrakeSettle)) ∧
  -- SPINUP_TMO before RUN
  (∀ (s : State),
    spSense ≤ spnState s ∧ spnState s ≤ spAccel →
    s.spn.reached = false →
    Ends (.spinupTimeout) s (fun t =>
      spnState t = spFault ∧
      fld t F.SPN_STAT_FAULT_CAUSE = 2 ∧
      flag t F.SPN_STAT_UNLOAD_REQ = true)) ∧
  -- the brake ends with a STOP pending
  (∀ (s : State),
    spnState s = spBrake →
    s.spn.stop = true →
    s.spn.start = false →
    Ends (.brakeEnd) s (fun t =>
      spnState t = spOff ∧
      fld t F.SPN_CMD_STATUS = 0 ∧
      flag t F.SPN_CMD_BUSY = false ∧
      t.spn.stop = false))

/-- O14. Crossings, speed and the external sync of a turning spindle. A ramp's last valid crossing closes the loop; a crossing in tolerance in RUN clears the run of wide ones and a third wide one counts a LOS, as an empty window does; a skipped crossing counts; AT_SPEED rises after four good revolutions; a first SPSYNC edge sets PERR and GOOD and two revolutions without one enter FREE. (R231, R232, R234, R239, R245) -/
def Obligations.SpindleRunning : Prop :=
  -- the crossing that closes the loop
  (∀ (s : State) (dt sector : Nat),
    spnState s = spRamp →
    rampValid s (s.spn.rampT + dt) = true →
    validN s ≤ s.spn.valid + 1 →
    Ends (.bemfCrossing dt sector true) s (fun t =>
      spnState t = spAccel ∧
      t.spn.bridge = .drive)) ∧
  -- a crossing in tolerance in RUN
  (∀ (s : State) (dt sector : Nat) (forward : Bool),
    spnState s = spRun →
    s.spn.setWaits = false →
    s.cal.pending = [] →
    4 * ((periodSpeed : Int) - (dt * fld s F.SPN_OBS_SPEED : Nat)).natAbs ≤ periodSpeed →
    Ends (.bemfCrossing dt sector forward) s (fun t =>
      spnState t = spRun ∧
      t.spn.wide = 0 ∧
      t.spn.last = dt)) ∧
  -- the third crossing in a row out of tolerance in RUN
  (∀ (s : State) (dt sector : Nat) (forward : Bool),
    spnState s = spRun →
    s.spn.setWaits = false →
    s.cal.pending = [] →
    2 ≤ s.spn.wide →
    periodSpeed < 4 * ((periodSpeed : Int) - (dt * fld s F.SPN_OBS_SPEED : Nat)).natAbs →
    Ends (.bemfCrossing dt sector forward) s (fun t =>
      spnState t ≠ spRun ∧
      fld t F.SPN_CNT_LOS = min (fld s F.SPN_CNT_LOS + 1) 65535)) ∧
  -- a crossing whose window is not opened
  (∀ (s : State),
    s.spn.bridge ∈ [.ramp, .drive, .rectify, .regen] →
    fld s F.SPN_OBS_SPEED ≠ 0 →
    clampApplies s = false →
    Ends (.predictedCrossing) s (fun t =>
      fld t F.SPN_CNT_SKIPPED = min (fld s F.SPN_CNT_SKIPPED + 1) 65535)) ∧
  -- in RUN, no calibration of the spindle running, every window is opened
  (∀ (s : State),
    spnState s = spRun →
    s.cal.running = [] →
    Ends (.predictedCrossing) s (fun t =>
      t = s)) ∧
  -- an empty window
  (∀ (s : State),
    spnState s ∈ [spCatch, spAccel, spRun] →
    Ends (.crossingWindowTimeout) s (fun t =>
      fld t F.SPN_CNT_LOS = min (fld s F.SPN_CNT_LOS + 1) 65535)) ∧
  -- four good revolutions
  (∀ (s : State),
    spnState s = spRun →
    flag s F.SPN_STAT_AT_SPEED = false →
    4 ≤ s.spn.good →
    Ends (.atSpeedChange) s (fun t =>
      flag t F.SPN_STAT_AT_SPEED = true ∧
      fld t F.SPN_STAT_LOS_RUN = 0 ∧
      ready t F.CKR_READY_SPINDLE = true ∧
      pendingBit t 610 = true ∧
      t.spn.start = false)) ∧
  -- two bad revolutions
  (∀ (s : State),
    spnState s = spRun →
    flag s F.SPN_STAT_AT_SPEED = true →
    2 ≤ s.spn.bad →
    Ends (.atSpeedChange) s (fun t =>
      flag t F.SPN_STAT_AT_SPEED = false ∧
      ready t F.CKR_READY_SPINDLE = false ∧
      pendingBit t 610 = true)) ∧
  -- a first SPSYNC edge
  (∀ (s : State) (dt : Nat),
    flag s F.SPN_SYNC_CTL_EN = true →
    flag s F.SPN_SYNC_CTL_POL = false →
    s.spn.edge = false →
    Ends (.spsyncEdge true dt) s (fun t =>
      fld t F.SPN_SYNC_STAT_PERR = narrow 16 (wrap16 ((fld s F.SPN_SYNC_CTL_OFS : Int) - phiHat16 s)) ∧
      (fld t F.SPN_SYNC_STAT_GOOD = if (wrap16 ((fld s F.SPN_SYNC_CTL_OFS : Int) - phiHat16 s)).natAbs ≤ 91 then min 255 (fld s F.SPN_SYNC_STAT_GOOD + 1) else 0) ∧
      t.spn.edge = true)) ∧
  -- two revolutions without an edge
  (∀ (s : State),
    flag s F.SPN_SYNC_CTL_EN = true →
    Ends (.syncFree) s (fun t =>
      fld t F.SPN_STAT_SYNC = 1 ∧
      fld t F.SPN_SYNC_STAT_GOOD = 0 ∧
      t.spn.edge = false))

/-- O15. The power stage's supervision, drivers, latches, and the retract at the loss of its link. Table 7.5: VM_LOW, VM_OK, the chopper's limits, the VM trip, chopper and thermal faults, a shorted VCM driver, the boost; its latches clear by a write of 1, VM_TRIP only below 13.2 V; they survive a block reset. Without law-lane slots LINK_OK falls and the power die retracts, announced or not as a chip reset was in progress; an unannounced retract ends in short braking with LINK_LOSS latched and the fatal line driven, an announced one with the bridge floating. (R247, R248, R250, R252, R253, R254, R267, R21, R249) -/
def Obligations.PowerStage : Prop :=
  -- VM falls below 9.5 V
  (∀ (s : State) (mv : Nat),
    mv < 9500 →
    vinGood s = true →
    flag s F.PWS_STAT_VM_OK = true →
    Ends (.vmLow mv) s (fun t =>
      flag t F.PWS_STAT_VM_OK = false ∧
      fld t F.PWS_VOLT_VM = mv ∧
      flag t F.PWS_FAULT_VM_LOW = true ∧
      pendingBit t 626 = true)) ∧
  -- VM rises to 10 V
  (∀ (s : State) (mv : Nat),
    10000 ≤ mv →
    flag s F.PWS_STAT_VM_OK = false →
    Ends (.vmOkRise mv) s (fun t =>
      flag t F.PWS_STAT_VM_OK = true ∧
      fld t F.PWS_VOLT_VM = min mv 65535 ∧
      pendingBit t 626 = true)) ∧
  -- the chopper turns on
  (∀ (s : State) (mv : Nat),
    10 * fld s F.PWS_CLAMP_CLAMP_V ≤ mv →
    Ends (.clampOn mv) s (fun t =>
      flag t F.PWS_STAT_CLAMP_ON = true ∧
      fld t F.PWS_VOLT_VM = min mv 65535)) ∧
  -- the chopper turns off
  (∀ (s : State) (mv : Nat),
    mv + 200 ≤ 10 * fld s F.PWS_CLAMP_CLAMP_V →
    Ends (.clampOff mv) s (fun t =>
      flag t F.PWS_STAT_CLAMP_ON = false ∧
      fld t F.PWS_VOLT_VM = min mv 65535)) ∧
  -- the VM trip
  (∀ (s : State) (mv : Nat),
    15600 ≤ mv →
    flag s F.PWS_FAULT_VM_TRIP = false →
    Ends (.vmTrip mv) s (fun t =>
      flag t F.PWS_FAULT_VM_TRIP = true ∧
      flag t F.PWS_STAT_RESTART_BLOCK = true ∧
      spnState t = spFault)) ∧
  -- the chopper is open
  (∀ (s : State) (ma : Nat),
    ma < 500 →
    flag s F.PWS_STAT_CLAMP_ON = true →
    flag s F.PWS_FAULT_CHOP_OPEN = false →
    Ends (.chopOpen ma) s (fun t =>
      flag t F.PWS_FAULT_CHOP_OPEN = true ∧
      flag t F.PWS_CLAMP_REGEN_EN = false ∧
      t.spn.bridge ≠ .regen ∧
      fld t F.PWS_BRK_I_I = ma)) ∧
  -- the chopper is stuck
  (∀ (s : State) (ma : Nat),
    200 < ma →
    flag s F.PWS_STAT_CLAMP_ON = false →
    flag s F.PWS_FAULT_CHOP_STUCK = false →
    Ends (.chopStuck ma) s (fun t =>
      flag t F.PWS_FAULT_CHOP_STUCK = true ∧
      pendingBit t 625 = true ∧
      spnState t = spFault ∧
      (t.spn.bridge = if spnState s = spFault then s.spn.bridge else .highZ))) ∧
  -- the die reaches 145 degrees
  (∀ (s : State) (temp : Nat),
    580 ≤ temp →
    Ends (.thermalWarning temp) s (fun t =>
      flag t F.PWS_FAULT_THERM_WARN = true ∧
      fld t F.PWS_TEMP_TEMP = min temp 1023 ∧
      t.spn = s.spn)) ∧
  -- the die reaches 170 degrees
  (∀ (s : State) (temp : Nat),
    680 ≤ temp →
    Ends (.thermalShutdown temp) s (fun t =>
      flag t F.PWS_FAULT_THERM_SHUT = true ∧
      t.spn.retract = some (s.spn.retract.getD retractThermal) ∧
      spnState t = spFault)) ∧
  -- a VCM driver is shorted
  (∀ (s : State) (a : Nat),
    a < s.part.acts →
    Ends (.vcmShort a) s (fun t =>
      fld t F.PWS_FAULT_VCM_SHORT = (fld s F.PWS_FAULT_VCM_SHORT ||| 2 ^ a) % 16 ∧
      t.fcl.fatal = s.fcl.fatal ++ [faultMsg (632 + a) FK.pwsVcmShort 7 0])) ∧
  -- the boost fails
  (∀ (s : State),
    flag s F.PWS_STAT_BOOST_OK = true →
    Ends (.boostFault) s (fun t =>
      flag t F.PWS_STAT_BOOST_OK = false ∧
      flag t F.PWS_FAULT_BOOST = true ∧
      (∀ a ∈ List.range s.part.acts, (cteOf t a).mact = 0))) ∧
  -- the boost regulates
  (∀ (s : State),
    flag s F.PWS_UACT_CTL_BOOST_EN = true →
    Ends (.boostOk) s (fun t =>
      t = setFlag s F.PWS_STAT_BOOST_OK 0 true)) ∧
  -- a write to the latches while VM is low enough
  (∀ (s : State) (v : Word),
    fld s F.PWS_VOLT_VM < 13200 →
    Ends (.pwsFaultClear v) s (fun t =>
      rd t .PWS_FAULT 0 = rd s .PWS_FAULT 0 &&& ~~~ v ∧
      flag t F.PWS_STAT_RESTART_BLOCK = (flag s F.PWS_STAT_RESTART_BLOCK && !(bit v 2 && flag s F.PWS_FAULT_VM_TRIP)))) ∧
  -- VM_TRIP does not clear while VM is high
  (∀ (s : State) (v : Word),
    13200 ≤ fld s F.PWS_VOLT_VM →
    Ends (.pwsFaultClear v) s (fun t =>
      flag t F.PWS_FAULT_VM_TRIP = flag s F.PWS_FAULT_VM_TRIP ∧
      flag t F.PWS_STAT_RESTART_BLOCK = flag s F.PWS_STAT_RESTART_BLOCK)) ∧
  -- a block reset of PWS
  (∀ (s : State),
    Ends (.pwsBlockReset) s (fun t =>
      rd t .PWS_FAULT 0 = rd s .PWS_FAULT 0 ∧
      flag t F.PWS_STAT_RESTART_BLOCK = flag s F.PWS_STAT_RESTART_BLOCK ∧
      flag t F.CKR_BRST_PWS = false)) ∧
  -- no law-lane slot for 10 microseconds
  (∀ (s : State),
    Ends (.linkLoss) s (fun t =>
      flag t F.PWS_STAT_LINK_OK = false ∧
      t.spn.retract = some (s.spn.retract.getD (if s.ckr.inReset then retractAnnounced else retractUnannounced)) ∧
      (∀ a ∈ List.range s.part.acts, cteState t a = stParked))) ∧
  -- an unannounced retract ends
  (∀ (s : State),
    s.spn.retract = some retractUnannounced →
    Ends (.retractEnd) s (fun t =>
      t.spn.retract = none ∧
      t.spn.bridge = .shortBrake ∧
      flag t F.PWS_FAULT_LINK_LOSS = true ∧
      t.fcl.fatal = s.fcl.fatal ++ [faultMsg 624 FK.pwsLink 7 0])) ∧
  -- any other retract ends
  (∀ (s : State) (c : Nat),
    s.spn.retract = some c →
    c ≠ retractUnannounced →
    Ends (.retractEnd) s (fun t =>
      t.spn = { s.spn with retract := none, bridge := .highZ } ∧
      t.regs = s.regs ∧
      (∀ a ∈ List.range s.part.acts, (cteOf t a).vcm = 0 ∧ (cteOf t a).mact = 0)))

/-- O16. Arithmetic and immediate instructions write RD and retire. MOV to MUL, GETLS, TIME, LDI, MOVK, ADDI to EXTR give RD the value of Table 8.4, w0 discarding it, and change nothing else but the PC. MOVK and ADDI to EXTR give RD the value of Table 8.4 and change nothing else but the PC; w0 reads zero and discards a write. (R272, R273, R276) -/
def Obligations.ShuttleArithmetic : Prop :=
  -- MOV
  (∀ (s : State) (k rd rs : Nat) (i : Ins),
    fetched s k = some i →
    i.op = 0x10 ∧ i.rd = rd ∧ i.rs = rs →
    patched s 0x10 = false →
    Ends (.mov k rd rs) s (fun t =>
      Wrote s t k rd (wGet (shtOf s k) rs))) ∧
  -- ADD
  (∀ (s : State) (k rd rs : Nat) (i : Ins),
    fetched s k = some i →
    i.op = 0x11 ∧ i.rd = rd ∧ i.rs = rs →
    patched s 0x11 = false →
    Ends (.add k rd rs) s (fun t =>
      Wrote s t k rd (wGet (shtOf s k) rd + wGet (shtOf s k) rs))) ∧
  -- SUB
  (∀ (s : State) (k rd rs : Nat) (i : Ins),
    fetched s k = some i →
    i.op = 0x12 ∧ i.rd = rd ∧ i.rs = rs →
    patched s 0x12 = false →
    Ends (.sub k rd rs) s (fun t =>
      Wrote s t k rd (wGet (shtOf s k) rd - wGet (shtOf s k) rs))) ∧
  -- AND
  (∀ (s : State) (k rd rs : Nat) (i : Ins),
    fetched s k = some i →
    i.op = 0x13 ∧ i.rd = rd ∧ i.rs = rs →
    patched s 0x13 = false →
    Ends (.and k rd rs) s (fun t =>
      Wrote s t k rd (wGet (shtOf s k) rd &&& wGet (shtOf s k) rs))) ∧
  -- OR
  (∀ (s : State) (k rd rs : Nat) (i : Ins),
    fetched s k = some i →
    i.op = 0x14 ∧ i.rd = rd ∧ i.rs = rs →
    patched s 0x14 = false →
    Ends (.or k rd rs) s (fun t =>
      Wrote s t k rd (wGet (shtOf s k) rd ||| wGet (shtOf s k) rs))) ∧
  -- XOR
  (∀ (s : State) (k rd rs : Nat) (i : Ins),
    fetched s k = some i →
    i.op = 0x15 ∧ i.rd = rd ∧ i.rs = rs →
    patched s 0x15 = false →
    Ends (.xor k rd rs) s (fun t =>
      Wrote s t k rd (wGet (shtOf s k) rd ^^^ wGet (shtOf s k) rs))) ∧
  -- SHL
  (∀ (s : State) (k rd rs : Nat) (i : Ins),
    fetched s k = some i →
    i.op = 0x16 ∧ i.rd = rd ∧ i.rs = rs →
    patched s 0x16 = false →
    Ends (.shl k rd rs) s (fun t =>
      Wrote s t k rd (wGet (shtOf s k) rd <<< ((wGet (shtOf s k) rs).toNat % 64)))) ∧
  -- SHR
  (∀ (s : State) (k rd rs : Nat) (i : Ins),
    fetched s k = some i →
    i.op = 0x17 ∧ i.rd = rd ∧ i.rs = rs →
    patched s 0x17 = false →
    Ends (.shr k rd rs) s (fun t =>
      Wrote s t k rd (wGet (shtOf s k) rd >>> ((wGet (shtOf s k) rs).toNat % 64)))) ∧
  -- SAR
  (∀ (s : State) (k rd rs : Nat) (i : Ins),
    fetched s k = some i →
    i.op = 0x18 ∧ i.rd = rd ∧ i.rs = rs →
    patched s 0x18 = false →
    Ends (.sar k rd rs) s (fun t =>
      Wrote s t k rd ((wGet (shtOf s k) rd).sshiftRight ((wGet (shtOf s k) rs).toNat % 64)))) ∧
  -- MUL
  (∀ (s : State) (k rd rs : Nat) (i : Ins),
    fetched s k = some i →
    i.op = 0x19 ∧ i.rd = rd ∧ i.rs = rs →
    patched s 0x19 = false →
    Ends (.mul k rd rs) s (fun t =>
      Wrote s t k rd (wGet (shtOf s k) rd * wGet (shtOf s k) rs))) ∧
  -- GETLS
  (∀ (s : State) (k rd : Nat) (i : Ins),
    fetched s k = some i →
    i.op = 0x1A ∧ i.rd = rd →
    patched s 0x1A = false →
    Ends (.getls k rd) s (fun t =>
      Wrote s t k rd (BitVec.ofNat 64 (shtOf s k).ls))) ∧
  -- TIME
  (∀ (s : State) (k rd : Nat) (i : Ins),
    fetched s k = some i →
    i.op = 0x1B ∧ i.rd = rd →
    patched s 0x1B = false →
    Ends (.time k rd) s (fun t =>
      Wrote s t k rd (BitVec.ofNat 64 (s.ckr.up * 40)))) ∧
  -- LDI
  (∀ (s : State) (k rd imm : Nat) (i : Ins),
    fetched s k = some i →
    i.op = 0x20 ∧ i.rd = rd ∧ i.imm = imm →
    patched s 0x20 = false →
    Ends (.ldi k rd imm) s (fun t =>
      Wrote s t k rd (sextImm imm))) ∧
  -- MOVK
  (∀ (s : State) (k rd rs imm : Nat) (i : Ins),
    fetched s k = some i →
    i.op = 0x21 ∧ i.rd = rd ∧ i.rs = rs ∧ i.imm = imm →
    patched s 0x21 = false →
    imm < 65536 →
    Ends (.movk k rd rs imm) s (fun t =>
      Wrote s t k rd ((wGet (shtOf s k) rd &&& ~~~ (0xFFFF#64 <<< (16 * (rs % 4)))) ||| (BitVec.ofNat 64 imm <<< (16 * (rs % 4)))))) ∧
  -- ADDI
  (∀ (s : State) (k rd rs imm : Nat) (i : Ins),
    fetched s k = some i →
    i.op = 0x22 ∧ i.rd = rd ∧ i.rs = rs ∧ i.imm = imm →
    patched s 0x22 = false →
    Ends (.addi k rd rs imm) s (fun t =>
      Wrote s t k rd (wGet (shtOf s k) rs + sextImm imm))) ∧
  -- ANDI
  (∀ (s : State) (k rd rs imm : Nat) (i : Ins),
    fetched s k = some i →
    i.op = 0x23 ∧ i.rd = rd ∧ i.rs = rs ∧ i.imm = imm →
    patched s 0x23 = false →
    Ends (.andi k rd rs imm) s (fun t =>
      Wrote s t k rd (wGet (shtOf s k) rs &&& zextImm imm))) ∧
  -- ORI
  (∀ (s : State) (k rd rs imm : Nat) (i : Ins),
    fetched s k = some i →
    i.op = 0x24 ∧ i.rd = rd ∧ i.rs = rs ∧ i.imm = imm →
    patched s 0x24 = false →
    Ends (.ori k rd rs imm) s (fun t =>
      Wrote s t k rd (wGet (shtOf s k) rs ||| zextImm imm))) ∧
  -- XORI
  (∀ (s : State) (k rd rs imm : Nat) (i : Ins),
    fetched s k = some i →
    i.op = 0x25 ∧ i.rd = rd ∧ i.rs = rs ∧ i.imm = imm →
    patched s 0x25 = false →
    Ends (.xori k rd rs imm) s (fun t =>
      Wrote s t k rd (wGet (shtOf s k) rs ^^^ zextImm imm))) ∧
  -- SHLI
  (∀ (s : State) (k rd rs imm : Nat) (i : Ins),
    fetched s k = some i →
    i.op = 0x26 ∧ i.rd = rd ∧ i.rs = rs ∧ i.imm = imm →
    patched s 0x26 = false →
    Ends (.shli k rd rs imm) s (fun t =>
      Wrote s t k rd (wGet (shtOf s k) rs <<< (imm % 64)))) ∧
  -- SHRI
  (∀ (s : State) (k rd rs imm : Nat) (i : Ins),
    fetched s k = some i →
    i.op = 0x27 ∧ i.rd = rd ∧ i.rs = rs ∧ i.imm = imm →
    patched s 0x27 = false →
    Ends (.shri k rd rs imm) s (fun t =>
      Wrote s t k rd (wGet (shtOf s k) rs >>> (imm % 64)))) ∧
  -- SARI
  (∀ (s : State) (k rd rs imm : Nat) (i : Ins),
    fetched s k = some i →
    i.op = 0x28 ∧ i.rd = rd ∧ i.rs = rs ∧ i.imm = imm →
    patched s 0x28 = false →
    Ends (.sari k rd rs imm) s (fun t =>
      Wrote s t k rd ((wGet (shtOf s k) rs).sshiftRight (imm % 64)))) ∧
  -- EXTR
  (∀ (s : State) (k rd rs imm : Nat) (i : Ins),
    fetched s k = some i →
    i.op = 0x29 ∧ i.rd = rd ∧ i.rs = rs ∧ i.imm = imm →
    patched s 0x29 = false →
    Ends (.extr k rd rs imm) s (fun t =>
      Wrote s t k rd (BitVec.ofNat 64 (((wGet (shtOf s k) rs) >>> (imm % 64)).toNat % 2 ^ (imm / 64 % 64 + 1))))) ∧
  -- w0 reads zero and a write to it is discarded
  (∀ (h : Shuttle) (v : Word), wGet h 0 = 0#64 ∧ wSet h 0 v = h)

/-- O17. Branches go to their target or to the next instruction. NOP, B to BGEU, BLS, CALL and RET put the PC where Table 8.4 says and change nothing else but, for CALL, RD; HALT leaves the Shuttle idle with no task when it owns no tag, and stalls it otherwise. (R273, R274, R276, R307) -/
def Obligations.ShuttleBranches : Prop :=
  -- NOP
  (∀ (s : State) (k : Nat) (i : Ins),
    fetched s k = some i →
    i.op = 0x00 →
    patched s 0x00 = false →
    Ends (.nop k) s (fun t =>
      Went s t k (((shtOf s k).pc + 4) % 2 ^ 64))) ∧
  -- B
  (∀ (s : State) (k imm : Nat) (i : Ins),
    fetched s k = some i →
    i.op = 0x02 ∧ i.imm = imm →
    patched s 0x02 = false →
    Ends (.b k imm) s (fun t =>
      Went s t k (branchTarget (shtOf s k).pc imm))) ∧
  -- BZ
  (∀ (s : State) (k rs imm : Nat) (i : Ins),
    fetched s k = some i →
    i.op = 0x03 ∧ i.rs = rs ∧ i.imm = imm →
    patched s 0x03 = false →
    Ends (.bz k rs imm) s (fun t =>
      Went s t k (if wGet (shtOf s k) rs = 0#64 then branchTarget (shtOf s k).pc imm else ((shtOf s k).pc + 4) % 2 ^ 64))) ∧
  -- BNZ
  (∀ (s : State) (k rs imm : Nat) (i : Ins),
    fetched s k = some i →
    i.op = 0x04 ∧ i.rs = rs ∧ i.imm = imm →
    patched s 0x04 = false →
    Ends (.bnz k rs imm) s (fun t =>
      Went s t k (if wGet (shtOf s k) rs ≠ 0#64 then branchTarget (shtOf s k).pc imm else ((shtOf s k).pc + 4) % 2 ^ 64))) ∧
  -- BEQ
  (∀ (s : State) (k rd rs imm : Nat) (i : Ins),
    fetched s k = some i →
    i.op = 0x05 ∧ i.rd = rd ∧ i.rs = rs ∧ i.imm = imm →
    patched s 0x05 = false →
    Ends (.beq k rd rs imm) s (fun t =>
      Went s t k (if wGet (shtOf s k) rd = wGet (shtOf s k) rs then branchTarget (shtOf s k).pc imm else ((shtOf s k).pc + 4) % 2 ^ 64))) ∧
  -- BNE
  (∀ (s : State) (k rd rs imm : Nat) (i : Ins),
    fetched s k = some i →
    i.op = 0x06 ∧ i.rd = rd ∧ i.rs = rs ∧ i.imm = imm →
    patched s 0x06 = false →
    Ends (.bne k rd rs imm) s (fun t =>
      Went s t k (if wGet (shtOf s k) rd ≠ wGet (shtOf s k) rs then branchTarget (shtOf s k).pc imm else ((shtOf s k).pc + 4) % 2 ^ 64))) ∧
  -- BLT
  (∀ (s : State) (k rd rs imm : Nat) (i : Ins),
    fetched s k = some i →
    i.op = 0x07 ∧ i.rd = rd ∧ i.rs = rs ∧ i.imm = imm →
    patched s 0x07 = false →
    Ends (.blt k rd rs imm) s (fun t =>
      Went s t k (if (wGet (shtOf s k) rd).toInt < (wGet (shtOf s k) rs).toInt then branchTarget (shtOf s k).pc imm else ((shtOf s k).pc + 4) % 2 ^ 64))) ∧
  -- BGE
  (∀ (s : State) (k rd rs imm : Nat) (i : Ins),
    fetched s k = some i →
    i.op = 0x08 ∧ i.rd = rd ∧ i.rs = rs ∧ i.imm = imm →
    patched s 0x08 = false →
    Ends (.bge k rd rs imm) s (fun t =>
      Went s t k (if (wGet (shtOf s k) rs).toInt ≤ (wGet (shtOf s k) rd).toInt then branchTarget (shtOf s k).pc imm else ((shtOf s k).pc + 4) % 2 ^ 64))) ∧
  -- BLTU
  (∀ (s : State) (k rd rs imm : Nat) (i : Ins),
    fetched s k = some i →
    i.op = 0x09 ∧ i.rd = rd ∧ i.rs = rs ∧ i.imm = imm →
    patched s 0x09 = false →
    Ends (.bltu k rd rs imm) s (fun t =>
      Went s t k (if (wGet (shtOf s k) rd).toNat < (wGet (shtOf s k) rs).toNat then branchTarget (shtOf s k).pc imm else ((shtOf s k).pc + 4) % 2 ^ 64))) ∧
  -- BGEU
  (∀ (s : State) (k rd rs imm : Nat) (i : Ins),
    fetched s k = some i →
    i.op = 0x0A ∧ i.rd = rd ∧ i.rs = rs ∧ i.imm = imm →
    patched s 0x0A = false →
    Ends (.bgeu k rd rs imm) s (fun t =>
      Went s t k (if (wGet (shtOf s k) rs).toNat ≤ (wGet (shtOf s k) rd).toNat then branchTarget (shtOf s k).pc imm else ((shtOf s k).pc + 4) % 2 ^ 64))) ∧
  -- BLS
  (∀ (s : State) (k rd imm : Nat) (i : Ins),
    fetched s k = some i →
    i.op = 0x0B ∧ i.rd = rd ∧ i.imm = imm →
    patched s 0x0B = false →
    rd < 4 →
    Ends (.bls k rd imm) s (fun t =>
      (Went s t k (if (rd = 0 ∧ (shtOf s k).ls ≠ 0) ∨ (rd = 1 ∧ (shtOf s k).ls = 0) ∨ (rd = 2 ∧ 0x10 ≤ (shtOf s k).ls) ∨ (rd = 3 ∧ (shtOf s k).ls = 1) then branchTarget (shtOf s k).pc imm else ((shtOf s k).pc + 4) % 2 ^ 64)))) ∧
  -- BLS with a condition that has no meaning
  (∀ (s : State) (k rd imm : Nat) (i : Ins),
    fetched s k = some i →
    i.op = 0x0B ∧ i.rd = rd ∧ i.imm = imm →
    patched s 0x0B = false →
    4 ≤ rd →
    Ends (.bls k rd imm) s (fun t =>
      (shtOf t k).st = .trapped ∧
      fld t F.SHT_TRAP_CAUSE k = 1)) ∧
  -- CALL
  (∀ (s : State) (k rd imm : Nat) (i : Ins),
    fetched s k = some i →
    i.op = 0x0C ∧ i.rd = rd ∧ i.imm = imm →
    patched s 0x0C = false →
    Ends (.call k rd imm) s (fun t =>
      (wGet (shtOf t k) rd = if rd = 0 then 0#64 else BitVec.ofNat 64 ((shtOf s k).pc + 4)) ∧
      t = setSht s k { shtOf s k with w := (shtOf t k).w, pc := branchTarget (shtOf s k).pc imm } ∧
      (∀ r, r ≠ rd → wGet (shtOf t k) r = wGet (shtOf s k) r))) ∧
  -- RET
  (∀ (s : State) (k rs : Nat) (i : Ins),
    fetched s k = some i →
    i.op = 0x0D ∧ i.rs = rs →
    patched s 0x0D = false →
    Ends (.ret k rs) s (fun t =>
      Went s t k (wGet (shtOf s k) rs).toNat)) ∧
  -- HALT with no tag owned
  (∀ (s : State) (k : Nat) (i : Ins),
    fetched s k = some i →
    i.op = 0x01 →
    patched s 0x01 = false →
    ownsTags (shtOf s k) .running = false →
    Ends (.halt k) s (fun t =>
      t = setSht s k { shtOf s k with st := .idle, task := 0#64 })) ∧
  -- HALT with a tag owned
  (∀ (s : State) (k : Nat) (i : Ins),
    fetched s k = some i →
    i.op = 0x01 →
    patched s 0x01 = false →
    ownsTags (shtOf s k) .running = true →
    Ends (.halt k) s (fun t =>
      t = setSht s k { shtOf s k with st := .stall }))

/-- O18. Local store loads and stores. An aligned access within Table 8.1 loads or stores little-endian; one that breaks the rules traps LS_RANGE with its cause, PC and address recorded. (R272, R278, R310) -/
def Obligations.ShuttleLocalStore : Prop :=
  -- LD
  (∀ (s : State) (k rd rs imm : Nat) (i : Ins),
    fetched s k = some i →
    i.op = 0x30 ∧ i.rd = rd ∧ i.rs = rs ∧ i.imm = imm →
    patched s 0x30 = false →
    operandAddr (shtOf s k) rs imm % 8 = 0 ∧ operandAddr (shtOf s k) rs imm + 8 ≤ 0x7C00 →
    Ends (.ld k rd rs imm) s (fun t =>
      Wrote s t k rd (BitVec.ofNat 64 (leNat (lsBytes (shtOf s k) (operandAddr (shtOf s k) rs imm) 8))))) ∧
  -- LD32
  (∀ (s : State) (k rd rs imm : Nat) (i : Ins),
    fetched s k = some i →
    i.op = 0x32 ∧ i.rd = rd ∧ i.rs = rs ∧ i.imm = imm →
    patched s 0x32 = false →
    operandAddr (shtOf s k) rs imm % 4 = 0 ∧ operandAddr (shtOf s k) rs imm + 4 ≤ 0x7C00 →
    Ends (.ld32 k rd rs imm) s (fun t =>
      Wrote s t k rd (BitVec.ofNat 64 (leNat (lsBytes (shtOf s k) (operandAddr (shtOf s k) rs imm) 4))))) ∧
  -- ST
  (∀ (s : State) (k rd rs imm : Nat) (i : Ins),
    fetched s k = some i →
    i.op = 0x31 ∧ i.rd = rd ∧ i.rs = rs ∧ i.imm = imm →
    patched s 0x31 = false →
    operandAddr (shtOf s k) rs imm % 8 = 0 ∧ fld s F.SHT_CODE_TOP_TOP ≤ operandAddr (shtOf s k) rs imm ∧ operandAddr (shtOf s k) rs imm + 8 ≤ 0x7C00 →
    Ends (.st k rd rs imm) s (fun t =>
      t = setSht s k { lsStore (shtOf s k) (operandAddr (shtOf s k) rs imm) ((wordBytes (wGet (shtOf s k) rd)).take 8) with pc := ((shtOf s k).pc + 4) % 2 ^ 64 })) ∧
  -- ST32
  (∀ (s : State) (k rd rs imm : Nat) (i : Ins),
    fetched s k = some i →
    i.op = 0x33 ∧ i.rd = rd ∧ i.rs = rs ∧ i.imm = imm →
    patched s 0x33 = false →
    operandAddr (shtOf s k) rs imm % 4 = 0 ∧ fld s F.SHT_CODE_TOP_TOP ≤ operandAddr (shtOf s k) rs imm ∧ operandAddr (shtOf s k) rs imm + 4 ≤ 0x7C00 →
    Ends (.st32 k rd rs imm) s (fun t =>
      t = setSht s k { lsStore (shtOf s k) (operandAddr (shtOf s k) rs imm) ((wordBytes (wGet (shtOf s k) rd)).take 4) with pc := ((shtOf s k).pc + 4) % 2 ^ 64 })) ∧
  -- LD outside the rules
  (∀ (s : State) (k rd rs imm : Nat) (i : Ins),
    fetched s k = some i →
    i.op = 0x30 ∧ i.rd = rd ∧ i.rs = rs ∧ i.imm = imm →
    patched s 0x30 = false →
    (operandAddr (shtOf s k) rs imm % 8 ≠ 0 ∨ 0x7C00 < operandAddr (shtOf s k) rs imm + 8) →
    Ends (.ld k rd rs imm) s (fun t =>
      (shtOf t k).st = .trapped ∧
      fld t F.SHT_TRAP_CAUSE k = 3 ∧
      fld t F.SHT_TRAP_ADDR k = operandAddr (shtOf s k) rs imm % 2 ^ 15 ∧
      fld t F.SHT_TRAP_OPCODE k = 0x30 ∧
      wGet (shtOf t k) rd = wGet (shtOf s k) rd)) ∧
  -- LD32 outside the rules
  (∀ (s : State) (k rd rs imm : Nat) (i : Ins),
    fetched s k = some i →
    i.op = 0x32 ∧ i.rd = rd ∧ i.rs = rs ∧ i.imm = imm →
    patched s 0x32 = false →
    (operandAddr (shtOf s k) rs imm % 4 ≠ 0 ∨ 0x7C00 < operandAddr (shtOf s k) rs imm + 4) →
    Ends (.ld32 k rd rs imm) s (fun t =>
      (shtOf t k).st = .trapped ∧
      fld t F.SHT_TRAP_CAUSE k = 3 ∧
      fld t F.SHT_TRAP_ADDR k = operandAddr (shtOf s k) rs imm % 2 ^ 15 ∧
      fld t F.SHT_TRAP_OPCODE k = 0x32 ∧
      wGet (shtOf t k) rd = wGet (shtOf s k) rd)) ∧
  -- ST outside the rules
  (∀ (s : State) (k rd rs imm : Nat) (i : Ins),
    fetched s k = some i →
    i.op = 0x31 ∧ i.rd = rd ∧ i.rs = rs ∧ i.imm = imm →
    patched s 0x31 = false →
    (operandAddr (shtOf s k) rs imm % 8 ≠ 0 ∨ operandAddr (shtOf s k) rs imm < fld s F.SHT_CODE_TOP_TOP ∨ 0x7C00 < operandAddr (shtOf s k) rs imm + 8) →
    Ends (.st k rd rs imm) s (fun t =>
      (shtOf t k).st = .trapped ∧
      fld t F.SHT_TRAP_CAUSE k = 3 ∧
      fld t F.SHT_TRAP_ADDR k = operandAddr (shtOf s k) rs imm % 2 ^ 15 ∧
      (shtOf t k).store = (shtOf s k).store)) ∧
  -- ST32 outside the rules
  (∀ (s : State) (k rd rs imm : Nat) (i : Ins),
    fetched s k = some i →
    i.op = 0x33 ∧ i.rd = rd ∧ i.rs = rs ∧ i.imm = imm →
    patched s 0x33 = false →
    (operandAddr (shtOf s k) rs imm % 4 ≠ 0 ∨ operandAddr (shtOf s k) rs imm < fld s F.SHT_CODE_TOP_TOP ∨ 0x7C00 < operandAddr (shtOf s k) rs imm + 4) →
    Ends (.st32 k rd rs imm) s (fun t =>
      (shtOf t k).st = .trapped ∧
      fld t F.SHT_TRAP_CAUSE k = 3 ∧
      fld t F.SHT_TRAP_ADDR k = operandAddr (shtOf s k) rs imm % 2 ^ 15 ∧
      (shtOf t k).store = (shtOf s k).store))

/-- O19. Fabric loads, stores and line copies. BLD, BST, BLD32 and BST32 make the access of an engine 16 + k; BIN and BOUT copy lines; a success leaves LS = OK, a bus error LS = BUS_ERR with RD unchanged; a span that breaks the rules traps LS_RANGE. (R279, R280, R281) -/
def Obligations.ShuttleFabric : Prop :=
  -- BLD
  (∀ (s : State) (k rd rs imm : Nat) (i : Ins),
    fetched s k = some i →
    i.op = 0x50 ∧ i.rd = rd ∧ i.rs = rs ∧ i.imm = imm →
    patched s 0x50 = false →
    (shtOf (busLoad s (16 + k) (operandAddr (shtOf s k) rs imm) 8) k).st = .run →
    (busLoad s (16 + k) (operandAddr (shtOf s k) rs imm) 8).bus.err = false →
    Ends (.bld k rd rs imm) s (fun t =>
      t = setSht (busLoad s (16 + k) (operandAddr (shtOf s k) rs imm) 8) k { wSet (shtOf (busLoad s (16 + k) (operandAddr (shtOf s k) rs imm) 8) k) rd (busLoad s (16 + k) (operandAddr (shtOf s k) rs imm) 8).bus.value with ls := 0, pc := ((shtOf (busLoad s (16 + k) (operandAddr (shtOf s k) rs imm) 8) k).pc + 4) % 2 ^ 64 })) ∧
  -- BLD that meets a bus error
  (∀ (s : State) (k rd rs imm : Nat) (i : Ins),
    fetched s k = some i →
    i.op = 0x50 ∧ i.rd = rd ∧ i.rs = rs ∧ i.imm = imm →
    patched s 0x50 = false →
    (shtOf (busLoad s (16 + k) (operandAddr (shtOf s k) rs imm) 8) k).st = .run →
    (busLoad s (16 + k) (operandAddr (shtOf s k) rs imm) 8).bus.err = true →
    Ends (.bld k rd rs imm) s (fun t =>
      LeftStatus (busLoad s (16 + k) (operandAddr (shtOf s k) rs imm) 8) t k 0x85)) ∧
  -- BLD32
  (∀ (s : State) (k rd rs imm : Nat) (i : Ins),
    fetched s k = some i →
    i.op = 0x52 ∧ i.rd = rd ∧ i.rs = rs ∧ i.imm = imm →
    patched s 0x52 = false →
    (shtOf (busLoad s (16 + k) (operandAddr (shtOf s k) rs imm) 4) k).st = .run →
    (busLoad s (16 + k) (operandAddr (shtOf s k) rs imm) 4).bus.err = false →
    Ends (.bld32 k rd rs imm) s (fun t =>
      t = setSht (busLoad s (16 + k) (operandAddr (shtOf s k) rs imm) 4) k { wSet (shtOf (busLoad s (16 + k) (operandAddr (shtOf s k) rs imm) 4) k) rd (busLoad s (16 + k) (operandAddr (shtOf s k) rs imm) 4).bus.value with ls := 0, pc := ((shtOf (busLoad s (16 + k) (operandAddr (shtOf s k) rs imm) 4) k).pc + 4) % 2 ^ 64 })) ∧
  -- BLD32 that meets a bus error
  (∀ (s : State) (k rd rs imm : Nat) (i : Ins),
    fetched s k = some i →
    i.op = 0x52 ∧ i.rd = rd ∧ i.rs = rs ∧ i.imm = imm →
    patched s 0x52 = false →
    (shtOf (busLoad s (16 + k) (operandAddr (shtOf s k) rs imm) 4) k).st = .run →
    (busLoad s (16 + k) (operandAddr (shtOf s k) rs imm) 4).bus.err = true →
    Ends (.bld32 k rd rs imm) s (fun t =>
      LeftStatus (busLoad s (16 + k) (operandAddr (shtOf s k) rs imm) 4) t k 0x85)) ∧
  -- BST
  (∀ (s : State) (k rd rs imm : Nat) (i : Ins),
    fetched s k = some i →
    i.op = 0x51 ∧ i.rd = rd ∧ i.rs = rs ∧ i.imm = imm →
    patched s 0x51 = false →
    (shtOf (busStore s (16 + k) (operandAddr (shtOf s k) rs imm) 8 (wGet (shtOf s k) rd)) k).st = .run →
    (busStore s (16 + k) (operandAddr (shtOf s k) rs imm) 8 (wGet (shtOf s k) rd)).bus.err = false →
    Ends (.bst k rd rs imm) s (fun t =>
      LeftStatus (busStore s (16 + k) (operandAddr (shtOf s k) rs imm) 8 (wGet (shtOf s k) rd)) t k 0)) ∧
  -- BST that meets a bus error
  (∀ (s : State) (k rd rs imm : Nat) (i : Ins),
    fetched s k = some i →
    i.op = 0x51 ∧ i.rd = rd ∧ i.rs = rs ∧ i.imm = imm →
    patched s 0x51 = false →
    (shtOf (busStore s (16 + k) (operandAddr (shtOf s k) rs imm) 8 (wGet (shtOf s k) rd)) k).st = .run →
    (busStore s (16 + k) (operandAddr (shtOf s k) rs imm) 8 (wGet (shtOf s k) rd)).bus.err = true →
    Ends (.bst k rd rs imm) s (fun t =>
      LeftStatus (busStore s (16 + k) (operandAddr (shtOf s k) rs imm) 8 (wGet (shtOf s k) rd)) t k 0x85)) ∧
  -- BST32
  (∀ (s : State) (k rd rs imm : Nat) (i : Ins),
    fetched s k = some i →
    i.op = 0x53 ∧ i.rd = rd ∧ i.rs = rs ∧ i.imm = imm →
    patched s 0x53 = false →
    (shtOf (busStore s (16 + k) (operandAddr (shtOf s k) rs imm) 4 (wGet (shtOf s k) rd)) k).st = .run →
    (busStore s (16 + k) (operandAddr (shtOf s k) rs imm) 4 (wGet (shtOf s k) rd)).bus.err = false →
    Ends (.bst32 k rd rs imm) s (fun t =>
      LeftStatus (busStore s (16 + k) (operandAddr (shtOf s k) rs imm) 4 (wGet (shtOf s k) rd)) t k 0)) ∧
  -- BST32 that meets a bus error
  (∀ (s : State) (k rd rs imm : Nat) (i : Ins),
    fetched s k = some i →
    i.op = 0x53 ∧ i.rd = rd ∧ i.rs = rs ∧ i.imm = imm →
    patched s 0x53 = false →
    (shtOf (busStore s (16 + k) (operandAddr (shtOf s k) rs imm) 4 (wGet (shtOf s k) rd)) k).st = .run →
    (busStore s (16 + k) (operandAddr (shtOf s k) rs imm) 4 (wGet (shtOf s k) rd)).bus.err = true →
    Ends (.bst32 k rd rs imm) s (fun t =>
      LeftStatus (busStore s (16 + k) (operandAddr (shtOf s k) rs imm) 4 (wGet (shtOf s k) rd)) t k 0x85)) ∧
  -- BIN
  (∀ (s : State) (k rd rs imm : Nat) (i : Ins),
    fetched s k = some i →
    i.op = 0x54 ∧ i.rd = rd ∧ i.rs = rs ∧ i.imm = imm →
    patched s 0x54 = false →
    copyOk s (wGet (shtOf s k) rs).toNat (wGet (shtOf s k) rd).toNat (imm % 1024) true = true →
    (copyIn_ k (wGet (shtOf s k) rs).toNat (wGet (shtOf s k) rd).toNat (imm % 1024) 0 s).1 = true →
    (shtOf (copyIn_ k (wGet (shtOf s k) rs).toNat (wGet (shtOf s k) rd).toNat (imm % 1024) 0 s).2 k).st = .run →
    Ends (.bin k rd rs imm) s (fun t =>
      LeftStatus (copyIn_ k (wGet (shtOf s k) rs).toNat (wGet (shtOf s k) rd).toNat (imm % 1024) 0 s).2 t k 0)) ∧
  -- BIN of a span that breaks the rules
  (∀ (s : State) (k rd rs imm : Nat) (i : Ins),
    fetched s k = some i →
    i.op = 0x54 ∧ i.rd = rd ∧ i.rs = rs ∧ i.imm = imm →
    patched s 0x54 = false →
    copyOk s (wGet (shtOf s k) rs).toNat (wGet (shtOf s k) rd).toNat (imm % 1024) true = false →
    Ends (.bin k rd rs imm) s (fun t =>
      (shtOf t k).st = .trapped ∧
      fld t F.SHT_TRAP_CAUSE k = 3)) ∧
  -- BOUT
  (∀ (s : State) (k rd rs imm : Nat) (i : Ins),
    fetched s k = some i →
    i.op = 0x55 ∧ i.rd = rd ∧ i.rs = rs ∧ i.imm = imm →
    patched s 0x55 = false →
    copyOk s (wGet (shtOf s k) rs).toNat (wGet (shtOf s k) rd).toNat (imm % 1024) false = true →
    (copyOut k (wGet (shtOf s k) rs).toNat (wGet (shtOf s k) rd).toNat (imm % 1024) 0 s).1 = true →
    (shtOf (copyOut k (wGet (shtOf s k) rs).toNat (wGet (shtOf s k) rd).toNat (imm % 1024) 0 s).2 k).st = .run →
    Ends (.bout k rd rs imm) s (fun t =>
      LeftStatus (copyOut k (wGet (shtOf s k) rs).toNat (wGet (shtOf s k) rd).toNat (imm % 1024) 0 s).2 t k 0)) ∧
  -- BOUT of a span that breaks the rules
  (∀ (s : State) (k rd rs imm : Nat) (i : Ins),
    fetched s k = some i →
    i.op = 0x55 ∧ i.rd = rd ∧ i.rs = rs ∧ i.imm = imm →
    patched s 0x55 = false →
    copyOk s (wGet (shtOf s k) rs).toNat (wGet (shtOf s k) rd).toNat (imm % 1024) false = false →
    Ends (.bout k rd rs imm) s (fun t =>
      (shtOf t k).st = .trapped ∧
      fld t F.SHT_TRAP_CAUSE k = 3))

/-- O20. SUBMIT, AWAIT, Spool and slot instructions. SUBMIT, AWAIT, PUSH, POP, SPDROP, SLOT_STATUS, COMPLETE and HOLD act on their units and leave the status of their rules in LS. (R290, R291, R292, R293, R294, R295, R296) -/
def Obligations.ShuttleUnits : Prop :=
  -- SUBMIT accepted
  (∀ (s : State) (k rd rs : Nat) (i : Ins),
    fetched s k = some i →
    i.op = 0x60 ∧ i.rd = rd ∧ i.rs = rs →
    patched s 0x60 = false →
    getBits (wGet (shtOf s k) rs) 56 2 < s.part.acts →
    (slotAt (pairOf s (getBits (wGet (shtOf s k) rs) 56 2)) (getBits (wGet (shtOf s k) rs) 0 2)).valid = true →
    (slotAt (pairOf s (getBits (wGet (shtOf s k) rs) 56 2)) (getBits (wGet (shtOf s k) rs) 0 2)).seq = getBits (wGet (shtOf s k) rs) 2 16 →
    (pairOf s (getBits (wGet (shtOf s k) rs) 56 2)).replays.length - liveReplays (pairOf s (getBits (wGet (shtOf s k) rs) 56 2)) < 4 →
    (ctxOf s (getBits (wGet (shtOf s k) rs) 56 2) (getBits (wGet (shtOf s k) rs) 27 3)).used = true →
    Ends (.submit k rd rs) s (fun t =>
      (wGet (shtOf t k) rd = if rd = 0 then 0#64 else 0#64) ∧
      (shtOf t k).ls = 0 ∧
      (shtOf t k).pc = ((shtOf s k).pc + 4) % 2 ^ 64 ∧
      (dcpOf t (getBits (wGet (shtOf s k) rs) 56 2)).nextJob = (dcpOf s (getBits (wGet (shtOf s k) rs) 56 2)).nextJob + 1)) ∧
  -- SUBMIT for an absent actuator
  (∀ (s : State) (k rd rs : Nat) (i : Ins),
    fetched s k = some i →
    i.op = 0x60 ∧ i.rd = rd ∧ i.rs = rs →
    patched s 0x60 = false →
    s.part.acts ≤ getBits (wGet (shtOf s k) rs) 56 2 →
    Ends (.submit k rd rs) s (fun t =>
      (wGet (shtOf t k) rd = if rd = 0 then 0#64 else 0xFF#64) ∧
      (shtOf t k).ls = 0xFF ∧
      (shtOf t k).pc = ((shtOf s k).pc + 4) % 2 ^ 64 ∧
      t.dcp = s.dcp)) ∧
  -- AWAIT with a record
  (∀ (s : State) (k rd rs imm : Nat) (i : Ins) (w : Word) (rest : List Word),
    fetched s k = some i →
    i.op = 0x61 ∧ i.rd = rd ∧ i.rs = rs ∧ i.imm = imm →
    patched s 0x61 = false →
    getBits (wGet (shtOf s k) rs) 0 2 < s.part.acts →
    (dcpOf s (getBits (wGet (shtOf s k) rs) 0 2)).ring = w :: rest →
    Ends (.await k rd rs imm) s (fun t =>
      (wGet (shtOf t k) rd = if rd = 0 then 0#64 else w) ∧
      (shtOf t k).ls = 0 ∧
      (shtOf t k).pc = ((shtOf s k).pc + 4) % 2 ^ 64)) ∧
  -- AWAIT that stalls
  (∀ (s : State) (k rd rs imm : Nat) (i : Ins),
    fetched s k = some i →
    i.op = 0x61 ∧ i.rd = rd ∧ i.rs = rs ∧ i.imm = imm →
    patched s 0x61 = false →
    getBits (wGet (shtOf s k) rs) 0 2 < s.part.acts →
    (dcpOf s (getBits (wGet (shtOf s k) rs) 0 2)).ring = [] →
    Nat.testBit imm 0 = true →
    Ends (.await k rd rs imm) s (fun t =>
      t = setSht s k { shtOf s k with st := .stall })) ∧
  -- PUSH with space
  (∀ (s : State) (k rs imm : Nat) (i : Ins),
    fetched s k = some i →
    i.op = 0x70 ∧ i.rs = rs ∧ i.imm = imm →
    patched s 0x70 = false →
    coreProducer s (imm % 32) = false →
    spoolFull s (imm % 32) (16 + k) = false →
    (spoolOf s (imm % 32)).dropping = false →
    Ends (.push k rs imm) s (fun t =>
      (spoolOf t (imm % 32)).words = (spoolOf s (imm % 32)).words ++ [(wGet (shtOf s k) rs, Nat.testBit imm 5, false)] ∧
      (shtOf t k).ls = 0 ∧
      (shtOf t k).pc = ((shtOf s k).pc + 4) % 2 ^ 64)) ∧
  -- PUSH to a full Spool without WAIT_SPACE
  (∀ (s : State) (k rs imm : Nat) (i : Ins),
    fetched s k = some i →
    i.op = 0x70 ∧ i.rs = rs ∧ i.imm = imm →
    patched s 0x70 = false →
    coreProducer s (imm % 32) = false →
    spoolFull s (imm % 32) (16 + k) = true →
    Nat.testBit imm 6 = false →
    Ends (.push k rs imm) s (fun t =>
      LeftStatus s t k 0x86)) ∧
  -- POP of a word
  (∀ (s : State) (k rd imm : Nat) (i : Ins) (w : Word) (last poison : Bool) (rest : List (Word × Bool × Bool)),
    fetched s k = some i →
    i.op = 0x71 ∧ i.rd = rd ∧ i.imm = imm →
    patched s 0x71 = false →
    coreConsumer s (imm % 32) = false →
    (spoolOf s (imm % 32)).words = (w, (last, poison)) :: rest →
    Ends (.pop k rd imm false) s (fun t =>
      (wGet (shtOf t k) rd = if rd = 0 then 0#64 else w) ∧
      ((shtOf t k).ls = if poison then 0x88 else if last then 1 else 0) ∧
      (shtOf t k).pc = ((shtOf s k).pc + 4) % 2 ^ 64 ∧
      (spoolOf t (imm % 32)).words = rest)) ∧
  -- POP of an empty Spool without WAIT
  (∀ (s : State) (k rd imm : Nat) (i : Ins),
    fetched s k = some i →
    i.op = 0x71 ∧ i.rd = rd ∧ i.imm = imm →
    patched s 0x71 = false →
    coreConsumer s (imm % 32) = false →
    (spoolOf s (imm % 32)).words = [] →
    Nat.testBit imm 6 = false →
    Ends (.pop k rd imm false) s (fun t =>
      (wGet (shtOf t k) rd = if rd = 0 then 0#64 else (spoolOf s (imm % 32)).last) ∧
      (shtOf t k).ls = 0x87 ∧
      (shtOf t k).pc = ((shtOf s k).pc + 4) % 2 ^ 64 ∧
      flag t F.SPL_FW_STAT_UNDERRUN (imm % 32) = true)) ∧
  -- SPDROP
  (∀ (s : State) (k imm : Nat) (i : Ins) (rest : List (Word × Bool × Bool)),
    fetched s k = some i →
    i.op = 0x72 ∧ i.imm = imm →
    patched s 0x72 = false →
    coreConsumer s (imm % 32) = false →
    (spoolOf s (imm % 32)).atEnd = false →
    (spoolOf s (imm % 32)).dropping = false →
    afterLast (spoolOf s (imm % 32)).words = some rest →
    Ends (.spdrop k imm) s (fun t =>
      (spoolOf t (imm % 32)).words = rest ∧
      (spoolOf t (imm % 32)).atEnd = true ∧
      (shtOf t k).ls = 0 ∧
      (shtOf t k).pc = ((shtOf s k).pc + 4) % 2 ^ 64)) ∧
  -- SLOT_STATUS of the slot named
  (∀ (s : State) (k rd rs : Nat) (i : Ins) (n : Nat),
    fetched s k = some i →
    i.op = 0x80 ∧ i.rd = rd ∧ i.rs = rs →
    patched s 0x80 = false →
    byHandle s (getBits (wGet (shtOf s k) rs) 0 53) = some n →
    Ends (.slotStatus k rd rs) s (fun t =>
      (wGet (shtOf t k) rd = if rd = 0 then 0#64 else statusWord s n) ∧
      (shtOf t k).ls = 0 ∧
      (shtOf t k).pc = ((shtOf s k).pc + 4) % 2 ^ 64 ∧
      t.gly = s.gly)) ∧
  -- SLOT_STATUS of a stale handle
  (∀ (s : State) (k rd rs : Nat) (i : Ins),
    fetched s k = some i →
    i.op = 0x80 ∧ i.rd = rd ∧ i.rs = rs →
    patched s 0x80 = false →
    byHandle s (getBits (wGet (shtOf s k) rs) 0 53) = none →
    Ends (.slotStatus k rd rs) s (fun t =>
      (wGet (shtOf t k) rd = if rd = 0 then 0#64 else 0#64) ∧
      (shtOf t k).ls = 0x89 ∧
      (shtOf t k).pc = ((shtOf s k).pc + 4) % 2 ^ 64 ∧
      t.gly = s.gly)) ∧
  -- COMPLETE of a slot with holds and no outcome
  (∀ (s : State) (k rd rs : Nat) (i : Ins) (n : Nat),
    fetched s k = some i →
    i.op = 0x81 ∧ i.rd = rd ∧ i.rs = rs →
    patched s 0x81 = false →
    glyFrozen s = false →
    byHandle s (getBits (wGet (shtOf s k) rs) 0 53) = some n →
    (glySlot s n).outcome = none →
    (glySlot s n).descFail = none →
    (glySlot s n).holds ≠ 0 →
    okStatus (wGet (shtOf s k) rd) = true →
    Ends (.complete k rd rs) s (fun t =>
      (glySlot t n).outcome = some (wGet (shtOf s k) rd) ∧
      (shtOf t k).ls = 0 ∧
      (shtOf t k).pc = ((shtOf s k).pc + 4) % 2 ^ 64)) ∧
  -- COMPLETE while frozen
  (∀ (s : State) (k rd rs : Nat) (i : Ins),
    fetched s k = some i →
    i.op = 0x81 ∧ i.rd = rd ∧ i.rs = rs →
    patched s 0x81 = false →
    glyFrozen s = true →
    Ends (.complete k rd rs) s (fun t =>
      LeftStatus s t k 0x8A)) ∧
  -- HOLD placed
  (∀ (s : State) (k rs imm : Nat) (i : Ins) (n : Nat),
    fetched s k = some i →
    i.op = 0x82 ∧ i.rs = rs ∧ i.imm = imm →
    patched s 0x82 = false →
    glyFrozen s = false →
    Nat.testBit imm 0 = true →
    byHandle s (getBits (wGet (shtOf s k) rs) 0 53) = some n →
    (glySlot s n).holds < 15 →
    Ends (.hold k rs imm) s (fun t =>
      glySlot t n = { glySlot s n with holds := (glySlot s n).holds + 1 } ∧
      (shtOf t k).ls = 0 ∧
      (shtOf t k).pc = ((shtOf s k).pc + 4) % 2 ^ 64)) ∧
  -- a sixteenth HOLD
  (∀ (s : State) (k rs imm : Nat) (i : Ins) (n : Nat),
    fetched s k = some i →
    i.op = 0x82 ∧ i.rs = rs ∧ i.imm = imm →
    patched s 0x82 = false →
    glyFrozen s = false →
    Nat.testBit imm 0 = true →
    byHandle s (getBits (wGet (shtOf s k) rs) 0 53) = some n →
    15 ≤ (glySlot s n).holds →
    Ends (.hold k rs imm) s (fun t =>
      LeftStatus s t k 0x8B))

/-- O21. WAIT, SPAWN, YIELD and BARRIER. WAIT returns at once on a true event and waits otherwise; SPAWN pushes a task word or reports the full deque; YIELD saves a frame and frees the Shuttle; BARRIER arrives and stalls. (R298, R299, R304, R305, R308) -/
def Obligations.ShuttleTasks : Prop :=
  -- WAIT on a true event
  (∀ (s : State) (k rd rs imm : Nat) (i : Ins),
    fetched s k = some i →
    i.op = 0x90 ∧ i.rd = rd ∧ i.rs = rs ∧ i.imm = imm →
    patched s 0x90 = false →
    (eventOf (shtOf s k) i).kind < 7 →
    eventRefused s k (eventOf (shtOf s k) i) = none →
    eventTrue s k .running (eventOf (shtOf s k) i) = true →
    Ends (.wait k rd rs imm) s (fun t =>
      (wGet (shtOf t k) rd = if rd = 0 then 0#64 else 0#64) ∧
      (shtOf t k).ls = 0 ∧
      (shtOf t k).pc = ((shtOf s k).pc + 4) % 2 ^ 64)) ∧
  -- WAIT on an event not yet true
  (∀ (s : State) (k rd rs imm : Nat) (i : Ins),
    fetched s k = some i →
    i.op = 0x90 ∧ i.rd = rd ∧ i.rs = rs ∧ i.imm = imm →
    patched s 0x90 = false →
    (eventOf (shtOf s k) i).kind < 7 →
    eventRefused s k (eventOf (shtOf s k) i) = none →
    eventTrue s k .running (eventOf (shtOf s k) i) = false →
    Ends (.wait k rd rs imm) s (fun t =>
      t = setSht s k { shtOf s k with st := .wait, waiting := some (eventOf (shtOf s k) i, rd) })) ∧
  -- WAIT on a tag that is not in use
  (∀ (s : State) (k rd rs imm : Nat) (i : Ins),
    fetched s k = some i →
    i.op = 0x90 ∧ i.rd = rd ∧ i.rs = rs ∧ i.imm = imm →
    patched s 0x90 = false →
    (eventOf (shtOf s k) i).kind = 0 →
    tagOwned (shtOf s k) ((eventOf (shtOf s k) i).sel % 8) .running = false →
    Ends (.wait k rd rs imm) s (fun t =>
      (wGet (shtOf t k) rd = if rd = 0 then 0#64 else 0x90#64) ∧
      (shtOf t k).ls = 0x90 ∧
      (shtOf t k).pc = ((shtOf s k).pc + 4) % 2 ^ 64)) ∧
  -- SPAWN
  (∀ (s : State) (k rs imm : Nat) (i : Ins),
    fetched s k = some i →
    i.op = 0xA0 ∧ i.rs = rs ∧ i.imm = imm →
    patched s 0xA0 = false →
    bit (wGet (shtOf s k) rs) 63 = true →
    enginePresent s (if Nat.testBit imm 6 then imm % 64 else 16 + k) = true →
    (dequeOf s (if Nat.testBit imm 6 then imm % 64 else 16 + k)).length < 64 →
    Ends (.spawn k rs imm) s (fun t =>
      dequeOf t (if Nat.testBit imm 6 then imm % 64 else 16 + k) = dequeOf s (if Nat.testBit imm 6 then imm % 64 else 16 + k) ++ [wGet (shtOf s k) rs] ∧
      (shtOf t k).ls = 0 ∧
      (shtOf t k).pc = ((shtOf s k).pc + 4) % 2 ^ 64)) ∧
  -- SPAWN of a word without VALID
  (∀ (s : State) (k rs imm : Nat) (i : Ins),
    fetched s k = some i →
    i.op = 0xA0 ∧ i.rs = rs ∧ i.imm = imm →
    patched s 0xA0 = false →
    bit (wGet (shtOf s k) rs) 63 = false →
    Ends (.spawn k rs imm) s (fun t =>
      (shtOf t k).st = .trapped ∧
      fld t F.SHT_TRAP_CAUSE k = 1 ∧
      t.loom = s.loom)) ∧
  -- YIELD with a free frame
  (∀ (s : State) (k rd rs imm : Nat) (i : Ins) (f : Nat),
    fetched s k = some i →
    i.op = 0xA1 ∧ i.rd = rd ∧ i.rs = rs ∧ i.imm = imm →
    patched s 0xA1 = false →
    ((eventOf (shtOf s k) i).kind < 7 ∨ (eventOf (shtOf s k) i).kind = 15) →
    eventRefused s k (eventOf (shtOf s k) i) = none →
    firstFree (frameUsed (shtOf s k)) 4 = some f →
    Ends (.yield k rd rs imm) s (fun t =>
      (shtOf t k).st = .idle ∧
      (shtOf t k).task = 0#64 ∧
      (shtOf t k).frames = (shtOf s k).frames ++ [{ f := f, ready := if (eventOf (shtOf s k) i).kind = 15 then some 0 else none, task := (shtOf s k).task, rd := rd }] ∧
      fld t F.SHT_CNT_YIELDS k = min (fld s F.SHT_CNT_YIELDS k + 1) 65535 ∧
      (∀ j, j < 15 → lsWord (shtOf t k) (0x7C00 + 0x100 * f + 8 * j) = wGet (shtOf s k) (j + 1)))) ∧
  -- YIELD with no free frame
  (∀ (s : State) (k rd rs imm : Nat) (i : Ins),
    fetched s k = some i →
    i.op = 0xA1 ∧ i.rd = rd ∧ i.rs = rs ∧ i.imm = imm →
    patched s 0xA1 = false →
    ((eventOf (shtOf s k) i).kind < 7 ∨ (eventOf (shtOf s k) i).kind = 15) →
    eventRefused s k (eventOf (shtOf s k) i) = none →
    firstFree (frameUsed (shtOf s k)) 4 = none →
    Ends (.yield k rd rs imm) s (fun t =>
      (wGet (shtOf t k) rd = if rd = 0 then 0#64 else 0x8D#64) ∧
      (shtOf t k).ls = 0x8D ∧
      (shtOf t k).pc = ((shtOf s k).pc + 4) % 2 ^ 64)) ∧
  -- BARRIER of a member
  (∀ (s : State) (k rd rs imm : Nat) (i : Ins),
    fetched s k = some i →
    i.op = 0xA2 ∧ i.rd = rd ∧ i.rs = rs ∧ i.imm = imm →
    patched s 0xA2 = false →
    16 + k ∈ members s (imm % 16) →
    Ends (.barrier k rd rs imm) s (fun t =>
      (shtOf t k).st = .stall ∧
      (shtOf t k).barrier = some (imm % 16, rd) ∧
      (barrierOf t (imm % 16)).arrived = tins (16 + k) (wGet (shtOf s k) rs) (barrierOf s (imm % 16)).arrived ∧
      (shtOf t k).pc = (shtOf s k).pc)) ∧
  -- BARRIER of an engine that is no member
  (∀ (s : State) (k rd rs imm : Nat) (i : Ins),
    fetched s k = some i →
    i.op = 0xA2 ∧ i.rd = rd ∧ i.rs = rs ∧ i.imm = imm →
    patched s 0xA2 = false →
    16 + k ∉ members s (imm % 16) →
    Ends (.barrier k rd rs imm) s (fun t =>
      LeftStatus s t k 0x92))

/-- O22. Media operations issue; media operations end. With every check of R284 passed, SEEK hands CTE a seek, RDRUN and VERIFY arm LNE under the lowest free run context, and WRRUN starts a write run; the synchronous form stalls the Shuttle, the asynchronous one gives its tag; a failed check completes at once with its status. A completed operation writes word 6 and frees its tag; MABORT ends a seek ABORTED and a TIMEOUT ends it TIMED_OUT; a run that waited for a context takes the first one free; a stalled HALT ends its task once its tags are gone. (R283, R284, R286, R274, R282, R287) -/
def Obligations.MediaOperations : Prop :=
  -- SEEK, synchronous, under the selected head
  (∀ (s : State) (k rd imm : Nat) (i : Ins),
    fetched s k = some i →
    i.op = 0x40 ∧ i.rd = rd ∧ i.imm = imm →
    patched s 0x40 = false →
    imm < 2 ^ 15 →
    imm % 64 = 0 ∧ fld s F.SHT_CODE_TOP_TOP ≤ imm ∧ imm + 64 ≤ 0x7C00 →
    mediaCheck s .seek (descAt (shtOf s k) imm) = 0 →
    (descAt (shtOf s k) imm).head = selHead s (descAt (shtOf s k) imm).act →
    Ends (.seek k rd imm) s (fun t =>
      (shtOf t k).st = .stall ∧
      (cteOf t (descAt (shtOf s k) imm).act).mediaReq = (cteOf s (descAt (shtOf s k) imm).act).mediaReq ++ [{ who := .media { sh := k, tag := 8 }, track := (descAt (shtOf s k) imm).track, offset := signed 16 (descAt (shtOf s k) imm).offset }] ∧
      lsWord (shtOf t k) (imm + 48) = 0#64 ∧
      (tagOp (shtOf t k) 8).map (fun m => m.phase) = some .issued)) ∧
  -- SEEK, asynchronous
  (∀ (s : State) (k rd imm : Nat) (i : Ins) (tag : Nat),
    fetched s k = some i →
    i.op = 0x40 ∧ i.rd = rd ∧ i.imm = imm →
    patched s 0x40 = false →
    2 ^ 15 ≤ imm ∧ imm < 2 ^ 16 →
    imm % 64 = 0 ∧ fld s F.SHT_CODE_TOP_TOP ≤ imm % 2 ^ 15 ∧ imm % 2 ^ 15 + 64 ≤ 0x7C00 →
    mediaCheck s .seek (descAt (shtOf s k) (imm % 2 ^ 15)) = 0 →
    (descAt (shtOf s k) (imm % 2 ^ 15)).head = selHead s (descAt (shtOf s k) (imm % 2 ^ 15)).act →
    freeTag (shtOf s k) = some tag →
    Ends (.seek k rd imm) s (fun t =>
      (wGet (shtOf t k) rd = if rd = 0 then 0#64 else BitVec.ofNat 64 tag) ∧
      (shtOf t k).ls = 0 ∧
      (shtOf t k).pc = ((shtOf s k).pc + 4) % 2 ^ 64 ∧
      (tagOp (shtOf t k) tag).map (fun m => m.phase) = some .issued)) ∧
  -- RDRUN with a free run context
  (∀ (s : State) (k rd imm : Nat) (i : Ins) (c : Nat),
    fetched s k = some i →
    i.op = 0x41 ∧ i.rd = rd ∧ i.imm = imm →
    patched s 0x41 = false →
    imm < 2 ^ 15 →
    imm % 64 = 0 ∧ fld s F.SHT_CODE_TOP_TOP ≤ imm ∧ imm + 64 ≤ 0x7C00 →
    mediaCheck s .rdrun (descAt (shtOf s k) imm) = 0 →
    firstFree (fun j => (ctxOf s (descAt (shtOf s k) imm).act j).used) 8 = some c →
    rdrunStatus s (descAt (shtOf s k) imm).act = 0 →
    Ends (.rdrun k rd imm) s (fun t =>
      (shtOf t k).st = .stall ∧
      (pairOf t (descAt (shtOf s k) imm).act).live = .armed ∧
      (pairOf t (descAt (shtOf s k) imm).act).run.map (fun r => (r.owner, r.code, r.count, r.ctx)) = some ({ sh := k, tag := 8 }, (descAt (shtOf s k) imm).code, (descAt (shtOf s k) imm).count, c) ∧
      ctxOf t (descAt (shtOf s k) imm).act c = { used := true, code := (descAt (shtOf s k) imm).code, lba := (descAt (shtOf s k) imm).w2, base := (descAt (shtOf s k) imm).base, stride := (descAt (shtOf s k) imm).stride, count := (descAt (shtOf s k) imm).count, verify := false })) ∧
  -- VERIFY with a free run context
  (∀ (s : State) (k rd imm : Nat) (i : Ins) (c : Nat),
    fetched s k = some i →
    i.op = 0x43 ∧ i.rd = rd ∧ i.imm = imm →
    patched s 0x43 = false →
    imm < 2 ^ 15 →
    imm % 64 = 0 ∧ fld s F.SHT_CODE_TOP_TOP ≤ imm ∧ imm + 64 ≤ 0x7C00 →
    mediaCheck s .verify (descAt (shtOf s k) imm) = 0 →
    firstFree (fun j => (ctxOf s (descAt (shtOf s k) imm).act j).used) 8 = some c →
    rdrunStatus s (descAt (shtOf s k) imm).act = 0 →
    Ends (.verify k rd imm) s (fun t =>
      (shtOf t k).st = .stall ∧
      (pairOf t (descAt (shtOf s k) imm).act).live = .armed ∧
      (pairOf t (descAt (shtOf s k) imm).act).run.map (fun r => (r.owner, r.code, r.count, r.ctx)) = some ({ sh := k, tag := 8 }, (descAt (shtOf s k) imm).code, (descAt (shtOf s k) imm).count, c) ∧
      ctxOf t (descAt (shtOf s k) imm).act c = { used := true, code := (descAt (shtOf s k) imm).code, lba := (descAt (shtOf s k) imm).w2, base := (descAt (shtOf s k) imm).base, stride := (descAt (shtOf s k) imm).stride, count := (descAt (shtOf s k) imm).count, verify := true })) ∧
  -- WRRUN
  (∀ (s : State) (k rd imm : Nat) (i : Ins),
    fetched s k = some i →
    i.op = 0x42 ∧ i.rd = rd ∧ i.imm = imm →
    patched s 0x42 = false →
    imm < 2 ^ 15 →
    imm % 64 = 0 ∧ fld s F.SHT_CODE_TOP_TOP ≤ imm ∧ imm + 64 ≤ 0x7C00 →
    mediaCheck s .wrrun (descAt (shtOf s k) imm) = 0 →
    wrrunStatus s (descAt (shtOf s k) imm).act (descAt (shtOf s k) imm).track (descAt (shtOf s k) imm).first (descAt (shtOf s k) imm).count = 0 →
    Ends (.wrrun k rd imm) s (fun t =>
      (shtOf t k).st = .stall ∧
      (wrpOf t (descAt (shtOf s k) imm).act).run.map (fun r => (r.owner, r.head, r.track, r.first, r.count)) = some ({ sh := k, tag := 8 }, (descAt (shtOf s k) imm).head, (descAt (shtOf s k) imm).track, (descAt (shtOf s k) imm).first, (descAt (shtOf s k) imm).count) ∧
      fld t F.WRP_RUN_STAT_STATE (descAt (shtOf s k) imm).act = 1 ∧
      fld t F.WRP_RUN_STAT_WRITTEN (descAt (shtOf s k) imm).act = 0)) ∧
  -- SEEK that fails a check
  (∀ (s : State) (k rd imm : Nat) (i : Ins) (e : Nat),
    fetched s k = some i →
    i.op = 0x40 ∧ i.rd = rd ∧ i.imm = imm →
    patched s 0x40 = false →
    imm < 2 ^ 15 →
    imm % 64 = 0 ∧ fld s F.SHT_CODE_TOP_TOP ≤ imm ∧ imm + 64 ≤ 0x7C00 →
    mediaCheck s .seek (descAt (shtOf s k) imm) = e →
    e ≠ 0 →
    e < 256 →
    Ends (.seek k rd imm) s (fun t =>
      (wGet (shtOf t k) rd = if rd = 0 then 0#64 else BitVec.ofNat 64 e) ∧
      (shtOf t k).ls = e ∧
      (shtOf t k).pc = ((shtOf s k).pc + 4) % 2 ^ 64 ∧
      tagOp (shtOf t k) 8 = none)) ∧
  -- RDRUN that fails a check
  (∀ (s : State) (k rd imm : Nat) (i : Ins) (e : Nat),
    fetched s k = some i →
    i.op = 0x41 ∧ i.rd = rd ∧ i.imm = imm →
    patched s 0x41 = false →
    imm < 2 ^ 15 →
    imm % 64 = 0 ∧ fld s F.SHT_CODE_TOP_TOP ≤ imm ∧ imm + 64 ≤ 0x7C00 →
    mediaCheck s .rdrun (descAt (shtOf s k) imm) = e →
    e ≠ 0 →
    e < 256 →
    Ends (.rdrun k rd imm) s (fun t =>
      (wGet (shtOf t k) rd = if rd = 0 then 0#64 else BitVec.ofNat 64 e) ∧
      (shtOf t k).ls = e ∧
      (shtOf t k).pc = ((shtOf s k).pc + 4) % 2 ^ 64 ∧
      tagOp (shtOf t k) 8 = none)) ∧
  -- WRRUN that fails a check
  (∀ (s : State) (k rd imm : Nat) (i : Ins) (e : Nat),
    fetched s k = some i →
    i.op = 0x42 ∧ i.rd = rd ∧ i.imm = imm →
    patched s 0x42 = false →
    imm < 2 ^ 15 →
    imm % 64 = 0 ∧ fld s F.SHT_CODE_TOP_TOP ≤ imm ∧ imm + 64 ≤ 0x7C00 →
    mediaCheck s .wrrun (descAt (shtOf s k) imm) = e →
    e ≠ 0 →
    e < 256 →
    Ends (.wrrun k rd imm) s (fun t =>
      (wGet (shtOf t k) rd = if rd = 0 then 0#64 else BitVec.ofNat 64 e) ∧
      (shtOf t k).ls = e ∧
      (shtOf t k).pc = ((shtOf s k).pc + 4) % 2 ^ 64 ∧
      tagOp (shtOf t k) 8 = none)) ∧
  -- VERIFY that fails a check
  (∀ (s : State) (k rd imm : Nat) (i : Ins) (e : Nat),
    fetched s k = some i →
    i.op = 0x43 ∧ i.rd = rd ∧ i.imm = imm →
    patched s 0x43 = false →
    imm < 2 ^ 15 →
    imm % 64 = 0 ∧ fld s F.SHT_CODE_TOP_TOP ≤ imm ∧ imm + 64 ≤ 0x7C00 →
    mediaCheck s .verify (descAt (shtOf s k) imm) = e →
    e ≠ 0 →
    e < 256 →
    Ends (.verify k rd imm) s (fun t =>
      (wGet (shtOf t k) rd = if rd = 0 then 0#64 else BitVec.ofNat 64 e) ∧
      (shtOf t k).ls = e ∧
      (shtOf t k).pc = ((shtOf s k).pc + 4) % 2 ^ 64 ∧
      tagOp (shtOf t k) 8 = none)) ∧
  -- a unit has answered an asynchronous operation
  (∀ (s : State) (k tag st n : Nat) (cut : Bool) (m : MediaOp),
    tagOp (shtOf s k) tag = some m →
    m.phase = .done st n cut →
    tag < 8 →
    Ends (.mediaOpComplete k tag) s (fun t =>
      tagOp (shtOf t k) tag = none ∧
      lsWord (shtOf t k) (m.desc + 48) = word6 m st n cut ∧
      (shtOf t k).pc = (shtOf s k).pc)) ∧
  -- a unit has answered the synchronous operation of a stalled Shuttle
  (∀ (s : State) (k st n : Nat) (cut : Bool) (m : MediaOp),
    tagOp (shtOf s k) 8 = some m →
    m.phase = .done st n cut →
    m.owner = .running →
    (shtOf s k).st = .stall →
    Ends (.mediaOpComplete k 8) s (fun t =>
      tagOp (shtOf t k) 8 = none ∧
      lsWord (shtOf t k) (m.desc + 48) = word6 m st n cut ∧
      (shtOf t k).st = .run ∧
      (shtOf t k).ls = st % 256 ∧
      (shtOf t k).pc = ((shtOf s k).pc + 4) % 2 ^ 64 ∧
      (wGet (shtOf t k) m.rd = if m.rd = 0 then 0#64 else BitVec.ofNat 64 st))) ∧
  -- MABORT of a seek of the task
  (∀ (s : State) (k rs : Nat) (i : Ins) (m : MediaOp),
    fetched s k = some i →
    i.op = 0x44 ∧ i.rs = rs →
    patched s 0x44 = false →
    tagOp (shtOf s k) (getBits (wGet (shtOf s k) rs) 0 3) = some m →
    m.owner = .running →
    m.kind = .seek →
    m.phase = .issued →
    Ends (.mabort k rs) s (fun t =>
      (tagOp (shtOf t k) (getBits (wGet (shtOf s k) rs) 0 3)).map (fun x => x.phase) = some (.done 0x91 0 false) ∧
      (shtOf t k).ls = 0 ∧
      (shtOf t k).pc = ((shtOf s k).pc + 4) % 2 ^ 64)) ∧
  -- MABORT of a tag not in use
  (∀ (s : State) (k rs : Nat) (i : Ins),
    fetched s k = some i →
    i.op = 0x44 ∧ i.rs = rs →
    patched s 0x44 = false →
    tagOp (shtOf s k) (getBits (wGet (shtOf s k) rs) 0 3) = none →
    Ends (.mabort k rs) s (fun t =>
      LeftStatus s t k 0x90)) ∧
  -- a TIMEOUT ends a seek
  (∀ (s : State) (k tag : Nat) (m : MediaOp),
    tagOp (shtOf s k) tag = some m →
    m.timeout ≠ 0 →
    m.timedOut = false →
    m.kind = .seek →
    m.phase = .issued →
    Ends (.mediaTimeout k tag) s (fun t =>
      (tagOp (shtOf t k) tag).map (fun x => x.phase) = some (.done 0x83 0 false) ∧
      fld t F.SHT_CNT_MEDIA_TMO k = min (fld s F.SHT_CNT_MEDIA_TMO k + 1) 255)) ∧
  -- a run context frees
  (∀ (s : State) (k tag c : Nat) (m : MediaOp),
    k < s.part.shuttles →
    tagOp (shtOf s k) tag = some m →
    tag < 9 →
    m.phase = .runContext →
    firstFree (fun j => (ctxOf s m.act j).used) 8 = some c →
    rdrunStatus s m.act = 0 →
    Ends (.stallRelease k tag) s (fun t =>
      (tagOp (shtOf t k) tag).map (fun x => (x.phase, x.ctx)) = some (.issued, some c) ∧
      (pairOf t m.act).live = .armed)) ∧
  -- a stalled HALT ends its task
  (∀ (s : State) (k : Nat),
    k < s.part.shuttles →
    (shtOf s k).st = .stall →
    stallFree (shtOf s k) = true →
    (insAt (shtOf s k) (shtOf s k).pc).op = 0x01 →
    ownsTags (shtOf s k) .running = false →
    Ends (.stallRelease k 9) s (fun t =>
      t = setSht s k { shtOf s k with st := .idle, task := 0#64 }))

/-- O23. Shuttles from outside their programs; loading code and patches. EN, RESET and RESUME; the work an idle Shuttle takes; traps at fetch and by the task limit; the end of a wait and of a yielded frame. SHT_LOAD starts a copy when no selected Shuttle is enabled and its span fits; its end clears BUSY with a status; the local store port reads and writes 8 bytes; a patch load that passes every check replaces the patch RAMs. (R274, R299, R302, R305, R310, R311, R317, R324, R325, R327) -/
def Obligations.ShuttleControl : Prop :=
  -- EN set
  (∀ (s : State) (k : Nat),
    k < s.part.shuttles →
    flag s F.SHT_S_CTL_EN k = false →
    Ends (.shuttleEnable k) s (fun t =>
      flag t F.SHT_S_CTL_EN k = true ∧
      (shtOf t k) = { shtOf s k with st := .idle })) ∧
  -- EN cleared while a task runs
  (∀ (s : State) (k : Nat),
    k < s.part.shuttles →
    flag s F.SHT_S_CTL_EN k = true →
    (shtOf s k).st = .run →
    Ends (.shuttleDisable k) s (fun t =>
      flag t F.SHT_S_CTL_EN k = false ∧
      (shtOf t k).st = .off ∧
      (shtOf t k).tags = [] ∧
      (shtOf t k).frames = [] ∧
      rd t .SHT_LOST k = (shtOf s k).task ∧
      dequeOf t (16 + k) = dequeOf s (16 + k))) ∧
  -- RESET with EN set
  (∀ (s : State) (k : Nat),
    k < s.part.shuttles →
    flag s F.SHT_S_CTL_EN k = true →
    Ends (.shuttleReset k) s (fun t =>
      flag t F.SHT_S_CTL_EN k = true ∧
      (shtOf t k).st = .idle ∧
      (shtOf t k).task = 0#64 ∧
      (shtOf t k).tags = [] ∧
      (shtOf t k).frames = [] ∧
      (shtOf t k).store = (shtOf s k).store)) ∧
  -- RESUME of a trapped Shuttle
  (∀ (s : State) (k : Nat),
    k < s.part.shuttles →
    flag s F.SHT_S_CTL_EN k = true →
    (shtOf s k).st = .trapped →
    Ends (.shuttleResume k) s (fun t =>
      (shtOf t k).st = .idle ∧
      (shtOf t k).task = 0#64 ∧
      (shtOf t k).frames = (shtOf s k).frames)) ∧
  -- a block reset of SHT
  (∀ (s : State) (k : Nat),
    k < s.part.shuttles →
    Ends (.shtBlockReset) s (fun t =>
      (shtOf t k).tags = [] ∧
      (shtOf t k).frames = [] ∧
      ((shtOf t k).st = if flag s F.SHT_S_CTL_EN k then .idle else .off) ∧
      t.codeLoad = none ∧
      flag t F.CKR_BRST_SHT = false ∧
      t.patch = s.patch)) ∧
  -- an idle Shuttle takes the bottom task of its own deque
  (∀ (s : State) (k : Nat) (w : Word),
    k < s.part.shuttles →
    (shtOf s k).st = .idle →
    (shtOf s k).frames.find? (fun x => x.ready.isSome) = none →
    (dequeOf s (16 + k)).getLast? = some w →
    Ends (.taskTake k) s (fun t =>
      (shtOf t k).st = .run ∧
      (shtOf t k).pc = getBits w 0 16 ∧
      wGet (shtOf t k) 1 = BitVec.ofNat 64 (getBits w 16 47) ∧
      (shtOf t k).ls = 0 ∧
      (shtOf t k).task = w ∧
      dequeOf t (16 + k) = (dequeOf s (16 + k)).dropLast ∧
      fld t F.SHT_CNT_TASKS k = min (fld s F.SHT_CNT_TASKS k + 1) 65535 ∧
      (∀ r, 2 ≤ r → wGet (shtOf t k) r = 0#64))) ∧
  -- an idle Shuttle with an empty deque takes from the injection queue
  (∀ (s : State) (k : Nat) (w : Word) (rest : List Word),
    k < s.part.shuttles →
    (shtOf s k).st = .idle →
    (shtOf s k).frames.find? (fun x => x.ready.isSome) = none →
    dequeOf s (16 + k) = [] →
    s.loom.inject = w :: rest →
    Ends (.taskTake k) s (fun t =>
      (shtOf t k).st = .run ∧
      (shtOf t k).pc = getBits w 0 16 ∧
      (shtOf t k).task = w ∧
      t.loom = { s.loom with inject := rest })) ∧
  -- an idle Shuttle restores its oldest ready frame
  (∀ (s : State) (k : Nat) (x : Frame),
    k < s.part.shuttles →
    (shtOf s k).st = .idle →
    (shtOf s k).frames.find? (fun y => y.ready.isSome) = some x →
    x.ready = some 0 →
    Ends (.taskTake k) s (fun t =>
      (shtOf t k).st = .run ∧
      (shtOf t k).pc = getBits (lsWord (shtOf s k) (0x7C00 + 0x100 * x.f + 120)) 8 15 ∧
      (shtOf t k).task = x.task ∧
      (shtOf t k).ls = 0 ∧
      wGet (shtOf t k) x.rd = 0#64 ∧
      (shtOf t k).frames = (shtOf s k).frames.filter (fun y => decide (y.f ≠ x.f)) ∧
      (∀ j, j < 15 → j + 1 ≠ x.rd → wGet (shtOf t k) (j + 1) = lsWord (shtOf s k) (0x7C00 + 0x100 * x.f + 8 * j)))) ∧
  -- a fetch outside the code region
  (∀ (s : State) (k cause addr : Nat),
    k < s.part.shuttles →
    (shtOf s k).st = .run →
    fetchOk s (shtOf s k).pc = false →
    Ends (.trap k cause addr) s (fun t =>
      (shtOf t k).st = .trapped ∧
      fld t F.SHT_TRAP_CAUSE k = 2 ∧
      fld t F.SHT_TRAP_PC k = (shtOf s k).pc % 2 ^ 15 ∧
      rd t .SHT_LOST k = (shtOf s k).task ∧
      fld t F.SHT_CNT_TRAPS k = min (fld s F.SHT_CNT_TRAPS k + 1) 255 ∧
      (shtOf t k).frames = (shtOf s k).frames)) ∧
  -- the task limit passes
  (∀ (s : State) (k : Nat),
    k < s.part.shuttles →
    fld s F.SHT_TASK_TMO_US ≠ 0 →
    ((shtOf s k).st = .run ∨ (shtOf s k).st = .stall ∨ (shtOf s k).st = .wait) →
    Ends (.taskTimeout k) s (fun t =>
      (shtOf t k).st = .trapped ∧
      fld t F.SHT_TRAP_CAUSE k = 5 ∧
      rd t .SHT_LOST k = (shtOf s k).task)) ∧
  -- a waited event becomes true
  (∀ (s : State) (k rd : Nat) (e : Event),
    (shtOf s k).st = .wait →
    (shtOf s k).waiting = some (e, rd) →
    eventTrue s k .running e = true →
    Ends (.waitEvent k) s (fun t =>
      (shtOf t k).st = .run ∧
      (wGet (shtOf t k) rd = if rd = 0 then 0#64 else 0#64) ∧
      (shtOf t k).ls = 0 ∧
      (shtOf t k).pc = ((shtOf s k).pc + 4) % 2 ^ 64 ∧
      (shtOf t k).waiting = none)) ∧
  -- a WAIT's timeout passes
  (∀ (s : State) (k rd r : Nat) (e : Event),
    (shtOf s k).st = .wait →
    (shtOf s k).waiting = some (e, rd) →
    eventTrue s k .running e = false →
    timeoutResult e = some r →
    Ends (.waitTimeout k) s (fun t =>
      (shtOf t k).st = .run ∧
      (wGet (shtOf t k) rd = if rd = 0 then 0#64 else BitVec.ofNat 64 r) ∧
      (shtOf t k).ls = r % 256 ∧
      (shtOf t k).pc = ((shtOf s k).pc + 4) % 2 ^ 64 ∧
      (shtOf t k).waiting = none)) ∧
  -- a yielded frame's event becomes true
  (∀ (s : State) (k f : Nat) (x : Frame),
    (shtOf s k).frames = [x] →
    x.f = f →
    x.ready = none →
    eventTrue s k (.frame f) (frameEvent (shtOf s k) f) = true →
    Ends (.frameReady k f false) s (fun t =>
      (shtOf t k) = { shtOf s k with frames := [{ x with ready := some 0 }] })) ∧
  -- SHT_LOAD accepted
  (∀ (s : State) (v : Word),
    (loadTargets s).any (fun k => flag s F.SHT_S_CTL_EN k) = false →
    1 ≤ getBits v 40 9 ∧ getBits v 40 9 * 64 ≤ fld s F.SHT_CODE_TOP_TOP →
    s.codeLoad = none →
    Ends (.shtLoad v) s (fun t =>
      t.codeLoad = some { src := getBits v 0 40, lines := getBits v 40 9, mask := fld s F.SHT_LOAD_MASK_MASK } ∧
      flag t F.SHT_LOAD_STAT_BUSY = true)) ∧
  -- SHT_LOAD to an enabled Shuttle
  (∀ (s : State) (v : Word),
    (loadTargets s).any (fun k => flag s F.SHT_S_CTL_EN k) = true →
    Ends (.shtLoad v) s (fun t =>
      t.codeLoad = s.codeLoad ∧
      fld t F.SHT_LOAD_STAT_STATUS = 0x93)) ∧
  -- the copy ends
  (∀ (s : State) (c : CodeLoad),
    s.codeLoad = some c →
    (copyCode c c.lines 0 s).1 = true →
    Ends (.shtLoadDone) s (fun t =>
      t.codeLoad = none ∧
      flag t F.SHT_LOAD_STAT_BUSY = false ∧
      fld t F.SHT_LOAD_STAT_STATUS = 0 ∧
      t.shts = (copyCode c c.lines 0 s).2.shts)) ∧
  -- a write through the local store port
  (∀ (s : State) (k : Nat) (v : Word),
    fld s F.SHT_LS_PORT_ADDR_SHUTTLE = k →
    k < s.part.shuttles →
    flag s F.SHT_LS_PORT_ADDR_BCAST = false →
    flag s F.SHT_S_CTL_EN k = false →
    Ends (.lsPortAccess true v) s (fun t =>
      lsWord (shtOf t k) (fld s F.SHT_LS_PORT_ADDR_ADDR / 8 * 8) = v ∧
      (fld t F.SHT_LS_PORT_ADDR_ADDR = if flag s F.SHT_LS_PORT_ADDR_AUTOINC then (fld s F.SHT_LS_PORT_ADDR_ADDR + 8) % 2 ^ 15 else fld s F.SHT_LS_PORT_ADDR_ADDR))) ∧
  -- a read through the local store port
  (∀ (s : State) (k : Nat) (v : Word),
    fld s F.SHT_LS_PORT_ADDR_SHUTTLE = k →
    k < s.part.shuttles →
    Ends (.lsPortAccess false v) s (fun t =>
      t.bus = { value := lsWord (shtOf s k) (fld s F.SHT_LS_PORT_ADDR_ADDR / 8 * 8), err := false } ∧
      t.shts = s.shts)) ∧
  -- a patch that passes every check
  (∀ (s : State) (v : Word) (p : PatchBlob),
    bit v 0 = true →
    (List.range s.part.shuttles).any (fun k => flag s F.SHT_S_CTL_EN k) = false →
    p.romId = fld s F.SHT_ROM_ID_ID →
    p.matches_.length ≤ 32 ∧ p.micro.length ≤ 1024 ∧ p.nano.length ≤ 512 →
    Ends (.patchLoad v true true p) s (fun t =>
      fld t F.SEC_PATCH_CMD_STATUS = 0 ∧
      flag t F.SHT_PATCH_STAT_LOADED = true ∧
      fld t F.SHT_PATCH_STAT_MATCHES = p.matches_.length ∧
      fld t F.SHT_PATCH_STAT_PATCH_VER = p.version % 65536 ∧
      t.patch.micro.length = p.micro.length)) ∧
  -- a patch whose signature fails
  (∀ (s : State) (v : Word) (tagOk : Bool) (p : PatchBlob),
    bit v 0 = true →
    (List.range s.part.shuttles).any (fun k => flag s F.SHT_S_CTL_EN k) = false →
    Ends (.patchLoad v false tagOk p) s (fun t =>
      fld t F.SEC_PATCH_CMD_STATUS = SecSt.authFail ∧
      t.patch = s.patch))

/-- O24. LOOM's deques, injection queue and barriers. A valid task word is injected or pushed, an invalid one or a full queue sets OVF; a core takes the bottom of its deque; a block reset empties every deque. A member's arrival keeps its contribution; the release gives every waiting Shuttle the combined value with LS = OK and advances GEN; a TIMEOUT ends the generation with BARRIER_TMO; CFG is refused while anyone has arrived. (R300, R301, R302, R304, R518, R308, R309, R326) -/
def Obligations.LoomDequesAndBarriers : Prop :=
  -- a task injected
  (∀ (s : State) (w : Word),
    bit w 63 = true →
    s.loom.inject.length < 256 →
    Ends (.loomInject w) s (fun t =>
      t = { s with loom := { s.loom with inject := s.loom.inject ++ [w] } })) ∧
  -- a word without VALID injected
  (∀ (s : State) (w : Word),
    bit w 63 = false →
    Ends (.loomInject w) s (fun t =>
      flag t F.LOOM_INJ_STAT_OVF = true ∧
      t.loom = s.loom)) ∧
  -- a task pushed
  (∀ (s : State) (e : Nat) (w : Word),
    enginePresent s e = true →
    bit w 63 = true →
    (dequeOf s e).length < 64 →
    Ends (.loomPush e w) s (fun t =>
      t = setDeque s e (dequeOf s e ++ [w]))) ∧
  -- a push to a full deque
  (∀ (s : State) (e : Nat) (w : Word),
    enginePresent s e = true →
    64 ≤ (dequeOf s e).length →
    Ends (.loomPush e w) s (fun t =>
      flag t F.LOOM_DQ_STAT_OVF e = true ∧
      t.loom = s.loom)) ∧
  -- the bottom of a deque taken
  (∀ (s : State) (c e : Nat) (w : Word),
    enginePresent s e = true →
    (dequeOf s e).getLast? = some w →
    Ends (.loomTake c e) s (fun t =>
      t.bus = { value := w, err := false } ∧
      dequeOf t e = (dequeOf s e).dropLast)) ∧
  -- nothing to take
  (∀ (s : State) (c e : Nat),
    enginePresent s e = true →
    dequeOf s e = [] →
    (c ≠ e ∨ flag s F.LOOM_CTL_STEAL_CORE = false) →
    Ends (.loomTake c e) s (fun t =>
      t = answer s 0#64)) ∧
  -- a block reset of LOOM
  (∀ (s : State),
    Ends (.loomBlockReset) s (fun t =>
      t.loom.deques = [] ∧
      t.loom.inject = [] ∧
      flag t F.CKR_BRST_LOOM = false)) ∧
  -- a core arrives
  (∀ (s : State) (c b : Nat) (v : Word),
    b < 16 →
    c < 16 →
    c ∈ members s b →
    Ends (.loomBarArrive c b v) s (fun t =>
      t = setBarrier s b (tins c v (barrierOf s b).arrived))) ∧
  -- a release
  (∀ (s : State) (b k rd : Nat),
    b < 16 →
    barrierFull s b = true →
    k < s.part.shuttles →
    (shtOf s k).barrier = some (b, rd) →
    Ends (.barrierRelease b) s (fun t =>
      (rd = 0 ∨ wGet (shtOf t k) rd = combine (fld s F.LOOM_BAR_CFG_OP b) ((barrierOf s b).arrived.filter (fun x => decide (x.1 ∈ members s b)))) ∧
      (shtOf t k).ls = 0 ∧
      (shtOf t k).pc = ((shtOf s k).pc + 4) % 2 ^ 64 ∧
      (shtOf t k).st = .run ∧
      (barrierOf t b).arrived = [] ∧
      fld t F.LOOM_BAR_STAT_GEN b = (fld s F.LOOM_BAR_STAT_GEN b + 1) % 65536 ∧
      Machine.rd t .LOOM_BAR_RESULT b = combine (fld s F.LOOM_BAR_CFG_OP b) ((barrierOf s b).arrived.filter (fun x => decide (x.1 ∈ members s b))) ∧
      pendingBit t (336 + b) = true)) ∧
  -- a barrier's TIMEOUT
  (∀ (s : State) (b k rd : Nat),
    b < 16 →
    (barrierOf s b).arrived ≠ [] →
    fld s F.LOOM_BAR_CFG_TIMEOUT b ≠ 0 →
    barrierFull s b = false →
    k < s.part.shuttles →
    (shtOf s k).barrier = some (b, rd) →
    Ends (.barrierTimeout b) s (fun t =>
      (shtOf t k).ls = 0x8E ∧
      (shtOf t k).pc = ((shtOf s k).pc + 4) % 2 ^ 64 ∧
      (shtOf t k).st = .run ∧
      (barrierOf t b).arrived = [] ∧
      flag t F.LOOM_BAR_STAT_TIMED_OUT b = true ∧
      fld t F.LOOM_BAR_STAT_GEN b = (fld s F.LOOM_BAR_STAT_GEN b + 1) % 65536)) ∧
  -- a configuration while nobody has arrived
  (∀ (s : State) (b : Nat) (v : Word),
    b < 16 →
    (barrierOf s b).arrived = [] →
    Ends (.loomBarCfgWrite b v) s (fun t =>
      fld t F.LOOM_BAR_CFG_MEMBERS b = getBits v 0 40 ∧
      fld t F.LOOM_BAR_CFG_OP b = getBits v 40 2 ∧
      fld t F.LOOM_BAR_CFG_TIMEOUT b = getBits v 42 16)) ∧
  -- a configuration refused
  (∀ (s : State) (b : Nat) (v : Word),
    b < 16 →
    (barrierOf s b).arrived ≠ [] →
    Ends (.loomBarCfgWrite b v) s (fun t =>
      flag t F.LOOM_BAR_STAT_CFG_REFUSED b = true ∧
      rd t .LOOM_BAR_CFG b = rd s .LOOM_BAR_CFG b))

/-- O25. Doorbells, fetch and acceptance. A doorbell moves a tail or a head; a grant fetches what the queue, the burst and the free slots allow; a fetched command takes the slot and the next ASN; an Abort that names a dormant command aborts it. (R328, R331, R332, R334, R360, R607) -/
def Obligations.GalleyFetch : Prop :=
  -- a submission doorbell
  (∀ (s : State) (p qid v : Nat),
    isSas s = false →
    p < hostPorts s →
    (ctxQ s (ctlBase s p + qid)).sqEn = true →
    Ends (.doorbell p qid false v) s (fun t =>
      ctxQ t (ctlBase s p + qid) = { ctxQ s (ctlBase s p + qid) with sqTail := v % 65536 } ∧
      ctlBase s p + qid ∉ t.gly.fusedWait)) ∧
  -- a completion doorbell
  (∀ (s : State) (p qid v : Nat),
    isSas s = false →
    p < hostPorts s →
    (ctxQ s (ctlBase s p + qid)).cqEn = true →
    Ends (.doorbell p qid true v) s (fun t =>
      t = setCtxQ s (ctlBase s p + qid) { ctxQ s (ctlBase s p + qid) with cqHead := v % 65536 })) ∧
  -- a grant
  (∀ (s u : State) (p q n : Nat) (level : Option Nat) (entries : List Sqe),
    mayFetch s = true →
    freeSlots s ≠ 0 →
    grant (hostPorts s) s.gly.ptr (fun j => (chooseQueue s j).isSome) = some p →
    chooseQueue s p = some (q, level, u) →
    n = min (2 ^ fld s F.GLY_ARB_CTL_AB p) (min (entriesIn s q) (if q = ctlBase s p then freeSlots s else freeSlots s - fld s F.GLY_CTL_ADMIN_RSV)) →
    0 < n →
    fuseOf (entries.getD (n - 1) []) ≠ 1 →
    Ends (.fetch entries false) s (fun t =>
      t.gly.fetched = fetchedOf s q n false entries)) ∧
  -- a fetch that fails
  (∀ (s u : State) (p q : Nat) (level : Option Nat) (entries : List Sqe),
    mayFetch s = true →
    freeSlots s ≠ 0 →
    grant (hostPorts s) s.gly.ptr (fun j => (chooseQueue s j).isSome) = some p →
    chooseQueue s p = some (q, level, u) →
    Ends (.fetch entries true) s (fun t =>
      (ctxQ t q).fetchErr = true ∧
      t.gly.fetched = [])) ∧
  -- a second half that does not come
  (∀ (s : State) (q : Nat) (entry : Sqe),
    mayFetch s = true →
    q ∈ s.gly.fusedWait →
    freeSlots s ≠ 0 →
    Ends (.fusedWaitTimeout q entry) s (fun t =>
      t.gly.fetched = fetchedOf s q 1 true [entry] ∧
      q ∉ t.gly.fusedWait)) ∧
  -- a read is accepted
  (∀ (s : State) (info : CmdInfo) (slot : Nat) (f : Fetched) (rest : List Fetched),
    s.gly.fetched = f :: rest →
    info.cls = .read →
    slot < 8192 →
    (glySlot s slot).st = .free →
    f.sideband = false →
    fuseOf f.cmd = 0 →
    s.gly.pairOpen = none →
    rangeCheck s info 1 = none →
    glyFrozen s = false →
    flag s F.GLY_CTL_EN = true →
    Ends (.commandAcceptance info slot) s (fun t =>
      (glySlot t slot).st = .accepted ∧
      (glySlot t slot).asn = fld s F.GLY_ASN_NEXT_ASN ∧
      (glySlot t slot).cid = getBits (f.cmd.getD 0 0#64) 16 16 ∧
      ((glySlot t slot).nsid, (glySlot t slot).slba, (glySlot t slot).nlb, (glySlot t slot).okind) = (info.nsid, info.slba, info.nlb, 1) ∧
      fld t F.GLY_ASN_NEXT_ASN = (fld s F.GLY_ASN_NEXT_ASN + 1) % 2 ^ 64 ∧
      t.gly.fetched = rest)) ∧
  -- an Abort of a dormant command
  (∀ (s : State) (p sqid cid n : Nat) (entry : List Word) (x : Slot),
    mayFetch s = true →
    p < hostPorts s →
    0 < entriesIn s (ctlBase s p) →
    bit (rd s .HFE_RESET_STAT 0) p = false →
    cqFull s (ctlBase s p) = false →
    (occupiedSlots s).find? (fun e => decide (e.2.queue = ctlBase s p + sqid ∧ e.2.cid = cid) && !e.2.sideband && decide (e.2.st ≠ .orphan)) = some (n, x) →
    glySlot s n = x →
    x.st.dormant = true →
    x.zone = none →
    ctlOf s (ctlBase s p) = p →
    Ends (.nvmeAbort p entry sqid cid) s (fun t =>
      (glySlot t n).st = .gated ∧
      (glySlot t n).outcome = some 0xFB#64 ∧
      fld t F.GLY_CNT_ABORTS = min (fld s F.GLY_CNT_ABORTS + 1) 65535))

/-- O26. Dispatch, reservation and landing. A read whose gates are open goes to the deque of GLY_DISPATCH_CTL; one behind a closed gate waits; a write waits for its reservation, takes its space and lands; a kept work item is tried again. (R336, R337, R343, R355, R357) -/
def Obligations.GalleyDispatch : Prop :=
  -- a read of nothing buffered
  (∀ (s : State) (slot : Nat),
    ((glySlot s slot).st = .accepted ∨ (glySlot s slot).st = .waitOrder) →
    gatesOpen s slot (glySlot s slot) = true →
    (glySlot s slot).landed = false →
    (glySlot s slot).cls = .read →
    (glySlot s slot).okind = 1 →
    (glySlot s slot).nlb ≠ 0 →
    (∀ j, j < (glySlot s slot).nlb → blockVersion s (glySlot s slot).nsid ((glySlot s slot).slba + j) (glySlot s slot).asn = none) →
    s.gly.items = [] →
    enginePresent s (fld s F.GLY_DISPATCH_CTL_READ) = true →
    (dequeOf s (fld s F.GLY_DISPATCH_CTL_READ)).length < 64 →
    Ends (.dispatch slot) s (fun t =>
      (glySlot t slot).st = .dispatched ∧
      dequeOf t (fld s F.GLY_DISPATCH_CTL_READ) = dequeOf s (fld s F.GLY_DISPATCH_CTL_READ) ++ [BitVec.ofNat 64 (slot + (glySlot s slot).asn % 2 ^ 40 * 2 ^ 13 + 2 ^ 63)] ∧
      t.gly.items = [])) ∧
  -- a command behind a closed gate
  (∀ (s : State) (slot : Nat),
    ((glySlot s slot).st = .accepted ∨ (glySlot s slot).st = .waitOrder) →
    gatesOpen s slot (glySlot s slot) = false →
    glyFrozen s = false →
    Ends (.dispatch slot) s (fun t =>
      glySlot t slot = { glySlot s slot with st := .waitOrder } ∧
      t.loom = s.loom)) ∧
  -- a write waits for its reservation
  (∀ (s : State) (slot : Nat),
    ((glySlot s slot).st = .accepted ∨ (glySlot s slot).st = .waitOrder) →
    gatesOpen s slot (glySlot s slot) = true →
    (glySlot s slot).landed = false →
    (glySlot s slot).cls = .write →
    (glySlot s slot).okind = 2 →
    Ends (.dispatch slot) s (fun t =>
      glySlot t slot = { glySlot s slot with st := .waitBudget })) ∧
  -- a kept work item finds room
  (∀ (s : State) (i : WorkItem),
    s.gly.items = [i] →
    enginePresent s i.engine = true →
    (dequeOf s i.engine).length < 64 →
    Ends (.dispatchRetry) s (fun t =>
      t.gly.items = [] ∧
      dequeOf t i.engine = dequeOf s i.engine ++ [i.word] ∧
      flag t F.GLY_STAT_DISPATCH_BLOCKED = false)) ∧
  -- a reservation granted
  (∀ (s : State) (slot addr : Nat),
    (glySlot s slot).st = .waitBudget →
    otherSlot s slot (fun _ y => decide (y.st = .waitBudget ∧ y.asn < (glySlot s slot).asn)) = false →
    glyFrozen s = false →
    reserveFits s (glySlot s slot) = true →
    spaceFree s addr (reserveUnits s (glySlot s slot)).2 = true →
    Ends (.budgetReservation slot addr) s (fun t =>
      (glySlot t slot).st = .dataIn ∧
      (glySlot t slot).addr = addr ∧
      (glySlot t slot).part = (reserveUnits s (glySlot s slot)).1 ∧
      (glySlot t slot).charge = (reserveUnits s (glySlot s slot)).2 ∧
      (glySlot t slot).moving = true)) ∧
  -- the last part of a write lands with the volatile cache on
  (∀ (s : State) (slot : Nat) (data : List Byte),
    (glySlot s slot).moving = true →
    (glySlot s slot).st = .dataIn →
    glyFrozen s = false →
    (glySlot s slot).nlb ≤ (glySlot s slot).done + (glySlot s slot).part →
    (busWrite s portGlyChannel (glySlot s slot).addr (data.take ((glySlot s slot).part * ((glySlot s slot).bytes / max 1 (glySlot s slot).nlb)))).1 = true →
    vwcOn (busWrite s portGlyChannel (glySlot s slot).addr (data.take ((glySlot s slot).part * ((glySlot s slot).bytes / max 1 (glySlot s slot).nlb)))).2 (glySlot s slot) = true →
    Ends (.landed slot 0 data) s (fun t =>
      (glySlot t slot).st = .gated ∧
      (glySlot t slot).landed = true ∧
      (glySlot t slot).moving = false ∧
      (glySlot t slot).done = (glySlot s slot).done + (glySlot s slot).part ∧
      (glySlot t slot).outcome = some ((glySlot s slot).outcome.getD 0#64))) ∧
  -- a transfer fails
  (∀ (s : State) (slot : Nat) (data : List Byte),
    (glySlot s slot).moving = true →
    (glySlot s slot).st = .dataIn →
    glyFrozen s = false →
    (glySlot s slot).zone = none →
    (glySlot s slot).holds = 0 ∧ (glySlot s slot).descOut = 0 →
    Ends (.landed slot 3 data) s (fun t =>
      (glySlot t slot).st = .gated ∧
      (glySlot t slot).outcome = some 0xC1#64 ∧
      (glySlot t slot).special = some .guardCheck ∧
      (glySlot t slot).moving = false ∧
      fld t F.HFE_PI_CNT_GUARD = min (fld s F.HFE_PI_CNT_GUARD + 1) 65535))

/-- O27. Posting and the core slot port. A slot that meets R356 posts its completion and is freed; the core port answers STATUS, COMPLETE and HOLD as the Coava instructions do. (R295, R296, R339, R356, R375) -/
def Obligations.GalleyCompletion : Prop :=
  -- a completion is posted
  (∀ (s : State) (slot : Nat),
    postReady s slot = true →
    postTurn s slot = true →
    (glySlot s slot).pair = none →
    (glySlot s slot).zone = none →
    Ends (.completionPost slot) s (fun t =>
      (glySlot t slot).st = .free ∧
      t.gly.postSeq = s.gly.postSeq + 1)) ∧
  -- an NVMe completion entry
  (∀ (s : State) (slot : Nat),
    postReady s slot = true →
    postTurn s slot = true →
    (glySlot s slot).pair = none →
    (glySlot s slot).sideband = false →
    isSas s = false →
    Ends (.completionPost slot) s (fun t =>
      HostOut.cqe (ctlOf s (glySlot s slot).queue) (ctxQ s (glySlot s slot).queue).cqIndex (glySlot s slot).result (ctxQ s (glySlot s slot).queue).sqHead (glySlot s slot).queue (glySlot s slot).cid (ctxQ s (ctxQ s (glySlot s slot).queue).cqIndex).phase (slotStatus (glySlot s slot)) ∈ t.hfe.out)) ∧
  -- STATUS
  (∀ (s : State) (c n : Nat) (v : Word),
    c < s.part.cores →
    byHandle s (getBits v 0 53) = some n →
    Ends (.glySlotStatus c v) s (fun t =>
      fld t F.GLY_SLOT_CMD_RESULT c = 0 ∧
      rd t .GLY_SLOT_ARG c = statusWord s n ∧
      t.gly = s.gly)) ∧
  -- COMPLETE of a slot with holds and no outcome
  (∀ (s : State) (c n : Nat) (v : Word),
    c < s.part.cores →
    byHandle s (getBits v 0 53) = some n →
    glyFrozen s = false →
    (glySlot s n).outcome = none →
    (glySlot s n).descFail = none →
    (glySlot s n).holds ≠ 0 →
    okStatus (rd s .GLY_SLOT_ARG c) = true →
    Ends (.glyComplete c v) s (fun t =>
      fld t F.GLY_SLOT_CMD_RESULT c = 0 ∧
      (glySlot t n).outcome = some (rd s .GLY_SLOT_ARG c))) ∧
  -- HOLD placed
  (∀ (s : State) (c n : Nat) (v : Word),
    c < s.part.cores →
    byHandle s (getBits v 0 53) = some n →
    glyFrozen s = false →
    (glySlot s n).holds < 15 →
    Ends (.holdAdd c v) s (fun t =>
      fld t F.GLY_SLOT_CMD_RESULT c = 0 ∧
      glySlot t n = { glySlot s n with holds := (glySlot s n).holds + 1 })) ∧
  -- HOLD released with no outcome given
  (∀ (s : State) (c n : Nat) (v : Word),
    c < s.part.cores →
    byHandle s (getBits v 0 53) = some n →
    glyFrozen s = false →
    (glySlot s n).outcome = none →
    Ends (.holdRelease c v) s (fun t =>
      fld t F.GLY_SLOT_CMD_RESULT c = 0 ∧
      glySlot t n = { glySlot s n with holds := (glySlot s n).holds - 1 }))

/-- O28. The write-buffer index. LOOKUP finds the newest version below the bound; BEGIN marks what may be destaged; END_OK and END_FAIL clear the marks; PIN takes versions out of lookup; an index operation with nothing to act on answers its status. (R344, R345, R346, R376) -/
def Obligations.WriteBufferIndex : Prop :=
  -- LOOKUP of one block
  (∀ (s : State) (c : Nat) (v : Word) (x : Version),
    c < s.part.cores →
    (rd s .GLY_WB_LBA c).toNat < 2 ^ 64 - 1 →
    max 1 (min 256 (getBits v 32 9)) = 1 →
    blockVersion s (getBits v 0 32) ((rd s .GLY_WB_LBA c).toNat) (if (rd s .GLY_WB_ASN c).toNat = 0 then fld s F.GLY_ASN_NEXT_ASN else (rd s .GLY_WB_ASN c).toNat) = some x →
    Ends (.lookup c v) s (fun t =>
      rd t .GLY_WB_RES c = BitVec.ofNat 64 (x.addr % 2 ^ 40 + 0 * 2 ^ 40 + 1 * 2 ^ 48) ∧
      t.gly = s.gly)) ∧
  -- LOOKUP of a block not held
  (∀ (s : State) (c : Nat) (v : Word),
    c < s.part.cores →
    (rd s .GLY_WB_LBA c).toNat < 2 ^ 64 - 1 →
    blockVersion s (getBits v 0 32) ((rd s .GLY_WB_LBA c).toNat) (if (rd s .GLY_WB_ASN c).toNat = 0 then fld s F.GLY_ASN_NEXT_ASN else (rd s .GLY_WB_ASN c).toNat) = none →
    Ends (.lookup c v) s (fun t =>
      rd t .GLY_WB_RES c = BitVec.ofNat 64 (0 + 0xA0 * 2 ^ 40 + 0 * 2 ^ 48) ∧
      t.gly = s.gly)) ∧
  -- BEGIN of one block
  (∀ (s : State) (c : Nat) (v : Word) (x : Version),
    c < s.part.cores →
    (rd s .GLY_WB_LBA c).toNat < 2 ^ 64 - 1 →
    max 1 (min 256 (getBits v 32 9)) = 1 →
    blockVersion s (getBits v 0 32) ((rd s .GLY_WB_LBA c).toNat) (2 ^ 64) = some x →
    x.clean = false →
    beginBlocked s x = false →
    Ends (.begin c v) s (fun t =>
      rd t .GLY_WB_RES c = BitVec.ofNat 64 (x.addr % 2 ^ 40 + 0 * 2 ^ 40 + 1 * 2 ^ 48) ∧
      t.gly.index = s.gly.index.map (fun w => if w = x then { w with destaging := true } else w))) ∧
  -- END_OK
  (∀ (s : State) (c : Nat) (v : Word),
    c < s.part.cores →
    (rd s .GLY_WB_LBA c).toNat + 256 ≤ 2 ^ 64 →
    s.gly.index.any (markedIn (getBits v 0 32) ((rd s .GLY_WB_LBA c).toNat) (max 1 (min 256 (getBits v 32 9)))) = true →
    Ends (.endOk c v) s (fun t =>
      rd t .GLY_WB_RES c = BitVec.ofNat 64 (0 + 0 * 2 ^ 40 + 0 * 2 ^ 48) ∧
      t.gly.index.any (markedIn (getBits v 0 32) ((rd s .GLY_WB_LBA c).toNat) (max 1 (min 256 (getBits v 32 9)))) = false)) ∧
  -- END_FAIL
  (∀ (s : State) (c : Nat) (v : Word),
    c < s.part.cores →
    (rd s .GLY_WB_LBA c).toNat + 256 ≤ 2 ^ 64 →
    s.gly.index.any (markedIn (getBits v 0 32) ((rd s .GLY_WB_LBA c).toNat) (max 1 (min 256 (getBits v 32 9)))) = true →
    Ends (.endFail c v) s (fun t =>
      rd t .GLY_WB_RES c = BitVec.ofNat 64 (0 + 0 * 2 ^ 40 + 0 * 2 ^ 48) ∧
      t.gly.index.any (markedIn (getBits v 0 32) ((rd s .GLY_WB_LBA c).toNat) (max 1 (min 256 (getBits v 32 9)))) = false ∧
      t.gly.index.length = s.gly.index.length)) ∧
  -- PIN
  (∀ (s : State) (c : Nat) (v : Word),
    c < s.part.cores →
    (rd s .GLY_WB_LBA c).toNat + 256 ≤ 2 ^ 64 →
    s.gly.index.any (fun x => decide (x.nsid = getBits v 0 32 ∧ (rd s .GLY_WB_LBA c).toNat ≤ x.lba ∧ x.lba < (rd s .GLY_WB_LBA c).toNat + max 1 (min 256 (getBits v 32 9))) && !x.retired && !x.pinned) = true →
    Ends (.pin c v) s (fun t =>
      rd t .GLY_WB_RES c = BitVec.ofNat 64 (0 + 0 * 2 ^ 40 + 0 * 2 ^ 48) ∧
      t.gly.index.all (fun x => !decide (x.nsid = getBits v 0 32 ∧ (rd s .GLY_WB_LBA c).toNat ≤ x.lba ∧ x.lba < (rd s .GLY_WB_LBA c).toNat + max 1 (min 256 (getBits v 32 9))) || x.pinned) = true))

/-- O29. Drain, the ASN floor and the budget; sAS frames, task management and host controller resets. GO of GLY_DRAIN stops fetching, interrupts running media commands and reports a drain that takes too long; the floor raises the next ASN while Galley is off; the budget is taken up to B_MAX and refused beyond it. A SAS frame is accepted, or answered BUSY; a task management function frees a dormant target and is answered at once with none; a controller reset sets its pending bit, clears CC.EN and is reported done by firmware. (R358, R365, R371, R374, R377, R333, R361, R363) -/
def Obligations.GalleyControlAndAborts : Prop :=
  -- GLY_DRAIN.GO
  (∀ (s : State),
    Ends (.drain) s (fun t =>
      flag t F.GLY_CTL_FETCH_STOP = true ∧
      flag t F.GLY_DRAIN_GO = true ∧
      t.gly.drainAt = s.ckr.up ∧
      flag t F.GLY_DRAIN_DONE = decide (occupied s = 0))) ∧
  -- two seconds after GO a running read is interrupted
  (∀ (s : State) (n : Nat) (x : Slot),
    flag s F.GLY_DRAIN_GO = true →
    glyFrozen s = false →
    occupiedSlots s = [(n, x)] →
    glySlot s n = x →
    x.st = .dispatched →
    x.okind = 1 →
    x.outcome = none →
    x.descFail = none →
    x.zone = none →
    Ends (.drainInterrupt) s (fun t =>
      (glySlot t n).outcome = some 0xF9#64)) ∧
  -- eight seconds after GO without DONE
  (∀ (s : State),
    flag s F.GLY_DRAIN_GO = true →
    flag s F.GLY_DRAIN_DONE = false →
    (waitingAt s .gly).length < 4 →
    Ends (.drainTimeout) s (fun t =>
      waitingAt t .gly = waitingAt s .gly ++ [faultMsg 192 FK.glyDrain 5 0] ∧
      t.gly = s.gly)) ∧
  -- the ASN floor
  (∀ (s : State) (v : Word),
    flag s F.GLY_CTL_EN = false →
    Ends (.asnFloor v) s (fun t =>
      fld t F.GLY_ASN_NEXT_ASN = max (fld s F.GLY_ASN_NEXT_ASN) v.toNat ∧
      (∃ u, t = { s with regs := u } ∧ ∀ q i, ¬(q = .GLY_ASN_NEXT ∧ i = 0) → rd t q i = rd s q i))) ∧
  -- the ASN floor while Galley runs
  (∀ (s : State) (v : Word),
    flag s F.GLY_CTL_EN = true →
    Ends (.asnFloor v) s (fun t =>
      t = s)) ∧
  -- a budget up to B_MAX
  (∀ (s : State) (v : Word),
    getBits v 0 6 ≤ fld s F.SPN_HU_STAT_B_MAX →
    Ends (.budgetWrite v) s (fun t =>
      fld t F.GLY_BUDGET_SIZE = getBits v 0 6 ∧
      fld t F.GLY_BUDGET_EFFECTIVE = getBits v 0 6)) ∧
  -- a budget beyond B_MAX
  (∀ (s : State) (v : Word),
    fld s F.SPN_HU_STAT_B_MAX < getBits v 0 6 →
    Ends (.budgetWrite v) s (fun t =>
      fld t F.GLY_BUDGET_SIZE = fld s F.GLY_BUDGET_SIZE ∧
      flag t F.GLY_BUDGET_REFUSED = true)) ∧
  -- a SAS read frame accepted
  (∀ (s : State) (port nexus tag attr slot : Nat) (cmd : List Word) (info : CmdInfo),
    isSas s = true →
    powerLost s = false →
    safeState s = false →
    ready s F.CKR_READY_HOST = true →
    (occupiedSlots s).any (fun e => decide (e.2.queue = nexus ∧ e.2.cid = tag)) = false →
    flag s F.GLY_CTL_EN = true →
    flag s F.GLY_CTL_FETCH_STOP = false →
    bit (rd s .HFE_RESET_STAT 0) port = false →
    slot < 8192 →
    (glySlot s slot).st = .free →
    info.cls = .read →
    rangeCheck s info 1 = none →
    Ends (.sasCommandFrame port nexus tag attr cmd info slot) s (fun t =>
      (glySlot t slot).st = .accepted ∧
      ((glySlot t slot).queue, (glySlot t slot).cid, (glySlot t slot).ctrl) = (nexus, tag, port) ∧
      (glySlot t slot).asn = fld s F.GLY_ASN_NEXT_ASN ∧
      fld t F.GLY_ASN_NEXT_ASN = (fld s F.GLY_ASN_NEXT_ASN + 1) % 2 ^ 64)) ∧
  -- a SAS frame before HOST
  (∀ (s : State) (port nexus tag attr slot : Nat) (cmd : List Word) (info : CmdInfo),
    isSas s = true →
    powerLost s = false →
    safeState s = false →
    ready s F.CKR_READY_HOST = false →
    Ends (.sasCommandFrame port nexus tag attr cmd info slot) s (fun t =>
      t = toHost s (.response port nexus tag .busy))) ∧
  -- ABORT TASK of a dormant command
  (∀ (s : State) (port nexus lun tag n : Nat) (x : Slot),
    isSas s = true →
    glyFrozen s = false →
    occupiedSlots s = [(n, x)] →
    glySlot s n = x →
    x.queue = nexus ∧ x.cid = tag ∧ x.nsid = lun + 1 →
    x.st.dormant = true →
    x.zone = none →
    Ends (.abortTask port nexus lun tag) s (fun t =>
      (glySlot t n).st = .free ∧
      fld t F.GLY_CNT_ABORTS = min (fld s F.GLY_CNT_ABORTS + 1) 65535)) ∧
  -- ABORT TASK SET of a dormant command
  (∀ (s : State) (port nexus lun n : Nat) (x : Slot),
    isSas s = true →
    glyFrozen s = false →
    occupiedSlots s = [(n, x)] →
    glySlot s n = x →
    x.queue = nexus ∧ x.nsid = lun + 1 →
    x.st.dormant = true →
    x.zone = none →
    Ends (.abortTaskSet port nexus lun) s (fun t =>
      (glySlot t n).st = .free ∧
      fld t F.GLY_CNT_ABORTS = min (fld s F.GLY_CNT_ABORTS + 1) 65535)) ∧
  -- CLEAR TASK SET of a dormant command
  (∀ (s : State) (port lun n : Nat) (x : Slot),
    isSas s = true →
    glyFrozen s = false →
    occupiedSlots s = [(n, x)] →
    glySlot s n = x →
    x.nsid = lun + 1 →
    x.st.dormant = true →
    x.zone = none →
    Ends (.clearTaskSet port lun) s (fun t =>
      (glySlot t n).st = .free ∧
      fld t F.GLY_CNT_ABORTS = min (fld s F.GLY_CNT_ABORTS + 1) 65535)) ∧
  -- CLEAR TASK SET with no target
  (∀ (s : State) (port lun : Nat),
    isSas s = true →
    glyFrozen s = false →
    (occupiedSlots s).any (fun e => decide (e.2.nsid = lun + 1)) = false →
    Ends (.clearTaskSet port lun) s (fun t =>
      HostOut.functionComplete port 0 ∈ t.hfe.out ∧
      t.gly.slots = s.gly.slots ∧
      t.gly.index = s.gly.index)) ∧
  -- a host controller reset
  (∀ (s : State) (p : Nat),
    p < hostPorts s →
    isSas s = false →
    powerLost s = false →
    Ends (.controllerReset p none) s (fun t =>
      bit (rd t .HFE_RESET_STAT 0) p = true ∧
      pendingBit t (129 + p) = true ∧
      tget (dflt false) t.hfe.ccEn p = false ∧
      tget (dflt false) t.hfe.rdy p = false)) ∧
  -- firmware reports a reset done
  (∀ (s : State) (p : Nat) (v : Word),
    p < 2 →
    bit v p = true →
    bit (rd s .HFE_RESET_STAT 0) p = true →
    isSas s = false →
    Ends (.resetDoneReport v) s (fun t =>
      bit (rd t .HFE_RESET_STAT 0) p = false ∧
      t.gly.ctx.any (fun e => decide (ctlOf s e.1 = p)) = false)) ∧
  -- a block reset of HFE
  (∀ (s : State) (p : Nat),
    p < hostPorts s →
    Ends (.hfeBlockReset) s (fun t =>
      bit (rd t .HFE_RESET_STAT 0) p = true ∧
      flag t F.CKR_BRST_HFE = false))

/-- O30. Host links, controller enables and the sideband. A trained port shows its rate and width, raises its source and its readiness bit, a lost one clears them and counts; CC.EN is taken and CSTS.RDY follows HOST; the sideband answers at its addresses; temperatures are sampled; a block reset of MGT ends its sessions. (R382, R394, R395, R397, R400, R401, R402, R607) -/
def Obligations.HostPortsAndSideband : Prop :=
  -- port 0 trains
  (∀ (s : State) (speed width : Nat),
    s.sec.boot ≠ .dead →
    speed ≠ 0 →
    linkOk s speed width = true →
    Ends (.linkTrained 0 speed width) s (fun t =>
      fld t F.HFE_CFG_SPEED_0 = speed ∧
      fld t F.HFE_CFG_WIDTH_0 = width ∧
      pendingBit t 131 = true ∧
      ready t F.CKR_READY_LINK 0 = true)) ∧
  -- port 0 goes down
  (∀ (s : State) (width : Nat),
    s.sec.boot ≠ .dead →
    fld s F.HFE_CFG_SPEED_0 ≠ 0 →
    Ends (.linkTrained 0 0 width) s (fun t =>
      fld t F.HFE_CFG_SPEED_0 = 0 ∧
      fld t F.HFE_CFG_WIDTH_0 = 0 ∧
      fld t F.HFE_LINK_CNT_PORT0 = min (fld s F.HFE_LINK_CNT_PORT0 + 1) 65535 ∧
      pendingBit t 131 = true ∧
      ready t F.CKR_READY_LINK 0 = false)) ∧
  -- the host sets CC.EN
  (∀ (s : State) (p : Nat),
    isSas s = false →
    p < hostPorts s →
    Ends (.ccEnSet p true) s (fun t =>
      tget (dflt false) t.hfe.ccEn p = true ∧
      tget (dflt false) t.hfe.rdy p = (ready s F.CKR_READY_HOST && !s.hfe.cfs))) ∧
  -- the host clears CC.EN
  (∀ (s : State) (p : Nat),
    isSas s = false →
    p < hostPorts s →
    tget (dflt false) s.hfe.ccEn p = true →
    powerLost s = false →
    Ends (.ccEnSet p false) s (fun t =>
      tget (dflt false) t.hfe.ccEn p = false ∧
      bit (rd t .HFE_RESET_STAT 0) p = true)) ∧
  -- an address not served
  (∀ (s : State) (addr : Nat) (pecOk last : Bool) (m : SideMsg),
    addr ≠ fld s F.MGT_ADDR_BASIC →
    addr ≠ fld s F.MGT_ADDR_MCTP →
    Ends (.smbusTransaction addr pecOk last m) s (fun t =>
      t = sideAnswer s .nak)) ∧
  -- a packet with a bad PEC
  (∀ (s : State) (last : Bool) (m : SideMsg),
    ready s F.CKR_READY_SIDEBAND = true →
    flag s F.MGT_CTL_EN = true →
    fld s F.MGT_ADDR_MCTP ≠ fld s F.MGT_ADDR_BASIC →
    Ends (.smbusTransaction (fld s F.MGT_ADDR_MCTP) false last m) s (fun t =>
      fld t F.MGT_CNT_PACKETS = min (fld s F.MGT_CNT_PACKETS + 1) 65535 ∧
      fld t F.MGT_CNT_PEC = min (fld s F.MGT_CNT_PEC + 1) 65535 ∧
      t.mgt = s.mgt)) ∧
  -- the Basic Management Command
  (∀ (s : State) (pecOk last : Bool) (m : SideMsg),
    ready s F.CKR_READY_SIDEBAND = true →
    flag s F.MGT_CTL_EN = true →
    Ends (.smbusTransaction (fld s F.MGT_ADDR_BASIC) pecOk last m) s (fun t =>
      t.mgt.out = s.mgt.out ++ [.basic ((800 + fld s F.MGT_TEMP_CTRL) / 4) (!safeState s && decide (s.sec.boot ≠ .dead))] ∧
      pendingBit t 97 = true)) ∧
  -- a sample of the temperatures
  (∀ (s : State) (ctrl pwr : Nat),
    Ends (.tempSample ctrl pwr) s (fun t =>
      fld t F.MGT_TEMP_CTRL = min ctrl 1023 ∧
      fld t F.MGT_TEMP_PWR = min pwr 1023 ∧
      flag t F.MGT_TEMP_CRIT = decide (4 * fld s F.MGT_TEMP_THR_CRIT ≤ 800 + min ctrl 1023) ∧
      flag t F.MGT_TEMP_WARN = decide (4 * fld s F.MGT_TEMP_THR_WARN ≤ 800 + min ctrl 1023))) ∧
  -- a block reset of MGT
  (∀ (s : State),
    Ends (.mgtBlockReset) s (fun t =>
      t.mgt.sessions = [] ∧
      t.mgt.parts = 0 ∧
      t.mgt.updating = false ∧
      flag t F.CKR_BRST_MGT = false))

/-- O31. DRAM readiness and the scrubber. DRAM that trains comes up empty and ready, a failed training is reported, a scrub visit logs what it finds, and laps are counted and measured. (R408, R410, R414, R417, R418, R419) -/
def Obligations.BufferMemory : Prop :=
  -- training succeeds
  (∀ (s : State) (two : Bool),
    flag s F.BFM_DRAM_STAT_READY = false →
    flag s F.BFM_DRAM_STAT_FAIL = false →
    Ends (.dramReady true two) s (fun t =>
      flag t F.BFM_DRAM_STAT_READY = true ∧
      flag t F.CKR_READY_DRAM = true ∧
      fld t F.BFM_DRAM_STAT_FITTED = s.board.dramGib % 16 ∧
      fld t F.BFM_DRAM_STAT_IN_USE = min s.board.dramGib s.part.dramGib % 16 ∧
      fld t F.BFM_DRAM_STAT_TRUNCATED = (if s.part.dramGib < s.board.dramGib then 1 else 0) ∧
      t.bfm.poison = [] ∧
      (∀ a, dramBase ≤ a → a < dramBase + 2 ^ 36 → readByte t a = 0))) ∧
  -- training fails
  (∀ (s : State) (two : Bool),
    flag s F.BFM_DRAM_STAT_READY = false →
    flag s F.BFM_DRAM_STAT_FAIL = false →
    Ends (.dramReady false two) s (fun t =>
      flag t F.BFM_DRAM_STAT_READY = false ∧
      flag t F.BFM_DRAM_STAT_FAIL = true ∧
      flag t F.CKR_READY_DRAM = flag s F.CKR_READY_DRAM ∧
      t.mem = s.mem)) ∧
  -- the scrubber finds an uncorrectable error in a DRAM word: logged for requester 31, and left in place
  (∀ (s : State) (b addr : Nat),
    flag s F.BFM_SCRUB_CTL_EN = true →
    flag s F.BFM_UE_LOG_VALID = false →
    addr < 2 ^ 40 →
    Ends (.scrubVisit 0 b addr 2) s (fun t =>
      badWord t addr = true ∧
      flag t F.BFM_UE_LOG_VALID = true ∧
      fld t F.BFM_UE_LOG_ADDR = addr ∧
      fld t F.BFM_UE_LOG_REQ = 31 ∧
      fld t F.BFM_UE_LOG_DRAM = 1 ∧
      fld t F.BFM_UE_LOG_POISON = 0 ∧
      fld t F.BFM_UE_LOG_TAG = 0 ∧
      t.mem = s.mem)) ∧
  -- the scrubber finds a corrected DRAM error
  (∀ (s : State) (b addr : Nat),
    flag s F.BFM_SCRUB_CTL_EN = true →
    addr < 2 ^ 40 →
    Ends (.scrubVisit 0 b addr 1) s (fun t =>
      fld t F.BFM_CE_CNT_DRAM = min (fld s F.BFM_CE_CNT_DRAM + 1) (2 ^ 32 - 1) ∧
      t.bfm.lapCe = s.bfm.lapCe + 1 ∧
      fld t F.BFM_CE_LOG_ADDR = addr ∧
      fld t F.BFM_CE_LOG_REQ = 31 ∧
      flag t F.BFM_CE_LOG_VALID = true ∧
      t.mem = s.mem)) ∧
  -- the stopped scrubber visits nothing
  (∀ (s : State) (a b c d : Nat),
    flag s F.BFM_SCRUB_CTL_EN = false →
    Ends (.scrubVisit a b c d) s (fun t =>
      t = s)) ∧
  -- a lap ends
  (∀ (s : State),
    flag s F.BFM_SCRUB_CTL_EN = true →
    Ends (.scrubLapComplete) s (fun t =>
      fld t F.BFM_SCRUB_LAP_US = min ((s.ckr.up - s.bfm.lapAt) / 25) (2 ^ 32 - 1) ∧
      fld t F.BFM_SCRUB_STAT_LAPS = min (fld s F.BFM_SCRUB_STAT_LAPS + 1) 65535 ∧
      flag t F.BFM_SCRUB_STAT_SLOW = false ∧
      t.bfm.lapCe = 0 ∧
      t.bfm.lapAt = t.ckr.up)) ∧
  -- the lap has run past LAP_WARN
  (∀ (s : State),
    flag s F.BFM_SCRUB_STAT_SLOW = false →
    fld s F.BFM_SCRUB_CTL_LAP_WARN * 100000 < (s.ckr.up - s.bfm.lapAt) / 25 →
    Ends (.scrubSlow) s (fun t =>
      flag t F.BFM_SCRUB_STAT_SLOW = true ∧
      t.bfm = s.bfm))

/-- O32. The system cache, its scratch ways, range operations and eviction buffer. SYC_CTL leaves the cache contents alone; scratch ways are converted or refused; a range operation clears DONE and the counts, acts by Table 11.4, and ends with its STATUS; an eviction is written to DRAM. (R425, R427, R428, R429, R431, R438, R439) -/
def Obligations.SystemCache : Prop :=
  -- SYC_CTL
  (∀ (s : State) (v : Word),
    Ends (.cacheEnableWrite v) s (fun t =>
      fld t F.SYC_CTL_EN = getBits v 0 1 ∧
      fld t F.SYC_CTL_STREAM_EN = getBits v 1 1 ∧
      t.syc = s.syc ∧
      t.mem = s.mem)) ∧
  -- a count above 12 is refused
  (∀ (s : State) (v : Word),
    12 < getBits v 0 4 →
    Ends (.scratchConvert v) s (fun t =>
      flag t F.SYC_SCRATCH_REFUSED = true ∧
      fld t F.SYC_SCRATCH_COUNT = fld s F.SYC_SCRATCH_COUNT ∧
      t.syc = s.syc ∧
      t.mem = s.mem)) ∧
  -- a count that needs a locked way is refused
  (∀ (s : State) (v : Word) (w : Nat),
    fld s F.SYC_SCRATCH_COUNT < getBits v 0 4 →
    getBits v 0 4 ≤ 12 →
    w < 16 →
    16 ≤ w + getBits v 0 4 →
    lockedWay s w = true →
    Ends (.scratchConvert v) s (fun t =>
      flag t F.SYC_SCRATCH_REFUSED = true ∧
      fld t F.SYC_SCRATCH_COUNT = fld s F.SYC_SCRATCH_COUNT ∧
      t.syc = s.syc ∧
      t.mem = s.mem)) ∧
  -- a count raised
  (∀ (s : State) (v : Word),
    fld s F.SYC_SCRATCH_COUNT < getBits v 0 4 →
    getBits v 0 4 ≤ 12 →
    (∀ w ∈ List.range 16, w + getBits v 0 4 < 16 ∨ lockedWay s w = false) →
    tabWf (dflt none) s.syc.lines →
    Ends (.scratchConvert v) s (fun t =>
      fld t F.SYC_SCRATCH_COUNT = getBits v 0 4 ∧
      flag t F.SYC_SCRATCH_BUSY = true ∧
      (∀ set w, w < 16 → 16 ≤ w + getBits v 0 4 → wayLine t set w = none) ∧
      (∀ a, 0xE0000000 + fld s F.SYC_SCRATCH_COUNT * 524288 ≤ a → a < 0xE0000000 + getBits v 0 4 * 524288 → readByte t a = 0))) ∧
  -- a count lowered
  (∀ (s : State) (v : Word),
    getBits v 0 4 ≤ fld s F.SYC_SCRATCH_COUNT →
    getBits v 0 4 ≤ 12 →
    Ends (.scratchConvert v) s (fun t =>
      fld t F.SYC_SCRATCH_COUNT = getBits v 0 4 ∧
      t.syc = s.syc ∧
      (∀ a, 0xE0000000 + getBits v 0 4 * 524288 ≤ a → a < 0xE0000000 + fld s F.SYC_SCRATCH_COUNT * 524288 → readByte t a = 0))) ∧
  -- a conversion ends
  (∀ (s : State),
    flag s F.SYC_SCRATCH_BUSY = true →
    Ends (.scratchDone) s (fun t =>
      flag t F.SYC_SCRATCH_BUSY = false ∧
      t.mem = s.mem)) ∧
  -- CLEAN: each line in the range is clean, and stays
  (∀ (s : State) (v : Word) (set w : Nat) (x : CacheLine),
    bit (goValue v 0) 8 = true →
    flag s F.SYC_RANGE_STAT_BUSY = false →
    tabWf (dflt none) s.syc.lines →
    (bit v 3 = true ∨ (fld s F.SYC_RANGE_BASE_BASE % 64 = 0 ∧ fld s F.SYC_RANGE_LEN_LEN % 64 = 0 ∧ dramBase ≤ fld s F.SYC_RANGE_BASE_BASE ∧ fld s F.SYC_RANGE_BASE_BASE + fld s F.SYC_RANGE_LEN_LEN ≤ dramBase + dramBytes s)) →
    set < 8192 ∧ w < 16 ∧ wayLine s set w = some x ∧ x.line % 8192 = set →
    (bit v 3 || decide (fld s F.SYC_RANGE_BASE_BASE / 64 ≤ x.line ∧ x.line < fld s F.SYC_RANGE_BASE_BASE / 64 + fld s F.SYC_RANGE_LEN_LEN / 64)) = true →
    Ends (.clean v) s (fun t =>
      flag t F.SYC_RANGE_STAT_BUSY = true ∧
      flag t F.SYC_RANGE_STAT_DONE = false ∧
      wayLine t set w = some { x with dirty := false })) ∧
  -- INVALIDATE: an unlocked line is gone, its data discarded
  (∀ (s : State) (v : Word) (set w : Nat) (x : CacheLine),
    bit (goValue v 1) 8 = true →
    flag s F.SYC_RANGE_STAT_BUSY = false →
    tabWf (dflt none) s.syc.lines →
    (bit v 3 = true ∨ (fld s F.SYC_RANGE_BASE_BASE % 64 = 0 ∧ fld s F.SYC_RANGE_LEN_LEN % 64 = 0 ∧ dramBase ≤ fld s F.SYC_RANGE_BASE_BASE ∧ fld s F.SYC_RANGE_BASE_BASE + fld s F.SYC_RANGE_LEN_LEN ≤ dramBase + dramBytes s)) →
    set < 8192 ∧ w < 16 ∧ wayLine s set w = some x ∧ x.line % 8192 = set →
    (bit v 3 || decide (fld s F.SYC_RANGE_BASE_BASE / 64 ≤ x.line ∧ x.line < fld s F.SYC_RANGE_BASE_BASE / 64 + fld s F.SYC_RANGE_LEN_LEN / 64)) = true →
    lockedWay s w = false →
    Ends (.invalidate v) s (fun t =>
      flag t F.SYC_RANGE_STAT_BUSY = true ∧
      flag t F.SYC_RANGE_STAT_DONE = false ∧
      wayLine t set w = none ∧
      t.mem = s.mem)) ∧
  -- INVALIDATE skips a locked line
  (∀ (s : State) (v : Word) (set w : Nat) (x : CacheLine),
    bit (goValue v 1) 8 = true →
    flag s F.SYC_RANGE_STAT_BUSY = false →
    tabWf (dflt none) s.syc.lines →
    (bit v 3 = true ∨ (fld s F.SYC_RANGE_BASE_BASE % 64 = 0 ∧ fld s F.SYC_RANGE_LEN_LEN % 64 = 0 ∧ dramBase ≤ fld s F.SYC_RANGE_BASE_BASE ∧ fld s F.SYC_RANGE_BASE_BASE + fld s F.SYC_RANGE_LEN_LEN ≤ dramBase + dramBytes s)) →
    set < 8192 ∧ w < 16 ∧ wayLine s set w = some x ∧ x.line % 8192 = set →
    (bit v 3 || decide (fld s F.SYC_RANGE_BASE_BASE / 64 ≤ x.line ∧ x.line < fld s F.SYC_RANGE_BASE_BASE / 64 + fld s F.SYC_RANGE_LEN_LEN / 64)) = true →
    lockedWay s w = true →
    Ends (.invalidate v) s (fun t =>
      flag t F.SYC_RANGE_STAT_BUSY = true ∧
      flag t F.SYC_RANGE_STAT_DONE = false ∧
      wayLine t set w = some x ∧
      t.mem = s.mem)) ∧
  -- CLEAN_INV: an unlocked line is gone
  (∀ (s : State) (v : Word) (set w : Nat) (x : CacheLine),
    bit (goValue v 2) 8 = true →
    flag s F.SYC_RANGE_STAT_BUSY = false →
    tabWf (dflt none) s.syc.lines →
    (bit v 3 = true ∨ (fld s F.SYC_RANGE_BASE_BASE % 64 = 0 ∧ fld s F.SYC_RANGE_LEN_LEN % 64 = 0 ∧ dramBase ≤ fld s F.SYC_RANGE_BASE_BASE ∧ fld s F.SYC_RANGE_BASE_BASE + fld s F.SYC_RANGE_LEN_LEN ≤ dramBase + dramBytes s)) →
    set < 8192 ∧ w < 16 ∧ wayLine s set w = some x ∧ x.line % 8192 = set →
    (bit v 3 || decide (fld s F.SYC_RANGE_BASE_BASE / 64 ≤ x.line ∧ x.line < fld s F.SYC_RANGE_BASE_BASE / 64 + fld s F.SYC_RANGE_LEN_LEN / 64)) = true →
    lockedWay s w = false →
    Ends (.cleanInv v) s (fun t =>
      flag t F.SYC_RANGE_STAT_BUSY = true ∧
      flag t F.SYC_RANGE_STAT_DONE = false ∧
      wayLine t set w = none)) ∧
  -- CLEAN_INV skips a locked line
  (∀ (s : State) (v : Word) (set w : Nat) (x : CacheLine),
    bit (goValue v 2) 8 = true →
    flag s F.SYC_RANGE_STAT_BUSY = false →
    tabWf (dflt none) s.syc.lines →
    (bit v 3 = true ∨ (fld s F.SYC_RANGE_BASE_BASE % 64 = 0 ∧ fld s F.SYC_RANGE_LEN_LEN % 64 = 0 ∧ dramBase ≤ fld s F.SYC_RANGE_BASE_BASE ∧ fld s F.SYC_RANGE_BASE_BASE + fld s F.SYC_RANGE_LEN_LEN ≤ dramBase + dramBytes s)) →
    set < 8192 ∧ w < 16 ∧ wayLine s set w = some x ∧ x.line % 8192 = set →
    (bit v 3 || decide (fld s F.SYC_RANGE_BASE_BASE / 64 ≤ x.line ∧ x.line < fld s F.SYC_RANGE_BASE_BASE / 64 + fld s F.SYC_RANGE_LEN_LEN / 64)) = true →
    lockedWay s w = true →
    Ends (.cleanInv v) s (fun t =>
      flag t F.SYC_RANGE_STAT_BUSY = true ∧
      flag t F.SYC_RANGE_STAT_DONE = false ∧
      wayLine t set w = some x)) ∧
  -- CLEAN_INV_LOCKED: each line in the range is gone
  (∀ (s : State) (v : Word) (set w : Nat) (x : CacheLine),
    bit (goValue v 3) 8 = true →
    flag s F.SYC_RANGE_STAT_BUSY = false →
    tabWf (dflt none) s.syc.lines →
    (bit v 3 = true ∨ (fld s F.SYC_RANGE_BASE_BASE % 64 = 0 ∧ fld s F.SYC_RANGE_LEN_LEN % 64 = 0 ∧ dramBase ≤ fld s F.SYC_RANGE_BASE_BASE ∧ fld s F.SYC_RANGE_BASE_BASE + fld s F.SYC_RANGE_LEN_LEN ≤ dramBase + dramBytes s)) →
    set < 8192 ∧ w < 16 ∧ wayLine s set w = some x ∧ x.line % 8192 = set →
    (bit v 3 || decide (fld s F.SYC_RANGE_BASE_BASE / 64 ≤ x.line ∧ x.line < fld s F.SYC_RANGE_BASE_BASE / 64 + fld s F.SYC_RANGE_LEN_LEN / 64)) = true →
    Ends (.cleanInvLocked v) s (fun t =>
      flag t F.SYC_RANGE_STAT_BUSY = true ∧
      flag t F.SYC_RANGE_STAT_DONE = false ∧
      wayLine t set w = none)) ∧
  -- LOAD_WAY of one line that no way holds
  (∀ (s : State) (v : Word),
    flag s F.SYC_RANGE_STAT_BUSY = false →
    bit v 3 = false →
    fld s F.SYC_RANGE_BASE_BASE % 64 = 0 ∧ fld s F.SYC_RANGE_LEN_LEN = 64 ∧ dramBase ≤ fld s F.SYC_RANGE_BASE_BASE ∧ fld s F.SYC_RANGE_BASE_BASE + 64 ≤ dramBase + dramBytes s →
    flag s F.BFM_DRAM_STAT_READY = true →
    scratchWay s (getBits v 4 4) = false →
    s.syc.evb = [] →
    sycFind s (fld s F.SYC_RANGE_BASE_BASE / 64) = none →
    wayLine s (fld s F.SYC_RANGE_BASE_BASE / 64 % 8192) (getBits v 4 4) = none →
    s.bfm.poison = [] →
    s.bfm.bad = [] →
    Ends (.loadWay v) s (fun t =>
      flag t F.SYC_RANGE_STAT_BUSY = true ∧
      (wayLine t (fld s F.SYC_RANGE_BASE_BASE / 64 % 8192) (getBits v 4 4)).map (fun x => (x.line, x.data, x.dirty)) = some (fld s F.SYC_RANGE_BASE_BASE / 64, readBytes s (fld s F.SYC_RANGE_BASE_BASE) 64, false) ∧
      t.mem = s.mem)) ∧
  -- clean while another operation runs
  (∀ (s : State) (v : Word),
    flag s F.SYC_RANGE_STAT_BUSY = true →
    Ends (.clean v) s (fun t =>
      fld t F.SYC_RANGE_STAT_STATUS = 0xB1 ∧
      flag t F.SYC_RANGE_STAT_BUSY = true ∧
      t.syc = s.syc ∧
      t.mem = s.mem)) ∧
  -- invalidate while another operation runs
  (∀ (s : State) (v : Word),
    flag s F.SYC_RANGE_STAT_BUSY = true →
    Ends (.invalidate v) s (fun t =>
      fld t F.SYC_RANGE_STAT_STATUS = 0xB1 ∧
      flag t F.SYC_RANGE_STAT_BUSY = true ∧
      t.syc = s.syc ∧
      t.mem = s.mem)) ∧
  -- cleanInv while another operation runs
  (∀ (s : State) (v : Word),
    flag s F.SYC_RANGE_STAT_BUSY = true →
    Ends (.cleanInv v) s (fun t =>
      fld t F.SYC_RANGE_STAT_STATUS = 0xB1 ∧
      flag t F.SYC_RANGE_STAT_BUSY = true ∧
      t.syc = s.syc ∧
      t.mem = s.mem)) ∧
  -- cleanInvLocked while another operation runs
  (∀ (s : State) (v : Word),
    flag s F.SYC_RANGE_STAT_BUSY = true →
    Ends (.cleanInvLocked v) s (fun t =>
      fld t F.SYC_RANGE_STAT_STATUS = 0xB1 ∧
      flag t F.SYC_RANGE_STAT_BUSY = true ∧
      t.syc = s.syc ∧
      t.mem = s.mem)) ∧
  -- loadWay while another operation runs
  (∀ (s : State) (v : Word),
    flag s F.SYC_RANGE_STAT_BUSY = true →
    Ends (.loadWay v) s (fun t =>
      fld t F.SYC_RANGE_STAT_STATUS = 0xB1 ∧
      flag t F.SYC_RANGE_STAT_BUSY = true ∧
      t.syc = s.syc ∧
      t.mem = s.mem)) ∧
  -- LOAD_WAY of a scratch way
  (∀ (s : State) (v : Word),
    flag s F.SYC_RANGE_STAT_BUSY = false →
    (bit v 3 = true ∨ (fld s F.SYC_RANGE_BASE_BASE % 64 = 0 ∧ fld s F.SYC_RANGE_LEN_LEN % 64 = 0 ∧ dramBase ≤ fld s F.SYC_RANGE_BASE_BASE ∧ fld s F.SYC_RANGE_BASE_BASE + fld s F.SYC_RANGE_LEN_LEN ≤ dramBase + dramBytes s)) →
    scratchWay s (getBits v 4 4) = true →
    Ends (.loadWay v) s (fun t =>
      fld t F.SYC_RANGE_STAT_STATUS = 0xB2 ∧
      flag t F.SYC_RANGE_STAT_DONE = true ∧
      flag t F.SYC_RANGE_STAT_BUSY = false ∧
      t.syc.lines = s.syc.lines)) ∧
  -- CLEAN of a misaligned range
  (∀ (s : State) (v : Word),
    flag s F.SYC_RANGE_STAT_BUSY = false →
    bit v 3 = false →
    fld s F.SYC_RANGE_LEN_LEN % 64 ≠ 0 →
    Ends (.clean v) s (fun t =>
      fld t F.SYC_RANGE_STAT_STATUS = 0xB0 ∧
      flag t F.SYC_RANGE_STAT_DONE = true ∧
      flag t F.SYC_RANGE_STAT_BUSY = false ∧
      t.syc.lines = s.syc.lines ∧
      t.mem = s.mem)) ∧
  -- the engine ends
  (∀ (s : State),
    flag s F.SYC_RANGE_STAT_BUSY = true →
    Ends (.rangeOpDone) s (fun t =>
      flag t F.SYC_RANGE_STAT_BUSY = false ∧
      flag t F.SYC_RANGE_STAT_DONE = true ∧
      fld t F.SYC_RANGE_STAT_STATUS = (if fld s F.SYC_RANGE_STAT_ERRORS = 0 then 0 else 0xB3) ∧
      t.syc.lines = s.syc.lines ∧
      t.mem = s.mem)) ∧
  -- an eviction is written back
  (∀ (s : State) (line : Nat) (x : CacheLine),
    s.syc.evb.find? (fun y => y.line == line) = some x →
    Ends (.evictionWritebackDone line) s (fun t =>
      t.syc.evb = s.syc.evb.filter (fun y => decide (y.line ≠ line)) ∧
      t.syc.lines = s.syc.lines ∧
      poisoned t line = (x.bad != 0) ∧
      (x.data.length = 64 → readBytes t (line * 64) 64 = x.data)))

/-- O33. Bobbin rings and descriptor fetch. TAIL queues descriptors; a channel that is enabled and has an entry fetches it, clears its word 4, and is ACTIVE with it; one that fails a check completes with that status and HEAD advances, or with STOPPED the channel halts; Galley owns channels 0 to 7 of engine 0 while it is enabled. (R441, R442, R443, R445, R465) -/
def Obligations.BobbinRings : Prop :=
  -- TAIL written
  (∀ (s : State) (n : Nat) (v : Word),
    n < 64 →
    glyOwns s n = false →
    Ends (.descriptorQueue n v) s (fun t =>
      t = setFld s F.DMA_CH_TAIL_TAIL n (getBits v 0 12) ∧
      fld t F.DMA_CH_TAIL_TAIL n = getBits v 0 12)) ∧
  -- TAIL of a channel that Galley owns
  (∀ (s : State) (n : Nat) (v : Word),
    glyOwns s n = true →
    Ends (.descriptorQueue n v) s (fun t =>
      t = s)) ∧
  -- a descriptor that passes the checks
  (∀ (s : State) (n : Nat) (l : List Byte),
    n < 64 →
    glyOwns s n = false →
    (chState s n = 0 ∨ chState s n = 1) →
    (chanOf s n).desc = none →
    (chanOf s n).tails = [] →
    flag s F.DMA_CH_CTL_PAUSE n = false →
    fld s F.DMA_CH_HEAD_HEAD n ≠ fld s F.DMA_CH_TAIL_TAIL n →
    (busRead s (chPort n (flag s F.DMA_CH_CFG_RING_COH n)) (fld s F.DMA_CH_RING_BASE n + 64 * fld s F.DMA_CH_HEAD_HEAD n) 64).1 = some l →
    descCheck ((busWriteWord (busRead s (chPort n (flag s F.DMA_CH_CFG_RING_COH n)) (fld s F.DMA_CH_RING_BASE n + 64 * fld s F.DMA_CH_HEAD_HEAD n) 64).2 (chPort n (flag s F.DMA_CH_CFG_RING_COH n)) (fld s F.DMA_CH_RING_BASE n + 64 * fld s F.DMA_CH_HEAD_HEAD n + 32) 0#64).2) (fun j => BitVec.ofNat 64 (leNat ((l.drop (8 * j)).take 8))) = 0 →
    Ends (.descriptorFetch n) s (fun t =>
      chState t n = 1 ∧
      (chanOf t n).desc.map (fun d => (d.src, d.dst, d.count, d.ring)) = some ((BitVec.ofNat 64 (leNat ((l.drop (8 * 0)).take 8))).toNat, (BitVec.ofNat 64 (leNat ((l.drop (8 * 1)).take 8))).toNat, getBits (BitVec.ofNat 64 (leNat ((l.drop (8 * 2)).take 8))) 0 32, fld s F.DMA_CH_HEAD_HEAD n) ∧
      (chanOf t n).desc.map (fun d => (d.srcHost, d.dstHost, d.coh, d.landed, d.irq)) = some (bit (BitVec.ofNat 64 (leNat ((l.drop (8 * 2)).take 8))) 32, bit (BitVec.ofNat 64 (leNat ((l.drop (8 * 2)).take 8))) 33, bit (BitVec.ofNat 64 (leNat ((l.drop (8 * 2)).take 8))) 35, bit (BitVec.ofNat 64 (leNat ((l.drop (8 * 2)).take 8))) 36, bit (BitVec.ofNat 64 (leNat ((l.drop (8 * 2)).take 8))) 37) ∧
      (chanOf t n).nextRead = 0 ∧
      (chanOf t n).nextWrite = 0 ∧
      fld t F.DMA_CH_HEAD_HEAD n = fld s F.DMA_CH_HEAD_HEAD n)) ∧
  -- a descriptor in error or of a stale slot completes, and the channel goes on
  (∀ (s : State) (n : Nat) (l : List Byte),
    n < 64 →
    glyOwns s n = false →
    (chState s n = 0 ∨ chState s n = 1) →
    (chanOf s n).desc = none →
    (chanOf s n).tails = [] →
    flag s F.DMA_CH_CTL_PAUSE n = false →
    fld s F.DMA_CH_HEAD_HEAD n ≠ fld s F.DMA_CH_TAIL_TAIL n →
    (busRead s (chPort n (flag s F.DMA_CH_CFG_RING_COH n)) (fld s F.DMA_CH_RING_BASE n + 64 * fld s F.DMA_CH_HEAD_HEAD n) 64).1 = some l →
    descCheck ((busWriteWord (busRead s (chPort n (flag s F.DMA_CH_CFG_RING_COH n)) (fld s F.DMA_CH_RING_BASE n + 64 * fld s F.DMA_CH_HEAD_HEAD n) 64).2 (chPort n (flag s F.DMA_CH_CFG_RING_COH n)) (fld s F.DMA_CH_RING_BASE n + 64 * fld s F.DMA_CH_HEAD_HEAD n + 32) 0#64).2) (fun j => BitVec.ofNat 64 (leNat ((l.drop (8 * j)).take 8))) ≠ 0 →
    descCheck ((busWriteWord (busRead s (chPort n (flag s F.DMA_CH_CFG_RING_COH n)) (fld s F.DMA_CH_RING_BASE n + 64 * fld s F.DMA_CH_HEAD_HEAD n) 64).2 (chPort n (flag s F.DMA_CH_CFG_RING_COH n)) (fld s F.DMA_CH_RING_BASE n + 64 * fld s F.DMA_CH_HEAD_HEAD n + 32) 0#64).2) (fun j => BitVec.ofNat 64 (leNat ((l.drop (8 * j)).take 8))) ≠ 0xC5 →
    Ends (.descriptorFetch n) s (fun t =>
      (chState t n = if (fld s F.DMA_CH_HEAD_HEAD n + 1) % 2 ^ fld s F.DMA_CH_CFG_LOG2_SIZE n % 2 ^ 12 = fld s F.DMA_CH_TAIL_TAIL n then 0 else 1) ∧
      fld t F.DMA_CH_STATUS_LAST_STATUS n = descCheck ((busWriteWord (busRead s (chPort n (flag s F.DMA_CH_CFG_RING_COH n)) (fld s F.DMA_CH_RING_BASE n + 64 * fld s F.DMA_CH_HEAD_HEAD n) 64).2 (chPort n (flag s F.DMA_CH_CFG_RING_COH n)) (fld s F.DMA_CH_RING_BASE n + 64 * fld s F.DMA_CH_HEAD_HEAD n + 32) 0#64).2) (fun j => BitVec.ofNat 64 (leNat ((l.drop (8 * j)).take 8))) % 256 ∧
      flag t F.DMA_CH_STATUS_ERR n = true ∧
      fld t F.DMA_CH_HEAD_HEAD n = (fld s F.DMA_CH_HEAD_HEAD n + 1) % 2 ^ fld s F.DMA_CH_CFG_LOG2_SIZE n % 2 ^ 12 ∧
      (chanOf t n).reads = [] ∧
      fld t F.DMA_CH_CNT_FAIL n = min (fld s F.DMA_CH_CNT_FAIL n + 1) 65535)) ∧
  -- a descriptor fetched in the safe state, or of host space after the power-loss broadcast, halts the channel STOPPED
  (∀ (s : State) (n : Nat) (l : List Byte),
    n < 64 →
    glyOwns s n = false →
    (chState s n = 0 ∨ chState s n = 1) →
    (chanOf s n).desc = none →
    (chanOf s n).tails = [] →
    flag s F.DMA_CH_CTL_PAUSE n = false →
    fld s F.DMA_CH_HEAD_HEAD n ≠ fld s F.DMA_CH_TAIL_TAIL n →
    (busRead s (chPort n (flag s F.DMA_CH_CFG_RING_COH n)) (fld s F.DMA_CH_RING_BASE n + 64 * fld s F.DMA_CH_HEAD_HEAD n) 64).1 = some l →
    descCheck ((busWriteWord (busRead s (chPort n (flag s F.DMA_CH_CFG_RING_COH n)) (fld s F.DMA_CH_RING_BASE n + 64 * fld s F.DMA_CH_HEAD_HEAD n) 64).2 (chPort n (flag s F.DMA_CH_CFG_RING_COH n)) (fld s F.DMA_CH_RING_BASE n + 64 * fld s F.DMA_CH_HEAD_HEAD n + 32) 0#64).2) (fun j => BitVec.ofNat 64 (leNat ((l.drop (8 * j)).take 8))) = 0xC5 →
    Ends (.descriptorFetch n) s (fun t =>
      chState t n = 4 ∧
      fld t F.DMA_CH_STATUS_LAST_STATUS n = 0xC5 ∧
      flag t F.DMA_CH_STATUS_ERR n = true ∧
      fld t F.DMA_CH_HEAD_HEAD n = fld s F.DMA_CH_HEAD_HEAD n ∧
      (chanOf t n).reads = [] ∧
      fld t F.DMA_CH_CNT_FAIL n = min (fld s F.DMA_CH_CNT_FAIL n + 1) 65535)) ∧
  -- the checks of Table 12.2 that need no slot, in their order
  (∀ (s : State) (w : Nat → Word), (getBits (w 2) 0 32 = 0 → descCheck s w = 0xC2) ∧ (getBits (w 2) 39 25 ≠ 0 → descCheck s w = 0xC2) ∧ (bit (w 2) 32 = false → getBits (w 0) 40 24 ≠ 0 → descCheck s w = 0xC2) ∧ (bit (w 2) 33 = false → getBits (w 1) 40 24 ≠ 0 → descCheck s w = 0xC2) ∧ (descCheck s w = 0 → safeState s = false))

/-- O34. Bobbin beats and completion. A granted beat is read once in ascending order or written in ascending order; the oldest response is taken first; DONE advances HEAD; an error before DONE halts the channel at the failing beat once the beats held below it are written, and one after DONE is a late error. (R444, R446, R447, R449, R451, R452) -/
def Obligations.BobbinBeats : Prop :=
  -- a read beat of device space
  (∀ (s : State) (e cls j : Nat) (d : DmaDesc),
    e < 4 →
    cls < 4 →
    (∀ c ∈ List.range 4, c ≤ cls ∨ classGrant s e c = none) →
    classGrant s e cls = some (j, false) →
    (chanOf s (16 * e + j)).desc = some d →
    d.srcHost = false →
    inControl (d.src + (beatRange d (chanOf s (16 * e + j)).nextRead).1) = false →
    Ends (.beatGrant e) s (fun t =>
      (chanOf t (16 * e + j)).nextRead = (chanOf s (16 * e + j)).nextRead + 1 ∧
      (chanOf t (16 * e + j)).reads = (chanOf s (16 * e + j)).reads ++ [((chanOf s (16 * e + j)).nextRead, (busRead ({ s with dmaPtr := tset (dflt 0) s.dmaPtr (4 * e + cls) (grantNext 16 j) }) (chPort (16 * e + j) d.coh) (d.src + (beatRange d (chanOf s (16 * e + j)).nextRead).1) (beatRange d (chanOf s (16 * e + j)).nextRead).2).1)] ∧
      (chanOf t (16 * e + j)).buf = (chanOf s (16 * e + j)).buf)) ∧
  -- a read beat of host space is answered later
  (∀ (s : State) (e cls j : Nat) (d : DmaDesc),
    e < 4 →
    cls < 4 →
    (∀ c ∈ List.range 4, c ≤ cls ∨ classGrant s e c = none) →
    classGrant s e cls = some (j, false) →
    (chanOf s (16 * e + j)).desc = some d →
    d.srcHost = true →
    Ends (.beatGrant e) s (fun t =>
      chanOf t (16 * e + j) = { chanOf s (16 * e + j) with nextRead := (chanOf s (16 * e + j)).nextRead + 1, reads := (chanOf s (16 * e + j)).reads ++ [((chanOf s (16 * e + j)).nextRead, none)] } ∧
      t.dmaPtr = tset (dflt 0) s.dmaPtr (4 * e + cls) (grantNext 16 j) ∧
      t.regs = s.regs ∧
      t.mem = s.mem ∧
      t.hfe = s.hfe)) ∧
  -- a write beat of device space
  (∀ (s : State) (e cls j b : Nat) (x : List Byte) (d : DmaDesc) (rest : List (Nat × List Byte)),
    e < 4 →
    cls < 4 →
    (∀ c ∈ List.range 4, c ≤ cls ∨ classGrant s e c = none) →
    classGrant s e cls = some (j, true) →
    (chanOf s (16 * e + j)).desc = some d →
    (chanOf s (16 * e + j)).buf = (b, x) :: rest →
    d.dstHost = false →
    inControl (d.dst + (beatRange d b).1) = false →
    Ends (.beatGrant e) s (fun t =>
      (chanOf t (16 * e + j)).nextWrite = b + 1 ∧
      (chanOf t (16 * e + j)).buf = rest ∧
      (chanOf t (16 * e + j)).writes = (chanOf s (16 * e + j)).writes ++ [(b, d.dst + (beatRange d b).1, (busWrite ({ s with dmaPtr := tset (dflt 0) s.dmaPtr (4 * e + cls) (grantNext 16 j) }) (chPort (16 * e + j) d.coh) (d.dst + (beatRange d b).1) x).1)])) ∧
  -- a write beat of host space goes out
  (∀ (s : State) (e cls j b : Nat) (x : List Byte) (d : DmaDesc) (rest : List (Nat × List Byte)),
    e < 4 →
    cls < 4 →
    (∀ c ∈ List.range 4, c ≤ cls ∨ classGrant s e c = none) →
    classGrant s e cls = some (j, true) →
    (chanOf s (16 * e + j)).desc = some d →
    (chanOf s (16 * e + j)).buf = (b, x) :: rest →
    d.dstHost = true →
    Ends (.beatGrant e) s (fun t =>
      t.hfe.out = s.hfe.out ++ [.beat d.fn (d.dst + (beatRange d b).1) x] ∧
      (chanOf t (16 * e + j)).nextWrite = b + 1 ∧
      (chanOf t (16 * e + j)).buf = rest)) ∧
  -- a device-space read answers
  (∀ (s : State) (n k : Nat) (x data : List Byte) (rest : List (Nat × Option (List Byte))) (d : DmaDesc),
    (chanOf s n).desc = some d →
    (chanOf s n).fail = none →
    (chanOf s n).stop = none →
    (chanOf s n).reads = (k, some x) :: rest →
    d.srcHost = false →
    Ends (.readResponse n 0 data) s (fun t =>
      chanOf t n = { chanOf s n with reads := rest, buf := (chanOf s n).buf ++ [(k, x)] })) ∧
  -- a host read answers with data
  (∀ (s : State) (n k : Nat) (data : List Byte) (rest : List (Nat × Option (List Byte))) (d : DmaDesc),
    (chanOf s n).desc = some d →
    (chanOf s n).fail = none →
    (chanOf s n).stop = none →
    (chanOf s n).reads = (k, none) :: rest →
    d.srcHost = true →
    Ends (.readResponse n 0 data) s (fun t =>
      chanOf t n = { chanOf s n with reads := rest, buf := (chanOf s n).buf ++ [(k, data.take (beatRange d k).2)] })) ∧
  -- the last outstanding response is a read error: the channel halts at that beat
  (∀ (s : State) (n k : Nat) (data : List Byte) (d : DmaDesc),
    (chanOf s n).desc = some d →
    (chanOf s n).fail = none →
    (chanOf s n).stop = none →
    (chanOf s n).reads = [(k, none)] →
    (chanOf s n).writes = [] →
    (chanOf s n).buf.filter (fun x => decide (x.1 < k)) = [] →
    d.srcHost = false →
    chState s n = 1 →
    k < beats d →
    beats d ≤ 2 ^ 27 →
    Ends (.readResponse n 0 data) s (fun t =>
      chState t n = 4 ∧
      fld t F.DMA_CH_STATUS_LAST_STATUS n = 0xC0 ∧
      fld t F.DMA_CH_STATUS_ERR_BEAT n = k ∧
      flag t F.DMA_CH_STATUS_ERR n = true ∧
      rd t .DMA_CH_SRC n = BitVec.ofNat 64 (d.src + (beatRange d k).1) ∧
      rd t .DMA_CH_DST n = BitVec.ofNat 64 (d.dst + (beatRange d k).1) ∧
      fld t F.DMA_CH_COUNT_BYTES n = (d.count - (beatRange d k).1) % 2 ^ 32 ∧
      fld t F.DMA_CH_HEAD_HEAD n = fld s F.DMA_CH_HEAD_HEAD n)) ∧
  -- a read error while beats below it are held: they are still written, those above it are discarded
  (∀ (s : State) (n k : Nat) (data : List Byte) (rest : List (Nat × Option (List Byte))) (d : DmaDesc),
    (chanOf s n).desc = some d →
    (chanOf s n).fail = none →
    (chanOf s n).stop = none →
    (chanOf s n).reads = (k, none) :: rest →
    d.srcHost = false →
    (chanOf s n).buf.filter (fun x => decide (x.1 < k)) ≠ [] →
    Ends (.readResponse n 0 data) s (fun t =>
      chanOf t n = { chanOf s n with reads := rest, fail := some (k, 0xC0), buf := (chanOf s n).buf.filter (fun x => decide (x.1 < k)) } ∧
      chState t n = chState s n ∧
      canRead t n = false)) ∧
  -- a device-space write answers well
  (∀ (s : State) (n k : Nat) (a : Nat) (rest : List (Nat × (Nat × Bool))) (d : DmaDesc),
    (chanOf s n).desc = some d →
    (chanOf s n).fail = none →
    (chanOf s n).stop = none →
    (chanOf s n).tails = [] →
    (chanOf s n).writes = (k, (a, true)) :: rest →
    d.dstHost = false →
    Ends (.writeResponse n 0) s (fun t =>
      chanOf t n = { chanOf s n with writes := rest })) ∧
  -- the last outstanding response is a write error
  (∀ (s : State) (n k : Nat) (a : Nat) (d : DmaDesc),
    (chanOf s n).desc = some d →
    (chanOf s n).fail = none →
    (chanOf s n).stop = none →
    (chanOf s n).tails = [] →
    (chanOf s n).reads = [] →
    (chanOf s n).writes = [(k, (a, false))] →
    d.dstHost = false →
    (chanOf s n).buf.filter (fun x => decide (x.1 < k)) = [] →
    chState s n = 1 →
    k < beats d →
    beats d ≤ 2 ^ 27 →
    Ends (.writeResponse n 0) s (fun t =>
      chState t n = 4 ∧
      fld t F.DMA_CH_STATUS_LAST_STATUS n = 0xC1 ∧
      fld t F.DMA_CH_STATUS_ERR_BEAT n = k ∧
      rd t .DMA_CH_DST n = BitVec.ofNat 64 (d.dst + (beatRange d k).1))) ∧
  -- a write error after DONE is a late error
  (∀ (s : State) (n a res : Nat) (ok : Bool) (x : DmaTail) (rest : List (Nat × Bool)) (more : List DmaTail),
    (chanOf s n).tails = x :: more →
    x.writes = (a, ok) :: rest →
    (ok = false ∨ res ≠ 0) →
    flag s F.DMA_CH_STATUS_LATE_ERR n = false →
    x.ring < 4096 →
    Ends (.writeResponse n res) s (fun t =>
      flag t F.DMA_CH_STATUS_LATE_ERR n = true ∧
      fld t F.DMA_CH_LATE_ADDR n = a % 2 ^ 40 ∧
      fld t F.DMA_CH_LATE_IDX n = x.ring ∧
      fld t F.DMA_CH_CNT_LATE n = min (fld s F.DMA_CH_CNT_LATE n + 1) 65535)) ∧
  -- a second late error leaves DMA_CH_LATE
  (∀ (s : State) (n a res : Nat) (ok : Bool) (x : DmaTail) (rest : List (Nat × Bool)) (more : List DmaTail),
    (chanOf s n).tails = x :: more →
    x.writes = (a, ok) :: rest →
    (ok = false ∨ res ≠ 0) →
    flag s F.DMA_CH_STATUS_LATE_ERR n = true →
    Ends (.writeResponse n res) s (fun t =>
      flag t F.DMA_CH_STATUS_LATE_OVF n = true ∧
      rd t .DMA_CH_LATE n = rd s .DMA_CH_LATE n)) ∧
  -- DONE: all writes have left, and under LANDED are answered
  (∀ (s : State) (n : Nat) (d : DmaDesc),
    (chanOf s n).desc = some d →
    (chanOf s n).fail = none →
    (chanOf s n).stop = none →
    chState s n = 1 →
    beats d ≤ (chanOf s n).nextWrite →
    (d.landed = false ∨ ((chanOf s n).writes = [] ∧ (chanOf s n).tails = [])) →
    Ends (.descriptorDone n) s (fun t =>
      (chanOf t n).desc = none ∧
      fld t F.DMA_CH_HEAD_HEAD n = (fld s F.DMA_CH_HEAD_HEAD n + 1) % 2 ^ fld s F.DMA_CH_CFG_LOG2_SIZE n % 2 ^ 12 ∧
      fld t F.DMA_CH_STATUS_LAST_STATUS n = 0 ∧
      fld t F.DMA_CH_CNT_DONE n = min (fld s F.DMA_CH_CNT_DONE n + 1) (2 ^ 32 - 1) ∧
      (chState t n = if flag s F.DMA_CH_CTL_PAUSE n then 3 else if (fld s F.DMA_CH_HEAD_HEAD n + 1) % 2 ^ fld s F.DMA_CH_CFG_LOG2_SIZE n % 2 ^ 12 = fld s F.DMA_CH_TAIL_TAIL n then 0 else 1) ∧
      ((chanOf t n).tails = if (chanOf s n).writes = [] then (chanOf s n).tails else (chanOf s n).tails ++ [{ ring := d.ring, slot := d.slot, writes := (chanOf s n).writes.map (fun w => (w.2.1, w.2.2)) }]))) ∧
  -- LANDED holds DONE while a response is outstanding
  (∀ (s : State) (n : Nat) (d : DmaDesc),
    (chanOf s n).desc = some d →
    d.landed = true →
    (chanOf s n).writes ≠ [] →
    Ends (.descriptorDone n) s (fun t =>
      t = s))

/-- O35. Bobbin channel control. EN, PAUSE, CLEAR and RETRY move a channel by Table 12.4, and a block reset of an engine ends its running descriptors RESET. (R453, R454, R455, R465) -/
def Obligations.BobbinControl : Prop :=
  -- EN set from OFF
  (∀ (s : State) (n : Nat) (v : Word),
    n < 64 →
    glyOwns s n = false →
    chState s n = 5 →
    flag s F.DMA_CH_CTL_PAUSE n = false →
    Ends (.channelEnable n v) s (fun t =>
      chState t n = 0 ∧
      flag t F.DMA_CH_CFG_EN n = true ∧
      fld t F.DMA_CH_CFG_PRIO n = getBits v 1 2 ∧
      fld t F.DMA_CH_CFG_RING_COH n = getBits v 3 1 ∧
      fld t F.DMA_CH_CFG_LOG2_SIZE n = max 1 (min 12 (getBits v 4 4)))) ∧
  -- EN cleared in IDLE or HALTED
  (∀ (s : State) (n : Nat) (v : Word),
    n < 64 →
    glyOwns s n = false →
    (chState s n = 0 ∨ chState s n = 4) →
    Ends (.channelDisable n v) s (fun t =>
      chState t n = 5 ∧
      flag t F.DMA_CH_CFG_EN n = false ∧
      (chanOf t n).desc = none ∧
      fld t F.DMA_CH_CFG_PRIO n = getBits v 1 2 ∧
      fld t F.DMA_CH_CFG_RING_COH n = getBits v 3 1 ∧
      fld t F.DMA_CH_CFG_LOG2_SIZE n = max 1 (min 12 (getBits v 4 4)))) ∧
  -- EN cleared while ACTIVE or PAUSING is ignored
  (∀ (s : State) (n : Nat) (v : Word),
    n < 64 →
    glyOwns s n = false →
    (chState s n = 1 ∨ chState s n = 2) →
    Ends (.channelDisable n v) s (fun t =>
      chState t n = chState s n ∧
      flag t F.DMA_CH_CFG_EN n = flag s F.DMA_CH_CFG_EN n ∧
      t.chans = s.chans)) ∧
  -- PAUSE set in IDLE
  (∀ (s : State) (n : Nat) (v : Word),
    n < 64 →
    glyOwns s n = false →
    bit v 1 = false →
    bit v 2 = false →
    bit v 0 = true →
    chState s n = 0 →
    Ends (.pause n v) s (fun t =>
      chState t n = 3 ∧
      flag t F.DMA_CH_CTL_PAUSE n = true)) ∧
  -- PAUSE set while a descriptor has responses outstanding
  (∀ (s : State) (n : Nat) (v : Word),
    n < 64 →
    glyOwns s n = false →
    bit v 1 = false →
    bit v 2 = false →
    bit v 0 = true →
    chState s n = 1 →
    (chanOf s n).desc.isSome = true →
    ((chanOf s n).reads ≠ [] ∨ (chanOf s n).writes ≠ []) →
    Ends (.pause n v) s (fun t =>
      chState t n = 2 ∧
      flag t F.DMA_CH_CTL_PAUSE n = true ∧
      t.chans = s.chans)) ∧
  -- PAUSE set with the buffer drained and every response in
  (∀ (s : State) (n : Nat) (v : Word) (d : DmaDesc),
    n < 64 →
    glyOwns s n = false →
    bit v 1 = false →
    bit v 2 = false →
    bit v 0 = true →
    chState s n = 1 →
    (chanOf s n).desc = some d →
    (chanOf s n).fail = none →
    (chanOf s n).stop = none →
    (chanOf s n).reads = [] →
    (chanOf s n).writes = [] →
    (chanOf s n).buf = [] →
    (chanOf s n).tails = [] →
    (chanOf s n).nextWrite < beats d →
    Ends (.pause n v) s (fun t =>
      chState t n = 3 ∧
      rd t .DMA_CH_SRC n = BitVec.ofNat 64 (d.src + (beatRange d (chanOf s n).nextWrite).1) ∧
      rd t .DMA_CH_DST n = BitVec.ofNat 64 (d.dst + (beatRange d (chanOf s n).nextWrite).1) ∧
      fld t F.DMA_CH_COUNT_BYTES n = (d.count - (beatRange d (chanOf s n).nextWrite).1) % 2 ^ 32)) ∧
  -- PAUSE cleared in PAUSED
  (∀ (s : State) (n : Nat) (v : Word),
    n < 64 →
    glyOwns s n = false →
    bit v 1 = false →
    bit v 2 = false →
    bit v 0 = false →
    chState s n = 3 →
    (chanOf s n).fail = none ∧ (chanOf s n).stop = none →
    Ends (.pause n v) s (fun t =>
      (chState t n = if (chanOf s n).desc.isSome then 1 else 0) ∧
      flag t F.DMA_CH_CTL_PAUSE n = false)) ∧
  -- CLEAR of a halted channel
  (∀ (s : State) (n : Nat) (v : Word),
    n < 64 →
    glyOwns s n = false →
    chState s n = 4 →
    flag s F.DMA_CH_CTL_PAUSE n = false →
    bit v 0 = false →
    bit v 2 = false →
    Ends (.channelClear n v) s (fun t =>
      chState t n = 0 ∧
      fld t F.DMA_CH_HEAD_HEAD n = (fld s F.DMA_CH_HEAD_HEAD n + 1) % 2 ^ fld s F.DMA_CH_CFG_LOG2_SIZE n % 2 ^ 12 ∧
      (chanOf t n).desc = none)) ∧
  -- RETRY of a halted channel
  (∀ (s : State) (n : Nat) (v : Word) (d : DmaDesc),
    n < 64 →
    glyOwns s n = false →
    chState s n = 4 →
    flag s F.DMA_CH_CTL_PAUSE n = false →
    bit v 0 = false →
    bit v 1 = false →
    (chanOf s n).desc = some d →
    d.slot = none →
    (chanOf s n).unfetched = false →
    d.count ≠ 0 →
    safeState s = false →
    powerLost s = false →
    (chanOf s n).fail = none →
    Ends (.channelRetry n v) s (fun t =>
      chState t n = 1 ∧
      chanOf t n = { chanOf s n with stop := none })) ∧
  -- a block reset ends a running descriptor with no response outstanding
  (∀ (s : State) (e j : Nat) (d : DmaDesc),
    e < 4 →
    j < 16 →
    chState s (16 * e + j) = 1 →
    (chanOf s (16 * e + j)).desc = some d →
    (chanOf s (16 * e + j)).reads = [] →
    (chanOf s (16 * e + j)).writes = [] →
    (chanOf s (16 * e + j)).fail = none →
    (chanOf s (16 * e + j)).stop = none →
    Ends (.dmaBlockReset e) s (fun t =>
      chState t (16 * e + j) = 4 ∧
      fld t F.DMA_CH_STATUS_LAST_STATUS (16 * e + j) = 0xC4 ∧
      fld t F.DMA_CH_TAIL_TAIL (16 * e + j) = fld s F.DMA_CH_TAIL_TAIL (16 * e + j) ∧
      rd t .DMA_CH_CFG (16 * e + j) = rd s .DMA_CH_CFG (16 * e + j) ∧
      rd t .DMA_CH_RING (16 * e + j) = rd s .DMA_CH_RING (16 * e + j) ∧
      Nat.testBit (fld t F.CKR_BRST_DMA) e = false)) ∧
  -- a block reset lets outstanding responses come in
  (∀ (s : State) (e j : Nat) (d : DmaDesc),
    e < 4 →
    j < 16 →
    chState s (16 * e + j) = 1 →
    (chanOf s (16 * e + j)).desc = some d →
    ((chanOf s (16 * e + j)).reads ≠ [] ∨ (chanOf s (16 * e + j)).writes ≠ []) →
    (chanOf s (16 * e + j)).stop = none →
    Ends (.dmaBlockReset e) s (fun t =>
      chState t (16 * e + j) = 1 ∧
      chanOf t (16 * e + j) = { chanOf s (16 * e + j) with stop := some 0xC4, buf := [] }))

/-- O36. Firmware Spools. Cores push and pop on the sides configured for them; a full Spool drops a push and sets OVERFLOW, an empty one repeats the last word with UNDERRUN; DROP_PKT discards to the next LAST; a closing word ends the packet of a lost producer; a flush empties the Spool. (R457, R458, R461, R462, R463, R464) -/
def Obligations.FirmwareSpools : Prop :=
  -- splFwPush with space
  (∀ (s : State) (c k : Nat) (w : Word),
    c < s.part.cores →
    k < 32 →
    coreProducer s k = true →
    spoolFull s k c = false →
    (spoolOf s k).dropping = false →
    Ends (.splFwPush c k w) s (fun t =>
      (spoolOf t k).words = (spoolOf s k).words ++ [(w, (false, false))] ∧
      (spoolOf t k).owner = some c ∧
      flag t F.SPL_FW_STAT_OVERFLOW k = flag s F.SPL_FW_STAT_OVERFLOW k)) ∧
  -- splFwPush to a full Spool, or on a side that is the Shuttles'
  (∀ (s : State) (c k : Nat) (w : Word),
    c < s.part.cores →
    k < 32 →
    (coreProducer s k = false ∨ spoolFull s k c = true) →
    Ends (.splFwPush c k w) s (fun t =>
      flag t F.SPL_FW_STAT_OVERFLOW k = true ∧
      t.spools = s.spools)) ∧
  -- splFwPushLast with space
  (∀ (s : State) (c k : Nat) (w : Word),
    c < s.part.cores →
    k < 32 →
    coreProducer s k = true →
    spoolFull s k c = false →
    (spoolOf s k).dropping = false →
    Ends (.splFwPushLast c k w) s (fun t =>
      (spoolOf t k).words = (spoolOf s k).words ++ [(w, (true, false))] ∧
      (spoolOf t k).owner = none ∧
      flag t F.SPL_FW_STAT_OVERFLOW k = flag s F.SPL_FW_STAT_OVERFLOW k)) ∧
  -- splFwPushLast to a full Spool, or on a side that is the Shuttles'
  (∀ (s : State) (c k : Nat) (w : Word),
    c < s.part.cores →
    k < 32 →
    (coreProducer s k = false ∨ spoolFull s k c = true) →
    Ends (.splFwPushLast c k w) s (fun t =>
      flag t F.SPL_FW_STAT_OVERFLOW k = true ∧
      t.spools = s.spools)) ∧
  -- a pop of a word
  (∀ (s : State) (c k : Nat) (w : Word) (last poison : Bool) (rest : List (Word × (Bool × Bool))),
    c < s.part.cores →
    k < 32 →
    coreConsumer s k = true →
    (spoolOf s k).words = (w, (last, poison)) :: rest →
    Ends (.splFwPop c k false) s (fun t =>
      t.bus.value = w ∧
      t.bus.err = false ∧
      (spoolOf t k).words = rest ∧
      (spoolOf t k).last = w ∧
      flag t F.SPL_POPSTAT_LAST c = last ∧
      flag t F.SPL_POPSTAT_POISON c = poison ∧
      flag t F.SPL_POPSTAT_UNDERRUN c = false)) ∧
  -- a pop of an empty Spool
  (∀ (s : State) (c k : Nat) (bad : Bool),
    c < s.part.cores →
    k < 32 →
    coreConsumer s k = true →
    (spoolOf s k).words = [] →
    Ends (.splFwPop c k bad) s (fun t =>
      t.bus.value = (spoolOf s k).last ∧
      flag t F.SPL_POPSTAT_LAST c = false ∧
      flag t F.SPL_POPSTAT_POISON c = false ∧
      flag t F.SPL_POPSTAT_UNDERRUN c = true ∧
      flag t F.SPL_FW_STAT_UNDERRUN k = true ∧
      t.spools = s.spools)) ∧
  -- a pop on a side that is the Shuttles'
  (∀ (s : State) (c k : Nat) (bad : Bool),
    c < s.part.cores →
    k < 32 →
    coreConsumer s k = false →
    Ends (.splFwPop c k bad) s (fun t =>
      t.bus.value = 0#64 ∧
      flag t F.SPL_POPSTAT_UNDERRUN c = true ∧
      t.spools = s.spools)) ∧
  -- a word whose parity fails is delivered poisoned
  (∀ (s : State) (c k : Nat) (w : Word) (last poison : Bool) (rest : List (Word × (Bool × Bool))),
    c < s.part.cores →
    k < 32 →
    coreConsumer s k = true →
    (spoolOf s k).words = (w, (last, poison)) :: rest →
    Ends (.splFwPop c k true) s (fun t =>
      t.bus.value = w ∧
      flag t F.SPL_POPSTAT_LAST c = last ∧
      flag t F.SPL_POPSTAT_POISON c = true ∧
      fld t F.SPL_PAR_CNT_FW = min (fld s F.SPL_PAR_CNT_FW + 1) (2 ^ 32 - 1))) ∧
  -- DROP_PKT with the next LAST held
  (∀ (s : State) (c k : Nat) (v : Word) (rest : List (Word × (Bool × Bool))),
    c < s.part.cores →
    k < 32 →
    bit v 0 = true →
    coreConsumer s k = true →
    (spoolOf s k).atEnd = false →
    (spoolOf s k).dropping = false →
    afterLast (spoolOf s k).words = some rest →
    Ends (.dropPkt c k v) s (fun t =>
      spoolOf t k = { spoolOf s k with words := rest, atEnd := true })) ∧
  -- DROP_PKT with the next LAST still to come
  (∀ (s : State) (c k : Nat) (v : Word),
    c < s.part.cores →
    k < 32 →
    bit v 0 = true →
    coreConsumer s k = true →
    (spoolOf s k).atEnd = false →
    (spoolOf s k).dropping = false →
    afterLast (spoolOf s k).words = none →
    Ends (.dropPkt c k v) s (fun t =>
      spoolOf t k = { spoolOf s k with words := [], dropping := true })) ∧
  -- DROP_PKT after a LAST word does nothing
  (∀ (s : State) (c k : Nat) (v : Word),
    c < s.part.cores →
    k < 32 →
    bit v 0 = true →
    coreConsumer s k = true →
    (spoolOf s k).atEnd = true →
    Ends (.dropPkt c k v) s (fun t =>
      t = s)) ∧
  -- a flush
  (∀ (s : State) (k : Nat),
    k < 32 →
    Ends (.flush k) s (fun t =>
      spoolOf t k = {} ∧
      rd t .SPL_FW_CFG k = rd s .SPL_FW_CFG k)) ∧
  -- PROD and CONS of a Spool that is empty with no packet open
  (∀ (s : State) (k : Nat) (v : Word),
    k < 32 →
    (spoolOf s k).words = [] →
    (spoolOf s k).owner = none →
    Ends (.spoolConfigWrite k v) s (fun t =>
      fld t F.SPL_FW_CFG_PROD k = getBits v 0 1 ∧
      fld t F.SPL_FW_CFG_CONS k = getBits v 1 1 ∧
      fld t F.SPL_FW_CFG_IRQ_EN k = getBits v 2 1)) ∧
  -- PROD and CONS of a Spool that holds a word stay
  (∀ (s : State) (k : Nat) (v : Word),
    k < 32 →
    (spoolOf s k).words ≠ [] →
    bit v 3 = false →
    Ends (.spoolConfigWrite k v) s (fun t =>
      fld t F.SPL_FW_CFG_PROD k = fld s F.SPL_FW_CFG_PROD k ∧
      fld t F.SPL_FW_CFG_CONS k = fld s F.SPL_FW_CFG_CONS k ∧
      fld t F.SPL_FW_CFG_IRQ_EN k = getBits v 2 1 ∧
      spoolOf t k = spoolOf s k)) ∧
  -- a closing word is written where there is space
  (∀ (s : State) (k : Nat),
    (spoolOf s k).closing = true →
    (spoolOf s k).dropping = false →
    (spoolOf s k).words.length < spoolDepth s k →
    Ends (.closingWord k) s (fun t =>
      spoolOf t k = { spoolOf s k with closing := false, owner := none, words := (spoolOf s k).words ++ [(0#64, (true, true))] })) ∧
  -- a block reset of SPL flushes every firmware Spool
  (∀ (s : State) (k : Nat),
    k < 32 →
    Ends (.splBlockReset) s (fun t =>
      spoolOf t k = {} ∧
      rd t .SPL_FW_CFG k = rd s .SPL_FW_CFG k ∧
      flag t F.CKR_BRST_SPL = false))

/-- O37. Tier commands. A fetched command that passes its checks is held in flight and one that fails completes at once with its status; WRITE programs copies that are mapped when it completes; READ returns the mapped copies or ends UE; TRIM unmaps; RELEASE_IMAGE gives the image up; a completion advances HEAD. (R474, R475, R476, R477, R491, R492, R498, Table 13.3) -/
def Obligations.FlashTierCommands : Prop :=
  -- a command that passes is held in flight
  (∀ (s : State) (l : List Byte),
    s.part.hasFlt = true →
    fltState s ≠ .off ∧ fltState s ≠ .init →
    s.flt.cmds.length < 64 →
    s.flt.nextFetch ≠ fld s F.FLT_Q_TAIL_TAIL →
    powerLost s = false →
    (busRead s portFlt (fld s F.FLT_Q_BASE_BASE + 32 * s.flt.nextFetch) 32).1 = some l →
    tierCheck ({ (busRead s portFlt (fld s F.FLT_Q_BASE_BASE + 32 * s.flt.nextFetch) 32).2 with flt := { ((busRead s portFlt (fld s F.FLT_Q_BASE_BASE + 32 * s.flt.nextFetch) 32).2).flt with nextFetch := (s.flt.nextFetch + 1) % tierRing ((busRead s portFlt (fld s F.FLT_Q_BASE_BASE + 32 * s.flt.nextFetch) 32).2) } }) (fun j => (BitVec.ofNat 64 (leNat ((l.drop (8 * j)).take 8)))) = 0 →
    Ends (.tierCommandFetch) s (fun t =>
      t.flt.cmds = ((busRead s portFlt (fld s F.FLT_Q_BASE_BASE + 32 * s.flt.nextFetch) 32).2).flt.cmds ++ [{ idx := s.flt.nextFetch, op := getBits (BitVec.ofNat 64 (leNat ((l.drop (8 * 0)).take 8))) 0 8, flags := getBits (BitVec.ofNat 64 (leNat ((l.drop (8 * 0)).take 8))) 8 8, count := getBits (BitVec.ofNat 64 (leNat ((l.drop (8 * 0)).take 8))) 16 10, tlp := getBits (BitVec.ofNat 64 (leNat ((l.drop (8 * 0)).take 8))) 32 32, buf := getBits (BitVec.ofNat 64 (leNat ((l.drop (8 * 1)).take 8))) 0 40, tagbuf := getBits (BitVec.ofNat 64 (leNat ((l.drop (8 * 2)).take 8))) 0 40 }] ∧
      t.flt.nextFetch = (s.flt.nextFetch + 1) % tierRing ((busRead s portFlt (fld s F.FLT_Q_BASE_BASE + 32 * s.flt.nextFetch) 32).2))) ∧
  -- a command that fails a check completes at once
  (∀ (s : State) (l : List Byte),
    s.part.hasFlt = true →
    fltState s ≠ .off ∧ fltState s ≠ .init →
    s.flt.cmds.length < 64 →
    s.flt.nextFetch ≠ fld s F.FLT_Q_TAIL_TAIL →
    powerLost s = false →
    (busRead s portFlt (fld s F.FLT_Q_BASE_BASE + 32 * s.flt.nextFetch) 32).1 = some l →
    tierCheck ({ (busRead s portFlt (fld s F.FLT_Q_BASE_BASE + 32 * s.flt.nextFetch) 32).2 with flt := { ((busRead s portFlt (fld s F.FLT_Q_BASE_BASE + 32 * s.flt.nextFetch) 32).2).flt with nextFetch := (s.flt.nextFetch + 1) % tierRing ((busRead s portFlt (fld s F.FLT_Q_BASE_BASE + 32 * s.flt.nextFetch) 32).2) } }) (fun j => (BitVec.ofNat 64 (leNat ((l.drop (8 * j)).take 8)))) ≠ 0 →
    Ends (.tierCommandFetch) s (fun t =>
      t.flt.cmds = s.flt.cmds ∧
      fld t F.FLT_Q_HEAD_HEAD = (fld s F.FLT_Q_HEAD_HEAD + 1) % tierRing s % 2 ^ 12 ∧
      t.flt.map = s.flt.map)) ∧
  -- the checks of Table 13.4 that the command word alone decides come first
  (∀ (s : State) (w : Nat → Word), (opFlags (getBits (w 0) 0 8) = none ∨ getBits (w 0) 26 6 ≠ 0 ∨ getBits (w 1) 40 24 ≠ 0 ∨ getBits (w 2) 40 24 ≠ 0 ∨ getBits (w 1) 0 6 ≠ 0 ∨ getBits (w 2) 0 6 ≠ 0 ∨ (getBits (w 0) 0 8 ≠ 5 ∧ (getBits (w 0) 16 10 = 0 ∨ 512 < getBits (w 0) 16 10)) → tierCheck s w = 0xD8) ∧ (opFlags (getBits (w 0) 0 8) ≠ none → tierCheck s w ≠ 0xD8 → (powerLost s || safeState s) = true → tierCheck s w = 0xD6)) ∧
  -- WRITE programs its TLPs into an open SLC stripe
  (∀ (s : State) (k stripe : Nat) (dies : List Nat) (c : TierCmd) (x : Stripe),
    tierStart s k 1 = some c →
    powerLost s = false →
    fltState s ≠ .constrained →
    stripeOf s stripe = some x →
    x.closed = false ∧ x.slc = true ∧ x.srcs = [] →
    dies.length = c.count →
    (dies.any (fun d => decide (d ∉ s.flt.dies ∨ d ∈ s.flt.lostDies)) = false) →
    (readTlps c c.count 0 (setFlds s 0 [(F.FLT_STAT_WRITE_WAIT, 0), (F.FLT_STAT_THROTTLING, 0)])).1.isSome = true →
    Ends (.write k stripe dies false) s (fun t =>
      (tierCmd t k).map (fun e => e.fin) = some (some (0, c.count)) ∧
      (tierCmd t k).map (fun e => e.stripe) = some stripe ∧
      t.flt.map = s.flt.map ∧
      (stripeOf t stripe).map (fun y => (y.copies.take x.copies.length, y.copies.length, y.closed)) = some (x.copies, x.copies.length + c.count, false) ∧
      fld t F.FLT_STAT_WRITE_WAIT = 0)) ∧
  -- WRITE waits while no erased stripe is there
  (∀ (s : State) (k stripe : Nat) (dies : List Nat) (c : TierCmd),
    tierStart s k 1 = some c →
    powerLost s = false →
    Ends (.write k stripe dies true) s (fun t =>
      t = setFlag s F.FLT_STAT_WRITE_WAIT 0 true)) ∧
  -- WRITE beyond the allowance waits in CONSTRAINED
  (∀ (s : State) (k stripe : Nat) (dies : List Nat) (c : TierCmd),
    tierStart s k 1 = some c →
    powerLost s = false →
    fltState s = .constrained →
    c.flags / 4 % 2 = 0 →
    fld s F.FLT_THROTTLE_RATE * 100000 < admittedNow s + c.count * 4096 →
    admittedNow s ≠ 0 →
    Ends (.write k stripe dies false) s (fun t =>
      t = setFlag s F.FLT_STAT_THROTTLING 0 true)) ∧
  -- READ of one mapped TLP that decodes
  (∀ (s : State) (k : Nat) (bad : List Nat) (c : TierCmd) (x : TlpCopy),
    tierStart s k 2 = some c →
    powerLost s = false →
    c.flags / 8 % 2 = 0 →
    c.count = 1 →
    tlpCopy s c.tlp = some x →
    x.ue = false →
    c.tlp ∉ bad →
    (returnTlp s c 0 x.data x.tag).1 = true →
    Ends (.read k bad) s (fun t =>
      (tierCmd t k).map (fun e => e.fin) = some (some (0, 1)) ∧
      t.mem = (returnTlp s c 0 x.data x.tag).2.mem ∧
      t.flt.map = s.flt.map)) ∧
  -- READ of one TLP that is not mapped returns zeros
  (∀ (s : State) (k : Nat) (bad : List Nat) (c : TierCmd),
    tierStart s k 2 = some c →
    powerLost s = false →
    c.flags / 8 % 2 = 0 →
    c.count = 1 →
    mapOf s c.tlp = none →
    (returnTlp s c 0 (List.replicate 4096 0#8) (List.replicate 16 0#8)).1 = true →
    Ends (.read k bad) s (fun t =>
      (tierCmd t k).map (fun e => e.fin) = some (some (0, 1)) ∧
      t.mem = (returnTlp s c 0 (List.replicate 4096 0#8) (List.replicate 16 0#8)).2.mem)) ∧
  -- READ of an uncorrectable TLP ends UE; it stays mapped
  (∀ (s : State) (k : Nat) (bad : List Nat) (c : TierCmd) (x : TlpCopy),
    tierStart s k 2 = some c →
    powerLost s = false →
    c.flags / 8 % 2 = 0 →
    c.count = 1 →
    tlpCopy s c.tlp = some x →
    x.ue = true →
    Ends (.read k bad) s (fun t =>
      (tierCmd t k).map (fun e => e.fin) = some (some (0xD5, 0)) ∧
      t.flt.map = s.flt.map ∧
      t.mem = s.mem)) ∧
  -- TRIM unmaps its TLPs and clears their pins
  (∀ (s : State) (k j : Nat) (c : TierCmd),
    tierStart s k 3 = some c →
    powerLost s = false →
    j < c.count →
    Ends (.trim k) s (fun t =>
      (tierCmd t k).map (fun e => e.fin) = some (some (0, c.count)) ∧
      mapOf t (c.tlp + j) = none ∧
      tlpPinned t (c.tlp + j) = false ∧
      t.flt.stripes = s.flt.stripes ∧
      (∀ q, q < c.tlp ∨ c.tlp + c.count ≤ q → mapOf t q = mapOf s q))) ∧
  -- RELEASE_IMAGE
  (∀ (s : State) (k : Nat) (c : TierCmd),
    tierStart s k 4 = some c →
    powerLost s = false →
    Ends (.releaseImage k) s (fun t =>
      (tierCmd t k).map (fun e => e.fin) = some (some (0, c.count)) ∧
      t.flt.image = none ∧
      t.flt.erased = false ∧
      flag t F.FLT_STAT_IMAGE_HELD = false)) ∧
  -- FORMAT takes 4 × floor(U / 4) dies and drops the map and the image
  (∀ (s : State) (k : Nat) (c : TierCmd),
    tierStart s k 5 = some c →
    powerLost s = false →
    Ends (.format k) s (fun t =>
      (tierCmd t k).map (fun e => e.fin) = some (some (0, 0)) ∧
      t.flt.formatted = true ∧
      t.flt.map = [] ∧
      t.flt.pinned = [] ∧
      t.flt.stripes = [] ∧
      t.flt.image = none ∧
      t.flt.retired = s.flt.retired ∧
      t.flt.dies.length = 4 * (t.flt.usable / 4) ∧
      t.flt.width = (if 4 * (t.flt.usable / 4) % 16 = 0 then 16 else if 4 * (t.flt.usable / 4) % 8 = 0 then 8 else 4) ∧
      t.flt.spareInit = t.flt.spare ∧
      t.flt.logical ≤ 2 ^ 28 ∧
      (c.tlp = 0 ∨ t.flt.logical ≤ c.tlp))) ∧
  -- a command completes; a WRITE's TLPs are mapped to its stripe
  (∀ (s : State) (k j : Nat) (c : TierCmd),
    tierCmd s k = some c →
    c.fin = some (0, c.count) →
    c.op = 1 →
    j < c.count →
    Ends (.tierCommandDone k) s (fun t =>
      mapOf t (c.tlp + j) = some c.stripe ∧
      t.flt.cmds = s.flt.cmds.eraseIdx k ∧
      fld t F.FLT_Q_HEAD_HEAD = (fld s F.FLT_Q_HEAD_HEAD + 1) % tierRing s % 2 ^ 12 ∧
      (∀ q, q < c.tlp ∨ c.tlp + c.count ≤ q → mapOf t q = mapOf s q))) ∧
  -- a command ends with a failure or is no WRITE: nothing is mapped
  (∀ (s : State) (k st n : Nat) (c : TierCmd),
    tierCmd s k = some c →
    c.fin = some (st, n) →
    (c.op ≠ 1 ∨ st ≠ 0) →
    Ends (.tierCommandDone k) s (fun t =>
      t.flt.map = s.flt.map ∧
      t.flt.cmds = s.flt.cmds.eraseIdx k ∧
      fld t F.FLT_Q_HEAD_HEAD = (fld s F.FLT_Q_HEAD_HEAD + 1) % tierRing s % 2 ^ 12))

/-- O38. The flash tier's own states and upkeep. The tier moves by Table 13.6; erases add wear, failures retire blocks and lower SPARE; a verified stripe closes and switches the map of what still names its sources; a lost die takes its blocks with it; copies keep their sources mapped. (R470, R478, R482, R484, R485, R486, R487, R488, R489, R493, R499) -/
def Obligations.FlashTierUpkeep : Prop :=
  -- EN rises with DRAM ready
  (∀ (s : State) (v : Word),
    s.part.hasFlt = true →
    fltState s = .off →
    flag s F.BFM_DRAM_STAT_READY = true →
    fld s F.SEC_LC_STATE ≠ 4 →
    bit v 1 = false →
    Ends (.fltEnable v) s (fun t =>
      fltState t = .init ∧
      flag t F.FLT_CTL_EN = true ∧
      fld t F.FLT_CTL_Q_LOG2 = max 4 (min 12 (getBits v 4 4)))) ∧
  -- EN rises before DRAM is ready
  (∀ (s : State) (v : Word),
    s.part.hasFlt = true →
    fltState s = .off →
    flag s F.BFM_DRAM_STAT_READY = false →
    fld s F.SEC_LC_STATE ≠ 4 →
    bit v 1 = false →
    Ends (.fltEnable v) s (fun t =>
      fltState t = .off ∧
      flag t F.FLT_CTL_EN = true)) ∧
  -- EN of an absent tier
  (∀ (s : State) (v : Word),
    s.part.hasFlt = false →
    Ends (.fltEnable v) s (fun t =>
      t = s)) ∧
  -- INIT with fewer than four usable dies
  (∀ (s : State) (u geom : Word) (g : Nat) (root : Bool),
    fltState s = .init →
    ((List.range 64).filter (fun d => bit u d && decide (d < s.part.dies))).length < 4 →
    Ends (.fltInitDone u geom g root) s (fun t =>
      fltState t = .down ∧
      rd t .FLT_GEOM 0 = geom)) ∧
  -- INIT with no root
  (∀ (s : State) (u geom : Word) (g : Nat) (root : Bool),
    fltState s = .init →
    4 ≤ ((List.range 64).filter (fun d => bit u d && decide (d < s.part.dies))).length →
    s.flt.formatted = false →
    Ends (.fltInitDone u geom g root) s (fun t =>
      fltState t = .unformatted ∧
      rd t .FLT_GEOM 0 = geom)) ∧
  -- INIT with a root and a held image: SERVING
  (∀ (s : State) (u geom : Word) (g : Nat) (i : FlushImage),
    fltState s = .init →
    4 ≤ ((List.range 64).filter (fun d => bit u d && decide (d < s.part.dies))).length →
    s.flt.formatted = true →
    s.flt.retiredMark = false →
    s.flt.image = some i →
    Ends (.fltInitDone u geom g true) s (fun t =>
      fltState t = .serving ∧
      fld t F.FLT_STAT_IMAGE_HELD = 1 ∧
      fld t F.FLT_STAT_IMAGE_STATUS = (if i.committed then 1 else 2) ∧
      t.flt.cmds = [] ∧
      t.flt.map = s.flt.map ∧
      (∀ q x, (q, some x) ∈ t.flt.stripes → x.closed = true))) ∧
  -- a native erase adds one cycle of wear, 16 sixteenths
  (∀ (s : State) (die block usec stripe : Nat) (lost : List Nat),
    s.part.hasFlt = true →
    fltState s ≠ .off →
    Ends (.nandOpDone 2 die block usec false true stripe lost) s (fun t =>
      tget (dflt 0) t.flt.wear (die * 2 ^ 16 + block % 2 ^ 16) = tget (dflt 0) s.flt.wear (die * 2 ^ 16 + block % 2 ^ 16) + 16 ∧
      t.flt.retired = s.flt.retired ∧
      t.flt.map = s.flt.map)) ∧
  -- an SLC erase adds SLC_WEIGHT sixteenths
  (∀ (s : State) (die block usec stripe : Nat) (lost : List Nat),
    s.part.hasFlt = true →
    fltState s ≠ .off →
    Ends (.nandOpDone 2 die block usec true true stripe lost) s (fun t =>
      tget (dflt 0) t.flt.wear (die * 2 ^ 16 + block % 2 ^ 16) = tget (dflt 0) s.flt.wear (die * 2 ^ 16 + block % 2 ^ 16) + fld s F.FLT_PE_RATED_SLC_WEIGHT ∧
      t.flt.retired = s.flt.retired)) ∧
  -- a failed erase retires its block and lowers SPARE by one
  (∀ (s : State) (die block usec stripe : Nat) (lost : List Nat) (slc : Bool),
    s.part.hasFlt = true →
    fltState s ≠ .off →
    tget (dflt false) s.flt.retired (die * 2 ^ 16 + block % 2 ^ 16) = false →
    Ends (.nandOpDone 2 die block usec slc false stripe lost) s (fun t =>
      tget (dflt false) t.flt.retired (die * 2 ^ 16 + block % 2 ^ 16) = true ∧
      t.flt.spare = s.flt.spare - 1 ∧
      t.flt.erase = min 65535 (s.flt.erase + 1) ∧
      t.flt.map = s.flt.map)) ∧
  -- a failed program retires its block and counts a rebuild
  (∀ (s : State) (die block usec stripe : Nat) (lost : List Nat) (slc : Bool),
    s.part.hasFlt = true →
    fltState s ≠ .off →
    tget (dflt false) s.flt.retired (die * 2 ^ 16 + block % 2 ^ 16) = false →
    lost = [] →
    Ends (.nandOpDone 1 die block usec slc false stripe lost) s (fun t =>
      tget (dflt false) t.flt.retired (die * 2 ^ 16 + block % 2 ^ 16) = true ∧
      t.flt.spare = s.flt.spare - 1 ∧
      t.flt.program = min 65535 (s.flt.program + 1) ∧
      t.flt.rebuild = min 65535 (s.flt.rebuild + 1) ∧
      t.flt.map = s.flt.map)) ∧
  -- a native program that passes
  (∀ (s : State) (die block usec stripe : Nat) (lost : List Nat),
    s.part.hasFlt = true →
    fltState s ≠ .off →
    Ends (.nandOpDone 1 die block usec false true stripe lost) s (fun t =>
      t = s)) ∧
  -- a stripe that passes verification closes
  (∀ (s : State) (k : Nat) (lost : List Nat) (x : Stripe),
    stripeOf s k = some x →
    x.closed = false →
    x.srcs = [] →
    powerLost s = false →
    Ends (.stripeVerify k [] lost) s (fun t =>
      stripeOf t k = some { x with closed := true } ∧
      t.flt.map = s.flt.map)) ∧
  -- a destination that closes switches what still maps to a source, and nothing else
  (∀ (s : State) (k : Nat) (lost : List Nat) (x : Stripe),
    stripeOf s k = some x →
    x.closed = false →
    powerLost s = false →
    k ∉ x.srcs →
    Ends (.stripeVerify k [] lost) s (fun t =>
      stripeOf t k = some { x with closed := true, srcs := [] } ∧
      (∀ c ∈ x.copies, ∀ q, mapOf s c.tlp = some q → q ∈ x.srcs → mapOf t c.tlp = some k) ∧
      (∀ p q, mapOf s p = some q → q ∉ x.srcs → mapOf t p = some q))) ∧
  -- failing blocks are retired, and the stripe stays open
  (∀ (s : State) (k b : Nat) (failing lost : List Nat) (x : Stripe),
    stripeOf s k = some x →
    x.closed = false →
    powerLost s = false →
    b ∈ failing →
    lost = [] →
    Ends (.stripeVerify k failing lost) s (fun t =>
      tget (dflt false) t.flt.retired b = true ∧
      stripeOf t k = some x ∧
      t.flt.verify = min 65535 (s.flt.verify + failing.length))) ∧
  -- a die is lost: its good blocks leave SPARE
  (∀ (s : State) (die : Nat) (lost : List Nat),
    die ∈ s.flt.dies →
    die ∉ s.flt.lostDies →
    fltState s ≠ .off →
    Ends (.dieLost die lost) s (fun t =>
      t.flt.lostDies = s.flt.lostDies ++ [die] ∧
      t.flt.spare = s.flt.spare - (getBits (rd s .FLT_GEOM 0) 38 16 - (s.flt.retired.filter (fun e => e.2 && decide (e.1 / 2 ^ 16 = die))).length) ∧
      t.flt.map = s.flt.map)) ∧
  -- folding copies the oldest closed SLC stripes; sources stay mapped
  (∀ (s : State) (dest : Nat) (srcs dies : List Nat),
    mayCopy s dest dies = true →
    srcs ≠ [] →
    srcs = ((s.flt.stripes.filter (fun e => match e.2 with | some x => x.closed && x.slc | none => false)).map (·.1)).take srcs.length →
    Ends (.fold srcs dest dies) s (fun t =>
      t.flt.map = s.flt.map ∧
      (stripeOf t dest).map (fun x => (x.slc, x.closed, x.srcs)) = some (false, false, srcs) ∧
      (stripeOf t dest).map (fun x => x.copies.map (fun c => c.tlp)) = some ((srcs.map (validIn s)).flatten.filter (fun q => (tlpCopy s q).isSome)) ∧
      (∀ q, q ≠ dest → stripeOf t q = stripeOf s q))) ∧
  -- garbage collection of the closed stripe with the fewest valid TLPs
  (∀ (s : State) (victim dest : Nat) (dies : List Nat) (x : Stripe),
    mayCopy s dest dies = true →
    stripeOf s victim = some x →
    x.closed = true →
    fewestValid s victim x = true →
    Ends (.garbageCollection victim dest dies) s (fun t =>
      t.flt.map = s.flt.map ∧
      (stripeOf t dest).map (fun y => (y.slc, y.closed, y.srcs)) = some (false, false, [victim]) ∧
      (∀ q, q ≠ dest → stripeOf t q = stripeOf s q))) ∧
  -- RETIRE_COMMIT in CONSTRAINED with RETIRE_REQ
  (∀ (s : State),
    s.part.hasFlt = true →
    fltState s = .constrained →
    flag s F.FLT_STAT_RETIRE_REQ = true →
    Ends (.retireCommit) s (fun t =>
      fltState t = .retired ∧
      t.flt.retiredMark = true ∧
      t.flt.map = s.flt.map ∧
      (∀ q x, (q, some x) ∈ t.flt.stripes → x.closed = true))) ∧
  -- RETIRE_COMMIT is ignored without RETIRE_REQ
  (∀ (s : State),
    s.part.hasFlt = true →
    fltState s ≠ .off →
    flag s F.FLT_STAT_RETIRE_REQ = false →
    Ends (.retireCommit) s (fun t =>
      fltState t = fltState s ∧
      t.flt = s.flt))

/-- O39. Service cores, their caches, semaphores and interrupt inputs. RUN releases a core or holds it in reset, which frees its semaphores as orphaned and keeps its deque; cache-block operations act in every cluster L2; a semaphore is taken by a read and freed by its owner; SVC_IPI_SET sets MSIP of present cores; the timer input rises at the compare value. (R433, R509, R512, R514, R515, R516, R517) -/
def Obligations.ServiceCores : Prop :=
  -- cbo.clean
  (∀ (s : State) (c addr j : Nat) (x : L2Line),
    c < s.part.cores →
    flag s F.SVC_CORE_CTL_RUN c = true →
    j < s.part.clusters →
    l2Line s j (addr / 64) = some x →
    Ends (.cboClean c addr) s (fun t =>
      l2Line t j (addr / 64) = some { x with dirty := false })) ∧
  -- cbo.flush
  (∀ (s : State) (c addr j : Nat),
    c < s.part.cores →
    flag s F.SVC_CORE_CTL_RUN c = true →
    j < s.part.clusters →
    Ends (.cboFlush c addr) s (fun t =>
      l2Line t j (addr / 64) = none)) ∧
  -- cbo.inval: what is dirty is discarded
  (∀ (s : State) (c addr j : Nat),
    c < s.part.cores →
    flag s F.SVC_CORE_CTL_RUN c = true →
    j < s.part.clusters →
    Ends (.cboInval c addr) s (fun t =>
      l2Line t j (addr / 64) = none ∧
      t.mem = s.mem ∧
      t.syc = s.syc ∧
      t.regs = s.regs)) ∧
  -- RUN set
  (∀ (s : State) (c : Nat) (v : Word),
    c < s.part.cores →
    flag s F.SVC_CORE_CTL_RUN c = false →
    Ends (.coreRun c v) s (fun t =>
      flag t F.SVC_CORE_CTL_RUN c = true ∧
      fld t F.SVC_CORE_CTL_STATE c = 1 ∧
      fld t F.SVC_CORE_CTL_DQ_IE c = getBits v 1 1 ∧
      fld t F.SVC_CORE_CTL_DQ_STEAL_IE c = getBits v 2 1 ∧
      t.svc = s.svc ∧
      rd t .SVC_CORE_PC c = rd s .SVC_CORE_PC c)) ∧
  -- RUN cleared
  (∀ (s : State) (c : Nat) (v : Word) (n : Nat),
    c < s.part.cores →
    flag s F.SVC_CORE_CTL_RUN c = true →
    n < 64 →
    (semOf s n).owner = some c →
    Ends (.coreHold c v) s (fun t =>
      flag t F.SVC_CORE_CTL_RUN c = false ∧
      fld t F.SVC_CORE_CTL_STATE c = 0 ∧
      semOf t n = { owner := none, orphaned := true } ∧
      t.loom = s.loom ∧
      (∀ m, (semOf s m).owner ≠ some c → semOf t m = semOf s m))) ∧
  -- a read of a free semaphore takes it
  (∀ (s : State) (e n : Nat),
    enginePresent s e = true →
    n < 64 →
    (semOf s n).owner = none →
    Ends (.semaphoreRead e n) s (fun t =>
      semOf t n = { owner := some e, orphaned := false } ∧
      t.bus.value = semWord false e (semOf s n).orphaned ∧
      t.bus.err = false ∧
      t.regs = s.regs)) ∧
  -- a read of an owned semaphore changes nothing
  (∀ (s : State) (e n : Nat) (o : Nat),
    enginePresent s e = true →
    n < 64 →
    (semOf s n).owner = some o →
    Ends (.semaphoreRead e n) s (fun t =>
      t.bus.value = semWord (decide (o ≠ e)) o (semOf s n).orphaned ∧
      t.svc = s.svc ∧
      t.regs = s.regs)) ∧
  -- RELEASE by the owner
  (∀ (s : State) (e n : Nat) (v : Word),
    n < 64 →
    (semOf s n).owner = some e →
    Ends (.semaphoreRelease e n v) s (fun t =>
      semOf t n = { semOf s n with owner := none } ∧
      t.regs = s.regs ∧
      (∀ m, m ≠ n → semOf t m = semOf s m))) ∧
  -- RELEASE by another is ignored and counted
  (∀ (s : State) (e n : Nat) (v : Word),
    n < 64 →
    (semOf s n).owner ≠ some e →
    Ends (.semaphoreRelease e n v) s (fun t =>
      t.svc = s.svc ∧
      fld t F.SVC_SEM_ERR_N = min (fld s F.SVC_SEM_ERR_N + 1) (2 ^ F.SVC_SEM_ERR_N.w - 1))) ∧
  -- SVC_IPI_SET
  (∀ (s : State) (v : Word) (c : Nat),
    c < s.part.cores →
    bit v c = true →
    Ends (.ipiSet v) s (fun t =>
      flag t F.SVC_MSIP_MSIP c = true ∧
      (∀ d, s.part.cores ≤ d ∨ bit v d = false → rd t .SVC_MSIP d = rd s .SVC_MSIP d))) ∧
  -- the timer input
  (∀ (s : State) (c : Nat),
    c < s.part.cores →
    (rd s .SVC_MTIMECMP c).toNat ≤ (rd s .SVC_MTIME 0).toNat →
    Ends (.timerInterrupt c) s (fun t =>
      tget (dflt false) t.svc.timer c = true ∧
      t.regs = s.regs))

/-- O40. Weave and Carder. Weave stores the XOR of its sources, or ends at the first line that does not compare; SCAN copies the matching records and stops before one that does not fit; a completion writes its words, advances HEAD and counts; a block reset stops what runs. (R521, R526, R527, R528, Table 14.6) -/
def Obligations.OffloadEngines : Prop :=
  -- XOR stores one line
  (∀ (s : State) (r : WeaveRun) (x : List Byte),
    s.ofl.weave = some r →
    getBits (r.words.getD 0 0#64) 0 8 = 1 →
    r.fin = none →
    (xorSources r.words (64 * r.lines) (weaveSources r.words) s).1 = some x →
    (busWrite ((xorSources r.words (64 * r.lines) (weaveSources r.words) s).2) portOfl (getBits (r.words.getD 5 0#64) 0 40 + 64 * r.lines) x).1 = true →
    Ends (.weaveXor 1) s (fun t =>
      t.ofl.weave = some { r with lines := r.lines + 1, fin := if 64 * (r.lines + 1) = getBits (r.words.getD 0 0#64) 32 32 then some (0, 0) else none } ∧
      t.mem = (busWrite ((xorSources r.words (64 * r.lines) (weaveSources r.words) s).2) portOfl (getBits (r.words.getD 5 0#64) 0 40 + 64 * r.lines) x).2.mem)) ∧
  -- CHECK goes on where the sources agree
  (∀ (s : State) (r : WeaveRun) (x : List Byte),
    s.ofl.weave = some r →
    getBits (r.words.getD 0 0#64) 0 8 = 2 →
    r.fin = none →
    (xorSources r.words (64 * r.lines) (weaveSources r.words) s).1 = some x →
    (∀ b ∈ x, b = 0#8) →
    Ends (.check 1) s (fun t =>
      t.ofl.weave = some { r with lines := r.lines + 1, fin := if 64 * (r.lines + 1) = getBits (r.words.getD 0 0#64) 32 32 then some (0, 0) else none } ∧
      t.regs = ((xorSources r.words (64 * r.lines) (weaveSources r.words) s).2).regs)) ∧
  -- CHECK ends MISMATCH at the first line that differs
  (∀ (s : State) (r : WeaveRun) (x : List Byte),
    s.ofl.weave = some r →
    getBits (r.words.getD 0 0#64) 0 8 = 2 →
    r.fin = none →
    (xorSources r.words (64 * r.lines) (weaveSources r.words) s).1 = some x →
    (¬ (∀ b ∈ x, b = 0#8)) →
    Ends (.check 1) s (fun t =>
      t.ofl.weave = some { r with fin := some (0xE1, 64 * r.lines) })) ∧
  -- COMPARE goes on where the sources agree
  (∀ (s : State) (r : WeaveRun) (x : List Byte),
    s.ofl.weave = some r →
    getBits (r.words.getD 0 0#64) 0 8 = 3 →
    r.fin = none →
    (xorSources r.words (64 * r.lines) (weaveSources r.words) s).1 = some x →
    (∀ b ∈ x, b = 0#8) →
    Ends (.compare 1) s (fun t =>
      t.ofl.weave = some { r with lines := r.lines + 1, fin := if 64 * (r.lines + 1) = getBits (r.words.getD 0 0#64) 32 32 then some (0, 0) else none } ∧
      t.regs = ((xorSources r.words (64 * r.lines) (weaveSources r.words) s).2).regs)) ∧
  -- COMPARE ends MISMATCH at the first line that differs
  (∀ (s : State) (r : WeaveRun) (x : List Byte),
    s.ofl.weave = some r →
    getBits (r.words.getD 0 0#64) 0 8 = 3 →
    r.fin = none →
    (xorSources r.words (64 * r.lines) (weaveSources r.words) s).1 = some x →
    (¬ (∀ b ∈ x, b = 0#8)) →
    Ends (.compare 1) s (fun t =>
      t.ofl.weave = some { r with fin := some (0xE1, 64 * r.lines) })) ∧
  -- an idle Weave fetches and checks its head command, OP 1
  (∀ (s : State) (l : List Byte),
    oflHalted s = false →
    s.ofl.weave = none →
    fld s F.OFL_WV_HEAD_HEAD ≠ fld s F.OFL_WV_TAIL_TAIL →
    (busRead s portOfl (weaveEntry s) 64).1 = some l →
    getBits (cmdWord l 0) 0 8 = 1 →
    Ends (.weaveXor 0) s (fun t =>
      t.ofl.weave = some { words := (List.range 8).map (cmdWord l), fin := (weaveCheck s ((List.range 8).map (cmdWord l))).map (fun c => (c, 0)) } ∧
      flag t F.OFL_WV_STAT_BUSY = true ∧
      fld t F.OFL_WV_HEAD_HEAD = fld s F.OFL_WV_HEAD_HEAD)) ∧
  -- an idle Weave fetches and checks its head command, OP 2
  (∀ (s : State) (l : List Byte),
    oflHalted s = false →
    s.ofl.weave = none →
    fld s F.OFL_WV_HEAD_HEAD ≠ fld s F.OFL_WV_TAIL_TAIL →
    (busRead s portOfl (weaveEntry s) 64).1 = some l →
    getBits (cmdWord l 0) 0 8 = 2 →
    Ends (.check 0) s (fun t =>
      t.ofl.weave = some { words := (List.range 8).map (cmdWord l), fin := (weaveCheck s ((List.range 8).map (cmdWord l))).map (fun c => (c, 0)) } ∧
      flag t F.OFL_WV_STAT_BUSY = true ∧
      fld t F.OFL_WV_HEAD_HEAD = fld s F.OFL_WV_HEAD_HEAD)) ∧
  -- an idle Weave fetches and checks its head command, OP 3
  (∀ (s : State) (l : List Byte),
    oflHalted s = false →
    s.ofl.weave = none →
    fld s F.OFL_WV_HEAD_HEAD ≠ fld s F.OFL_WV_TAIL_TAIL →
    (busRead s portOfl (weaveEntry s) 64).1 = some l →
    getBits (cmdWord l 0) 0 8 = 3 →
    Ends (.compare 0) s (fun t =>
      t.ofl.weave = some { words := (List.range 8).map (cmdWord l), fin := (weaveCheck s ((List.range 8).map (cmdWord l))).map (fun c => (c, 0)) } ∧
      flag t F.OFL_WV_STAT_BUSY = true ∧
      fld t F.OFL_WV_HEAD_HEAD = fld s F.OFL_WV_HEAD_HEAD)) ∧
  -- SCAN of a record that matches and fits
  (∀ (s : State) (r : CarderRun) (rcd out : List Byte) (ext : Nat),
    s.ofl.carder = some r →
    getBits (r.words.getD 0 0#64) 0 8 = 1 →
    r.fin = none →
    r.consumed ≠ getBits (r.words.getD 2 0#64) 0 32 →
    (nextRecord s r).1 = .inr (rcd, ext) →
    recordTrue r rcd = true →
    (recordOut ((nextRecord s r).2) r ext).1 = some out →
    r.produced + out.length ≤ getBits (r.words.getD 4 0#64) 0 32 →
    (busWrite ((recordOut ((nextRecord s r).2) r ext).2) portOfl (getBits (r.words.getD 3 0#64) 0 40 + r.produced) out).1 = true →
    Ends (.scan 1) s (fun t =>
      t.ofl.carder = some { r with consumed := r.consumed + ext, produced := r.produced + out.length, found := r.found + 1, fin := if r.consumed + ext = getBits (r.words.getD 2 0#64) 0 32 then some 0 else none } ∧
      t.mem = (busWrite ((recordOut ((nextRecord s r).2) r ext).2) portOfl (getBits (r.words.getD 3 0#64) 0 40 + r.produced) out).2.mem)) ∧
  -- SCAN of a record that does not match
  (∀ (s : State) (r : CarderRun) (rcd : List Byte) (ext : Nat),
    s.ofl.carder = some r →
    getBits (r.words.getD 0 0#64) 0 8 = 1 →
    r.fin = none →
    r.consumed ≠ getBits (r.words.getD 2 0#64) 0 32 →
    (nextRecord s r).1 = .inr (rcd, ext) →
    recordTrue r rcd = false →
    Ends (.scan 1) s (fun t =>
      t.ofl.carder = some { r with consumed := r.consumed + ext, fin := if r.consumed + ext = getBits (r.words.getD 2 0#64) 0 32 then some 0 else none } ∧
      t.mem = ((nextRecord s r).2).mem)) ∧
  -- SCAN ends DST_FULL before the first match that does not fit
  (∀ (s : State) (r : CarderRun) (rcd out : List Byte) (ext : Nat),
    s.ofl.carder = some r →
    getBits (r.words.getD 0 0#64) 0 8 = 1 →
    r.fin = none →
    r.consumed ≠ getBits (r.words.getD 2 0#64) 0 32 →
    (nextRecord s r).1 = .inr (rcd, ext) →
    recordTrue r rcd = true →
    (recordOut ((nextRecord s r).2) r ext).1 = some out →
    getBits (r.words.getD 4 0#64) 0 32 < r.produced + out.length →
    Ends (.scan 1) s (fun t =>
      t.ofl.carder = some { r with fin := some 0xE2 })) ∧
  -- a term compares its field, little-endian and unsigned; a field past the end is false
  (∀ (rcd : List Byte) (t : Term), (rcd.length < getBits t.ctl 0 16 + 2 ^ getBits t.ctl 16 2 → termTrue rcd t = false) ∧ (getBits t.ctl 0 16 + 2 ^ getBits t.ctl 16 2 ≤ rcd.length → (getBits t.ctl 18 3 = 0 → (termTrue rcd t = true ↔ leNat ((rcd.drop (getBits t.ctl 0 16)).take (2 ^ getBits t.ctl 16 2)) = t.value.toNat)) ∧ (getBits t.ctl 18 3 = 2 → (termTrue rcd t = true ↔ leNat ((rcd.drop (getBits t.ctl 0 16)).take (2 ^ getBits t.ctl 16 2)) < t.value.toNat)))) ∧
  -- a Weave command completes
  (∀ (s : State) (r : WeaveRun) (st off : Nat),
    s.ofl.weave = some r →
    r.fin = some (st, off) →
    Ends (.oflCommandDone false) s (fun t =>
      t.ofl.weave = none ∧
      flag t F.OFL_WV_STAT_BUSY = false ∧
      fld t F.OFL_WV_STAT_STATUS = st % 256 ∧
      fld t F.OFL_WV_HEAD_HEAD = (fld s F.OFL_WV_HEAD_HEAD + 1) % 2 ^ clampNat 1 12 (fld s F.OFL_WV_RING_LOG2) % 2 ^ 12)) ∧
  -- a Carder command completes
  (∀ (s : State) (r : CarderRun) (st : Nat),
    s.ofl.carder = some r →
    r.fin = some st →
    Ends (.oflCommandDone true) s (fun t =>
      t.ofl.carder = none ∧
      flag t F.OFL_CD_STAT_BUSY = false ∧
      fld t F.OFL_CD_STAT_STATUS = st % 256 ∧
      fld t F.OFL_CD_HEAD_HEAD = (fld s F.OFL_CD_HEAD_HEAD + 1) % 2 ^ clampNat 1 12 (fld s F.OFL_CD_RING_LOG2) % 2 ^ 12)) ∧
  -- a block reset stops what runs
  (∀ (s : State) (r : WeaveRun) (c : CarderRun),
    s.ofl.weave = some r →
    r.fin = none →
    s.ofl.carder = some c →
    c.fin = none →
    Ends (.oflBlockReset) s (fun t =>
      t.ofl.weave = some { r with fin := some (0xE5, 64 * r.lines) } ∧
      t.ofl.carder = some { c with fin := some 0xE5 } ∧
      rd t .OFL_WV_RING 0 = rd s .OFL_WV_RING 0 ∧
      rd t .OFL_CD_RING 0 = rd s .OFL_CD_RING 0 ∧
      flag t F.CKR_BRST_OFL = false))

/-- O41. Fault messages, pending bits and the safe state. An accepted message sets its source's pending bit and FCL_LAST, is counted and recorded; one of severity 7, a fatal line, SAFE_ENTER and a self-fault enter the safe state and latch the first cause; FCL_SW_RAISE and FCL_SW_SET take firmware sources only; a claim takes the presented source of highest PRIO. (R534, R535, R537, R539, R541, R542, R543, R547, R548, R559) -/
def Obligations.FaultCollector : Prop :=
  -- a message below SEV_MIN: pending bit, FCL_LAST, count, record
  (∀ (s : State) (i : Nat) (w : Word) (rest : List Word),
    s.ckr.inReset = false →
    grant 25 s.fcl.ptr (fun j => !(tget (dflt []) s.fcl.waiting j).isEmpty) = some i →
    tget (dflt []) s.fcl.waiting i = w :: rest →
    msgPar w = bit w 63 →
    msgSev w < 7 →
    msgSev w < fld s F.FCL_SRC_CFG_SEV_MIN (msgSource w) →
    fld s F.EVR_RATE_PERIOD (256 + msgKind w) = 0 →
    s.evr.ring.length < 1024 →
    Ends (.faultMessage 0#64) s (fun t =>
      pendingBit t (msgSource w) = true ∧
      rd t .FCL_LAST 0 = w ∧
      fld t F.FCL_CNT_ACCEPTED = min (fld s F.FCL_CNT_ACCEPTED + 1) (2 ^ F.FCL_CNT_ACCEPTED.w - 1) ∧
      tget (dflt []) t.fcl.waiting i = rest ∧
      flag t F.FCL_STAT_SAFE = flag s F.FCL_STAT_SAFE ∧
      t.evr.ring = s.evr.ring ++ [{ code := 256 + msgKind w, sev := msgSev w, source := msgSource w, pcycle := s.ckr.pcycle, time := now s, suppressed := tget (dflt 0) s.evr.suppressed (256 + msgKind w), p1 := w }])) ∧
  -- a message of severity 7 enters the safe state and latches the first cause
  (∀ (s : State) (i : Nat) (w : Word) (rest : List Word),
    s.ckr.inReset = false →
    grant 25 s.fcl.ptr (fun j => !(tget (dflt []) s.fcl.waiting j).isEmpty) = some i →
    tget (dflt []) s.fcl.waiting i = w :: rest →
    msgPar w = bit w 63 →
    msgSev w = 7 →
    safeState s = false →
    flag s F.FCL_CAUSE_INFO_VALID = false →
    Ends (.faultMessage 0#64) s (fun t =>
      safeState t = true ∧
      rd t .FCL_LAST 0 = w ∧
      rd t .FCL_CAUSE 0 = w ∧
      fld t F.FCL_CAUSE_INFO_REASON = 1 ∧
      flag t F.FCL_CAUSE_INFO_VALID = true ∧
      pendingBit t (msgSource w) = true)) ∧
  -- a message whose parity fails is FK_FCL_MSG from source 32 at severity 7
  (∀ (s : State) (i : Nat) (w : Word) (rest : List Word),
    s.ckr.inReset = false →
    grant 25 s.fcl.ptr (fun j => !(tget (dflt []) s.fcl.waiting j).isEmpty) = some i →
    tget (dflt []) s.fcl.waiting i = w :: rest →
    msgPar w ≠ bit w 63 →
    safeState s = false →
    Ends (.faultMessage 0#64) s (fun t =>
      safeState t = true ∧
      rd t .FCL_LAST 0 = faultMsg 32 0x02 7 (getBits w 0 40) ∧
      pendingBit t 32 = true)) ∧
  -- ERRN and SAFE are reactions at or above SEV_MIN
  (∀ (s : State) (i : Nat) (w : Word) (rest : List Word),
    s.ckr.inReset = false →
    grant 25 s.fcl.ptr (fun j => !(tget (dflt []) s.fcl.waiting j).isEmpty) = some i →
    tget (dflt []) s.fcl.waiting i = w :: rest →
    msgPar w = bit w 63 →
    fld s F.FCL_SRC_CFG_SEV_MIN (msgSource w) ≤ msgSev w →
    flag s F.FCL_STAT_SELF = false →
    flag s F.FCL_SRC_CFG_ERRN (msgSource w) = true →
    flag s F.FCL_SRC_CFG_SAFE (msgSource w) = true →
    Ends (.faultMessage 0#64) s (fun t =>
      flag t F.FCL_STAT_ERRN_LATCH = true ∧
      safeState t = true)) ∧
  -- a fatal line enters the safe state ahead of its message
  (∀ (s : State) (w : Word) (rest : List Word),
    s.ckr.inReset = false →
    s.fcl.fatal = w :: rest →
    safeState s = false →
    flag s F.FCL_CAUSE_INFO_VALID = false →
    Ends (.fatalLine) s (fun t =>
      safeState t = true ∧
      rd t .FCL_CAUSE 0 = w ∧
      fld t F.FCL_CAUSE_INFO_REASON = 1 ∧
      rd t .FCL_LAST 0 = rd s .FCL_LAST 0)) ∧
  -- entry is idempotent
  (∀ (s : State) (w : Word) (rest : List Word),
    s.ckr.inReset = false →
    s.fcl.fatal = w :: rest →
    safeState s = true →
    Ends (.fatalLine) s (fun t =>
      t = { s with fcl := { s.fcl with fatal := rest } })) ∧
  -- FCL_SW_RAISE in range waits in the writer's places
  (∀ (s : State) (e : Nat) (w : Word),
    1024 ≤ msgSource w →
    128 ≤ msgKind w →
    msgSev w < 7 →
    e < 16 →
    (waitingAt s .svc).length < 4 →
    Ends (.fclSwRaise e w) s (fun t =>
      waitingAt t .svc = waitingAt s .svc ++ [w] ∧
      t.regs = s.regs ∧
      t.fcl.fatal = s.fcl.fatal)) ∧
  -- FCL_SW_RAISE out of range is ignored and counted
  (∀ (s : State) (e : Nat) (w : Word),
    (msgSource w < 1024 ∨ msgKind w < 128) →
    Ends (.fclSwRaise e w) s (fun t =>
      fld t F.FCL_CNT_LOST = min (fld s F.FCL_CNT_LOST + 1) (2 ^ F.FCL_CNT_LOST.w - 1) ∧
      t.fcl = s.fcl)) ∧
  -- FCL_SW_SET
  (∀ (s : State) (v : Word),
    1024 ≤ getBits v 0 11 →
    Ends (.fclSwSet v) s (fun t =>
      pendingBit t (getBits v 0 11) = true ∧
      (∀ n, n ≠ getBits v 0 11 → pendingBit t n = pendingBit s n))) ∧
  -- FCL_SW_SET of a hardware source
  (∀ (s : State) (v : Word),
    getBits v 0 11 < 1024 →
    Ends (.fclSwSet v) s (fun t =>
      t = s)) ∧
  -- FCL_PEND_k clears the bits written 1, level sources apart
  (∀ (s : State) (k n : Nat) (v : Word),
    k < 32 →
    n / 64 = k →
    ((n < 456 ∨ 460 ≤ n) ∧ (n < 896 ∨ 928 ≤ n)) →
    s.part.acts ≤ 4 →
    Ends (.pendingClear k v) s (fun t =>
      pendingBit t n = (pendingBit s n && !bit v (n % 64)))) ∧
  -- a level source that is asserted sets its bit again
  (∀ (s : State) (a : Nat) (v : Word),
    a < s.part.acts →
    (dcpOf s a).ring ≠ [] →
    s.part.acts ≤ 4 →
    Ends (.pendingClear 7 v) s (fun t =>
      pendingBit t (456 + a) = true)) ∧
  -- a claim takes the source and clears its bit
  (∀ (s : State) (c n : Nat),
    c < s.part.cores →
    claimOf s c = some n →
    ((n < 456 ∨ 460 ≤ n) ∧ (n < 896 ∨ 928 ≤ n)) →
    s.part.acts ≤ 4 →
    Ends (.fclClaim c) s (fun t =>
      t.bus.value = BitVec.ofNat 64 (n + 2 ^ 11) ∧
      t.bus.err = false ∧
      pendingBit t n = false)) ∧
  -- a claim with nothing presented
  (∀ (s : State) (c : Nat),
    claimOf s c = none →
    Ends (.fclClaim c) s (fun t =>
      t.bus.value = 0#64 ∧
      t.regs = s.regs)) ∧
  -- the source claimed is presented, of the highest PRIO, the lowest number
  (∀ (s : State) (c n : Nat), claimOf s c = some n → n < 2048 ∧ presented s c n = true ∧ ∀ m, m < 2048 → presented s c m = true → fld s F.FCL_SRC_CFG_PRIO m < fld s F.FCL_SRC_CFG_PRIO n ∨ (fld s F.FCL_SRC_CFG_PRIO m = fld s F.FCL_SRC_CFG_PRIO n ∧ n ≤ m)) ∧
  -- SAFE_ENTER
  (∀ (s : State) (e : Nat) (v : Word),
    bit v 0 = true →
    safeState s = false →
    flag s F.FCL_CAUSE_INFO_VALID = false →
    Ends (.safeEnter e v) s (fun t =>
      safeState t = true ∧
      rd t .FCL_LAST 0 = faultMsg 32 0x05 7 (e % 64) ∧
      rd t .FCL_CAUSE 0 = faultMsg 32 0x05 7 (e % 64) ∧
      fld t F.FCL_CAUSE_INFO_REASON = 5)) ∧
  -- an uncorrectable error of FCL is a self-fault
  (∀ (s : State) (x off : Nat),
    2 ≤ x →
    safeState s = false →
    flag s F.FCL_CAUSE_INFO_VALID = false →
    Ends (.selfCheckSweep x off) s (fun t =>
      flag t F.FCL_STAT_SELF = true ∧
      safeState t = true ∧
      rd t .FCL_CAUSE 0 = faultMsg 32 0x04 7 off ∧
      fld t F.FCL_CAUSE_INFO_REASON = 4)) ∧
  -- a corrected error of FCL is counted
  (∀ (s : State) (off : Nat),
    Ends (.selfCheckSweep 1 off) s (fun t =>
      fld t F.FCL_CNT_CORRECTED = min (fld s F.FCL_CNT_CORRECTED + 1) (2 ^ F.FCL_CNT_CORRECTED.w - 1) ∧
      t.fcl = s.fcl))

/-- O42. The event recorder. A firmware record enters the ring, is suppressed by its bucket, or is refused; the oldest record drains into the lowest free slot with the next SEQ; pages are persisted; EN loads once; EVR_DIRTY_k is read and cleared. (R550, R551, R552, R553, R554, R556, R562, R564, R565) -/
def Obligations.EventRecorder : Prop :=
  -- a firmware record is kept
  (∀ (s : State) (c : Nat) (v : Word),
    c < s.part.cores →
    bit v 14 = true →
    fwRecordValid (getBits v 0 10) (getBits v 32 32) = true →
    fld s F.EVR_RATE_PERIOD (getBits v 0 10) = 0 →
    s.evr.ring.length < 1024 →
    Ends (.evrFwRecord c v) s (fun t =>
      t.evr.ring = s.evr.ring ++ [{ code := getBits v 0 10, sev := getBits v 10 3, priv := bit v 13, pcycle := s.ckr.pcycle, time := now s, suppressed := tget (dflt 0) s.evr.suppressed (getBits v 0 10), tag := getBits v 32 32, p1 := rd s .EVR_FW_P (4 * c), p2 := rd s .EVR_FW_P (4 * c + 1), p3 := rd s .EVR_FW_P (4 * c + 2), p4 := rd s .EVR_FW_P (4 * c + 3) }] ∧
      fld t F.EVR_FW_CMD_STATUS c = 0)) ∧
  -- a record whose bucket is empty is suppressed and counted
  (∀ (s : State) (c : Nat) (v : Word),
    c < s.part.cores →
    bit v 14 = true →
    fwRecordValid (getBits v 0 10) (getBits v 32 32) = true →
    fld s F.EVR_RATE_PERIOD (getBits v 0 10) ≠ 0 →
    getBits v 10 3 ≠ 7 →
    fld s F.EVR_RATE_TOKENS (getBits v 0 10) = 0 →
    Ends (.evrFwRecord c v) s (fun t =>
      t.evr.ring = s.evr.ring ∧
      fld t F.EVR_FW_CMD_STATUS c = 0xF0 ∧
      tget (dflt 0) t.evr.suppressed (getBits v 0 10) = min (tget (dflt 0) s.evr.suppressed (getBits v 0 10) + 1) 65535)) ∧
  -- a record of a code firmware may not use is refused
  (∀ (s : State) (c : Nat) (v : Word),
    c < s.part.cores →
    bit v 14 = true →
    fwRecordValid (getBits v 0 10) (getBits v 32 32) = false →
    Ends (.evrFwRecord c v) s (fun t =>
      t.evr = s.evr ∧
      fld t F.EVR_FW_CMD_STATUS c = 0xF2)) ∧
  -- the codes firmware may use
  (∀ c p : Nat, fwRecordValid c p = true ↔ ((512 ≤ c ∧ c < 1024) ∨ c = 4) ∧ p < 65536) ∧
  -- the oldest record drains into the lowest free slot
  (∀ (s : State) (r : EvRec) (rest : List EvRec),
    evrDraining s = true →
    s.evr.ring = r :: rest →
    lowestFree s.evr.log 0 < 65536 →
    pageOpen s (lowestFree s.evr.log 0 / 64) = true →
    Ends (.ringDrain) s (fun t =>
      t.evr.ring = rest ∧
      tget (dflt none) t.evr.log (lowestFree s.evr.log 0) = some { sev := r.sev, seq := fld s F.EVR_SEQ_NEXT_SEQ, code := r.code } ∧
      fld t F.EVR_SEQ_NEXT_SEQ = (fld s F.EVR_SEQ_NEXT_SEQ + 1) % 2 ^ 48 ∧
      pendingBit t 49 = true)) ∧
  -- a record bound for a clean page waits while 16 pages are dirty
  (∀ (s : State) (r : EvRec) (rest : List EvRec),
    evrDraining s = true →
    s.evr.ring = r :: rest →
    lowestFree s.evr.log 0 < 65536 →
    pageOpen s (lowestFree s.evr.log 0 / 64) = false →
    Ends (.ringDrain) s (fun t =>
      t = s)) ∧
  -- a bucket gains a token up to BURST
  (∀ (s : State) (j : Nat),
    j < 1024 →
    fld s F.EVR_RATE_PERIOD j ≠ 0 →
    Ends (.tokenRefill j) s (fun t =>
      fld t F.EVR_RATE_TOKENS j = min (fld s F.EVR_RATE_TOKENS j + 1) (fld s F.EVR_RATE_BURST j) ∧
      t.evr = s.evr)) ∧
  -- the write of a dirty page starts
  (∀ (s : State) (p : Nat) (d : DirtyPage),
    s.evr.dirty.find? (fun x => decide (x.page = p)) = some d →
    d.writing = false →
    flag s F.EVR_CTL_MODE = false →
    persistAccepted s = true →
    Ends (.pagePersist p) s (fun t =>
      (t.evr.dirty.find? (fun x => decide (x.page = p))).map (fun x => (x.writing, x.again, x.image)) = some (true, false, (busRead s portShared (fld s F.EVR_LOG_BASE_BASE + 4096 * p) 4096).1.getD []) ∧
      t.evr.area = s.evr.area)) ∧
  -- a write that FLT does not accept keeps its page dirty
  (∀ (s : State) (p : Nat) (d : DirtyPage),
    s.evr.dirty.find? (fun x => decide (x.page = p)) = some d →
    d.writing = false →
    flag s F.EVR_CTL_MODE = false →
    persistAccepted s = false →
    Ends (.pagePersist p) s (fun t =>
      (t.evr.dirty.find? (fun x => decide (x.page = p))).map (fun x => (x.writing, x.failed)) = some (false, some (now s)) ∧
      flag t F.EVR_STAT_PERSIST_FAIL = true ∧
      t.evr.failing = true)) ∧
  -- a page write ends well: the log area holds the page, and it is clean
  (∀ (s : State) (p : Nat) (d : DirtyPage),
    s.evr.dirty.find? (fun x => decide (x.page = p)) = some d →
    d.writing = true →
    d.again = false →
    Ends (.pageWriteDone p true) s (fun t =>
      tget (dflt []) t.evr.area p = d.image ∧
      t.evr.dirty = s.evr.dirty.filter (fun x => decide (x.page ≠ p)) ∧
      t.evr.failing = false)) ∧
  -- a page write fails
  (∀ (s : State) (p : Nat) (d : DirtyPage),
    s.evr.dirty.find? (fun x => decide (x.page = p)) = some d →
    d.writing = true →
    Ends (.pageWriteDone p false) s (fun t =>
      (t.evr.dirty.find? (fun x => decide (x.page = p))).map (fun x => (x.writing, x.failed)) = some (false, some (now s)) ∧
      flag t F.EVR_STAT_PERSIST_FAIL = true ∧
      t.evr.area = s.evr.area)) ∧
  -- EN rises for the first time since the chip reset
  (∀ (s : State) (v : Word),
    bit v 0 = true →
    flag s F.BFM_DRAM_STAT_READY = true →
    flag s F.EVR_CTL_EN = false →
    s.evr.started = false →
    Ends (.evrEnable v) s (fun t =>
      flag t F.EVR_CTL_EN = true ∧
      flag t F.EVR_STAT_LOADING = true ∧
      t.evr.started = true ∧
      fld t F.EVR_CTL_MODE = getBits v 1 1 ∧
      fld t F.EVR_CTL_PERSIST = max 1 (getBits v 2 16))) ∧
  -- EN is ignored until DRAM is ready
  (∀ (s : State) (v : Word),
    flag s F.BFM_DRAM_STAT_READY = false →
    Ends (.evrEnable v) s (fun t =>
      flag t F.EVR_CTL_EN = false ∧
      t.evr = s.evr)) ∧
  -- loading ends with the log empty: EV_POWER_ON is record 0
  (∀ (s : State),
    flag s F.EVR_STAT_LOADING = true →
    flag s F.EVR_CTL_MODE = true →
    flag s F.EVR_CTL_EN = true →
    validSlots s (fld s F.EVR_LOG_BASE_BASE) = [] →
    flag s F.FCL_CAUSE_INFO_VALID = false →
    fld s F.EVR_RATE_PERIOD 0 = 0 →
    s.evr.ring.length < 1024 →
    Ends (.evrLoadDone) s (fun t =>
      flag t F.EVR_STAT_LOADING = false ∧
      flag t F.EVR_STAT_LOADED = true ∧
      fld t F.EVR_SEQ_NEXT_SEQ = 1 ∧
      tget (dflt none) t.evr.log 0 = some { sev := 2, seq := 0, code := 0 })) ∧
  -- EVR_DIRTY_k is read and cleared
  (∀ (s : State) (k : Nat),
    k < 16 →
    Ends (.evrDirtyRead k) s (fun t =>
      t.bus.value = rd s .EVR_DIRTY k ∧
      t.bus.err = false ∧
      rd t .EVR_DIRTY k = 0#64 ∧
      (∀ j, j ≠ k → rd t .EVR_DIRTY j = rd s .EVR_DIRTY j))) ∧
  -- EVR_RATE_i sets TOKENS to the new BURST
  (∀ (s : State) (j : Nat) (v : Word),
    j < 1024 →
    Ends (.evrRateWrite j v) s (fun t =>
      fld t F.EVR_RATE_BURST j = getBits v 0 8 ∧
      fld t F.EVR_RATE_PERIOD j = getBits v 8 16 ∧
      fld t F.EVR_RATE_TOKENS j = getBits v 0 8))

/-- O43. The OTP read, provisioning, boot and the trial. The OTP read gives the life-cycle state; the responder serves its requests in their states; the boot ROM verifies the slot or enters the dead state; a warm restart holds cores and Shuttles; CONFIRM ends a trial and FAIL fails it. (R568, R569, R571, R578, R579, Table 16.16) -/
def Obligations.SecBootAndProvisioning : Prop :=
  -- the OTP read
  (∀ (s : State) (bad : List OtpField),
    s.sec.boot = .waitOtp →
    Ends (.otpRead bad) s (fun t =>
      t.sec.boot = .loading ∧
      flag t F.CKR_READY_OTP = true ∧
      flag t F.CKR_READY_SIDEBAND = true ∧
      fld t F.SEC_LC_STATE = lcState s.sec.otp ∧
      (flag t F.SEC_LC_DEBUG_OPEN = decide (lcState s.sec.otp = 1 ∨ lcState s.sec.otp = 3)) ∧
      (∀ f, f ∈ bad → f ∈ t.sec.otp.damaged) ∧
      (∀ f, f ∈ t.sec.otp.damaged → faultMsg 64 0x77 7 (otpCode f) ∈ t.fcl.fatal))) ∧
  -- the life-cycle state is that of the last log entry, DECOMMISSIONED where its complement does not match
  (∀ o : Otp, (o.log = [] → lcState o = 0) ∧ ∀ e, o.log.getLast? = some e → ((e % 16 + e / 16 % 16 = 15 → e % 16 ≤ 4 → lcState o = e % 16) ∧ (e % 16 + e / 16 % 16 ≠ 15 → lcState o = 4))) ∧
  -- GET_STATE; the boot ROM version is the spec's to give, so a free word
  (∀ (s : State),
    ready s F.CKR_READY_SIDEBAND = true →
    s.sec.boot = .provisioning →
    (fld s F.SEC_LC_STATE = 0 ∨ fld s F.SEC_LC_STATE = 1) →
    Ends (.getState) s (fun t =>
      t.sec = s.sec ∧
      t.regs = s.regs ∧
      (∃ v, t.mgt.out = s.mgt.out ++ [.provision 0 [rd s .SEC_LC 0, rd s .SEC_OTP_STAT 0, BitVec.ofNat 64 (s.sec.otp.serial.getD 0), rd s .SHT_ROM_ID 0, v]]))) ∧
  -- GET_NONCE keeps the nonce it returns
  (∀ (s : State),
    ready s F.CKR_READY_SIDEBAND = true →
    s.sec.boot = .provisioning →
    (fld s F.SEC_LC_STATE = 0 ∨ fld s F.SEC_LC_STATE = 1) →
    Ends (.getNonce) s (fun t =>
      t.sec.respNonce.isSome = true ∧
      t.sec.otp = s.sec.otp ∧
      t.regs = s.regs ∧
      (∃ n, t.sec.respNonce = some n ∧ t.mgt.out = s.mgt.out ++ [.provision 0 (natWords n 6)]))) ∧
  -- GET_SESSION_KEY keeps the private key
  (∀ (s : State),
    ready s F.CKR_READY_SIDEBAND = true →
    s.sec.boot = .provisioning →
    fld s F.SEC_LC_STATE = 0 →
    Ends (.getSessionKey) s (fun t =>
      t.sec.session.isSome = true ∧
      t.sec.otp = s.sec.otp ∧
      t.regs = s.regs ∧
      (∃ n, t.sec.session = some n ∧ t.mgt.out = s.mgt.out ++ [.provision 0 (natWords (Config.sessionPublic n) 13)]))) ∧
  -- PROVISION with a nonce, a session and nothing burned
  (∀ (s : State) (serial pub wrapped sig n k : Nat),
    ready s F.CKR_READY_SIDEBAND = true →
    s.sec.boot = .provisioning →
    fld s F.SEC_LC_STATE = 0 →
    s.sec.respNonce = some n →
    s.sec.session = some k →
    s.sec.otp.damaged = [] →
    s.sec.otp.serial = none ∧ s.sec.otp.secret = none ∧ s.sec.otp.patchKey = none →
    Ends (.provision serial pub wrapped sig) s (fun t =>
      ((Config.provisionSigOk n serial wrapped sig = false → t.mgt.out = s.mgt.out ++ [.provision 15 []] ∧ t.sec = s.sec)) ∧
      ((Config.provisionSigOk n serial wrapped sig = true → Config.unwrapPatchKey k pub wrapped = none → t.mgt.out = s.mgt.out ++ [.provision 3 []] ∧ t.sec = s.sec)) ∧
      ((∀ key, Config.provisionSigOk n serial wrapped sig = true → Config.unwrapPatchKey k pub wrapped = some key → t.mgt.out = s.mgt.out ++ [.provision 0 []] ∧ t.sec.otp.serial = some serial ∧ t.sec.otp.patchKey = some key ∧ t.sec.otp.secret.isSome = true ∧ t.sec.otp.log = s.sec.otp.log ++ [0xE1] ∧ t.ckr.resetRequested = true)))) ∧
  -- PROVISION without a nonce
  (∀ (s : State) (serial pub wrapped sig : Nat),
    ready s F.CKR_READY_SIDEBAND = true →
    s.sec.boot = .provisioning →
    fld s F.SEC_LC_STATE = 0 →
    s.sec.respNonce = none →
    Ends (.provision serial pub wrapped sig) s (fun t =>
      t.mgt.out = s.mgt.out ++ [.provision 15 []] ∧
      t.sec = s.sec)) ∧
  -- PROVISION outside BLANK is refused
  (∀ (s : State) (serial pub wrapped sig : Nat),
    ready s F.CKR_READY_SIDEBAND = true →
    s.sec.boot = .provisioning →
    fld s F.SEC_LC_STATE ≠ 0 →
    Ends (.provision serial pub wrapped sig) s (fun t =>
      t.mgt.out = s.mgt.out ++ [.provision 2 []] ∧
      t.sec = s.sec)) ∧
  -- BURN_ROOTS with no root burned
  (∀ (s : State) (roots : RootList) (hda admin : Option Nat) (j : Nat),
    ready s F.CKR_READY_SIDEBAND = true →
    s.sec.boot = .provisioning →
    fld s F.SEC_LC_STATE = 1 →
    rootBits s.sec.otp = 0 →
    s.sec.otp.damaged = [] →
    s.sec.otp.hdaRoot = none ∧ s.sec.otp.adminRoot = none →
    j < 4 →
    (roots.getD j none).isSome = true →
    Ends (.burnRoots roots hda admin) s (fun t =>
      t.mgt.out = s.mgt.out ++ [.provision 0 []] ∧
      rootOf t.sec.otp j = roots.getD j none ∧
      t.sec.otp.hdaRoot = hda ∧
      t.sec.otp.adminRoot = admin ∧
      t.sec.otp.serial = s.sec.otp.serial ∧
      t.sec.otp.log = s.sec.otp.log)) ∧
  -- RESET asks for a chip reset
  (∀ (s : State),
    ready s F.CKR_READY_SIDEBAND = true →
    s.sec.boot = .provisioning →
    (fld s F.SEC_LC_STATE = 0 ∨ fld s F.SEC_LC_STATE = 1) →
    Ends (.reset) s (fun t =>
      t.mgt.out = s.mgt.out ++ [.provision 0 []] ∧
      t.ckr = { s.ckr with resetRequested := true } ∧
      t.sec = s.sec)) ∧
  -- boot in BLANK runs the responder
  (∀ (s : State),
    s.sec.boot = .loading →
    flag s F.SEC_BOOT_STAT_WARM = false →
    otpFatal s.sec.otp = false →
    lcState s.sec.otp = 0 →
    Ends (.boot) s (fun t =>
      t = { s with sec := { s.sec with boot := .provisioning } })) ∧
  -- OTP damage of R568 enters the dead state
  (∀ (s : State),
    s.sec.boot = .loading →
    flag s F.SEC_BOOT_STAT_WARM = false →
    otpFatal s.sec.otp = true →
    Ends (.boot) s (fun t =>
      t.sec.boot = .dead ∧
      t.sec.keys = [])) ∧
  -- a slot that holds no image enters the dead state
  (∀ (s : State),
    s.sec.boot = .loading →
    (flag s F.SEC_BOOT_STAT_WARM = true ∨ (otpFatal s.sec.otp = false ∧ 2 ≤ lcState s.sec.otp)) →
    s.sec.slot = none →
    Ends (.boot) s (fun t =>
      t.sec.boot = .dead)) ∧
  -- a slot is verified: header, length, signature, SVN, failure mark
  (∀ (s : State) (img : List Byte),
    s.sec.boot = .loading →
    (flag s F.SEC_BOOT_STAT_WARM = true ∨ (otpFatal s.sec.otp = false ∧ 2 ≤ lcState s.sec.otp)) →
    s.sec.slot = some img →
    Ends (.boot) s (fun t =>
      (((headerOk (img.take 4096) = false ∨ img.length < 4096 * hdrN (img.take 4096) ∨ imageSigner s.sec.otp img (hdrN (img.take 4096)) = none ∨ hdrSvn (img.take 4096) < s.sec.otp.svn ∨ s.sec.failMark = true) → t.sec.boot = .dead ∧ t.sec.keys = [])) ∧
      ((∀ j, headerOk (img.take 4096) = true → 4096 * hdrN (img.take 4096) ≤ img.length → imageSigner s.sec.otp img (hdrN (img.take 4096)) = some j → s.sec.otp.svn ≤ hdrSvn (img.take 4096) → s.sec.failMark = false → t.sec.boot = .running ∧ flag t F.SVC_CORE_CTL_RUN 0 = true ∧ flag t F.SEC_BOOT_STAT_TRIAL = s.sec.trialMark ∧ fld t F.SEC_BOOT_STAT_ROOT = 2 ^ j ∧ t.sec.header = img.take 80 ∧ t.sec.trialAt = if s.sec.trialMark then some (now s) else none)))) ∧
  -- a warm restart
  (∀ (s : State) (c k : Nat),
    s.sec.boot = .running →
    flag s F.GLY_DRAIN_DONE = true →
    c < s.part.cores →
    k < s.part.shuttles →
    Ends (.warmRestart) s (fun t =>
      t.sec.boot = .loading ∧
      flag t F.SEC_BOOT_STAT_WARM = true ∧
      flag t F.SVC_CORE_CTL_RUN c = false ∧
      flag t F.SHT_S_CTL_EN k = false ∧
      t.gly.slots = s.gly.slots ∧
      t.mem = s.mem ∧
      t.flt = s.flt ∧
      t.sec.otp = s.sec.otp)) ∧
  -- CONFIRM of an image on trial
  (∀ (s : State),
    onTrial s = true →
    s.sec.otp.damaged = [] →
    Ends (.confirm) s (fun t =>
      flag t F.SEC_BOOT_STAT_TRIAL = false ∧
      t.sec.trialMark = false ∧
      t.sec.trialAt = none ∧
      (t.sec.otp.svn = if leAt s.sec.header 73 1 = 1 then min 64 (max s.sec.otp.svn (hdrSvn s.sec.header)) else s.sec.otp.svn) ∧
      fld t F.SEC_BOOT_STAT_SVN = t.sec.otp.svn % 128 ∧
      (∀ j, j < 4 → Nat.testBit t.sec.otp.revoke j = (Nat.testBit s.sec.otp.revoke j || (Nat.testBit (leAt s.sec.header 72 1) j && !Nat.testBit (fld s F.SEC_BOOT_STAT_ROOT) j))))) ∧
  -- CONFIRM off trial does nothing
  (∀ (s : State),
    onTrial s = false →
    Ends (.confirm) s (fun t =>
      t = s)) ∧
  -- FAIL of an image on trial
  (∀ (s : State),
    onTrial s = true →
    Ends (.fail) s (fun t =>
      t.sec.failMark = true ∧
      t.sec.trialFailed = true ∧
      t.sec.trialAt = none ∧
      t.sec.trialMark = s.sec.trialMark ∧
      faultMsg 64 0x76 7 0 ∈ t.fcl.fatal)) ∧
  -- the trial timer lapses
  (∀ (s : State) (t0 : Nat),
    s.sec.trialAt = some t0 →
    t0 + 30000 ≤ now s →
    onTrial s = true →
    Ends (.trialTimeout) s (fun t =>
      t.sec.failMark = true ∧
      t.sec.trialFailed = true ∧
      t.sec.trialAt = none ∧
      t.sec.trialMark = s.sec.trialMark ∧
      faultMsg 64 0x76 7 0 ∈ t.fcl.fatal)) ∧
  -- the trial timer runs on
  (∀ (s : State) (t0 : Nat),
    s.sec.trialAt = some t0 →
    now s < t0 + 30000 →
    Ends (.trialTimeout) s (fun t =>
      t = s)) ∧
  -- 25 s of the trial timer
  (∀ (s : State) (t0 : Nat),
    s.sec.trialAt = some t0 →
    t0 + 25000 ≤ now s →
    Ends (.trialTimerWarning) s (fun t =>
      pendingBit t 70 = true ∧
      t.sec = s.sec)) ∧
  -- 2 s after the safe state of a failed trial
  (∀ (s : State),
    s.sec.trialFailed = true →
    safeState s = true →
    s.fcl.safeAt + 2000 ≤ now s →
    Ends (.trialFailReset) s (fun t =>
      t = { s with ckr := { s.ckr with resetRequested := true } }))

/-- O44. Staging and commit. The first chunk opens the area for its source, another source is refused, a byte received twice is refused; a commit checks the owner, the folios, the signature, the SVN and the ROM_ID, and ends with the slot programmed; the area is freed at the end, by an abort and after 15 minutes. (R574, R575, R576, R593, R594) -/
def Obligations.FirmwareUpdate : Prop :=
  -- the first chunk, part of one folio, opens the area for its source
  (∀ (s : State) (v : Word) (d : List Byte),
    flag s F.SEC_UPD_CMD_BUSY = false →
    fld s F.SEC_UPD_STAT_STATE = 0 →
    s.sec.folios = [] →
    1 ≤ getBits v 2 3 ∧ getBits v 2 3 ≤ 6 →
    getBits v 5 25 % 4 = 0 ∧ getBits v 30 24 % 4 = 0 ∧ 4 ≤ getBits v 30 24 ∧ getBits v 5 25 % 4096 + getBits v 30 24 < 4096 ∧ getBits v 5 25 + getBits v 30 24 ≤ 0x2000000 →
    regionOf s (fld s F.SEC_UPD_ADDR_ADDR) = .dram →
    (busRead (setFlds s 0 [(F.SEC_UPD_CMD_OP, 0), (F.SEC_UPD_CMD_SOURCE, getBits v 2 3), (F.SEC_UPD_CMD_OFFSET, getBits v 5 25), (F.SEC_UPD_CMD_LEN, getBits v 30 24)]) portSec (fld s F.SEC_UPD_ADDR_ADDR) (getBits v 30 24)).1 = some d →
    (busWrite (busRead (setFlds s 0 [(F.SEC_UPD_CMD_OP, 0), (F.SEC_UPD_CMD_SOURCE, getBits v 2 3), (F.SEC_UPD_CMD_OFFSET, getBits v 5 25), (F.SEC_UPD_CMD_LEN, getBits v 30 24)]) portSec (fld s F.SEC_UPD_ADDR_ADDR) (getBits v 30 24)).2 portSec (fld s F.SEC_STAGE_BASE_BASE + getBits v 5 25) d).1 = true →
    Ends (.chunk v) s (fun t =>
      fld t F.SEC_UPD_STAT_STATE = 1 ∧
      fld t F.SEC_UPD_STAT_OWNER = getBits v 2 3 ∧
      fld t F.SEC_UPD_CMD_STATUS = 0 ∧
      folioOf t (getBits v 5 25 / 4096) = { mask := folioMask (getBits v 5 25) (getBits v 30 24) (getBits v 5 25 / 4096) } ∧
      fld t F.SEC_UPD_STAT_GOOD = 0 ∧
      t.sec.ownerAt = now s ∧
      t.mem = (busWrite (busRead (setFlds s 0 [(F.SEC_UPD_CMD_OP, 0), (F.SEC_UPD_CMD_SOURCE, getBits v 2 3), (F.SEC_UPD_CMD_OFFSET, getBits v 5 25), (F.SEC_UPD_CMD_LEN, getBits v 30 24)]) portSec (fld s F.SEC_UPD_ADDR_ADDR) (getBits v 30 24)).2 portSec (fld s F.SEC_STAGE_BASE_BASE + getBits v 5 25) d).2.mem)) ∧
  -- a chunk of another source changes nothing but STATUS
  (∀ (s : State) (v : Word),
    flag s F.SEC_UPD_CMD_BUSY = false →
    fld s F.SEC_UPD_STAT_STATE ≠ 0 →
    fld s F.SEC_UPD_STAT_OWNER ≠ getBits v 2 3 →
    Ends (.chunk v) s (fun t =>
      fld t F.SEC_UPD_CMD_STATUS = 8 ∧
      t.sec = s.sec ∧
      t.mem = s.mem ∧
      rd t .SEC_UPD_STAT 0 = rd s .SEC_UPD_STAT 0)) ∧
  -- a chunk over a byte already received is refused
  (∀ (s : State) (v : Word),
    flag s F.SEC_UPD_CMD_BUSY = false →
    fld s F.SEC_UPD_STAT_STATE = 1 →
    fld s F.SEC_UPD_STAT_OWNER = getBits v 2 3 →
    1 ≤ getBits v 2 3 ∧ getBits v 2 3 ≤ 6 →
    getBits v 5 25 % 4 = 0 ∧ getBits v 30 24 % 4 = 0 ∧ 4 ≤ getBits v 30 24 ∧ getBits v 30 24 ≤ 0x800000 ∧ getBits v 5 25 + getBits v 30 24 ≤ 0x2000000 →
    regionOf s (fld s F.SEC_UPD_ADDR_ADDR) = .dram →
    (chunkFolios (getBits v 5 25) (getBits v 30 24)).any (fun k => (folioOf s k).mask &&& folioMask (getBits v 5 25) (getBits v 30 24) k != 0) = true →
    Ends (.chunk v) s (fun t =>
      fld t F.SEC_UPD_CMD_STATUS = 9 ∧
      t.sec = s.sec ∧
      t.mem = s.mem)) ∧
  -- a commit of another source
  (∀ (s : State) (v : Word),
    flag s F.SEC_UPD_CMD_BUSY = false →
    (fld s F.SEC_UPD_STAT_STATE ≠ 1 ∨ fld s F.SEC_UPD_STAT_OWNER ≠ getBits v 2 3) →
    Ends (.commit v) s (fun t =>
      fld t F.SEC_UPD_CMD_STATUS = 8 ∧
      t.sec = s.sec)) ∧
  -- a commit before every folio is GOOD
  (∀ (s : State) (v : Word),
    flag s F.SEC_UPD_CMD_BUSY = false →
    fld s F.SEC_UPD_STAT_STATE = 1 →
    fld s F.SEC_UPD_STAT_OWNER = getBits v 2 3 →
    (fld s F.SEC_UPD_STAT_N = 0 ∨ fld s F.SEC_UPD_STAT_GOOD < fld s F.SEC_UPD_STAT_N) →
    Ends (.commit v) s (fun t =>
      fld t F.SEC_UPD_CMD_STATUS = 7 ∧
      pendingBit t 66 = true ∧
      fld t F.SEC_UPD_STAT_STATE = 1 ∧
      t.sec.slot = s.sec.slot)) ∧
  -- a commit of a whole image is verified
  (∀ (s : State) (v : Word),
    flag s F.SEC_UPD_CMD_BUSY = false →
    fld s F.SEC_UPD_STAT_STATE = 1 →
    fld s F.SEC_UPD_STAT_OWNER = getBits v 2 3 →
    fld s F.SEC_UPD_STAT_N ≠ 0 ∧ fld s F.SEC_UPD_STAT_N ≤ fld s F.SEC_UPD_STAT_GOOD →
    Ends (.commit v) s (fun t =>
      ((imageSigner s.sec.otp (stageBytes s 0 (4096 * fld s F.SEC_UPD_STAT_N)) (fld s F.SEC_UPD_STAT_N) = none → fld t F.SEC_UPD_CMD_STATUS = 3 ∧ fld t F.SEC_UPD_STAT_STATE = 0 ∧ t.sec.folios = [] ∧ t.sec.slot = s.sec.slot)) ∧
      ((imageSigner s.sec.otp (stageBytes s 0 (4096 * fld s F.SEC_UPD_STAT_N)) (fld s F.SEC_UPD_STAT_N) ≠ none → hdrSvn (stageBytes s 0 (4096 * fld s F.SEC_UPD_STAT_N)) < s.sec.otp.svn → fld t F.SEC_UPD_CMD_STATUS = 5 ∧ fld t F.SEC_UPD_STAT_STATE = 0 ∧ t.sec.slot = s.sec.slot)) ∧
      ((imageSigner s.sec.otp (stageBytes s 0 (4096 * fld s F.SEC_UPD_STAT_N)) (fld s F.SEC_UPD_STAT_N) ≠ none → s.sec.otp.svn ≤ hdrSvn (stageBytes s 0 (4096 * fld s F.SEC_UPD_STAT_N)) → leAt (stageBytes s 0 (4096 * fld s F.SEC_UPD_STAT_N)) 64 4 = 0 → fld t F.SEC_UPD_STAT_STATE = 2 ∧ flag t F.SEC_UPD_CMD_BUSY = true ∧ t.sec.commit = some (stageBytes s 0 (4096 * fld s F.SEC_UPD_STAT_N)) ∧ t.sec.slot = none ∧ t.sec.trialMark = false)))) ∧
  -- programming ends well
  (∀ (s : State) (img : List Byte),
    s.sec.commit = some img →
    Ends (.commitDone true) s (fun t =>
      t.sec.slot = some img ∧
      t.sec.trialMark = true ∧
      t.sec.commit = none ∧
      fld t F.SEC_UPD_STAT_STATE = 0 ∧
      fld t F.SEC_UPD_CMD_STATUS = 0 ∧
      flag t F.SEC_UPD_CMD_BUSY = false ∧
      pendingBit t 66 = true ∧
      t.sec.folios = [])) ∧
  -- programming fails: the slot stays invalid
  (∀ (s : State) (img : List Byte),
    s.sec.commit = some img →
    Ends (.commitDone false) s (fun t =>
      t.sec.slot = s.sec.slot ∧
      fld t F.SEC_UPD_STAT_STATE = 0 ∧
      fld t F.SEC_UPD_CMD_STATUS = 0x0B ∧
      flag t F.SEC_UPD_CMD_BUSY = false)) ∧
  -- the owner aborts
  (∀ (s : State) (v : Word),
    flag s F.SEC_UPD_CMD_BUSY = false →
    fld s F.SEC_UPD_STAT_STATE ≠ 0 →
    fld s F.SEC_UPD_STAT_OWNER = getBits v 2 3 →
    Ends (.abort v) s (fun t =>
      fld t F.SEC_UPD_STAT_STATE = 0 ∧
      fld t F.SEC_UPD_STAT_OWNER = 0 ∧
      t.sec.folios = [] ∧
      fld t F.SEC_UPD_CMD_STATUS = 0)) ∧
  -- an abort of another source
  (∀ (s : State) (v : Word),
    flag s F.SEC_UPD_CMD_BUSY = false →
    (fld s F.SEC_UPD_STAT_STATE = 0 ∨ fld s F.SEC_UPD_STAT_OWNER ≠ getBits v 2 3) →
    Ends (.abort v) s (fun t =>
      fld t F.SEC_UPD_CMD_STATUS = 8 ∧
      t.sec = s.sec)) ∧
  -- 15 minutes without a command of the owner
  (∀ (s : State),
    fld s F.SEC_UPD_STAT_STATE = 1 →
    s.sec.ownerAt + 900000 ≤ now s →
    Ends (.stagingIdleTimeout) s (fun t =>
      fld t F.SEC_UPD_STAT_STATE = 0 ∧
      fld t F.SEC_UPD_STAT_OWNER = 0 ∧
      t.sec.folios = []))

/-- O45. Keys, ranges, signatures and the life cycle. GENKEY, UNLOCK, LOCK and REWRAP act on a key slot and its blob; a range that overlaps another is refused; SEC signs with the alias key; a transition is taken by Table 16.6, wipes memory and asks for a chip reset; a repair token re-pairs. (R567, R584, R585, R586, R587, R588, R589, R590) -/
def Obligations.KeysAndLifeCycle : Prop :=
  -- GENKEY replaces the key and its blob
  (∀ (s : State) (v : Word),
    getBits v 2 8 ≤ 128 →
    fld s F.SEC_LC_STATE ≠ 4 →
    Ends (.genkey v) s (fun t =>
      fld t F.SEC_KEY_CMD_STATUS = 0 ∧
      pendingBit t 68 = true ∧
      (keyOf t (getBits v 2 8)).isSome = true ∧
      t.flt = s.flt ∧
      (∃ k, keyOf t (getBits v 2 8) = some k ∧ blobOf t (getBits v 2 8) = some { key := k, secret := s.sec.otp.secret.getD 0, epoch := s.sec.otp.epoch, cred := credFor s (getBits v 2 8) }) ∧
      (∀ m, m ≠ getBits v 2 8 → keyOf t m = keyOf s m ∧ blobOf t m = blobOf s m))) ∧
  -- GENKEY of the tier key sends the tier to UNFORMATTED
  (∀ (s : State) (v : Word),
    getBits v 2 8 = 129 →
    fld s F.SEC_LC_STATE ≠ 4 →
    fltState s ≠ .off →
    Ends (.genkey v) s (fun t =>
      fltState t = .unformatted ∧
      t.flt.map = [] ∧
      t.flt.formatted = false ∧
      t.flt.retired = s.flt.retired)) ∧
  -- GENKEY in DECOMMISSIONED is refused
  (∀ (s : State) (v : Word),
    getBits v 2 8 ≤ 129 →
    fld s F.SEC_LC_STATE = 4 →
    Ends (.genkey v) s (fun t =>
      fld t F.SEC_KEY_CMD_STATUS = 2 ∧
      t.sec = s.sec)) ∧
  -- UNLOCK in DECOMMISSIONED is refused
  (∀ (s : State) (v : Word),
    getBits v 2 8 ≤ 129 →
    fld s F.SEC_LC_STATE = 4 →
    Ends (.unlock v) s (fun t =>
      fld t F.SEC_KEY_CMD_STATUS = 2 ∧
      t.sec = s.sec)) ∧
  -- REWRAP in DECOMMISSIONED is refused
  (∀ (s : State) (v : Word),
    getBits v 2 8 ≤ 129 →
    fld s F.SEC_LC_STATE = 4 →
    Ends (.rewrap v) s (fun t =>
      fld t F.SEC_KEY_CMD_STATUS = 2 ∧
      t.sec = s.sec)) ∧
  -- a slot that does not exist
  (∀ (s : State) (v : Word),
    129 < getBits v 2 8 →
    Ends (.lock v) s (fun t =>
      fld t F.SEC_KEY_CMD_STATUS = 0x0A ∧
      t.sec = s.sec)) ∧
  -- UNLOCK under the credential in force
  (∀ (s : State) (v : Word) (b : Blob),
    getBits v 2 8 ≤ 129 →
    fld s F.SEC_LC_STATE ≠ 4 →
    blobOf s (getBits v 2 8) = some b →
    b = wrapKey s (getBits v 2 8) b.key →
    Ends (.unlock v) s (fun t =>
      fld t F.SEC_KEY_CMD_STATUS = 0 ∧
      keyOf t (getBits v 2 8) = some b.key ∧
      t.sec.blobs = s.sec.blobs)) ∧
  -- UNLOCK with a wrong credential
  (∀ (s : State) (v : Word) (b : Blob),
    getBits v 2 8 ≤ 129 →
    fld s F.SEC_LC_STATE ≠ 4 →
    blobOf s (getBits v 2 8) = some b →
    b ≠ wrapKey s (getBits v 2 8) b.key →
    Ends (.unlock v) s (fun t =>
      fld t F.SEC_KEY_CMD_STATUS = 0x0D ∧
      t.sec = s.sec)) ∧
  -- LOCK clears the key slot
  (∀ (s : State) (v : Word),
    getBits v 2 8 ≤ 129 →
    Ends (.lock v) s (fun t =>
      fld t F.SEC_KEY_CMD_STATUS = 0 ∧
      keyOf t (getBits v 2 8) = none ∧
      t.sec.blobs = s.sec.blobs)) ∧
  -- REWRAP of an unlocked slot
  (∀ (s : State) (v : Word) (k : Nat) (b : Blob),
    getBits v 2 8 ≤ 129 →
    fld s F.SEC_LC_STATE ≠ 4 →
    keyOf s (getBits v 2 8) = some k →
    blobOf s (getBits v 2 8) = some b →
    Ends (.rewrap v) s (fun t =>
      fld t F.SEC_KEY_CMD_STATUS = 0 ∧
      blobOf t (getBits v 2 8) = some (wrapKey s (getBits v 2 8) k) ∧
      t.sec.keys = s.sec.keys)) ∧
  -- a range that overlaps none is written
  (∀ (s : State) (n : Nat) (v : Word),
    0 < n →
    n < 129 →
    fld s F.SEC_LC_STATE ≠ 4 →
    (bit v 50 = false ∨ rangeOverlaps s n (getBits v 40 7) (getBits v 0 40) (fld s F.SEC_RANGE_LEN_BLOCKS n) = false) →
    Ends (.rangeWrite n v) s (fun t =>
      rd t .SEC_RANGE n = v &&& 0x7FFFFFFFFFFFF#64 ∧
      (∀ m, m ≠ n → rd t .SEC_RANGE m = rd s .SEC_RANGE m) ∧
      t.sec = s.sec)) ∧
  -- a range that overlaps another is refused
  (∀ (s : State) (n : Nat) (v : Word),
    0 < n →
    n < 129 →
    bit v 50 = true →
    rangeOverlaps s n (getBits v 40 7) (getBits v 0 40) (fld s F.SEC_RANGE_LEN_BLOCKS n) = true →
    Ends (.rangeWrite n v) s (fun t =>
      t = s)) ∧
  -- entry 0 begins at LBA 0
  (∀ (s : State) (v : Word),
    fld s F.SEC_LC_STATE ≠ 4 →
    Ends (.rangeWrite 0 v) s (fun t =>
      fld t F.SEC_RANGE_FIRST 0 = 0 ∧
      fld t F.SEC_RANGE_RLOCK 0 = getBits v 47 1 ∧
      fld t F.SEC_RANGE_WLOCK 0 = getBits v 48 1)) ∧
  -- in DECOMMISSIONED every range stays locked
  (∀ (s : State) (n : Nat) (v : Word),
    n < 129 →
    fld s F.SEC_LC_STATE = 4 →
    Ends (.rangeWrite n v) s (fun t =>
      (flag s F.SEC_RANGE_RLOCK n = true → flag t F.SEC_RANGE_RLOCK n = true) ∧
      (flag s F.SEC_RANGE_WLOCK n = true → flag t F.SEC_RANGE_WLOCK n = true))) ∧
  -- SIGN with an alias key
  (∀ (s : State) (v : Word) (j : Nat),
    s.sec.aliasOf ≠ [] →
    j < 12 →
    Ends (.sign v) s (fun t =>
      fld t F.SEC_SIGN_CMD_STATUS = 0 ∧
      pendingBit t 69 = true ∧
      t.sec = s.sec ∧
      rd t .SEC_SIGN_OUT j = Config.signWord s.sec.aliasOf ((List.range 6).map (fun w => tget (dflt 0#64) s.sec.digest w)) j)) ∧
  -- a read of SEC_NONCE; the sixth completes a nonce
  (∀ (s : State),
    s.sec.nonceRead.length < 6 →
    Ends (.secNonceRead) s (fun t =>
      t.sec.nonceRead = s.sec.nonceRead ++ [t.bus.value] ∧
      (t.sec.nonce = if s.sec.nonceRead.length = 5 then some t.sec.nonceRead else none) ∧
      t.bus.err = false ∧
      t.regs = s.regs)) ∧
  -- a root hash burned in MANUFACTURE or RETURN
  (∀ (s : State) (v : Word) (j : Nat) (d : List Byte),
    (fld s F.SEC_LC_STATE = 1 ∨ fld s F.SEC_LC_STATE = 3) →
    j < 4 →
    getBits v 0 4 = 3 + j →
    rootOf s.sec.otp j = none →
    s.sec.otp.damaged = [] →
    (busRead (setFlds s 0 [(F.SEC_OTP_CMD_FIELD, getBits v 0 4), (F.SEC_OTP_CMD_GO, 0)]) portSec (fld s F.SEC_OTP_ADDR_ADDR) 48).1 = some d →
    Ends (.otpBurn v) s (fun t =>
      rootOf t.sec.otp j = some (leNat d) ∧
      fld t F.SEC_OTP_CMD_STATUS = 0 ∧
      t.sec.otp.log = s.sec.otp.log ∧
      t.sec.otp.svn = s.sec.otp.svn)) ∧
  -- a field burned already, or outside its states
  (∀ (s : State) (v : Word) (j : Nat),
    getBits v 0 4 = 3 + j →
    j < 4 →
    ((fld s F.SEC_LC_STATE ≠ 1 ∧ fld s F.SEC_LC_STATE ≠ 3) ∨ (rootOf s.sec.otp j).isSome = true) →
    Ends (.otpBurn v) s (fun t =>
      t.sec = s.sec ∧
      fld t F.SEC_OTP_CMD_STATUS = (if fld s F.SEC_LC_STATE ≠ 1 ∧ fld s F.SEC_LC_STATE ≠ 3 then 2 else 0x0C))) ∧
  -- RETURN to FIELD at a request
  (∀ (s : State) (v : Word),
    getBits v 0 3 = 2 →
    lcState s.sec.otp = 3 →
    s.sec.otp.log.length < 31 →
    s.sec.otp.damaged = [] →
    lcReady (setFlds s 0 [(F.SEC_LC_REQ_TARGET, getBits v 0 3), (F.SEC_LC_REQ_DISCARD_DIRTY, getBits v 3 1)]) = true →
    Ends (.lifecycleTransition v) s (fun t =>
      lcState t.sec.otp = 2 ∧
      t.sec.otp.log = s.sec.otp.log ++ [0xD2] ∧
      t.ckr.resetRequested = true ∧
      t.sec.lcEvent = some (lcState s.sec.otp, 2) ∧
      fld t F.SEC_LC_REQ_STATUS = 0 ∧
      pendingBit t 67 = true ∧
      t.syc.lines = [] ∧
      t.l2 = [] ∧
      t.gly.slots = [] ∧
      t.evr.ring = [] ∧
      (∀ a, dramBase ≤ a → a < dramBase + 2 ^ 36 → readByte t a = 0))) ∧
  -- FIELD to RETURN asks for a token
  (∀ (s : State) (v : Word),
    getBits v 0 3 = 3 →
    lcState s.sec.otp = 2 →
    s.sec.otp.log.length < 31 →
    s.sec.otp.damaged = [] →
    lcReady (setFlds s 0 [(F.SEC_LC_REQ_TARGET, getBits v 0 3), (F.SEC_LC_REQ_DISCARD_DIRTY, getBits v 3 1)]) = true →
    Ends (.lifecycleTransition v) s (fun t =>
      (fld t F.SEC_LC_REQ_STATUS = if (tokenCheck (setFlds s 0 [(F.SEC_LC_REQ_TARGET, getBits v 0 3), (F.SEC_LC_REQ_DISCARD_DIRTY, getBits v 3 1)]) 1 false).1 then 0 else 0x0F) ∧
      (((tokenCheck (setFlds s 0 [(F.SEC_LC_REQ_TARGET, getBits v 0 3), (F.SEC_LC_REQ_DISCARD_DIRTY, getBits v 3 1)]) 1 false).1 = true → lcState t.sec.otp = 3 ∧ t.ckr.resetRequested = true)) ∧
      (((tokenCheck (setFlds s 0 [(F.SEC_LC_REQ_TARGET, getBits v 0 3), (F.SEC_LC_REQ_DISCARD_DIRTY, getBits v 3 1)]) 1 false).1 = false → t.sec = s.sec ∧ t.ckr = s.ckr)))) ∧
  -- a transition that Table 16.6 does not give
  (∀ (s : State) (v : Word),
    getBits v 0 3 ≠ 7 →
    lcNeed s.sec.otp (lcState s.sec.otp) (getBits v 0 3) = none →
    Ends (.lifecycleTransition v) s (fun t =>
      fld t F.SEC_LC_REQ_STATUS = 2 ∧
      t.sec = s.sec ∧
      t.ckr = s.ckr ∧
      t.mem = s.mem)) ∧
  -- a transition before every actuator is parked
  (∀ (s : State) (v : Word),
    getBits v 0 3 ≠ 7 →
    lcNeed s.sec.otp (lcState s.sec.otp) (getBits v 0 3) ≠ none →
    lcReady (setFlds s 0 [(F.SEC_LC_REQ_TARGET, getBits v 0 3), (F.SEC_LC_REQ_DISCARD_DIRTY, getBits v 3 1)]) = false →
    Ends (.lifecycleTransition v) s (fun t =>
      fld t F.SEC_LC_REQ_STATUS = 0x0E ∧
      t.sec = s.sec ∧
      t.ckr = s.ckr ∧
      t.mem = s.mem)) ∧
  -- a repair asks for a token of purpose REPAIR
  (∀ (s : State) (v : Word),
    repairable s = true →
    (tierDirty s = false ∨ bit v 3 = true) →
    Ends (.repair v) s (fun t =>
      (fld t F.SEC_LC_REQ_STATUS = if (tokenCheck (setFlds s 0 [(F.SEC_LC_REQ_TARGET, 7), (F.SEC_LC_REQ_DISCARD_DIRTY, getBits v 3 1)]) 2 true).1 then 0 else 0x0F) ∧
      (((tokenCheck (setFlds s 0 [(F.SEC_LC_REQ_TARGET, 7), (F.SEC_LC_REQ_DISCARD_DIRTY, getBits v 3 1)]) 2 true).1 = true → t.sec.pairing = s.tag.identity ∧ fld t F.HDL_TAG_STATUS_STATE = 4)))) ∧
  -- a repair where none can be taken
  (∀ (s : State) (v : Word),
    repairable s = false →
    Ends (.repair v) s (fun t =>
      fld t F.SEC_LC_REQ_STATUS = 2 ∧
      t.sec = s.sec ∧
      t.tag = s.tag))

/-- O46. Supplies, clocks, power loss and resets. Power-on resumes drive time from the newer good copy of the time store; a chip reset writes the store, announces itself and leaves Table 17.3; a release needs locked PLLs and samples the straps; a loss of VIN runs to its commit and quiescence, and a VIN that returns to a chip reset. (R15, R21, R598, R600, R601, R602, R603, R604, R605, R607, R609, R40) -/
def Obligations.SuppliesAndReset : Prop :=
  -- power-on with a good copy of the time store
  (∀ (s : State) (d : DepotImage) (x : TimeCopy),
    s.ckr.dead = true →
    storeNewest s.ckr = some x →
    x.pcycle + 1 < 2 ^ 32 →
    Ends (.powerOn d) s (fun t =>
      t.ckr.dead = false ∧
      t.ckr.inReset = true ∧
      t.ckr.dtime = x.dtime ∧
      t.ckr.pcycle = x.pcycle + 1 ∧
      flag t F.CKR_CLK_STAT_TIME_LOST = false ∧
      storeNewest t.ckr = some { seq := x.seq + 1, dtime := x.dtime, pcycle := t.ckr.pcycle, good := true } ∧
      rd t .FCL_CAUSE 0 = 0#64 ∧
      t.sec.otp = s.sec.otp ∧
      t.sec.slot = (match d with | some img => some img | none => s.sec.slot) ∧
      t.sec.keys = [] ∧
      t.mem = [] ∧
      t.pending = s.pending)) ∧
  -- power-on with no good copy: drive time and the count resume from zero
  (∀ (s : State) (d : DepotImage),
    s.ckr.dead = true →
    storeNewest s.ckr = none →
    Ends (.powerOn d) s (fun t =>
      t.ckr.inReset = true ∧
      t.ckr.dtime = 0 ∧
      flag t F.CKR_CLK_STAT_TIME_LOST = true ∧
      t.ckr.storeFault = true ∧
      t.sec.otp = s.sec.otp ∧
      t.mem = [])) ∧
  -- a powered module sees no power-on
  (∀ (s : State) (d : DepotImage),
    s.ckr.dead = false →
    Ends (.powerOn d) s (fun t =>
      t = s)) ∧
  -- a chip reset starts
  (∀ (s : State),
    s.ckr.dead = false →
    s.ckr.inReset = false →
    Ends (.chipReset) s (fun t =>
      t.ckr.dtime = s.ckr.dtime ∧
      t.ckr.pcycle = s.ckr.pcycle ∧
      rd t .FCL_CAUSE 0 = rd s .FCL_CAUSE 0 ∧
      rd t .FCL_CAUSE_INFO 0 = rd s .FCL_CAUSE_INFO 0 ∧
      flag t F.PWS_FAULT_VM_TRIP = flag s F.PWS_FAULT_VM_TRIP ∧
      flag t F.PWS_STAT_RESTART_BLOCK = flag s F.PWS_STAT_RESTART_BLOCK ∧
      flag t F.PWS_FAULT_CHOP_STUCK = flag s F.PWS_FAULT_CHOP_STUCK ∧
      flag t F.PWS_FAULT_LINK_LOSS = flag s F.PWS_FAULT_LINK_LOSS ∧
      t.sec.otp = s.sec.otp ∧
      t.sec.keys = [] ∧
      t.mem = [] ∧
      t.svc = {} ∧
      t.patch = {} ∧
      t.loom = {} ∧
      t.gly = {} ∧
      t.syc = {} ∧
      t.cal = {} ∧
      t.tag = {} ∧
      t.ckr.inReset = true ∧
      t.ckr.loss = none ∧
      t.spn.retract = some (s.spn.retract.getD retractAnnounced) ∧
      storeNewest t.ckr = some { seq := (match storeNewest s.ckr with | some x => x.seq | none => 0) + 1, dtime := s.ckr.dtime, pcycle := s.ckr.pcycle, good := true } ∧
      (∀ (r : Reg) (i : Nat), r.info.block ∈ [.hfe, .gly, .sht, .loom, .lne, .dcp, .wrp, .svg, .cte, .hdl, .bfm, .syc, .dma, .spl, .svc, .ofl, .evr, .cal, .sec, .mgt, .spn] → rd t r i = regDefault s.part (regKey r i)))) ∧
  -- requests that arrive during a chip reset merge into it
  (∀ (s : State),
    s.ckr.inReset = true →
    Ends (.chipReset) s (fun t =>
      t = { s with ckr := { s.ckr with resetRequested := false } })) ∧
  -- RST_N low starts a chip reset
  (∀ (s : State),
    s.ckr.dead = false →
    s.ckr.inReset = false →
    (powerLost s = false ∨ s.ckr.quiesced = true) →
    Ends (.rstNAssert) s (fun t =>
      t.ckr.dtime = s.ckr.dtime ∧
      t.ckr.pcycle = s.ckr.pcycle ∧
      rd t .FCL_CAUSE 0 = rd s .FCL_CAUSE 0 ∧
      rd t .FCL_CAUSE_INFO 0 = rd s .FCL_CAUSE_INFO 0 ∧
      flag t F.PWS_FAULT_VM_TRIP = flag s F.PWS_FAULT_VM_TRIP ∧
      flag t F.PWS_STAT_RESTART_BLOCK = flag s F.PWS_STAT_RESTART_BLOCK ∧
      flag t F.PWS_FAULT_CHOP_STUCK = flag s F.PWS_FAULT_CHOP_STUCK ∧
      flag t F.PWS_FAULT_LINK_LOSS = flag s F.PWS_FAULT_LINK_LOSS ∧
      t.sec.otp = s.sec.otp ∧
      t.sec.keys = [] ∧
      t.mem = [] ∧
      t.svc = {} ∧
      t.patch = {} ∧
      t.loom = {} ∧
      t.gly = {} ∧
      t.syc = {} ∧
      t.cal = {} ∧
      t.tag = {} ∧
      t.ckr.inReset = true ∧
      t.ckr.loss = none ∧
      t.spn.retract = some (s.spn.retract.getD retractAnnounced) ∧
      storeNewest t.ckr = some { seq := (match storeNewest s.ckr with | some x => x.seq | none => 0) + 1, dtime := s.ckr.dtime, pcycle := s.ckr.pcycle, good := true } ∧
      t.ckr.rstLow = true)) ∧
  -- from the power-loss broadcast until quiescence, RST_N is ignored
  (∀ (s : State),
    powerLost s = true →
    s.ckr.quiesced = false →
    Ends (.rstNAssert) s (fun t =>
      t = s)) ∧
  -- a chip reset is released
  (∀ (s : State) (h p : Bool),
    s.ckr.inReset = true →
    s.ckr.noCrystal = false →
    s.ckr.dead = false →
    Ends (.resetRelease h p) s (fun t =>
      t.ckr.inReset = false ∧
      t.ckr.por = false ∧
      t.board.hostSel = h ∧
      t.board.peMode = p ∧
      flag t F.CKR_STRAP_HOST_SEL = h ∧
      flag t F.CKR_STRAP_PE_MODE = p ∧
      fld t F.CKR_CLK_STAT_PLL = pllBits s.part ∧
      flag t F.CKR_PWR_STAT_VIN_OK = true ∧
      t.ckr.dtime = s.ckr.dtime ∧
      Leaves [.ckr, .pws] s t)) ∧
  -- a crystal that never started keeps the chip in reset
  (∀ (s : State) (h p : Bool),
    s.ckr.noCrystal = true →
    Ends (.resetRelease h p) s (fun t =>
      t = s)) ∧
  -- 10 ms of power-on reset without a crystal
  (∀ (s : State),
    s.ckr.por = true →
    s.ckr.inReset = true →
    Ends (.xtalStartTimeout) s (fun t =>
      t.ckr.noCrystal = true ∧
      flag t F.CKR_CLK_STAT_XTAL_OK = false)) ∧
  -- a rail of the part is switched off
  (∀ (s : State) (k : Nat),
    (k < 7 ∨ (s.part.hasFlt = true ∧ k < 9)) →
    Ends (.railFault k) s (fun t =>
      t.fcl.fatal = s.fcl.fatal ++ [faultMsg 0 0x0B 7 k] ∧
      fld t F.CKR_PWR_STAT_RAIL_FLT = fld s F.CKR_PWR_STAT_RAIL_FLT ||| 2 ^ k ∧
      Leaves [.ckr] s t)) ∧
  -- a rail that is not fitted
  (∀ (s : State) (k : Nat),
    s.part.hasFlt = false →
    7 ≤ k →
    Ends (.railFault k) s (fun t =>
      t = s)) ∧
  -- the crystal stops
  (∀ (s : State),
    flag s F.CKR_CLK_STAT_ON_BACKUP = false →
    Ends (.xtalFault) s (fun t =>
      flag t F.CKR_CLK_STAT_ON_BACKUP = true ∧
      t.fcl.fatal = s.fcl.fatal ++ [faultMsg 0 0x0A 7 0] ∧
      Leaves [.ckr] s t)) ∧
  -- a CKR PLL other than the control domain's loses lock
  (∀ (s : State) (n : Nat),
    n < 10 →
    Nat.testBit (pllBits s.part) n = true →
    n ∉ s.ckr.gated →
    n ≠ 4 →
    Ends (.pllLockLoss n) s (fun t =>
      t.ckr.gated = s.ckr.gated ++ [n] ∧
      Nat.testBit (fld t F.CKR_CLK_STAT_PLL) n = false ∧
      t.fcl.fatal = s.fcl.fatal ++ [faultMsg 0 0x09 7 n] ∧
      t.spn = s.spn ∧
      Leaves [.ckr] s t)) ∧
  -- the control domain's PLL loses lock: the power die retracts
  (∀ (s : State),
    4 ∉ s.ckr.gated →
    Ends (.pllLockLoss 4) s (fun t =>
      t.spn.retract = some (s.spn.retract.getD (if s.ckr.inReset then retractAnnounced else retractUnannounced)) ∧
      t.fcl.fatal = s.fcl.fatal ++ [faultMsg 0 0x09 7 4] ∧
      Nat.testBit (fld t F.CKR_CLK_STAT_PLL) 4 = false)) ∧
  -- VIN is lost: the power-loss broadcast
  (∀ (s : State),
    powerLost s = false →
    s.ckr.dead = false →
    s.ckr.inReset = false →
    Ends (.vinLoss) s (fun t =>
      powerLost t = true ∧
      t.ckr.loss.map (fun l => l.flush) = some (decide (pcState s ≠ .none)) ∧
      flag t F.CKR_PWR_STAT_LOSS = true ∧
      flag t F.CKR_PWR_STAT_VIN_OK = false ∧
      pendingBit t 1 = true ∧
      storeNewest t.ckr = some { seq := (match storeNewest s.ckr with | some x => x.seq | none => 0) + 1, dtime := s.ckr.dtime, pcycle := s.ckr.pcycle, good := true } ∧
      t.cal.running = [] ∧
      t.cal.background = [] ∧
      t.cal.pending = [] ∧
      flag t F.HDL_LIFE_COMMIT_BUSY = true ∧
      (∀ a, (hdlOf t a).wg = false → unloadDue t a = true))) ∧
  -- a second loss is the one in progress
  (∀ (s : State),
    powerLost s = true →
    Ends (.vinLoss) s (fun t =>
      t = s)) ∧
  -- the flush commit record is written once EVR has nothing left
  (∀ (s : State) (i : FlushImage) (l : PowerLoss),
    s.ckr.loss = some l →
    s.flt.image = some i →
    i.committed = false →
    evrPersisted s = true →
    s.sec.trialFailed = false →
    Ends (.flushCommit) s (fun t =>
      t.flt.image = some { i with committed := true, power := l.record } ∧
      t.ckr.loss = some { l with committed := true } ∧
      t.regs = s.regs ∧
      t.mem = s.mem)) ∧
  -- with EVR's pages unwritten the record waits
  (∀ (s : State),
    evrPersisted s = false →
    Ends (.flushCommit) s (fun t =>
      t = s)) ∧
  -- logic is quiesced: cores and Shuttles are held
  (∀ (s : State) (vm : Nat) (l : PowerLoss) (c : Nat),
    s.ckr.loss = some l →
    l.vinBack = false →
    s.ckr.quiesced = false →
    (mayQuiesce (setVm s vm) = true ∨ vm < 4500) →
    c < s.part.cores →
    Ends (.quiesceLogic vm) s (fun t =>
      t.ckr.quiesced = true ∧
      fld t F.SVC_CORE_CTL_STATE c = 0 ∧
      t.flt.image = s.flt.image)) ∧
  -- below 4.5 V of VM quiescence follows at once, else it waits for R600's conditions
  (∀ (s : State) (vm : Nat) (l : PowerLoss),
    s.ckr.loss = some l →
    mayQuiesce (setVm s vm) = false →
    4500 ≤ vm →
    Ends (.quiesceLogic vm) s (fun t =>
      t = setVm s vm)) ∧
  -- VIN has returned: a chip reset in place of quiescence
  (∀ (s : State) (vm : Nat) (l : PowerLoss),
    s.ckr.loss = some l →
    l.vinBack = true →
    s.ckr.quiesced = false →
    mayQuiesce (setVm s vm) = true →
    s.ckr.dead = false →
    s.ckr.inReset = false →
    Ends (.quiesceLogic vm) s (fun t =>
      t = chipReset (setVm s vm) ∧
      t.ckr.inReset = true ∧
      t.ckr.loss = none)) ∧
  -- VIN returns before quiescence: the sequence goes on
  (∀ (s : State) (l : PowerLoss),
    s.ckr.loss = some l →
    s.ckr.quiesced = false →
    Ends (.vinReturn) s (fun t =>
      t.ckr.loss = some { l with vinBack := true } ∧
      flag t F.CKR_PWR_STAT_VIN_OK = true ∧
      t.ckr.inReset = s.ckr.inReset ∧
      Leaves [.ckr, .pws] s t)) ∧
  -- VIN returns after quiescence: a chip reset at once
  (∀ (s : State),
    powerLost s = true →
    s.ckr.quiesced = true →
    s.ckr.dead = false →
    s.ckr.inReset = false →
    Ends (.vinReturn) s (fun t =>
      t.ckr.inReset = true ∧
      t.ckr.loss = none ∧
      t.ckr.quiesced = false)) ∧
  -- hold-up ends
  (∀ (s : State),
    powerLost s = true →
    s.ckr.dead = false →
    Ends (.holdUpEnd) s (fun t =>
      t.ckr.dead = true ∧
      t.ckr.storeA = s.ckr.storeA ∧
      t.ckr.storeB = s.ckr.storeB ∧
      t.sec.otp = s.sec.otp ∧
      t.mem = [] ∧
      rd t .FCL_CAUSE 0 = 0#64)) ∧
  -- every 60 s the older copy of the time store is overwritten
  (∀ (s : State),
    s.ckr.dead = false →
    Ends (.timeStoreWrite) s (fun t =>
      storeNewest t.ckr = some { seq := (match storeNewest s.ckr with | some x => x.seq | none => 0) + 1, dtime := s.ckr.dtime, pcycle := s.ckr.pcycle, good := true } ∧
      t.regs = s.regs ∧
      t.mem = s.mem ∧
      ((s.ckr.storeA.good = true → s.ckr.storeB.seq < s.ckr.storeA.seq → t.ckr.storeA = s.ckr.storeA)))) ∧
  -- CKR_FWREADY is mirrored in CKR_READY
  (∀ (s : State) (v : Word),
    Ends (.fwReadyWrite v) s (fun t =>
      flag t F.CKR_READY_HOST = bit v 0 ∧
      flag t F.CKR_READY_MEDIA = bit v 1 ∧
      flag t F.CKR_FWREADY_HOST = bit v 0 ∧
      flag t F.CKR_FWREADY_MEDIA = bit v 1 ∧
      t.ckr = s.ckr)) ∧
  -- CKR_SHUTDOWN.GO writes the time store and sets DONE
  (∀ (s : State),
    Ends (.shutdown) s (fun t =>
      storeNewest t.ckr = some { seq := (match storeNewest s.ckr with | some x => x.seq | none => 0) + 1, dtime := s.ckr.dtime, pcycle := s.ckr.pcycle, good := true } ∧
      flag t F.CKR_SHUTDOWN_DONE = true ∧
      Leaves [.ckr] s t))

/-- O47. The calibration controller. CAL_CMD queues an item or refuses it; the oldest request of an idle owner starts and checks its precondition; two agreeing runs make a pending result, two that disagree raise FK_CAL_DISAGREE; a timeout, a block reset and the mode abandon it. (R100, R101, R611, R612, R613, R614, R615, R619) -/
def Obligations.Calibration : Prop :=
  -- a request is queued
  (∀ (s : State) (v : Word),
    16 ≤ getBits v 0 11 →
    itemUsed (getBits v 0 11) = true →
    itemPresent s (getBits v 0 11) = true →
    s.cal.queue.length < 16 →
    Ends (.calRequest v) s (fun t =>
      t.cal = { s.cal with queue := s.cal.queue ++ [getBits v 0 11] } ∧
      fld t F.CAL_CMD_STATUS = 0 ∧
      fld t F.CAL_CMD_ITEM = getBits v 0 11 ∧
      Leaves [.cal] s t)) ∧
  -- a background item or an unused number is refused
  (∀ (s : State) (v : Word),
    (getBits v 0 11 < 16 ∨ (47 ≤ getBits v 0 11 ∧ getBits v 0 11 < 64) ∨ 1600 ≤ getBits v 0 11) →
    Ends (.calRequest v) s (fun t =>
      fld t F.CAL_CMD_STATUS = 0x15 ∧
      t.cal = s.cal ∧
      Leaves [.cal] s t)) ∧
  -- an absent instance is refused
  (∀ (s : State) (v : Word),
    16 ≤ getBits v 0 11 →
    itemUsed (getBits v 0 11) = true →
    itemPresent s (getBits v 0 11) = false →
    Ends (.calRequest v) s (fun t =>
      fld t F.CAL_CMD_STATUS = 0xFF ∧
      t.cal = s.cal)) ∧
  -- a seventeenth request is refused
  (∀ (s : State) (v : Word),
    16 ≤ getBits v 0 11 →
    itemUsed (getBits v 0 11) = true →
    itemPresent s (getBits v 0 11) = true →
    16 ≤ s.cal.queue.length →
    Ends (.calRequest v) s (fun t =>
      fld t F.CAL_CMD_STATUS = 0x14 ∧
      t.cal = s.cal)) ∧
  -- the oldest request of an idle owner starts
  (∀ (s : State) (o k n : Nat),
    s.cal.running.any (fun r => r.owner == o) = false →
    firstIdx (fun m => itemOwner s m == o) s.cal.queue 0 = some k →
    s.cal.queue.getD k 0 = n →
    itemReady s n = true →
    Ends (.calStart o) s (fun t =>
      t = { s with cal := { s.cal with queue := s.cal.queue.eraseIdx k, running := s.cal.running ++ [{ item := n, owner := o }] } })) ∧
  -- a failed precondition completes PRECONDITION
  (∀ (s : State) (o k n : Nat),
    s.cal.running.any (fun r => r.owner == o) = false →
    firstIdx (fun m => itemOwner s m == o) s.cal.queue 0 = some k →
    s.cal.queue.getD k 0 = n →
    itemReady s n = false →
    Ends (.calStart o) s (fun t =>
      t.cal = { s.cal with queue := s.cal.queue.eraseIdx k } ∧
      fld t F.CAL_COUNT_LAST_STATUS n = 0x13 ∧
      Leaves [.cal] s t)) ∧
  -- a running request of the owner holds later ones
  (∀ (s : State) (o : Nat),
    s.cal.running.any (fun r => r.owner == o) = true →
    Ends (.calStart o) s (fun t =>
      t = s)) ∧
  -- the preconditions of R613 by item number
  (∀ (s : State) (n : Nat), (32 ≤ n → n < 36 → itemReady s n = flag s F.SVG_CTL_EN (n % 4)) ∧
    (36 ≤ n → n < 40 → itemReady s n = decide (fld s F.CTE_STAT_STATE (n % 4) = 0)) ∧
    (n = 46 → itemReady s n = flag s F.SPN_STAT_AT_SPEED) ∧
    (16 ≤ n → n < 32 → itemReady s n = true → fld s F.CTE_STAT_STATE (itemOwner s n) = 6 ∧ (cteOf s (itemOwner s n)).track = fld s F.CAL_TRACK_TRACK (itemOwner s n) ∧ (pairOf s (itemOwner s n)).run = none ∧ (wrpOf s (itemOwner s n)).run = none)) ∧
  -- background calibration visits an active lane: in interleave mode SLICE_TRIM, in redundancy mode SLICE_SWAP
  (∀ (s : State) (lane : Nat),
    flag s F.CAL_CTL_BG_EN = true →
    lane < s.part.lanes →
    flag s F.LNE_AFE_CTL_EN lane = true →
    safeState s = false →
    powerLost s = false →
    s.cal.background.any (fun r => r.item % 8 == lane) = false →
    (pairOf s (lane / 2)).redundant = redundancy s →
    s.cal.pending.any (fun x => x.item == 8 + lane) = false →
    Ends (.backgroundCalibration lane) s (fun t =>
      t = { s with cal := { s.cal with background := s.cal.background ++ [{ item := if redundancy s then 8 + lane else lane, owner := lane / 2 }] } })) ∧
  -- while a change of mode waits for the lane's next gap it does not run
  (∀ (s : State) (lane : Nat),
    (pairOf s (lane / 2)).redundant ≠ redundancy s →
    Ends (.backgroundCalibration lane) s (fun t =>
      t = s)) ∧
  -- with BG_EN clear or the lane disabled it does not run
  (∀ (s : State) (lane : Nat),
    (flag s F.CAL_CTL_BG_EN = false ∨ flag s F.LNE_AFE_CTL_EN lane = false) →
    Ends (.backgroundCalibration lane) s (fun t =>
      t = s)) ∧
  -- two runs that disagree
  (∀ (s : State) (n : Nat) (x y z : List Int),
    (s.cal.running ++ s.cal.background).any (fun r => r.item == n) = true →
    resultsAgree n (runResult n x (z.take 3)) (runResult n y (z.drop 3)) = false →
    8 ≤ n →
    (waitingAt s .cal).length < 4 →
    Ends (.calRunDone n x y z) s (fun t =>
      fld t F.CAL_COUNT_LAST_STATUS n = 0x10 ∧
      t.cal.running = s.cal.running.filter (fun r => r.item != n) ∧
      t.cal.pending = s.cal.pending ∧
      waitingAt t .cal = waitingAt s .cal ++ [faultMsg 16 FK.calDisagree 3 n] ∧
      Leaves [.cal] s t)) ∧
  -- two runs that agree leave their mean pending while the item's unit is busy
  (∀ (s : State) (n : Nat) (x y z : List Int),
    (s.cal.running ++ s.cal.background).any (fun r => r.item == n) = true →
    resultsAgree n x y = true →
    (40 ≤ n ∧ n < 46 ∨ 1088 ≤ n) →
    Ends (.calRunDone n x y z) s (fun t =>
      fld t F.CAL_COUNT_LAST_STATUS n = 0x01 ∧
      fld t F.CAL_COUNT_COUNT n = fld s F.CAL_COUNT_COUNT n ∧
      t.cal.pending = s.cal.pending.filter (fun q => decide (q.item ≠ n)) ++ [{ item := n, vals := meanOf x y }])) ∧
  -- SLICE_SWAP's runs agree on the spare: its correction waits for the position visited
  (∀ (s : State) (n : Nat) (x y z : List Int),
    (s.cal.running ++ s.cal.background).any (fun r => r.item == n) = true →
    8 ≤ n ∧ n < 16 →
    placeAgrees (runResult n x (z.take 3)) (runResult n y (z.drop 3)) 16 = true →
    (pairOf s ((n - 8) / 2)).run.isSome = true →
    Ends (.calRunDone n x y z) s (fun t =>
      (t.cal.pending.getLast?.map (fun q => (q.item, q.places))) = some (n, [tget (dflt 0) s.cal.positions (n - 8)]) ∧
      tget (dflt 0) t.cal.positions (n - 8) = (tget (dflt 0) s.cal.positions (n - 8) + 1) % 16)) ∧
  -- SLICE_TRIM of a lane in a run: the positions that agree wait for its next gap, and the others are reported
  (∀ (s : State) (n : Nat) (x y z : List Int) (c : CalPend),
    (s.cal.running ++ s.cal.background).any (fun r => r.item == n) = true →
    n < 8 →
    resultsAgree n x y = false →
    calResult n 0 x y = some c →
    (pairOf s (n / 2)).run.isSome = true →
    (waitingAt s .cal).length < 4 →
    Ends (.calRunDone n x y z) s (fun t =>
      c.places = placesAgreed x y ∧
      t.cal.pending = s.cal.pending.filter (fun q => decide (q.item ≠ n)) ++ [c] ∧
      waitingAt t .cal = waitingAt s .cal ++ [faultMsg 16 FK.calDisagree 3 n])) ∧
  -- on an idle pair it takes effect at once and counts
  (∀ (s : State) (n : Nat) (x y z : List Int),
    (s.cal.running ++ s.cal.background).any (fun r => r.item == n) = true →
    n = 26 →
    resultsAgree n x y = true →
    (pairOf s 2).run = none →
    Ends (.calRunDone n x y z) s (fun t =>
      fld t F.CAL_COUNT_LAST_STATUS n = 0 ∧
      fld t F.CAL_COUNT_COUNT n = min (fld s F.CAL_COUNT_COUNT n + 1) (2 ^ 24 - 1) ∧
      fld t F.CAL_LAST_TIME n = now s % 2 ^ 48 ∧
      pendingBit t 17 = true)) ∧
  -- runs of an item that is not running
  (∀ (s : State) (n : Nat) (x y z : List Int),
    (s.cal.running ++ s.cal.background).any (fun r => r.item == n) = false →
    Ends (.calRunDone n x y z) s (fun t =>
      t = s)) ∧
  -- a request past CAL_CTL.TMO
  (∀ (s : State) (n : Nat),
    s.cal.running.any (fun r => r.item == n) = true →
    (waitingAt s .cal).length < 4 →
    Ends (.calTimeout n) s (fun t =>
      fld t F.CAL_COUNT_LAST_STATUS n = 0x12 ∧
      t.cal = { s.cal with running := s.cal.running.filter (fun r => r.item != n) } ∧
      fld t F.CAL_CNT_TIMEOUT = min (fld s F.CAL_CNT_TIMEOUT + 1) (2 ^ 16 - 1) ∧
      waitingAt t .cal = waitingAt s .cal ++ [faultMsg 16 0x0D 3 n] ∧
      Leaves [.cal] s t)) ∧
  -- a block reset of CAL abandons what runs, what is pending and what is queued
  (∀ (s : State),
    Ends (.calBlockReset) s (fun t =>
      t.cal.running = [] ∧
      t.cal.background = [] ∧
      t.cal.pending = [] ∧
      t.cal.queue = [] ∧
      t.cal.trims = s.cal.trims ∧
      flag t F.CKR_BRST_CAL = false ∧
      (∀ n, n ∈ s.cal.queue → fld t F.CAL_COUNT_LAST_STATUS n = 0x11) ∧
      Leaves [.cal, .ckr] s t))

/-- O48. Writes of control-space registers by their access codes. A write stores RW fields, clears W1C and sets W1S bits and leaves RO, RC and reserved bits; a half of a 64-bit register leaves the other half; an absent unit ignores it; an undefined offset is a bus error with FK_BUS_DECODE; a wrong width or alignment is a bus error that does nothing. (R3, R10, R11, R12, R19) -/
def Obligations.RegisterAccess : Prop :=
  -- a whole write of a plain register stores its fields by their access codes
  (∀ (s : State) (e a w : Nat) (v : Word) (r : Reg) (i : Nat),
    inControl a = true →
    accessOk a w = true →
    targetOf s a w = .reg r i false →
    (r.info.wide = true → w = 8) →
    commandWrite s e r i v = none →
    (r.info.wide = true ∨ v.toNat < 2 ^ 32) →
    writeIgnored s r i v = false →
    r ∈ [.CAL_CTL, .WRP_CTL, .SPN_LIM, .CTE_SETTLE, .LNE_TARGET, .SHT_TASK_TMO, .GLY_DISPATCH_CTL, .MGT_ADDR, .BFM_ECC_CTL, .DMA_CH_RING, .FLT_RR_VAL, .SVC_NMI_VEC, .OFL_WV_RING, .FCL_THRESH, .SYC_ALLOC_CTL] →
    Ends (.registerWrite e a w v) s (fun t =>
      rd t r i = accWrite r (rd s r i) (clampValue r v) ∧
      t.bus = {} ∧
      (∀ (q : Reg) (j : Nat), regKey q j ≠ regKey r i → rd t q j = rd s q j) ∧
      (∀ x, readByte t x = readByte s x))) ∧
  -- the access codes of Table 0.6, bit by bit: RW takes the value written, W1C clears on 1, W1S sets on 1, every other bit stands
  (∀ (r : Reg) (old v : Word) (k : Nat), k < 64 → bit (accWrite r old v) k =
    ((((bit old k && !bit (accMask r (fun c => c == .rw)) k) || (bit v k && bit (accMask r (fun c => c == .rw)) k)) && !(bit v k && bit (accMask r (fun c => c == .w1c)) k)) || (bit v k && bit (accMask r (fun c => c == .w1s)) k))) ∧
  -- a unit absent from the part ignores writes
  (∀ (s : State) (e a w : Nat) (v : Word),
    inControl a = true →
    accessOk a w = true →
    targetOf s a w = .absent →
    Ends (.registerWrite e a w v) s (fun t =>
      t = { s with bus := {} })) ∧
  -- a register that does not exist in a window: a bus error and FK_BUS_DECODE from the block
  (∀ (s : State) (e a w : Nat) (v : Word) (b : Block),
    inControl a = true →
    accessOk a w = true →
    targetOf s a w = .undefined b →
    (waitingAt s b).length < 4 →
    Ends (.registerWrite e a w v) s (fun t =>
      t.bus.err = true ∧
      waitingAt t b = waitingAt s b ++ [faultMsg b.faultSource FK.busDecode 4 a] ∧
      t.regs = s.regs ∧
      t.mem = s.mem)) ∧
  -- a misaligned access or one of another width is a bus error and does nothing
  (∀ (s : State) (e a w : Nat) (v : Word),
    inControl a = true →
    accessOk a w = false →
    undecoded s a w true = false →
    Ends (.registerWrite e a w v) s (fun t =>
      t = { s with bus := { value := 0#64, err := true } })) ∧
  -- an access of 64 bits to a register of 32 is a bus error
  (∀ (s : State) (e a w : Nat) (v : Word),
    inControl a = true →
    accessOk a w = true →
    targetOf s a w = .tooWide →
    Ends (.registerWrite e a w v) s (fun t =>
      t = { s with bus := { value := 0#64, err := true } })) ∧
  -- an access no window decodes: a bus error, and FK_BUS_DECODE from FCL
  (∀ (s : State) (e a w : Nat) (b : Bool),
    accessOk a w = true →
    inControl a = true →
    blockAt a = none →
    (waitingAt s .fcl).length < 4 →
    Ends (.undecodedAccess e a w b) s (fun t =>
      t.bus = { value := 0#64, err := true } ∧
      waitingAt t .fcl = waitingAt s .fcl ++ [faultMsg 35 FK.busDecode 4 a] ∧
      t.regs = s.regs ∧
      t.mem = s.mem)) ∧
  -- a write of any register of a present unit: of the whole value, or of one half of a wide register
  (∀ (s : State) (e a w : Nat) (v : Word) (r : Reg) (i : Nat) (up : Bool),
    inControl a = true →
    accessOk a w = true →
    targetOf s a w = .reg r i up →
    Ends (.registerWrite e a w v) s (fun t =>
      t = busClear (writeReg s e r i (if r.info.wide then (if w = 8 then v else halfValue s r i up v) else v &&& 0xFFFFFFFF#64)))) ∧
  -- a write outside the control space is not a register's
  (∀ (s : State) (e a w : Nat) (v : Word),
    inControl a = false →
    Ends (.registerWrite e a w v) s (fun t =>
      t = s)) ∧
  -- every access that nothing decodes ends in a bus error
  (∀ (s : State) (e a w : Nat) (b : Bool),
    undecoded s a w b = true →
    Ends (.undecodedAccess e a w b) s (fun t =>
      t.bus = { value := 0#64, err := true })) ∧
  -- an access that something decodes is not this command's
  (∀ (s : State) (e a w : Nat) (b : Bool),
    undecoded s a w b = false →
    Ends (.undecodedAccess e a w b) s (fun t =>
      t = s))

/-- O49. A step runs the command at the front of the queue. For every command c and state s, the step of s with c at the front of its queue is exec of c on s with the queue's rest, and withFetchWord puts nothing there since the table gives no row bits. (95_what_each_step_holds) -/
def Obligations.StepRunsFrontCommand : Prop :=
  -- the front command
  (∀ (c : Instr) (rest : List Instr) (s : State), s.pending = c :: rest → step s = exec c { s with pending := rest }) ∧
  -- no word spells a command
  (∀ (s : State) (n w : Nat), s.withFetchWord n w = s ∧ decodeTableWord n w = none)

/-- O50. What reset leaves. After reset every register reads the reset value of its table, every actuator is PARKED, SPN is OFF, every Shuttle and channel OFF, DRAM and scratch memory read zero, and no command waits. (R12, R193, R237, R274, R404, R410, R453, R604, R621) -/
def Obligations.ResetValues : Prop :=
  -- every register of the part reads its reset value
  (∀ (r : Reg) (i : Nat), rd State.reset r i = Reg.reset .fjd7440 r i) ∧
  -- some of those values
  (rd State.reset .CAL_CTL 0 = 0xFA1#64 ∧ rd State.reset .GLY_ASN_NEXT 0 = 1#64 ∧ rd State.reset .SVC_MTIMECMP 3 = 0xFFFFFFFFFFFFFFFF#64 ∧ rd State.reset .CTE_STAT 2 = 0x10#64 ∧ rd State.reset .SPN_SPEED 0 = 0xAFC80#64 ∧ rd State.reset .DMA_CH_STATUS 63 = 5#64 ∧ rd State.reset .WRP_CTL 0 = 0xD08#64 ∧ rd State.reset .FCL_SRC_CFG 70 = 0x8000C800#64 ∧ rd State.reset .PWS_CLAMP 0 = 0xD78#64) ∧
  -- memory, the machines and the queue
  ((∀ a, (dramBase ≤ a ∧ a < dramBase + 2 ^ 36) ∨ (0xE0000000 ≤ a ∧ a < 0xE0600000) → readByte State.reset a = 0#8) ∧ (∀ a, cteState State.reset a = 0) ∧ spnState State.reset = 0 ∧ (∀ k, (shtOf State.reset k).st = .off) ∧ (∀ k, wGet (shtOf State.reset k) k = 0#64) ∧ lcState State.reset.sec.otp = 0 ∧ safeState State.reset = false ∧ powerLost State.reset = false ∧ State.reset.pending = [])

/-- O51. The state after reset has the invariant. The register store and the memory of the state after reset are in canonical form. (R12, R410) -/
def Obligations.ResetKeepsInvariant : Prop :=
  -- the invariant at reset
  Inv State.reset

/-- O52. Every step keeps the register store and memory canonical. From every state whose register store and memory are in canonical form, a step that answers a next state leaves both in canonical form: no entry is repeated and none equals what an unlisted key reads, whichever of the 370 commands ran or time passed. (R12, R404, R410) -/
def Obligations.StepKeepsInvariant : Prop :=
  -- every step keeps it
  ∀ s t : State, Inv s → step s = .next t → Inv t

/-- O53. A step takes its command off the queue, keeps the part, and stops only on a patched instruction. From every state a step answers a next state with the queue's rest and the same part, unless its command is a Coava instruction whose opcode a patch redirects, whose new meaning the spec does not give. (R1, R2, R6, R317) -/
def Obligations.StepTakesOneCommand : Prop :=
  -- the queue and the part
  (∀ s t : State, step s = .next t → t.pending = s.pending.tail ∧ t.part = s.part) ∧
  -- the only refusal is that of a patched instruction
  (∀ (s : State) (r : Refusal), step s = .refused r → r = .patchedInstruction ∧ ∃ op, patched s op = true)

/-- O54. Every command completes in every state, a Coava instruction wherever no patch redirects its opcode. For every state, each of the 370 commands ends in a next state with the same queue, whatever its operands; the one exception is a Coava instruction of a running Shuttle whose sequence meets the patch RAM, whose new meaning the spec does not give: with no opcode redirected, all 370 complete. (R1, R2, R6, R317) -/
def Obligations.EveryCommandCompletes : Prop :=
  -- no opcode is redirected: every command
  (∀ (c : Instr) (s : State), (∀ op, patched s op = false) → Ends c s (fun t => t.pending = s.pending ∧ t.part = s.part)) ∧
  -- the commands that are no Coava instruction, whatever is patched
  (∀ (c : Instr) (s : State), coava c = false → ∃ t, exec c s = .next t) ∧
  -- a Coava instruction, whatever is patched, of a Shuttle that does not run
  (∀ (c : Instr) (s : State), (∀ k, shRunning s k = false) → ∃ t, exec c s = .next t)

/-- O55. The OTP only burns. From every state a step leaves every burned field of the OTP as it was; its thermometers do not fall, no revocation is undone and the life-cycle log only grows. (R567, R571, R579, R588) -/
def Obligations.OtpOnlyBurns : Prop :=
  -- fields burned once stand
  (∀ s t : State, step s = .next t → (s.sec.otp.serial.isSome = true → t.sec.otp.serial = s.sec.otp.serial) ∧ (s.sec.otp.secret.isSome = true → t.sec.otp.secret = s.sec.otp.secret) ∧ (s.sec.otp.patchKey.isSome = true → t.sec.otp.patchKey = s.sec.otp.patchKey) ∧ (s.sec.otp.hdaRoot.isSome = true → t.sec.otp.hdaRoot = s.sec.otp.hdaRoot) ∧ (s.sec.otp.adminRoot.isSome = true → t.sec.otp.adminRoot = s.sec.otp.adminRoot) ∧ (∀ j, (rootOf s.sec.otp j).isSome = true → rootOf t.sec.otp j = rootOf s.sec.otp j)) ∧
  -- thermometers, revocations and the log only grow
  (∀ s t : State, step s = .next t → (s.sec.otp.svn ≤ 64 → s.sec.otp.svn ≤ t.sec.otp.svn ∧ t.sec.otp.svn ≤ 64) ∧ (s.sec.otp.epoch ≤ 32 → s.sec.otp.epoch ≤ t.sec.otp.epoch ∧ t.sec.otp.epoch ≤ 32) ∧ (∀ j, rootRevoked s.sec.otp j = true → rootRevoked t.sec.otp j = true) ∧ ∃ l, t.sec.otp.log = s.sec.otp.log ++ l)

/-- O56. Only a chip reset leaves the safe state. From every state in the safe state, a step leaves the module in the safe state or in a chip reset, whichever command ran. (R543, R604) -/
def Obligations.OnlyResetLeavesSafeState : Prop :=
  -- from the safe state
  ∀ s t : State, safeState s = true → step s = .next t → safeState t = true ∨ t.ckr.inReset = true

/-- O57. What no command touches: registers outside the blocks it acts on, and memory unless it stores. A command that answers a next state leaves every register outside the blocks named for it by blocksOf as it was, and every byte of memory unless storesMemory names it; a fabric store of a Shuttle to scratch memory changes the bytes stored and no other. (R3, R12, R272, R279, R604) -/
def Obligations.CommandFrames : Prop :=
  -- registers
  (∀ (c : Instr) (s t : State), exec c s = .next t → ∀ (r : Reg) (i : Nat), r.info.block ∉ blocksOf c → rd t r i = rd s r i) ∧
  -- memory
  (∀ (c : Instr) (s t : State), exec c s = .next t → storesMemory c = false → ∀ a, readByte t a = readByte s a) ∧
  -- BST to scratch memory
  (∀ (s : State) (k rd rs imm a : Nat) (i : Ins),
    fetched s k = some i →
    i.op = 0x51 ∧ i.rd = rd ∧ i.rs = rs ∧ i.imm = imm →
    patched s 0x51 = false →
    operandAddr (shtOf s k) rs imm = a →
    a % 8 = 0 ∧ 0xE0000000 ≤ a ∧ a + 8 ≤ 0xE0000000 + fld s F.SYC_SCRATCH_COUNT * 524288 →
    flag s F.SYC_SCRATCH_BUSY = false →
    Ends (.bst k rd rs imm) s (fun t =>
      (shtOf t k).ls = 0 ∧
      (∀ b, b < a ∨ a + 8 ≤ b → readByte t b = readByte s b) ∧
      (∀ j, j < 8 → readByte t (a + j) = (wGet (shtOf s k) rd).extractLsb' (8 * j) 8)))

/-- O58. A fault message's layout and parity. A message holds ADDR, KIND, SEV, SOURCE, a zero bit and a PAR that makes its 64 bits even; one that arrives with bad parity is taken as FK_FCL_MSG of source 32 at severity 7 with the received address bits. (R537) -/
def Obligations.FaultMessageWord : Prop :=
  -- the layout of Table 15.2, with the parity the sender computes
  (∀ source kind sev addr : Nat, source < 2048 → kind < 256 → sev < 8 → addr < 2 ^ 40 → getBits (faultMsg source kind sev addr) 0 40 = addr ∧ getBits (faultMsg source kind sev addr) 40 8 = kind ∧ getBits (faultMsg source kind sev addr) 48 3 = sev ∧ getBits (faultMsg source kind sev addr) 51 11 = source ∧ bit (faultMsg source kind sev addr) 62 = false ∧ ((List.range 64).filter (fun j => bit (faultMsg source kind sev addr) j)).length % 2 = 0) ∧
  -- a message that arrives with bad parity
  (∀ (s : State) (i : Nat) (w : Word) (rest : List Word),
    s.ckr.inReset = false →
    grant 25 s.fcl.ptr (fun j => !(tget (dflt []) s.fcl.waiting j).isEmpty) = some i →
    tget (dflt []) s.fcl.waiting i = w :: rest →
    msgPar w ≠ bit w 63 →
    Ends (.faultMessage 0#64) s (fun t =>
      rd t .FCL_LAST 0 = faultMsg 32 0x02 7 (getBits w 0 40) ∧
      safeState t = true ∧
      pendingBit t 32 = true))

/-- O59. GLY_ASN_FLOOR, and the channels Galley owns. A write of GLY_ASN_FLOOR sets GLY_ASN_NEXT to the larger of its value and the written one while EN = 0 and does nothing while EN = 1; while EN = 1 firmware's writes of CFG, RING, TAIL and CTL of channels 0 to 7 are ignored and their status registers are read. (R371, R445) -/
def Obligations.GalleyRegisterRules : Prop :=
  -- GLY_ASN_FLOOR while EN = 0
  (∀ (s : State) (v : Word),
    flag s F.GLY_CTL_EN = false →
    Ends (.asnFloor v) s (fun t =>
      fld t F.GLY_ASN_NEXT_ASN = max (fld s F.GLY_ASN_NEXT_ASN) v.toNat ∧
      (∀ (r : Reg) (i : Nat), regKey r i ≠ regKey .GLY_ASN_NEXT 0 → rd t r i = rd s r i) ∧
      (∀ a, readByte t a = readByte s a))) ∧
  -- GLY_ASN_FLOOR while EN = 1
  (∀ (s : State) (v : Word),
    flag s F.GLY_CTL_EN = true →
    Ends (.asnFloor v) s (fun t =>
      t = s)) ∧
  -- the ignored writes of channels 0 to 7
  (∀ (s : State) (e n a w : Nat) (v : Word) (r : Reg),
    flag s F.GLY_CTL_EN = true →
    n < 8 →
    (r = .DMA_CH_CFG ∨ r = .DMA_CH_RING ∨ r = .DMA_CH_TAIL ∨ r = .DMA_CH_CTL) →
    a = Reg.addr r n →
    (w = 4 ∨ (w = 8 ∧ r.info.wide = true)) →
    Ends (.registerWrite e a w v) s (fun t =>
      t = { s with bus := {} })) ∧
  -- the same channels' status registers are read
  (∀ (s : State) (e n : Nat) (r : Reg), n < 8 → (r = .DMA_CH_STATUS ∨ r = .DMA_CH_SRC ∨ r = .DMA_CH_DST ∨ r = .DMA_CH_COUNT) → readReg s e r n = answer s (regView s r n))

/-- O60. A Coava instruction word and its fetch. The four little-endian bytes at the PC give OP, RD, RS and IMM; a running Shuttle fetches them exactly when its PC is a multiple of 4 within the code region. (R275) -/
def Obligations.CoavaFetch : Prop :=
  -- Table 8.3
  (∀ (h : Shuttle) (pc op rd rs imm : Nat), op < 256 → rd < 16 → rs < 16 → imm < 65536 → lsBytes h pc 4 = [BitVec.ofNat 8 imm, BitVec.ofNat 8 (imm / 256), BitVec.ofNat 8 (rs + 16 * rd), BitVec.ofNat 8 op] → insAt h pc = ⟨op, rd, rs, imm⟩) ∧
  -- when a fetch succeeds
  (∀ (s : State) (k : Nat) (i : Ins), fetched s k = some i ↔ (shRunning s k = true ∧ (shtOf s k).pc % 4 = 0 ∧ (shtOf s k).pc < fld s F.SHT_CODE_TOP_TOP ∧ i = insAt (shtOf s k) (shtOf s k).pc))
end

