-- ==== Sys2Proof/Laws/Table.lean ====
section
/-!
SUPPORT. The laws of sparse tables and of bit fields: a read after a write, and the canonical form kept.
-/

namespace Sys2Proof.Machine

section Tables

variable {α : Type} {d : Nat → α}

/-- The entry just placed is read back. -/
theorem tget_tins_same (m : List (Nat × α)) (n : Nat) (v : α) : tget d (tins n v m) n = v := by
  induction m with
  | nil => simp [tins, tget]
  | cons c t ih =>
    obtain ⟨k, w⟩ := c
    simp only [tins]
    split
    · simp [tget]
    · split
      · simp [tget]
      · rename_i _ h
        simp [tget, h, ih]

/-- Every other key reads as before. -/
theorem tget_tins_ne (m : List (Nat × α)) {n k : Nat} (v : α) (h : k ≠ n) : tget d (tins n v m) k = tget d m k := by
  induction m with
  | nil => simp [tins, tget, h]
  | cons c t ih =>
    obtain ⟨j, w⟩ := c
    simp only [tins]
    split
    · simp [tget, h]
    · split
      · rename_i _ hj
        subst hj
        simp [tget, h]
      · by_cases hk : k = j
        · simp [tget, hk]
        · simp [tget, hk, ih]

/-- With the entries of one key dropped the key reads its default. -/
theorem tget_filter_same (m : List (Nat × α)) (n : Nat) :
    tget d (m.filter (fun c => decide (c.1 ≠ n))) n = d n := by
  induction m with
  | nil => simp [tget]
  | cons c t ih =>
    obtain ⟨j, w⟩ := c
    by_cases h : j = n
    · simpa [List.filter, h] using ih
    · simp only [ne_eq, List.filter, h, not_false_eq_true, decide_true]
      have h' : n ≠ j := fun e => h e.symm
      simpa [tget, h'] using ih

/-- With the entries of one key dropped every other key reads as before. -/
theorem tget_filter_ne (m : List (Nat × α)) {n k : Nat} (h : k ≠ n) :
    tget d (m.filter (fun c => decide (c.1 ≠ n))) k = tget d m k := by
  induction m with
  | nil => simp [tget]
  | cons c t ih =>
    obtain ⟨j, w⟩ := c
    by_cases hj : j = n
    · have hk : k ≠ j := fun e => h (e.trans hj)
      rw [List.filter_cons_of_neg (by simp [hj])]
      simpa [tget, hk] using ih
    · rw [List.filter_cons_of_pos (by simp [hj])]
      by_cases hk : k = j
      · simp [tget, hk]
      · simpa [tget, hk] using ih

/-- A read of the key just set. -/
@[simp] theorem tget_tset_same [DecidableEq α] (m : List (Nat × α)) (n : Nat) (v : α) :
    tget d (tset d m n v) n = v := by
  unfold tset
  split
  · rename_i h
    simpa [h] using tget_filter_same m n
  · exact tget_tins_same m n v

/-- A read of another key. -/
theorem tget_tset_ne [DecidableEq α] (m : List (Nat × α)) {n k : Nat} (v : α) (h : k ≠ n) :
    tget d (tset d m n v) k = tget d m k := by
  unfold tset
  split
  · exact tget_filter_ne m h
  · exact tget_tins_ne m v h

/-- The keys of a table with an entry placed. -/
theorem mem_tins {m : List (Nat × α)} {n : Nat} {v : α} {c : Nat × α} (h : c ∈ tins n v m) : c = (n, v) ∨ c ∈ m := by
  induction m with
  | nil => simpa [tins] using h
  | cons x t ih =>
    obtain ⟨k, w⟩ := x
    simp only [tins] at h
    split at h
    · simpa using h
    · split at h
      · rcases List.mem_cons.1 h with h | h
        · exact .inl h
        · exact .inr (List.mem_cons_of_mem _ h)
      · rcases List.mem_cons.1 h with h | h
        · exact .inr (h ▸ List.mem_cons_self)
        · rcases ih h with h | h
          · exact .inl h
          · exact .inr (List.mem_cons_of_mem _ h)

/-- Placing an entry keeps the keys rising. -/
theorem pairwise_tins {m : List (Nat × α)} (n : Nat) (v : α) (h : m.Pairwise (fun x y => x.1 < y.1)) :
    (tins n v m).Pairwise (fun x y => x.1 < y.1) := by
  induction m with
  | nil => simp [tins]
  | cons x t ih =>
    obtain ⟨k, w⟩ := x
    obtain ⟨hx, ht⟩ := List.pairwise_cons.1 h
    simp only [tins]
    split
    · rename_i hk
      refine List.pairwise_cons.2 ⟨?_, h⟩
      intro c hc
      rcases List.mem_cons.1 hc with rfl | hc
      · exact hk
      · exact hk.trans (hx c hc)
    · split
      · rename_i _ hk
        subst hk
        exact List.pairwise_cons.2 ⟨hx, ht⟩
      · rename_i h1 h2
        refine List.pairwise_cons.2 ⟨?_, ih ht⟩
        intro c hc
        rcases mem_tins hc with rfl | hc
        · show k < n
          omega
        · exact hx c hc

/-- Setting a key keeps the canonical form. -/
theorem tabWf_tset [DecidableEq α] {m : List (Nat × α)} (n : Nat) (v : α) (h : tabWf d m) : tabWf d (tset d m n v) := by
  unfold tset
  split
  · exact ⟨h.1.filter _, fun c hc => h.2 c (List.mem_of_mem_filter hc)⟩
  · rename_i hv
    refine ⟨pairwise_tins n v h.1, fun c hc => ?_⟩
    rcases mem_tins hc with rfl | hc
    · exact hv
    · exact h.2 c hc

/-- Dropping entries keeps the canonical form. -/
theorem tabWf_filter {m : List (Nat × α)} (p : Nat × α → Bool) (h : tabWf d m) : tabWf d (m.filter p) :=
  ⟨h.1.filter _, fun c hc => h.2 c (List.mem_of_mem_filter hc)⟩

/-- The empty table is in canonical form. -/
theorem tabWf_nil : tabWf d ([] : List (Nat × α)) := ⟨.nil, by simp⟩

end Tables

section Fields

/-- Bit k of a field's mask. -/
theorem getLsbD_fieldMask (lo w k : Nat) : (fieldMask lo w).getLsbD k = (decide (k < 64) && decide (lo ≤ k ∧ k < lo + w)) := by
  simp only [fieldMask, BitVec.getLsbD_ofNat, Nat.testBit_shiftLeft, Nat.testBit_two_pow_sub_one]
  by_cases h : k < 64 <;> by_cases h1 : lo ≤ k <;> by_cases h2 : k < lo + w <;> simp [h, h1, h2] <;> omega

/-- Bit k of a word with a field set. -/
theorem getLsbD_setBits (x : Word) (lo w v k : Nat) :
    (setBits x lo w v).getLsbD k =
      if k < 64 ∧ lo ≤ k ∧ k < lo + w then v.testBit (k - lo) else x.getLsbD k := by
  simp only [setBits, BitVec.getLsbD_or, BitVec.getLsbD_and, BitVec.getLsbD_not, getLsbD_fieldMask,
    BitVec.getLsbD_ofNat, Nat.testBit_shiftLeft, Nat.testBit_mod_two_pow]
  by_cases h : k < 64
  · by_cases h1 : lo ≤ k <;> by_cases h2 : k < lo + w <;> simp [h, h1, h2] <;> omega
  · simp [h, BitVec.getLsbD_of_ge x k (by omega)]

/-- A field just set reads back its low bits. -/
theorem getBits_setBits_same (x : Word) (lo w v : Nat) (h : lo + w ≤ 64) :
    getBits (setBits x lo w v) lo w = v % 2 ^ w := by
  apply Nat.eq_of_testBit_eq
  intro k
  simp only [getBits, BitVec.testBit_toNat, BitVec.getLsbD_extractLsb', getLsbD_setBits, Nat.testBit_mod_two_pow]
  by_cases hk : k < w
  · have h1 : lo + k < 64 := by omega
    simp [hk, h1]
  · simp [hk]

/-- A field that lies wholly below or above the field set reads as before. -/
theorem getBits_setBits_ne (x : Word) (lo w v lo' w' : Nat) (h : lo' + w' ≤ lo ∨ lo + w ≤ lo') :
    getBits (setBits x lo w v) lo' w' = getBits x lo' w' := by
  apply Nat.eq_of_testBit_eq
  intro k
  simp only [getBits, BitVec.testBit_toNat, BitVec.getLsbD_extractLsb', getLsbD_setBits]
  by_cases hk : k < w'
  · have h1 : ¬(lo' + k < 64 ∧ lo ≤ lo' + k ∧ lo' + k < lo + w) := by omega
    simp [h1]
  · simp [hk]

/-- A field's value fits its width. -/
theorem getBits_lt (x : Word) (lo w : Nat) : getBits x lo w < 2 ^ w := (x.extractLsb' lo w).isLt

end Fields

end Sys2Proof.Machine
end

