-- ==== Sys2Proof/Laws/State.lean ====
section
/-!
SUPPORT. What each named update of the state leaves alone: one lemma per update and field, and what the field it sets
reads afterwards.
-/

namespace Sys2Proof.Machine

/-! A register stored whole. -/

@[simp] theorem wr_part (s : State) (r : Reg) (i : Nat) (v : Word) : (wr s r i v).part = s.part := rfl
@[simp] theorem wr_board (s : State) (r : Reg) (i : Nat) (v : Word) : (wr s r i v).board = s.board := rfl
@[simp] theorem wr_mem (s : State) (r : Reg) (i : Nat) (v : Word) : (wr s r i v).mem = s.mem := rfl
@[simp] theorem wr_free (s : State) (r : Reg) (i : Nat) (v : Word) : (wr s r i v).free = s.free := rfl
@[simp] theorem wr_bus (s : State) (r : Reg) (i : Nat) (v : Word) : (wr s r i v).bus = s.bus := rfl
@[simp] theorem wr_ckr (s : State) (r : Reg) (i : Nat) (v : Word) : (wr s r i v).ckr = s.ckr := rfl
@[simp] theorem wr_cal (s : State) (r : Reg) (i : Nat) (v : Word) : (wr s r i v).cal = s.cal := rfl
@[simp] theorem wr_fcl (s : State) (r : Reg) (i : Nat) (v : Word) : (wr s r i v).fcl = s.fcl := rfl
@[simp] theorem wr_evr (s : State) (r : Reg) (i : Nat) (v : Word) : (wr s r i v).evr = s.evr := rfl
@[simp] theorem wr_zones (s : State) (r : Reg) (i : Nat) (v : Word) : (wr s r i v).zones = s.zones := rfl
@[simp] theorem wr_svg (s : State) (r : Reg) (i : Nat) (v : Word) : (wr s r i v).svg = s.svg := rfl
@[simp] theorem wr_cte (s : State) (r : Reg) (i : Nat) (v : Word) : (wr s r i v).cte = s.cte := rfl
@[simp] theorem wr_spn (s : State) (r : Reg) (i : Nat) (v : Word) : (wr s r i v).spn = s.spn := rfl
@[simp] theorem wr_sec (s : State) (r : Reg) (i : Nat) (v : Word) : (wr s r i v).sec = s.sec := rfl
@[simp] theorem wr_syc (s : State) (r : Reg) (i : Nat) (v : Word) : (wr s r i v).syc = s.syc := rfl
@[simp] theorem wr_bfm (s : State) (r : Reg) (i : Nat) (v : Word) : (wr s r i v).bfm = s.bfm := rfl
@[simp] theorem wr_l2 (s : State) (r : Reg) (i : Nat) (v : Word) : (wr s r i v).l2 = s.l2 := rfl
@[simp] theorem wr_gly (s : State) (r : Reg) (i : Nat) (v : Word) : (wr s r i v).gly = s.gly := rfl
@[simp] theorem wr_hfe (s : State) (r : Reg) (i : Nat) (v : Word) : (wr s r i v).hfe = s.hfe := rfl
@[simp] theorem wr_chans (s : State) (r : Reg) (i : Nat) (v : Word) : (wr s r i v).chans = s.chans := rfl
@[simp] theorem wr_spools (s : State) (r : Reg) (i : Nat) (v : Word) : (wr s r i v).spools = s.spools := rfl
@[simp] theorem wr_flt (s : State) (r : Reg) (i : Nat) (v : Word) : (wr s r i v).flt = s.flt := rfl
@[simp] theorem wr_svc (s : State) (r : Reg) (i : Nat) (v : Word) : (wr s r i v).svc = s.svc := rfl
@[simp] theorem wr_ofl (s : State) (r : Reg) (i : Nat) (v : Word) : (wr s r i v).ofl = s.ofl := rfl
@[simp] theorem wr_mgt (s : State) (r : Reg) (i : Nat) (v : Word) : (wr s r i v).mgt = s.mgt := rfl
@[simp] theorem wr_dmaPtr (s : State) (r : Reg) (i : Nat) (v : Word) : (wr s r i v).dmaPtr = s.dmaPtr := rfl
@[simp] theorem wr_hdl (s : State) (r : Reg) (i : Nat) (v : Word) : (wr s r i v).hdl = s.hdl := rfl
@[simp] theorem wr_tag (s : State) (r : Reg) (i : Nat) (v : Word) : (wr s r i v).tag = s.tag := rfl
@[simp] theorem wr_pairs (s : State) (r : Reg) (i : Nat) (v : Word) : (wr s r i v).pairs = s.pairs := rfl
@[simp] theorem wr_dcp (s : State) (r : Reg) (i : Nat) (v : Word) : (wr s r i v).dcp = s.dcp := rfl
@[simp] theorem wr_decoders (s : State) (r : Reg) (i : Nat) (v : Word) : (wr s r i v).decoders = s.decoders := rfl
@[simp] theorem wr_wrp (s : State) (r : Reg) (i : Nat) (v : Word) : (wr s r i v).wrp = s.wrp := rfl
@[simp] theorem wr_shts (s : State) (r : Reg) (i : Nat) (v : Word) : (wr s r i v).shts = s.shts := rfl
@[simp] theorem wr_loom (s : State) (r : Reg) (i : Nat) (v : Word) : (wr s r i v).loom = s.loom := rfl
@[simp] theorem wr_codeLoad (s : State) (r : Reg) (i : Nat) (v : Word) : (wr s r i v).codeLoad = s.codeLoad := rfl
@[simp] theorem wr_patch (s : State) (r : Reg) (i : Nat) (v : Word) : (wr s r i v).patch = s.patch := rfl
@[simp] theorem wr_pending (s : State) (r : Reg) (i : Nat) (v : Word) : (wr s r i v).pending = s.pending := rfl

/-! A field set. -/

@[simp] theorem setFld_part (s : State) (f : Fld) (i v : Nat) : (setFld s f i v).part = s.part := rfl
@[simp] theorem setFld_board (s : State) (f : Fld) (i v : Nat) : (setFld s f i v).board = s.board := rfl
@[simp] theorem setFld_mem (s : State) (f : Fld) (i v : Nat) : (setFld s f i v).mem = s.mem := rfl
@[simp] theorem setFld_free (s : State) (f : Fld) (i v : Nat) : (setFld s f i v).free = s.free := rfl
@[simp] theorem setFld_bus (s : State) (f : Fld) (i v : Nat) : (setFld s f i v).bus = s.bus := rfl
@[simp] theorem setFld_ckr (s : State) (f : Fld) (i v : Nat) : (setFld s f i v).ckr = s.ckr := rfl
@[simp] theorem setFld_cal (s : State) (f : Fld) (i v : Nat) : (setFld s f i v).cal = s.cal := rfl
@[simp] theorem setFld_fcl (s : State) (f : Fld) (i v : Nat) : (setFld s f i v).fcl = s.fcl := rfl
@[simp] theorem setFld_evr (s : State) (f : Fld) (i v : Nat) : (setFld s f i v).evr = s.evr := rfl
@[simp] theorem setFld_zones (s : State) (f : Fld) (i v : Nat) : (setFld s f i v).zones = s.zones := rfl
@[simp] theorem setFld_svg (s : State) (f : Fld) (i v : Nat) : (setFld s f i v).svg = s.svg := rfl
@[simp] theorem setFld_cte (s : State) (f : Fld) (i v : Nat) : (setFld s f i v).cte = s.cte := rfl
@[simp] theorem setFld_spn (s : State) (f : Fld) (i v : Nat) : (setFld s f i v).spn = s.spn := rfl
@[simp] theorem setFld_sec (s : State) (f : Fld) (i v : Nat) : (setFld s f i v).sec = s.sec := rfl
@[simp] theorem setFld_syc (s : State) (f : Fld) (i v : Nat) : (setFld s f i v).syc = s.syc := rfl
@[simp] theorem setFld_bfm (s : State) (f : Fld) (i v : Nat) : (setFld s f i v).bfm = s.bfm := rfl
@[simp] theorem setFld_l2 (s : State) (f : Fld) (i v : Nat) : (setFld s f i v).l2 = s.l2 := rfl
@[simp] theorem setFld_gly (s : State) (f : Fld) (i v : Nat) : (setFld s f i v).gly = s.gly := rfl
@[simp] theorem setFld_hfe (s : State) (f : Fld) (i v : Nat) : (setFld s f i v).hfe = s.hfe := rfl
@[simp] theorem setFld_chans (s : State) (f : Fld) (i v : Nat) : (setFld s f i v).chans = s.chans := rfl
@[simp] theorem setFld_spools (s : State) (f : Fld) (i v : Nat) : (setFld s f i v).spools = s.spools := rfl
@[simp] theorem setFld_flt (s : State) (f : Fld) (i v : Nat) : (setFld s f i v).flt = s.flt := rfl
@[simp] theorem setFld_svc (s : State) (f : Fld) (i v : Nat) : (setFld s f i v).svc = s.svc := rfl
@[simp] theorem setFld_ofl (s : State) (f : Fld) (i v : Nat) : (setFld s f i v).ofl = s.ofl := rfl
@[simp] theorem setFld_mgt (s : State) (f : Fld) (i v : Nat) : (setFld s f i v).mgt = s.mgt := rfl
@[simp] theorem setFld_dmaPtr (s : State) (f : Fld) (i v : Nat) : (setFld s f i v).dmaPtr = s.dmaPtr := rfl
@[simp] theorem setFld_hdl (s : State) (f : Fld) (i v : Nat) : (setFld s f i v).hdl = s.hdl := rfl
@[simp] theorem setFld_tag (s : State) (f : Fld) (i v : Nat) : (setFld s f i v).tag = s.tag := rfl
@[simp] theorem setFld_pairs (s : State) (f : Fld) (i v : Nat) : (setFld s f i v).pairs = s.pairs := rfl
@[simp] theorem setFld_dcp (s : State) (f : Fld) (i v : Nat) : (setFld s f i v).dcp = s.dcp := rfl
@[simp] theorem setFld_decoders (s : State) (f : Fld) (i v : Nat) : (setFld s f i v).decoders = s.decoders := rfl
@[simp] theorem setFld_wrp (s : State) (f : Fld) (i v : Nat) : (setFld s f i v).wrp = s.wrp := rfl
@[simp] theorem setFld_shts (s : State) (f : Fld) (i v : Nat) : (setFld s f i v).shts = s.shts := rfl
@[simp] theorem setFld_loom (s : State) (f : Fld) (i v : Nat) : (setFld s f i v).loom = s.loom := rfl
@[simp] theorem setFld_codeLoad (s : State) (f : Fld) (i v : Nat) : (setFld s f i v).codeLoad = s.codeLoad := rfl
@[simp] theorem setFld_patch (s : State) (f : Fld) (i v : Nat) : (setFld s f i v).patch = s.patch := rfl
@[simp] theorem setFld_pending (s : State) (f : Fld) (i v : Nat) : (setFld s f i v).pending = s.pending := rfl

/-! A flag set. -/

@[simp] theorem setFlag_part (s : State) (f : Fld) (i : Nat) (b : Bool) : (setFlag s f i b).part = s.part := rfl
@[simp] theorem setFlag_board (s : State) (f : Fld) (i : Nat) (b : Bool) : (setFlag s f i b).board = s.board := rfl
@[simp] theorem setFlag_mem (s : State) (f : Fld) (i : Nat) (b : Bool) : (setFlag s f i b).mem = s.mem := rfl
@[simp] theorem setFlag_free (s : State) (f : Fld) (i : Nat) (b : Bool) : (setFlag s f i b).free = s.free := rfl
@[simp] theorem setFlag_bus (s : State) (f : Fld) (i : Nat) (b : Bool) : (setFlag s f i b).bus = s.bus := rfl
@[simp] theorem setFlag_ckr (s : State) (f : Fld) (i : Nat) (b : Bool) : (setFlag s f i b).ckr = s.ckr := rfl
@[simp] theorem setFlag_cal (s : State) (f : Fld) (i : Nat) (b : Bool) : (setFlag s f i b).cal = s.cal := rfl
@[simp] theorem setFlag_fcl (s : State) (f : Fld) (i : Nat) (b : Bool) : (setFlag s f i b).fcl = s.fcl := rfl
@[simp] theorem setFlag_evr (s : State) (f : Fld) (i : Nat) (b : Bool) : (setFlag s f i b).evr = s.evr := rfl
@[simp] theorem setFlag_zones (s : State) (f : Fld) (i : Nat) (b : Bool) : (setFlag s f i b).zones = s.zones := rfl
@[simp] theorem setFlag_svg (s : State) (f : Fld) (i : Nat) (b : Bool) : (setFlag s f i b).svg = s.svg := rfl
@[simp] theorem setFlag_cte (s : State) (f : Fld) (i : Nat) (b : Bool) : (setFlag s f i b).cte = s.cte := rfl
@[simp] theorem setFlag_spn (s : State) (f : Fld) (i : Nat) (b : Bool) : (setFlag s f i b).spn = s.spn := rfl
@[simp] theorem setFlag_sec (s : State) (f : Fld) (i : Nat) (b : Bool) : (setFlag s f i b).sec = s.sec := rfl
@[simp] theorem setFlag_syc (s : State) (f : Fld) (i : Nat) (b : Bool) : (setFlag s f i b).syc = s.syc := rfl
@[simp] theorem setFlag_bfm (s : State) (f : Fld) (i : Nat) (b : Bool) : (setFlag s f i b).bfm = s.bfm := rfl
@[simp] theorem setFlag_l2 (s : State) (f : Fld) (i : Nat) (b : Bool) : (setFlag s f i b).l2 = s.l2 := rfl
@[simp] theorem setFlag_gly (s : State) (f : Fld) (i : Nat) (b : Bool) : (setFlag s f i b).gly = s.gly := rfl
@[simp] theorem setFlag_hfe (s : State) (f : Fld) (i : Nat) (b : Bool) : (setFlag s f i b).hfe = s.hfe := rfl
@[simp] theorem setFlag_chans (s : State) (f : Fld) (i : Nat) (b : Bool) : (setFlag s f i b).chans = s.chans := rfl
@[simp] theorem setFlag_spools (s : State) (f : Fld) (i : Nat) (b : Bool) : (setFlag s f i b).spools = s.spools := rfl
@[simp] theorem setFlag_flt (s : State) (f : Fld) (i : Nat) (b : Bool) : (setFlag s f i b).flt = s.flt := rfl
@[simp] theorem setFlag_svc (s : State) (f : Fld) (i : Nat) (b : Bool) : (setFlag s f i b).svc = s.svc := rfl
@[simp] theorem setFlag_ofl (s : State) (f : Fld) (i : Nat) (b : Bool) : (setFlag s f i b).ofl = s.ofl := rfl
@[simp] theorem setFlag_mgt (s : State) (f : Fld) (i : Nat) (b : Bool) : (setFlag s f i b).mgt = s.mgt := rfl
@[simp] theorem setFlag_dmaPtr (s : State) (f : Fld) (i : Nat) (b : Bool) : (setFlag s f i b).dmaPtr = s.dmaPtr := rfl
@[simp] theorem setFlag_hdl (s : State) (f : Fld) (i : Nat) (b : Bool) : (setFlag s f i b).hdl = s.hdl := rfl
@[simp] theorem setFlag_tag (s : State) (f : Fld) (i : Nat) (b : Bool) : (setFlag s f i b).tag = s.tag := rfl
@[simp] theorem setFlag_pairs (s : State) (f : Fld) (i : Nat) (b : Bool) : (setFlag s f i b).pairs = s.pairs := rfl
@[simp] theorem setFlag_dcp (s : State) (f : Fld) (i : Nat) (b : Bool) : (setFlag s f i b).dcp = s.dcp := rfl
@[simp] theorem setFlag_decoders (s : State) (f : Fld) (i : Nat) (b : Bool) : (setFlag s f i b).decoders = s.decoders := rfl
@[simp] theorem setFlag_wrp (s : State) (f : Fld) (i : Nat) (b : Bool) : (setFlag s f i b).wrp = s.wrp := rfl
@[simp] theorem setFlag_shts (s : State) (f : Fld) (i : Nat) (b : Bool) : (setFlag s f i b).shts = s.shts := rfl
@[simp] theorem setFlag_loom (s : State) (f : Fld) (i : Nat) (b : Bool) : (setFlag s f i b).loom = s.loom := rfl
@[simp] theorem setFlag_codeLoad (s : State) (f : Fld) (i : Nat) (b : Bool) : (setFlag s f i b).codeLoad = s.codeLoad := rfl
@[simp] theorem setFlag_patch (s : State) (f : Fld) (i : Nat) (b : Bool) : (setFlag s f i b).patch = s.patch := rfl
@[simp] theorem setFlag_pending (s : State) (f : Fld) (i : Nat) (b : Bool) : (setFlag s f i b).pending = s.pending := rfl

/-! A byte of memory stored. -/

@[simp] theorem writeByte_part (s : State) (a : Nat) (v : Byte) : (writeByte s a v).part = s.part := rfl
@[simp] theorem writeByte_board (s : State) (a : Nat) (v : Byte) : (writeByte s a v).board = s.board := rfl
@[simp] theorem writeByte_regs (s : State) (a : Nat) (v : Byte) : (writeByte s a v).regs = s.regs := rfl
@[simp] theorem writeByte_free (s : State) (a : Nat) (v : Byte) : (writeByte s a v).free = s.free := rfl
@[simp] theorem writeByte_bus (s : State) (a : Nat) (v : Byte) : (writeByte s a v).bus = s.bus := rfl
@[simp] theorem writeByte_ckr (s : State) (a : Nat) (v : Byte) : (writeByte s a v).ckr = s.ckr := rfl
@[simp] theorem writeByte_cal (s : State) (a : Nat) (v : Byte) : (writeByte s a v).cal = s.cal := rfl
@[simp] theorem writeByte_fcl (s : State) (a : Nat) (v : Byte) : (writeByte s a v).fcl = s.fcl := rfl
@[simp] theorem writeByte_evr (s : State) (a : Nat) (v : Byte) : (writeByte s a v).evr = s.evr := rfl
@[simp] theorem writeByte_zones (s : State) (a : Nat) (v : Byte) : (writeByte s a v).zones = s.zones := rfl
@[simp] theorem writeByte_svg (s : State) (a : Nat) (v : Byte) : (writeByte s a v).svg = s.svg := rfl
@[simp] theorem writeByte_cte (s : State) (a : Nat) (v : Byte) : (writeByte s a v).cte = s.cte := rfl
@[simp] theorem writeByte_spn (s : State) (a : Nat) (v : Byte) : (writeByte s a v).spn = s.spn := rfl
@[simp] theorem writeByte_sec (s : State) (a : Nat) (v : Byte) : (writeByte s a v).sec = s.sec := rfl
@[simp] theorem writeByte_syc (s : State) (a : Nat) (v : Byte) : (writeByte s a v).syc = s.syc := rfl
@[simp] theorem writeByte_bfm (s : State) (a : Nat) (v : Byte) : (writeByte s a v).bfm = s.bfm := rfl
@[simp] theorem writeByte_l2 (s : State) (a : Nat) (v : Byte) : (writeByte s a v).l2 = s.l2 := rfl
@[simp] theorem writeByte_gly (s : State) (a : Nat) (v : Byte) : (writeByte s a v).gly = s.gly := rfl
@[simp] theorem writeByte_hfe (s : State) (a : Nat) (v : Byte) : (writeByte s a v).hfe = s.hfe := rfl
@[simp] theorem writeByte_chans (s : State) (a : Nat) (v : Byte) : (writeByte s a v).chans = s.chans := rfl
@[simp] theorem writeByte_spools (s : State) (a : Nat) (v : Byte) : (writeByte s a v).spools = s.spools := rfl
@[simp] theorem writeByte_flt (s : State) (a : Nat) (v : Byte) : (writeByte s a v).flt = s.flt := rfl
@[simp] theorem writeByte_svc (s : State) (a : Nat) (v : Byte) : (writeByte s a v).svc = s.svc := rfl
@[simp] theorem writeByte_ofl (s : State) (a : Nat) (v : Byte) : (writeByte s a v).ofl = s.ofl := rfl
@[simp] theorem writeByte_mgt (s : State) (a : Nat) (v : Byte) : (writeByte s a v).mgt = s.mgt := rfl
@[simp] theorem writeByte_dmaPtr (s : State) (a : Nat) (v : Byte) : (writeByte s a v).dmaPtr = s.dmaPtr := rfl
@[simp] theorem writeByte_hdl (s : State) (a : Nat) (v : Byte) : (writeByte s a v).hdl = s.hdl := rfl
@[simp] theorem writeByte_tag (s : State) (a : Nat) (v : Byte) : (writeByte s a v).tag = s.tag := rfl
@[simp] theorem writeByte_pairs (s : State) (a : Nat) (v : Byte) : (writeByte s a v).pairs = s.pairs := rfl
@[simp] theorem writeByte_dcp (s : State) (a : Nat) (v : Byte) : (writeByte s a v).dcp = s.dcp := rfl
@[simp] theorem writeByte_decoders (s : State) (a : Nat) (v : Byte) : (writeByte s a v).decoders = s.decoders := rfl
@[simp] theorem writeByte_wrp (s : State) (a : Nat) (v : Byte) : (writeByte s a v).wrp = s.wrp := rfl
@[simp] theorem writeByte_shts (s : State) (a : Nat) (v : Byte) : (writeByte s a v).shts = s.shts := rfl
@[simp] theorem writeByte_loom (s : State) (a : Nat) (v : Byte) : (writeByte s a v).loom = s.loom := rfl
@[simp] theorem writeByte_codeLoad (s : State) (a : Nat) (v : Byte) : (writeByte s a v).codeLoad = s.codeLoad := rfl
@[simp] theorem writeByte_patch (s : State) (a : Nat) (v : Byte) : (writeByte s a v).patch = s.patch := rfl
@[simp] theorem writeByte_pending (s : State) (a : Nat) (v : Byte) : (writeByte s a v).pending = s.pending := rfl

/-! An access answered. -/

@[simp] theorem answer_part (s : State) (v : Word) : (answer s v).part = s.part := rfl
@[simp] theorem answer_board (s : State) (v : Word) : (answer s v).board = s.board := rfl
@[simp] theorem answer_regs (s : State) (v : Word) : (answer s v).regs = s.regs := rfl
@[simp] theorem answer_mem (s : State) (v : Word) : (answer s v).mem = s.mem := rfl
@[simp] theorem answer_free (s : State) (v : Word) : (answer s v).free = s.free := rfl
@[simp] theorem answer_ckr (s : State) (v : Word) : (answer s v).ckr = s.ckr := rfl
@[simp] theorem answer_cal (s : State) (v : Word) : (answer s v).cal = s.cal := rfl
@[simp] theorem answer_fcl (s : State) (v : Word) : (answer s v).fcl = s.fcl := rfl
@[simp] theorem answer_evr (s : State) (v : Word) : (answer s v).evr = s.evr := rfl
@[simp] theorem answer_zones (s : State) (v : Word) : (answer s v).zones = s.zones := rfl
@[simp] theorem answer_svg (s : State) (v : Word) : (answer s v).svg = s.svg := rfl
@[simp] theorem answer_cte (s : State) (v : Word) : (answer s v).cte = s.cte := rfl
@[simp] theorem answer_spn (s : State) (v : Word) : (answer s v).spn = s.spn := rfl
@[simp] theorem answer_sec (s : State) (v : Word) : (answer s v).sec = s.sec := rfl
@[simp] theorem answer_syc (s : State) (v : Word) : (answer s v).syc = s.syc := rfl
@[simp] theorem answer_bfm (s : State) (v : Word) : (answer s v).bfm = s.bfm := rfl
@[simp] theorem answer_l2 (s : State) (v : Word) : (answer s v).l2 = s.l2 := rfl
@[simp] theorem answer_gly (s : State) (v : Word) : (answer s v).gly = s.gly := rfl
@[simp] theorem answer_hfe (s : State) (v : Word) : (answer s v).hfe = s.hfe := rfl
@[simp] theorem answer_chans (s : State) (v : Word) : (answer s v).chans = s.chans := rfl
@[simp] theorem answer_spools (s : State) (v : Word) : (answer s v).spools = s.spools := rfl
@[simp] theorem answer_flt (s : State) (v : Word) : (answer s v).flt = s.flt := rfl
@[simp] theorem answer_svc (s : State) (v : Word) : (answer s v).svc = s.svc := rfl
@[simp] theorem answer_ofl (s : State) (v : Word) : (answer s v).ofl = s.ofl := rfl
@[simp] theorem answer_mgt (s : State) (v : Word) : (answer s v).mgt = s.mgt := rfl
@[simp] theorem answer_dmaPtr (s : State) (v : Word) : (answer s v).dmaPtr = s.dmaPtr := rfl
@[simp] theorem answer_hdl (s : State) (v : Word) : (answer s v).hdl = s.hdl := rfl
@[simp] theorem answer_tag (s : State) (v : Word) : (answer s v).tag = s.tag := rfl
@[simp] theorem answer_pairs (s : State) (v : Word) : (answer s v).pairs = s.pairs := rfl
@[simp] theorem answer_dcp (s : State) (v : Word) : (answer s v).dcp = s.dcp := rfl
@[simp] theorem answer_decoders (s : State) (v : Word) : (answer s v).decoders = s.decoders := rfl
@[simp] theorem answer_wrp (s : State) (v : Word) : (answer s v).wrp = s.wrp := rfl
@[simp] theorem answer_shts (s : State) (v : Word) : (answer s v).shts = s.shts := rfl
@[simp] theorem answer_loom (s : State) (v : Word) : (answer s v).loom = s.loom := rfl
@[simp] theorem answer_codeLoad (s : State) (v : Word) : (answer s v).codeLoad = s.codeLoad := rfl
@[simp] theorem answer_patch (s : State) (v : Word) : (answer s v).patch = s.patch := rfl
@[simp] theorem answer_pending (s : State) (v : Word) : (answer s v).pending = s.pending := rfl

/-! HDL replaced. -/

@[simp] theorem setHdl_part (s : State) (a : Nat) (h : HdlAct) : (setHdl s a h).part = s.part := rfl
@[simp] theorem setHdl_board (s : State) (a : Nat) (h : HdlAct) : (setHdl s a h).board = s.board := rfl
@[simp] theorem setHdl_regs (s : State) (a : Nat) (h : HdlAct) : (setHdl s a h).regs = s.regs := rfl
@[simp] theorem setHdl_mem (s : State) (a : Nat) (h : HdlAct) : (setHdl s a h).mem = s.mem := rfl
@[simp] theorem setHdl_free (s : State) (a : Nat) (h : HdlAct) : (setHdl s a h).free = s.free := rfl
@[simp] theorem setHdl_bus (s : State) (a : Nat) (h : HdlAct) : (setHdl s a h).bus = s.bus := rfl
@[simp] theorem setHdl_ckr (s : State) (a : Nat) (h : HdlAct) : (setHdl s a h).ckr = s.ckr := rfl
@[simp] theorem setHdl_cal (s : State) (a : Nat) (h : HdlAct) : (setHdl s a h).cal = s.cal := rfl
@[simp] theorem setHdl_fcl (s : State) (a : Nat) (h : HdlAct) : (setHdl s a h).fcl = s.fcl := rfl
@[simp] theorem setHdl_evr (s : State) (a : Nat) (h : HdlAct) : (setHdl s a h).evr = s.evr := rfl
@[simp] theorem setHdl_zones (s : State) (a : Nat) (h : HdlAct) : (setHdl s a h).zones = s.zones := rfl
@[simp] theorem setHdl_svg (s : State) (a : Nat) (h : HdlAct) : (setHdl s a h).svg = s.svg := rfl
@[simp] theorem setHdl_cte (s : State) (a : Nat) (h : HdlAct) : (setHdl s a h).cte = s.cte := rfl
@[simp] theorem setHdl_spn (s : State) (a : Nat) (h : HdlAct) : (setHdl s a h).spn = s.spn := rfl
@[simp] theorem setHdl_sec (s : State) (a : Nat) (h : HdlAct) : (setHdl s a h).sec = s.sec := rfl
@[simp] theorem setHdl_syc (s : State) (a : Nat) (h : HdlAct) : (setHdl s a h).syc = s.syc := rfl
@[simp] theorem setHdl_bfm (s : State) (a : Nat) (h : HdlAct) : (setHdl s a h).bfm = s.bfm := rfl
@[simp] theorem setHdl_l2 (s : State) (a : Nat) (h : HdlAct) : (setHdl s a h).l2 = s.l2 := rfl
@[simp] theorem setHdl_gly (s : State) (a : Nat) (h : HdlAct) : (setHdl s a h).gly = s.gly := rfl
@[simp] theorem setHdl_hfe (s : State) (a : Nat) (h : HdlAct) : (setHdl s a h).hfe = s.hfe := rfl
@[simp] theorem setHdl_chans (s : State) (a : Nat) (h : HdlAct) : (setHdl s a h).chans = s.chans := rfl
@[simp] theorem setHdl_spools (s : State) (a : Nat) (h : HdlAct) : (setHdl s a h).spools = s.spools := rfl
@[simp] theorem setHdl_flt (s : State) (a : Nat) (h : HdlAct) : (setHdl s a h).flt = s.flt := rfl
@[simp] theorem setHdl_svc (s : State) (a : Nat) (h : HdlAct) : (setHdl s a h).svc = s.svc := rfl
@[simp] theorem setHdl_ofl (s : State) (a : Nat) (h : HdlAct) : (setHdl s a h).ofl = s.ofl := rfl
@[simp] theorem setHdl_mgt (s : State) (a : Nat) (h : HdlAct) : (setHdl s a h).mgt = s.mgt := rfl
@[simp] theorem setHdl_dmaPtr (s : State) (a : Nat) (h : HdlAct) : (setHdl s a h).dmaPtr = s.dmaPtr := rfl
@[simp] theorem setHdl_tag (s : State) (a : Nat) (h : HdlAct) : (setHdl s a h).tag = s.tag := rfl
@[simp] theorem setHdl_pairs (s : State) (a : Nat) (h : HdlAct) : (setHdl s a h).pairs = s.pairs := rfl
@[simp] theorem setHdl_dcp (s : State) (a : Nat) (h : HdlAct) : (setHdl s a h).dcp = s.dcp := rfl
@[simp] theorem setHdl_decoders (s : State) (a : Nat) (h : HdlAct) : (setHdl s a h).decoders = s.decoders := rfl
@[simp] theorem setHdl_wrp (s : State) (a : Nat) (h : HdlAct) : (setHdl s a h).wrp = s.wrp := rfl
@[simp] theorem setHdl_shts (s : State) (a : Nat) (h : HdlAct) : (setHdl s a h).shts = s.shts := rfl
@[simp] theorem setHdl_loom (s : State) (a : Nat) (h : HdlAct) : (setHdl s a h).loom = s.loom := rfl
@[simp] theorem setHdl_codeLoad (s : State) (a : Nat) (h : HdlAct) : (setHdl s a h).codeLoad = s.codeLoad := rfl
@[simp] theorem setHdl_patch (s : State) (a : Nat) (h : HdlAct) : (setHdl s a h).patch = s.patch := rfl
@[simp] theorem setHdl_pending (s : State) (a : Nat) (h : HdlAct) : (setHdl s a h).pending = s.pending := rfl

/-! A lane pair replaced. -/

@[simp] theorem setPair_part (s : State) (a : Nat) (h : Pair) : (setPair s a h).part = s.part := rfl
@[simp] theorem setPair_board (s : State) (a : Nat) (h : Pair) : (setPair s a h).board = s.board := rfl
@[simp] theorem setPair_regs (s : State) (a : Nat) (h : Pair) : (setPair s a h).regs = s.regs := rfl
@[simp] theorem setPair_mem (s : State) (a : Nat) (h : Pair) : (setPair s a h).mem = s.mem := rfl
@[simp] theorem setPair_free (s : State) (a : Nat) (h : Pair) : (setPair s a h).free = s.free := rfl
@[simp] theorem setPair_bus (s : State) (a : Nat) (h : Pair) : (setPair s a h).bus = s.bus := rfl
@[simp] theorem setPair_ckr (s : State) (a : Nat) (h : Pair) : (setPair s a h).ckr = s.ckr := rfl
@[simp] theorem setPair_cal (s : State) (a : Nat) (h : Pair) : (setPair s a h).cal = s.cal := rfl
@[simp] theorem setPair_fcl (s : State) (a : Nat) (h : Pair) : (setPair s a h).fcl = s.fcl := rfl
@[simp] theorem setPair_evr (s : State) (a : Nat) (h : Pair) : (setPair s a h).evr = s.evr := rfl
@[simp] theorem setPair_zones (s : State) (a : Nat) (h : Pair) : (setPair s a h).zones = s.zones := rfl
@[simp] theorem setPair_svg (s : State) (a : Nat) (h : Pair) : (setPair s a h).svg = s.svg := rfl
@[simp] theorem setPair_cte (s : State) (a : Nat) (h : Pair) : (setPair s a h).cte = s.cte := rfl
@[simp] theorem setPair_spn (s : State) (a : Nat) (h : Pair) : (setPair s a h).spn = s.spn := rfl
@[simp] theorem setPair_sec (s : State) (a : Nat) (h : Pair) : (setPair s a h).sec = s.sec := rfl
@[simp] theorem setPair_syc (s : State) (a : Nat) (h : Pair) : (setPair s a h).syc = s.syc := rfl
@[simp] theorem setPair_bfm (s : State) (a : Nat) (h : Pair) : (setPair s a h).bfm = s.bfm := rfl
@[simp] theorem setPair_l2 (s : State) (a : Nat) (h : Pair) : (setPair s a h).l2 = s.l2 := rfl
@[simp] theorem setPair_gly (s : State) (a : Nat) (h : Pair) : (setPair s a h).gly = s.gly := rfl
@[simp] theorem setPair_hfe (s : State) (a : Nat) (h : Pair) : (setPair s a h).hfe = s.hfe := rfl
@[simp] theorem setPair_chans (s : State) (a : Nat) (h : Pair) : (setPair s a h).chans = s.chans := rfl
@[simp] theorem setPair_spools (s : State) (a : Nat) (h : Pair) : (setPair s a h).spools = s.spools := rfl
@[simp] theorem setPair_flt (s : State) (a : Nat) (h : Pair) : (setPair s a h).flt = s.flt := rfl
@[simp] theorem setPair_svc (s : State) (a : Nat) (h : Pair) : (setPair s a h).svc = s.svc := rfl
@[simp] theorem setPair_ofl (s : State) (a : Nat) (h : Pair) : (setPair s a h).ofl = s.ofl := rfl
@[simp] theorem setPair_mgt (s : State) (a : Nat) (h : Pair) : (setPair s a h).mgt = s.mgt := rfl
@[simp] theorem setPair_dmaPtr (s : State) (a : Nat) (h : Pair) : (setPair s a h).dmaPtr = s.dmaPtr := rfl
@[simp] theorem setPair_hdl (s : State) (a : Nat) (h : Pair) : (setPair s a h).hdl = s.hdl := rfl
@[simp] theorem setPair_tag (s : State) (a : Nat) (h : Pair) : (setPair s a h).tag = s.tag := rfl
@[simp] theorem setPair_dcp (s : State) (a : Nat) (h : Pair) : (setPair s a h).dcp = s.dcp := rfl
@[simp] theorem setPair_decoders (s : State) (a : Nat) (h : Pair) : (setPair s a h).decoders = s.decoders := rfl
@[simp] theorem setPair_wrp (s : State) (a : Nat) (h : Pair) : (setPair s a h).wrp = s.wrp := rfl
@[simp] theorem setPair_shts (s : State) (a : Nat) (h : Pair) : (setPair s a h).shts = s.shts := rfl
@[simp] theorem setPair_loom (s : State) (a : Nat) (h : Pair) : (setPair s a h).loom = s.loom := rfl
@[simp] theorem setPair_codeLoad (s : State) (a : Nat) (h : Pair) : (setPair s a h).codeLoad = s.codeLoad := rfl
@[simp] theorem setPair_patch (s : State) (a : Nat) (h : Pair) : (setPair s a h).patch = s.patch := rfl
@[simp] theorem setPair_pending (s : State) (a : Nat) (h : Pair) : (setPair s a h).pending = s.pending := rfl

/-! A pool replaced. -/

@[simp] theorem setDcp_part (s : State) (a : Nat) (h : DcpAct) : (setDcp s a h).part = s.part := rfl
@[simp] theorem setDcp_board (s : State) (a : Nat) (h : DcpAct) : (setDcp s a h).board = s.board := rfl
@[simp] theorem setDcp_regs (s : State) (a : Nat) (h : DcpAct) : (setDcp s a h).regs = s.regs := rfl
@[simp] theorem setDcp_mem (s : State) (a : Nat) (h : DcpAct) : (setDcp s a h).mem = s.mem := rfl
@[simp] theorem setDcp_free (s : State) (a : Nat) (h : DcpAct) : (setDcp s a h).free = s.free := rfl
@[simp] theorem setDcp_bus (s : State) (a : Nat) (h : DcpAct) : (setDcp s a h).bus = s.bus := rfl
@[simp] theorem setDcp_ckr (s : State) (a : Nat) (h : DcpAct) : (setDcp s a h).ckr = s.ckr := rfl
@[simp] theorem setDcp_cal (s : State) (a : Nat) (h : DcpAct) : (setDcp s a h).cal = s.cal := rfl
@[simp] theorem setDcp_fcl (s : State) (a : Nat) (h : DcpAct) : (setDcp s a h).fcl = s.fcl := rfl
@[simp] theorem setDcp_evr (s : State) (a : Nat) (h : DcpAct) : (setDcp s a h).evr = s.evr := rfl
@[simp] theorem setDcp_zones (s : State) (a : Nat) (h : DcpAct) : (setDcp s a h).zones = s.zones := rfl
@[simp] theorem setDcp_svg (s : State) (a : Nat) (h : DcpAct) : (setDcp s a h).svg = s.svg := rfl
@[simp] theorem setDcp_cte (s : State) (a : Nat) (h : DcpAct) : (setDcp s a h).cte = s.cte := rfl
@[simp] theorem setDcp_spn (s : State) (a : Nat) (h : DcpAct) : (setDcp s a h).spn = s.spn := rfl
@[simp] theorem setDcp_sec (s : State) (a : Nat) (h : DcpAct) : (setDcp s a h).sec = s.sec := rfl
@[simp] theorem setDcp_syc (s : State) (a : Nat) (h : DcpAct) : (setDcp s a h).syc = s.syc := rfl
@[simp] theorem setDcp_bfm (s : State) (a : Nat) (h : DcpAct) : (setDcp s a h).bfm = s.bfm := rfl
@[simp] theorem setDcp_l2 (s : State) (a : Nat) (h : DcpAct) : (setDcp s a h).l2 = s.l2 := rfl
@[simp] theorem setDcp_gly (s : State) (a : Nat) (h : DcpAct) : (setDcp s a h).gly = s.gly := rfl
@[simp] theorem setDcp_hfe (s : State) (a : Nat) (h : DcpAct) : (setDcp s a h).hfe = s.hfe := rfl
@[simp] theorem setDcp_chans (s : State) (a : Nat) (h : DcpAct) : (setDcp s a h).chans = s.chans := rfl
@[simp] theorem setDcp_spools (s : State) (a : Nat) (h : DcpAct) : (setDcp s a h).spools = s.spools := rfl
@[simp] theorem setDcp_flt (s : State) (a : Nat) (h : DcpAct) : (setDcp s a h).flt = s.flt := rfl
@[simp] theorem setDcp_svc (s : State) (a : Nat) (h : DcpAct) : (setDcp s a h).svc = s.svc := rfl
@[simp] theorem setDcp_ofl (s : State) (a : Nat) (h : DcpAct) : (setDcp s a h).ofl = s.ofl := rfl
@[simp] theorem setDcp_mgt (s : State) (a : Nat) (h : DcpAct) : (setDcp s a h).mgt = s.mgt := rfl
@[simp] theorem setDcp_dmaPtr (s : State) (a : Nat) (h : DcpAct) : (setDcp s a h).dmaPtr = s.dmaPtr := rfl
@[simp] theorem setDcp_hdl (s : State) (a : Nat) (h : DcpAct) : (setDcp s a h).hdl = s.hdl := rfl
@[simp] theorem setDcp_tag (s : State) (a : Nat) (h : DcpAct) : (setDcp s a h).tag = s.tag := rfl
@[simp] theorem setDcp_pairs (s : State) (a : Nat) (h : DcpAct) : (setDcp s a h).pairs = s.pairs := rfl
@[simp] theorem setDcp_decoders (s : State) (a : Nat) (h : DcpAct) : (setDcp s a h).decoders = s.decoders := rfl
@[simp] theorem setDcp_wrp (s : State) (a : Nat) (h : DcpAct) : (setDcp s a h).wrp = s.wrp := rfl
@[simp] theorem setDcp_shts (s : State) (a : Nat) (h : DcpAct) : (setDcp s a h).shts = s.shts := rfl
@[simp] theorem setDcp_loom (s : State) (a : Nat) (h : DcpAct) : (setDcp s a h).loom = s.loom := rfl
@[simp] theorem setDcp_codeLoad (s : State) (a : Nat) (h : DcpAct) : (setDcp s a h).codeLoad = s.codeLoad := rfl
@[simp] theorem setDcp_patch (s : State) (a : Nat) (h : DcpAct) : (setDcp s a h).patch = s.patch := rfl
@[simp] theorem setDcp_pending (s : State) (a : Nat) (h : DcpAct) : (setDcp s a h).pending = s.pending := rfl

/-! A decoder replaced. -/

@[simp] theorem setDec_part (s : State) (a : Nat) (h : Decoder) : (setDec s a h).part = s.part := rfl
@[simp] theorem setDec_board (s : State) (a : Nat) (h : Decoder) : (setDec s a h).board = s.board := rfl
@[simp] theorem setDec_regs (s : State) (a : Nat) (h : Decoder) : (setDec s a h).regs = s.regs := rfl
@[simp] theorem setDec_mem (s : State) (a : Nat) (h : Decoder) : (setDec s a h).mem = s.mem := rfl
@[simp] theorem setDec_free (s : State) (a : Nat) (h : Decoder) : (setDec s a h).free = s.free := rfl
@[simp] theorem setDec_bus (s : State) (a : Nat) (h : Decoder) : (setDec s a h).bus = s.bus := rfl
@[simp] theorem setDec_ckr (s : State) (a : Nat) (h : Decoder) : (setDec s a h).ckr = s.ckr := rfl
@[simp] theorem setDec_cal (s : State) (a : Nat) (h : Decoder) : (setDec s a h).cal = s.cal := rfl
@[simp] theorem setDec_fcl (s : State) (a : Nat) (h : Decoder) : (setDec s a h).fcl = s.fcl := rfl
@[simp] theorem setDec_evr (s : State) (a : Nat) (h : Decoder) : (setDec s a h).evr = s.evr := rfl
@[simp] theorem setDec_zones (s : State) (a : Nat) (h : Decoder) : (setDec s a h).zones = s.zones := rfl
@[simp] theorem setDec_svg (s : State) (a : Nat) (h : Decoder) : (setDec s a h).svg = s.svg := rfl
@[simp] theorem setDec_cte (s : State) (a : Nat) (h : Decoder) : (setDec s a h).cte = s.cte := rfl
@[simp] theorem setDec_spn (s : State) (a : Nat) (h : Decoder) : (setDec s a h).spn = s.spn := rfl
@[simp] theorem setDec_sec (s : State) (a : Nat) (h : Decoder) : (setDec s a h).sec = s.sec := rfl
@[simp] theorem setDec_syc (s : State) (a : Nat) (h : Decoder) : (setDec s a h).syc = s.syc := rfl
@[simp] theorem setDec_bfm (s : State) (a : Nat) (h : Decoder) : (setDec s a h).bfm = s.bfm := rfl
@[simp] theorem setDec_l2 (s : State) (a : Nat) (h : Decoder) : (setDec s a h).l2 = s.l2 := rfl
@[simp] theorem setDec_gly (s : State) (a : Nat) (h : Decoder) : (setDec s a h).gly = s.gly := rfl
@[simp] theorem setDec_hfe (s : State) (a : Nat) (h : Decoder) : (setDec s a h).hfe = s.hfe := rfl
@[simp] theorem setDec_chans (s : State) (a : Nat) (h : Decoder) : (setDec s a h).chans = s.chans := rfl
@[simp] theorem setDec_spools (s : State) (a : Nat) (h : Decoder) : (setDec s a h).spools = s.spools := rfl
@[simp] theorem setDec_flt (s : State) (a : Nat) (h : Decoder) : (setDec s a h).flt = s.flt := rfl
@[simp] theorem setDec_svc (s : State) (a : Nat) (h : Decoder) : (setDec s a h).svc = s.svc := rfl
@[simp] theorem setDec_ofl (s : State) (a : Nat) (h : Decoder) : (setDec s a h).ofl = s.ofl := rfl
@[simp] theorem setDec_mgt (s : State) (a : Nat) (h : Decoder) : (setDec s a h).mgt = s.mgt := rfl
@[simp] theorem setDec_dmaPtr (s : State) (a : Nat) (h : Decoder) : (setDec s a h).dmaPtr = s.dmaPtr := rfl
@[simp] theorem setDec_hdl (s : State) (a : Nat) (h : Decoder) : (setDec s a h).hdl = s.hdl := rfl
@[simp] theorem setDec_tag (s : State) (a : Nat) (h : Decoder) : (setDec s a h).tag = s.tag := rfl
@[simp] theorem setDec_pairs (s : State) (a : Nat) (h : Decoder) : (setDec s a h).pairs = s.pairs := rfl
@[simp] theorem setDec_dcp (s : State) (a : Nat) (h : Decoder) : (setDec s a h).dcp = s.dcp := rfl
@[simp] theorem setDec_wrp (s : State) (a : Nat) (h : Decoder) : (setDec s a h).wrp = s.wrp := rfl
@[simp] theorem setDec_shts (s : State) (a : Nat) (h : Decoder) : (setDec s a h).shts = s.shts := rfl
@[simp] theorem setDec_loom (s : State) (a : Nat) (h : Decoder) : (setDec s a h).loom = s.loom := rfl
@[simp] theorem setDec_codeLoad (s : State) (a : Nat) (h : Decoder) : (setDec s a h).codeLoad = s.codeLoad := rfl
@[simp] theorem setDec_patch (s : State) (a : Nat) (h : Decoder) : (setDec s a h).patch = s.patch := rfl
@[simp] theorem setDec_pending (s : State) (a : Nat) (h : Decoder) : (setDec s a h).pending = s.pending := rfl

/-! A write path replaced. -/

@[simp] theorem setWrp_part (s : State) (a : Nat) (h : WrpAct) : (setWrp s a h).part = s.part := rfl
@[simp] theorem setWrp_board (s : State) (a : Nat) (h : WrpAct) : (setWrp s a h).board = s.board := rfl
@[simp] theorem setWrp_regs (s : State) (a : Nat) (h : WrpAct) : (setWrp s a h).regs = s.regs := rfl
@[simp] theorem setWrp_mem (s : State) (a : Nat) (h : WrpAct) : (setWrp s a h).mem = s.mem := rfl
@[simp] theorem setWrp_free (s : State) (a : Nat) (h : WrpAct) : (setWrp s a h).free = s.free := rfl
@[simp] theorem setWrp_bus (s : State) (a : Nat) (h : WrpAct) : (setWrp s a h).bus = s.bus := rfl
@[simp] theorem setWrp_ckr (s : State) (a : Nat) (h : WrpAct) : (setWrp s a h).ckr = s.ckr := rfl
@[simp] theorem setWrp_cal (s : State) (a : Nat) (h : WrpAct) : (setWrp s a h).cal = s.cal := rfl
@[simp] theorem setWrp_fcl (s : State) (a : Nat) (h : WrpAct) : (setWrp s a h).fcl = s.fcl := rfl
@[simp] theorem setWrp_evr (s : State) (a : Nat) (h : WrpAct) : (setWrp s a h).evr = s.evr := rfl
@[simp] theorem setWrp_zones (s : State) (a : Nat) (h : WrpAct) : (setWrp s a h).zones = s.zones := rfl
@[simp] theorem setWrp_svg (s : State) (a : Nat) (h : WrpAct) : (setWrp s a h).svg = s.svg := rfl
@[simp] theorem setWrp_cte (s : State) (a : Nat) (h : WrpAct) : (setWrp s a h).cte = s.cte := rfl
@[simp] theorem setWrp_spn (s : State) (a : Nat) (h : WrpAct) : (setWrp s a h).spn = s.spn := rfl
@[simp] theorem setWrp_sec (s : State) (a : Nat) (h : WrpAct) : (setWrp s a h).sec = s.sec := rfl
@[simp] theorem setWrp_syc (s : State) (a : Nat) (h : WrpAct) : (setWrp s a h).syc = s.syc := rfl
@[simp] theorem setWrp_bfm (s : State) (a : Nat) (h : WrpAct) : (setWrp s a h).bfm = s.bfm := rfl
@[simp] theorem setWrp_l2 (s : State) (a : Nat) (h : WrpAct) : (setWrp s a h).l2 = s.l2 := rfl
@[simp] theorem setWrp_gly (s : State) (a : Nat) (h : WrpAct) : (setWrp s a h).gly = s.gly := rfl
@[simp] theorem setWrp_hfe (s : State) (a : Nat) (h : WrpAct) : (setWrp s a h).hfe = s.hfe := rfl
@[simp] theorem setWrp_chans (s : State) (a : Nat) (h : WrpAct) : (setWrp s a h).chans = s.chans := rfl
@[simp] theorem setWrp_spools (s : State) (a : Nat) (h : WrpAct) : (setWrp s a h).spools = s.spools := rfl
@[simp] theorem setWrp_flt (s : State) (a : Nat) (h : WrpAct) : (setWrp s a h).flt = s.flt := rfl
@[simp] theorem setWrp_svc (s : State) (a : Nat) (h : WrpAct) : (setWrp s a h).svc = s.svc := rfl
@[simp] theorem setWrp_ofl (s : State) (a : Nat) (h : WrpAct) : (setWrp s a h).ofl = s.ofl := rfl
@[simp] theorem setWrp_mgt (s : State) (a : Nat) (h : WrpAct) : (setWrp s a h).mgt = s.mgt := rfl
@[simp] theorem setWrp_dmaPtr (s : State) (a : Nat) (h : WrpAct) : (setWrp s a h).dmaPtr = s.dmaPtr := rfl
@[simp] theorem setWrp_hdl (s : State) (a : Nat) (h : WrpAct) : (setWrp s a h).hdl = s.hdl := rfl
@[simp] theorem setWrp_tag (s : State) (a : Nat) (h : WrpAct) : (setWrp s a h).tag = s.tag := rfl
@[simp] theorem setWrp_pairs (s : State) (a : Nat) (h : WrpAct) : (setWrp s a h).pairs = s.pairs := rfl
@[simp] theorem setWrp_dcp (s : State) (a : Nat) (h : WrpAct) : (setWrp s a h).dcp = s.dcp := rfl
@[simp] theorem setWrp_decoders (s : State) (a : Nat) (h : WrpAct) : (setWrp s a h).decoders = s.decoders := rfl
@[simp] theorem setWrp_shts (s : State) (a : Nat) (h : WrpAct) : (setWrp s a h).shts = s.shts := rfl
@[simp] theorem setWrp_loom (s : State) (a : Nat) (h : WrpAct) : (setWrp s a h).loom = s.loom := rfl
@[simp] theorem setWrp_codeLoad (s : State) (a : Nat) (h : WrpAct) : (setWrp s a h).codeLoad = s.codeLoad := rfl
@[simp] theorem setWrp_patch (s : State) (a : Nat) (h : WrpAct) : (setWrp s a h).patch = s.patch := rfl
@[simp] theorem setWrp_pending (s : State) (a : Nat) (h : WrpAct) : (setWrp s a h).pending = s.pending := rfl

/-! A Shuttle replaced. -/

@[simp] theorem setSht_part (s : State) (a : Nat) (h : Shuttle) : (setSht s a h).part = s.part := rfl
@[simp] theorem setSht_board (s : State) (a : Nat) (h : Shuttle) : (setSht s a h).board = s.board := rfl
@[simp] theorem setSht_regs (s : State) (a : Nat) (h : Shuttle) : (setSht s a h).regs = s.regs := rfl
@[simp] theorem setSht_mem (s : State) (a : Nat) (h : Shuttle) : (setSht s a h).mem = s.mem := rfl
@[simp] theorem setSht_free (s : State) (a : Nat) (h : Shuttle) : (setSht s a h).free = s.free := rfl
@[simp] theorem setSht_bus (s : State) (a : Nat) (h : Shuttle) : (setSht s a h).bus = s.bus := rfl
@[simp] theorem setSht_ckr (s : State) (a : Nat) (h : Shuttle) : (setSht s a h).ckr = s.ckr := rfl
@[simp] theorem setSht_cal (s : State) (a : Nat) (h : Shuttle) : (setSht s a h).cal = s.cal := rfl
@[simp] theorem setSht_fcl (s : State) (a : Nat) (h : Shuttle) : (setSht s a h).fcl = s.fcl := rfl
@[simp] theorem setSht_evr (s : State) (a : Nat) (h : Shuttle) : (setSht s a h).evr = s.evr := rfl
@[simp] theorem setSht_zones (s : State) (a : Nat) (h : Shuttle) : (setSht s a h).zones = s.zones := rfl
@[simp] theorem setSht_svg (s : State) (a : Nat) (h : Shuttle) : (setSht s a h).svg = s.svg := rfl
@[simp] theorem setSht_cte (s : State) (a : Nat) (h : Shuttle) : (setSht s a h).cte = s.cte := rfl
@[simp] theorem setSht_spn (s : State) (a : Nat) (h : Shuttle) : (setSht s a h).spn = s.spn := rfl
@[simp] theorem setSht_sec (s : State) (a : Nat) (h : Shuttle) : (setSht s a h).sec = s.sec := rfl
@[simp] theorem setSht_syc (s : State) (a : Nat) (h : Shuttle) : (setSht s a h).syc = s.syc := rfl
@[simp] theorem setSht_bfm (s : State) (a : Nat) (h : Shuttle) : (setSht s a h).bfm = s.bfm := rfl
@[simp] theorem setSht_l2 (s : State) (a : Nat) (h : Shuttle) : (setSht s a h).l2 = s.l2 := rfl
@[simp] theorem setSht_gly (s : State) (a : Nat) (h : Shuttle) : (setSht s a h).gly = s.gly := rfl
@[simp] theorem setSht_hfe (s : State) (a : Nat) (h : Shuttle) : (setSht s a h).hfe = s.hfe := rfl
@[simp] theorem setSht_chans (s : State) (a : Nat) (h : Shuttle) : (setSht s a h).chans = s.chans := rfl
@[simp] theorem setSht_spools (s : State) (a : Nat) (h : Shuttle) : (setSht s a h).spools = s.spools := rfl
@[simp] theorem setSht_flt (s : State) (a : Nat) (h : Shuttle) : (setSht s a h).flt = s.flt := rfl
@[simp] theorem setSht_svc (s : State) (a : Nat) (h : Shuttle) : (setSht s a h).svc = s.svc := rfl
@[simp] theorem setSht_ofl (s : State) (a : Nat) (h : Shuttle) : (setSht s a h).ofl = s.ofl := rfl
@[simp] theorem setSht_mgt (s : State) (a : Nat) (h : Shuttle) : (setSht s a h).mgt = s.mgt := rfl
@[simp] theorem setSht_dmaPtr (s : State) (a : Nat) (h : Shuttle) : (setSht s a h).dmaPtr = s.dmaPtr := rfl
@[simp] theorem setSht_hdl (s : State) (a : Nat) (h : Shuttle) : (setSht s a h).hdl = s.hdl := rfl
@[simp] theorem setSht_tag (s : State) (a : Nat) (h : Shuttle) : (setSht s a h).tag = s.tag := rfl
@[simp] theorem setSht_pairs (s : State) (a : Nat) (h : Shuttle) : (setSht s a h).pairs = s.pairs := rfl
@[simp] theorem setSht_dcp (s : State) (a : Nat) (h : Shuttle) : (setSht s a h).dcp = s.dcp := rfl
@[simp] theorem setSht_decoders (s : State) (a : Nat) (h : Shuttle) : (setSht s a h).decoders = s.decoders := rfl
@[simp] theorem setSht_wrp (s : State) (a : Nat) (h : Shuttle) : (setSht s a h).wrp = s.wrp := rfl
@[simp] theorem setSht_loom (s : State) (a : Nat) (h : Shuttle) : (setSht s a h).loom = s.loom := rfl
@[simp] theorem setSht_codeLoad (s : State) (a : Nat) (h : Shuttle) : (setSht s a h).codeLoad = s.codeLoad := rfl
@[simp] theorem setSht_patch (s : State) (a : Nat) (h : Shuttle) : (setSht s a h).patch = s.patch := rfl
@[simp] theorem setSht_pending (s : State) (a : Nat) (h : Shuttle) : (setSht s a h).pending = s.pending := rfl

/-! A Selvage channel replaced. -/

@[simp] theorem setSvg_part (s : State) (a : Nat) (h : Svg) : (setSvg s a h).part = s.part := rfl
@[simp] theorem setSvg_board (s : State) (a : Nat) (h : Svg) : (setSvg s a h).board = s.board := rfl
@[simp] theorem setSvg_regs (s : State) (a : Nat) (h : Svg) : (setSvg s a h).regs = s.regs := rfl
@[simp] theorem setSvg_mem (s : State) (a : Nat) (h : Svg) : (setSvg s a h).mem = s.mem := rfl
@[simp] theorem setSvg_free (s : State) (a : Nat) (h : Svg) : (setSvg s a h).free = s.free := rfl
@[simp] theorem setSvg_bus (s : State) (a : Nat) (h : Svg) : (setSvg s a h).bus = s.bus := rfl
@[simp] theorem setSvg_ckr (s : State) (a : Nat) (h : Svg) : (setSvg s a h).ckr = s.ckr := rfl
@[simp] theorem setSvg_cal (s : State) (a : Nat) (h : Svg) : (setSvg s a h).cal = s.cal := rfl
@[simp] theorem setSvg_fcl (s : State) (a : Nat) (h : Svg) : (setSvg s a h).fcl = s.fcl := rfl
@[simp] theorem setSvg_evr (s : State) (a : Nat) (h : Svg) : (setSvg s a h).evr = s.evr := rfl
@[simp] theorem setSvg_zones (s : State) (a : Nat) (h : Svg) : (setSvg s a h).zones = s.zones := rfl
@[simp] theorem setSvg_cte (s : State) (a : Nat) (h : Svg) : (setSvg s a h).cte = s.cte := rfl
@[simp] theorem setSvg_spn (s : State) (a : Nat) (h : Svg) : (setSvg s a h).spn = s.spn := rfl
@[simp] theorem setSvg_sec (s : State) (a : Nat) (h : Svg) : (setSvg s a h).sec = s.sec := rfl
@[simp] theorem setSvg_syc (s : State) (a : Nat) (h : Svg) : (setSvg s a h).syc = s.syc := rfl
@[simp] theorem setSvg_bfm (s : State) (a : Nat) (h : Svg) : (setSvg s a h).bfm = s.bfm := rfl
@[simp] theorem setSvg_l2 (s : State) (a : Nat) (h : Svg) : (setSvg s a h).l2 = s.l2 := rfl
@[simp] theorem setSvg_gly (s : State) (a : Nat) (h : Svg) : (setSvg s a h).gly = s.gly := rfl
@[simp] theorem setSvg_hfe (s : State) (a : Nat) (h : Svg) : (setSvg s a h).hfe = s.hfe := rfl
@[simp] theorem setSvg_chans (s : State) (a : Nat) (h : Svg) : (setSvg s a h).chans = s.chans := rfl
@[simp] theorem setSvg_spools (s : State) (a : Nat) (h : Svg) : (setSvg s a h).spools = s.spools := rfl
@[simp] theorem setSvg_flt (s : State) (a : Nat) (h : Svg) : (setSvg s a h).flt = s.flt := rfl
@[simp] theorem setSvg_svc (s : State) (a : Nat) (h : Svg) : (setSvg s a h).svc = s.svc := rfl
@[simp] theorem setSvg_ofl (s : State) (a : Nat) (h : Svg) : (setSvg s a h).ofl = s.ofl := rfl
@[simp] theorem setSvg_mgt (s : State) (a : Nat) (h : Svg) : (setSvg s a h).mgt = s.mgt := rfl
@[simp] theorem setSvg_dmaPtr (s : State) (a : Nat) (h : Svg) : (setSvg s a h).dmaPtr = s.dmaPtr := rfl
@[simp] theorem setSvg_hdl (s : State) (a : Nat) (h : Svg) : (setSvg s a h).hdl = s.hdl := rfl
@[simp] theorem setSvg_tag (s : State) (a : Nat) (h : Svg) : (setSvg s a h).tag = s.tag := rfl
@[simp] theorem setSvg_pairs (s : State) (a : Nat) (h : Svg) : (setSvg s a h).pairs = s.pairs := rfl
@[simp] theorem setSvg_dcp (s : State) (a : Nat) (h : Svg) : (setSvg s a h).dcp = s.dcp := rfl
@[simp] theorem setSvg_decoders (s : State) (a : Nat) (h : Svg) : (setSvg s a h).decoders = s.decoders := rfl
@[simp] theorem setSvg_wrp (s : State) (a : Nat) (h : Svg) : (setSvg s a h).wrp = s.wrp := rfl
@[simp] theorem setSvg_shts (s : State) (a : Nat) (h : Svg) : (setSvg s a h).shts = s.shts := rfl
@[simp] theorem setSvg_loom (s : State) (a : Nat) (h : Svg) : (setSvg s a h).loom = s.loom := rfl
@[simp] theorem setSvg_codeLoad (s : State) (a : Nat) (h : Svg) : (setSvg s a h).codeLoad = s.codeLoad := rfl
@[simp] theorem setSvg_patch (s : State) (a : Nat) (h : Svg) : (setSvg s a h).patch = s.patch := rfl
@[simp] theorem setSvg_pending (s : State) (a : Nat) (h : Svg) : (setSvg s a h).pending = s.pending := rfl

/-! An actuator context replaced. -/

@[simp] theorem setCte_part (s : State) (a : Nat) (h : Cte) : (setCte s a h).part = s.part := rfl
@[simp] theorem setCte_board (s : State) (a : Nat) (h : Cte) : (setCte s a h).board = s.board := rfl
@[simp] theorem setCte_regs (s : State) (a : Nat) (h : Cte) : (setCte s a h).regs = s.regs := rfl
@[simp] theorem setCte_mem (s : State) (a : Nat) (h : Cte) : (setCte s a h).mem = s.mem := rfl
@[simp] theorem setCte_free (s : State) (a : Nat) (h : Cte) : (setCte s a h).free = s.free := rfl
@[simp] theorem setCte_bus (s : State) (a : Nat) (h : Cte) : (setCte s a h).bus = s.bus := rfl
@[simp] theorem setCte_ckr (s : State) (a : Nat) (h : Cte) : (setCte s a h).ckr = s.ckr := rfl
@[simp] theorem setCte_cal (s : State) (a : Nat) (h : Cte) : (setCte s a h).cal = s.cal := rfl
@[simp] theorem setCte_fcl (s : State) (a : Nat) (h : Cte) : (setCte s a h).fcl = s.fcl := rfl
@[simp] theorem setCte_evr (s : State) (a : Nat) (h : Cte) : (setCte s a h).evr = s.evr := rfl
@[simp] theorem setCte_zones (s : State) (a : Nat) (h : Cte) : (setCte s a h).zones = s.zones := rfl
@[simp] theorem setCte_svg (s : State) (a : Nat) (h : Cte) : (setCte s a h).svg = s.svg := rfl
@[simp] theorem setCte_spn (s : State) (a : Nat) (h : Cte) : (setCte s a h).spn = s.spn := rfl
@[simp] theorem setCte_sec (s : State) (a : Nat) (h : Cte) : (setCte s a h).sec = s.sec := rfl
@[simp] theorem setCte_syc (s : State) (a : Nat) (h : Cte) : (setCte s a h).syc = s.syc := rfl
@[simp] theorem setCte_bfm (s : State) (a : Nat) (h : Cte) : (setCte s a h).bfm = s.bfm := rfl
@[simp] theorem setCte_l2 (s : State) (a : Nat) (h : Cte) : (setCte s a h).l2 = s.l2 := rfl
@[simp] theorem setCte_gly (s : State) (a : Nat) (h : Cte) : (setCte s a h).gly = s.gly := rfl
@[simp] theorem setCte_hfe (s : State) (a : Nat) (h : Cte) : (setCte s a h).hfe = s.hfe := rfl
@[simp] theorem setCte_chans (s : State) (a : Nat) (h : Cte) : (setCte s a h).chans = s.chans := rfl
@[simp] theorem setCte_spools (s : State) (a : Nat) (h : Cte) : (setCte s a h).spools = s.spools := rfl
@[simp] theorem setCte_flt (s : State) (a : Nat) (h : Cte) : (setCte s a h).flt = s.flt := rfl
@[simp] theorem setCte_svc (s : State) (a : Nat) (h : Cte) : (setCte s a h).svc = s.svc := rfl
@[simp] theorem setCte_ofl (s : State) (a : Nat) (h : Cte) : (setCte s a h).ofl = s.ofl := rfl
@[simp] theorem setCte_mgt (s : State) (a : Nat) (h : Cte) : (setCte s a h).mgt = s.mgt := rfl
@[simp] theorem setCte_dmaPtr (s : State) (a : Nat) (h : Cte) : (setCte s a h).dmaPtr = s.dmaPtr := rfl
@[simp] theorem setCte_hdl (s : State) (a : Nat) (h : Cte) : (setCte s a h).hdl = s.hdl := rfl
@[simp] theorem setCte_tag (s : State) (a : Nat) (h : Cte) : (setCte s a h).tag = s.tag := rfl
@[simp] theorem setCte_pairs (s : State) (a : Nat) (h : Cte) : (setCte s a h).pairs = s.pairs := rfl
@[simp] theorem setCte_dcp (s : State) (a : Nat) (h : Cte) : (setCte s a h).dcp = s.dcp := rfl
@[simp] theorem setCte_decoders (s : State) (a : Nat) (h : Cte) : (setCte s a h).decoders = s.decoders := rfl
@[simp] theorem setCte_wrp (s : State) (a : Nat) (h : Cte) : (setCte s a h).wrp = s.wrp := rfl
@[simp] theorem setCte_shts (s : State) (a : Nat) (h : Cte) : (setCte s a h).shts = s.shts := rfl
@[simp] theorem setCte_loom (s : State) (a : Nat) (h : Cte) : (setCte s a h).loom = s.loom := rfl
@[simp] theorem setCte_codeLoad (s : State) (a : Nat) (h : Cte) : (setCte s a h).codeLoad = s.codeLoad := rfl
@[simp] theorem setCte_patch (s : State) (a : Nat) (h : Cte) : (setCte s a h).patch = s.patch := rfl
@[simp] theorem setCte_pending (s : State) (a : Nat) (h : Cte) : (setCte s a h).pending = s.pending := rfl

/-! Per-instance state: the instance replaced reads back, the others read as before, and no other table moves. -/

@[simp] theorem hdlOf_setHdl_same (s : State) (a : Nat) (h : HdlAct) : hdlOf (setHdl s a h) a = h := by
  simp [hdlOf, setHdl]
theorem hdlOf_setHdl_ne (s : State) {a b : Nat} (h : HdlAct) (hab : b ≠ a) : hdlOf (setHdl s a h) b = hdlOf s b := by
  simp [hdlOf, setHdl, tget_tset_ne _ _ hab]
@[simp] theorem hdlOf_wr (s : State) (r : Reg) (i : Nat) (v : Word) (k : Nat) : hdlOf (wr s r i v) k = hdlOf s k := rfl
@[simp] theorem hdlOf_setFld (s : State) (f : Fld) (i v : Nat) (k : Nat) : hdlOf (setFld s f i v) k = hdlOf s k := rfl
@[simp] theorem hdlOf_setFlag (s : State) (f : Fld) (i : Nat) (b : Bool) (k : Nat) : hdlOf (setFlag s f i b) k = hdlOf s k := rfl
@[simp] theorem hdlOf_writeByte (s : State) (a : Nat) (v : Byte) (k : Nat) : hdlOf (writeByte s a v) k = hdlOf s k := rfl
@[simp] theorem hdlOf_answer (s : State) (v : Word) (k : Nat) : hdlOf (answer s v) k = hdlOf s k := rfl
@[simp] theorem hdlOf_setPair (s : State) (a : Nat) (h : Pair) (k : Nat) : hdlOf (setPair s a h) k = hdlOf s k := rfl
@[simp] theorem hdlOf_setDcp (s : State) (a : Nat) (h : DcpAct) (k : Nat) : hdlOf (setDcp s a h) k = hdlOf s k := rfl
@[simp] theorem hdlOf_setDec (s : State) (a : Nat) (h : Decoder) (k : Nat) : hdlOf (setDec s a h) k = hdlOf s k := rfl
@[simp] theorem hdlOf_setWrp (s : State) (a : Nat) (h : WrpAct) (k : Nat) : hdlOf (setWrp s a h) k = hdlOf s k := rfl
@[simp] theorem hdlOf_setSht (s : State) (a : Nat) (h : Shuttle) (k : Nat) : hdlOf (setSht s a h) k = hdlOf s k := rfl
@[simp] theorem hdlOf_setSvg (s : State) (a : Nat) (h : Svg) (k : Nat) : hdlOf (setSvg s a h) k = hdlOf s k := rfl
@[simp] theorem hdlOf_setCte (s : State) (a : Nat) (h : Cte) (k : Nat) : hdlOf (setCte s a h) k = hdlOf s k := rfl
@[simp] theorem pairOf_setPair_same (s : State) (a : Nat) (h : Pair) : pairOf (setPair s a h) a = h := by
  simp [pairOf, setPair]
theorem pairOf_setPair_ne (s : State) {a b : Nat} (h : Pair) (hab : b ≠ a) : pairOf (setPair s a h) b = pairOf s b := by
  simp [pairOf, setPair, tget_tset_ne _ _ hab]
@[simp] theorem pairOf_wr (s : State) (r : Reg) (i : Nat) (v : Word) (k : Nat) : pairOf (wr s r i v) k = pairOf s k := rfl
@[simp] theorem pairOf_setFld (s : State) (f : Fld) (i v : Nat) (k : Nat) : pairOf (setFld s f i v) k = pairOf s k := rfl
@[simp] theorem pairOf_setFlag (s : State) (f : Fld) (i : Nat) (b : Bool) (k : Nat) : pairOf (setFlag s f i b) k = pairOf s k := rfl
@[simp] theorem pairOf_writeByte (s : State) (a : Nat) (v : Byte) (k : Nat) : pairOf (writeByte s a v) k = pairOf s k := rfl
@[simp] theorem pairOf_answer (s : State) (v : Word) (k : Nat) : pairOf (answer s v) k = pairOf s k := rfl
@[simp] theorem pairOf_setHdl (s : State) (a : Nat) (h : HdlAct) (k : Nat) : pairOf (setHdl s a h) k = pairOf s k := rfl
@[simp] theorem pairOf_setDcp (s : State) (a : Nat) (h : DcpAct) (k : Nat) : pairOf (setDcp s a h) k = pairOf s k := rfl
@[simp] theorem pairOf_setDec (s : State) (a : Nat) (h : Decoder) (k : Nat) : pairOf (setDec s a h) k = pairOf s k := rfl
@[simp] theorem pairOf_setWrp (s : State) (a : Nat) (h : WrpAct) (k : Nat) : pairOf (setWrp s a h) k = pairOf s k := rfl
@[simp] theorem pairOf_setSht (s : State) (a : Nat) (h : Shuttle) (k : Nat) : pairOf (setSht s a h) k = pairOf s k := rfl
@[simp] theorem pairOf_setSvg (s : State) (a : Nat) (h : Svg) (k : Nat) : pairOf (setSvg s a h) k = pairOf s k := rfl
@[simp] theorem pairOf_setCte (s : State) (a : Nat) (h : Cte) (k : Nat) : pairOf (setCte s a h) k = pairOf s k := rfl
@[simp] theorem dcpOf_setDcp_same (s : State) (a : Nat) (h : DcpAct) : dcpOf (setDcp s a h) a = h := by
  simp [dcpOf, setDcp]
theorem dcpOf_setDcp_ne (s : State) {a b : Nat} (h : DcpAct) (hab : b ≠ a) : dcpOf (setDcp s a h) b = dcpOf s b := by
  simp [dcpOf, setDcp, tget_tset_ne _ _ hab]
@[simp] theorem dcpOf_wr (s : State) (r : Reg) (i : Nat) (v : Word) (k : Nat) : dcpOf (wr s r i v) k = dcpOf s k := rfl
@[simp] theorem dcpOf_setFld (s : State) (f : Fld) (i v : Nat) (k : Nat) : dcpOf (setFld s f i v) k = dcpOf s k := rfl
@[simp] theorem dcpOf_setFlag (s : State) (f : Fld) (i : Nat) (b : Bool) (k : Nat) : dcpOf (setFlag s f i b) k = dcpOf s k := rfl
@[simp] theorem dcpOf_writeByte (s : State) (a : Nat) (v : Byte) (k : Nat) : dcpOf (writeByte s a v) k = dcpOf s k := rfl
@[simp] theorem dcpOf_answer (s : State) (v : Word) (k : Nat) : dcpOf (answer s v) k = dcpOf s k := rfl
@[simp] theorem dcpOf_setHdl (s : State) (a : Nat) (h : HdlAct) (k : Nat) : dcpOf (setHdl s a h) k = dcpOf s k := rfl
@[simp] theorem dcpOf_setPair (s : State) (a : Nat) (h : Pair) (k : Nat) : dcpOf (setPair s a h) k = dcpOf s k := rfl
@[simp] theorem dcpOf_setDec (s : State) (a : Nat) (h : Decoder) (k : Nat) : dcpOf (setDec s a h) k = dcpOf s k := rfl
@[simp] theorem dcpOf_setWrp (s : State) (a : Nat) (h : WrpAct) (k : Nat) : dcpOf (setWrp s a h) k = dcpOf s k := rfl
@[simp] theorem dcpOf_setSht (s : State) (a : Nat) (h : Shuttle) (k : Nat) : dcpOf (setSht s a h) k = dcpOf s k := rfl
@[simp] theorem dcpOf_setSvg (s : State) (a : Nat) (h : Svg) (k : Nat) : dcpOf (setSvg s a h) k = dcpOf s k := rfl
@[simp] theorem dcpOf_setCte (s : State) (a : Nat) (h : Cte) (k : Nat) : dcpOf (setCte s a h) k = dcpOf s k := rfl
@[simp] theorem decOf_setDec_same (s : State) (a : Nat) (h : Decoder) : decOf (setDec s a h) a = h := by
  simp [decOf, setDec]
theorem decOf_setDec_ne (s : State) {a b : Nat} (h : Decoder) (hab : b ≠ a) : decOf (setDec s a h) b = decOf s b := by
  simp [decOf, setDec, tget_tset_ne _ _ hab]
@[simp] theorem decOf_wr (s : State) (r : Reg) (i : Nat) (v : Word) (k : Nat) : decOf (wr s r i v) k = decOf s k := rfl
@[simp] theorem decOf_setFld (s : State) (f : Fld) (i v : Nat) (k : Nat) : decOf (setFld s f i v) k = decOf s k := rfl
@[simp] theorem decOf_setFlag (s : State) (f : Fld) (i : Nat) (b : Bool) (k : Nat) : decOf (setFlag s f i b) k = decOf s k := rfl
@[simp] theorem decOf_writeByte (s : State) (a : Nat) (v : Byte) (k : Nat) : decOf (writeByte s a v) k = decOf s k := rfl
@[simp] theorem decOf_answer (s : State) (v : Word) (k : Nat) : decOf (answer s v) k = decOf s k := rfl
@[simp] theorem decOf_setHdl (s : State) (a : Nat) (h : HdlAct) (k : Nat) : decOf (setHdl s a h) k = decOf s k := rfl
@[simp] theorem decOf_setPair (s : State) (a : Nat) (h : Pair) (k : Nat) : decOf (setPair s a h) k = decOf s k := rfl
@[simp] theorem decOf_setDcp (s : State) (a : Nat) (h : DcpAct) (k : Nat) : decOf (setDcp s a h) k = decOf s k := rfl
@[simp] theorem decOf_setWrp (s : State) (a : Nat) (h : WrpAct) (k : Nat) : decOf (setWrp s a h) k = decOf s k := rfl
@[simp] theorem decOf_setSht (s : State) (a : Nat) (h : Shuttle) (k : Nat) : decOf (setSht s a h) k = decOf s k := rfl
@[simp] theorem decOf_setSvg (s : State) (a : Nat) (h : Svg) (k : Nat) : decOf (setSvg s a h) k = decOf s k := rfl
@[simp] theorem decOf_setCte (s : State) (a : Nat) (h : Cte) (k : Nat) : decOf (setCte s a h) k = decOf s k := rfl
@[simp] theorem wrpOf_setWrp_same (s : State) (a : Nat) (h : WrpAct) : wrpOf (setWrp s a h) a = h := by
  simp [wrpOf, setWrp]
theorem wrpOf_setWrp_ne (s : State) {a b : Nat} (h : WrpAct) (hab : b ≠ a) : wrpOf (setWrp s a h) b = wrpOf s b := by
  simp [wrpOf, setWrp, tget_tset_ne _ _ hab]
@[simp] theorem wrpOf_wr (s : State) (r : Reg) (i : Nat) (v : Word) (k : Nat) : wrpOf (wr s r i v) k = wrpOf s k := rfl
@[simp] theorem wrpOf_setFld (s : State) (f : Fld) (i v : Nat) (k : Nat) : wrpOf (setFld s f i v) k = wrpOf s k := rfl
@[simp] theorem wrpOf_setFlag (s : State) (f : Fld) (i : Nat) (b : Bool) (k : Nat) : wrpOf (setFlag s f i b) k = wrpOf s k := rfl
@[simp] theorem wrpOf_writeByte (s : State) (a : Nat) (v : Byte) (k : Nat) : wrpOf (writeByte s a v) k = wrpOf s k := rfl
@[simp] theorem wrpOf_answer (s : State) (v : Word) (k : Nat) : wrpOf (answer s v) k = wrpOf s k := rfl
@[simp] theorem wrpOf_setHdl (s : State) (a : Nat) (h : HdlAct) (k : Nat) : wrpOf (setHdl s a h) k = wrpOf s k := rfl
@[simp] theorem wrpOf_setPair (s : State) (a : Nat) (h : Pair) (k : Nat) : wrpOf (setPair s a h) k = wrpOf s k := rfl
@[simp] theorem wrpOf_setDcp (s : State) (a : Nat) (h : DcpAct) (k : Nat) : wrpOf (setDcp s a h) k = wrpOf s k := rfl
@[simp] theorem wrpOf_setDec (s : State) (a : Nat) (h : Decoder) (k : Nat) : wrpOf (setDec s a h) k = wrpOf s k := rfl
@[simp] theorem wrpOf_setSht (s : State) (a : Nat) (h : Shuttle) (k : Nat) : wrpOf (setSht s a h) k = wrpOf s k := rfl
@[simp] theorem wrpOf_setSvg (s : State) (a : Nat) (h : Svg) (k : Nat) : wrpOf (setSvg s a h) k = wrpOf s k := rfl
@[simp] theorem wrpOf_setCte (s : State) (a : Nat) (h : Cte) (k : Nat) : wrpOf (setCte s a h) k = wrpOf s k := rfl
@[simp] theorem shtOf_setSht_same (s : State) (a : Nat) (h : Shuttle) : shtOf (setSht s a h) a = h := by
  simp [shtOf, setSht]
theorem shtOf_setSht_ne (s : State) {a b : Nat} (h : Shuttle) (hab : b ≠ a) : shtOf (setSht s a h) b = shtOf s b := by
  simp [shtOf, setSht, tget_tset_ne _ _ hab]
@[simp] theorem shtOf_wr (s : State) (r : Reg) (i : Nat) (v : Word) (k : Nat) : shtOf (wr s r i v) k = shtOf s k := rfl
@[simp] theorem shtOf_setFld (s : State) (f : Fld) (i v : Nat) (k : Nat) : shtOf (setFld s f i v) k = shtOf s k := rfl
@[simp] theorem shtOf_setFlag (s : State) (f : Fld) (i : Nat) (b : Bool) (k : Nat) : shtOf (setFlag s f i b) k = shtOf s k := rfl
@[simp] theorem shtOf_writeByte (s : State) (a : Nat) (v : Byte) (k : Nat) : shtOf (writeByte s a v) k = shtOf s k := rfl
@[simp] theorem shtOf_answer (s : State) (v : Word) (k : Nat) : shtOf (answer s v) k = shtOf s k := rfl
@[simp] theorem shtOf_setHdl (s : State) (a : Nat) (h : HdlAct) (k : Nat) : shtOf (setHdl s a h) k = shtOf s k := rfl
@[simp] theorem shtOf_setPair (s : State) (a : Nat) (h : Pair) (k : Nat) : shtOf (setPair s a h) k = shtOf s k := rfl
@[simp] theorem shtOf_setDcp (s : State) (a : Nat) (h : DcpAct) (k : Nat) : shtOf (setDcp s a h) k = shtOf s k := rfl
@[simp] theorem shtOf_setDec (s : State) (a : Nat) (h : Decoder) (k : Nat) : shtOf (setDec s a h) k = shtOf s k := rfl
@[simp] theorem shtOf_setWrp (s : State) (a : Nat) (h : WrpAct) (k : Nat) : shtOf (setWrp s a h) k = shtOf s k := rfl
@[simp] theorem shtOf_setSvg (s : State) (a : Nat) (h : Svg) (k : Nat) : shtOf (setSvg s a h) k = shtOf s k := rfl
@[simp] theorem shtOf_setCte (s : State) (a : Nat) (h : Cte) (k : Nat) : shtOf (setCte s a h) k = shtOf s k := rfl
@[simp] theorem svgOf_setSvg_same (s : State) (a : Nat) (h : Svg) : svgOf (setSvg s a h) a = h := by
  simp [svgOf, setSvg]
theorem svgOf_setSvg_ne (s : State) {a b : Nat} (h : Svg) (hab : b ≠ a) : svgOf (setSvg s a h) b = svgOf s b := by
  simp [svgOf, setSvg, tget_tset_ne _ _ hab]
@[simp] theorem svgOf_wr (s : State) (r : Reg) (i : Nat) (v : Word) (k : Nat) : svgOf (wr s r i v) k = svgOf s k := rfl
@[simp] theorem svgOf_setFld (s : State) (f : Fld) (i v : Nat) (k : Nat) : svgOf (setFld s f i v) k = svgOf s k := rfl
@[simp] theorem svgOf_setFlag (s : State) (f : Fld) (i : Nat) (b : Bool) (k : Nat) : svgOf (setFlag s f i b) k = svgOf s k := rfl
@[simp] theorem svgOf_writeByte (s : State) (a : Nat) (v : Byte) (k : Nat) : svgOf (writeByte s a v) k = svgOf s k := rfl
@[simp] theorem svgOf_answer (s : State) (v : Word) (k : Nat) : svgOf (answer s v) k = svgOf s k := rfl
@[simp] theorem svgOf_setHdl (s : State) (a : Nat) (h : HdlAct) (k : Nat) : svgOf (setHdl s a h) k = svgOf s k := rfl
@[simp] theorem svgOf_setPair (s : State) (a : Nat) (h : Pair) (k : Nat) : svgOf (setPair s a h) k = svgOf s k := rfl
@[simp] theorem svgOf_setDcp (s : State) (a : Nat) (h : DcpAct) (k : Nat) : svgOf (setDcp s a h) k = svgOf s k := rfl
@[simp] theorem svgOf_setDec (s : State) (a : Nat) (h : Decoder) (k : Nat) : svgOf (setDec s a h) k = svgOf s k := rfl
@[simp] theorem svgOf_setWrp (s : State) (a : Nat) (h : WrpAct) (k : Nat) : svgOf (setWrp s a h) k = svgOf s k := rfl
@[simp] theorem svgOf_setSht (s : State) (a : Nat) (h : Shuttle) (k : Nat) : svgOf (setSht s a h) k = svgOf s k := rfl
@[simp] theorem svgOf_setCte (s : State) (a : Nat) (h : Cte) (k : Nat) : svgOf (setCte s a h) k = svgOf s k := rfl
@[simp] theorem cteOf_setCte_same (s : State) (a : Nat) (h : Cte) : cteOf (setCte s a h) a = h := by
  simp [cteOf, setCte]
theorem cteOf_setCte_ne (s : State) {a b : Nat} (h : Cte) (hab : b ≠ a) : cteOf (setCte s a h) b = cteOf s b := by
  simp [cteOf, setCte, tget_tset_ne _ _ hab]
@[simp] theorem cteOf_wr (s : State) (r : Reg) (i : Nat) (v : Word) (k : Nat) : cteOf (wr s r i v) k = cteOf s k := rfl
@[simp] theorem cteOf_setFld (s : State) (f : Fld) (i v : Nat) (k : Nat) : cteOf (setFld s f i v) k = cteOf s k := rfl
@[simp] theorem cteOf_setFlag (s : State) (f : Fld) (i : Nat) (b : Bool) (k : Nat) : cteOf (setFlag s f i b) k = cteOf s k := rfl
@[simp] theorem cteOf_writeByte (s : State) (a : Nat) (v : Byte) (k : Nat) : cteOf (writeByte s a v) k = cteOf s k := rfl
@[simp] theorem cteOf_answer (s : State) (v : Word) (k : Nat) : cteOf (answer s v) k = cteOf s k := rfl
@[simp] theorem cteOf_setHdl (s : State) (a : Nat) (h : HdlAct) (k : Nat) : cteOf (setHdl s a h) k = cteOf s k := rfl
@[simp] theorem cteOf_setPair (s : State) (a : Nat) (h : Pair) (k : Nat) : cteOf (setPair s a h) k = cteOf s k := rfl
@[simp] theorem cteOf_setDcp (s : State) (a : Nat) (h : DcpAct) (k : Nat) : cteOf (setDcp s a h) k = cteOf s k := rfl
@[simp] theorem cteOf_setDec (s : State) (a : Nat) (h : Decoder) (k : Nat) : cteOf (setDec s a h) k = cteOf s k := rfl
@[simp] theorem cteOf_setWrp (s : State) (a : Nat) (h : WrpAct) (k : Nat) : cteOf (setWrp s a h) k = cteOf s k := rfl
@[simp] theorem cteOf_setSht (s : State) (a : Nat) (h : Shuttle) (k : Nat) : cteOf (setSht s a h) k = cteOf s k := rfl
@[simp] theorem cteOf_setSvg (s : State) (a : Nat) (h : Svg) (k : Nat) : cteOf (setSvg s a h) k = cteOf s k := rfl

/-! Registers and memory behind the updates of other fields. -/

@[simp] theorem readByte_wr (s : State) (r : Reg) (i : Nat) (v : Word) (n : Nat) : readByte (wr s r i v) n = readByte s n := rfl
@[simp] theorem readByte_setFld (s : State) (f : Fld) (i v : Nat) (n : Nat) : readByte (setFld s f i v) n = readByte s n := rfl
@[simp] theorem readByte_setFlag (s : State) (f : Fld) (i : Nat) (b : Bool) (n : Nat) : readByte (setFlag s f i b) n = readByte s n := rfl
@[simp] theorem rd_writeByte (s : State) (a : Nat) (v : Byte) (q : Reg) (j : Nat) : rd (writeByte s a v) q j = rd s q j := rfl
@[simp] theorem fld_writeByte (s : State) (a : Nat) (v : Byte) (g : Fld) (j : Nat) : fld (writeByte s a v) g j = fld s g j := rfl
@[simp] theorem rd_answer (s : State) (v : Word) (q : Reg) (j : Nat) : rd (answer s v) q j = rd s q j := rfl
@[simp] theorem fld_answer (s : State) (v : Word) (g : Fld) (j : Nat) : fld (answer s v) g j = fld s g j := rfl
@[simp] theorem readByte_answer (s : State) (v : Word) (n : Nat) : readByte (answer s v) n = readByte s n := rfl
@[simp] theorem rd_setHdl (s : State) (a : Nat) (h : HdlAct) (q : Reg) (j : Nat) : rd (setHdl s a h) q j = rd s q j := rfl
@[simp] theorem fld_setHdl (s : State) (a : Nat) (h : HdlAct) (g : Fld) (j : Nat) : fld (setHdl s a h) g j = fld s g j := rfl
@[simp] theorem readByte_setHdl (s : State) (a : Nat) (h : HdlAct) (n : Nat) : readByte (setHdl s a h) n = readByte s n := rfl
@[simp] theorem rd_setPair (s : State) (a : Nat) (h : Pair) (q : Reg) (j : Nat) : rd (setPair s a h) q j = rd s q j := rfl
@[simp] theorem fld_setPair (s : State) (a : Nat) (h : Pair) (g : Fld) (j : Nat) : fld (setPair s a h) g j = fld s g j := rfl
@[simp] theorem readByte_setPair (s : State) (a : Nat) (h : Pair) (n : Nat) : readByte (setPair s a h) n = readByte s n := rfl
@[simp] theorem rd_setDcp (s : State) (a : Nat) (h : DcpAct) (q : Reg) (j : Nat) : rd (setDcp s a h) q j = rd s q j := rfl
@[simp] theorem fld_setDcp (s : State) (a : Nat) (h : DcpAct) (g : Fld) (j : Nat) : fld (setDcp s a h) g j = fld s g j := rfl
@[simp] theorem readByte_setDcp (s : State) (a : Nat) (h : DcpAct) (n : Nat) : readByte (setDcp s a h) n = readByte s n := rfl
@[simp] theorem rd_setDec (s : State) (a : Nat) (h : Decoder) (q : Reg) (j : Nat) : rd (setDec s a h) q j = rd s q j := rfl
@[simp] theorem fld_setDec (s : State) (a : Nat) (h : Decoder) (g : Fld) (j : Nat) : fld (setDec s a h) g j = fld s g j := rfl
@[simp] theorem readByte_setDec (s : State) (a : Nat) (h : Decoder) (n : Nat) : readByte (setDec s a h) n = readByte s n := rfl
@[simp] theorem rd_setWrp (s : State) (a : Nat) (h : WrpAct) (q : Reg) (j : Nat) : rd (setWrp s a h) q j = rd s q j := rfl
@[simp] theorem fld_setWrp (s : State) (a : Nat) (h : WrpAct) (g : Fld) (j : Nat) : fld (setWrp s a h) g j = fld s g j := rfl
@[simp] theorem readByte_setWrp (s : State) (a : Nat) (h : WrpAct) (n : Nat) : readByte (setWrp s a h) n = readByte s n := rfl
@[simp] theorem rd_setSht (s : State) (a : Nat) (h : Shuttle) (q : Reg) (j : Nat) : rd (setSht s a h) q j = rd s q j := rfl
@[simp] theorem fld_setSht (s : State) (a : Nat) (h : Shuttle) (g : Fld) (j : Nat) : fld (setSht s a h) g j = fld s g j := rfl
@[simp] theorem readByte_setSht (s : State) (a : Nat) (h : Shuttle) (n : Nat) : readByte (setSht s a h) n = readByte s n := rfl
@[simp] theorem rd_setSvg (s : State) (a : Nat) (h : Svg) (q : Reg) (j : Nat) : rd (setSvg s a h) q j = rd s q j := rfl
@[simp] theorem fld_setSvg (s : State) (a : Nat) (h : Svg) (g : Fld) (j : Nat) : fld (setSvg s a h) g j = fld s g j := rfl
@[simp] theorem readByte_setSvg (s : State) (a : Nat) (h : Svg) (n : Nat) : readByte (setSvg s a h) n = readByte s n := rfl
@[simp] theorem rd_setCte (s : State) (a : Nat) (h : Cte) (q : Reg) (j : Nat) : rd (setCte s a h) q j = rd s q j := rfl
@[simp] theorem fld_setCte (s : State) (a : Nat) (h : Cte) (g : Fld) (j : Nat) : fld (setCte s a h) g j = fld s g j := rfl
@[simp] theorem readByte_setCte (s : State) (a : Nat) (h : Cte) (n : Nat) : readByte (setCte s a h) n = readByte s n := rfl

end Sys2Proof.Machine
end

