-- ==== Sys2Proof/Laws/Regs.lean ====
section
/-!
SUPPORT. The laws of the register store and of memory: reads after writes, by register, instance and field, and the
canonical forms kept.
-/

namespace Sys2Proof.Machine

/-- Registers have numbers of their own. -/
theorem reg_ctorIdx_inj {r q : Reg} (h : r.ctorIdx = q.ctorIdx) : r = q := by
  have hr : ∀ x : Reg, Reg.ofNat x.ctorIdx = x := Reg.ofNat_ctorIdx
  rw [← hr r, ← hr q, h]

/-- There are fewer than 1,024 registers. -/
theorem reg_ctorIdx_lt (r : Reg) : r.ctorIdx < 1024 := by cases r <;> decide

/-- Two instances of registers share a key only if they are one. -/
theorem regKey_inj {r q : Reg} {i j : Nat} (h : regKey r i = regKey q j) : r = q ∧ i = j := by
  unfold regKey at h
  have hr := reg_ctorIdx_lt r
  have hq := reg_ctorIdx_lt q
  have h1 : r.ctorIdx = q.ctorIdx := by omega
  exact ⟨reg_ctorIdx_inj h1, by omega⟩

/-- A register reads back what was stored whole. -/
@[simp] theorem rd_wr_same (s : State) (r : Reg) (i : Nat) (v : Word) : rd (wr s r i v) r i = v := by
  simp [rd, wr]

/-- An instance of another key reads as before. -/
theorem rd_wr_of_key (s : State) {r q : Reg} {i j : Nat} (v : Word) (h : regKey q j ≠ regKey r i) :
    rd (wr s r i v) q j = rd s q j := by
  simp [rd, wr, tget_tset_ne _ _ h]

/-- Another register reads as before. -/
theorem rd_wr_ne (s : State) {r q : Reg} {i j : Nat} (v : Word) (h : q ≠ r ∨ j ≠ i) : rd (wr s r i v) q j = rd s q j := by
  refine rd_wr_of_key s v fun e => ?_
  obtain ⟨h1, h2⟩ := regKey_inj e
  rcases h with h | h <;> contradiction

/-- A field just set reads back. -/
theorem fld_setFld_same (s : State) (f : Fld) (i v : Nat) (h : f.lo + f.w ≤ 64) : fld (setFld s f i v) f i = v % 2 ^ f.w := by
  simp [fld, setFld, getBits_setBits_same _ _ _ _ h]

/-- Another field of the register set reads as before. -/
theorem fld_setFld_disjoint (s : State) {f g : Fld} (i v : Nat) (hr : g.reg = f.reg)
    (h : g.lo + g.w ≤ f.lo ∨ f.lo + f.w ≤ g.lo) : fld (setFld s f i v) g i = fld s g i := by
  simp [fld, setFld, hr, getBits_setBits_ne _ _ _ _ _ _ h]

/-- A field of another register or instance reads as before. -/
theorem fld_setFld_ne (s : State) {f g : Fld} {i j : Nat} (v : Nat) (h : g.reg ≠ f.reg ∨ j ≠ i) : fld (setFld s f i v) g j = fld s g j := by
  simp [fld, setFld, rd_wr_ne s _ h]

/-- A register other than the field's reads as before. -/
theorem rd_setFld_ne (s : State) {f : Fld} {q : Reg} {i j : Nat} (v : Nat) (h : q ≠ f.reg ∨ j ≠ i) : rd (setFld s f i v) q j = rd s q j := rd_wr_ne s _ h

/-- A flag just set reads back. -/
theorem flag_setFlag_same (s : State) (f : Fld) (i : Nat) (b : Bool) (h : f.lo + f.w ≤ 64) (hw : 0 < f.w) :
    flag (setFlag s f i b) f i = b := by
  have h1 : 1 < 2 ^ f.w := Nat.one_lt_two_pow (by omega)
  cases b <;> simp [flag, setFlag, fld_setFld_same _ _ _ _ h, b2n, Nat.mod_eq_of_lt h1]

/-- A field of a register and instance is determined by what the register reads. -/
theorem fld_eq_of_rd {s t : State} {g : Fld} {j : Nat} (h : rd t g.reg j = rd s g.reg j) : fld t g j = fld s g j := by
  simp [fld, h]

/-- The register store in canonical form. -/
abbrev RegsWf (s : State) : Prop := tabWf (regDefault s.part) s.regs

/-- Storing a register keeps the store canonical. -/
theorem regsWf_wr {s : State} (r : Reg) (i : Nat) (v : Word) (h : RegsWf s) : RegsWf (wr s r i v) := tabWf_tset _ _ h

/-- A byte just stored reads back. -/
@[simp] theorem readByte_writeByte_same (s : State) (a : Nat) (v : Byte) : readByte (writeByte s a v) a = v := by
  simp [readByte, writeByte]

/-- Every other byte reads as before. -/
theorem readByte_writeByte_ne (s : State) {a b : Nat} (v : Byte) (h : b ≠ a) : readByte (writeByte s a v) b = readByte s b := by
  simp [readByte, writeByte, tget_tset_ne _ _ h]

/-- Storing a byte keeps memory canonical. -/
theorem memWf_writeByte {s : State} (a : Nat) (v : Byte) (h : Memory.wf s.mem) : Memory.wf (writeByte s a v).mem :=
  tabWf_tset _ _ h

/-- Storing a run of bytes keeps memory canonical. -/
theorem memWf_writeBytes (l : List Byte) : ∀ {s : State} (a : Nat), Memory.wf s.mem → Memory.wf (writeBytes s a l).mem := by
  induction l with
  | nil => intro s a h; exact h
  | cons b t ih => intro s a h; exact ih _ (memWf_writeByte a b h)

/-- Bytes outside a stored run read as before. -/
theorem readByte_writeBytes_out (l : List Byte) : ∀ (s : State) (a n : Nat), (n < a ∨ a + l.length ≤ n) →
    readByte (writeBytes s a l) n = readByte s n := by
  induction l with
  | nil => intro s a n _; rfl
  | cons b t ih =>
    intro s a n h
    simp only [List.length_cons] at h
    rw [writeBytes, ih _ _ _ (by omega), readByte_writeByte_ne _ _ (by omega)]

/-- A stored run reads back. -/
theorem readByte_writeBytes_in (l : List Byte) : ∀ (s : State) (a k : Nat) (h : k < l.length),
    readByte (writeBytes s a l) (a + k) = l[k] := by
  induction l with
  | nil => intro s a k h; simp at h
  | cons b t ih =>
    intro s a k h
    cases k with
    | zero => rw [writeBytes, readByte_writeBytes_out _ _ _ _ (by omega)]; simp
    | succ k =>
      have h2 := ih (writeByte s a b) (a + 1) k (by simpa using h)
      rw [writeBytes, show a + (k + 1) = a + 1 + k by omega, h2]
      simp

end Sys2Proof.Machine
end

