-- ==== Sys2Proof/Laws/Ops.lean ====
section
/-!
SUPPORT. What the shared operations can change, once each: the blocks whose registers they reach, and whether they store to
memory; the part, the commands that wait, the OTP and the canonical forms they keep.
-/

namespace Sys2Proof.Machine

/-- From s to t only registers of the blocks bs are changed, and memory only if m; the part, the queue and the OTP stand, and
the canonical forms with them. -/
structure Keeps (bs : List Block) (m : Bool) (s t : State) : Prop where
  part : t.part = s.part
  pending : t.pending = s.pending
  otp : t.sec.otp = s.sec.otp
  memWf : Memory.wf s.mem → Memory.wf t.mem
  regsWf : RegsWf s → RegsWf t
  regs : ∀ (r : Reg) (i : Nat), r.info.block ∉ bs → rd t r i = rd s r i
  mem : m = false → ∀ a, readByte t a = readByte s a

namespace Keeps

variable {bs : List Block} {m : Bool} {s t u : State}

theorem refl : Keeps bs m s s := ⟨rfl, rfl, rfl, id, id, fun _ _ _ => rfl, fun _ _ => rfl⟩

theorem trans (h : Keeps bs m s t) (k : Keeps bs m t u) : Keeps bs m s u :=
  ⟨k.part.trans h.part, k.pending.trans h.pending, k.otp.trans h.otp, fun w => k.memWf (h.memWf w), fun w => k.regsWf (h.regsWf w),
    fun r i hr => (k.regs r i hr).trans (h.regs r i hr), fun hm a => (k.mem hm a).trans (h.mem hm a)⟩

/-- A wider footprint. -/
theorem weaken {bs' : List Block} {m' : Bool} (h : Keeps bs m s t) (hb : bs ⊆ bs') (hm : m' = false → m = false) :
    Keeps bs' m' s t :=
  ⟨h.part, h.pending, h.otp, h.memWf, h.regsWf, fun r i hr => h.regs r i fun e => hr (hb e), fun e => h.mem (hm e)⟩

/-- The invariant stands. -/
theorem inv (h : Keeps bs m s t) (w : Inv s) : Inv t := ⟨h.memWf w.1, h.regsWf w.2⟩

/-- Registers outside the blocks, and memory where none is stored, read as before. -/
theorem leaves (h : Keeps bs false s t) : Leaves bs s t := ⟨h.mem rfl, h.regs⟩

/-- A state that shares the registers, memory, the part, the queue and the OTP. -/
theorem of_eq (hp : t.part = s.part) (hq : t.pending = s.pending) (ho : t.sec.otp = s.sec.otp) (hr : t.regs = s.regs)
    (hm : t.mem = s.mem) : Keeps bs m s t := by
  refine ⟨hp, hq, ho, ?_, ?_, ?_, ?_⟩
  · rw [hm]; exact id
  · unfold RegsWf; rw [hr, hp]; exact id
  · intro r i _; simp [rd, hr, hp]
  · intro _ a; simp [readByte, hm]

end Keeps

section Operations

variable {bs : List Block} {m : Bool}

/-! ### Registers -/

theorem keeps_wr (s : State) (r : Reg) (i : Nat) (v : Word) (hb : r.info.block ∈ bs) : Keeps bs m s (wr s r i v) := by
  refine ⟨rfl, rfl, rfl, id, regsWf_wr r i v, fun q j hq => rd_wr_ne s v (.inl fun e => hq (e ▸ hb)), fun _ _ => rfl⟩

theorem keeps_setFld (s : State) (f : Fld) (i v : Nat) (hb : f.reg.info.block ∈ bs) : Keeps bs m s (setFld s f i v) :=
  keeps_wr _ _ _ _ hb

theorem keeps_setFlag (s : State) (f : Fld) (i : Nat) (b : Bool) (hb : f.reg.info.block ∈ bs) :
    Keeps bs m s (setFlag s f i b) := keeps_setFld _ _ _ _ hb

theorem keeps_bump (s : State) (f : Fld) (i n : Nat) (hb : f.reg.info.block ∈ bs) : Keeps bs m s (bump s f i n) :=
  keeps_setFld _ _ _ _ hb

theorem keeps_setFlds (i : Nat) (l : List (Fld × Nat)) : ∀ s : State, (∀ x ∈ l, x.1.reg.info.block ∈ bs) →
    Keeps bs m s (setFlds s i l) := by
  induction l with
  | nil => intro s _; exact .refl
  | cons x t ih =>
    intro s h
    exact (keeps_setFld s x.1 i x.2 (h x (by simp))).trans (ih _ fun y hy => h y (by simp [hy]))

/-! ### Control -/

theorem keeps_when (b : Bool) (f : State → State) (s : State) (h : ∀ t, Keeps bs m t (f t)) : Keeps bs m s (when b f s) := by
  unfold when
  split
  · exact h s
  · exact .refl

theorem keeps_each {α : Type} (l : List α) (f : α → State → State) (h : ∀ x t, Keeps bs m t (f x t)) :
    ∀ s : State, Keeps bs m s (each l f s) := by
  induction l with
  | nil => intro s; exact .refl
  | cons x t ih => intro s; exact (h x s).trans (ih (f x s))

/-! ### Units -/

theorem keeps_answer (s : State) (v : Word) : Keeps bs m s (answer s v) := .of_eq rfl rfl rfl rfl rfl
theorem keeps_setHdl (s : State) (a : Nat) (h : HdlAct) : Keeps bs m s (setHdl s a h) := .of_eq rfl rfl rfl rfl rfl
theorem keeps_setPair (s : State) (a : Nat) (h : Pair) : Keeps bs m s (setPair s a h) := .of_eq rfl rfl rfl rfl rfl
theorem keeps_setDcp (s : State) (a : Nat) (h : DcpAct) : Keeps bs m s (setDcp s a h) := .of_eq rfl rfl rfl rfl rfl
theorem keeps_setDec (s : State) (d : Nat) (h : Decoder) : Keeps bs m s (setDec s d h) := .of_eq rfl rfl rfl rfl rfl
theorem keeps_setWrp (s : State) (a : Nat) (h : WrpAct) : Keeps bs m s (setWrp s a h) := .of_eq rfl rfl rfl rfl rfl
theorem keeps_setSht (s : State) (k : Nat) (h : Shuttle) : Keeps bs m s (setSht s k h) := .of_eq rfl rfl rfl rfl rfl
theorem keeps_setSvg (s : State) (a : Nat) (h : Svg) : Keeps bs m s (setSvg s a h) := .of_eq rfl rfl rfl rfl rfl
theorem keeps_setCte (s : State) (a : Nat) (h : Cte) : Keeps bs m s (setCte s a h) := .of_eq rfl rfl rfl rfl rfl

/-- A unit replaced reads back, and every other instance as before. -/
theorem pairOf_setPair (s : State) (a b : Nat) (h : Pair) : pairOf (setPair s a h) b = if b = a then h else pairOf s b := by
  by_cases e : b = a
  · subst e; simp [pairOf, setPair]
  · simp [pairOf, setPair, e, tget_tset_ne _ _ e]

theorem shtOf_setSht (s : State) (a b : Nat) (h : Shuttle) : shtOf (setSht s a h) b = if b = a then h else shtOf s b := by
  by_cases e : b = a
  · subst e; simp [shtOf, setSht]
  · simp [shtOf, setSht, e, tget_tset_ne _ _ e]

theorem cteOf_setCte (s : State) (a b : Nat) (h : Cte) : cteOf (setCte s a h) b = if b = a then h else cteOf s b := by
  by_cases e : b = a
  · subst e; simp [cteOf, setCte]
  · simp [cteOf, setCte, e, tget_tset_ne _ _ e]

theorem dcpOf_setDcp (s : State) (a b : Nat) (h : DcpAct) : dcpOf (setDcp s a h) b = if b = a then h else dcpOf s b := by
  by_cases e : b = a
  · subst e; simp [dcpOf, setDcp]
  · simp [dcpOf, setDcp, e, tget_tset_ne _ _ e]

theorem wrpOf_setWrp (s : State) (a b : Nat) (h : WrpAct) : wrpOf (setWrp s a h) b = if b = a then h else wrpOf s b := by
  by_cases e : b = a
  · subst e; simp [wrpOf, setWrp]
  · simp [wrpOf, setWrp, e, tget_tset_ne _ _ e]

theorem hdlOf_setHdl (s : State) (a b : Nat) (h : HdlAct) : hdlOf (setHdl s a h) b = if b = a then h else hdlOf s b := by
  by_cases e : b = a
  · subst e; simp [hdlOf, setHdl]
  · simp [hdlOf, setHdl, e, tget_tset_ne _ _ e]

theorem svgOf_setSvg (s : State) (a b : Nat) (h : Svg) : svgOf (setSvg s a h) b = if b = a then h else svgOf s b := by
  by_cases e : b = a
  · subst e; simp [svgOf, setSvg]
  · simp [svgOf, setSvg, e, tget_tset_ne _ _ e]

/-! ### Memory -/

theorem keeps_writeByte (s : State) (a : Nat) (v : Byte) : Keeps bs true s (writeByte s a v) :=
  ⟨rfl, rfl, rfl, memWf_writeByte a v, id, fun _ _ _ => rfl, fun h => by cases h⟩

theorem keeps_writeBytes (l : List Byte) : ∀ (s : State) (a : Nat), Keeps bs true s (writeBytes s a l) := by
  induction l with
  | nil => intro s a; exact .refl
  | cons b t ih => intro s a; exact (keeps_writeByte s a b).trans (ih _ _)

theorem keeps_clearRange (s : State) (a n : Nat) : Keeps bs true s (clearRange s a n) :=
  ⟨rfl, rfl, rfl, tabWf_filter _, id, fun _ _ _ => rfl, fun h => by cases h⟩

/-! ### Event sources and fault messages -/

theorem keeps_raiseSource (s : State) (n : Nat) (hb : Block.fcl ∈ bs) : Keeps bs m s (raiseSource s n) := by
  unfold raiseSource
  dsimp only
  split
  · exact (keeps_wr s .FCL_PEND _ _ hb).trans (.of_eq rfl rfl rfl rfl rfl)
  · exact keeps_wr s .FCL_PEND _ _ hb

/-- A source just raised is pending. -/
theorem pendingBit_raiseSource (s : State) (n : Nat) : pendingBit (raiseSource s n) n = true := by
  have h : ∀ w : Word, bit (setBits w (n % 64) 1 1) (n % 64) = true := fun w => by
    have := Nat.mod_lt n (show 0 < 64 by decide)
    simp [bit, getLsbD_setBits, this]
  unfold raiseSource
  dsimp only
  split <;> simp [pendingBit, rd, wr, h]

theorem keeps_sendMsg (s : State) (b : Block) (w : Word) (hb : Block.fcl ∈ bs) : Keeps bs m s (sendMsg s b w) := by
  unfold sendMsg
  dsimp only
  split
  · exact ((keeps_bump s F.FCL_CNT_LOST 0 1 hb).trans (keeps_raiseSource _ _ hb)).trans (keeps_raiseSource _ _ hb)
  · exact .of_eq rfl rfl rfl rfl rfl

theorem keeps_sendFault (s : State) (b : Block) (source kind sev addr : Nat) (hb : Block.fcl ∈ bs) :
    Keeps bs m s (sendFault s b source kind sev addr) := keeps_sendMsg _ _ _ hb

theorem keeps_busDecode (s : State) (addr : Nat) (hb : Block.fcl ∈ bs) : Keeps bs m s (busDecode s addr) :=
  keeps_sendFault _ _ _ _ _ _ hb

theorem keeps_memUe (s : State) (b : Block) (addr req : Nat) (p d : Bool) (hf : Block.fcl ∈ bs) (hm : Block.bfm ∈ bs) :
    Keeps bs m s (memUe s b addr req p d) := by
  unfold memUe
  split
  · exact (keeps_setFlag s F.BFM_UE_LOG_OVERFLOW 0 true hm).trans (keeps_sendFault _ _ _ _ _ _ hf)
  · exact (keeps_setFlds 0 _ s (by simp [hm, Reg.info])).trans (keeps_sendFault _ _ _ _ _ _ hf)

theorem keeps_corrected (s : State) (b : Block) (addr req : Nat) (d : Bool) (hf : Block.fcl ∈ bs) (hm : Block.bfm ∈ bs) :
    Keeps bs m s (corrected s b addr req d) := by
  have h (f : Fld) (hf' : f.reg.info.block ∈ bs) : Keeps bs m s (setFlds (bump s f) 0 [(F.BFM_CE_LOG_ADDR, addr),
      (F.BFM_CE_LOG_REQ, req), (F.BFM_CE_LOG_DRAM, b2n d), (F.BFM_CE_LOG_VALID, 1)]) :=
    (keeps_bump s f 0 1 hf').trans (keeps_setFlds 0 _ _ (by simp [hm, Reg.info]))
  have k := h (if d then F.BFM_CE_CNT_DRAM else F.BFM_CE_CNT_SRAM) (by cases d <;> exact hm)
  unfold corrected
  dsimp only
  generalize setFlds _ 0 _ = t at k ⊢
  have k' (n : Nat) : Keeps bs m s { t with bfm := { t.bfm with lapCe := n } } := k.trans (.of_eq rfl rfl rfl rfl rfl)
  split
  · exact (k' _).trans (keeps_sendFault _ b b.faultSource FK.memCe 3 addr hf)
  · exact k' _

end Operations

end Sys2Proof.Machine
end

