-- ==== Sys2Proof/Laws/Mem.lean ====
section
/-!
SUPPORT. What an access to memory can change: registers of BFM, SYC and FCL, the caches, and memory; and what entering a record
in the event ring or changing a readiness bit can change besides.
-/

namespace Sys2Proof.Machine

section Memory

variable {bs : List Block} {m : Bool}

/-- The blocks whose registers an access reaches. -/
structure MemBlocks (bs : List Block) : Prop where
  bfm : Block.bfm ∈ bs
  syc : Block.syc ∈ bs
  fcl : Block.fcl ∈ bs

theorem keeps_setPoison (s : State) (l : Nat) (b : Bool) : Keeps bs m s (setPoison s l b) := .of_eq rfl rfl rfl rfl rfl
theorem keeps_setBad (s : State) (a : Nat) (b : Bool) : Keeps bs m s (setBad s a b) := .of_eq rfl rfl rfl rfl rfl
theorem keeps_setWay (s : State) (n w : Nat) (x : Option CacheLine) : Keeps bs m s (setWay s n w x) :=
  .of_eq rfl rfl rfl rfl rfl
theorem keeps_setL2 (s : State) (c l : Nat) (x : Option L2Line) : Keeps bs m s (setL2 s c l x) := .of_eq rfl rfl rfl rfl rfl

theorem keeps_setSoft (s : State) (a : Nat) (b : Bool) : Keeps bs m s (setSoft s a b) := .of_eq rfl rfl rfl rfl rfl
theorem keeps_freshCheck (s : State) (a : Nat) : Keeps bs m s (freshCheck s a) := .of_eq rfl rfl rfl rfl rfl

/-- The correctable errors an access meets touch the error logs alone. -/
theorem keeps_softRead (s : State) (b : Block) (q : Nat) (d : Bool) (l : List Nat) (h : MemBlocks bs) :
    Keeps bs m s (softRead s b q d l) := by
  refine keeps_each _ _ (fun a t => ?_) s
  have k : Keeps bs m t (corrected t b a q d) := keeps_corrected _ _ _ _ _ h.fcl h.bfm
  dsimp only
  split
  · exact k.trans (keeps_setSoft _ _ _)
  · exact k

theorem keeps_softMerge (s : State) (b : Block) (q : Nat) (d : Bool) (l : List Nat) (h : MemBlocks bs) :
    Keeps bs m s (softMerge s b q d l) :=
  keeps_each _ _ (fun _ _ => (keeps_corrected _ _ _ _ _ h.fcl h.bfm).trans (keeps_setSoft _ _ _)) s

theorem keeps_softHit (s : State) (r : Port) (w : Nat) (x : CacheLine) (h : MemBlocks bs) :
    Keeps bs m s (softHit s r w x) := by
  unfold softHit
  split
  · exact .refl
  · have k : Keeps bs m s (each ((List.range 8).filter (fun k => Nat.testBit x.soft k)) (fun k t =>
        corrected t .syc (x.line * 64 + 8 * k) r.idx false) s) :=
      keeps_each _ _ (fun _ _ => keeps_corrected _ _ _ _ _ h.fcl h.bfm) s
    generalize each _ _ s = t at k ⊢
    dsimp only
    split
    · exact k.trans (keeps_setWay _ _ _ _)
    · exact k

theorem keeps_poisonLine (s : State) (l n : Nat) : Keeps bs m s (poisonLine s l n) := by
  unfold poisonLine
  split
  · split
    · exact keeps_setWay _ _ _ _
    · exact .refl
  · exact keeps_setPoison _ _ _

theorem keeps_beatRefused (s : State) (a : Nat) (h : MemBlocks bs) : Keeps bs m s (beatRefused s a) := by
  unfold beatRefused
  split
  · exact keeps_busDecode _ _ h.fcl
  · split
    · exact .refl
    · exact keeps_sendFault _ _ _ _ _ _ h.fcl
  · exact .refl

theorem keeps_countDram (s : State) (b : Bool) (h : MemBlocks bs) : Keeps bs m s (countDram s b) := by
  have k : Keeps bs m s (freshBit s).2 := .of_eq rfl rfl rfl rfl rfl
  exact k.trans (keeps_bump _ _ _ _ (by cases b <;> exact h.bfm))

theorem keeps_dramRead (s : State) (r : Port) (l : Nat) (h : MemBlocks bs) : Keeps bs m s (dramRead s r l).2 := by
  have k : Keeps bs m s (countDram s false) := keeps_countDram s false h
  unfold dramRead
  dsimp only
  generalize countDram s false = t at k ⊢
  split
  · exact k.trans (keeps_memUe _ _ _ _ _ _ h.fcl h.bfm)
  · split
    · exact k.trans (keeps_memUe _ _ _ _ _ _ h.fcl h.bfm)
    · exact k.trans (keeps_softRead _ _ _ _ _ h)

theorem keeps_writeBack (s : State) (x : CacheLine) (h : MemBlocks bs) : Keeps bs true s (writeBack s x) := by
  unfold writeBack
  have k : Keeps bs true s (each ((List.range 8).filter (fun k => Nat.testBit x.soft k)) (fun k t =>
      corrected t .syc (x.line * 64 + 8 * k) 30 false) s) :=
    keeps_each _ _ (fun _ _ => keeps_corrected _ _ _ _ _ h.fcl h.bfm) s
  dsimp only
  generalize each _ _ s = t at k ⊢
  have k2 := k.trans ((keeps_countDram t true h).trans (keeps_writeBytes x.data (countDram t true) (x.line * 64)))
  generalize writeBytes (countDram t true) (x.line * 64) x.data = u at k2 ⊢
  exact (k2.trans (keeps_each _ _ (fun _ _ => keeps_freshCheck _ _) u)).trans (keeps_setPoison _ _ _)

theorem keeps_dramWrite (s : State) (r : Port) (l off : Nat) (d : List Byte) (h : MemBlocks bs) :
    Keeps bs true s (dramWrite s r l off d).2 := by
  unfold dramWrite
  dsimp only
  split
  · exact keeps_memUe _ _ _ _ _ _ h.fcl h.bfm
  · split
    · exact keeps_memUe _ _ _ _ _ _ h.fcl h.bfm
    · have k := keeps_countDram (m := true) s true h
      generalize countDram s true = t at k ⊢
      generalize (List.map _ _ : List Nat) = ms
      have k1 := k.trans (keeps_softMerge (m := true) t .bfm r.idx true ms h)
      generalize softMerge t .bfm r.idx true ms = t at k1 ⊢
      generalize (List.range 8).filter _ = ws
      have k2 : Keeps bs true t (each ws (fun k u => freshCheck u (l * 64 + 8 * k)) t) :=
        keeps_each _ _ (fun _ _ => keeps_freshCheck _ _) _
      generalize each ws (fun k u => freshCheck u (l * 64 + 8 * k)) t = u at k2 ⊢
      exact ((k1.trans k2).trans (keeps_writeBytes _ u _)).trans (keeps_setPoison _ _ _)

theorem keeps_touchRef (s : State) (n w : Nat) : Keeps bs m s (touchRef s n w) := by
  have mark (t : State) (v : Nat) (b : Bool) : Keeps bs m t (match wayLine t n v with
      | some x => setWay t n v (some { x with ref := b })
      | none => t) := by
    generalize wayLine t n v = o
    cases o with
    | none => exact .refl
    | some x => exact keeps_setWay _ _ _ _
  unfold touchRef
  extract_lets mk t
  have k1 : Keeps bs m s t := mark s w true
  have k2 : Keeps bs m t (each ((List.range 16).filter (fun v => eligible t v && decide (v ≠ w))) (fun v u => mk u v false) t) :=
    keeps_each _ _ (fun v u => mark u v false) _
  split
  · exact k1.trans k2
  · exact k1

theorem keeps_evbRoom (s : State) (h : MemBlocks bs) : Keeps bs true s (evbRoom s) := by
  unfold evbRoom
  split
  · rename_i x rest _
    split
    · have k : Keeps bs true s { s with syc := { s.syc with evb := rest } } := .of_eq rfl rfl rfl rfl rfl
      generalize ({ s with syc := { s.syc with evb := rest } } : State) = t at k ⊢
      exact k.trans (keeps_writeBack _ _ h)
    · exact .refl
  · exact .refl

theorem keeps_evict (s : State) (n w : Nat) (h : MemBlocks bs) : Keeps bs true s (evict s n w) := by
  unfold evict
  split
  · exact .refl
  · dsimp only
    have k : Keeps bs true s (setWay s n w none) := keeps_setWay _ _ _ _
    generalize setWay s n w none = t at k ⊢
    split
    · have k' := k.trans (keeps_evbRoom t h)
      generalize evbRoom t = u at k' ⊢
      exact k'.trans (.of_eq rfl rfl rfl rfl rfl)
    · exact k

theorem keeps_allocate (s : State) (x : CacheLine) (h : MemBlocks bs) {y : Nat × State} (e : allocate s x = some y) :
    Keeps bs true s y.2 := by
  unfold allocate at e
  dsimp only at e
  split at e
  · cases e
  · cases e
    exact ((keeps_evict _ _ _ h).trans (keeps_setWay _ _ _ _)).trans (keeps_touchRef _ _ _)

theorem keeps_evbTake (s : State) (l : Nat) {y : CacheLine × State} (e : evbTake s l = some y) : Keeps bs m s y.2 := by
  unfold evbTake at e
  split at e
  · cases e
    exact .of_eq rfl rfl rfl rfl rfl
  · cases e

theorem keeps_evbRace (s : State) (l : Nat) (h : MemBlocks bs) : Keeps bs true s (evbRace s l) := by
  unfold evbRace
  split
  · exact .refl
  · rename_i x t e
    have k : Keeps bs true s t := keeps_evbTake s l e
    split
    · rename_i w u e2
      exact (k.trans (keeps_allocate t _ h e2)).trans (keeps_bump _ _ _ _ h.syc)
    · exact k.trans (keeps_writeBack _ _ h)

/-- Before an uncached access a line's eviction completes (R431). -/
theorem keeps_evbFlush (s : State) (l : Nat) (h : MemBlocks bs) :
    Keeps bs true s (match evbTake s l with | some (x, t) => writeBack t x | none => s) := by
  split
  · rename_i x t e
    exact (keeps_evbTake s l e).trans (keeps_writeBack _ _ h)
  · exact .refl

theorem keeps_hitLine (s : State) (r : Port) (l : Nat) (h : MemBlocks bs) : Keeps bs m s (hitLine s r l).2 := by
  unfold hitLine
  dsimp only
  split
  · exact .refl
  · split
    · exact .refl
    · split
      · exact Keeps.trans (keeps_setWay _ _ _ _) (keeps_corrected _ _ _ _ _ h.fcl h.bfm)
      · exact .refl

theorem keeps_sycRead (s : State) (r : Port) (l : Nat) (h : MemBlocks bs) : Keeps bs true s (sycRead s r l).2 := by
  unfold sycRead
  dsimp only
  split
  · exact (keeps_evbFlush s l h).trans (keeps_dramRead _ _ _ h)
  · have k := (keeps_evbRace s l h).trans (keeps_hitLine (m := true) (evbRace s l) r l h)
    split
    · rename_i w x t e
      have k2 : Keeps bs true s (bump t F.SYC_CNT_HITS) := by
        rw [e] at k
        exact k.trans (keeps_bump _ _ _ _ h.syc)
      split
      · exact k2.trans (keeps_memUe _ _ _ _ _ _ h.fcl h.bfm)
      · exact (k2.trans (keeps_softHit _ _ _ _ h)).trans (keeps_touchRef _ _ _)
    · rename_i t e
      have k2 : Keeps bs true s (bump t F.SYC_CNT_MISSES) := by
        rw [e] at k
        exact k.trans (keeps_bump _ _ _ _ h.syc)
      have k3 := k2.trans (keeps_dramRead (m := true) (bump t F.SYC_CNT_MISSES) r l h)
      split
      · rename_i e2
        rw [e2] at k3
        exact k3
      · rename_i e2
        rw [e2] at k3
        split
        · split
          · rename_i e3
            exact k3.trans (keeps_allocate _ _ h e3)
          · exact k3
        · exact k3

theorem keeps_stream (s : State) (r : Port) (l : Nat) (f : Bool) : Keeps bs m s (stream s r l f).2 :=
  .of_eq rfl rfl rfl rfl rfl

theorem keeps_countStreamed (s : State) (h : MemBlocks bs) : Keeps bs m s (countStreamed s) := by
  have k (n : Nat) : Keeps bs m s { s with syc := { s.syc with streamed := n } } := .of_eq rfl rfl rfl rfl rfl
  unfold countStreamed
  dsimp only
  split
  · exact (k _).trans (keeps_bump _ F.SYC_CNT_STREAMED 0 1 h.syc)
  · exact k _

theorem keeps_sycWrite (s : State) (r : Port) (l off : Nat) (d : List Byte) (h : MemBlocks bs) :
    Keeps bs true s (sycWrite s r l off d).2 := by
  unfold sycWrite
  have k0 : Keeps bs true s (stream s r l (decide (d.length = 64))).2 := keeps_stream _ _ _ _
  dsimp only
  generalize stream s r l (decide (d.length = 64)) = p at k0 ⊢
  split
  · exact (k0.trans (keeps_evbFlush p.2 l h)).trans (keeps_dramWrite _ _ _ _ _ h)
  · have k := (k0.trans (keeps_evbRace p.2 l h)).trans (keeps_hitLine (m := true) (evbRace p.2 l) r l h)
    split
    · rename_i w x t e
      have k2 : Keeps bs true s (bump t F.SYC_CNT_HITS) := by
        rw [e] at k
        exact k.trans (keeps_bump _ _ _ _ h.syc)
      generalize bump t F.SYC_CNT_HITS = u at k2 ⊢
      split
      · exact k2.trans (keeps_memUe _ _ _ _ _ _ h.fcl h.bfm)
      · generalize (List.range 8).filter _ = ws
        have k3 := k2.trans (keeps_each (m := true) ws _
          (fun k v => keeps_corrected v .syc (l * 64 + 8 * k) r.idx false h.fcl h.bfm) u)
        generalize each ws _ u = v at k3 ⊢
        exact (k3.trans (keeps_setWay _ _ _ _)).trans (keeps_touchRef _ _ _)
    · rename_i t e
      have k2 : Keeps bs true s (bump t F.SYC_CNT_MISSES) := by
        rw [e] at k
        exact k.trans (keeps_bump _ _ _ _ h.syc)
      generalize bump t F.SYC_CNT_MISSES = u at k2 ⊢
      split
      · exact k2.trans (keeps_dramWrite _ _ _ _ _ h)
      · split
        · exact (k2.trans (keeps_dramWrite _ _ _ _ _ h)).trans (keeps_countStreamed _ h)
        · split
          · exact k2.trans (keeps_dramWrite _ _ _ _ _ h)
          · split
            · split
              · rename_i e3
                exact k2.trans (keeps_allocate _ _ h e3)
              · exact k2
            · have k3 := k2.trans (keeps_dramRead (m := true) u r l h)
              split
              · rename_i e2
                rw [e2] at k3
                exact k3
              · rename_i e2
                rw [e2] at k3
                split
                · rename_i e3
                  exact k3.trans (keeps_allocate _ _ h e3)
                · exact k3.trans (keeps_dramWrite _ _ _ _ _ h)

theorem keeps_l2WriteBack (s : State) (c l : Nat) (h : MemBlocks bs) : Keeps bs true s (l2WriteBack s c l) := by
  unfold l2WriteBack
  split
  · rename_i x _
    split
    · have k := keeps_sycWrite s (port c true) l 0 x.data h
      dsimp only
      generalize (sycWrite s (port c true) l 0 x.data).2 = t at k ⊢
      split
      · exact (k.trans (keeps_poisonLine _ _ _)).trans (keeps_setL2 _ _ _ _)
      · exact k.trans (keeps_setL2 _ _ _ _)
    · exact .refl
  · exact .refl

theorem keeps_l2Invalidate (s : State) (l : Nat) (h : MemBlocks bs) : Keeps bs true s (l2Invalidate s l) := by
  refine keeps_each _ _ (fun c t => ?_) s
  split
  · exact (keeps_l2WriteBack t c l h).trans (keeps_setL2 _ _ _ _)
  · exact .refl

theorem keeps_lineRead (s : State) (r : Port) (l : Nat) (h : MemBlocks bs) : Keeps bs true s (lineRead s r l).2 := by
  unfold lineRead
  split
  · rename_i c _
    split
    · split
      · exact .refl
      · split
        · exact keeps_memUe _ _ _ _ _ _ h.fcl h.bfm
        · have k : Keeps bs true s (corrected (setL2 s c l none) .svc (l * 64) r.idx false) :=
            Keeps.trans (keeps_setL2 _ _ _ _) (keeps_corrected _ _ _ _ _ h.fcl h.bfm)
          exact k.trans (keeps_sycRead _ _ _ h)
    · exact keeps_sycRead _ _ _ h
  · exact keeps_sycRead _ _ _ h

theorem keeps_lineWrite (s : State) (r : Port) (l off : Nat) (d : List Byte) (h : MemBlocks bs) :
    Keeps bs true s (lineWrite s r l off d).2 := by
  unfold lineWrite
  split
  · exact (keeps_l2Invalidate s l h).trans (keeps_sycWrite _ _ _ _ _ h)
  · exact keeps_sycWrite _ _ _ _ _ h

theorem keeps_scratchRead (s : State) (r : Port) (a n : Nat) (h : MemBlocks bs) : Keeps bs m s (scratchRead s r a n).2 := by
  unfold scratchRead
  split
  · exact keeps_memUe _ _ _ _ _ _ h.fcl h.bfm
  · exact keeps_softRead _ _ _ _ _ h

theorem keeps_scratchWrite (s : State) (r : Port) (a : Nat) (d : List Byte) (h : MemBlocks bs) :
    Keeps bs true s (scratchWrite s r a d).2 := by
  unfold scratchWrite
  dsimp only
  split
  · exact keeps_memUe _ _ _ _ _ _ h.fcl h.bfm
  · have k := keeps_softMerge (m := true) s .syc r.idx false
      ((wordsOf a d.length).filter (fun b => !wholeWord a d.length b)) h
    generalize softMerge s .syc r.idx false _ = t at k ⊢
    generalize (wordsOf a d.length).filter _ = ws
    have k2 : Keeps bs true t (each ws (fun a u => freshCheck u a) t) := keeps_each _ _ (fun _ _ => keeps_freshCheck _ _) _
    generalize each ws (fun a u => freshCheck u a) t = u at k2 ⊢
    exact (k.trans k2).trans (keeps_writeBytes _ u _)

theorem keeps_readPiece (s : State) (r : Port) (a n : Nat) (h : MemBlocks bs) : Keeps bs true s (readPiece s r a n).2 := by
  unfold readPiece
  split
  · split
    · have k := keeps_lineRead s r (a / 64) h
      split
      · rename_i e
        rw [e] at k
        exact k
      · rename_i e
        rw [e] at k
        exact k
    · exact .refl
  · exact .refl
  · exact .refl
  · exact keeps_scratchRead _ _ _ _ h
  · exact keeps_beatRefused _ _ h
  · split
    · exact .refl
    · exact keeps_busDecode _ _ h.fcl

theorem keeps_writePiece (s : State) (r : Port) (a : Nat) (d : List Byte) (h : MemBlocks bs) :
    Keeps bs true s (writePiece s r a d).2 := by
  unfold writePiece
  split
  · split
    · exact keeps_lineWrite _ _ _ _ _ h
    · exact .refl
  · exact keeps_scratchWrite _ _ _ _ h
  · exact keeps_beatRefused _ _ h
  all_goals first | exact .refl | exact keeps_busDecode _ _ h.fcl

theorem keeps_readLines (r : Port) (k : Nat) (h : MemBlocks bs) :
    ∀ (a n : Nat) (s : State), Keeps bs true s (readLines r k a n s).2 := by
  induction k with
  | zero => intro a n s; exact .refl
  | succ k ih =>
    intro a n s
    unfold readLines
    have k1 := keeps_readPiece s r a (min n (64 - a % 64)) h
    dsimp only
    split
    · rename_i e
      rw [e] at k1
      exact k1
    · rename_i d t e
      rw [e] at k1
      have k2 := k1.trans (ih (a + min n (64 - a % 64)) (n - min n (64 - a % 64)) t)
      split
      · rename_i e2
        rw [e2] at k2
        exact k2
      · rename_i e2
        rw [e2] at k2
        exact k2

theorem keeps_busRead (s : State) (r : Port) (a n : Nat) (h : MemBlocks bs) : Keeps bs true s (busRead s r a n).2 :=
  keeps_readLines _ _ h _ _ _

theorem keeps_writeLines (r : Port) (k : Nat) (h : MemBlocks bs) :
    ∀ (a : Nat) (d : List Byte) (s : State), Keeps bs true s (writeLines r k a d s).2 := by
  induction k with
  | zero => intro a d s; exact .refl
  | succ k ih =>
    intro a d s
    unfold writeLines
    have k1 := keeps_writePiece s r a (d.take (min d.length (64 - a % 64))) h
    dsimp only
    split
    · rename_i e
      rw [e] at k1
      exact k1
    · rename_i e
      rw [e] at k1
      exact k1.trans (ih _ _ _)

theorem keeps_busWrite (s : State) (r : Port) (a : Nat) (d : List Byte) (h : MemBlocks bs) :
    Keeps bs true s (busWrite s r a d).2 := keeps_writeLines _ _ h _ _ _

/-! ### The event ring and readiness -/

theorem keeps_markPage (s : State) (p v : Nat) (he : Block.evr ∈ bs) : Keeps bs m s (markPage s p v) := by
  unfold markPage
  split
  · exact keeps_wr s .EVR_DIRTY _ _ he
  · exact .of_eq rfl rfl rfl rfl rfl

theorem keeps_drainOne (s : State) (h : MemBlocks bs) (he : Block.evr ∈ bs) : Keeps bs true s (drainOne s) := by
  unfold drainOne
  split
  · rename_i r rest _ _
    split
    · have k : Keeps bs true s { s with evr := { s.evr with ring := rest } } := .of_eq rfl rfl rfl rfl rfl
      exact (k.trans (keeps_bump _ F.EVR_DROPS_N 0 1 he)).trans (keeps_raiseSource _ _ h.fcl)
    · rename_i slot _
      split
      · dsimp only
        have k : Keeps bs true s { s with evr := { s.evr with
            ring := rest
            log := tset (dflt none) s.evr.log slot (some { sev := r.sev, seq := fld s F.EVR_SEQ_NEXT_SEQ, code := r.code }) } } :=
          .of_eq rfl rfl rfl rfl rfl
        have k2 := k.trans (keeps_busWrite _ portShared (fld s F.EVR_LOG_BASE_BASE + 64 * slot)
          (recordBytes r (fld s F.EVR_SEQ_NEXT_SEQ)) h)
        exact ((k2.trans (keeps_setFld _ F.EVR_SEQ_NEXT_SEQ 0 _ he)).trans (keeps_markPage _ _ _ he)).trans
          (keeps_raiseSource _ _ h.fcl)
      · exact .refl
  · exact .refl

theorem keeps_ringPut (s : State) (r : EvRec) (h : MemBlocks bs) (he : Block.evr ∈ bs) : Keeps bs true s (ringPut s r).2 := by
  have k : Keeps bs true s (if 1024 ≤ s.evr.ring.length then drainOne s else s) := by
    split
    · exact keeps_drainOne s h he
    · exact .refl
  have drop (t : State) : Keeps bs true t (raiseSource (bump t F.EVR_DROPS_N) 50) :=
    (keeps_bump t F.EVR_DROPS_N 0 1 he).trans (keeps_raiseSource _ _ h.fcl)
  unfold ringPut
  dsimp only
  generalize (if 1024 ≤ s.evr.ring.length then drainOne s else s) = t at k ⊢
  split
  · exact k.trans (.of_eq rfl rfl rfl rfl rfl)
  · split
    · exact k.trans (drop t)
    · split
      · split
        · exact k.trans (.of_eq rfl rfl rfl rfl rfl)
        · exact k
      · exact k.trans (drop t)

theorem keeps_evrRequest (s : State) (r : EvRec) (h : MemBlocks bs) (he : Block.evr ∈ bs) :
    Keeps bs true s (evrRequest s r).2 := by
  unfold evrRequest
  dsimp only
  split
  · have k : Keeps bs true s (if fld s F.EVR_RATE_PERIOD r.code = 0 ∨ r.sev = 7 then s
        else setFld s F.EVR_RATE_TOKENS r.code (fld s F.EVR_RATE_TOKENS r.code - 1)) := by
      split
      · exact .refl
      · exact keeps_setFld _ F.EVR_RATE_TOKENS _ _ he
    generalize (if fld s F.EVR_RATE_PERIOD r.code = 0 ∨ r.sev = 7 then s
        else setFld s F.EVR_RATE_TOKENS r.code (fld s F.EVR_RATE_TOKENS r.code - 1)) = t at k ⊢
    have k2 : Keeps bs true s { t with evr := { t.evr with suppressed := tset (dflt 0) t.evr.suppressed r.code 0 } } :=
      k.trans (.of_eq rfl rfl rfl rfl rfl)
    exact k2.trans (keeps_ringPut _ _ h he)
  · exact .of_eq rfl rfl rfl rfl rfl

theorem keeps_evrEvent (s : State) (code sev source : Nat) (p1 p2 p3 p4 : Word) (h : MemBlocks bs) (he : Block.evr ∈ bs) :
    Keeps bs true s (evrEvent s code sev source p1 p2 p3 p4) := keeps_evrRequest _ _ h he

theorem keeps_setReady (s : State) (f : Fld) (lane : Nat) (b : Bool) (h : MemBlocks bs) (he : Block.evr ∈ bs)
    (hc : Block.ckr ∈ bs) : Keeps bs true s (setReady s f lane b) := by
  unfold setReady
  dsimp only
  split
  · exact .refl
  · exact ((keeps_wr s .CKR_READY 0 _ hc).trans (keeps_evrEvent _ _ _ _ _ _ _ _ h he)).trans (keeps_raiseSource _ _ h.fcl)

end Memory

end Sys2Proof.Machine
end

