-- ==== Sys2Proof/Machine/Report.lean ====
section
/-!
DEFINITION. What the host ports and the sideband report (chapter 10): the values of Table 10.2, the atomic unit that an
Identify gives (R384), the temperatures of R397, the Control mode page of R390 and the receive buffering of R382.
-/

namespace Sys2Proof.Machine

/-- The values an NVMe controller reports (Table 10.2), each as its field holds it. -/
structure NvmeReport where
  mqes : Nat
  cqr : Nat
  /-- weighted round robin with urgent class -/
  ams : Bool
  /-- in units of 500 ms -/
  timeout : Nat
  dstrd : Nat
  nssrs : Nat
  mpsMin : Nat
  mpsMax : Nat
  /-- Number of Queues, submission and completion alike, 0's based -/
  nq : Nat
  mdts : Nat
  maxCmd : Nat
  nn : Nat
  sqes : Nat
  cqes : Nat
  fuses : Nat
  vwc : Bool
  awun : Nat
  awupf : Nat
  fwSlots : Nat
  /-- activation without reset -/
  fwLive : Bool
  fwug : Nat
  /-- in units of 100 ms -/
  mtfa : Nat
  npss : Nat
  /-- kelvins -/
  wctemp : Nat
  cctemp : Nat
  cmic : Nat
  cntlid : Nat
deriving DecidableEq, Repr

/-- AWUN and AWUPF for an LBA format, 0's based (R384, R350): 256 KiB while GLY_BUDGET_STAT.AWU_256K stands, else 4 KiB. -/
def atomicUnit (s : State) (lbaf : Nat) : Nat :=
  (if flag s F.GLY_BUDGET_STAT_AWU_256K then 262144 else 4096) / lbaData lbaf - 1

/-- What controller p reports at an Identify (R383, R384), for a namespace of an LBA format; WCTEMP and CCTEMP are
MGT_TEMP_THR's (R402). -/
def nvmeReport (s : State) (p lbaf : Nat) : NvmeReport := {
  mqes := 0xFFFF, cqr := 1, ams := true, timeout := 2, dstrd := 0, nssrs := 0, mpsMin := 0, mpsMax := 4
  nq := if isDual s then 0x7FFE else 0xFFFE
  mdts := 9, maxCmd := 8192, nn := 128, sqes := 0x66, cqes := 0x44, fuses := 1, vwc := true
  awun := atomicUnit s lbaf, awupf := atomicUnit s lbaf
  fwSlots := 1, fwLive := true, fwug := 1, mtfa := 100, npss := 0
  wctemp := fld s F.MGT_TEMP_THR_WARN, cctemp := fld s F.MGT_TEMP_THR_CRIT
  cmic := if isDual s then 2 else 0
  cntlid := if isDual s then p else 0 }

/-- Receive buffering of a port in bytes (R382, R30). -/
def rxBuffer (s : State) : Nat := if isDual s then 65536 else 131072

/-- Interrupt vectors a port offers (Table 10.1). -/
def msixVectors (s : State) : Nat := if isDual s then 1024 else 2048

/-- A temperature of MGT_TEMP's scale, in quarter kelvins. -/
def quarterKelvins (raw : Nat) : Nat := 800 + raw

/-- The composite temperature and Temperature Sensor 1, the controller die, and Sensor 2, the power die, in quarter
kelvins (R397). -/
def temperatures (s : State) : Nat × Nat × Nat :=
  let c := quarterKelvins (fld s F.MGT_TEMP_CTRL)
  (c, c, quarterKelvins (fld s F.MGT_TEMP_PWR))

/-- The Control mode page's D_SENSE default and the one value of QUEUE ALGORITHM MODIFIER it accepts (R390). -/
def controlPage : Nat × Nat := (1, 1)

end Sys2Proof.Machine
end

