-- ==== Sys2Proof/Machine/Pins.lean ====
section
/-!
DEFINITION. What chapter 18 gives the balls in numbers a model can hold: the conversions and counts of the inputs (R629, R630),
the supplies' operating ranges (R623, R625) and the ball map (R634 to R636).
-/

namespace Sys2Proof.Machine

/-- The code AIN_SETPT converts a voltage to, in microvolts (R630). -/
def ainCode (microvolts : Nat) : Nat := min 4095 (microvolts * 4096 / 1800000)

/-- A run of low samples of RST_N, one every 40 ns, starts a chip reset (R629): 25 of them. -/
def rstStarts (lowSamples : Nat) : Bool := decide (25 ≤ lowSamples)

/-- VIN in its operating range, in millivolts (Table 18.2). -/
def vinOperates (mv : Nat) : Bool := decide (2700 ≤ mv ∧ mv ≤ 5500)

/-- VM in its operating range, in millivolts, at a clamp level (Table 18.2, R623): with a clamp below 14.2 V the maximum is
CLAMP_V − 0.4 V. -/
def vmOperates (clampMv mv : Nat) : Bool := decide (10200 ≤ mv ∧ mv ≤ min 13800 (clampMv - 400))

/-- A rail output of the package (Tables 17.1 and 18.3): its nominal level in millivolts and its current limit in
milliamperes; none for the four internal rails. -/
def railOutput (k : Nat) : Option (Nat × Nat) :=
  match k with
  | 4 => some (1800, 250)
  | 5 => some (1050, 900)
  | 6 => some (500, 600)
  | 7 => some (2500, 1500)
  | 8 => some (1200, 600)
  | _ => none

/-- The nominal level of a rail in millivolts, in power-up order (Table 17.1). -/
def railNominal (k : Nat) : Nat := [900, 750, 850, 1800, 1800, 1050, 500, 2500, 1200].getD k 0

/-- A rail is switched off below 90 % of its nominal level (R598). -/
def railLow (k mv : Nat) : Bool := decide (100 * mv < 90 * railNominal k)

/-- The regions of the ball map (Table 18.8). -/
inductive BallRegion where
  | hostHighSpeed | lowSpeed | dram | centre | nand | hda | supply | actuators | spindle
deriving DecidableEq, Repr

/-- The region of the ball in a row and a column, both from 1 (Table 18.8). -/
def ballRegion (row col : Nat) : Option BallRegion :=
  if row = 0 ∨ col = 0 ∨ 36 < row ∨ 36 < col then none
  else if row ≤ 4 then some (if col ≤ 18 then .hostHighSpeed else .lowSpeed)
  else if row ≤ 14 then some (if col ≤ 12 then .dram else if col ≤ 24 then .centre else .nand)
  else if row ≤ 18 then some .hda
  else if row ≤ 24 then some .supply
  else if row ≤ 28 then some .actuators
  else some .spindle

/-- The actuator whose balls a column of the HDA and actuator-drive regions holds (R634). -/
def ballActuator (col : Nat) : Nat := (col - 1) / 9

/-- The ball groups that can be absent (Table 18.9, R636). -/
inductive BallGroup where
  | pcie
  | sas
  | nand
  | hda (a : Nat)
  | actuatorDrive (a : Nat)
deriving DecidableEq, Repr

/-- The balls of a group are connected inside the package (R636): those of an absent unit are not. -/
def ballConnected (p : Part) : BallGroup → Bool
  | .pcie => p.hasPcie
  | .sas => p.hasSas
  | .nand => p.hasFlt
  | .hda a => decide (a < p.acts)
  | .actuatorDrive a => decide (a < p.acts)

end Sys2Proof.Machine
end

