-- ==== Sys2Proof/Tests/Slice0.lean ====
section
/-!
SUPPORT. The model's own tests: the spec's worked examples, ill-formed commands refused, and for each statement with hypotheses
states and operands that meet them, clause by clause.
-/

namespace Sys2Proof.Tests

open Sys2Proof Sys2Proof.Machine

set_option Elab.async false

/-! ### Small states -/

/-- A state with register fields set, each by field, instance and value. -/
def withRegs (l : List (Fld × (Nat × Nat))) (s : State := State.reset) : State :=
  l.foldl (fun s x => setFld s x.1 x.2.1 x.2.2) s

/-- The four bytes of a CRC. -/
def crcBytes (c : BitVec 32) : List Byte := [c.extractLsb' 0 8, c.extractLsb' 8 8, c.extractLsb' 16 8, c.extractLsb' 24 8]

/-- A sector of zeros with its CRC. -/
def crcData : List Byte := List.replicate 4108 0#8 ++ crcBytes (sectorCrc 0#64 (List.replicate 4108 0#8))

/-- The four bytes of a CRC spell it. -/
theorem leNat_crc (c : BitVec 32) : BitVec.ofNat 32 (leNat (crcBytes c)) = c := by
  apply BitVec.eq_of_toNat_eq
  simp [leNat, crcBytes, BitVec.extractLsb'_toNat]
  omega

/-- Data and its check bytes come apart again. -/
theorem crc_parts (n : Nat) (l : List Byte) : (List.replicate n 0#8 ++ l).take n = List.replicate n 0#8 ∧
    (List.replicate n 0#8 ++ l).drop n = l ∧ (List.replicate n 0#8 ++ l).length = n + l.length := by
  refine ⟨?_, ?_, ?_⟩ <;> simp

theorem crcData_length : crcData.length = 4112 := (crc_parts 4108 _).2.2

theorem crcData_crc : sectorCrc 0#64 (crcData.take 4108) = BitVec.ofNat 32 (leNat (crcData.drop 4108)) := by
  unfold crcData
  rw [(crc_parts 4108 _).1, (crc_parts 4108 _).2.1, leNat_crc]

/-- A state with SPN's part replaced. -/
def setSpn (p : Spn) (s : State) : State := { s with spn := p }

/-- Shuttle 0 running one instruction at PC 0, with registers set. -/
def running (op rd rs imm : Nat) (regs : List (Nat × Word)) (s : State := State.reset) : State :=
  setSht s 0 (lsStore { st := .run, w := regs } 0
    ((wordBytes (BitVec.ofNat 64 (op * 2 ^ 24 + rd * 2 ^ 20 + rs * 2 ^ 16 + imm))).take 4))

/-- Shuttle 0 running a media instruction whose descriptor's words stand at 0x3000. -/
def media (op rd imm : Nat) (words : List Word) (s : State) : State :=
  modSht (running op rd 0 imm [] s) 0 (fun h => lsStore h 0x3000 (words.flatMap wordBytes))

/-- A paired HDA with actuator 1 following track 80 under head 0, its lanes locked and one zone. -/
def onTrackState : State :=
  setSvg (setCte (withRegs [(F.HDL_TAG_STATUS_STATE, 0, 2), (F.CTE_STAT_STATE, 1, 6), (F.CTE_STAT_OT, 1, 0),
    (F.CTE_MAX_TRACK_TRACKS, 0, 1000), (F.LNE_RATE_STAT_LOCKED, 1, 1), (F.LNE_AFE_CTL_EN, 2, 1), (F.LNE_AFE_CTL_EN, 3, 1), (F.WRP_MAX_TRACK_TRACKS, 0, 1000),
    (F.WRP_ZONE_VALID, 0, 1), (F.WRP_ZONE_SPT, 0, 8), (F.WRP_ZONE_REV_CYCLES, 0, 100000), (F.HDL_HEADMAP_ACT, 0, 1),
    (F.HDL_HEADMAP_VALID, 0, 1), (F.HDL_HEADMAP_LOCK_LOCK, 0, 1)]) 1 { track := 80 }) 1 { track := 80, trkValid := true, idConf := true, angValid := true }

/-- Galley enabled with n entries of its admin queue behind the tail; the queue's extension stands at 0. -/
def queued (n : Nat) : State :=
  setCtxQ (writeWord (withRegs [(F.GLY_CTL_EN, 0, 1), (F.GLY_QEXT_BASE_BASE, 0, 0)]) 16 0xF000F#64) 0
    { sqEn := true, cqEn := true, sqTail := n }

/-- What the arbiter of a state chooses for its first controller. -/
def pickQueue (s : State) : Nat × Option Nat × State := (chooseQueue s 0).getD (0, none, s)

/-! ### The spec's worked examples -/

/-- R6's example: CKR_UNITS of an FJD-7422. -/
theorem test_units_7422 : units .fjd7422 = 0x00003FFFD303F0F3#64 := by decide

/-- R611's example: PRECOMP of head 13 in group 5 is item 789, its count at 0x1C54 and its time at 0x58A8 of CAL's window. -/
theorem test_cal_addresses : Reg.addr .CAL_COUNT 789 = Block.base .cal + 0x1C54 ∧
    Reg.addr .CAL_LAST 789 = Block.base .cal + 0x58A8 ∧ itemHead 789 = 13 ∧ itemGroup 789 = 5 := by decide

/-- R145's example: with TRACK_SKEW = 60, logical sector 0 of track 5 lies in slot 300 of 1,348. -/
theorem test_slot_skew : slotOf (zoneRegs (withRegs [(F.WRP_ZONE_SPT, 2, 1348), (F.WRP_ZONE2_TRACK_SKEW, 2, 60)])) 2 5 0 = 300 := by
  decide +kernel

/-- R60's example: HDA life 41%, limited by counter 3. -/
theorem test_life_percent : lifePct { ([(0, 600000), (1, 7200000), (2, 108000000), (3, 2750000000), (4, 157680000)]).foldl
      (fun s x => wr s .HDL_LIFE_RATED x.1 (BitVec.ofNat 64 x.2)) State.reset with
    tag := { committed := [(0, 150000), (1, 2520000), (2, 32400000), (3, 1130000000), (4, 63072000)] } } = (41, 3) := by
  decide +kernel

/-- R84's example: the frequency seed is +80 ppm, 0.00064 bit per clock in 2^−20 bit, and the phase seed step 24 of 1/64 bit. -/
theorem test_lane_seeds :
    let s := setPair (withRegs [(F.SVG_TONE_F_A, 1, 125010000), (F.LNE_SV_OFFSET_OFS, 1, 24)]) 1 { rate := 60000 }
    freqSeed s 1 = 671 ∧ (phaseSeed s 1 0x2AB0 + 2 ^ 13) / 2 ^ 14 = 24 := by decide +kernel

/-- R488's example: SPARE of 628 blocks of 125,440 is 5,006 ppm, 627 is 4,998. -/
theorem test_spare_ppm : sparePpm { State.reset with flt := { nTotal := 125440, spare := 628 } } = 5006 ∧
    sparePpm { State.reset with flt := { nTotal := 125440, spare := 627 } } = 4998 := by decide +kernel

/-- R497's example: 16 dies of 64 KiB units at 585 µs flush at 1,680 MB/s, 15 dies at 1,568 MB/s. -/
theorem test_flush_rate :
    let r (n : Nat) : Nat := fld (flushRate { withRegs [(F.FLT_HU_CTL_MAX_ACTIVE, 0, 16), (F.FLT_GEOM_PLANES, 0, 4),
      (F.FLT_ONFI_CTL_REACHED, 0, 0xFFF)] with flt := { dies := List.range n, progs := [585] } }) F.FLT_HU_STAT_FLUSH_RATE
    r 16 = 1680 ∧ r 15 = 1568 := by decide +kernel

/-- R230's example: with FLOAT_LVL = 4 the clamp binds above 0.829 of full scale at 15,000 rpm, and never at 7,200 rpm. -/
theorem test_window_clamp :
    let s (rpm : Nat) : State := withRegs [(F.SPN_WIN_CTL_FLOAT_LVL, 0, 4), (F.SPN_OBS_SPEED, 0, 100 * rpm)]
    clampBinds (s 15000) 27000 = false ∧ clampBinds (s 15000) 27300 = true ∧ clampBinds (s 7200) 32767 = false := by
  decide +kernel

/-- R314: an armed match replaces the fetch of its own ROM word by its patch word; branches end a sequence or stay in the block. -/
theorem test_micro_fetch :
    let s := withRegs [(F.SHT_MATCH_EN, 0, 1), (F.SHT_MATCH_MATCH_ADDR, 0, 0x1045), (F.SHT_MATCH_PATCH_ADDR, 0, 7)]
    microFetch s (.rom 0x1045 false) = .patch 7 ∧ microFetch s (.rom 0x1046 false) = .rom 0x1046 false ∧
    microFetch s (.rom 0x1045 true) = .rom 0x1045 true ∧
    microGo 0x41 false (microOf 0x40000#20) (.rom 0x1045 false) = none := by decide +kernel

/-- R85's example of a mark accepted at +11 with distance 3; of equal distances the earliest is taken. -/
theorem test_sync_search :
    syncSearch 0xFFFFFFFF#64 16 4 ((List.range 64).map (Nat.testBit ((2 ^ 32 - 1 - 2 ^ 10 - 2 ^ 15 - 2 ^ 20) * 2 ^ 27))) = some (11, 3) ∧
    syncSearch 0xFFFFFFFF#64 16 4 (List.replicate 64 true) = some (-16, 0) ∧ syncSearch 0xFFFFFFFF#64 16 4 (List.replicate 64 false) = none := by decide +kernel

/-- R542: a message of a hardware source written by firmware is counted lost. -/
theorem test_sw_raise_lost : ∀ t, exec (.fclSwRaise 3 (faultMsg 40 0x90 3 0)) State.reset = .next t → fld t F.FCL_CNT_LOST = 1 := by
  intro t h
  cases h
  decide +kernel

/-- Table 8.4: ADD wraps, and a branch of −1 word is to its own address. -/
theorem test_coava : (∀ t, exec (.add 0 3 5) (running 0x11 3 5 0 [(3, 0xFFFFFFFFFFFFFFFF#64), (5, 2#64)]) = .next t →
      wGet (shtOf t 0) 3 = 1#64) ∧
    (∀ t, exec (.b 0 0xFFFF) (running 0x02 0 0 0xFFFF []) = .next t → (shtOf t 0).pc = 0) := by
  constructor <;> intro t h <;> cases h <;> decide +kernel

/-- An idle step is one crystal period: 40 ns of the count from chip reset, one of SVC_MTIME. -/
theorem test_idle : ∀ t, step State.reset = .next t → t.ckr.up = 1 ∧ rd t .SVC_MTIME 0 = 1#64 := by
  intro t h
  cases h
  decide +kernel

/-- R68 and R177: samples are signed, of 7 bits in a lane's converters and of 10 in a servo channel's. -/
theorem test_wf_samples :
    wellFormed (.acquireEnd 0 [{ lead := [64] }]) = false ∧ wellFormed (.acquireEnd 0 [{ trail := [-65] }]) = false ∧
    wellFormed (.spliceGapEnd { spans := [{ lead := List.replicate 19 0 }] }) = false ∧
    wellFormed (.pesSample 0 [512] [] none 0 0 0) = false ∧ wellFormed (.pesSample 0 [] [-513] none 0 0 0) = false ∧
    wellFormed (.pairSlip { spans := [{ lead := [63], trail := [-64] }] } true) = true := by decide +kernel

/-! ### Well-formedness -/

/-- Commands with one operand out of its range are refused, one for each check. -/
theorem test_wf_refuses_1 : ([.registerWrite 41 0 4 0#64, .registerWrite 0 1099511627776 4 0#64, .registerWrite 0 0 2 0#64,
    .undecodedAccess 41 0 1 false, .undecodedAccess 0 18446744073709551616 1 false, .undecodedAccess 0 0 0 false,
    .undecodedAccess 0 0 65 false, .railFault 9, .pllLockLoss 10, .pspFrameLaunch 4 0#64, .pspFrameEnd 4 0,
    .pspFrameEnd 0 65536, .preampFault 4, .headSwitchRequest 4 0, .headSwitchRequest 0 32, .headSwitchDone 4,
    .laneRateWrite 4 0, .laneRateWrite 0 65536, .rateLocked 4, .sectorPreambleStart 4 0 {} false, .acquireEnd 4 [],
    .markADecision 4 [] [], .markBDecision 4 [] [] [] [], .spliceGapEnd { act := 4 }, .pairSlip { act := 4 } false,
    .flaggedSpanOverrun { act := 4 }, .retainPin 4 0 0, .retainPin 0 4 0, .retainUnpin 4 0 0, .retainUnpin 0 4 0,
    .replayRequest 4 0#64, .replayStart 4, .replayDone 4 false false false, .laneBlockReset 4, .trailerArrival 4 [] false,
    .decodeConverged 12 0 (List.replicate 4112 0#8), .decodeConverged 0 0 [], .decodeCap 12, .earlyPin 12,
    .decodeYield 12 0, .writebackDone 4 0 false, .decodeDeadline 4 0, .entryUrgent 4 0, .recoveryJobAged 4 0,
    .recoveryTimeout 4 {}, .dcpCplRead 4, .dcpSubmit 4 0#64, .decoderMemoryError 12, .sectorFetchDone 4 0 false,
    .dataLate 4, .preheatSlip 4, .wgRise { act := 4 }, .sectorWritten 4, .writeRunEnd 4, .pesSample 4 [] [] none 0 0 0,
    .toneLock 4, .stripeCrossing 4 false {}, .identityFrame 4 0 0, .identityFrame 0 18446744073709551616 0, .svgBlockReset 4] : List Instr).all (fun c => !wellFormed c) = true := by
  decide +kernel

/-- Commands with one operand out of its range are refused, one for each check. -/
theorem test_wf_refuses_2 : ([.lawTick 5 0, .lawTick 0 4096, .settleCriteriaMet 4, .offTrackClear 4, .residualFail 4, .coastMaxReached 4,
    .loadStripeFound 4, .loadTimeout 4, .acquireTimeout 4, .settleTimeout 4, .holdTimeout 4, .unloadDriveEnd 4,
    .parkHoldEnd 4, .cteSeek 4 0#64, .load 4, .park 4, .resume 4, .bemfCrossing 0 6 false, .thermalWarning 1024,
    .thermalShutdown 1024, .vcmShort 4, .shuttleEnable 24, .shuttleReset 24, .shuttleDisable 24, .shuttleResume 24,
    .taskTake 24, .trap 24 0 0, .trap 0 16 0, .taskTimeout 24, .stallRelease 24 0, .stallRelease 0 10, .waitEvent 24,
    .waitTimeout 24, .frameReady 24 0 false, .frameReady 0 4 false, .mediaOpComplete 24 0, .mediaOpComplete 0 9,
    .mediaTimeout 24 0, .mediaTimeout 0 9, .nop 24, .halt 24, .b 24 0, .b 0 65536, .bz 24 0 0, .bz 0 16 0, .bz 0 0 65536,
    .bnz 24 0 0, .bnz 0 16 0, .bnz 0 0 65536, .beq 24 0 0 0, .beq 0 16 0 0, .beq 0 0 16 0, .beq 0 0 0 65536, .bne 24 0 0 0,
    .bne 0 16 0 0, .bne 0 0 16 0, .bne 0 0 0 65536, .blt 24 0 0 0, .blt 0 16 0 0, .blt 0 0 16 0] : List Instr).all (fun c => !wellFormed c) = true := by
  decide +kernel

/-- Commands with one operand out of its range are refused, one for each check. -/
theorem test_wf_refuses_3 : ([.blt 0 0 0 65536, .bge 24 0 0 0, .bge 0 16 0 0, .bge 0 0 16 0, .bge 0 0 0 65536, .bltu 24 0 0 0, .bltu 0 16 0 0,
    .bltu 0 0 16 0, .bltu 0 0 0 65536, .bgeu 24 0 0 0, .bgeu 0 16 0 0, .bgeu 0 0 16 0, .bgeu 0 0 0 65536, .bls 24 0 0,
    .bls 0 16 0, .bls 0 0 65536, .call 24 0 0, .call 0 16 0, .call 0 0 65536, .ret 24 0, .ret 0 16, .mov 24 0 0,
    .mov 0 16 0, .mov 0 0 16, .add 24 0 0, .add 0 16 0, .add 0 0 16, .sub 24 0 0, .sub 0 16 0, .sub 0 0 16, .and 24 0 0,
    .and 0 16 0, .and 0 0 16, .or 24 0 0, .or 0 16 0, .or 0 0 16, .xor 24 0 0, .xor 0 16 0, .xor 0 0 16, .shl 24 0 0,
    .shl 0 16 0, .shl 0 0 16, .shr 24 0 0, .shr 0 16 0, .shr 0 0 16, .sar 24 0 0, .sar 0 16 0, .sar 0 0 16, .mul 24 0 0,
    .mul 0 16 0, .mul 0 0 16, .getls 24 0, .getls 0 16, .time 24 0, .time 0 16, .ldi 24 0 0, .ldi 0 16 0, .ldi 0 0 65536,
    .movk 24 0 0 0, .movk 0 16 0 0] : List Instr).all (fun c => !wellFormed c) = true := by
  decide +kernel

/-- Commands with one operand out of its range are refused, one for each check. -/
theorem test_wf_refuses_4 : ([.movk 0 0 16 0, .movk 0 0 0 65536, .addi 24 0 0 0, .addi 0 16 0 0, .addi 0 0 16 0, .addi 0 0 0 65536, .andi 24 0 0 0,
    .andi 0 16 0 0, .andi 0 0 16 0, .andi 0 0 0 65536, .ori 24 0 0 0, .ori 0 16 0 0, .ori 0 0 16 0, .ori 0 0 0 65536,
    .xori 24 0 0 0, .xori 0 16 0 0, .xori 0 0 16 0, .xori 0 0 0 65536, .shli 24 0 0 0, .shli 0 16 0 0, .shli 0 0 16 0,
    .shli 0 0 0 65536, .shri 24 0 0 0, .shri 0 16 0 0, .shri 0 0 16 0, .shri 0 0 0 65536, .sari 24 0 0 0, .sari 0 16 0 0,
    .sari 0 0 16 0, .sari 0 0 0 65536, .extr 24 0 0 0, .extr 0 16 0 0, .extr 0 0 16 0, .extr 0 0 0 65536, .ld 24 0 0 0,
    .ld 0 16 0 0, .ld 0 0 16 0, .ld 0 0 0 65536, .st 24 0 0 0, .st 0 16 0 0, .st 0 0 16 0, .st 0 0 0 65536, .ld32 24 0 0 0,
    .ld32 0 16 0 0, .ld32 0 0 16 0, .ld32 0 0 0 65536, .st32 24 0 0 0, .st32 0 16 0 0, .st32 0 0 16 0, .st32 0 0 0 65536,
    .seek 24 0 0, .seek 0 16 0, .seek 0 0 65536, .rdrun 24 0 0, .rdrun 0 16 0, .rdrun 0 0 65536, .wrrun 24 0 0,
    .wrrun 0 16 0, .wrrun 0 0 65536, .verify 24 0 0] : List Instr).all (fun c => !wellFormed c) = true := by
  decide +kernel

/-- Commands with one operand out of its range are refused, one for each check. -/
theorem test_wf_refuses_5 : ([.verify 0 16 0, .verify 0 0 65536, .mabort 24 0, .mabort 0 16, .bld 24 0 0 0, .bld 0 16 0 0, .bld 0 0 16 0,
    .bld 0 0 0 65536, .bst 24 0 0 0, .bst 0 16 0 0, .bst 0 0 16 0, .bst 0 0 0 65536, .bld32 24 0 0 0, .bld32 0 16 0 0,
    .bld32 0 0 16 0, .bld32 0 0 0 65536, .bst32 24 0 0 0, .bst32 0 16 0 0, .bst32 0 0 16 0, .bst32 0 0 0 65536,
    .bin 24 0 0 0, .bin 0 16 0 0, .bin 0 0 16 0, .bin 0 0 0 65536, .bout 24 0 0 0, .bout 0 16 0 0, .bout 0 0 16 0,
    .bout 0 0 0 65536, .submit 24 0 0, .submit 0 16 0, .submit 0 0 16, .await 24 0 0 0, .await 0 16 0 0, .await 0 0 16 0,
    .await 0 0 0 65536, .push 24 0 0, .push 0 16 0, .push 0 0 65536, .pop 24 0 0 false, .pop 0 16 0 false,
    .pop 0 0 65536 false, .spdrop 24 0, .spdrop 0 65536, .slotStatus 24 0 0, .slotStatus 0 16 0, .slotStatus 0 0 16,
    .complete 24 0 0, .complete 0 16 0, .complete 0 0 16, .hold 24 0 0, .hold 0 16 0, .hold 0 0 65536, .wait 24 0 0 0,
    .wait 0 16 0 0, .wait 0 0 16 0, .wait 0 0 0 65536, .spawn 24 0 0, .spawn 0 16 0, .spawn 0 0 65536, .yield 24 0 0 0] : List Instr).all (fun c => !wellFormed c) = true := by
  decide +kernel

/-- Commands with one operand out of its range are refused, one for each check. -/
theorem test_wf_refuses_6 : ([.yield 0 16 0 0, .yield 0 0 16 0, .yield 0 0 0 65536, .barrier 24 0 0 0, .barrier 0 16 0 0, .barrier 0 0 16 0,
    .barrier 0 0 0 65536, .loomPush 40 0#64, .loomTake 16 0, .loomTake 0 40, .loomBarArrive 16 0 0#64,
    .loomBarArrive 0 16 0#64, .barrierRelease 16, .barrierTimeout 16, .loomBarCfgWrite 16 0#64, .doorbell 2 0 false 0,
    .doorbell 0 65536 false 0, .doorbell 0 0 false 65536, .fetch [[]] false, .commandAcceptance { cls := .flush } 8192,
    .fusedWaitTimeout 65536 (List.replicate 8 0#64), .fusedWaitTimeout 0 [],
    .sasCommandFrame 2 0 0 0 (List.replicate 8 0#64) { cls := .flush } 0,
    .sasCommandFrame 0 0 65536 0 (List.replicate 8 0#64) { cls := .flush } 0,
    .sasCommandFrame 0 0 0 3 (List.replicate 8 0#64) { cls := .flush } 0, .sasCommandFrame 0 0 0 0 [] { cls := .flush } 0,
    .sasCommandFrame 0 0 0 0 (List.replicate 8 0#64) { cls := .flush } 8192, .dispatch 8192, .budgetReservation 8192 0,
    .budgetReservation 0 1099511627776, .budgetReservation 0 8, .landed 8192 0 [], .landed 0 6 [], .completionPost 8192,
    .glySlotStatus 16 0#64, .glyComplete 16 0#64, .holdAdd 16 0#64, .holdRelease 16 0#64, .lookup 16 0#64, .begin 16 0#64,
    .endOk 16 0#64, .endFail 16 0#64, .pin 16 0#64, .nvmeAbort 2 (List.replicate 8 0#64) 0 0, .nvmeAbort 0 [] 0 0,
    .nvmeAbort 0 (List.replicate 8 0#64) 65536 0, .nvmeAbort 0 (List.replicate 8 0#64) 0 65536, .abortTask 2 0 0 0,
    .abortTask 0 0 0 65536, .abortTaskSet 2 0 0, .clearTaskSet 2 0, .controllerReset 2 none, .linkTrained 2 0 0,
    .smbusTransaction 128 false false .control, .tempSample 1024 0, .tempSample 0 1024, .scrubVisit 6 0 0 0,
    .scrubVisit 0 25 0 0, .scrubVisit 0 0 1099511627776 0, .scrubVisit 0 0 0 4] : List Instr).all (fun c => !wellFormed c) = true := by
  decide +kernel

/-- Commands with one operand out of its range are refused, one for each check. -/
theorem test_wf_refuses_7 : ([.cboClean 16 0, .cboClean 0 1099511627776, .cboFlush 16 0, .cboFlush 0 1099511627776, .cboInval 16 0,
    .cboInval 0 1099511627776, .descriptorQueue 64 0#64, .descriptorFetch 64, .beatGrant 4, .readResponse 64 0 [],
    .readResponse 0 6 [], .writeResponse 64 0, .writeResponse 0 6, .descriptorDone 64, .channelEnable 64 0#64,
    .channelDisable 64 0#64, .pause 64 0#64, .channelClear 64 0#64, .channelRetry 64 0#64, .dmaBlockReset 4,
    .splFwPush 16 0 0#64, .splFwPush 0 32 0#64, .splFwPushLast 16 0 0#64, .splFwPushLast 0 32 0#64, .splFwPop 16 0 false,
    .splFwPop 0 32 false, .dropPkt 16 0 0#64, .dropPkt 0 32 0#64, .flush 32, .spoolConfigWrite 32 0#64, .closingWord 32,
    .write 64 0 [] false, .read 64 [], .trim 64, .releaseImage 64, .format 64, .tierCommandDone 64,
    .nandOpDone 4 0 0 0 false false 0 [], .nandOpDone 0 64 0 0 false false 0 [], .dieLost 64 [], .coreRun 16 0#64,
    .coreHold 16 0#64, .semaphoreRead 40 0, .semaphoreRead 0 64, .semaphoreRelease 40 0 0#64, .semaphoreRelease 0 64 0#64,
    .timerInterrupt 16, .fclSwRaise 41 0#64, .pendingClear 32 0#64, .fclClaim 16, .safeEnter 41 0#64, .evrFwRecord 16 0#64,
    .tokenRefill 1024, .pagePersist 1024, .pageWriteDone 1024 false, .evrDirtyRead 16, .evrRateWrite 1024 0#64,
    .rangeWrite 129 0#64, .calStart 5, .backgroundCalibration 8] : List Instr).all (fun c => !wellFormed c) = true := by
  decide +kernel

/-- Commands with one operand out of its range are refused, one for each check. -/
theorem test_wf_refuses_8 : ([.calRunDone 1600 [] [] [], .calTimeout 1600, .pfltNRelease 4, .ccEnSet 2 false] : List Instr).all (fun c => !wellFormed c) = true := by
  decide +kernel

/-- Commands with their operands in range are accepted. -/
theorem test_wf_accepts_1 : ([.registerWrite 0 0 4 0#64, .undecodedAccess 0 0 1 false, .railFault 0, .pllLockLoss 0, .pspFrameLaunch 0 0#64,
    .pspFrameEnd 0 0, .preampFault 0, .headSwitchRequest 0 0, .headSwitchDone 0, .laneRateWrite 0 0, .rateLocked 0,
    .sectorPreambleStart 0 0 {} false, .acquireEnd 0 [], .markADecision 0 [] [], .markBDecision 0 [] [] [] [],
    .spliceGapEnd {}, .pairSlip {} false, .flaggedSpanOverrun {}, .retainPin 0 0 0, .retainUnpin 0 0 0,
    .replayRequest 0 0#64, .replayStart 0, .replayDone 0 false false false, .laneBlockReset 0, .trailerArrival 0 [] false,
    .decodeConverged 0 0 (List.replicate 4112 0#8), .decodeCap 0, .earlyPin 0, .decodeYield 0 0, .writebackDone 0 0 false,
    .decodeDeadline 0 0, .entryUrgent 0 0, .recoveryJobAged 0 0, .recoveryTimeout 0 {}, .dcpCplRead 0, .dcpSubmit 0 0#64,
    .decoderMemoryError 0, .sectorFetchDone 0 0 false, .dataLate 0, .preheatSlip 0, .wgRise {}, .sectorWritten 0,
    .writeRunEnd 0, .pesSample 0 [] [] none 0 0 0, .toneLock 0, .stripeCrossing 0 false {}, .identityFrame 0 0 0,
    .svgBlockReset 0, .lawTick 0 0, .settleCriteriaMet 0, .offTrackClear 0, .residualFail 0, .coastMaxReached 0,
    .loadStripeFound 0, .loadTimeout 0, .acquireTimeout 0, .settleTimeout 0, .holdTimeout 0, .unloadDriveEnd 0,
    .parkHoldEnd 0] : List Instr).all (fun c => wellFormed c) = true := by
  decide +kernel

/-- Commands with their operands in range are accepted. -/
theorem test_wf_accepts_2 : ([.cteSeek 0 0#64, .load 0, .park 0, .resume 0, .bemfCrossing 0 0 false, .thermalWarning 0, .thermalShutdown 0,
    .vcmShort 0, .shuttleEnable 0, .shuttleReset 0, .shuttleDisable 0, .shuttleResume 0, .taskTake 0, .trap 0 0 0,
    .taskTimeout 0, .stallRelease 0 0, .waitEvent 0, .waitTimeout 0, .frameReady 0 0 false, .mediaOpComplete 0 0,
    .mediaTimeout 0 0, .nop 0, .halt 0, .b 0 0, .bz 0 0 0, .bnz 0 0 0, .beq 0 0 0 0, .bne 0 0 0 0, .blt 0 0 0 0,
    .bge 0 0 0 0, .bltu 0 0 0 0, .bgeu 0 0 0 0, .bls 0 0 0, .call 0 0 0, .ret 0 0, .mov 0 0 0, .add 0 0 0, .sub 0 0 0,
    .and 0 0 0, .or 0 0 0, .xor 0 0 0, .shl 0 0 0, .shr 0 0 0, .sar 0 0 0, .mul 0 0 0, .getls 0 0, .time 0 0, .ldi 0 0 0,
    .movk 0 0 0 0, .addi 0 0 0 0, .andi 0 0 0 0, .ori 0 0 0 0, .xori 0 0 0 0, .shli 0 0 0 0, .shri 0 0 0 0, .sari 0 0 0 0,
    .extr 0 0 0 0, .ld 0 0 0 0, .st 0 0 0 0, .ld32 0 0 0 0] : List Instr).all (fun c => wellFormed c) = true := by
  decide +kernel

/-- Commands with their operands in range are accepted. -/
theorem test_wf_accepts_3 : ([.st32 0 0 0 0, .seek 0 0 0, .rdrun 0 0 0, .wrrun 0 0 0, .verify 0 0 0, .mabort 0 0, .bld 0 0 0 0, .bst 0 0 0 0,
    .bld32 0 0 0 0, .bst32 0 0 0 0, .bin 0 0 0 0, .bout 0 0 0 0, .submit 0 0 0, .await 0 0 0 0, .push 0 0 0,
    .pop 0 0 0 false, .spdrop 0 0, .slotStatus 0 0 0, .complete 0 0 0, .hold 0 0 0, .wait 0 0 0 0, .spawn 0 0 0,
    .yield 0 0 0 0, .barrier 0 0 0 0, .loomPush 0 0#64, .loomTake 0 0, .loomBarArrive 0 0 0#64, .barrierRelease 0,
    .barrierTimeout 0, .loomBarCfgWrite 0 0#64, .doorbell 0 0 false 0, .fetch [List.replicate 8 0#64] false,
    .commandAcceptance { cls := .flush } 0, .fusedWaitTimeout 0 (List.replicate 8 0#64),
    .sasCommandFrame 0 0 0 0 (List.replicate 8 0#64) { cls := .flush } 0, .dispatch 0, .budgetReservation 0 0,
    .landed 0 0 [], .completionPost 0, .glySlotStatus 0 0#64, .glyComplete 0 0#64, .holdAdd 0 0#64, .holdRelease 0 0#64,
    .lookup 0 0#64, .begin 0 0#64, .endOk 0 0#64, .endFail 0 0#64, .pin 0 0#64, .nvmeAbort 0 (List.replicate 8 0#64) 0 0,
    .abortTask 0 0 0 0, .abortTaskSet 0 0 0, .clearTaskSet 0 0, .controllerReset 0 none, .linkTrained 0 0 0,
    .smbusTransaction 0 false false .control, .tempSample 0 0, .scrubVisit 0 0 0 0, .cboClean 0 0, .cboFlush 0 0,
    .cboInval 0 0] : List Instr).all (fun c => wellFormed c) = true := by
  decide +kernel

/-- Commands with their operands in range are accepted. -/
theorem test_wf_accepts_4 : ([.descriptorQueue 0 0#64, .descriptorFetch 0, .beatGrant 0, .readResponse 0 0 [], .writeResponse 0 0, .descriptorDone 0,
    .channelEnable 0 0#64, .channelDisable 0 0#64, .pause 0 0#64, .channelClear 0 0#64, .channelRetry 0 0#64,
    .dmaBlockReset 0, .splFwPush 0 0 0#64, .splFwPushLast 0 0 0#64, .splFwPop 0 0 false, .dropPkt 0 0 0#64, .flush 0,
    .spoolConfigWrite 0 0#64, .closingWord 0, .write 0 0 [] false, .read 0 [], .trim 0, .releaseImage 0, .format 0,
    .tierCommandDone 0, .nandOpDone 0 0 0 0 false false 0 [], .dieLost 0 [], .coreRun 0 0#64, .coreHold 0 0#64,
    .semaphoreRead 0 0, .semaphoreRelease 0 0 0#64, .timerInterrupt 0, .fclSwRaise 0 0#64, .pendingClear 0 0#64,
    .fclClaim 0, .safeEnter 0 0#64, .evrFwRecord 0 0#64, .tokenRefill 0, .pagePersist 0, .pageWriteDone 0 false,
    .evrDirtyRead 0, .evrRateWrite 0 0#64, .rangeWrite 0 0#64, .calStart 0, .backgroundCalibration 0,
    .calRunDone 0 [] [] [], .calTimeout 0, .pfltNRelease 0, .ccEnSet 0 false] : List Instr).all (fun c => wellFormed c) = true := by
  decide +kernel

/-! ### States that meet the statements' hypotheses -/

/-- States and operands that meet the hypotheses of `PreampPortAndHeads`, clause by clause. -/
theorem witness_PreampPortAndHeads_1 : ∃ (s : State) (a : Nat) (v : Word), a < s.part.acts ∧ bit v 24 = true ∧ flag s F.HDL_PSP_CMD_BUSY a = false ∧ (hdlOf s a).running = none ∧ pspHeld s a = false ∧ pspRequest s a 0 = false ∧ (hdlOf s a).faultPending = false :=
  ⟨State.reset, 2, 0x1A51234#64, by decide +kernel⟩

theorem witness_PreampPortAndHeads_2 : ∃ (s : State) (a : Nat) (v : Word), a < s.part.acts ∧ bit v 24 = true ∧ flag s F.HDL_PSP_CMD_BUSY a = true :=
  ⟨withRegs [(F.HDL_PSP_CMD_BUSY, 1, 1)], 1, 0x1A51234#64, by decide +kernel⟩

theorem witness_PreampPortAndHeads_3 : ∃ (s : State) (a : Nat) (f : PspFrame), a < s.part.acts ∧ (hdlOf s a).running = some f ∧ f.who = .firmware ∧ f.rnw = true :=
  ⟨setHdl (withRegs [(F.HDL_PSP_CMD_BUSY, 1, 1)]) 1 { running := some { rnw := true } }, 1, { rnw := true }, by decide +kernel⟩

theorem witness_PreampPortAndHeads_4 : ∃ (s : State) (a : Nat), a < s.part.acts ∧ (hdlOf s a).pfltLow = false :=
  ⟨State.reset, 3, by decide +kernel⟩

theorem witness_PreampPortAndHeads_5 : ∃ (s : State) (a : Nat), a < s.part.acts :=
  ⟨withRegs [(F.HDL_PFLT_ACTIVE, 1, 1), (F.HDL_PFLT_LATCHED, 1, 1)], 1, by decide +kernel⟩

theorem witness_PreampPortAndHeads_6 : ∃ (s : State) (v : Word), bit v 0 = true ∧ flag s F.HDL_HEADMAP_LOCK_LOCK = false ∧ headMapError s = 0 :=
  ⟨State.reset, 1#64, by decide +kernel⟩

theorem witness_PreampPortAndHeads_7 : ∃ (s : State) (v : Word), bit v 0 = true ∧ flag s F.HDL_HEADMAP_LOCK_LOCK = false ∧ headMapError s ≠ 0 :=
  ⟨withRegs [(F.HDL_HEADMAP_VALID, 0, 1), (F.HDL_HEADMAP_VALID, 1, 1)], 1#64, by decide +kernel⟩

theorem witness_PreampPortAndHeads_8 : ∃ (s : State) (a : Nat) (head : Nat), a < s.part.acts ∧ headStatus s a (head % 32) ≠ 0 :=
  ⟨State.reset, 0, 5, by decide +kernel⟩

theorem witness_PreampPortAndHeads_9 : ∃ (s : State) (a : Nat) (head : Nat), a < s.part.acts ∧ headStatus s a (head % 32) = 0 :=
  ⟨withRegs [(F.HDL_HEADMAP_VALID, 5, 1), (F.HDL_HEADMAP_LOCK_LOCK, 0, 1)], 0, 5, by decide +kernel⟩

theorem witness_PreampPortAndHeads_10 : ∃ (s : State) (a : Nat) (x : HeadSwitch) (rest : List HeadSwitch), a < s.part.acts ∧ (hdlOf s a).switches = x :: rest ∧ x.settling = true :=
  ⟨setHdl (withRegs [(F.HDL_HEADMAP_SWAP, 5, 1)]) 1 { switches := [{ head := 5, granted := true, settling := true }] }, 1, { head := 5, granted := true, settling := true }, [], by decide +kernel⟩

/-- States and operands that meet the hypotheses of `TagSequenceAndLifeCommits`, clause by clause. -/
theorem witness_TagSequenceAndLifeCommits_1 : ∃ (s : State), fld s F.HDL_TAG_STATUS_STATE = 0 ∧ s.tag.commit = none :=
  ⟨State.reset, by decide +kernel⟩

theorem witness_TagSequenceAndLifeCommits_2 : ∃ (s : State), fld s F.HDL_TAG_STATUS_STATE = 0 ∧ s.tag.commit.isSome = true :=
  ⟨{ State.reset with tag := { commit := some 2, cmd := some (.incCtr 2) } }, by decide +kernel⟩

theorem witness_TagSequenceAndLifeCommits_3 : ∃ (s : State), fld s F.HDL_TAG_STATUS_STATE ≠ 0 :=
  ⟨withRegs [(F.HDL_TAG_STATUS_STATE, 0, 2)], by decide +kernel⟩

theorem witness_TagSequenceAndLifeCommits_4 : ∃ (s : State), (s.tag.cmd = none ∨ s.tag.retryDue = true) :=
  ⟨State.reset, by decide +kernel⟩

theorem witness_TagSequenceAndLifeCommits_5 : ∃ (s : State), (s.tag.cmd = none ∨ s.tag.retryDue = true) :=
  ⟨State.reset, by decide +kernel⟩

theorem witness_TagSequenceAndLifeCommits_6 : ∃ (s : State), s.tag.retryDue = false ∧ s.tag.cmd = some .getId :=
  ⟨{ State.reset with tag := { cmd := some .getId } }, by decide +kernel⟩

theorem witness_TagSequenceAndLifeCommits_7 : ∃ (s : State), s.tag.retryDue = false ∧ s.tag.cmd = some .getCert ∧ s.tag.chunks < 7 :=
  ⟨{ State.reset with tag := { cmd := some .getCert, chunks := 3 } }, by decide +kernel⟩

theorem witness_TagSequenceAndLifeCommits_8 : ∃ (s : State), s.tag.retryDue = false ∧ s.tag.cmd = some .getCert ∧ 7 ≤ s.tag.chunks :=
  ⟨{ State.reset with tag := { cmd := some .getCert, chunks := 7 } }, by decide +kernel⟩

theorem witness_TagSequenceAndLifeCommits_9 : ∃ (s : State), s.tag.retryDue = false ∧ ((s.tag.cmd = some .getCert ∧ 7 ≤ s.tag.chunks) ∨ s.tag.cmd = some .challenge ∨ s.tag.cmd = some .readCtr ∨ s.tag.cmd = some .readLimits) :=
  ⟨{ State.reset with tag := { cmd := some .challenge } }, by decide +kernel⟩

theorem witness_TagSequenceAndLifeCommits_10 : ∃ (s : State) (values : List Nat) (k : Nat), s.tag.retryDue = false ∧ s.tag.cmd = some (.incCtr k) ∧ k < 4 ∧ values.getD 1 0 = tget (dflt 0) s.tag.committed k + s.tag.sent ∧ values.getD 1 0 < 2 ^ 64 :=
  ⟨{ State.reset with tag := { cmd := some (.incCtr 1), committed := [(1, 40)], shadow := [(1, 9)], sent := 7, commit := some 1 } }, [1, 47], 1, by decide +kernel⟩

theorem witness_TagSequenceAndLifeCommits_11 : ∃ (s : State) (values : List Nat), s.tag.retryDue = false ∧ s.tag.cmd = some (.incCtr 4) ∧ values.getD 1 0 = tget (dflt 0) s.tag.committed 4 + s.tag.sent ∧ values.getD 1 0 < 2 ^ 64 ∧ s.tag.startWaiting = none ∧ s.tag.commitWaiting = false :=
  ⟨{ State.reset with tag := { cmd := some (.incCtr 4), committed := [(4, 40)], sent := 7, commit := some 4 } }, [4, 47], by decide +kernel⟩

theorem witness_TagSequenceAndLifeCommits_12 : ∃ (s : State) (values : List Nat) (k : Nat), s.tag.retryDue = false ∧ s.tag.cmd = some (.incCtr k) ∧ tget (dflt 0) s.tag.committed k < values.getD 1 0 ∧ values.getD 1 0 ≠ min (tget (dflt 0) s.tag.committed k + s.tag.sent) (2 ^ 64 - 1) :=
  ⟨{ State.reset with tag := { cmd := some (.incCtr 1), committed := [(1, 40)], shadow := [(1, 9)], sent := 7, commit := some 1 } }, [1, 44], 1, by decide +kernel⟩

theorem witness_TagSequenceAndLifeCommits_13 : ∃ (s : State), s.tag.retryDue = false ∧ s.tag.cmd = some .challenge ∧ (s.sec.pairing = none ∨ s.sec.pairing ≠ s.tag.identity) :=
  ⟨{ State.reset with tag := { cmd := some .challenge, identity := some 9 }, sec := { pairing := some 8 } }, by decide +kernel⟩

theorem witness_TagSequenceAndLifeCommits_14 : ∃ (s : State) (k : Nat), s.tag.retryDue = false ∧ s.tag.cmd = some .readCtr ∧ k < 5 :=
  ⟨{ State.reset with tag := { cmd := some .readCtr } }, 3, by decide +kernel⟩

theorem witness_TagSequenceAndLifeCommits_15 : ∃ (s : State), s.tag.retryDue = false ∧ s.tag.cmd = some .challenge ∧ s.sec.pairing.isSome = true ∧ s.sec.pairing = s.tag.identity :=
  ⟨{ State.reset with tag := { cmd := some .challenge, identity := some 9 }, sec := { pairing := some 9 } }, by decide +kernel⟩

theorem witness_TagSequenceAndLifeCommits_16 : ∃ (s : State), s.tag.retryDue = false ∧ s.tag.cmd = some .readLimits :=
  ⟨{ State.reset with tag := { cmd := some .readLimits } }, by decide +kernel⟩

theorem witness_TagSequenceAndLifeCommits_17 : ∃ (s : State), s.tag.cmd.isSome = true ∧ s.tag.retryDue = false ∧ s.tag.retries < 2 :=
  ⟨{ State.reset with tag := { cmd := some .getId } }, by decide +kernel⟩

theorem witness_TagSequenceAndLifeCommits_18 : ∃ (s : State), s.tag.cmd = some .getId ∧ s.tag.retryDue = false ∧ 2 ≤ s.tag.retries :=
  ⟨{ State.reset with tag := { cmd := some .getId, retries := 2 } }, by decide +kernel⟩

theorem witness_TagSequenceAndLifeCommits_19 : ∃ (s : State) (k : Nat), s.tag.cmd = some (.incCtr k) ∧ s.tag.retryDue = false ∧ 2 ≤ s.tag.retries :=
  ⟨{ State.reset with tag := { cmd := some (.incCtr 2), retries := 2, commit := some 2 } }, 2, by decide +kernel⟩

theorem witness_TagSequenceAndLifeCommits_20 : ∃ (s : State), s.tag.cmd.isSome = true ∧ s.tag.retryDue = true :=
  ⟨{ State.reset with tag := { cmd := some .getId, retryDue := true } }, by decide +kernel⟩

theorem witness_TagSequenceAndLifeCommits_21 : ∃ (s : State) (v : Word), bit v 0 = true ∧ repairable s = true ∧ (fld s F.SEC_LC_STATE = 1 ∨ fld s F.SEC_LC_STATE = 3) ∧ (tierDirty s = false ∨ bit v 1 = true) ∧ s.tag.commit = none :=
  ⟨{ withRegs [(F.HDL_TAG_STATUS_STATE, 0, 3), (F.HDL_TAG_STATUS_REASON, 0, 4), (F.SEC_LC_STATE, 0, 1)] with tag := { identity := some 8 } }, 1#64, by decide +kernel⟩

theorem witness_TagSequenceAndLifeCommits_22 : ∃ (s : State) (v : Word), bit v 0 = true ∧ tierDirty s = true ∧ bit v 1 = false ∧ flag s F.HDL_TAG_REPAIR_DISCARD_DIRTY = false :=
  ⟨withRegs [(F.FLT_STAT_IMAGE_HELD, 0, 1)], 1#64, by decide +kernel⟩

theorem witness_TagSequenceAndLifeCommits_23 : ∃ (v : Word), bit v 0 = false :=
  ⟨2#64, by decide +kernel⟩

theorem witness_TagSequenceAndLifeCommits_24 : ∃ (s : State) (v : Word), bit v 0 = true ∧ s.tag.commit = none ∧ tagBusy s = false :=
  ⟨{ State.reset with tag := { shadow := [(0, 7)] } }, 1#64, by decide +kernel⟩

theorem witness_TagSequenceAndLifeCommits_25 : ∃ (s : State) (v : Word), bit v 0 = true ∧ tagBusy s = true :=
  ⟨withRegs [(F.HDL_TAG_STATUS_STATE, 0, 1)], 1#64, by decide +kernel⟩

theorem witness_TagSequenceAndLifeCommits_26 : ∃ (s : State), s.tag.lastTimer + 14400000 ≤ s.ckr.dtime ∧ s.tag.commit = none ∧ tagBusy s = false :=
  ⟨{ State.reset with ckr := { dtime := 14400000 } }, by decide +kernel⟩

/-- States and operands that meet the hypotheses of `LaneRatesRetentionAndReplays`, clause by clause. -/
theorem witness_LaneRatesRetentionAndReplays_1 : ∃ (s : State) (a : Nat) (rate : Nat), a < s.part.acts ∧ 10000 ≤ rate ∧ rate ≤ 60000 ∧ (pairOf s a).run = none :=
  ⟨withRegs [(F.LNE_RATE_STAT_LOCKED, 1, 1)], 1, 48000, by decide +kernel⟩

theorem witness_LaneRatesRetentionAndReplays_2 : ∃ (s : State) (a : Nat) (rate : Nat), a < s.part.acts ∧ 10000 ≤ rate ∧ rate ≤ 60000 ∧ (pairOf s a).run.isSome = true :=
  ⟨setPair State.reset 1 { run := some {} }, 1, 48000, by decide +kernel⟩

theorem witness_LaneRatesRetentionAndReplays_3 : ∃ (s : State) (a : Nat) (rate : Nat), a < s.part.acts ∧ (rate < 10000 ∨ 60000 < rate) :=
  ⟨State.reset, 1, 60001, by decide +kernel⟩

theorem witness_LaneRatesRetentionAndReplays_4 : ∃ (s : State) (a : Nat), a < s.part.acts ∧ lanesOn s a = true ∧ (pairOf s a).live = .off :=
  ⟨withRegs [(F.LNE_AFE_CTL_EN, 2, 1), (F.LNE_AFE_CTL_EN, 3, 1)], 1, by decide +kernel⟩

theorem witness_LaneRatesRetentionAndReplays_5 : ∃ (s : State) (a : Nat) (slot : Nat) (seq : Nat), a < s.part.acts ∧ slot < 4 ∧ (slotAt (pairOf s a) slot).valid = true ∧ (slotAt (pairOf s a) slot).seq = seq ∧ pinCount (pairOf s a) < 2 :=
  ⟨setPair State.reset 1 { slots := [(2, { valid := true, seq := 9 })] }, 1, 2, 9, by decide +kernel⟩

theorem witness_LaneRatesRetentionAndReplays_6 : ∃ (s : State) (a : Nat) (slot : Nat) (seq : Nat), a < s.part.acts ∧ slot < 4 ∧ ((slotAt (pairOf s a) slot).valid = false ∨ (slotAt (pairOf s a) slot).seq ≠ seq) :=
  ⟨State.reset, 1, 2, 9, by decide +kernel⟩

theorem witness_LaneRatesRetentionAndReplays_7 : ∃ (s : State) (a : Nat) (slot : Nat) (seq : Nat), a < s.part.acts ∧ slot < 4 ∧ (slotAt (pairOf s a) slot).valid = true ∧ (slotAt (pairOf s a) slot).seq = seq ∧ (slotAt (pairOf s a) slot).pinFw = false ∧ (slotAt (pairOf s a) slot).pinPool = false ∧ 2 ≤ pinCount (pairOf s a) :=
  ⟨setPair State.reset 1 { slots := [(0, { pinFw := true }), (1, { pinPool := true }), (2, { valid := true, seq := 9 })] }, 1, 2, 9, by decide +kernel⟩

theorem witness_LaneRatesRetentionAndReplays_8 : ∃ (s : State) (a : Nat) (slot : Nat), a < s.part.acts ∧ slot < 4 :=
  ⟨setPair State.reset 1 { slots := [(2, { valid := true, seq := 9, pinFw := true })] }, 1, 2, by decide +kernel⟩

theorem witness_LaneRatesRetentionAndReplays_9 : ∃ (s : State) (a : Nat) (v : Word), a < s.part.acts ∧ bit v 27 = true ∧ replayStopped s = false ∧ replayStatus (pairOf s a) (getBits v 0 2) (getBits v 2 16) (bit v 25) (signed 7 (getBits v 18 7)) ≠ 0 :=
  ⟨State.reset, 1, 0x8000000#64, by decide +kernel⟩

theorem witness_LaneRatesRetentionAndReplays_10 : ∃ (s : State) (a : Nat) (v : Word), a < s.part.acts ∧ bit v 27 = true ∧ replayStopped s = false ∧ replayStatus (pairOf s a) (getBits v 0 2) (getBits v 2 16) (bit v 25) (signed 7 (getBits v 18 7)) = 0 :=
  ⟨setPair State.reset 1 { slots := [(0, { valid := true, markA := some (3, 0) })] }, 1, 0x8000000#64, by decide +kernel⟩

theorem witness_LaneRatesRetentionAndReplays_11 : ∃ (s : State) (a : Nat), a < s.part.acts ∧ replayStopped s = true :=
  ⟨{ State.reset with ckr := { State.reset.ckr with loss := some {} } }, 1, by decide +kernel⟩

theorem witness_LaneRatesRetentionAndReplays_12 : ∃ (s : State) (a : Nat) (e : Nat) (q : Replay) (rest : List Replay), (pairOf s a).replays = q :: rest ∧ q.running = false ∧ q.entry = none ∧ replayStopped s = false ∧ freeEntry s a = some e :=
  ⟨setPair State.reset 1 { replays := [{ slot := 2 }] }, 1, 0, { slot := 2 }, [], by decide +kernel⟩

theorem witness_LaneRatesRetentionAndReplays_13 : ∃ (s : State) (a : Nat) (q : Replay) (rest : List Replay), (pairOf s a).replays = q :: rest ∧ q.running = true :=
  ⟨setPair State.reset 1 { replays := [{ slot := 2, running := true }] }, 1, { slot := 2, running := true }, [], by decide +kernel⟩

theorem witness_LaneRatesRetentionAndReplays_14 : ∃ (s : State) (a : Nat), a < s.part.acts :=
  ⟨setPair (withRegs [(F.CKR_BRST_LANE, 0, 15)]) 1 { run := some {}, replays := [{}], sectors := [{ entry := some 2 }] }, 1, by decide +kernel⟩

/-- States and operands that meet the hypotheses of `LivePathSector`, clause by clause. -/
theorem witness_LivePathSector_1 : ∃ (s : State) (a : Nat) (preheated : Bool) (r : LaneRun) (k : Nat), (pairOf s a).live = .armed ∧ (pairOf s a).run = some r ∧ readHeatReady s a preheated = true ∧ claimable (pairOf s a) = some k :=
  ⟨setPair State.reset 1 { live := .armed, run := some { count := 3 }, nextSeq := 7 }, 1, true, { count := 3 }, 0, by decide +kernel⟩

theorem witness_LivePathSector_2 : ∃ (s : State) (a : Nat) (preheated : Bool) (r : LaneRun), (pairOf s a).live = .armed ∧ (pairOf s a).run = some r ∧ readHeatReady s a preheated = true ∧ claimable (pairOf s a) = none ∧ (pairOf s a).sectors ≠ [] :=
  ⟨setPair State.reset 1 { live := .armed, run := some { count := 3 }, sectors := [{}], slots := (List.range 4).map (fun k => (k, { pinFw := true })) }, 1, true, { count := 3 }, by decide +kernel⟩

theorem witness_LivePathSector_3 : ∃ (s : State) (a : Nat), (pairOf s a).live = .acquire :=
  ⟨setPair State.reset 1 { live := .acquire }, 1, by decide +kernel⟩

theorem witness_LivePathSector_4 : ∃ (s : State) (a : Nat) (preamble : List AdcSpan) (window : List AdcSpan) (x : LiveSector), (pairOf s a).live = .syncA ∧ (sampled s a (preamble ++ window)).sectors.getLast? = some x ∧ 128 + fld s F.LNE_SYNC_CTL_WIN a ≤ x.bits.length :=
  ⟨setPair State.reset 1 { live := .syncA, sectors := [{ index := 4, bits := List.replicate 200 true }] }, 1, [], [], { index := 4, bits := List.replicate 200 true }, by decide +kernel⟩

theorem witness_LivePathSector_5 : ∃ (s : State) (a : Nat) (preamble : List AdcSpan) (window : List AdcSpan) (x : LiveSector), (pairOf s a).live = .syncA ∧ (sampled s a (preamble ++ window)).sectors.getLast? = some x ∧ x.bits.length < 128 + fld s F.LNE_SYNC_CTL_WIN a :=
  ⟨setPair State.reset 1 { live := .syncA, sectors := [{ index := 4 }] }, 1, [], [], { index := 4 }, by decide +kernel⟩

theorem witness_LivePathSector_6 : ∃ (s : State) (a : Nat) (x : LiveSector) (rest : List LiveSector), (pairOf s a).sectors = x :: rest ∧ (pairOf s a).reading = false ∧ x.aDone = true ∧ x.aFound.isSome = true ∧ x.entry.isSome = true ∧ x.run = (pairOf s a).runs :=
  ⟨setPair State.reset 1 { sectors := [{ aDone := true, aFound := some (0, 0), entry := some 3 }] }, 1, { aDone := true, aFound := some (0, 0), entry := some 3 }, [], by decide +kernel⟩

theorem witness_LivePathSector_7 : ∃ (s : State) (a : Nat) (x : LiveSector) (rest : List LiveSector), (pairOf s a).sectors = x :: rest ∧ (pairOf s a).reading = false ∧ x.aDone = true ∧ x.aFound = none ∧ flag s F.LNE_SYNC_CTL_B_FALLBACK a = false :=
  ⟨setPair (withRegs [(F.LNE_SYNC_CTL_B_FALLBACK, 1, 0)]) 1 { sectors := [{ aDone := true }] }, 1, { aDone := true }, [], by decide +kernel⟩

theorem witness_LivePathSector_8 : ∃ (s : State) (a : Nat) (preamble : List AdcSpan) (window : List AdcSpan) (codeword : List AdcSpan) (trailer : List AdcSpan) (x : LiveSector) (rest : List LiveSector), (sampled s a (preamble ++ window ++ codeword ++ trailer)).sectors = x :: rest ∧ (sampled s a (preamble ++ window ++ codeword ++ trailer)).reading = true ∧ (pairOf s a).reading = true ∧ rest ≠ [] ∧ x.aDone = true :=
  ⟨setPair State.reset 1 { reading := true, sectors := [{ aDone := true, aFound := some (0, 0), entry := some 3 }, { index := 1 }] }, 1, [], [], [], [], { aDone := true, aFound := some (0, 0), entry := some 3 }, [{ index := 1 }], by decide +kernel⟩

theorem witness_LivePathSector_9 : ∃ (s : State) (a : Nat) (r : LaneRun), (pairOf s a).run = some r ∧ ((pairOf s a).live = .stream ∨ (pairOf s a).live = .bSearch) ∧ r.next < r.count ∧ r.ending = none :=
  ⟨setPair State.reset 1 { live := .stream, gate := true, reading := true, run := some { count := 3, next := 1 } }, 1, { count := 3, next := 1 }, by decide +kernel⟩

theorem witness_LivePathSector_10 : ∃ (s : State) (a : Nat) (full : Bool) (spans : List AdcSpan) (x : LiveSector), (pairOf s a).reading = true ∧ (pairOf s a).sectors.getLast? = some x ∧ (spoolDrift s a full spans).spool.length = (if full then 13 else 0) :=
  ⟨setPair State.reset 1 { reading := true, sectors := [{}] }, 1, true, List.replicate 4 {}, {}, by decide +kernel⟩

theorem witness_LivePathSector_11 : ∃ (s : State) (a : Nat), (pairOf s a).reading = true :=
  ⟨setPair State.reset 1 { reading := true, sectors := [{}] }, 1, by decide +kernel⟩

/-- States and operands that meet the hypotheses of `PoolIntakeAndSelection`, clause by clause. -/
theorem witness_PoolIntakeAndSelection_1 : ∃ (s : State) (a : Nat) (k : Packet) (rest : List Packet), dcpFrozen s = false ∧ (dcpOf s a).jobs.all (fun x => !x.want) = true ∧ (pairOf s a).packets = k :: rest ∧ (ctxOf s a k.ctx).used = true ∧ k.job = none ∧ k.only = false ∧ k.live = true :=
  ⟨setDcp (setPair State.reset 1 { packets := [{ entry := 4 }] }) 1 { ctxs := [(0, { used := true })] }, 1, { entry := 4 }, [], by decide +kernel⟩

theorem witness_PoolIntakeAndSelection_2 : ∃ (s : State) (a : Nat) (k : Packet) (rest : List Packet), dcpFrozen s = false ∧ (dcpOf s a).jobs.all (fun x => !x.want) = true ∧ (pairOf s a).packets = k :: rest ∧ (ctxOf s a k.ctx).used = true ∧ k.job = none ∧ k.entry < 16 ∧ (dcpOf s a).ring.length < 64 :=
  ⟨setDcp (setPair State.reset 1 { packets := [{ entry := 4 }] }) 1 { ctxs := [(0, { used := true })] }, 1, { entry := 4 }, [], by decide +kernel⟩

theorem witness_PoolIntakeAndSelection_4 : ∃ (s : State) (d : Nat) (a : Nat) (e : Nat) (cls : Nat) (j : Job), d < 12 ∧ a < s.part.acts ∧ maySelect s d = true ∧ selectWork s d = some (a, e, cls) ∧ (dcpOf s a).jobs.all (fun x => !x.want) = true ∧ jobOf s a (entryOf s a e).job = some j :=
  ⟨setDcp (withRegs [(F.DCP_CTL_DEC_EN, 0, 1)]) 0 { entries := [(3, { st := .ready, live := true, job := 1 })], jobs := [{ id := 1 }] }, 0, 0, 3, 2, { id := 1 }, by decide +kernel⟩

theorem witness_PoolIntakeAndSelection_5 : ∃ (s : State) (d : Nat) (w : DecWork) (j : Job), (decOf s d).work = some w ∧ w.live = true ∧ fld s F.DCP_OTF_CTL_EARLY_ITER ≠ 0 ∧ dcpFrozen s = false ∧ flag s F.DCP_CTL_AUTO = true ∧ jobOf s w.act w.job = some j ∧ (ctxOf s w.act j.ctx).verify = false ∧ j.pin = false ∧ countBelow (fun k => (slotAt (pairOf s w.act) k).pinPool) 4 < fld s F.DCP_RCV_CTL_PIN_QUOTA ∧ (slotAt (pairOf s w.act) j.slot).valid = true ∧ (slotAt (pairOf s w.act) j.slot).seq = j.seq ∧ pinCount (pairOf s w.act) < 2 :=
  ⟨setDec (setDcp (setPair (withRegs [(F.DCP_CTL_AUTO, 0, 1), (F.DCP_OTF_CTL_EARLY_ITER, 0, 16), (F.DCP_RCV_CTL_PIN_QUOTA, 0, 1)]) 1 { slots := [(2, { valid := true, seq := 5 })] }) 1 { jobs := [{ id := 1, slot := 2, seq := 5 }] }) 3 { work := some { act := 1, job := 1 } }, 3, { act := 1, job := 1 }, { id := 1, slot := 2, seq := 5 }, by decide +kernel⟩

theorem witness_PoolIntakeAndSelection_6 : ∃ (s : State) (d : Nat) (iters : Nat) (w : DecWork), (decOf s d).work = some w ∧ w.live = false ∧ dcpFrozen s = false ∧ 0 < iters ∧ iters % 8 = 0 ∧ iters < attemptCap s w ∧ urgentWaits s = true ∧ idleDecoder s = false :=
  ⟨setDec (setDcp (withRegs [(F.DCP_CTL_DEC_EN, 0, 8)]) 1 { entries := [(2, { st := .decoding, job := 1 }), (4, { st := .ready, live := true, urgent := true, job := 2 })], jobs := [{ id := 1 }, { id := 2 }] }) 3 { work := some { act := 1, entry := 2, job := 1, live := false, cap := 50 } }, 3, 16, { act := 1, entry := 2, job := 1, live := false, cap := 50 }, by decide +kernel⟩

theorem witness_PoolIntakeAndSelection_7 : ∃ (s : State) (a : Nat) (e : Nat), (entryOf s a e).live = true ∧ (entryOf s a e).st = .ready :=
  ⟨setDcp State.reset 1 { entries := [(3, { st := .ready, live := true })] }, 1, 3, by decide +kernel⟩

theorem witness_PoolIntakeAndSelection_8 : ∃ (s : State) (a : Nat) (e : Nat), rcvReady s a (entryOf s a e) = true :=
  ⟨setDcp State.reset 1 { entries := [(3, { st := .held })], jobs := [{}] }, 1, 3, by decide +kernel⟩

theorem witness_PoolIntakeAndSelection_9 : ∃ (s : State) (a : Nat) (e : Nat), (entryOf s a e).live = true ∧ (entryOf s a e).missed = false ∧ ((entryOf s a e).st = .ready ∨ (entryOf s a e).st = .decoding) :=
  ⟨setDcp State.reset 1 { entries := [(3, { st := .ready, live := true })] }, 1, 3, by decide +kernel⟩

/-- States and operands that meet the hypotheses of `PoolEndsAndRecords`, clause by clause. -/
theorem witness_PoolEndsAndRecords_1 : ∃ (s : State) (d : Nat) (iters : Nat) (data : List Byte) (w : DecWork) (j : Job), (decOf s d).work = some w ∧ dcpFrozen s = false ∧ 0 < iters ∧ iters ≤ attemptCap s w ∧ jobOf s w.act w.job = some j ∧ data.length = 4112 ∧ sectorCrc ((ctxOf s w.act j.ctx).lba + BitVec.ofNat 64 j.sector) (data.take 4108) = BitVec.ofNat 32 (leNat (data.drop 4108)) :=
  ⟨setDec (setDcp (withRegs [(F.DCP_OTF_CTL_ITER_CAP, 0, 30)]) 1 { entries := [(2, { st := .decoding, live := true, job := 1 })], jobs := [{ id := 1 }] }) 3 { work := some { act := 1, entry := 2, job := 1 } }, 3, 9, crcData, { act := 1, entry := 2, job := 1 }, { id := 1 }, by decide, by decide, by decide, by decide, by decide, crcData_length, crcData_crc⟩

theorem witness_PoolEndsAndRecords_2 : ∃ (s : State) (d : Nat) (w : DecWork) (j : Job), (decOf s d).work = some w ∧ dcpFrozen s = false ∧ w.live = true ∧ jobOf s w.act w.job = some j ∧ (ctxOf s w.act j.ctx).verify = true :=
  ⟨setDec (setDcp State.reset 1 { entries := [(2, { st := .decoding, live := true, job := 1 })], jobs := [{ id := 1 }], ctxs := [(0, { used := true, verify := true, count := 5 })] }) 3 { work := some { act := 1, entry := 2, job := 1 } }, 3, { act := 1, entry := 2, job := 1 }, { id := 1 }, by decide +kernel⟩

theorem witness_PoolEndsAndRecords_3 : ∃ (s : State) (a : Nat) (job : Nat) (w : WriteBack), (dcpOf s a).wbs.find? (fun x => decide (x.job = job)) = some w ∧ (dcpOf s a).ring.length < 64 ∧ (dcpOf s a).jobs.all (fun x => !x.want) = true :=
  ⟨setDcp State.reset 1 { wbs := [{ job := 1, addr := 0x1000000000, record := 1#64 }] }, 1, 1, { job := 1, addr := 0x1000000000, record := 1#64 }, by decide +kernel⟩

theorem witness_PoolEndsAndRecords_4 : ∃ (s : State) (a : Nat) (job : Nat) (j : Job), dcpFrozen s = false ∧ jobOf s a job = some j ∧ j.failed = true ∧ j.won = false ∧ j.submit = none ∧ rcvFld j.rcv F.DCP_RCV_CTL_HW_LIMIT ≠ 0 :=
  ⟨setDcp State.reset 1 { jobs := [{ id := 1, failed := true, rcv := rd (withRegs [(F.DCP_RCV_CTL_HW_LIMIT, 0, 100)]) .DCP_RCV_CTL 0 }] }, 1, 1, { id := 1, failed := true, rcv := rd (withRegs [(F.DCP_RCV_CTL_HW_LIMIT, 0, 100)]) .DCP_RCV_CTL 0 }, by decide +kernel⟩

theorem witness_PoolEndsAndRecords_5 : ∃ (s : State), dcpFrozen s = true :=
  ⟨withRegs [(F.FCL_STAT_SAFE, 0, 1)], by decide +kernel⟩

theorem witness_PoolEndsAndRecords_6 : ∃ (s : State) (a : Nat) (w : Word) (rest : List Word), a < s.part.acts ∧ (dcpOf s a).ring = w :: rest ∧ (dcpOf s a).held = [] :=
  ⟨setDcp State.reset 1 { ring := [5#64, 6#64] }, 1, 5#64, [6#64], by decide +kernel⟩

theorem witness_PoolEndsAndRecords_7 : ∃ (s : State) (a : Nat), a < s.part.acts ∧ (dcpOf s a).ring = [] :=
  ⟨State.reset, 1, by decide +kernel⟩

theorem witness_PoolEndsAndRecords_8 : ∃ (s : State) (a : Nat) (v : Word), a < s.part.acts ∧ bit v 54 = true ∧ flag s F.DCP_SUBMIT_BUSY a = false ∧ dcpFrozen s = false ∧ ((slotAt (pairOf s a) (getBits v 0 2)).valid = false ∨ (slotAt (pairOf s a) (getBits v 0 2)).seq ≠ getBits v 2 16) :=
  ⟨State.reset, 1, 0x40000000000000#64, by decide +kernel⟩

theorem witness_PoolEndsAndRecords_9 : ∃ (s : State) (a : Nat) (v : Word), a < s.part.acts ∧ bit v 54 = true ∧ flag s F.DCP_SUBMIT_BUSY a = false ∧ dcpFrozen s = false ∧ replayStatus (pairOf s a) (getBits v 0 2) (getBits v 2 16) (bit v 25) (signed 7 (getBits v 18 7)) = 0 ∧ (ctxOf s a (getBits v 27 3)).used = true ∧ (dcpOf s a).jobs.all (fun x => decide (x.id ≠ (dcpOf s a).nextJob)) = true :=
  ⟨setDcp (setPair State.reset 1 { slots := [(0, { valid := true, markA := some (3, 0) })] }) 1 { ctxs := [(0, { used := true })] }, 1, 0x40000000000000#64, by decide +kernel⟩

theorem witness_PoolEndsAndRecords_10 : ∃ (s : State) (a : Nat) (v : Word), bit v 54 = true ∧ flag s F.DCP_SUBMIT_BUSY a = true :=
  ⟨withRegs [(F.DCP_SUBMIT_BUSY, 1, 1)], 1, 0x40000000000000#64, by decide +kernel⟩

theorem witness_PoolEndsAndRecords_11 : ∃ (s : State) (d : Nat), d < s.part.decoders :=
  ⟨withRegs [(F.DCP_CTL_DEC_EN, 0, 4095)], 3, by decide +kernel⟩

/-- States and operands that meet the hypotheses of `WriteRuns`, clause by clause. -/
theorem witness_WriteRuns_1 : ∃ (s : State) (a : Nat) (r : WrRun), a < s.part.acts ∧ (wrpOf s a).run = some r ∧ (r.writing = false ∨ r.pad = true) ∧ r.frameDone = true ∧ nextStaged s a r = true ∧ inhibits s a = 0 :=
  ⟨setWrp (withRegs [(F.HDL_HEADMAP_ACT, 5, 1), (F.HDL_HEADMAP_VALID, 5, 1), (F.HDL_HEADMAP_LOCK_LOCK, 0, 1), (F.HDL_TAG_STATUS_STATE, 0, 2), (F.CTE_STAT_OT, 1, 0), (F.HDL_HSEL_HEAD, 1, 5)]) 1 { run := some { count := 1, frameDone := true, staged := [{ index := 0 }] } }, 1, { count := 1, frameDone := true, staged := [{ index := 0 }] }, by decide +kernel⟩

theorem witness_WriteRuns_2 : ∃ (s : State) (a : Nat), inhibits s a ≠ 0 :=
  ⟨State.reset, 1, by decide +kernel⟩

theorem witness_WriteRuns_3 : ∃ (s : State) (a : Nat) (sector : Nat) (r : WrRun), (wrpOf s a).run = some r ∧ sector ∈ r.fetching ∧ (busRead s portWrp (r.base + sector * r.stride) 4104).1.isSome = true :=
  ⟨setWrp State.reset 1 { run := some { base := 0, stride := 4104, fetching := [0, 1] } }, 1, 1, { base := 0, stride := 4104, fetching := [0, 1] }, by decide +kernel⟩

theorem witness_WriteRuns_4 : ∃ (s : State) (a : Nat) (sector : Nat) (r : WrRun), a < s.part.acts ∧ (wrpOf s a).run = some r ∧ sector ∈ r.fetching ∧ fld s F.WRP_RUN_STAT_WRITTEN a = sector :=
  ⟨setWrp State.reset 1 { run := some { fetching := [0, 1] } }, 1, 0, { fetching := [0, 1] }, by decide +kernel⟩

theorem witness_WriteRuns_5 : ∃ (s : State) (a : Nat) (sector : Nat) (r : WrRun), (wrpOf s a).run = some r ∧ sector ∈ r.fetching ∧ fld s F.WRP_RUN_STAT_WRITTEN a ≠ sector ∧ r.bad = none :=
  ⟨setWrp State.reset 1 { run := some { fetching := [0, 1] } }, 1, 1, { fetching := [0, 1] }, by decide +kernel⟩

theorem witness_WriteRuns_6 : ∃ (s : State) (a : Nat) (r : WrRun), (wrpOf s a).run = some r ∧ (hdlOf s a).wg = true ∧ r.inSector = true ∧ fld s F.WRP_RUN_STAT_WRITTEN a + 1 < r.count ∧ r.staged.any (fun x => decide (x.index = fld s F.WRP_RUN_STAT_WRITTEN a + 1)) = false :=
  ⟨setHdl (setWrp State.reset 1 { run := some { count := 2, inSector := true } }) 1 { wg := true }, 1, { count := 2, inSector := true }, by decide +kernel⟩

theorem witness_WriteRuns_7 : ∃ (s : State) (a : Nat) (r : WrRun), a < s.part.acts ∧ (wrpOf s a).run = some r ∧ r.inSector = false ∧ fld s F.WRP_RUN_STAT_WRITTEN a < r.count ∧ r.staged.any (fun x => decide (x.index = fld s F.WRP_RUN_STAT_WRITTEN a)) = false :=
  ⟨setWrp State.reset 1 { run := some { count := 2 } }, 1, { count := 2 }, by decide +kernel⟩

theorem witness_WriteRuns_8 : ∃ (s : State) (a : Nat) (r : WrRun), (wrpOf s a).run = some r ∧ r.writing = false :=
  ⟨setWrp State.reset 1 { run := some { count := 2 } }, 1, { count := 2 }, by decide +kernel⟩

theorem witness_WriteRuns_9 : ∃ (s : State) (a : Nat) (r : WrRun), a < s.part.acts ∧ (wrpOf s a).run = some r ∧ (hdlOf s a).wg = true ∧ r.inSector = true ∧ r.ending = none ∧ r.bad = none ∧ (r.slot0 + (fld s F.WRP_RUN_STAT_WRITTEN a + 1) % 65536) % r.spt ≠ 0 :=
  ⟨setHdl (setWrp State.reset 1 { run := some { count := 2, spt := 8, writing := true, inSector := true } }) 1 { wg := true }, 1, { count := 2, spt := 8, writing := true, inSector := true }, by decide +kernel⟩

theorem witness_WriteRuns_10 : ∃ (s : State) (a : Nat) (r : WrRun), a < s.part.acts ∧ (wrpOf s a).run = some r ∧ (hdlOf s a).wg = true ∧ r.inSector = true ∧ r.ending = none ∧ r.bad = none ∧ (r.slot0 + (fld s F.WRP_RUN_STAT_WRITTEN a + 1) % 65536) % r.spt = 0 ∧ (fld s F.WRP_RUN_STAT_WRITTEN a + 1) % 65536 < r.count :=
  ⟨setHdl (setWrp State.reset 1 { run := some { count := 2, slot0 := 7, spt := 8, writing := true, inSector := true } }) 1 { wg := true }, 1, { count := 2, slot0 := 7, spt := 8, writing := true, inSector := true }, by decide +kernel⟩

theorem witness_WriteRuns_12 : ∃ (s : State) (a : Nat) (r : WrRun), a < s.part.acts ∧ (wrpOf s a).run = some r ∧ r.writing = true ∧ r.inSector = false ∧ fld s F.WRP_RUN_STAT_WRITTEN a = r.count :=
  ⟨setHdl (setWrp (withRegs [(F.WRP_RUN_STAT_WRITTEN, 1, 2), (F.WRP_RUN_STAT_STATE, 1, 2)]) 1 { run := some { count := 2, writing := true } }) 1 { wg := true }, 1, { count := 2, writing := true }, by decide +kernel⟩

theorem witness_WriteRuns_13 : ∃ (s : State) (a : Nat) (r : WrRun), a < s.part.acts ∧ (wrpOf s a).run = some r :=
  ⟨setHdl (setWrp (withRegs [(F.WRP_RUN_STAT_WRITTEN, 1, 2), (F.WRP_RUN_STAT_STATE, 1, 2)]) 1 { run := some { count := 2, writing := true } }) 1 { wg := true }, 1, { count := 2, writing := true }, by decide +kernel⟩

/-- States and operands that meet the hypotheses of `ServoChannel`, clause by clause. -/
theorem witness_ServoChannel_1 : ∃ (s : State) (a : Nat), a < s.part.acts ∧ flag s F.SVG_CTL_EN a = true :=
  ⟨withRegs [(F.SVG_CTL_EN, 1, 1)], 1, by decide +kernel⟩

theorem witness_ServoChannel_3 : ∃ (s : State) (a : Nat), a < s.part.acts ∧ flag s F.SVG_CTL_EN a = true :=
  ⟨withRegs [(F.SVG_CTL_EN, 1, 1), (F.SVG_PESCAL_SUM_NOM, 0, 900), (F.SVG_PESCAL_PES_GAIN, 0, 16384)], 1, by decide +kernel⟩

theorem witness_ServoChannel_4 : ∃ (s : State) (a : Nat), a < s.part.acts ∧ flag s F.SVG_CTL_EN a = true ∧ flag s F.SVG_TONE_LOCKED a = false ∧ (cteOf s a).nth < 3 ∧ supervised s a = true :=
  ⟨withRegs [(F.SVG_CTL_EN, 1, 1), (F.CTE_STAT_STATE, 1, 6)], 1, by decide +kernel⟩

theorem witness_ServoChannel_5 : ∃ (s : State) (a : Nat), a < s.part.acts ∧ flag s F.SVG_CTL_EN a = false ∧ (cteOf s a).nth < 3 ∧ supervised s a = true :=
  ⟨withRegs [(F.CTE_STAT_STATE, 1, 6)], 1, by decide +kernel⟩

theorem witness_ServoChannel_6 : ∃ (s : State) (a : Nat), a < s.part.acts ∧ 3 ≤ (cteOf s a).nth ∧ (cteOf s a).held = none :=
  ⟨setCte State.reset 1 { nth := 3 }, 1, by decide +kernel⟩

theorem witness_ServoChannel_7 : ∃ (s : State) (a : Nat), a < s.part.acts ∧ flag s F.SVG_CTL_EN a = true :=
  ⟨withRegs [(F.SVG_CTL_EN, 1, 1)], 1, by decide +kernel⟩

theorem witness_ServoChannel_8 : ∃ (s : State) (a : Nat) (inward : Bool), a < s.part.acts ∧ flag s F.SVG_CTL_EN a = true ∧ svgZone s (svgOf s a).track = svgZone s ((if inward then (svgOf s a).track + 1 else (svgOf s a).track + 2 ^ 21 - 1) % 2 ^ 21) :=
  ⟨setSvg (withRegs [(F.SVG_CTL_EN, 1, 1), (F.SVG_TONE_LOCKED, 1, 1)]) 1 { trkValid := true }, 1, true, by decide +kernel⟩

theorem witness_ServoChannel_9 : ∃ (s : State) (a : Nat) (z : Nat) (inward : Bool), a < s.part.acts ∧ flag s F.SVG_CTL_EN a = true ∧ flag s F.SVG_TONE_LOCKED a = true ∧ svgZone s ((if inward then (svgOf s a).track + 1 else (svgOf s a).track + 2 ^ 21 - 1) % 2 ^ 21) = some z ∧ svgZone s (svgOf s a).track ≠ some z :=
  ⟨setSvg (withRegs [(F.SVG_CTL_EN, 1, 1), (F.SVG_TONE_LOCKED, 1, 1), (F.SVG_ZONE_VALID, 2, 1), (F.SVG_ZONE_FIRST_TRACK, 2, 8)]) 1 { trkValid := true, angValid := true, track := 7 }, 1, 2, true, by decide +kernel⟩

theorem witness_ServoChannel_10 : ∃ (s : State) (a : Nat), a < s.part.acts ∧ flag s F.SVG_CTL_EN a = true :=
  ⟨withRegs [(F.SVG_CTL_EN, 1, 1)], 1, by decide +kernel⟩

theorem witness_ServoChannel_11 : ∃ (s : State) (a : Nat) (symbols : Nat) (cycles : Nat) (w : Nat) (inv : Bool), a < s.part.acts ∧ flag s F.SVG_CTL_EN a = true ∧ flag s F.SVG_CTL_SURF_CHK a = false ∧ framePosition (passCycles s a cycles) a = true ∧ frameSymbols (svgOf s a) symbols = some (w, inv) ∧ crc8 22 (symField w 34 22) = symField w 56 8 ∧ (svgOf s a).trkValid = false ∧ frameStill (svgOf (passCycles s a cycles) a) = true :=
  ⟨withRegs [(F.SVG_CTL_EN, 1, 1), (F.SVG_CTL_SURF_CHK, 1, 0)], 1, 0b0000011001010 * 2 ^ 51 + 7 * 2 ^ 30, 8192, 0b0000011001010 * 2 ^ 51 + 7 * 2 ^ 30, false, by decide +kernel⟩

theorem witness_ServoChannel_12 : ∃ (s : State) (a : Nat) (symbols : Nat) (w : Nat) (inv : Bool), a < s.part.acts ∧ flag s F.SVG_CTL_EN a = true ∧ frameSymbols (svgOf s a) symbols = some (w, inv) ∧ crc8 22 (symField w 34 22) ≠ symField w 56 8 :=
  ⟨withRegs [(F.SVG_CTL_EN, 1, 1)], 1, 0b0000011001010 * 2 ^ 51 + 7 * 2 ^ 30 + 5, 0b0000011001010 * 2 ^ 51 + 7 * 2 ^ 30 + 5, false, by decide +kernel⟩

theorem witness_ServoChannel_13 : ∃ (s : State) (a : Nat), a < s.part.acts :=
  ⟨setSvg (withRegs [(F.SVG_TONE_LOCKED, 1, 1)]) 1 { trkValid := true }, 1, by decide +kernel⟩

/-- States and operands that meet the hypotheses of `ActuatorSettling`, clause by clause. -/
theorem witness_ActuatorSettling_1 : ∃ (s : State) (a : Nat), cteState s a = stSettle ∧ fld s F.CTE_SETTLE_SETTLE_CNT a ≤ (cteOf s a).settleRun ∧ (svgOf s a).trkValid = true ∧ (svgOf s a).track = (cteOf s a).track :=
  ⟨setSvg (setCte (withRegs [(F.CTE_STAT_STATE, 1, 5)]) 1 { seek := some { track := 7 }, cmd := some .load, settleRun := 100000, track := 7 }) 1 { trkValid := true, track := 7 }, 1, by decide +kernel⟩

theorem witness_ActuatorSettling_2 : ∃ (s : State) (a : Nat), (cteState s a = stFollow ∨ cteState s a = stExt) ∧ fldIn s a F.CTE_OT_OT_CLR a ≤ (cteOf s a).cleanRun :=
  ⟨setCte (withRegs [(F.CTE_STAT_STATE, 1, 6)]) 1 { cleanRun := 200 }, 1, by decide +kernel⟩

theorem witness_ActuatorSettling_3 : ∃ (s : State) (a : Nat), supervised s a = true ∧ max 1 (fldIn s a F.CTE_RES_CNT_CNT a) ≤ fld s F.CTE_STAT_RES_RUN a ∧ (cteOf s a).hold = none :=
  ⟨withRegs [(F.CTE_STAT_STATE, 1, 6), (F.CTE_STAT_RES_RUN, 1, 100)], 1, by decide +kernel⟩

theorem witness_ActuatorSettling_4 : ∃ (s : State) (a : Nat), supervised s a = true ∧ max 1 (fld s F.SVG_CTL_COAST_MAX a) ≤ (cteOf s a).coastRun ∧ (cteOf s a).hold = none :=
  ⟨setCte (withRegs [(F.CTE_STAT_STATE, 1, 6)]) 1 { coastRun := 1000 }, 1, by decide +kernel⟩

theorem witness_ActuatorSettling_5 : ∃ (s : State) (a : Nat), cteState s a = stSettle :=
  ⟨withRegs [(F.CTE_STAT_STATE, 1, 5)], 1, by decide +kernel⟩

theorem witness_ActuatorSettling_6 : ∃ (s : State) (a : Nat) (q : SeekReq), a < s.part.acts ∧ unloadDue s a = false ∧ (cteOf s a).hold = none ∧ s.cal.pending = [] ∧ (cteOf s a).due = some .settleTmo ∧ cteState s a = stSettle ∧ (cteOf s a).seek = some q ∧ q.who = .firmware :=
  ⟨setCte (withRegs [(F.CTE_STAT_STATE, 1, 5), (F.CTE_SEEK_BUSY, 1, 1)]) 1 { seek := some { track := 7 }, due := some .settleTmo }, 1, { track := 7 }, by decide +kernel⟩

theorem witness_ActuatorSettling_7 : ∃ (s : State) (a : Nat), cteState s a = stAcquire ∧ (svgOf s a).trkValid = false :=
  ⟨withRegs [(F.CTE_STAT_STATE, 1, 2)], 1, by decide +kernel⟩

theorem witness_ActuatorSettling_8 : ∃ (s : State) (a : Nat), cteState s a = stReacq :=
  ⟨withRegs [(F.CTE_STAT_STATE, 1, 4)], 1, by decide +kernel⟩

theorem witness_ActuatorSettling_9 : ∃ (s : State) (a : Nat), a < s.part.acts ∧ unloadDue s a = false ∧ (cteOf s a).hold = none ∧ s.cal.pending = [] ∧ (cteOf s a).due = some .acqTmo ∧ cteState s a = stAcquire ∧ (svgOf s a).trkValid = false :=
  ⟨setCte (withRegs [(F.CTE_STAT_STATE, 1, 2)]) 1 { due := some .acqTmo }, 1, by decide +kernel⟩

theorem witness_ActuatorSettling_10 : ∃ (s : State) (a : Nat), a < s.part.acts ∧ unloadDue s a = false ∧ (cteOf s a).hold = none ∧ s.cal.pending = [] ∧ (cteOf s a).due = some .acqTmo ∧ cteState s a = stReacq :=
  ⟨setCte (withRegs [(F.CTE_STAT_STATE, 1, 4)]) 1 { seek := some { track := 7 }, due := some .acqTmo }, 1, by decide +kernel⟩

theorem witness_ActuatorSettling_11 : ∃ (s : State) (a : Nat), cteState s a = stHold :=
  ⟨withRegs [(F.CTE_STAT_STATE, 1, 7)], 1, by decide +kernel⟩

theorem witness_ActuatorSettling_12 : ∃ (s : State) (a : Nat), a < s.part.acts ∧ unloadDue s a = false ∧ (cteOf s a).hold = none ∧ s.cal.pending = [] ∧ (cteOf s a).due = some .holdTmo ∧ cteState s a = stHold :=
  ⟨setCte (withRegs [(F.CTE_STAT_STATE, 1, 7)]) 1 { due := some .holdTmo }, 1, by decide +kernel⟩

/-- States and operands that meet the hypotheses of `ActuatorLoadAndPark`, clause by clause. -/
theorem witness_ActuatorLoadAndPark_1 : ∃ (s : State) (a : Nat), a < s.part.acts ∧ cteState s a = stParked ∧ unloadDue s a = false ∧ (cteOf s a).hold = none ∧ (cteOf s a).mediaReq = [] ∧ (cteOf s a).fwReq = none ∧ (cteOf s a).cmdReq = some .load ∧ s.cal.pending = [] ∧ (cteOf s a).due = none ∧ paired s = true ∧ spindleLocked s = true ∧ s.spn.retract = none ∧ Nat.testBit (fld s F.PWS_FAULT_VCM_SHORT) a = false :=
  ⟨setCte (withRegs [(F.HDL_TAG_STATUS_STATE, 0, 2), (F.SPN_STAT_AT_SPEED, 0, 1), (F.CTE_LOAD_LOAD_I, 1, 0xFF00)]) 1 { cmdReq := some .load }, 1, by decide +kernel⟩

theorem witness_ActuatorLoadAndPark_2 : ∃ (s : State) (a : Nat), a < s.part.acts ∧ cteState s a = stParked ∧ unloadDue s a = false ∧ (cteOf s a).hold = none ∧ (cteOf s a).mediaReq = [] ∧ (cteOf s a).fwReq = none ∧ (cteOf s a).cmdReq = some .load ∧ s.cal.pending = [] ∧ (cteOf s a).due = none ∧ paired s = false :=
  ⟨setCte (withRegs [(F.CTE_CMD_BUSY, 1, 1)]) 1 { cmdReq := some .load }, 1, by decide +kernel⟩

theorem witness_ActuatorLoadAndPark_3 : ∃ (s : State) (a : Nat), cteState s a = stLoading ∧ 8 ≤ (cteOf s a).sumRun :=
  ⟨setCte (withRegs [(F.CTE_STAT_STATE, 1, 1)]) 1 { sumRun := 8 }, 1, by decide +kernel⟩

theorem witness_ActuatorLoadAndPark_4 : ∃ (s : State) (a : Nat), a < s.part.acts ∧ unloadDue s a = false ∧ (cteOf s a).hold = none ∧ s.cal.pending = [] ∧ (cteOf s a).due = some .stripe ∧ cteState s a = stLoading :=
  ⟨setCte (withRegs [(F.CTE_STAT_STATE, 1, 1)]) 1 { due := some .stripe }, 1, by decide +kernel⟩

theorem witness_ActuatorLoadAndPark_5 : ∃ (s : State) (a : Nat), cteState s a = stLoading :=
  ⟨withRegs [(F.CTE_STAT_STATE, 1, 1)], 1, by decide +kernel⟩

theorem witness_ActuatorLoadAndPark_6 : ∃ (s : State) (a : Nat), a < s.part.acts ∧ unloadDue s a = false ∧ (cteOf s a).hold = none ∧ s.cal.pending = [] ∧ (cteOf s a).due = some .loadTmo ∧ cteState s a = stLoading ∧ (cteOf s a).cmd = some .load ∧ (cteOf s a).cmdReq = none :=
  ⟨setCte (withRegs [(F.CTE_STAT_STATE, 1, 1), (F.CTE_CMD_BUSY, 1, 1)]) 1 { cmd := some .load, due := some .loadTmo }, 1, by decide +kernel⟩

theorem witness_ActuatorLoadAndPark_7 : ∃ (s : State) (a : Nat), cteState s a = stUnloading ∧ (cteOf s a).phase = 1 :=
  ⟨setCte (withRegs [(F.CTE_STAT_STATE, 1, 8)]) 1 { phase := 1 }, 1, by decide +kernel⟩

theorem witness_ActuatorLoadAndPark_8 : ∃ (s : State) (a : Nat), a < s.part.acts ∧ cteState s a = stUnloading ∧ (cteOf s a).phase = 2 ∧ (cteOf s a).cmd = some .park :=
  ⟨setCte (withRegs [(F.CTE_STAT_STATE, 1, 8), (F.CTE_CMD_BUSY, 1, 1)]) 1 { phase := 2, cmd := some .park, vcm := 55 }, 1, by decide +kernel⟩

theorem witness_ActuatorLoadAndPark_9 : ∃ (s : State) (n : Nat), allParked s = true ∧ spnState s ≠ spRun ∧ n < 5 :=
  ⟨setCte State.reset 1 { xh := [5], uv := 3 }, 1, by decide +kernel⟩

theorem witness_ActuatorLoadAndPark_10 : ∃ (s : State), allParked s = false ∧ (waitingAt s .cte).length < 4 :=
  ⟨withRegs [(F.CTE_STAT_STATE, 1, 6)], by decide +kernel⟩

/-- States and operands that meet the hypotheses of `ActuatorCommands`, clause by clause. -/
theorem witness_ActuatorCommands_1 : ∃ (s : State) (a : Nat) (v : Word), a < s.part.acts ∧ flag s F.CTE_SEEK_BUSY a = false ∧ bit v 37 = true :=
  ⟨State.reset, 1, 0x3FFFE00123#64, by decide +kernel⟩

theorem witness_ActuatorCommands_2 : ∃ (s : State) (a : Nat) (v : Word), a < s.part.acts ∧ flag s F.CTE_SEEK_BUSY a = true ∧ bit v 37 = true :=
  ⟨withRegs [(F.CTE_SEEK_BUSY, 1, 1)], 1, 0x3FFFE00123#64, by decide +kernel⟩

theorem witness_ActuatorCommands_3 : ∃ (s : State) (a : Nat), a < s.part.acts ∧ flag s F.CTE_CMD_BUSY a = false :=
  ⟨State.reset, 1, by decide +kernel⟩

theorem witness_ActuatorCommands_4 : ∃ (s : State) (a : Nat), a < s.part.acts ∧ flag s F.CTE_CMD_BUSY a = false :=
  ⟨State.reset, 1, by decide +kernel⟩

theorem witness_ActuatorCommands_5 : ∃ (s : State) (a : Nat), a < s.part.acts ∧ flag s F.CTE_CMD_BUSY a = true :=
  ⟨withRegs [(F.CTE_CMD_BUSY, 1, 1)], 1, by decide +kernel⟩

theorem witness_ActuatorCommands_6 : ∃ (s : State) (a : Nat), a < s.part.acts ∧ cteState s a = stParked :=
  ⟨setCte (withRegs [(F.CTE_CMD_BUSY, 1, 1)]) 1 { cmdReq := some .load }, 1, by decide +kernel⟩

theorem witness_ActuatorCommands_7 : ∃ (s : State) (a : Nat), a < s.part.acts ∧ cteState s a ≠ stParked :=
  ⟨withRegs [(F.CTE_STAT_STATE, 1, 6)], 1, by decide +kernel⟩

theorem witness_ActuatorCommands_8 : ∃ (s : State) (v : Word), bit v 0 = true ∧ fld s F.SEC_LC_STATE ≠ 1 ∧ fld s F.SEC_LC_STATE ≠ 3 :=
  ⟨withRegs [(F.SEC_LC_STATE, 0, 2)], 1#64, by decide +kernel⟩

theorem witness_ActuatorCommands_9 : ∃ (s : State) (v : Word), (bit v 0 = false ∨ fld s F.SEC_LC_STATE = 1 ∨ fld s F.SEC_LC_STATE = 3) :=
  ⟨withRegs [(F.SEC_LC_STATE, 0, 3)], 0x1235#64, by decide +kernel⟩

/-- States and operands that meet the hypotheses of `SpindleCommands`, clause by clause. -/
theorem witness_SpindleCommands_1 : ∃ (s : State), flag s F.SPN_CMD_BUSY = false ∧ spnState s = spOff ∧ flag s F.PWS_STAT_RESTART_BLOCK = false ∧ flag s F.PWS_STAT_VM_OK = true :=
  ⟨withRegs [(F.PWS_STAT_VM_OK, 0, 1)], by decide +kernel⟩

theorem witness_SpindleCommands_2 : ∃ (s : State), flag s F.SPN_CMD_BUSY = false ∧ spnState s = spOff ∧ flag s F.PWS_STAT_RESTART_BLOCK = true :=
  ⟨withRegs [(F.PWS_STAT_VM_OK, 0, 1), (F.PWS_STAT_RESTART_BLOCK, 0, 1)], by decide +kernel⟩

theorem witness_SpindleCommands_3 : ∃ (s : State), spnState s = spOff :=
  ⟨State.reset, by decide +kernel⟩

theorem witness_SpindleCommands_4 : ∃ (s : State), spnState s ∈ [spSense, spBrakeRev, spBrakeSettle, spAlign, spRamp] :=
  ⟨setSpn { start := true } (withRegs [(F.SPN_STAT_STATE, 0, 4)]), by decide +kernel⟩

theorem witness_SpindleCommands_5 : ∃ (s : State), spnState s = spRun ∧ dirtyOut s = false ∧ allParked s = false :=
  ⟨withRegs [(F.SPN_STAT_STATE, 0, 8), (F.SPN_STAT_AT_SPEED, 0, 1), (F.CTE_STAT_STATE, 1, 6)], by decide +kernel⟩

theorem witness_SpindleCommands_6 : ∃ (s : State), flag s F.SPN_CMD_BUSY = false ∧ spnState s = spFault ∧ flag s F.PWS_STAT_RESTART_BLOCK = false :=
  ⟨withRegs [(F.SPN_STAT_STATE, 0, 12)], by decide +kernel⟩

theorem witness_SpindleCommands_7 : ∃ (s : State) (v : Word), commutates s = false ∧ spnState s ≠ spUnloadWait ∧ 360000 ≤ getBits v 0 21 ∧ getBits v 0 21 ≤ 1500000 :=
  ⟨State.reset, 540000#64, by decide +kernel⟩

theorem witness_SpindleCommands_8 : ∃ (v : Word), (getBits v 0 21 < 360000 ∨ 1500000 < getBits v 0 21) :=
  ⟨359999#64, by decide +kernel⟩

theorem witness_SpindleCommands_9 : ∃ (s : State), allParked s = true :=
  ⟨withRegs [(F.SPN_STAT_STATE, 0, 8), (F.CKR_BRST_SPN, 0, 1)], by decide +kernel⟩

theorem witness_SpindleCommands_10 : ∃ (s : State), allParked s = false ∧ (waitingAt s .spn).length < 4 :=
  ⟨withRegs [(F.CTE_STAT_STATE, 1, 6), (F.CKR_BRST_SPN, 0, 1)], by decide +kernel⟩

/-- States and operands that meet the hypotheses of `SpindleStart`, clause by clause. -/
theorem witness_SpindleStart_1 : ∃ (s : State) (speed : Nat), spnState s = spSense ∧ 4 * s.spn.set ≤ 100 * speed :=
  ⟨withRegs [(F.SPN_STAT_STATE, 0, 1)], 400000, by decide +kernel⟩

theorem witness_SpindleStart_2 : ∃ (s : State) (speed : Nat), spnState s = spSense ∧ 100 * speed < 4 * s.spn.set :=
  ⟨withRegs [(F.SPN_STAT_STATE, 0, 1)], 0, by decide +kernel⟩

theorem witness_SpindleStart_3 : ∃ (s : State) (speed : Nat), spnState s = spSense ∧ s.spn.set ≤ 100 * speed :=
  ⟨withRegs [(F.SPN_STAT_STATE, 0, 1)], 100000, by decide +kernel⟩

theorem witness_SpindleStart_4 : ∃ (s : State), spnState s = spBrakeRev :=
  ⟨withRegs [(F.SPN_STAT_STATE, 0, 2)], by decide +kernel⟩

theorem witness_SpindleStart_5 : ∃ (s : State), spnState s = spBrakeRev :=
  ⟨setSpn { start := true } (withRegs [(F.SPN_STAT_STATE, 0, 2)]), by decide +kernel⟩

theorem witness_SpindleStart_6 : ∃ (s : State), spnState s = spBrakeSettle :=
  ⟨withRegs [(F.SPN_STAT_STATE, 0, 3)], by decide +kernel⟩

theorem witness_SpindleStart_7 : ∃ (s : State), spnState s = spAlign :=
  ⟨withRegs [(F.SPN_STAT_STATE, 0, 4)], by decide +kernel⟩

theorem witness_SpindleStart_8 : ∃ (s : State), spnState s = spRamp ∧ fld s F.SPN_STAT_ATTEMPT < 5 :=
  ⟨withRegs [(F.SPN_STAT_STATE, 0, 5), (F.SPN_STAT_ATTEMPT, 0, 4)], by decide +kernel⟩

theorem witness_SpindleStart_9 : ∃ (s : State), spnState s = spRamp ∧ 5 ≤ fld s F.SPN_STAT_ATTEMPT :=
  ⟨withRegs [(F.SPN_STAT_STATE, 0, 5), (F.SPN_STAT_ATTEMPT, 0, 5)], by decide +kernel⟩

theorem witness_SpindleStart_10 : ∃ (s : State), spnState s = spCatch ∧ s.spn.catchLos = false :=
  ⟨withRegs [(F.SPN_STAT_STATE, 0, 6)], by decide +kernel⟩

theorem witness_SpindleStart_11 : ∃ (s : State), spSense ≤ spnState s ∧ spnState s ≤ spAccel ∧ s.spn.reached = false :=
  ⟨withRegs [(F.SPN_STAT_STATE, 0, 7)], by decide +kernel⟩

theorem witness_SpindleStart_12 : ∃ (s : State), spnState s = spBrake ∧ s.spn.stop = true ∧ s.spn.start = false :=
  ⟨setSpn { stop := true } (withRegs [(F.SPN_STAT_STATE, 0, 10), (F.SPN_CMD_BUSY, 0, 1)]), by decide +kernel⟩

/-- States and operands that meet the hypotheses of `SpindleRunning`, clause by clause. -/
theorem witness_SpindleRunning_1 : ∃ (s : State) (dt : Nat), spnState s = spRamp ∧ rampValid s (s.spn.rampT + dt) = true ∧ validN s ≤ s.spn.valid + 1 :=
  ⟨setSpn { valid := 5, rampT := 40000000 } (withRegs [(F.SPN_STAT_STATE, 0, 5), (F.SPN_START_CTL_RAMP_ACC, 0, 1000), (F.SPN_START_CTL_VALID_N, 0, 6)]), 4721359, by decide +kernel⟩

theorem witness_SpindleRunning_2 : ∃ (s : State) (dt : Nat), spnState s = spRun ∧ s.spn.setWaits = false ∧ s.cal.pending = [] ∧ 4 * ((periodSpeed : Int) - (dt * fld s F.SPN_OBS_SPEED : Nat)).natAbs ≤ periodSpeed :=
  ⟨withRegs [(F.SPN_STAT_STATE, 0, 8), (F.SPN_OBS_SPEED, 0, 1000000)], 100000, by decide +kernel⟩

theorem witness_SpindleRunning_3 : ∃ (s : State) (dt : Nat), spnState s = spRun ∧ s.spn.setWaits = false ∧ s.cal.pending = [] ∧ 2 ≤ s.spn.wide ∧ periodSpeed < 4 * ((periodSpeed : Int) - (dt * fld s F.SPN_OBS_SPEED : Nat)).natAbs :=
  ⟨setSpn { wide := 2 } (withRegs [(F.SPN_STAT_STATE, 0, 8), (F.SPN_OBS_SPEED, 0, 1000000)]), 20, by decide +kernel⟩

theorem witness_SpindleRunning_4 : ∃ (s : State), s.spn.bridge ∈ [.ramp, .drive, .rectify, .regen] ∧ fld s F.SPN_OBS_SPEED ≠ 0 ∧ clampApplies s = false :=
  ⟨setSpn { bridge := .drive } (withRegs [(F.SPN_STAT_STATE, 0, 7), (F.SPN_OBS_SPEED, 0, 1000000)]), by decide +kernel⟩

theorem witness_SpindleRunning_5 : ∃ (s : State), spnState s = spRun ∧ s.cal.running = [] :=
  ⟨setSpn { bridge := .drive } (withRegs [(F.SPN_STAT_STATE, 0, 8), (F.SPN_OBS_SPEED, 0, 1000000)]), by decide +kernel⟩

theorem witness_SpindleRunning_6 : ∃ (s : State), spnState s ∈ [spCatch, spAccel, spRun] :=
  ⟨withRegs [(F.SPN_STAT_STATE, 0, 8), (F.SPN_OBS_SPEED, 0, 1000000)], by decide +kernel⟩

theorem witness_SpindleRunning_7 : ∃ (s : State), spnState s = spRun ∧ flag s F.SPN_STAT_AT_SPEED = false ∧ 4 ≤ s.spn.good :=
  ⟨setSpn { good := 4, start := true } (withRegs [(F.SPN_STAT_STATE, 0, 8)]), by decide +kernel⟩

theorem witness_SpindleRunning_8 : ∃ (s : State), spnState s = spRun ∧ flag s F.SPN_STAT_AT_SPEED = true ∧ 2 ≤ s.spn.bad :=
  ⟨setSpn { bad := 2 } (withRegs [(F.SPN_STAT_STATE, 0, 8), (F.SPN_STAT_AT_SPEED, 0, 1), (F.CKR_READY_SPINDLE, 0, 1)]), by decide +kernel⟩

theorem witness_SpindleRunning_9 : ∃ (s : State), flag s F.SPN_SYNC_CTL_EN = true ∧ flag s F.SPN_SYNC_CTL_POL = false ∧ s.spn.edge = false :=
  ⟨withRegs [(F.SPN_SYNC_CTL_EN, 0, 1), (F.SPN_SYNC_CTL_OFS, 0, 60)], by decide +kernel⟩

theorem witness_SpindleRunning_10 : ∃ (s : State), flag s F.SPN_SYNC_CTL_EN = true :=
  ⟨withRegs [(F.SPN_SYNC_CTL_EN, 0, 1), (F.SPN_STAT_SYNC, 0, 3)], by decide +kernel⟩

/-- States and operands that meet the hypotheses of `PowerStage`, clause by clause. -/
theorem witness_PowerStage_1 : ∃ (s : State) (mv : Nat), mv < 9500 ∧ vinGood s = true ∧ flag s F.PWS_STAT_VM_OK = true :=
  ⟨withRegs [(F.PWS_STAT_VM_OK, 0, 1), (F.SPN_STAT_STATE, 0, 8)], 9000, by decide +kernel⟩

theorem witness_PowerStage_2 : ∃ (s : State) (mv : Nat), 10000 ≤ mv ∧ flag s F.PWS_STAT_VM_OK = false :=
  ⟨State.reset, 12000, by decide +kernel⟩

theorem witness_PowerStage_3 : ∃ (s : State) (mv : Nat), 10 * fld s F.PWS_CLAMP_CLAMP_V ≤ mv :=
  ⟨State.reset, 15000, by decide +kernel⟩

theorem witness_PowerStage_4 : ∃ (s : State) (mv : Nat), mv + 200 ≤ 10 * fld s F.PWS_CLAMP_CLAMP_V :=
  ⟨withRegs [(F.PWS_STAT_CLAMP_ON, 0, 1), (F.PWS_CLAMP_CLAMP_V, 0, 1400)], 12000, by decide +kernel⟩

theorem witness_PowerStage_5 : ∃ (s : State) (mv : Nat), 15600 ≤ mv ∧ flag s F.PWS_FAULT_VM_TRIP = false :=
  ⟨withRegs [(F.SPN_STAT_STATE, 0, 8)], 15600, by decide +kernel⟩

theorem witness_PowerStage_6 : ∃ (s : State) (ma : Nat), ma < 500 ∧ flag s F.PWS_STAT_CLAMP_ON = true ∧ flag s F.PWS_FAULT_CHOP_OPEN = false :=
  ⟨setSpn { bridge := .regen } (withRegs [(F.PWS_STAT_CLAMP_ON, 0, 1), (F.PWS_CLAMP_REGEN_EN, 0, 1)]), 400, by decide +kernel⟩

theorem witness_PowerStage_7 : ∃ (s : State) (ma : Nat), 200 < ma ∧ flag s F.PWS_STAT_CLAMP_ON = false ∧ flag s F.PWS_FAULT_CHOP_STUCK = false :=
  ⟨setSpn { bridge := .regen } (withRegs [(F.SPN_STAT_STATE, 0, 10)]), 400, by decide +kernel⟩

theorem witness_PowerStage_8 : ∃ (temp : Nat), 580 ≤ temp :=
  ⟨600, by decide +kernel⟩

theorem witness_PowerStage_9 : ∃ (temp : Nat), 680 ≤ temp :=
  ⟨700, by decide +kernel⟩

theorem witness_PowerStage_10 : ∃ (s : State) (a : Nat), a < s.part.acts :=
  ⟨withRegs [(F.PWS_FAULT_VCM_SHORT, 0, 4)], 1, by decide +kernel⟩

theorem witness_PowerStage_11 : ∃ (s : State), flag s F.PWS_STAT_BOOST_OK = true :=
  ⟨withRegs [(F.PWS_STAT_BOOST_OK, 0, 1)], by decide +kernel⟩

theorem witness_PowerStage_12 : ∃ (s : State), flag s F.PWS_UACT_CTL_BOOST_EN = true :=
  ⟨withRegs [(F.PWS_UACT_CTL_BOOST_EN, 0, 1)], by decide +kernel⟩

theorem witness_PowerStage_13 : ∃ (s : State), fld s F.PWS_VOLT_VM < 13200 :=
  ⟨withRegs [(F.PWS_VOLT_VM, 0, 12000), (F.PWS_FAULT_VM_TRIP, 0, 1), (F.PWS_STAT_RESTART_BLOCK, 0, 1)], by decide +kernel⟩

theorem witness_PowerStage_14 : ∃ (s : State), 13200 ≤ fld s F.PWS_VOLT_VM :=
  ⟨withRegs [(F.PWS_VOLT_VM, 0, 14000), (F.PWS_FAULT_VM_TRIP, 0, 1), (F.PWS_STAT_RESTART_BLOCK, 0, 1)], by decide +kernel⟩

theorem witness_PowerStage_17 : ∃ (s : State), s.spn.retract = some retractUnannounced :=
  ⟨setSpn { retract := some 1 } State.reset, by decide +kernel⟩

theorem witness_PowerStage_18 : ∃ (s : State) (c : Nat), s.spn.retract = some c ∧ c ≠ retractUnannounced :=
  ⟨setSpn { retract := some 2, bridge := .drive } State.reset, 2, by decide +kernel⟩

/-- States and operands that meet the hypotheses of `ShuttleArithmetic`, clause by clause. -/
theorem witness_ShuttleArithmetic_1 : ∃ (s : State) (k : Nat) (rd : Nat) (rs : Nat) (i : Ins), fetched s k = some i ∧ i.op = 0x10 ∧ i.rd = rd ∧ i.rs = rs ∧ patched s 0x10 = false :=
  ⟨running 0x10 3 5 0 [(3, 0xFFFFFFFFFFFFFFF1#64), (5, 7#64)], 0, 3, 5, ⟨0x10, 3, 5, 0⟩, by decide +kernel⟩

theorem witness_ShuttleArithmetic_2 : ∃ (s : State) (k : Nat) (rd : Nat) (rs : Nat) (i : Ins), fetched s k = some i ∧ i.op = 0x11 ∧ i.rd = rd ∧ i.rs = rs ∧ patched s 0x11 = false :=
  ⟨running 0x11 3 5 0 [(3, 0xFFFFFFFFFFFFFFF1#64), (5, 7#64)], 0, 3, 5, ⟨0x11, 3, 5, 0⟩, by decide +kernel⟩

theorem witness_ShuttleArithmetic_3 : ∃ (s : State) (k : Nat) (rd : Nat) (rs : Nat) (i : Ins), fetched s k = some i ∧ i.op = 0x12 ∧ i.rd = rd ∧ i.rs = rs ∧ patched s 0x12 = false :=
  ⟨running 0x12 3 5 0 [(3, 0xFFFFFFFFFFFFFFF1#64), (5, 7#64)], 0, 3, 5, ⟨0x12, 3, 5, 0⟩, by decide +kernel⟩

theorem witness_ShuttleArithmetic_4 : ∃ (s : State) (k : Nat) (rd : Nat) (rs : Nat) (i : Ins), fetched s k = some i ∧ i.op = 0x13 ∧ i.rd = rd ∧ i.rs = rs ∧ patched s 0x13 = false :=
  ⟨running 0x13 3 5 0 [(3, 0xFFFFFFFFFFFFFFF1#64), (5, 7#64)], 0, 3, 5, ⟨0x13, 3, 5, 0⟩, by decide +kernel⟩

theorem witness_ShuttleArithmetic_5 : ∃ (s : State) (k : Nat) (rd : Nat) (rs : Nat) (i : Ins), fetched s k = some i ∧ i.op = 0x14 ∧ i.rd = rd ∧ i.rs = rs ∧ patched s 0x14 = false :=
  ⟨running 0x14 3 5 0 [(3, 0xFFFFFFFFFFFFFFF1#64), (5, 7#64)], 0, 3, 5, ⟨0x14, 3, 5, 0⟩, by decide +kernel⟩

theorem witness_ShuttleArithmetic_6 : ∃ (s : State) (k : Nat) (rd : Nat) (rs : Nat) (i : Ins), fetched s k = some i ∧ i.op = 0x15 ∧ i.rd = rd ∧ i.rs = rs ∧ patched s 0x15 = false :=
  ⟨running 0x15 3 5 0 [(3, 0xFFFFFFFFFFFFFFF1#64), (5, 7#64)], 0, 3, 5, ⟨0x15, 3, 5, 0⟩, by decide +kernel⟩

theorem witness_ShuttleArithmetic_7 : ∃ (s : State) (k : Nat) (rd : Nat) (rs : Nat) (i : Ins), fetched s k = some i ∧ i.op = 0x16 ∧ i.rd = rd ∧ i.rs = rs ∧ patched s 0x16 = false :=
  ⟨running 0x16 3 5 0 [(3, 0xFFFFFFFFFFFFFFF1#64), (5, 7#64)], 0, 3, 5, ⟨0x16, 3, 5, 0⟩, by decide +kernel⟩

theorem witness_ShuttleArithmetic_8 : ∃ (s : State) (k : Nat) (rd : Nat) (rs : Nat) (i : Ins), fetched s k = some i ∧ i.op = 0x17 ∧ i.rd = rd ∧ i.rs = rs ∧ patched s 0x17 = false :=
  ⟨running 0x17 3 5 0 [(3, 0xFFFFFFFFFFFFFFF1#64), (5, 7#64)], 0, 3, 5, ⟨0x17, 3, 5, 0⟩, by decide +kernel⟩

theorem witness_ShuttleArithmetic_9 : ∃ (s : State) (k : Nat) (rd : Nat) (rs : Nat) (i : Ins), fetched s k = some i ∧ i.op = 0x18 ∧ i.rd = rd ∧ i.rs = rs ∧ patched s 0x18 = false :=
  ⟨running 0x18 3 5 0 [(3, 0xFFFFFFFFFFFFFFF1#64), (5, 7#64)], 0, 3, 5, ⟨0x18, 3, 5, 0⟩, by decide +kernel⟩

theorem witness_ShuttleArithmetic_10 : ∃ (s : State) (k : Nat) (rd : Nat) (rs : Nat) (i : Ins), fetched s k = some i ∧ i.op = 0x19 ∧ i.rd = rd ∧ i.rs = rs ∧ patched s 0x19 = false :=
  ⟨running 0x19 3 5 0 [(3, 0xFFFFFFFFFFFFFFF1#64), (5, 7#64)], 0, 3, 5, ⟨0x19, 3, 5, 0⟩, by decide +kernel⟩

theorem witness_ShuttleArithmetic_11 : ∃ (s : State) (k : Nat) (rd : Nat) (i : Ins), fetched s k = some i ∧ i.op = 0x1A ∧ i.rd = rd ∧ patched s 0x1A = false :=
  ⟨running 0x1A 3 0 0 [(3, 0xFFFFFFFFFFFFFFF1#64), (5, 7#64)], 0, 3, ⟨0x1A, 3, 0, 0⟩, by decide +kernel⟩

theorem witness_ShuttleArithmetic_12 : ∃ (s : State) (k : Nat) (rd : Nat) (i : Ins), fetched s k = some i ∧ i.op = 0x1B ∧ i.rd = rd ∧ patched s 0x1B = false :=
  ⟨running 0x1B 3 0 0 [(3, 0xFFFFFFFFFFFFFFF1#64), (5, 7#64)], 0, 3, ⟨0x1B, 3, 0, 0⟩, by decide +kernel⟩

theorem witness_ShuttleArithmetic_13 : ∃ (s : State) (k : Nat) (rd : Nat) (imm : Nat) (i : Ins), fetched s k = some i ∧ i.op = 0x20 ∧ i.rd = rd ∧ i.imm = imm ∧ patched s 0x20 = false :=
  ⟨running 0x20 3 0 65520 [(3, 0xFFFFFFFFFFFFFFF1#64), (5, 7#64)], 0, 3, 65520, ⟨0x20, 3, 0, 65520⟩, by decide +kernel⟩

theorem witness_ShuttleArithmetic_14 : ∃ (s : State) (k : Nat) (rd : Nat) (rs : Nat) (imm : Nat) (i : Ins), fetched s k = some i ∧ i.op = 0x21 ∧ i.rd = rd ∧ i.rs = rs ∧ i.imm = imm ∧ patched s 0x21 = false ∧ imm < 65536 :=
  ⟨running 0x21 3 6 65520 [(3, 0xFFFFFFFFFFFFFFF1#64), (5, 7#64)], 0, 3, 6, 65520, ⟨0x21, 3, 6, 65520⟩, by decide +kernel⟩

theorem witness_ShuttleArithmetic_15 : ∃ (s : State) (k : Nat) (rd : Nat) (rs : Nat) (imm : Nat) (i : Ins), fetched s k = some i ∧ i.op = 0x22 ∧ i.rd = rd ∧ i.rs = rs ∧ i.imm = imm ∧ patched s 0x22 = false :=
  ⟨running 0x22 3 5 32899 [(3, 0xFFFFFFFFFFFFFFF1#64), (5, 7#64)], 0, 3, 5, 32899, ⟨0x22, 3, 5, 32899⟩, by decide +kernel⟩

theorem witness_ShuttleArithmetic_16 : ∃ (s : State) (k : Nat) (rd : Nat) (rs : Nat) (imm : Nat) (i : Ins), fetched s k = some i ∧ i.op = 0x23 ∧ i.rd = rd ∧ i.rs = rs ∧ i.imm = imm ∧ patched s 0x23 = false :=
  ⟨running 0x23 3 5 32899 [(3, 0xFFFFFFFFFFFFFFF1#64), (5, 7#64)], 0, 3, 5, 32899, ⟨0x23, 3, 5, 32899⟩, by decide +kernel⟩

theorem witness_ShuttleArithmetic_17 : ∃ (s : State) (k : Nat) (rd : Nat) (rs : Nat) (imm : Nat) (i : Ins), fetched s k = some i ∧ i.op = 0x24 ∧ i.rd = rd ∧ i.rs = rs ∧ i.imm = imm ∧ patched s 0x24 = false :=
  ⟨running 0x24 3 5 32899 [(3, 0xFFFFFFFFFFFFFFF1#64), (5, 7#64)], 0, 3, 5, 32899, ⟨0x24, 3, 5, 32899⟩, by decide +kernel⟩

theorem witness_ShuttleArithmetic_18 : ∃ (s : State) (k : Nat) (rd : Nat) (rs : Nat) (imm : Nat) (i : Ins), fetched s k = some i ∧ i.op = 0x25 ∧ i.rd = rd ∧ i.rs = rs ∧ i.imm = imm ∧ patched s 0x25 = false :=
  ⟨running 0x25 3 5 32899 [(3, 0xFFFFFFFFFFFFFFF1#64), (5, 7#64)], 0, 3, 5, 32899, ⟨0x25, 3, 5, 32899⟩, by decide +kernel⟩

theorem witness_ShuttleArithmetic_19 : ∃ (s : State) (k : Nat) (rd : Nat) (rs : Nat) (imm : Nat) (i : Ins), fetched s k = some i ∧ i.op = 0x26 ∧ i.rd = rd ∧ i.rs = rs ∧ i.imm = imm ∧ patched s 0x26 = false :=
  ⟨running 0x26 3 5 32899 [(3, 0xFFFFFFFFFFFFFFF1#64), (5, 7#64)], 0, 3, 5, 32899, ⟨0x26, 3, 5, 32899⟩, by decide +kernel⟩

theorem witness_ShuttleArithmetic_20 : ∃ (s : State) (k : Nat) (rd : Nat) (rs : Nat) (imm : Nat) (i : Ins), fetched s k = some i ∧ i.op = 0x27 ∧ i.rd = rd ∧ i.rs = rs ∧ i.imm = imm ∧ patched s 0x27 = false :=
  ⟨running 0x27 3 5 32899 [(3, 0xFFFFFFFFFFFFFFF1#64), (5, 7#64)], 0, 3, 5, 32899, ⟨0x27, 3, 5, 32899⟩, by decide +kernel⟩

theorem witness_ShuttleArithmetic_21 : ∃ (s : State) (k : Nat) (rd : Nat) (rs : Nat) (imm : Nat) (i : Ins), fetched s k = some i ∧ i.op = 0x28 ∧ i.rd = rd ∧ i.rs = rs ∧ i.imm = imm ∧ patched s 0x28 = false :=
  ⟨running 0x28 3 5 32899 [(3, 0xFFFFFFFFFFFFFFF1#64), (5, 7#64)], 0, 3, 5, 32899, ⟨0x28, 3, 5, 32899⟩, by decide +kernel⟩

theorem witness_ShuttleArithmetic_22 : ∃ (s : State) (k : Nat) (rd : Nat) (rs : Nat) (imm : Nat) (i : Ins), fetched s k = some i ∧ i.op = 0x29 ∧ i.rd = rd ∧ i.rs = rs ∧ i.imm = imm ∧ patched s 0x29 = false :=
  ⟨running 0x29 3 5 32899 [(3, 0xFFFFFFFFFFFFFFF1#64), (5, 7#64)], 0, 3, 5, 32899, ⟨0x29, 3, 5, 32899⟩, by decide +kernel⟩

/-- States and operands that meet the hypotheses of `ShuttleBranches`, clause by clause. -/
theorem witness_ShuttleBranches_1 : ∃ (s : State) (k : Nat) (i : Ins), fetched s k = some i ∧ i.op = 0x00 ∧ patched s 0x00 = false :=
  ⟨running 0x00 0 0 0 [], 0, ⟨0x00, 0, 0, 0⟩, by decide +kernel⟩

theorem witness_ShuttleBranches_2 : ∃ (s : State) (k : Nat) (imm : Nat) (i : Ins), fetched s k = some i ∧ i.op = 0x02 ∧ i.imm = imm ∧ patched s 0x02 = false :=
  ⟨running 0x02 0 0 65520 [(3, 0xFFFFFFFFFFFFFFF1#64), (5, 7#64)], 0, 65520, ⟨0x02, 0, 0, 65520⟩, by decide +kernel⟩

theorem witness_ShuttleBranches_3 : ∃ (s : State) (k : Nat) (rs : Nat) (imm : Nat) (i : Ins), fetched s k = some i ∧ i.op = 0x03 ∧ i.rs = rs ∧ i.imm = imm ∧ patched s 0x03 = false :=
  ⟨running 0x03 0 5 8 [(3, 0xFFFFFFFFFFFFFFF1#64), (5, 7#64)], 0, 5, 8, ⟨0x03, 0, 5, 8⟩, by decide +kernel⟩

theorem witness_ShuttleBranches_4 : ∃ (s : State) (k : Nat) (rs : Nat) (imm : Nat) (i : Ins), fetched s k = some i ∧ i.op = 0x04 ∧ i.rs = rs ∧ i.imm = imm ∧ patched s 0x04 = false :=
  ⟨running 0x04 0 5 8 [(3, 0xFFFFFFFFFFFFFFF1#64), (5, 7#64)], 0, 5, 8, ⟨0x04, 0, 5, 8⟩, by decide +kernel⟩

theorem witness_ShuttleBranches_5 : ∃ (s : State) (k : Nat) (rd : Nat) (rs : Nat) (imm : Nat) (i : Ins), fetched s k = some i ∧ i.op = 0x05 ∧ i.rd = rd ∧ i.rs = rs ∧ i.imm = imm ∧ patched s 0x05 = false :=
  ⟨running 0x05 3 5 8 [(3, 0xFFFFFFFFFFFFFFF1#64), (5, 7#64)], 0, 3, 5, 8, ⟨0x05, 3, 5, 8⟩, by decide +kernel⟩

theorem witness_ShuttleBranches_6 : ∃ (s : State) (k : Nat) (rd : Nat) (rs : Nat) (imm : Nat) (i : Ins), fetched s k = some i ∧ i.op = 0x06 ∧ i.rd = rd ∧ i.rs = rs ∧ i.imm = imm ∧ patched s 0x06 = false :=
  ⟨running 0x06 3 5 8 [(3, 0xFFFFFFFFFFFFFFF1#64), (5, 7#64)], 0, 3, 5, 8, ⟨0x06, 3, 5, 8⟩, by decide +kernel⟩

theorem witness_ShuttleBranches_7 : ∃ (s : State) (k : Nat) (rd : Nat) (rs : Nat) (imm : Nat) (i : Ins), fetched s k = some i ∧ i.op = 0x07 ∧ i.rd = rd ∧ i.rs = rs ∧ i.imm = imm ∧ patched s 0x07 = false :=
  ⟨running 0x07 3 5 8 [(3, 0xFFFFFFFFFFFFFFF1#64), (5, 7#64)], 0, 3, 5, 8, ⟨0x07, 3, 5, 8⟩, by decide +kernel⟩

theorem witness_ShuttleBranches_8 : ∃ (s : State) (k : Nat) (rd : Nat) (rs : Nat) (imm : Nat) (i : Ins), fetched s k = some i ∧ i.op = 0x08 ∧ i.rd = rd ∧ i.rs = rs ∧ i.imm = imm ∧ patched s 0x08 = false :=
  ⟨running 0x08 3 5 8 [(3, 0xFFFFFFFFFFFFFFF1#64), (5, 7#64)], 0, 3, 5, 8, ⟨0x08, 3, 5, 8⟩, by decide +kernel⟩

theorem witness_ShuttleBranches_9 : ∃ (s : State) (k : Nat) (rd : Nat) (rs : Nat) (imm : Nat) (i : Ins), fetched s k = some i ∧ i.op = 0x09 ∧ i.rd = rd ∧ i.rs = rs ∧ i.imm = imm ∧ patched s 0x09 = false :=
  ⟨running 0x09 3 5 8 [(3, 0xFFFFFFFFFFFFFFF1#64), (5, 7#64)], 0, 3, 5, 8, ⟨0x09, 3, 5, 8⟩, by decide +kernel⟩

theorem witness_ShuttleBranches_10 : ∃ (s : State) (k : Nat) (rd : Nat) (rs : Nat) (imm : Nat) (i : Ins), fetched s k = some i ∧ i.op = 0x0A ∧ i.rd = rd ∧ i.rs = rs ∧ i.imm = imm ∧ patched s 0x0A = false :=
  ⟨running 0x0A 3 5 8 [(3, 0xFFFFFFFFFFFFFFF1#64), (5, 7#64)], 0, 3, 5, 8, ⟨0x0A, 3, 5, 8⟩, by decide +kernel⟩

theorem witness_ShuttleBranches_11 : ∃ (s : State) (k : Nat) (rd : Nat) (imm : Nat) (i : Ins), fetched s k = some i ∧ i.op = 0x0B ∧ i.rd = rd ∧ i.imm = imm ∧ patched s 0x0B = false ∧ rd < 4 :=
  ⟨running 0x0B 1 0 4 [], 0, 1, 4, ⟨0x0B, 1, 0, 4⟩, by decide +kernel⟩

theorem witness_ShuttleBranches_12 : ∃ (s : State) (k : Nat) (rd : Nat) (imm : Nat) (i : Ins), fetched s k = some i ∧ i.op = 0x0B ∧ i.rd = rd ∧ i.imm = imm ∧ patched s 0x0B = false ∧ 4 ≤ rd :=
  ⟨running 0x0B 4 0 4 [], 0, 4, 4, ⟨0x0B, 4, 0, 4⟩, by decide +kernel⟩

theorem witness_ShuttleBranches_13 : ∃ (s : State) (k : Nat) (rd : Nat) (imm : Nat) (i : Ins), fetched s k = some i ∧ i.op = 0x0C ∧ i.rd = rd ∧ i.imm = imm ∧ patched s 0x0C = false :=
  ⟨running 0x0C 3 0 4 [], 0, 3, 4, ⟨0x0C, 3, 0, 4⟩, by decide +kernel⟩

theorem witness_ShuttleBranches_14 : ∃ (s : State) (k : Nat) (rs : Nat) (i : Ins), fetched s k = some i ∧ i.op = 0x0D ∧ i.rs = rs ∧ patched s 0x0D = false :=
  ⟨running 0x0D 0 5 0 [(3, 0xFFFFFFFFFFFFFFF1#64), (5, 7#64)], 0, 5, ⟨0x0D, 0, 5, 0⟩, by decide +kernel⟩

theorem witness_ShuttleBranches_15 : ∃ (s : State) (k : Nat) (i : Ins), fetched s k = some i ∧ i.op = 0x01 ∧ patched s 0x01 = false ∧ ownsTags (shtOf s k) .running = false :=
  ⟨running 0x01 0 0 0 [], 0, ⟨0x01, 0, 0, 0⟩, by decide +kernel⟩

theorem witness_ShuttleBranches_16 : ∃ (s : State) (k : Nat) (i : Ins), fetched s k = some i ∧ i.op = 0x01 ∧ patched s 0x01 = false ∧ ownsTags (shtOf s k) .running = true :=
  ⟨modSht (running 0x01 0 0 0 []) 0 (fun h => setTag h 2 (some {})), 0, ⟨0x01, 0, 0, 0⟩, by decide +kernel⟩

/-- States and operands that meet the hypotheses of `ShuttleLocalStore`, clause by clause. -/
theorem witness_ShuttleLocalStore_1 : ∃ (s : State) (k : Nat) (rd : Nat) (rs : Nat) (imm : Nat) (i : Ins), fetched s k = some i ∧ i.op = 0x30 ∧ i.rd = rd ∧ i.rs = rs ∧ i.imm = imm ∧ patched s 0x30 = false ∧ operandAddr (shtOf s k) rs imm % 8 = 0 ∧ operandAddr (shtOf s k) rs imm + 8 ≤ 0x7C00 :=
  ⟨running 0x30 3 5 65528 [(3, 0xFEDCBA9876543210#64), (5, 0x3008#64)], 0, 3, 5, 65528, ⟨0x30, 3, 5, 65528⟩, by decide +kernel⟩

theorem witness_ShuttleLocalStore_2 : ∃ (s : State) (k : Nat) (rd : Nat) (rs : Nat) (imm : Nat) (i : Ins), fetched s k = some i ∧ i.op = 0x32 ∧ i.rd = rd ∧ i.rs = rs ∧ i.imm = imm ∧ patched s 0x32 = false ∧ operandAddr (shtOf s k) rs imm % 4 = 0 ∧ operandAddr (shtOf s k) rs imm + 4 ≤ 0x7C00 :=
  ⟨running 0x32 3 5 65528 [(3, 0xFEDCBA9876543210#64), (5, 0x3008#64)], 0, 3, 5, 65528, ⟨0x32, 3, 5, 65528⟩, by decide +kernel⟩

theorem witness_ShuttleLocalStore_3 : ∃ (s : State) (k : Nat) (rd : Nat) (rs : Nat) (imm : Nat) (i : Ins), fetched s k = some i ∧ i.op = 0x31 ∧ i.rd = rd ∧ i.rs = rs ∧ i.imm = imm ∧ patched s 0x31 = false ∧ operandAddr (shtOf s k) rs imm % 8 = 0 ∧ fld s F.SHT_CODE_TOP_TOP ≤ operandAddr (shtOf s k) rs imm ∧ operandAddr (shtOf s k) rs imm + 8 ≤ 0x7C00 :=
  ⟨running 0x31 3 5 65528 [(3, 0xFEDCBA9876543210#64), (5, 0x3008#64)], 0, 3, 5, 65528, ⟨0x31, 3, 5, 65528⟩, by decide +kernel⟩

theorem witness_ShuttleLocalStore_4 : ∃ (s : State) (k : Nat) (rd : Nat) (rs : Nat) (imm : Nat) (i : Ins), fetched s k = some i ∧ i.op = 0x33 ∧ i.rd = rd ∧ i.rs = rs ∧ i.imm = imm ∧ patched s 0x33 = false ∧ operandAddr (shtOf s k) rs imm % 4 = 0 ∧ fld s F.SHT_CODE_TOP_TOP ≤ operandAddr (shtOf s k) rs imm ∧ operandAddr (shtOf s k) rs imm + 4 ≤ 0x7C00 :=
  ⟨running 0x33 3 5 65528 [(3, 0xFEDCBA9876543210#64), (5, 0x3008#64)], 0, 3, 5, 65528, ⟨0x33, 3, 5, 65528⟩, by decide +kernel⟩

theorem witness_ShuttleLocalStore_5 : ∃ (s : State) (k : Nat) (rd : Nat) (rs : Nat) (imm : Nat) (i : Ins), fetched s k = some i ∧ i.op = 0x30 ∧ i.rd = rd ∧ i.rs = rs ∧ i.imm = imm ∧ patched s 0x30 = false ∧ (operandAddr (shtOf s k) rs imm % 8 ≠ 0 ∨ 0x7C00 < operandAddr (shtOf s k) rs imm + 8) :=
  ⟨running 0x30 3 5 1 [(3, 0xFEDCBA9876543210#64), (5, 0x3008#64)], 0, 3, 5, 1, ⟨0x30, 3, 5, 1⟩, by decide +kernel⟩

theorem witness_ShuttleLocalStore_6 : ∃ (s : State) (k : Nat) (rd : Nat) (rs : Nat) (imm : Nat) (i : Ins), fetched s k = some i ∧ i.op = 0x32 ∧ i.rd = rd ∧ i.rs = rs ∧ i.imm = imm ∧ patched s 0x32 = false ∧ (operandAddr (shtOf s k) rs imm % 4 ≠ 0 ∨ 0x7C00 < operandAddr (shtOf s k) rs imm + 4) :=
  ⟨running 0x32 3 5 1 [(3, 0xFEDCBA9876543210#64), (5, 0x3008#64)], 0, 3, 5, 1, ⟨0x32, 3, 5, 1⟩, by decide +kernel⟩

theorem witness_ShuttleLocalStore_7 : ∃ (s : State) (k : Nat) (rd : Nat) (rs : Nat) (imm : Nat) (i : Ins), fetched s k = some i ∧ i.op = 0x31 ∧ i.rd = rd ∧ i.rs = rs ∧ i.imm = imm ∧ patched s 0x31 = false ∧ (operandAddr (shtOf s k) rs imm % 8 ≠ 0 ∨ operandAddr (shtOf s k) rs imm < fld s F.SHT_CODE_TOP_TOP ∨ 0x7C00 < operandAddr (shtOf s k) rs imm + 8) :=
  ⟨running 0x31 3 5 1 [(3, 0xFEDCBA9876543210#64), (5, 0x3008#64)], 0, 3, 5, 1, ⟨0x31, 3, 5, 1⟩, by decide +kernel⟩

theorem witness_ShuttleLocalStore_8 : ∃ (s : State) (k : Nat) (rd : Nat) (rs : Nat) (imm : Nat) (i : Ins), fetched s k = some i ∧ i.op = 0x33 ∧ i.rd = rd ∧ i.rs = rs ∧ i.imm = imm ∧ patched s 0x33 = false ∧ (operandAddr (shtOf s k) rs imm % 4 ≠ 0 ∨ operandAddr (shtOf s k) rs imm < fld s F.SHT_CODE_TOP_TOP ∨ 0x7C00 < operandAddr (shtOf s k) rs imm + 4) :=
  ⟨running 0x33 3 5 1 [(3, 0xFEDCBA9876543210#64), (5, 0x3008#64)], 0, 3, 5, 1, ⟨0x33, 3, 5, 1⟩, by decide +kernel⟩

/-- States and operands that meet the hypotheses of `ShuttleFabric`, clause by clause. -/
theorem witness_ShuttleFabric_1 : ∃ (s : State) (k : Nat) (rd : Nat) (rs : Nat) (imm : Nat) (i : Ins), fetched s k = some i ∧ i.op = 0x50 ∧ i.rd = rd ∧ i.rs = rs ∧ i.imm = imm ∧ patched s 0x50 = false ∧ (shtOf (busLoad s (16 + k) (operandAddr (shtOf s k) rs imm) 8) k).st = .run ∧ (busLoad s (16 + k) (operandAddr (shtOf s k) rs imm) 8).bus.err = false :=
  ⟨running 0x50 3 5 8 [(5, 0x100#64)], 0, 3, 5, 8, ⟨0x50, 3, 5, 8⟩, by decide +kernel⟩

theorem witness_ShuttleFabric_2 : ∃ (s : State) (k : Nat) (rd : Nat) (rs : Nat) (imm : Nat) (i : Ins), fetched s k = some i ∧ i.op = 0x50 ∧ i.rd = rd ∧ i.rs = rs ∧ i.imm = imm ∧ patched s 0x50 = false ∧ (shtOf (busLoad s (16 + k) (operandAddr (shtOf s k) rs imm) 8) k).st = .run ∧ (busLoad s (16 + k) (operandAddr (shtOf s k) rs imm) 8).bus.err = true :=
  ⟨running 0x50 3 5 8 [(5, 0x20000000#64)], 0, 3, 5, 8, ⟨0x50, 3, 5, 8⟩, by decide +kernel⟩

theorem witness_ShuttleFabric_3 : ∃ (s : State) (k : Nat) (rd : Nat) (rs : Nat) (imm : Nat) (i : Ins), fetched s k = some i ∧ i.op = 0x52 ∧ i.rd = rd ∧ i.rs = rs ∧ i.imm = imm ∧ patched s 0x52 = false ∧ (shtOf (busLoad s (16 + k) (operandAddr (shtOf s k) rs imm) 4) k).st = .run ∧ (busLoad s (16 + k) (operandAddr (shtOf s k) rs imm) 4).bus.err = false :=
  ⟨running 0x52 3 5 8 [(5, 0x100#64)], 0, 3, 5, 8, ⟨0x52, 3, 5, 8⟩, by decide +kernel⟩

theorem witness_ShuttleFabric_4 : ∃ (s : State) (k : Nat) (rd : Nat) (rs : Nat) (imm : Nat) (i : Ins), fetched s k = some i ∧ i.op = 0x52 ∧ i.rd = rd ∧ i.rs = rs ∧ i.imm = imm ∧ patched s 0x52 = false ∧ (shtOf (busLoad s (16 + k) (operandAddr (shtOf s k) rs imm) 4) k).st = .run ∧ (busLoad s (16 + k) (operandAddr (shtOf s k) rs imm) 4).bus.err = true :=
  ⟨running 0x52 3 5 8 [(5, 0x20000000#64)], 0, 3, 5, 8, ⟨0x52, 3, 5, 8⟩, by decide +kernel⟩

theorem witness_ShuttleFabric_5 : ∃ (s : State) (k : Nat) (rd : Nat) (rs : Nat) (imm : Nat) (i : Ins), fetched s k = some i ∧ i.op = 0x51 ∧ i.rd = rd ∧ i.rs = rs ∧ i.imm = imm ∧ patched s 0x51 = false ∧ (shtOf (busStore s (16 + k) (operandAddr (shtOf s k) rs imm) 8 (wGet (shtOf s k) rd)) k).st = .run ∧ (busStore s (16 + k) (operandAddr (shtOf s k) rs imm) 8 (wGet (shtOf s k) rd)).bus.err = false :=
  ⟨running 0x51 3 5 8 [(3, 5#64), (5, 0xE0000000#64)] (withRegs [(F.SYC_SCRATCH_COUNT, 0, 1)]), 0, 3, 5, 8, ⟨0x51, 3, 5, 8⟩, by decide +kernel⟩

theorem witness_ShuttleFabric_6 : ∃ (s : State) (k : Nat) (rd : Nat) (rs : Nat) (imm : Nat) (i : Ins), fetched s k = some i ∧ i.op = 0x51 ∧ i.rd = rd ∧ i.rs = rs ∧ i.imm = imm ∧ patched s 0x51 = false ∧ (shtOf (busStore s (16 + k) (operandAddr (shtOf s k) rs imm) 8 (wGet (shtOf s k) rd)) k).st = .run ∧ (busStore s (16 + k) (operandAddr (shtOf s k) rs imm) 8 (wGet (shtOf s k) rd)).bus.err = true :=
  ⟨running 0x51 3 5 8 [(3, 5#64), (5, 0x20000000#64)], 0, 3, 5, 8, ⟨0x51, 3, 5, 8⟩, by decide +kernel⟩

theorem witness_ShuttleFabric_7 : ∃ (s : State) (k : Nat) (rd : Nat) (rs : Nat) (imm : Nat) (i : Ins), fetched s k = some i ∧ i.op = 0x53 ∧ i.rd = rd ∧ i.rs = rs ∧ i.imm = imm ∧ patched s 0x53 = false ∧ (shtOf (busStore s (16 + k) (operandAddr (shtOf s k) rs imm) 4 (wGet (shtOf s k) rd)) k).st = .run ∧ (busStore s (16 + k) (operandAddr (shtOf s k) rs imm) 4 (wGet (shtOf s k) rd)).bus.err = false :=
  ⟨running 0x53 3 5 8 [(3, 5#64), (5, 0xE0000000#64)] (withRegs [(F.SYC_SCRATCH_COUNT, 0, 1)]), 0, 3, 5, 8, ⟨0x53, 3, 5, 8⟩, by decide +kernel⟩

theorem witness_ShuttleFabric_8 : ∃ (s : State) (k : Nat) (rd : Nat) (rs : Nat) (imm : Nat) (i : Ins), fetched s k = some i ∧ i.op = 0x53 ∧ i.rd = rd ∧ i.rs = rs ∧ i.imm = imm ∧ patched s 0x53 = false ∧ (shtOf (busStore s (16 + k) (operandAddr (shtOf s k) rs imm) 4 (wGet (shtOf s k) rd)) k).st = .run ∧ (busStore s (16 + k) (operandAddr (shtOf s k) rs imm) 4 (wGet (shtOf s k) rd)).bus.err = true :=
  ⟨running 0x53 3 5 8 [(3, 5#64), (5, 0x20000000#64)], 0, 3, 5, 8, ⟨0x53, 3, 5, 8⟩, by decide +kernel⟩

theorem witness_ShuttleFabric_9 : ∃ (s : State) (k : Nat) (rd : Nat) (rs : Nat) (imm : Nat) (i : Ins), fetched s k = some i ∧ i.op = 0x54 ∧ i.rd = rd ∧ i.rs = rs ∧ i.imm = imm ∧ patched s 0x54 = false ∧ copyOk s (wGet (shtOf s k) rs).toNat (wGet (shtOf s k) rd).toNat (imm % 1024) true = true ∧ (copyIn_ k (wGet (shtOf s k) rs).toNat (wGet (shtOf s k) rd).toNat (imm % 1024) 0 s).1 = true ∧ (shtOf (copyIn_ k (wGet (shtOf s k) rs).toNat (wGet (shtOf s k) rd).toNat (imm % 1024) 0 s).2 k).st = .run :=
  ⟨running 0x54 3 5 1 [(3, 0x3000#64), (5, 0xE0000040#64)] (withRegs [(F.SYC_SCRATCH_COUNT, 0, 1)]), 0, 3, 5, 1, ⟨0x54, 3, 5, 1⟩, by decide +kernel⟩

theorem witness_ShuttleFabric_10 : ∃ (s : State) (k : Nat) (rd : Nat) (rs : Nat) (imm : Nat) (i : Ins), fetched s k = some i ∧ i.op = 0x54 ∧ i.rd = rd ∧ i.rs = rs ∧ i.imm = imm ∧ patched s 0x54 = false ∧ copyOk s (wGet (shtOf s k) rs).toNat (wGet (shtOf s k) rd).toNat (imm % 1024) true = false :=
  ⟨running 0x54 3 5 0 [(3, 0x3000#64), (5, 0xE0000040#64)], 0, 3, 5, 0, ⟨0x54, 3, 5, 0⟩, by decide +kernel⟩

theorem witness_ShuttleFabric_11 : ∃ (s : State) (k : Nat) (rd : Nat) (rs : Nat) (imm : Nat) (i : Ins), fetched s k = some i ∧ i.op = 0x55 ∧ i.rd = rd ∧ i.rs = rs ∧ i.imm = imm ∧ patched s 0x55 = false ∧ copyOk s (wGet (shtOf s k) rs).toNat (wGet (shtOf s k) rd).toNat (imm % 1024) false = true ∧ (copyOut k (wGet (shtOf s k) rs).toNat (wGet (shtOf s k) rd).toNat (imm % 1024) 0 s).1 = true ∧ (shtOf (copyOut k (wGet (shtOf s k) rs).toNat (wGet (shtOf s k) rd).toNat (imm % 1024) 0 s).2 k).st = .run :=
  ⟨running 0x55 3 5 1 [(3, 0x3000#64), (5, 0xE0000040#64)] (withRegs [(F.SYC_SCRATCH_COUNT, 0, 1)]), 0, 3, 5, 1, ⟨0x55, 3, 5, 1⟩, by decide +kernel⟩

theorem witness_ShuttleFabric_12 : ∃ (s : State) (k : Nat) (rd : Nat) (rs : Nat) (imm : Nat) (i : Ins), fetched s k = some i ∧ i.op = 0x55 ∧ i.rd = rd ∧ i.rs = rs ∧ i.imm = imm ∧ patched s 0x55 = false ∧ copyOk s (wGet (shtOf s k) rs).toNat (wGet (shtOf s k) rd).toNat (imm % 1024) false = false :=
  ⟨running 0x55 3 5 0 [(3, 0x3000#64), (5, 0xE0000040#64)], 0, 3, 5, 0, ⟨0x55, 3, 5, 0⟩, by decide +kernel⟩

/-- States and operands that meet the hypotheses of `ShuttleUnits`, clause by clause. -/
theorem witness_ShuttleUnits_1 : ∃ (s : State) (k : Nat) (rd : Nat) (rs : Nat) (i : Ins), fetched s k = some i ∧ i.op = 0x60 ∧ i.rd = rd ∧ i.rs = rs ∧ patched s 0x60 = false ∧ getBits (wGet (shtOf s k) rs) 56 2 < s.part.acts ∧ (slotAt (pairOf s (getBits (wGet (shtOf s k) rs) 56 2)) (getBits (wGet (shtOf s k) rs) 0 2)).valid = true ∧ (slotAt (pairOf s (getBits (wGet (shtOf s k) rs) 56 2)) (getBits (wGet (shtOf s k) rs) 0 2)).seq = getBits (wGet (shtOf s k) rs) 2 16 ∧ (pairOf s (getBits (wGet (shtOf s k) rs) 56 2)).replays.length - liveReplays (pairOf s (getBits (wGet (shtOf s k) rs) 56 2)) < 4 ∧ (ctxOf s (getBits (wGet (shtOf s k) rs) 56 2) (getBits (wGet (shtOf s k) rs) 27 3)).used = true :=
  ⟨running 0x60 3 5 0 [(5, 0x0100000008000016#64)] (setPair (setDcp State.reset 1 { ctxs := [(1, { used := true })] }) 1 { slots := [(2, { valid := true, seq := 5 })] }), 0, 3, 5, ⟨0x60, 3, 5, 0⟩, by decide +kernel⟩

theorem witness_ShuttleUnits_2 : ∃ (s : State) (k : Nat) (rd : Nat) (rs : Nat) (i : Ins), fetched s k = some i ∧ i.op = 0x60 ∧ i.rd = rd ∧ i.rs = rs ∧ patched s 0x60 = false ∧ s.part.acts ≤ getBits (wGet (shtOf s k) rs) 56 2 :=
  ⟨running 0x60 3 5 0 [(5, 0x0300000008000016#64)] ({ State.reset with part := .fjd7422 }), 0, 3, 5, ⟨0x60, 3, 5, 0⟩, by decide +kernel⟩

theorem witness_ShuttleUnits_3 : ∃ (s : State) (k : Nat) (rd : Nat) (rs : Nat) (imm : Nat) (i : Ins) (w : Word) (rest : List Word), fetched s k = some i ∧ i.op = 0x61 ∧ i.rd = rd ∧ i.rs = rs ∧ i.imm = imm ∧ patched s 0x61 = false ∧ getBits (wGet (shtOf s k) rs) 0 2 < s.part.acts ∧ (dcpOf s (getBits (wGet (shtOf s k) rs) 0 2)).ring = w :: rest :=
  ⟨running 0x61 3 5 0 [(5, 1#64)] (setDcp State.reset 1 { ring := [77#64, 88#64] }), 0, 3, 5, 0, ⟨0x61, 3, 5, 0⟩, 77#64, [88#64], by decide +kernel⟩

theorem witness_ShuttleUnits_4 : ∃ (s : State) (k : Nat) (rd : Nat) (rs : Nat) (imm : Nat) (i : Ins), fetched s k = some i ∧ i.op = 0x61 ∧ i.rd = rd ∧ i.rs = rs ∧ i.imm = imm ∧ patched s 0x61 = false ∧ getBits (wGet (shtOf s k) rs) 0 2 < s.part.acts ∧ (dcpOf s (getBits (wGet (shtOf s k) rs) 0 2)).ring = [] ∧ Nat.testBit imm 0 = true :=
  ⟨running 0x61 3 5 1 [(5, 1#64)], 0, 3, 5, 1, ⟨0x61, 3, 5, 1⟩, by decide +kernel⟩

theorem witness_ShuttleUnits_5 : ∃ (s : State) (k : Nat) (rs : Nat) (imm : Nat) (i : Ins), fetched s k = some i ∧ i.op = 0x70 ∧ i.rs = rs ∧ i.imm = imm ∧ patched s 0x70 = false ∧ coreProducer s (imm % 32) = false ∧ spoolFull s (imm % 32) (16 + k) = false ∧ (spoolOf s (imm % 32)).dropping = false :=
  ⟨running 0x70 0 5 35 [(5, 99#64)], 0, 5, 35, ⟨0x70, 0, 5, 35⟩, by decide +kernel⟩

theorem witness_ShuttleUnits_6 : ∃ (s : State) (k : Nat) (rs : Nat) (imm : Nat) (i : Ins), fetched s k = some i ∧ i.op = 0x70 ∧ i.rs = rs ∧ i.imm = imm ∧ patched s 0x70 = false ∧ coreProducer s (imm % 32) = false ∧ spoolFull s (imm % 32) (16 + k) = true ∧ Nat.testBit imm 6 = false :=
  ⟨running 0x70 0 5 35 [(5, 99#64)] (setSpool State.reset 3 { closing := true }), 0, 5, 35, ⟨0x70, 0, 5, 35⟩, by decide +kernel⟩

theorem witness_ShuttleUnits_7 : ∃ (s : State) (k : Nat) (rd : Nat) (imm : Nat) (i : Ins) (w : Word) (last : Bool) (poison : Bool) (rest : List (Word × Bool × Bool)), fetched s k = some i ∧ i.op = 0x71 ∧ i.rd = rd ∧ i.imm = imm ∧ patched s 0x71 = false ∧ coreConsumer s (imm % 32) = false ∧ (spoolOf s (imm % 32)).words = (w, (last, poison)) :: rest :=
  ⟨running 0x71 3 0 3 [] (setSpool State.reset 3 { words := [(77#64, (true, false)), (5#64, (false, false))] }), 0, 3, 3, ⟨0x71, 3, 0, 3⟩, 77#64, true, false, [(5#64, (false, false))], by decide +kernel⟩

theorem witness_ShuttleUnits_8 : ∃ (s : State) (k : Nat) (rd : Nat) (imm : Nat) (i : Ins), fetched s k = some i ∧ i.op = 0x71 ∧ i.rd = rd ∧ i.imm = imm ∧ patched s 0x71 = false ∧ coreConsumer s (imm % 32) = false ∧ (spoolOf s (imm % 32)).words = [] ∧ Nat.testBit imm 6 = false :=
  ⟨running 0x71 3 0 3 [], 0, 3, 3, ⟨0x71, 3, 0, 3⟩, by decide +kernel⟩

theorem witness_ShuttleUnits_9 : ∃ (s : State) (k : Nat) (imm : Nat) (i : Ins) (rest : List (Word × Bool × Bool)), fetched s k = some i ∧ i.op = 0x72 ∧ i.imm = imm ∧ patched s 0x72 = false ∧ coreConsumer s (imm % 32) = false ∧ (spoolOf s (imm % 32)).atEnd = false ∧ (spoolOf s (imm % 32)).dropping = false ∧ afterLast (spoolOf s (imm % 32)).words = some rest :=
  ⟨running 0x72 0 0 3 [] (setSpool State.reset 3 { atEnd := false, words := [(77#64, (false, false)), (5#64, (true, false)), (6#64, (false, false))] }), 0, 3, ⟨0x72, 0, 0, 3⟩, [(6#64, (false, false))], by decide +kernel⟩

theorem witness_ShuttleUnits_10 : ∃ (s : State) (k : Nat) (rd : Nat) (rs : Nat) (i : Ins) (n : Nat), fetched s k = some i ∧ i.op = 0x80 ∧ i.rd = rd ∧ i.rs = rs ∧ patched s 0x80 = false ∧ byHandle s (getBits (wGet (shtOf s k) rs) 0 53) = some n :=
  ⟨running 0x80 3 5 0 [(5, 0x8000000000014004#64)] (setGlySlot State.reset 4 { st := .dispatched, asn := 10 }), 0, 3, 5, ⟨0x80, 3, 5, 0⟩, 4, by decide +kernel⟩

theorem witness_ShuttleUnits_11 : ∃ (s : State) (k : Nat) (rd : Nat) (rs : Nat) (i : Ins), fetched s k = some i ∧ i.op = 0x80 ∧ i.rd = rd ∧ i.rs = rs ∧ patched s 0x80 = false ∧ byHandle s (getBits (wGet (shtOf s k) rs) 0 53) = none :=
  ⟨running 0x80 3 5 0 [(5, 0x8000000000014004#64)], 0, 3, 5, ⟨0x80, 3, 5, 0⟩, by decide +kernel⟩

theorem witness_ShuttleUnits_12 : ∃ (s : State) (k : Nat) (rd : Nat) (rs : Nat) (i : Ins) (n : Nat), fetched s k = some i ∧ i.op = 0x81 ∧ i.rd = rd ∧ i.rs = rs ∧ patched s 0x81 = false ∧ glyFrozen s = false ∧ byHandle s (getBits (wGet (shtOf s k) rs) 0 53) = some n ∧ (glySlot s n).outcome = none ∧ (glySlot s n).descFail = none ∧ (glySlot s n).holds ≠ 0 ∧ okStatus (wGet (shtOf s k) rd) = true :=
  ⟨running 0x81 3 5 0 [(3, 0x500#64), (5, 0x8000000000014004#64)] (setGlySlot State.reset 4 { st := .dispatched, asn := 10, holds := 2 }), 0, 3, 5, ⟨0x81, 3, 5, 0⟩, 4, by decide +kernel⟩

theorem witness_ShuttleUnits_13 : ∃ (s : State) (k : Nat) (rd : Nat) (rs : Nat) (i : Ins), fetched s k = some i ∧ i.op = 0x81 ∧ i.rd = rd ∧ i.rs = rs ∧ patched s 0x81 = false ∧ glyFrozen s = true :=
  ⟨running 0x81 3 5 0 [(3, 0x500#64), (5, 0x8000000000014004#64)] (withRegs [(F.FCL_STAT_SAFE, 0, 1)]), 0, 3, 5, ⟨0x81, 3, 5, 0⟩, by decide +kernel⟩

theorem witness_ShuttleUnits_14 : ∃ (s : State) (k : Nat) (rs : Nat) (imm : Nat) (i : Ins) (n : Nat), fetched s k = some i ∧ i.op = 0x82 ∧ i.rs = rs ∧ i.imm = imm ∧ patched s 0x82 = false ∧ glyFrozen s = false ∧ Nat.testBit imm 0 = true ∧ byHandle s (getBits (wGet (shtOf s k) rs) 0 53) = some n ∧ (glySlot s n).holds < 15 :=
  ⟨running 0x82 0 5 1 [(5, 0x8000000000014004#64)] (setGlySlot State.reset 4 { st := .dispatched, asn := 10, holds := 14 }), 0, 5, 1, ⟨0x82, 0, 5, 1⟩, 4, by decide +kernel⟩

theorem witness_ShuttleUnits_15 : ∃ (s : State) (k : Nat) (rs : Nat) (imm : Nat) (i : Ins) (n : Nat), fetched s k = some i ∧ i.op = 0x82 ∧ i.rs = rs ∧ i.imm = imm ∧ patched s 0x82 = false ∧ glyFrozen s = false ∧ Nat.testBit imm 0 = true ∧ byHandle s (getBits (wGet (shtOf s k) rs) 0 53) = some n ∧ 15 ≤ (glySlot s n).holds :=
  ⟨running 0x82 0 5 1 [(5, 0x8000000000014004#64)] (setGlySlot State.reset 4 { st := .dispatched, asn := 10, holds := 15 }), 0, 5, 1, ⟨0x82, 0, 5, 1⟩, 4, by decide +kernel⟩

/-- States and operands that meet the hypotheses of `ShuttleTasks`, clause by clause. -/
theorem witness_ShuttleTasks_1 : ∃ (s : State) (k : Nat) (rd : Nat) (rs : Nat) (imm : Nat) (i : Ins), fetched s k = some i ∧ i.op = 0x90 ∧ i.rd = rd ∧ i.rs = rs ∧ i.imm = imm ∧ patched s 0x90 = false ∧ (eventOf (shtOf s k) i).kind < 7 ∧ eventRefused s k (eventOf (shtOf s k) i) = none ∧ eventTrue s k .running (eventOf (shtOf s k) i) = true :=
  ⟨running 0x90 3 5 24576 [], 0, 3, 5, 24576, ⟨0x90, 3, 5, 24576⟩, by decide +kernel⟩

theorem witness_ShuttleTasks_2 : ∃ (s : State) (k : Nat) (rd : Nat) (rs : Nat) (imm : Nat) (i : Ins), fetched s k = some i ∧ i.op = 0x90 ∧ i.rd = rd ∧ i.rs = rs ∧ i.imm = imm ∧ patched s 0x90 = false ∧ (eventOf (shtOf s k) i).kind < 7 ∧ eventRefused s k (eventOf (shtOf s k) i) = none ∧ eventTrue s k .running (eventOf (shtOf s k) i) = false :=
  ⟨running 0x90 3 5 4099 [(5, 50#64)], 0, 3, 5, 4099, ⟨0x90, 3, 5, 4099⟩, by decide +kernel⟩

theorem witness_ShuttleTasks_3 : ∃ (s : State) (k : Nat) (rd : Nat) (rs : Nat) (imm : Nat) (i : Ins), fetched s k = some i ∧ i.op = 0x90 ∧ i.rd = rd ∧ i.rs = rs ∧ i.imm = imm ∧ patched s 0x90 = false ∧ (eventOf (shtOf s k) i).kind = 0 ∧ tagOwned (shtOf s k) ((eventOf (shtOf s k) i).sel % 8) .running = false :=
  ⟨running 0x90 3 5 3 [(5, 50#64)], 0, 3, 5, 3, ⟨0x90, 3, 5, 3⟩, by decide +kernel⟩

theorem witness_ShuttleTasks_4 : ∃ (s : State) (k : Nat) (rs : Nat) (imm : Nat) (i : Ins), fetched s k = some i ∧ i.op = 0xA0 ∧ i.rs = rs ∧ i.imm = imm ∧ patched s 0xA0 = false ∧ bit (wGet (shtOf s k) rs) 63 = true ∧ enginePresent s (if Nat.testBit imm 6 then imm % 64 else 16 + k) = true ∧ (dequeOf s (if Nat.testBit imm 6 then imm % 64 else 16 + k)).length < 64 :=
  ⟨running 0xA0 0 5 64 [(5, 0x8000000000000100#64)], 0, 5, 64, ⟨0xA0, 0, 5, 64⟩, by decide +kernel⟩

theorem witness_ShuttleTasks_5 : ∃ (s : State) (k : Nat) (rs : Nat) (imm : Nat) (i : Ins), fetched s k = some i ∧ i.op = 0xA0 ∧ i.rs = rs ∧ i.imm = imm ∧ patched s 0xA0 = false ∧ bit (wGet (shtOf s k) rs) 63 = false :=
  ⟨running 0xA0 0 5 64 [(5, 0x100#64)], 0, 5, 64, ⟨0xA0, 0, 5, 64⟩, by decide +kernel⟩

theorem witness_ShuttleTasks_6 : ∃ (s : State) (k : Nat) (rd : Nat) (rs : Nat) (imm : Nat) (i : Ins) (f : Nat), fetched s k = some i ∧ i.op = 0xA1 ∧ i.rd = rd ∧ i.rs = rs ∧ i.imm = imm ∧ patched s 0xA1 = false ∧ ((eventOf (shtOf s k) i).kind < 7 ∨ (eventOf (shtOf s k) i).kind = 15) ∧ eventRefused s k (eventOf (shtOf s k) i) = none ∧ firstFree (frameUsed (shtOf s k)) 4 = some f :=
  ⟨running 0xA1 3 5 61440 [(5, 0x100#64)], 0, 3, 5, 61440, ⟨0xA1, 3, 5, 61440⟩, 0, by decide +kernel⟩

theorem witness_ShuttleTasks_7 : ∃ (s : State) (k : Nat) (rd : Nat) (rs : Nat) (imm : Nat) (i : Ins), fetched s k = some i ∧ i.op = 0xA1 ∧ i.rd = rd ∧ i.rs = rs ∧ i.imm = imm ∧ patched s 0xA1 = false ∧ ((eventOf (shtOf s k) i).kind < 7 ∨ (eventOf (shtOf s k) i).kind = 15) ∧ eventRefused s k (eventOf (shtOf s k) i) = none ∧ firstFree (frameUsed (shtOf s k)) 4 = none :=
  ⟨modSht (running 0xA1 3 5 61440 []) 0 (fun h => { h with frames := [{ f := 0 }, { f := 1 }, { f := 2 }, { f := 3 }] }), 0, 3, 5, 61440, ⟨0xA1, 3, 5, 61440⟩, by decide +kernel⟩

theorem witness_ShuttleTasks_8 : ∃ (s : State) (k : Nat) (rd : Nat) (rs : Nat) (imm : Nat) (i : Ins), fetched s k = some i ∧ i.op = 0xA2 ∧ i.rd = rd ∧ i.rs = rs ∧ i.imm = imm ∧ patched s 0xA2 = false ∧ 16 + k ∈ members s (imm % 16) :=
  ⟨running 0xA2 3 5 3 [(5, 9#64)] (withRegs [(F.LOOM_BAR_CFG_MEMBERS, 3, 0x30000)]), 0, 3, 5, 3, ⟨0xA2, 3, 5, 3⟩, by decide +kernel⟩

theorem witness_ShuttleTasks_9 : ∃ (s : State) (k : Nat) (rd : Nat) (rs : Nat) (imm : Nat) (i : Ins), fetched s k = some i ∧ i.op = 0xA2 ∧ i.rd = rd ∧ i.rs = rs ∧ i.imm = imm ∧ patched s 0xA2 = false ∧ 16 + k ∉ members s (imm % 16) :=
  ⟨running 0xA2 3 5 3 [(5, 9#64)], 0, 3, 5, 3, ⟨0xA2, 3, 5, 3⟩, by decide +kernel⟩

/-- States and operands that meet the hypotheses of `MediaOperations`, clause by clause. -/
theorem witness_MediaOperations_1 : ∃ (s : State) (k : Nat) (rd : Nat) (imm : Nat) (i : Ins), fetched s k = some i ∧ i.op = 0x40 ∧ i.rd = rd ∧ i.imm = imm ∧ patched s 0x40 = false ∧ imm < 2 ^ 15 ∧ imm % 64 = 0 ∧ fld s F.SHT_CODE_TOP_TOP ≤ imm ∧ imm + 64 ≤ 0x7C00 ∧ mediaCheck s .seek (descAt (shtOf s k) imm) = 0 ∧ (descAt (shtOf s k) imm).head = selHead s (descAt (shtOf s k) imm).act :=
  ⟨media 0x40 3 0x3000 [0x500101#64, 0#64, 0#64, 0#64, 0#64, 0#64] onTrackState, 0, 3, 0x3000, ⟨0x40, 3, 0, 0x3000⟩, by decide +kernel⟩

theorem witness_MediaOperations_2 : ∃ (s : State) (k : Nat) (rd : Nat) (imm : Nat) (i : Ins) (tag : Nat), fetched s k = some i ∧ i.op = 0x40 ∧ i.rd = rd ∧ i.imm = imm ∧ patched s 0x40 = false ∧ 2 ^ 15 ≤ imm ∧ imm < 2 ^ 16 ∧ imm % 64 = 0 ∧ fld s F.SHT_CODE_TOP_TOP ≤ imm % 2 ^ 15 ∧ imm % 2 ^ 15 + 64 ≤ 0x7C00 ∧ mediaCheck s .seek (descAt (shtOf s k) (imm % 2 ^ 15)) = 0 ∧ (descAt (shtOf s k) (imm % 2 ^ 15)).head = selHead s (descAt (shtOf s k) (imm % 2 ^ 15)).act ∧ freeTag (shtOf s k) = some tag :=
  ⟨media 0x40 3 0xB000 [0x500101#64, 0#64, 0#64, 0#64, 0#64, 0#64] onTrackState, 0, 3, 0xB000, ⟨0x40, 3, 0, 0xB000⟩, 0, by decide +kernel⟩

theorem witness_MediaOperations_3 : ∃ (s : State) (k : Nat) (rd : Nat) (imm : Nat) (i : Ins) (c : Nat), fetched s k = some i ∧ i.op = 0x41 ∧ i.rd = rd ∧ i.imm = imm ∧ patched s 0x41 = false ∧ imm < 2 ^ 15 ∧ imm % 64 = 0 ∧ fld s F.SHT_CODE_TOP_TOP ≤ imm ∧ imm + 64 ≤ 0x7C00 ∧ mediaCheck s .rdrun (descAt (shtOf s k) imm) = 0 ∧ firstFree (fun j => (ctxOf s (descAt (shtOf s k) imm).act j).used) 8 = some c ∧ rdrunStatus s (descAt (shtOf s k) imm).act = 0 :=
  ⟨media 0x41 3 0x3000 [0x500102#64, 0x30002#64, 777#64, 0x1000000#64, 4104#64, 0#64] onTrackState, 0, 3, 0x3000, ⟨0x41, 3, 0, 0x3000⟩, 0, by decide +kernel⟩

theorem witness_MediaOperations_4 : ∃ (s : State) (k : Nat) (rd : Nat) (imm : Nat) (i : Ins) (c : Nat), fetched s k = some i ∧ i.op = 0x43 ∧ i.rd = rd ∧ i.imm = imm ∧ patched s 0x43 = false ∧ imm < 2 ^ 15 ∧ imm % 64 = 0 ∧ fld s F.SHT_CODE_TOP_TOP ≤ imm ∧ imm + 64 ≤ 0x7C00 ∧ mediaCheck s .verify (descAt (shtOf s k) imm) = 0 ∧ firstFree (fun j => (ctxOf s (descAt (shtOf s k) imm).act j).used) 8 = some c ∧ rdrunStatus s (descAt (shtOf s k) imm).act = 0 :=
  ⟨media 0x43 3 0x3000 [0x500104#64, 0x30002#64, 777#64, 0x1000000#64, 4104#64, 0#64] onTrackState, 0, 3, 0x3000, ⟨0x43, 3, 0, 0x3000⟩, 0, by decide +kernel⟩

theorem witness_MediaOperations_5 : ∃ (s : State) (k : Nat) (rd : Nat) (imm : Nat) (i : Ins), fetched s k = some i ∧ i.op = 0x42 ∧ i.rd = rd ∧ i.imm = imm ∧ patched s 0x42 = false ∧ imm < 2 ^ 15 ∧ imm % 64 = 0 ∧ fld s F.SHT_CODE_TOP_TOP ≤ imm ∧ imm + 64 ≤ 0x7C00 ∧ mediaCheck s .wrrun (descAt (shtOf s k) imm) = 0 ∧ wrrunStatus s (descAt (shtOf s k) imm).act (descAt (shtOf s k) imm).track (descAt (shtOf s k) imm).first (descAt (shtOf s k) imm).count = 0 :=
  ⟨media 0x42 3 0x3000 [0x500103#64, 0x30002#64, 777#64, 0x1000000#64, 4104#64, 0#64] onTrackState, 0, 3, 0x3000, ⟨0x42, 3, 0, 0x3000⟩, by decide +kernel⟩

theorem witness_MediaOperations_6 : ∃ (s : State) (k : Nat) (rd : Nat) (imm : Nat) (i : Ins) (e : Nat), fetched s k = some i ∧ i.op = 0x40 ∧ i.rd = rd ∧ i.imm = imm ∧ patched s 0x40 = false ∧ imm < 2 ^ 15 ∧ imm % 64 = 0 ∧ fld s F.SHT_CODE_TOP_TOP ≤ imm ∧ imm + 64 ≤ 0x7C00 ∧ mediaCheck s .seek (descAt (shtOf s k) imm) = e ∧ e ≠ 0 ∧ e < 256 :=
  ⟨media 0x40 3 0x3000 [0#64] State.reset, 0, 3, 0x3000, ⟨0x40, 3, 0, 0x3000⟩, 0x80, by decide +kernel⟩

theorem witness_MediaOperations_7 : ∃ (s : State) (k : Nat) (rd : Nat) (imm : Nat) (i : Ins) (e : Nat), fetched s k = some i ∧ i.op = 0x41 ∧ i.rd = rd ∧ i.imm = imm ∧ patched s 0x41 = false ∧ imm < 2 ^ 15 ∧ imm % 64 = 0 ∧ fld s F.SHT_CODE_TOP_TOP ≤ imm ∧ imm + 64 ≤ 0x7C00 ∧ mediaCheck s .rdrun (descAt (shtOf s k) imm) = e ∧ e ≠ 0 ∧ e < 256 :=
  ⟨media 0x41 3 0x3000 [0#64] State.reset, 0, 3, 0x3000, ⟨0x41, 3, 0, 0x3000⟩, 0x80, by decide +kernel⟩

theorem witness_MediaOperations_8 : ∃ (s : State) (k : Nat) (rd : Nat) (imm : Nat) (i : Ins) (e : Nat), fetched s k = some i ∧ i.op = 0x42 ∧ i.rd = rd ∧ i.imm = imm ∧ patched s 0x42 = false ∧ imm < 2 ^ 15 ∧ imm % 64 = 0 ∧ fld s F.SHT_CODE_TOP_TOP ≤ imm ∧ imm + 64 ≤ 0x7C00 ∧ mediaCheck s .wrrun (descAt (shtOf s k) imm) = e ∧ e ≠ 0 ∧ e < 256 :=
  ⟨media 0x42 3 0x3000 [0#64] State.reset, 0, 3, 0x3000, ⟨0x42, 3, 0, 0x3000⟩, 0x80, by decide +kernel⟩

theorem witness_MediaOperations_9 : ∃ (s : State) (k : Nat) (rd : Nat) (imm : Nat) (i : Ins) (e : Nat), fetched s k = some i ∧ i.op = 0x43 ∧ i.rd = rd ∧ i.imm = imm ∧ patched s 0x43 = false ∧ imm < 2 ^ 15 ∧ imm % 64 = 0 ∧ fld s F.SHT_CODE_TOP_TOP ≤ imm ∧ imm + 64 ≤ 0x7C00 ∧ mediaCheck s .verify (descAt (shtOf s k) imm) = e ∧ e ≠ 0 ∧ e < 256 :=
  ⟨media 0x43 3 0x3000 [0#64] State.reset, 0, 3, 0x3000, ⟨0x43, 3, 0, 0x3000⟩, 0x80, by decide +kernel⟩

theorem witness_MediaOperations_10 : ∃ (s : State) (k : Nat) (tag : Nat) (st : Nat) (n : Nat) (cut : Bool) (m : MediaOp), tagOp (shtOf s k) tag = some m ∧ m.phase = .done st n cut ∧ tag < 8 :=
  ⟨modSht State.reset 0 (fun h => setTag h 2 (some { desc := 0x3000, phase := .done 0x11 3 true })), 0, 2, 0x11, 3, true, { desc := 0x3000, phase := .done 0x11 3 true }, by decide +kernel⟩

theorem witness_MediaOperations_11 : ∃ (s : State) (k : Nat) (st : Nat) (n : Nat) (cut : Bool) (m : MediaOp), tagOp (shtOf s k) 8 = some m ∧ m.phase = .done st n cut ∧ m.owner = .running ∧ (shtOf s k).st = .stall :=
  ⟨modSht State.reset 0 (fun h => setTag { h with st := .stall } 8 (some { desc := 0x3000, rd := 4, phase := .done 0x11 3 true })), 0, 0x11, 3, true, { desc := 0x3000, rd := 4, phase := .done 0x11 3 true }, by decide +kernel⟩

theorem witness_MediaOperations_12 : ∃ (s : State) (k : Nat) (rs : Nat) (i : Ins) (m : MediaOp), fetched s k = some i ∧ i.op = 0x44 ∧ i.rs = rs ∧ patched s 0x44 = false ∧ tagOp (shtOf s k) (getBits (wGet (shtOf s k) rs) 0 3) = some m ∧ m.owner = .running ∧ m.kind = .seek ∧ m.phase = .issued :=
  ⟨modSht (running 0x44 0 5 0 [(5, 2#64)]) 0 (fun h => setTag h 2 (some { act := 1 })), 0, 5, ⟨0x44, 0, 5, 0⟩, { act := 1 }, by decide +kernel⟩

theorem witness_MediaOperations_13 : ∃ (s : State) (k : Nat) (rs : Nat) (i : Ins), fetched s k = some i ∧ i.op = 0x44 ∧ i.rs = rs ∧ patched s 0x44 = false ∧ tagOp (shtOf s k) (getBits (wGet (shtOf s k) rs) 0 3) = none :=
  ⟨running 0x44 0 5 0 [(5, 2#64)], 0, 5, ⟨0x44, 0, 5, 0⟩, by decide +kernel⟩

theorem witness_MediaOperations_14 : ∃ (s : State) (k : Nat) (tag : Nat) (m : MediaOp), tagOp (shtOf s k) tag = some m ∧ m.timeout ≠ 0 ∧ m.timedOut = false ∧ m.kind = .seek ∧ m.phase = .issued :=
  ⟨modSht State.reset 0 (fun h => setTag h 2 (some { act := 1, timeout := 500 })), 0, 2, { act := 1, timeout := 500 }, by decide +kernel⟩

theorem witness_MediaOperations_15 : ∃ (s : State) (k : Nat) (tag : Nat) (c : Nat) (m : MediaOp), k < s.part.shuttles ∧ tagOp (shtOf s k) tag = some m ∧ tag < 9 ∧ m.phase = .runContext ∧ firstFree (fun j => (ctxOf s m.act j).used) 8 = some c ∧ rdrunStatus s m.act = 0 :=
  ⟨modSht onTrackState 0 (fun h => setTag h 2 (some { kind := .rdrun, act := 1, phase := .runContext })), 0, 2, 0, { kind := .rdrun, act := 1, phase := .runContext }, by decide +kernel⟩

theorem witness_MediaOperations_16 : ∃ (s : State) (k : Nat), k < s.part.shuttles ∧ (shtOf s k).st = .stall ∧ stallFree (shtOf s k) = true ∧ (insAt (shtOf s k) (shtOf s k).pc).op = 0x01 ∧ ownsTags (shtOf s k) .running = false :=
  ⟨modSht (running 0x01 0 0 0 []) 0 (fun h => { h with st := .stall }), 0, by decide +kernel⟩

/-- States and operands that meet the hypotheses of `ShuttleControl`, clause by clause. -/
theorem witness_ShuttleControl_1 : ∃ (s : State) (k : Nat), k < s.part.shuttles ∧ flag s F.SHT_S_CTL_EN k = false :=
  ⟨State.reset, 2, by decide +kernel⟩

theorem witness_ShuttleControl_2 : ∃ (s : State) (k : Nat), k < s.part.shuttles ∧ flag s F.SHT_S_CTL_EN k = true ∧ (shtOf s k).st = .run :=
  ⟨setSht (withRegs [(F.SHT_S_CTL_EN, 2, 1)]) 2 { st := .run, task := 5#64, frames := [{}] }, 2, by decide +kernel⟩

theorem witness_ShuttleControl_3 : ∃ (s : State) (k : Nat), k < s.part.shuttles ∧ flag s F.SHT_S_CTL_EN k = true :=
  ⟨setSht (withRegs [(F.SHT_S_CTL_EN, 2, 1)]) 2 { st := .trapped, task := 5#64, frames := [{}] }, 2, by decide +kernel⟩

theorem witness_ShuttleControl_4 : ∃ (s : State) (k : Nat), k < s.part.shuttles ∧ flag s F.SHT_S_CTL_EN k = true ∧ (shtOf s k).st = .trapped :=
  ⟨setSht (withRegs [(F.SHT_S_CTL_EN, 2, 1)]) 2 { st := .trapped, task := 5#64, frames := [{}] }, 2, by decide +kernel⟩

theorem witness_ShuttleControl_5 : ∃ (s : State) (k : Nat), k < s.part.shuttles :=
  ⟨setSht (withRegs [(F.SHT_S_CTL_EN, 2, 1)]) 2 { st := .trapped, task := 5#64, frames := [{}] }, 2, by decide +kernel⟩

theorem witness_ShuttleControl_6 : ∃ (s : State) (k : Nat) (w : Word), k < s.part.shuttles ∧ (shtOf s k).st = .idle ∧ (shtOf s k).frames.find? (fun x => x.ready.isSome) = none ∧ (dequeOf s (16 + k)).getLast? = some w :=
  ⟨setDeque (setSht State.reset 2 { st := .idle }) 18 [5#64, 0x8000000000050100#64], 2, 0x8000000000050100#64, by decide +kernel⟩

theorem witness_ShuttleControl_7 : ∃ (s : State) (k : Nat) (w : Word) (rest : List Word), k < s.part.shuttles ∧ (shtOf s k).st = .idle ∧ (shtOf s k).frames.find? (fun x => x.ready.isSome) = none ∧ dequeOf s (16 + k) = [] ∧ s.loom.inject = w :: rest :=
  ⟨{ setSht State.reset 2 { st := .idle } with loom := { inject := [7#64, 8#64] } }, 2, 7#64, [8#64], by decide +kernel⟩

theorem witness_ShuttleControl_8 : ∃ (s : State) (k : Nat) (x : Frame), k < s.part.shuttles ∧ (shtOf s k).st = .idle ∧ (shtOf s k).frames.find? (fun y => y.ready.isSome) = some x ∧ x.ready = some 0 :=
  ⟨setSht State.reset 2 { st := .idle, frames := [{ f := 1, ready := some 0, task := 5#64, rd := 4 }] }, 2, { f := 1, ready := some 0, task := 5#64, rd := 4 }, by decide +kernel⟩

theorem witness_ShuttleControl_9 : ∃ (s : State) (k : Nat), k < s.part.shuttles ∧ (shtOf s k).st = .run ∧ fetchOk s (shtOf s k).pc = false :=
  ⟨setSht State.reset 2 { st := .run, pc := 0x7FFE, task := 5#64 }, 2, by decide +kernel⟩

theorem witness_ShuttleControl_10 : ∃ (s : State) (k : Nat), k < s.part.shuttles ∧ fld s F.SHT_TASK_TMO_US ≠ 0 ∧ ((shtOf s k).st = .run ∨ (shtOf s k).st = .stall ∨ (shtOf s k).st = .wait) :=
  ⟨setSht (withRegs [(F.SHT_TASK_TMO_US, 0, 100)]) 2 { st := .stall, task := 5#64 }, 2, by decide +kernel⟩

theorem witness_ShuttleControl_11 : ∃ (s : State) (k : Nat) (rd : Nat) (e : Event), (shtOf s k).st = .wait ∧ (shtOf s k).waiting = some (e, rd) ∧ eventTrue s k .running e = true :=
  ⟨setSht State.reset 2 { st := .wait, waiting := some ({ kind := 6 }, 4) }, 2, 4, { kind := 6 }, by decide +kernel⟩

theorem witness_ShuttleControl_12 : ∃ (s : State) (k : Nat) (rd : Nat) (r : Nat) (e : Event), (shtOf s k).st = .wait ∧ (shtOf s k).waiting = some (e, rd) ∧ eventTrue s k .running e = false ∧ timeoutResult e = some r :=
  ⟨setSht State.reset 2 { st := .wait, waiting := some ({ kind := 1, sel := 3, timeout := 50 }, 4) }, 2, 4, 0x8F, { kind := 1, sel := 3, timeout := 50 }, by decide +kernel⟩

theorem witness_ShuttleControl_13 : ∃ (s : State) (k : Nat) (f : Nat) (x : Frame), (shtOf s k).frames = [x] ∧ x.f = f ∧ x.ready = none ∧ eventTrue s k (.frame f) (frameEvent (shtOf s k) f) = true :=
  ⟨setSht State.reset 2 { st := .idle, frames := [{ f := 0 }] }, 2, 0, { f := 0 }, by decide +kernel⟩

theorem witness_ShuttleControl_14 : ∃ (s : State) (v : Word), (loadTargets s).any (fun k => flag s F.SHT_S_CTL_EN k) = false ∧ 1 ≤ getBits v 40 9 ∧ getBits v 40 9 * 64 ≤ fld s F.SHT_CODE_TOP_TOP ∧ s.codeLoad = none :=
  ⟨withRegs [(F.SHT_LOAD_MASK_MASK, 0, 5)], 0x40000001000#64, by decide +kernel⟩

theorem witness_ShuttleControl_15 : ∃ (s : State), (loadTargets s).any (fun k => flag s F.SHT_S_CTL_EN k) = true :=
  ⟨withRegs [(F.SHT_LOAD_MASK_MASK, 0, 5), (F.SHT_S_CTL_EN, 2, 1)], by decide +kernel⟩

theorem witness_ShuttleControl_16 : ∃ (s : State) (c : CodeLoad), s.codeLoad = some c ∧ (copyCode c c.lines 0 s).1 = true :=
  ⟨{ withRegs [(F.SHT_LOAD_STAT_BUSY, 0, 1)] with codeLoad := some { src := 64, lines := 1, mask := 4 } }, { src := 64, lines := 1, mask := 4 }, by decide +kernel⟩

theorem witness_ShuttleControl_17 : ∃ (s : State) (k : Nat), fld s F.SHT_LS_PORT_ADDR_SHUTTLE = k ∧ k < s.part.shuttles ∧ flag s F.SHT_LS_PORT_ADDR_BCAST = false ∧ flag s F.SHT_S_CTL_EN k = false :=
  ⟨withRegs [(F.SHT_LS_PORT_ADDR_SHUTTLE, 0, 2), (F.SHT_LS_PORT_ADDR_ADDR, 0, 0x7FFC), (F.SHT_LS_PORT_ADDR_AUTOINC, 0, 1)], 2, by decide +kernel⟩

theorem witness_ShuttleControl_18 : ∃ (s : State) (k : Nat), fld s F.SHT_LS_PORT_ADDR_SHUTTLE = k ∧ k < s.part.shuttles :=
  ⟨withRegs [(F.SHT_LS_PORT_ADDR_SHUTTLE, 0, 2), (F.SHT_LS_PORT_ADDR_ADDR, 0, 0x7FFC), (F.SHT_LS_PORT_ADDR_AUTOINC, 0, 1)], 2, by decide +kernel⟩

theorem witness_ShuttleControl_19 : ∃ (s : State) (v : Word) (p : PatchBlob), bit v 0 = true ∧ (List.range s.part.shuttles).any (fun k => flag s F.SHT_S_CTL_EN k) = false ∧ p.romId = fld s F.SHT_ROM_ID_ID ∧ p.matches_.length ≤ 32 ∧ p.micro.length ≤ 1024 ∧ p.nano.length ≤ 512 :=
  ⟨State.reset, 1#64, { romId := fld State.reset F.SHT_ROM_ID_ID, version := 7, micro := [1, 2], nano := [3], matches_ := [(5, 6)] }, by decide +kernel, by decide +kernel, rfl, by decide +kernel⟩

theorem witness_ShuttleControl_20 : ∃ (s : State) (v : Word), bit v 0 = true ∧ (List.range s.part.shuttles).any (fun k => flag s F.SHT_S_CTL_EN k) = false :=
  ⟨State.reset, 1#64, by decide +kernel⟩

/-- States and operands that meet the hypotheses of `LoomDequesAndBarriers`, clause by clause. -/
theorem witness_LoomDequesAndBarriers_1 : ∃ (s : State) (w : Word), bit w 63 = true ∧ s.loom.inject.length < 256 :=
  ⟨State.reset, 0x8000000000000100#64, by decide +kernel⟩

theorem witness_LoomDequesAndBarriers_2 : ∃ (w : Word), bit w 63 = false :=
  ⟨0x100#64, by decide +kernel⟩

theorem witness_LoomDequesAndBarriers_3 : ∃ (s : State) (e : Nat) (w : Word), enginePresent s e = true ∧ bit w 63 = true ∧ (dequeOf s e).length < 64 :=
  ⟨State.reset, 2, 0x8000000000000100#64, by decide +kernel⟩

theorem witness_LoomDequesAndBarriers_4 : ∃ (s : State) (e : Nat), enginePresent s e = true ∧ 64 ≤ (dequeOf s e).length :=
  ⟨setDeque State.reset 2 (List.replicate 64 1#64), 2, by decide +kernel⟩

theorem witness_LoomDequesAndBarriers_5 : ∃ (s : State) (e : Nat) (w : Word), enginePresent s e = true ∧ (dequeOf s e).getLast? = some w :=
  ⟨setDeque State.reset 2 [5#64, 6#64], 2, 6#64, by decide +kernel⟩

theorem witness_LoomDequesAndBarriers_6 : ∃ (s : State) (c : Nat) (e : Nat), enginePresent s e = true ∧ dequeOf s e = [] ∧ (c ≠ e ∨ flag s F.LOOM_CTL_STEAL_CORE = false) :=
  ⟨State.reset, 1, 2, by decide +kernel⟩

theorem witness_LoomDequesAndBarriers_8 : ∃ (s : State) (c : Nat) (b : Nat), b < 16 ∧ c < 16 ∧ c ∈ members s b :=
  ⟨withRegs [(F.LOOM_BAR_CFG_MEMBERS, 3, 6)], 1, 3, by decide +kernel⟩

theorem witness_LoomDequesAndBarriers_9 : ∃ (s : State) (b : Nat) (k : Nat) (rd : Nat), b < 16 ∧ barrierFull s b = true ∧ k < s.part.shuttles ∧ (shtOf s k).barrier = some (b, rd) :=
  ⟨setBarrier (setSht (withRegs [(F.LOOM_BAR_CFG_MEMBERS, 3, 0x10002), (F.LOOM_BAR_CFG_OP, 3, 1)]) 0 { st := .stall, barrier := some (3, 4) }) 3 [(1, 5#64), (16, 6#64)], 3, 0, 4, by decide +kernel⟩

theorem witness_LoomDequesAndBarriers_10 : ∃ (s : State) (b : Nat) (k : Nat) (rd : Nat), b < 16 ∧ (barrierOf s b).arrived ≠ [] ∧ fld s F.LOOM_BAR_CFG_TIMEOUT b ≠ 0 ∧ barrierFull s b = false ∧ k < s.part.shuttles ∧ (shtOf s k).barrier = some (b, rd) :=
  ⟨setBarrier (setSht (withRegs [(F.LOOM_BAR_CFG_MEMBERS, 3, 0x10006), (F.LOOM_BAR_CFG_TIMEOUT, 3, 1)]) 0 { st := .stall, barrier := some (3, 4) }) 3 [(16, 6#64)], 3, 0, 4, by decide +kernel⟩

theorem witness_LoomDequesAndBarriers_11 : ∃ (s : State) (b : Nat), b < 16 ∧ (barrierOf s b).arrived = [] :=
  ⟨State.reset, 3, by decide +kernel⟩

theorem witness_LoomDequesAndBarriers_12 : ∃ (s : State) (b : Nat), b < 16 ∧ (barrierOf s b).arrived ≠ [] :=
  ⟨setBarrier State.reset 3 [(1, 5#64)], 3, by decide +kernel⟩

/-- States and operands that meet the hypotheses of `GalleyFetch`, clause by clause. -/
theorem witness_GalleyFetch_1 : ∃ (s : State) (p : Nat) (qid : Nat), isSas s = false ∧ p < hostPorts s ∧ (ctxQ s (ctlBase s p + qid)).sqEn = true :=
  ⟨setCtxQ State.reset 3 { sqEn := true }, 0, 3, by decide +kernel⟩

theorem witness_GalleyFetch_2 : ∃ (s : State) (p : Nat) (qid : Nat), isSas s = false ∧ p < hostPorts s ∧ (ctxQ s (ctlBase s p + qid)).cqEn = true :=
  ⟨setCtxQ State.reset 3 { cqEn := true }, 0, 3, by decide +kernel⟩

theorem witness_GalleyFetch_3 : ∃ (s : State) (u : State) (p : Nat) (q : Nat) (n : Nat) (level : Option Nat) (entries : List Sqe), mayFetch s = true ∧ freeSlots s ≠ 0 ∧ grant (hostPorts s) s.gly.ptr (fun j => (chooseQueue s j).isSome) = some p ∧ chooseQueue s p = some (q, level, u) ∧ n = min (2 ^ fld s F.GLY_ARB_CTL_AB p) (min (entriesIn s q) (if q = ctlBase s p then freeSlots s else freeSlots s - fld s F.GLY_CTL_ADMIN_RSV)) ∧ 0 < n ∧ fuseOf (entries.getD (n - 1) []) ≠ 1 :=
  ⟨queued 2, (pickQueue (queued 2)).2.2, 0, 0, min (2 ^ fld (queued 2) F.GLY_ARB_CTL_AB 0) 2, none, [[0x70002#64], [0x80002#64]], by decide +kernel⟩

theorem witness_GalleyFetch_4 : ∃ (s : State) (u : State) (p : Nat) (q : Nat) (level : Option Nat), mayFetch s = true ∧ freeSlots s ≠ 0 ∧ grant (hostPorts s) s.gly.ptr (fun j => (chooseQueue s j).isSome) = some p ∧ chooseQueue s p = some (q, level, u) :=
  ⟨queued 2, (pickQueue (queued 2)).2.2, 0, 0, none, by decide +kernel⟩

theorem witness_GalleyFetch_5 : ∃ (s : State) (q : Nat), mayFetch s = true ∧ q ∈ s.gly.fusedWait ∧ freeSlots s ≠ 0 :=
  ⟨{ queued 2 with gly := { (queued 2).gly with fusedWait := [0] } }, 0, by decide +kernel⟩

theorem witness_GalleyFetch_6 : ∃ (s : State) (info : CmdInfo) (slot : Nat) (f : Fetched) (rest : List Fetched), s.gly.fetched = f :: rest ∧ info.cls = .read ∧ slot < 8192 ∧ (glySlot s slot).st = .free ∧ f.sideband = false ∧ fuseOf f.cmd = 0 ∧ s.gly.pairOpen = none ∧ rangeCheck s info 1 = none ∧ glyFrozen s = false ∧ flag s F.GLY_CTL_EN = true :=
  ⟨{ queued 2 with gly := { (queued 2).gly with fetched := [{ cmd := [0x70002#64], advance := 1 }] } }, { cls := .read, nsid := 1, slba := 16, nlb := 8 }, 5, { cmd := [0x70002#64], advance := 1 }, [], by decide +kernel⟩

theorem witness_GalleyFetch_7 : ∃ (s : State) (p : Nat) (sqid : Nat) (cid : Nat) (n : Nat) (x : Slot), mayFetch s = true ∧ p < hostPorts s ∧ 0 < entriesIn s (ctlBase s p) ∧ bit (rd s .HFE_RESET_STAT 0) p = false ∧ cqFull s (ctlBase s p) = false ∧ (occupiedSlots s).find? (fun e => decide (e.2.queue = ctlBase s p + sqid ∧ e.2.cid = cid) && !e.2.sideband && decide (e.2.st ≠ .orphan)) = some (n, x) ∧ glySlot s n = x ∧ x.st.dormant = true ∧ x.zone = none ∧ ctlOf s (ctlBase s p) = p :=
  ⟨setGlySlot (queued 2) 5 { st := .waitOrder, queue := 3, cid := 9 }, 0, 3, 9, 5, { st := .waitOrder, queue := 3, cid := 9 }, by decide +kernel⟩

/-- States and operands that meet the hypotheses of `GalleyDispatch`, clause by clause. -/
theorem witness_GalleyDispatch_1 : ∃ (s : State) (slot : Nat), ((glySlot s slot).st = .accepted ∨ (glySlot s slot).st = .waitOrder) ∧ gatesOpen s slot (glySlot s slot) = true ∧ (glySlot s slot).landed = false ∧ (glySlot s slot).cls = .read ∧ (glySlot s slot).okind = 1 ∧ (glySlot s slot).nlb ≠ 0 ∧ (∀ j, j < (glySlot s slot).nlb → blockVersion s (glySlot s slot).nsid ((glySlot s slot).slba + j) (glySlot s slot).asn = none) ∧ s.gly.items = [] ∧ enginePresent s (fld s F.GLY_DISPATCH_CTL_READ) = true ∧ (dequeOf s (fld s F.GLY_DISPATCH_CTL_READ)).length < 64 :=
  ⟨setGlySlot (queued 2) 5 { st := .accepted, cls := .read, okind := 1, nlb := 8, asn := 3 }, 5, by decide +kernel⟩

theorem witness_GalleyDispatch_2 : ∃ (s : State) (slot : Nat), ((glySlot s slot).st = .accepted ∨ (glySlot s slot).st = .waitOrder) ∧ gatesOpen s slot (glySlot s slot) = false ∧ glyFrozen s = false :=
  ⟨setGlySlot (setGlySlot (queued 2) 5 { st := .accepted, cls := .read, okind := 1, nlb := 8, asn := 3 }) 6 { st := .accepted, okind := 2, nlb := 8, asn := 2 }, 5, by decide +kernel⟩

theorem witness_GalleyDispatch_3 : ∃ (s : State) (slot : Nat), ((glySlot s slot).st = .accepted ∨ (glySlot s slot).st = .waitOrder) ∧ gatesOpen s slot (glySlot s slot) = true ∧ (glySlot s slot).landed = false ∧ (glySlot s slot).cls = .write ∧ (glySlot s slot).okind = 2 :=
  ⟨setGlySlot (queued 2) 5 { st := .accepted, cls := .write, okind := 2, nlb := 8, asn := 3 }, 5, by decide +kernel⟩

theorem witness_GalleyDispatch_4 : ∃ (s : State) (i : WorkItem), s.gly.items = [i] ∧ enginePresent s i.engine = true ∧ (dequeOf s i.engine).length < 64 :=
  ⟨{ queued 2 with gly := { (queued 2).gly with items := [{ engine := 2, word := 7#64 }] } }, { engine := 2, word := 7#64 }, by decide +kernel⟩

theorem witness_GalleyDispatch_5 : ∃ (s : State) (slot : Nat) (addr : Nat), (glySlot s slot).st = .waitBudget ∧ otherSlot s slot (fun _ y => decide (y.st = .waitBudget ∧ y.asn < (glySlot s slot).asn)) = false ∧ glyFrozen s = false ∧ reserveFits s (glySlot s slot) = true ∧ spaceFree s addr (reserveUnits s (glySlot s slot)).2 = true :=
  ⟨setGlySlot (setFld (setFld (queued 2) F.GLY_WBUF_BASE_BASE 0 0x1000000000) F.GLY_WBUF_SIZE_MIB 0 64) 5 { st := .waitBudget, cls := .write, okind := 2, nlb := 8, bytes := 4096, asn := 3 }, 5, 0x1000001000, by decide +kernel⟩

theorem witness_GalleyDispatch_6 : ∃ (s : State) (slot : Nat) (data : List Byte), (glySlot s slot).moving = true ∧ (glySlot s slot).st = .dataIn ∧ glyFrozen s = false ∧ (glySlot s slot).nlb ≤ (glySlot s slot).done + (glySlot s slot).part ∧ (busWrite s portGlyChannel (glySlot s slot).addr (data.take ((glySlot s slot).part * ((glySlot s slot).bytes / max 1 (glySlot s slot).nlb)))).1 = true ∧ vwcOn (busWrite s portGlyChannel (glySlot s slot).addr (data.take ((glySlot s slot).part * ((glySlot s slot).bytes / max 1 (glySlot s slot).nlb)))).2 (glySlot s slot) = true :=
  ⟨setGlySlot (withRegs [(F.GLY_CTL_VWC_EN, 0, 3), (F.BFM_DRAM_STAT_READY, 0, 1), (F.SYC_SCRATCH_COUNT, 0, 1)]) 5 { st := .dataIn, moving := true, cls := .write, okind := 2, nlb := 1, part := 1, bytes := 64, asn := 3, addr := 0xE0000040 }, 5, List.replicate 64 7#8, by decide +kernel⟩

theorem witness_GalleyDispatch_7 : ∃ (s : State) (slot : Nat), (glySlot s slot).moving = true ∧ (glySlot s slot).st = .dataIn ∧ glyFrozen s = false ∧ (glySlot s slot).zone = none ∧ (glySlot s slot).holds = 0 ∧ (glySlot s slot).descOut = 0 :=
  ⟨setGlySlot State.reset 5 { st := .dataIn, moving := true, cls := .write, okind := 2, nlb := 1, part := 1, bytes := 64, asn := 3, addr := 0xE0000040 }, 5, by decide +kernel⟩

/-- States and operands that meet the hypotheses of `GalleyCompletion`, clause by clause. -/
theorem witness_GalleyCompletion_1 : ∃ (s : State) (slot : Nat), postReady s slot = true ∧ postTurn s slot = true ∧ (glySlot s slot).pair = none ∧ (glySlot s slot).zone = none :=
  ⟨setGlySlot (queued 2) 5 { st := .gated, cls := .read, okind := 1, nlb := 8, asn := 3, outcome := some 0#64 }, 5, by decide +kernel⟩

theorem witness_GalleyCompletion_2 : ∃ (s : State) (slot : Nat), postReady s slot = true ∧ postTurn s slot = true ∧ (glySlot s slot).pair = none ∧ (glySlot s slot).sideband = false ∧ isSas s = false :=
  ⟨setGlySlot (queued 2) 5 { st := .gated, cls := .read, okind := 1, nlb := 8, asn := 3, outcome := some 0#64 }, 5, by decide +kernel⟩

theorem witness_GalleyCompletion_3 : ∃ (s : State) (c : Nat) (n : Nat) (v : Word), c < s.part.cores ∧ byHandle s (getBits v 0 53) = some n :=
  ⟨setGlySlot State.reset 4 { st := .dispatched, asn := 10, holds := 2 }, 1, 4, 0x14004#64, by decide +kernel⟩

theorem witness_GalleyCompletion_4 : ∃ (s : State) (c : Nat) (n : Nat) (v : Word), c < s.part.cores ∧ byHandle s (getBits v 0 53) = some n ∧ glyFrozen s = false ∧ (glySlot s n).outcome = none ∧ (glySlot s n).descFail = none ∧ (glySlot s n).holds ≠ 0 ∧ okStatus (rd s .GLY_SLOT_ARG c) = true :=
  ⟨setGlySlot (wr State.reset .GLY_SLOT_ARG 1 0x500#64) 4 { st := .dispatched, asn := 10, holds := 2 }, 1, 4, 0x14004#64, by decide +kernel⟩

theorem witness_GalleyCompletion_5 : ∃ (s : State) (c : Nat) (n : Nat) (v : Word), c < s.part.cores ∧ byHandle s (getBits v 0 53) = some n ∧ glyFrozen s = false ∧ (glySlot s n).holds < 15 :=
  ⟨setGlySlot State.reset 4 { st := .dispatched, asn := 10, holds := 14 }, 1, 4, 0x14004#64, by decide +kernel⟩

theorem witness_GalleyCompletion_6 : ∃ (s : State) (c : Nat) (n : Nat) (v : Word), c < s.part.cores ∧ byHandle s (getBits v 0 53) = some n ∧ glyFrozen s = false ∧ (glySlot s n).outcome = none :=
  ⟨setGlySlot State.reset 4 { st := .dispatched, asn := 10, holds := 14 }, 1, 4, 0x14004#64, by decide +kernel⟩

/-- States and operands that meet the hypotheses of `WriteBufferIndex`, clause by clause. -/
theorem witness_WriteBufferIndex_1 : ∃ (s : State) (c : Nat) (v : Word) (x : Version), c < s.part.cores ∧ (rd s .GLY_WB_LBA c).toNat < 2 ^ 64 - 1 ∧ max 1 (min 256 (getBits v 32 9)) = 1 ∧ blockVersion s (getBits v 0 32) ((rd s .GLY_WB_LBA c).toNat) (if (rd s .GLY_WB_ASN c).toNat = 0 then fld s F.GLY_ASN_NEXT_ASN else (rd s .GLY_WB_ASN c).toNat) = some x :=
  ⟨setFld ({ wr State.reset .GLY_WB_LBA 1 77#64 with gly := { index := [{ nsid := 2, lba := 77, asn := 4, addr := 0x1000002000 }] } }) F.GLY_ASN_NEXT_ASN 0 9, 1, 0x100000002#64, { nsid := 2, lba := 77, asn := 4, addr := 0x1000002000 }, by decide +kernel⟩

theorem witness_WriteBufferIndex_2 : ∃ (s : State) (c : Nat) (v : Word), c < s.part.cores ∧ (rd s .GLY_WB_LBA c).toNat < 2 ^ 64 - 1 ∧ blockVersion s (getBits v 0 32) ((rd s .GLY_WB_LBA c).toNat) (if (rd s .GLY_WB_ASN c).toNat = 0 then fld s F.GLY_ASN_NEXT_ASN else (rd s .GLY_WB_ASN c).toNat) = none :=
  ⟨setFld ({ wr State.reset .GLY_WB_LBA 1 77#64 with gly := { index := [{ nsid := 2, lba := 77, asn := 4, addr := 0x1000002000 }] } }) F.GLY_ASN_NEXT_ASN 0 9, 1, 0x100000003#64, by decide +kernel⟩

theorem witness_WriteBufferIndex_3 : ∃ (s : State) (c : Nat) (v : Word) (x : Version), c < s.part.cores ∧ (rd s .GLY_WB_LBA c).toNat < 2 ^ 64 - 1 ∧ max 1 (min 256 (getBits v 32 9)) = 1 ∧ blockVersion s (getBits v 0 32) ((rd s .GLY_WB_LBA c).toNat) (2 ^ 64) = some x ∧ x.clean = false ∧ beginBlocked s x = false :=
  ⟨{ wr State.reset .GLY_WB_LBA 1 77#64 with gly := { index := [{ nsid := 2, lba := 77, asn := 4, addr := 0x1000002000 }] } }, 1, 0x100000002#64, { nsid := 2, lba := 77, asn := 4, addr := 0x1000002000 }, by decide +kernel⟩

theorem witness_WriteBufferIndex_4 : ∃ (s : State) (c : Nat) (v : Word), c < s.part.cores ∧ (rd s .GLY_WB_LBA c).toNat + 256 ≤ 2 ^ 64 ∧ s.gly.index.any (markedIn (getBits v 0 32) ((rd s .GLY_WB_LBA c).toNat) (max 1 (min 256 (getBits v 32 9)))) = true :=
  ⟨{ wr State.reset .GLY_WB_LBA 1 77#64 with gly := { index := [{ nsid := 2, lba := 77, asn := 4, addr := 0x1000002000, destaging := true }] } }, 1, 0x100000002#64, by decide +kernel⟩

theorem witness_WriteBufferIndex_5 : ∃ (s : State) (c : Nat) (v : Word), c < s.part.cores ∧ (rd s .GLY_WB_LBA c).toNat + 256 ≤ 2 ^ 64 ∧ s.gly.index.any (markedIn (getBits v 0 32) ((rd s .GLY_WB_LBA c).toNat) (max 1 (min 256 (getBits v 32 9)))) = true :=
  ⟨{ wr State.reset .GLY_WB_LBA 1 77#64 with gly := { index := [{ nsid := 2, lba := 77, asn := 4, addr := 0x1000002000, destaging := true }] } }, 1, 0x100000002#64, by decide +kernel⟩

theorem witness_WriteBufferIndex_6 : ∃ (s : State) (c : Nat) (v : Word), c < s.part.cores ∧ (rd s .GLY_WB_LBA c).toNat + 256 ≤ 2 ^ 64 ∧ s.gly.index.any (fun x => decide (x.nsid = getBits v 0 32 ∧ (rd s .GLY_WB_LBA c).toNat ≤ x.lba ∧ x.lba < (rd s .GLY_WB_LBA c).toNat + max 1 (min 256 (getBits v 32 9))) && !x.retired && !x.pinned) = true :=
  ⟨{ wr State.reset .GLY_WB_LBA 1 77#64 with gly := { index := [{ nsid := 2, lba := 77, asn := 4, addr := 0x1000002000 }] } }, 1, 0x100000002#64, by decide +kernel⟩

/-- States and operands that meet the hypotheses of `GalleyControlAndAborts`, clause by clause. -/
theorem witness_GalleyControlAndAborts_2 : ∃ (s : State) (n : Nat) (x : Slot), flag s F.GLY_DRAIN_GO = true ∧ glyFrozen s = false ∧ occupiedSlots s = [(n, x)] ∧ glySlot s n = x ∧ x.st = .dispatched ∧ x.okind = 1 ∧ x.outcome = none ∧ x.descFail = none ∧ x.zone = none :=
  ⟨setGlySlot (withRegs [(F.GLY_DRAIN_GO, 0, 1)]) 5 { st := .dispatched, okind := 1 }, 5, { st := .dispatched, okind := 1 }, by decide +kernel⟩

theorem witness_GalleyControlAndAborts_3 : ∃ (s : State), flag s F.GLY_DRAIN_GO = true ∧ flag s F.GLY_DRAIN_DONE = false ∧ (waitingAt s .gly).length < 4 :=
  ⟨withRegs [(F.GLY_DRAIN_GO, 0, 1)], by decide +kernel⟩

theorem witness_GalleyControlAndAborts_4 : ∃ (s : State), flag s F.GLY_CTL_EN = false :=
  ⟨State.reset, by decide +kernel⟩

theorem witness_GalleyControlAndAborts_5 : ∃ (s : State), flag s F.GLY_CTL_EN = true :=
  ⟨withRegs [(F.GLY_CTL_EN, 0, 1)], by decide +kernel⟩

theorem witness_GalleyControlAndAborts_6 : ∃ (s : State) (v : Word), getBits v 0 6 ≤ fld s F.SPN_HU_STAT_B_MAX :=
  ⟨withRegs [(F.SPN_HU_STAT_B_MAX, 0, 8)], 5#64, by decide +kernel⟩

theorem witness_GalleyControlAndAborts_7 : ∃ (s : State) (v : Word), fld s F.SPN_HU_STAT_B_MAX < getBits v 0 6 :=
  ⟨withRegs [(F.SPN_HU_STAT_B_MAX, 0, 4)], 5#64, by decide +kernel⟩

theorem witness_GalleyControlAndAborts_8 : ∃ (s : State) (port : Nat) (nexus : Nat) (tag : Nat) (slot : Nat) (info : CmdInfo), isSas s = true ∧ powerLost s = false ∧ safeState s = false ∧ ready s F.CKR_READY_HOST = true ∧ (occupiedSlots s).any (fun e => decide (e.2.queue = nexus ∧ e.2.cid = tag)) = false ∧ flag s F.GLY_CTL_EN = true ∧ flag s F.GLY_CTL_FETCH_STOP = false ∧ bit (rd s .HFE_RESET_STAT 0) port = false ∧ slot < 8192 ∧ (glySlot s slot).st = .free ∧ info.cls = .read ∧ rangeCheck s info 1 = none :=
  ⟨{ withRegs [(F.GLY_CTL_EN, 0, 1), (F.CKR_READY_HOST, 0, 1)] with part := .fjd7411s }, 0, 4, 9, 5, { cls := .read, nsid := 1, nlb := 8 }, by decide +kernel⟩

theorem witness_GalleyControlAndAborts_9 : ∃ (s : State), isSas s = true ∧ powerLost s = false ∧ safeState s = false ∧ ready s F.CKR_READY_HOST = false :=
  ⟨{ State.reset with part := .fjd7411s }, by decide +kernel⟩

theorem witness_GalleyControlAndAborts_10 : ∃ (s : State) (nexus : Nat) (lun : Nat) (tag : Nat) (n : Nat) (x : Slot), isSas s = true ∧ glyFrozen s = false ∧ occupiedSlots s = [(n, x)] ∧ glySlot s n = x ∧ x.queue = nexus ∧ x.cid = tag ∧ x.nsid = lun + 1 ∧ x.st.dormant = true ∧ x.zone = none :=
  ⟨setGlySlot { State.reset with part := .fjd7411s } 5 { st := .waitOrder, queue := 4, cid := 9, nsid := 1 }, 4, 0, 9, 5, { st := .waitOrder, queue := 4, cid := 9, nsid := 1 }, by decide +kernel⟩

theorem witness_GalleyControlAndAborts_11 : ∃ (s : State) (nexus : Nat) (lun : Nat) (n : Nat) (x : Slot), isSas s = true ∧ glyFrozen s = false ∧ occupiedSlots s = [(n, x)] ∧ glySlot s n = x ∧ x.queue = nexus ∧ x.nsid = lun + 1 ∧ x.st.dormant = true ∧ x.zone = none :=
  ⟨setGlySlot { State.reset with part := .fjd7411s } 5 { st := .waitOrder, queue := 4, cid := 9, nsid := 1 }, 4, 0, 5, { st := .waitOrder, queue := 4, cid := 9, nsid := 1 }, by decide +kernel⟩

theorem witness_GalleyControlAndAborts_12 : ∃ (s : State) (lun : Nat) (n : Nat) (x : Slot), isSas s = true ∧ glyFrozen s = false ∧ occupiedSlots s = [(n, x)] ∧ glySlot s n = x ∧ x.nsid = lun + 1 ∧ x.st.dormant = true ∧ x.zone = none :=
  ⟨setGlySlot { State.reset with part := .fjd7411s } 5 { st := .waitOrder, queue := 4, cid := 9, nsid := 1 }, 0, 5, { st := .waitOrder, queue := 4, cid := 9, nsid := 1 }, by decide +kernel⟩

theorem witness_GalleyControlAndAborts_13 : ∃ (s : State) (lun : Nat), isSas s = true ∧ glyFrozen s = false ∧ (occupiedSlots s).any (fun e => decide (e.2.nsid = lun + 1)) = false :=
  ⟨{ State.reset with part := .fjd7411s }, 3, by decide +kernel⟩

theorem witness_GalleyControlAndAborts_14 : ∃ (s : State) (p : Nat), p < hostPorts s ∧ isSas s = false ∧ powerLost s = false :=
  ⟨{ State.reset with hfe := { ccEn := [(0, true)], rdy := [(0, true)] } }, 0, by decide +kernel⟩

theorem witness_GalleyControlAndAborts_15 : ∃ (s : State) (p : Nat) (v : Word), p < 2 ∧ bit v p = true ∧ bit (rd s .HFE_RESET_STAT 0) p = true ∧ isSas s = false :=
  ⟨setCtxQ (withRegs [(F.HFE_RESET_STAT_PEND, 0, 1)]) 3 { sqEn := true }, 0, 1#64, by decide +kernel⟩

theorem witness_GalleyControlAndAborts_16 : ∃ (s : State) (p : Nat), p < hostPorts s :=
  ⟨withRegs [(F.CKR_BRST_HFE, 0, 1)], 0, by decide +kernel⟩

/-- States and operands that meet the hypotheses of `HostPortsAndSideband`, clause by clause. -/
theorem witness_HostPortsAndSideband_1 : ∃ (s : State) (speed : Nat) (width : Nat), s.sec.boot ≠ .dead ∧ speed ≠ 0 ∧ linkOk s speed width = true :=
  ⟨{ State.reset with sec := { State.reset.sec with boot := .running } }, 4, 4, by decide +kernel⟩

theorem witness_HostPortsAndSideband_2 : ∃ (s : State), s.sec.boot ≠ .dead ∧ fld s F.HFE_CFG_SPEED_0 ≠ 0 :=
  ⟨withRegs [(F.HFE_CFG_SPEED_0, 0, 4)], by decide +kernel⟩

theorem witness_HostPortsAndSideband_3 : ∃ (s : State) (p : Nat), isSas s = false ∧ p < hostPorts s :=
  ⟨withRegs [(F.CKR_READY_HOST, 0, 1)], 0, by decide +kernel⟩

theorem witness_HostPortsAndSideband_4 : ∃ (s : State) (p : Nat), isSas s = false ∧ p < hostPorts s ∧ tget (dflt false) s.hfe.ccEn p = true ∧ powerLost s = false :=
  ⟨{ State.reset with hfe := { ccEn := [(0, true)], rdy := [(0, true)] } }, 0, by decide +kernel⟩

theorem witness_HostPortsAndSideband_5 : ∃ (s : State) (addr : Nat), addr ≠ fld s F.MGT_ADDR_BASIC ∧ addr ≠ fld s F.MGT_ADDR_MCTP :=
  ⟨State.reset, 0x11, by decide +kernel⟩

theorem witness_HostPortsAndSideband_6 : ∃ (s : State), ready s F.CKR_READY_SIDEBAND = true ∧ flag s F.MGT_CTL_EN = true ∧ fld s F.MGT_ADDR_MCTP ≠ fld s F.MGT_ADDR_BASIC :=
  ⟨withRegs [(F.CKR_READY_SIDEBAND, 0, 1), (F.MGT_CTL_EN, 0, 1), (F.MGT_ADDR_MCTP, 0, 0x1D), (F.MGT_ADDR_BASIC, 0, 0x6A)], by decide +kernel⟩

theorem witness_HostPortsAndSideband_7 : ∃ (s : State), ready s F.CKR_READY_SIDEBAND = true ∧ flag s F.MGT_CTL_EN = true :=
  ⟨withRegs [(F.CKR_READY_SIDEBAND, 0, 1), (F.MGT_CTL_EN, 0, 1), (F.MGT_ADDR_MCTP, 0, 0x1D), (F.MGT_ADDR_BASIC, 0, 0x6A), (F.MGT_TEMP_CTRL, 0, 400)], by decide +kernel⟩

/-- States and operands that meet the hypotheses of `BufferMemory`, clause by clause. -/
theorem witness_BufferMemory_1 : ∃ (s : State), flag s F.BFM_DRAM_STAT_READY = false ∧ flag s F.BFM_DRAM_STAT_FAIL = false :=
  ⟨{ writeByte State.reset 0x1000000005 7#8 with bfm := { State.reset.bfm with poison := [(5, true)] } }, by decide +kernel⟩

theorem witness_BufferMemory_2 : ∃ (s : State), flag s F.BFM_DRAM_STAT_READY = false ∧ flag s F.BFM_DRAM_STAT_FAIL = false :=
  ⟨State.reset, by decide +kernel⟩

theorem witness_BufferMemory_3 : ∃ (s : State) (addr : Nat), flag s F.BFM_SCRUB_CTL_EN = true ∧ flag s F.BFM_UE_LOG_VALID = false ∧ addr < 2 ^ 40 :=
  ⟨State.reset, 0x1000000128, by decide +kernel⟩

theorem witness_BufferMemory_4 : ∃ (s : State) (addr : Nat), flag s F.BFM_SCRUB_CTL_EN = true ∧ addr < 2 ^ 40 :=
  ⟨State.reset, 0x1000000128, by decide +kernel⟩

theorem witness_BufferMemory_5 : ∃ (s : State), flag s F.BFM_SCRUB_CTL_EN = false :=
  ⟨withRegs [(F.BFM_SCRUB_CTL_EN, 0, 0)], by decide +kernel⟩

theorem witness_BufferMemory_6 : ∃ (s : State), flag s F.BFM_SCRUB_CTL_EN = true :=
  ⟨{ withRegs [(F.BFM_SCRUB_STAT_SLOW, 0, 1)] with ckr := { State.reset.ckr with up := 27950000 } }, by decide +kernel⟩

theorem witness_BufferMemory_7 : ∃ (s : State), flag s F.BFM_SCRUB_STAT_SLOW = false ∧ fld s F.BFM_SCRUB_CTL_LAP_WARN * 100000 < (s.ckr.up - s.bfm.lapAt) / 25 :=
  ⟨{ State.reset with ckr := { State.reset.ckr with up := 125000025 } }, by decide +kernel⟩

/-- States and operands that meet the hypotheses of `SystemCache`, clause by clause. -/
theorem witness_SystemCache_2 : ∃ (v : Word), 12 < getBits v 0 4 :=
  ⟨13#64, by decide +kernel⟩

theorem witness_SystemCache_3 : ∃ (s : State) (v : Word) (w : Nat), fld s F.SYC_SCRATCH_COUNT < getBits v 0 4 ∧ getBits v 0 4 ≤ 12 ∧ w < 16 ∧ 16 ≤ w + getBits v 0 4 ∧ lockedWay s w = true :=
  ⟨withRegs [(F.SYC_WAY_LOCK_WAYS, 0, 0x4000)], 2#64, 14, by decide +kernel⟩

theorem witness_SystemCache_4 : ∃ (s : State) (v : Word), fld s F.SYC_SCRATCH_COUNT < getBits v 0 4 ∧ getBits v 0 4 ≤ 12 ∧ (∀ w ∈ List.range 16, w + getBits v 0 4 < 16 ∨ lockedWay s w = false) ∧ tabWf (dflt none) s.syc.lines :=
  ⟨setWay (withRegs [(F.SYC_WAY_LOCK_WAYS, 0, 0x1)]) 3 15 (some { line := 0x40000003, data := wordBytes 9#64, dirty := true }), 2#64, by decide +kernel⟩

theorem witness_SystemCache_5 : ∃ (s : State) (v : Word), getBits v 0 4 ≤ fld s F.SYC_SCRATCH_COUNT ∧ getBits v 0 4 ≤ 12 :=
  ⟨writeByte (withRegs [(F.SYC_SCRATCH_COUNT, 0, 2)]) 0xE0080007 5#8, 1#64, by decide +kernel⟩

theorem witness_SystemCache_6 : ∃ (s : State), flag s F.SYC_SCRATCH_BUSY = true :=
  ⟨withRegs [(F.SYC_SCRATCH_BUSY, 0, 1)], by decide +kernel⟩

theorem witness_SystemCache_7 : ∃ (s : State) (v : Word) (set : Nat) (w : Nat) (x : CacheLine), bit (goValue v 0) 8 = true ∧ flag s F.SYC_RANGE_STAT_BUSY = false ∧ tabWf (dflt none) s.syc.lines ∧ (bit v 3 = true ∨ (fld s F.SYC_RANGE_BASE_BASE % 64 = 0 ∧ fld s F.SYC_RANGE_LEN_LEN % 64 = 0 ∧ dramBase ≤ fld s F.SYC_RANGE_BASE_BASE ∧ fld s F.SYC_RANGE_BASE_BASE + fld s F.SYC_RANGE_LEN_LEN ≤ dramBase + dramBytes s)) ∧ set < 8192 ∧ w < 16 ∧ wayLine s set w = some x ∧ x.line % 8192 = set ∧ (bit v 3 || decide (fld s F.SYC_RANGE_BASE_BASE / 64 ≤ x.line ∧ x.line < fld s F.SYC_RANGE_BASE_BASE / 64 + fld s F.SYC_RANGE_LEN_LEN / 64)) = true :=
  ⟨setWay (setWay (withRegs [(F.SYC_WAY_LOCK_WAYS, 0, 0x1), (F.SYC_RANGE_STAT_WRITTEN, 0, 9), (F.SYC_RANGE_BASE_BASE, 0, 0x1000000000), (F.SYC_RANGE_LEN_LEN, 0, 256), (F.BFM_DRAM_STAT_READY, 0, 1), (F.BFM_DRAM_STAT_IN_USE, 0, 8)]) 3 0 (some { line := 0x40000003, data := wordBytes 9#64, dirty := true })) 2 5 (some { line := 0x40000002, data := wordBytes 8#64, dirty := true }), 0#64, 3, 0, { line := 0x40000003, data := wordBytes 9#64, dirty := true }, by decide +kernel⟩

theorem witness_SystemCache_8 : ∃ (s : State) (v : Word) (set : Nat) (w : Nat) (x : CacheLine), bit (goValue v 1) 8 = true ∧ flag s F.SYC_RANGE_STAT_BUSY = false ∧ tabWf (dflt none) s.syc.lines ∧ (bit v 3 = true ∨ (fld s F.SYC_RANGE_BASE_BASE % 64 = 0 ∧ fld s F.SYC_RANGE_LEN_LEN % 64 = 0 ∧ dramBase ≤ fld s F.SYC_RANGE_BASE_BASE ∧ fld s F.SYC_RANGE_BASE_BASE + fld s F.SYC_RANGE_LEN_LEN ≤ dramBase + dramBytes s)) ∧ set < 8192 ∧ w < 16 ∧ wayLine s set w = some x ∧ x.line % 8192 = set ∧ (bit v 3 || decide (fld s F.SYC_RANGE_BASE_BASE / 64 ≤ x.line ∧ x.line < fld s F.SYC_RANGE_BASE_BASE / 64 + fld s F.SYC_RANGE_LEN_LEN / 64)) = true ∧ lockedWay s w = false :=
  ⟨setWay (setWay (withRegs [(F.SYC_WAY_LOCK_WAYS, 0, 0x1), (F.SYC_RANGE_STAT_WRITTEN, 0, 9), (F.SYC_RANGE_BASE_BASE, 0, 0x1000000000), (F.SYC_RANGE_LEN_LEN, 0, 256), (F.BFM_DRAM_STAT_READY, 0, 1), (F.BFM_DRAM_STAT_IN_USE, 0, 8)]) 3 0 (some { line := 0x40000003, data := wordBytes 9#64, dirty := true })) 2 5 (some { line := 0x40000002, data := wordBytes 8#64, dirty := true }), 8#64, 2, 5, { line := 0x40000002, data := wordBytes 8#64, dirty := true }, by decide +kernel⟩

theorem witness_SystemCache_9 : ∃ (s : State) (v : Word) (set : Nat) (w : Nat) (x : CacheLine), bit (goValue v 1) 8 = true ∧ flag s F.SYC_RANGE_STAT_BUSY = false ∧ tabWf (dflt none) s.syc.lines ∧ (bit v 3 = true ∨ (fld s F.SYC_RANGE_BASE_BASE % 64 = 0 ∧ fld s F.SYC_RANGE_LEN_LEN % 64 = 0 ∧ dramBase ≤ fld s F.SYC_RANGE_BASE_BASE ∧ fld s F.SYC_RANGE_BASE_BASE + fld s F.SYC_RANGE_LEN_LEN ≤ dramBase + dramBytes s)) ∧ set < 8192 ∧ w < 16 ∧ wayLine s set w = some x ∧ x.line % 8192 = set ∧ (bit v 3 || decide (fld s F.SYC_RANGE_BASE_BASE / 64 ≤ x.line ∧ x.line < fld s F.SYC_RANGE_BASE_BASE / 64 + fld s F.SYC_RANGE_LEN_LEN / 64)) = true ∧ lockedWay s w = true :=
  ⟨setWay (setWay (withRegs [(F.SYC_WAY_LOCK_WAYS, 0, 0x1), (F.SYC_RANGE_STAT_WRITTEN, 0, 9), (F.SYC_RANGE_BASE_BASE, 0, 0x1000000000), (F.SYC_RANGE_LEN_LEN, 0, 256), (F.BFM_DRAM_STAT_READY, 0, 1), (F.BFM_DRAM_STAT_IN_USE, 0, 8)]) 3 0 (some { line := 0x40000003, data := wordBytes 9#64, dirty := true })) 2 5 (some { line := 0x40000002, data := wordBytes 8#64, dirty := true }), 0#64, 3, 0, { line := 0x40000003, data := wordBytes 9#64, dirty := true }, by decide +kernel⟩

theorem witness_SystemCache_10 : ∃ (s : State) (v : Word) (set : Nat) (w : Nat) (x : CacheLine), bit (goValue v 2) 8 = true ∧ flag s F.SYC_RANGE_STAT_BUSY = false ∧ tabWf (dflt none) s.syc.lines ∧ (bit v 3 = true ∨ (fld s F.SYC_RANGE_BASE_BASE % 64 = 0 ∧ fld s F.SYC_RANGE_LEN_LEN % 64 = 0 ∧ dramBase ≤ fld s F.SYC_RANGE_BASE_BASE ∧ fld s F.SYC_RANGE_BASE_BASE + fld s F.SYC_RANGE_LEN_LEN ≤ dramBase + dramBytes s)) ∧ set < 8192 ∧ w < 16 ∧ wayLine s set w = some x ∧ x.line % 8192 = set ∧ (bit v 3 || decide (fld s F.SYC_RANGE_BASE_BASE / 64 ≤ x.line ∧ x.line < fld s F.SYC_RANGE_BASE_BASE / 64 + fld s F.SYC_RANGE_LEN_LEN / 64)) = true ∧ lockedWay s w = false :=
  ⟨setWay (setWay (withRegs [(F.SYC_WAY_LOCK_WAYS, 0, 0x1), (F.SYC_RANGE_STAT_WRITTEN, 0, 9), (F.SYC_RANGE_BASE_BASE, 0, 0x1000000000), (F.SYC_RANGE_LEN_LEN, 0, 256), (F.BFM_DRAM_STAT_READY, 0, 1), (F.BFM_DRAM_STAT_IN_USE, 0, 8)]) 3 0 (some { line := 0x40000003, data := wordBytes 9#64, dirty := true })) 2 5 (some { line := 0x40000002, data := wordBytes 8#64, dirty := true }), 8#64, 2, 5, { line := 0x40000002, data := wordBytes 8#64, dirty := true }, by decide +kernel⟩

theorem witness_SystemCache_11 : ∃ (s : State) (v : Word) (set : Nat) (w : Nat) (x : CacheLine), bit (goValue v 2) 8 = true ∧ flag s F.SYC_RANGE_STAT_BUSY = false ∧ tabWf (dflt none) s.syc.lines ∧ (bit v 3 = true ∨ (fld s F.SYC_RANGE_BASE_BASE % 64 = 0 ∧ fld s F.SYC_RANGE_LEN_LEN % 64 = 0 ∧ dramBase ≤ fld s F.SYC_RANGE_BASE_BASE ∧ fld s F.SYC_RANGE_BASE_BASE + fld s F.SYC_RANGE_LEN_LEN ≤ dramBase + dramBytes s)) ∧ set < 8192 ∧ w < 16 ∧ wayLine s set w = some x ∧ x.line % 8192 = set ∧ (bit v 3 || decide (fld s F.SYC_RANGE_BASE_BASE / 64 ≤ x.line ∧ x.line < fld s F.SYC_RANGE_BASE_BASE / 64 + fld s F.SYC_RANGE_LEN_LEN / 64)) = true ∧ lockedWay s w = true :=
  ⟨setWay (setWay (withRegs [(F.SYC_WAY_LOCK_WAYS, 0, 0x1), (F.SYC_RANGE_STAT_WRITTEN, 0, 9), (F.SYC_RANGE_BASE_BASE, 0, 0x1000000000), (F.SYC_RANGE_LEN_LEN, 0, 256), (F.BFM_DRAM_STAT_READY, 0, 1), (F.BFM_DRAM_STAT_IN_USE, 0, 8)]) 3 0 (some { line := 0x40000003, data := wordBytes 9#64, dirty := true })) 2 5 (some { line := 0x40000002, data := wordBytes 8#64, dirty := true }), 0#64, 3, 0, { line := 0x40000003, data := wordBytes 9#64, dirty := true }, by decide +kernel⟩

theorem witness_SystemCache_12 : ∃ (s : State) (v : Word) (set : Nat) (w : Nat) (x : CacheLine), bit (goValue v 3) 8 = true ∧ flag s F.SYC_RANGE_STAT_BUSY = false ∧ tabWf (dflt none) s.syc.lines ∧ (bit v 3 = true ∨ (fld s F.SYC_RANGE_BASE_BASE % 64 = 0 ∧ fld s F.SYC_RANGE_LEN_LEN % 64 = 0 ∧ dramBase ≤ fld s F.SYC_RANGE_BASE_BASE ∧ fld s F.SYC_RANGE_BASE_BASE + fld s F.SYC_RANGE_LEN_LEN ≤ dramBase + dramBytes s)) ∧ set < 8192 ∧ w < 16 ∧ wayLine s set w = some x ∧ x.line % 8192 = set ∧ (bit v 3 || decide (fld s F.SYC_RANGE_BASE_BASE / 64 ≤ x.line ∧ x.line < fld s F.SYC_RANGE_BASE_BASE / 64 + fld s F.SYC_RANGE_LEN_LEN / 64)) = true :=
  ⟨setWay (setWay (withRegs [(F.SYC_WAY_LOCK_WAYS, 0, 0x1), (F.SYC_RANGE_STAT_WRITTEN, 0, 9), (F.SYC_RANGE_BASE_BASE, 0, 0x1000000000), (F.SYC_RANGE_LEN_LEN, 0, 256), (F.BFM_DRAM_STAT_READY, 0, 1), (F.BFM_DRAM_STAT_IN_USE, 0, 8)]) 3 0 (some { line := 0x40000003, data := wordBytes 9#64, dirty := true })) 2 5 (some { line := 0x40000002, data := wordBytes 8#64, dirty := true }), 0#64, 3, 0, { line := 0x40000003, data := wordBytes 9#64, dirty := true }, by decide +kernel⟩

theorem witness_SystemCache_13 : ∃ (s : State) (v : Word), flag s F.SYC_RANGE_STAT_BUSY = false ∧ bit v 3 = false ∧ fld s F.SYC_RANGE_BASE_BASE % 64 = 0 ∧ fld s F.SYC_RANGE_LEN_LEN = 64 ∧ dramBase ≤ fld s F.SYC_RANGE_BASE_BASE ∧ fld s F.SYC_RANGE_BASE_BASE + 64 ≤ dramBase + dramBytes s ∧ flag s F.BFM_DRAM_STAT_READY = true ∧ scratchWay s (getBits v 4 4) = false ∧ s.syc.evb = [] ∧ sycFind s (fld s F.SYC_RANGE_BASE_BASE / 64) = none ∧ wayLine s (fld s F.SYC_RANGE_BASE_BASE / 64 % 8192) (getBits v 4 4) = none ∧ s.bfm.poison = [] ∧ s.bfm.bad = [] :=
  ⟨writeWord (withRegs [(F.SYC_RANGE_BASE_BASE, 0, 0x1000000040), (F.SYC_RANGE_LEN_LEN, 0, 64), (F.BFM_DRAM_STAT_READY, 0, 1), (F.BFM_DRAM_STAT_IN_USE, 0, 8)]) 0x1000000048 77#64, 0x30#64, by decide +kernel⟩

theorem witness_SystemCache_14 : ∃ (s : State), flag s F.SYC_RANGE_STAT_BUSY = true :=
  ⟨withRegs [(F.SYC_RANGE_STAT_BUSY, 0, 1)], by decide +kernel⟩

theorem witness_SystemCache_15 : ∃ (s : State), flag s F.SYC_RANGE_STAT_BUSY = true :=
  ⟨withRegs [(F.SYC_RANGE_STAT_BUSY, 0, 1)], by decide +kernel⟩

theorem witness_SystemCache_16 : ∃ (s : State), flag s F.SYC_RANGE_STAT_BUSY = true :=
  ⟨withRegs [(F.SYC_RANGE_STAT_BUSY, 0, 1)], by decide +kernel⟩

theorem witness_SystemCache_17 : ∃ (s : State), flag s F.SYC_RANGE_STAT_BUSY = true :=
  ⟨withRegs [(F.SYC_RANGE_STAT_BUSY, 0, 1)], by decide +kernel⟩

theorem witness_SystemCache_18 : ∃ (s : State), flag s F.SYC_RANGE_STAT_BUSY = true :=
  ⟨withRegs [(F.SYC_RANGE_STAT_BUSY, 0, 1)], by decide +kernel⟩

theorem witness_SystemCache_19 : ∃ (s : State) (v : Word), flag s F.SYC_RANGE_STAT_BUSY = false ∧ (bit v 3 = true ∨ (fld s F.SYC_RANGE_BASE_BASE % 64 = 0 ∧ fld s F.SYC_RANGE_LEN_LEN % 64 = 0 ∧ dramBase ≤ fld s F.SYC_RANGE_BASE_BASE ∧ fld s F.SYC_RANGE_BASE_BASE + fld s F.SYC_RANGE_LEN_LEN ≤ dramBase + dramBytes s)) ∧ scratchWay s (getBits v 4 4) = true :=
  ⟨withRegs [(F.SYC_SCRATCH_COUNT, 0, 2)], 0xF8#64, by decide +kernel⟩

theorem witness_SystemCache_20 : ∃ (s : State) (v : Word), flag s F.SYC_RANGE_STAT_BUSY = false ∧ bit v 3 = false ∧ fld s F.SYC_RANGE_LEN_LEN % 64 ≠ 0 :=
  ⟨withRegs [(F.SYC_RANGE_LEN_LEN, 0, 65)], 0#64, by decide +kernel⟩

theorem witness_SystemCache_21 : ∃ (s : State), flag s F.SYC_RANGE_STAT_BUSY = true :=
  ⟨withRegs [(F.SYC_RANGE_STAT_BUSY, 0, 1), (F.SYC_RANGE_STAT_ERRORS, 0, 4)], by decide +kernel⟩

theorem witness_SystemCache_22 : ∃ (s : State) (line : Nat) (x : CacheLine), s.syc.evb.find? (fun y => y.line == line) = some x :=
  ⟨{ State.reset with syc := { State.reset.syc with evb := [{ line := 0x40000003, data := List.replicate 64 9#8, dirty := true }] } }, 0x40000003, { line := 0x40000003, data := List.replicate 64 9#8, dirty := true }, by decide +kernel⟩

/-- States and operands that meet the hypotheses of `BobbinRings`, clause by clause. -/
theorem witness_BobbinRings_1 : ∃ (s : State) (n : Nat), n < 64 ∧ glyOwns s n = false :=
  ⟨State.reset, 20, by decide +kernel⟩

theorem witness_BobbinRings_2 : ∃ (s : State) (n : Nat), glyOwns s n = true :=
  ⟨withRegs [(F.GLY_CTL_EN, 0, 1)], 7, by decide +kernel⟩

theorem witness_BobbinRings_3 : ∃ (s : State) (n : Nat) (l : List Byte), n < 64 ∧ glyOwns s n = false ∧ (chState s n = 0 ∨ chState s n = 1) ∧ (chanOf s n).desc = none ∧ (chanOf s n).tails = [] ∧ flag s F.DMA_CH_CTL_PAUSE n = false ∧ fld s F.DMA_CH_HEAD_HEAD n ≠ fld s F.DMA_CH_TAIL_TAIL n ∧ (busRead s (chPort n (flag s F.DMA_CH_CFG_RING_COH n)) (fld s F.DMA_CH_RING_BASE n + 64 * fld s F.DMA_CH_HEAD_HEAD n) 64).1 = some l ∧ descCheck ((busWriteWord (busRead s (chPort n (flag s F.DMA_CH_CFG_RING_COH n)) (fld s F.DMA_CH_RING_BASE n + 64 * fld s F.DMA_CH_HEAD_HEAD n) 64).2 (chPort n (flag s F.DMA_CH_CFG_RING_COH n)) (fld s F.DMA_CH_RING_BASE n + 64 * fld s F.DMA_CH_HEAD_HEAD n + 32) 0#64).2) (fun j => BitVec.ofNat 64 (leNat ((l.drop (8 * j)).take 8))) = 0 :=
  ⟨writeBytes (withRegs [(F.SYC_SCRATCH_COUNT, 0, 1), (F.DMA_CH_STATUS_STATE, 20, 0), (F.DMA_CH_CFG_LOG2_SIZE, 20, 2), (F.DMA_CH_TAIL_TAIL, 20, 1), (F.DMA_CH_RING_BASE, 20, 0xE0000040)]) 0xE0000040 (wordBytes 0xE0001000#64 ++ wordBytes 0xE0002020#64 ++ wordBytes 0x1000000080#64 ++ List.replicate 8 0#8 ++ wordBytes 0x200#64 ++ List.replicate 24 0#8), 20, wordBytes 0xE0001000#64 ++ wordBytes 0xE0002020#64 ++ wordBytes 0x1000000080#64 ++ List.replicate 8 0#8 ++ wordBytes 0x200#64 ++ List.replicate 24 0#8, by decide +kernel⟩

theorem witness_BobbinRings_4 : ∃ (s : State) (n : Nat) (l : List Byte), n < 64 ∧ glyOwns s n = false ∧ (chState s n = 0 ∨ chState s n = 1) ∧ (chanOf s n).desc = none ∧ (chanOf s n).tails = [] ∧ flag s F.DMA_CH_CTL_PAUSE n = false ∧ fld s F.DMA_CH_HEAD_HEAD n ≠ fld s F.DMA_CH_TAIL_TAIL n ∧ (busRead s (chPort n (flag s F.DMA_CH_CFG_RING_COH n)) (fld s F.DMA_CH_RING_BASE n + 64 * fld s F.DMA_CH_HEAD_HEAD n) 64).1 = some l ∧ descCheck ((busWriteWord (busRead s (chPort n (flag s F.DMA_CH_CFG_RING_COH n)) (fld s F.DMA_CH_RING_BASE n + 64 * fld s F.DMA_CH_HEAD_HEAD n) 64).2 (chPort n (flag s F.DMA_CH_CFG_RING_COH n)) (fld s F.DMA_CH_RING_BASE n + 64 * fld s F.DMA_CH_HEAD_HEAD n + 32) 0#64).2) (fun j => BitVec.ofNat 64 (leNat ((l.drop (8 * j)).take 8))) ≠ 0 ∧ descCheck ((busWriteWord (busRead s (chPort n (flag s F.DMA_CH_CFG_RING_COH n)) (fld s F.DMA_CH_RING_BASE n + 64 * fld s F.DMA_CH_HEAD_HEAD n) 64).2 (chPort n (flag s F.DMA_CH_CFG_RING_COH n)) (fld s F.DMA_CH_RING_BASE n + 64 * fld s F.DMA_CH_HEAD_HEAD n + 32) 0#64).2) (fun j => BitVec.ofNat 64 (leNat ((l.drop (8 * j)).take 8))) ≠ 0xC5 :=
  ⟨writeBytes (withRegs [(F.SYC_SCRATCH_COUNT, 0, 1), (F.DMA_CH_STATUS_STATE, 20, 0), (F.DMA_CH_CFG_LOG2_SIZE, 20, 2), (F.DMA_CH_TAIL_TAIL, 20, 1), (F.DMA_CH_RING_BASE, 20, 0xE0000040)]) 0xE0000040 (wordBytes 0xE0001000#64 ++ wordBytes 0xE0002020#64 ++ wordBytes 0x1000000000#64 ++ List.replicate 8 0#8 ++ wordBytes 0x200#64 ++ List.replicate 24 0#8), 20, wordBytes 0xE0001000#64 ++ wordBytes 0xE0002020#64 ++ wordBytes 0x1000000000#64 ++ List.replicate 8 0#8 ++ wordBytes 0x200#64 ++ List.replicate 24 0#8, by decide +kernel⟩

theorem witness_BobbinRings_5 : ∃ (s : State) (n : Nat) (l : List Byte), n < 64 ∧ glyOwns s n = false ∧ (chState s n = 0 ∨ chState s n = 1) ∧ (chanOf s n).desc = none ∧ (chanOf s n).tails = [] ∧ flag s F.DMA_CH_CTL_PAUSE n = false ∧ fld s F.DMA_CH_HEAD_HEAD n ≠ fld s F.DMA_CH_TAIL_TAIL n ∧ (busRead s (chPort n (flag s F.DMA_CH_CFG_RING_COH n)) (fld s F.DMA_CH_RING_BASE n + 64 * fld s F.DMA_CH_HEAD_HEAD n) 64).1 = some l ∧ descCheck ((busWriteWord (busRead s (chPort n (flag s F.DMA_CH_CFG_RING_COH n)) (fld s F.DMA_CH_RING_BASE n + 64 * fld s F.DMA_CH_HEAD_HEAD n) 64).2 (chPort n (flag s F.DMA_CH_CFG_RING_COH n)) (fld s F.DMA_CH_RING_BASE n + 64 * fld s F.DMA_CH_HEAD_HEAD n + 32) 0#64).2) (fun j => BitVec.ofNat 64 (leNat ((l.drop (8 * j)).take 8))) = 0xC5 :=
  ⟨writeBytes (withRegs [(F.FCL_STAT_SAFE, 0, 1), (F.SYC_SCRATCH_COUNT, 0, 1), (F.DMA_CH_STATUS_STATE, 20, 0), (F.DMA_CH_CFG_LOG2_SIZE, 20, 2), (F.DMA_CH_TAIL_TAIL, 20, 1), (F.DMA_CH_RING_BASE, 20, 0xE0000040)]) 0xE0000040 (wordBytes 0xE0001000#64 ++ wordBytes 0xE0002020#64 ++ wordBytes 0x1000000080#64 ++ List.replicate 8 0#8 ++ wordBytes 0x200#64 ++ List.replicate 24 0#8), 20, wordBytes 0xE0001000#64 ++ wordBytes 0xE0002020#64 ++ wordBytes 0x1000000080#64 ++ List.replicate 8 0#8 ++ wordBytes 0x200#64 ++ List.replicate 24 0#8, by decide +kernel⟩

/-- States and operands that meet the hypotheses of `BobbinBeats`, clause by clause. -/
theorem witness_BobbinBeats_1 : ∃ (s : State) (e : Nat) (cls : Nat) (j : Nat) (d : DmaDesc), e < 4 ∧ cls < 4 ∧ (∀ c ∈ List.range 4, c ≤ cls ∨ classGrant s e c = none) ∧ classGrant s e cls = some (j, false) ∧ (chanOf s (16 * e + j)).desc = some d ∧ d.srcHost = false ∧ inControl (d.src + (beatRange d (chanOf s (16 * e + j)).nextRead).1) = false :=
  ⟨setChan (withRegs [(F.SYC_SCRATCH_COUNT, 0, 1), (F.DMA_CH_STATUS_STATE, 20, 1), (F.DMA_CH_CFG_PRIO, 20, 2)]) 20 { desc := some { src := 0xE0001000, dst := 0xE0002020, count := 100, srcHost := false, dstHost := false }, nextRead := 1 }, 1, 2, 4, { src := 0xE0001000, dst := 0xE0002020, count := 100, srcHost := false, dstHost := false }, by decide +kernel⟩

theorem witness_BobbinBeats_2 : ∃ (s : State) (e : Nat) (cls : Nat) (j : Nat) (d : DmaDesc), e < 4 ∧ cls < 4 ∧ (∀ c ∈ List.range 4, c ≤ cls ∨ classGrant s e c = none) ∧ classGrant s e cls = some (j, false) ∧ (chanOf s (16 * e + j)).desc = some d ∧ d.srcHost = true :=
  ⟨setChan (withRegs [(F.SYC_SCRATCH_COUNT, 0, 1), (F.DMA_CH_STATUS_STATE, 20, 1), (F.DMA_CH_CFG_PRIO, 20, 2)]) 20 { desc := some { src := 0xE0001000, dst := 0xE0002020, count := 100, srcHost := true, dstHost := false }, nextRead := 1 }, 1, 2, 4, { src := 0xE0001000, dst := 0xE0002020, count := 100, srcHost := true, dstHost := false }, by decide +kernel⟩

theorem witness_BobbinBeats_3 : ∃ (s : State) (e : Nat) (cls : Nat) (j : Nat) (b : Nat) (x : List Byte) (d : DmaDesc) (rest : List (Nat × List Byte)), e < 4 ∧ cls < 4 ∧ (∀ c ∈ List.range 4, c ≤ cls ∨ classGrant s e c = none) ∧ classGrant s e cls = some (j, true) ∧ (chanOf s (16 * e + j)).desc = some d ∧ (chanOf s (16 * e + j)).buf = (b, x) :: rest ∧ d.dstHost = false ∧ inControl (d.dst + (beatRange d b).1) = false :=
  ⟨setChan (withRegs [(F.SYC_SCRATCH_COUNT, 0, 1), (F.DMA_CH_STATUS_STATE, 20, 1), (F.DMA_CH_CFG_PRIO, 20, 2)]) 20 { desc := some { src := 0xE0001000, dst := 0xE0002020, count := 100, srcHost := false, dstHost := false }, nextRead := 2, buf := [(0, List.replicate 32 7#8), (1, List.replicate 64 8#8)] }, 1, 2, 4, 0, List.replicate 32 7#8, { src := 0xE0001000, dst := 0xE0002020, count := 100, srcHost := false, dstHost := false }, [(1, List.replicate 64 8#8)], by decide +kernel⟩

theorem witness_BobbinBeats_4 : ∃ (s : State) (e : Nat) (cls : Nat) (j : Nat) (b : Nat) (x : List Byte) (d : DmaDesc) (rest : List (Nat × List Byte)), e < 4 ∧ cls < 4 ∧ (∀ c ∈ List.range 4, c ≤ cls ∨ classGrant s e c = none) ∧ classGrant s e cls = some (j, true) ∧ (chanOf s (16 * e + j)).desc = some d ∧ (chanOf s (16 * e + j)).buf = (b, x) :: rest ∧ d.dstHost = true :=
  ⟨setChan (withRegs [(F.SYC_SCRATCH_COUNT, 0, 1), (F.DMA_CH_STATUS_STATE, 20, 1), (F.DMA_CH_CFG_PRIO, 20, 2)]) 20 { desc := some { src := 0xE0001000, dst := 0xE0002020, count := 100, srcHost := false, dstHost := true }, nextRead := 2, buf := [(0, List.replicate 32 7#8), (1, List.replicate 64 8#8)] }, 1, 2, 4, 0, List.replicate 32 7#8, { src := 0xE0001000, dst := 0xE0002020, count := 100, srcHost := false, dstHost := true }, [(1, List.replicate 64 8#8)], by decide +kernel⟩

theorem witness_BobbinBeats_5 : ∃ (s : State) (n : Nat) (k : Nat) (x : List Byte) (rest : List (Nat × Option (List Byte))) (d : DmaDesc), (chanOf s n).desc = some d ∧ (chanOf s n).fail = none ∧ (chanOf s n).stop = none ∧ (chanOf s n).reads = (k, some x) :: rest ∧ d.srcHost = false :=
  ⟨setChan (withRegs [(F.DMA_CH_STATUS_STATE, 20, 1), (F.DMA_CH_CFG_LOG2_SIZE, 20, 2), (F.DMA_CH_TAIL_TAIL, 20, 1)]) 20 { desc := some { src := 0xE0001000, dst := 0xE0002020, count := 100, srcHost := false, dstHost := false }, reads := [(0, some [7#8])] }, 20, 0, [7#8], [], { src := 0xE0001000, dst := 0xE0002020, count := 100, srcHost := false, dstHost := false }, by decide +kernel⟩

theorem witness_BobbinBeats_6 : ∃ (s : State) (n : Nat) (k : Nat) (rest : List (Nat × Option (List Byte))) (d : DmaDesc), (chanOf s n).desc = some d ∧ (chanOf s n).fail = none ∧ (chanOf s n).stop = none ∧ (chanOf s n).reads = (k, none) :: rest ∧ d.srcHost = true :=
  ⟨setChan (withRegs [(F.DMA_CH_STATUS_STATE, 20, 1), (F.DMA_CH_CFG_LOG2_SIZE, 20, 2), (F.DMA_CH_TAIL_TAIL, 20, 1)]) 20 { desc := some { src := 0xE0001000, dst := 0xE0002020, count := 100, srcHost := true, dstHost := false }, reads := [(0, none)] }, 20, 0, [], { src := 0xE0001000, dst := 0xE0002020, count := 100, srcHost := true, dstHost := false }, by decide +kernel⟩

theorem witness_BobbinBeats_7 : ∃ (s : State) (n : Nat) (k : Nat) (d : DmaDesc), (chanOf s n).desc = some d ∧ (chanOf s n).fail = none ∧ (chanOf s n).stop = none ∧ (chanOf s n).reads = [(k, none)] ∧ (chanOf s n).writes = [] ∧ (chanOf s n).buf.filter (fun x => decide (x.1 < k)) = [] ∧ d.srcHost = false ∧ chState s n = 1 ∧ k < beats d ∧ beats d ≤ 2 ^ 27 :=
  ⟨setChan (withRegs [(F.DMA_CH_STATUS_STATE, 20, 1), (F.DMA_CH_CFG_LOG2_SIZE, 20, 2), (F.DMA_CH_TAIL_TAIL, 20, 1)]) 20 { desc := some { src := 0xE0001000, dst := 0xE0002020, count := 100, srcHost := false, dstHost := false }, nextRead := 2, reads := [(1, none)] }, 20, 1, { src := 0xE0001000, dst := 0xE0002020, count := 100, srcHost := false, dstHost := false }, by decide +kernel⟩

theorem witness_BobbinBeats_8 : ∃ (s : State) (n : Nat) (k : Nat) (rest : List (Nat × Option (List Byte))) (d : DmaDesc), (chanOf s n).desc = some d ∧ (chanOf s n).fail = none ∧ (chanOf s n).stop = none ∧ (chanOf s n).reads = (k, none) :: rest ∧ d.srcHost = false ∧ (chanOf s n).buf.filter (fun x => decide (x.1 < k)) ≠ [] :=
  ⟨setChan (withRegs [(F.DMA_CH_STATUS_STATE, 20, 1), (F.DMA_CH_CFG_LOG2_SIZE, 20, 2), (F.DMA_CH_TAIL_TAIL, 20, 1)]) 20 { desc := some { src := 0xE0001000, dst := 0xE0002020, count := 100, srcHost := false, dstHost := false }, nextRead := 2, buf := [(0, [7#8])], reads := [(1, none)] }, 20, 1, [], { src := 0xE0001000, dst := 0xE0002020, count := 100, srcHost := false, dstHost := false }, by decide +kernel⟩

theorem witness_BobbinBeats_9 : ∃ (s : State) (n : Nat) (k : Nat) (a : Nat) (rest : List (Nat × (Nat × Bool))) (d : DmaDesc), (chanOf s n).desc = some d ∧ (chanOf s n).fail = none ∧ (chanOf s n).stop = none ∧ (chanOf s n).tails = [] ∧ (chanOf s n).writes = (k, (a, true)) :: rest ∧ d.dstHost = false :=
  ⟨setChan (withRegs [(F.DMA_CH_STATUS_STATE, 20, 1), (F.DMA_CH_CFG_LOG2_SIZE, 20, 2), (F.DMA_CH_TAIL_TAIL, 20, 1)]) 20 { desc := some { src := 0xE0001000, dst := 0xE0002020, count := 100, srcHost := false, dstHost := false }, writes := [(0, (0xE0002020, true)), (1, (0xE0002040, true))] }, 20, 0, 0xE0002020, [(1, (0xE0002040, true))], { src := 0xE0001000, dst := 0xE0002020, count := 100, srcHost := false, dstHost := false }, by decide +kernel⟩

theorem witness_BobbinBeats_10 : ∃ (s : State) (n : Nat) (k : Nat) (a : Nat) (d : DmaDesc), (chanOf s n).desc = some d ∧ (chanOf s n).fail = none ∧ (chanOf s n).stop = none ∧ (chanOf s n).tails = [] ∧ (chanOf s n).reads = [] ∧ (chanOf s n).writes = [(k, (a, false))] ∧ d.dstHost = false ∧ (chanOf s n).buf.filter (fun x => decide (x.1 < k)) = [] ∧ chState s n = 1 ∧ k < beats d ∧ beats d ≤ 2 ^ 27 :=
  ⟨setChan (withRegs [(F.DMA_CH_STATUS_STATE, 20, 1), (F.DMA_CH_CFG_LOG2_SIZE, 20, 2), (F.DMA_CH_TAIL_TAIL, 20, 1)]) 20 { desc := some { src := 0xE0001000, dst := 0xE0002020, count := 100, srcHost := false, dstHost := false }, nextRead := 2, nextWrite := 2, writes := [(1, (0xE0002040, false))] }, 20, 1, 0xE0002040, { src := 0xE0001000, dst := 0xE0002020, count := 100, srcHost := false, dstHost := false }, by decide +kernel⟩

theorem witness_BobbinBeats_11 : ∃ (s : State) (n : Nat) (a : Nat) (res : Nat) (ok : Bool) (x : DmaTail) (rest : List (Nat × Bool)) (more : List DmaTail), (chanOf s n).tails = x :: more ∧ x.writes = (a, ok) :: rest ∧ (ok = false ∨ res ≠ 0) ∧ flag s F.DMA_CH_STATUS_LATE_ERR n = false ∧ x.ring < 4096 :=
  ⟨setChan State.reset 20 { tails := [{ ring := 3, writes := [(0xE0002020, false)] }] }, 20, 0xE0002020, 0, false, { ring := 3, writes := [(0xE0002020, false)] }, [], [], by decide +kernel⟩

theorem witness_BobbinBeats_12 : ∃ (s : State) (n : Nat) (a : Nat) (res : Nat) (ok : Bool) (x : DmaTail) (rest : List (Nat × Bool)) (more : List DmaTail), (chanOf s n).tails = x :: more ∧ x.writes = (a, ok) :: rest ∧ (ok = false ∨ res ≠ 0) ∧ flag s F.DMA_CH_STATUS_LATE_ERR n = true :=
  ⟨setChan (withRegs [(F.DMA_CH_STATUS_LATE_ERR, 20, 1)]) 20 { tails := [{ ring := 3, writes := [(0xE0002020, false)] }] }, 20, 0xE0002020, 0, false, { ring := 3, writes := [(0xE0002020, false)] }, [], [], by decide +kernel⟩

theorem witness_BobbinBeats_13 : ∃ (s : State) (n : Nat) (d : DmaDesc), (chanOf s n).desc = some d ∧ (chanOf s n).fail = none ∧ (chanOf s n).stop = none ∧ chState s n = 1 ∧ beats d ≤ (chanOf s n).nextWrite ∧ (d.landed = false ∨ ((chanOf s n).writes = [] ∧ (chanOf s n).tails = [])) :=
  ⟨setChan (withRegs [(F.DMA_CH_STATUS_STATE, 20, 1), (F.DMA_CH_CFG_LOG2_SIZE, 20, 2), (F.DMA_CH_TAIL_TAIL, 20, 1)]) 20 { desc := some { src := 0xE0001000, dst := 0xE0002020, count := 100, srcHost := false, dstHost := false }, nextRead := 3, nextWrite := 3, writes := [(2, (0xE0002080, true))] }, 20, { src := 0xE0001000, dst := 0xE0002020, count := 100, srcHost := false, dstHost := false }, by decide +kernel⟩

theorem witness_BobbinBeats_14 : ∃ (s : State) (n : Nat) (d : DmaDesc), (chanOf s n).desc = some d ∧ d.landed = true ∧ (chanOf s n).writes ≠ [] :=
  ⟨setChan (withRegs [(F.DMA_CH_STATUS_STATE, 20, 1), (F.DMA_CH_CFG_LOG2_SIZE, 20, 2), (F.DMA_CH_TAIL_TAIL, 20, 1)]) 20 { desc := some { src := 0xE0001000, dst := 0xE0002020, count := 100, landed := true }, nextRead := 3, nextWrite := 3, writes := [(2, (0xE0002080, true))] }, 20, { src := 0xE0001000, dst := 0xE0002020, count := 100, landed := true }, by decide +kernel⟩

/-- States and operands that meet the hypotheses of `BobbinControl`, clause by clause. -/
theorem witness_BobbinControl_1 : ∃ (s : State) (n : Nat), n < 64 ∧ glyOwns s n = false ∧ chState s n = 5 ∧ flag s F.DMA_CH_CTL_PAUSE n = false :=
  ⟨State.reset, 20, by decide +kernel⟩

theorem witness_BobbinControl_2 : ∃ (s : State) (n : Nat), n < 64 ∧ glyOwns s n = false ∧ (chState s n = 0 ∨ chState s n = 4) :=
  ⟨withRegs [(F.DMA_CH_STATUS_STATE, 20, 4), (F.DMA_CH_CFG_EN, 20, 1)], 20, by decide +kernel⟩

theorem witness_BobbinControl_3 : ∃ (s : State) (n : Nat), n < 64 ∧ glyOwns s n = false ∧ (chState s n = 1 ∨ chState s n = 2) :=
  ⟨withRegs [(F.DMA_CH_STATUS_STATE, 20, 1), (F.DMA_CH_CFG_EN, 20, 1)], 20, by decide +kernel⟩

theorem witness_BobbinControl_4 : ∃ (s : State) (n : Nat) (v : Word), n < 64 ∧ glyOwns s n = false ∧ bit v 1 = false ∧ bit v 2 = false ∧ bit v 0 = true ∧ chState s n = 0 :=
  ⟨withRegs [(F.DMA_CH_STATUS_STATE, 20, 0)], 20, 1#64, by decide +kernel⟩

theorem witness_BobbinControl_5 : ∃ (s : State) (n : Nat) (v : Word), n < 64 ∧ glyOwns s n = false ∧ bit v 1 = false ∧ bit v 2 = false ∧ bit v 0 = true ∧ chState s n = 1 ∧ (chanOf s n).desc.isSome = true ∧ ((chanOf s n).reads ≠ [] ∨ (chanOf s n).writes ≠ []) :=
  ⟨setChan (withRegs [(F.DMA_CH_STATUS_STATE, 20, 1), (F.DMA_CH_CFG_LOG2_SIZE, 20, 2), (F.DMA_CH_TAIL_TAIL, 20, 1)]) 20 { desc := some { src := 0xE0001000, dst := 0xE0002020, count := 100, srcHost := false, dstHost := false }, reads := [(0, none)] }, 20, 1#64, by decide +kernel⟩

theorem witness_BobbinControl_6 : ∃ (s : State) (n : Nat) (v : Word) (d : DmaDesc), n < 64 ∧ glyOwns s n = false ∧ bit v 1 = false ∧ bit v 2 = false ∧ bit v 0 = true ∧ chState s n = 1 ∧ (chanOf s n).desc = some d ∧ (chanOf s n).fail = none ∧ (chanOf s n).stop = none ∧ (chanOf s n).reads = [] ∧ (chanOf s n).writes = [] ∧ (chanOf s n).buf = [] ∧ (chanOf s n).tails = [] ∧ (chanOf s n).nextWrite < beats d :=
  ⟨setChan (withRegs [(F.DMA_CH_STATUS_STATE, 20, 1), (F.DMA_CH_CFG_LOG2_SIZE, 20, 2), (F.DMA_CH_TAIL_TAIL, 20, 1)]) 20 { desc := some { src := 0xE0001000, dst := 0xE0002020, count := 100, srcHost := false, dstHost := false }, nextRead := 1, nextWrite := 1 }, 20, 1#64, { src := 0xE0001000, dst := 0xE0002020, count := 100, srcHost := false, dstHost := false }, by decide +kernel⟩

theorem witness_BobbinControl_7 : ∃ (s : State) (n : Nat) (v : Word), n < 64 ∧ glyOwns s n = false ∧ bit v 1 = false ∧ bit v 2 = false ∧ bit v 0 = false ∧ chState s n = 3 ∧ (chanOf s n).fail = none ∧ (chanOf s n).stop = none :=
  ⟨setChan (withRegs [(F.DMA_CH_STATUS_STATE, 20, 3), (F.DMA_CH_CTL_PAUSE, 20, 1)]) 20 { desc := some { count := 5 } }, 20, 0#64, by decide +kernel⟩

theorem witness_BobbinControl_8 : ∃ (s : State) (n : Nat) (v : Word), n < 64 ∧ glyOwns s n = false ∧ chState s n = 4 ∧ flag s F.DMA_CH_CTL_PAUSE n = false ∧ bit v 0 = false ∧ bit v 2 = false :=
  ⟨setChan (withRegs [(F.DMA_CH_STATUS_STATE, 20, 4), (F.DMA_CH_CFG_LOG2_SIZE, 20, 2), (F.DMA_CH_HEAD_HEAD, 20, 3)]) 20 { desc := some { count := 5 } }, 20, 0#64, by decide +kernel⟩

theorem witness_BobbinControl_9 : ∃ (s : State) (n : Nat) (v : Word) (d : DmaDesc), n < 64 ∧ glyOwns s n = false ∧ chState s n = 4 ∧ flag s F.DMA_CH_CTL_PAUSE n = false ∧ bit v 0 = false ∧ bit v 1 = false ∧ (chanOf s n).desc = some d ∧ d.slot = none ∧ (chanOf s n).unfetched = false ∧ d.count ≠ 0 ∧ safeState s = false ∧ powerLost s = false ∧ (chanOf s n).fail = none :=
  ⟨setChan (withRegs [(F.DMA_CH_STATUS_STATE, 20, 4)]) 20 { desc := some { count := 5 }, nextRead := 1, nextWrite := 1 }, 20, 0#64, { count := 5 }, by decide +kernel⟩

theorem witness_BobbinControl_10 : ∃ (s : State) (e : Nat) (j : Nat) (d : DmaDesc), e < 4 ∧ j < 16 ∧ chState s (16 * e + j) = 1 ∧ (chanOf s (16 * e + j)).desc = some d ∧ (chanOf s (16 * e + j)).reads = [] ∧ (chanOf s (16 * e + j)).writes = [] ∧ (chanOf s (16 * e + j)).fail = none ∧ (chanOf s (16 * e + j)).stop = none :=
  ⟨setChan (withRegs [(F.DMA_CH_STATUS_STATE, 20, 1), (F.DMA_CH_CFG_LOG2_SIZE, 20, 2), (F.DMA_CH_TAIL_TAIL, 20, 1)]) 20 { desc := some { src := 0xE0001000, dst := 0xE0002020, count := 100, srcHost := false, dstHost := false }, buf := [(0, [7#8])] }, 1, 4, { src := 0xE0001000, dst := 0xE0002020, count := 100, srcHost := false, dstHost := false }, by decide +kernel⟩

theorem witness_BobbinControl_11 : ∃ (s : State) (e : Nat) (j : Nat) (d : DmaDesc), e < 4 ∧ j < 16 ∧ chState s (16 * e + j) = 1 ∧ (chanOf s (16 * e + j)).desc = some d ∧ ((chanOf s (16 * e + j)).reads ≠ [] ∨ (chanOf s (16 * e + j)).writes ≠ []) ∧ (chanOf s (16 * e + j)).stop = none :=
  ⟨setChan (withRegs [(F.DMA_CH_STATUS_STATE, 20, 1), (F.DMA_CH_CFG_LOG2_SIZE, 20, 2), (F.DMA_CH_TAIL_TAIL, 20, 1)]) 20 { desc := some { src := 0xE0001000, dst := 0xE0002020, count := 100, srcHost := false, dstHost := false }, reads := [(0, none)] }, 1, 4, { src := 0xE0001000, dst := 0xE0002020, count := 100, srcHost := false, dstHost := false }, by decide +kernel⟩

/-- States and operands that meet the hypotheses of `FirmwareSpools`, clause by clause. -/
theorem witness_FirmwareSpools_1 : ∃ (s : State) (c : Nat) (k : Nat), c < s.part.cores ∧ k < 32 ∧ coreProducer s k = true ∧ spoolFull s k c = false ∧ (spoolOf s k).dropping = false :=
  ⟨withRegs [(F.SPL_FW_CFG_PROD, 3, 1)], 5, 3, by decide +kernel⟩

theorem witness_FirmwareSpools_2 : ∃ (s : State) (c : Nat) (k : Nat), c < s.part.cores ∧ k < 32 ∧ (coreProducer s k = false ∨ spoolFull s k c = true) :=
  ⟨setSpool (withRegs [(F.SPL_FW_CFG_PROD, 3, 1)]) 3 { owner := some 4 }, 5, 3, by decide +kernel⟩

theorem witness_FirmwareSpools_3 : ∃ (s : State) (c : Nat) (k : Nat), c < s.part.cores ∧ k < 32 ∧ coreProducer s k = true ∧ spoolFull s k c = false ∧ (spoolOf s k).dropping = false :=
  ⟨withRegs [(F.SPL_FW_CFG_PROD, 3, 1)], 5, 3, by decide +kernel⟩

theorem witness_FirmwareSpools_4 : ∃ (s : State) (c : Nat) (k : Nat), c < s.part.cores ∧ k < 32 ∧ (coreProducer s k = false ∨ spoolFull s k c = true) :=
  ⟨setSpool (withRegs [(F.SPL_FW_CFG_PROD, 3, 1)]) 3 { owner := some 4 }, 5, 3, by decide +kernel⟩

theorem witness_FirmwareSpools_5 : ∃ (s : State) (c : Nat) (k : Nat) (w : Word) (last : Bool) (poison : Bool) (rest : List (Word × (Bool × Bool))), c < s.part.cores ∧ k < 32 ∧ coreConsumer s k = true ∧ (spoolOf s k).words = (w, (last, poison)) :: rest :=
  ⟨setSpool (withRegs [(F.SPL_FW_CFG_CONS, 3, 1)]) 3 { words := [(77#64, (true, false)), (5#64, (false, false))] }, 5, 3, 77#64, true, false, [(5#64, (false, false))], by decide +kernel⟩

theorem witness_FirmwareSpools_6 : ∃ (s : State) (c : Nat) (k : Nat), c < s.part.cores ∧ k < 32 ∧ coreConsumer s k = true ∧ (spoolOf s k).words = [] :=
  ⟨setSpool (withRegs [(F.SPL_FW_CFG_CONS, 3, 1)]) 3 { last := 9#64 }, 5, 3, by decide +kernel⟩

theorem witness_FirmwareSpools_7 : ∃ (s : State) (c : Nat) (k : Nat), c < s.part.cores ∧ k < 32 ∧ coreConsumer s k = false :=
  ⟨setSpool State.reset 3 { last := 9#64 }, 5, 3, by decide +kernel⟩

theorem witness_FirmwareSpools_8 : ∃ (s : State) (c : Nat) (k : Nat) (w : Word) (last : Bool) (poison : Bool) (rest : List (Word × (Bool × Bool))), c < s.part.cores ∧ k < 32 ∧ coreConsumer s k = true ∧ (spoolOf s k).words = (w, (last, poison)) :: rest :=
  ⟨setSpool (withRegs [(F.SPL_FW_CFG_CONS, 3, 1)]) 3 { words := [(77#64, (true, false)), (5#64, (false, false))] }, 5, 3, 77#64, true, false, [(5#64, (false, false))], by decide +kernel⟩

theorem witness_FirmwareSpools_9 : ∃ (s : State) (c : Nat) (k : Nat) (v : Word) (rest : List (Word × (Bool × Bool))), c < s.part.cores ∧ k < 32 ∧ bit v 0 = true ∧ coreConsumer s k = true ∧ (spoolOf s k).atEnd = false ∧ (spoolOf s k).dropping = false ∧ afterLast (spoolOf s k).words = some rest :=
  ⟨setSpool (withRegs [(F.SPL_FW_CFG_CONS, 3, 1)]) 3 { atEnd := false, words := [(77#64, (false, false)), (5#64, (true, false)), (6#64, (false, false))] }, 5, 3, 1#64, [(6#64, (false, false))], by decide +kernel⟩

theorem witness_FirmwareSpools_10 : ∃ (s : State) (c : Nat) (k : Nat) (v : Word), c < s.part.cores ∧ k < 32 ∧ bit v 0 = true ∧ coreConsumer s k = true ∧ (spoolOf s k).atEnd = false ∧ (spoolOf s k).dropping = false ∧ afterLast (spoolOf s k).words = none :=
  ⟨setSpool (withRegs [(F.SPL_FW_CFG_CONS, 3, 1)]) 3 { atEnd := false, words := [(77#64, (false, false))] }, 5, 3, 1#64, by decide +kernel⟩

theorem witness_FirmwareSpools_11 : ∃ (s : State) (c : Nat) (k : Nat) (v : Word), c < s.part.cores ∧ k < 32 ∧ bit v 0 = true ∧ coreConsumer s k = true ∧ (spoolOf s k).atEnd = true :=
  ⟨withRegs [(F.SPL_FW_CFG_CONS, 3, 1)], 5, 3, 1#64, by decide +kernel⟩

theorem witness_FirmwareSpools_12 : ∃ (k : Nat), k < 32 :=
  ⟨3, by decide +kernel⟩

theorem witness_FirmwareSpools_13 : ∃ (s : State) (k : Nat), k < 32 ∧ (spoolOf s k).words = [] ∧ (spoolOf s k).owner = none :=
  ⟨setSpool State.reset 3 { last := 9#64 }, 3, by decide +kernel⟩

theorem witness_FirmwareSpools_14 : ∃ (s : State) (k : Nat) (v : Word), k < 32 ∧ (spoolOf s k).words ≠ [] ∧ bit v 3 = false :=
  ⟨setSpool State.reset 3 { words := [(77#64, (false, false))] }, 3, 3#64, by decide +kernel⟩

theorem witness_FirmwareSpools_15 : ∃ (s : State) (k : Nat), (spoolOf s k).closing = true ∧ (spoolOf s k).dropping = false ∧ (spoolOf s k).words.length < spoolDepth s k :=
  ⟨setSpool State.reset 3 { closing := true, owner := some 4, words := [(77#64, (false, false))] }, 3, by decide +kernel⟩

theorem witness_FirmwareSpools_16 : ∃ (k : Nat), k < 32 :=
  ⟨3, by decide +kernel⟩

/-- States and operands that meet the hypotheses of `FlashTierCommands`, clause by clause. -/
theorem witness_FlashTierCommands_1 : ∃ (s : State) (l : List Byte), s.part.hasFlt = true ∧ fltState s ≠ .off ∧ fltState s ≠ .init ∧ s.flt.cmds.length < 64 ∧ s.flt.nextFetch ≠ fld s F.FLT_Q_TAIL_TAIL ∧ powerLost s = false ∧ (busRead s portFlt (fld s F.FLT_Q_BASE_BASE + 32 * s.flt.nextFetch) 32).1 = some l ∧ tierCheck ({ (busRead s portFlt (fld s F.FLT_Q_BASE_BASE + 32 * s.flt.nextFetch) 32).2 with flt := { ((busRead s portFlt (fld s F.FLT_Q_BASE_BASE + 32 * s.flt.nextFetch) 32).2).flt with nextFetch := (s.flt.nextFetch + 1) % tierRing ((busRead s portFlt (fld s F.FLT_Q_BASE_BASE + 32 * s.flt.nextFetch) 32).2) } }) (fun j => (BitVec.ofNat 64 (leNat ((l.drop (8 * j)).take 8)))) = 0 :=
  ⟨{ writeBytes (withRegs [(F.FLT_STAT_STATE, 0, 5), (F.SYC_SCRATCH_COUNT, 0, 1), (F.FLT_CTL_Q_LOG2, 0, 6), (F.FLT_Q_BASE_BASE, 0, 0xE0000000), (F.FLT_Q_TAIL_TAIL, 0, 5), (F.FLT_Q_HEAD_HEAD, 0, 2)]) 0xE0000040 (wordBytes 0x0000000700030001#64 ++ wordBytes 0xE0010000#64 ++ wordBytes 0xE0020000#64 ++ List.replicate 8 0#8) with flt := { nextFetch := 2, formatted := true, logical := 100 } }, wordBytes 0x0000000700030001#64 ++ wordBytes 0xE0010000#64 ++ wordBytes 0xE0020000#64 ++ List.replicate 8 0#8, by decide +kernel⟩

theorem witness_FlashTierCommands_2 : ∃ (s : State) (l : List Byte), s.part.hasFlt = true ∧ fltState s ≠ .off ∧ fltState s ≠ .init ∧ s.flt.cmds.length < 64 ∧ s.flt.nextFetch ≠ fld s F.FLT_Q_TAIL_TAIL ∧ powerLost s = false ∧ (busRead s portFlt (fld s F.FLT_Q_BASE_BASE + 32 * s.flt.nextFetch) 32).1 = some l ∧ tierCheck ({ (busRead s portFlt (fld s F.FLT_Q_BASE_BASE + 32 * s.flt.nextFetch) 32).2 with flt := { ((busRead s portFlt (fld s F.FLT_Q_BASE_BASE + 32 * s.flt.nextFetch) 32).2).flt with nextFetch := (s.flt.nextFetch + 1) % tierRing ((busRead s portFlt (fld s F.FLT_Q_BASE_BASE + 32 * s.flt.nextFetch) 32).2) } }) (fun j => (BitVec.ofNat 64 (leNat ((l.drop (8 * j)).take 8)))) ≠ 0 :=
  ⟨{ writeBytes (withRegs [(F.FLT_STAT_STATE, 0, 5), (F.SYC_SCRATCH_COUNT, 0, 1), (F.FLT_CTL_Q_LOG2, 0, 6), (F.FLT_Q_BASE_BASE, 0, 0xE0000000), (F.FLT_Q_TAIL_TAIL, 0, 5), (F.FLT_Q_HEAD_HEAD, 0, 2)]) 0xE0000040 (wordBytes 0x00000007000300FF#64 ++ wordBytes 0xE0010000#64 ++ wordBytes 0xE0020000#64 ++ List.replicate 8 0#8) with flt := { nextFetch := 2, formatted := true, logical := 100 } }, wordBytes 0x00000007000300FF#64 ++ wordBytes 0xE0010000#64 ++ wordBytes 0xE0020000#64 ++ List.replicate 8 0#8, by decide +kernel⟩

theorem witness_FlashTierCommands_4 : ∃ (s : State) (k : Nat) (stripe : Nat) (dies : List Nat) (c : TierCmd) (x : Stripe), tierStart s k 1 = some c ∧ powerLost s = false ∧ fltState s ≠ .constrained ∧ stripeOf s stripe = some x ∧ x.closed = false ∧ x.slc = true ∧ x.srcs = [] ∧ dies.length = c.count ∧ (dies.any (fun d => decide (d ∉ s.flt.dies ∨ d ∈ s.flt.lostDies)) = false) ∧ (readTlps c c.count 0 (setFlds s 0 [(F.FLT_STAT_WRITE_WAIT, 0), (F.FLT_STAT_THROTTLING, 0)])).1.isSome = true :=
  ⟨{ withRegs [(F.FLT_STAT_STATE, 0, 5), (F.SYC_SCRATCH_COUNT, 0, 1), (F.FLT_CTL_Q_LOG2, 0, 6), (F.FLT_Q_BASE_BASE, 0, 0xE0000000), (F.FLT_Q_TAIL_TAIL, 0, 5), (F.FLT_Q_HEAD_HEAD, 0, 2)] with flt := { formatted := true, logical := 100, dies := [0, 1, 2, 3], width := 4, stripes := [(3, some {})], cmds := [{ idx := 2, op := 1, count := 1, tlp := 7, buf := 0xE0010000, tagbuf := 0xE0020000 }] } }, 0, 3, [2], { idx := 2, op := 1, count := 1, tlp := 7, buf := 0xE0010000, tagbuf := 0xE0020000 }, {}, by decide +kernel⟩

theorem witness_FlashTierCommands_5 : ∃ (s : State) (k : Nat) (c : TierCmd), tierStart s k 1 = some c ∧ powerLost s = false :=
  ⟨{ withRegs [(F.FLT_STAT_STATE, 0, 5), (F.SYC_SCRATCH_COUNT, 0, 1), (F.FLT_CTL_Q_LOG2, 0, 6), (F.FLT_Q_BASE_BASE, 0, 0xE0000000), (F.FLT_Q_TAIL_TAIL, 0, 5), (F.FLT_Q_HEAD_HEAD, 0, 2)] with flt := { cmds := [{ idx := 2, op := 1, count := 1, tlp := 7, buf := 0xE0010000, tagbuf := 0xE0020000 }] } }, 0, { idx := 2, op := 1, count := 1, tlp := 7, buf := 0xE0010000, tagbuf := 0xE0020000 }, by decide +kernel⟩

theorem witness_FlashTierCommands_6 : ∃ (s : State) (k : Nat) (c : TierCmd), tierStart s k 1 = some c ∧ powerLost s = false ∧ fltState s = .constrained ∧ c.flags / 4 % 2 = 0 ∧ fld s F.FLT_THROTTLE_RATE * 100000 < admittedNow s + c.count * 4096 ∧ admittedNow s ≠ 0 :=
  ⟨{ withRegs [(F.FLT_STAT_STATE, 0, 6), (F.SYC_SCRATCH_COUNT, 0, 1), (F.FLT_CTL_Q_LOG2, 0, 6), (F.FLT_Q_BASE_BASE, 0, 0xE0000000), (F.FLT_Q_TAIL_TAIL, 0, 5), (F.FLT_Q_HEAD_HEAD, 0, 2)] with flt := { admitted := [(0, 40000000)], cmds := [{ idx := 2, op := 1, count := 1, tlp := 7, buf := 0xE0010000, tagbuf := 0xE0020000 }] } }, 0, { idx := 2, op := 1, count := 1, tlp := 7, buf := 0xE0010000, tagbuf := 0xE0020000 }, by decide +kernel⟩

theorem witness_FlashTierCommands_7 : ∃ (s : State) (k : Nat) (bad : List Nat) (c : TierCmd) (x : TlpCopy), tierStart s k 2 = some c ∧ powerLost s = false ∧ c.flags / 8 % 2 = 0 ∧ c.count = 1 ∧ tlpCopy s c.tlp = some x ∧ x.ue = false ∧ c.tlp ∉ bad ∧ (returnTlp s c 0 x.data x.tag).1 = true :=
  ⟨{ withRegs [(F.FLT_STAT_STATE, 0, 5), (F.SYC_SCRATCH_COUNT, 0, 1), (F.FLT_CTL_Q_LOG2, 0, 6), (F.FLT_Q_BASE_BASE, 0, 0xE0000000), (F.FLT_Q_TAIL_TAIL, 0, 5), (F.FLT_Q_HEAD_HEAD, 0, 2)] with flt := { formatted := true, logical := 100, dies := [0, 1, 2, 3], width := 4, stripes := [(3, some { closed := true, copies := [{ tlp := 7, die := 1, data := [9#8], tag := [] }] })], map := [(7, some 3)], cmds := [{ idx := 2, op := 2, count := 1, tlp := 7, buf := 0xE0010000, tagbuf := 0xE0020000 }] } }, 0, [5], { idx := 2, op := 2, count := 1, tlp := 7, buf := 0xE0010000, tagbuf := 0xE0020000 }, { tlp := 7, die := 1, data := [9#8], tag := [] }, by decide +kernel⟩

theorem witness_FlashTierCommands_8 : ∃ (s : State) (k : Nat) (c : TierCmd), tierStart s k 2 = some c ∧ powerLost s = false ∧ c.flags / 8 % 2 = 0 ∧ c.count = 1 ∧ mapOf s c.tlp = none ∧ (returnTlp s c 0 (List.replicate 4096 0#8) (List.replicate 16 0#8)).1 = true :=
  ⟨{ writeByte (withRegs [(F.FLT_STAT_STATE, 0, 5), (F.SYC_SCRATCH_COUNT, 0, 1), (F.FLT_CTL_Q_LOG2, 0, 6), (F.FLT_Q_BASE_BASE, 0, 0xE0000000), (F.FLT_Q_TAIL_TAIL, 0, 5), (F.FLT_Q_HEAD_HEAD, 0, 2)]) 0xE0010005 7#8 with flt := { cmds := [{ idx := 2, op := 2, count := 1, tlp := 7, buf := 0xE0010000, tagbuf := 0xE0020000 }] } }, 0, { idx := 2, op := 2, count := 1, tlp := 7, buf := 0xE0010000, tagbuf := 0xE0020000 }, by decide +kernel⟩

theorem witness_FlashTierCommands_9 : ∃ (s : State) (k : Nat) (c : TierCmd) (x : TlpCopy), tierStart s k 2 = some c ∧ powerLost s = false ∧ c.flags / 8 % 2 = 0 ∧ c.count = 1 ∧ tlpCopy s c.tlp = some x ∧ x.ue = true :=
  ⟨{ withRegs [(F.FLT_STAT_STATE, 0, 5), (F.SYC_SCRATCH_COUNT, 0, 1), (F.FLT_CTL_Q_LOG2, 0, 6), (F.FLT_Q_BASE_BASE, 0, 0xE0000000), (F.FLT_Q_TAIL_TAIL, 0, 5), (F.FLT_Q_HEAD_HEAD, 0, 2)] with flt := { formatted := true, logical := 100, dies := [0, 1, 2, 3], width := 4, stripes := [(3, some { closed := true, copies := [{ tlp := 7, die := 1, data := [9#8], ue := true }] })], map := [(7, some 3)], cmds := [{ idx := 2, op := 2, count := 1, tlp := 7, buf := 0xE0010000, tagbuf := 0xE0020000 }] } }, 0, { idx := 2, op := 2, count := 1, tlp := 7, buf := 0xE0010000, tagbuf := 0xE0020000 }, { tlp := 7, die := 1, data := [9#8], ue := true }, by decide +kernel⟩

theorem witness_FlashTierCommands_10 : ∃ (s : State) (k : Nat) (j : Nat) (c : TierCmd), tierStart s k 3 = some c ∧ powerLost s = false ∧ j < c.count :=
  ⟨{ withRegs [(F.FLT_STAT_STATE, 0, 5), (F.SYC_SCRATCH_COUNT, 0, 1), (F.FLT_CTL_Q_LOG2, 0, 6), (F.FLT_Q_BASE_BASE, 0, 0xE0000000), (F.FLT_Q_TAIL_TAIL, 0, 5), (F.FLT_Q_HEAD_HEAD, 0, 2)] with flt := { map := [(6, some 1), (8, some 3)], pinned := [(8, true)], cmds := [{ idx := 2, op := 3, flags := 16, count := 2, tlp := 7 }] } }, 0, 1, { idx := 2, op := 3, flags := 16, count := 2, tlp := 7 }, by decide +kernel⟩

theorem witness_FlashTierCommands_11 : ∃ (s : State) (k : Nat) (c : TierCmd), tierStart s k 4 = some c ∧ powerLost s = false :=
  ⟨{ withRegs [(F.FLT_STAT_STATE, 0, 5), (F.SYC_SCRATCH_COUNT, 0, 1), (F.FLT_CTL_Q_LOG2, 0, 6), (F.FLT_Q_BASE_BASE, 0, 0xE0000000), (F.FLT_Q_TAIL_TAIL, 0, 5), (F.FLT_Q_HEAD_HEAD, 0, 2)] with flt := { image := some {}, erased := true, cmds := [{ idx := 2, op := 4, count := 1 }] } }, 0, { idx := 2, op := 4, count := 1 }, by decide +kernel⟩

theorem witness_FlashTierCommands_12 : ∃ (s : State) (k : Nat) (c : TierCmd), tierStart s k 5 = some c ∧ powerLost s = false :=
  ⟨{ withRegs [(F.FLT_STAT_STATE, 0, 2), (F.FLT_GEOM_BLOCKS, 0, 1960), (F.FLT_GEOM_PLANES, 0, 4), (F.FLT_STAT_IMAGE_HELD, 0, 1)] (wr State.reset .FLT_DIE_MAP 0 0x7FFF#64) with flt := { cmds := [{ idx := 2, op := 5, count := 0, tlp := 10 }], map := [(7, some 3)], image := some {} } }, 0, { idx := 2, op := 5, count := 0, tlp := 10 }, by decide +kernel⟩

theorem witness_FlashTierCommands_13 : ∃ (s : State) (k : Nat) (j : Nat) (c : TierCmd), tierCmd s k = some c ∧ c.fin = some (0, c.count) ∧ c.op = 1 ∧ j < c.count :=
  ⟨{ withRegs [(F.FLT_STAT_STATE, 0, 5), (F.SYC_SCRATCH_COUNT, 0, 1), (F.FLT_CTL_Q_LOG2, 0, 6), (F.FLT_Q_BASE_BASE, 0, 0xE0000000), (F.FLT_Q_TAIL_TAIL, 0, 5), (F.FLT_Q_HEAD_HEAD, 0, 2)] with flt := { map := [(6, some 1), (8, some 3)], cmds := [{ idx := 2, op := 1, count := 2, tlp := 7, stripe := 4, fin := some (0, 2) }] } }, 0, 1, { idx := 2, op := 1, count := 2, tlp := 7, stripe := 4, fin := some (0, 2) }, by decide +kernel⟩

theorem witness_FlashTierCommands_14 : ∃ (s : State) (k : Nat) (st : Nat) (n : Nat) (c : TierCmd), tierCmd s k = some c ∧ c.fin = some (st, n) ∧ (c.op ≠ 1 ∨ st ≠ 0) :=
  ⟨{ withRegs [(F.FLT_STAT_STATE, 0, 5), (F.SYC_SCRATCH_COUNT, 0, 1), (F.FLT_CTL_Q_LOG2, 0, 6), (F.FLT_Q_BASE_BASE, 0, 0xE0000000), (F.FLT_Q_TAIL_TAIL, 0, 5), (F.FLT_Q_HEAD_HEAD, 0, 2)] with flt := { cmds := [{ idx := 2, op := 2, count := 2, tlp := 7, fin := some (0xD5, 1) }] } }, 0, 0xD5, 1, { idx := 2, op := 2, count := 2, tlp := 7, fin := some (0xD5, 1) }, by decide +kernel⟩

/-- States and operands that meet the hypotheses of `FlashTierUpkeep`, clause by clause. -/
theorem witness_FlashTierUpkeep_1 : ∃ (s : State) (v : Word), s.part.hasFlt = true ∧ fltState s = .off ∧ flag s F.BFM_DRAM_STAT_READY = true ∧ fld s F.SEC_LC_STATE ≠ 4 ∧ bit v 1 = false :=
  ⟨withRegs [(F.BFM_DRAM_STAT_READY, 0, 1)], 0xF1#64, by decide +kernel⟩

theorem witness_FlashTierUpkeep_2 : ∃ (s : State) (v : Word), s.part.hasFlt = true ∧ fltState s = .off ∧ flag s F.BFM_DRAM_STAT_READY = false ∧ fld s F.SEC_LC_STATE ≠ 4 ∧ bit v 1 = false :=
  ⟨State.reset, 0xF1#64, by decide +kernel⟩

theorem witness_FlashTierUpkeep_3 : ∃ (s : State), s.part.hasFlt = false :=
  ⟨{ State.reset with part := .fjd7411n }, by decide +kernel⟩

theorem witness_FlashTierUpkeep_4 : ∃ (s : State) (u : Word), fltState s = .init ∧ ((List.range 64).filter (fun d => bit u d && decide (d < s.part.dies))).length < 4 :=
  ⟨withRegs [(F.FLT_STAT_STATE, 0, 1)], 7#64, by decide +kernel⟩

theorem witness_FlashTierUpkeep_5 : ∃ (s : State) (u : Word), fltState s = .init ∧ 4 ≤ ((List.range 64).filter (fun d => bit u d && decide (d < s.part.dies))).length ∧ s.flt.formatted = false :=
  ⟨withRegs [(F.FLT_STAT_STATE, 0, 1)], 0xF#64, by decide +kernel⟩

theorem witness_FlashTierUpkeep_6 : ∃ (s : State) (u : Word) (i : FlushImage), fltState s = .init ∧ 4 ≤ ((List.range 64).filter (fun d => bit u d && decide (d < s.part.dies))).length ∧ s.flt.formatted = true ∧ s.flt.retiredMark = false ∧ s.flt.image = some i :=
  ⟨{ withRegs [(F.FLT_STAT_STATE, 0, 1)] with flt := { formatted := true, image := some { committed := true }, dies := [0, 1, 2, 3] } }, 0xF#64, { committed := true }, by decide +kernel⟩

theorem witness_FlashTierUpkeep_7 : ∃ (s : State), s.part.hasFlt = true ∧ fltState s ≠ .off :=
  ⟨{ withRegs [(F.FLT_STAT_STATE, 0, 5), (F.FLT_PE_RATED_SLC_WEIGHT, 0, 4)] with flt := { formatted := true, nTotal := 1000, spare := 40, spareInit := 50, dies := [0, 1, 2, 3], width := 4 } }, by decide +kernel⟩

theorem witness_FlashTierUpkeep_8 : ∃ (s : State), s.part.hasFlt = true ∧ fltState s ≠ .off :=
  ⟨{ withRegs [(F.FLT_STAT_STATE, 0, 5), (F.FLT_PE_RATED_SLC_WEIGHT, 0, 4)] with flt := { formatted := true, nTotal := 1000, spare := 40, spareInit := 50, dies := [0, 1, 2, 3], width := 4 } }, by decide +kernel⟩

theorem witness_FlashTierUpkeep_9 : ∃ (s : State) (die : Nat) (block : Nat), s.part.hasFlt = true ∧ fltState s ≠ .off ∧ tget (dflt false) s.flt.retired (die * 2 ^ 16 + block % 2 ^ 16) = false :=
  ⟨{ withRegs [(F.FLT_STAT_STATE, 0, 5), (F.FLT_PE_RATED_SLC_WEIGHT, 0, 4)] with flt := { formatted := true, nTotal := 1000, spare := 40, spareInit := 50, dies := [0, 1, 2, 3], width := 4 } }, 2, 9, by decide +kernel⟩

theorem witness_FlashTierUpkeep_10 : ∃ (s : State) (die : Nat) (block : Nat) (lost : List Nat), s.part.hasFlt = true ∧ fltState s ≠ .off ∧ tget (dflt false) s.flt.retired (die * 2 ^ 16 + block % 2 ^ 16) = false ∧ lost = [] :=
  ⟨{ withRegs [(F.FLT_STAT_STATE, 0, 5), (F.FLT_PE_RATED_SLC_WEIGHT, 0, 4)] with flt := { formatted := true, nTotal := 1000, spare := 40, spareInit := 50, dies := [0, 1, 2, 3], width := 4 } }, 2, 9, [], by decide +kernel⟩

theorem witness_FlashTierUpkeep_11 : ∃ (s : State), s.part.hasFlt = true ∧ fltState s ≠ .off :=
  ⟨{ withRegs [(F.FLT_STAT_STATE, 0, 5), (F.FLT_PE_RATED_SLC_WEIGHT, 0, 4)] with flt := { formatted := true, nTotal := 1000, spare := 40, spareInit := 50, dies := [0, 1, 2, 3], width := 4 } }, by decide +kernel⟩

theorem witness_FlashTierUpkeep_12 : ∃ (s : State) (k : Nat) (x : Stripe), stripeOf s k = some x ∧ x.closed = false ∧ x.srcs = [] ∧ powerLost s = false :=
  ⟨{ withRegs [(F.FLT_STAT_STATE, 0, 5), (F.FLT_PE_RATED_SLC_WEIGHT, 0, 4)] with flt := { formatted := true, nTotal := 1000, spare := 40, spareInit := 50, dies := [0, 1, 2, 3], width := 4, stripes := [(5, some {})] } }, 5, {}, by decide +kernel⟩

theorem witness_FlashTierUpkeep_13 : ∃ (s : State) (k : Nat) (x : Stripe), stripeOf s k = some x ∧ x.closed = false ∧ powerLost s = false ∧ k ∉ x.srcs :=
  ⟨{ withRegs [(F.FLT_STAT_STATE, 0, 5), (F.FLT_PE_RATED_SLC_WEIGHT, 0, 4)] with flt := { formatted := true, nTotal := 1000, spare := 40, spareInit := 50, dies := [0, 1, 2, 3], width := 4, stripes := [(5, some { slc := false, srcs := [1, 2], copies := [{ tlp := 7 }, { tlp := 8 }] })], map := [(7, some 1), (8, some 3)] } }, 5, { slc := false, srcs := [1, 2], copies := [{ tlp := 7 }, { tlp := 8 }] }, by decide +kernel⟩

theorem witness_FlashTierUpkeep_14 : ∃ (s : State) (k : Nat) (b : Nat) (failing : List Nat) (lost : List Nat) (x : Stripe), stripeOf s k = some x ∧ x.closed = false ∧ powerLost s = false ∧ b ∈ failing ∧ lost = [] :=
  ⟨{ withRegs [(F.FLT_STAT_STATE, 0, 5), (F.FLT_PE_RATED_SLC_WEIGHT, 0, 4)] with flt := { formatted := true, nTotal := 1000, spare := 40, spareInit := 50, dies := [0, 1, 2, 3], width := 4, stripes := [(5, some {})] } }, 5, 0x20009, [0x20009], [], {}, by decide +kernel⟩

theorem witness_FlashTierUpkeep_15 : ∃ (s : State) (die : Nat), die ∈ s.flt.dies ∧ die ∉ s.flt.lostDies ∧ fltState s ≠ .off :=
  ⟨{ withRegs [(F.FLT_STAT_STATE, 0, 5), (F.FLT_PE_RATED_SLC_WEIGHT, 0, 4)] with flt := { formatted := true, nTotal := 1000, spare := 40, spareInit := 50, dies := [0, 1, 2, 3], width := 4 } }, 2, by decide +kernel⟩

theorem witness_FlashTierUpkeep_16 : ∃ (s : State) (dest : Nat) (srcs : List Nat) (dies : List Nat), mayCopy s dest dies = true ∧ srcs ≠ [] ∧ srcs = ((s.flt.stripes.filter (fun e => match e.2 with | some x => x.closed && x.slc | none => false)).map (·.1)).take srcs.length :=
  ⟨{ withRegs [(F.FLT_STAT_STATE, 0, 5), (F.FLT_PE_RATED_SLC_WEIGHT, 0, 4)] with flt := { formatted := true, nTotal := 1000, spare := 40, spareInit := 50, dies := [0, 1, 2, 3], width := 4, stripes := [(1, some { closed := true, copies := [{ tlp := 7, data := [9#8] }, { tlp := 8 }] }), (2, some { closed := true, copies := [] })], map := [(7, some 1)] } }, 9, [1, 2], [0], by decide +kernel⟩

theorem witness_FlashTierUpkeep_17 : ∃ (s : State) (victim : Nat) (dest : Nat) (dies : List Nat) (x : Stripe), mayCopy s dest dies = true ∧ stripeOf s victim = some x ∧ x.closed = true ∧ fewestValid s victim x = true :=
  ⟨{ withRegs [(F.FLT_STAT_STATE, 0, 5), (F.FLT_PE_RATED_SLC_WEIGHT, 0, 4)] with flt := { formatted := true, nTotal := 1000, spare := 40, spareInit := 50, dies := [0, 1, 2, 3], width := 4, stripes := [(1, some { closed := true, copies := [{ tlp := 7, data := [9#8] }, { tlp := 8 }] }), (2, some { closed := true, copies := [] })], map := [(7, some 1)] } }, 2, 9, [], { closed := true, copies := [] }, by decide +kernel⟩

theorem witness_FlashTierUpkeep_18 : ∃ (s : State), s.part.hasFlt = true ∧ fltState s = .constrained ∧ flag s F.FLT_STAT_RETIRE_REQ = true :=
  ⟨{ withRegs [(F.FLT_STAT_STATE, 0, 6), (F.FLT_STAT_RETIRE_REQ, 0, 1)] with flt := { formatted := true, stripes := [(1, some {})] } }, by decide +kernel⟩

theorem witness_FlashTierUpkeep_19 : ∃ (s : State), s.part.hasFlt = true ∧ fltState s ≠ .off ∧ flag s F.FLT_STAT_RETIRE_REQ = false :=
  ⟨withRegs [(F.FLT_STAT_STATE, 0, 5)], by decide +kernel⟩

/-- States and operands that meet the hypotheses of `ServiceCores`, clause by clause. -/
theorem witness_ServiceCores_1 : ∃ (s : State) (c : Nat) (addr : Nat) (j : Nat) (x : L2Line), c < s.part.cores ∧ flag s F.SVC_CORE_CTL_RUN c = true ∧ j < s.part.clusters ∧ l2Line s j (addr / 64) = some x :=
  ⟨{ withRegs [(F.SVC_CORE_CTL_RUN, 5, 1)] with l2 := [(l2Key 1 0x40000003, some { data := List.replicate 64 9#8, dirty := true })] }, 5, 0x10000000C8, 1, { data := List.replicate 64 9#8, dirty := true }, by decide +kernel⟩

theorem witness_ServiceCores_2 : ∃ (s : State) (c : Nat) (j : Nat), c < s.part.cores ∧ flag s F.SVC_CORE_CTL_RUN c = true ∧ j < s.part.clusters :=
  ⟨{ withRegs [(F.SVC_CORE_CTL_RUN, 5, 1)] with l2 := [(l2Key 1 0x40000003, some { data := List.replicate 64 9#8, dirty := true })] }, 5, 1, by decide +kernel⟩

theorem witness_ServiceCores_3 : ∃ (s : State) (c : Nat) (j : Nat), c < s.part.cores ∧ flag s F.SVC_CORE_CTL_RUN c = true ∧ j < s.part.clusters :=
  ⟨{ withRegs [(F.SVC_CORE_CTL_RUN, 5, 1)] with l2 := [(l2Key 1 0x40000003, some { data := List.replicate 64 9#8, dirty := true })] }, 5, 1, by decide +kernel⟩

theorem witness_ServiceCores_4 : ∃ (s : State) (c : Nat), c < s.part.cores ∧ flag s F.SVC_CORE_CTL_RUN c = false :=
  ⟨State.reset, 5, by decide +kernel⟩

theorem witness_ServiceCores_5 : ∃ (s : State) (c : Nat) (n : Nat), c < s.part.cores ∧ flag s F.SVC_CORE_CTL_RUN c = true ∧ n < 64 ∧ (semOf s n).owner = some c :=
  ⟨setSem (withRegs [(F.SVC_CORE_CTL_RUN, 5, 1)]) 7 { owner := some 5 }, 5, 7, by decide +kernel⟩

theorem witness_ServiceCores_6 : ∃ (s : State) (e : Nat) (n : Nat), enginePresent s e = true ∧ n < 64 ∧ (semOf s n).owner = none :=
  ⟨setSem State.reset 7 { orphaned := true }, 21, 7, by decide +kernel⟩

theorem witness_ServiceCores_7 : ∃ (s : State) (e : Nat) (n : Nat) (o : Nat), enginePresent s e = true ∧ n < 64 ∧ (semOf s n).owner = some o :=
  ⟨setSem State.reset 7 { owner := some 4 }, 21, 7, 4, by decide +kernel⟩

theorem witness_ServiceCores_8 : ∃ (s : State) (e : Nat) (n : Nat), n < 64 ∧ (semOf s n).owner = some e :=
  ⟨setSem State.reset 7 { owner := some 4 }, 4, 7, by decide +kernel⟩

theorem witness_ServiceCores_9 : ∃ (s : State) (e : Nat) (n : Nat), n < 64 ∧ (semOf s n).owner ≠ some e :=
  ⟨setSem State.reset 7 { owner := some 4 }, 5, 7, by decide +kernel⟩

theorem witness_ServiceCores_10 : ∃ (s : State) (v : Word) (c : Nat), c < s.part.cores ∧ bit v c = true :=
  ⟨State.reset, 0x20#64, 5, by decide +kernel⟩

theorem witness_ServiceCores_11 : ∃ (s : State) (c : Nat), c < s.part.cores ∧ (rd s .SVC_MTIMECMP c).toNat ≤ (rd s .SVC_MTIME 0).toNat :=
  ⟨wr (wr State.reset .SVC_MTIMECMP 5 100#64) .SVC_MTIME 0 100#64, 5, by decide +kernel⟩

/-- States and operands that meet the hypotheses of `OffloadEngines`, clause by clause. -/
theorem witness_OffloadEngines_1 : ∃ (s : State) (r : WeaveRun) (x : List Byte), s.ofl.weave = some r ∧ getBits (r.words.getD 0 0#64) 0 8 = 1 ∧ r.fin = none ∧ (xorSources r.words (64 * r.lines) (weaveSources r.words) s).1 = some x ∧ (busWrite ((xorSources r.words (64 * r.lines) (weaveSources r.words) s).2) portOfl (getBits (r.words.getD 5 0#64) 0 40 + 64 * r.lines) x).1 = true :=
  ⟨{ writeByte (writeByte (withRegs [(F.SYC_SCRATCH_COUNT, 0, 1)]) 0xE0001005 0x0F#8) 0xE0002005 0xFF#8 with ofl := { weave := some { words := [0x0000008000000201#64, 0xE0001000#64, 0xE0002000#64, 0#64, 0#64, 0xE0003000#64, 0#64, 0#64] } } }, { words := [0x0000008000000201#64, 0xE0001000#64, 0xE0002000#64, 0#64, 0#64, 0xE0003000#64, 0#64, 0#64] }, ((List.replicate 64 0#8).set 5 (0xF0#8)), by decide +kernel⟩

theorem witness_OffloadEngines_2 : ∃ (s : State) (r : WeaveRun) (x : List Byte), s.ofl.weave = some r ∧ getBits (r.words.getD 0 0#64) 0 8 = 2 ∧ r.fin = none ∧ (xorSources r.words (64 * r.lines) (weaveSources r.words) s).1 = some x ∧ (∀ b ∈ x, b = 0#8) :=
  ⟨{ writeByte (writeByte (withRegs [(F.SYC_SCRATCH_COUNT, 0, 1)]) 0xE0001005 0x0F#8) 0xE0002005 0x0F#8 with ofl := { weave := some { words := [0x0000008000000202#64, 0xE0001000#64, 0xE0002000#64, 0#64, 0#64, 0#64, 0#64, 0#64] } } }, { words := [0x0000008000000202#64, 0xE0001000#64, 0xE0002000#64, 0#64, 0#64, 0#64, 0#64, 0#64] }, ((List.replicate 64 0#8).set 5 (0#8)), by decide +kernel⟩

theorem witness_OffloadEngines_3 : ∃ (s : State) (r : WeaveRun) (x : List Byte), s.ofl.weave = some r ∧ getBits (r.words.getD 0 0#64) 0 8 = 2 ∧ r.fin = none ∧ (xorSources r.words (64 * r.lines) (weaveSources r.words) s).1 = some x ∧ (¬ (∀ b ∈ x, b = 0#8)) :=
  ⟨{ writeByte (writeByte (withRegs [(F.SYC_SCRATCH_COUNT, 0, 1)]) 0xE0001005 0x0F#8) 0xE0002005 0xFF#8 with ofl := { weave := some { words := [0x0000008000000202#64, 0xE0001000#64, 0xE0002000#64, 0#64, 0#64, 0#64, 0#64, 0#64] } } }, { words := [0x0000008000000202#64, 0xE0001000#64, 0xE0002000#64, 0#64, 0#64, 0#64, 0#64, 0#64] }, ((List.replicate 64 0#8).set 5 (0xF0#8)), by decide +kernel⟩

theorem witness_OffloadEngines_4 : ∃ (s : State) (r : WeaveRun) (x : List Byte), s.ofl.weave = some r ∧ getBits (r.words.getD 0 0#64) 0 8 = 3 ∧ r.fin = none ∧ (xorSources r.words (64 * r.lines) (weaveSources r.words) s).1 = some x ∧ (∀ b ∈ x, b = 0#8) :=
  ⟨{ writeByte (writeByte (withRegs [(F.SYC_SCRATCH_COUNT, 0, 1)]) 0xE0001005 0x0F#8) 0xE0002005 0x0F#8 with ofl := { weave := some { words := [0x0000008000000203#64, 0xE0001000#64, 0xE0002000#64, 0#64, 0#64, 0#64, 0#64, 0#64] } } }, { words := [0x0000008000000203#64, 0xE0001000#64, 0xE0002000#64, 0#64, 0#64, 0#64, 0#64, 0#64] }, ((List.replicate 64 0#8).set 5 (0#8)), by decide +kernel⟩

theorem witness_OffloadEngines_5 : ∃ (s : State) (r : WeaveRun) (x : List Byte), s.ofl.weave = some r ∧ getBits (r.words.getD 0 0#64) 0 8 = 3 ∧ r.fin = none ∧ (xorSources r.words (64 * r.lines) (weaveSources r.words) s).1 = some x ∧ (¬ (∀ b ∈ x, b = 0#8)) :=
  ⟨{ writeByte (writeByte (withRegs [(F.SYC_SCRATCH_COUNT, 0, 1)]) 0xE0001005 0x0F#8) 0xE0002005 0xFF#8 with ofl := { weave := some { words := [0x0000008000000203#64, 0xE0001000#64, 0xE0002000#64, 0#64, 0#64, 0#64, 0#64, 0#64] } } }, { words := [0x0000008000000203#64, 0xE0001000#64, 0xE0002000#64, 0#64, 0#64, 0#64, 0#64, 0#64] }, ((List.replicate 64 0#8).set 5 (0xF0#8)), by decide +kernel⟩

theorem witness_OffloadEngines_6 : ∃ (s : State) (l : List Byte), oflHalted s = false ∧ s.ofl.weave = none ∧ fld s F.OFL_WV_HEAD_HEAD ≠ fld s F.OFL_WV_TAIL_TAIL ∧ (busRead s portOfl (weaveEntry s) 64).1 = some l ∧ getBits (cmdWord l 0) 0 8 = 1 :=
  ⟨writeBytes (withRegs [(F.SYC_SCRATCH_COUNT, 0, 1), (F.OFL_WV_TAIL_TAIL, 0, 1), (F.OFL_WV_RING_BASE, 0, 0xE0000000), (F.OFL_WV_RING_LOG2, 0, 2)]) 0xE0000000 ([0x01#8, 2#8] ++ List.replicate 62 0#8), [0x01#8, 2#8] ++ List.replicate 62 0#8, by decide +kernel⟩

theorem witness_OffloadEngines_7 : ∃ (s : State) (l : List Byte), oflHalted s = false ∧ s.ofl.weave = none ∧ fld s F.OFL_WV_HEAD_HEAD ≠ fld s F.OFL_WV_TAIL_TAIL ∧ (busRead s portOfl (weaveEntry s) 64).1 = some l ∧ getBits (cmdWord l 0) 0 8 = 2 :=
  ⟨writeBytes (withRegs [(F.SYC_SCRATCH_COUNT, 0, 1), (F.OFL_WV_TAIL_TAIL, 0, 1), (F.OFL_WV_RING_BASE, 0, 0xE0000000), (F.OFL_WV_RING_LOG2, 0, 2)]) 0xE0000000 ([0x02#8, 2#8] ++ List.replicate 62 0#8), [0x02#8, 2#8] ++ List.replicate 62 0#8, by decide +kernel⟩

theorem witness_OffloadEngines_8 : ∃ (s : State) (l : List Byte), oflHalted s = false ∧ s.ofl.weave = none ∧ fld s F.OFL_WV_HEAD_HEAD ≠ fld s F.OFL_WV_TAIL_TAIL ∧ (busRead s portOfl (weaveEntry s) 64).1 = some l ∧ getBits (cmdWord l 0) 0 8 = 3 :=
  ⟨writeBytes (withRegs [(F.SYC_SCRATCH_COUNT, 0, 1), (F.OFL_WV_TAIL_TAIL, 0, 1), (F.OFL_WV_RING_BASE, 0, 0xE0000000), (F.OFL_WV_RING_LOG2, 0, 2)]) 0xE0000000 ([0x03#8, 2#8] ++ List.replicate 62 0#8), [0x03#8, 2#8] ++ List.replicate 62 0#8, by decide +kernel⟩

theorem witness_OffloadEngines_9 : ∃ (s : State) (r : CarderRun) (rcd : List Byte) (out : List Byte) (ext : Nat), s.ofl.carder = some r ∧ getBits (r.words.getD 0 0#64) 0 8 = 1 ∧ r.fin = none ∧ r.consumed ≠ getBits (r.words.getD 2 0#64) 0 32 ∧ (nextRecord s r).1 = .inr (rcd, ext) ∧ recordTrue r rcd = true ∧ (recordOut ((nextRecord s r).2) r ext).1 = some out ∧ r.produced + out.length ≤ getBits (r.words.getD 4 0#64) 0 32 ∧ (busWrite ((recordOut ((nextRecord s r).2) r ext).2) portOfl (getBits (r.words.getD 3 0#64) 0 40 + r.produced) out).1 = true :=
  ⟨{ writeByte (writeByte (withRegs [(F.SYC_SCRATCH_COUNT, 0, 1)]) 0xE0001000 0x0F#8) 0xE0001001 7#8 with ofl := { carder := some { words := [0x0000000000080001#64, 0xE0001000#64, 16#64, 0xE0003000#64, 64#64, 0xE0002000#64, 0#64, 0#64], terms := [{ ctl := 0#64, value := 15#64 }] } } }, { words := [0x0000000000080001#64, 0xE0001000#64, 16#64, 0xE0003000#64, 64#64, 0xE0002000#64, 0#64, 0#64], terms := [{ ctl := 0#64, value := 15#64 }] }, [15#8, 7#8, 0#8, 0#8, 0#8, 0#8, 0#8, 0#8], [15#8, 7#8, 0#8, 0#8, 0#8, 0#8, 0#8, 0#8], 8, by decide +kernel⟩

theorem witness_OffloadEngines_10 : ∃ (s : State) (r : CarderRun) (rcd : List Byte) (ext : Nat), s.ofl.carder = some r ∧ getBits (r.words.getD 0 0#64) 0 8 = 1 ∧ r.fin = none ∧ r.consumed ≠ getBits (r.words.getD 2 0#64) 0 32 ∧ (nextRecord s r).1 = .inr (rcd, ext) ∧ recordTrue r rcd = false :=
  ⟨{ writeByte (writeByte (withRegs [(F.SYC_SCRATCH_COUNT, 0, 1)]) 0xE0001000 0x0F#8) 0xE0001001 7#8 with ofl := { carder := some { words := [0x0000000000080001#64, 0xE0001000#64, 16#64, 0xE0003000#64, 64#64, 0xE0002000#64, 0#64, 0#64], terms := [{ ctl := 0#64, value := 14#64 }] } } }, { words := [0x0000000000080001#64, 0xE0001000#64, 16#64, 0xE0003000#64, 64#64, 0xE0002000#64, 0#64, 0#64], terms := [{ ctl := 0#64, value := 14#64 }] }, [15#8, 7#8, 0#8, 0#8, 0#8, 0#8, 0#8, 0#8], 8, by decide +kernel⟩

theorem witness_OffloadEngines_11 : ∃ (s : State) (r : CarderRun) (rcd : List Byte) (out : List Byte) (ext : Nat), s.ofl.carder = some r ∧ getBits (r.words.getD 0 0#64) 0 8 = 1 ∧ r.fin = none ∧ r.consumed ≠ getBits (r.words.getD 2 0#64) 0 32 ∧ (nextRecord s r).1 = .inr (rcd, ext) ∧ recordTrue r rcd = true ∧ (recordOut ((nextRecord s r).2) r ext).1 = some out ∧ getBits (r.words.getD 4 0#64) 0 32 < r.produced + out.length :=
  ⟨{ writeByte (writeByte (withRegs [(F.SYC_SCRATCH_COUNT, 0, 1)]) 0xE0001000 0x0F#8) 0xE0001001 7#8 with ofl := { carder := some { words := [0x0000000000080001#64, 0xE0001000#64, 16#64, 0xE0003000#64, 7#64, 0xE0002000#64, 0#64, 0#64], terms := [{ ctl := 0#64, value := 15#64 }] } } }, { words := [0x0000000000080001#64, 0xE0001000#64, 16#64, 0xE0003000#64, 7#64, 0xE0002000#64, 0#64, 0#64], terms := [{ ctl := 0#64, value := 15#64 }] }, [15#8, 7#8, 0#8, 0#8, 0#8, 0#8, 0#8, 0#8], [15#8, 7#8, 0#8, 0#8, 0#8, 0#8, 0#8, 0#8], 8, by decide +kernel⟩

theorem witness_OffloadEngines_13 : ∃ (s : State) (r : WeaveRun) (st : Nat) (off : Nat), s.ofl.weave = some r ∧ r.fin = some (st, off) :=
  ⟨{ withRegs [(F.SYC_SCRATCH_COUNT, 0, 1), (F.OFL_WV_RING_BASE, 0, 0xE0000000), (F.OFL_WV_RING_LOG2, 0, 2), (F.OFL_WV_HEAD_HEAD, 0, 3)] with ofl := { weave := some { fin := some (0xE1, 64) } } }, { fin := some (0xE1, 64) }, 0xE1, 64, by decide +kernel⟩

theorem witness_OffloadEngines_14 : ∃ (s : State) (r : CarderRun) (st : Nat), s.ofl.carder = some r ∧ r.fin = some st :=
  ⟨{ withRegs [(F.SYC_SCRATCH_COUNT, 0, 1), (F.OFL_CD_RING_BASE, 0, 0xE0000000), (F.OFL_CD_RING_LOG2, 0, 2), (F.OFL_CD_HEAD_HEAD, 0, 3)] with ofl := { carder := some { found := 2, consumed := 24, produced := 16, fin := some 0xE2 } } }, { found := 2, consumed := 24, produced := 16, fin := some 0xE2 }, 0xE2, by decide +kernel⟩

theorem witness_OffloadEngines_15 : ∃ (s : State) (r : WeaveRun) (c : CarderRun), s.ofl.weave = some r ∧ r.fin = none ∧ s.ofl.carder = some c ∧ c.fin = none :=
  ⟨{ State.reset with ofl := { weave := some { lines := 3 }, carder := some { consumed := 8 } } }, { lines := 3 }, { consumed := 8 }, by decide +kernel⟩

/-- States and operands that meet the hypotheses of `FaultCollector`, clause by clause. -/
theorem witness_FaultCollector_1 : ∃ (s : State) (i : Nat) (w : Word) (rest : List Word), s.ckr.inReset = false ∧ grant 25 s.fcl.ptr (fun j => !(tget (dflt []) s.fcl.waiting j).isEmpty) = some i ∧ tget (dflt []) s.fcl.waiting i = w :: rest ∧ msgPar w = bit w 63 ∧ msgSev w < 7 ∧ msgSev w < fld s F.FCL_SRC_CFG_SEV_MIN (msgSource w) ∧ fld s F.EVR_RATE_PERIOD (256 + msgKind w) = 0 ∧ s.evr.ring.length < 1024 :=
  ⟨{ withRegs ([(F.EVR_RATE_PERIOD, 400, 0)]) with fcl := { waiting := [(5, [faultMsg 1030 0x90 3 0x55])] } }, 5, faultMsg 1030 0x90 3 0x55, [], by decide +kernel⟩

theorem witness_FaultCollector_2 : ∃ (s : State) (i : Nat) (w : Word) (rest : List Word), s.ckr.inReset = false ∧ grant 25 s.fcl.ptr (fun j => !(tget (dflt []) s.fcl.waiting j).isEmpty) = some i ∧ tget (dflt []) s.fcl.waiting i = w :: rest ∧ msgPar w = bit w 63 ∧ msgSev w = 7 ∧ safeState s = false ∧ flag s F.FCL_CAUSE_INFO_VALID = false :=
  ⟨{ withRegs ([]) with fcl := { waiting := [(5, [faultMsg 1030 0x90 7 0x55])] } }, 5, faultMsg 1030 0x90 7 0x55, [], by decide +kernel⟩

theorem witness_FaultCollector_3 : ∃ (s : State) (i : Nat) (w : Word) (rest : List Word), s.ckr.inReset = false ∧ grant 25 s.fcl.ptr (fun j => !(tget (dflt []) s.fcl.waiting j).isEmpty) = some i ∧ tget (dflt []) s.fcl.waiting i = w :: rest ∧ msgPar w ≠ bit w 63 ∧ safeState s = false :=
  ⟨{ withRegs ([]) with fcl := { waiting := [(5, [0x55#64 ||| 1#64 <<< 62])] } }, 5, 0x55#64 ||| 1#64 <<< 62, [], by decide +kernel⟩

theorem witness_FaultCollector_4 : ∃ (s : State) (i : Nat) (w : Word) (rest : List Word), s.ckr.inReset = false ∧ grant 25 s.fcl.ptr (fun j => !(tget (dflt []) s.fcl.waiting j).isEmpty) = some i ∧ tget (dflt []) s.fcl.waiting i = w :: rest ∧ msgPar w = bit w 63 ∧ fld s F.FCL_SRC_CFG_SEV_MIN (msgSource w) ≤ msgSev w ∧ flag s F.FCL_STAT_SELF = false ∧ flag s F.FCL_SRC_CFG_ERRN (msgSource w) = true ∧ flag s F.FCL_SRC_CFG_SAFE (msgSource w) = true :=
  ⟨{ withRegs ([(F.FCL_SRC_CFG_SAFE, 1030, 1)]) with fcl := { waiting := [(5, [faultMsg 1030 0x90 6 0x55])] } }, 5, faultMsg 1030 0x90 6 0x55, [], by decide +kernel⟩

theorem witness_FaultCollector_5 : ∃ (s : State) (w : Word) (rest : List Word), s.ckr.inReset = false ∧ s.fcl.fatal = w :: rest ∧ safeState s = false ∧ flag s F.FCL_CAUSE_INFO_VALID = false :=
  ⟨{ State.reset with fcl := { fatal := [faultMsg 16 4 7 9] } }, faultMsg 16 4 7 9, [], by decide +kernel⟩

theorem witness_FaultCollector_6 : ∃ (s : State) (w : Word) (rest : List Word), s.ckr.inReset = false ∧ s.fcl.fatal = w :: rest ∧ safeState s = true :=
  ⟨{ withRegs [(F.FCL_STAT_SAFE, 0, 1)] with fcl := { fatal := [faultMsg 16 4 7 9] } }, faultMsg 16 4 7 9, [], by decide +kernel⟩

theorem witness_FaultCollector_7 : ∃ (s : State) (e : Nat) (w : Word), 1024 ≤ msgSource w ∧ 128 ≤ msgKind w ∧ msgSev w < 7 ∧ e < 16 ∧ (waitingAt s .svc).length < 4 :=
  ⟨State.reset, 5, faultMsg 1030 0x90 3 0, by decide +kernel⟩

theorem witness_FaultCollector_8 : ∃ (w : Word), (msgSource w < 1024 ∨ msgKind w < 128) :=
  ⟨faultMsg 30 0x90 3 0, by decide +kernel⟩

theorem witness_FaultCollector_9 : ∃ (v : Word), 1024 ≤ getBits v 0 11 :=
  ⟨1030#64, by decide +kernel⟩

theorem witness_FaultCollector_10 : ∃ (v : Word), getBits v 0 11 < 1024 :=
  ⟨30#64, by decide +kernel⟩

theorem witness_FaultCollector_11 : ∃ (s : State) (k : Nat) (n : Nat), k < 32 ∧ n / 64 = k ∧ ((n < 456 ∨ 460 ≤ n) ∧ (n < 896 ∨ 928 ≤ n)) ∧ s.part.acts ≤ 4 :=
  ⟨withRegs [(⟨.FCL_PEND, 0, 64⟩, 1, 6)], 1, 65, by decide +kernel⟩

theorem witness_FaultCollector_12 : ∃ (s : State) (a : Nat), a < s.part.acts ∧ (dcpOf s a).ring ≠ [] ∧ s.part.acts ≤ 4 :=
  ⟨setDcp State.reset 1 { ring := [5#64] }, 1, by decide +kernel⟩

theorem witness_FaultCollector_13 : ∃ (s : State) (c : Nat) (n : Nat), c < s.part.cores ∧ claimOf s c = some n ∧ ((n < 456 ∨ 460 ≤ n) ∧ (n < 896 ∨ 928 ≤ n)) ∧ s.part.acts ≤ 4 :=
  ⟨withRegs [(⟨.FCL_PEND, 0, 64⟩, 1, 2), (F.FCL_SRC_CFG_IRQ, 65, 1), (F.FCL_SRC_CFG_CORE, 65, 3), (F.FCL_SRC_CFG_PRIO, 65, 2)], 3, 65, by decide +kernel⟩

theorem witness_FaultCollector_14 : ∃ (s : State) (c : Nat), claimOf s c = none :=
  ⟨withRegs [(⟨.FCL_PEND, 0, 64⟩, 1, 2), (F.FCL_SRC_CFG_IRQ, 65, 1), (F.FCL_SRC_CFG_CORE, 65, 3), (F.FCL_SRC_CFG_PRIO, 65, 2)], 4, by decide +kernel⟩

theorem witness_FaultCollector_16 : ∃ (s : State) (v : Word), bit v 0 = true ∧ safeState s = false ∧ flag s F.FCL_CAUSE_INFO_VALID = false :=
  ⟨State.reset, 1#64, by decide +kernel⟩

theorem witness_FaultCollector_17 : ∃ (s : State) (x : Nat), 2 ≤ x ∧ safeState s = false ∧ flag s F.FCL_CAUSE_INFO_VALID = false :=
  ⟨State.reset, 2, by decide +kernel⟩

/-- States and operands that meet the hypotheses of `EventRecorder`, clause by clause. -/
theorem witness_EventRecorder_1 : ∃ (s : State) (c : Nat) (v : Word), c < s.part.cores ∧ bit v 14 = true ∧ fwRecordValid (getBits v 0 10) (getBits v 32 32) = true ∧ fld s F.EVR_RATE_PERIOD (getBits v 0 10) = 0 ∧ s.evr.ring.length < 1024 :=
  ⟨withRegs [(F.EVR_RATE_PERIOD, 600, 0), (⟨.EVR_FW_P, 0, 64⟩, 22, 99)], 5, BitVec.ofNat 64 (600 + 3 * 2 ^ 10 + 2 ^ 14 + 77 * 2 ^ 32), by decide +kernel⟩

theorem witness_EventRecorder_2 : ∃ (s : State) (c : Nat) (v : Word), c < s.part.cores ∧ bit v 14 = true ∧ fwRecordValid (getBits v 0 10) (getBits v 32 32) = true ∧ fld s F.EVR_RATE_PERIOD (getBits v 0 10) ≠ 0 ∧ getBits v 10 3 ≠ 7 ∧ fld s F.EVR_RATE_TOKENS (getBits v 0 10) = 0 :=
  ⟨withRegs [(F.EVR_RATE_PERIOD, 600, 9), (F.EVR_RATE_TOKENS, 600, 0)], 5, BitVec.ofNat 64 (600 + 3 * 2 ^ 10 + 2 ^ 14 + 77 * 2 ^ 32), by decide +kernel⟩

theorem witness_EventRecorder_3 : ∃ (s : State) (c : Nat) (v : Word), c < s.part.cores ∧ bit v 14 = true ∧ fwRecordValid (getBits v 0 10) (getBits v 32 32) = false :=
  ⟨State.reset, 5, 0x4005#64, by decide +kernel⟩

theorem witness_EventRecorder_5 : ∃ (s : State) (r : EvRec) (rest : List EvRec), evrDraining s = true ∧ s.evr.ring = r :: rest ∧ lowestFree s.evr.log 0 < 65536 ∧ pageOpen s (lowestFree s.evr.log 0 / 64) = true :=
  ⟨{ withRegs [(F.EVR_CTL_EN, 0, 1), (F.EVR_STAT_LOADED, 0, 1), (F.EVR_SEQ_NEXT_SEQ, 0, 41), (F.EVR_LOG_BASE_BASE, 0, 0x1000000000), (F.BFM_DRAM_STAT_READY, 0, 1), (F.BFM_DRAM_STAT_IN_USE, 0, 8)] with evr := { ring := [{ code := 600, sev := 3 }, { code := 601 }], log := [(0, some { seq := 40 })] } }, { code := 600, sev := 3 }, [{ code := 601 }], by decide +kernel⟩

theorem witness_EventRecorder_6 : ∃ (s : State) (r : EvRec) (rest : List EvRec), evrDraining s = true ∧ s.evr.ring = r :: rest ∧ lowestFree s.evr.log 0 < 65536 ∧ pageOpen s (lowestFree s.evr.log 0 / 64) = false :=
  ⟨{ withRegs [(F.EVR_CTL_EN, 0, 1), (F.EVR_STAT_LOADED, 0, 1), (F.EVR_SEQ_NEXT_SEQ, 0, 41), (F.EVR_LOG_BASE_BASE, 0, 0x1000000000), (F.BFM_DRAM_STAT_READY, 0, 1), (F.BFM_DRAM_STAT_IN_USE, 0, 8)] with evr := { ring := [{ code := 600, sev := 3 }, { code := 601 }], log := [(0, some { seq := 40 })], dirty := (List.range 16).map (fun j => { page := j + 1 }) } }, { code := 600, sev := 3 }, [{ code := 601 }], by decide +kernel⟩

theorem witness_EventRecorder_7 : ∃ (s : State) (j : Nat), j < 1024 ∧ fld s F.EVR_RATE_PERIOD j ≠ 0 :=
  ⟨withRegs [(F.EVR_RATE_PERIOD, 600, 9), (F.EVR_RATE_BURST, 600, 8), (F.EVR_RATE_TOKENS, 600, 0)], 600, by decide +kernel⟩

theorem witness_EventRecorder_8 : ∃ (s : State) (p : Nat) (d : DirtyPage), s.evr.dirty.find? (fun x => decide (x.page = p)) = some d ∧ d.writing = false ∧ flag s F.EVR_CTL_MODE = false ∧ persistAccepted s = true :=
  ⟨{ withRegs [(F.FLT_STAT_STATE, 0, 5)] with evr := { dirty := [{ page := 3 }] } }, 3, { page := 3 }, by decide +kernel⟩

theorem witness_EventRecorder_9 : ∃ (s : State) (p : Nat) (d : DirtyPage), s.evr.dirty.find? (fun x => decide (x.page = p)) = some d ∧ d.writing = false ∧ flag s F.EVR_CTL_MODE = false ∧ persistAccepted s = false :=
  ⟨{ State.reset with evr := { dirty := [{ page := 3 }] } }, 3, { page := 3 }, by decide +kernel⟩

theorem witness_EventRecorder_10 : ∃ (s : State) (p : Nat) (d : DirtyPage), s.evr.dirty.find? (fun x => decide (x.page = p)) = some d ∧ d.writing = true ∧ d.again = false :=
  ⟨{ State.reset with evr := { dirty := [{ page := 3, writing := true, image := [7#8] }], failing := true } }, 3, { page := 3, writing := true, image := [7#8] }, by decide +kernel⟩

theorem witness_EventRecorder_11 : ∃ (s : State) (p : Nat) (d : DirtyPage), s.evr.dirty.find? (fun x => decide (x.page = p)) = some d ∧ d.writing = true :=
  ⟨{ State.reset with evr := { dirty := [{ page := 3, writing := true, image := [7#8] }] } }, 3, { page := 3, writing := true, image := [7#8] }, by decide +kernel⟩

theorem witness_EventRecorder_12 : ∃ (s : State) (v : Word), bit v 0 = true ∧ flag s F.BFM_DRAM_STAT_READY = true ∧ flag s F.EVR_CTL_EN = false ∧ s.evr.started = false :=
  ⟨withRegs [(F.BFM_DRAM_STAT_READY, 0, 1)], 3#64, by decide +kernel⟩

theorem witness_EventRecorder_13 : ∃ (s : State), flag s F.BFM_DRAM_STAT_READY = false :=
  ⟨State.reset, by decide +kernel⟩

theorem witness_EventRecorder_14 : ∃ (s : State), flag s F.EVR_STAT_LOADING = true ∧ flag s F.EVR_CTL_MODE = true ∧ flag s F.EVR_CTL_EN = true ∧ validSlots s (fld s F.EVR_LOG_BASE_BASE) = [] ∧ flag s F.FCL_CAUSE_INFO_VALID = false ∧ fld s F.EVR_RATE_PERIOD 0 = 0 ∧ s.evr.ring.length < 1024 :=
  ⟨withRegs [(F.EVR_STAT_LOADING, 0, 1), (F.EVR_CTL_MODE, 0, 1), (F.EVR_CTL_EN, 0, 1), (F.EVR_RATE_PERIOD, 0, 0)], by decide +kernel⟩

theorem witness_EventRecorder_15 : ∃ (k : Nat), k < 16 :=
  ⟨3, by decide +kernel⟩

theorem witness_EventRecorder_16 : ∃ (j : Nat), j < 1024 :=
  ⟨600, by decide +kernel⟩

/-- States and operands that meet the hypotheses of `SecBootAndProvisioning`, clause by clause. -/
theorem witness_SecBootAndProvisioning_1 : ∃ (s : State), s.sec.boot = .waitOtp :=
  ⟨{ State.reset with sec := { otp := { log := [0xE1, 0xD2] } } }, by decide +kernel⟩

theorem witness_SecBootAndProvisioning_3 : ∃ (s : State), ready s F.CKR_READY_SIDEBAND = true ∧ s.sec.boot = .provisioning ∧ (fld s F.SEC_LC_STATE = 0 ∨ fld s F.SEC_LC_STATE = 1) :=
  ⟨{ withRegs [(F.CKR_READY_SIDEBAND, 0, 1), (F.SEC_LC_STATE, 0, 0)] with sec := { boot := .provisioning } }, by decide +kernel⟩

theorem witness_SecBootAndProvisioning_4 : ∃ (s : State), ready s F.CKR_READY_SIDEBAND = true ∧ s.sec.boot = .provisioning ∧ (fld s F.SEC_LC_STATE = 0 ∨ fld s F.SEC_LC_STATE = 1) :=
  ⟨{ withRegs [(F.CKR_READY_SIDEBAND, 0, 1), (F.SEC_LC_STATE, 0, 0)] with sec := { boot := .provisioning } }, by decide +kernel⟩

theorem witness_SecBootAndProvisioning_5 : ∃ (s : State), ready s F.CKR_READY_SIDEBAND = true ∧ s.sec.boot = .provisioning ∧ fld s F.SEC_LC_STATE = 0 :=
  ⟨{ withRegs [(F.CKR_READY_SIDEBAND, 0, 1), (F.SEC_LC_STATE, 0, 0)] with sec := { boot := .provisioning } }, by decide +kernel⟩

theorem witness_SecBootAndProvisioning_6 : ∃ (s : State) (n : Nat) (k : Nat), ready s F.CKR_READY_SIDEBAND = true ∧ s.sec.boot = .provisioning ∧ fld s F.SEC_LC_STATE = 0 ∧ s.sec.respNonce = some n ∧ s.sec.session = some k ∧ s.sec.otp.damaged = [] ∧ s.sec.otp.serial = none ∧ s.sec.otp.secret = none ∧ s.sec.otp.patchKey = none :=
  ⟨{ withRegs [(F.CKR_READY_SIDEBAND, 0, 1), (F.SEC_LC_STATE, 0, 0)] with sec := { boot := .provisioning, respNonce := some 5, session := some 6 } }, 5, 6, by decide +kernel⟩

theorem witness_SecBootAndProvisioning_7 : ∃ (s : State), ready s F.CKR_READY_SIDEBAND = true ∧ s.sec.boot = .provisioning ∧ fld s F.SEC_LC_STATE = 0 ∧ s.sec.respNonce = none :=
  ⟨{ withRegs [(F.CKR_READY_SIDEBAND, 0, 1), (F.SEC_LC_STATE, 0, 0)] with sec := { boot := .provisioning } }, by decide +kernel⟩

theorem witness_SecBootAndProvisioning_8 : ∃ (s : State), ready s F.CKR_READY_SIDEBAND = true ∧ s.sec.boot = .provisioning ∧ fld s F.SEC_LC_STATE ≠ 0 :=
  ⟨{ withRegs [(F.CKR_READY_SIDEBAND, 0, 1), (F.SEC_LC_STATE, 0, 1)] with sec := { boot := .provisioning } }, by decide +kernel⟩

theorem witness_SecBootAndProvisioning_9 : ∃ (s : State) (roots : RootList) (j : Nat), ready s F.CKR_READY_SIDEBAND = true ∧ s.sec.boot = .provisioning ∧ fld s F.SEC_LC_STATE = 1 ∧ rootBits s.sec.otp = 0 ∧ s.sec.otp.damaged = [] ∧ s.sec.otp.hdaRoot = none ∧ s.sec.otp.adminRoot = none ∧ j < 4 ∧ (roots.getD j none).isSome = true :=
  ⟨{ withRegs [(F.CKR_READY_SIDEBAND, 0, 1), (F.SEC_LC_STATE, 0, 1)] with sec := { boot := .provisioning } }, [none, some 77], 1, by decide +kernel⟩

theorem witness_SecBootAndProvisioning_10 : ∃ (s : State), ready s F.CKR_READY_SIDEBAND = true ∧ s.sec.boot = .provisioning ∧ (fld s F.SEC_LC_STATE = 0 ∨ fld s F.SEC_LC_STATE = 1) :=
  ⟨{ withRegs [(F.CKR_READY_SIDEBAND, 0, 1), (F.SEC_LC_STATE, 0, 0)] with sec := { boot := .provisioning } }, by decide +kernel⟩

theorem witness_SecBootAndProvisioning_11 : ∃ (s : State), s.sec.boot = .loading ∧ flag s F.SEC_BOOT_STAT_WARM = false ∧ otpFatal s.sec.otp = false ∧ lcState s.sec.otp = 0 :=
  ⟨{ State.reset with sec := { boot := .loading } }, by decide +kernel⟩

theorem witness_SecBootAndProvisioning_12 : ∃ (s : State), s.sec.boot = .loading ∧ flag s F.SEC_BOOT_STAT_WARM = false ∧ otpFatal s.sec.otp = true :=
  ⟨{ State.reset with sec := { boot := .loading, otp := { damaged := [.lcLog], log := [0xE1] } } }, by decide +kernel⟩

theorem witness_SecBootAndProvisioning_13 : ∃ (s : State), s.sec.boot = .loading ∧ (flag s F.SEC_BOOT_STAT_WARM = true ∨ (otpFatal s.sec.otp = false ∧ 2 ≤ lcState s.sec.otp)) ∧ s.sec.slot = none :=
  ⟨{ State.reset with sec := { boot := .loading, otp := { log := [0xE1, 0xD2] } } }, by decide +kernel⟩

theorem witness_SecBootAndProvisioning_14 : ∃ (s : State) (img : List Byte), s.sec.boot = .loading ∧ (flag s F.SEC_BOOT_STAT_WARM = true ∨ (otpFatal s.sec.otp = false ∧ 2 ≤ lcState s.sec.otp)) ∧ s.sec.slot = some img :=
  ⟨{ State.reset with sec := { boot := .loading, slot := some [7#8], otp := { log := [0xE1, 0xD2] } } }, [7#8], by decide +kernel⟩

theorem witness_SecBootAndProvisioning_15 : ∃ (s : State) (c : Nat) (k : Nat), s.sec.boot = .running ∧ flag s F.GLY_DRAIN_DONE = true ∧ c < s.part.cores ∧ k < s.part.shuttles :=
  ⟨{ withRegs [(F.GLY_DRAIN_DONE, 0, 1), (F.SVC_CORE_CTL_RUN, 0, 1), (F.SHT_S_CTL_EN, 2, 1)] with sec := { boot := .running } }, 0, 2, by decide +kernel⟩

theorem witness_SecBootAndProvisioning_16 : ∃ (s : State), onTrial s = true ∧ s.sec.otp.damaged = [] :=
  ⟨{ withRegs [(F.SEC_BOOT_STAT_TRIAL, 0, 1), (F.SEC_BOOT_STAT_ROOT, 0, 2)] with sec := { boot := .running, trialMark := true, trialAt := some 0, header := (List.replicate 12 0#8 ++ [9#8] ++ List.replicate 59 0#8 ++ [6#8, 1#8]) } }, by decide +kernel⟩

theorem witness_SecBootAndProvisioning_17 : ∃ (s : State), onTrial s = false :=
  ⟨State.reset, by decide +kernel⟩

theorem witness_SecBootAndProvisioning_18 : ∃ (s : State), onTrial s = true :=
  ⟨{ withRegs [(F.SEC_BOOT_STAT_TRIAL, 0, 1), (F.SEC_BOOT_STAT_ROOT, 0, 2)] with sec := { boot := .running, trialMark := true, trialAt := some 0, header := (List.replicate 12 0#8 ++ [9#8] ++ List.replicate 59 0#8 ++ [6#8, 1#8]) } }, by decide +kernel⟩

theorem witness_SecBootAndProvisioning_19 : ∃ (s : State) (t0 : Nat), s.sec.trialAt = some t0 ∧ t0 + 30000 ≤ now s ∧ onTrial s = true :=
  ⟨{ { withRegs [(F.SEC_BOOT_STAT_TRIAL, 0, 1), (F.SEC_BOOT_STAT_ROOT, 0, 2)] with sec := { boot := .running, trialMark := true, trialAt := some 0, header := (List.replicate 12 0#8 ++ [9#8] ++ List.replicate 59 0#8 ++ [6#8, 1#8]) } } with ckr := { dtime := 30000 } }, 0, by decide +kernel⟩

theorem witness_SecBootAndProvisioning_20 : ∃ (s : State) (t0 : Nat), s.sec.trialAt = some t0 ∧ now s < t0 + 30000 :=
  ⟨{ withRegs [(F.SEC_BOOT_STAT_TRIAL, 0, 1), (F.SEC_BOOT_STAT_ROOT, 0, 2)] with sec := { boot := .running, trialMark := true, trialAt := some 0, header := (List.replicate 12 0#8 ++ [9#8] ++ List.replicate 59 0#8 ++ [6#8, 1#8]) } }, 0, by decide +kernel⟩

theorem witness_SecBootAndProvisioning_21 : ∃ (s : State) (t0 : Nat), s.sec.trialAt = some t0 ∧ t0 + 25000 ≤ now s :=
  ⟨{ { withRegs [(F.SEC_BOOT_STAT_TRIAL, 0, 1), (F.SEC_BOOT_STAT_ROOT, 0, 2)] with sec := { boot := .running, trialMark := true, trialAt := some 0, header := (List.replicate 12 0#8 ++ [9#8] ++ List.replicate 59 0#8 ++ [6#8, 1#8]) } } with ckr := { dtime := 25000 } }, 0, by decide +kernel⟩

theorem witness_SecBootAndProvisioning_22 : ∃ (s : State), s.sec.trialFailed = true ∧ safeState s = true ∧ s.fcl.safeAt + 2000 ≤ now s :=
  ⟨{ withRegs [(F.FCL_STAT_SAFE, 0, 1)] with sec := { trialFailed := true }, ckr := { dtime := 2000 } }, by decide +kernel⟩

/-- States and operands that meet the hypotheses of `FirmwareUpdate`, clause by clause. -/
theorem witness_FirmwareUpdate_1 : ∃ (s : State) (v : Word) (d : List Byte), flag s F.SEC_UPD_CMD_BUSY = false ∧ fld s F.SEC_UPD_STAT_STATE = 0 ∧ s.sec.folios = [] ∧ 1 ≤ getBits v 2 3 ∧ getBits v 2 3 ≤ 6 ∧ getBits v 5 25 % 4 = 0 ∧ getBits v 30 24 % 4 = 0 ∧ 4 ≤ getBits v 30 24 ∧ getBits v 5 25 % 4096 + getBits v 30 24 < 4096 ∧ getBits v 5 25 + getBits v 30 24 ≤ 0x2000000 ∧ regionOf s (fld s F.SEC_UPD_ADDR_ADDR) = .dram ∧ (busRead (setFlds s 0 [(F.SEC_UPD_CMD_OP, 0), (F.SEC_UPD_CMD_SOURCE, getBits v 2 3), (F.SEC_UPD_CMD_OFFSET, getBits v 5 25), (F.SEC_UPD_CMD_LEN, getBits v 30 24)]) portSec (fld s F.SEC_UPD_ADDR_ADDR) (getBits v 30 24)).1 = some d ∧ (busWrite (busRead (setFlds s 0 [(F.SEC_UPD_CMD_OP, 0), (F.SEC_UPD_CMD_SOURCE, getBits v 2 3), (F.SEC_UPD_CMD_OFFSET, getBits v 5 25), (F.SEC_UPD_CMD_LEN, getBits v 30 24)]) portSec (fld s F.SEC_UPD_ADDR_ADDR) (getBits v 30 24)).2 portSec (fld s F.SEC_STAGE_BASE_BASE + getBits v 5 25) d).1 = true :=
  ⟨setWay (withRegs [(F.BFM_DRAM_STAT_READY, 0, 1), (F.BFM_DRAM_STAT_IN_USE, 0, 8), (F.SYC_SCRATCH_COUNT, 0, 1), (F.SYC_CTL_EN, 0, 1), (F.SEC_STAGE_BASE_BASE, 0, 0xE0000000), (F.SEC_UPD_ADDR_ADDR, 0, 0x1000000000)]) 0 2 (some { line := 0x40000000, data := [0#8, 0#8, 0#8, 0#8, 0#8, 7#8, 0#8, 0#8] }), BitVec.ofNat 64 (3 * 4 + 8200 * 2 ^ 5 + 8 * 2 ^ 30), [0#8, 0#8, 0#8, 0#8, 0#8, 7#8, 0#8, 0#8], by decide +kernel⟩

theorem witness_FirmwareUpdate_2 : ∃ (s : State) (v : Word), flag s F.SEC_UPD_CMD_BUSY = false ∧ fld s F.SEC_UPD_STAT_STATE ≠ 0 ∧ fld s F.SEC_UPD_STAT_OWNER ≠ getBits v 2 3 :=
  ⟨withRegs [(F.SEC_UPD_STAT_STATE, 0, 1), (F.SEC_UPD_STAT_OWNER, 0, 2), (F.BFM_DRAM_STAT_READY, 0, 1), (F.BFM_DRAM_STAT_IN_USE, 0, 8), (F.SEC_STAGE_BASE_BASE, 0, 0x1000100000), (F.SEC_UPD_ADDR_ADDR, 0, 0x1000000000)], BitVec.ofNat 64 (3 * 4 + 8200 * 2 ^ 5 + 8 * 2 ^ 30), by decide +kernel⟩

theorem witness_FirmwareUpdate_3 : ∃ (s : State) (v : Word), flag s F.SEC_UPD_CMD_BUSY = false ∧ fld s F.SEC_UPD_STAT_STATE = 1 ∧ fld s F.SEC_UPD_STAT_OWNER = getBits v 2 3 ∧ 1 ≤ getBits v 2 3 ∧ getBits v 2 3 ≤ 6 ∧ getBits v 5 25 % 4 = 0 ∧ getBits v 30 24 % 4 = 0 ∧ 4 ≤ getBits v 30 24 ∧ getBits v 30 24 ≤ 0x800000 ∧ getBits v 5 25 + getBits v 30 24 ≤ 0x2000000 ∧ regionOf s (fld s F.SEC_UPD_ADDR_ADDR) = .dram ∧ (chunkFolios (getBits v 5 25) (getBits v 30 24)).any (fun k => (folioOf s k).mask &&& folioMask (getBits v 5 25) (getBits v 30 24) k != 0) = true :=
  ⟨{ withRegs [(F.SEC_UPD_STAT_STATE, 0, 1), (F.SEC_UPD_STAT_OWNER, 0, 3), (F.BFM_DRAM_STAT_READY, 0, 1), (F.BFM_DRAM_STAT_IN_USE, 0, 8), (F.SEC_STAGE_BASE_BASE, 0, 0x1000100000), (F.SEC_UPD_ADDR_ADDR, 0, 0x1000000000)] with sec := { folios := [(2, { mask := 8 })] } }, BitVec.ofNat 64 (3 * 4 + 8200 * 2 ^ 5 + 8 * 2 ^ 30), by decide +kernel⟩

theorem witness_FirmwareUpdate_4 : ∃ (s : State) (v : Word), flag s F.SEC_UPD_CMD_BUSY = false ∧ (fld s F.SEC_UPD_STAT_STATE ≠ 1 ∨ fld s F.SEC_UPD_STAT_OWNER ≠ getBits v 2 3) :=
  ⟨withRegs [(F.SEC_UPD_STAT_STATE, 0, 1), (F.SEC_UPD_STAT_OWNER, 0, 2)], BitVec.ofNat 64 (3 * 4 + 0 * 2 ^ 5 + 0 * 2 ^ 30), by decide +kernel⟩

theorem witness_FirmwareUpdate_5 : ∃ (s : State) (v : Word), flag s F.SEC_UPD_CMD_BUSY = false ∧ fld s F.SEC_UPD_STAT_STATE = 1 ∧ fld s F.SEC_UPD_STAT_OWNER = getBits v 2 3 ∧ (fld s F.SEC_UPD_STAT_N = 0 ∨ fld s F.SEC_UPD_STAT_GOOD < fld s F.SEC_UPD_STAT_N) :=
  ⟨withRegs [(F.SEC_UPD_STAT_STATE, 0, 1), (F.SEC_UPD_STAT_OWNER, 0, 3), (F.SEC_UPD_STAT_N, 0, 9), (F.SEC_UPD_STAT_GOOD, 0, 8)], BitVec.ofNat 64 (3 * 4 + 0 * 2 ^ 5 + 0 * 2 ^ 30), by decide +kernel⟩

theorem witness_FirmwareUpdate_6 : ∃ (s : State) (v : Word), flag s F.SEC_UPD_CMD_BUSY = false ∧ fld s F.SEC_UPD_STAT_STATE = 1 ∧ fld s F.SEC_UPD_STAT_OWNER = getBits v 2 3 ∧ fld s F.SEC_UPD_STAT_N ≠ 0 ∧ fld s F.SEC_UPD_STAT_N ≤ fld s F.SEC_UPD_STAT_GOOD :=
  ⟨{ withRegs [(F.SEC_UPD_STAT_STATE, 0, 1), (F.SEC_UPD_STAT_OWNER, 0, 3), (F.SEC_UPD_STAT_N, 0, 1), (F.SEC_UPD_STAT_GOOD, 0, 1), (F.BFM_DRAM_STAT_READY, 0, 1), (F.BFM_DRAM_STAT_IN_USE, 0, 8), (F.SEC_STAGE_BASE_BASE, 0, 0x1000100000), (F.SEC_UPD_ADDR_ADDR, 0, 0x1000000000)] with sec := { folios := [(0, { good := true })] } }, BitVec.ofNat 64 (3 * 4 + 0 * 2 ^ 5 + 0 * 2 ^ 30), by decide +kernel⟩

theorem witness_FirmwareUpdate_7 : ∃ (s : State) (img : List Byte), s.sec.commit = some img :=
  ⟨{ withRegs [(F.SEC_UPD_CMD_BUSY, 0, 1), (F.SEC_UPD_STAT_STATE, 0, 2)] with sec := { commit := some [7#8], folios := [(0, {})] } }, [7#8], by decide +kernel⟩

theorem witness_FirmwareUpdate_8 : ∃ (s : State) (img : List Byte), s.sec.commit = some img :=
  ⟨{ withRegs [(F.SEC_UPD_CMD_BUSY, 0, 1), (F.SEC_UPD_STAT_STATE, 0, 2)] with sec := { commit := some [7#8] } }, [7#8], by decide +kernel⟩

theorem witness_FirmwareUpdate_9 : ∃ (s : State) (v : Word), flag s F.SEC_UPD_CMD_BUSY = false ∧ fld s F.SEC_UPD_STAT_STATE ≠ 0 ∧ fld s F.SEC_UPD_STAT_OWNER = getBits v 2 3 :=
  ⟨{ withRegs [(F.SEC_UPD_STAT_STATE, 0, 1), (F.SEC_UPD_STAT_OWNER, 0, 3)] with sec := { folios := [(2, { mask := 8 })] } }, BitVec.ofNat 64 (3 * 4 + 0 * 2 ^ 5 + 0 * 2 ^ 30), by decide +kernel⟩

theorem witness_FirmwareUpdate_10 : ∃ (s : State) (v : Word), flag s F.SEC_UPD_CMD_BUSY = false ∧ (fld s F.SEC_UPD_STAT_STATE = 0 ∨ fld s F.SEC_UPD_STAT_OWNER ≠ getBits v 2 3) :=
  ⟨withRegs [(F.SEC_UPD_STAT_STATE, 0, 1), (F.SEC_UPD_STAT_OWNER, 0, 2)], BitVec.ofNat 64 (3 * 4 + 0 * 2 ^ 5 + 0 * 2 ^ 30), by decide +kernel⟩

theorem witness_FirmwareUpdate_11 : ∃ (s : State), fld s F.SEC_UPD_STAT_STATE = 1 ∧ s.sec.ownerAt + 900000 ≤ now s :=
  ⟨{ withRegs [(F.SEC_UPD_STAT_STATE, 0, 1), (F.SEC_UPD_STAT_OWNER, 0, 3)] with sec := { folios := [(2, { mask := 8 })] }, ckr := { dtime := 900000 } }, by decide +kernel⟩

/-- States and operands that meet the hypotheses of `KeysAndLifeCycle`, clause by clause. -/
theorem witness_KeysAndLifeCycle_1 : ∃ (s : State) (v : Word), getBits v 2 8 ≤ 128 ∧ fld s F.SEC_LC_STATE ≠ 4 :=
  ⟨withRegs [(F.SEC_LC_STATE, 0, 2)], 0x14#64, by decide +kernel⟩

theorem witness_KeysAndLifeCycle_2 : ∃ (s : State) (v : Word), getBits v 2 8 = 129 ∧ fld s F.SEC_LC_STATE ≠ 4 ∧ fltState s ≠ .off :=
  ⟨{ withRegs [(F.SEC_LC_STATE, 0, 2), (F.FLT_STAT_STATE, 0, 5)] with flt := { formatted := true, map := [(7, some 3)] } }, 0x204#64, by decide +kernel⟩

theorem witness_KeysAndLifeCycle_3 : ∃ (s : State) (v : Word), getBits v 2 8 ≤ 129 ∧ fld s F.SEC_LC_STATE = 4 :=
  ⟨withRegs [(F.SEC_LC_STATE, 0, 4)], 0x14#64, by decide +kernel⟩

theorem witness_KeysAndLifeCycle_4 : ∃ (s : State) (v : Word), getBits v 2 8 ≤ 129 ∧ fld s F.SEC_LC_STATE = 4 :=
  ⟨withRegs [(F.SEC_LC_STATE, 0, 4)], 0x14#64, by decide +kernel⟩

theorem witness_KeysAndLifeCycle_5 : ∃ (s : State) (v : Word), getBits v 2 8 ≤ 129 ∧ fld s F.SEC_LC_STATE = 4 :=
  ⟨withRegs [(F.SEC_LC_STATE, 0, 4)], 0x14#64, by decide +kernel⟩

theorem witness_KeysAndLifeCycle_6 : ∃ (v : Word), 129 < getBits v 2 8 :=
  ⟨0x3F8#64, by decide +kernel⟩

theorem witness_KeysAndLifeCycle_7 : ∃ (s : State) (v : Word) (b : Blob), getBits v 2 8 ≤ 129 ∧ fld s F.SEC_LC_STATE ≠ 4 ∧ blobOf s (getBits v 2 8) = some b ∧ b = wrapKey s (getBits v 2 8) b.key :=
  ⟨{ withRegs [(F.SEC_LC_STATE, 0, 2)] with sec := { blobs := [(5, some { key := 9, cred := credFor State.reset 5 })] } }, 0x14#64, { key := 9, cred := credFor State.reset 5 }, by decide +kernel⟩

theorem witness_KeysAndLifeCycle_8 : ∃ (s : State) (v : Word) (b : Blob), getBits v 2 8 ≤ 129 ∧ fld s F.SEC_LC_STATE ≠ 4 ∧ blobOf s (getBits v 2 8) = some b ∧ b ≠ wrapKey s (getBits v 2 8) b.key :=
  ⟨{ withRegs [(F.SEC_LC_STATE, 0, 2)] with sec := { blobs := [(5, some { key := 9 })] } }, 0x14#64, { key := 9 }, by decide +kernel⟩

theorem witness_KeysAndLifeCycle_9 : ∃ (v : Word), getBits v 2 8 ≤ 129 :=
  ⟨0x14#64, by decide +kernel⟩

theorem witness_KeysAndLifeCycle_10 : ∃ (s : State) (v : Word) (k : Nat) (b : Blob), getBits v 2 8 ≤ 129 ∧ fld s F.SEC_LC_STATE ≠ 4 ∧ keyOf s (getBits v 2 8) = some k ∧ blobOf s (getBits v 2 8) = some b :=
  ⟨{ withRegs [(F.SEC_LC_STATE, 0, 2)] with sec := { keys := [(5, some 9)], blobs := [(5, some { key := 9 })] } }, 0x14#64, 9, { key := 9 }, by decide +kernel⟩

theorem witness_KeysAndLifeCycle_11 : ∃ (s : State) (n : Nat) (v : Word), 0 < n ∧ n < 129 ∧ fld s F.SEC_LC_STATE ≠ 4 ∧ (bit v 50 = false ∨ rangeOverlaps s n (getBits v 40 7) (getBits v 0 40) (fld s F.SEC_RANGE_LEN_BLOCKS n) = false) :=
  ⟨State.reset, 5, 0xFFF4000000000010#64, by decide +kernel⟩

theorem witness_KeysAndLifeCycle_12 : ∃ (s : State) (n : Nat) (v : Word), 0 < n ∧ n < 129 ∧ bit v 50 = true ∧ rangeOverlaps s n (getBits v 40 7) (getBits v 0 40) (fld s F.SEC_RANGE_LEN_BLOCKS n) = true :=
  ⟨withRegs [(F.SEC_RANGE_VALID, 6, 1), (F.SEC_RANGE_FIRST, 6, 0x10), (F.SEC_RANGE_LEN_BLOCKS, 6, 8), (F.SEC_RANGE_LEN_BLOCKS, 5, 1)], 5, 0x4000000000014#64, by decide +kernel⟩

theorem witness_KeysAndLifeCycle_13 : ∃ (s : State), fld s F.SEC_LC_STATE ≠ 4 :=
  ⟨State.reset, by decide +kernel⟩

theorem witness_KeysAndLifeCycle_14 : ∃ (s : State) (n : Nat), n < 129 ∧ fld s F.SEC_LC_STATE = 4 :=
  ⟨withRegs [(F.SEC_LC_STATE, 0, 4)], 5, by decide +kernel⟩

theorem witness_KeysAndLifeCycle_15 : ∃ (s : State) (j : Nat), s.sec.aliasOf ≠ [] ∧ j < 12 :=
  ⟨{ State.reset with sec := { aliasOf := [1, 2, 3, 4] } }, 3, by decide +kernel⟩

theorem witness_KeysAndLifeCycle_16 : ∃ (s : State), s.sec.nonceRead.length < 6 :=
  ⟨{ State.reset with sec := { nonceRead := [1#64, 2#64, 3#64, 4#64, 5#64] } }, by decide +kernel⟩

theorem witness_KeysAndLifeCycle_17 : ∃ (s : State) (v : Word) (j : Nat) (d : List Byte), (fld s F.SEC_LC_STATE = 1 ∨ fld s F.SEC_LC_STATE = 3) ∧ j < 4 ∧ getBits v 0 4 = 3 + j ∧ rootOf s.sec.otp j = none ∧ s.sec.otp.damaged = [] ∧ (busRead (setFlds s 0 [(F.SEC_OTP_CMD_FIELD, getBits v 0 4), (F.SEC_OTP_CMD_GO, 0)]) portSec (fld s F.SEC_OTP_ADDR_ADDR) 48).1 = some d :=
  ⟨{ writeByte (withRegs [(F.SEC_LC_STATE, 0, 1), (F.SYC_SCRATCH_COUNT, 0, 1), (F.SEC_OTP_ADDR_ADDR, 0, 0xE0000000)]) 0xE0000002 7#8 with sec := { otp := { log := [0xE1] } } }, 0x4#64, 1, [0#8, 0#8, 7#8] ++ List.replicate 45 0#8, by decide +kernel⟩

theorem witness_KeysAndLifeCycle_18 : ∃ (s : State) (v : Word) (j : Nat), getBits v 0 4 = 3 + j ∧ j < 4 ∧ ((fld s F.SEC_LC_STATE ≠ 1 ∧ fld s F.SEC_LC_STATE ≠ 3) ∨ (rootOf s.sec.otp j).isSome = true) :=
  ⟨{ withRegs [(F.SEC_LC_STATE, 0, 1)] with sec := { otp := { roots := [(1, some 5)] } } }, 0x4#64, 1, by decide +kernel⟩

theorem witness_KeysAndLifeCycle_19 : ∃ (s : State) (v : Word), getBits v 0 3 = 2 ∧ lcState s.sec.otp = 3 ∧ s.sec.otp.log.length < 31 ∧ s.sec.otp.damaged = [] ∧ lcReady (setFlds s 0 [(F.SEC_LC_REQ_TARGET, getBits v 0 3), (F.SEC_LC_REQ_DISCARD_DIRTY, getBits v 3 1)]) = true :=
  ⟨{ withRegs [(F.SEC_LC_STATE, 0, 3)] with sec := { otp := { log := [0xE1, 0xD2, 0xC3] } } }, 2#64, by decide +kernel⟩

theorem witness_KeysAndLifeCycle_20 : ∃ (s : State) (v : Word), getBits v 0 3 = 3 ∧ lcState s.sec.otp = 2 ∧ s.sec.otp.log.length < 31 ∧ s.sec.otp.damaged = [] ∧ lcReady (setFlds s 0 [(F.SEC_LC_REQ_TARGET, getBits v 0 3), (F.SEC_LC_REQ_DISCARD_DIRTY, getBits v 3 1)]) = true :=
  ⟨{ withRegs [(F.SEC_LC_STATE, 0, 2)] with sec := { otp := { log := [0xE1, 0xD2] } } }, 3#64, by decide +kernel⟩

theorem witness_KeysAndLifeCycle_21 : ∃ (s : State) (v : Word), getBits v 0 3 ≠ 7 ∧ lcNeed s.sec.otp (lcState s.sec.otp) (getBits v 0 3) = none :=
  ⟨{ withRegs [(F.SEC_LC_STATE, 0, 2)] with sec := { otp := { log := [0xE1, 0xD2] } } }, 1#64, by decide +kernel⟩

theorem witness_KeysAndLifeCycle_22 : ∃ (s : State) (v : Word), getBits v 0 3 ≠ 7 ∧ lcNeed s.sec.otp (lcState s.sec.otp) (getBits v 0 3) ≠ none ∧ lcReady (setFlds s 0 [(F.SEC_LC_REQ_TARGET, getBits v 0 3), (F.SEC_LC_REQ_DISCARD_DIRTY, getBits v 3 1)]) = false :=
  ⟨{ withRegs [(F.CTE_STAT_STATE, 1, 6)] with sec := { otp := { log := [0xE1, 0xD2, 0xC3] } } }, 2#64, by decide +kernel⟩

theorem witness_KeysAndLifeCycle_23 : ∃ (s : State) (v : Word), repairable s = true ∧ (tierDirty s = false ∨ bit v 3 = true) :=
  ⟨withRegs [(F.HDL_TAG_STATUS_STATE, 0, 3), (F.HDL_TAG_STATUS_REASON, 0, 4)], 0#64, by decide +kernel⟩

theorem witness_KeysAndLifeCycle_24 : ∃ (s : State), repairable s = false :=
  ⟨State.reset, by decide +kernel⟩

/-- States and operands that meet the hypotheses of `SuppliesAndReset`, clause by clause. -/
theorem witness_SuppliesAndReset_1 : ∃ (s : State) (x : TimeCopy), s.ckr.dead = true ∧ storeNewest s.ckr = some x ∧ x.pcycle + 1 < 2 ^ 32 :=
  ⟨{ withRegs [(F.FCL_CAUSE_INFO_VALID, 0, 1)] with ckr := { dead := true, inReset := true, storeA := { seq := 4, dtime := 99, pcycle := 7, good := true }, storeB := { seq := 5, dtime := 120, pcycle := 7, good := true } } }, { seq := 5, dtime := 120, pcycle := 7, good := true }, by decide +kernel⟩

theorem witness_SuppliesAndReset_2 : ∃ (s : State), s.ckr.dead = true ∧ storeNewest s.ckr = none :=
  ⟨{ State.reset with ckr := { dead := true } }, by decide +kernel⟩

theorem witness_SuppliesAndReset_3 : ∃ (s : State), s.ckr.dead = false :=
  ⟨State.reset, by decide +kernel⟩

theorem witness_SuppliesAndReset_4 : ∃ (s : State), s.ckr.dead = false ∧ s.ckr.inReset = false :=
  ⟨{ withRegs [(F.FCL_CAUSE_INFO_VALID, 0, 1), (F.PWS_FAULT_VM_TRIP, 0, 1), (F.PWS_STAT_RESTART_BLOCK, 0, 1), (F.SPN_SPEED_SET, 0, 7200)] (writeWord State.reset 0x1000000000 5#64) with ckr := { dtime := 99, pcycle := 7, storeA := { seq := 4, good := true } }, sec := { keys := [(5, some 9)], otp := { log := [0xE1, 0xD2] } }, gly := { slots := [(3, {})] } }, by decide +kernel⟩

theorem witness_SuppliesAndReset_5 : ∃ (s : State), s.ckr.inReset = true :=
  ⟨{ State.reset with ckr := { inReset := true } }, by decide +kernel⟩

theorem witness_SuppliesAndReset_6 : ∃ (s : State), s.ckr.dead = false ∧ s.ckr.inReset = false ∧ (powerLost s = false ∨ s.ckr.quiesced = true) :=
  ⟨{ withRegs [(F.FCL_CAUSE_INFO_VALID, 0, 1), (F.PWS_FAULT_VM_TRIP, 0, 1), (F.PWS_STAT_RESTART_BLOCK, 0, 1), (F.SPN_SPEED_SET, 0, 7200)] (writeWord State.reset 0x1000000000 5#64) with ckr := { dtime := 99, pcycle := 7, storeA := { seq := 4, good := true } }, sec := { keys := [(5, some 9)], otp := { log := [0xE1, 0xD2] } }, gly := { slots := [(3, {})] } }, by decide +kernel⟩

theorem witness_SuppliesAndReset_7 : ∃ (s : State), powerLost s = true ∧ s.ckr.quiesced = false :=
  ⟨{ State.reset with ckr := { loss := some {} } }, by decide +kernel⟩

theorem witness_SuppliesAndReset_8 : ∃ (s : State), s.ckr.inReset = true ∧ s.ckr.noCrystal = false ∧ s.ckr.dead = false :=
  ⟨{ State.reset with ckr := { inReset := true } }, by decide +kernel⟩

theorem witness_SuppliesAndReset_9 : ∃ (s : State), s.ckr.noCrystal = true :=
  ⟨{ State.reset with ckr := { inReset := true, noCrystal := true } }, by decide +kernel⟩

theorem witness_SuppliesAndReset_10 : ∃ (s : State), s.ckr.por = true ∧ s.ckr.inReset = true :=
  ⟨{ State.reset with ckr := { por := true, inReset := true } }, by decide +kernel⟩

theorem witness_SuppliesAndReset_11 : ∃ (s : State) (k : Nat), (k < 7 ∨ (s.part.hasFlt = true ∧ k < 9)) :=
  ⟨State.reset, 8, by decide +kernel⟩

theorem witness_SuppliesAndReset_12 : ∃ (s : State) (k : Nat), s.part.hasFlt = false ∧ 7 ≤ k :=
  ⟨{ State.reset with part := .fjd7411n }, 7, by decide +kernel⟩

theorem witness_SuppliesAndReset_13 : ∃ (s : State), flag s F.CKR_CLK_STAT_ON_BACKUP = false :=
  ⟨withRegs [(F.CKR_CLK_STAT_XTAL_OK, 0, 1)], by decide +kernel⟩

theorem witness_SuppliesAndReset_14 : ∃ (s : State) (n : Nat), n < 10 ∧ Nat.testBit (pllBits s.part) n = true ∧ n ∉ s.ckr.gated ∧ n ≠ 4 :=
  ⟨withRegs [(F.CKR_CLK_STAT_PLL, 0, 0x3FF)], 3, by decide +kernel⟩

theorem witness_SuppliesAndReset_15 : ∃ (s : State), 4 ∉ s.ckr.gated :=
  ⟨withRegs [(F.CKR_CLK_STAT_PLL, 0, 0x3FF)], by decide +kernel⟩

theorem witness_SuppliesAndReset_16 : ∃ (s : State), powerLost s = false ∧ s.ckr.dead = false ∧ s.ckr.inReset = false :=
  ⟨onTrackState, by decide +kernel⟩

theorem witness_SuppliesAndReset_17 : ∃ (s : State), powerLost s = true :=
  ⟨{ State.reset with ckr := { loss := some {} } }, by decide +kernel⟩

theorem witness_SuppliesAndReset_18 : ∃ (s : State) (i : FlushImage) (l : PowerLoss), s.ckr.loss = some l ∧ s.flt.image = some i ∧ i.committed = false ∧ evrPersisted s = true ∧ s.sec.trialFailed = false :=
  ⟨{ withRegs [(F.EVR_CTL_MODE, 0, 1)] with ckr := { loss := some { flush := true } }, flt := { image := some {} } }, {}, { flush := true }, by decide +kernel⟩

theorem witness_SuppliesAndReset_19 : ∃ (s : State), evrPersisted s = false :=
  ⟨{ withRegs [(F.FLT_STAT_STATE, 0, 5)] with ckr := { loss := some { flush := true } }, flt := { image := some {} }, evr := { dirty := [{}] } }, by decide +kernel⟩

theorem witness_SuppliesAndReset_20 : ∃ (s : State) (vm : Nat) (l : PowerLoss) (c : Nat), s.ckr.loss = some l ∧ l.vinBack = false ∧ s.ckr.quiesced = false ∧ (mayQuiesce (setVm s vm) = true ∨ vm < 4500) ∧ c < s.part.cores :=
  ⟨{ withRegs [(F.EVR_CTL_MODE, 0, 1), (F.SVC_CORE_CTL_STATE, 1, 1)] with ckr := { loss := some { flush := true, committed := true } } }, 9000, { flush := true, committed := true }, 1, by decide +kernel⟩

theorem witness_SuppliesAndReset_21 : ∃ (s : State) (vm : Nat) (l : PowerLoss), s.ckr.loss = some l ∧ mayQuiesce (setVm s vm) = false ∧ 4500 ≤ vm :=
  ⟨{ withRegs [(F.EVR_CTL_MODE, 0, 1), (F.SVC_CORE_CTL_STATE, 1, 1)] with ckr := { loss := some { flush := true } } }, 9000, { flush := true }, by decide +kernel⟩

theorem witness_SuppliesAndReset_22 : ∃ (s : State) (vm : Nat) (l : PowerLoss), s.ckr.loss = some l ∧ l.vinBack = true ∧ s.ckr.quiesced = false ∧ mayQuiesce (setVm s vm) = true ∧ s.ckr.dead = false ∧ s.ckr.inReset = false :=
  ⟨{ withRegs [(F.EVR_CTL_MODE, 0, 1), (F.SVC_CORE_CTL_STATE, 1, 1)] with ckr := { loss := some { vinBack := true } } }, 9000, { vinBack := true }, by decide +kernel⟩

theorem witness_SuppliesAndReset_23 : ∃ (s : State) (l : PowerLoss), s.ckr.loss = some l ∧ s.ckr.quiesced = false :=
  ⟨{ State.reset with ckr := { loss := some { flush := true } } }, { flush := true }, by decide +kernel⟩

theorem witness_SuppliesAndReset_24 : ∃ (s : State), powerLost s = true ∧ s.ckr.quiesced = true ∧ s.ckr.dead = false ∧ s.ckr.inReset = false :=
  ⟨{ State.reset with ckr := { loss := some {}, quiesced := true } }, by decide +kernel⟩

theorem witness_SuppliesAndReset_25 : ∃ (s : State), powerLost s = true ∧ s.ckr.dead = false :=
  ⟨{ withRegs [(F.FCL_CAUSE_INFO_VALID, 0, 1)] with ckr := { loss := some {}, storeA := { seq := 4, good := true } } }, by decide +kernel⟩

theorem witness_SuppliesAndReset_26 : ∃ (s : State), s.ckr.dead = false :=
  ⟨{ State.reset with ckr := { dtime := 60000, storeA := { seq := 4, good := true }, storeB := { seq := 3, good := true } } }, by decide +kernel⟩

/-- States and operands that meet the hypotheses of `Calibration`, clause by clause. -/
theorem witness_Calibration_1 : ∃ (s : State) (v : Word), 16 ≤ getBits v 0 11 ∧ itemUsed (getBits v 0 11) = true ∧ itemPresent s (getBits v 0 11) = true ∧ s.cal.queue.length < 16 :=
  ⟨State.reset, 789#64, by decide +kernel⟩

theorem witness_Calibration_2 : ∃ (v : Word), (getBits v 0 11 < 16 ∨ (47 ≤ getBits v 0 11 ∧ getBits v 0 11 < 64) ∨ 1600 ≤ getBits v 0 11) :=
  ⟨47#64, by decide +kernel⟩

theorem witness_Calibration_3 : ∃ (s : State) (v : Word), 16 ≤ getBits v 0 11 ∧ itemUsed (getBits v 0 11) = true ∧ itemPresent s (getBits v 0 11) = false :=
  ⟨{ State.reset with part := .fjd7411n }, 39#64, by decide +kernel⟩

theorem witness_Calibration_4 : ∃ (s : State) (v : Word), 16 ≤ getBits v 0 11 ∧ itemUsed (getBits v 0 11) = true ∧ itemPresent s (getBits v 0 11) = true ∧ 16 ≤ s.cal.queue.length :=
  ⟨{ State.reset with cal := { queue := List.replicate 16 32 } }, 789#64, by decide +kernel⟩

theorem witness_Calibration_5 : ∃ (s : State) (o : Nat) (k : Nat) (n : Nat), s.cal.running.any (fun r => r.owner == o) = false ∧ firstIdx (fun m => itemOwner s m == o) s.cal.queue 0 = some k ∧ s.cal.queue.getD k 0 = n ∧ itemReady s n = true :=
  ⟨{ withRegs [(F.SVG_CTL_EN, 1, 1)] with cal := { queue := [34, 32, 33, 37], running := [{ item := 46, owner := 4 }] } }, 1, 2, 33, by decide +kernel⟩

theorem witness_Calibration_6 : ∃ (s : State) (o : Nat) (k : Nat) (n : Nat), s.cal.running.any (fun r => r.owner == o) = false ∧ firstIdx (fun m => itemOwner s m == o) s.cal.queue 0 = some k ∧ s.cal.queue.getD k 0 = n ∧ itemReady s n = false :=
  ⟨{ State.reset with cal := { queue := [34, 32, 33, 37] } }, 1, 2, 33, by decide +kernel⟩

theorem witness_Calibration_7 : ∃ (s : State) (o : Nat), s.cal.running.any (fun r => r.owner == o) = true :=
  ⟨{ State.reset with cal := { queue := [33], running := [{ item := 37, owner := 1 }] } }, 1, by decide +kernel⟩

theorem witness_Calibration_9 : ∃ (s : State) (lane : Nat), flag s F.CAL_CTL_BG_EN = true ∧ lane < s.part.lanes ∧ flag s F.LNE_AFE_CTL_EN lane = true ∧ safeState s = false ∧ powerLost s = false ∧ s.cal.background.any (fun r => r.item % 8 == lane) = false ∧ (pairOf s (lane / 2)).redundant = redundancy s ∧ s.cal.pending.any (fun x => x.item == 8 + lane) = false :=
  ⟨withRegs [(F.LNE_AFE_CTL_EN, 2, 1)], 2, by decide +kernel⟩

theorem witness_Calibration_10 : ∃ (s : State) (lane : Nat), (pairOf s (lane / 2)).redundant ≠ redundancy s :=
  ⟨setPair State.reset 1 { redundant := true }, 2, by decide +kernel⟩

theorem witness_Calibration_11 : ∃ (s : State) (lane : Nat), (flag s F.CAL_CTL_BG_EN = false ∨ flag s F.LNE_AFE_CTL_EN lane = false) :=
  ⟨State.reset, 2, by decide +kernel⟩

theorem witness_Calibration_12 : ∃ (s : State) (n : Nat) (x : List Int) (y : List Int) (z : List Int), (s.cal.running ++ s.cal.background).any (fun r => r.item == n) = true ∧ resultsAgree n (runResult n x (z.take 3)) (runResult n y (z.drop 3)) = false ∧ 8 ≤ n ∧ (waitingAt s .cal).length < 4 :=
  ⟨{ State.reset with cal := { running := [{ item := 26, owner := 2 }] } }, 26, [10], [12], [], by decide +kernel⟩

theorem witness_Calibration_13 : ∃ (s : State) (n : Nat) (x : List Int) (y : List Int), (s.cal.running ++ s.cal.background).any (fun r => r.item == n) = true ∧ resultsAgree n x y = true ∧ (40 ≤ n ∧ n < 46 ∨ 1088 ≤ n) :=
  ⟨{ State.reset with cal := { running := [{ item := 41, owner := 4 }], pending := [{ item := 41, vals := [9] }] } }, 41, [10], [13], by decide +kernel⟩

theorem witness_Calibration_14 : ∃ (s : State) (n : Nat) (x : List Int) (y : List Int) (z : List Int), (s.cal.running ++ s.cal.background).any (fun r => r.item == n) = true ∧ 8 ≤ n ∧ n < 16 ∧ placeAgrees (runResult n x (z.take 3)) (runResult n y (z.drop 3)) 16 = true ∧ (pairOf s ((n - 8) / 2)).run.isSome = true :=
  ⟨setPair { State.reset with cal := { background := [{ item := 11, owner := 1 }] } } 1 { run := some {} }, 11, [], [], [100, 0, 0, 120, 0, 0], by decide +kernel⟩

theorem witness_Calibration_15 : ∃ (s : State) (n : Nat) (x : List Int) (y : List Int) (c : CalPend), (s.cal.running ++ s.cal.background).any (fun r => r.item == n) = true ∧ n < 8 ∧ resultsAgree n x y = false ∧ calResult n 0 x y = some c ∧ (pairOf s (n / 2)).run.isSome = true ∧ (waitingAt s .cal).length < 4 :=
  ⟨setPair { State.reset with cal := { background := [{ item := 3, owner := 1 }] } } 1 { run := some {} }, 3, [900], [], (calResult 3 0 [900] []).getD {}, by decide +kernel⟩

theorem witness_Calibration_16 : ∃ (s : State) (n : Nat) (x : List Int) (y : List Int), (s.cal.running ++ s.cal.background).any (fun r => r.item == n) = true ∧ n = 26 ∧ resultsAgree n x y = true ∧ (pairOf s 2).run = none :=
  ⟨{ State.reset with cal := { running := [{ item := 26, owner := 2 }] }, ckr := { dtime := 77 } }, 26, [130], [131], by decide +kernel⟩

theorem witness_Calibration_17 : ∃ (s : State) (n : Nat), (s.cal.running ++ s.cal.background).any (fun r => r.item == n) = false :=
  ⟨State.reset, 26, by decide +kernel⟩

theorem witness_Calibration_18 : ∃ (s : State) (n : Nat), s.cal.running.any (fun r => r.item == n) = true ∧ (waitingAt s .cal).length < 4 :=
  ⟨{ State.reset with cal := { running := [{ item := 26, owner := 2 }] } }, 26, by decide +kernel⟩

/-- States and operands that meet the hypotheses of `RegisterAccess`, clause by clause. -/
theorem witness_RegisterAccess_1 : ∃ (s : State) (e : Nat) (a : Nat) (w : Nat) (v : Word) (r : Reg) (i : Nat), inControl a = true ∧ accessOk a w = true ∧ targetOf s a w = .reg r i false ∧ (r.info.wide = true → w = 8) ∧ commandWrite s e r i v = none ∧ (r.info.wide = true ∨ v.toNat < 2 ^ 32) ∧ writeIgnored s r i v = false ∧ r ∈ [.CAL_CTL, .WRP_CTL, .SPN_LIM, .CTE_SETTLE, .LNE_TARGET, .SHT_TASK_TMO, .GLY_DISPATCH_CTL, .MGT_ADDR, .BFM_ECC_CTL, .DMA_CH_RING, .FLT_RR_VAL, .SVC_NMI_VEC, .OFL_WV_RING, .FCL_THRESH, .SYC_ALLOC_CTL] :=
  ⟨State.reset, 0, (Reg.addr .CAL_CTL 0), 4, 0x7D1#64, .CAL_CTL, 0, by decide +kernel⟩

theorem witness_RegisterAccess_3 : ∃ (s : State) (a : Nat) (w : Nat), inControl a = true ∧ accessOk a w = true ∧ targetOf s a w = .absent :=
  ⟨{ State.reset with part := .fjd7411n }, (Reg.addr .FLT_CTL 0), 4, by decide +kernel⟩

theorem witness_RegisterAccess_4 : ∃ (s : State) (a : Nat) (w : Nat) (b : Block), inControl a = true ∧ accessOk a w = true ∧ targetOf s a w = .undefined b ∧ (waitingAt s b).length < 4 :=
  ⟨State.reset, Reg.addr .CAL_CTL 0 + 4, 4, .cal, by decide +kernel⟩

theorem witness_RegisterAccess_5 : ∃ (s : State) (a : Nat) (w : Nat), inControl a = true ∧ accessOk a w = false ∧ undecoded s a w true = false :=
  ⟨State.reset, (Reg.addr .CAL_CTL 0) + 2, 4, by decide +kernel⟩

theorem witness_RegisterAccess_6 : ∃ (s : State) (a : Nat) (w : Nat), inControl a = true ∧ accessOk a w = true ∧ targetOf s a w = .tooWide :=
  ⟨State.reset, (Reg.addr .CAL_CTL 0), 8, by decide +kernel⟩

theorem witness_RegisterAccess_7 : ∃ (s : State) (a : Nat) (w : Nat), accessOk a w = true ∧ inControl a = true ∧ blockAt a = none ∧ (waitingAt s .fcl).length < 4 :=
  ⟨State.reset, 0xF0060000, 4, by decide +kernel⟩

theorem witness_RegisterAccess_8 : ∃ (s : State) (a : Nat) (w : Nat) (r : Reg) (i : Nat) (up : Bool), inControl a = true ∧ accessOk a w = true ∧ targetOf s a w = .reg r i up :=
  ⟨State.reset, (Reg.addr .CKR_SHUTDOWN 0), 4, .CKR_SHUTDOWN, 0, false, by decide +kernel⟩

theorem witness_RegisterAccess_9 : ∃ (a : Nat), inControl a = false :=
  ⟨0x80000000, by decide +kernel⟩

theorem witness_RegisterAccess_10 : ∃ (s : State) (a : Nat) (w : Nat) (b : Bool), undecoded s a w b = true :=
  ⟨State.reset, 0x10000000000, 16, false, by decide +kernel⟩

theorem witness_RegisterAccess_11 : ∃ (s : State) (a : Nat) (w : Nat) (b : Bool), undecoded s a w b = false :=
  ⟨State.reset, (Reg.addr .CAL_CTL 0), 4, true, by decide +kernel⟩

/-- States and operands that meet the hypotheses of `StepRunsFrontCommand`, clause by clause. -/
theorem witness_StepRunsFrontCommand : ∃ (c : Instr) (rest : List Instr) (s : State), s.pending = c :: rest := ⟨.shutdown, [.calBlockReset], { State.reset with pending := [.shutdown, .calBlockReset] }, by decide +kernel⟩

/-- States and operands that meet the hypotheses of `StepKeepsInvariant`, clause by clause. -/
theorem witness_StepKeepsInvariant : ∃ (s : State) (t : State), Inv s ∧ step s = .next t := ⟨{ State.reset with pending := [.holdUpEnd] }, State.reset, ⟨tabWf_nil, tabWf_nil⟩, rfl⟩

/-- States and operands that meet the hypotheses of `StepTakesOneCommand`, clause by clause. -/
theorem witness_StepTakesOneCommand_1 : ∃ (s : State) (t : State), step s = .next t :=
  ⟨{ State.reset with pending := [.holdUpEnd] }, State.reset, rfl⟩

theorem witness_StepTakesOneCommand_2 : ∃ (s : State) (r : Refusal), step s = .refused r :=
  ⟨{ (withRegs [(F.SHT_MATCH_EN, 0, 1), (F.SHT_MATCH_MATCH_ADDR, 0, 0x400)] (running 0x10 3 5 0 [])) with pending := [.mov 0 3 5] }, .patchedInstruction, rfl⟩

/-- States and operands that meet the hypotheses of `EveryCommandCompletes`, clause by clause. -/
theorem witness_EveryCommandCompletes_1 : ∃ (s : State), (∀ op, patched s op = false) :=
  ⟨State.reset, fun op => by
    have h : (List.range 32).any (fun j => flag State.reset F.SHT_MATCH_EN j) = false := by decide +kernel
    simp only [patched, h, Bool.false_and]⟩

theorem witness_EveryCommandCompletes_2 : ∃ (c : Instr), coava c = false :=
  ⟨.tagNoResponse, by decide +kernel⟩

theorem witness_EveryCommandCompletes_3 : ∃ (s : State), (∀ k, shRunning s k = false) :=
  ⟨State.reset, fun _ => Bool.and_false _⟩

/-- States and operands that meet the hypotheses of `OtpOnlyBurns`, clause by clause. -/
theorem witness_OtpOnlyBurns_1 : ∃ (s : State) (t : State), step s = .next t :=
  ⟨{ State.reset with pending := [.holdUpEnd] }, State.reset, rfl⟩

theorem witness_OtpOnlyBurns_2 : ∃ (s : State) (t : State), step s = .next t :=
  ⟨{ State.reset with pending := [.holdUpEnd] }, State.reset, rfl⟩

/-- States and operands that meet the hypotheses of `OnlyResetLeavesSafeState`, clause by clause. -/
theorem witness_OnlyResetLeavesSafeState : ∃ (s : State) (t : State), safeState s = true ∧ step s = .next t := ⟨{ (withRegs [(F.FCL_STAT_SAFE, 0, 1)]) with pending := [.chipReset] }, chipReset (withRegs [(F.FCL_STAT_SAFE, 0, 1)]), rfl, rfl⟩

/-- States and operands that meet the hypotheses of `CommandFrames`, clause by clause. -/
theorem witness_CommandFrames_1 : ∃ (c : Instr) (s : State) (t : State), exec c s = .next t :=
  ⟨.shutdown, State.reset, shutdown State.reset, rfl⟩

theorem witness_CommandFrames_2 : ∃ (c : Instr) (s : State) (t : State), exec c s = .next t ∧ storesMemory c = false :=
  ⟨.shutdown, State.reset, shutdown State.reset, rfl, rfl⟩

theorem witness_CommandFrames_3 : ∃ (s : State) (k : Nat) (rd : Nat) (rs : Nat) (imm : Nat) (a : Nat) (i : Ins), fetched s k = some i ∧ i.op = 0x51 ∧ i.rd = rd ∧ i.rs = rs ∧ i.imm = imm ∧ patched s 0x51 = false ∧ operandAddr (shtOf s k) rs imm = a ∧ a % 8 = 0 ∧ 0xE0000000 ≤ a ∧ a + 8 ≤ 0xE0000000 + fld s F.SYC_SCRATCH_COUNT * 524288 ∧ flag s F.SYC_SCRATCH_BUSY = false :=
  ⟨running 0x51 3 5 8 [(3, 0x7705#64), (5, 0xE0000000#64)] (withRegs [(F.SYC_SCRATCH_COUNT, 0, 1)]), 0, 3, 5, 8, 0xE0000008, ⟨0x51, 3, 5, 8⟩, by decide +kernel⟩

/-- States and operands that meet the hypotheses of `FaultMessageWord`, clause by clause. -/
theorem witness_FaultMessageWord_1 : ∃ (source : Nat) (kind : Nat) (sev : Nat) (addr : Nat), source < 2048 ∧ kind < 256 ∧ sev < 8 ∧ addr < 2 ^ 40 :=
  ⟨1030, 0x90, 3, 0x55, by decide +kernel⟩

theorem witness_FaultMessageWord_2 : ∃ (s : State) (i : Nat) (w : Word) (rest : List Word), s.ckr.inReset = false ∧ grant 25 s.fcl.ptr (fun j => !(tget (dflt []) s.fcl.waiting j).isEmpty) = some i ∧ tget (dflt []) s.fcl.waiting i = w :: rest ∧ msgPar w ≠ bit w 63 :=
  ⟨{ State.reset with fcl := { waiting := [(5, [0x8000000000000055#64])] } }, 5, 0x8000000000000055#64, [], by decide +kernel⟩

/-- States and operands that meet the hypotheses of `GalleyRegisterRules`, clause by clause. -/
theorem witness_GalleyRegisterRules_1 : ∃ (s : State), flag s F.GLY_CTL_EN = false :=
  ⟨State.reset, by decide +kernel⟩

theorem witness_GalleyRegisterRules_2 : ∃ (s : State), flag s F.GLY_CTL_EN = true :=
  ⟨withRegs [(F.GLY_CTL_EN, 0, 1)], by decide +kernel⟩

theorem witness_GalleyRegisterRules_3 : ∃ (s : State) (n : Nat) (a : Nat) (w : Nat) (r : Reg), flag s F.GLY_CTL_EN = true ∧ n < 8 ∧ (r = .DMA_CH_CFG ∨ r = .DMA_CH_RING ∨ r = .DMA_CH_TAIL ∨ r = .DMA_CH_CTL) ∧ a = Reg.addr r n ∧ (w = 4 ∨ (w = 8 ∧ r.info.wide = true)) :=
  ⟨withRegs [(F.GLY_CTL_EN, 0, 1)], 7, Reg.addr .DMA_CH_RING 7, 8, .DMA_CH_RING, by decide +kernel⟩

theorem witness_GalleyRegisterRules_4 : ∃ (n : Nat) (r : Reg), n < 8 ∧ (r = .DMA_CH_STATUS ∨ r = .DMA_CH_SRC ∨ r = .DMA_CH_DST ∨ r = .DMA_CH_COUNT) :=
  ⟨7, .DMA_CH_SRC, by decide +kernel⟩

/-- States and operands that meet the hypotheses of `CoavaFetch`, clause by clause. -/
theorem witness_CoavaFetch : ∃ (h : Shuttle) (pc : Nat) (op : Nat) (rd : Nat) (rs : Nat) (imm : Nat), op < 256 ∧ rd < 16 ∧ rs < 16 ∧ imm < 65536 ∧ lsBytes h pc 4 = [BitVec.ofNat 8 imm, BitVec.ofNat 8 (imm / 256), BitVec.ofNat 8 (rs + 16 * rd), BitVec.ofNat 8 op] := ⟨shtOf (running 0x51 3 5 0x1234 []) 0, 0, 0x51, 3, 5, 0x1234, by decide +kernel⟩

end Sys2Proof.Tests
end

section
-- `decide` waits for the kernel: a thread for each of these proofs would exhaust the memory limit.
set_option Elab.async false

namespace Sys2Proof.Machine

namespace Keeps

variable {bs cs : List Block} {m n : Bool} {s t u : State}

/-- A footprint within the one asked for. -/
theorem sub (h : Keeps cs n s t) (hb : cs ⊆ bs := by decide) (hm : m = false → n = false := by decide) : Keeps bs m s t :=
  h.weaken hb hm

/-- A change followed by one of a narrower footprint. -/
theorem andThen (h : Keeps bs m s t) (k : Keeps cs n t u) (hb : cs ⊆ bs := by decide)
    (hm : m = false → n = false := by decide) : Keeps bs m s u :=
  h.trans (k.sub hb hm)

/-- Every field but the registers, memory, the part and the queue replaced: the shape of a record update, whose OTP stands. -/
theorem upd {board free bus ckr cal fcl evr zones svg cte spn sec syc bfm l2 gly hfe chans spools flt svc ofl mgt dmaPtr hdl
    tag pairs dcp decoders wrp shts loom codeLoad patch} (h : Keeps bs m s t) (ho : sec.otp = t.sec.otp := by rfl) :
    Keeps bs m s { t with
      board := board, free := free, bus := bus, ckr := ckr, cal := cal, fcl := fcl, evr := evr, zones := zones, svg := svg
      cte := cte, spn := spn, sec := sec, syc := syc, bfm := bfm, l2 := l2, gly := gly, hfe := hfe, chans := chans
      spools := spools, flt := flt, svc := svc, ofl := ofl, mgt := mgt, dmaPtr := dmaPtr, hdl := hdl, tag := tag
      pairs := pairs, dcp := dcp, decoders := decoders, wrp := wrp, shts := shts, loom := loom, codeLoad := codeLoad
      patch := patch } :=
  h.trans (.of_eq rfl rfl ho rfl rfl)

theorem ite {c : Prop} [Decidable c] (h : Keeps bs m s t) (k : Keeps bs m s u) : Keeps bs m s (if c then t else u) := by
  split <;> assumption

/-- The state of a conditional that answers a value with it. -/
theorem iteSnd {α : Type} {c : Prop} [Decidable c] {p q : α × State} (h : Keeps bs m s p.2) (k : Keeps bs m s q.2) :
    Keeps bs m s (if c then p else q).2 := by
  split <;> assumption

/-- The state of a pair that was taken apart. -/
theorem ofSnd {α : Type} {p : α × State} {x : α} (h : Keeps bs m s p.2) (e : p = (x, t)) : Keeps bs m s t := by
  subst e; exact h

end Keeps

/-- From s to t only registers of the blocks bs are changed, and memory only if m; the part, the queue and the canonical forms
stand. What `Keeps` says but for the OTP, which some commands burn. -/
structure Acts (bs : List Block) (m : Bool) (s t : State) : Prop where
  part : t.part = s.part
  pending : t.pending = s.pending
  memWf : Memory.wf s.mem → Memory.wf t.mem
  regsWf : RegsWf s → RegsWf t
  regs : ∀ (r : Reg) (i : Nat), r.info.block ∉ bs → rd t r i = rd s r i
  mem : m = false → ∀ a, readByte t a = readByte s a

theorem Keeps.acts {bs : List Block} {m : Bool} {s t : State} (h : Keeps bs m s t) : Acts bs m s t :=
  ⟨h.part, h.pending, h.memWf, h.regsWf, h.regs, h.mem⟩

namespace Acts

variable {bs cs : List Block} {m n : Bool} {s t u : State}

theorem refl : Acts bs m s s := Keeps.refl.acts

theorem trans (h : Acts bs m s t) (k : Acts bs m t u) : Acts bs m s u :=
  ⟨k.part.trans h.part, k.pending.trans h.pending, fun w => k.memWf (h.memWf w), fun w => k.regsWf (h.regsWf w),
    fun r i hr => (k.regs r i hr).trans (h.regs r i hr), fun hm a => (k.mem hm a).trans (h.mem hm a)⟩

/-- A footprint within the one asked for. -/
theorem sub (h : Acts cs n s t) (hb : cs ⊆ bs := by decide) (hm : m = false → n = false := by decide) : Acts bs m s t :=
  ⟨h.part, h.pending, h.memWf, h.regsWf, fun r i hr => h.regs r i fun e => hr (hb e), fun e => h.mem (hm e)⟩

/-- A change followed by one that leaves the OTP, of a narrower footprint. -/
theorem andThen (h : Acts bs m s t) (k : Keeps cs n t u) (hb : cs ⊆ bs := by decide)
    (hm : m = false → n = false := by decide) : Acts bs m s u := h.trans (k.sub hb hm).acts

/-- A change that leaves the OTP, followed by one of a narrower footprint. -/
theorem before (k : Acts cs n t u) (h : Keeps bs m s t) (hb : cs ⊆ bs := by decide)
    (hm : m = false → n = false := by decide) : Acts bs m s u := h.acts.trans (k.sub hb hm)

theorem ite {c : Prop} [Decidable c] (h : Acts bs m s t) (k : Acts bs m s u) : Acts bs m s (if c then t else u) := by
  split <;> assumption

/-- Every field but the registers, memory, the part and the queue replaced. -/
theorem upd {board free bus ckr cal fcl evr zones svg cte spn sec syc bfm l2 gly hfe chans spools flt svc ofl mgt dmaPtr hdl
    tag pairs dcp decoders wrp shts loom codeLoad patch} (h : Acts bs m s t) :
    Acts bs m s { t with
      board := board, free := free, bus := bus, ckr := ckr, cal := cal, fcl := fcl, evr := evr, zones := zones, svg := svg
      cte := cte, spn := spn, sec := sec, syc := syc, bfm := bfm, l2 := l2, gly := gly, hfe := hfe, chans := chans
      spools := spools, flt := flt, svc := svc, ofl := ofl, mgt := mgt, dmaPtr := dmaPtr, hdl := hdl, tag := tag
      pairs := pairs, dcp := dcp, decoders := decoders, wrp := wrp, shts := shts, loom := loom, codeLoad := codeLoad
      patch := patch } :=
  ⟨h.part, h.pending, h.memWf, h.regsWf, h.regs, h.mem⟩

/-- The invariant stands. -/
theorem inv (h : Acts bs m s t) (w : Inv s) : Inv t := ⟨h.memWf w.1, h.regsWf w.2⟩

end Acts

/-- Every block is among all of them. -/
theorem Block.mem_all (b : Block) : b ∈ Block.all := by cases b <;> decide

/-- The widest footprint. -/
theorem Acts.any {bs : List Block} {m : Bool} {s t : State} (h : Acts bs m s t) : Acts Block.all true s t :=
  h.sub (fun b _ => b.mem_all) nofun

theorem Keeps.any {bs : List Block} {m : Bool} {s t : State} (h : Keeps bs m s t) : Acts Block.all true s t := h.acts.any

/-- A meaning answers a next state, with a property. -/
def Answers (P : State → Prop) (r : Result) : Prop := ∃ t, r = .next t ∧ P t

namespace Answers

variable {P Q : State → Prop} {r q : Result} {s t u : State}

theorem next (h : P t) : Answers P (.next t) := ⟨t, rfl, h⟩

theorem ite {c : Prop} [Decidable c] (h : Answers P r) (k : Answers P q) : Answers P (if c then r else q) := by
  split <;> assumption

theorem mono (h : Answers P r) (k : ∀ t, P t → Q t) : Answers Q r := h.imp fun t ⟨e, p⟩ => ⟨e, k t p⟩

/-- A change, and a meaning that runs on the state it leaves. -/
theorem onward {bs : List Block} {m : Bool} (h : Keeps bs m s t) (k : Answers (Keeps bs m t) r) : Answers (Keeps bs m s) r :=
  k.mono fun _ k => h.trans k

/-- A footprint within the one asked for. -/
theorem sub {bs cs : List Block} {m n : Bool} (h : Answers (Keeps cs n s) r) (hb : cs ⊆ bs := by decide)
    (hm : m = false → n = false := by decide) : Answers (Keeps bs m s) r := h.mono fun _ k => k.sub hb hm

/-- A meaning that runs on a state already changed. -/
theorem after {bs cs : List Block} {m n : Bool} (k : Answers (Keeps cs n t) r) (h : Keeps bs m s t)
    (hb : cs ⊆ bs := by decide) (hm : m = false → n = false := by decide) : Answers (Keeps bs m s) r :=
  k.mono fun _ k => h.andThen k hb hm

end Answers

/-- The state a meaning answers with, where it stands for the state itself. -/
theorem Keeps.stateOf {bs : List Block} {m : Bool} {s : State} {r : Result} (h : Answers (Keeps bs m s) r) :
    Keeps bs m s (stateOf r s) := by
  obtain ⟨t, rfl, k⟩ := h
  exact k

/-- A Coava instruction's meaning answers a next state, with a property, unless the sequence of a running Shuttle's
instruction meets the patch RAM. -/
def Runs (s : State) (P : State → Prop) (r : Result) : Prop :=
  Answers P r ∨ (r = .refused .patchedInstruction ∧ (∃ op, patched s op = true) ∧ ∃ k, shRunning s k = true)

theorem Runs.mono {P Q : State → Prop} {s : State} {r : Result} (h : Runs s P r) (k : ∀ t, P t → Q t) : Runs s Q r :=
  h.imp_left fun h => h.mono k

theorem Runs.sub {bs cs : List Block} {m n : Bool} {s : State} {r : Result} (h : Runs s (Keeps cs n s) r)
    (hb : cs ⊆ bs := by decide) (hm : m = false → n = false := by decide) : Runs s (Keeps bs m s) r :=
  h.mono fun _ k => k.sub hb hm

/-- Only a running Shuttle fetches. -/
theorem shRunning_of_fetched {s : State} {k : Nat} {i : Ins} (h : fetched s k = some i) : shRunning s k = true := by
  unfold fetched at h
  split at h
  · rename_i c
    exact (Bool.and_eq_true_iff.1 c).1
  · cases h

/-- An instruction does nothing or its own effect, or meets the patch RAM. -/
theorem runs_onInstr {P : State → Prop} {s : State} {k op : Nat} {used : Ins → Bool} {f : Ins → State} (hs : P s)
    (h : ∀ i, P (f i)) : Runs s P (onInstr s k op used f) := by
  unfold onInstr
  split
  · rename_i i e
    split
    · exact .inl (.next hs)
    · split
      · rename_i hp
        exact .inr ⟨rfl, ⟨op, hp⟩, k, shRunning_of_fetched e⟩
      · exact .inl (.next (h i))
  · exact .inl (.next hs)

/-- A state change for each element of a list, which may use that it is one of the list's. -/
theorem keeps_eachIn {α : Type} {bs : List Block} {m : Bool} (l : List α) (f : α → State → State)
    (h : ∀ x ∈ l, ∀ t, Keeps bs m t (f x t)) : ∀ s : State, Keeps bs m s (each l f s) := by
  induction l with
  | nil => exact fun s => .refl
  | cons x l ih => exact fun s => (h x (by simp) s).trans (ih (fun y hy => h y (by simp [hy])) (f x s))

/-- A line written back reaches the registers of BFM and FCL alone. -/
theorem keeps_writeBack_bfm (s : State) (x : CacheLine) : Keeps [.fcl, .bfm] true s (writeBack s x) := by
  have count (t : State) : Keeps [.fcl, .bfm] true t (countDram t true) :=
    Keeps.trans (.upd .refl) (keeps_bump (freshBit t).2 _ _ _ (by decide))
  unfold writeBack
  exact ((((keeps_each _ _ (fun _ _ => keeps_corrected _ _ _ _ _ (by decide) (by decide)) s).trans (count _)).trans
    (keeps_writeBytes _ _ _)).trans (keeps_each _ _ (fun _ _ => keeps_freshCheck _ _) _)).trans (keeps_setPoison _ _ _)

theorem keeps_setFlds_all {bs : List Block} {m : Bool} (s : State) (i : Nat) (l : List (Fld × Nat))
    (h : l.all (fun x => decide (x.1.reg.info.block ∈ bs)) = true) : Keeps bs m s (setFlds s i l) :=
  keeps_setFlds i l s (by simpa using h)

theorem MemBlocks.of {bs : List Block} (h : [Block.bfm, Block.syc, Block.fcl] ⊆ bs := by decide) : MemBlocks bs :=
  ⟨h (by decide), h (by decide), h (by decide)⟩

theorem acts_provServe {bs : List Block} {m : Bool} (s : State) (l : List Nat) (f : State → State)
    (h : Acts bs m s (f s)) : Acts bs m s (provServe s l f) := by
  have answer (o : SideOut) : Acts bs m s (sideAnswer s o) := .upd .refl
  exact .ite (answer _) (.ite (answer _) (.ite h (answer _)))

end Sys2Proof.Machine

end

section
-- `decide` waits for the kernel: a thread for each of these proofs would exhaust the memory limit.
set_option Elab.async false

namespace Sys2Proof.Machine

/-! ### What each operation of the model changes

One lemma per operation, in the order of the model: the blocks whose registers it can change and whether it can change
memory (`Keeps`, or `Acts` where it burns the OTP), composed along its branches. Later proofs cite these and do not unfold
the operations. -/

theorem keeps_freshWord (s : State) : Keeps [] false s (freshWord s).2 := .upd .refl

theorem keeps_freshNat (s : State) (n : Nat) : Keeps [] false s (freshNat s n).2 := by
  induction n with
  | zero => exact .refl
  | succ n ih => exact ih.andThen (keeps_freshWord _)

theorem keeps_freshBit (s : State) : Keeps [] false s (freshBit s).2 := .upd .refl

theorem keeps_setMeas (s : State) (k v : Nat) : Keeps [.sec] false s (setMeas s k v) :=
  keeps_each _ _ (fun _ _ => keeps_wr _ _ _ _ (by decide)) _

theorem keeps_sramUe (s : State) (b : Block) (off req : Nat) : Keeps [.fcl, .bfm] false s (sramUe s b off req) :=
  ((keeps_freshWord ..).sub).trans (keeps_memUe _ _ _ _ _ _ (by decide) (by decide))

theorem keeps_busReadWord (s : State) (r : Port) (addr : Nat) :
    Keeps [.fcl, .bfm, .syc] true s (busReadWord s r addr).2 := keeps_busRead _ _ _ _ .of

theorem keeps_busWriteWord (s : State) (r : Port) (addr : Nat) (w : Word) :
    Keeps [.fcl, .bfm, .syc] true s (busWriteWord s r addr w).2 := keeps_busWrite _ _ _ _ .of

theorem keeps_clearScratch (s : State) : Keeps [] true s (clearScratch s) := keeps_clearRange ..

theorem keeps_wipeDram (s : State) : Keeps [] true s (wipeDram s) := (keeps_clearRange ..).upd

theorem keeps_wipeCaches (s : State) : Keeps [] true s (wipeCaches s) := (keeps_clearScratch ..).upd

theorem answers_execRingDrain (s : State) : Answers (Keeps [.fcl, .evr, .bfm, .syc] true s) (execRingDrain s) :=
  .next (keeps_drainOne _ .of (by decide))

theorem answers_execTokenRefill (i : Nat) (s : State) : Answers (Keeps [.evr] false s) (execTokenRefill i s) :=
  .next (.ite (keeps_setFld _ _ _ _ (by decide)) .refl)

theorem answers_execEvrRateWrite (i : Nat) (value : Word) (s : State) :
    Answers (Keeps [.evr] false s) (execEvrRateWrite i value s) :=
  .next (.ite (keeps_setFlds_all _ _ _ rfl) .refl)

theorem answers_execEvrFwRecord (c : Nat) (value : Word) (s : State) :
    Answers (Keeps [.fcl, .evr, .bfm, .syc] true s) (execEvrFwRecord c value s) :=
  .ite (.onward (keeps_setFlds_all _ _ _ rfl) (.ite (.ite (.next ((keeps_evrRequest _ _ .of (by decide)).trans
    (keeps_setFld _ _ _ _ (by decide)))) (.next (keeps_setFld _ _ _ _ (by decide)))) (.next .refl))) (.next .refl)

theorem keeps_mapDirty (s : State) (page : Nat) (f : DirtyPage → DirtyPage) : Keeps [] false s (mapDirty s page f) :=
  .upd .refl

theorem keeps_persistFail (s : State) (page : Nat) : Keeps [.fcl, .evr] false s (persistFail s page) :=
  (((keeps_mapDirty ..).sub).trans (keeps_setFlag _ _ _ _ (by decide))).trans (.ite .refl (.trans (.trans (.upd
    .refl) (keeps_sendFault _ _ _ _ _ _ (by decide))) (keeps_raiseSource _ _ (by decide))))

theorem answers_execPagePersist (page : Nat) (s : State) :
    Answers (Keeps [.fcl, .evr, .bfm, .syc] true s) (execPagePersist page s) := by
  refine .next ?_
  split
  · exact .refl
  · exact .ite .refl (.ite ((keeps_busRead _ _ _ _ .of).andThen (keeps_mapDirty ..)) ((keeps_persistFail ..).sub))

theorem answers_execPageWriteDone (page : Nat) (ok : Bool) (s : State) :
    Answers (Keeps [.fcl, .evr] false s) (execPageWriteDone page ok s) := by
  refine .next ?_
  split
  · exact .refl
  · exact .ite (.ite (.trans (.upd .refl) (.ite ((keeps_mapDirty ..).sub) (.upd .refl))) (keeps_persistFail ..))
      .refl

theorem keeps_recordLc (s : State) : Keeps [.fcl, .evr, .bfm, .syc] true s (recordLc s) := by
  unfold recordLc
  split
  · exact .trans (.upd .refl) (keeps_evrEvent _ _ _ _ _ _ _ _ .of (by decide))
  · exact .refl

theorem answers_execEvrEnable (value : Word) (s : State) :
    Answers (Keeps [.fcl, .evr, .bfm, .syc] true s) (execEvrEnable value s) :=
  .next (.trans (.trans (.ite .refl (keeps_setFlds_all _ _ _ rfl)) (keeps_setFlag _ _ _ _ (by decide))) (.ite
    (.andThen (.trans (.upd .refl) (keeps_setFlag _ _ _ _ (by decide))) (keeps_recordLc ..)) .refl))

theorem keeps_copyArea (s : State) (base : Nat) : Keeps [.fcl, .bfm, .syc] true s (copyArea s base) :=
  .ite .refl (keeps_each _ _ (fun _ _ => keeps_busWrite _ _ _ _ .of) _)

theorem answers_execEvrLoadDone (s : State) :
    Answers (Keeps [.ckr, .fcl, .evr, .bfm, .syc] true s) (execEvrLoadDone s) :=
  .ite (.next (((((((((((((keeps_copyArea ..).sub).upd).trans (keeps_setFld _ _ _ _ (by decide))).trans
    (keeps_setFlag _ _ _ _ (by decide))).trans (keeps_setFlag _ _ _ _ (by decide))).trans
    (keeps_evrEvent _ _ _ _ _ _ _ _ .of (by decide))).trans (.ite (keeps_evrEvent _ _ _ _ _ _ _ _ .of (by decide)) .refl)).trans
    (keeps_drainOne _ .of (by decide))).trans (keeps_drainOne _ .of (by decide))).upd).trans (.ite (.trans (.upd
    .refl) (keeps_sendFault _ _ _ _ _ _ (by decide))) .refl)).trans (keeps_setReady _ _ _ _ .of (by decide) (by
    decide)))) (.next .refl)

theorem answers_execEvrDirtyRead (k : Nat) (s : State) : Answers (Keeps [.evr] false s) (execEvrDirtyRead k s) :=
  .next (.ite ((keeps_answer ..).trans (keeps_wr _ _ _ _ (by decide))) .refl)

theorem keeps_toHost (s : State) (o : HostOut) : Keeps [] false s (toHost s o) := .upd .refl

theorem keeps_setGlySlot (s : State) (n : Nat) (x : Slot) : Keeps [] false s (setGlySlot s n x) := .upd .refl

theorem keeps_modGlySlot (s : State) (n : Nat) (f : Slot → Slot) : Keeps [] false s (modGlySlot s n f) :=
  keeps_setGlySlot ..

theorem keeps_orderSync (s : State) : Keeps [] false s (orderSync s) := .upd .refl

theorem keeps_glySync (s : State) : Keeps [.ckr, .fcl, .evr, .gly, .bfm, .syc] true s (glySync s) :=
  (((((((keeps_orderSync ..).sub).trans (keeps_setFlds_all _ _ _ rfl)).trans (keeps_when _ _ _ (fun _ =>
    keeps_raiseSource _ _ (by decide)))).trans (keeps_setReady _ _ _ _ .of (by decide) (by decide))).trans
    (keeps_when _ _ _ (fun _ => keeps_each _ _ (fun _ _ => (keeps_toHost ..).sub) _))).trans (keeps_when _ _ _ (fun
    _ => keeps_raiseSource _ _ (by decide)))).trans (.ite ((keeps_setFlag _ _ _ _ (by decide)).trans
    (keeps_raiseSource _ _ (by decide))) .refl)

theorem keeps_fltGo (s : State) (st : FltState) :
    Keeps [.ckr, .fcl, .evr, .gly, .bfm, .syc, .flt] true s (fltGo s st) :=
  ((((keeps_setFld _ _ _ _ (by decide)).trans (keeps_raiseSource _ _ (by decide))).trans (keeps_setReady _ _ _ _ .of
    (by decide) (by decide))).trans (keeps_setReady _ _ _ _ .of (by decide) (by decide))).andThen (keeps_glySync ..)

theorem keeps_fltTryInit (s : State) : Keeps [.ckr, .fcl, .evr, .gly, .bfm, .syc, .flt] true s (fltTryInit s) :=
  .ite (keeps_fltGo ..) .refl

theorem keeps_setDeque (s : State) (e : Nat) (l : List Word) : Keeps [] false s (setDeque s e l) := .upd .refl

theorem keeps_dequePush {s t : State} {e : Nat} {w : Word} (h : dequePush s e w = some t) : Keeps [] false s t := by
  unfold dequePush at h
  split at h
  · cases h
    exact keeps_setDeque ..
  · cases h

theorem keeps_setCtxQ (s : State) (q : Nat) (c : QCtx) : Keeps [] false s (setCtxQ s q c) := .upd .refl

theorem keeps_mapIndex (s : State) (f : Version → Version) : Keeps [] false s (mapIndex s f) := .upd .refl

theorem keeps_filterIndex (s : State) (p : Version → Bool) : Keeps [] false s (filterIndex s p) := .upd .refl

theorem keeps_retireVersions (s : State) : Keeps [] false s (retireVersions s) :=
  (keeps_mapIndex ..).andThen (keeps_filterIndex ..)

theorem keeps_discardVersions (s : State) (asn : Nat) : Keeps [] false s (discardVersions s asn) :=
  (keeps_filterIndex ..).andThen (keeps_retireVersions ..)

theorem keeps_releasePinned (s : State) (x : Slot) : Keeps [] false s (releasePinned s x) := keeps_filterIndex ..

theorem keeps_zoneSet (s : State) (addr lo w v : Nat) : Keeps [.fcl, .bfm, .syc] true s (zoneSet s addr lo w v) := by
  unfold zoneSet
  split
  · rename_i e
    exact ((keeps_busReadWord ..).ofSnd e).andThen (keeps_busWriteWord ..)
  · rename_i e
    exact (keeps_busReadWord ..).ofSnd e

theorem keeps_freeSlot (s : State) (n : Nat) : Keeps [] false s (freeSlot s n) :=
  (((keeps_setGlySlot ..).trans (.ite .refl (keeps_setCtxQ ..))).upd).trans (keeps_each _ _ (fun _ _ => keeps_toHost
    ..) _)

theorem keeps_slotEval (s : State) (n : Nat) : Keeps [] false s (slotEval s n) :=
  .ite (.ite (keeps_setGlySlot ..) (.ite ((keeps_freeSlot ..).trans (.ite (keeps_discardVersions ..)
    (keeps_retireVersions ..))) .refl)) .refl

theorem keeps_endDormant (s : State) (n : Nat) (w : Word) : Keeps [] false s (endDormant s n w) :=
  (keeps_setGlySlot ..).andThen (keeps_discardVersions ..)

theorem keeps_zoneFail (s : State) (n : Nat) : Keeps [.fcl, .bfm, .syc] true s (zoneFail s n) := by
  unfold zoneFail
  dsimp only
  split
  · exact .refl
  · exact (keeps_each _ _ (fun _ _ => .ite ((keeps_endDormant ..).sub) (.ite .refl
      (((keeps_setGlySlot ..).sub).andThen (keeps_slotEval ..)))) _).andThen (keeps_zoneSet ..)

theorem keeps_giveOutcome (s : State) (n : Nat) (w : Word) : Keeps [.fcl, .bfm, .syc] true s (giveOutcome s n w) :=
  (((keeps_setGlySlot ..).sub).trans (.ite (keeps_zoneFail ..) .refl)).andThen (keeps_slotEval ..)

theorem keeps_descriptorFailed (s : State) (n status : Nat) :
    Keeps [.fcl, .bfm, .syc] true s (descriptorFailed s n status) := by
  unfold descriptorFailed
  dsimp only
  split
  · exact .trans (.ite ((keeps_setGlySlot ..).sub) .refl) (.ite (keeps_giveOutcome ..) .refl)
  · exact .ite ((keeps_setGlySlot ..).sub) .refl

theorem keeps_slotComplete (s : State) (handle : Nat) (w : Word) :
    Keeps [.ckr, .fcl, .evr, .gly, .bfm, .syc] true s (slotComplete s handle w).2 := by
  refine .iteSnd .refl ?_
  split
  · exact .refl
  · exact (((keeps_giveOutcome ..).sub).andThen (keeps_glySync ..)).trans (keeps_when _ _ _ (fun _ =>
      keeps_sendFault _ _ _ _ _ _ (by decide)))

theorem keeps_slotHold (s : State) (handle : Nat) (add : Bool) :
    Keeps [.ckr, .fcl, .evr, .gly, .bfm, .syc] true s (slotHold s handle add).2 := by
  refine .iteSnd .refl ?_
  split
  · exact .refl
  · exact .iteSnd (.iteSnd .refl (((keeps_setGlySlot ..).sub).andThen (keeps_glySync ..)))
      ((((keeps_setGlySlot ..).sub).andThen (keeps_slotEval ..)).andThen (keeps_glySync ..))

theorem keeps_descQueued (s : State) (n : Nat) : Keeps [] false s (descQueued s n) := keeps_modGlySlot ..

theorem keeps_descFinished (s : State) (n asn : Nat) (fail : Option Nat) :
    Keeps [.ckr, .fcl, .evr, .gly, .bfm, .syc] true s (descFinished s n asn fail) := by
  refine .ite .refl (.andThen (.andThen ?_ (keeps_slotEval ..)) (keeps_glySync ..))
  split
  · exact ((keeps_setGlySlot ..).sub).andThen (keeps_descriptorFailed ..)
  · exact (keeps_setGlySlot ..).sub

theorem answers_execDoorbell (p qid : Nat) (cq : Bool) (value : Nat) (s : State) :
    Answers (Keeps [] false s) (execDoorbell p qid cq value s) :=
  .ite (.next .refl) (.ite (.ite (.next (keeps_setCtxQ ..)) (.next .refl)) (.ite (.next ((keeps_setCtxQ ..).upd))
    (.next .refl)))

theorem keeps_setCredit (s : State) (p l v : Nat) : Keeps [] false s (setCredit s p l v) := .upd .refl

theorem keeps_pickLevel {s : State} {p l : Nat} {qs : List Nat} {y : Nat × State} (h : pickLevel s p l qs = some y) :
    Keeps [] false s y.2 := by
  unfold pickLevel at h
  split at h
  · cases h
    exact .upd .refl
  · cases h

theorem keeps_pickWeighted {s : State} {p : Nat} {qs : List Nat} {y : Nat × Nat × State}
    (h : pickWeighted s p qs = some y) : Keeps [] false s y.2.2 := by
  unfold pickWeighted at h
  dsimp only at h
  split at h
  · split at h
    · rename_i q t e
      cases h
      refine .trans ?_ (keeps_pickLevel (y := (q, t)) e)
      split
      · exact .refl
      · exact keeps_each _ _ (fun _ _ => keeps_setCredit ..) _
    · cases h
  · cases h

theorem keeps_chooseQueue {s : State} {p : Nat} {y : Nat × Option Nat × State} (h : chooseQueue s p = some y) :
    Keeps [] false s y.2.2 := by
  unfold chooseQueue at h
  dsimp only at h
  split at h
  · cases h
  · split at h
    · obtain ⟨x, e, rfl⟩ := Option.map_eq_some_iff.1 h
      exact keeps_pickLevel e
    · split at h
      · cases h
        exact .refl
      · split at h
        · obtain ⟨x, e, rfl⟩ := Option.map_eq_some_iff.1 h
          exact keeps_pickLevel e
        · obtain ⟨x, e, rfl⟩ := Option.map_eq_some_iff.1 h
          exact keeps_pickWeighted e

theorem answers_execFetch (entries : List Sqe) (err : Bool) (s : State) :
    Answers (Keeps [.fcl] false s) (execFetch entries err s) := by
  refine .ite (.next .refl) ?_
  split
  · exact .next .refl
  · split
    · exact .next .refl
    · rename_i e
      refine .ite (.next (((((keeps_chooseQueue e).sub).upd).andThen (keeps_setCtxQ ..)).trans
        (keeps_sendFault _ _ _ _ _ _ (by decide)))) (.ite (.next (.upd ?_)) (.next (.upd ?_)))
      · split
        · exact (((keeps_chooseQueue e).sub).upd).andThen (keeps_setCredit ..)
        · exact ((keeps_chooseQueue e).sub).upd
      · split
        · exact (((keeps_chooseQueue e).sub).upd).andThen (keeps_setCredit ..)
        · exact ((keeps_chooseQueue e).sub).upd

theorem answers_execFusedWaitTimeout (q : Nat) (entry : Sqe) (s : State) :
    Answers (Keeps [] false s) (execFusedWaitTimeout q entry s) := .ite (.next (.upd (.upd .refl))) (.next .refl)

theorem keeps_endSpecial (s : State) (n : Nat) (h : HostStatus) : Keeps [] false s (endSpecial s n h) := by
  unfold endSpecial
  exact (keeps_freshWord s).trans (keeps_modGlySlot ..)

theorem keeps_zoneAccept (s : State) (n : Nat) : Keeps [.fcl, .bfm, .syc] true s (zoneAccept s n) := by
  refine .ite .refl ?_
  split
  · exact .refl
  · exact .ite ((keeps_endSpecial ..).sub) (.ite ((keeps_endDormant ..).sub) (((keeps_setGlySlot ..).sub).andThen
      (keeps_zoneSet ..)))

theorem keeps_accept (s : State) (n : Nat) (x : Slot) (info : CmdInfo) :
    Keeps [.fcl, .gly, .bfm, .syc] true s (accept s n x info) := by
  unfold accept
  extract_lets asn kv kind y t u
  have taken : Keeps [.fcl, .gly, .bfm, .syc] true s u :=
    ((keeps_setGlySlot ..).sub.trans (keeps_setFld _ _ _ _ (by decide))).andThen (keeps_setGlySlot ..)
  have special (h : HostStatus) : Keeps [.fcl, .gly, .bfm, .syc] true s (endSpecial u n h) := taken.andThen (keeps_endSpecial ..)
  split
  · exact special _
  · exact special _
  · exact .ite (special _) (.ite taken (special _))
  · refine .ite (special _) ?_
    split
    · exact special _
    · exact taken.andThen (keeps_zoneAccept ..)

theorem keeps_advanceHead (s : State) (f : Fetched) : Keeps [] false s (advanceHead s f) :=
  .ite .refl (keeps_setCtxQ ..)

theorem keeps_postCqe (s : State) (q cid : Nat) (result : Word) (st : HostStatus) :
    Keeps [] false s (postCqe s q cid result st) :=
  ((keeps_toHost ..).andThen (keeps_setCtxQ ..)).trans (.ite (keeps_toHost ..) .refl)

theorem keeps_abortAnswer (s : State) (q sqid cid : Nat) (entry : Sqe) :
    Keeps [.fcl, .gly, .bfm, .syc] true s (abortAnswer s q sqid cid entry) := by
  refine .andThen ?_ (keeps_postCqe ..)
  split
  · exact .iteSnd ((((keeps_endDormant ..).sub).andThen (keeps_zoneFail ..)).trans (keeps_bump _ _ _ _ (by decide)))
      ((keeps_setGlySlot ..).sub)
  · exact .refl

theorem answers_execCommandAcceptance (info : CmdInfo) (slot : Nat) (s : State) :
    Answers (Keeps [.ckr, .fcl, .evr, .gly, .bfm, .syc] true s) (execCommandAcceptance info slot s) := by
  unfold execCommandAcceptance
  split
  · exact .next .refl
  · refine .ite (.next .refl) ?_
    extract_lets pop e0 fuse t c u x v w y
    have popped : Keeps [.ckr, .fcl, .evr, .gly, .bfm, .syc] true s t := .andThen (.upd .refl) (keeps_advanceHead ..)
    have counted : Keeps [.ckr, .fcl, .evr, .gly, .bfm, .syc] true s u :=
      popped.trans (.ite .refl (keeps_setCtxQ ..).sub)
    have accepted : Keeps [.ckr, .fcl, .evr, .gly, .bfm, .syc] true s v := counted.andThen (keeps_accept ..)
    have fused : Keeps [.ckr, .fcl, .evr, .gly, .bfm, .syc] true s w := by
      unfold w
      split
      · exact (accepted.andThen (keeps_modGlySlot ..)).andThen (keeps_modGlySlot ..)
      · exact accepted.andThen (keeps_endSpecial ..)
      · exact accepted.andThen (keeps_endSpecial ..)
      · exact accepted
    have alone : Keeps [.ckr, .fcl, .evr, .gly, .bfm, .syc] true s y := .ite (fused.andThen (keeps_endSpecial ..)) fused
    split
    · exact .ite (.next .refl) (.next ((popped.andThen (keeps_abortAnswer ..)).andThen (keeps_glySync ..)))
    · exact .ite (.next .refl) (.next (.andThen (.upd alone) (keeps_glySync ..)))

theorem answers_execSasCommandFrame (port nexus tag attr : Nat) (cmd : List Word) (info : CmdInfo) (slot : Nat)
    (s : State) :
    Answers (Keeps [.ckr, .fcl, .evr, .gly, .bfm, .syc] true s) (execSasCommandFrame port nexus tag attr cmd info slot s) :=
  .ite (.next .refl) (.ite (.next ((keeps_toHost ..).sub)) (.ite (.next ((keeps_toHost ..).sub)) (.ite (.next
    ((keeps_toHost ..).sub)) (.ite (.next .refl) (.next (((keeps_accept ..).sub).andThen (keeps_glySync ..)))))))

theorem keeps_pushItems (n : Nat) : ∀ s : State, Keeps [] false s (pushItems n s) := by
  induction n with
  | zero => exact fun s => .refl
  | succ n ih =>
    intro s
    unfold pushItems
    split
    · exact .refl
    · split
      · rename_i e
        exact (Keeps.trans (.upd .refl) (keeps_dequePush e)).trans (ih _)
      · exact .refl

theorem keeps_pushWork (s : State) (n kind : Nat) (part : Bool) : Keeps [] false s (pushWork s n kind part) := by
  unfold pushWork
  exact .trans (.upd .refl) (keeps_pushItems _ _)

theorem keeps_readVersions (r : Port) (x : Slot) (l : List Version) : ∀ s : State,
    Keeps [.fcl, .bfm, .syc] true s (readVersions r x l s).2 := by
  induction l with
  | nil => exact fun s => .refl
  | cons v l ih =>
    intro s
    unfold readVersions
    split
    · rename_i e
      exact (keeps_busRead _ _ _ _ .of).ofSnd e
    · rename_i t e
      have k := ((keeps_busRead (bs := [.fcl, .bfm, .syc]) s r v.addr v.size .of).ofSnd e).trans (ih t)
      split
      · rename_i e
        exact k.ofSnd e
      · rename_i e
        exact k.ofSnd e

theorem keeps_serveRead (s : State) (n : Nat) (vs : List Version) :
    Keeps [.fcl, .gly, .bfm, .syc] true s (serveRead s n vs) := by
  unfold serveRead
  have h : Keeps [.fcl, .gly, .bfm, .syc] true s
      (bump (setGlySlot s n { glySlot s n with st := .dispatched }) F.GLY_CNT_BUF_READS) :=
    (keeps_setGlySlot ..).sub.trans (keeps_bump _ _ _ _ (by decide))
  have k := h.andThen (keeps_readVersions portGlyChannel (glySlot s n) vs _)
  dsimp only
  split
  · rename_i e
    exact ((k.ofSnd e).andThen (keeps_toHost ..)).andThen (keeps_giveOutcome ..)
  · rename_i e
    exact (k.ofSnd e).andThen (keeps_giveOutcome ..)

theorem answers_execDispatch (slot : Nat) (s : State) :
    Answers (Keeps [.ckr, .fcl, .evr, .gly, .bfm, .syc] true s) (execDispatch slot s) :=
  .ite (.next .refl) (.ite (.next (.andThen (.ite (keeps_bump _ _ _ _ (by decide)) .refl) (keeps_setGlySlot ..)))
    (.ite (.next ((((keeps_setGlySlot ..).sub).andThen (keeps_pushWork ..)).andThen (keeps_glySync ..))) (.ite
    (.next ((((keeps_setGlySlot ..).sub).trans (.ite ((keeps_pushWork ..).sub) .refl)).andThen (keeps_glySync ..)))
    (.ite (.next (((keeps_setGlySlot ..).sub).andThen (keeps_glySync ..))) (.ite (.next
    ((((keeps_setGlySlot ..).sub).trans (.ite .refl (keeps_bump _ _ _ _ (by decide)))).andThen (keeps_glySync ..))) (.ite (.ite (.next
    (((keeps_serveRead ..).sub).andThen (keeps_glySync ..))) (.next ((((keeps_setGlySlot ..).sub).andThen
    (keeps_pushWork ..)).andThen (keeps_glySync ..)))) (.next ((((keeps_setGlySlot ..).sub).andThen
    (keeps_pushWork ..)).andThen (keeps_glySync ..)))))))))

theorem answers_execDispatchRetry (s : State) :
    Answers (Keeps [.ckr, .fcl, .evr, .gly, .bfm, .syc] true s) (execDispatchRetry s) := by
  unfold execDispatchRetry
  exact .next ((keeps_pushItems _ _).sub.andThen (keeps_glySync _))

theorem answers_execBudgetReservation (slot addr : Nat) (s : State) :
    Answers (Keeps [.ckr, .fcl, .evr, .gly, .bfm, .syc] true s) (execBudgetReservation slot addr s) :=
  .ite (.next ((((keeps_filterIndex ..).sub).andThen (keeps_setGlySlot ..)).andThen (keeps_glySync ..))) (.next
    .refl)

theorem keeps_countPi (s : State) (res : Nat) : Keeps [.fcl, .hfe] false s (countPi s res) := by
  unfold countPi
  split
  · exact (keeps_bump _ _ _ _ (by decide)).trans (keeps_raiseSource _ _ (by decide))
  · exact (keeps_bump _ _ _ _ (by decide)).trans (keeps_raiseSource _ _ (by decide))
  · exact (keeps_bump _ _ _ _ (by decide)).trans (keeps_raiseSource _ _ (by decide))
  · exact .refl

theorem keeps_landFail (s : State) (n res : Nat) : Keeps [.fcl, .bfm, .syc] true s (landFail s n res) :=
  ((((keeps_endDormant ..).sub).andThen (keeps_zoneFail ..)).andThen (keeps_modGlySlot ..)).andThen
    (keeps_slotEval ..)

theorem answers_execLanded (slot res : Nat) (data : List Byte) (s : State) :
    Answers (Keeps [.ckr, .fcl, .evr, .hfe, .gly, .bfm, .syc] true s) (execLanded slot res data s) := by
  unfold execLanded
  extract_lets x blk stored y
  refine .ite (.next .refl)
    (.ite (.next (((keeps_countPi ..).sub.andThen (keeps_landFail ..)).andThen (keeps_glySync ..))) ?_)
  split
  · rename_i t e
    have wrote : Keeps [.ckr, .fcl, .evr, .hfe, .gly, .bfm, .syc] true s t := (keeps_busWrite _ _ _ _ .of).ofSnd e
    exact .next ((wrote.andThen (keeps_landFail ..)).andThen (keeps_glySync ..))
  · rename_i t e
    extract_lets _ u good z v
    have wrote : Keeps [.ckr, .fcl, .evr, .hfe, .gly, .bfm, .syc] true s u := ((keeps_busWrite _ _ _ _ .of).ofSnd e).upd
    have kept (q : Slot) : Keeps [.ckr, .fcl, .evr, .hfe, .gly, .bfm, .syc] true s (setGlySlot u slot q) :=
      wrote.andThen (keeps_setGlySlot ..)
    have orphan : Keeps [.ckr, .fcl, .evr, .hfe, .gly, .bfm, .syc] true s v :=
      .ite (kept _) ((kept _).andThen (keeps_discardVersions ..))
    clear_value u y z v
    refine .ite (.next ((kept _).andThen (keeps_glySync ..))) (.ite ?_ (.ite ?_ ?_))
    · exact .next (((orphan.andThen (keeps_slotEval ..)).andThen (keeps_retireVersions ..)).andThen (keeps_glySync ..))
    · exact .next (((kept _).andThen (keeps_retireVersions ..)).andThen (keeps_glySync ..))
    · exact .next (((kept _).andThen (keeps_retireVersions ..)).andThen (keeps_glySync ..))

theorem keeps_reportBlock (s : State) (x : Slot) (h : HostStatus) : Keeps [] false s (reportBlock s x h) :=
  .ite (keeps_toHost ..) .refl

theorem keeps_postOne (s : State) (n : Nat) (h : HostStatus) : Keeps [.fcl, .bfm, .syc] true s (postOne s n h) := by
  refine .andThen (.andThen (.ite (.andThen (.upd ?_) (keeps_discardVersions ..)) (.andThen (.andThen (.upd ?_)
    (keeps_mapIndex ..)) (keeps_releasePinned ..))) (keeps_freeSlot ..)) (keeps_retireVersions ..)
  · split
    · exact (((keeps_reportBlock ..).sub).trans (.ite ((keeps_toHost ..).sub) (.ite ((keeps_toHost ..).sub)
        ((keeps_postCqe ..).sub)))).trans (.ite .refl (keeps_zoneSet ..))
    · exact ((keeps_reportBlock ..).sub).trans (.ite ((keeps_toHost ..).sub) (.ite ((keeps_toHost ..).sub)
        ((keeps_postCqe ..).sub)))
  · split
    · exact (((keeps_reportBlock ..).sub).trans (.ite ((keeps_toHost ..).sub) (.ite ((keeps_toHost ..).sub)
        ((keeps_postCqe ..).sub)))).trans (.ite .refl (keeps_zoneSet ..))
    · exact ((keeps_reportBlock ..).sub).trans (.ite ((keeps_toHost ..).sub) (.ite ((keeps_toHost ..).sub)
        ((keeps_postCqe ..).sub)))

theorem answers_execCompletionPost (slot : Nat) (s : State) :
    Answers (Keeps [.ckr, .fcl, .evr, .gly, .bfm, .syc] true s) (execCompletionPost slot s) := by
  refine .ite (.next .refl) ?_
  split
  · exact .next (((keeps_postOne ..).sub).andThen (keeps_glySync ..))
  · exact .ite (.next .refl) (.next (.andThen (.andThen (.andThen (.ite ((keeps_modGlySlot ..).sub) .refl)
      (keeps_postOne ..)) (keeps_postOne ..)) (keeps_glySync ..)))

theorem keeps_slotCmdWrite (s : State) (c : Nat) (value : Word) :
    Keeps [.ckr, .fcl, .evr, .gly, .bfm, .syc] true s (slotCmdWrite s c value) := by
  refine .ite (keeps_setFlds_all _ _ _ rfl) (.trans ?_ (keeps_setFld _ _ _ _ (by decide)))
  split
  · split
    · exact (keeps_setFlds_all _ _ _ rfl).trans (keeps_wr _ _ _ _ (by decide))
    · exact (keeps_setFlds_all _ _ _ rfl).trans (keeps_wr _ _ _ _ (by decide))
  · exact (keeps_setFlds_all _ _ _ rfl).andThen (keeps_slotComplete ..)
  · exact (keeps_setFlds_all _ _ _ rfl).andThen (keeps_slotHold ..)
  · exact (keeps_setFlds_all _ _ _ rfl).andThen (keeps_slotHold ..)

theorem answers_execGlySlotStatus (c : Nat) (value : Word) (s : State) :
    Answers (Keeps [.ckr, .fcl, .evr, .gly, .bfm, .syc] true s) (execGlySlotStatus c value s) :=
  .next (.ite (keeps_slotCmdWrite ..) .refl)

theorem answers_execGlyComplete (c : Nat) (value : Word) (s : State) :
    Answers (Keeps [.ckr, .fcl, .evr, .gly, .bfm, .syc] true s) (execGlyComplete c value s) :=
  .next (.ite (keeps_slotCmdWrite ..) .refl)

theorem answers_execHoldAdd (c : Nat) (value : Word) (s : State) :
    Answers (Keeps [.ckr, .fcl, .evr, .gly, .bfm, .syc] true s) (execHoldAdd c value s) :=
  .next (.ite (keeps_slotCmdWrite ..) .refl)

theorem answers_execHoldRelease (c : Nat) (value : Word) (s : State) :
    Answers (Keeps [.ckr, .fcl, .evr, .gly, .bfm, .syc] true s) (execHoldRelease c value s) :=
  .next (.ite (keeps_slotCmdWrite ..) .refl)

theorem keeps_wbResult (s : State) (c status addr count : Nat) :
    Keeps [.gly] false s (wbResult s c status addr count) := keeps_wr _ _ _ _ (by decide)

theorem keeps_confirmMarked (s : State) (nsid lba count : Nat) : Keeps [] false s (confirmMarked s nsid lba count) :=
  ((keeps_mapIndex ..).andThen (keeps_retireVersions ..)).trans (keeps_each _ _ (fun _ _ => keeps_setGlySlot ..) _)

theorem keeps_pinRecord (s : State) (lba place : Nat) (tier : Bool) :
    Keeps [.fcl, .evr, .bfm, .syc] true s (pinRecord s lba place tier) :=
  (((keeps_freshWord ..).sub).andThen (keeps_freshWord ..)).trans (keeps_evrRequest _ _ .of (by decide))

theorem keeps_pinVersions (s : State) (hit : Version → Bool) :
    Keeps [.fcl, .evr, .bfm, .syc] true s (pinVersions s hit) :=
  ((keeps_each _ _ (fun _ _ => keeps_pinRecord ..) _).andThen (keeps_mapIndex ..)).andThen (keeps_retireVersions ..)

theorem keeps_wbCmdWrite (s : State) (c : Nat) (value : Word) :
    Keeps [.ckr, .fcl, .evr, .gly, .bfm, .syc] true s (wbCmdWrite s c value) := by
  refine .ite (keeps_setFlds_all _ _ _ rfl) (.ite ((keeps_setFlds_all _ _ _ rfl).andThen (keeps_wbResult ..)) ?_)
  split
  · dsimp only
    split
    · exact (keeps_setFlds_all _ _ _ rfl).andThen (keeps_wbResult ..)
    · exact (keeps_setFlds_all _ _ _ rfl).andThen (keeps_wbResult ..)
  · split
    · exact (keeps_setFlds_all _ _ _ rfl).andThen (keeps_wbResult ..)
    · exact (keeps_setFlds_all _ _ _ rfl).trans (.ite ((keeps_wbResult ..).sub) (.ite ((keeps_wbResult ..).sub)
        (((keeps_mapIndex ..).sub).andThen (keeps_wbResult ..))))
  · exact (keeps_setFlds_all _ _ _ rfl).trans (.ite ((((keeps_confirmMarked ..).sub).andThen
      (keeps_wbResult ..)).andThen (keeps_glySync ..)) ((keeps_wbResult ..).sub))
  · exact (keeps_setFlds_all _ _ _ rfl).trans (.ite (((keeps_mapIndex ..).sub).andThen (keeps_wbResult ..))
      ((keeps_wbResult ..).sub))
  · exact (keeps_setFlds_all _ _ _ rfl).trans (.ite ((((keeps_pinVersions ..).sub).andThen
      (keeps_wbResult ..)).andThen (keeps_glySync ..)) ((keeps_wbResult ..).sub))

theorem answers_execLookup (c : Nat) (value : Word) (s : State) :
    Answers (Keeps [.ckr, .fcl, .evr, .gly, .bfm, .syc] true s) (execLookup c value s) :=
  .next (.ite (keeps_wbCmdWrite ..) .refl)

theorem answers_execBegin (c : Nat) (value : Word) (s : State) :
    Answers (Keeps [.ckr, .fcl, .evr, .gly, .bfm, .syc] true s) (execBegin c value s) :=
  .next (.ite (keeps_wbCmdWrite ..) .refl)

theorem answers_execEndOk (c : Nat) (value : Word) (s : State) :
    Answers (Keeps [.ckr, .fcl, .evr, .gly, .bfm, .syc] true s) (execEndOk c value s) :=
  .next (.ite (keeps_wbCmdWrite ..) .refl)

theorem answers_execEndFail (c : Nat) (value : Word) (s : State) :
    Answers (Keeps [.ckr, .fcl, .evr, .gly, .bfm, .syc] true s) (execEndFail c value s) :=
  .next (.ite (keeps_wbCmdWrite ..) .refl)

theorem answers_execPin (c : Nat) (value : Word) (s : State) :
    Answers (Keeps [.ckr, .fcl, .evr, .gly, .bfm, .syc] true s) (execPin c value s) :=
  .next (.ite (keeps_wbCmdWrite ..) .refl)

theorem answers_execNvmeAbort (p : Nat) (entry : List Word) (sqid cid : Nat) (s : State) :
    Answers (Keeps [.ckr, .fcl, .evr, .gly, .bfm, .syc] true s) (execNvmeAbort p entry sqid cid s) :=
  .ite (.next ((((keeps_setCtxQ ..).sub).andThen (keeps_abortAnswer ..)).andThen (keeps_glySync ..))) (.next .refl)

theorem keeps_taskMgmt (s : State) (port nexus : Nat) (p : Slot → Bool) :
    Keeps [.fcl, .gly, .bfm, .syc] true s (taskMgmt s port nexus p) :=
  .ite ((keeps_toHost ..).sub) (.trans (.trans (.upd .refl) (keeps_each _ _ (fun _ _ => .ite .refl (.ite
    ((((keeps_endDormant ..).sub).andThen (keeps_zoneFail ..)).andThen (keeps_freeSlot ..))
    (((keeps_setGlySlot ..).sub).andThen (keeps_slotEval ..)))) _)) (keeps_bump _ _ _ _ (by decide)))

theorem answers_execAbortTask (port nexus lun tag : Nat) (s : State) :
    Answers (Keeps [.ckr, .fcl, .evr, .gly, .bfm, .syc] true s) (execAbortTask port nexus lun tag s) :=
  .ite (.next (((keeps_taskMgmt ..).sub).andThen (keeps_glySync ..))) (.next .refl)

theorem answers_execAbortTaskSet (port nexus lun : Nat) (s : State) :
    Answers (Keeps [.ckr, .fcl, .evr, .gly, .bfm, .syc] true s) (execAbortTaskSet port nexus lun s) :=
  .ite (.next (((keeps_taskMgmt ..).sub).andThen (keeps_glySync ..))) (.next .refl)

theorem answers_execClearTaskSet (port lun : Nat) (s : State) :
    Answers (Keeps [.ckr, .fcl, .evr, .gly, .bfm, .syc] true s) (execClearTaskSet port lun s) :=
  .ite (.next (((keeps_taskMgmt ..).sub).andThen (keeps_glySync ..))) (.next .refl)

theorem keeps_resetSlot (n : Nat) (s : State) : Keeps [.fcl, .bfm, .syc] true s (resetSlot n s) :=
  .ite ((((keeps_endDormant ..).sub).andThen (keeps_zoneFail ..)).andThen (keeps_freeSlot ..)) (.ite
    (((keeps_setGlySlot ..).sub).andThen (keeps_slotEval ..)) .refl)

theorem keeps_hostReset (s : State) (p : Nat) (lun : Option Nat) :
    Keeps [.ckr, .fcl, .evr, .hfe, .gly, .bfm, .syc] true s (hostReset s p lun) := by
  refine .andThen (.andThen (.ite ?_ (.upd ?_)) (keeps_retireVersions ..)) (keeps_glySync ..)
  · split
    · exact ((keeps_wr _ _ _ _ (by decide)).trans (keeps_raiseSource _ _ (by decide))).trans (keeps_each _ _
        (fun _ _ => (keeps_resetSlot ..).sub) _)
    · exact (((keeps_wr _ _ _ _ (by decide)).trans (keeps_raiseSource _ _ (by decide))).trans (keeps_each _ _
        (fun _ _ => (keeps_resetSlot ..).sub) _)).upd
  · split
    · exact ((keeps_wr _ _ _ _ (by decide)).trans (keeps_raiseSource _ _ (by decide))).trans (keeps_each _ _
        (fun _ _ => (keeps_resetSlot ..).sub) _)
    · exact (((keeps_wr _ _ _ _ (by decide)).trans (keeps_raiseSource _ _ (by decide))).trans (keeps_each _ _
        (fun _ _ => (keeps_resetSlot ..).sub) _)).upd

theorem answers_execControllerReset (p : Nat) (lun : Option Nat) (s : State) :
    Answers (Keeps [.ckr, .fcl, .evr, .hfe, .gly, .bfm, .syc] true s) (execControllerReset p lun s) :=
  .ite (.next .refl) (.next (keeps_hostReset ..))

theorem answers_execResetDoneReport (value : Word) (s : State) :
    Answers (Keeps [.hfe] false s) (execResetDoneReport value s) :=
  .next (keeps_each _ _ (fun _ _ => .ite ((keeps_wr _ _ _ _ (by decide)).trans (.ite .refl (.upd .refl))) .refl) _)

theorem answers_execDrain (s : State) : Answers (Keeps [.ckr, .fcl, .evr, .gly, .bfm, .syc] true s) (execDrain s) :=
  .next (((keeps_setFlds_all _ _ _ rfl).upd).andThen (keeps_glySync ..))

theorem answers_execDrainInterrupt (s : State) :
    Answers (Keeps [.ckr, .fcl, .evr, .gly, .bfm, .syc] true s) (execDrainInterrupt s) :=
  .ite (.next ((keeps_each _ _ (fun _ _ => (keeps_giveOutcome ..).sub) _).andThen (keeps_glySync ..))) (.next .refl)

theorem answers_execDrainTimeout (s : State) : Answers (Keeps [.fcl] false s) (execDrainTimeout s) :=
  .ite (.next (keeps_sendFault _ _ _ _ _ _ (by decide))) (.next .refl)

theorem answers_execAsnFloor (value : Word) (s : State) : Answers (Keeps [.gly] false s) (execAsnFloor value s) :=
  .ite (.next .refl) (.next (keeps_setFld _ _ _ _ (by decide)))

theorem answers_execBudgetWrite (value : Word) (s : State) :
    Answers (Keeps [.ckr, .fcl, .evr, .gly, .bfm, .syc] true s) (execBudgetWrite value s) :=
  .onward (keeps_when _ _ _ (fun _ => keeps_setFlag _ _ _ _ (by decide))) (.ite (.next (keeps_setFlag _ _ _ _ (by
    decide))) (.next ((keeps_setFld _ _ _ _ (by decide)).andThen (keeps_glySync ..))))

theorem keeps_glyRetiring (s : State) : Keeps [.ckr, .fcl, .evr, .gly, .bfm, .syc] true s (glyRetiring s) :=
  (((keeps_mapIndex ..).sub).andThen (keeps_retireVersions ..)).andThen (keeps_glySync ..)

theorem keeps_swapSlice (s : State) (lane p : Nat) : Keeps [.lne] false s (swapSlice s lane p) :=
  .trans (.ite (keeps_setFld _ _ _ _ (by decide)) (keeps_setFld _ _ _ _ (by decide))) (keeps_setFld _ _ _ _ (by
    decide))

theorem keeps_stepTrim (s : State) (lane slice : Nat) (vals : List Int) (k : Nat) :
    Keeps [.lne] false s (stepTrim s lane slice vals k) := keeps_setFlds_all _ _ _ rfl

theorem keeps_putResult (s : State) (x : CalPend) : Keeps [.lne, .wrp, .svg, .spn] false s (putResult s x) :=
  .ite (keeps_each _ _ (fun _ _ => (keeps_stepTrim ..).sub) _) (.ite (keeps_each _ _ (fun _ _ =>
    ((keeps_stepTrim ..).sub).andThen (keeps_swapSlice ..)) _) (.ite (keeps_setFlds_all _ _ _ rfl) (.ite (keeps_setFlds_all _ _ _
    rfl) (.ite (keeps_setFld _ _ _ _ (by decide)) (.ite (.upd .refl) (.ite (keeps_setFlds_all _ _ _ rfl) (.ite
    (keeps_setFld _ _ _ _ (by decide)) (.ite (keeps_setFld _ _ _ _ (by decide)) (keeps_setFlds_all _ _ _
    rfl)))))))))

theorem keeps_takeEffect (s : State) (x : CalPend) :
    Keeps [.cal, .fcl, .lne, .wrp, .svg, .spn] false s (takeEffect s x) :=
  ((((((keeps_putResult ..).sub).trans (keeps_bump _ _ _ _ (by decide))).trans (keeps_setFld _ _ _ _ (by
    decide))).trans (keeps_bump _ _ _ _ (by decide))).trans (keeps_setFld _ _ _ _ (by decide))).trans
    (keeps_raiseSource _ _ (by decide))

theorem keeps_calBoundary (s : State) (p : Nat → Bool) :
    Keeps [.cal, .fcl, .lne, .wrp, .svg, .spn] false s (calBoundary s p) :=
  .trans (.upd .refl) (keeps_each _ _ (fun _ _ => keeps_takeEffect ..) _)

theorem keeps_abandoned (s : State) (n : Nat) : Keeps [.cal] false s (abandoned s n) :=
  (keeps_setFld _ _ _ _ (by decide)).trans (keeps_bump _ _ _ _ (by decide))

theorem keeps_calDrop (s : State) (p : Nat → Bool) : Keeps [.cal] false s (calDrop s p) :=
  .trans (.upd .refl) (keeps_each _ _ (fun _ _ => keeps_abandoned ..) _)

theorem keeps_calDropAct (s : State) (a : Nat) : Keeps [.cal] false s (calDropAct s a) := keeps_calDrop ..

theorem keeps_setOp (s : State) (o : OpRef) (m : Option MediaOp) : Keeps [] false s (setOp s o m) :=
  keeps_setSht ..

theorem keeps_mediaDone (s : State) (o : OpRef) (status sectors : Nat) (cut : Bool) :
    Keeps [] false s (mediaDone s o status sectors cut) := by
  unfold mediaDone
  split
  · exact .refl
  · exact keeps_setOp ..

theorem keeps_headControlFrame (s : State) (a : Nat) : Keeps [] false s (headControlFrame s a) := by
  refine .ite ?_ ?_
  · split
    · exact (keeps_setWrp ..).trans (keeps_setHdl ..)
    · exact keeps_setWrp ..
  · split
    · exact (keeps_setWrp ..).trans (keeps_setHdl ..)
    · split
      · exact keeps_setHdl ..
      · exact .refl

theorem keeps_pspArb (s : State) (a : Nat) : Keeps [] false s (pspArb s a) := by
  refine .ite .refl ?_
  split
  · exact .refl
  · split
    · exact (keeps_setHdl ..).andThen (keeps_headControlFrame ..)
    · exact (keeps_setHdl ..).trans (keeps_setHdl ..)
    · exact (keeps_setHdl ..).trans (keeps_setHdl ..)

theorem keeps_requestSwitch (s : State) (a head : Nat) (media : Option OpRef) :
    Keeps [.hdl] false s (requestSwitch s a head media).2 :=
  .iteSnd (((keeps_setHdl ..).trans (keeps_setFlag _ _ _ _ (by decide))).andThen (keeps_pspArb ..))
    (keeps_setFld _ _ _ _ (by decide))

theorem keeps_lifeAdd (s : State) (k n : Nat) : Keeps [] false s (lifeAdd s k n) := .upd .refl

theorem keeps_lifePart (s : State) (k unit n : Nat) : Keeps [] false s (lifePart s k unit n) :=
  .andThen (.upd .refl) (keeps_lifeAdd ..)

theorem keeps_wrpEnd (s : State) (a status : Nat) (cut : Bool) :
    Keeps [.cal, .fcl, .lne, .wrp, .svg, .spn] false s (wrpEnd s a status cut) := by
  unfold wrpEnd
  split
  · exact .refl
  · exact ((((((((keeps_setHdl ..).trans (keeps_setFlds_all _ _ _ rfl)).trans (keeps_when _ _ _ (fun _ => keeps_bump
      _ _ _ _ (by decide)))).trans (keeps_when _ _ _ (fun _ => keeps_bump _ _ _ _ (by decide)))).trans
      (keeps_setWrp ..)).andThen (keeps_mediaDone ..)).andThen (keeps_calBoundary ..)).trans (keeps_raiseSource _ _ (by
      decide))).andThen (keeps_pspArb ..)

theorem keeps_wrpCut (s : State) (a status : Nat) :
    Keeps [.cal, .fcl, .lne, .wrp, .svg, .spn] false s (wrpCut s a status) := by
  unfold wrpCut
  split
  · exact .refl
  · exact keeps_wrpEnd ..

theorem keeps_wrpEndAfter (s : State) (a status : Nat) :
    Keeps [.cal, .fcl, .lne, .wrp, .svg, .spn] false s (wrpEndAfter s a status) := by
  unfold wrpEndAfter
  split
  · exact .refl
  · exact .ite (keeps_setWrp ..) (keeps_wrpEnd ..)

theorem keeps_wrpPowerLoss (s : State) (a : Nat) :
    Keeps [.cal, .fcl, .lne, .wrp, .svg, .spn] false s (wrpPowerLoss s a) := keeps_wrpEndAfter ..

theorem keeps_wrpRequest (s : State) (o : OpRef) (a head track first count : Nat) (lba : Word) (base stride : Nat) :
    Keeps [.wrp] false s (wrpRequest s o a head track first count lba base stride) := by
  refine .ite ((keeps_setFld _ _ _ _ (by decide)).andThen (keeps_mediaDone ..)) ?_
  split
  · exact .refl
  · exact .andThen (.trans (.trans (.upd .refl) (keeps_setFlds_all _ _ _ rfl)) (keeps_setWrp ..)) (keeps_pspArb ..)

theorem answers_execSectorFetchDone (a sector : Nat) (err : Bool) (s : State) :
    Answers (Keeps [.cal, .fcl, .lne, .wrp, .svg, .spn, .bfm, .syc] true s) (execSectorFetchDone a sector err s) := by
  unfold execSectorFetchDone
  refine .next ?_
  split
  · exact .refl
  · refine .ite ?_ .refl
    extract_lets rest x u _ t
    have read : Keeps [.cal, .fcl, .lne, .wrp, .svg, .spn, .bfm, .syc] true s u := .iteSnd .refl (keeps_busRead _ _ _ _ .of)
    split
    · have noted : Keeps [.cal, .fcl, .lne, .wrp, .svg, .spn, .bfm, .syc] true s t := read.trans (keeps_setWrp ..)
      exact .ite (noted.andThen (keeps_wrpEnd ..)) noted
    · exact read.trans (keeps_setWrp ..)

theorem keeps_beginSector (s : State) (a : Nat) : Keeps [] false s (beginSector s a) := by
  unfold beginSector
  split
  · exact .refl
  · exact .ite (keeps_setWrp ..) .refl

theorem answers_execDataLate (a : Nat) (s : State) :
    Answers (Keeps [.cal, .fcl, .lne, .wrp, .svg, .spn] false s) (execDataLate a s) := by
  refine .next ?_
  split
  · exact .refl
  · exact .ite (keeps_wrpEndAfter ..) .refl

theorem answers_execPreheatSlip (a : Nat) (s : State) : Answers (Keeps [.wrp] false s) (execPreheatSlip a s) := by
  refine .next ?_
  split
  · exact .ite .refl (keeps_bump _ _ _ _ (by decide))
  · exact .refl

theorem answers_execWgRise (g : GatePhase) (s : State) : Answers (Keeps [.wrp] false s) (execWgRise g s) := by
  refine .next ?_
  split
  · exact .refl
  · exact .ite (((keeps_setHdl ..).trans (keeps_setFld _ _ _ _ (by decide))).trans (keeps_setWrp ..)) .refl

theorem keeps_crossPad (s : State) (a : Nat) (r : WrRun) : Keeps [] false s (crossPad s a r) :=
  .ite (((keeps_setHdl ..).trans (keeps_setWrp ..)).andThen (keeps_pspArb ..)) .refl

theorem keeps_sectorWritten (s : State) (a : Nat) :
    Keeps [.cal, .fcl, .lne, .wrp, .svg, .spn] false s (sectorWritten s a) := by
  unfold sectorWritten
  dsimp only
  split
  · exact (keeps_beginSector ..).sub
  · refine .ite ?_ ((keeps_beginSector ..).sub)
    split
    · exact ((((((keeps_beginSector ..).sub).trans (keeps_setFld _ _ _ _ (by decide))).trans (keeps_bump _ _ _ _ (by
        decide))).andThen (keeps_lifePart ..)).trans (keeps_setWrp ..)).andThen (keeps_wrpEnd ..)
    · exact ((((((keeps_beginSector ..).sub).trans (keeps_setFld _ _ _ _ (by decide))).trans (keeps_bump _ _ _ _ (by
        decide))).andThen (keeps_lifePart ..)).trans (keeps_setWrp ..)).trans (.ite (keeps_wrpEnd ..)
        ((keeps_crossPad ..).sub))

theorem answers_execWriteRunEnd (a : Nat) (s : State) :
    Answers (Keeps [.cal, .fcl, .lne, .wrp, .svg, .spn] false s) (execWriteRunEnd a s) := by
  refine .next ?_
  split
  · exact .refl
  · exact .ite (keeps_wrpEnd ..) .refl

theorem keeps_wrpBlockReset (s : State) :
    Keeps [.ckr, .cal, .fcl, .lne, .wrp, .svg, .spn] false s (wrpBlockReset s) :=
  ((keeps_each _ _ (fun _ _ => (keeps_wrpCut ..).sub) _).andThen (keeps_calDrop ..)).trans
    (keeps_setFlag _ _ _ _ (by decide))

theorem answers_execWrpBlockReset (s : State) :
    Answers (Keeps [.ckr, .cal, .fcl, .lne, .wrp, .svg, .spn] false s) (execWrpBlockReset s) :=
  .next (keeps_wrpBlockReset ..)

theorem keeps_wrpAbort (s : State) (o : OpRef) (a : Nat) :
    Keeps [.cal, .fcl, .lne, .wrp, .svg, .spn] false s (wrpAbort s o a) := by
  unfold wrpAbort
  split
  · exact .ite (keeps_wrpCut ..) .refl
  · exact .refl

theorem keeps_setEntry (s : State) (a e : Nat) (x : Entry) : Keeps [] false s (setEntry s a e x) :=
  keeps_setDcp ..

theorem keeps_setCtx (s : State) (a k : Nat) (x : RunCtx) : Keeps [] false s (setCtx s a k x) := keeps_setDcp ..

theorem keeps_releaseCtx (s : State) (a k : Nat) : Keeps [] false s (releaseCtx s a k) :=
  .ite (keeps_setCtx ..) .refl

theorem keeps_lneEnd (s : State) (a status : Nat) :
    Keeps [.cal, .fcl, .lne, .wrp, .svg, .spn] false s (lneEnd s a status) := by
  unfold lneEnd
  dsimp only
  split
  · exact .refl
  · exact (((((((keeps_setPair ..).trans (keeps_when _ _ _ (fun _ => keeps_setFlag _ _ _ _ (by decide)))).trans
      (keeps_setFld _ _ _ _ (by decide))).andThen (keeps_setCtx ..)).andThen (keeps_releaseCtx ..)).andThen
      (keeps_mediaDone ..)).andThen (keeps_calBoundary ..)).andThen (keeps_pspArb ..)

theorem keeps_lneAbort (s : State) (a status : Nat) :
    Keeps [.cal, .fcl, .lne, .wrp, .svg, .spn] false s (lneAbort s a status) := by
  unfold lneAbort
  dsimp only
  split
  · exact .refl
  · refine .andThen (.ite ?_ .refl) (keeps_lneEnd ..)
    split
    · split
      · exact (keeps_setPair ..).andThen (keeps_setEntry ..)
      · exact keeps_setPair ..
    · exact .refl

theorem keeps_lneBoundary (s : State) (a status : Nat) :
    Keeps [.cal, .fcl, .lne, .wrp, .svg, .spn] false s (lneBoundary s a status) := by
  unfold lneBoundary
  dsimp only
  split
  · exact .refl
  · exact .ite (keeps_lneEnd ..) (keeps_setPair ..)

theorem keeps_lnePreampFault (s : State) (a : Nat) :
    Keeps [.cal, .fcl, .lne, .wrp, .svg, .spn] false s (lnePreampFault s a) := by
  unfold lnePreampFault
  dsimp only
  split
  · exact .refl
  · exact .ite (keeps_lneEnd ..) (keeps_setPair ..)

theorem keeps_lneStop (s : State) (a : Nat) : Keeps [.cal, .fcl, .lne, .wrp, .svg, .spn] false s (lneStop s a) := by
  refine ((keeps_lneAbort ..).trans (keeps_each _ _ (fun _ _ => ?_) _)).trans (keeps_setPair ..)
  split
  · exact (keeps_setEntry ..).sub
  · exact .refl

theorem keeps_lneStopOp (s : State) (o : OpRef) (a : Nat) :
    Keeps [.cal, .fcl, .lne, .wrp, .svg, .spn] false s (lneStopOp s o a) := by
  unfold lneStopOp
  split
  · exact .ite (keeps_lneAbort ..) .refl
  · exact .refl

theorem keeps_lneEnable (s : State) (a : Nat) : Keeps [.cal, .fcl, .lne, .wrp, .svg, .spn] false s (lneEnable s a) := by
  refine .ite (.ite ?_ .refl) ((keeps_lneAbort ..).trans (keeps_setPair ..))
  split
  · exact keeps_setPair ..
  · exact .refl

theorem keeps_laneRequest (s : State) (o : OpRef) (a ctx code count head track first : Nat) :
    Keeps [.lne] false s (laneRequest s o a ctx code count head track first) :=
  .ite ((((keeps_setCtx ..).sub).trans (keeps_setFld _ _ _ _ (by decide))).andThen (keeps_mediaDone ..))
    ((keeps_setFld _ _ _ _ (by decide)).trans (keeps_setPair ..))

theorem keeps_retainRecord (s : State) (a slot seq status : Nat) :
    Keeps [.lne] false s (retainRecord s a slot seq status) := keeps_setFlds_all _ _ _ rfl

theorem answers_execRetainPin (a slot seq : Nat) (s : State) :
    Answers (Keeps [.lne] false s) (execRetainPin a slot seq s) :=
  .next (.ite ((keeps_setPair ..).andThen (keeps_retainRecord ..)) .refl)

theorem answers_execRetainUnpin (a slot seq : Nat) (s : State) :
    Answers (Keeps [.lne] false s) (execRetainUnpin a slot seq s) :=
  .next (.ite ((keeps_setPair ..).andThen (keeps_retainRecord ..)) .refl)

theorem answers_execLaneRateWrite (a rate : Nat) (s : State) :
    Answers (Keeps [.lne] false s) (execLaneRateWrite a rate s) :=
  .next (.ite (.ite ((keeps_setFld _ _ _ _ (by decide)).trans (.ite (keeps_setPair ..) ((keeps_setPair ..).trans
    (keeps_setFlag _ _ _ _ (by decide))))) (keeps_setFlag _ _ _ _ (by decide))) .refl)

theorem answers_execRateLocked (a : Nat) (s : State) :
    Answers (Keeps [.cal, .fcl, .lne, .wrp, .svg, .spn] false s) (execRateLocked a s) :=
  .next (.ite ((keeps_setFlag _ _ _ _ (by decide)).andThen (keeps_lneEnable ..)) .refl)

theorem keeps_takeSamples (s : State) (a : Nat) (spans : List AdcSpan) : Keeps [] false s (takeSamples s a spans) :=
  .trans (.upd .refl) (keeps_setPair ..)

theorem keeps_openSector (s : State) (a k : Nat) (r : LaneRun) (phase : Option Nat) (zps : Bool) :
    Keeps [] false s (openSector s a k r phase zps) := by
  refine .trans ?_ (keeps_setPair ..)
  split
  · exact keeps_setEntry ..
  · exact .refl

theorem answers_execSectorPreambleStart (a theta : Nat) (spans : GateSpans) (preheated : Bool) (s : State) :
    Answers (Keeps [.cal, .fcl, .lne, .wrp, .svg, .spn] false s) (execSectorPreambleStart a theta spans preheated s) := by
  refine .next ?_
  split
  · refine .ite .refl ?_
    split
    · exact keeps_lneBoundary ..
    · exact ((((keeps_setWrp ..).andThen (keeps_takeSamples ..)).andThen (keeps_openSector ..)).andThen
        (keeps_takeSamples ..)).trans (.ite (.trans (.upd .refl) (keeps_setPair ..)) .refl)
  · exact .refl

theorem answers_execAcquireEnd (a : Nat) (spans : List AdcSpan) (s : State) :
    Answers (Keeps [] false s) (execAcquireEnd a spans s) := by
  refine .next ?_
  split
  · exact (keeps_takeSamples ..).trans (keeps_setPair ..)
  · exact .refl

theorem answers_execMarkADecision (a : Nat) (preamble window : List AdcSpan) (s : State) :
    Answers (Keeps [] false s) (execMarkADecision a preamble window s) := by
  refine .next ?_
  split
  · dsimp only
    split
    · exact (keeps_takeSamples ..).trans (.ite (keeps_setPair ..) .refl)
    · exact keeps_takeSamples ..
  · exact .refl

theorem answers_execPairSlip (p : PairSpans) (full : Bool) (s : State) :
    Answers (Keeps [.fcl] false s) (execPairSlip p full s) :=
  .next (.ite (.trans (.upd .refl) (.ite ((keeps_setPair ..).trans (keeps_sendFault _ _ _ _ _ _ (by decide)))
    (keeps_setPair ..))) .refl)

theorem answers_execFlaggedSpanOverrun (p : PairSpans) (s : State) :
    Answers (Keeps [] false s) (execFlaggedSpanOverrun p s) := .next (.ite (keeps_takeSamples ..) .refl)

theorem answers_execReplayRequest (a : Nat) (value : Word) (s : State) :
    Answers (Keeps [.lne] false s) (execReplayRequest a value s) :=
  .next (.ite ((keeps_setFlds_all _ _ _ rfl).trans (.ite ((keeps_setFld _ _ _ _ (by decide)).trans (.ite
    (keeps_setPair ..) .refl)) .refl)) .refl)

theorem keeps_sendPacket (s : State) (a : Nat) (k : Packet) : Keeps [] false s (sendPacket s a k) :=
  keeps_setPair ..

theorem answers_execReplayStart (a : Nat) (s : State) : Answers (Keeps [] false s) (execReplayStart a s) := by
  refine .next ?_
  split
  · refine .ite .refl ?_
    split
    · exact keeps_setPair ..
    · exact (keeps_setPair ..).andThen (keeps_setEntry ..)
    · exact .refl
  · exact .refl

theorem keeps_replayDone (s : State) (a : Nat) (ecc : Bool) :
    Keeps [.fcl, .lne, .bfm] false s (replayDone s a ecc).1 := by
  unfold replayDone
  dsimp only
  split
  · rename_i q rest _
    split
    · split
      · have k : Keeps [.fcl, .lne, .bfm] false s
            (sramUe (freshWord (setPair s a { pairOf s a with replays := rest })).2 .lne (65536 * q.slot)
              (freshWord (setPair s a { pairOf s a with replays := rest })).1.toNat) :=
          ((keeps_setPair ..).andThen (keeps_freshWord _)).andThen (keeps_sramUe ..)
        split
        · exact k.andThen (keeps_sendPacket ..)
        · exact (k.trans (.ite (keeps_setEntry ..).sub .refl)).trans (keeps_setFld _ _ _ _ (by decide))
        · exact k.trans (.ite (keeps_setEntry ..).sub .refl)
      · refine .trans ?_ (.ite (keeps_setFld _ _ _ _ (by decide)) .refl)
        exact .andThen (.upd (keeps_setPair ..)) (keeps_sendPacket ..)
    · exact .refl
  · exact .refl

theorem keeps_countSector (s : State) (a status : Nat) : Keeps [.lne] false s (countSector s a status) := by
  unfold countSector
  split
  · exact keeps_bump _ _ _ _ (by decide)
  · exact keeps_bump _ _ _ _ (by decide)
  · exact keeps_bump _ _ _ _ (by decide)
  · exact keeps_bump _ _ _ _ (by decide)
  · exact .refl

theorem keeps_deliverSector (s : State) (a : Nat) (x : LiveSector) (b : Option (Int × Nat)) :
    Keeps [] false s (deliverSector s a x b) := by
  refine .ite (keeps_sendPacket ..) (.ite (keeps_sendPacket ..) (.ite ?_ (keeps_setPair ..)))
  split
  · exact keeps_setEntry ..
  · exact .refl

theorem keeps_markBDecision (s : State) (a : Nat) :
    Keeps [.cal, .fcl, .lne, .wrp, .svg, .spn] false s (markBDecision s a) := by
  unfold markBDecision
  dsimp only
  split
  · refine .ite .refl ?_
    split
    · exact (((((keeps_setPair ..).andThen (keeps_countSector ..)).trans (keeps_when _ _ _ (fun _ => keeps_bump _ _
        _ _ (by decide)))).andThen (keeps_lifePart ..)).andThen (keeps_deliverSector ..)).trans (.ite
        (keeps_lneEnd ..) .refl)
    · exact ((((keeps_setPair ..).andThen (keeps_countSector ..)).trans (keeps_when _ _ _ (fun _ => keeps_bump _ _ _
        _ (by decide)))).andThen (keeps_lifePart ..)).andThen (keeps_deliverSector ..)
  · exact .refl

theorem answers_execMarkBDecision (a : Nat) (preamble window codeword trailer : List AdcSpan) (s : State) :
    Answers (Keeps [.cal, .fcl, .lne, .wrp, .svg, .spn] false s) (execMarkBDecision a preamble window codeword trailer s) :=
  .next (.ite (((keeps_takeSamples ..).sub).andThen (keeps_markBDecision ..)) (keeps_markBDecision ..))

theorem keeps_spliceGapEnd (s : State) (a : Nat) :
    Keeps [.cal, .fcl, .lne, .wrp, .svg, .spn] false s (spliceGapEnd s a) := by
  unfold spliceGapEnd
  dsimp only
  split
  · exact .ite (.trans (.andThen (.trans (.upd .refl) (keeps_setPair ..)) (keeps_pspArb ..)) (.ite (keeps_lneEnd ..)
      .refl)) .refl
  · exact .refl

theorem answers_execSpliceGapEnd (p : PairSpans) (s : State) :
    Answers (Keeps [.cal, .fcl, .lne, .wrp, .svg, .spn] false s) (execSpliceGapEnd p s) :=
  .next (.ite ((((keeps_takeSamples ..).sub).andThen (keeps_spliceGapEnd ..)).andThen (keeps_calBoundary ..)) .refl)

theorem keeps_adcMode (s₀ s : State) : Keeps [.cal] false s (adcMode s₀ s) :=
  .ite .refl ((keeps_calDrop ..).trans (keeps_each _ _ (fun _ _ => keeps_setPair ..) _))

theorem keeps_hpfPulse (s : State) (a : Nat) : Keeps [] false s (hpfPulse s a) := keeps_setPair ..

theorem keeps_laneBlockReset (s : State) (a : Nat) :
    Keeps [.ckr, .cal, .fcl, .lne, .wrp, .svg, .spn] false s (laneBlockReset s a) := by
  refine (((((((keeps_calDrop ..).sub).andThen (keeps_lneAbort ..)).trans (keeps_each _ _ (fun _ _ => ?_) _)).trans
    (keeps_each _ _ (fun _ _ => ?_) _)).trans (keeps_each _ _ (fun _ _ => .ite ((keeps_setEntry ..).sub) .refl)
    _)).trans (keeps_setPair ..)).trans (keeps_wr _ _ _ _ (by decide))
  · dsimp only
    split
    · exact (keeps_setEntry ..).sub
    · exact .refl
  · dsimp only
    split
    · exact (keeps_setEntry ..).sub
    · exact .refl

theorem keeps_presetTone (s : State) (a : Nat) (z : Option Nat) : Keeps [.svg] false s (presetTone s a z) := by
  refine .trans (.trans ?_ (keeps_setFlag _ _ _ _ (by decide))) (keeps_setSvg ..)
  split
  · exact keeps_setFld _ _ _ _ (by decide)
  · exact .refl

theorem keeps_setTrack (s : State) (a t : Nat) : Keeps [.svg] false s (setTrack s a t) :=
  (keeps_setSvg ..).trans (.ite (keeps_presetTone ..) .refl)

theorem keeps_zoneChanged (s₀ s : State) : Keeps [.svg] false s (zoneChanged s₀ s) :=
  keeps_each _ _ (fun _ _ => .ite (keeps_presetTone ..) .refl) _

theorem keeps_noteGroup (s : State) (a : Nat) : Keeps [] false s (noteGroup s a) := .ite (keeps_setWrp ..) .refl

theorem answers_execToneLock (a : Nat) (s : State) : Answers (Keeps [.svg] false s) (execToneLock a s) :=
  .next (.ite (keeps_setFlag _ _ _ _ (by decide)) .refl)

theorem keeps_passCycles (s : State) (a cycles : Nat) : Keeps [] false s (passCycles s a cycles) :=
  keeps_setSvg ..

theorem keeps_crossingLost (s : State) (a : Nat) : Keeps [.svg] false s (crossingLost s a) :=
  (keeps_setSvg ..).trans (keeps_bump _ _ _ _ (by decide))

theorem keeps_stripeCrossing (s : State) (a : Nat) (inward fast unlock : Bool) (cycles : Nat) :
    Keeps [.svg] false s (stripeCrossing s a inward fast unlock cycles) :=
  (((keeps_passCycles ..).sub).trans (keeps_setSvg ..)).trans (.ite ((keeps_when _ _ _ (fun _ => keeps_setFlag _ _ _
    _ (by decide))).andThen (keeps_crossingLost ..)) ((((keeps_setTrack ..).andThen (keeps_noteGroup ..)).trans
    (keeps_when _ _ _ (fun _ => keeps_setFlag _ _ _ _ (by decide)))).trans (.ite (keeps_crossingLost ..) .refl)))

theorem answers_execStripeCrossing (a : Nat) (inward : Bool) (x : Crossing) (s : State) :
    Answers (Keeps [.svg] false s) (execStripeCrossing a inward x s) :=
  .next (.ite (keeps_stripeCrossing ..) .refl)

theorem keeps_snapshot (s : State) (a : Nat) : Keeps [.svg] false s (snapshot s a) := keeps_setFlds_all _ _ _ rfl

theorem keeps_strobe (s : State) (a : Nat) : Keeps [] false s (strobe s a) := keeps_setSvg ..

theorem keeps_publish (s : State) (a : Nat) (x : Sample) (fA theta : Nat) :
    Keeps [.svg] false s (publish s a x fA theta) :=
  .trans (.trans (.trans (.upd .refl) (keeps_setFlds_all _ _ _ rfl)) (keeps_setSvg ..)) (.ite (keeps_snapshot ..)
    .refl)

theorem keeps_frameTrack (s : State) (a tf : Nat) (still : Bool) :
    Keeps [.fcl, .svg] false s (frameTrack s a tf still) :=
  .ite (.ite (((keeps_setSvg ..).andThen (keeps_setTrack ..)).andThen (keeps_noteGroup ..)) .refl) (.ite (.ite
    (keeps_setSvg ..) (.ite ((((((keeps_setSvg ..).andThen (keeps_setTrack ..)).trans (keeps_setCte ..)).trans
    (keeps_bump _ _ _ _ (by decide))).trans (keeps_sendFault _ _ _ _ _ _ (by decide))).andThen (keeps_noteGroup ..))
    ((keeps_setSvg ..).trans (keeps_bump _ _ _ _ (by decide))))) (.ite .refl (keeps_bump _ _ _ _ (by decide))))

theorem keeps_frameAngle (s : State) (a index : Nat) : Keeps [.svg] false s (frameAngle s a index) :=
  .ite (.ite .refl ((keeps_setSvg ..).trans (keeps_bump _ _ _ _ (by decide)))) (keeps_setSvg ..)

theorem keeps_identityFrame (s : State) (a symbols cycles : Nat) :
    Keeps [.fcl, .svg] false s (identityFrame s a symbols cycles) := by
  unfold identityFrame
  dsimp only
  split
  · exact ((keeps_passCycles ..).sub).trans (keeps_setSvg ..)
  · exact (((keeps_passCycles ..).sub).trans (keeps_setSvg ..)).trans (.ite .refl (.ite (((keeps_setSvg ..).trans
      (keeps_bump _ _ _ _ (by decide))).trans (.ite (keeps_sendFault _ _ _ _ _ _ (by decide)) .refl))
      (((keeps_setSvg ..).andThen (keeps_frameAngle ..)).andThen (keeps_frameTrack ..))))

theorem answers_execIdentityFrame (a symbols cycles : Nat) (s : State) :
    Answers (Keeps [.fcl, .svg] false s) (execIdentityFrame a symbols cycles s) :=
  .next (.ite (keeps_identityFrame ..) .refl)

theorem keeps_svgClear (s : State) (a : Nat) : Keeps [] false s (svgClear s a) := keeps_setSvg ..

theorem keeps_svgHeadSwitch (s : State) (a head : Nat) : Keeps [] false s (svgHeadSwitch s a head) :=
  (keeps_svgClear ..).trans (keeps_setSvg ..)

theorem keeps_svgBlockReset (s : State) (a : Nat) : Keeps [.ckr, .cal, .svg] false s (svgBlockReset s a) :=
  ((((keeps_calDrop ..).sub).andThen (keeps_svgClear ..)).trans (keeps_setFlag _ _ _ _ (by decide))).trans (keeps_wr
    _ _ _ _ (by decide))

theorem answers_execSvgBlockReset (a : Nat) (s : State) :
    Answers (Keeps [.ckr, .cal, .svg] false s) (execSvgBlockReset a s) :=
  .next (.ite (keeps_svgBlockReset ..) .refl)

theorem keeps_recordSats (s : State) (n : Nat) (x : Sats) : Keeps [.fcl, .cte] false s (recordSats s n x) :=
  .ite .refl ((keeps_wr _ _ _ _ (by decide)).trans (.ite (keeps_sendFault _ _ _ _ _ _ (by decide)) .refl))

theorem keeps_raiseOt (s : State) (a : Nat) :
    Keeps [.cal, .fcl, .lne, .wrp, .svg, .cte, .spn] false s (raiseOt s a) :=
  ((keeps_setCte ..).trans (keeps_setFlag _ _ _ _ (by decide))).andThen (keeps_wrpCut ..)

theorem keeps_setCteState (s : State) (a st : Nat) :
    Keeps [.ckr, .cal, .fcl, .evr, .lne, .wrp, .svg, .cte, .spn, .bfm, .syc] true s (setCteState s a st) :=
  .trans (.trans (.trans (.trans (.ite ((keeps_calDropAct ..).sub) .refl) (keeps_setCte ..))
    (keeps_setFld _ _ _ _ (by decide))) (keeps_setReady _ _ _ _ .of (by decide) (by decide))) (.ite .refl ((keeps_raiseOt ..).sub))

theorem keeps_seekDone (s : State) (a : Nat) (q : SeekReq) (status : Nat) :
    Keeps [.fcl, .cte] false s (seekDone s a q status) := by
  refine .trans ?_ (keeps_raiseSource _ _ (by decide))
  split
  · refine .andThen ?_ (keeps_mediaDone ..)
    split
    · exact keeps_bump _ _ _ _ (by decide)
    · exact keeps_bump _ _ _ _ (by decide)
    · exact keeps_bump _ _ _ _ (by decide)
    · exact .refl
  · refine .trans ?_ (keeps_setFlds_all _ _ _ rfl)
    split
    · exact keeps_bump _ _ _ _ (by decide)
    · exact keeps_bump _ _ _ _ (by decide)
    · exact keeps_bump _ _ _ _ (by decide)
    · exact .refl

theorem keeps_endSeek (s : State) (a status : Nat) : Keeps [.fcl, .cte] false s (endSeek s a status) := by
  unfold endSeek
  split
  · exact (keeps_setCte ..).andThen (keeps_seekDone ..)
  · exact .refl

theorem keeps_cmdDone (s : State) (a status : Nat) : Keeps [.fcl, .cte] false s (cmdDone s a status) :=
  (keeps_setFlds_all _ _ _ rfl).trans (keeps_raiseSource _ _ (by decide))

theorem keeps_endCmd (s : State) (a : Nat) (which : List CteCmd) (status : Nat) :
    Keeps [.fcl, .cte] false s (endCmd s a which status) := by
  unfold endCmd
  split
  · exact .ite ((keeps_setCte ..).andThen (keeps_cmdDone ..)) .refl
  · exact .refl

theorem keeps_enterHold (s : State) (a cause : Nat) :
    Keeps [.ckr, .cal, .fcl, .evr, .lne, .wrp, .svg, .cte, .spn, .bfm, .syc] true s (enterHold s a cause) :=
  ((((((keeps_endSeek ..).sub).andThen (keeps_endCmd ..)).trans (keeps_setCte ..)).trans (keeps_setFld _ _ _ _ (by
    decide))).andThen (keeps_setCteState ..)).trans (keeps_bump _ _ _ _ (by decide))

theorem keeps_abortRequests (s : State) (a : Nat) : Keeps [.fcl, .cte] false s (abortRequests s a) := by
  unfold abortRequests
  dsimp only
  split
  · exact ((keeps_setCte ..).trans (keeps_each _ _ (fun _ _ => keeps_seekDone ..) _)).andThen (keeps_cmdDone ..)
  · exact ((keeps_setCte ..).trans (keeps_each _ _ (fun _ _ => keeps_seekDone ..) _)).andThen (keeps_cmdDone ..)
  · exact (keeps_setCte ..).trans (keeps_each _ _ (fun _ _ => keeps_seekDone ..) _)

theorem keeps_startTrajectory (s : State) (a : Nat) : Keeps [] false s (startTrajectory s a) := keeps_setCte ..

theorem keeps_enterUnload (s : State) (a : Nat) :
    Keeps [.ckr, .cal, .fcl, .evr, .lne, .wrp, .svg, .cte, .spn, .bfm, .syc] true s (enterUnload s a) := by
  unfold enterUnload
  extract_lets st t1 t2 t3 closed t4 src t5 t6
  have k1 : Keeps [.ckr, .cal, .fcl, .evr, .lne, .wrp, .svg, .cte, .spn, .bfm, .syc] true s t1 := (keeps_endSeek ..).sub
  have k4 := ((k1.andThen (keeps_endCmd t1 a [.load, .resume] 0x61)).andThen (keeps_abortRequests t2 a)).andThen
    (keeps_startTrajectory t3 a)
  have k6 : Keeps [.ckr, .cal, .fcl, .evr, .lne, .wrp, .svg, .cte, .spn, .bfm, .syc] true t5 t6 :=
    keeps_when _ _ _ fun _ => keeps_bump _ _ _ _ (by decide)
  exact (((k4.trans (keeps_setCte ..)).trans k6).trans (keeps_setFld _ _ _ _ (by decide))).andThen (keeps_setCteState ..)

theorem keeps_enterAcquire (s : State) (a : Nat) :
    Keeps [.ckr, .cal, .fcl, .evr, .lne, .wrp, .svg, .cte, .spn, .bfm, .syc] true s (enterAcquire s a) := by
  unfold enterAcquire
  exact ((((keeps_setSvg ..).trans (keeps_setCte ..)).trans (keeps_setFld _ F.CTE_STAT_HOLD_CAUSE _ _ (by decide))).trans
    (keeps_setFld _ F.CTE_STAT_RES_RUN _ _ (by decide))).andThen (keeps_setCteState ..)

theorem keeps_enterSettle (s : State) (a : Nat) :
    Keeps [.ckr, .cal, .fcl, .evr, .lne, .wrp, .svg, .cte, .spn, .bfm, .syc] true s (enterSettle s a) :=
  (keeps_setCte ..).andThen (keeps_setCteState ..)

theorem keeps_enterSeek (s : State) (a : Nat) :
    Keeps [.ckr, .cal, .fcl, .evr, .lne, .wrp, .svg, .cte, .spn, .bfm, .syc] true s (enterSeek s a) :=
  ((keeps_startTrajectory ..).sub).andThen (keeps_setCteState ..)

theorem keeps_trajectory (s : State) (a : Nat) : Keeps [] false s (trajectory s a) :=
  .ite (keeps_setCte ..) (.ite ((keeps_setCte ..).upd) .refl)

theorem keeps_cteSample (s : State) (a : Nat) (x : Option Sample) :
    Keeps [.cal, .fcl, .lne, .wrp, .svg, .cte, .spn] false s (cteSample s a x) :=
  (((((keeps_trajectory ..).sub).trans (keeps_setCte ..)).trans (keeps_setFlds_all _ _ _ rfl)).andThen
    (keeps_recordSats ..)).trans (.ite (keeps_raiseOt ..) .refl)

theorem keeps_takeSample (s : State) (a : Nat) (x : Option Sample) :
    Keeps [.cal, .fcl, .lne, .wrp, .svg, .cte, .spn] false s (takeSample s a x) := by
  refine .ite ((keeps_cteSample ..).trans (keeps_setCte ..)) (.trans ?_ (keeps_setCte ..))
  split
  · exact keeps_cteSample ..
  · exact .refl

theorem answers_execPesSample (a : Nat) (newer older : List Int) (boundary : Option Nat) (fA theta cycles : Nat) (s
  : State) :
    Answers (Keeps [.cal, .fcl, .lne, .wrp, .svg, .cte, .spn] false s) (execPesSample a newer older boundary fA theta cycles s) :=
  .next (.ite ((((keeps_strobe ..).sub).andThen (keeps_passCycles ..)).trans (.ite (((keeps_publish ..).sub).andThen
    (keeps_takeSample ..)) (keeps_takeSample ..))) .refl)

theorem keeps_takeSeek (s : State) (a : Nat) (q : SeekReq) :
    Keeps [.ckr, .cal, .fcl, .evr, .lne, .wrp, .svg, .cte, .spn, .bfm, .syc] true s (takeSeek s a q) :=
  .ite ((keeps_seekDone ..).sub) (((((keeps_endSeek ..).sub).trans (keeps_setCte ..)).trans
    (keeps_setFld _ _ _ _ (by decide))).trans (.ite .refl (.ite (keeps_enterSettle ..) (keeps_enterSeek ..))))

theorem keeps_takeCmd (s : State) (a : Nat) (c : CteCmd) :
    Keeps [.ckr, .cal, .fcl, .evr, .lne, .wrp, .svg, .cte, .spn, .bfm, .syc] true s (takeCmd s a c) := by
  unfold takeCmd
  split
  · exact .ite ((keeps_cmdDone ..).sub) (.ite ((keeps_cmdDone ..).sub) (.ite ((keeps_cmdDone ..).sub)
      ((((keeps_setCte ..).trans (keeps_setWrp ..)).andThen (keeps_lifeAdd ..)).andThen (keeps_setCteState ..))))
  · exact .ite ((keeps_cmdDone ..).sub) (.ite ((keeps_cmdDone ..).sub) ((keeps_setCte ..).andThen
      (keeps_enterAcquire ..)))
  · exact .refl

theorem keeps_takeRequest (s : State) (a : Nat) :
    Keeps [.ckr, .cal, .fcl, .evr, .lne, .wrp, .svg, .cte, .spn, .bfm, .syc] true s (takeRequest s a) := by
  unfold takeRequest
  dsimp only
  split
  · exact .refl
  · split
    · exact (keeps_setCte ..).andThen (keeps_takeSeek ..)
    · exact (keeps_setCte ..).andThen (keeps_takeSeek ..)
    · exact (keeps_setCte ..).andThen (keeps_takeCmd ..)
    · exact .refl

theorem keeps_dueAction (s : State) (a : Nat) (d : CteDue) :
    Keeps [.ckr, .cal, .fcl, .evr, .lne, .wrp, .svg, .cte, .spn, .bfm, .syc] true s (dueAction s a d) := by
  unfold dueAction
  split
  · exact (keeps_setCte ..).andThen (keeps_enterAcquire ..)
  · exact (((keeps_setCte ..).andThen (keeps_endCmd ..)).andThen (keeps_enterUnload ..)).trans
      (keeps_sendFault _ _ _ _ _ _ (by decide))
  · exact (keeps_setCte ..).trans (.ite ((keeps_enterHold ..).trans (keeps_sendFault _ _ _ _ _ _ (by decide)))
      (keeps_enterHold ..))
  · exact (keeps_setCte ..).andThen (keeps_endSeek ..)
  · exact (keeps_setCte ..).andThen (keeps_enterUnload ..)

theorem keeps_transitions (s : State) (a : Nat) :
    Keeps [.ckr, .cal, .fcl, .evr, .lne, .wrp, .svg, .cte, .spn, .bfm, .syc] true s (transitions s a) := by
  refine .ite (keeps_enterUnload ..) (.ite ((keeps_setCte ..).andThen (keeps_abortRequests ..)) ?_)
  split
  · exact keeps_enterHold ..
  · exact keeps_dueAction ..
  · exact .ite (keeps_enterAcquire ..) (.ite ((keeps_setCte ..).trans (.ite (keeps_enterSettle ..)
      (keeps_enterSeek ..))) (.ite (.ite ((keeps_enterHold ..).trans (keeps_sendFault _ _ _ _ _ _ (by decide)))
      ((keeps_setFlag _ _ _ _ (by decide)).andThen (keeps_setCteState ..))) (.ite (keeps_enterSeek ..) (.ite (keeps_enterSettle ..) (.ite
      (keeps_setCte ..) (.ite (((keeps_setCte ..).trans (keeps_setFld _ _ _ _ (by decide))).andThen
      (keeps_enterSeek ..)) (.ite ((keeps_setCte ..).andThen (keeps_setCteState ..)) (.ite ((keeps_setCte ..).andThen
      (keeps_enterSettle ..)) ((keeps_setCte ..).andThen (keeps_takeRequest ..))))))))))

theorem keeps_selectSet (s : State) (a : Nat) : Keeps [] false s (selectSet s a) := keeps_setCte ..

theorem keeps_mactZero (s : State) : Keeps [] false s (mactZero s) :=
  keeps_each _ _ (fun _ _ => keeps_setCte ..) _

theorem keeps_retractDrive (s : State) (code : Int) : Keeps [] false s (retractDrive s code) :=
  keeps_each _ _ (fun _ _ => keeps_setCte ..) _

theorem keeps_startRetract (s : State) (cause : Nat) : Keeps [] false s (startRetract s cause) :=
  .ite .refl (.andThen (.upd .refl) (keeps_retractDrive ..))

theorem keeps_lawDrive (s : State) (a : Nat) : Keeps [.fcl, .cte] false s (lawDrive s a) :=
  .ite ((keeps_setCte ..).andThen (keeps_recordSats ..)) (keeps_setCte ..)

theorem keeps_settleCount (s : State) (a : Nat) : Keeps [] false s (settleCount s a) := keeps_setCte ..

theorem keeps_extSample (s : State) (a ain : Nat) : Keeps [.cte] false s (extSample s a ain) :=
  (keeps_when _ _ _ (fun _ => keeps_setFld _ _ _ _ (by decide))).trans (.ite (keeps_setCte ..) .refl)

theorem keeps_applyWrites (s : State) (a : Nat) : Keeps [] false s (applyWrites s a) := keeps_setCte ..

theorem keeps_tickSample (s : State) (a : Nat) :
    Keeps [.cal, .fcl, .lne, .wrp, .svg, .cte, .spn] false s (tickSample s a) := by
  unfold tickSample
  dsimp only
  split
  · exact (keeps_cteSample ..).trans (keeps_setCte ..)
  · exact keeps_setCte ..

theorem keeps_actLawTick (s : State) (a ain : Nat) :
    Keeps [.ckr, .cal, .fcl, .evr, .lne, .wrp, .svg, .cte, .spn, .bfm, .syc] true s (actLawTick s a ain) :=
  (((((((keeps_applyWrites ..).sub).andThen (keeps_transitions ..)).andThen (keeps_extSample ..)).andThen
    (keeps_selectSet ..)).andThen (keeps_tickSample ..)).andThen (keeps_lawDrive ..)).andThen (keeps_settleCount ..)

theorem answers_execSettleCriteriaMet (a : Nat) (s : State) :
    Answers (Keeps [.ckr, .cal, .fcl, .evr, .lne, .wrp, .svg, .cte, .spn, .bfm, .syc] true s) (execSettleCriteriaMet a s) :=
  .next (.ite (((keeps_setCteState ..).andThen (keeps_endSeek ..)).andThen (keeps_endCmd ..)) .refl)

theorem answers_execOffTrackClear (a : Nat) (s : State) : Answers (Keeps [.cte] false s) (execOffTrackClear a s) :=
  .next (.ite (keeps_setFlag _ _ _ _ (by decide)) .refl)

theorem answers_execResidualFail (a : Nat) (s : State) :
    Answers (Keeps [.cal, .fcl, .lne, .wrp, .svg, .cte, .spn] false s) (execResidualFail a s) :=
  .next (.ite (((keeps_raiseOt ..).trans (keeps_setCte ..)).trans (keeps_sendFault _ _ _ _ _ _ (by decide))) .refl)

theorem answers_execCoastMaxReached (a : Nat) (s : State) :
    Answers (Keeps [.cal, .fcl, .lne, .wrp, .svg, .cte, .spn] false s) (execCoastMaxReached a s) :=
  .next (.ite (((keeps_raiseOt ..).trans (keeps_setCte ..)).trans (keeps_sendFault _ _ _ _ _ _ (by decide))) .refl)

theorem keeps_noteDue (s : State) (a : Nat) (d : CteDue) : Keeps [] false s (noteDue s a d) :=
  .ite (keeps_setCte ..) .refl

theorem answers_execLoadStripeFound (a : Nat) (s : State) : Answers (Keeps [] false s) (execLoadStripeFound a s) :=
  .next (.ite (keeps_noteDue ..) .refl)

theorem answers_execLoadTimeout (a : Nat) (s : State) : Answers (Keeps [] false s) (execLoadTimeout a s) :=
  .next (keeps_noteDue ..)

theorem answers_execAcquireTimeout (a : Nat) (s : State) : Answers (Keeps [] false s) (execAcquireTimeout a s) :=
  .next (keeps_noteDue ..)

theorem answers_execSettleTimeout (a : Nat) (s : State) : Answers (Keeps [] false s) (execSettleTimeout a s) :=
  .next (keeps_noteDue ..)

theorem answers_execHoldTimeout (a : Nat) (s : State) : Answers (Keeps [] false s) (execHoldTimeout a s) :=
  .next (keeps_noteDue ..)

theorem answers_execUnloadDriveEnd (a : Nat) (s : State) : Answers (Keeps [] false s) (execUnloadDriveEnd a s) :=
  .next (.ite (keeps_setCte ..) .refl)

theorem keeps_enterParked (s : State) (a : Nat) :
    Keeps [.ckr, .cal, .fcl, .evr, .lne, .wrp, .svg, .cte, .spn, .bfm, .syc] true s (enterParked s a) :=
  ((keeps_setCte ..).andThen (keeps_setCteState ..)).andThen (keeps_endCmd ..)

theorem keeps_parkHoldEnd (s : State) (a : Nat) :
    Keeps [.ckr, .cal, .fcl, .evr, .lne, .wrp, .svg, .cte, .spn, .bfm, .syc] true s (parkHoldEnd s a) :=
  .ite (keeps_enterParked ..) .refl

theorem keeps_linkParked (s : State) :
    Keeps [.ckr, .cal, .fcl, .evr, .lne, .wrp, .svg, .cte, .spn, .bfm, .syc] true s (linkParked s) :=
  keeps_each _ _ (fun _ _ => .ite .refl (((((keeps_endSeek ..).sub).andThen (keeps_endCmd ..)).andThen
    (keeps_abortRequests ..)).andThen (keeps_enterParked ..))) _

theorem answers_execCteSeek (a : Nat) (value : Word) (s : State) :
    Answers (Keeps [.fcl, .cte] false s) (execCteSeek a value s) :=
  .next (.ite ((keeps_setFlds_all _ _ _ rfl).trans (.ite .refl (.ite ((keeps_setFld _ _ _ _ (by decide)).trans
    (keeps_raiseSource _ _ (by decide))) ((keeps_setFlag _ _ _ _ (by decide)).trans (keeps_setCte ..))))) .refl)

theorem keeps_issueCmd (s : State) (a : Nat) (c : CteCmd) : Keeps [.cte] false s (issueCmd s a c) :=
  .ite (.ite (keeps_setFlag _ _ _ _ (by decide)) ((keeps_setCte ..).trans (keeps_setFlag _ _ _ _ (by decide))))
    .refl

theorem answers_execLoad (a : Nat) (s : State) : Answers (Keeps [.cte] false s) (execLoad a s) :=
  .next (keeps_issueCmd ..)

theorem answers_execResume (a : Nat) (s : State) : Answers (Keeps [.cte] false s) (execResume a s) :=
  .next (keeps_issueCmd ..)

theorem answers_execPark (a : Nat) (s : State) : Answers (Keeps [.fcl, .cte] false s) (execPark a s) :=
  .next (.ite (((keeps_endCmd ..).trans (.ite ((keeps_setCte ..).andThen (keeps_cmdDone ..)) .refl)).trans (.ite
    (keeps_cmdDone ..) ((keeps_setCte ..).trans (keeps_setFlag _ _ _ _ (by decide))))) .refl)

theorem answers_execExtEnable (value : Word) (s : State) : Answers (Keeps [.cte] false s) (execExtEnable value s) :=
  .next (.trans (.ite (keeps_setFlag _ _ _ _ (by decide)) .refl) (.ite (keeps_setFlag _ _ _ _ (by decide))
    (keeps_setFlds_all _ _ _ rfl)))

theorem keeps_mediaSeek (s : State) (o : OpRef) (a track : Nat) (offset : Int) :
    Keeps [] false s (mediaSeek s o a track offset) := keeps_setCte ..

theorem keeps_detachSeek (s : State) (o : OpRef) (a : Nat) : Keeps [] false s (detachSeek s o a) :=
  keeps_setCte ..

theorem keeps_cteHeadSwitch (s : State) (a : Nat) : Keeps [] false s (cteHeadSwitch s a) := keeps_setCte ..

theorem keeps_requestUnload (s : State) : Keeps [] false s (requestUnload s) :=
  keeps_each _ _ (fun _ _ => .ite .refl (keeps_setCte ..)) _

theorem keeps_setAtSpeed (s : State) (b : Bool) :
    Keeps [.ckr, .fcl, .evr, .spn, .bfm, .syc] true s (setAtSpeed s b) :=
  .ite .refl (((keeps_setFlag _ _ _ _ (by decide)).trans (keeps_setReady _ _ _ _ .of (by decide) (by decide))).trans
    (keeps_raiseSource _ _ (by decide)))

theorem keeps_recomputeHoldUp (s : State) :
    Keeps [.ckr, .fcl, .evr, .gly, .spn, .bfm, .syc] true s (recomputeHoldUp s) :=
  .ite (((keeps_setFlds_all _ _ _ rfl).andThen (keeps_glySync ..)).trans (keeps_when _ _ _ (fun _ => keeps_sendFault
    _ _ _ _ _ _ (by decide)))) .refl

theorem keeps_takeSetSpeed (s : State) : Keeps [.ckr, .fcl, .evr, .gly, .spn, .bfm, .syc] true s (takeSetSpeed s) :=
  .andThen (.upd .refl) (keeps_recomputeHoldUp ..)

theorem keeps_spnGo (s : State) (st : Nat) (b : Bridge) :
    Keeps [.ckr, .cal, .fcl, .evr, .gly, .spn, .bfm, .syc] true s (spnGo s st b) :=
  .trans (.trans (.trans (.upd (.ite ((((keeps_calDrop ..).sub).andThen (keeps_setAtSpeed ..)).trans (keeps_setFlag
    _ _ _ _ (by decide))) .refl)) (keeps_setFld _ _ _ _ (by decide))) (.ite (.upd .refl) .refl)) (.ite
    ((keeps_takeSetSpeed ..).sub) .refl)

theorem keeps_spnDone (s : State) (status : Nat) : Keeps [.fcl, .spn] false s (spnDone s status) :=
  (keeps_setFlds_all _ _ _ rfl).trans (keeps_raiseSource _ _ (by decide))

theorem keeps_startDone (s : State) (status : Nat) : Keeps [.fcl, .spn] false s (startDone s status) :=
  .ite (.andThen (.upd .refl) (keeps_spnDone ..)) .refl

theorem keeps_stopDone (s : State) (status : Nat) : Keeps [.fcl, .spn] false s (stopDone s status) :=
  .ite (.andThen (.upd .refl) (keeps_spnDone ..)) .refl

theorem keeps_raiseUnload (s : State) : Keeps [.spn] false s (raiseUnload s) :=
  (keeps_setFlag _ _ _ _ (by decide)).andThen (keeps_requestUnload ..)

theorem keeps_enterFault (s : State) (cause : Nat) :
    Keeps [.ckr, .cal, .fcl, .evr, .gly, .spn, .bfm, .syc] true s (enterFault s cause) :=
  (((((keeps_spnGo ..).trans (keeps_setFld _ _ _ _ (by decide))).andThen (keeps_startDone ..)).andThen
    (keeps_stopDone ..)).andThen (keeps_raiseUnload ..)).trans (keeps_sendFault _ _ _ _ _ _ (by decide))

theorem keeps_enterSense (s : State) :
    Keeps [.ckr, .cal, .fcl, .evr, .gly, .spn, .bfm, .syc] true s (enterSense s) := keeps_spnGo ..

theorem keeps_enterBrake (s : State) (shortOnly : Bool) :
    Keeps [.ckr, .cal, .fcl, .evr, .gly, .spn, .bfm, .syc] true s (enterBrake s shortOnly) :=
  .trans (.andThen (.upd .refl) (keeps_spnGo ..)) (keeps_setFlag _ _ _ _ (by decide))

theorem keeps_spnParked (s : State) : Keeps [.ckr, .cal, .fcl, .evr, .gly, .spn, .bfm, .syc] true s (spnParked s) :=
  .ite .refl (.ite (.ite (keeps_enterBrake ..) (.ite (((keeps_setFlag _ _ _ _ (by decide)).andThen
    (keeps_enterSense ..)).trans (keeps_setFld _ _ _ _ (by decide))) (keeps_enterFault ..))) (.ite (keeps_enterBrake ..) .refl))

theorem keeps_enterUnloadWait (s : State) (byLos : Bool) (b : Bridge) :
    Keeps [.ckr, .cal, .fcl, .evr, .gly, .spn, .bfm, .syc] true s (enterUnloadWait s byLos b) :=
  (((keeps_spnGo ..).upd).andThen (keeps_raiseUnload ..)).andThen (keeps_spnParked ..)

theorem keeps_enterRectify (s : State) (byVm : Bool) :
    Keeps [.ckr, .cal, .fcl, .evr, .gly, .spn, .bfm, .syc] true s (enterRectify s byVm) :=
  .ite ((((keeps_spnGo ..).upd).andThen (keeps_raiseUnload ..)).andThen (keeps_spnParked ..)) .refl

theorem keeps_engage4 (s : State) : Keeps [] false s (engage4 s) := (keeps_setCte ..).upd

theorem keeps_enterRun (s : State) : Keeps [.ckr, .cal, .fcl, .evr, .gly, .spn, .bfm, .syc] true s (enterRun s) :=
  ((keeps_spnGo ..).andThen (keeps_engage4 ..)).upd

theorem keeps_tryStart (s : State) : Keeps [.ckr, .cal, .fcl, .evr, .gly, .spn, .bfm, .syc] true s (tryStart s) :=
  .trans (.upd .refl) (.ite ((keeps_spnDone ..).sub) (.ite ((keeps_spnDone ..).sub) (.trans (.andThen (.upd .refl)
    (keeps_enterSense ..)) (keeps_setFlds_all _ _ _ rfl))))

theorem answers_execStart (s : State) :
    Answers (Keeps [.ckr, .cal, .fcl, .evr, .gly, .spn, .bfm, .syc] true s) (execStart s) :=
  .next (.ite (keeps_setFlag _ _ _ _ (by decide)) (.ite ((keeps_spnDone ..).sub) (.ite ((keeps_spnDone ..).sub)
    (.ite ((keeps_spnDone ..).sub) (.ite (keeps_tryStart ..) (.ite ((keeps_spnDone ..).sub) (.trans (.upd .refl)
    (keeps_setFlag _ _ _ _ (by decide)))))))))

theorem keeps_stopActs (s : State) : Keeps [.ckr, .cal, .fcl, .evr, .gly, .spn, .bfm, .syc] true s (stopActs s) :=
  .ite (keeps_enterBrake ..) (.ite (keeps_enterUnloadWait ..) (.ite (keeps_enterUnloadWait ..) (.ite (.upd .refl)
    .refl)))

theorem answers_execStop (s : State) :
    Answers (Keeps [.ckr, .cal, .fcl, .evr, .gly, .spn, .bfm, .syc] true s) (execStop s) :=
  .next (((keeps_startDone ..).sub).trans (.ite ((keeps_spnDone ..).sub) (.ite ((keeps_spnDone ..).sub) (.andThen
    (.trans (.upd .refl) (keeps_setFlag _ _ _ _ (by decide))) (keeps_stopActs ..)))))

theorem answers_execClear (s : State) :
    Answers (Keeps [.ckr, .cal, .fcl, .evr, .gly, .spn, .bfm, .syc] true s) (execClear s) :=
  .next (.ite (keeps_setFlag _ _ _ _ (by decide)) (.ite ((keeps_spnDone ..).sub) (.ite ((keeps_spnDone ..).sub)
    (((keeps_spnGo ..).trans (keeps_setFlag _ _ _ _ (by decide))).andThen (keeps_spnDone ..)))))

theorem keeps_boundarySpeed (s : State) :
    Keeps [.ckr, .cal, .fcl, .evr, .gly, .spn, .bfm, .syc] true s (boundarySpeed s) :=
  .ite (((keeps_takeSetSpeed ..).sub).trans (.ite (keeps_spnGo ..) .refl)) .refl

theorem answers_execSetSpeedWrite (value : Word) (s : State) :
    Answers (Keeps [.ckr, .fcl, .evr, .gly, .spn, .bfm, .syc] true s) (execSetSpeedWrite value s) :=
  .next (.trans (.trans (.trans (.trans (.ite (keeps_setFlag _ _ _ _ (by decide)) .refl) (.ite
    (keeps_setFlag _ _ _ _ (by decide)) .refl)) (.ite (keeps_setFlag _ _ _ _ (by decide)) .refl)) (.ite (keeps_setFlag _ _ _ _ (by
    decide)) .refl)) (.ite .refl ((keeps_setFld _ _ _ _ (by decide)).trans (.ite (.upd .refl)
    (keeps_takeSetSpeed ..)))))

theorem keeps_observeCrossing (s : State) (dt : Nat) (num : Int) : Keeps [.spn] false s (observeCrossing s dt num) :=
  .trans (.upd .refl) (keeps_setFlds_all _ _ _ rfl)

theorem keeps_advanceCrossing (s : State) : Keeps [.spn] false s (advanceCrossing s) :=
  .trans (.upd .refl) (keeps_setFld _ _ _ _ (by decide))

theorem keeps_seedObserver (s : State) (dt sector : Nat) : Keeps [.spn] false s (seedObserver s dt sector) :=
  .trans (.upd .refl) (keeps_setFlds_all _ _ _ rfl)

theorem keeps_commutation (s : State) :
    Keeps [.ckr, .cal, .fcl, .evr, .gly, .lne, .wrp, .svg, .spn, .bfm, .syc] true s (commutation s) :=
  .andThen (.trans (.andThen (.upd .refl) (keeps_calBoundary ..)) (.ite (.andThen (.upd .refl)
    (keeps_recomputeHoldUp ..)) .refl)) (keeps_boundarySpeed ..)

theorem keeps_revolution (s : State) (dt : Nat) : Keeps [] false s (revolution s dt) :=
  .ite (.upd .refl) (.upd .refl)

theorem keeps_declareLos (s : State) :
    Keeps [.ckr, .cal, .fcl, .evr, .gly, .spn, .bfm, .syc] true s (declareLos s) :=
  ((((keeps_bump _ _ _ _ (by decide)).trans (keeps_sendFault _ _ _ _ _ _ (by decide))).upd).trans
    (keeps_bump _ _ _ _ (by decide))).trans (.ite (.upd .refl) (.ite ((keeps_spnGo ..).upd) (keeps_enterUnloadWait ..)))

theorem keeps_crossingActs (s : State) (dt : Nat) :
    Keeps [.ckr, .cal, .fcl, .evr, .gly, .spn, .bfm, .syc] true s (crossingActs s dt) :=
  .ite (keeps_enterRun ..) (.ite ((keeps_revolution ..).sub) (.ite (.upd .refl) .refl))

theorem answers_execBemfCrossing (dt sector : Nat) (forward : Bool) (s : State) :
    Answers (Keeps [.ckr, .cal, .fcl, .evr, .gly, .lne, .wrp, .svg, .spn, .bfm, .syc] true s) (execBemfCrossing dt sector forward s) :=
  .next (.ite (.trans (.andThen (.upd .refl) (keeps_commutation ..)) (.ite (((keeps_seedObserver ..).sub).andThen
    (keeps_spnGo ..)) .refl)) (.ite (((((keeps_observeCrossing ..).sub).upd).andThen (keeps_commutation ..)).trans
    (.ite ((keeps_declareLos ..).sub) (.ite ((((keeps_seedObserver ..).sub).andThen (keeps_spnGo ..)).trans
    (keeps_bump _ _ _ _ (by decide))) ((keeps_crossingActs ..).sub)))) .refl))

theorem answers_execPredictedCrossing (s : State) :
    Answers (Keeps [.ckr, .cal, .fcl, .evr, .gly, .lne, .wrp, .svg, .spn, .bfm, .syc] true s) (execPredictedCrossing s) :=
  .next (.ite (((((keeps_advanceCrossing ..).sub).trans (keeps_bump _ _ _ _ (by decide))).andThen
    (keeps_commutation ..)).andThen (keeps_crossingActs ..)) .refl)

theorem answers_execCrossingWindowTimeout (s : State) :
    Answers (Keeps [.ckr, .cal, .fcl, .evr, .gly, .spn, .bfm, .syc] true s) (execCrossingWindowTimeout s) :=
  .next (.ite (keeps_declareLos ..) .refl)

theorem answers_execSenseEnd (speed : Nat) (backward : Bool) (s : State) :
    Answers (Keeps [.ckr, .cal, .fcl, .evr, .gly, .spn, .bfm, .syc] true s) (execSenseEnd speed backward s) :=
  .next (.ite ((keeps_setFlds_all _ _ _ rfl).trans (.ite ((keeps_spnGo ..).upd) (.ite ((keeps_spnGo ..).trans
    (keeps_setFlag _ _ _ _ (by decide))) (keeps_spnGo ..)))) .refl)

theorem answers_execBrakeRevEnd (s : State) :
    Answers (Keeps [.ckr, .cal, .fcl, .evr, .gly, .spn, .bfm, .syc] true s) (execBrakeRevEnd s) :=
  .next (.ite (keeps_spnGo ..) .refl)

theorem answers_execBrakeRevTimeout (s : State) :
    Answers (Keeps [.ckr, .cal, .fcl, .evr, .gly, .spn, .bfm, .syc] true s) (execBrakeRevTimeout s) :=
  .next (.ite (keeps_enterFault ..) .refl)

theorem answers_execBrakeSettleEnd (s : State) :
    Answers (Keeps [.ckr, .cal, .fcl, .evr, .gly, .spn, .bfm, .syc] true s) (execBrakeSettleEnd s) :=
  .next (.ite (keeps_spnGo ..) .refl)

theorem answers_execAlignEnd (s : State) :
    Answers (Keeps [.ckr, .cal, .fcl, .evr, .gly, .spn, .bfm, .syc] true s) (execAlignEnd s) :=
  .next (.ite ((keeps_spnGo ..).upd) .refl)

theorem answers_execRampTimeout (s : State) :
    Answers (Keeps [.ckr, .cal, .fcl, .evr, .gly, .spn, .bfm, .syc] true s) (execRampTimeout s) :=
  .next (.ite (.ite (((keeps_spnGo ..).trans (keeps_setFld _ _ _ _ (by decide))).trans (keeps_bump _ _ _ _ (by
    decide))) (keeps_enterFault ..)) .refl)

theorem answers_execCatchTimeout (s : State) :
    Answers (Keeps [.ckr, .cal, .fcl, .evr, .gly, .spn, .bfm, .syc] true s) (execCatchTimeout s) :=
  .next (.ite (.ite ((((keeps_bump _ _ _ _ (by decide)).trans (keeps_sendFault _ _ _ _ _ _ (by decide))).trans
    (keeps_bump _ _ _ _ (by decide))).andThen (keeps_enterUnloadWait ..)) (keeps_spnGo ..)) .refl)

theorem answers_execSpinupTimeout (s : State) :
    Answers (Keeps [.ckr, .cal, .fcl, .evr, .gly, .spn, .bfm, .syc] true s) (execSpinupTimeout s) :=
  .next (.ite (keeps_enterFault ..) .refl)

theorem answers_execBrakeEnd (s : State) :
    Answers (Keeps [.ckr, .cal, .fcl, .evr, .gly, .spn, .bfm, .syc] true s) (execBrakeEnd s) :=
  .next (.ite (((keeps_spnGo ..).andThen (keeps_stopDone ..)).trans (.ite (keeps_tryStart ..) .refl)) .refl)

theorem keeps_alignIndex (s : State) : Keeps [] false s (alignIndex s) := by
  refine .ite .refl ?_
  split
  · exact .refl
  · exact .ite .refl (.upd .refl)

theorem answers_execAtSpeedChange (s : State) :
    Answers (Keeps [.ckr, .cal, .fcl, .evr, .spn, .bfm, .syc] true s) (execAtSpeedChange s) :=
  .next (.ite (((((keeps_setAtSpeed ..).sub).trans (keeps_setFld _ _ _ _ (by decide))).andThen
    (keeps_startDone ..)).andThen (keeps_alignIndex ..)) (.ite (((keeps_calDrop ..).sub).andThen (keeps_setAtSpeed ..)) .refl))

theorem keeps_setSync (s : State) (v : Nat) : Keeps [.fcl, .spn] false s (setSync s v) :=
  .ite .refl ((keeps_setFld _ _ _ _ (by decide)).trans (keeps_raiseSource _ _ (by decide)))

theorem keeps_spnSyncWrite (s : State) (value : Word) : Keeps [.fcl, .spn] false s (spnSyncWrite s value) :=
  (keeps_setFlds_all _ _ _ rfl).trans (.ite (.ite .refl (.andThen (.upd .refl) (keeps_setSync ..))) (.andThen (.upd
    .refl) (keeps_setSync ..)))

theorem answers_execSpsyncEdge (rising : Bool) (dt : Nat) (s : State) :
    Answers (Keeps [.fcl, .spn] false s) (execSpsyncEdge rising dt s) :=
  .next (.ite (.ite (keeps_bump _ _ _ _ (by decide)) (.andThen (.trans (.upd .refl) (keeps_setFlds_all _ _ _ rfl))
    (keeps_setSync ..))) .refl)

theorem answers_execSyncFree (s : State) : Answers (Keeps [.fcl, .spn] false s) (execSyncFree s) :=
  .next (.ite (((keeps_setFld _ _ _ _ (by decide)).upd).andThen (keeps_setSync ..)) .refl)

theorem keeps_driveLegs (s : State) (m : Int) (adv : Nat) : Keeps [] false s (driveLegs s m adv) := .upd .refl

theorem keeps_spnLawTick (s : State) :
    Keeps [.ckr, .cal, .fcl, .evr, .gly, .cte, .spn, .bfm, .syc] true s (spnLawTick s) :=
  .trans (.andThen (.trans (.upd .refl) (.ite (keeps_setFld _ _ _ _ (by decide)) .refl)) (keeps_alignIndex ..))
    (.ite (.ite (((keeps_freshWord ..).sub).andThen (keeps_driveLegs ..)) .refl) (.trans (.andThen (.andThen (.trans
    (.trans (.upd .refl) (keeps_setCte ..)) (keeps_setFlds_all _ _ _ rfl)) (keeps_driveLegs ..))
    (keeps_recordSats ..)) (.ite ((keeps_stopActs ..).sub) .refl)))

theorem answers_execLawTick (n ain : Nat) (s : State) :
    Answers (Keeps [.ckr, .cal, .fcl, .evr, .gly, .lne, .wrp, .svg, .cte, .spn, .bfm, .syc] true s) (execLawTick n ain s) :=
  .next (.ite (((keeps_calBoundary ..).sub).andThen (keeps_actLawTick ..)) (.ite ((keeps_spnLawTick ..).sub) .refl))

theorem answers_execParkHoldEnd (a : Nat) (s : State) :
    Answers (Keeps [.ckr, .cal, .fcl, .evr, .gly, .lne, .wrp, .svg, .cte, .spn, .bfm, .syc] true s) (execParkHoldEnd a s) :=
  .next (.ite (((keeps_parkHoldEnd ..).sub).andThen (keeps_spnParked ..)) .refl)

theorem answers_execCteBlockReset (s : State) : Answers (Keeps [.ckr, .fcl] false s) (execCteBlockReset s) :=
  .next ((keeps_setFlag _ _ _ _ (by decide)).trans (.ite ((keeps_each _ _ (fun _ _ => keeps_setCte ..) _).trans
    (.ite ((keeps_engage4 ..).sub) .refl)) (keeps_sendFault _ _ _ _ _ _ (by decide))))

theorem answers_execSpnBlockReset (s : State) :
    Answers (Keeps [.ckr, .cal, .fcl, .evr, .gly, .spn, .bfm, .syc] true s) (execSpnBlockReset s) :=
  .next ((keeps_setFlag _ _ _ _ (by decide)).trans (.ite ((((((keeps_calDrop ..).sub).andThen
    (keeps_startDone ..)).andThen (keeps_stopDone ..)).andThen (keeps_spnGo ..)).trans (keeps_setFlag _ _ _ _ (by decide)))
    (keeps_sendFault _ _ _ _ _ _ (by decide))))

theorem keeps_spnSafe (s : State) : Keeps [.ckr, .cal, .fcl, .evr, .gly, .spn, .bfm, .syc] true s (spnSafe s) :=
  .ite (((keeps_startDone ..).sub).andThen (keeps_enterUnloadWait ..)) .refl

theorem keeps_spnPowerLoss (s : State) :
    Keeps [.ckr, .cal, .fcl, .evr, .gly, .spn, .bfm, .syc] true s (spnPowerLoss s) :=
  ((keeps_startDone ..).sub).andThen (keeps_enterRectify ..)

theorem keeps_spnQuiesce (s : State) :
    Keeps [.ckr, .cal, .fcl, .evr, .gly, .spn, .bfm, .syc] true s (spnQuiesce s) :=
  .ite (keeps_enterBrake ..) .refl

theorem keeps_spnPowerFault (s : State) :
    Keeps [.ckr, .cal, .fcl, .evr, .gly, .spn, .bfm, .syc] true s (spnPowerFault s) :=
  .ite .refl (keeps_enterFault ..)

theorem keeps_setStripe (s : State) (k : Nat) (x : Option Stripe) : Keeps [] false s (setStripe s k x) :=
  .upd .refl

theorem keeps_setMap (s : State) (tlp : Nat) (x : Option Nat) : Keeps [] false s (setMap s tlp x) := .upd .refl

theorem keeps_setPinned (s : State) (tlp : Nat) (b : Bool) : Keeps [] false s (setPinned s tlp b) := .upd .refl

theorem keeps_fltReport (s : State) : Keeps [.flt] false s (fltReport s) := keeps_setFlds_all _ _ _ rfl

theorem keeps_fltSpares (s : State) : Keeps [.ckr, .fcl, .evr, .gly, .bfm, .syc, .flt] true s (fltSpares s) :=
  (((keeps_fltReport ..).sub).trans (.ite ((keeps_fltGo ..).trans (keeps_sendFault _ _ _ _ _ _ (by decide)))
    .refl)).trans (.ite (((((keeps_setFlag _ _ _ _ (by decide)).trans (keeps_sendFault _ _ _ _ _ _ (by
    decide))).trans (.ite (keeps_fltGo ..) .refl)).andThen (keeps_glyRetiring ..)).andThen (keeps_fltReport ..))
    .refl)

theorem keeps_retireBlocks (s : State) (keys : List Nat) :
    Keeps [.ckr, .fcl, .evr, .gly, .bfm, .syc, .flt] true s (retireBlocks s keys) :=
  .andThen (.upd .refl) (keeps_fltSpares ..)

theorem keeps_markUe (s : State) (k tlp : Nat) : Keeps [] false s (markUe s k tlp) := by
  unfold markUe
  split
  · exact (keeps_setStripe ..).trans (.ite (.upd .refl) .refl)
  · exact .refl

theorem keeps_flushRate (s : State) : Keeps [.ckr, .fcl, .evr, .gly, .spn, .bfm, .syc, .flt] true s (flushRate s) :=
  .trans (.trans (.upd .refl) (keeps_setFlds_all _ _ _ rfl)) (.ite ((keeps_recomputeHoldUp ..).sub) .refl)

theorem keeps_programTime (s : State) (usec : Nat) :
    Keeps [.ckr, .fcl, .evr, .gly, .spn, .bfm, .syc, .flt] true s (programTime s usec) :=
  .trans (.upd .refl) (.ite (keeps_flushRate ..) .refl)

theorem keeps_fltAdvance (s : State) : Keeps [.ckr, .fcl, .evr, .gly, .bfm, .syc, .flt] true s (fltAdvance s) :=
  .ite (.ite ((keeps_fltGo ..).andThen (keeps_fltReport ..)) (.ite (.ite ((keeps_fltGo ..).andThen
    (keeps_fltSpares ..)) ((keeps_fltGo ..).andThen (keeps_fltSpares ..))) .refl)) .refl

theorem keeps_fltCtlWrite (s : State) (value : Word) :
    Keeps [.ckr, .fcl, .evr, .gly, .bfm, .syc, .flt] true s (fltCtlWrite s value) :=
  .ite .refl (.andThen (.trans (.trans (.ite (keeps_setFld _ _ _ _ (by decide)) .refl) (.ite
    (keeps_setFld _ _ _ _ (by decide)) .refl)) (.ite (.andThen (.andThen (.upd .refl) (keeps_fltGo ..)) (keeps_fltReport ..)) .refl))
    (keeps_fltTryInit ..))

theorem answers_execFltEnable (value : Word) (s : State) :
    Answers (Keeps [.ckr, .fcl, .evr, .gly, .bfm, .syc, .flt] true s) (execFltEnable value s) :=
  .next (keeps_fltCtlWrite ..)

theorem answers_execRetireCommit (s : State) :
    Answers (Keeps [.ckr, .fcl, .evr, .gly, .bfm, .syc, .flt] true s) (execRetireCommit s) :=
  .next (keeps_fltCtlWrite ..)

theorem answers_execFltInitDone (usable geom : Word) (grades : Nat) (rootOk : Bool) (s : State) :
    Answers (Keeps [.ckr, .fcl, .evr, .gly, .spn, .bfm, .syc, .flt] true s) (execFltInitDone usable geom grades rootOk s) := by
  refine .ite (.next .refl) (.ite (.next (((((((keeps_setFld _ _ _ _ (by decide)).trans (keeps_wr _ _ _ _ (by
    decide))).trans (keeps_wr _ _ _ _ (by decide))).upd).andThen (keeps_fltReport ..)).andThen
    (keeps_fltGo ..)).trans (keeps_sendFault _ _ _ _ _ _ (by decide)))) (.ite (.next ((((((keeps_setFld _ _ _ _ (by
    decide)).trans (keeps_wr _ _ _ _ (by decide))).trans (keeps_wr _ _ _ _ (by decide))).upd).andThen
    (keeps_fltReport ..)).andThen (keeps_fltGo ..))) (.next (.andThen (.andThen (.andThen ?_ (keeps_fltGo ..))
    (keeps_flushRate ..)) (keeps_fltAdvance ..)))))
  split
  · exact ((((((((keeps_setFld _ _ _ _ (by decide)).trans (keeps_wr _ _ _ _ (by decide))).trans
      (keeps_wr _ _ _ _ (by decide))).upd).andThen (keeps_fltReport ..)).upd).trans (keeps_setFlds_all _ _ _ rfl)).trans
      (keeps_raiseSource _ _ (by decide))).trans (.ite .refl (keeps_sendFault _ _ _ _ _ _ (by decide)))
  · exact (((((keeps_setFld _ _ _ _ (by decide)).trans (keeps_wr _ _ _ _ (by decide))).trans (keeps_wr _ _ _ _ (by
      decide))).upd).andThen (keeps_fltReport ..)).upd

theorem keeps_fltKeyReplaced (s : State) :
    Keeps [.ckr, .fcl, .evr, .gly, .bfm, .syc, .flt] true s (fltKeyReplaced s) :=
  .ite (.upd .refl) (.andThen (.andThen (.upd .refl) (keeps_fltGo ..)) (keeps_fltReport ..))

theorem keeps_nandGrant (s : State) (ch : Nat) : Keeps [] false s (nandGrant s ch) := by
  unfold nandGrant
  split
  · exact .refl
  · exact .upd .refl

theorem keeps_nandGrants (s : State) : Keeps [] false s (nandGrants s) :=
  keeps_each _ _ (fun _ _ => keeps_each _ _ (fun _ _ => keeps_nandGrant ..) _) _

theorem keeps_nandAsk (s : State) (cls op : Nat) (dies : List Nat) : Keeps [] false s (nandAsk s cls op dies) :=
  .ite .refl (.andThen (.upd .refl) (keeps_nandGrants ..))

theorem keeps_nandEnd (s : State) (op die : Nat) : Keeps [] false s (nandEnd s op die) :=
  .ite .refl (.andThen (.upd .refl) (keeps_nandGrants ..))

theorem keeps_askErase (s : State) (dies : List Nat) : Keeps [] false s (askErase s dies) := keeps_nandAsk ..

theorem keeps_setTier (s : State) (k : Nat) (c : TierCmd) : Keeps [] false s (setTier s k c) := .upd .refl

theorem keeps_tierComplete (s : State) (idx status done : Nat) :
    Keeps [.fcl, .bfm, .syc, .flt] true s (tierComplete s idx status done) :=
  (((keeps_busWriteWord ..).sub).trans (keeps_setFld _ _ _ _ (by decide))).trans (keeps_raiseSource _ _ (by decide))

theorem answers_execTierCommandFetch (s : State) :
    Answers (Keeps [.fcl, .bfm, .syc, .flt] true s) (execTierCommandFetch s) := by
  refine .ite (.next .refl) ?_
  split
  · rename_i e
    exact .next ((((keeps_busRead _ _ _ _ .of).ofSnd e).upd).andThen (keeps_tierComplete ..))
  · rename_i e
    exact .onward (((keeps_busRead _ _ _ _ .of).ofSnd e).upd) (.ite (.next (keeps_tierComplete ..)) (.next (.upd
      .refl)))

theorem keeps_readTlps (c : TierCmd) (n : Nat) : ∀ (j : Nat) (s : State),
    Keeps [.fcl, .bfm, .syc] true s (readTlps c n j s).2 := by
  induction n with
  | zero => exact fun j s => .refl
  | succ n ih =>
    intro j s
    unfold readTlps
    split
    · rename_i e
      exact (keeps_busRead _ _ _ _ .of).ofSnd e
    · rename_i t e
      have k := (keeps_busRead (bs := [.fcl, .bfm, .syc]) _ _ _ _ .of).ofSnd e
      split
      · rename_i e
        exact k.trans ((keeps_busRead _ _ _ _ .of).ofSnd e)
      · rename_i u e
        have k := (k.trans ((keeps_busRead _ _ _ _ .of).ofSnd e)).trans (ih (j + 1) u)
        split
        · rename_i e
          exact k.ofSnd e
        · rename_i e
          exact k.ofSnd e

theorem keeps_tierEnd (s : State) (k : Nat) (c : TierCmd) (status done : Nat) :
    Keeps [] false s (tierEnd s k c status done) := keeps_setTier ..

theorem answers_execWrite (k stripe : Nat) (dies : List Nat) (wait : Bool) (s : State) :
    Answers (Keeps [.fcl, .bfm, .syc, .flt] true s) (execWrite k stripe dies wait s) := by
  unfold execWrite
  split
  · exact .next .refl
  · extract_lets bytes limited x u
    refine .ite (.next .refl) (.ite (.next (keeps_setFlag _ _ _ _ (by decide)))
      (.ite (.next (keeps_setFlag _ _ _ _ (by decide))) (.ite (.next .refl) ?_)))
    have taken (c : TierCmd) : Keeps [.fcl, .bfm, .syc, .flt] true s (readTlps c c.count 0 u).2 :=
      (keeps_setFlds_all _ _ _ rfl).andThen (keeps_readTlps ..)
    split
    · rename_i e
      exact .next (((taken _).ofSnd e).andThen (keeps_tierEnd ..))
    · rename_i e
      exact .next ((Keeps.ite (.upd (((taken _).ofSnd e).andThen (keeps_setStripe ..)))
        (((taken _).ofSnd e).andThen (keeps_setStripe ..))).andThen (keeps_tierEnd ..) |>.andThen (keeps_nandAsk ..))

theorem keeps_returnTlp (s : State) (c : TierCmd) (j : Nat) (data tag : List Byte) :
    Keeps [.fcl, .bfm, .syc] true s (returnTlp s c j data tag).2 := by
  unfold returnTlp
  split
  · rename_i e
    exact (keeps_busWrite _ _ _ _ .of).ofSnd e
  · rename_i e
    exact ((keeps_busWrite _ _ _ _ .of).ofSnd e).trans (keeps_busWrite _ _ _ _ .of)

theorem keeps_readRun (c : TierCmd) (bad : List Nat) (n : Nat) : ∀ (j : Nat) (s : State),
    Keeps [.fcl, .bfm, .syc, .flt] true s (readRun c bad n j s).2 := by
  induction n with
  | zero => exact fun j s => .refl
  | succ n ih =>
    intro j s
    unfold readRun
    extract_lets tlp zero _ got
    have taken : Keeps [.fcl, .bfm, .syc, .flt] true s got.2 := by
      unfold got
      split
      · exact .iteSnd .refl (.iteSnd (.iteSnd (.upd .refl) (keeps_markUe ..).sub) .refl)
      · exact .refl
    clear_value got
    split
    · exact (taken.trans (keeps_sendFault _ _ _ _ _ _ (by decide))).andThen (keeps_fltReport ..)
    · split
      · rename_i e
        exact taken.andThen ((keeps_returnTlp ..).ofSnd e)
      · rename_i e
        exact (taken.andThen ((keeps_returnTlp ..).ofSnd e)).trans (ih _ _)

theorem keeps_imageRun (c : TierCmd) (w : List Nat) (n : Nat) : ∀ (j : Nat) (s : State),
    Keeps [.fcl, .bfm, .syc] true s (imageRun c w n j s).2 := by
  induction n with
  | zero => exact fun j s => .refl
  | succ n ih =>
    intro j s
    unfold imageRun
    dsimp only
    split
    · rename_i e
      exact (keeps_returnTlp ..).ofSnd e
    · rename_i e
      exact ((keeps_returnTlp ..).ofSnd e).trans (ih _ _)

theorem answers_execRead (k : Nat) (bad : List Nat) (s : State) :
    Answers (Keeps [.fcl, .bfm, .syc, .flt] true s) (execRead k bad s) := by
  unfold execRead
  split
  · exact .next .refl
  · refine .ite (.next .refl) (.next (.andThen (.andThen (.andThen ?_ (keeps_fltReport ..)) (keeps_tierEnd ..))
      (keeps_nandAsk ..)))
    split
    · exact .iteSnd ((keeps_imageRun ..).sub) (keeps_readRun ..)
    · exact keeps_readRun ..

theorem answers_execTrim (k : Nat) (s : State) : Answers (Keeps [.flt] false s) (execTrim k s) := by
  unfold execTrim
  split
  · exact .next .refl
  · exact .ite (.next .refl) (.next (((keeps_each _ _ (fun _ _ => ((keeps_setMap ..).sub).andThen
      (keeps_setPinned ..)) _).andThen (keeps_fltReport ..)).andThen (keeps_tierEnd ..)))

theorem answers_execReleaseImage (k : Nat) (s : State) : Answers (Keeps [.flt] false s) (execReleaseImage k s) := by
  unfold execReleaseImage
  split
  · exact .next .refl
  · exact .ite (.next .refl) (.next (.andThen (.trans (.upd .refl) (keeps_setFlag _ _ _ _ (by decide)))
      (keeps_tierEnd ..)))

theorem answers_execFormat (k : Nat) (s : State) :
    Answers (Keeps [.ckr, .fcl, .evr, .gly, .spn, .bfm, .syc, .flt] true s) (execFormat k s) := by
  unfold execFormat
  split
  · exact .next .refl
  · exact .ite (.next .refl) (.next (.andThen (.andThen (.andThen (.andThen (.andThen (.trans (.upd .refl)
      (keeps_setFlds_all _ _ _ rfl)) (keeps_fltReport ..)) (keeps_tierEnd ..)) (keeps_fltGo ..))
      (keeps_flushRate ..)) (keeps_fltAdvance ..)))

theorem answers_execTierCommandDone (k : Nat) (s : State) :
    Answers (Keeps [.fcl, .bfm, .syc, .flt] true s) (execTierCommandDone k s) := by
  unfold execTierCommandDone
  split
  · split
    · exact .next (.andThen (.andThen (.upd (.ite (keeps_each _ _ (fun _ _ => ((keeps_setMap ..).sub).andThen
        (keeps_setPinned ..)) _) .refl)) (keeps_fltReport ..)) (keeps_tierComplete ..))
    · exact .next .refl
  · exact .next .refl

theorem answers_execNandOpDone (op die block usec : Nat) (slc ok : Bool) (stripe : Nat) (lost : List Nat)
    (s : State) :
    Answers (Keeps [.ckr, .fcl, .evr, .gly, .spn, .bfm, .syc, .flt] true s) (execNandOpDone op die block usec slc ok stripe lost s) := by
  refine .ite (.next .refl) (.ite (.next .refl) ?_)
  split
  · exact .next ((((keeps_nandEnd ..).sub).trans (keeps_each _ _ (fun _ _ => (keeps_markUe ..).sub) _)).andThen
      (keeps_fltReport ..))
  · exact .onward ((keeps_nandEnd ..).sub) (.ite (.next (.ite (keeps_programTime ..) .refl)) (.next (.andThen
      (.trans (.trans (.upd .refl) (keeps_each _ _ (fun _ _ => (keeps_markUe ..).sub) _))
      (keeps_sendFault _ _ _ _ _ _ (by decide))) (keeps_retireBlocks ..))))
  · refine .ite (.next (.andThen ?_ (keeps_fltReport ..))) (.next ((((keeps_nandEnd ..).sub).upd).andThen
      (keeps_retireBlocks ..)))
    split
    · exact (((keeps_nandEnd ..).sub).upd).trans (.ite ((keeps_setStripe ..).sub) .refl)
    · exact ((keeps_nandEnd ..).sub).upd
  · exact .onward ((keeps_nandEnd ..).sub) (.ite (.next (.andThen (.upd .refl) (keeps_fltAdvance ..))) (.next
      .refl))

theorem answers_execStripeVerify (stripe : Nat) (failing lost : List Nat) (s : State) :
    Answers (Keeps [.ckr, .fcl, .evr, .gly, .bfm, .syc, .flt] true s) (execStripeVerify stripe failing lost s) := by
  unfold execStripeVerify
  split
  · exact .next .refl
  · refine .ite (.next .refl) (.ite (.next (((((keeps_setStripe ..).sub).trans (keeps_each _ _ (fun _ _ => ?_)
      _)).andThen (keeps_fltReport ..)).andThen (keeps_askErase ..))) (.next (((keeps_each _ _ (fun _ _ => .trans
      (.upd .refl) (keeps_sendFault _ _ _ _ _ _ (by decide))) _).trans (keeps_each _ _ (fun _ _ =>
      (keeps_markUe ..).sub) _)).andThen (keeps_retireBlocks ..))))
    split
    · exact .ite ((keeps_setMap ..).sub) .refl
    · exact .refl

theorem answers_execDieLost (die : Nat) (lost : List Nat) (s : State) :
    Answers (Keeps [.ckr, .fcl, .evr, .gly, .spn, .bfm, .syc, .flt] true s) (execDieLost die lost s) := by
  refine .ite (.next .refl) (.next ((((((((keeps_sendFault _ _ _ _ _ _ (by decide)).upd).trans (keeps_each _ _ (fun
    _ _ => ?_) _)).trans (keeps_each _ _ (fun _ _ => keeps_each _ _ (fun _ _ => (keeps_markUe ..).sub) _)
    _)).upd).upd).andThen (keeps_fltSpares ..)).andThen (keeps_flushRate ..)))
  split
  · exact keeps_each _ _ (fun _ _ => (keeps_markUe ..).sub) _
  · exact .refl

theorem keeps_copyInto (s : State) (srcs : List Nat) (dest : Nat) (dies : List Nat) :
    Keeps [] false s (copyInto s srcs dest dies) :=
  ((keeps_setStripe ..).andThen (keeps_nandAsk ..)).andThen (keeps_nandAsk ..)

theorem answers_execFold (srcs : List Nat) (dest : Nat) (dies : List Nat) (s : State) :
    Answers (Keeps [] false s) (execFold srcs dest dies s) := .ite (.next (keeps_copyInto ..)) (.next .refl)

theorem answers_execGarbageCollection (victim dest : Nat) (dies : List Nat) (s : State) :
    Answers (Keeps [] false s) (execGarbageCollection victim dest dies s) := by
  unfold execGarbageCollection
  split
  · exact .next .refl
  · exact .ite (.next (keeps_copyInto ..)) (.next .refl)

theorem keeps_fltPowerLoss (s : State) : Keeps [.fcl, .bfm, .syc, .flt] true s (fltPowerLoss s) := by
  refine .ite ((keeps_each _ _ (fun _ _ => ?_) _).upd) (((keeps_each _ _ (fun _ _ => ?_) _).upd).upd)
  · split
    · exact keeps_tierComplete ..
    · exact keeps_tierComplete ..
  · split
    · exact keeps_tierComplete ..
    · exact keeps_tierComplete ..

theorem keeps_fltCommit (s : State) (record : List Word) : Keeps [] false s (fltCommit s record) := by
  unfold fltCommit
  split
  · exact .upd .refl
  · exact .refl

theorem answers_execLinkTrained (p speed width : Nat) (s : State) :
    Answers (Keeps [.ckr, .fcl, .evr, .hfe, .bfm, .syc] true s) (execLinkTrained p speed width s) := by
  unfold execLinkTrained
  by_cases hp : p = 0
  all_goals
    simp only [hp, if_true, if_false]
    exact .ite (.next .refl) (.ite (.ite (.next .refl)
      (.next ((((keeps_bump _ _ _ _ (by decide)).trans (keeps_setFlds_all _ _ _ rfl)).trans
        (keeps_raiseSource _ _ (by decide))).trans (keeps_setReady _ _ _ _ .of (by decide) (by decide)))))
      (.ite (.next (((keeps_setFlds_all _ _ _ rfl).trans (keeps_raiseSource _ _ (by decide))).trans
        (keeps_setReady _ _ _ _ .of (by decide) (by decide)))) (.next .refl)))

theorem keeps_hostReady (s : State) : Keeps [] false s (hostReady s) :=
  .ite .refl (keeps_each _ _ (fun _ _ => .upd .refl) _)

theorem answers_execCcEnSet (p : Nat) (en : Bool) (s : State) :
    Answers (Keeps [.ckr, .fcl, .evr, .hfe, .gly, .bfm, .syc] true s) (execCcEnSet p en s) :=
  .ite (.next .refl) (.ite (.next (.andThen (.upd .refl) (keeps_hostReady ..))) (.ite (.next (keeps_hostReset ..))
    (.next .refl)))

theorem keeps_hfeBlockReset (s : State) :
    Keeps [.ckr, .fcl, .evr, .hfe, .gly, .bfm, .syc] true s (hfeBlockReset s) :=
  (keeps_each _ _ (fun _ _ => keeps_hostReset ..) _).trans (keeps_setFld _ _ _ _ (by decide))

theorem answers_execHfeBlockReset (s : State) :
    Answers (Keeps [.ckr, .fcl, .evr, .hfe, .gly, .bfm, .syc] true s) (execHfeBlockReset s) :=
  .next (keeps_hfeBlockReset ..)

theorem keeps_sideAnswer (s : State) (o : SideOut) : Keeps [] false s (sideAnswer s o) := .upd .refl

theorem keeps_sideAdmin (s : State) (entry : Sqe) : Keeps [.mgt] false s (sideAdmin s entry) :=
  .ite ((keeps_sideAnswer ..).sub) (.ite (keeps_bump _ _ _ _ (by decide)) (.andThen (.upd .refl)
    (keeps_sideAnswer ..)))

theorem keeps_pldmRequest (s : State) : Keeps [] false s (pldmRequest s) :=
  .andThen (.ite (.upd .refl) .refl) (keeps_sideAnswer ..)

theorem keeps_sideServe (s : State) (m : SideMsg) : Keeps [.mgt] false s (sideServe s m) := by
  have answer (t : State) (o : SideOut) : Keeps [.mgt] false t (sideAnswer t o) := (keeps_sideAnswer ..).sub
  cases m with
  | miRead => exact .ite (answer ..) (answer ..)
  | miCommand health => exact .ite (answer ..) (.ite (answer ..) (answer ..))
  | miAdmin entry => exact keeps_sideAdmin ..
  | pldmRequestUpdate => exact (keeps_pldmRequest ..).sub
  | pldmData => exact .ite (answer ..) (answer ..)
  | pldmEnd => exact .trans (.upd .refl) (answer ..)
  | spdmFinish n admin => exact .trans (.upd .refl) (answer ..)
  | spdmEnd n => exact .trans (.upd .refl) (answer ..)
  | spdmHealth n => exact .ite (answer ..) (answer ..)
  | control | pldmOther | spdmRequest | lastRecords | other => exact answer ..

theorem keeps_sideMessage (s : State) (m : SideMsg) : Keeps [.mgt] false s (sideMessage s m) := by
  unfold sideMessage
  split
  · exact (keeps_sideAnswer ..).sub
  · exact (keeps_sideAnswer ..).sub
  · exact (keeps_sideAnswer ..).sub
  · exact (keeps_sideAnswer ..).sub
  · exact (keeps_sideAnswer ..).sub
  · exact (keeps_sideAnswer ..).sub
  · exact keeps_sideServe ..

theorem answers_execSmbusTransaction (addr : Nat) (pecOk last : Bool) (msg : SideMsg) (s : State) :
    Answers (Keeps [.fcl, .mgt] false s) (execSmbusTransaction addr pecOk last msg s) :=
  .ite (.next ((keeps_sideAnswer ..).sub)) (.ite (.next (((keeps_sideAnswer ..).sub).trans
    (keeps_raiseSource _ _ (by decide)))) (.ite (.onward (keeps_bump _ _ _ _ (by decide)) (.ite (.next (keeps_bump _ _ _ _ (by decide)))
    (.ite (.next (.andThen (.upd .refl) (keeps_sideAnswer ..))) (.next (.andThen (.trans (.upd .refl)
    (keeps_raiseSource _ _ (by decide))) (keeps_sideMessage ..)))))) (.next ((keeps_sideAnswer ..).sub))))

theorem keeps_tempMinute (s : State) (ctrl : Nat) : Keeps [.flt] false s (tempMinute s ctrl) :=
  .trans (.upd .refl) (.ite (keeps_bump _ _ _ _ (by decide)) .refl)

theorem keeps_tempWarning (s : State) (ctrl : Nat) : Keeps [] false s (tempWarning s ctrl) :=
  .ite (.ite .refl (.trans (.upd .refl) (.ite .refl (keeps_each _ _ (fun _ _ => keeps_toHost ..) _)))) (.ite (.upd
    .refl) .refl)

theorem answers_execTempSample (ctrl pwr : Nat) (s : State) :
    Answers (Keeps [.fcl, .mgt, .flt] false s) (execTempSample ctrl pwr s) :=
  .next ((((keeps_setFlds_all _ _ _ rfl).trans (keeps_when _ _ _ (fun _ => keeps_raiseSource _ _ (by
    decide)))).andThen (keeps_tempWarning ..)).andThen (keeps_tempMinute ..))

theorem keeps_mgtBlockReset (s : State) : Keeps [.ckr] false s (mgtBlockReset s) :=
  .trans (.upd .refl) (keeps_setFld _ _ _ _ (by decide))

theorem answers_execMgtBlockReset (s : State) : Answers (Keeps [.ckr] false s) (execMgtBlockReset s) :=
  .next (keeps_mgtBlockReset ..)

theorem keeps_freeFailure (s : State) : Keeps [] false s (freeFailure s).2 := keeps_freshWord ..

theorem acts_setOtp (s : State) (o : Otp) : Acts [] false s (setOtp s o) := .upd .refl

theorem keeps_applyLc (s : State) : Keeps [.sec, .mgt] false s (applyLc s) :=
  (keeps_setFlds_all _ _ _ rfl).andThen (keeps_setMeas ..)

theorem answers_execOtpRead (damaged : List OtpField) (s : State) :
    Answers (Acts [.ckr, .fcl, .evr, .sec, .mgt, .bfm, .syc] true s) (execOtpRead damaged s) := by
  have report (t : State) (l : List OtpField) : Keeps [.ckr, .fcl, .evr, .sec, .mgt, .bfm, .syc] true t
      (each l (fun f u => sendFault u .sec 64 FK.secOtp 7 (otpCode f)) t) :=
    keeps_each _ _ (fun _ _ => keeps_sendFault _ _ _ _ _ _ (by decide)) _
  unfold execOtpRead
  exact .ite (.next .refl) (.next ((acts_setOtp ..).sub.andThen (((((report _ _).upd.andThen (keeps_applyLc ..)).trans
    (keeps_setReady _ _ _ _ .of (by decide) (by decide))).trans
    (keeps_setReady _ _ _ _ .of (by decide) (by decide))))))

theorem acts_otpCmdWrite (s : State) (value : Word) :
    Acts [.fcl, .sec, .mgt, .bfm, .syc] true s (otpCmdWrite s value) := by
  have done {t : State} (h : Acts [.fcl, .sec, .mgt, .bfm, .syc] true s t) (st : Nat) :
      Acts [.fcl, .sec, .mgt, .bfm, .syc] true s (setFld t F.SEC_OTP_CMD_STATUS 0 st) :=
    h.trans (keeps_setFld _ _ _ _ (by decide)).acts
  unfold otpCmdWrite
  extract_lets n t _ lc
  have k : Keeps [.fcl, .sec, .mgt, .bfm, .syc] true s t := keeps_setFlds_all _ _ _ rfl
  split
  · exact k.acts
  · split
    · exact done k.acts _
    · refine .ite (done k.acts _) (.ite (done k.acts _) ?_)
      split
      · rename_i e
        exact done (k.trans ((keeps_busRead _ _ _ _ .of).ofSnd e) |>.andThen (keeps_freeFailure ..)).acts _
      · rename_i e
        exact done (((acts_setOtp ..).before (k.trans ((keeps_busRead _ _ _ _ .of).ofSnd e))).andThen
          (keeps_applyLc ..)) _

theorem answers_execOtpBurn (value : Word) (s : State) :
    Answers (Acts [.fcl, .sec, .mgt, .bfm, .syc] true s) (execOtpBurn value s) := .next (acts_otpCmdWrite ..)

theorem keeps_provAnswer (s : State) (st : Nat) (data : List Word) : Keeps [] false s (provAnswer s st data) :=
  keeps_sideAnswer ..

theorem keeps_provServe {bs : List Block} {m : Bool} (s : State) (l : List Nat) (f : State → State)
    (h : Keeps bs m s (f s)) : Keeps bs m s (provServe s l f) := by
  have answer (o : SideOut) : Keeps bs m s (sideAnswer s o) := .upd .refl
  exact .ite (answer _) (.ite (answer _) (.ite h (answer _)))

theorem answers_execGetState (s : State) : Answers (Keeps [] false s) (execGetState s) :=
  .next (keeps_provServe _ _ _ ((keeps_freshWord s).trans (keeps_provAnswer ..)))

theorem answers_execGetNonce (s : State) : Answers (Keeps [] false s) (execGetNonce s) :=
  .next (keeps_provServe _ _ _ ((keeps_freshNat s 6).upd.trans (keeps_provAnswer ..)))

theorem answers_execGetSessionKey (s : State) : Answers (Keeps [] false s) (execGetSessionKey s) :=
  .next (keeps_provServe _ _ _ ((keeps_freshNat s 6).upd.trans (keeps_provAnswer ..)))

theorem answers_execProvision (serial pub wrapped sig : Nat) (s : State) :
    Answers (Acts [.sec, .mgt] false s) (execProvision serial pub wrapped sig s) := by
  refine .next (acts_provServe _ _ _ ?_)
  have answer (st : Nat) : Acts [.sec, .mgt] false s (provAnswer s st []) := (keeps_provAnswer ..).sub.acts
  dsimp only
  split
  · exact answer _
  · refine .ite (answer _) ?_
    split
    · exact answer _
    · refine .ite (answer _) ?_
      exact (((acts_setOtp ..).before (keeps_freshNat s 4).sub).andThen (keeps_applyLc ..)).trans
        (Keeps.trans (.upd .refl) (keeps_provAnswer ..).sub).acts

theorem answers_execBurnRoots (roots : List (Option Nat)) (hda admin : Option Nat) (s : State) :
    Answers (Acts [.sec, .mgt] false s) (execBurnRoots roots hda admin s) := by
  have answer (st : Nat) : Acts [.sec, .mgt] false s (provAnswer s st []) := (keeps_provAnswer ..).sub.acts
  exact .next (acts_provServe _ _ _ (.ite (answer _) (.ite (answer _) (.ite (answer _)
    (((acts_setOtp ..).sub.andThen (keeps_applyLc ..)).andThen (keeps_provAnswer ..))))))

theorem answers_execReset (s : State) : Answers (Keeps [] false s) (execReset s) :=
  .next (keeps_provServe _ _ _ (.trans (.upd .refl) (keeps_provAnswer ..)))

theorem keeps_modJob (s : State) (a id : Nat) (f : Job → Job) : Keeps [] false s (modJob s a id f) :=
  keeps_setDcp ..

theorem keeps_countOutcome (s : State) (a outcome : Nat) : Keeps [.dcp] false s (countOutcome s a outcome) := by
  unfold countOutcome
  split
  · exact keeps_bump _ _ _ _ (by decide)
  · exact keeps_bump _ _ _ _ (by decide)
  · exact keeps_bump _ _ _ _ (by decide)
  · exact keeps_bump _ _ _ _ (by decide)
  · exact .refl

theorem keeps_postRecord (s : State) (a : Nat) (h : HeldRecord) : Keeps [.fcl, .dcp] false s (postRecord s a h) := by
  refine .ite (.ite (.andThen (.andThen ?_ (keeps_setCtx ..)) (keeps_releaseCtx ..)) ?_) (keeps_setDcp ..)
  · split
    · exact (((keeps_setDcp ..).trans (keeps_raiseSource _ _ (by decide))).andThen (keeps_countOutcome ..)).trans
        (keeps_setPair ..)
    · exact ((keeps_setDcp ..).trans (keeps_raiseSource _ _ (by decide))).andThen (keeps_countOutcome ..)
  · split
    · exact (((keeps_setDcp ..).trans (keeps_raiseSource _ _ (by decide))).andThen (keeps_countOutcome ..)).trans
        (keeps_setPair ..)
    · exact ((keeps_setDcp ..).trans (keeps_raiseSource _ _ (by decide))).andThen (keeps_countOutcome ..)

theorem keeps_cancelReplay (s : State) (a id : Nat) : Keeps [] false s (cancelReplay s a id) := by
  refine (keeps_setPair ..).trans (keeps_each _ _ (fun _ _ => ?_) _)
  split
  · exact keeps_setEntry ..
  · exact .refl

theorem keeps_freeJobEntries (s : State) (a id : Nat) : Keeps [] false s (freeJobEntries s a id) :=
  keeps_each _ _ (fun _ _ => .ite (keeps_setEntry ..) .refl) _

theorem keeps_stopDecoders (s : State) (a id : Nat) : Keeps [] false s (stopDecoders s a id) := by
  refine keeps_each _ _ (fun _ _ => ?_) _
  split
  · exact .ite (keeps_setDec ..) .refl
  · exact .refl

theorem keeps_dropJob (s : State) (a : Nat) (j : Job) : Keeps [] false s (dropJob s a j) :=
  (((keeps_stopDecoders ..).andThen (keeps_cancelReplay ..)).andThen (keeps_freeJobEntries ..)).trans
    (keeps_setDcp ..)

theorem keeps_finishRecord (s : State) (a : Nat) (j : Job) (record : Word) :
    Keeps [.fcl, .dcp] false s (finishRecord s a j record) :=
  ((keeps_dropJob ..).sub).andThen (keeps_postRecord ..)

theorem keeps_finishJob (s : State) (a : Nat) (j : Job) (timeout : Bool) :
    Keeps [.fcl, .dcp] false s (finishJob s a j timeout) := keeps_finishRecord ..

theorem keeps_requestReplay (a id : Nat) (l : List Attempt) : ∀ s : State, Keeps [] false s (requestReplay s a id l) := by
  induction l with
  | nil => exact fun s => keeps_modJob ..
  | cons x rest ih =>
    intro s
    unfold requestReplay
    split
    · exact .refl
    · split
      · exact (keeps_setPair ..).trans (keeps_modJob ..)
      · exact keeps_modJob ..
      · exact keeps_modJob ..
      · exact ih s

theorem keeps_settleJob (s : State) (a id : Nat) : Keeps [.fcl, .dcp] false s (settleJob s a id) := by
  unfold settleJob
  split
  · exact .refl
  · exact .ite (keeps_finishJob ..) .refl

theorem keeps_retryWants (s : State) (a : Nat) : Keeps [.fcl, .dcp] false s (retryWants s a) :=
  keeps_each _ _ (fun _ _ => (keeps_requestReplay _ _ _ _).sub.andThen (keeps_settleJob ..)) _

theorem keeps_poolNext (s : State) (a : Nat) : Keeps [.fcl, .dcp] false s (poolNext s a) :=
  .ite .refl (keeps_retryWants ..)

theorem keeps_poolPin (s : State) (a id : Nat) : Keeps [] false s (poolPin s a id) := by
  unfold poolPin
  split
  · exact .refl
  · exact .ite .refl (.ite (keeps_modJob ..) (.ite ((keeps_setPair ..).andThen (keeps_modJob ..))
      (keeps_modJob ..)))

theorem keeps_failurePin (s : State) (a id : Nat) : Keeps [] false s (failurePin s a id) := by
  unfold failurePin
  split
  · exact .ite (keeps_poolPin ..) .refl
  · exact .refl

theorem keeps_endWork (s : State) (d : Nat) (w : DecWork) : Keeps [] false s (endWork s d w) :=
  (keeps_setEntry ..).trans (keeps_setDec ..)

theorem keeps_holdEntry (s : State) (a e cap : Nat) : Keeps [] false s (holdEntry s a e cap) :=
  ((keeps_setDcp ..).andThen (keeps_setEntry ..)).upd

theorem keeps_failLive (s : State) (d : Nat) (w : DecWork) (skip2 : Bool) :
    Keeps [.fcl, .dcp] false s (failLive s d w skip2) := by
  unfold failLive
  split
  · exact keeps_setDec ..
  · extract_lets a s1 s2 s3 ext t1 t2 t3
    have k : Keeps [.fcl, .dcp] false s s3 :=
      ((keeps_modJob ..).sub.andThen (keeps_failurePin ..)).andThen (keeps_requestReplay _ _ _ _)
    have stop : Keeps [.fcl, .dcp] false s (settleJob (endWork s3 d w) a w.job) :=
      (k.andThen (keeps_endWork ..)).andThen (keeps_settleJob ..)
    exact .ite ((keeps_endWork ..).sub.andThen (keeps_finishJob ..)) (.ite stop
      (.ite (((k.andThen (keeps_modJob ..)).andThen (keeps_setEntry ..)).trans (keeps_setDec ..))
        (.ite ((k.andThen (keeps_holdEntry ..)).trans (keeps_setDec ..)) stop)))

theorem keeps_failRecovery (s : State) (d : Nat) (w : DecWork) (iters : Nat) :
    Keeps [.fcl, .dcp] false s (failRecovery s d w iters) :=
  (((keeps_endWork ..).sub).andThen (keeps_modJob ..)).andThen (keeps_settleJob ..)

theorem keeps_failAttempt (s : State) (d iters : Nat) (skip2 : Bool) :
    Keeps [.fcl, .dcp] false s (failAttempt s d iters skip2) := by
  unfold failAttempt
  split
  · exact .refl
  · exact .ite (((keeps_modJob ..).sub).andThen (keeps_failLive ..)) (((keeps_modJob ..).sub).andThen
      (keeps_failRecovery ..))

theorem keeps_loseLlrs (s : State) (d : Nat) (w : DecWork) : Keeps [.fcl, .dcp] false s (loseLlrs s d w) := by
  unfold loseLlrs
  split
  · exact (keeps_modJob ..).sub.andThen (keeps_failLive ..)
  · extract_lets t1 q id t2
    have k : Keeps [.fcl, .dcp] false s t2 :=
      ((keeps_endWork ..).sub.andThen (keeps_cancelReplay ..)).trans (keeps_setDcp ..)
    exact (k.andThen (keeps_requestReplay _ _ _ _)).andThen (keeps_settleJob ..)

theorem keeps_newJob (s : State) (a : Nat) (j : Job) : Keeps [] false s (newJob s a j).2 := keeps_setDcp ..

theorem keeps_readyEntry (s : State) (a : Nat) (k : Packet) (job : Nat) (poisoned : List Nat) (live : Bool) (attempt
  : Option Attempt) :
    Keeps [] false s (readyEntry s a k job poisoned live attempt) := (keeps_setDcp ..).andThen (keeps_setEntry ..)

theorem keeps_freePacketEntry (s : State) (a : Nat) (k : Packet) : Keeps [] false s (freePacketEntry s a k) :=
  .ite (keeps_setEntry ..) .refl

theorem keeps_packetRecord (s : State) (a : Nat) (k : Packet) (j : Job) (outcome : Nat) :
    Keeps [.fcl, .dcp] false s (packetRecord s a k j outcome) :=
  ((keeps_freePacketEntry ..).sub).andThen (keeps_postRecord ..)

theorem keeps_replayPacket (s : State) (a : Nat) (k : Packet) (j : Job) (poisoned : List Nat) (poisonTrailer : Bool)
  :
    Keeps [.fcl, .dcp] false s (replayPacket s a k j poisoned poisonTrailer) :=
  .ite ((keeps_freePacketEntry ..).sub) (.ite (((keeps_freePacketEntry ..).sub).andThen (keeps_finishRecord ..))
    (((keeps_modJob ..).sub).andThen (keeps_readyEntry ..)))

theorem keeps_spoolParity (s : State) (a n : Nat) : Keeps [.fcl, .spl] false s (spoolParity s a n) :=
  keeps_each _ _ (fun _ _ => (keeps_bump _ _ _ _ (by decide)).trans (keeps_sendFault _ _ _ _ _ _ (by decide))) _

theorem keeps_trailerArrival (s : State) (a : Nat) (poisoned : List Nat) (poisonTrailer : Bool) :
    Keeps [.fcl, .dcp, .spl] false s (trailerArrival s a poisoned poisonTrailer) := by
  unfold trailerArrival
  extract_lets p
  split
  · exact .refl
  · extract_lets t fresh r cap u
    have taken : Keeps [.fcl, .dcp, .spl] false s t := (keeps_setPair ..).andThen (keeps_spoolParity ..)
    clear_value t
    refine .ite (taken.andThen (keeps_freePacketEntry ..)) ?_
    split
    · split
      · exact taken.andThen (keeps_freePacketEntry ..)
      · exact taken.andThen (keeps_replayPacket ..)
    · exact .ite (taken.andThen (keeps_packetRecord ..)) (.ite (taken.andThen (keeps_packetRecord ..))
        (.ite ((taken.andThen (keeps_newJob ..)).andThen (keeps_readyEntry ..))
          ((taken.andThen (keeps_newJob ..)).andThen (keeps_readyEntry ..))))

theorem answers_execTrailerArrival (a : Nat) (poisoned : List Nat) (poisonTrailer : Bool) (s : State) :
    Answers (Keeps [.fcl, .dcp, .spl] false s) (execTrailerArrival a poisoned poisonTrailer s) :=
  .next (.ite .refl ((keeps_trailerArrival ..).andThen (keeps_poolNext ..)))

theorem answers_execReplayDone (a : Nat) (eccY eccFlags eccMarks : Bool) (s : State) :
    Answers (Keeps [.fcl, .lne, .dcp, .bfm] false s) (execReplayDone a eccY eccFlags eccMarks s) := by
  refine .next (.andThen ?_ (keeps_poolNext ..))
  split
  · exact (((keeps_replayDone ..).sub).andThen (keeps_modJob ..)).andThen (keeps_settleJob ..)
  · exact (keeps_replayDone ..).sub

theorem keeps_takeWork (s : State) (d a e cls : Nat) (loadErr : Bool) :
    Keeps [.fcl, .dcp, .bfm] false s (takeWork s d a e cls loadErr) := by
  unfold takeWork
  extract_lets x dec dec' src t
  have k : Keeps [.fcl, .dcp, .bfm] false s t := keeps_setDcp ..
  split
  · exact k.andThen (keeps_setEntry ..)
  · extract_lets ask rung w t1 t2 t3 t4
    have k2 : Keeps [.fcl, .dcp, .bfm] false s t2 :=
      ((k.andThen (keeps_setEntry ..)).trans (keeps_setDec ..)).andThen (keeps_modJob ..)
    have k3 : Keeps [.fcl, .dcp, .bfm] false s t3 := k2.trans (.ite (keeps_requestReplay _ _ _ _).sub .refl)
    have k4 : Keeps [.fcl, .dcp, .bfm] false s t4 := k3.andThen (keeps_sramUe ..)
    exact .ite (.ite (k4.andThen (keeps_loseLlrs ..)) (k4.andThen (keeps_failAttempt ..))) k3

theorem keeps_selectCycle (s : State) (decoders : List Nat) (loadErr : Bool) :
    Keeps [.fcl, .dcp, .bfm] false s (selectCycle s decoders loadErr) := by
  refine keeps_each _ _ (fun _ _ => ?_) _
  split
  · exact .refl
  · split
    · exact .refl
    · exact .ite .refl ((keeps_takeWork ..).andThen (keeps_poolNext ..))

theorem answers_execDecoderSelect (decoders : List Nat) (loadErr : Bool) (s : State) :
    Answers (Keeps [.fcl, .dcp, .bfm] false s) (execDecoderSelect decoders loadErr s) :=
  .next (keeps_selectCycle ..)

theorem keeps_decodeConverged (s : State) (d iters : Nat) (data : List Byte) :
    Keeps [.fcl, .dcp] false s (decodeConverged s d iters data) := by
  unfold decodeConverged
  split
  · exact .refl
  · refine .ite .refl ?_
    split
    · exact .refl
    · exact .ite (((((((keeps_endWork ..).sub).andThen (keeps_cancelReplay ..)).andThen
        (keeps_freeJobEntries ..)).trans (.ite (keeps_setPair ..) .refl)).andThen (keeps_modJob ..)).trans (keeps_setDcp ..))
        (((keeps_modJob ..).sub).andThen (keeps_failAttempt ..))

theorem answers_execDecodeConverged (d iters : Nat) (data : List Byte) (s : State) :
    Answers (Keeps [.fcl, .dcp] false s) (execDecodeConverged d iters data s) :=
  .next ((keeps_decodeConverged ..).andThen (keeps_poolNext ..))

theorem keeps_decodeCap (s : State) (d : Nat) : Keeps [.fcl, .dcp] false s (decodeCap s d) := by
  unfold decodeCap
  split
  · exact .refl
  · exact .ite .refl (keeps_failAttempt ..)

theorem answers_execDecodeCap (d : Nat) (s : State) : Answers (Keeps [.fcl, .dcp] false s) (execDecodeCap d s) :=
  .next ((keeps_decodeCap ..).andThen (keeps_poolNext ..))

theorem answers_execEarlyPin (d : Nat) (s : State) : Answers (Keeps [] false s) (execEarlyPin d s) := by
  refine .next ?_
  split
  · split
    · exact .ite ((keeps_setDec ..).andThen (keeps_poolPin ..)) .refl
    · exact .refl
  · exact .refl

theorem answers_execDecodeYield (d iters : Nat) (s : State) :
    Answers (Keeps [] false s) (execDecodeYield d iters s) := by
  refine .next ?_
  split
  · exact .ite (((keeps_modJob ..).andThen (keeps_holdEntry ..)).trans (keeps_setDec ..)) .refl
  · exact .refl

theorem keeps_storeLines (n : Nat) : ∀ (addr : Nat) (bytes : List Byte) (s : State),
    Keeps [.fcl, .bfm, .syc] true s (storeLines n addr bytes s) := by
  induction n with
  | zero => exact fun _ _ s => .refl
  | succ n ih => exact fun _ _ s => (keeps_writePiece _ _ _ _ .of).trans (ih _ _ _)

theorem keeps_storeSector (s : State) (w : WriteBack) (err : Bool) :
    Keeps [.fcl, .bfm, .syc] true s (storeSector s w err).2 := by
  have k := keeps_busWrite (bs := [.fcl, .bfm, .syc]) s portDcp w.addr w.data .of
  unfold storeSector
  dsimp only
  split
  · exact k
  · exact k.upd.trans (keeps_storeLines _ _ _ _)

theorem keeps_writebackDone (s : State) (a job : Nat) (err : Bool) :
    Keeps [.fcl, .dcp, .bfm, .syc] true s (writebackDone s a job err) := by
  unfold writebackDone
  dsimp only
  split
  · exact .refl
  · refine .andThen ?_ (keeps_postRecord ..)
    split
    · exact ((keeps_setDcp ..).andThen (keeps_storeSector ..)).andThen (keeps_dropJob ..)
    · exact (keeps_setDcp ..).andThen (keeps_storeSector ..)

theorem answers_execWritebackDone (a job : Nat) (err : Bool) (s : State) :
    Answers (Keeps [.fcl, .dcp, .bfm, .syc] true s) (execWritebackDone a job err s) :=
  .next ((keeps_writebackDone ..).andThen (keeps_poolNext ..))

theorem answers_execDecodeDeadline (a entry : Nat) (s : State) :
    Answers (Keeps [.fcl, .dcp] false s) (execDecodeDeadline a entry s) :=
  .next (.ite ((((keeps_setEntry ..).sub).trans (keeps_bump _ _ _ _ (by decide))).trans
    (keeps_sendFault _ _ _ _ _ _ (by decide))) .refl)

theorem answers_execEntryUrgent (a entry : Nat) (s : State) :
    Answers (Keeps [] false s) (execEntryUrgent a entry s) := .next (.ite (keeps_setEntry ..) .refl)

theorem answers_execRecoveryJobAged (a entry : Nat) (s : State) :
    Answers (Keeps [] false s) (execRecoveryJobAged a entry s) := .next (.ite (keeps_setEntry ..) .refl)

theorem keeps_recoveryTimeout (s : State) (a job iters : Nat) :
    Keeps [.fcl, .dcp] false s (recoveryTimeout s a job iters) := by
  unfold recoveryTimeout
  split
  · exact .ite (keeps_finishJob ..) .refl
  · exact .refl

theorem answers_execRecoveryTimeout (a : Nat) (job : JobStop) (s : State) :
    Answers (Keeps [.fcl, .dcp] false s) (execRecoveryTimeout a job s) :=
  .next (.ite .refl ((keeps_recoveryTimeout ..).andThen (keeps_poolNext ..)))

theorem keeps_postHeld (s : State) (a : Nat) : Keeps [.fcl, .dcp] false s (postHeld s a) := by
  unfold postHeld
  dsimp only
  split
  · exact .ite ((keeps_setDcp ..).andThen (keeps_postRecord ..)) .refl
  · exact .refl

theorem keeps_popRecord (s : State) (a : Nat) : Keeps [.fcl, .dcp] false s (popRecord s a).2 := by
  unfold popRecord
  dsimp only
  split
  · exact (keeps_setDcp ..).andThen (keeps_postHeld ..)
  · exact .refl

theorem answers_execDcpCplRead (a : Nat) (s : State) : Answers (Keeps [.fcl, .dcp] false s) (execDcpCplRead a s) :=
  .next (.ite ((keeps_popRecord ..).trans (keeps_answer ..)) (keeps_answer ..))

theorem keeps_submitJob (s : State) (a : Nat) (w : Word) : Keeps [.fcl, .dcp] false s (submitJob s a w).2 := by
  unfold submitJob
  dsimp only
  split
  · exact .refl
  · split
    · exact .refl
    · split
      · exact .refl
      · exact ((keeps_newJob ..).sub.andThen (keeps_requestReplay _ _ _ _)).andThen (keeps_settleJob ..)

theorem answers_execDcpSubmit (a : Nat) (value : Word) (s : State) :
    Answers (Keeps [.fcl, .dcp] false s) (execDcpSubmit a value s) :=
  .next (.ite ((keeps_setFlds_all _ _ _ rfl).trans (.ite (.ite (keeps_setFlag _ _ _ _ (by decide))
    ((keeps_submitJob ..).trans (keeps_setFld _ _ _ _ (by decide)))) .refl)) .refl)

theorem answers_execDecoderMemoryError (d : Nat) (s : State) :
    Answers (Keeps [.fcl, .dcp] false s) (execDecoderMemoryError d s) := by
  refine .next (.ite (.trans (.trans (.trans ?_ (keeps_setDec ..)) (keeps_wr _ _ _ _ (by decide))) (keeps_sendFault
    _ _ _ _ _ _ (by decide))) .refl)
  split
  · exact ((keeps_setEntry ..).sub).andThen (keeps_modJob ..)
  · exact .refl

theorem keeps_dcpDiscard (s : State) (a : Nat) : Keeps [] false s (dcpDiscard s a) := by
  refine (keeps_setDcp ..).trans (keeps_each _ _ (fun _ _ => ?_) _)
  split
  · exact .ite (keeps_setDec ..) .refl
  · exact .refl

theorem keeps_pairReset (s : State) (a : Nat) :
    Keeps [.ckr, .cal, .fcl, .lne, .wrp, .svg, .spn] false s (pairReset s a) :=
  (keeps_laneBlockReset ..).andThen (keeps_dcpDiscard ..)

theorem answers_execLaneBlockReset (a : Nat) (s : State) :
    Answers (Keeps [.ckr, .cal, .fcl, .lne, .wrp, .svg, .spn] false s) (execLaneBlockReset a s) :=
  .next (.ite (keeps_pairReset ..) .refl)

theorem keeps_dcpBlockReset (s : State) :
    Keeps [.ckr, .cal, .fcl, .lne, .wrp, .svg, .spn] false s (dcpBlockReset s) :=
  ((keeps_each _ _ (fun _ _ => (keeps_pairReset ..).trans (keeps_setDcp ..)) _).trans (keeps_each _ _ (fun _ _ =>
    keeps_setDec ..) _)).trans (keeps_setFlag _ _ _ _ (by decide))

theorem answers_execDcpBlockReset (s : State) :
    Answers (Keeps [.ckr, .cal, .fcl, .lne, .wrp, .svg, .spn] false s) (execDcpBlockReset s) :=
  .next (keeps_dcpBlockReset ..)

theorem keeps_dcpStop (s : State) : Keeps [] false s (dcpStop s) := keeps_each _ _ (fun _ _ => keeps_setDec ..) _

theorem keeps_setVm (s : State) (mv : Nat) : Keeps [.pws] false s (setVm s mv) := keeps_setFld _ _ _ _ (by decide)

theorem answers_execVmLow (mv : Nat) (s : State) :
    Answers (Keeps [.ckr, .cal, .fcl, .evr, .gly, .spn, .pws, .bfm, .syc] true s) (execVmLow mv s) :=
  .next (.ite ((((((keeps_setVm ..).sub).trans (keeps_setFlds_all _ _ _ rfl)).trans (keeps_raiseSource _ _ (by
    decide))).trans (keeps_sendFault _ _ _ _ _ _ (by decide))).andThen (keeps_enterRectify ..)) .refl)

theorem answers_execVmOkRise (mv : Nat) (s : State) : Answers (Keeps [.fcl, .pws] false s) (execVmOkRise mv s) :=
  .next (.ite ((((keeps_setVm ..).sub).trans (keeps_setFlag _ _ _ _ (by decide))).trans (keeps_raiseSource _ _ (by
    decide))) .refl)

theorem answers_execClampOn (mv : Nat) (s : State) : Answers (Keeps [.pws] false s) (execClampOn mv s) :=
  .next (.ite ((keeps_setVm ..).trans (keeps_setFlag _ _ _ _ (by decide))) .refl)

theorem answers_execClampOff (mv : Nat) (s : State) : Answers (Keeps [.pws] false s) (execClampOff mv s) :=
  .next (.ite ((keeps_setVm ..).trans (keeps_setFlag _ _ _ _ (by decide))) .refl)

theorem answers_execVmTrip (mv : Nat) (s : State) :
    Answers (Keeps [.ckr, .cal, .fcl, .evr, .gly, .spn, .pws, .bfm, .syc] true s) (execVmTrip mv s) :=
  .next (.ite (((((keeps_setVm ..).sub).trans (keeps_setFlds_all _ _ _ rfl)).trans (keeps_sendFault _ _ _ _ _ _ (by
    decide))).andThen (keeps_spnPowerFault ..)) .refl)

theorem answers_execChopOpen (ma : Nat) (s : State) : Answers (Keeps [.fcl, .pws] false s) (execChopOpen ma s) :=
  .next (.ite (((keeps_setFlds_all _ _ _ rfl).trans (.ite (.upd .refl) .refl)).trans
    (keeps_sendFault _ _ _ _ _ _ (by decide))) .refl)

theorem answers_execChopStuck (ma : Nat) (s : State) :
    Answers (Keeps [.ckr, .cal, .fcl, .evr, .gly, .spn, .pws, .bfm, .syc] true s) (execChopStuck ma s) :=
  .next (.ite (((((keeps_setFlds_all _ _ _ rfl).trans (keeps_sendFault _ _ _ _ _ _ (by decide))).trans
    (keeps_evrEvent _ _ _ _ _ _ _ _ .of (by decide))).trans (keeps_raiseSource _ _ (by decide))).andThen
    (keeps_spnPowerFault ..)) .refl)

theorem answers_execThermalWarning (temp : Nat) (s : State) :
    Answers (Keeps [.fcl, .pws] false s) (execThermalWarning temp s) :=
  .next (.ite ((keeps_setFlds_all _ _ _ rfl).trans (keeps_sendFault _ _ _ _ _ _ (by decide))) .refl)

theorem answers_execThermalShutdown (temp : Nat) (s : State) :
    Answers (Keeps [.ckr, .cal, .fcl, .evr, .gly, .spn, .pws, .bfm, .syc] true s) (execThermalShutdown temp s) :=
  .next (.ite ((((keeps_setFlds_all _ _ _ rfl).andThen (keeps_startRetract ..)).trans
    (keeps_sendFault _ _ _ _ _ _ (by decide))).andThen (keeps_spnPowerFault ..)) .refl)

theorem answers_execVcmShort (a : Nat) (s : State) : Answers (Keeps [.fcl, .pws] false s) (execVcmShort a s) :=
  .next (.ite (.trans (.trans (.ite .refl (keeps_setCte ..)) (keeps_setFld _ _ _ _ (by decide)))
    (keeps_sendFault _ _ _ _ _ _ (by decide))) .refl)

theorem answers_execBoostFault (s : State) : Answers (Keeps [.fcl, .pws] false s) (execBoostFault s) :=
  .next (.ite (((keeps_setFlds_all _ _ _ rfl).andThen (keeps_mactZero ..)).trans (keeps_sendFault _ _ _ _ _ _ (by
    decide))) .refl)

theorem answers_execBoostOk (s : State) : Answers (Keeps [.pws] false s) (execBoostOk s) :=
  .next (.ite (keeps_setFlag _ _ _ _ (by decide)) .refl)

theorem answers_execPwsFaultClear (value : Word) (s : State) :
    Answers (Keeps [.pws] false s) (execPwsFaultClear value s) :=
  .next ((keeps_wr _ _ _ _ (by decide)).trans (.ite (keeps_setFlag _ _ _ _ (by decide)) .refl))

theorem keeps_pwsClampWrite (s : State) (value : Word) : Keeps [.pws] false s (pwsClampWrite s value) :=
  keeps_setFlds_all _ _ _ rfl

theorem keeps_pwsUactWrite (s : State) (value : Word) : Keeps [.pws] false s (pwsUactWrite s value) :=
  (keeps_setFlag _ _ _ _ (by decide)).trans (.ite .refl ((keeps_setFlag _ _ _ _ (by decide)).andThen
    (keeps_mactZero ..)))

theorem answers_execPwsBlockReset (s : State) : Answers (Keeps [.ckr, .cal] false s) (execPwsBlockReset s) :=
  .next (((keeps_calDrop ..).sub).trans (keeps_setFlag _ _ _ _ (by decide)))

theorem answers_execLinkLoss (s : State) :
    Answers (Keeps [.ckr, .cal, .fcl, .evr, .lne, .wrp, .svg, .cte, .spn, .pws, .bfm, .syc] true s) (execLinkLoss s) :=
  .next (((keeps_setFlag _ _ _ _ (by decide)).andThen (keeps_linkParked ..)).andThen (keeps_startRetract ..))

theorem answers_execRetractEnd (s : State) : Answers (Keeps [.fcl, .pws] false s) (execRetractEnd s) := by
  refine .next ?_
  split
  · exact .refl
  · exact .trans (.andThen (.upd .refl) (keeps_retractDrive ..)) (.ite ((keeps_setFlag _ _ _ _ (by decide)).trans
      (keeps_sendFault _ _ _ _ _ _ (by decide))) .refl)

theorem answers_execPspFrameLaunch (a : Nat) (value : Word) (s : State) :
    Answers (Keeps [.hdl] false s) (execPspFrameLaunch a value s) :=
  .next (.ite .refl (.ite (.ite (keeps_setFlag _ _ _ _ (by decide)) ((((keeps_setFlds_all _ _ _ rfl).trans
    (keeps_setFlag _ _ _ _ (by decide))).trans (.ite (keeps_setFlag _ _ _ _ (by decide)) .refl)).andThen
    (keeps_pspArb ..))) (.trans (.ite (keeps_setFlag _ _ _ _ (by decide)) .refl) (.ite .refl
    (keeps_setFlds_all _ _ _ rfl)))))

theorem keeps_frameEnd (s : State) (a : Nat) (f : PspFrame) (rdata : Nat) :
    Keeps [.fcl, .hdl] false s (frameEnd s a f rdata) := by
  unfold frameEnd
  split
  · exact (keeps_setFlag _ _ _ _ (by decide)).trans (.ite (keeps_setFlds_all _ _ _ rfl) .refl)
  · exact (keeps_setFld _ _ _ _ (by decide)).trans (keeps_sendFault _ _ _ _ _ _ (by decide))
  · split
    · dsimp only
      split
      · exact (keeps_setFld _ _ _ _ (by decide)).trans (keeps_setHdl ..)
      · exact .refl
    · exact keeps_setWrp ..
    · exact keeps_setWrp ..

theorem answers_execPspFrameEnd (a rdata : Nat) (s : State) :
    Answers (Keeps [.fcl, .hdl] false s) (execPspFrameEnd a rdata s) := by
  refine .next ?_
  split
  · exact .refl
  · exact ((keeps_setHdl ..).andThen (keeps_frameEnd ..)).andThen (keeps_pspArb ..)

theorem answers_execPreampFault (a : Nat) (s : State) :
    Answers (Keeps [.cal, .fcl, .lne, .wrp, .svg, .spn, .hdl] false s) (execPreampFault a s) :=
  .next (.ite (((((keeps_setHdl ..).trans (keeps_setFlds_all _ _ _ rfl)).andThen (keeps_wrpCut ..)).andThen
    (keeps_lnePreampFault ..)).andThen (keeps_pspArb ..)) .refl)

theorem answers_execPfltNRelease (a : Nat) (s : State) : Answers (Keeps [.hdl] false s) (execPfltNRelease a s) :=
  .next (.ite ((keeps_setHdl ..).trans (keeps_setFlag _ _ _ _ (by decide))) .refl)

theorem answers_execHeadmapLock (value : Word) (s : State) :
    Answers (Keeps [.hdl] false s) (execHeadmapLock value s) := .next (.ite (keeps_setFlds_all _ _ _ rfl) .refl)

theorem keeps_headInhibit (s : State) : Keeps [.cal, .fcl, .lne, .wrp, .svg, .spn] false s (headInhibit s) :=
  keeps_each _ _ (fun _ _ => .ite (keeps_wrpCut ..) .refl) _

theorem keeps_headMapWrite (s : State) (h : Nat) (value : Word) :
    Keeps [.cal, .fcl, .lne, .wrp, .svg, .spn, .hdl] false s (headMapWrite s h value) :=
  .ite .refl (.ite ((keeps_setFlag _ _ _ _ (by decide)).andThen (keeps_headInhibit ..)) (keeps_setFlds_all _ _ _
    rfl))

theorem answers_execHeadSwitchRequest (a head : Nat) (s : State) :
    Answers (Keeps [.hdl] false s) (execHeadSwitchRequest a head s) := .next (.ite (keeps_requestSwitch ..) .refl)

theorem answers_execHeadSwitchDone (a : Nat) (s : State) :
    Answers (Keeps [.cal, .fcl, .hdl] false s) (execHeadSwitchDone a s) := by
  refine .next ?_
  split
  · refine .ite (.andThen ?_ (keeps_pspArb ..)) .refl
    split
    · split
      · exact ((((((((keeps_setHdl ..).trans (keeps_setFlds_all _ _ _ rfl)).trans (keeps_raiseSource _ _ (by
          decide))).andThen (keeps_calDropAct ..)).andThen (keeps_svgHeadSwitch ..)).andThen
          (keeps_cteHeadSwitch ..)).trans (keeps_setWrp ..)).andThen (keeps_hpfPulse ..)).trans (.ite (((keeps_setOp ..).sub).andThen
          (keeps_mediaSeek ..)) .refl)
      · exact (((((((keeps_setHdl ..).trans (keeps_setFlds_all _ _ _ rfl)).trans (keeps_raiseSource _ _ (by
          decide))).andThen (keeps_calDropAct ..)).andThen (keeps_svgHeadSwitch ..)).andThen
          (keeps_cteHeadSwitch ..)).trans (keeps_setWrp ..)).andThen (keeps_hpfPulse ..)
    · exact (((((((keeps_setHdl ..).trans (keeps_setFlds_all _ _ _ rfl)).trans (keeps_raiseSource _ _ (by
        decide))).andThen (keeps_calDropAct ..)).andThen (keeps_svgHeadSwitch ..)).andThen
        (keeps_cteHeadSwitch ..)).trans (keeps_setWrp ..)).andThen (keeps_hpfPulse ..)
  · exact .refl

theorem keeps_setTagState (s : State) (st reason : Nat) :
    Keeps [.ckr, .fcl, .evr, .hdl, .bfm, .syc] true s (setTagState s st reason) :=
  ((keeps_setFlds_all _ _ _ rfl).trans (.ite .refl (keeps_raiseSource _ _ (by decide)))).trans
    (keeps_setReady _ _ _ _ .of (by decide) (by decide))

theorem keeps_sendTag (s : State) (c : TagCmd) : Keeps [] false s (sendTag s c) := .upd .refl

theorem keeps_sendInc (s : State) (k : Nat) : Keeps [] false s (sendInc s k) := (keeps_sendTag ..).upd

theorem keeps_requestCommit (s : State) : Keeps [.hdl] false s (requestCommit s) :=
  (keeps_setFlag _ _ _ _ (by decide)).trans (.ite (.upd .refl) ((keeps_sendInc ..).sub))

theorem keeps_startTag (s : State) (c : TagCmd) : Keeps [] false s (startTag s c) :=
  .ite (.upd .refl) (keeps_sendTag ..)

theorem keeps_tagIdle (s : State) : Keeps [] false s (tagIdle s) := by
  refine .ite .refl ?_
  split
  · exact .andThen (.upd .refl) (keeps_sendTag ..)
  · exact .ite (.andThen (.upd .refl) (keeps_sendInc ..)) .refl

theorem keeps_commitEnd (s : State) (ok : Bool) : Keeps [.fcl, .hdl] false s (commitEnd s ok) :=
  .andThen (.trans (.trans (.upd .refl) (keeps_setFlag _ _ _ _ (by decide))) (.ite ((keeps_setFlds_all _ _ _
    rfl).trans (keeps_setFld _ _ _ _ (by decide))) (((keeps_setFlag _ _ _ _ (by decide)).trans
    (keeps_bump _ _ _ _ (by decide))).trans (.ite (keeps_sendFault _ _ _ _ _ _ (by decide)) .refl)))) (keeps_tagIdle ..)

theorem keeps_tagBlock (s : State) (reason kind : Nat) :
    Keeps [.ckr, .fcl, .evr, .hdl, .bfm, .syc] true s (tagBlock s reason kind) :=
  .andThen (.trans (.andThen (.upd .refl) (keeps_setTagState ..)) (.ite (keeps_sendFault _ _ _ _ _ _ (by decide))
    .refl)) (keeps_tagIdle ..)

theorem keeps_tagPaired (s : State) : Keeps [.ckr, .fcl, .evr, .hdl, .bfm, .syc] true s (tagPaired s) :=
  .andThen (.trans (.andThen (.upd .refl) (keeps_setTagState ..)) (keeps_evrEvent _ _ _ _ _ _ _ _ .of (by decide)))
    (keeps_tagIdle ..)

theorem answers_execTagAuthentication (s : State) :
    Answers (Keeps [.ckr, .fcl, .evr, .hdl, .bfm, .syc] true s) (execTagAuthentication s) :=
  .next (.ite ((((keeps_setTagState ..).trans (keeps_setFld _ _ _ _ (by decide))).upd).andThen (keeps_startTag ..))
    .refl)

theorem keeps_incAnswer (s : State) (k cur : Nat) : Keeps [.fcl, .hdl] false s (incAnswer s k cur) :=
  .trans (.upd .refl) (.ite (.ite ((keeps_sendInc ..).sub) (keeps_commitEnd ..)) (.ite ((keeps_sendInc ..).sub)
    (keeps_commitEnd ..)))

theorem answers_execTagResponse (values : List Nat) (good : Bool) (s : State) :
    Answers (Keeps [.ckr, .fcl, .evr, .sec, .hdl, .bfm, .syc] true s) (execTagResponse values good s) := by
  refine .next (.ite .refl ?_)
  split
  · exact .refl
  · exact .andThen (.upd (.andThen (.upd .refl) (keeps_setMeas ..))) (keeps_sendTag ..)
  · exact .trans (.upd .refl) (.ite (.andThen (.upd .refl) (keeps_sendTag ..)) (.ite ((keeps_sendTag ..).sub)
      ((keeps_tagBlock ..).sub)))
  · exact .trans (.upd .refl) (.ite ((keeps_tagBlock ..).sub) (.ite ((keeps_tagBlock ..).sub) (.ite
      ((keeps_sendTag ..).sub) ((keeps_tagBlock ..).sub))))
  · exact .trans (.upd .refl) (.ite (.andThen (.upd .refl) (keeps_sendTag ..)) ((keeps_tagBlock ..).sub))
  · exact .trans (.upd .refl) (.ite ((keeps_each _ _ (fun _ _ => keeps_wr _ _ _ _ (by decide)) _).andThen
      (keeps_tagPaired ..)) ((keeps_tagBlock ..).sub))
  · exact .andThen (.upd .refl) (keeps_incAnswer ..)

theorem answers_execTagNoResponse (s : State) :
    Answers (Keeps [.ckr, .fcl, .evr, .hdl, .bfm, .syc] true s) (execTagNoResponse s) := by
  refine .next ?_
  split
  · exact .refl
  · refine .ite .refl (.ite (.upd .refl) ?_)
    split
    · exact (keeps_commitEnd ..).sub
    · exact keeps_tagBlock ..

theorem answers_execTagRetry (s : State) : Answers (Keeps [.hdl] false s) (execTagRetry s) :=
  .next (.ite (.trans (.upd .refl) (.ite (keeps_bump _ _ _ _ (by decide)) .refl)) .refl)

theorem keeps_acceptRepair (s : State) : Keeps [.ckr, .fcl, .evr, .hdl, .bfm, .syc, .flt] true s (acceptRepair s) :=
  .andThen (.andThen (.upd (.ite (.trans (.trans (.trans (.upd .refl) (keeps_sendFault _ _ _ _ _ _ (by decide)))
    (keeps_setFlag _ _ _ _ (by decide))) (keeps_setFld _ _ _ _ (by decide))) .refl)) (keeps_setTagState ..))
    (keeps_startTag ..)

theorem answers_execTagRepair (value : Word) (s : State) :
    Answers (Keeps [.ckr, .fcl, .evr, .hdl, .bfm, .syc, .flt] true s) (execTagRepair value s) :=
  .next (.ite (keeps_setFlag _ _ _ _ (by decide)) ((keeps_setFlag _ _ _ _ (by decide)).trans (.ite
    ((keeps_acceptRepair ..).trans (keeps_setFld _ _ _ _ (by decide))) (((keeps_freshWord ..).sub).trans
    (keeps_setFld _ _ _ _ (by decide))))))

theorem answers_execLifeCommit (value : Word) (s : State) :
    Answers (Keeps [.hdl] false s) (execLifeCommit value s) := .next (.ite (keeps_requestCommit ..) .refl)

theorem answers_execLifeCommitTimer (s : State) : Answers (Keeps [.hdl] false s) (execLifeCommitTimer s) :=
  .next (.ite (.andThen (.upd .refl) (keeps_requestCommit ..)) .refl)

theorem keeps_hdlResetAct (s : State) (a : Nat) :
    Keeps [.cal, .fcl, .lne, .wrp, .svg, .spn, .hdl] false s (hdlResetAct s a) := by
  refine .trans (.andThen (.trans (.trans (.trans ?_ (keeps_setFlag _ _ _ _ (by decide))) (keeps_setHdl ..))
    (keeps_setWrp ..)) (keeps_wrpCut ..)) (keeps_setHdl ..)
  split
  · exact .refl
  · refine (keeps_setFlds_all _ _ _ rfl).trans (keeps_each _ _ (fun _ _ => ?_) _)
    split
    · exact (keeps_mediaDone ..).sub
    · exact .refl

theorem keeps_hdlBlockReset (s : State) :
    Keeps [.ckr, .cal, .fcl, .lne, .wrp, .svg, .spn, .hdl] false s (hdlBlockReset s) := by
  unfold hdlBlockReset
  dsimp only
  split
  · exact ((((keeps_setFlag _ _ _ _ (by decide)).trans (keeps_each _ _ (fun _ _ =>
      ((keeps_hdlResetAct ..).sub).andThen (keeps_pspArb ..)) _)).upd).trans (keeps_when _ _ _ (fun _ =>
      (keeps_sendInc ..).sub))).andThen (keeps_startTag ..)
  · exact ((((keeps_setFlag _ _ _ _ (by decide)).trans (keeps_each _ _ (fun _ _ =>
      ((keeps_hdlResetAct ..).sub).andThen (keeps_pspArb ..)) _)).upd).trans (keeps_when _ _ _ (fun _ =>
      (keeps_sendInc ..).sub))).andThen (keeps_startTag ..)
  · exact (((keeps_setFlag _ _ _ _ (by decide)).trans (keeps_each _ _ (fun _ _ =>
      ((keeps_hdlResetAct ..).sub).andThen (keeps_pspArb ..)) _)).upd).trans (keeps_when _ _ _ (fun _ => (keeps_sendInc ..).sub))

theorem answers_execHdlBlockReset (s : State) :
    Answers (Keeps [.ckr, .cal, .fcl, .lne, .wrp, .svg, .spn, .hdl] false s) (execHdlBlockReset s) :=
  .next (keeps_hdlBlockReset ..)

theorem answers_execSectorWritten (a : Nat) (s : State) :
    Answers (Keeps [.cal, .fcl, .lne, .wrp, .svg, .spn] false s) (execSectorWritten a s) :=
  .next (keeps_sectorWritten ..)

theorem keeps_setSpool (s : State) (k : Nat) (x : Spool) : Keeps [.fcl] false s (setSpool s k x) :=
  .trans (.upd .refl) (.ite (keeps_raiseSource _ _ (by decide)) .refl)

theorem keeps_spoolPut (s : State) (k e : Nat) (w : Word) (last : Bool) :
    Keeps [.fcl] false s (spoolPut s k e w last) := .ite (keeps_setSpool ..) (keeps_setSpool ..)

theorem keeps_spoolGet (s : State) (k : Nat) (bad : Bool) (b : Block) :
    Keeps [.fcl, .spl] false s (spoolGet s k bad b).2 := by
  unfold spoolGet
  split
  · dsimp only
    split
    · exact keeps_setFlag _ _ _ _ (by decide)
    · exact (((keeps_setSpool ..).sub).trans (keeps_bump _ _ _ _ (by decide))).trans
        (keeps_sendFault _ _ _ _ _ _ (by decide))
  · dsimp only
    split
    · exact keeps_setFlag _ _ _ _ (by decide)
    · exact (keeps_setSpool ..).sub

theorem keeps_spoolDrop (s : State) (k : Nat) : Keeps [.fcl] false s (spoolDrop s k) := by
  refine .ite .refl ?_
  split
  · exact keeps_setSpool ..
  · exact keeps_setSpool ..

theorem keeps_spoolFlush (s : State) (k : Nat) : Keeps [.fcl] false s (spoolFlush s k) := keeps_setSpool ..

theorem keeps_producerLost (s : State) (e : Nat) : Keeps [.fcl] false s (producerLost s e) :=
  keeps_each _ _ (fun _ _ => .ite (keeps_setSpool ..) .refl) _

theorem answers_execClosingWord (k : Nat) (s : State) : Answers (Keeps [.fcl] false s) (execClosingWord k s) :=
  .ite (.ite (.next (keeps_setSpool ..)) (.next (keeps_setSpool ..))) (.next .refl)

theorem keeps_corePush (s : State) (c k : Nat) (w : Word) (last : Bool) :
    Keeps [.fcl, .spl] false s (corePush s c k w last) :=
  .ite .refl (.ite (keeps_setFlag _ _ _ _ (by decide)) ((keeps_spoolPut ..).sub))

theorem answers_execSplFwPush (c k : Nat) (value : Word) (s : State) :
    Answers (Keeps [.fcl, .spl] false s) (execSplFwPush c k value s) := .next (keeps_corePush ..)

theorem answers_execSplFwPushLast (c k : Nat) (value : Word) (s : State) :
    Answers (Keeps [.fcl, .spl] false s) (execSplFwPushLast c k value s) := .next (keeps_corePush ..)

theorem keeps_corePop (s : State) (c k : Nat) (bad : Bool) : Keeps [.fcl, .spl] false s (corePop s c k bad) :=
  .ite .refl (.ite ((keeps_setFlds_all _ _ _ rfl).trans (keeps_answer ..)) (((keeps_spoolGet ..).trans
    (keeps_setFlds_all _ _ _ rfl)).trans (keeps_answer ..)))

theorem answers_execSplFwPop (c k : Nat) (bad : Bool) (s : State) :
    Answers (Keeps [.fcl, .spl] false s) (execSplFwPop c k bad s) := .next (keeps_corePop ..)

theorem keeps_coreDrop (s : State) (c k : Nat) (value : Word) : Keeps [.fcl, .spl] false s (coreDrop s c k value) :=
  .ite .refl (.ite (keeps_setFlag _ _ _ _ (by decide)) ((keeps_spoolDrop ..).sub))

theorem answers_execDropPkt (c k : Nat) (value : Word) (s : State) :
    Answers (Keeps [.fcl, .spl] false s) (execDropPkt c k value s) := .next (keeps_coreDrop ..)

theorem keeps_spoolCfgWrite (s : State) (k : Nat) (value : Word) :
    Keeps [.fcl, .spl] false s (spoolCfgWrite s k value) :=
  .ite .refl (.trans (.andThen (.trans (.ite ((keeps_spoolFlush ..).sub) .refl) (keeps_setFlag _ _ _ _ (by decide)))
    (keeps_setSpool ..)) (.ite ((keeps_setFlds_all _ _ _ rfl).andThen (keeps_spoolFlush ..)) .refl))

theorem answers_execFlush (k : Nat) (s : State) : Answers (Keeps [.fcl] false s) (execFlush k s) :=
  .next (.ite (keeps_spoolFlush ..) .refl)

theorem answers_execSpoolConfigWrite (k : Nat) (value : Word) (s : State) :
    Answers (Keeps [.fcl, .spl] false s) (execSpoolConfigWrite k value s) := .next (keeps_spoolCfgWrite ..)

theorem answers_execSplBlockReset (s : State) : Answers (Keeps [.ckr, .fcl] false s) (execSplBlockReset s) :=
  .next ((keeps_each _ _ (fun _ _ => (keeps_spoolFlush ..).sub) _).trans (keeps_setFlag _ _ _ _ (by decide)))

theorem keeps_setSem (s : State) (n : Nat) (x : Sem) : Keeps [] false s (setSem s n x) := .upd .refl

theorem keeps_engineLost (s : State) (e : Nat) : Keeps [.fcl] false s (engineLost s e) :=
  (keeps_each _ _ (fun _ _ => .ite ((keeps_setSem ..).sub) .refl) _).andThen (keeps_producerLost ..)

theorem keeps_coreCtlWrite (s : State) (c : Nat) (value : Word) :
    Keeps [.fcl, .svc] false s (coreCtlWrite s c value) :=
  .ite .refl ((keeps_setFlds_all _ _ _ rfl).trans (.ite (keeps_setFld _ _ _ _ (by decide)) (.ite
    (((keeps_setFld _ _ _ _ (by decide)).upd).andThen (keeps_engineLost ..)) .refl)))

theorem answers_execCoreRun (c : Nat) (value : Word) (s : State) :
    Answers (Keeps [.fcl, .svc] false s) (execCoreRun c value s) := .next (keeps_coreCtlWrite ..)

theorem answers_execCoreHold (c : Nat) (value : Word) (s : State) :
    Answers (Keeps [.fcl, .svc] false s) (execCoreHold c value s) := .next (keeps_coreCtlWrite ..)

theorem keeps_semRead (s : State) (e n : Nat) : Keeps [] false s (semRead s e n) := by
  refine .ite .refl ?_
  dsimp only
  split
  · exact (keeps_setSem ..).trans (keeps_answer ..)
  · exact keeps_answer ..

theorem answers_execSemaphoreRead (e n : Nat) (s : State) : Answers (Keeps [] false s) (execSemaphoreRead e n s) :=
  .next (keeps_semRead ..)

theorem keeps_semWrite (s : State) (e n : Nat) (value : Word) : Keeps [.fcl, .svc] false s (semWrite s e n value) :=
  .ite .refl (.ite ((keeps_setSem ..).sub) ((keeps_bump _ _ _ _ (by decide)).trans (keeps_raiseSource _ _ (by
    decide))))

theorem answers_execSemaphoreRelease (e n : Nat) (value : Word) (s : State) :
    Answers (Keeps [.fcl, .svc] false s) (execSemaphoreRelease e n value s) := .next (keeps_semWrite ..)

theorem keeps_ipiSet (s : State) (value : Word) : Keeps [.svc] false s (ipiSet s value) :=
  keeps_each _ _ (fun _ _ => keeps_setFlag _ _ _ _ (by decide)) _

theorem answers_execIpiSet (value : Word) (s : State) : Answers (Keeps [.svc] false s) (execIpiSet value s) :=
  .next (keeps_ipiSet ..)

theorem answers_execTimerInterrupt (c : Nat) (s : State) : Answers (Keeps [] false s) (execTimerInterrupt c s) :=
  .ite (.next (.upd .refl)) (.next .refl)

theorem keeps_timerFall (s : State) : Keeps [] false s (timerFall s) := .upd .refl

theorem keeps_modSht (s : State) (k : Nat) (f : Shuttle → Shuttle) : Keeps [] false s (modSht s k f) :=
  keeps_setSht ..

theorem keeps_trap (s : State) (k cause addr op : Nat) : Keeps [.fcl, .sht] false s (trap s k cause addr op) :=
  (((((keeps_setFlds_all _ _ _ rfl).trans (keeps_wr _ _ _ _ (by decide))).trans (keeps_bump _ _ _ _ (by
    decide))).trans (keeps_setSht ..)).trans (keeps_sendFault _ _ _ _ _ _ (by decide))).andThen
    (keeps_producerLost ..)

theorem keeps_withdraw (s : State) (e : Nat) : Keeps [] false s (withdraw s e) := .upd .refl

theorem keeps_abortOp (s : State) (o : OpRef) (m : MediaOp) :
    Keeps [.cal, .fcl, .lne, .wrp, .svg, .spn] false s (abortOp s o m) := by
  unfold abortOp
  split
  · exact (keeps_detachSeek ..).sub
  · exact keeps_wrpAbort ..
  · exact keeps_lneStopOp ..
  · exact .refl

theorem keeps_shReset (s : State) (k : Nat) :
    Keeps [.cal, .fcl, .sht, .lne, .wrp, .svg, .spn] false s (shReset s k) := by
  refine .ite (((((keeps_wr _ _ _ _ (by decide)).trans (keeps_each _ _ (fun _ _ => ?_) _)).andThen
    (keeps_withdraw ..)).andThen (keeps_engineLost ..)).andThen (keeps_modSht ..)) .refl
  split
  · exact (keeps_abortOp ..).sub
  · exact .refl

theorem keeps_shCtlWrite (s : State) (k : Nat) (value : Word) :
    Keeps [.cal, .fcl, .sht, .lne, .wrp, .svg, .spn] false s (shCtlWrite s k value) :=
  .ite ((keeps_setFlag _ _ _ _ (by decide)).trans (.ite (keeps_shReset ..) (.ite ((keeps_modSht ..).sub) (.ite
    (((keeps_modSht ..).sub).andThen (keeps_engineLost ..)) .refl)))) .refl

theorem answers_execShuttleEnable (k : Nat) (s : State) :
    Answers (Keeps [.cal, .fcl, .sht, .lne, .wrp, .svg, .spn] false s) (execShuttleEnable k s) :=
  .next (keeps_shCtlWrite ..)

theorem answers_execShuttleReset (k : Nat) (s : State) :
    Answers (Keeps [.cal, .fcl, .sht, .lne, .wrp, .svg, .spn] false s) (execShuttleReset k s) :=
  .next (keeps_shCtlWrite ..)

theorem answers_execShuttleDisable (k : Nat) (s : State) :
    Answers (Keeps [.cal, .fcl, .sht, .lne, .wrp, .svg, .spn] false s) (execShuttleDisable k s) :=
  .next (keeps_shCtlWrite ..)

theorem answers_execShuttleResume (k : Nat) (s : State) :
    Answers (Keeps [.cal, .fcl, .sht, .lne, .wrp, .svg, .spn] false s) (execShuttleResume k s) :=
  .next (keeps_shCtlWrite ..)

theorem keeps_shtBlockReset (s : State) :
    Keeps [.ckr, .cal, .fcl, .sht, .lne, .wrp, .svg, .spn] false s (shtBlockReset s) :=
  ((keeps_each _ _ (fun _ _ => (keeps_shReset ..).sub) _).upd).trans (keeps_setFlds_all _ _ _ rfl)

theorem answers_execShtBlockReset (s : State) :
    Answers (Keeps [.ckr, .cal, .fcl, .sht, .lne, .wrp, .svg, .spn] false s) (execShtBlockReset s) :=
  .next (keeps_shtBlockReset ..)

theorem answers_execTaskTimeout (k : Nat) (s : State) : Answers (Keeps [.fcl, .sht] false s) (execTaskTimeout k s) :=
  .ite (.next (keeps_trap ..)) (.next .refl)

theorem answers_execWaitEvent (k : Nat) (s : State) : Answers (Keeps [] false s) (execWaitEvent k s) := by
  unfold execWaitEvent
  dsimp only
  split
  · exact .ite (.next (keeps_setSht ..)) (.next .refl)
  · exact .next .refl

theorem answers_execWaitTimeout (k : Nat) (s : State) : Answers (Keeps [] false s) (execWaitTimeout k s) := by
  unfold execWaitTimeout
  dsimp only
  split
  · split
    · exact .next (keeps_setSht ..)
    · exact .next .refl
  · exact .next .refl

theorem answers_execFrameReady (k f : Nat) (deadline : Bool) (s : State) :
    Answers (Keeps [] false s) (execFrameReady k f deadline s) := by
  unfold execFrameReady
  split
  · dsimp only
    split
    · exact .next .refl
    · split
      · exact .next .refl
      · exact .next (keeps_setSht ..)
  · dsimp only
    split
    · exact .next .refl
    · split
      · exact .next .refl
      · exact .next (keeps_setSht ..)

theorem keeps_startTask (s : State) (k : Nat) (w : Word) : Keeps [.sht] false s (startTask s k w) :=
  ((keeps_modSht ..).sub).trans (keeps_bump _ _ _ _ (by decide))

theorem answers_execTaskTake (k : Nat) (s : State) : Answers (Keeps [.sht] false s) (execTaskTake k s) := by
  refine .ite (.next .refl) ?_
  split
  · exact .next (keeps_setSht ..)
  · split
    · exact .next (((keeps_setDeque ..).sub).andThen (keeps_startTask ..))
    · split
      · exact .next (.andThen (.upd .refl) (keeps_startTask ..))
      · refine .ite (.next .refl) ?_
        split
        · exact .next .refl
        · split
          · exact .next (((((keeps_setDeque ..).sub).andThen (keeps_modSht ..)).andThen (keeps_startTask ..)).trans
              (keeps_bump _ _ _ _ (by decide)))
          · exact .next .refl

theorem keeps_mediaComplete (s : State) (k tag : Nat) : Keeps [] false s (mediaComplete s k tag) := by
  unfold mediaComplete
  dsimp only
  split
  · exact .refl
  · split
    · exact keeps_setSht ..
    · exact .refl

theorem answers_execMediaOpComplete (k tag : Nat) (s : State) :
    Answers (Keeps [] false s) (execMediaOpComplete k tag s) := .next (keeps_mediaComplete ..)

theorem keeps_endOp (s : State) (k tag : Nat) (m : MediaOp) (timeout : Bool) :
    Keeps [.cal, .fcl, .lne, .wrp, .svg, .spn] false s (endOp s k tag m timeout) := by
  unfold endOp
  split
  · exact .refl
  · exact (keeps_abortOp ..).andThen (keeps_modSht ..)
  · exact ((keeps_modSht ..).sub).andThen (keeps_abortOp ..)
  · exact (keeps_modSht ..).sub

theorem answers_execMediaTimeout (k tag : Nat) (s : State) :
    Answers (Keeps [.cal, .fcl, .sht, .lne, .wrp, .svg, .spn] false s) (execMediaTimeout k tag s) := by
  unfold execMediaTimeout
  split
  · exact .next .refl
  · refine .ite (.next .refl) ?_
    split
    · exact .next .refl
    · exact .next (((keeps_endOp ..).sub).trans (keeps_bump _ _ _ _ (by decide)))

theorem keeps_shtLoadWrite (s : State) (value : Word) : Keeps [.sht] false s (shtLoadWrite s value) :=
  (keeps_setFlds_all _ _ _ rfl).trans (.ite .refl (.ite (keeps_setFld _ _ _ _ (by decide)) (.trans (.upd .refl)
    (keeps_setFlag _ _ _ _ (by decide)))))

theorem answers_execShtLoad (value : Word) (s : State) : Answers (Keeps [.sht] false s) (execShtLoad value s) :=
  .next (keeps_shtLoadWrite ..)

theorem keeps_copyCode (c : CodeLoad) (n : Nat) : ∀ (j : Nat) (s : State),
    Keeps [.fcl, .bfm, .syc] true s (copyCode c n j s).2 := by
  induction n with
  | zero => exact fun j s => .refl
  | succ n ih =>
    intro j s
    unfold copyCode
    split
    · rename_i e
      exact (keeps_busRead _ _ _ _ .of).ofSnd e
    · rename_i e
      exact (((keeps_busRead _ _ _ _ .of).ofSnd e).trans
        (keeps_each _ _ (fun _ _ => (keeps_modSht ..).sub) _)).trans (ih _ _)

theorem answers_execShtLoadDone (s : State) : Answers (Keeps [.fcl, .sht, .bfm, .syc] true s) (execShtLoadDone s) := by
  unfold execShtLoadDone
  split
  · exact .next .refl
  · exact .next ((keeps_copyCode _ _ _ s).sub.upd.trans (keeps_setFlds_all _ _ _ rfl))

theorem keeps_portStep (s : State) : Keeps [.sht] false s (portStep s) :=
  .ite (keeps_setFld _ _ _ _ (by decide)) .refl

theorem keeps_lsPortRead (s : State) : Keeps [.sht] false s (lsPortRead s) :=
  (keeps_portStep ..).trans (keeps_answer ..)

theorem keeps_lsPortWrite (s : State) (value : Word) : Keeps [.sht] false s (lsPortWrite s value) :=
  (keeps_each _ _ (fun _ _ => (keeps_modSht ..).sub) _).andThen (keeps_portStep ..)

theorem answers_execLsPortAccess (write : Bool) (value : Word) (s : State) :
    Answers (Keeps [.sht] false s) (execLsPortAccess write value s) :=
  .next (.ite (keeps_lsPortWrite ..) (keeps_lsPortRead ..))

theorem keeps_setFolio (s : State) (k : Nat) (f : Folio) : Keeps [] false s (setFolio s k f) := .upd .refl

theorem keeps_countGood (s : State) : Keeps [.sec] false s (countGood s) := keeps_setFld _ _ _ _ (by decide)

theorem keeps_folioFail (s : State) (k : Nat) : Keeps [.fcl, .sec] false s (folioFail s k) :=
  (((keeps_setFolio ..).sub).trans (keeps_sendFault _ _ _ _ _ _ (by decide))).trans (keeps_setFld _ _ _ _ (by
    decide))

theorem keeps_folioCheck (s : State) (k : Nat) : Keeps [.fcl, .sec] false s (folioCheck s k).2 :=
  .iteSnd .refl (.iteSnd (.iteSnd (((keeps_setFld _ _ _ _ (by decide)).upd).andThen (keeps_setFolio ..))
    (keeps_folioFail ..)) (.iteSnd .refl (.iteSnd (keeps_folioFail ..) (.iteSnd (.iteSnd ((keeps_setFolio ..).sub)
    (keeps_folioFail ..)) (.iteSnd (.iteSnd ((keeps_setFolio ..).sub) (keeps_folioFail ..)) .refl)))))

theorem keeps_foliosCheck (l : List Nat) : ∀ (bad : Bool) (s : State),
    Keeps [.fcl, .sec] false s (foliosCheck l bad s).2 := by
  induction l with
  | nil => exact fun _ s => .refl
  | cons k rest ih => exact fun _ s => (keeps_folioCheck s k).trans (ih _ _)

theorem keeps_stageFree (s : State) : Keeps [.fcl, .sec] false s (stageFree s) :=
  .trans (.trans (.upd .refl) (keeps_setFlds_all _ _ _ rfl)) (keeps_raiseSource _ _ (by decide))

theorem keeps_updStatus (s : State) (st : Nat) : Keeps [.sec] false s (updStatus s st) :=
  keeps_setFld _ _ _ _ (by decide)

theorem keeps_ownerActs (s : State) : Keeps [] false s (ownerActs s) := .upd .refl

theorem keeps_chunk (s : State) (source off len : Nat) :
    Keeps [.fcl, .sec, .bfm, .syc] true s (chunk s source off len) := by
  refine .ite ((keeps_updStatus ..).sub) (.ite ((keeps_updStatus ..).sub) (.ite ((keeps_updStatus ..).sub) (.ite
    ((keeps_updStatus ..).sub) ?_)))
  split
  · rename_i e
    exact (((keeps_busRead _ _ _ _ .of).ofSnd e).andThen (keeps_freeFailure ..)).andThen (keeps_updStatus ..)
  · rename_i e
    split
    · rename_i e1
      exact (((((keeps_busRead _ _ _ _ .of).ofSnd e).trans (keeps_busWrite _ _ _ _ .of)).ofSnd e1).andThen
        (keeps_freeFailure ..)).andThen (keeps_updStatus ..)
    · rename_i e1
      exact .andThen (.andThen (.andThen (.trans (.andThen (.ite ((((((keeps_busRead _ _ _ _ .of).ofSnd e).trans
        (keeps_busWrite _ _ _ _ .of)).ofSnd e1).trans (keeps_setFlds_all _ _ _ rfl)).trans
        (keeps_raiseSource _ _ (by decide))) ((((keeps_busRead _ _ _ _ .of).ofSnd e).trans (keeps_busWrite _ _ _ _ .of)).ofSnd e1))
        (keeps_ownerActs ..)) (keeps_each _ _ (fun _ _ => (keeps_setFolio ..).sub) _)) (keeps_foliosCheck ..))
        (keeps_countGood ..)) (keeps_updStatus ..)

theorem keeps_updEnd (s : State) (st : Nat) : Keeps [.fcl, .sec] false s (updEnd s st) :=
  ((keeps_updStatus ..).sub).trans (keeps_raiseSource _ _ (by decide))

theorem keeps_commit (s : State) (source : Nat) : Keeps [.fcl, .sec] false s (commit s source) := by
  refine .ite ((keeps_updStatus ..).sub) (.ite (((keeps_ownerActs ..).sub).andThen (keeps_updEnd ..)) ?_)
  dsimp only
  split
  · exact ((((keeps_ownerActs ..).sub).trans (keeps_sendFault _ _ _ _ _ _ (by decide))).andThen
      (keeps_stageFree ..)).andThen (keeps_updEnd ..)
  · exact ((keeps_ownerActs ..).sub).trans (.ite ((keeps_stageFree ..).andThen (keeps_updEnd ..)) (.ite
      ((keeps_stageFree ..).andThen (keeps_updEnd ..)) (((keeps_setFlds_all _ _ _ rfl).upd).trans (keeps_raiseSource
      _ _ (by decide)))))

theorem keeps_updCmdWrite (s : State) (value : Word) : Keeps [.fcl, .sec, .bfm, .syc] true s (updCmdWrite s value) := by
  refine .ite (keeps_setFlds_all _ _ _ rfl) ?_
  split
  · exact (keeps_setFlds_all _ _ _ rfl).andThen (keeps_chunk ..)
  · exact (keeps_setFlds_all _ _ _ rfl).andThen (keeps_commit ..)
  · exact (keeps_setFlds_all _ _ _ rfl).trans (.ite (((keeps_stageFree ..).sub).andThen (keeps_updStatus ..))
      ((keeps_updStatus ..).sub))
  · exact (keeps_setFlds_all _ _ _ rfl).andThen (keeps_updStatus ..)

theorem answers_execChunk (value : Word) (s : State) :
    Answers (Keeps [.fcl, .sec, .bfm, .syc] true s) (execChunk value s) := .next (keeps_updCmdWrite ..)

theorem answers_execCommit (value : Word) (s : State) :
    Answers (Keeps [.fcl, .sec, .bfm, .syc] true s) (execCommit value s) := .next (keeps_updCmdWrite ..)

theorem answers_execAbort (value : Word) (s : State) :
    Answers (Keeps [.fcl, .sec, .bfm, .syc] true s) (execAbort value s) := .next (keeps_updCmdWrite ..)

theorem answers_execCommitDone (ok : Bool) (s : State) :
    Answers (Keeps [.fcl, .evr, .sec, .bfm, .syc] true s) (execCommitDone ok s) := by
  unfold execCommitDone
  split
  · exact .next .refl
  · exact .onward (.andThen (.trans (.upd .refl) (keeps_setFlag _ _ _ _ (by decide))) (keeps_stageFree ..)) (.ite
      (.next (.trans (.andThen (.upd .refl) (keeps_updEnd ..)) (keeps_evrEvent _ _ _ _ _ _ _ _ .of (by decide))))
      (.next ((keeps_updEnd ..).sub)))

theorem answers_execStagingIdleTimeout (s : State) :
    Answers (Keeps [.fcl, .sec] false s) (execStagingIdleTimeout s) :=
  .ite (.next (keeps_stageFree ..)) (.next .refl)

theorem keeps_enterDead (s : State) : Keeps [] false s (enterDead s) := .upd .refl

theorem keeps_writeCert (s : State) : Keeps [.fcl, .bfm, .syc] true s (writeCert s) :=
  .ite .refl (keeps_busWrite _ _ _ _ .of)

theorem keeps_deriveAlias (s : State) : Keeps [.fcl, .bfm, .syc] true s (deriveAlias s) :=
  .andThen (.upd .refl) (keeps_writeCert ..)

theorem keeps_bootSlot (s : State) : Keeps [.fcl, .sec, .bfm, .syc, .svc] true s (bootSlot s) := by
  unfold bootSlot
  split
  · exact (keeps_enterDead ..).sub
  · refine .ite ((keeps_enterDead ..).sub) ?_
    split
    · exact (keeps_enterDead ..).sub
    · exact .ite ((keeps_enterDead ..).sub) (((((keeps_setFlds_all _ _ _ rfl).trans (.ite .refl
        ((keeps_setMeas ..).sub))).andThen (keeps_setMeas ..)).upd).andThen (keeps_deriveAlias ..))

theorem answers_execBoot (s : State) : Answers (Keeps [.fcl, .sec, .bfm, .syc, .svc] true s) (execBoot s) :=
  .ite (.next .refl) (.ite (.next (keeps_bootSlot ..)) (.ite (.next ((keeps_enterDead ..).sub)) (.ite (.next (.upd
    .refl)) (.next (keeps_bootSlot ..)))))

theorem answers_execWarmRestart (s : State) :
    Answers (Keeps [.cal, .fcl, .sec, .sht, .lne, .wrp, .svg, .spn, .svc] false s) (execWarmRestart s) :=
  .ite (.next ((((keeps_each _ _ (fun _ _ => (keeps_coreCtlWrite ..).sub) _).trans (keeps_each _ _ (fun _ _ =>
    (keeps_shCtlWrite ..).sub) _)).trans (keeps_setFlag _ _ _ _ (by decide))).upd)) (.next .refl)

theorem acts_confirm (s : State) : Acts [.sec, .mgt] false s (confirm s) := by
  unfold confirm
  exact .ite ((Acts.trans (.upd .refl) (keeps_setFlag _ _ _ _ (by decide)).acts).andThen (keeps_applyLc ..)) .refl

theorem answers_execConfirm (s : State) : Answers (Acts [.sec, .mgt] false s) (execConfirm s) := .next (acts_confirm s)

theorem keeps_failTrial (s : State) : Keeps [.fcl] false s (failTrial s) :=
  .ite (.trans (.upd .refl) (keeps_sendFault _ _ _ _ _ _ (by decide))) .refl

theorem answers_execFail (s : State) : Answers (Keeps [.fcl] false s) (execFail s) := .next (keeps_failTrial ..)

theorem acts_bootCtlWrite (s : State) (value : Word) : Acts [.fcl, .sec, .mgt] false s (bootCtlWrite s value) := by
  unfold bootCtlWrite
  have k : Acts [.fcl, .sec, .mgt] false s (when (bit value 0) confirm s) := .ite (acts_confirm s).sub .refl
  exact k.trans (Acts.ite (keeps_failTrial _).sub.acts .refl)

theorem answers_execTrialTimeout (s : State) : Answers (Keeps [.fcl] false s) (execTrialTimeout s) := by
  unfold execTrialTimeout
  split
  · exact .next (.ite (keeps_failTrial ..) .refl)
  · exact .next .refl

theorem answers_execTrialTimerWarning (s : State) : Answers (Keeps [.fcl] false s) (execTrialTimerWarning s) := by
  unfold execTrialTimerWarning
  split
  · exact .next (.ite (keeps_raiseSource _ _ (by decide)) .refl)
  · exact .next .refl

theorem answers_execTrialFailReset (s : State) : Answers (Keeps [] false s) (execTrialFailReset s) :=
  .ite (.next (.upd .refl)) (.next .refl)

theorem keeps_setKey (s : State) (n : Nat) (k : Option Nat) : Keeps [] false s (setKey s n k) := .upd .refl

theorem keeps_storeBlob (s : State) (n : Nat) (b : Blob) : Keeps [] false s (storeBlob s n b) := .upd .refl

theorem keeps_genKey (s : State) (n : Nat) : Keeps [.ckr, .fcl, .evr, .gly, .bfm, .syc, .flt] true s (genKey s n) :=
  ((((keeps_freshNat ..).sub).andThen (keeps_storeBlob ..)).andThen (keeps_setKey ..)).trans (.ite
    (keeps_fltKeyReplaced ..) .refl)

theorem keeps_unlockKey (s : State) (n : Nat) : Keeps [.fcl] false s (unlockKey s n).2 := by
  unfold unlockKey
  split
  · exact .iteSnd ((keeps_setKey ..).sub) (keeps_sendFault _ _ _ _ _ _ (by decide))
  · exact keeps_sendFault _ _ _ _ _ _ (by decide)

theorem keeps_rewrapKey (s : State) (n : Nat) : Keeps [] false s (rewrapKey s n).2 := by
  unfold rewrapKey
  split
  · exact keeps_storeBlob ..
  · exact .refl

theorem keeps_keyCmdWrite (s : State) (value : Word) :
    Keeps [.ckr, .fcl, .evr, .sec, .gly, .bfm, .syc, .flt] true s (keyCmdWrite s value) := by
  refine .ite (keeps_setFlds_all _ _ _ rfl) (.trans (.trans (.iteSnd (keeps_setFlds_all _ _ _ rfl) (.iteSnd
    (keeps_setFlds_all _ _ _ rfl) ?_)) (keeps_setFld _ _ _ _ (by decide))) (keeps_raiseSource _ _ (by decide)))
  split
  · exact (keeps_setFlds_all _ _ _ rfl).andThen (keeps_genKey ..)
  · exact (keeps_setFlds_all _ _ _ rfl).andThen (keeps_unlockKey ..)
  · exact (keeps_setFlds_all _ _ _ rfl).andThen (keeps_setKey ..)
  · exact (keeps_setFlds_all _ _ _ rfl).andThen (keeps_rewrapKey ..)

theorem answers_execGenkey (value : Word) (s : State) :
    Answers (Keeps [.ckr, .fcl, .evr, .sec, .gly, .bfm, .syc, .flt] true s) (execGenkey value s) :=
  .next (keeps_keyCmdWrite ..)

theorem answers_execUnlock (value : Word) (s : State) :
    Answers (Keeps [.ckr, .fcl, .evr, .sec, .gly, .bfm, .syc, .flt] true s) (execUnlock value s) :=
  .next (keeps_keyCmdWrite ..)

theorem answers_execLock (value : Word) (s : State) :
    Answers (Keeps [.ckr, .fcl, .evr, .sec, .gly, .bfm, .syc, .flt] true s) (execLock value s) :=
  .next (keeps_keyCmdWrite ..)

theorem answers_execRewrap (value : Word) (s : State) :
    Answers (Keeps [.ckr, .fcl, .evr, .sec, .gly, .bfm, .syc, .flt] true s) (execRewrap value s) :=
  .next (keeps_keyCmdWrite ..)

theorem keeps_rangeWrite (s : State) (i : Nat) (value : Word) : Keeps [.sec] false s (rangeWrite s i value) :=
  .ite .refl (.ite .refl (keeps_wr _ _ _ _ (by decide)))

theorem answers_execRangeWrite (i : Nat) (value : Word) (s : State) :
    Answers (Keeps [.sec] false s) (execRangeWrite i value s) := .next (keeps_rangeWrite ..)

theorem keeps_rangeLenWrite (s : State) (i : Nat) (value : Word) : Keeps [.sec] false s (rangeLenWrite s i value) :=
  .ite .refl (.ite .refl (keeps_setFld _ _ _ _ (by decide)))

theorem keeps_signCmdWrite (s : State) (value : Word) : Keeps [.fcl, .sec] false s (signCmdWrite s value) :=
  .ite .refl (.ite ((keeps_setFld _ _ _ _ (by decide)).trans (keeps_raiseSource _ _ (by decide))) (((keeps_each _ _
    (fun _ _ => keeps_wr _ _ _ _ (by decide)) _).trans (keeps_setFld _ _ _ _ (by decide))).trans (keeps_raiseSource
    _ _ (by decide))))

theorem answers_execSign (value : Word) (s : State) : Answers (Keeps [.fcl, .sec] false s) (execSign value s) :=
  .next (keeps_signCmdWrite ..)

theorem keeps_nonceRead (s : State) : Keeps [] false s (nonceRead s) :=
  ((keeps_freshWord ..).upd).trans (keeps_answer ..)

theorem answers_execSecNonceRead (s : State) : Answers (Keeps [] false s) (execSecNonceRead s) :=
  .next (keeps_nonceRead ..)

theorem keeps_tokenCheck (s : State) (purpose : Nat) (admin : Bool) :
    Keeps [.fcl, .bfm, .syc] true s (tokenCheck s purpose admin).2 := by
  unfold tokenCheck
  split
  · rename_i e
    exact (keeps_busRead _ _ _ _ .of).ofSnd e
  · rename_i e
    exact (keeps_busRead _ _ _ _ .of).ofSnd e

theorem keeps_wipeSram (s : State) : Keeps [.sht] true s (wipeSram s) :=
  ((((keeps_wipeCaches ..).sub).trans (keeps_wr _ _ _ _ (by decide))).trans (keeps_each _ _ (fun _ _ => keeps_wr _ _
    _ _ (by decide)) _)).upd

theorem acts_lcGo (s : State) (src dst : Nat) : Acts [.sec, .mgt, .sht] true s (lcGo s src dst) := by
  have k (o : Otp) : Acts [.sec, .mgt, .sht] true s (wipeDram (wipeSram (applyLc (setOtp s o)))) :=
    (((acts_setOtp ..).sub.andThen (keeps_applyLc ..)).andThen (keeps_wipeSram ..)).andThen (keeps_wipeDram ..)
  unfold lcGo
  exact .upd (.ite ((k _).upd.andThen (keeps_applyLc ..)) (k _))

theorem keeps_lcDone (s : State) (st : Nat) : Keeps [.fcl, .sec] false s (lcDone s st) :=
  .trans (.trans (.ite .refl (keeps_sendFault _ _ _ _ _ _ (by decide))) (keeps_setFld _ _ _ _ (by decide)))
    (keeps_raiseSource _ _ (by decide))

theorem acts_lcRequest (s : State) (dst : Nat) : Acts [.fcl, .sec, .mgt, .sht, .bfm, .syc] true s (lcRequest s dst) := by
  have done {t : State} (h : Acts [.fcl, .sec, .mgt, .sht, .bfm, .syc] true s t) (st : Nat) :
      Acts [.fcl, .sec, .mgt, .sht, .bfm, .syc] true s (lcDone t st) := h.andThen (keeps_lcDone ..)
  unfold lcRequest
  dsimp only
  split
  · exact done .refl _
  · refine .ite (done .refl _) ?_
    split
    · exact done (acts_lcGo ..).sub _
    · exact .ite (done ((acts_lcGo ..).before (keeps_tokenCheck ..).sub) _) (done (keeps_tokenCheck ..).sub.acts _)

theorem keeps_repairRequest (s : State) (discard : Bool) :
    Keeps [.ckr, .fcl, .evr, .sec, .hdl, .bfm, .syc, .flt] true s (repairRequest s discard) :=
  .ite ((keeps_lcDone ..).sub) (.ite ((keeps_lcDone ..).sub) (((keeps_tokenCheck ..).sub).trans (.ite
    (((keeps_acceptRepair ..).sub).andThen (keeps_lcDone ..)) ((keeps_lcDone ..).sub))))

theorem acts_lcReqWrite (s : State) (value : Word) :
    Acts [.ckr, .fcl, .evr, .sec, .mgt, .sht, .hdl, .bfm, .syc, .flt] true s (lcReqWrite s value) := by
  have k : Keeps [.ckr, .fcl, .evr, .sec, .mgt, .sht, .hdl, .bfm, .syc, .flt] true s (setFlds s 0
      [(F.SEC_LC_REQ_TARGET, getBits value 0 3), (F.SEC_LC_REQ_DISCARD_DIRTY, getBits value 3 1)]) :=
    keeps_setFlds_all _ _ _ rfl
  exact .ite k.acts (.ite (k.andThen (keeps_repairRequest ..)).acts ((acts_lcRequest ..).before k))

theorem answers_execLifecycleTransition (value : Word) (s : State) :
    Answers (Acts [.ckr, .fcl, .evr, .sec, .mgt, .sht, .hdl, .bfm, .syc, .flt] true s)
      (execLifecycleTransition value s) := .ite (.next .refl) (.next (acts_lcReqWrite ..))

theorem answers_execRepair (value : Word) (s : State) :
    Answers (Acts [.ckr, .fcl, .evr, .sec, .mgt, .sht, .hdl, .bfm, .syc, .flt] true s) (execRepair value s) :=
  .next (acts_lcReqWrite ..)

theorem keeps_patchDone (s : State) (st : Nat) :
    Keeps [.fcl, .evr, .sec, .sht, .bfm, .syc] true s (patchDone s st) :=
  (((keeps_setFld _ _ _ _ (by decide)).trans (keeps_setFld _ _ _ _ (by decide))).trans (.ite .refl (keeps_sendFault
    _ _ _ _ _ _ (by decide)))).trans (keeps_evrEvent _ _ _ _ _ _ _ _ .of (by decide))

theorem keeps_patchWrite (s : State) (b : PatchBlob) : Keeps [.sec, .sht] false s (patchWrite s b) :=
  (((keeps_each _ _ (fun _ _ => keeps_wr _ _ _ _ (by decide)) _).trans (keeps_setFlds_all _ _ _ rfl)).andThen
    (keeps_setMeas ..)).upd

theorem answers_execPatchLoad (value : Word) (sigOk tagOk : Bool) (blob : PatchBlob) (s : State) :
    Answers (Keeps [.fcl, .evr, .sec, .sht, .bfm, .syc] true s) (execPatchLoad value sigOk tagOk blob s) :=
  .ite (.next .refl) (.ite (.next (keeps_patchDone ..)) (.ite (.next (keeps_patchDone ..)) (.ite (.next
    (keeps_patchDone ..)) (.next (((keeps_patchWrite ..).sub).andThen (keeps_patchDone ..))))))

theorem keeps_itemStatus (s : State) (n st : Nat) : Keeps [.cal] false s (itemStatus s n st) :=
  keeps_setFld _ _ _ _ (by decide)

theorem keeps_calCmdWrite (s : State) (value : Word) : Keeps [.cal] false s (calCmdWrite s value) :=
  (keeps_setFld _ _ _ _ (by decide)).trans (.ite .refl ((keeps_setFld _ _ _ _ (by decide)).trans (.ite (.upd .refl)
    .refl)))

theorem answers_execCalRequest (value : Word) (s : State) :
    Answers (Keeps [.cal] false s) (execCalRequest value s) := .next (keeps_calCmdWrite ..)

theorem answers_execCalStart (owner : Nat) (s : State) : Answers (Keeps [.cal] false s) (execCalStart owner s) := by
  unfold execCalStart
  split
  · exact .next (.trans (.upd .refl) (.ite (.upd .refl) (keeps_itemStatus ..)))
  · exact .next .refl

theorem answers_execBackgroundCalibration (lane : Nat) (s : State) :
    Answers (Keeps [] false s) (execBackgroundCalibration lane s) := .next (.ite (.upd .refl) .refl)

theorem answers_execCalRunDone (item : Nat) (first second spare : List Int) (s : State) :
    Answers (Keeps [.cal, .fcl, .lne, .wrp, .svg, .spn] false s) (execCalRunDone item first second spare s) := by
  refine .ite (.next .refl) ?_
  split
  · exact .next (.trans (.upd .refl) (.ite .refl ((((keeps_itemStatus ..).sub).trans (keeps_bump _ _ _ _ (by
      decide))).trans (keeps_sendFault _ _ _ _ _ _ (by decide)))))
  · exact .next (.trans (.andThen (.upd (.trans (.upd .refl) (.ite .refl ((((keeps_itemStatus ..).sub).trans
      (keeps_bump _ _ _ _ (by decide))).trans (keeps_sendFault _ _ _ _ _ _ (by decide)))))) (keeps_itemStatus ..))
      (.ite (keeps_calBoundary ..) .refl))

theorem answers_execCalTimeout (item : Nat) (s : State) :
    Answers (Keeps [.cal, .fcl] false s) (execCalTimeout item s) :=
  .ite (.next (.trans (.trans (.andThen (.upd .refl) (keeps_itemStatus ..)) (keeps_bump _ _ _ _ (by decide)))
    (keeps_sendFault _ _ _ _ _ _ (by decide)))) (.next .refl)

theorem keeps_calBlockReset (s : State) : Keeps [.ckr, .cal] false s (calBlockReset s) :=
  ((((keeps_calDrop ..).sub).trans (keeps_each _ _ (fun _ _ => (keeps_abandoned ..).sub) _)).upd).trans
    (keeps_setFlag _ _ _ _ (by decide))

theorem answers_execCalBlockReset (s : State) : Answers (Keeps [.ckr, .cal] false s) (execCalBlockReset s) :=
  .next (keeps_calBlockReset ..)

theorem keeps_setChan (s : State) (n : Nat) (c : Chan) : Keeps [] false s (setChan s n c) := .upd .refl

theorem keeps_chGo (s : State) (n st : Nat) : Keeps [.dma] false s (chGo s n st) :=
  keeps_setFld _ _ _ _ (by decide)

theorem keeps_chRest (s : State) (n : Nat) : Keeps [.dma] false s (chRest s n) := keeps_chGo ..

theorem keeps_headOn (s : State) (n : Nat) : Keeps [.dma] false s (headOn s n) := keeps_setFld _ _ _ _ (by decide)

theorem keeps_pointAt (s : State) (n : Nat) (d : DmaDesc) (k : Nat) : Keeps [.dma] false s (pointAt s n d k) :=
  ((keeps_setFld _ _ _ _ (by decide)).trans (keeps_wr _ _ _ _ (by decide))).trans (keeps_wr _ _ _ _ (by decide))

theorem keeps_writeWord4 (s : State) (n ring status errBeat : Nat) :
    Keeps [.fcl, .bfm, .syc] true s (writeWord4 s n ring status errBeat) := keeps_busWriteWord ..

theorem keeps_chHalt (s : State) (n : Nat) (d : DmaDesc) (status beat : Nat) :
    Keeps [.fcl, .bfm, .syc, .dma] true s (chHalt s n d status beat) :=
  (((((((keeps_pointAt ..).sub).andThen (keeps_writeWord4 ..)).trans (keeps_setFlds_all _ _ _ rfl)).trans
    (keeps_bump _ _ _ _ (by decide))).trans (keeps_bump _ _ _ _ (by decide))).andThen (keeps_setChan ..)).trans
    (keeps_raiseSource _ _ (by decide))

theorem keeps_chRefuse (s : State) (n ring status : Nat) :
    Keeps [.fcl, .bfm, .syc, .dma] true s (chRefuse s n ring status) :=
  (((((((keeps_writeWord4 ..).sub).trans (keeps_setFlds_all _ _ _ rfl)).trans (keeps_bump _ _ _ _ (by
    decide))).trans (keeps_bump _ _ _ _ (by decide))).andThen (keeps_headOn ..)).andThen (keeps_chGo ..)).trans
    (keeps_raiseSource _ _ (by decide))

theorem keeps_lateError (s : State) (n ring addr : Nat) :
    Keeps [.fcl, .evr, .bfm, .syc, .dma] true s (lateError s n ring addr) :=
  (((keeps_evrEvent _ _ _ _ _ _ _ _ .of (by decide)).trans (.ite (keeps_setFlag _ _ _ _ (by decide))
    (keeps_setFlds_all _ _ _ rfl))).trans (keeps_bump _ _ _ _ (by decide))).trans (keeps_raiseSource _ _ (by
    decide))

theorem keeps_chSettle (s : State) (n : Nat) :
    Keeps [.ckr, .fcl, .evr, .gly, .bfm, .syc, .dma] true s (chSettle s n) := by
  unfold chSettle
  dsimp only
  split
  · exact .refl
  · refine .ite .refl (.ite .refl ?_)
    split
    · refine .ite ?_ .refl
      split
      · exact ((keeps_chHalt ..).sub).andThen (keeps_descFinished ..)
      · exact (keeps_chHalt ..).sub
    · split
      · refine .ite ?_ .refl
        split
        · exact ((keeps_chHalt ..).sub).andThen (keeps_descFinished ..)
        · exact (keeps_chHalt ..).sub
      · exact .ite (((keeps_pointAt ..).sub).andThen (keeps_chGo ..)) .refl

theorem keeps_beatFailed (s : State) (n k status : Nat) : Keeps [] false s (beatFailed s n k status) :=
  keeps_setChan ..

theorem answers_execReadResponse (n res : Nat) (data : List Byte) (s : State) :
    Answers (Keeps [.ckr, .fcl, .evr, .hfe, .gly, .bfm, .syc, .dma] true s) (execReadResponse n res data s) := by
  have guard (b : Bool) (f : Fld) (h : f.reg.info.block = .hfe) : Keeps [.fcl, .hfe] false s
      (if b then raiseSource (bump s f) 133 else s) :=
    .ite ((keeps_bump _ _ _ _ (by rw [h]; decide)).trans (keeps_raiseSource _ _ (by decide))) .refl
  unfold execReadResponse
  extract_lets c
  split
  · extract_lets u got t
    have counted : Keeps [.fcl, .hfe] false s u := by
      unfold u
      split
      · exact guard _ _ rfl
      · exact guard _ _ rfl
      · exact guard _ _ rfl
      · exact .refl
    have taken : Keeps [.ckr, .fcl, .evr, .hfe, .gly, .bfm, .syc, .dma] true s t := counted.sub.andThen (keeps_setChan ..)
    clear_value got
    split
    · exact .ite (.next (taken.andThen (keeps_chSettle ..)))
        (.next ((taken.andThen (keeps_setChan ..)).andThen (keeps_chSettle ..)))
    · exact .next ((taken.andThen (keeps_beatFailed ..)).andThen (keeps_chSettle ..))
  · exact .next .refl

theorem keeps_tailDone (s : State) (x : DmaTail) :
    Keeps [.ckr, .fcl, .evr, .gly, .bfm, .syc] true s (tailDone s x) := by
  unfold tailDone
  split
  · exact keeps_descFinished ..
  · exact .refl

theorem answers_execWriteResponse (n res : Nat) (s : State) :
    Answers (Keeps [.ckr, .fcl, .evr, .hfe, .gly, .bfm, .syc, .dma] true s) (execWriteResponse n res s) := by
  have guard (b : Bool) (f : Fld) (h : f.reg.info.block = .hfe) : Keeps [.fcl, .hfe] false s
      (if b then raiseSource (bump s f) 133 else s) :=
    .ite ((keeps_bump _ _ _ _ (by rw [h]; decide)).trans (keeps_raiseSource _ _ (by decide))) .refl
  unfold execWriteResponse
  extract_lets c
  split
  · split
    · extract_lets good y t
      have late : Keeps [.ckr, .fcl, .evr, .hfe, .gly, .bfm, .syc, .dma] true s t := .ite .refl (keeps_lateError ..).sub
      exact .ite
        (.next (((late.andThen (keeps_setChan ..)).andThen (keeps_tailDone ..)).andThen (keeps_chSettle ..)))
        (.next (late.andThen (keeps_setChan ..)))
    · exact .next (keeps_setChan ..).sub
  · split
    · extract_lets u good t
      have counted : Keeps [.fcl, .hfe] false s u := by
        unfold u
        split
        · exact guard _ _ rfl
        · exact guard _ _ rfl
        · exact guard _ _ rfl
        · exact .refl
      have taken : Keeps [.ckr, .fcl, .evr, .hfe, .gly, .bfm, .syc, .dma] true s t := counted.sub.andThen (keeps_setChan ..)
      exact .next (.andThen (.ite taken (taken.andThen (keeps_beatFailed ..))) (keeps_chSettle ..))
    · exact .next .refl

theorem answers_execDescriptorDone (n : Nat) (s : State) :
    Answers (Keeps [.ckr, .fcl, .evr, .gly, .bfm, .syc, .dma] true s) (execDescriptorDone n s) := by
  unfold execDescriptorDone
  dsimp only
  split
  · exact .next .refl
  · exact .ite (.onward (((((((((keeps_pointAt ..).sub).andThen (keeps_writeWord4 ..)).trans
      (keeps_setFld _ _ _ _ (by decide))).trans (keeps_bump _ _ _ _ (by decide))).andThen (keeps_headOn ..)).trans (.ite
      (keeps_raiseSource _ _ (by decide)) .refl)).andThen (keeps_setChan ..)).trans (.ite ((keeps_tailDone ..).sub)
      .refl)) (.ite (.next ((keeps_chGo ..).sub)) (.ite (.next ((keeps_chGo ..).sub)) (.next
      ((keeps_chGo ..).sub))))) (.next .refl)

theorem answers_execDescriptorQueue (n : Nat) (value : Word) (s : State) :
    Answers (Keeps [.dma] false s) (execDescriptorQueue n value s) :=
  .ite (.next .refl) (.next (keeps_setFld _ _ _ _ (by decide)))

theorem answers_execDescriptorFetch (n : Nat) (s : State) :
    Answers (Keeps [.fcl, .bfm, .syc, .dma] true s) (execDescriptorFetch n s) := by
  refine .ite (.next .refl) ?_
  split
  · rename_i e
    exact .next (((keeps_busRead _ _ _ _ .of).ofSnd e).andThen (keeps_chHalt ..))
  · rename_i e
    refine .ite (.next ((((keeps_busRead _ _ _ _ .of).ofSnd e).andThen (keeps_busWriteWord ..)).andThen
      (keeps_chRefuse ..))) (.ite (.next (((((keeps_busRead _ _ _ _ .of).ofSnd e).andThen
      (keeps_busWriteWord ..)).andThen (keeps_chHalt ..)).andThen (keeps_setChan ..))) (.next (.andThen (.andThen (.andThen ?_
      (keeps_setChan ..)) (keeps_pointAt ..)) (keeps_chGo ..))))
    split
    · exact (((keeps_busRead _ _ _ _ .of).ofSnd e).andThen (keeps_busWriteWord ..)).andThen (keeps_descQueued ..)
    · exact ((keeps_busRead _ _ _ _ .of).ofSnd e).andThen (keeps_busWriteWord ..)

theorem keeps_dmaCfgWrite (s : State) (n : Nat) (value : Word) :
    Keeps [.ckr, .fcl, .evr, .gly, .bfm, .syc, .dma] true s (dmaCfgWrite s n value) := by
  refine .ite .refl (.ite ((keeps_setFlds_all _ _ _ rfl).trans (.ite ((keeps_setFlag _ _ _ _ (by decide)).andThen
    (keeps_chRest ..)) .refl)) (.ite ?_ (keeps_setFlds_all _ _ _ rfl)))
  dsimp only
  split
  · split
    · exact ((((keeps_setFlds_all _ _ _ rfl).trans (keeps_setFlag _ _ _ _ (by decide))).andThen
        (keeps_chGo ..)).andThen (keeps_setChan ..)).andThen (keeps_descFinished ..)
    · exact (((keeps_setFlds_all _ _ _ rfl).trans (keeps_setFlag _ _ _ _ (by decide))).andThen
        (keeps_chGo ..)).andThen (keeps_setChan ..)
  · exact (((keeps_setFlds_all _ _ _ rfl).trans (keeps_setFlag _ _ _ _ (by decide))).andThen
      (keeps_chGo ..)).andThen (keeps_setChan ..)

theorem answers_execChannelEnable (n : Nat) (value : Word) (s : State) :
    Answers (Keeps [.ckr, .fcl, .evr, .gly, .bfm, .syc, .dma] true s) (execChannelEnable n value s) :=
  .next (keeps_dmaCfgWrite ..)

theorem answers_execChannelDisable (n : Nat) (value : Word) (s : State) :
    Answers (Keeps [.ckr, .fcl, .evr, .gly, .bfm, .syc, .dma] true s) (execChannelDisable n value s) :=
  .next (keeps_dmaCfgWrite ..)

theorem keeps_dmaPause (s : State) (n : Nat) (b : Bool) :
    Keeps [.ckr, .fcl, .evr, .gly, .bfm, .syc, .dma] true s (dmaPause s n b) :=
  (keeps_setFlag _ _ _ _ (by decide)).trans (.ite (.ite ((keeps_chGo ..).sub) (.ite (.ite ((keeps_chGo ..).sub)
    (((keeps_chGo ..).sub).andThen (keeps_chSettle ..))) .refl)) (.ite (((keeps_chGo ..).sub).andThen
    (keeps_chSettle ..)) .refl))

theorem keeps_dmaClear (s : State) (n : Nat) : Keeps [.dma] false s (dmaClear s n) :=
  .ite ((((keeps_setChan ..).sub).andThen (keeps_headOn ..)).andThen (keeps_chRest ..)) .refl

theorem keeps_dmaRetry (s : State) (n : Nat) :
    Keeps [.ckr, .fcl, .evr, .gly, .bfm, .syc, .dma] true s (dmaRetry s n) := by
  refine .ite ?_ .refl
  split
  · dsimp only
    split
    · exact (keeps_chGo ..).sub
    · refine .ite (((keeps_setChan ..).sub).andThen (keeps_chGo ..)) (.andThen ?_ (keeps_chSettle ..))
      split
      · exact (((keeps_setChan ..).sub).andThen (keeps_chGo ..)).trans (.ite ((keeps_descQueued ..).sub) .refl)
      · exact ((keeps_setChan ..).sub).andThen (keeps_chGo ..)
  · dsimp only
    split
    · exact (keeps_chGo ..).sub
    · refine .ite (((keeps_setChan ..).sub).andThen (keeps_chGo ..)) (.andThen ?_ (keeps_chSettle ..))
      split
      · exact (((keeps_setChan ..).sub).andThen (keeps_chGo ..)).trans (.ite ((keeps_descQueued ..).sub) .refl)
      · exact ((keeps_setChan ..).sub).andThen (keeps_chGo ..)

theorem keeps_dmaCtlWrite (s : State) (n : Nat) (value : Word) :
    Keeps [.ckr, .fcl, .evr, .gly, .bfm, .syc, .dma] true s (dmaCtlWrite s n value) :=
  .ite .refl (((keeps_when _ _ _ (fun _ => (keeps_dmaClear ..).sub)).trans (keeps_when _ _ _ (fun _ =>
    keeps_dmaRetry ..))).andThen (keeps_dmaPause ..))

theorem answers_execPause (n : Nat) (value : Word) (s : State) :
    Answers (Keeps [.ckr, .fcl, .evr, .gly, .bfm, .syc, .dma] true s) (execPause n value s) :=
  .next (keeps_dmaCtlWrite ..)

theorem answers_execChannelClear (n : Nat) (value : Word) (s : State) :
    Answers (Keeps [.ckr, .fcl, .evr, .gly, .bfm, .syc, .dma] true s) (execChannelClear n value s) :=
  .next (keeps_dmaCtlWrite ..)

theorem answers_execChannelRetry (n : Nat) (value : Word) (s : State) :
    Answers (Keeps [.ckr, .fcl, .evr, .gly, .bfm, .syc, .dma] true s) (execChannelRetry n value s) :=
  .next (keeps_dmaCtlWrite ..)

theorem keeps_chStop (s : State) (n status : Nat) (discard : Bool) :
    Keeps [.ckr, .fcl, .evr, .gly, .bfm, .syc, .dma] true s (chStop s n status discard) := by
  unfold chStop
  split
  · dsimp only
    split
    · exact .refl
    · exact .ite .refl ((((keeps_setChan ..).sub).trans (.ite ((keeps_chGo ..).sub) .refl)).andThen
        (keeps_chSettle ..))
  · dsimp only
    split
    · exact .refl
    · exact .ite .refl ((((keeps_setChan ..).sub).trans (.ite ((keeps_chGo ..).sub) .refl)).andThen
        (keeps_chSettle ..))

theorem answers_execDmaBlockReset (e : Nat) (s : State) :
    Answers (Keeps [.ckr, .fcl, .evr, .gly, .bfm, .syc, .dma] true s) (execDmaBlockReset e s) :=
  .ite (.next .refl) (.next (((keeps_each _ _ (fun _ _ => keeps_chStop ..) _).upd).trans (keeps_setFld _ _ _ _ (by
    decide))))

theorem keeps_dmaSafe (s : State) : Keeps [.ckr, .fcl, .evr, .gly, .bfm, .syc, .dma] true s (dmaSafe s) :=
  keeps_each _ _ (fun _ _ => keeps_chStop ..) _

theorem keeps_dmaPowerLoss (s : State) : Keeps [.ckr, .fcl, .evr, .gly, .bfm, .syc, .dma] true s (dmaPowerLoss s) := by
  refine keeps_each _ _ (fun _ _ => ?_) _
  split
  · exact .ite (keeps_chStop ..) .refl
  · exact .refl

theorem keeps_loomInject (s : State) (w : Word) : Keeps [.loom] false s (loomInject s w) :=
  .ite (.upd .refl) (keeps_setFlag _ _ _ _ (by decide))

theorem answers_execLoomInject (value : Word) (s : State) :
    Answers (Keeps [.loom] false s) (execLoomInject value s) := .next (keeps_loomInject ..)

theorem keeps_loomPush (s : State) (e : Nat) (w : Word) : Keeps [.loom] false s (loomPush s e w) := by
  unfold loomPush
  split
  · exact .refl
  · split
    · rename_i q
      split at q
      · exact (keeps_dequePush q).sub
      · cases q
    · exact keeps_setFlag _ _ _ _ (by decide)

theorem answers_execLoomPush (e : Nat) (value : Word) (s : State) :
    Answers (Keeps [.loom] false s) (execLoomPush e value s) := .next (keeps_loomPush ..)

theorem keeps_loomTake (s : State) (c e : Nat) : Keeps [] false s (loomTake s c e) := by
  refine .ite (keeps_answer ..) ?_
  split
  · exact (keeps_setDeque ..).trans (keeps_answer ..)
  · refine .ite ?_ (keeps_answer ..)
    split
    · exact keeps_answer ..
    · split
      · exact ((keeps_setDeque ..).upd).trans (keeps_answer ..)
      · exact keeps_answer ..

theorem answers_execLoomTake (c e : Nat) (s : State) : Answers (Keeps [] false s) (execLoomTake c e s) :=
  .next (keeps_loomTake ..)

theorem keeps_setBarrier (s : State) (b : Nat) (l : List (Nat × Word)) : Keeps [] false s (setBarrier s b l) :=
  .upd .refl

theorem keeps_arrive (s : State) (b e : Nat) (v : Word) : Keeps [] false s (arrive s b e v) := keeps_setBarrier ..

theorem keeps_coreArrive (s : State) (c b : Nat) (v : Word) : Keeps [] false s (coreArrive s c b v) :=
  .ite (keeps_arrive ..) .refl

theorem answers_execLoomBarArrive (c b : Nat) (value : Word) (s : State) :
    Answers (Keeps [] false s) (execLoomBarArrive c b value s) := .next (keeps_coreArrive ..)

theorem keeps_barrierEnd (s : State) (b : Nat) (v : Word) (status : Nat) :
    Keeps [.fcl, .loom] false s (barrierEnd s b v status) := by
  refine ((((keeps_each _ _ (fun _ _ => ?_) _).andThen (keeps_setBarrier ..)).trans (keeps_setFld _ _ _ _ (by
    decide))).trans (keeps_setFlag _ _ _ _ (by decide))).trans (keeps_raiseSource _ _ (by decide))
  dsimp only
  split
  · exact .ite (keeps_setSht ..) .refl
  · exact .refl

theorem answers_execBarrierRelease (b : Nat) (s : State) :
    Answers (Keeps [.fcl, .loom] false s) (execBarrierRelease b s) :=
  .ite (.next ((keeps_barrierEnd ..).trans (keeps_wr _ _ _ _ (by decide)))) (.next .refl)

theorem answers_execBarrierTimeout (b : Nat) (s : State) :
    Answers (Keeps [.fcl, .loom] false s) (execBarrierTimeout b s) :=
  .ite (.next (keeps_barrierEnd ..)) (.next .refl)

theorem keeps_barCfgWrite (s : State) (b : Nat) (value : Word) : Keeps [.loom] false s (barCfgWrite s b value) :=
  .ite .refl (.ite (keeps_setFlag _ _ _ _ (by decide)) (keeps_setFlds_all _ _ _ rfl))

theorem answers_execLoomBarCfgWrite (b : Nat) (value : Word) (s : State) :
    Answers (Keeps [.loom] false s) (execLoomBarCfgWrite b value s) := .next (keeps_barCfgWrite ..)

theorem keeps_loomBlockReset (s : State) : Keeps [.ckr, .fcl, .loom] false s (loomBlockReset s) :=
  ((keeps_each _ _ (fun _ _ => .ite ((keeps_barrierEnd ..).sub) .refl) _).upd).trans (keeps_setFlag _ _ _ _ (by
    decide))

theorem answers_execLoomBlockReset (s : State) :
    Answers (Keeps [.ckr, .fcl, .loom] false s) (execLoomBlockReset s) := .next (keeps_loomBlockReset ..)

theorem keeps_xorSources (w : List Word) (off n : Nat) : ∀ s : State,
    Keeps [.fcl, .bfm, .syc] true s (xorSources w off n s).2 := by
  induction n with
  | zero => exact fun s => .refl
  | succ n ih =>
    intro s
    unfold xorSources
    split
    · rename_i e
      exact (ih s).ofSnd e
    · rename_i e
      have k := (ih s).ofSnd e
      split
      · rename_i e
        exact k.trans ((keeps_busRead _ _ _ _ .of).ofSnd e)
      · rename_i e
        exact k.trans ((keeps_busRead _ _ _ _ .of).ofSnd e)

theorem keeps_weaveLine (s : State) (r : WeaveRun) : Keeps [.fcl, .bfm, .syc] true s (weaveLine s r).2 := by
  unfold weaveLine
  dsimp only
  split
  · rename_i e
    exact (keeps_xorSources _ _ _ _).ofSnd e
  · rename_i x t e
    have k := (keeps_xorSources _ _ _ _).ofSnd e
    exact .iteSnd (k.trans (.iteSnd (keeps_busWrite _ _ _ _ .of) .refl)) (.iteSnd k
      (k.trans (.iteSnd (keeps_busWrite _ _ _ _ .of) .refl)))

theorem keeps_weaveLines (n : Nat) : ∀ (r : WeaveRun) (s : State),
    Keeps [.fcl, .bfm, .syc] true s (weaveLines n r s).2 := by
  induction n with
  | zero => exact fun _ s => .refl
  | succ n ih => exact fun r s => .iteSnd .refl ((keeps_weaveLine s r).trans (ih _ _))

theorem keeps_weaveFetch {s : State} {y : WeaveRun × State} (h : weaveFetch s = some y) :
    Keeps [.fcl, .bfm, .syc, .ofl] true s y.2 := by
  unfold weaveFetch at h
  split at h
  · cases h
  · split at h
    · rename_i e
      cases h
      exact ((keeps_busRead _ _ _ _ .of).ofSnd e).trans (keeps_setFlag _ _ _ _ (by decide))
    · rename_i e
      cases h
      exact ((keeps_busRead _ _ _ _ .of).ofSnd e).trans (keeps_setFlag _ _ _ _ (by decide))

theorem keeps_weaveRun (s : State) (op lines : Nat) : Keeps [.fcl, .bfm, .syc, .ofl] true s (weaveRun s op lines) := by
  unfold weaveRun
  dsimp only
  split
  · exact .refl
  · rename_i r t e
    have k : Keeps [.fcl, .bfm, .syc, .ofl] true s t := by
      split at e
      · cases e
        exact .refl
      · exact keeps_weaveFetch e
    exact .ite .refl (k.andThen (keeps_weaveLines _ _ _)).upd

theorem answers_execWeaveXor (lines : Nat) (s : State) :
    Answers (Keeps [.fcl, .bfm, .syc, .ofl] true s) (execWeaveXor lines s) := .next (keeps_weaveRun ..)

theorem answers_execCheck (lines : Nat) (s : State) :
    Answers (Keeps [.fcl, .bfm, .syc, .ofl] true s) (execCheck lines s) := .next (keeps_weaveRun ..)

theorem answers_execCompare (lines : Nat) (s : State) :
    Answers (Keeps [.fcl, .bfm, .syc, .ofl] true s) (execCompare lines s) := .next (keeps_weaveRun ..)

theorem keeps_nextRecord (s : State) (r : CarderRun) : Keeps [.fcl, .bfm, .syc] true s (nextRecord s r).2 := by
  have pre (src p left : Nat) (x : Nat × Nat) : Keeps [.fcl, .bfm, .syc] true s (if p = 0 then (some x, s)
      else if left < p then (some (0, 0), s)
      else match busRead s portOfl src p with
        | (none, t) => (none, t)
        | (some l, t) => (some (if leNat l = 0 then (0, 0) else (p + leNat l, (p + leNat l + 7) / 8 * 8)), t)).2 := by
    refine .iteSnd .refl (.iteSnd .refl ?_)
    split
    · rename_i e
      exact (keeps_busRead _ _ _ _ .of).ofSnd e
    · rename_i e
      exact (keeps_busRead _ _ _ _ .of).ofSnd e
  unfold nextRecord
  dsimp only
  split
  · rename_i e
    exact (pre _ _ _ _).ofSnd e
  · rename_i e
    have k := (pre _ _ _ _).ofSnd e
    refine .iteSnd k ?_
    split
    · rename_i e
      exact k.trans ((keeps_busRead _ _ _ _ .of).ofSnd e)
    · rename_i e
      exact k.trans ((keeps_busRead _ _ _ _ .of).ofSnd e)

theorem keeps_recordOut (s : State) (r : CarderRun) (ext : Nat) :
    Keeps [.fcl, .bfm, .syc] true s (recordOut s r ext).2 := .iteSnd .refl (keeps_busRead _ _ _ _ .of)

theorem keeps_scanRecord (s : State) (r : CarderRun) : Keeps [.fcl, .bfm, .syc] true s (scanRecord s r).2 := by
  refine .iteSnd .refl ?_
  split
  · rename_i e
    exact (keeps_nextRecord ..).ofSnd e
  · rename_i e
    refine .iteSnd ((keeps_nextRecord ..).ofSnd e) ?_
    split
    · rename_i e1
      exact (((keeps_nextRecord ..).ofSnd e).andThen (keeps_recordOut ..)).ofSnd e1
    · rename_i e1
      exact .iteSnd ((((keeps_nextRecord ..).ofSnd e).andThen (keeps_recordOut ..)).ofSnd e1) (.iteSnd
        (((((keeps_nextRecord ..).ofSnd e).andThen (keeps_recordOut ..)).ofSnd e1).trans (keeps_busWrite _ _ _ _
        .of)) (((((keeps_nextRecord ..).ofSnd e).andThen (keeps_recordOut ..)).ofSnd e1).trans
        (keeps_busWrite _ _ _ _ .of)))

theorem keeps_scanRecords (n : Nat) : ∀ (r : CarderRun) (s : State),
    Keeps [.fcl, .bfm, .syc] true s (scanRecords n r s).2 := by
  induction n with
  | zero => exact fun _ s => .refl
  | succ n ih => exact fun r s => .iteSnd .refl ((keeps_scanRecord s r).trans (ih _ _))

theorem keeps_carderFetch {s : State} {y : CarderRun × State} (h : carderFetch s = some y) :
    Keeps [.fcl, .bfm, .syc, .ofl] true s y.2 := by
  unfold carderFetch at h
  split at h
  · cases h
  · split at h
    · rename_i e
      cases h
      exact ((keeps_busRead _ _ _ _ .of).ofSnd e).trans (keeps_setFlag _ _ _ _ (by decide))
    · rename_i l t e
      have k : Keeps [.fcl, .bfm, .syc, .ofl] true s (setFlag t F.OFL_CD_STAT_BUSY 0 true) :=
        ((keeps_busRead _ _ _ _ .of).ofSnd e).trans (keeps_setFlag _ _ _ _ (by decide))
      dsimp only at h
      split at h
      · cases h
        exact k
      · split at h
        · rename_i e
          cases h
          exact k.trans ((keeps_busRead _ _ _ _ .of).ofSnd e)
        · rename_i e
          cases h
          exact k.trans ((keeps_busRead _ _ _ _ .of).ofSnd e)

theorem answers_execScan (records : Nat) (s : State) :
    Answers (Keeps [.fcl, .bfm, .syc, .ofl] true s) (execScan records s) := by
  unfold execScan
  dsimp only
  split
  · exact .next .refl
  · rename_i r t e
    have k : Keeps [.fcl, .bfm, .syc, .ofl] true s t := by
      split at e
      · cases e
        exact .refl
      · exact keeps_carderFetch e
    exact .ite (.next .refl) (.next (k.andThen (keeps_scanRecords _ _ _)).upd)

theorem keeps_weaveComplete (s : State) (w : List Word) (st off : Nat) :
    Keeps [.fcl, .bfm, .syc, .ofl] true s (weaveComplete s w st off) :=
  (((((((keeps_busWriteWord ..).sub).trans (keeps_setFlds_all _ _ _ rfl)).trans (keeps_bump _ _ _ _ (by
    decide))).trans (keeps_when _ _ _ (fun _ => keeps_bump _ _ _ _ (by decide)))).trans (keeps_when _ _ _ (fun _ =>
    keeps_bump _ _ _ _ (by decide)))).upd).trans (keeps_when _ _ _ (fun _ => keeps_raiseSource _ _ (by decide)))

theorem keeps_carderComplete (s : State) (r : CarderRun) (st : Nat) :
    Keeps [.fcl, .bfm, .syc, .ofl] true s (carderComplete s r st) :=
  (((((((keeps_busWriteWord ..).sub).andThen (keeps_busWriteWord ..)).trans (keeps_setFlds_all _ _ _ rfl)).trans
    (keeps_bump _ _ _ _ (by decide))).trans (keeps_when _ _ _ (fun _ => keeps_bump _ _ _ _ (by decide)))).upd).trans
    (keeps_when _ _ _ (fun _ => keeps_raiseSource _ _ (by decide)))

theorem answers_execOflCommandDone (carder : Bool) (s : State) :
    Answers (Keeps [.fcl, .bfm, .syc, .ofl] true s) (execOflCommandDone carder s) := by
  refine .ite ?_ ?_
  · split
    · split
      · exact .next (keeps_carderComplete ..)
      · exact .next .refl
    · split
      · rename_i e
        split
        · exact .ite (.next .refl) (.next ((keeps_carderFetch e).andThen (keeps_carderComplete ..)))
        · exact .next .refl
      · exact .next .refl
  · split
    · split
      · exact .next (keeps_weaveComplete ..)
      · exact .next .refl
    · split
      · rename_i e
        split
        · exact .ite (.next .refl) (.next ((keeps_weaveFetch e).andThen (keeps_weaveComplete ..)))
        · exact .next .refl
      · exact .next .refl

theorem keeps_oflStop (s : State) : Keeps [] false s (oflStop s) := .upd .refl

theorem answers_execOflBlockReset (s : State) : Answers (Keeps [.ckr] false s) (execOflBlockReset s) :=
  .next (((keeps_oflStop ..).sub).trans (keeps_setFlag _ _ _ _ (by decide)))

theorem keeps_latchCause (s : State) (reason : Nat) (msg : Word) : Keeps [.fcl] false s (latchCause s reason msg) :=
  .ite .refl ((keeps_wr _ _ _ _ (by decide)).trans (keeps_setFlds_all _ _ _ rfl))

theorem keeps_safeAct (a : Nat) (s : State) : Keeps [.cal, .fcl, .lne, .wrp, .svg, .spn] false s (safeAct a s) :=
  (keeps_wrpCut ..).andThen (keeps_lneStop ..)

theorem keeps_evrUrgent (s : State) : Keeps [] false s (evrUrgent s) := .upd .refl

theorem keeps_safeFlush (s : State) : Keeps [] false s (safeFlush s) := .ite .refl (.upd .refl)

theorem keeps_safeEntry (s : State) (reason : Nat) (msg : Word) :
    Keeps [.ckr, .cal, .fcl, .evr, .gly, .lne, .wrp, .svg, .spn, .bfm, .syc, .dma] true s (safeEntry s reason msg) :=
  .ite .refl ((((((((((((((((keeps_latchCause ..).sub).trans (keeps_setFlag _ _ _ _ (by decide))).upd).trans
    (keeps_each _ _ (fun _ _ => (keeps_safeAct ..).sub) _)).andThen (keeps_calDrop ..)).andThen
    (keeps_dcpStop ..)).upd).andThen (keeps_safeFlush ..)).andThen (keeps_dmaSafe ..)).andThen (keeps_oflStop ..)).andThen
    (keeps_requestUnload ..)).andThen (keeps_spnSafe ..)).trans (keeps_evrEvent _ _ _ _ _ _ _ _ .of (by
    decide))).andThen (keeps_evrUrgent ..)).andThen (keeps_glySync ..))

theorem keeps_brstSet (s : State) (value : Word) : Keeps [.ckr] false s (brstSet s value) := by
  have keep (f : Fld) (v : Nat) (t : State) (h : f.reg = .CKR_BRST) : Keeps [.ckr] false t (setFld t f 0 v) :=
    keeps_setFld _ _ _ _ (by rw [h]; decide)
  unfold brstSet
  exact ((((keep _ _ _ rfl).trans (keep _ _ _ rfl)).trans (keep _ _ _ rfl)).trans (keep _ _ _ rfl)).trans
    (keeps_eachIn _ _ (fun f hf u => keep f _ u (by simp only [List.mem_cons, List.not_mem_nil, or_false] at hf; rcases hf with rfl | rfl | rfl | rfl | rfl | rfl | rfl | rfl | rfl | rfl | rfl | rfl <;> rfl)) _)

theorem keeps_raiseNmi (s : State) (core : Nat) : Keeps [.fcl] false s (raiseNmi s core) := by
  unfold raiseNmi
  dsimp only
  split
  · exact .upd .refl
  · exact (keeps_setFlag _ _ _ _ (by decide)).trans (keeps_raiseSource _ _ (by decide))

theorem keeps_react (s : State) (msg : Word) :
    Keeps [.ckr, .cal, .fcl, .evr, .gly, .lne, .wrp, .svg, .spn, .bfm, .syc, .dma] true s (react s msg) := by
  unfold react
  extract_lets n t1 t2 t3 t4
  have k1 : Keeps [.ckr, .cal, .fcl, .evr, .gly, .lne, .wrp, .svg, .spn, .bfm, .syc, .dma] true s t1 :=
    keeps_when _ _ _ fun _ => keeps_setFlag _ _ _ _ (by decide)
  have k2 := k1.trans (u := t2) (keeps_when _ _ _ fun _ => (keeps_safeEntry ..).sub)
  have k3 := k2.trans (u := t3) (keeps_when _ _ _ fun _ => (keeps_brstSet ..).sub)
  have k4 := k3.trans (u := t4) (keeps_when _ _ _ fun _ => (keeps_raiseNmi ..).sub)
  exact k4.trans (keeps_when _ _ _ fun _ => (keeps_latchCause ..).sub.upd)

theorem keeps_applyMessage (s : State) (msg : Word) :
    Keeps [.ckr, .cal, .fcl, .evr, .gly, .lne, .wrp, .svg, .spn, .bfm, .syc, .dma] true s (applyMessage s msg) :=
  (((((keeps_raiseSource _ _ (by decide)).trans (keeps_wr _ _ _ _ (by decide))).trans (keeps_bump _ _ _ _ (by
    decide))).trans (keeps_when _ _ _ (fun _ => keeps_safeEntry ..))).trans (keeps_when _ _ _ (fun _ => keeps_react
    ..))).trans (keeps_evrRequest _ _ .of (by decide))

theorem answers_execFaultMessage (noise : Word) (s : State) :
    Answers (Keeps [.ckr, .cal, .fcl, .evr, .gly, .lne, .wrp, .svg, .spn, .bfm, .syc, .dma] true s) (execFaultMessage noise s) := by
  refine .ite (.next .refl) ?_
  dsimp only
  split
  · exact .next .refl
  · split
    · exact .next .refl
    · exact .next (.andThen (.upd .refl) (keeps_applyMessage ..))

theorem answers_execFatalLine (s : State) :
    Answers (Keeps [.ckr, .cal, .fcl, .evr, .gly, .lne, .wrp, .svg, .spn, .bfm, .syc, .dma] true s) (execFatalLine s) := by
  refine .ite (.next .refl) ?_
  split
  · exact .next .refl
  · exact .next (.andThen (.upd .refl) (keeps_safeEntry ..))

theorem keeps_swRaise (s : State) (writer : Nat) (msg : Word) : Keeps [.fcl] false s (swRaise s writer msg) :=
  .ite (keeps_sendMsg _ _ _ (by decide)) (keeps_bump _ _ _ _ (by decide))

theorem answers_execFclSwRaise (writer : Nat) (msg : Word) (s : State) :
    Answers (Keeps [.fcl] false s) (execFclSwRaise writer msg s) := .next (keeps_swRaise ..)

theorem keeps_swSet (s : State) (value : Word) : Keeps [.fcl] false s (swSet s value) :=
  .ite (keeps_raiseSource _ _ (by decide)) .refl

theorem answers_execFclSwSet (value : Word) (s : State) : Answers (Keeps [.fcl] false s) (execFclSwSet value s) :=
  .next (keeps_swSet ..)

theorem keeps_levels (s : State) : Keeps [.fcl] false s (levels s) :=
  (keeps_each _ _ (fun _ _ => keeps_when _ _ _ (fun _ => keeps_raiseSource _ _ (by decide))) _).trans
    (keeps_each _ _ (fun _ _ => keeps_when _ _ _ (fun _ => keeps_raiseSource _ _ (by decide))) _)

theorem keeps_pendClear (s : State) (k : Nat) (value : Word) : Keeps [.fcl] false s (pendClear s k value) :=
  .ite .refl ((keeps_wr _ _ _ _ (by decide)).andThen (keeps_levels ..))

theorem answers_execPendingClear (k : Nat) (value : Word) (s : State) :
    Answers (Keeps [.fcl] false s) (execPendingClear k value s) := .next (keeps_pendClear ..)

theorem keeps_claim (s : State) (c : Nat) : Keeps [.fcl] false s (claim s c) := by
  unfold claim
  split
  · exact keeps_answer ..
  · exact (keeps_pendClear ..).trans (keeps_answer ..)

theorem answers_execFclClaim (c : Nat) (s : State) : Answers (Keeps [.fcl] false s) (execFclClaim c s) :=
  .next (keeps_claim ..)

theorem keeps_safeEnterWrite (s : State) (writer : Nat) (value : Word) :
    Keeps [.ckr, .cal, .fcl, .evr, .gly, .lne, .wrp, .svg, .spn, .bfm, .syc, .dma] true s (safeEnterWrite s writer value) :=
  .ite ((keeps_wr _ _ _ _ (by decide)).andThen (keeps_safeEntry ..)) .refl

theorem answers_execSafeEnter (writer : Nat) (value : Word) (s : State) :
    Answers (Keeps [.ckr, .cal, .fcl, .evr, .gly, .lne, .wrp, .svg, .spn, .bfm, .syc, .dma] true s) (execSafeEnter writer value s) :=
  .next (keeps_safeEnterWrite ..)

theorem answers_execSelfCheckSweep (found off : Nat) (s : State) :
    Answers (Keeps [.ckr, .cal, .fcl, .evr, .gly, .lne, .wrp, .svg, .spn, .bfm, .syc, .dma] true s) (execSelfCheckSweep found off s) :=
  .ite (.next .refl) (.ite (.next (keeps_bump _ _ _ _ (by decide))) (.next ((keeps_setFlag _ _ _ _ (by
    decide)).andThen (keeps_safeEntry ..))))

theorem keeps_timeStore (s : State) : Keeps [] false s (timeStore s) := .upd .refl

theorem answers_execTimeStoreWrite (s : State) : Answers (Keeps [] false s) (execTimeStoreWrite s) :=
  .ite (.next .refl) (.next (keeps_timeStore ..))

theorem keeps_keptRegs (s : State) (power : Bool) (t : State) : Keeps [.ckr, .fcl, .pws, .flt] false t (keptRegs s power t) := by
  unfold keptRegs
  extract_lets t1 t2 t3 t4
  have k1 : Keeps [.ckr, .fcl, .pws, .flt] false t t1 := keeps_each _ _ (fun _ _ => keeps_wr _ _ _ _ (by decide)) _
  have k2 : Keeps [.ckr, .fcl, .pws, .flt] false t t2 :=
    ((k1.trans (keeps_wr _ _ _ _ (by decide))).trans (keeps_wr _ _ _ _ (by decide))).trans (keeps_wr _ _ _ _ (by decide))
  have k4 : Keeps [.ckr, .fcl, .pws, .flt] false t t4 :=
    ((k2.trans (keeps_wr _ _ _ _ (by decide))).trans (keeps_wr _ _ _ _ (by decide))).trans (keeps_setFlds_all _ _ _ rfl)
  exact .ite k2 (k4.trans (keeps_setFlds_all _ _ _ rfl))

theorem keeps_resetState (s : State) (power : Bool) (ckr : Ckr) : Keeps Block.all true s (resetState s power ckr) := by
  unfold resetState
  extract_lets x src t
  have k : Keeps Block.all true s t :=
    ⟨rfl, rfl, rfl, fun _ => tabWf_nil, fun _ => tabWf_nil, fun r _ h => absurd (Block.mem_all _) h, nofun⟩
  exact k.andThen (keeps_keptRegs _ _ _)

theorem keeps_chipReset (s : State) : Keeps Block.all true s (chipReset s) :=
  .ite (.upd .refl) ((keeps_resetState ..).trans (.ite (keeps_each _ _ (fun _ _ => keeps_setCte ..) _) (.andThen
    (.upd .refl) (keeps_retractDrive ..))))

theorem answers_execChipReset (s : State) : Answers (Keeps Block.all true s) (execChipReset s) :=
  .next (keeps_chipReset ..)

theorem answers_execRstNAssert (s : State) : Answers (Keeps Block.all true s) (execRstNAssert s) :=
  .ite (.next .refl) (.next (.andThen (.upd .refl) (keeps_chipReset ..)))

theorem answers_execResetRelease (hostSel peMode : Bool) (s : State) :
    Answers (Keeps [.ckr, .pws] false s) (execResetRelease hostSel peMode s) :=
  .ite (.next (((keeps_setFlds_all _ _ _ rfl).trans (.ite .refl (keeps_setFlag _ _ _ _ (by decide)))).upd)) (.next
    .refl)

theorem answers_execPowerOn (depot : DepotImage) (s : State) :
    Answers (Keeps Block.all true s) (execPowerOn depot s) := by
  refine .ite (.next .refl) (.next (.trans ?_ (keeps_setFlag _ _ _ _ (by decide))))
  split
  · exact (keeps_resetState ..).upd
  · exact keeps_resetState ..

theorem answers_execRailFault (k : Nat) (s : State) : Answers (Keeps [.ckr, .fcl] false s) (execRailFault k s) :=
  .ite (.next ((keeps_setFld _ _ _ _ (by decide)).trans (keeps_sendFault _ _ _ _ _ _ (by decide)))) (.next .refl)

theorem answers_execXtalFault (s : State) : Answers (Keeps [.ckr, .fcl] false s) (execXtalFault s) :=
  .ite (.next .refl) (.next ((keeps_setFlds_all _ _ _ rfl).trans (keeps_sendFault _ _ _ _ _ _ (by decide))))

theorem answers_execXtalStartTimeout (s : State) : Answers (Keeps [.ckr] false s) (execXtalStartTimeout s) :=
  .ite (.next ((keeps_setFlag _ _ _ _ (by decide)).upd)) (.next .refl)

theorem answers_execPllLockLoss (n : Nat) (s : State) :
    Answers (Keeps [.ckr, .cal, .fcl, .evr, .lne, .wrp, .svg, .cte, .spn, .pws, .bfm, .syc] true s) (execPllLockLoss n s) :=
  .ite (.onward (((keeps_setFld _ _ _ _ (by decide)).upd).trans (keeps_sendFault _ _ _ _ _ _ (by decide))) (.ite
    (answers_execLinkLoss ..) (.next .refl))) (.next .refl)

theorem keeps_powerLossEvent (s : State) : Keeps [.fcl, .evr, .bfm, .syc] true s (powerLossEvent s) :=
  keeps_evrEvent _ _ _ _ _ _ _ _ .of (by decide)

theorem answers_execVinLoss (s : State) :
    Answers (Keeps [.ckr, .cal, .fcl, .evr, .gly, .lne, .wrp, .svg, .spn, .pws, .hdl, .bfm, .syc, .dma, .flt] true s) (execVinLoss s) :=
  .ite (.next .refl) (.next (((((((((((((((keeps_setFlds_all _ _ _ rfl).trans (keeps_raiseSource _ _ (by
    decide))).andThen (keeps_powerLossEvent ..)).andThen (keeps_timeStore ..)).upd).trans (.ite .refl
    ((keeps_fltPowerLoss ..).sub))).andThen (keeps_calDrop ..)).trans (keeps_each _ _ (fun _ _ =>
    ((keeps_wrpPowerLoss ..).sub).andThen (keeps_lneStop ..)) _)).andThen (keeps_dcpStop ..)).andThen
    (keeps_dmaPowerLoss ..)).andThen (keeps_oflStop ..)).andThen (keeps_spnPowerLoss ..)).andThen
    (keeps_requestCommit ..)).andThen (keeps_evrUrgent ..)).andThen (keeps_glySync ..)))

theorem answers_execFlushCommit (s : State) : Answers (Keeps [] false s) (execFlushCommit s) := by
  refine .ite (.next (.ite (.upd ?_) ?_)) (.next .refl)
  · split
    · exact (keeps_fltCommit ..).upd
    · exact keeps_fltCommit ..
  · split
    · exact (keeps_fltCommit ..).upd
    · exact keeps_fltCommit ..

theorem answers_execQuiesceLogic (vm : Nat) (s : State) : Answers (Keeps Block.all true s) (execQuiesceLogic vm s) :=
  .onward ((keeps_setVm ..).sub) (.ite (.next .refl) (.ite (.next (keeps_chipReset ..)) (.next ((((keeps_each _ _
    (fun _ _ => (keeps_setFld _ _ _ _ (by decide)).andThen (keeps_engineLost ..)) _).trans (keeps_each _ _ (fun _ _
    => (keeps_shReset ..).sub) _)).upd).andThen (keeps_spnQuiesce ..)))))

theorem answers_execVinReturn (s : State) : Answers (Keeps Block.all true s) (execVinReturn s) := by
  unfold execVinReturn
  split
  · exact .next .refl
  · exact .onward (keeps_setFlds_all _ _ _ rfl) (.ite (.next (keeps_chipReset ..)) (.next (.upd .refl)))

theorem answers_execHoldUpEnd (s : State) : Answers (Keeps Block.all true s) (execHoldUpEnd s) :=
  .ite (.next ((keeps_resetState ..).upd)) (.next .refl)

theorem keeps_fwReadyWrite (s : State) (value : Word) :
    Keeps [.ckr, .fcl, .evr, .bfm, .syc] true s (fwReadyWrite s value) :=
  (((keeps_setFlds_all _ _ _ rfl).trans (keeps_setReady _ _ _ _ .of (by decide) (by decide))).trans (keeps_setReady
    _ _ _ _ .of (by decide) (by decide))).andThen (keeps_hostReady ..)

theorem answers_execFwReadyWrite (value : Word) (s : State) :
    Answers (Keeps [.ckr, .fcl, .evr, .bfm, .syc] true s) (execFwReadyWrite value s) :=
  .next (keeps_fwReadyWrite ..)

theorem keeps_shutdown (s : State) : Keeps [.ckr] false s (shutdown s) :=
  ((keeps_timeStore ..).sub).trans (keeps_setFlds_all _ _ _ rfl)

theorem answers_execShutdown (s : State) : Answers (Keeps [.ckr] false s) (execShutdown s) :=
  .next (keeps_shutdown ..)

theorem answers_execDramReady (ok twoRanks : Bool) (s : State) :
    Answers (Keeps [.ckr, .fcl, .evr, .gly, .bfm, .syc, .flt] true s) (execDramReady ok twoRanks s) :=
  .ite (.next .refl) (.onward (keeps_setFlds_all _ _ _ rfl) (.ite (.next (((((keeps_wipeDram ..).sub).trans
    (keeps_setFlag _ _ _ _ (by decide))).trans (keeps_setReady _ _ _ _ .of (by decide) (by decide))).andThen
    (keeps_fltTryInit ..))) (.next ((keeps_setFlag _ _ _ _ (by decide)).trans (keeps_sendFault _ _ _ _ _ _ (by
    decide))))))

theorem keeps_sycTagError (s : State) (addr : Nat) : Keeps [.fcl, .bfm] false s (sycTagError s addr) :=
  .trans (.ite (keeps_setFlag _ _ _ _ (by decide)) (keeps_setFlds_all _ _ _ rfl)) (keeps_sendFault _ _ _ _ _ _ (by
    decide))

theorem keeps_sycDataError (s : State) (addr : Nat) : Keeps [.fcl, .bfm] false s (sycDataError s addr) := by
  unfold sycDataError
  dsimp only
  split
  · exact .refl
  · split
    · exact .refl
    · exact .ite ((keeps_setWay ..).trans (keeps_memUe _ _ _ _ _ _ (by decide) (by decide)))
        ((keeps_setWay ..).trans (keeps_corrected _ _ _ _ _ (by decide) (by decide)))

theorem keeps_l2Error (s : State) (c addr : Nat) : Keeps [.fcl, .bfm] false s (l2Error s c addr) := by
  unfold l2Error
  split
  · exact .refl
  · exact .ite ((keeps_setL2 ..).trans (keeps_memUe _ _ _ _ _ _ (by decide) (by decide))) ((keeps_setL2 ..).trans
      (keeps_corrected _ _ _ _ _ (by decide) (by decide)))

theorem keeps_softArises (s : State) (kind addr : Nat) : Keeps [] false s (softArises s kind addr) := by
  refine .ite (keeps_setSoft ..) (.ite ?_ .refl)
  split
  · exact .refl
  · split
    · exact .refl
    · exact keeps_setWay ..

theorem keeps_softRepaired (s : State) (kind addr : Nat) : Keeps [] false s (softRepaired s kind addr) := by
  refine .ite (keeps_setSoft ..) (.ite ?_ .refl)
  split
  · exact .refl
  · split
    · exact .refl
    · exact keeps_setWay ..

theorem keeps_checkLost (s : State) (addr : Nat) : Keeps [.fcl, .bfm] false s (checkLost s addr) :=
  (keeps_each _ _ (fun _ _ => keeps_setPoison ..) _).trans (keeps_memUe _ _ _ _ _ _ (by decide) (by decide))

theorem answers_execScrubVisit (kind block addr found : Nat) (s : State) :
    Answers (Keeps [.fcl, .bfm] false s) (execScrubVisit kind block addr found s) := by
  refine .ite (.next .refl) (.ite (.next (.ite .refl (keeps_checkLost ..))) (.ite (.next
    ((keeps_softArises ..).sub)) (.ite (.next (((keeps_softRepaired ..).sub).trans (keeps_corrected _ _ _ _ _ (by decide) (by
    decide)))) ?_)))
  split
  · exact .next (((keeps_setBad ..).trans (keeps_setSoft ..)).trans (keeps_memUe _ _ _ _ _ _ (by decide) (by
      decide)))
  · exact .ite (.next (((keeps_setBad ..).trans (keeps_setSoft ..)).trans (keeps_memUe _ _ _ _ _ _ (by decide) (by
      decide)))) (.next (keeps_sycDataError ..))
  · exact .next (keeps_sycTagError ..)
  · exact .next (keeps_l2Error ..)
  · exact .next (keeps_memUe _ _ _ _ _ _ (by decide) (by decide))

theorem answers_execScrubLapComplete (s : State) : Answers (Keeps [.fcl, .bfm] false s) (execScrubLapComplete s) :=
  .ite (.next .refl) (.next (((((keeps_setFld _ _ _ _ (by decide)).trans (keeps_bump _ _ _ _ (by decide))).trans
    (keeps_setFlag _ _ _ _ (by decide))).upd).trans (keeps_raiseSource _ _ (by decide))))

theorem answers_execScrubSlow (s : State) : Answers (Keeps [.fcl, .bfm] false s) (execScrubSlow s) :=
  .ite (.next .refl) (.next ((keeps_setFlag _ _ _ _ (by decide)).trans (keeps_sendFault _ _ _ _ _ _ (by decide))))

theorem answers_execCacheEnableWrite (value : Word) (s : State) :
    Answers (Keeps [.syc] false s) (execCacheEnableWrite value s) := .next (keeps_setFlds_all _ _ _ rfl)

theorem keeps_cleanWay (s : State) (set w : Nat) : Keeps [.fcl, .bfm] true s (cleanWay s set w) := by
  unfold cleanWay
  split
  · exact .ite ((keeps_writeBack_bfm ..).trans (keeps_setWay ..)) .refl
  · exact .refl

theorem answers_execScratchConvert (value : Word) (s : State) :
    Answers (Keeps [.fcl, .bfm, .syc] true s) (execScratchConvert value s) :=
  .onward (keeps_when _ _ _ (fun _ => keeps_setFlag _ _ _ _ (by decide))) (.ite (.next (keeps_setFlag _ _ _ _ (by
    decide))) (.ite (.ite (.next (keeps_setFlag _ _ _ _ (by decide))) (.next (((keeps_each _ _ (fun _ _ =>
    ((keeps_cleanWay ..).sub).trans (keeps_setWay ..)) _).trans (keeps_clearRange ..)).trans
    (keeps_setFlds_all _ _ _ rfl)))) (.next ((keeps_clearRange ..).trans (keeps_setFld _ _ _ _ (by decide))))))

theorem answers_execScratchDone (s : State) : Answers (Keeps [.fcl, .syc] false s) (execScratchDone s) :=
  .ite (.next ((keeps_setFlag _ _ _ _ (by decide)).trans (keeps_raiseSource _ _ (by decide)))) (.next .refl)

theorem keeps_rangeEnd (s : State) (st : Nat) : Keeps [.fcl, .syc] false s (rangeEnd s st) :=
  .trans (.trans (.upd .refl) (keeps_setFlds_all _ _ _ rfl)) (keeps_raiseSource _ _ (by decide))

theorem keeps_rangeClean (s : State) (k : Nat) : Keeps [.fcl, .bfm, .syc] true s (rangeClean s k) := by
  unfold rangeClean
  split
  · exact .ite ((((keeps_cleanWay ..).sub).trans (keeps_bump _ _ _ _ (by decide))).trans (.ite
      (keeps_bump _ _ _ _ (by decide)) .refl)) .refl
  · exact .refl

theorem keeps_rangeLine (op k : Nat) (s : State) : Keeps [.fcl, .bfm, .syc] true s (rangeLine op k s) := by
  unfold rangeLine
  split
  · exact keeps_rangeClean ..
  · exact .ite (keeps_bump _ _ _ _ (by decide)) (keeps_setWay ..)
  · exact .ite (keeps_bump _ _ _ _ (by decide)) ((keeps_rangeClean ..).trans (keeps_setWay ..))
  · exact (keeps_rangeClean ..).trans (keeps_setWay ..)

theorem keeps_loadLine (w line : Nat) (s : State) : Keeps [.fcl, .bfm, .syc] true s (loadLine w line s) := by
  refine .ite (keeps_evbRace _ _ .of) (.ite ((keeps_evbRace _ _ .of).trans (keeps_bump _ _ _ _ (by decide))) ?_)
  split
  · rename_i e
    exact (((keeps_evbRace _ _ .of).trans (keeps_dramRead _ _ _ .of)).ofSnd e).trans (keeps_bump _ _ _ _ (by
      decide))
  · rename_i e
    exact (((((keeps_evbRace _ _ .of).trans (keeps_dramRead _ _ _ .of)).ofSnd e).andThen
      (keeps_rangeClean ..)).trans (keeps_setWay ..)).trans (keeps_touchRef ..)

theorem keeps_rangeGo (s : State) (value : Word) : Keeps [.fcl, .bfm, .syc] true s (rangeGo s value) :=
  .ite (keeps_setFld _ _ _ _ (by decide)) ((keeps_setFlds_all _ _ _ rfl).trans (.ite ((keeps_rangeEnd ..).sub) (.ite
    ((keeps_rangeEnd ..).sub) ((keeps_setFlag _ _ _ _ (by decide)).trans (.ite (.ite .refl (keeps_each _ _ (fun _ _
    => keeps_loadLine ..) _)) (keeps_each _ _ (fun _ _ => keeps_rangeLine ..) _))))))

theorem keeps_rangeCmdWrite (value : Word) (s : State) : Keeps [.fcl, .bfm, .syc] true s (rangeCmdWrite value s) :=
  .ite (keeps_rangeGo ..) (keeps_setFlds_all _ _ _ rfl)

theorem answers_execClean (value : Word) (s : State) :
    Answers (Keeps [.fcl, .bfm, .syc] true s) (execClean value s) := .next (keeps_rangeCmdWrite ..)

theorem answers_execInvalidate (value : Word) (s : State) :
    Answers (Keeps [.fcl, .bfm, .syc] true s) (execInvalidate value s) := .next (keeps_rangeCmdWrite ..)

theorem answers_execCleanInv (value : Word) (s : State) :
    Answers (Keeps [.fcl, .bfm, .syc] true s) (execCleanInv value s) := .next (keeps_rangeCmdWrite ..)

theorem answers_execCleanInvLocked (value : Word) (s : State) :
    Answers (Keeps [.fcl, .bfm, .syc] true s) (execCleanInvLocked value s) := .next (keeps_rangeCmdWrite ..)

theorem answers_execLoadWay (value : Word) (s : State) :
    Answers (Keeps [.fcl, .bfm, .syc] true s) (execLoadWay value s) := .next (keeps_rangeCmdWrite ..)

theorem answers_execRangeOpDone (s : State) : Answers (Keeps [.fcl, .syc] false s) (execRangeOpDone s) :=
  .ite (.next (keeps_rangeEnd ..)) (.next .refl)

theorem answers_execEvictionWritebackDone (line : Nat) (s : State) :
    Answers (Keeps [.fcl, .bfm] true s) (execEvictionWritebackDone line s) := by
  unfold execEvictionWritebackDone
  split
  · rename_i e
    exact .next ((keeps_evbTake _ _ e).trans (keeps_writeBack_bfm ..))
  · exact .next .refl

theorem keeps_cbo {bs : List Block} {m : Bool} (s : State) (c : Nat) (f : Nat → State → State)
    (h : ∀ k t, Keeps bs m t (f k t)) : Keeps bs m s (cbo s c f) := .ite (keeps_each _ _ h _) .refl

theorem answers_execCboClean (c addr : Nat) (s : State) :
    Answers (Keeps [.fcl, .bfm, .syc] true s) (execCboClean c addr s) :=
  .next (keeps_cbo _ _ _ fun _ _ => keeps_l2WriteBack _ _ _ .of)

theorem answers_execCboFlush (c addr : Nat) (s : State) :
    Answers (Keeps [.fcl, .bfm, .syc] true s) (execCboFlush c addr s) :=
  .next (keeps_cbo _ _ _ fun _ _ => (keeps_l2WriteBack _ _ _ .of).trans (keeps_setL2 ..))

theorem answers_execCboInval (c addr : Nat) (s : State) : Answers (Keeps [] false s) (execCboInval c addr s) :=
  .next (keeps_cbo _ _ _ fun _ _ => keeps_setL2 ..)

theorem keeps_clearRead {bs : List Block} {m : Bool} (s : State) (r : Reg) (i : Nat) (h : r.info.block ∈ bs) :
    Keeps bs m s (clearRead s r i) := .ite .refl (keeps_wr _ _ _ _ h)

theorem keeps_readReg (s : State) (e : Nat) (r : Reg) (i : Nat) : Keeps Block.all false s (readReg s e r i) := by
  unfold readReg
  split
  · exact (keeps_popRecord ..).sub.trans (keeps_answer ..)
  · exact (keeps_loomTake ..).sub
  · exact (keeps_corePop ..).sub
  · exact (keeps_nonceRead ..).sub
  · exact (keeps_claim ..).sub
  · exact (keeps_semRead ..).sub
  · exact (keeps_lsPortRead ..).sub
  · exact (keeps_freshWord s).sub.trans (keeps_answer ..)
  · exact (keeps_answer ..).trans (keeps_clearRead _ _ _ (Block.mem_all _))

theorem keeps_plainWrite {bs : List Block} {m : Bool} (s : State) (r : Reg) (i : Nat) (v : Word)
    (h : r.info.block ∈ bs) : Keeps bs m s (plainWrite s r i v) := keeps_wr _ _ _ _ h

theorem keeps_retainWrite (s : State) (a : Nat) (v : Word) : Keeps [.lne] false s (retainWrite s a v) := by
  unfold retainWrite
  extract_lets k seq t t'
  have h : Keeps [.lne] false s t := keeps_setFlds_all _ _ _ rfl
  have h' : Keeps [.lne] false t t' := keeps_when _ _ _ fun _ => .stateOf (answers_execRetainPin ..)
  exact (h.trans h').trans (keeps_when _ _ _ fun _ => .stateOf (answers_execRetainUnpin ..))

theorem keeps_afeWrite (s : State) (n : Nat) (v : Word) :
    Keeps [.cal, .fcl, .lne, .wrp, .svg, .spn] false s (afeWrite s n v) :=
  ((keeps_plainWrite _ _ _ _ (by decide)).andThen (keeps_lneEnable ..)).andThen (keeps_adcMode _ _)

theorem keeps_cteCmdWrite (s : State) (a : Nat) (v : Word) : Keeps [.fcl, .cte] false s (cteCmdWrite s a v) := by
  unfold cteCmdWrite
  split
  · exact (keeps_when _ _ _ (fun _ => keeps_setFlag _ _ _ _ (by decide))).trans (.stateOf
      ((answers_execLoad ..).sub))
  · exact (keeps_when _ _ _ (fun _ => keeps_setFlag _ _ _ _ (by decide))).trans (.stateOf (answers_execPark ..))
  · exact (keeps_when _ _ _ (fun _ => keeps_setFlag _ _ _ _ (by decide))).trans (.stateOf
      ((answers_execResume ..).sub))
  · exact keeps_when _ _ _ (fun _ => keeps_setFlag _ _ _ _ (by decide))

theorem keeps_spnCmdWrite (s : State) (v : Word) :
    Keeps [.ckr, .cal, .fcl, .evr, .gly, .spn, .bfm, .syc] true s (spnCmdWrite s v) := by
  unfold spnCmdWrite
  split
  · exact (keeps_when _ _ _ (fun _ => keeps_setFlag _ _ _ _ (by decide))).trans (.stateOf (answers_execStart ..))
  · exact (keeps_when _ _ _ (fun _ => keeps_setFlag _ _ _ _ (by decide))).trans (.stateOf (answers_execStop ..))
  · exact (keeps_when _ _ _ (fun _ => keeps_setFlag _ _ _ _ (by decide))).trans (.stateOf (answers_execClear ..))
  · exact keeps_when _ _ _ (fun _ => keeps_setFlag _ _ _ _ (by decide))

theorem keeps_lateWrite {bs : List Block} {m : Bool} (s : State) (a : Nat) (r : Reg) (i : Nat) (v : Word)
    (h : r.info.block ∈ bs) : Keeps bs m s (lateWrite s a r i v) :=
  (keeps_plainWrite _ _ _ _ h).trans (keeps_setCte ..)

theorem keeps_coefWrite (s : State) (i : Nat) (v : Word) : Keeps [.cte] false s (coefWrite s i v) :=
  .ite (.ite (keeps_setFlag _ _ _ _ (by decide)) (keeps_setFlag _ _ _ _ (by decide))) (keeps_plainWrite _ _ _ _ (by
    decide))

theorem keeps_glyCtlWrite (s : State) (v : Word) :
    Keeps [.ckr, .fcl, .evr, .gly, .bfm, .syc] true s (glyCtlWrite s v) :=
  ((keeps_plainWrite _ _ _ _ (by decide)).trans (.ite .refl (keeps_setFlds_all _ _ _ rfl))).andThen
    (keeps_glySync ..)

theorem keeps_qctxWrite (s : State) (hi : Bool) (v : Word) : Keeps [] false s (qctxWrite s hi v) :=
  .ite (keeps_setCtxQ ..) (.ite .refl (keeps_setCtxQ ..))

theorem keeps_ueLogWrite (s : State) (v : Word) : Keeps [.bfm] false s (ueLogWrite s v) :=
  .ite (keeps_setFlds_all _ _ _ rfl) .refl

theorem keeps_srcCfgWrite (s : State) (n : Nat) (v : Word) : Keeps [.fcl] false s (srcCfgWrite s n v) :=
  (keeps_plainWrite _ _ _ _ (by decide)).trans (keeps_setFlag _ _ _ _ (by decide))

theorem keeps_evrCtlWrite (s : State) (v : Word) : Keeps [.fcl, .evr, .bfm, .syc] true s (evrCtlWrite s v) :=
  .stateOf (answers_execEvrEnable ..)

theorem keeps_patchCmdWrite (s : State) (v : Word) :
    Keeps [.fcl, .evr, .sec, .sht, .bfm, .syc] true s (patchCmdWrite s v) :=
  .ite (.trans (.upd .refl) (.stateOf (answers_execPatchLoad ..))) .refl

theorem acts_commandWrite {s t : State} {e : Nat} {r : Reg} {i : Nat} {v : Word} (h : commandWrite s e r i v = some t) :
    Acts Block.all true s t := by
  unfold commandWrite at h
  split at h <;> cases h
  · exact (Keeps.stateOf (answers_execHeadmapLock ..)).any
  · exact (keeps_headMapWrite ..).any
  · exact (Keeps.stateOf (answers_execPspFrameLaunch ..)).any
  · exact (Keeps.stateOf (answers_execHeadSwitchRequest ..)).any
  · exact (Keeps.stateOf (answers_execTagRepair ..)).any
  · exact (Keeps.stateOf (answers_execLifeCommit ..)).any
  · exact (keeps_afeWrite ..).any
  · exact (Keeps.stateOf (answers_execLaneRateWrite ..)).any
  · exact (keeps_retainWrite ..).any
  · exact (Keeps.stateOf (answers_execReplayRequest ..)).any
  · exact (Keeps.stateOf (answers_execDcpSubmit ..)).any
  · exact (Keeps.stateOf (answers_execExtEnable ..)).any
  · exact (keeps_cteCmdWrite ..).any
  · exact (Keeps.stateOf (answers_execCteSeek ..)).any
  · exact (keeps_coefWrite ..).any
  · exact (keeps_lateWrite (m := true) _ _ _ _ _ (Block.mem_all _)).any
  · exact (keeps_lateWrite (m := true) _ _ _ _ _ (Block.mem_all _)).any
  · exact (keeps_lateWrite (m := true) _ _ _ _ _ (Block.mem_all _)).any
  · exact (keeps_lateWrite (m := true) _ _ _ _ _ (Block.mem_all _)).any
  · exact (keeps_lateWrite (m := true) _ _ _ _ _ (Block.mem_all _)).any
  · exact (keeps_lateWrite (m := true) _ _ _ _ _ (Block.mem_all _)).any
  · exact ((keeps_plainWrite (bs := Block.all) (m := true) _ _ _ _ (Block.mem_all _)).andThen (keeps_zoneChanged ..)).any
  · exact (keeps_spnCmdWrite ..).any
  · exact (Keeps.stateOf (answers_execSetSpeedWrite ..)).any
  · exact (keeps_spnSyncWrite ..).any
  · exact (keeps_pwsClampWrite ..).any
  · exact (Keeps.stateOf (answers_execPwsFaultClear ..)).any
  · exact (keeps_pwsUactWrite ..).any
  · exact (keeps_shtLoadWrite ..).any
  · exact (keeps_lsPortWrite ..).any
  · exact (keeps_shCtlWrite ..).any
  · exact (keeps_loomInject ..).any
  · exact (keeps_loomPush ..).any
  · exact (keeps_barCfgWrite ..).any
  · exact (keeps_coreArrive ..).any
  · exact (keeps_glyCtlWrite ..).any
  · exact (Keeps.stateOf (answers_execBudgetWrite ..)).any
  · exact .ite ((Keeps.stateOf (answers_execDrain ..)).any) .refl
  · exact (Keeps.stateOf (answers_execAsnFloor ..)).any
  · exact (keeps_qctxWrite ..).any
  · exact (keeps_qctxWrite ..).any
  · exact (keeps_slotCmdWrite ..).any
  · exact (keeps_wbCmdWrite ..).any
  · exact (Keeps.stateOf (answers_execResetDoneReport ..)).any
  · exact (keeps_ueLogWrite ..).any
  · exact (Keeps.stateOf (answers_execCacheEnableWrite ..)).any
  · exact (Keeps.stateOf (answers_execScratchConvert ..)).any
  · exact (keeps_rangeCmdWrite ..).any
  · exact (keeps_dmaCfgWrite ..).any
  · exact (Keeps.stateOf (answers_execDescriptorQueue ..)).any
  · exact (keeps_dmaCtlWrite ..).any
  · exact (keeps_spoolCfgWrite ..).any
  · exact (keeps_corePush ..).any
  · exact (keeps_corePush ..).any
  · exact (keeps_coreDrop ..).any
  · exact (keeps_fltCtlWrite ..).any
  · exact (keeps_ipiSet ..).any
  · exact (keeps_coreCtlWrite ..).any
  · exact (keeps_semWrite ..).any
  · exact (keeps_safeEnterWrite ..).any
  · exact (keeps_swSet ..).any
  · exact (keeps_swRaise ..).any
  · exact (keeps_pendClear ..).any
  · exact (keeps_srcCfgWrite ..).any
  · exact (keeps_evrCtlWrite ..).any
  · exact (Keeps.stateOf (answers_execEvrFwRecord ..)).any
  · exact (Keeps.stateOf (answers_execEvrRateWrite ..)).any
  · exact (acts_lcReqWrite ..).any
  · exact (acts_otpCmdWrite ..).any
  · exact (acts_bootCtlWrite ..).any
  · exact (keeps_updCmdWrite ..).any
  · exact (keeps_patchCmdWrite ..).any
  · exact (keeps_keyCmdWrite ..).any
  · exact (keeps_signCmdWrite ..).any
  · exact (keeps_rangeWrite ..).any
  · exact (keeps_rangeLenWrite ..).any
  · exact (Keeps.upd (bs := []) (m := false) .refl).any
  · exact (Keeps.upd (bs := []) (m := false) .refl).any
  · exact (keeps_fwReadyWrite ..).any
  · exact .ite ((keeps_chipReset ..).any) .refl
  · exact (keeps_brstSet ..).any
  · exact .ite ((keeps_shutdown ..).any) .refl
  · exact (keeps_calCmdWrite ..).any

theorem keeps_afterWrite (s : State) (r : Reg) :
    Keeps [.ckr, .fcl, .evr, .gly, .spn, .bfm, .syc, .flt] true s (afterWrite s r) := by
  unfold afterWrite
  split
  · exact (keeps_timerFall ..).sub
  · exact (keeps_timerFall ..).sub
  · exact .ite .refl ((keeps_fltReport ..).sub)
  · exact keeps_flushRate ..
  · exact (keeps_writeCert ..).sub
  · exact (keeps_glySync ..).sub
  · exact (keeps_glySync ..).sub
  · exact .refl

theorem acts_writeReg (s : State) (e : Nat) (r : Reg) (i : Nat) (v : Word) :
    Acts Block.all true s (writeReg s e r i v) := by
  unfold writeReg
  split
  · rename_i h
    exact acts_commandWrite h
  · exact .ite .refl (((keeps_plainWrite (bs := Block.all) (m := true) _ _ _ _ (Block.mem_all _)).andThen
      (keeps_afterWrite ..)).any)

theorem keeps_busError (s : State) : Keeps [] false s (busError s) := .upd .refl

theorem keeps_busClear (s : State) : Keeps [] false s (busClear s) := .upd .refl

theorem keeps_blockDecode (s : State) (b : Block) (addr : Nat) : Keeps [.fcl] false s (blockDecode s b addr) :=
  ((keeps_busError ..).sub).trans (keeps_sendFault _ _ _ _ _ _ (by decide))

theorem keeps_ctlRead (s : State) (e addr bytes : Nat) : Keeps Block.all false s (ctlRead s e addr bytes) := by
  unfold ctlRead
  split
  · exact ((keeps_busError ..).sub).trans (keeps_busDecode _ _ (by decide))
  · exact keeps_answer ..
  · exact (keeps_blockDecode ..).sub
  · exact (keeps_busError ..).sub
  · exact .ite (((keeps_busClear ..).sub).andThen (keeps_readReg ..)) (.ite ((keeps_blockDecode ..).sub)
      ((((keeps_busClear ..).sub).andThen (keeps_readReg ..)).trans (keeps_answer ..)))

theorem acts_ctlWrite (s : State) (e addr bytes : Nat) (v : Word) :
    Acts Block.all true s (ctlWrite s e addr bytes v) := by
  unfold ctlWrite
  split
  · exact ((keeps_busError ..).sub.trans (keeps_busDecode (bs := [.fcl]) (m := false) _ _ (by decide))).any
  · exact (keeps_busClear ..).any
  · exact (keeps_blockDecode ..).any
  · exact (keeps_busError ..).any
  · exact .ite ((acts_writeReg ..).andThen (keeps_busClear ..)) ((acts_writeReg ..).andThen (keeps_busClear ..))

theorem keeps_refuseWidth (s : State) (addr bytes : Nat) (write : Bool) :
    Keeps [.fcl] false s (refuseWidth s addr bytes write) := by
  refine .ite ?_ ((keeps_busError ..).sub)
  split
  · exact .ite (keeps_blockDecode ..) (((keeps_busError ..).sub).trans (keeps_busDecode _ _ (by decide)))
  · exact ((keeps_busError ..).sub).trans (keeps_busDecode _ _ (by decide))

theorem keeps_busLoad (s : State) (e addr bytes : Nat) : Keeps Block.all true s (busLoad s e addr bytes) := by
  refine .ite ((keeps_refuseWidth ..).sub) (.ite (((keeps_busError ..).sub).trans (keeps_busDecode _ _ (by decide)))
    (.ite ((keeps_ctlRead ..).sub) ?_))
  split
  · rename_i e1
    exact ((keeps_busRead _ _ _ _ .of).ofSnd e1).trans (keeps_answer ..)
  · rename_i e1
    exact ((keeps_busRead _ _ _ _ .of).ofSnd e1).andThen (keeps_busError ..)

theorem acts_busStore (s : State) (e addr bytes : Nat) (v : Word) :
    Acts Block.all true s (busStore s e addr bytes v) := by
  unfold busStore
  refine .ite (keeps_refuseWidth ..).any (.ite ?_ (.ite (acts_ctlWrite ..) ?_))
  · exact ((keeps_busError ..).sub.trans (keeps_busDecode (bs := [.fcl]) (m := false) _ _ (by decide))).any
  · split
    · rename_i h
      exact (((keeps_busWrite (bs := Block.all) _ _ _ _ .of).ofSnd h).andThen (keeps_busClear ..)).any
    · rename_i h
      exact (((keeps_busWrite (bs := Block.all) _ _ _ _ .of).ofSnd h).andThen (keeps_busError ..)).any

theorem answers_execRegisterWrite (e addr bytes : Nat) (value : Word) (s : State) :
    Answers (Acts Block.all true s) (execRegisterWrite e addr bytes value s) := .next (.ite (acts_busStore ..) .refl)

theorem answers_execUndecodedAccess (e addr bytes : Nat) (write : Bool) (s : State) :
    Answers (Acts Block.all true s) (execUndecodedAccess e addr bytes write s) :=
  .ite (.next (.ite (acts_busStore ..) (keeps_busLoad ..).any)) (.next .refl)

theorem keeps_beatRead (s : State) (n : Nat) (d : DmaDesc) (addr len : Nat) :
    Keeps Block.all true s (beatRead s n d addr len).2 :=
  .iteSnd (.iteSnd ((keeps_ctlRead ..).sub) ((keeps_refuseWidth ..).sub)) (keeps_busRead _ _ _ _ .of)

theorem acts_beatWrite (s : State) (n : Nat) (d : DmaDesc) (addr : Nat) (data : List Byte) :
    Acts Block.all true s (beatWrite s n d addr data).2 := by
  unfold beatWrite
  split
  · split
    · exact acts_ctlWrite ..
    · exact (keeps_refuseWidth ..).any
  · exact (keeps_busWrite (bs := Block.all) _ _ _ _ .of).any

theorem keeps_holdRead (s : State) (n k : Nat) (miss : Bool) : Keeps [] false s (holdRead s n k miss) :=
  .upd .refl

theorem keeps_holdWrite (s : State) (n addr : Nat) (pass : Bool) : Keeps [] false s (holdWrite s n addr pass) :=
  .upd .refl

theorem keeps_grantRead (s : State) (n : Nat) : Keeps Block.all true s (grantRead s n) := by
  unfold grantRead
  dsimp only
  split
  · exact .refl
  · exact .trans (.iteSnd .refl (keeps_beatRead ..)) (.ite .refl (((keeps_holdRead ..).sub).andThen
      (keeps_setChan ..)))

theorem acts_grantWrite (s : State) (n : Nat) : Acts Block.all true s (grantWrite s n) := by
  unfold grantWrite
  dsimp only
  split
  · rename_i d k data rest _ _
    have write (c : Bool) (o : HostOut) (addr : Nat) : Acts Block.all true s
        (if c then (true, toHost s o) else beatWrite s n d addr data).2 := by
      split
      · exact (keeps_toHost ..).any
      · exact acts_beatWrite ..
    exact .ite (write _ _ _) (((((write _ _ _).andThen (keeps_holdWrite ..)).andThen (keeps_setChan ..)).andThen
      (keeps_pointAt ..)).andThen (keeps_chSettle ..))
  · exact .refl

theorem answers_execBeatGrant (e : Nat) (s : State) : Answers (Acts Block.all true s) (execBeatGrant e s) := by
  unfold execBeatGrant
  refine .ite (.next .refl) ?_
  split
  · exact .next .refl
  · exact .next (.ite ((Acts.upd .refl).trans (acts_grantWrite ..)) ((Acts.upd .refl).trans (keeps_grantRead ..).any))

theorem keeps_trapHere (s : State) (k cause addr : Nat) : Keeps [.fcl, .sht] false s (trapHere s k cause addr) :=
  keeps_trap ..

theorem keeps_finish (s : State) (k : Nat) (f : Shuttle → Shuttle) : Keeps [] false s (finish s k f) :=
  .ite (keeps_modSht ..) .refl

theorem keeps_jump (s : State) (k pc : Nat) : Keeps [] false s (jump s k pc) := keeps_modSht ..

theorem keeps_branchIf (s : State) (k imm : Nat) (c : Bool) : Keeps [] false s (branchIf s k imm c) :=
  .ite (keeps_jump ..) (keeps_modSht ..)

theorem runs_branch2 (op k rd rs imm : Nat) (c : Word → Word → Bool) (s : State) :
    Runs s (Keeps [] false s) (branch2 op k rd rs imm c s) := runs_onInstr .refl fun _ => keeps_branchIf ..

theorem runs_execNop (k : Nat) (s : State) : Runs s (Keeps [] false s) (execNop k s) :=
  runs_onInstr .refl fun _ => keeps_modSht ..

theorem keeps_haltBody (s : State) (k : Nat) : Keeps [] false s (haltBody s k) := keeps_modSht ..

theorem runs_execHalt (k : Nat) (s : State) : Runs s (Keeps [] false s) (execHalt k s) :=
  runs_onInstr .refl fun _ => keeps_haltBody ..

theorem runs_execB (k imm : Nat) (s : State) : Runs s (Keeps [] false s) (execB k imm s) :=
  runs_onInstr .refl fun _ => keeps_branchIf ..

theorem runs_execBz (k rs imm : Nat) (s : State) : Runs s (Keeps [] false s) (execBz k rs imm s) :=
  runs_onInstr .refl fun _ => keeps_branchIf ..

theorem runs_execBnz (k rs imm : Nat) (s : State) : Runs s (Keeps [] false s) (execBnz k rs imm s) :=
  runs_onInstr .refl fun _ => keeps_branchIf ..

theorem runs_execBeq (k rd rs imm : Nat) (s : State) : Runs s (Keeps [] false s) (execBeq k rd rs imm s) :=
  runs_branch2 ..

theorem runs_execBne (k rd rs imm : Nat) (s : State) : Runs s (Keeps [] false s) (execBne k rd rs imm s) :=
  runs_branch2 ..

theorem runs_execBlt (k rd rs imm : Nat) (s : State) : Runs s (Keeps [] false s) (execBlt k rd rs imm s) :=
  runs_branch2 ..

theorem runs_execBge (k rd rs imm : Nat) (s : State) : Runs s (Keeps [] false s) (execBge k rd rs imm s) :=
  runs_branch2 ..

theorem runs_execBltu (k rd rs imm : Nat) (s : State) : Runs s (Keeps [] false s) (execBltu k rd rs imm s) :=
  runs_branch2 ..

theorem runs_execBgeu (k rd rs imm : Nat) (s : State) : Runs s (Keeps [] false s) (execBgeu k rd rs imm s) :=
  runs_branch2 ..

theorem runs_execBls (k rd imm : Nat) (s : State) : Runs s (Keeps [.fcl, .sht] false s) (execBls k rd imm s) := by
  refine runs_onInstr .refl fun _ => ?_
  split
  · exact (keeps_branchIf ..).sub
  · exact keeps_trapHere ..

theorem runs_execCall (k rd imm : Nat) (s : State) : Runs s (Keeps [] false s) (execCall k rd imm s) :=
  runs_onInstr .refl fun _ => keeps_modSht ..

theorem runs_execRet (k rs : Nat) (s : State) : Runs s (Keeps [] false s) (execRet k rs s) :=
  runs_onInstr .refl fun _ => keeps_jump ..

theorem runs_aluRr (op k rd rs : Nat) (f : Word → Word → Word) (s : State) :
    Runs s (Keeps [] false s) (aluRr op k rd rs f s) := runs_onInstr .refl fun _ => keeps_modSht ..

theorem runs_aluRi (op k rd rs imm : Nat) (f : Word → Word) (s : State) :
    Runs s (Keeps [] false s) (aluRi op k rd rs imm f s) := runs_onInstr .refl fun _ => keeps_modSht ..

theorem runs_execMov (k rd rs : Nat) (s : State) : Runs s (Keeps [] false s) (execMov k rd rs s) := runs_aluRr ..

theorem runs_execAdd (k rd rs : Nat) (s : State) : Runs s (Keeps [] false s) (execAdd k rd rs s) := runs_aluRr ..

theorem runs_execSub (k rd rs : Nat) (s : State) : Runs s (Keeps [] false s) (execSub k rd rs s) := runs_aluRr ..

theorem runs_execAnd (k rd rs : Nat) (s : State) : Runs s (Keeps [] false s) (execAnd k rd rs s) := runs_aluRr ..

theorem runs_execOr (k rd rs : Nat) (s : State) : Runs s (Keeps [] false s) (execOr k rd rs s) := runs_aluRr ..

theorem runs_execXor (k rd rs : Nat) (s : State) : Runs s (Keeps [] false s) (execXor k rd rs s) := runs_aluRr ..

theorem runs_execShl (k rd rs : Nat) (s : State) : Runs s (Keeps [] false s) (execShl k rd rs s) := runs_aluRr ..

theorem runs_execShr (k rd rs : Nat) (s : State) : Runs s (Keeps [] false s) (execShr k rd rs s) := runs_aluRr ..

theorem runs_execSar (k rd rs : Nat) (s : State) : Runs s (Keeps [] false s) (execSar k rd rs s) := runs_aluRr ..

theorem runs_execMul (k rd rs : Nat) (s : State) : Runs s (Keeps [] false s) (execMul k rd rs s) := runs_aluRr ..

theorem runs_execGetls (k rd : Nat) (s : State) : Runs s (Keeps [] false s) (execGetls k rd s) :=
  runs_onInstr .refl fun _ => keeps_modSht ..

theorem runs_execTime (k rd : Nat) (s : State) : Runs s (Keeps [] false s) (execTime k rd s) :=
  runs_onInstr .refl fun _ => keeps_modSht ..

theorem runs_execLdi (k rd imm : Nat) (s : State) : Runs s (Keeps [] false s) (execLdi k rd imm s) :=
  runs_onInstr .refl fun _ => keeps_modSht ..

theorem runs_execMovk (k rd rs imm : Nat) (s : State) : Runs s (Keeps [] false s) (execMovk k rd rs imm s) :=
  runs_onInstr .refl fun _ => keeps_modSht ..

theorem runs_execAddi (k rd rs imm : Nat) (s : State) : Runs s (Keeps [] false s) (execAddi k rd rs imm s) :=
  runs_aluRi ..

theorem runs_execAndi (k rd rs imm : Nat) (s : State) : Runs s (Keeps [] false s) (execAndi k rd rs imm s) :=
  runs_aluRi ..

theorem runs_execOri (k rd rs imm : Nat) (s : State) : Runs s (Keeps [] false s) (execOri k rd rs imm s) :=
  runs_aluRi ..

theorem runs_execXori (k rd rs imm : Nat) (s : State) : Runs s (Keeps [] false s) (execXori k rd rs imm s) :=
  runs_aluRi ..

theorem runs_execShli (k rd rs imm : Nat) (s : State) : Runs s (Keeps [] false s) (execShli k rd rs imm s) :=
  runs_aluRi ..

theorem runs_execShri (k rd rs imm : Nat) (s : State) : Runs s (Keeps [] false s) (execShri k rd rs imm s) :=
  runs_aluRi ..

theorem runs_execSari (k rd rs imm : Nat) (s : State) : Runs s (Keeps [] false s) (execSari k rd rs imm s) :=
  runs_aluRi ..

theorem runs_execExtr (k rd rs imm : Nat) (s : State) : Runs s (Keeps [] false s) (execExtr k rd rs imm s) :=
  runs_aluRi ..

theorem runs_lsLoad (op n k rd rs imm : Nat) (s : State) :
    Runs s (Keeps [.fcl, .sht] false s) (lsLoad op n k rd rs imm s) :=
  runs_onInstr .refl fun _ => .ite ((keeps_modSht ..).sub) (keeps_trapHere ..)

theorem runs_lsPut (op n k rd rs imm : Nat) (s : State) :
    Runs s (Keeps [.fcl, .sht] false s) (lsPut op n k rd rs imm s) :=
  runs_onInstr .refl fun _ => .ite ((keeps_modSht ..).sub) (keeps_trapHere ..)

theorem runs_execLd (k rd rs imm : Nat) (s : State) : Runs s (Keeps [.fcl, .sht] false s) (execLd k rd rs imm s) :=
  runs_lsLoad ..

theorem runs_execSt (k rd rs imm : Nat) (s : State) : Runs s (Keeps [.fcl, .sht] false s) (execSt k rd rs imm s) :=
  runs_lsPut ..

theorem runs_execLd32 (k rd rs imm : Nat) (s : State) :
    Runs s (Keeps [.fcl, .sht] false s) (execLd32 k rd rs imm s) := runs_lsLoad ..

theorem runs_execSt32 (k rd rs imm : Nat) (s : State) :
    Runs s (Keeps [.fcl, .sht] false s) (execSt32 k rd rs imm s) := runs_lsPut ..

theorem runs_fabLoad (op n k rd rs imm : Nat) (s : State) :
    Runs s (Keeps Block.all true s) (fabLoad op n k rd rs imm s) :=
  runs_onInstr .refl fun _ => (keeps_busLoad ..).andThen (keeps_finish ..)

theorem runs_fabStore (op n k rd rs imm : Nat) (s : State) :
    Runs s (Acts Block.all true s) (fabStore op n k rd rs imm s) :=
  runs_onInstr .refl fun _ => (acts_busStore ..).andThen (keeps_finish ..)

theorem runs_execBld (k rd rs imm : Nat) (s : State) : Runs s (Keeps Block.all true s) (execBld k rd rs imm s) :=
  runs_fabLoad ..

theorem runs_execBst (k rd rs imm : Nat) (s : State) : Runs s (Acts Block.all true s) (execBst k rd rs imm s) :=
  runs_fabStore ..

theorem runs_execBld32 (k rd rs imm : Nat) (s : State) : Runs s (Keeps Block.all true s) (execBld32 k rd rs imm s) :=
  runs_fabLoad ..

theorem runs_execBst32 (k rd rs imm : Nat) (s : State) : Runs s (Acts Block.all true s) (execBst32 k rd rs imm s) :=
  runs_fabStore ..

theorem keeps_lineAccess (s : State) (addr : Nat) (data : Option (List Byte)) :
    Keeps [.fcl, .bfm, .syc] true s (lineAccess s addr data).2 := by
  refine .iteSnd (keeps_busDecode _ _ (by decide)) (.iteSnd ((keeps_refuseWidth ..).sub) ?_)
  split
  · exact keeps_busRead _ _ _ _ .of
  · exact keeps_busWrite _ _ _ _ .of

theorem keeps_copyIn_ (k fa la n : Nat) : ∀ (j : Nat) (s : State),
    Keeps [.fcl, .bfm, .syc] true s (copyIn_ k fa la n j s).2 := by
  induction n with
  | zero => exact fun _ s => .refl
  | succ n ih =>
    intro j s
    unfold copyIn_
    split
    · rename_i e
      exact (keeps_lineAccess ..).ofSnd e
    · rename_i e
      exact (((keeps_lineAccess ..).ofSnd e).andThen (keeps_modSht ..)).trans (ih _ _)

theorem keeps_copyOut (k fa la n : Nat) : ∀ (j : Nat) (s : State),
    Keeps [.fcl, .bfm, .syc] true s (copyOut k fa la n j s).2 := by
  induction n with
  | zero => exact fun _ s => .refl
  | succ n ih =>
    intro j s
    unfold copyOut
    split
    · rename_i e
      exact (keeps_lineAccess ..).ofSnd e
    · rename_i e
      exact ((keeps_lineAccess ..).ofSnd e).trans (ih _ _)

theorem runs_copyLines (op k rd rs imm : Nat) (s : State) :
    Runs s (Keeps [.fcl, .sht, .bfm, .syc] true s) (copyLines op k rd rs imm s) := by
  refine runs_onInstr .refl fun _ => .ite ?_ (keeps_trapHere ..).sub
  exact .andThen (.iteSnd (keeps_copyIn_ _ _ _ _ _ _).sub (keeps_copyOut _ _ _ _ _ _).sub) (keeps_finish ..)

theorem runs_execBin (k rd rs imm : Nat) (s : State) :
    Runs s (Keeps [.fcl, .sht, .bfm, .syc] true s) (execBin k rd rs imm s) := runs_copyLines ..

theorem runs_execBout (k rd rs imm : Nat) (s : State) :
    Runs s (Keeps [.fcl, .sht, .bfm, .syc] true s) (execBout k rd rs imm s) := runs_copyLines ..

theorem runs_execSubmit (k rd rs : Nat) (s : State) : Runs s (Keeps [.fcl, .dcp] false s) (execSubmit k rd rs s) :=
  runs_onInstr .refl fun _ => .andThen (.iteSnd (keeps_submitJob ..) .refl) (keeps_modSht ..)

theorem keeps_awaitBody (s : State) (k : Nat) (i : Ins) : Keeps [.fcl, .dcp] false s (awaitBody s k i) :=
  .ite ((keeps_modSht ..).sub) (.ite ((keeps_modSht ..).sub) ((keeps_popRecord ..).andThen (keeps_modSht ..)))

theorem runs_execAwait (k rd rs imm : Nat) (s : State) :
    Runs s (Keeps [.fcl, .dcp] false s) (execAwait k rd rs imm s) :=
  runs_onInstr .refl fun _ => keeps_awaitBody ..

theorem keeps_pushBody (s : State) (k : Nat) (i : Ins) : Keeps [.fcl, .sht] false s (pushBody s k i) :=
  .ite (keeps_trapHere ..) (.ite (.ite ((keeps_modSht ..).sub) ((keeps_modSht ..).sub))
    (((keeps_spoolPut ..).sub).andThen (keeps_modSht ..)))

theorem runs_execPush (k rs imm : Nat) (s : State) : Runs s (Keeps [.fcl, .sht] false s) (execPush k rs imm s) :=
  runs_onInstr .refl fun _ => keeps_pushBody ..

theorem keeps_popBody (s : State) (k : Nat) (i : Ins) (bad : Bool) :
    Keeps [.fcl, .sht, .spl] false s (popBody s k i bad) :=
  .ite ((keeps_trapHere ..).sub) (.ite ((keeps_modSht ..).sub) (((keeps_spoolGet ..).sub).andThen
    (keeps_modSht ..)))

theorem runs_execPop (k rd imm : Nat) (bad : Bool) (s : State) :
    Runs s (Keeps [.fcl, .sht, .spl] false s) (execPop k rd imm bad s) :=
  runs_onInstr .refl fun _ => keeps_popBody ..

theorem runs_execSpdrop (k imm : Nat) (s : State) : Runs s (Keeps [.fcl, .sht] false s) (execSpdrop k imm s) :=
  runs_onInstr .refl fun _ => .ite (keeps_trapHere ..) (((keeps_spoolDrop ..).sub).andThen (keeps_modSht ..))

theorem runs_execSlotStatus (k rd rs : Nat) (s : State) : Runs s (Keeps [] false s) (execSlotStatus k rd rs s) := by
  refine runs_onInstr .refl fun _ => ?_
  split
  · exact keeps_modSht ..
  · exact keeps_modSht ..

theorem runs_execComplete (k rd rs : Nat) (s : State) :
    Runs s (Keeps [.ckr, .fcl, .evr, .gly, .bfm, .syc] true s) (execComplete k rd rs s) :=
  runs_onInstr .refl fun _ => (keeps_slotComplete ..).andThen (keeps_modSht ..)

theorem runs_execHold (k rs imm : Nat) (s : State) :
    Runs s (Keeps [.ckr, .fcl, .evr, .gly, .bfm, .syc] true s) (execHold k rs imm s) :=
  runs_onInstr .refl fun _ => (keeps_slotHold ..).andThen (keeps_modSht ..)

theorem runs_execWait (k rd rs imm : Nat) (s : State) :
    Runs s (Keeps [.fcl, .sht] false s) (execWait k rd rs imm s) := by
  refine runs_onInstr .refl fun _ => .ite (keeps_trapHere ..) ?_
  split
  · exact (keeps_modSht ..).sub
  · exact .ite ((keeps_modSht ..).sub) ((keeps_modSht ..).sub)

theorem runs_execSpawn (k rs imm : Nat) (s : State) : Runs s (Keeps [.fcl, .sht] false s) (execSpawn k rs imm s) := by
  refine runs_onInstr .refl fun _ => .ite (keeps_trapHere ..) (.ite ((keeps_modSht ..).sub) ?_)
  split
  · rename_i e
    exact ((keeps_dequePush e).sub).andThen (keeps_modSht ..)
  · exact (keeps_modSht ..).sub

theorem keeps_saveFrame (s : State) (k f : Nat) (i : Ins) (e : Event) : Keeps [.sht] false s (saveFrame s k f i e) :=
  (keeps_setSht ..).trans (keeps_bump _ _ _ _ (by decide))

theorem runs_execYield (k rd rs imm : Nat) (s : State) :
    Runs s (Keeps [.fcl, .sht] false s) (execYield k rd rs imm s) := by
  refine runs_onInstr .refl fun _ => .ite (keeps_trapHere ..) ?_
  split
  · exact (keeps_modSht ..).sub
  · split
    · exact (keeps_saveFrame ..).sub
    · exact (keeps_modSht ..).sub

theorem runs_execBarrier (k rd rs imm : Nat) (s : State) : Runs s (Keeps [] false s) (execBarrier k rd rs imm s) :=
  runs_onInstr .refl fun _ => .ite ((keeps_arrive ..).andThen (keeps_modSht ..)) (keeps_modSht ..)

theorem runs_execTrap (k cause addr : Nat) (s : State) : Runs s (Keeps [.fcl, .sht, .bfm] false s) (execTrap k cause addr s) := by
  unfold execTrap
  dsimp only
  split
  · exact .inl (.next .refl)
  · rename_i hr
    split
    · exact .inl (.next (keeps_trap ..).sub)
    · split
      · split
        · rename_i hp
          exact .inr ⟨rfl, ⟨_, hp⟩, k, by simpa using hr⟩
        · exact .inl (.next (keeps_trapHere ..).sub)
      · exact .inl (.ite (.next ((keeps_sramUe ..).sub.andThen (keeps_trapHere ..)))
          (.ite (.next ((keeps_sramUe ..).sub.andThen (keeps_trapHere ..))) (.next .refl)))

theorem keeps_putOp (s : State) (k tag : Nat) (m : MediaOp) : Keeps [] false s (putOp s k tag m) :=
  keeps_modSht ..

theorem keeps_claimRun (s : State) (k tag : Nat) (m : MediaOp) (d : Desc) :
    Keeps [.lne] false s (claimRun s k tag m d) := by
  unfold claimRun
  split
  · exact (keeps_putOp ..).sub
  · exact (((keeps_setCtx ..).sub).andThen (keeps_putOp ..)).andThen (keeps_laneRequest ..)

theorem keeps_handOver (s : State) (k tag : Nat) (m : MediaOp) (d : Desc) :
    Keeps [.lne, .wrp, .hdl] false s (handOver s k tag m d) := by
  unfold handOver
  split
  · exact .ite ((keeps_mediaSeek ..).sub) ((((keeps_putOp ..).sub).andThen (keeps_requestSwitch ..)).trans (.ite
      .refl ((keeps_putOp ..).sub)))
  · exact (keeps_wrpRequest ..).sub
  · exact (keeps_claimRun ..).sub

theorem keeps_mediaBody (s : State) (k : Nat) (kind : MediaKind) (i : Ins) :
    Keeps [.fcl, .sht, .lne, .wrp, .hdl] false s (mediaBody s k kind i) := by
  refine .ite ((keeps_trapHere ..).sub) ?_
  split
  · exact (keeps_modSht ..).sub
  · exact (((keeps_modSht ..).sub).trans (.ite (((keeps_putOp ..).sub).andThen (keeps_handOver ..))
      ((keeps_putOp ..).sub))).andThen (keeps_mediaComplete ..)

theorem runs_mediaOp (op k rd imm : Nat) (kind : MediaKind) (s : State) :
    Runs s (Keeps [.fcl, .sht, .lne, .wrp, .hdl] false s) (mediaOp op k rd imm kind s) :=
  runs_onInstr .refl fun _ => keeps_mediaBody ..

theorem runs_execSeek (k rd imm : Nat) (s : State) :
    Runs s (Keeps [.fcl, .sht, .lne, .wrp, .hdl] false s) (execSeek k rd imm s) := runs_mediaOp ..

theorem runs_execRdrun (k rd imm : Nat) (s : State) :
    Runs s (Keeps [.fcl, .sht, .lne, .wrp, .hdl] false s) (execRdrun k rd imm s) := runs_mediaOp ..

theorem runs_execWrrun (k rd imm : Nat) (s : State) :
    Runs s (Keeps [.fcl, .sht, .lne, .wrp, .hdl] false s) (execWrrun k rd imm s) := runs_mediaOp ..

theorem runs_execVerify (k rd imm : Nat) (s : State) :
    Runs s (Keeps [.fcl, .sht, .lne, .wrp, .hdl] false s) (execVerify k rd imm s) := runs_mediaOp ..

theorem runs_execMabort (k rs : Nat) (s : State) :
    Runs s (Keeps [.cal, .fcl, .lne, .wrp, .svg, .spn] false s) (execMabort k rs s) := by
  refine runs_onInstr .refl fun _ => ?_
  dsimp only
  split
  · exact .ite ((keeps_endOp ..).andThen (keeps_modSht ..)) ((keeps_modSht ..).sub)
  · exact (keeps_modSht ..).sub

theorem keeps_retry {s t : State} {k : Nat} (h : retry s k = some t) :
    Keeps [.fcl, .sht, .lne, .dcp, .wrp, .hdl, .spl] false s t := by
  have run : Keeps [.fcl, .sht, .lne, .dcp, .wrp, .hdl, .spl] false s (modSht s k (fun x => { x with st := .run })) :=
    (keeps_modSht ..).sub
  unfold retry at h
  dsimp only at h
  split at h <;> cases h
  · exact run.andThen (keeps_haltBody ..)
  · exact run.andThen (keeps_mediaBody ..)
  · exact run.andThen (keeps_mediaBody ..)
  · exact run.andThen (keeps_mediaBody ..)
  · exact run.andThen (keeps_mediaBody ..)
  · exact run.andThen (keeps_awaitBody ..)
  · exact run.andThen (keeps_pushBody ..)
  · exact run.andThen (keeps_popBody ..)

theorem answers_execStallRelease (k tag : Nat) (s : State) :
    Answers (Keeps [.fcl, .sht, .lne, .dcp, .wrp, .hdl, .spl] false s) (execStallRelease k tag s) := by
  refine .ite (.next .refl) (.ite ?_ (.ite ?_ (.next .refl)))
  · split
    · exact .ite (.next (((keeps_claimRun ..).sub).andThen (keeps_mediaComplete ..))) (.next .refl)
    · exact .next .refl
  · split
    · rename_i e
      exact .next (keeps_retry e)
    · exact .next .refl

theorem keeps_lifeMs (s : State) : Keeps [] false s (lifeMs s) :=
  ((keeps_when _ _ _ (fun _ => keeps_lifePart ..)).trans (keeps_when _ _ _ (fun _ => keeps_lifePart ..))).trans
    (keeps_when _ _ _ (fun _ => keeps_lifePart ..))

theorem keeps_drivePeriod (s : State) : Keeps [] false s (drivePeriod s) :=
  .ite (.upd .refl) (.andThen (.upd .refl) (keeps_lifeMs ..))

theorem keeps_countPeriod (s : State) : Keeps [.svc] false s (countPeriod s) :=
  .trans (.trans (.upd .refl) (keeps_wr _ _ _ _ (by decide))) (keeps_each _ _ (fun _ _ =>
    (keeps_beginSector ..).sub) _)

theorem keeps_tick (s : State) : Keeps [.svc] false s (tick s) :=
  .trans (.ite .refl ((keeps_drivePeriod ..).sub)) (.ite .refl (keeps_countPeriod ..))


end Sys2Proof.Machine

end

section
-- `decide` waits for the kernel: a thread for each of these proofs would exhaust the memory limit.
set_option Elab.async false

namespace Sys2Proof.Machine

/-- A change of a footprint is within the one a command is given. -/
def within (cs : List Block) (n : Bool) (c : Instr) : Bool :=
  cs.all (fun b => decide (b ∈ blocksOf c)) && (storesMemory c || !n)

theorem Acts.within {cs : List Block} {n : Bool} {c : Instr} {s t : State} (h : Acts cs n s t)
    (w : Machine.within cs n c = true) : Acts (blocksOf c) (storesMemory c) s t := by
  obtain ⟨hb, hm⟩ := Bool.and_eq_true_iff.1 w
  refine h.sub (fun b hc => by simpa using List.all_eq_true.1 hb b hc) fun hf => ?_
  simpa [hf] using hm

/-- A command's meaning keeps to the footprint given for it, and only a Coava instruction that meets the patch RAM has no
next state. -/
def Meets (c : Instr) (s : State) (r : Result) : Prop :=
  if coava c then Runs s (Acts (blocksOf c) (storesMemory c) s) r else Answers (Acts (blocksOf c) (storesMemory c) s) r

namespace Meets

variable {cs : List Block} {n : Bool} {c : Instr} {s : State} {r : Result}

theorem ofActs (h : Answers (Acts cs n s) r) (w : (!coava c && within cs n c) = true) : Meets c s r := by
  obtain ⟨hc, hw⟩ := Bool.and_eq_true_iff.1 w
  rw [Meets, if_neg (by simpa using hc)]
  exact h.mono fun _ k => k.within hw

theorem ofKeeps (h : Answers (Keeps cs n s) r) (w : (!coava c && within cs n c) = true) : Meets c s r :=
  ofActs (h.mono fun _ k => k.acts) w

theorem ofRunsActs (h : Runs s (Acts cs n s) r) (w : (coava c && within cs n c) = true) : Meets c s r := by
  obtain ⟨hc, hw⟩ := Bool.and_eq_true_iff.1 w
  rw [Meets, if_pos hc]
  exact h.mono fun _ k => k.within hw

theorem ofRuns (h : Runs s (Keeps cs n s) r) (w : (coava c && within cs n c) = true) : Meets c s r :=
  ofRunsActs (h.mono fun _ k => k.acts) w

theorem runs (h : Meets c s r) : Runs s (Acts (blocksOf c) (storesMemory c) s) r := by
  unfold Meets at h
  split at h
  · exact h
  · exact .inl h

theorem answers (h : Meets c s r) (hc : coava c = false) : Answers (Acts (blocksOf c) (storesMemory c) s) r := by
  rwa [Meets, if_neg (by simp [hc])] at h

end Meets

/-- Every command's meaning. -/
theorem meets_exec (c : Instr) (s : State) : Meets c s (exec c s) :=
  match c with
  | .registerWrite .. => .ofActs (answers_execRegisterWrite ..) rfl
  | .undecodedAccess .. => .ofActs (answers_execUndecodedAccess ..) rfl
  | .powerOn .. => .ofKeeps (answers_execPowerOn ..) rfl
  | .railFault .. => .ofKeeps (answers_execRailFault ..) rfl
  | .xtalFault => .ofKeeps (answers_execXtalFault ..) rfl
  | .pllLockLoss .. => .ofKeeps (answers_execPllLockLoss ..) rfl
  | .rstNAssert => .ofKeeps (answers_execRstNAssert ..) rfl
  | .chipReset => .ofKeeps (answers_execChipReset ..) rfl
  | .resetRelease .. => .ofKeeps (answers_execResetRelease ..) rfl
  | .otpRead .. => .ofActs (answers_execOtpRead ..) rfl
  | .boot => .ofKeeps (answers_execBoot ..) rfl
  | .vinLoss => .ofKeeps (answers_execVinLoss ..) rfl
  | .flushCommit => .ofKeeps (answers_execFlushCommit ..) rfl
  | .quiesceLogic .. => .ofKeeps (answers_execQuiesceLogic ..) rfl
  | .vinReturn => .ofKeeps (answers_execVinReturn ..) rfl
  | .holdUpEnd => .ofKeeps (answers_execHoldUpEnd ..) rfl
  | .timeStoreWrite => .ofKeeps (answers_execTimeStoreWrite ..) rfl
  | .linkLoss => .ofKeeps (answers_execLinkLoss ..) rfl
  | .retractEnd => .ofKeeps (answers_execRetractEnd ..) rfl
  | .fwReadyWrite .. => .ofKeeps (answers_execFwReadyWrite ..) rfl
  | .shutdown => .ofKeeps (answers_execShutdown ..) rfl
  | .pspFrameLaunch .. => .ofKeeps (answers_execPspFrameLaunch ..) rfl
  | .pspFrameEnd .. => .ofKeeps (answers_execPspFrameEnd ..) rfl
  | .preampFault .. => .ofKeeps (answers_execPreampFault ..) rfl
  | .headmapLock .. => .ofKeeps (answers_execHeadmapLock ..) rfl
  | .headSwitchRequest .. => .ofKeeps (answers_execHeadSwitchRequest ..) rfl
  | .headSwitchDone .. => .ofKeeps (answers_execHeadSwitchDone ..) rfl
  | .tagAuthentication => .ofKeeps (answers_execTagAuthentication ..) rfl
  | .tagResponse .. => .ofKeeps (answers_execTagResponse ..) rfl
  | .tagNoResponse => .ofKeeps (answers_execTagNoResponse ..) rfl
  | .tagRetry => .ofKeeps (answers_execTagRetry ..) rfl
  | .tagRepair .. => .ofKeeps (answers_execTagRepair ..) rfl
  | .lifeCommit .. => .ofKeeps (answers_execLifeCommit ..) rfl
  | .lifeCommitTimer => .ofKeeps (answers_execLifeCommitTimer ..) rfl
  | .hdlBlockReset => .ofKeeps (answers_execHdlBlockReset ..) rfl
  | .laneRateWrite .. => .ofKeeps (answers_execLaneRateWrite ..) rfl
  | .rateLocked .. => .ofKeeps (answers_execRateLocked ..) rfl
  | .sectorPreambleStart .. => .ofKeeps (answers_execSectorPreambleStart ..) rfl
  | .acquireEnd .. => .ofKeeps (answers_execAcquireEnd ..) rfl
  | .markADecision .. => .ofKeeps (answers_execMarkADecision ..) rfl
  | .markBDecision .. => .ofKeeps (answers_execMarkBDecision ..) rfl
  | .spliceGapEnd .. => .ofKeeps (answers_execSpliceGapEnd ..) rfl
  | .pairSlip .. => .ofKeeps (answers_execPairSlip ..) rfl
  | .flaggedSpanOverrun .. => .ofKeeps (answers_execFlaggedSpanOverrun ..) rfl
  | .retainPin .. => .ofKeeps (answers_execRetainPin ..) rfl
  | .retainUnpin .. => .ofKeeps (answers_execRetainUnpin ..) rfl
  | .replayRequest .. => .ofKeeps (answers_execReplayRequest ..) rfl
  | .replayStart .. => .ofKeeps (answers_execReplayStart ..) rfl
  | .replayDone .. => .ofKeeps (answers_execReplayDone ..) rfl
  | .laneBlockReset .. => .ofKeeps (answers_execLaneBlockReset ..) rfl
  | .trailerArrival .. => .ofKeeps (answers_execTrailerArrival ..) rfl
  | .decoderSelect .. => .ofKeeps (answers_execDecoderSelect ..) rfl
  | .decodeConverged .. => .ofKeeps (answers_execDecodeConverged ..) rfl
  | .decodeCap .. => .ofKeeps (answers_execDecodeCap ..) rfl
  | .earlyPin .. => .ofKeeps (answers_execEarlyPin ..) rfl
  | .decodeYield .. => .ofKeeps (answers_execDecodeYield ..) rfl
  | .writebackDone .. => .ofKeeps (answers_execWritebackDone ..) rfl
  | .decodeDeadline .. => .ofKeeps (answers_execDecodeDeadline ..) rfl
  | .entryUrgent .. => .ofKeeps (answers_execEntryUrgent ..) rfl
  | .recoveryJobAged .. => .ofKeeps (answers_execRecoveryJobAged ..) rfl
  | .recoveryTimeout .. => .ofKeeps (answers_execRecoveryTimeout ..) rfl
  | .dcpCplRead .. => .ofKeeps (answers_execDcpCplRead ..) rfl
  | .dcpSubmit .. => .ofKeeps (answers_execDcpSubmit ..) rfl
  | .decoderMemoryError .. => .ofKeeps (answers_execDecoderMemoryError ..) rfl
  | .dcpBlockReset => .ofKeeps (answers_execDcpBlockReset ..) rfl
  | .sectorFetchDone .. => .ofKeeps (answers_execSectorFetchDone ..) rfl
  | .dataLate .. => .ofKeeps (answers_execDataLate ..) rfl
  | .preheatSlip .. => .ofKeeps (answers_execPreheatSlip ..) rfl
  | .wgRise .. => .ofKeeps (answers_execWgRise ..) rfl
  | .sectorWritten .. => .ofKeeps (answers_execSectorWritten ..) rfl
  | .writeRunEnd .. => .ofKeeps (answers_execWriteRunEnd ..) rfl
  | .wrpBlockReset => .ofKeeps (answers_execWrpBlockReset ..) rfl
  | .pesSample .. => .ofKeeps (answers_execPesSample ..) rfl
  | .toneLock .. => .ofKeeps (answers_execToneLock ..) rfl
  | .stripeCrossing .. => .ofKeeps (answers_execStripeCrossing ..) rfl
  | .identityFrame .. => .ofKeeps (answers_execIdentityFrame ..) rfl
  | .svgBlockReset .. => .ofKeeps (answers_execSvgBlockReset ..) rfl
  | .lawTick .. => .ofKeeps (answers_execLawTick ..) rfl
  | .settleCriteriaMet .. => .ofKeeps (answers_execSettleCriteriaMet ..) rfl
  | .offTrackClear .. => .ofKeeps (answers_execOffTrackClear ..) rfl
  | .residualFail .. => .ofKeeps (answers_execResidualFail ..) rfl
  | .coastMaxReached .. => .ofKeeps (answers_execCoastMaxReached ..) rfl
  | .loadStripeFound .. => .ofKeeps (answers_execLoadStripeFound ..) rfl
  | .loadTimeout .. => .ofKeeps (answers_execLoadTimeout ..) rfl
  | .acquireTimeout .. => .ofKeeps (answers_execAcquireTimeout ..) rfl
  | .settleTimeout .. => .ofKeeps (answers_execSettleTimeout ..) rfl
  | .holdTimeout .. => .ofKeeps (answers_execHoldTimeout ..) rfl
  | .unloadDriveEnd .. => .ofKeeps (answers_execUnloadDriveEnd ..) rfl
  | .parkHoldEnd .. => .ofKeeps (answers_execParkHoldEnd ..) rfl
  | .cteSeek .. => .ofKeeps (answers_execCteSeek ..) rfl
  | .load .. => .ofKeeps (answers_execLoad ..) rfl
  | .park .. => .ofKeeps (answers_execPark ..) rfl
  | .resume .. => .ofKeeps (answers_execResume ..) rfl
  | .extEnable .. => .ofKeeps (answers_execExtEnable ..) rfl
  | .cteBlockReset => .ofKeeps (answers_execCteBlockReset ..) rfl
  | .start => .ofKeeps (answers_execStart ..) rfl
  | .stop => .ofKeeps (answers_execStop ..) rfl
  | .clear => .ofKeeps (answers_execClear ..) rfl
  | .setSpeedWrite .. => .ofKeeps (answers_execSetSpeedWrite ..) rfl
  | .bemfCrossing .. => .ofKeeps (answers_execBemfCrossing ..) rfl
  | .predictedCrossing => .ofKeeps (answers_execPredictedCrossing ..) rfl
  | .crossingWindowTimeout => .ofKeeps (answers_execCrossingWindowTimeout ..) rfl
  | .senseEnd .. => .ofKeeps (answers_execSenseEnd ..) rfl
  | .brakeRevEnd => .ofKeeps (answers_execBrakeRevEnd ..) rfl
  | .brakeRevTimeout => .ofKeeps (answers_execBrakeRevTimeout ..) rfl
  | .brakeSettleEnd => .ofKeeps (answers_execBrakeSettleEnd ..) rfl
  | .alignEnd => .ofKeeps (answers_execAlignEnd ..) rfl
  | .rampTimeout => .ofKeeps (answers_execRampTimeout ..) rfl
  | .catchTimeout => .ofKeeps (answers_execCatchTimeout ..) rfl
  | .spinupTimeout => .ofKeeps (answers_execSpinupTimeout ..) rfl
  | .brakeEnd => .ofKeeps (answers_execBrakeEnd ..) rfl
  | .atSpeedChange => .ofKeeps (answers_execAtSpeedChange ..) rfl
  | .spsyncEdge .. => .ofKeeps (answers_execSpsyncEdge ..) rfl
  | .syncFree => .ofKeeps (answers_execSyncFree ..) rfl
  | .spnBlockReset => .ofKeeps (answers_execSpnBlockReset ..) rfl
  | .vmLow .. => .ofKeeps (answers_execVmLow ..) rfl
  | .vmOkRise .. => .ofKeeps (answers_execVmOkRise ..) rfl
  | .clampOn .. => .ofKeeps (answers_execClampOn ..) rfl
  | .clampOff .. => .ofKeeps (answers_execClampOff ..) rfl
  | .vmTrip .. => .ofKeeps (answers_execVmTrip ..) rfl
  | .chopOpen .. => .ofKeeps (answers_execChopOpen ..) rfl
  | .chopStuck .. => .ofKeeps (answers_execChopStuck ..) rfl
  | .thermalWarning .. => .ofKeeps (answers_execThermalWarning ..) rfl
  | .thermalShutdown .. => .ofKeeps (answers_execThermalShutdown ..) rfl
  | .vcmShort .. => .ofKeeps (answers_execVcmShort ..) rfl
  | .boostFault => .ofKeeps (answers_execBoostFault ..) rfl
  | .boostOk => .ofKeeps (answers_execBoostOk ..) rfl
  | .pwsFaultClear .. => .ofKeeps (answers_execPwsFaultClear ..) rfl
  | .pwsBlockReset => .ofKeeps (answers_execPwsBlockReset ..) rfl
  | .shuttleEnable .. => .ofKeeps (answers_execShuttleEnable ..) rfl
  | .shuttleReset .. => .ofKeeps (answers_execShuttleReset ..) rfl
  | .shuttleDisable .. => .ofKeeps (answers_execShuttleDisable ..) rfl
  | .shuttleResume .. => .ofKeeps (answers_execShuttleResume ..) rfl
  | .shtBlockReset => .ofKeeps (answers_execShtBlockReset ..) rfl
  | .taskTake .. => .ofKeeps (answers_execTaskTake ..) rfl
  | .trap .. => .ofRuns (runs_execTrap ..) rfl
  | .taskTimeout .. => .ofKeeps (answers_execTaskTimeout ..) rfl
  | .stallRelease .. => .ofKeeps (answers_execStallRelease ..) rfl
  | .waitEvent .. => .ofKeeps (answers_execWaitEvent ..) rfl
  | .waitTimeout .. => .ofKeeps (answers_execWaitTimeout ..) rfl
  | .frameReady .. => .ofKeeps (answers_execFrameReady ..) rfl
  | .mediaOpComplete .. => .ofKeeps (answers_execMediaOpComplete ..) rfl
  | .mediaTimeout .. => .ofKeeps (answers_execMediaTimeout ..) rfl
  | .nop .. => .ofRuns (runs_execNop ..) rfl
  | .halt .. => .ofRuns (runs_execHalt ..) rfl
  | .b .. => .ofRuns (runs_execB ..) rfl
  | .bz .. => .ofRuns (runs_execBz ..) rfl
  | .bnz .. => .ofRuns (runs_execBnz ..) rfl
  | .beq .. => .ofRuns (runs_execBeq ..) rfl
  | .bne .. => .ofRuns (runs_execBne ..) rfl
  | .blt .. => .ofRuns (runs_execBlt ..) rfl
  | .bge .. => .ofRuns (runs_execBge ..) rfl
  | .bltu .. => .ofRuns (runs_execBltu ..) rfl
  | .bgeu .. => .ofRuns (runs_execBgeu ..) rfl
  | .bls .. => .ofRuns (runs_execBls ..) rfl
  | .call .. => .ofRuns (runs_execCall ..) rfl
  | .ret .. => .ofRuns (runs_execRet ..) rfl
  | .mov .. => .ofRuns (runs_execMov ..) rfl
  | .add .. => .ofRuns (runs_execAdd ..) rfl
  | .sub .. => .ofRuns (runs_execSub ..) rfl
  | .and .. => .ofRuns (runs_execAnd ..) rfl
  | .or .. => .ofRuns (runs_execOr ..) rfl
  | .xor .. => .ofRuns (runs_execXor ..) rfl
  | .shl .. => .ofRuns (runs_execShl ..) rfl
  | .shr .. => .ofRuns (runs_execShr ..) rfl
  | .sar .. => .ofRuns (runs_execSar ..) rfl
  | .mul .. => .ofRuns (runs_execMul ..) rfl
  | .getls .. => .ofRuns (runs_execGetls ..) rfl
  | .time .. => .ofRuns (runs_execTime ..) rfl
  | .ldi .. => .ofRuns (runs_execLdi ..) rfl
  | .movk .. => .ofRuns (runs_execMovk ..) rfl
  | .addi .. => .ofRuns (runs_execAddi ..) rfl
  | .andi .. => .ofRuns (runs_execAndi ..) rfl
  | .ori .. => .ofRuns (runs_execOri ..) rfl
  | .xori .. => .ofRuns (runs_execXori ..) rfl
  | .shli .. => .ofRuns (runs_execShli ..) rfl
  | .shri .. => .ofRuns (runs_execShri ..) rfl
  | .sari .. => .ofRuns (runs_execSari ..) rfl
  | .extr .. => .ofRuns (runs_execExtr ..) rfl
  | .ld .. => .ofRuns (runs_execLd ..) rfl
  | .st .. => .ofRuns (runs_execSt ..) rfl
  | .ld32 .. => .ofRuns (runs_execLd32 ..) rfl
  | .st32 .. => .ofRuns (runs_execSt32 ..) rfl
  | .seek .. => .ofRuns (runs_execSeek ..) rfl
  | .rdrun .. => .ofRuns (runs_execRdrun ..) rfl
  | .wrrun .. => .ofRuns (runs_execWrrun ..) rfl
  | .verify .. => .ofRuns (runs_execVerify ..) rfl
  | .mabort .. => .ofRuns (runs_execMabort ..) rfl
  | .bld .. => .ofRuns (runs_execBld ..) rfl
  | .bst .. => .ofRunsActs (runs_execBst ..) rfl
  | .bld32 .. => .ofRuns (runs_execBld32 ..) rfl
  | .bst32 .. => .ofRunsActs (runs_execBst32 ..) rfl
  | .bin .. => .ofRuns (runs_execBin ..) rfl
  | .bout .. => .ofRuns (runs_execBout ..) rfl
  | .submit .. => .ofRuns (runs_execSubmit ..) rfl
  | .await .. => .ofRuns (runs_execAwait ..) rfl
  | .push .. => .ofRuns (runs_execPush ..) rfl
  | .pop .. => .ofRuns (runs_execPop ..) rfl
  | .spdrop .. => .ofRuns (runs_execSpdrop ..) rfl
  | .slotStatus .. => .ofRuns (runs_execSlotStatus ..) rfl
  | .complete .. => .ofRuns (runs_execComplete ..) rfl
  | .hold .. => .ofRuns (runs_execHold ..) rfl
  | .wait .. => .ofRuns (runs_execWait ..) rfl
  | .spawn .. => .ofRuns (runs_execSpawn ..) rfl
  | .yield .. => .ofRuns (runs_execYield ..) rfl
  | .barrier .. => .ofRuns (runs_execBarrier ..) rfl
  | .shtLoad .. => .ofKeeps (answers_execShtLoad ..) rfl
  | .shtLoadDone => .ofKeeps (answers_execShtLoadDone ..) rfl
  | .lsPortAccess .. => .ofKeeps (answers_execLsPortAccess ..) rfl
  | .patchLoad .. => .ofKeeps (answers_execPatchLoad ..) rfl
  | .loomInject .. => .ofKeeps (answers_execLoomInject ..) rfl
  | .loomPush .. => .ofKeeps (answers_execLoomPush ..) rfl
  | .loomTake .. => .ofKeeps (answers_execLoomTake ..) rfl
  | .loomBarArrive .. => .ofKeeps (answers_execLoomBarArrive ..) rfl
  | .barrierRelease .. => .ofKeeps (answers_execBarrierRelease ..) rfl
  | .barrierTimeout .. => .ofKeeps (answers_execBarrierTimeout ..) rfl
  | .loomBarCfgWrite .. => .ofKeeps (answers_execLoomBarCfgWrite ..) rfl
  | .loomBlockReset => .ofKeeps (answers_execLoomBlockReset ..) rfl
  | .doorbell .. => .ofKeeps (answers_execDoorbell ..) rfl
  | .fetch .. => .ofKeeps (answers_execFetch ..) rfl
  | .commandAcceptance .. => .ofKeeps (answers_execCommandAcceptance ..) rfl
  | .fusedWaitTimeout .. => .ofKeeps (answers_execFusedWaitTimeout ..) rfl
  | .sasCommandFrame .. => .ofKeeps (answers_execSasCommandFrame ..) rfl
  | .dispatch .. => .ofKeeps (answers_execDispatch ..) rfl
  | .dispatchRetry => .ofKeeps (answers_execDispatchRetry ..) rfl
  | .budgetReservation .. => .ofKeeps (answers_execBudgetReservation ..) rfl
  | .landed .. => .ofKeeps (answers_execLanded ..) rfl
  | .completionPost .. => .ofKeeps (answers_execCompletionPost ..) rfl
  | .glySlotStatus .. => .ofKeeps (answers_execGlySlotStatus ..) rfl
  | .glyComplete .. => .ofKeeps (answers_execGlyComplete ..) rfl
  | .holdAdd .. => .ofKeeps (answers_execHoldAdd ..) rfl
  | .holdRelease .. => .ofKeeps (answers_execHoldRelease ..) rfl
  | .lookup .. => .ofKeeps (answers_execLookup ..) rfl
  | .begin .. => .ofKeeps (answers_execBegin ..) rfl
  | .endOk .. => .ofKeeps (answers_execEndOk ..) rfl
  | .endFail .. => .ofKeeps (answers_execEndFail ..) rfl
  | .pin .. => .ofKeeps (answers_execPin ..) rfl
  | .nvmeAbort .. => .ofKeeps (answers_execNvmeAbort ..) rfl
  | .abortTask .. => .ofKeeps (answers_execAbortTask ..) rfl
  | .abortTaskSet .. => .ofKeeps (answers_execAbortTaskSet ..) rfl
  | .clearTaskSet .. => .ofKeeps (answers_execClearTaskSet ..) rfl
  | .controllerReset .. => .ofKeeps (answers_execControllerReset ..) rfl
  | .resetDoneReport .. => .ofKeeps (answers_execResetDoneReport ..) rfl
  | .drain => .ofKeeps (answers_execDrain ..) rfl
  | .drainInterrupt => .ofKeeps (answers_execDrainInterrupt ..) rfl
  | .drainTimeout => .ofKeeps (answers_execDrainTimeout ..) rfl
  | .asnFloor .. => .ofKeeps (answers_execAsnFloor ..) rfl
  | .budgetWrite .. => .ofKeeps (answers_execBudgetWrite ..) rfl
  | .linkTrained .. => .ofKeeps (answers_execLinkTrained ..) rfl
  | .smbusTransaction .. => .ofKeeps (answers_execSmbusTransaction ..) rfl
  | .tempSample .. => .ofKeeps (answers_execTempSample ..) rfl
  | .mgtBlockReset => .ofKeeps (answers_execMgtBlockReset ..) rfl
  | .hfeBlockReset => .ofKeeps (answers_execHfeBlockReset ..) rfl
  | .dramReady .. => .ofKeeps (answers_execDramReady ..) rfl
  | .scrubVisit .. => .ofKeeps (answers_execScrubVisit ..) rfl
  | .scrubLapComplete => .ofKeeps (answers_execScrubLapComplete ..) rfl
  | .scrubSlow => .ofKeeps (answers_execScrubSlow ..) rfl
  | .cacheEnableWrite .. => .ofKeeps (answers_execCacheEnableWrite ..) rfl
  | .scratchConvert .. => .ofKeeps (answers_execScratchConvert ..) rfl
  | .scratchDone => .ofKeeps (answers_execScratchDone ..) rfl
  | .clean .. => .ofKeeps (answers_execClean ..) rfl
  | .invalidate .. => .ofKeeps (answers_execInvalidate ..) rfl
  | .cleanInv .. => .ofKeeps (answers_execCleanInv ..) rfl
  | .cleanInvLocked .. => .ofKeeps (answers_execCleanInvLocked ..) rfl
  | .loadWay .. => .ofKeeps (answers_execLoadWay ..) rfl
  | .rangeOpDone => .ofKeeps (answers_execRangeOpDone ..) rfl
  | .evictionWritebackDone .. => .ofKeeps (answers_execEvictionWritebackDone ..) rfl
  | .cboClean .. => .ofKeeps (answers_execCboClean ..) rfl
  | .cboFlush .. => .ofKeeps (answers_execCboFlush ..) rfl
  | .cboInval .. => .ofKeeps (answers_execCboInval ..) rfl
  | .descriptorQueue .. => .ofKeeps (answers_execDescriptorQueue ..) rfl
  | .descriptorFetch .. => .ofKeeps (answers_execDescriptorFetch ..) rfl
  | .beatGrant .. => .ofActs (answers_execBeatGrant ..) rfl
  | .readResponse .. => .ofKeeps (answers_execReadResponse ..) rfl
  | .writeResponse .. => .ofKeeps (answers_execWriteResponse ..) rfl
  | .descriptorDone .. => .ofKeeps (answers_execDescriptorDone ..) rfl
  | .channelEnable .. => .ofKeeps (answers_execChannelEnable ..) rfl
  | .channelDisable .. => .ofKeeps (answers_execChannelDisable ..) rfl
  | .pause .. => .ofKeeps (answers_execPause ..) rfl
  | .channelClear .. => .ofKeeps (answers_execChannelClear ..) rfl
  | .channelRetry .. => .ofKeeps (answers_execChannelRetry ..) rfl
  | .dmaBlockReset .. => .ofKeeps (answers_execDmaBlockReset ..) rfl
  | .splFwPush .. => .ofKeeps (answers_execSplFwPush ..) rfl
  | .splFwPushLast .. => .ofKeeps (answers_execSplFwPushLast ..) rfl
  | .splFwPop .. => .ofKeeps (answers_execSplFwPop ..) rfl
  | .dropPkt .. => .ofKeeps (answers_execDropPkt ..) rfl
  | .flush .. => .ofKeeps (answers_execFlush ..) rfl
  | .spoolConfigWrite .. => .ofKeeps (answers_execSpoolConfigWrite ..) rfl
  | .closingWord .. => .ofKeeps (answers_execClosingWord ..) rfl
  | .splBlockReset => .ofKeeps (answers_execSplBlockReset ..) rfl
  | .fltEnable .. => .ofKeeps (answers_execFltEnable ..) rfl
  | .fltInitDone .. => .ofKeeps (answers_execFltInitDone ..) rfl
  | .tierCommandFetch => .ofKeeps (answers_execTierCommandFetch ..) rfl
  | .write .. => .ofKeeps (answers_execWrite ..) rfl
  | .read .. => .ofKeeps (answers_execRead ..) rfl
  | .trim .. => .ofKeeps (answers_execTrim ..) rfl
  | .releaseImage .. => .ofKeeps (answers_execReleaseImage ..) rfl
  | .format .. => .ofKeeps (answers_execFormat ..) rfl
  | .tierCommandDone .. => .ofKeeps (answers_execTierCommandDone ..) rfl
  | .nandOpDone .. => .ofKeeps (answers_execNandOpDone ..) rfl
  | .stripeVerify .. => .ofKeeps (answers_execStripeVerify ..) rfl
  | .dieLost .. => .ofKeeps (answers_execDieLost ..) rfl
  | .fold .. => .ofKeeps (answers_execFold ..) rfl
  | .garbageCollection .. => .ofKeeps (answers_execGarbageCollection ..) rfl
  | .retireCommit => .ofKeeps (answers_execRetireCommit ..) rfl
  | .coreRun .. => .ofKeeps (answers_execCoreRun ..) rfl
  | .coreHold .. => .ofKeeps (answers_execCoreHold ..) rfl
  | .semaphoreRead .. => .ofKeeps (answers_execSemaphoreRead ..) rfl
  | .semaphoreRelease .. => .ofKeeps (answers_execSemaphoreRelease ..) rfl
  | .ipiSet .. => .ofKeeps (answers_execIpiSet ..) rfl
  | .timerInterrupt .. => .ofKeeps (answers_execTimerInterrupt ..) rfl
  | .weaveXor .. => .ofKeeps (answers_execWeaveXor ..) rfl
  | .check .. => .ofKeeps (answers_execCheck ..) rfl
  | .compare .. => .ofKeeps (answers_execCompare ..) rfl
  | .scan .. => .ofKeeps (answers_execScan ..) rfl
  | .oflCommandDone .. => .ofKeeps (answers_execOflCommandDone ..) rfl
  | .oflBlockReset => .ofKeeps (answers_execOflBlockReset ..) rfl
  | .faultMessage .. => .ofKeeps (answers_execFaultMessage ..) rfl
  | .fatalLine => .ofKeeps (answers_execFatalLine ..) rfl
  | .fclSwRaise .. => .ofKeeps (answers_execFclSwRaise ..) rfl
  | .fclSwSet .. => .ofKeeps (answers_execFclSwSet ..) rfl
  | .pendingClear .. => .ofKeeps (answers_execPendingClear ..) rfl
  | .fclClaim .. => .ofKeeps (answers_execFclClaim ..) rfl
  | .safeEnter .. => .ofKeeps (answers_execSafeEnter ..) rfl
  | .selfCheckSweep .. => .ofKeeps (answers_execSelfCheckSweep ..) rfl
  | .evrFwRecord .. => .ofKeeps (answers_execEvrFwRecord ..) rfl
  | .ringDrain => .ofKeeps (answers_execRingDrain ..) rfl
  | .tokenRefill .. => .ofKeeps (answers_execTokenRefill ..) rfl
  | .pagePersist .. => .ofKeeps (answers_execPagePersist ..) rfl
  | .pageWriteDone .. => .ofKeeps (answers_execPageWriteDone ..) rfl
  | .evrEnable .. => .ofKeeps (answers_execEvrEnable ..) rfl
  | .evrLoadDone => .ofKeeps (answers_execEvrLoadDone ..) rfl
  | .evrDirtyRead .. => .ofKeeps (answers_execEvrDirtyRead ..) rfl
  | .evrRateWrite .. => .ofKeeps (answers_execEvrRateWrite ..) rfl
  | .getState => .ofKeeps (answers_execGetState ..) rfl
  | .getNonce => .ofKeeps (answers_execGetNonce ..) rfl
  | .getSessionKey => .ofKeeps (answers_execGetSessionKey ..) rfl
  | .provision .. => .ofActs (answers_execProvision ..) rfl
  | .burnRoots .. => .ofActs (answers_execBurnRoots ..) rfl
  | .reset => .ofKeeps (answers_execReset ..) rfl
  | .chunk .. => .ofKeeps (answers_execChunk ..) rfl
  | .commit .. => .ofKeeps (answers_execCommit ..) rfl
  | .commitDone .. => .ofKeeps (answers_execCommitDone ..) rfl
  | .abort .. => .ofKeeps (answers_execAbort ..) rfl
  | .stagingIdleTimeout => .ofKeeps (answers_execStagingIdleTimeout ..) rfl
  | .warmRestart => .ofKeeps (answers_execWarmRestart ..) rfl
  | .confirm => .ofActs (answers_execConfirm ..) rfl
  | .fail => .ofKeeps (answers_execFail ..) rfl
  | .trialTimeout => .ofKeeps (answers_execTrialTimeout ..) rfl
  | .trialTimerWarning => .ofKeeps (answers_execTrialTimerWarning ..) rfl
  | .genkey .. => .ofKeeps (answers_execGenkey ..) rfl
  | .unlock .. => .ofKeeps (answers_execUnlock ..) rfl
  | .lock .. => .ofKeeps (answers_execLock ..) rfl
  | .rewrap .. => .ofKeeps (answers_execRewrap ..) rfl
  | .lifecycleTransition .. => .ofActs (answers_execLifecycleTransition ..) rfl
  | .repair .. => .ofActs (answers_execRepair ..) rfl
  | .secNonceRead => .ofKeeps (answers_execSecNonceRead ..) rfl
  | .otpBurn .. => .ofActs (answers_execOtpBurn ..) rfl
  | .sign .. => .ofKeeps (answers_execSign ..) rfl
  | .rangeWrite .. => .ofKeeps (answers_execRangeWrite ..) rfl
  | .calRequest .. => .ofKeeps (answers_execCalRequest ..) rfl
  | .calStart .. => .ofKeeps (answers_execCalStart ..) rfl
  | .backgroundCalibration .. => .ofKeeps (answers_execBackgroundCalibration ..) rfl
  | .calRunDone .. => .ofKeeps (answers_execCalRunDone ..) rfl
  | .calTimeout .. => .ofKeeps (answers_execCalTimeout ..) rfl
  | .calBlockReset => .ofKeeps (answers_execCalBlockReset ..) rfl
  | .pfltNRelease .. => .ofKeeps (answers_execPfltNRelease ..) rfl
  | .ccEnSet .. => .ofKeeps (answers_execCcEnSet ..) rfl
  | .xtalStartTimeout => .ofKeeps (answers_execXtalStartTimeout ..) rfl
  | .trialFailReset => .ofKeeps (answers_execTrialFailReset ..) rfl

/-- The footprint of a command that answers. -/
theorem acts_exec {c : Instr} {s t : State} (h : exec c s = .next t) : Acts (blocksOf c) (storesMemory c) s t := by
  obtain ⟨u, e, k⟩ | ⟨e, -⟩ := (meets_exec c s).runs
  · cases e.symm.trans h
    exact k
  · cases e.symm.trans h

end Sys2Proof.Machine

end

section
-- `decide` waits for the kernel: a thread for each of these proofs would exhaust the memory limit.
set_option Elab.async false

namespace Sys2Proof.Machine

/-- The state whose front command is taken off the queue is as sound as before. -/
theorem Inv.dequeue {s : State} (w : Inv s) (l : List Instr) : Inv { s with pending := l } := w

/-- No microword is fetched from the queue. -/
theorem microSeq_dequeue (s : State) (l : List Instr) (op : Nat) :
    ∀ n x, microSeq { s with pending := l } op n x = microSeq s op n x := by
  have fetch (x : MicroAt) : microFetch { s with pending := l } x = microFetch s x := by cases x <;> rfl
  intro n
  induction n with
  | zero => exact fun _ => rfl
  | succ n ih =>
    intro x
    simp only [microSeq, ih, fetch]
    rfl

/-- Nor does the queue decide whether an opcode is patched. -/
theorem patched_dequeue (s : State) (l : List Instr) (op : Nat) : patched { s with pending := l } op = patched s op := by
  rw [patched, microSeq_dequeue]
  rfl

/-- A step takes its command off the queue, keeps the part and the canonical forms. -/
theorem step_next {s t : State} (h : step s = .next t) :
    t.pending = s.pending.tail ∧ t.part = s.part ∧ (Inv s → Inv t) := by
  unfold step at h
  split at h
  · rename_i hp
    cases h
    have k := keeps_tick s
    exact ⟨by rw [k.pending, hp, List.tail_nil], k.part, k.inv⟩
  · rename_i c rest hp
    have k := acts_exec h
    exact ⟨by rw [k.pending, hp, List.tail_cons], k.part, fun w => k.inv (w.dequeue rest)⟩

/-- A meaning refuses a patched instruction alone. -/
theorem exec_refused {c : Instr} {s : State} {r : Refusal} (h : exec c s = .refused r) :
    r = .patchedInstruction ∧ ∃ op, patched s op = true := by
  obtain ⟨t, e, -⟩ | ⟨e, hp, -⟩ := (meets_exec c s).runs
  · cases e.symm.trans h
  · cases e.symm.trans h
    exact ⟨rfl, hp⟩

/-- A step refuses the command of a patched instruction alone. -/
theorem step_refused {s : State} {r : Refusal} (h : step s = .refused r) :
    r = .patchedInstruction ∧ ∃ op, patched s op = true := by
  unfold step at h
  split at h
  · cases h
  · rename_i rest _
    simpa only [patched_dequeue] using exec_refused h

end Sys2Proof.Machine

section
open Sys2Proof Sys2Proof.Machine

/-- Settles O51: nothing is listed at reset. -/
theorem resetKeepsInvariant : Obligations.ResetKeepsInvariant :=
  ⟨tabWf_nil, tabWf_nil⟩

/-- Settles O52, by the footprints of the commands and of the tick: each change they are built of keeps both forms. -/
theorem stepKeepsInvariant : Obligations.StepKeepsInvariant := fun _ _ w h => (step_next h).2.2 w

/-- Settles O53, by the footprints of the commands; of the meanings, an instruction's and a trap's alone can refuse. -/
theorem stepTakesOneCommand : Obligations.StepTakesOneCommand :=
  ⟨fun _ _ h => ⟨(step_next h).1, (step_next h).2.1⟩, fun _ _ h => step_refused h⟩

/-- Settles O54: a command refuses only where a Shuttle that runs fetches an instruction whose opcode is patched. -/
theorem everyCommandCompletes : Obligations.EveryCommandCompletes := by
  refine ⟨fun c s h => ?_, fun c s hc => ?_, fun c s h => ?_⟩
  · obtain ⟨t, e, k⟩ | ⟨-, ⟨op, hp⟩, -⟩ := (meets_exec c s).runs
    · exact ⟨t, e, k.pending, k.part⟩
    · simp [h op] at hp
  · exact ((meets_exec c s).answers hc).imp fun _ k => k.1
  · obtain ⟨t, e, -⟩ | ⟨-, -, k, hk⟩ := (meets_exec c s).runs
    · exact ⟨t, e⟩
    · simp [h k] at hk

end

end

section
-- `decide` waits for the kernel: a thread for each of these proofs would exhaust the memory limit.
set_option Elab.async false

namespace Sys2Proof.Machine

/-- The register of a key is the one the key was made of. -/
theorem keyReg_regKey (r : Reg) (i : Nat) : keyReg (regKey r i) = r := by
  have number : (regKey r i) % 1024 = r.ctorIdx := by
    have := reg_ctorIdx_lt r
    unfold regKey
    omega
  rw [keyReg, number]
  cases r <;> rfl

/-- A register no write has reached reads its reset value. -/
theorem regDefault_regKey (p : Part) (r : Reg) (i : Nat) : regDefault p (regKey r i) = Reg.reset p r i := by
  have instance_ : (regKey r i) / 1024 = i := by
    have := reg_ctorIdx_lt r
    unfold regKey
    omega
  rw [regDefault, keyReg_regKey, instance_]

/-- Every register of the state after reset reads its reset value. -/
theorem rd_reset (r : Reg) (i : Nat) : rd State.reset r i = Reg.reset .fjd7440 r i := regDefault_regKey ..

/-- And every byte of memory zero. -/
theorem readByte_reset (a : Nat) : readByte State.reset a = 0#8 := rfl

/-- Settles O50: no write has reached a register or memory, and the machines hold their first values. -/
theorem resetValues : Obligations.ResetValues := by
  refine ⟨rd_reset, ?_, fun a _ => readByte_reset a, fun a => ?_, ?_, fun _ => rfl, fun k => ?_, rfl, ?_, rfl, rfl⟩
  · simp only [rd_reset]
    decide
  · have parked : rd State.reset .CTE_STAT a = 0x10#64 := rd_reset ..
    rw [cteState, fld, parked]
    decide
  · rw [spnState, fld, rd_reset]
    decide
  · unfold wGet
    split <;> rfl
  · rw [safeState, flag, fld, rd_reset]
    decide

end Sys2Proof.Machine

end

section
-- `decide` waits for the kernel: a thread for each of these proofs would exhaust the memory limit.
set_option Elab.async false

namespace Sys2Proof.Machine

/-- A board whose NOR is as large as the address space below scratch memory and scratch memory itself, and a Shuttle whose
BST stores to scratch memory: of the two regions that then hold the address the decoder takes NOR (`regionOf`). -/
def norOverScratch : State :=
  { wr (setSht State.reset 0 (lsStore { st := .run, w := [(3, 0x7705#64), (5, 0xE0000000#64)] } 0
      ((wordBytes 0x51350008#64).take 4))) .SYC_SCRATCH 0 1#64 with board := { norMib := 4096 } }

/-- The status the Shuttle's store leaves in LS there: a bus error. -/
theorem bst_norOverScratch {t : State} (h : exec (.bst 0 3 5 8) norOverScratch = .next t) :
    (shtOf t 0).ls = LsCode.busErr := by
  have run : (shtOf (stateOf (exec (.bst 0 3 5 8) norOverScratch) norOverScratch) 0).ls = LsCode.busErr := by
    decide +kernel
  rwa [h] at run

/-- Refutes O57: its last clause asks nothing of the board, and NOR of 4,096 MiB covers scratch memory's addresses, where
the spec fits 256 MiB at most (R19). The store ends in a bus error, LS = 3, and stores nothing. The clauses on registers and
on memory hold (`acts_exec`). -/
theorem not_commandFrames : ¬ Obligations.CommandFrames := by
  intro h
  obtain ⟨-, -, store⟩ := h
  obtain ⟨t, e, hls, -⟩ := store norOverScratch 0 3 5 8 0xE0000008 ⟨0x51, 3, 5, 8⟩ (by decide +kernel) (by decide +kernel)
    (by decide +kernel) (by decide +kernel) (by decide +kernel) (by decide +kernel)
  rw [bst_norOverScratch e] at hls
  exact absurd hls (by decide)

end Sys2Proof.Machine

end

section
-- `decide` waits for the kernel: a thread for each of these proofs would exhaust the memory limit.
set_option Elab.async false

namespace Sys2Proof.Machine

/-! ### Faults and bus answers -/

theorem raiseSource_bus (s : State) (n : Nat) : (raiseSource s n).bus = s.bus := by
  unfold raiseSource
  dsimp only
  split
  · rfl
  · rfl

theorem sendMsg_bus (s : State) (b : Block) (w : Word) : (sendMsg s b w).bus = s.bus := by
  unfold sendMsg
  dsimp only
  split
  · rw [raiseSource_bus, raiseSource_bus, bump, setFld_bus]
  · rfl

/-- A message leaves the answer of the access that sends it. -/
theorem sendFault_bus (s : State) (b : Block) (source kind sev addr : Nat) :
    (sendFault s b source kind sev addr).bus = s.bus := sendMsg_bus ..

/-- A message joins a queue that has room. -/
theorem sendFault_room {s : State} {b : Block} (source kind sev addr : Nat) (h : (waitingAt s b).length < 4) :
    waitingAt (sendFault s b source kind sev addr) b = waitingAt s b ++ [faultMsg source kind sev addr] ∧
      (sendFault s b source kind sev addr).regs = s.regs ∧ (sendFault s b source kind sev addr).mem = s.mem := by
  unfold sendFault sendMsg
  dsimp only
  rw [if_neg (by omega)]
  exact ⟨tget_tset_same .., rfl, rfl⟩

/-! ### Where an access goes -/

theorem lt_of_inControl {a : Nat} (h : inControl a = true) : ¬ 2 ^ 40 ≤ a := by
  simp only [inControl, decide_eq_true_eq] at h
  omega

/-- A store to the control space of a width and alignment R10 allows. -/
theorem busStore_control {s : State} {a w : Nat} (e : Nat) (v : Word) (hc : inControl a = true) (hw : accessOk a w = true) :
    busStore s e a w v = ctlWrite s e a w v := by
  simp only [busStore, hw, hc, lt_of_inControl hc, Bool.not_true, Bool.false_eq_true, if_false, if_true]

/-- And a load. -/
theorem busLoad_control {s : State} {a w : Nat} (e : Nat) (hc : inControl a = true) (hw : accessOk a w = true) :
    busLoad s e a w = ctlRead s e a w := by
  simp only [busLoad, hw, hc, lt_of_inControl hc, Bool.not_true, Bool.false_eq_true, if_false, if_true]

/-- What a write of a register of the control space does. -/
theorem exec_registerWrite {s : State} {a w : Nat} (e : Nat) (v : Word) (hc : inControl a = true)
    (hw : accessOk a w = true) : exec (.registerWrite e a w v) s = .next (ctlWrite s e a w v) := by
  change execRegisterWrite e a w v s = _
  rw [execRegisterWrite, if_pos hc, busStore_control e v hc hw]

/-- An access that lies within one line. -/
theorem linesOf_accessOk {a w : Nat} (h : accessOk a w = true) : linesOf a w = 1 ∧ min w (64 - a % 64) = w := by
  simp only [accessOk, Bool.and_eq_true, Bool.or_eq_true, beq_iff_eq] at h
  unfold linesOf
  obtain ⟨rfl | rfl, aligned⟩ := h <;> omega

/-- A store no memory decodes. -/
theorem busWrite_refused {s : State} {r : Port} {a w : Nat} {l : List Byte} (hw : accessOk a w = true) (hl : l.length = w)
    (h : regionOf s a = .hole ∨ regionOf s a = .rom ∨ regionOf s a = .nor) : (busWrite s r a l).1 = false := by
  obtain ⟨hlines, hmin⟩ := linesOf_accessOk hw
  have piece : writePiece s r a (l.take w) = (false, busDecode s a) := by
    obtain h | h | h := h <;> rw [writePiece, h]
  rw [busWrite, hl, hlines, writeLines]
  simp only [hl, hmin, piece]

/-- A load no memory decodes. -/
theorem busRead_hole {s : State} {r : Port} {a w : Nat} (hw : accessOk a w = true) (h : regionOf s a = .hole) :
    (busRead s r a w).1 = none := by
  obtain ⟨hlines, hmin⟩ := linesOf_accessOk hw
  have piece : (readPiece s r a w).1 = none := by
    rw [readPiece, h]
    dsimp only
    split <;> rfl
  rw [busRead, hlines, readLines]
  simp only [hmin]
  split
  · rfl
  · rename_i e
    simp [e] at piece

theorem refuseWidth_bus (s : State) (a w : Nat) (b : Bool) : (refuseWidth s a w b).bus = { value := 0#64, err := true } := by
  unfold refuseWidth blockDecode busDecode
  split
  · split
    · split <;> rw [sendFault_bus] <;> rfl
    · rw [sendFault_bus]
      rfl
  · rfl

/-! ### Undecoded accesses -/

/-- What an access of the control space that nothing decodes finds there. -/
theorem targetOf_of_undecoded {s : State} {a w : Nat} {b : Bool} (hc : inControl a = true)
    (h : undecoded s a w b = true) : targetOf s a w = .nowhere ∨ ∃ c, targetOf s a w = .undefined c := by
  rw [undecoded, if_neg (lt_of_inControl hc), if_pos hc] at h
  split at h
  · rename_i e
    exact .inl e
  · rename_i c e
    exact .inr ⟨c, e⟩
  · cases h

/-- And one elsewhere: a hole, or for a write the ROM or the NOR. -/
theorem regionOf_of_undecoded {s : State} {a w : Nat} {b : Bool} (ha : ¬ 2 ^ 40 ≤ a) (hc : inControl a = false)
    (h : undecoded s a w b = true) :
    regionOf s a = .hole ∨ (b = true ∧ (regionOf s a = .rom ∨ regionOf s a = .nor)) := by
  rw [undecoded, if_neg ha, if_neg (by simp [hc])] at h
  split at h
  · rename_i e
    exact .inl e
  · rename_i e
    exact .inr ⟨h, .inl e⟩
  · rename_i e
    exact .inr ⟨h, .inr e⟩
  · cases h

/-- A store that nothing decodes ends in a bus error. -/
theorem busStore_undecoded {s : State} {a w : Nat} (e : Nat) (v : Word) (h : undecoded s a w true = true) :
    (busStore s e a w v).bus = { value := 0#64, err := true } := by
  by_cases hw : accessOk a w = true
  · by_cases ha : 2 ^ 40 ≤ a
    · simp only [busStore, hw, ha, Bool.not_true, Bool.false_eq_true, if_false, if_true, busDecode, sendFault_bus, busError]
    · by_cases hc : inControl a = true
      · rw [busStore_control e v hc hw]
        obtain t | ⟨c, t⟩ := targetOf_of_undecoded hc h <;>
          simp [ctlWrite, t, blockDecode, busDecode, sendFault_bus, busError]
      · have refused := busWrite_refused (r := enginePort e) (l := (wordBytes v).take w) hw
          (by simp only [accessOk, Bool.and_eq_true, Bool.or_eq_true, beq_iff_eq] at hw; simp [wordBytes]; omega)
          ((regionOf_of_undecoded ha (by simpa using hc) h).imp_right And.right)
        simp only [busStore, hw, ha, hc, Bool.not_true, Bool.false_eq_true, if_false]
        split
        · rename_i q
          simp [q] at refused
        · rfl
  · simp [busStore, hw, refuseWidth_bus]

/-- And a load. -/
theorem busLoad_undecoded {s : State} {a w : Nat} (e : Nat) (h : undecoded s a w false = true) :
    (busLoad s e a w).bus = { value := 0#64, err := true } := by
  by_cases hw : accessOk a w = true
  · by_cases ha : 2 ^ 40 ≤ a
    · simp only [busLoad, hw, ha, Bool.not_true, Bool.false_eq_true, if_false, if_true, busDecode, sendFault_bus, busError]
    · by_cases hc : inControl a = true
      · rw [busLoad_control e hc hw]
        obtain t | ⟨c, t⟩ := targetOf_of_undecoded hc h <;>
          simp [ctlRead, t, blockDecode, busDecode, sendFault_bus, busError]
      · have refused := busRead_hole (r := enginePort e) hw
          ((regionOf_of_undecoded ha (by simpa using hc) h).resolve_right (by simp))
        simp only [busLoad, hw, ha, hc, Bool.not_true, Bool.false_eq_true, if_false]
        split
        · rename_i q
          simp [q] at refused
        · rfl
  · simp [busLoad, hw, refuseWidth_bus]

/-! ### Register writes -/

/-- Bit k of a stored value, by the access codes of Table 0.6. -/
theorem bit_accWrite (r : Reg) (old v : Word) {k : Nat} (h : k < 64) : bit (accWrite r old v) k =
    ((((bit old k && !bit (accMask r (fun c => c == .rw)) k) || (bit v k && bit (accMask r (fun c => c == .rw)) k)) &&
      !(bit v k && bit (accMask r (fun c => c == .w1c)) k)) || (bit v k && bit (accMask r (fun c => c == .w1s)) k)) := by
  simp [bit, accWrite, h]

/-- The low half of a word as a field and as a mask. -/
theorem ofNat_getBits_low (v : Word) : BitVec.ofNat 64 (getBits v 0 32) = v &&& 0xFFFFFFFF#64 := by
  apply BitVec.eq_of_toNat_eq
  simp only [getBits, BitVec.extractLsb'_toNat, Nat.shiftRight_zero, BitVec.toNat_ofNat, BitVec.toNat_and]
  rw [show (0xFFFFFFFF % 2 ^ 64) = 2 ^ 32 - 1 from rfl, Nat.and_two_pow_sub_one_eq_mod]
  omega

/-- A write of a register, of its whole value or of one half. -/
theorem ctlWrite_reg {s : State} {a w : Nat} {r : Reg} {i : Nat} {up : Bool} (e : Nat) (v : Word)
    (h : targetOf s a w = .reg r i up) :
    ctlWrite s e a w v = busClear (writeReg s e r i
      (if r.info.wide then (if w = 8 then v else halfValue s r i up v) else v &&& 0xFFFFFFFF#64)) := by
  rw [ctlWrite, h]
  dsimp only
  rw [ofNat_getBits_low]
  split <;> rfl

/-- A write stored by the access codes, of a register with no limits of its own and nothing that follows from its value. -/
theorem writeReg_plain {s : State} {e i : Nat} {r : Reg} {v : Word} (hc : commandWrite s e r i v = none)
    (hi : writeIgnored s r i v = false) (ha : ∀ t, afterWrite t r = t) : writeReg s e r i v = plainWrite s r i v := by
  simp [writeReg, hc, hi, ha]

/-- Settles O48, clause by clause: where the access goes decides what it does. -/
theorem registerAccess : Obligations.RegisterAccess := by
  refine ⟨?_, fun r old v k h => bit_accWrite r old v h, ?_, ?_, ?_, ?_, ?_, ?_, ?_, ?_, ?_⟩
  · intro s e a w v r i hc hw ht hwide hcmd hval hign hr
    have whole : (if r.info.wide then (if w = 8 then v else halfValue s r i false v) else v &&& 0xFFFFFFFF#64) = v := by
      split
      · rename_i h
        rw [if_pos (hwide h)]
      · rename_i h
        have low : v.toNat < 2 ^ 32 := hval.resolve_left h
        rw [← ofNat_getBits_low]
        apply BitVec.eq_of_toNat_eq
        simp only [getBits, BitVec.extractLsb'_toNat, Nat.shiftRight_zero, BitVec.toNat_ofNat]
        omega
    have after (t : State) : afterWrite t r = t := by
      simp only [List.mem_cons, List.not_mem_nil, or_false] at hr
      obtain rfl | rfl | rfl | rfl | rfl | rfl | rfl | rfl | rfl | rfl | rfl | rfl | rfl | rfl | rfl := hr <;> rfl
    refine ⟨_, exec_registerWrite e v hc hw, ?_⟩
    rw [ctlWrite_reg e v ht, whole, writeReg_plain hcmd hign after]
    exact ⟨rd_wr_same (s := s) .., rfl, fun q j h => rd_wr_of_key s _ h, fun _ => rfl⟩
  · intro s e a w v hc hw ht
    exact ⟨_, exec_registerWrite e v hc hw, by rw [ctlWrite, ht]; rfl⟩
  · intro s e a w v b hc hw ht hq
    refine ⟨_, exec_registerWrite e v hc hw, ?_⟩
    rw [ctlWrite, ht]
    obtain ⟨sent, regs, mem⟩ := sendFault_room (s := busError s) b.faultSource FK.busDecode 4 a hq
    exact ⟨by simp [blockDecode, sendFault_bus, busError], sent, regs, mem⟩
  · intro s e a w v hc hw hu
    refine ⟨_, rfl, ?_⟩
    simp [hc, busStore, hw, refuseWidth, hu, busError]
  · intro s e a w v hc hw ht
    exact ⟨_, exec_registerWrite e v hc hw, by rw [ctlWrite, ht]; rfl⟩
  · intro s e a w b hw hc hn hq
    have nowhere : targetOf s a w = .nowhere := by rw [targetOf, hn]
    have und : undecoded s a w b = true := by
      rw [undecoded, if_neg (lt_of_inControl hc), if_pos hc, nowhere]
    have answers : exec (.undecodedAccess e a w b) s = .next (busDecode (busError s) a) := by
      change execUndecodedAccess e a w b s = _
      rw [execUndecodedAccess, if_pos und, busStore_control e 0#64 hc hw, busLoad_control e hc hw, ctlWrite, ctlRead, nowhere]
      simp
    obtain ⟨sent, regs, mem⟩ := sendFault_room (s := busError s) (b := .fcl) 35 FK.busDecode 4 a hq
    exact ⟨_, answers, by simp [busDecode, sendFault_bus, busError], sent, regs, mem⟩
  · intro s e a w v r i up hc hw ht
    exact ⟨_, exec_registerWrite e v hc hw, ctlWrite_reg e v ht⟩
  · intro s e a w v hc
    exact ⟨_, rfl, if_neg (by simp [hc])⟩
  · intro s e a w b hu
    cases b
    · exact ⟨_, if_pos hu, busLoad_undecoded e hu⟩
    · exact ⟨_, if_pos hu, busStore_undecoded e 0#64 hu⟩
  · intro s e a w b hu
    exact ⟨_, if_neg (by simp [hu]), rfl⟩

end Sys2Proof.Machine

end

section
-- `decide` waits for the kernel: a thread for each of these proofs would exhaust the memory limit.
set_option Elab.async false

namespace Sys2Proof.Machine

/-- Nothing of the calibration controller runs or waits for a law boundary. -/
def CalIdle (s : State) : Prop := s.cal.running = [] ∧ s.cal.background = [] ∧ s.cal.pending = []

/-- The registers that only the commands of supplies, clocks and cores write. -/
def supplyRegs : List Reg := [.CKR_PWR_STAT, .CKR_CLK_STAT, .CKR_FWREADY, .SVC_CORE_CTL, .HDL_LIFE_COMMIT]

/-- What the machine's operations leave of supplies and reset: CKR's own state and the registers above, the fatal lines, the
power die's retract, and but for a power loss (m) the flush image; calibration stays idle and pending bits only rise. -/
structure Spares (m : Bool) (s t : State) : Prop where
  ckr : t.ckr = s.ckr
  fatal : t.fcl.fatal = s.fcl.fatal
  retract : t.spn.retract = s.spn.retract
  image : m = false → t.flt.image = s.flt.image
  cal : CalIdle s → CalIdle t
  pend : ∀ n, pendingBit s n = true → pendingBit t n = true
  regs : ∀ r ∈ supplyRegs, ∀ i, rd t r i = rd s r i

namespace Spares

variable {m : Bool} {s t u : State}

theorem refl : Spares m s s := ⟨rfl, rfl, rfl, fun _ => rfl, id, fun _ => id, fun _ _ _ => rfl⟩

theorem trans (h : Spares m s t) (k : Spares m t u) : Spares m s u :=
  ⟨k.ckr.trans h.ckr, k.fatal.trans h.fatal, k.retract.trans h.retract, fun e => (k.image e).trans (h.image e),
    fun c => k.cal (h.cal c), fun n p => k.pend n (h.pend n p), fun r hr i => (k.regs r hr i).trans (h.regs r hr i)⟩

/-- A change of none of it, nor of any register. -/
theorem of_eq (hr : t.regs = s.regs) (hp : t.part = s.part) (hc : t.ckr = s.ckr) (hf : t.fcl.fatal = s.fcl.fatal)
    (hs : t.spn.retract = s.spn.retract) (hi : t.flt.image = s.flt.image) (hl : CalIdle s → CalIdle t) : Spares m s t :=
  have reads (r : Reg) (i : Nat) : rd t r i = rd s r i := by rw [rd, rd, hr, hp]
  ⟨hc, hf, hs, fun _ => hi, hl, fun n h => by rwa [pendingBit, reads], fun r _ i => reads r i⟩

/-- Fields replaced in a record update that leaves CKR's and the calibration controller's. -/
theorem upd {board free bus mem fcl evr zones svg cte spn sec syc bfm l2 gly hfe chans spools flt svc ofl mgt dmaPtr hdl
    tag pairs dcp decoders wrp shts loom codeLoad patch} (h : Spares m s t) (hf : fcl.fatal = t.fcl.fatal := by rfl)
    (hs : spn.retract = t.spn.retract := by rfl) (hi : flt.image = t.flt.image := by rfl) :
    Spares m s { t with
      board := board, free := free, bus := bus, mem := mem, fcl := fcl, evr := evr, zones := zones, svg := svg
      cte := cte, spn := spn, sec := sec, syc := syc, bfm := bfm, l2 := l2, gly := gly, hfe := hfe, chans := chans
      spools := spools, flt := flt, svc := svc, ofl := ofl, mgt := mgt, dmaPtr := dmaPtr, hdl := hdl, tag := tag
      pairs := pairs, dcp := dcp, decoders := decoders, wrp := wrp, shts := shts, loom := loom, codeLoad := codeLoad
      patch := patch } :=
  h.trans (.of_eq rfl rfl rfl hf hs hi id)

theorem ite {c : Prop} [Decidable c] (h : Spares m s t) (k : Spares m s u) : Spares m s (if c then t else u) := by
  split <;> assumption

/-- The state of a conditional that answers a value with it. -/
theorem iteSnd {α : Type} {c : Prop} [Decidable c] {p q : α × State} (h : Spares m s p.2) (k : Spares m s q.2) :
    Spares m s (if c then p else q).2 := by
  split <;> assumption

/-- The state of a pair that was taken apart. -/
theorem ofSnd {α : Type} {p : α × State} {x : α} (h : Spares m s p.2) (e : p = (x, t)) : Spares m s t := by
  subst e; exact h

end Spares

section Spares

variable {m : Bool}

/-! ### Registers and combinators -/

theorem spares_wr (s : State) (r : Reg) (i : Nat) (v : Word) (h : r ∉ Reg.FCL_PEND :: supplyRegs) :
    Spares m s (wr s r i v) := by
  have reads (q : Reg) (hq : q ∈ Reg.FCL_PEND :: supplyRegs) (j : Nat) : rd (wr s r i v) q j = rd s q j :=
    rd_wr_ne _ _ (.inl fun e => h (e ▸ hq))
  refine ⟨rfl, rfl, rfl, fun _ => rfl, id, fun n p => ?_, fun q hq j => reads q (List.mem_cons_of_mem _ hq) j⟩
  rwa [pendingBit, reads _ (List.mem_cons_self ..)]

theorem spares_setFld (s : State) (f : Fld) (i v : Nat) (h : f.reg ∉ Reg.FCL_PEND :: supplyRegs) :
    Spares m s (setFld s f i v) := spares_wr _ _ _ _ h

theorem spares_setFlag (s : State) (f : Fld) (i : Nat) (b : Bool) (h : f.reg ∉ Reg.FCL_PEND :: supplyRegs) :
    Spares m s (setFlag s f i b) := spares_setFld _ _ _ _ h

theorem spares_bump (s : State) (f : Fld) (i n : Nat) (h : f.reg ∉ Reg.FCL_PEND :: supplyRegs) :
    Spares m s (bump s f i n) := spares_setFld _ _ _ _ h

theorem spares_setFlds_all (s : State) (i : Nat) (l : List (Fld × Nat))
    (h : l.all (fun x => decide (x.1.reg ∉ Reg.FCL_PEND :: supplyRegs)) = true) : Spares m s (setFlds s i l) := by
  induction l generalizing s with
  | nil => exact .refl
  | cons x l ih =>
    simp only [List.all_cons, Bool.and_eq_true, decide_eq_true_eq] at h
    exact (spares_setFld s x.1 i x.2 h.1).trans (ih _ h.2)

theorem spares_when (b : Bool) (f : State → State) (s : State) (h : ∀ t, Spares m t (f t)) : Spares m s (when b f s) := by
  unfold when
  split
  · exact h s
  · exact .refl

theorem spares_each {α : Type} (l : List α) (f : α → State → State) (h : ∀ x t, Spares m t (f x t)) :
    ∀ s : State, Spares m s (each l f s) := by
  induction l with
  | nil => exact fun _ => .refl
  | cons x l ih => exact fun s => (h x s).trans (ih (f x s))

/-! ### Sources and messages -/

/-- A source that rises leaves the other pending bits. -/
theorem pendingBit_raiseSource_of (s : State) (k n : Nat) (h : pendingBit s n = true) : pendingBit (raiseSource s k) n = true := by
  have reads : rd (raiseSource s k) .FCL_PEND (n / 64) =
      rd (wr s .FCL_PEND (k / 64) (setBits (rd s .FCL_PEND (k / 64)) (k % 64) 1 1)) .FCL_PEND (n / 64) := by
    unfold raiseSource
    dsimp only
    split <;> rfl
  rw [pendingBit, reads]
  by_cases hk : n / 64 = k / 64
  · rw [hk, rd_wr_same, bit, getLsbD_setBits]
    split
    · rename_i hb
      rw [show n % 64 - k % 64 = 0 by omega]
      rfl
    · rwa [pendingBit, hk] at h
  · rwa [rd_wr_ne _ _ (.inr hk)]

theorem spares_raiseSource (s : State) (n : Nat) : Spares m s (raiseSource s n) := by
  have rest (r : Reg) (hr : r ∈ supplyRegs) (i : Nat) : rd (raiseSource s n) r i = rd s r i := by
    have pend : r ≠ .FCL_PEND := by rintro rfl; revert hr; decide
    unfold raiseSource
    dsimp only
    split <;> exact rd_wr_ne s _ (.inl pend)
  have fields : (raiseSource s n).ckr = s.ckr ∧ (raiseSource s n).fcl.fatal = s.fcl.fatal ∧
      (raiseSource s n).spn = s.spn ∧ (raiseSource s n).flt = s.flt ∧ (raiseSource s n).cal = s.cal := by
    unfold raiseSource
    dsimp only
    split <;> exact ⟨rfl, rfl, rfl, rfl, rfl⟩
  obtain ⟨hckr, hfatal, hspn, hflt, hcal⟩ := fields
  exact ⟨hckr, hfatal, by rw [hspn], fun _ => by rw [hflt], fun h => by rwa [CalIdle, hcal],
    fun k h => pendingBit_raiseSource_of s n k h, rest⟩

/-- A field of a number below 2 ^ 64. -/
theorem getBits_ofNat (n lo w : Nat) (h : n < 2 ^ 64) : getBits (BitVec.ofNat 64 n) lo w = n / 2 ^ lo % 2 ^ w := by
  rw [getBits, BitVec.extractLsb'_toNat, BitVec.toNat_ofNat, Nat.mod_eq_of_lt h, Nat.shiftRight_eq_div_pow]

/-- The severity of a composed message. -/
theorem msgSev_faultMsg (source kind sev addr : Nat) : getBits (faultMsg source kind sev addr) 48 3 = sev % 8 := by
  have ha : addr % 2 ^ 40 < 2 ^ 40 := Nat.mod_lt _ (by decide)
  rw [faultMsg]
  generalize addr % 2 ^ 40 = a at ha ⊢
  rw [getBits_setBits_ne _ _ _ _ _ _ (by omega), getBits_ofNat _ _ _ (by omega)]
  omega

/-- A message below severity 7 pulses no fatal line. -/
theorem spares_sendFault (s : State) (b : Block) (source kind sev addr : Nat) (h : sev < 7) :
    Spares m s (sendFault s b source kind sev addr) := by
  have sent : getBits (faultMsg source kind sev addr) 48 3 = sev := by rw [msgSev_faultMsg]; omega
  generalize hw : faultMsg source kind sev addr = w at sent
  rw [sendFault, hw, sendMsg]
  dsimp only
  rw [sent]
  split
  · exact ((spares_bump _ _ _ _ (by decide)).trans (spares_raiseSource ..)).trans (spares_raiseSource ..)
  · rw [if_neg (by omega)]
    exact .upd .refl

end Spares

end Sys2Proof.Machine

end

section
-- `decide` waits for the kernel: a thread for each of these proofs would exhaust the memory limit.
set_option Elab.async false

namespace Sys2Proof.Machine

/-! ### The operations leave supplies and reset alone

One lemma per operation that a chip reset, a power loss or a report reaches, composed along its branches. -/

section Operations

variable {pl : Bool}

theorem spares_setHdl (s : State) (a : Nat) (h : HdlAct) : Spares pl s (setHdl s a h) := .upd .refl

theorem spares_setPair (s : State) (a : Nat) (h : Pair) : Spares pl s (setPair s a h) := .upd .refl

theorem spares_setDcp (s : State) (a : Nat) (h : DcpAct) : Spares pl s (setDcp s a h) := .upd .refl

theorem spares_setDec (s : State) (d : Nat) (h : Decoder) : Spares pl s (setDec s d h) := .upd .refl

theorem spares_setWrp (s : State) (a : Nat) (h : WrpAct) : Spares pl s (setWrp s a h) := .upd .refl

theorem spares_setSht (s : State) (k : Nat) (h : Shuttle) : Spares pl s (setSht s k h) := .upd .refl

theorem spares_setCte (s : State) (a : Nat) (h : Cte) : Spares pl s (setCte s a h) := .upd .refl

theorem spares_freshBit (s : State) : Spares pl s (freshBit s).2 := .upd .refl

theorem spares_writeByte (s : State) (a : Nat) (v : Byte) : Spares pl s (writeByte s a v) := .upd .refl

theorem spares_writeBytes (l : List Byte) : ∀ (s : State) (a : Nat), Spares pl s (writeBytes s a l) := by
  induction l with
  | nil => exact fun _ _ => .refl
  | cons b l ih => exact fun s a => (spares_writeByte s a b).trans (ih _ _)

theorem spares_busDecode (s : State) (addr : Nat) : Spares pl s (busDecode s addr) :=
  spares_sendFault _ _ _ _ _ _ (by decide)

theorem spares_memUe (s : State) (b : Block) (addr req : Nat) (poison dram : Bool) :
    Spares pl s (memUe s b addr req poison dram) :=
  .trans (.ite (spares_setFlag _ _ _ _ (by decide)) (spares_setFlds_all _ _ _ rfl))
    (spares_sendFault _ _ _ _ _ _ (by decide))

theorem spares_corrected (s : State) (b : Block) (addr req : Nat) (dram : Bool) :
    Spares pl s (corrected s b addr req dram) := by
  have log (f : Fld) (h : f.reg ∉ Reg.FCL_PEND :: supplyRegs) : Spares pl s (setFlds (bump s f) 0
      [(F.BFM_CE_LOG_ADDR, addr), (F.BFM_CE_LOG_REQ, req), (F.BFM_CE_LOG_DRAM, b2n dram), (F.BFM_CE_LOG_VALID, 1)]) :=
    (spares_bump s f 0 1 h).trans (spares_setFlds_all _ _ _ rfl)
  have k := log (if dram then F.BFM_CE_CNT_DRAM else F.BFM_CE_CNT_SRAM) (by cases dram <;> decide)
  unfold corrected
  dsimp only
  generalize setFlds _ 0 _ = t at k ⊢
  split
  · exact k.upd.trans (spares_sendFault _ b b.faultSource FK.memCe 3 addr (by decide))
  · exact k.upd

theorem spares_setPoison (s : State) (line : Nat) (b : Bool) : Spares pl s (setPoison s line b) := .upd .refl

theorem spares_setBad (s : State) (addr : Nat) (b : Bool) : Spares pl s (setBad s addr b) := .upd .refl

theorem spares_setSoft (s : State) (addr : Nat) (b : Bool) : Spares pl s (setSoft s addr b) := .upd .refl

theorem spares_freshCheck (s : State) (addr : Nat) : Spares pl s (freshCheck s addr) :=
  (spares_setBad ..).trans (spares_setSoft ..)

theorem spares_softRead (s : State) (b : Block) (req : Nat) (dram : Bool) (words : List Nat) :
    Spares pl s (softRead s b req dram words) :=
  spares_each _ _ (fun _ _ => (spares_corrected ..).trans (.ite (spares_setSoft ..) .refl)) _

theorem spares_softMerge (s : State) (b : Block) (req : Nat) (dram : Bool) (words : List Nat) :
    Spares pl s (softMerge s b req dram words) :=
  spares_each _ _ (fun _ _ => (spares_corrected ..).trans (spares_setSoft ..)) _

theorem spares_countDram (s : State) (write : Bool) : Spares pl s (countDram s write) :=
  Spares.trans (.upd .refl) (spares_bump (freshBit s).2 _ _ _ (by cases write <;> decide))

theorem spares_dramRead (s : State) (r : Port) (line : Nat) : Spares pl s (dramRead s r line).2 := by
  refine .iteSnd ((spares_countDram ..).trans (spares_memUe ..)) ?_
  split
  · exact (spares_countDram ..).trans (spares_memUe ..)
  · exact (spares_countDram ..).trans (spares_softRead ..)

theorem spares_writeBack (s : State) (x : CacheLine) : Spares pl s (writeBack s x) := by
  unfold writeBack
  exact ((((spares_each _ _ (fun _ _ => spares_corrected ..) s).trans (spares_countDram ..)).trans
    (spares_writeBytes ..)).trans (spares_each _ _ (fun _ _ => spares_freshCheck ..) _)).trans (spares_setPoison ..)

theorem spares_dramWrite (s : State) (r : Port) (line off : Nat) (bytes : List Byte) :
    Spares pl s (dramWrite s r line off bytes).2 := by
  unfold dramWrite
  dsimp only
  split
  · exact spares_memUe ..
  · split
    · exact spares_memUe ..
    · exact ((((spares_countDram ..).trans (spares_softMerge ..)).trans
        (spares_each _ _ (fun _ _ => spares_freshCheck ..) _)).trans (spares_writeBytes ..)).trans (spares_setPoison ..)

theorem spares_setWay (s : State) (set w : Nat) (x : Option CacheLine) : Spares pl s (setWay s set w x) :=
  .upd .refl

theorem spares_touchRef (s : State) (set w : Nat) : Spares pl s (touchRef s set w) := by
  refine .ite (.trans ?_ (spares_each _ _ (fun _ _ => ?_) _)) ?_
  · dsimp only
    split
    · exact spares_setWay ..
    · exact .refl
  · dsimp only
    split
    · exact spares_setWay ..
    · exact .refl
  · split
    · exact spares_setWay ..
    · exact .refl

theorem spares_evbRoom (s : State) : Spares pl s (evbRoom s) := by
  unfold evbRoom
  split
  · exact .ite (.trans (.upd .refl) (spares_writeBack ..)) .refl
  · exact .refl

theorem spares_evict (s : State) (set w : Nat) : Spares pl s (evict s set w) := by
  unfold evict
  split
  · exact .refl
  · exact (spares_setWay ..).trans (.ite ((spares_evbRoom ..).upd) .refl)

theorem spares_allocate {s : State} {x : CacheLine} {y : Nat × State} (e : allocate s x = some y) : Spares pl s y.2 := by
  unfold allocate at e
  dsimp only at e
  split at e <;> cases e
  exact ((spares_evict ..).trans (spares_setWay ..)).trans (spares_touchRef ..)

theorem spares_evbTake {s : State} {line : Nat} {y : CacheLine × State} (e : evbTake s line = some y) : Spares pl s y.2 := by
  unfold evbTake at e
  split at e <;> cases e
  exact .upd .refl

theorem spares_evbRace (s : State) (line : Nat) : Spares pl s (evbRace s line) := by
  unfold evbRace
  split
  · exact .refl
  · rename_i e
    split
    · rename_i e1
      exact ((spares_evbTake e).trans (spares_allocate e1)).trans (spares_bump _ _ _ _ (by decide))
    · exact (spares_evbTake e).trans (spares_writeBack ..)

theorem spares_hitLine (s : State) (r : Port) (line : Nat) : Spares pl s (hitLine s r line).2 := by
  unfold hitLine
  split
  · exact .refl
  · dsimp only
    split
    · exact .refl
    · exact .iteSnd ((spares_setWay ..).trans (spares_corrected ..)) .refl

theorem spares_softHit (s : State) (r : Port) (w : Nat) (x : CacheLine) : Spares pl s (softHit s r w x) :=
  .ite .refl ((spares_each _ _ (fun _ _ => spares_corrected ..) _).trans (.ite (spares_setWay ..) .refl))

theorem spares_sycRead (s : State) (r : Port) (line : Nat) : Spares pl s (sycRead s r line).2 := by
  refine .iteSnd (.trans ?_ (spares_dramRead ..)) ?_
  · split
    · rename_i e
      exact (spares_evbTake e).trans (spares_writeBack ..)
    · exact .refl
  · dsimp only
    split
    · rename_i e
      exact .iteSnd (((((spares_evbRace ..).trans (spares_hitLine ..)).ofSnd e).trans (spares_bump _ _ _ _ (by
        decide))).trans (spares_memUe ..)) ((((((spares_evbRace ..).trans (spares_hitLine ..)).ofSnd e).trans
        (spares_bump _ _ _ _ (by decide))).trans (spares_softHit ..)).trans (spares_touchRef ..))
    · rename_i e
      split
      · rename_i e1
        exact (((((spares_evbRace ..).trans (spares_hitLine ..)).ofSnd e).trans (spares_bump _ _ _ _ (by
          decide))).trans (spares_dramRead ..)).ofSnd e1
      · rename_i e1
        refine .iteSnd ?_ ((((((spares_evbRace ..).trans (spares_hitLine ..)).ofSnd e).trans
          (spares_bump _ _ _ _ (by decide))).trans (spares_dramRead ..)).ofSnd e1)
        split
        · rename_i e2
          exact ((((((spares_evbRace ..).trans (spares_hitLine ..)).ofSnd e).trans (spares_bump _ _ _ _ (by
            decide))).trans (spares_dramRead ..)).ofSnd e1).trans (spares_allocate e2)
        · exact (((((spares_evbRace ..).trans (spares_hitLine ..)).ofSnd e).trans (spares_bump _ _ _ _ (by
            decide))).trans (spares_dramRead ..)).ofSnd e1

theorem spares_stream (s : State) (r : Port) (line : Nat) (full : Bool) : Spares pl s (stream s r line full).2 :=
  .upd .refl

theorem spares_countStreamed (s : State) : Spares pl s (countStreamed s) :=
  .trans (.upd .refl) (.ite (spares_bump _ _ _ _ (by decide)) .refl)

theorem spares_sycWrite (s : State) (r : Port) (line off : Nat) (bytes : List Byte) :
    Spares pl s (sycWrite s r line off bytes).2 := by
  unfold sycWrite
  dsimp only
  split
  · refine .trans ?_ (spares_dramWrite ..)
    split
    · rename_i e
      exact ((spares_stream ..).trans (spares_evbTake e)).trans (spares_writeBack ..)
    · exact spares_stream ..
  · split
    · rename_i e
      exact .iteSnd ((((((spares_stream ..).trans (spares_evbRace ..)).trans (spares_hitLine ..)).ofSnd e).trans
        (spares_bump _ _ _ _ (by decide))).trans (spares_memUe ..)) ((((((((spares_stream ..).trans
        (spares_evbRace ..)).trans (spares_hitLine ..)).ofSnd e).trans (spares_bump _ _ _ _ (by decide))).trans (spares_each _ _
        (fun _ _ => spares_corrected ..) _)).trans (spares_setWay ..)).trans (spares_touchRef ..))
    · rename_i e
      refine .iteSnd ((((((spares_stream ..).trans (spares_evbRace ..)).trans (spares_hitLine ..)).ofSnd e).trans
        (spares_bump _ _ _ _ (by decide))).trans (spares_dramWrite ..)) (.iteSnd (((((((spares_stream ..).trans
        (spares_evbRace ..)).trans (spares_hitLine ..)).ofSnd e).trans (spares_bump _ _ _ _ (by decide))).trans
        (spares_dramWrite ..)).trans (spares_countStreamed ..)) (.iteSnd ((((((spares_stream ..).trans
        (spares_evbRace ..)).trans (spares_hitLine ..)).ofSnd e).trans (spares_bump _ _ _ _ (by decide))).trans
        (spares_dramWrite ..)) (.iteSnd ?_ ?_)))
      · split
        · rename_i e1
          exact (((((spares_stream ..).trans (spares_evbRace ..)).trans (spares_hitLine ..)).ofSnd e).trans
            (spares_bump _ _ _ _ (by decide))).trans (spares_allocate e1)
        · exact ((((spares_stream ..).trans (spares_evbRace ..)).trans (spares_hitLine ..)).ofSnd e).trans
            (spares_bump _ _ _ _ (by decide))
      · split
        · rename_i e1
          exact ((((((spares_stream ..).trans (spares_evbRace ..)).trans (spares_hitLine ..)).ofSnd e).trans
            (spares_bump _ _ _ _ (by decide))).trans (spares_dramRead ..)).ofSnd e1
        · rename_i e1
          split
          · rename_i e2
            exact (((((((spares_stream ..).trans (spares_evbRace ..)).trans (spares_hitLine ..)).ofSnd e).trans
              (spares_bump _ _ _ _ (by decide))).trans (spares_dramRead ..)).ofSnd e1).trans (spares_allocate e2)
          · exact (((((((spares_stream ..).trans (spares_evbRace ..)).trans (spares_hitLine ..)).ofSnd e).trans
              (spares_bump _ _ _ _ (by decide))).trans (spares_dramRead ..)).ofSnd e1).trans (spares_dramWrite ..)

theorem spares_setL2 (s : State) (c line : Nat) (x : Option L2Line) : Spares pl s (setL2 s c line x) := .upd .refl

theorem spares_poisonLine (s : State) (line bad : Nat) : Spares pl s (poisonLine s line bad) := by
  unfold poisonLine
  split
  · split
    · exact spares_setWay ..
    · exact .refl
  · exact spares_setPoison ..

theorem spares_l2WriteBack (s : State) (c line : Nat) : Spares pl s (l2WriteBack s c line) := by
  unfold l2WriteBack
  split
  · exact .ite ((spares_sycWrite ..).trans (.ite ((spares_poisonLine ..).trans (spares_setL2 ..))
      (spares_setL2 ..))) .refl
  · exact .refl

theorem spares_l2Invalidate (s : State) (line : Nat) : Spares pl s (l2Invalidate s line) :=
  spares_each _ _ (fun _ _ => .ite ((spares_l2WriteBack ..).trans (spares_setL2 ..)) .refl) _

theorem spares_lineRead (s : State) (r : Port) (line : Nat) : Spares pl s (lineRead s r line).2 := by
  unfold lineRead
  split
  · split
    · exact .iteSnd .refl (.iteSnd (spares_memUe ..) (((spares_setL2 ..).trans (spares_corrected ..)).trans
        (spares_sycRead ..)))
    · exact spares_sycRead ..
  · exact spares_sycRead ..

theorem spares_lineWrite (s : State) (r : Port) (line off : Nat) (bytes : List Byte) :
    Spares pl s (lineWrite s r line off bytes).2 :=
  .trans (.ite (spares_l2Invalidate ..) .refl) (spares_sycWrite ..)

theorem spares_beatRefused (s : State) (addr : Nat) : Spares pl s (beatRefused s addr) := by
  unfold beatRefused
  split
  · exact spares_busDecode ..
  · exact .ite .refl (spares_sendFault _ _ _ _ _ _ (by decide))
  · exact .refl

theorem spares_scratchRead (s : State) (r : Port) (addr n : Nat) : Spares pl s (scratchRead s r addr n).2 := by
  unfold scratchRead
  split
  · exact spares_memUe ..
  · exact spares_softRead ..

theorem spares_scratchWrite (s : State) (r : Port) (addr : Nat) (bytes : List Byte) :
    Spares pl s (scratchWrite s r addr bytes).2 := by
  unfold scratchWrite
  dsimp only
  split
  · exact spares_memUe ..
  · exact ((spares_softMerge ..).trans (spares_each _ _ (fun _ _ => spares_freshCheck ..) _)).trans (spares_writeBytes ..)

theorem spares_readPiece (s : State) (r : Port) (addr n : Nat) : Spares pl s (readPiece s r addr n).2 := by
  unfold readPiece
  split
  · refine .iteSnd ?_ .refl
    split
    · rename_i e
      exact (spares_lineRead ..).ofSnd e
    · rename_i e
      exact (spares_lineRead ..).ofSnd e
  · exact .refl
  · exact .refl
  · exact spares_scratchRead ..
  · exact spares_beatRefused ..
  · exact .iteSnd .refl (spares_busDecode ..)

theorem spares_writePiece (s : State) (r : Port) (addr : Nat) (bytes : List Byte) :
    Spares pl s (writePiece s r addr bytes).2 := by
  unfold writePiece
  split
  · exact .iteSnd (spares_lineWrite ..) .refl
  · exact spares_scratchWrite ..
  · exact spares_beatRefused ..
  · exact spares_busDecode ..

theorem spares_readLines (r : Port) (k : Nat) : ∀ (a n : Nat) (s : State), Spares pl s (readLines r k a n s).2 := by
  induction k with
  | zero => exact fun _ _ _ => .refl
  | succ k ih =>
    intro a n s
    have piece : Spares pl s (readPiece s r a (min n (64 - a % 64))).2 := spares_readPiece ..
    unfold readLines
    dsimp only
    split
    · rename_i e
      exact piece.ofSnd e
    · rename_i e
      have rest := (piece.ofSnd e).trans (ih (a + min n (64 - a % 64)) (n - min n (64 - a % 64)) _)
      split
      · rename_i e
        exact rest.ofSnd e
      · rename_i e
        exact rest.ofSnd e

theorem spares_writeLines (r : Port) (k : Nat) :
    ∀ (a : Nat) (l : List Byte) (s : State), Spares pl s (writeLines r k a l s).2 := by
  induction k with
  | zero => exact fun _ _ _ => .refl
  | succ k ih =>
    intro a l s
    have piece : Spares pl s (writePiece s r a (l.take (min l.length (64 - a % 64)))).2 := spares_writePiece ..
    unfold writeLines
    dsimp only
    split
    · rename_i e
      exact piece.ofSnd e
    · rename_i e
      exact (piece.ofSnd e).trans (ih _ _ _)

theorem spares_busRead (s : State) (r : Port) (addr n : Nat) : Spares pl s (busRead s r addr n).2 := spares_readLines ..

theorem spares_busWrite (s : State) (r : Port) (addr : Nat) (bytes : List Byte) : Spares pl s (busWrite s r addr bytes).2 :=
  spares_writeLines ..

theorem spares_busReadWord (s : State) (r : Port) (addr : Nat) : Spares pl s (busReadWord s r addr).2 :=
  spares_busRead ..

theorem spares_busWriteWord (s : State) (r : Port) (addr : Nat) (w : Word) :
    Spares pl s (busWriteWord s r addr w).2 := spares_busWrite ..

theorem spares_markPage (s : State) (page sev : Nat) : Spares pl s (markPage s page sev) :=
  .ite (spares_wr _ _ _ _ (by decide)) (.upd .refl)

theorem spares_drainOne (s : State) : Spares pl s (drainOne s) := by
  unfold drainOne
  split
  · split
    · exact .trans (.trans (.upd .refl) (spares_bump _ _ _ _ (by decide))) (spares_raiseSource ..)
    · exact .ite (.trans (.trans (.trans (.trans (.upd .refl) (spares_busWrite ..)) (spares_setFld _ _ _ _ (by
        decide))) (spares_markPage ..)) (spares_raiseSource ..)) .refl
  · exact .refl

theorem spares_ringPut (s : State) (r : EvRec) : Spares pl s (ringPut s r).2 := by
  refine .iteSnd (.upd (.ite (spares_drainOne ..) .refl)) ?_
  split
  · exact .trans (.trans (.ite (spares_drainOne ..) .refl) (spares_bump _ _ _ _ (by decide)))
      (spares_raiseSource ..)
  · refine .iteSnd ?_ (.trans (.trans (.ite (spares_drainOne ..) .refl) (spares_bump _ _ _ _ (by decide)))
      (spares_raiseSource ..))
    split
    · exact .upd (.ite (spares_drainOne ..) .refl)
    · exact .ite (spares_drainOne ..) .refl

theorem spares_evrRequest (s : State) (r : EvRec) : Spares pl s (evrRequest s r).2 :=
  .iteSnd (.trans (.upd (.ite .refl (spares_setFld _ _ _ _ (by decide)))) (spares_ringPut ..)) (.upd .refl)

theorem spares_evrEvent (s : State) (code sev source : Nat) (p1 p2 p3 p4 : Word) :
    Spares pl s (evrEvent s code sev source p1 p2 p3 p4) := spares_evrRequest ..

theorem spares_setReady (s : State) (f : Fld) (lane : Nat) (b : Bool) : Spares pl s (setReady s f lane b) :=
  .ite .refl (((spares_wr _ _ _ _ (by decide)).trans (spares_evrEvent ..)).trans (spares_raiseSource ..))

theorem spares_toHost (s : State) (o : HostOut) : Spares pl s (toHost s o) := .upd .refl

theorem spares_setGlySlot (s : State) (n : Nat) (x : Slot) : Spares pl s (setGlySlot s n x) := .upd .refl

theorem spares_orderSync (s : State) : Spares pl s (orderSync s) := .upd .refl

theorem spares_glySync (s : State) : Spares pl s (glySync s) :=
  ((((((spares_orderSync ..).trans (spares_setFlds_all _ _ _ rfl)).trans (spares_when _ _ _ (fun _ =>
    spares_raiseSource ..))).trans (spares_setReady ..)).trans (spares_when _ _ _ (fun _ => spares_each _ _ (fun _ _
    => spares_toHost ..) _))).trans (spares_when _ _ _ (fun _ => spares_raiseSource ..))).trans (.ite
    ((spares_setFlag _ _ _ _ (by decide)).trans (spares_raiseSource ..)) .refl)

theorem spares_setCtxQ (s : State) (q : Nat) (c : QCtx) : Spares pl s (setCtxQ s q c) := .upd .refl

theorem spares_mapIndex (s : State) (f : Version → Version) : Spares pl s (mapIndex s f) := .upd .refl

theorem spares_filterIndex (s : State) (p : Version → Bool) : Spares pl s (filterIndex s p) := .upd .refl

theorem spares_retireVersions (s : State) : Spares pl s (retireVersions s) :=
  (spares_mapIndex ..).trans (spares_filterIndex ..)

theorem spares_discardVersions (s : State) (asn : Nat) : Spares pl s (discardVersions s asn) :=
  (spares_filterIndex ..).trans (spares_retireVersions ..)

theorem spares_zoneSet (s : State) (addr lo w v : Nat) : Spares pl s (zoneSet s addr lo w v) := by
  unfold zoneSet
  split
  · rename_i e
    exact ((spares_busReadWord ..).ofSnd e).trans (spares_busWriteWord ..)
  · rename_i e
    exact (spares_busReadWord ..).ofSnd e

theorem spares_freeSlot (s : State) (n : Nat) : Spares pl s (freeSlot s n) :=
  (((spares_setGlySlot ..).trans (.ite .refl (spares_setCtxQ ..))).upd).trans (spares_each _ _ (fun _ _ =>
    spares_toHost ..) _)

theorem spares_slotEval (s : State) (n : Nat) : Spares pl s (slotEval s n) :=
  .ite (.ite (spares_setGlySlot ..) (.ite ((spares_freeSlot ..).trans (.ite (spares_discardVersions ..)
    (spares_retireVersions ..))) .refl)) .refl

theorem spares_endDormant (s : State) (n : Nat) (w : Word) : Spares pl s (endDormant s n w) :=
  (spares_setGlySlot ..).trans (spares_discardVersions ..)

theorem spares_zoneFail (s : State) (n : Nat) : Spares pl s (zoneFail s n) := by
  unfold zoneFail
  dsimp only
  split
  · exact .refl
  · exact (spares_each _ _ (fun _ _ => .ite (spares_endDormant ..) (.ite .refl ((spares_setGlySlot ..).trans
      (spares_slotEval ..)))) _).trans (spares_zoneSet ..)

theorem spares_giveOutcome (s : State) (n : Nat) (w : Word) : Spares pl s (giveOutcome s n w) :=
  ((spares_setGlySlot ..).trans (.ite (spares_zoneFail ..) .refl)).trans (spares_slotEval ..)

theorem spares_descriptorFailed (s : State) (n status : Nat) : Spares pl s (descriptorFailed s n status) := by
  unfold descriptorFailed
  dsimp only
  split
  · exact .trans (.ite (spares_setGlySlot ..) .refl) (.ite (spares_giveOutcome ..) .refl)
  · exact .ite (spares_setGlySlot ..) .refl

theorem spares_descFinished (s : State) (n asn : Nat) (fail : Option Nat) :
    Spares pl s (descFinished s n asn fail) := by
  refine .ite .refl (.trans (.trans ?_ (spares_slotEval ..)) (spares_glySync ..))
  split
  · exact (spares_setGlySlot ..).trans (spares_descriptorFailed ..)
  · exact spares_setGlySlot ..

theorem spares_swapSlice (s : State) (lane p : Nat) : Spares pl s (swapSlice s lane p) :=
  .trans (.ite (spares_setFld _ _ _ _ (by decide)) (spares_setFld _ _ _ _ (by decide))) (spares_setFld _ _ _ _ (by
    decide))

theorem spares_stepTrim (s : State) (lane slice : Nat) (vals : List Int) (k : Nat) :
    Spares pl s (stepTrim s lane slice vals k) := spares_setFlds_all _ _ _ rfl

theorem spares_putResult (s : State) (x : CalPend) : Spares pl s (putResult s x) := by
  have trims (l : List (Nat × List Int)) : Spares pl s { s with cal := { s.cal with trims := l } } :=
    .of_eq rfl rfl rfl rfl rfl rfl id
  exact .ite (spares_each _ _ (fun _ _ => spares_stepTrim ..) _) (.ite
    (spares_each _ _ (fun _ _ => (spares_stepTrim ..).trans (spares_swapSlice ..)) _) (.ite
    (spares_setFlds_all _ _ _ rfl) (.ite (spares_setFlds_all _ _ _ rfl) (.ite (spares_setFld _ _ _ _ (by decide)) (.ite
    (trims _) (.ite (spares_setFlds_all _ _ _ rfl) (.ite (spares_setFld _ _ _ _ (by decide)) (.ite
    (spares_setFld _ _ _ _ (by decide)) (spares_setFlds_all _ _ _ rfl)))))))))

theorem spares_takeEffect (s : State) (x : CalPend) : Spares pl s (takeEffect s x) :=
  (((((spares_putResult ..).trans (spares_bump _ _ _ _ (by decide))).trans (spares_setFld _ _ _ _ (by
    decide))).trans (spares_bump _ _ _ _ (by decide))).trans (spares_setFld _ _ _ _ (by decide))).trans
    (spares_raiseSource ..)

theorem spares_calBoundary (s : State) (p : Nat → Bool) : Spares pl s (calBoundary s p) := by
  have taken : Spares pl s { s with cal := { s.cal with pending := s.cal.pending.filter (fun x => !p x.item) } } :=
    .of_eq rfl rfl rfl rfl rfl rfl fun ⟨hr, hb, hp⟩ => ⟨hr, hb, by simp [hp]⟩
  exact taken.trans (spares_each _ _ (fun x t => spares_takeEffect t x) _)

theorem spares_abandoned (s : State) (n : Nat) : Spares pl s (abandoned s n) :=
  (spares_setFld _ _ _ _ (by decide)).trans (spares_bump _ _ _ _ (by decide))

theorem spares_calDrop (s : State) (p : Nat → Bool) : Spares pl s (calDrop s p) := by
  unfold calDrop
  extract_lets c gone t
  have dropped : Spares pl s t :=
    .of_eq rfl rfl rfl rfl rfl rfl fun ⟨hr, hb, hp⟩ => ⟨by simp [t, c, hr], by simp [t, c, hb], by simp [t, c, hp]⟩
  exact dropped.trans (spares_each _ _ (fun n u => spares_abandoned u n) _)

theorem spares_calDropAct (s : State) (a : Nat) : Spares pl s (calDropAct s a) := spares_calDrop ..

theorem spares_setOp (s : State) (o : OpRef) (m : Option MediaOp) : Spares pl s (setOp s o m) := spares_setSht ..

theorem spares_mediaDone (s : State) (o : OpRef) (status sectors : Nat) (cut : Bool) :
    Spares pl s (mediaDone s o status sectors cut) := by
  unfold mediaDone
  split
  · exact .refl
  · exact spares_setOp ..

theorem spares_headControlFrame (s : State) (a : Nat) : Spares pl s (headControlFrame s a) := by
  refine .ite ?_ ?_
  · split
    · exact (spares_setWrp ..).trans (spares_setHdl ..)
    · exact spares_setWrp ..
  · split
    · exact (spares_setWrp ..).trans (spares_setHdl ..)
    · split
      · exact spares_setHdl ..
      · exact .refl

theorem spares_pspArb (s : State) (a : Nat) : Spares pl s (pspArb s a) := by
  refine .ite .refl ?_
  split
  · exact .refl
  · split
    · exact (spares_setHdl ..).trans (spares_headControlFrame ..)
    · exact (spares_setHdl ..).trans (spares_setHdl ..)
    · exact (spares_setHdl ..).trans (spares_setHdl ..)

theorem spares_wrpEnd (s : State) (a status : Nat) (cut : Bool) : Spares pl s (wrpEnd s a status cut) := by
  unfold wrpEnd
  split
  · exact .refl
  · exact ((((((((spares_setHdl ..).trans (spares_setFlds_all _ _ _ rfl)).trans (spares_when _ _ _ (fun _ =>
      spares_bump _ _ _ _ (by decide)))).trans (spares_when _ _ _ (fun _ => spares_bump _ _ _ _ (by decide)))).trans
      (spares_setWrp ..)).trans (spares_mediaDone ..)).trans (spares_calBoundary ..)).trans
      (spares_raiseSource ..)).trans (spares_pspArb ..)

theorem spares_wrpCut (s : State) (a status : Nat) : Spares pl s (wrpCut s a status) := by
  unfold wrpCut
  split
  · exact .refl
  · exact spares_wrpEnd ..

theorem spares_wrpEndAfter (s : State) (a status : Nat) : Spares pl s (wrpEndAfter s a status) := by
  unfold wrpEndAfter
  split
  · exact .refl
  · exact .ite (spares_setWrp ..) (spares_wrpEnd ..)

theorem spares_wrpPowerLoss (s : State) (a : Nat) : Spares pl s (wrpPowerLoss s a) := spares_wrpEndAfter ..

theorem spares_wrpAbort (s : State) (o : OpRef) (a : Nat) : Spares pl s (wrpAbort s o a) := by
  unfold wrpAbort
  split
  · exact .ite (spares_wrpCut ..) .refl
  · exact .refl

theorem spares_setEntry (s : State) (a e : Nat) (x : Entry) : Spares pl s (setEntry s a e x) := spares_setDcp ..

theorem spares_setCtx (s : State) (a k : Nat) (x : RunCtx) : Spares pl s (setCtx s a k x) := spares_setDcp ..

theorem spares_releaseCtx (s : State) (a k : Nat) : Spares pl s (releaseCtx s a k) :=
  .ite (spares_setCtx ..) .refl

theorem spares_lneEnd (s : State) (a status : Nat) : Spares pl s (lneEnd s a status) := by
  unfold lneEnd
  dsimp only
  split
  · exact .refl
  · exact (((((((spares_setPair ..).trans (spares_when _ _ _ (fun _ => spares_setFlag _ _ _ _ (by decide)))).trans
      (spares_setFld _ _ _ _ (by decide))).trans (spares_setCtx ..)).trans (spares_releaseCtx ..)).trans
      (spares_mediaDone ..)).trans (spares_calBoundary ..)).trans (spares_pspArb ..)

theorem spares_lneAbort (s : State) (a status : Nat) : Spares pl s (lneAbort s a status) := by
  unfold lneAbort
  dsimp only
  split
  · exact .refl
  · refine .trans (.ite ?_ .refl) (spares_lneEnd ..)
    split
    · split
      · exact (spares_setPair ..).trans (spares_setEntry ..)
      · exact spares_setPair ..
    · exact .refl

theorem spares_lneStop (s : State) (a : Nat) : Spares pl s (lneStop s a) := by
  refine ((spares_lneAbort ..).trans (spares_each _ _ (fun _ _ => ?_) _)).trans (spares_setPair ..)
  split
  · exact spares_setEntry ..
  · exact .refl

theorem spares_lneStopOp (s : State) (o : OpRef) (a : Nat) : Spares pl s (lneStopOp s o a) := by
  unfold lneStopOp
  split
  · exact .ite (spares_lneAbort ..) .refl
  · exact .refl

theorem spares_raiseOt (s : State) (a : Nat) : Spares pl s (raiseOt s a) :=
  ((spares_setCte ..).trans (spares_setFlag _ _ _ _ (by decide))).trans (spares_wrpCut ..)

theorem spares_setCteState (s : State) (a st : Nat) : Spares pl s (setCteState s a st) :=
  .trans (.trans (.trans (.trans (.ite (spares_calDropAct ..) .refl) (spares_setCte ..)) (spares_setFld _ _ _ _ (by
    decide))) (spares_setReady ..)) (.ite .refl (spares_raiseOt ..))

theorem spares_seekDone (s : State) (a : Nat) (q : SeekReq) (status : Nat) : Spares pl s (seekDone s a q status) := by
  refine .trans ?_ (spares_raiseSource ..)
  split
  · refine .trans ?_ (spares_mediaDone ..)
    split
    · exact spares_bump _ _ _ _ (by decide)
    · exact spares_bump _ _ _ _ (by decide)
    · exact spares_bump _ _ _ _ (by decide)
    · exact .refl
  · refine .trans ?_ (spares_setFlds_all _ _ _ rfl)
    split
    · exact spares_bump _ _ _ _ (by decide)
    · exact spares_bump _ _ _ _ (by decide)
    · exact spares_bump _ _ _ _ (by decide)
    · exact .refl

theorem spares_endSeek (s : State) (a status : Nat) : Spares pl s (endSeek s a status) := by
  unfold endSeek
  split
  · exact (spares_setCte ..).trans (spares_seekDone ..)
  · exact .refl

theorem spares_cmdDone (s : State) (a status : Nat) : Spares pl s (cmdDone s a status) :=
  (spares_setFlds_all _ _ _ rfl).trans (spares_raiseSource ..)

theorem spares_endCmd (s : State) (a : Nat) (which : List CteCmd) (status : Nat) :
    Spares pl s (endCmd s a which status) := by
  unfold endCmd
  split
  · exact .ite ((spares_setCte ..).trans (spares_cmdDone ..)) .refl
  · exact .refl

theorem spares_abortRequests (s : State) (a : Nat) : Spares pl s (abortRequests s a) := by
  unfold abortRequests
  dsimp only
  split
  · exact ((spares_setCte ..).trans (spares_each _ _ (fun _ _ => spares_seekDone ..) _)).trans (spares_cmdDone ..)
  · exact ((spares_setCte ..).trans (spares_each _ _ (fun _ _ => spares_seekDone ..) _)).trans (spares_cmdDone ..)
  · exact (spares_setCte ..).trans (spares_each _ _ (fun _ _ => spares_seekDone ..) _)

theorem spares_retractDrive (s : State) (code : Int) : Spares pl s (retractDrive s code) :=
  spares_each _ _ (fun _ _ => spares_setCte ..) _

theorem spares_enterParked (s : State) (a : Nat) : Spares pl s (enterParked s a) :=
  ((spares_setCte ..).trans (spares_setCteState ..)).trans (spares_endCmd ..)

theorem spares_linkParked (s : State) : Spares pl s (linkParked s) :=
  spares_each _ _ (fun _ _ => .ite .refl ((((spares_endSeek ..).trans (spares_endCmd ..)).trans
    (spares_abortRequests ..)).trans (spares_enterParked ..))) _

theorem spares_detachSeek (s : State) (o : OpRef) (a : Nat) : Spares pl s (detachSeek s o a) := spares_setCte ..

theorem spares_requestUnload (s : State) : Spares pl s (requestUnload s) :=
  spares_each _ _ (fun _ _ => .ite .refl (spares_setCte ..)) _

theorem spares_setAtSpeed (s : State) (b : Bool) : Spares pl s (setAtSpeed s b) :=
  .ite .refl (((spares_setFlag _ _ _ _ (by decide)).trans (spares_setReady ..)).trans (spares_raiseSource ..))

theorem spares_recomputeHoldUp (s : State) : Spares pl s (recomputeHoldUp s) :=
  .ite (((spares_setFlds_all _ _ _ rfl).trans (spares_glySync ..)).trans (spares_when _ _ _ (fun _ =>
    spares_sendFault _ _ _ _ _ _ (by decide)))) .refl

theorem spares_takeSetSpeed (s : State) : Spares pl s (takeSetSpeed s) :=
  .trans (.upd .refl) (spares_recomputeHoldUp ..)

theorem spares_spnGo (s : State) (st : Nat) (b : Bridge) : Spares pl s (spnGo s st b) :=
  .trans (.trans (.trans (.upd (.ite (((spares_calDrop ..).trans (spares_setAtSpeed ..)).trans
    (spares_setFlag _ _ _ _ (by decide))) .refl)) (spares_setFld _ _ _ _ (by decide))) (.ite (.upd .refl) .refl)) (.ite
    (spares_takeSetSpeed ..) .refl)

theorem spares_spnDone (s : State) (status : Nat) : Spares pl s (spnDone s status) :=
  (spares_setFlds_all _ _ _ rfl).trans (spares_raiseSource ..)

theorem spares_startDone (s : State) (status : Nat) : Spares pl s (startDone s status) :=
  .ite (.trans (.upd .refl) (spares_spnDone ..)) .refl

theorem spares_stopDone (s : State) (status : Nat) : Spares pl s (stopDone s status) :=
  .ite (.trans (.upd .refl) (spares_spnDone ..)) .refl

theorem spares_raiseUnload (s : State) : Spares pl s (raiseUnload s) :=
  (spares_setFlag _ _ _ _ (by decide)).trans (spares_requestUnload ..)

theorem spares_enterFault (s : State) (cause : Nat) : Spares pl s (enterFault s cause) :=
  (((((spares_spnGo ..).trans (spares_setFld _ _ _ _ (by decide))).trans (spares_startDone ..)).trans
    (spares_stopDone ..)).trans (spares_raiseUnload ..)).trans (spares_sendFault _ _ _ _ _ _ (by decide))

theorem spares_enterSense (s : State) : Spares pl s (enterSense s) := spares_spnGo ..

theorem spares_enterBrake (s : State) (shortOnly : Bool) : Spares pl s (enterBrake s shortOnly) :=
  .trans (.trans (.upd .refl) (spares_spnGo ..)) (spares_setFlag _ _ _ _ (by decide))

theorem spares_spnParked (s : State) : Spares pl s (spnParked s) :=
  .ite .refl (.ite (.ite (spares_enterBrake ..) (.ite (((spares_setFlag _ _ _ _ (by decide)).trans
    (spares_enterSense ..)).trans (spares_setFld _ _ _ _ (by decide))) (spares_enterFault ..))) (.ite
    (spares_enterBrake ..) .refl))

theorem spares_enterRectify (s : State) (byVm : Bool) : Spares pl s (enterRectify s byVm) :=
  .ite ((((spares_spnGo ..).upd).trans (spares_raiseUnload ..)).trans (spares_spnParked ..)) .refl

theorem spares_spnPowerLoss (s : State) : Spares pl s (spnPowerLoss s) :=
  (spares_startDone ..).trans (spares_enterRectify ..)

theorem spares_spnQuiesce (s : State) : Spares pl s (spnQuiesce s) := .ite (spares_enterBrake ..) .refl

theorem spares_tierComplete (s : State) (idx status done : Nat) : Spares pl s (tierComplete s idx status done) :=
  ((spares_busWriteWord ..).trans (spares_setFld _ _ _ _ (by decide))).trans (spares_raiseSource ..)

theorem spares_hostReady (s : State) : Spares pl s (hostReady s) :=
  .ite .refl (spares_each _ _ (fun _ _ => .upd .refl) _)

theorem spares_dcpStop (s : State) : Spares pl s (dcpStop s) := spares_each _ _ (fun _ _ => spares_setDec ..) _

theorem spares_sendTag (s : State) (c : TagCmd) : Spares pl s (sendTag s c) := .upd .refl

theorem spares_sendInc (s : State) (k : Nat) : Spares pl s (sendInc s k) := (spares_sendTag ..).upd

theorem spares_setSpool (s : State) (k : Nat) (x : Spool) : Spares pl s (setSpool s k x) :=
  .trans (.upd .refl) (.ite (spares_raiseSource ..) .refl)

theorem spares_producerLost (s : State) (e : Nat) : Spares pl s (producerLost s e) :=
  spares_each _ _ (fun _ _ => .ite (spares_setSpool ..) .refl) _

theorem spares_setSem (s : State) (n : Nat) (x : Sem) : Spares pl s (setSem s n x) := .upd .refl

theorem spares_engineLost (s : State) (e : Nat) : Spares pl s (engineLost s e) :=
  (spares_each _ _ (fun _ _ => .ite (spares_setSem ..) .refl) _).trans (spares_producerLost ..)

theorem spares_modSht (s : State) (k : Nat) (f : Shuttle → Shuttle) : Spares pl s (modSht s k f) :=
  spares_setSht ..

theorem spares_withdraw (s : State) (e : Nat) : Spares pl s (withdraw s e) := .upd .refl

theorem spares_abortOp (s : State) (o : OpRef) (m : MediaOp) : Spares pl s (abortOp s o m) := by
  unfold abortOp
  split
  · exact spares_detachSeek ..
  · exact spares_wrpAbort ..
  · exact spares_lneStopOp ..
  · exact .refl

theorem spares_shReset (s : State) (k : Nat) : Spares pl s (shReset s k) := by
  refine .ite (((((spares_wr _ _ _ _ (by decide)).trans (spares_each _ _ (fun _ _ => ?_) _)).trans
    (spares_withdraw ..)).trans (spares_engineLost ..)).trans (spares_modSht ..)) .refl
  split
  · exact spares_abortOp ..
  · exact .refl

theorem spares_setChan (s : State) (n : Nat) (c : Chan) : Spares pl s (setChan s n c) := .upd .refl

theorem spares_chGo (s : State) (n st : Nat) : Spares pl s (chGo s n st) := spares_setFld _ _ _ _ (by decide)

theorem spares_pointAt (s : State) (n : Nat) (d : DmaDesc) (k : Nat) : Spares pl s (pointAt s n d k) :=
  ((spares_setFld _ _ _ _ (by decide)).trans (spares_wr _ _ _ _ (by decide))).trans (spares_wr _ _ _ _ (by decide))

theorem spares_writeWord4 (s : State) (n ring status errBeat : Nat) :
    Spares pl s (writeWord4 s n ring status errBeat) := spares_busWriteWord ..

theorem spares_chHalt (s : State) (n : Nat) (d : DmaDesc) (status beat : Nat) :
    Spares pl s (chHalt s n d status beat) :=
  ((((((spares_pointAt ..).trans (spares_writeWord4 ..)).trans (spares_setFlds_all _ _ _ rfl)).trans
    (spares_bump _ _ _ _ (by decide))).trans (spares_bump _ _ _ _ (by decide))).trans (spares_setChan ..)).trans
    (spares_raiseSource ..)

theorem spares_chSettle (s : State) (n : Nat) : Spares pl s (chSettle s n) := by
  unfold chSettle
  dsimp only
  split
  · exact .refl
  · refine .ite .refl (.ite .refl ?_)
    split
    · refine .ite ?_ .refl
      split
      · exact (spares_chHalt ..).trans (spares_descFinished ..)
      · exact spares_chHalt ..
    · split
      · refine .ite ?_ .refl
        split
        · exact (spares_chHalt ..).trans (spares_descFinished ..)
        · exact spares_chHalt ..
      · exact .ite ((spares_pointAt ..).trans (spares_chGo ..)) .refl

theorem spares_chStop (s : State) (n status : Nat) (discard : Bool) : Spares pl s (chStop s n status discard) := by
  unfold chStop
  split
  · dsimp only
    split
    · exact .refl
    · exact .ite .refl (((spares_setChan ..).trans (.ite (spares_chGo ..) .refl)).trans (spares_chSettle ..))
  · dsimp only
    split
    · exact .refl
    · exact .ite .refl (((spares_setChan ..).trans (.ite (spares_chGo ..) .refl)).trans (spares_chSettle ..))

theorem spares_dmaPowerLoss (s : State) : Spares pl s (dmaPowerLoss s) := by
  refine spares_each _ _ (fun _ _ => ?_) _
  split
  · exact .ite (spares_chStop ..) .refl
  · exact .refl

theorem spares_oflStop (s : State) : Spares pl s (oflStop s) := .upd .refl

theorem spares_evrUrgent (s : State) : Spares pl s (evrUrgent s) := .upd .refl

theorem spares_powerLossEvent (s : State) : Spares pl s (powerLossEvent s) := spares_evrEvent ..

end Operations

end Sys2Proof.Machine

end

section
-- `decide` waits for the kernel: a thread for each of these proofs would exhaust the memory limit.
set_option Elab.async false

namespace Sys2Proof.Machine

/-! ### Fields and lists of registers -/

/-- A field of another register or index, or of other bits, reads as before. -/
theorem fld_setFld_apart (s : State) {f g : Fld} {i j : Nat} (v : Nat)
    (h : (g.reg ≠ f.reg ∨ j ≠ i) ∨ g.lo + g.w ≤ f.lo ∨ f.lo + f.w ≤ g.lo) : fld (setFld s f i v) g j = fld s g j := by
  by_cases ne : g.reg ≠ f.reg ∨ j ≠ i
  · exact fld_setFld_ne s v ne
  · obtain ⟨hr, rfl⟩ : g.reg = f.reg ∧ j = i := by simpa [not_or] using ne
    exact fld_setFld_disjoint s j v hr (h.resolve_left ne)

/-- Another register than those of a list of stores reads as before. -/
theorem rd_each_wr {r q : Reg} (h : q ≠ r) (v : Nat → Word) (l : List Nat) (s : State) (j : Nat) :
    rd (each l (fun k u => wr u r k (v k)) s) q j = rd s q j := by
  induction l generalizing s with
  | nil => rfl
  | cons k l ih => exact (ih _).trans (rd_wr_ne s _ (.inl h))

/-- From s to t nothing but registers is changed. -/
def OnlyRegs (s t : State) : Prop := ∃ regs, t = { s with regs := regs }

namespace OnlyRegs

variable {s t u : State}

theorem refl : OnlyRegs s s := ⟨s.regs, rfl⟩

theorem trans : OnlyRegs s t → OnlyRegs t u → OnlyRegs s u := by
  rintro ⟨l, rfl⟩ ⟨k, rfl⟩
  exact ⟨k, rfl⟩

theorem wr (h : OnlyRegs s t) (r : Reg) (i : Nat) (v : Word) : OnlyRegs s (Machine.wr t r i v) := h.trans ⟨_, rfl⟩

theorem setFlds (h : OnlyRegs s t) (i : Nat) (l : List (Fld × Nat)) : OnlyRegs s (Machine.setFlds t i l) := by
  induction l generalizing t with
  | nil => exact h
  | cons x l ih => exact ih (h.wr ..)

theorem each (h : OnlyRegs s t) (r : Reg) (v : Nat → Word) (l : List Nat) :
    OnlyRegs s (Machine.each l (fun k u => Machine.wr u r k (v k)) t) := by
  induction l generalizing t with
  | nil => exact h
  | cons k l ih => exact ih (h.wr ..)

end OnlyRegs

/-- A change of actuators' CTE states changes nothing else. -/
theorem each_setCte_eq (f : Nat → State → Cte) (l : List Nat) (s : State) :
    ∃ cte, each l (fun a u => setCte u a (f a u)) s = { s with cte := cte } := by
  induction l generalizing s with
  | nil => exact ⟨s.cte, rfl⟩
  | cons a l ih =>
    obtain ⟨cte, e⟩ := ih (setCte s a (f a s))
    exact ⟨cte, e⟩

/-! ### The time store -/

/-- What is written to the time store. -/
def storedTime (c : Ckr) : TimeCopy where
  seq := (match storeNewest c with | some y => y.seq | none => 0) + 1
  dtime := c.dtime
  pcycle := c.pcycle
  good := true

theorem storeWrite_def (c : Ckr) : storeWrite c =
    if c.storeA.good = false ∨ (c.storeB.good = true ∧ c.storeA.seq < c.storeB.seq) then { c with storeA := storedTime c }
    else { c with storeB := storedTime c } := rfl

/-- The copy written is the newer one from then on. -/
theorem storeNewest_storeWrite (c : Ckr) : storeNewest (storeWrite c) = some (storedTime c) := by
  cases ha : c.storeA.good <;> cases hb : c.storeB.good
  · simp [storeWrite, storedTime, storeNewest, ha, hb]
  · simp [storeWrite, storedTime, storeNewest, ha, hb]
  · simp [storeWrite, storedTime, storeNewest, ha, hb]
  · by_cases h : c.storeA.seq < c.storeB.seq
    · simp [storeWrite, storedTime, storeNewest, ha, hb, h]
    · simp [storeWrite, storedTime, storeNewest, ha, hb, h]

/-- A write of the time store changes its copies alone. -/
theorem storeWrite_eq (c : Ckr) :
    storeWrite c = { c with storeA := (storeWrite c).storeA, storeB := (storeWrite c).storeB } := by
  rw [storeWrite_def]
  split <;> rfl

/-- The newer of two good copies stands. -/
theorem storeWrite_storeA {c : Ckr} (ha : c.storeA.good = true) (h : c.storeB.seq < c.storeA.seq) :
    (storeWrite c).storeA = c.storeA := by
  rw [storeWrite_def, if_neg (by simp [ha]; omega)]

/-! ### What a reset leaves -/

/-- The registers a chip reset keeps. -/
def resetRegs : List Reg :=
  [.FLT_TEMP_HIST, .FLT_WEAR, .FLT_ERR_CNT, .FLT_LOST_CNT, .FCL_CAUSE, .FCL_CAUSE_INFO, .CKR_CLK_STAT, .PWS_FAULT, .PWS_STAT]

theorem keptRegs_onlyRegs (s : State) (power : Bool) (t : State) : OnlyRegs t (keptRegs s power t) := by
  have counts : OnlyRegs t (wr (wr (wr (each (List.range 16) (fun k u => wr u .FLT_TEMP_HIST k (rd s .FLT_TEMP_HIST k)) t)
      .FLT_WEAR 0 (rd s .FLT_WEAR 0)) .FLT_ERR_CNT 0 (rd s .FLT_ERR_CNT 0)) .FLT_LOST_CNT 0 (rd s .FLT_LOST_CNT 0)) :=
    (((OnlyRegs.refl.each ..).wr ..).wr ..).wr ..
  cases power
  · exact (((counts.wr ..).wr ..).setFlds ..).setFlds ..
  · exact counts

/-- The tier's counts are kept whatever the reset. -/
theorem rd_keptRegs_power (s t : State) {q : Reg} (h : q ∉ resetRegs.take 4) (j : Nat) :
    rd (keptRegs s true t) q j = rd t q j := by
  simp only [resetRegs, List.take, List.mem_cons, List.not_mem_nil, or_false, not_or] at h
  obtain ⟨hist, wear, err, lost⟩ := h
  simp [keptRegs, rd_wr_ne, rd_each_wr, hist, wear, err, lost]

theorem rd_keptRegs (s t : State) {q : Reg} (h : q ∉ resetRegs) (j : Nat) : rd (keptRegs s false t) q j = rd t q j := by
  simp only [resetRegs, List.mem_cons, List.not_mem_nil, or_false, not_or] at h
  obtain ⟨hist, wear, err, lost, cause, info, clk, fault, stat⟩ := h
  simp [keptRegs, setFlds, rd_setFld_ne, rd_wr_ne, rd_each_wr, hist, wear, err, lost, cause, info, clk, fault, stat]

end Sys2Proof.Machine

end

section
-- `decide` waits for the kernel: a thread for each of these proofs would exhaust the memory limit.
set_option Elab.async false

namespace Sys2Proof.Machine

/-- What no reset keeps is gone, and what every reset keeps stands (Table 17.3). -/
structure Cleared (s : State) (c : Ckr) (t : State) : Prop where
  part : t.part = s.part
  pending : t.pending = s.pending
  ckr : t.ckr = c
  otp : t.sec.otp = s.sec.otp
  slot : t.sec.slot = s.sec.slot
  keys : t.sec.keys = []
  mem : t.mem = []
  svc : t.svc = {}
  patch : t.patch = {}
  loom : t.loom = {}
  gly : t.gly = {}
  syc : t.syc = {}
  cal : t.cal = {}
  tag : t.tag = {}
  spn : t.spn = { retract := s.spn.retract }

theorem cleared_resetState (s : State) (power : Bool) (c : Ckr) : Cleared s c (resetState s power c) := by
  unfold resetState
  extract_lets x _ t
  obtain ⟨l, e⟩ := keptRegs_onlyRegs s power t
  rw [e]
  exact ⟨rfl, rfl, rfl, rfl, rfl, rfl, rfl, rfl, rfl, rfl, rfl, rfl, rfl, rfl, rfl⟩

/-- A register that no reset keeps reads its reset value after a loss of power. -/
theorem rd_resetState_power (s : State) (c : Ckr) {q : Reg} (h : q ∉ resetRegs.take 4) (j : Nat) :
    rd (resetState s true c) q j = Reg.reset s.part q j := by
  unfold resetState
  rw [rd_keptRegs_power s _ h]
  exact regDefault_regKey ..

/-- And one that a chip reset does not keep, after any. -/
theorem rd_resetState (s : State) (c : Ckr) {q : Reg} (h : q ∉ resetRegs) (j : Nat) :
    rd (resetState s false c) q j = regDefault s.part (regKey q j) := by
  unfold resetState
  rw [rd_keptRegs s _ h]
  rfl

/-- The registers of FCL and the power die that a chip reset keeps. -/
structure KeptByReset (s t : State) : Prop where
  cause : rd t .FCL_CAUSE 0 = rd s .FCL_CAUSE 0
  info : rd t .FCL_CAUSE_INFO 0 = rd s .FCL_CAUSE_INFO 0
  vmTrip : flag t F.PWS_FAULT_VM_TRIP = flag s F.PWS_FAULT_VM_TRIP
  restartBlock : flag t F.PWS_STAT_RESTART_BLOCK = flag s F.PWS_STAT_RESTART_BLOCK
  chopStuck : flag t F.PWS_FAULT_CHOP_STUCK = flag s F.PWS_FAULT_CHOP_STUCK
  linkLoss : flag t F.PWS_FAULT_LINK_LOSS = flag s F.PWS_FAULT_LINK_LOSS

theorem keptByReset_resetState (s : State) (c : Ckr) : KeptByReset s (resetState s false c) := by
  have same (f : Fld) (u : State) (h : f.lo + f.w ≤ 64) : fld (setFld u f 0 (fld s f)) f = fld s f :=
    (fld_setFld_same u f 0 _ h).trans (Nat.mod_eq_of_lt (getBits_lt ..))
  constructor
  all_goals
    simp (disch := decide) only [resetState, keptRegs, Bool.false_eq_true, if_false, setFlds, flag, rd_setFld_ne, rd_wr_ne,
      rd_wr_same, fld_setFld_apart, same]

/-- CKR's state while a chip reset is in progress. -/
def startedCkr (c : Ckr) : Ckr where
  dtime := c.dtime
  pcycle := c.pcycle
  storeA := (storeWrite c).storeA
  storeB := (storeWrite c).storeB
  sub := c.sub
  rstLow := c.rstLow
  inReset := true

/-- A chip reset that starts clears the machine and retracts the heads, or leaves a running retract as it began. -/
theorem chipReset_eq {s : State} (hd : s.ckr.dead = false) (hi : s.ckr.inReset = false) :
    ∃ cte, chipReset s = { resetState s false (startedCkr s.ckr) with
      cte := cte, spn := { retract := some (s.spn.retract.getD retractAnnounced) } } := by
  have cleared := cleared_resetState s false (startedCkr s.ckr)
  have ckr : ({ dtime := (storeWrite s.ckr).dtime, pcycle := (storeWrite s.ckr).pcycle, storeA := (storeWrite s.ckr).storeA
                storeB := (storeWrite s.ckr).storeB, sub := (storeWrite s.ckr).sub, rstLow := (storeWrite s.ckr).rstLow
                inReset := true } : Ckr) = startedCkr s.ckr := by rw [storeWrite_eq]; rfl
  rw [chipReset, if_neg (by simp [hd, hi])]
  dsimp only
  rw [ckr]
  generalize resetState s false (startedCkr s.ckr) = t at cleared ⊢
  split
  · rename_i h
    obtain ⟨x, hx⟩ := Option.isSome_iff_exists.1 h
    have spn : t.spn = { retract := some (s.spn.retract.getD retractAnnounced) } := by rw [cleared.spn, hx]; rfl
    exact (each_setCte_eq _ _ t).imp fun cte e => e.trans (by rw [← spn])
  · rename_i h
    have none : s.spn.retract = none := by simpa using h
    exact (each_setCte_eq _ _ _).imp fun cte e => e.trans (by rw [cleared.spn, none]; rfl)

end Sys2Proof.Machine

end

section
-- `decide` waits for the kernel: a thread for each of these proofs would exhaust the memory limit.
set_option Elab.async false

namespace Sys2Proof.Machine

/-! ### Power-on -/

/-- CKR's state at power-on, before the time store is written. -/
def poweredCkr (c : Ckr) : Ckr :=
  match storeNewest c with
  | some x => { storeA := c.storeA, storeB := c.storeB, por := true, inReset := true
                dtime := x.dtime, pcycle := min (x.pcycle + 1) (2 ^ 32 - 1) }
  | none => { storeA := c.storeA, storeB := c.storeB, por := true, inReset := true, pcycle := 1, storeFault := true }

/-- What the depot does to the slot. -/
def programmed (d : DepotImage) (t : State) : State :=
  match d with
  | some img => { t with sec := { t.sec with
      slot := some img, trialMark := false, failMark := false, norGen := t.sec.norGen + 1 } }
  | none => t

theorem exec_powerOn {s : State} (d : DepotImage) (h : s.ckr.dead = true) : exec (.powerOn d) s =
    .next (setFlag (programmed d (resetState s true (storeWrite (poweredCkr s.ckr)))) F.CKR_CLK_STAT_TIME_LOST 0
      (storeNewest s.ckr).isNone) := by
  change execPowerOn d s = _
  rw [execPowerOn, if_neg (by simp [h])]
  rfl

/-- The depot reaches the slot alone. -/
theorem programmed_fields (d : DepotImage) (t : State) : (programmed d t).ckr = t.ckr ∧ (programmed d t).mem = t.mem ∧
    (programmed d t).pending = t.pending ∧ (programmed d t).sec.otp = t.sec.otp ∧ (programmed d t).sec.keys = t.sec.keys ∧
    (∀ r i, rd (programmed d t) r i = rd t r i) ∧
    (programmed d t).sec.slot = (match d with | some img => some img | none => t.sec.slot) := by
  cases d <;> exact ⟨rfl, rfl, rfl, rfl, rfl, fun _ _ => rfl, rfl⟩

/-- The copies alone say which is newer. -/
theorem storeNewest_congr {c d : Ckr} (ha : c.storeA = d.storeA) (hb : c.storeB = d.storeB) : storeNewest c = storeNewest d := by
  rw [storeNewest, storeNewest, ha, hb]

/-! ### Chip reset -/

theorem storeNewest_startedCkr (c : Ckr) : storeNewest (startedCkr c) = some (storedTime c) :=
  (storeNewest_congr rfl rfl).trans (storeNewest_storeWrite c)

/-- What a chip reset that starts leaves. -/
structure ResetStarted (s t : State) : Prop where
  kept : KeptByReset s t
  cleared : Cleared s (startedCkr s.ckr) { t with spn := { retract := s.spn.retract } }
  retract : t.spn.retract = some (s.spn.retract.getD retractAnnounced)
  regs : ∀ r i, r ∉ resetRegs → rd t r i = regDefault s.part (regKey r i)

theorem resetStarted_chipReset {s : State} (hd : s.ckr.dead = false) (hi : s.ckr.inReset = false) :
    ResetStarted s (chipReset s) := by
  obtain ⟨cte, e⟩ := chipReset_eq hd hi
  have cleared := cleared_resetState s false (startedCkr s.ckr)
  have kept := keptByReset_resetState s (startedCkr s.ckr)
  have regs (r : Reg) (i : Nat) (h : r ∉ resetRegs) := rd_resetState s (startedCkr s.ckr) h i
  rw [e]
  generalize resetState s false (startedCkr s.ckr) = t at cleared kept regs ⊢
  obtain ⟨part, pending, ckr, otp, slot, keys, mem, svc, patch, loom, gly, syc, cal, tag, -⟩ := cleared
  obtain ⟨cause, info, vmTrip, restartBlock, chopStuck, linkLoss⟩ := kept
  exact ⟨⟨cause, info, vmTrip, restartBlock, chopStuck, linkLoss⟩,
    ⟨part, pending, ckr, otp, slot, keys, mem, svc, patch, loom, gly, syc, cal, tag, rfl⟩, rfl, regs⟩

/-! ### Faults at severity 7 -/

/-- A message at severity 7 pulses its block's fatal line, whatever its queue holds. -/
theorem sendFault_fatal (s : State) (b : Block) (source kind addr : Nat) :
    ∃ waiting, sendFault s b source kind 7 addr = { s with fcl := { s.fcl with
      waiting := waiting, fatal := s.fcl.fatal ++ [faultMsg source kind 7 addr] } } := by
  have sent := msgSev_faultMsg source kind 7 addr
  rw [sendFault, sendMsg]
  generalize faultMsg source kind 7 addr = w at sent ⊢
  dsimp only
  rw [sent, if_neg (by simp), if_pos rfl]
  exact ⟨_, rfl⟩

/-! ### Bits and fields -/

/-- A bit taken off a number. -/
theorem testBit_sub_two_pow (v n : Nat) : (v - (if v.testBit n then 2 ^ n else 0)).testBit n = false := by
  split
  · rename_i h
    simp only [Nat.testBit_eq_decide_div_mod_eq, decide_eq_true_eq, decide_eq_false_iff_not] at h ⊢
    have sub := Nat.sub_mul_div v (2 ^ n) 1
    rw [Nat.mul_one] at sub
    omega
  · rename_i h
    simpa using h

/-- A field of one bit. -/
theorem getBits_one (w : Word) (k : Nat) : getBits w k 1 = b2n (bit w k) := by
  have lt := getBits_lt w k 1
  have zero : (getBits w k 1).testBit 0 = bit w k := by simp [getBits, bit, BitVec.testBit_toNat]
  obtain e | e : getBits w k 1 = 0 ∨ getBits w k 1 = 1 := by omega
  · simp [e, ← zero, b2n]
  · simp [e, ← zero, b2n]

theorem flag_eq_bit (s : State) (f : Fld) (i : Nat) (h : f.w = 1) : flag s f i = bit (rd s f.reg i) f.lo := by
  rw [flag, fld, h, getBits_one]
  cases bit (rd s f.reg i) f.lo <;> rfl

/-! ### The retract -/

/-- A retract that runs goes on as it began (R21). -/
theorem startRetract_eq (s : State) (cause : Nat) : ∃ cte, startRetract s cause =
    { s with cte := cte, spn := { s.spn with retract := some (s.spn.retract.getD cause) } } := by
  rw [startRetract]
  split
  · rename_i h
    obtain ⟨x, hx⟩ := Option.isSome_iff_exists.1 h
    have spn : s.spn = { s.spn with retract := some (s.spn.retract.getD cause) } := by rw [hx, Option.getD_some, ← hx]
    exact ⟨s.cte, by rw [← spn]⟩
  · rename_i h
    have none : s.spn.retract = none := by simpa using h
    exact (each_setCte_eq _ _ _).imp fun cte e => e.trans (by rw [none]; rfl)

/-! ### Lists of changes -/

/-- What each change of a list keeps. -/
theorem each_keeps {α : Type} {P : State → Prop} {f : α → State → State} (keeps : ∀ y u, P u → P (f y u)) (l : List α) :
    ∀ s, P s → P (each l f s) := by
  induction l with
  | nil => exact fun _ => id
  | cons y l ih => exact fun s p => ih _ (keeps y s p)

/-- What one change of a list establishes and the others keep. -/
theorem each_reaches {α : Type} {P : State → Prop} {f : α → State → State} {x : α} (made : ∀ u, P (f x u))
    (keeps : ∀ y u, P u → P (f y u)) {l : List α} (h : x ∈ l) (s : State) : P (each l f s) := by
  induction l generalizing s with
  | nil => cases h
  | cons y l ih =>
    obtain rfl | h := List.mem_cons.1 h
    · exact each_keeps keeps l _ (made s)
    · exact ih h _

end Sys2Proof.Machine

end

section
-- `decide` waits for the kernel: a thread for each of these proofs would exhaust the memory limit.
set_option Elab.async false

namespace Sys2Proof.Machine

section TimeStore

variable (c : Ckr)

@[simp] theorem storeWrite_dead : (storeWrite c).dead = c.dead := by rw [storeWrite_eq]
@[simp] theorem storeWrite_inReset : (storeWrite c).inReset = c.inReset := by rw [storeWrite_eq]
@[simp] theorem storeWrite_dtime : (storeWrite c).dtime = c.dtime := by rw [storeWrite_eq]
@[simp] theorem storeWrite_pcycle : (storeWrite c).pcycle = c.pcycle := by rw [storeWrite_eq]
@[simp] theorem storeWrite_storeFault : (storeWrite c).storeFault = c.storeFault := by rw [storeWrite_eq]

end TimeStore

/-! ### Power-on and resets -/

/-- Power-on with a newer good copy of the time store. -/
theorem poweredCkr_some {c : Ckr} {x : TimeCopy} (h : storeNewest c = some x) (hp : x.pcycle + 1 < 2 ^ 32) : poweredCkr c =
    { storeA := c.storeA, storeB := c.storeB, por := true, inReset := true, dtime := x.dtime, pcycle := x.pcycle + 1 } := by
  have least : min (x.pcycle + 1) (2 ^ 32 - 1) = x.pcycle + 1 := by omega
  rw [poweredCkr, h]
  dsimp only
  rw [least]

theorem poweredCkr_none {c : Ckr} (h : storeNewest c = none) : poweredCkr c =
    { storeA := c.storeA, storeB := c.storeB, por := true, inReset := true, pcycle := 1, storeFault := true } := by
  rw [poweredCkr, h]

/-- The copies of the time store are what the module had at power-on. -/
theorem storeNewest_poweredCkr (c : Ckr) : storeNewest (poweredCkr c) = storeNewest c := by
  unfold poweredCkr
  split <;> exact storeNewest_congr rfl rfl

/-- What power-on leaves. -/
structure PoweredOn (s : State) (d : DepotImage) (t : State) : Prop where
  ckr : t.ckr = storeWrite (poweredCkr s.ckr)
  lost : flag t F.CKR_CLK_STAT_TIME_LOST = (storeNewest s.ckr).isNone
  cause : rd t .FCL_CAUSE 0 = 0#64
  otp : t.sec.otp = s.sec.otp
  slot : t.sec.slot = (match d with | some img => some img | none => s.sec.slot)
  keys : t.sec.keys = []
  mem : t.mem = []
  pending : t.pending = s.pending

theorem ends_powerOn {s : State} (d : DepotImage) (h : s.ckr.dead = true) : Ends (.powerOn d) s (PoweredOn s d) := by
  refine ⟨_, exec_powerOn d h, ?_⟩
  have cause := rd_resetState_power s (storeWrite (poweredCkr s.ckr)) (q := .FCL_CAUSE) (by decide) 0
  obtain ⟨-, pending, ckr, otp, slot, keys, mem, -⟩ := cleared_resetState s true (storeWrite (poweredCkr s.ckr))
  generalize resetState s true (storeWrite (poweredCkr s.ckr)) = t at *
  obtain ⟨hckr, hmem, hpending, hotp, hkeys, hrd, hslot⟩ := programmed_fields d t
  exact {
    ckr := hckr.trans ckr
    lost := flag_setFlag_same _ _ _ _ (by decide) (by decide)
    cause := (rd_setFld_ne _ _ (by decide)).trans ((hrd ..).trans cause)
    otp := hotp.trans otp
    slot := hslot.trans (by cases d <;> simp [slot])
    keys := hkeys.trans keys
    mem := hmem.trans mem
    pending := hpending.trans pending }

/-- A power-on of a module that has power does nothing. -/
theorem exec_powerOn_powered {s : State} (d : DepotImage) (h : s.ckr.dead = false) : exec (.powerOn d) s = .next s :=
  if_pos (by simp [h])

/-- RST_N starts a chip reset where it is not ignored. -/
theorem exec_rstNAssert {s : State} (h : powerLost s = false ∨ s.ckr.quiesced = true) :
    exec .rstNAssert s = .next (chipReset { s with ckr := { s.ckr with rstLow := true } }) :=
  if_neg (by obtain h | h := h <;> simp [h])

/-- What is sampled and sensed where a chip reset ends. -/
def strapsSampled (s : State) (h p : Bool) : State :=
  setFlds s 0 [(F.CKR_STRAP_HOST_SEL, b2n h), (F.CKR_STRAP_PE_MODE, b2n p), (F.CKR_PWR_STAT_VIN_OK, 1),
    (F.CKR_CLK_STAT_PLL, pllBits s.part), (F.PWS_STAT_VIN_OK, 1), (F.PWS_STAT_LINK_OK, 1)]

/-- The end of a chip reset. -/
def released (s : State) (h p : Bool) : State :=
  let t := if flag s F.CKR_CLK_STAT_ON_BACKUP then strapsSampled s h p else setFlag (strapsSampled s h p) F.CKR_CLK_STAT_XTAL_OK 0 true
  { t with
    board := { t.board with hostSel := h, peMode := p }
    ckr := { t.ckr with inReset := false, por := false, rstLow := false, gated := [], up := 0 } }

theorem exec_resetRelease {s : State} (h p : Bool) (hi : s.ckr.inReset = true) (hx : s.ckr.noCrystal = false)
    (hd : s.ckr.dead = false) : exec (.resetRelease h p) s = .next (released s h p) :=
  if_pos (by simp [hi, hx, hd])

theorem pllBits_lt (p : Part) : pllBits p < 2 ^ 10 := by
  unfold pllBits
  omega

theorem released_ckr (s : State) (h p : Bool) : (released s h p).ckr =
    { s.ckr with inReset := false, por := false, rstLow := false, gated := [], up := 0 } := by
  have kept : (strapsSampled s h p).ckr = s.ckr := rfl
  unfold released
  generalize strapsSampled s h p = t at kept
  dsimp only
  split
  · rw [kept]
  · rw [setFlag_ckr, kept]

/-- But for the crystal's state a release leaves what was sampled. -/
theorem fld_released (s : State) (h p : Bool) (g : Fld) (hg : g.reg ≠ F.CKR_CLK_STAT_XTAL_OK.reg ∨ 1 ≤ g.lo) :
    fld (released s h p) g = fld (strapsSampled s h p) g := by
  unfold released
  extract_lets t
  have crystal : fld t g = fld (strapsSampled s h p) g := by
    unfold t
    split
    · rfl
    · exact fld_setFld_apart _ _ (hg.elim (fun hr => .inl (.inl hr)) fun hl => .inr (.inr hl))
  exact crystal

/-- A field of one bit just set. -/
theorem flag_setFld_b2n (s : State) (f : Fld) (b : Bool) (hw : f.w = 1) (h : f.lo + f.w ≤ 64) :
    flag (setFld s f 0 (b2n b)) f = b := by
  rw [flag, fld_setFld_same _ _ _ _ h, hw]
  cases b <;> rfl

theorem flag_setFld_apart (s : State) {f g : Fld} {i j : Nat} (v : Nat)
    (h : (g.reg ≠ f.reg ∨ j ≠ i) ∨ g.lo + g.w ≤ f.lo ∨ f.lo + f.w ≤ g.lo) : flag (setFld s f i v) g j = flag s g j := by
  rw [flag, fld_setFld_apart s v h, flag]

theorem flag_strapsSampled (s : State) (h p : Bool) : flag (strapsSampled s h p) F.CKR_STRAP_HOST_SEL = h ∧
    flag (strapsSampled s h p) F.CKR_STRAP_PE_MODE = p ∧ flag (strapsSampled s h p) F.CKR_PWR_STAT_VIN_OK = true := by
  refine ⟨?_, ?_, ?_⟩
  all_goals simp (disch := decide) only [strapsSampled, setFlds, flag_setFld_apart]
  · exact flag_setFld_b2n _ _ h rfl (by decide)
  · exact flag_setFld_b2n _ _ p rfl (by decide)
  · exact flag_setFld_b2n _ _ true rfl (by decide)

theorem fld_strapsSampled_pll (s : State) (h p : Bool) : fld (strapsSampled s h p) F.CKR_CLK_STAT_PLL = pllBits s.part := by
  simp (disch := decide) only [strapsSampled, setFlds, fld_setFld_apart]
  exact (fld_setFld_same _ _ 0 _ (by decide)).trans (Nat.mod_eq_of_lt (pllBits_lt _))

/-! ### Supplies and clocks -/

/-- A rail of the part is switched off. -/
theorem exec_railFault {s : State} {k : Nat} (h : railPresent s.part k = true) : exec (.railFault k) s = .next (sendFault
    (setFld s F.CKR_PWR_STAT_RAIL_FLT 0 (fld s F.CKR_PWR_STAT_RAIL_FLT ||| 2 ^ k)) .ckr 0 FK.ckrRail 7 k) :=
  if_pos h

/-- A PLL's bit taken off, its domain gated and its fault sent. -/
def pllLost (s : State) (n : Nat) : State :=
  let v := fld s F.CKR_CLK_STAT_PLL
  let t := setFld s F.CKR_CLK_STAT_PLL 0 (v - (if Nat.testBit v n then 2 ^ n else 0))
  sendFault { t with ckr := { t.ckr with gated := t.ckr.gated ++ [n] } } .ckr 0 FK.ckrPll 7 n

theorem exec_pllLockLoss {s : State} {n : Nat} (hn : n < 10) (hp : Nat.testBit (pllBits s.part) n = true)
    (hg : n ∉ s.ckr.gated) :
    exec (.pllLockLoss n) s = if n = 4 then execLinkLoss (pllLost s n) else .next (pllLost s n) :=
  if_pos ⟨hn, hp, hg⟩

/-- What the loss of a PLL leaves of CKR and FCL. -/
theorem pllLost_fields (s : State) (n : Nat) : (pllLost s n).ckr = { s.ckr with gated := s.ckr.gated ++ [n] } ∧
    Nat.testBit (fld (pllLost s n) F.CKR_CLK_STAT_PLL) n = false ∧
    (pllLost s n).fcl.fatal = s.fcl.fatal ++ [faultMsg 0 FK.ckrPll 7 n] ∧ (pllLost s n).spn = s.spn ∧
    Leaves [.ckr] s (pllLost s n) := by
  unfold pllLost
  extract_lets v t
  obtain ⟨w, e⟩ := sendFault_fatal { t with ckr := { t.ckr with gated := t.ckr.gated ++ [n] } } .ckr 0 FK.ckrPll n
  rw [e]
  have stored : fld t F.CKR_CLK_STAT_PLL = v - (if Nat.testBit v n then 2 ^ n else 0) := by
    refine (fld_setFld_same s _ 0 _ (by decide)).trans (Nat.mod_eq_of_lt ?_)
    have lt : v < 2 ^ 10 := getBits_lt ..
    exact lt_of_le_of_lt (Nat.sub_le ..) lt
  refine ⟨rfl, ?_, rfl, rfl, fun _ => rfl, fun r i hr => rd_setFld_ne s _ (.inl ?_)⟩
  · change Nat.testBit (fld t F.CKR_CLK_STAT_PLL) n = false
    rw [stored]
    exact testBit_sub_two_pow v n
  · rintro rfl
    exact hr (by decide)

/-- The link to the power die is lost: the actuators are parked and the die retracts. -/
theorem linkLoss_fields (s : State) : ∃ t, execLinkLoss s = .next t ∧ t.fcl.fatal = s.fcl.fatal ∧
    t.spn.retract = some (s.spn.retract.getD (if s.ckr.inReset then retractAnnounced else retractUnannounced)) ∧
    fld t F.CKR_CLK_STAT_PLL = fld s F.CKR_CLK_STAT_PLL := by
  have k : Spares true s (linkParked (setFlag s F.PWS_STAT_LINK_OK 0 false)) :=
    (spares_setFlag _ _ _ _ (by decide)).trans (spares_linkParked ..)
  have pll := k.regs .CKR_CLK_STAT (by decide) 0
  rw [execLinkLoss]
  generalize linkParked (setFlag s F.PWS_STAT_LINK_OK 0 false) = t at k pll
  obtain ⟨cte, e⟩ := startRetract_eq t (if s.ckr.inReset then retractAnnounced else retractUnannounced)
  rw [e]
  exact ⟨_, rfl, k.fatal, by rw [← k.retract], fld_eq_of_rd pll⟩

end Sys2Proof.Machine

end

section
-- `decide` waits for the kernel: a thread for each of these proofs would exhaust the memory limit.
set_option Elab.async false

namespace Sys2Proof.Machine

/-! ### Power loss -/

theorem spares_fltPowerLoss (s : State) : Spares true s (fltPowerLoss s) := by
  have done (c : TierCmd) (u : State) : Spares true u (match c.fin with
      | some (st, n) => tierComplete u c.idx st n
      | none => tierComplete u c.idx 0xDA 0) := by
    split <;> exact spares_tierComplete ..
  have flt (t : State) (x : Flt) : Spares true t { t with flt := x } :=
    ⟨rfl, rfl, rfl, nofun, id, fun _ => id, fun _ _ _ => rfl⟩
  unfold fltPowerLoss
  extract_lets t _ u
  have ended : Spares true s t := spares_each _ _ done s
  have held : Spares true t u := flt ..
  exact ended.trans (held.trans (.ite .refl (flt ..)))

/-- A power loss abandons all calibration. -/
theorem calIdle_calDrop (s : State) : CalIdle (calDrop s (fun _ => true)) := by
  unfold calDrop
  extract_lets c gone t
  have dropped : CalIdle t := ⟨by simp [t, c], by simp [t, c], by simp [t, c]⟩
  exact (spares_each (m := true) gone (fun n u => abandoned u n) (fun n u => spares_abandoned u n) t).cal dropped

/-- The broadcast's flags, its source and its record (R38). -/
def lossSensed (s : State) : State :=
  powerLossEvent (raiseSource (setFlds s 0 [(F.PWS_STAT_VIN_OK, 0), (F.PWS_STAT_HOLDUP, 1), (F.CKR_PWR_STAT_VIN_OK, 0),
    (F.CKR_PWR_STAT_LOSS, 1)]) 1)

theorem lossSensed_fields (s : State) : (lossSensed s).ckr = s.ckr ∧ flag (lossSensed s) F.CKR_PWR_STAT_LOSS = true ∧
    flag (lossSensed s) F.CKR_PWR_STAT_VIN_OK = false ∧ pendingBit (lossSensed s) 1 = true := by
  unfold lossSensed
  have kept : (setFlds s 0 [(F.PWS_STAT_VIN_OK, 0), (F.PWS_STAT_HOLDUP, 1), (F.CKR_PWR_STAT_VIN_OK, 0),
    (F.CKR_PWR_STAT_LOSS, 1)]).ckr = s.ckr := rfl
  have loss : flag (setFlds s 0 [(F.PWS_STAT_VIN_OK, 0), (F.PWS_STAT_HOLDUP, 1), (F.CKR_PWR_STAT_VIN_OK, 0),
      (F.CKR_PWR_STAT_LOSS, 1)]) F.CKR_PWR_STAT_LOSS = true := by
    simp only [setFlds]
    exact flag_setFld_b2n _ _ true rfl (by decide)
  have vin : flag (setFlds s 0 [(F.PWS_STAT_VIN_OK, 0), (F.PWS_STAT_HOLDUP, 1), (F.CKR_PWR_STAT_VIN_OK, 0),
      (F.CKR_PWR_STAT_LOSS, 1)]) F.CKR_PWR_STAT_VIN_OK = false := by
    simp (disch := decide) only [setFlds, flag_setFld_apart]
    exact flag_setFld_b2n _ _ false rfl (by decide)
  generalize setFlds s 0 _ = t at kept loss vin ⊢
  have k : Spares true t (powerLossEvent (raiseSource t 1)) := (spares_raiseSource ..).trans (spares_powerLossEvent ..)
  have stat := k.regs .CKR_PWR_STAT (by decide) 0
  refine ⟨k.ckr.trans kept, ?_, ?_, (spares_powerLossEvent (pl := true) _).pend 1 (pendingBit_raiseSource t 1)⟩
  · rwa [flag, fld_eq_of_rd stat]
  · rwa [flag, fld_eq_of_rd stat]

/-- The loss as CKR records it. -/
def lossStarted (s : State) : State :=
  let t := lossSensed s
  { timeStore t with ckr := { storeWrite t.ckr with loss := some {
      flush := decide (pcState s ≠ .none)
      committed := safeState s && s.flt.image.any (fun i => i.committed), record := powerParams s } } }

/-- The flush starts, unless the safe state has started it (R544), and the units stop. -/
def lossStopped (s : State) (started : Bool) : State :=
  let t := if started = true then s else fltPowerLoss s
  let t := each (List.range t.part.acts) (fun a u => lneStop (wrpPowerLoss u a) a) (calDrop t (fun _ => true))
  spnPowerLoss (oflStop (dmaPowerLoss (dcpStop t)))

theorem exec_vinLoss {s : State} (hl : powerLost s = false) (hd : s.ckr.dead = false) (hi : s.ckr.inReset = false) :
    exec .vinLoss s = .next (glySync (evrUrgent (requestCommit
      (lossStopped (lossStarted s) (safeState s && s.flt.image.isSome))))) :=
  if_neg (by simp [hl, hd, hi])

theorem spares_lossStopped (s : State) (started : Bool) : Spares true s (lossStopped s started) ∧
    CalIdle (lossStopped s started) := by
  unfold lossStopped
  extract_lets t u
  have flush : Spares true s t := .ite .refl (spares_fltPowerLoss s)
  have lanes : Spares true (calDrop t (fun _ => true)) u :=
    spares_each _ _ (fun a v => (spares_wrpPowerLoss v a).trans (spares_lneStop ..)) _
  have rest : Spares true u (spnPowerLoss (oflStop (dmaPowerLoss (dcpStop u)))) :=
    (((spares_dcpStop u).trans (spares_dmaPowerLoss ..)).trans (spares_oflStop ..)).trans (spares_spnPowerLoss ..)
  exact ⟨((flush.trans (spares_calDrop ..)).trans lanes).trans rest, rest.cal (lanes.cal (calIdle_calDrop t))⟩

/-- The commit of the life counters is asked for, and the units report. -/
theorem spares_requestCommit (s : State) :
    Spares true (setFlag s F.HDL_LIFE_COMMIT_BUSY 0 true) (glySync (evrUrgent (requestCommit s))) := by
  have asked : Spares true (setFlag s F.HDL_LIFE_COMMIT_BUSY 0 true) (requestCommit s) := by
    unfold requestCommit
    exact .ite (.upd .refl) (spares_sendInc ..)
  exact (asked.trans (spares_evrUrgent _)).trans (spares_glySync _)

/-- What a loss of VIN leaves of supplies and reset. -/
structure VinLost (s t : State) : Prop where
  ckr : t.ckr = { storeWrite s.ckr with loss := some {
    flush := decide (pcState s ≠ .none)
    committed := safeState s && s.flt.image.any (fun i => i.committed), record := powerParams s } }
  loss : flag t F.CKR_PWR_STAT_LOSS = true
  vinOk : flag t F.CKR_PWR_STAT_VIN_OK = false
  pending : pendingBit t 1 = true
  cal : CalIdle t
  busy : flag t F.HDL_LIFE_COMMIT_BUSY = true

theorem ends_vinLoss {s : State} (hl : powerLost s = false) (hd : s.ckr.dead = false) (hi : s.ckr.inReset = false) :
    Ends .vinLoss s (VinLost s) := by
  refine ⟨_, exec_vinLoss hl hd hi, ?_⟩
  obtain ⟨ckr, loss, vinOk, pending⟩ := lossSensed_fields s
  obtain ⟨stopped, idle⟩ := spares_lossStopped (lossStarted s) (safeState s && s.flt.image.isSome)
  generalize hu : lossStopped (lossStarted s) _ = u at stopped idle ⊢
  have asked := spares_requestCommit u
  have stat : rd (glySync (evrUrgent (requestCommit u))) .CKR_PWR_STAT 0 = rd (lossSensed s) .CKR_PWR_STAT 0 :=
    (asked.regs .CKR_PWR_STAT (by decide) 0).trans
      ((rd_setFld_ne _ _ (.inl (by decide))).trans (stopped.regs .CKR_PWR_STAT (by decide) 0))
  have commit := asked.regs .HDL_LIFE_COMMIT (by decide) 0
  have kept : pendingBit (setFlag u F.HDL_LIFE_COMMIT_BUSY 0 true) 1 = pendingBit u 1 := by
    rw [pendingBit, setFlag, rd_setFld_ne _ _ (.inl (by decide)), pendingBit]
  exact {
    ckr := asked.ckr.trans (stopped.ckr.trans (by rw [lossStarted]; dsimp only; rw [ckr]))
    loss := by rw [flag, fld_eq_of_rd stat]; exact loss
    vinOk := by rw [flag, fld_eq_of_rd stat]; exact vinOk
    pending := asked.pend 1 (kept.trans (stopped.pend 1 pending))
    cal := asked.cal idle
    busy := by
      rw [flag, fld_eq_of_rd commit]
      exact flag_setFlag_same _ _ _ _ (by decide) (by decide) }

/-! ### Quiescence -/

/-- A core held. -/
def holdCore (c : Nat) (s : State) : State := engineLost (setFld s F.SVC_CORE_CTL_STATE c 0) c

/-- The cores and Shuttles held. -/
def held (s : State) : State :=
  each (List.range s.part.shuttles) (fun k u => shReset u k) (each (List.range s.part.cores) holdCore s)

theorem exec_quiesceLogic {s : State} {vm : Nat} {l : PowerLoss} (hl : s.ckr.loss = some l) (hb : l.vinBack = false)
    (hq : s.ckr.quiesced = false) (h : mayQuiesce (setVm s vm) = true ∨ vm < 4500) : exec (.quiesceLogic vm) s =
    .next (spnQuiesce { held (setVm s vm) with ckr := { (held (setVm s vm)).ckr with quiesced := true } }) := by
  have lost : powerLost (setVm s vm) = true := by
    change s.ckr.loss.isSome = true
    rw [hl]
    rfl
  have back : (setVm s vm).ckr.loss.any (fun l => l.vinBack) = false := by
    change s.ckr.loss.any (fun l => l.vinBack) = false
    rw [hl]
    exact hb
  have quiet : (setVm s vm).ckr.quiesced = false := hq
  change execQuiesceLogic vm s = _
  rw [execQuiesceLogic]
  dsimp only
  rw [back, lost, quiet, if_neg (by obtain h | h := h <;> simp [h]), if_neg (by simp)]
  rfl

theorem spares_holdCore (c : Nat) (s : State) : Spares false (setFld s F.SVC_CORE_CTL_STATE c 0) (holdCore c s) :=
  spares_engineLost ..

theorem fld_holdCore (c d : Nat) (s : State) :
    fld (holdCore d s) F.SVC_CORE_CTL_STATE c = fld (setFld s F.SVC_CORE_CTL_STATE d 0) F.SVC_CORE_CTL_STATE c :=
  fld_eq_of_rd ((spares_holdCore d s).regs .SVC_CORE_CTL (by decide) c)

/-- Each core is then held, and the flush image stands. -/
theorem held_fields {s : State} {c : Nat} (h : c < s.part.cores) :
    fld (held s) F.SVC_CORE_CTL_STATE c = 0 ∧ (held s).flt.image = s.flt.image := by
  have made (u : State) : fld (holdCore c u) F.SVC_CORE_CTL_STATE c = 0 :=
    (fld_holdCore c c u).trans (fld_setFld_same u _ c 0 (by decide))
  have kept (d : Nat) (u : State) (hu : fld u F.SVC_CORE_CTL_STATE c = 0) :
      fld (holdCore d u) F.SVC_CORE_CTL_STATE c = 0 := by
    by_cases e : c = d
    · subst e
      exact made u
    · exact (fld_holdCore c d u).trans ((fld_setFld_ne u 0 (.inr e)).trans hu)
  have stands (d : Nat) (u : State) (hu : u.flt.image = s.flt.image) : (holdCore d u).flt.image = s.flt.image := by
    rw [(spares_holdCore d u).image rfl, setFld_flt, hu]
  have cores := each_reaches (P := fun u => fld u F.SVC_CORE_CTL_STATE c = 0) (f := holdCore) made kept
    (List.mem_range.2 h) s
  have image := each_keeps (P := fun u => u.flt.image = s.flt.image) (f := holdCore) stands (List.range s.part.cores) s rfl
  unfold held
  generalize each (List.range s.part.cores) holdCore s = t at cores image ⊢
  have shuttles : Spares false t (each (List.range s.part.shuttles) (fun k u => shReset u k) t) :=
    spares_each _ _ (fun k u => spares_shReset u k) t
  exact ⟨(fld_eq_of_rd (shuttles.regs .SVC_CORE_CTL (by decide) c)).trans cores, (shuttles.image rfl).trans image⟩

end Sys2Proof.Machine

end

section
-- `decide` waits for the kernel: a thread for each of these proofs would exhaust the memory limit.
set_option Elab.async false

namespace Sys2Proof.Machine

/-! ### Quiescence, and VIN's return -/

/-- What a module that reaches quiescence holds. -/
theorem ends_quiesceLogic {s : State} {vm : Nat} {l : PowerLoss} {c : Nat} (hl : s.ckr.loss = some l)
    (hb : l.vinBack = false) (hq : s.ckr.quiesced = false) (h : mayQuiesce (setVm s vm) = true ∨ vm < 4500)
    (hc : c < s.part.cores) : Ends (.quiesceLogic vm) s (fun t =>
      t.ckr.quiesced = true ∧ fld t F.SVC_CORE_CTL_STATE c = 0 ∧ t.flt.image = s.flt.image) := by
  refine ⟨_, exec_quiesceLogic hl hb hq h, ?_⟩
  obtain ⟨state, image⟩ := held_fields (s := setVm s vm) hc
  generalize held (setVm s vm) = t at state image ⊢
  have k : Spares false { t with ckr := { t.ckr with quiesced := true } }
      (spnQuiesce { t with ckr := { t.ckr with quiesced := true } }) := spares_spnQuiesce _
  exact ⟨by rw [k.ckr], (fld_eq_of_rd (k.regs .SVC_CORE_CTL (by decide) c)).trans state, (k.image rfl).trans image⟩

/-- Until R600's conditions hold or VM falls, VM is sensed and nothing else happens. -/
theorem exec_quiesceLogic_waits {s : State} {vm : Nat} (h : mayQuiesce (setVm s vm) = false) (hv : 4500 ≤ vm) :
    exec (.quiesceLogic vm) s = .next (setVm s vm) := by
  change execQuiesceLogic vm s = _
  rw [execQuiesceLogic]
  dsimp only
  rw [if_pos (by simp [h, Nat.not_lt.2 hv])]

/-- With VIN returned a chip reset takes the place of quiescence (R40). -/
theorem exec_quiesceLogic_back {s : State} {vm : Nat} {l : PowerLoss} (hl : s.ckr.loss = some l) (hb : l.vinBack = true)
    (hq : s.ckr.quiesced = false) (h : mayQuiesce (setVm s vm) = true) :
    exec (.quiesceLogic vm) s = .next (chipReset (setVm s vm)) := by
  have lost : powerLost (setVm s vm) = true := by
    change s.ckr.loss.isSome = true
    rw [hl]
    rfl
  have back : (setVm s vm).ckr.loss.any (fun l => l.vinBack) = true := by
    change s.ckr.loss.any (fun l => l.vinBack) = true
    rw [hl]
    exact hb
  have quiet : (setVm s vm).ckr.quiesced = false := hq
  change execQuiesceLogic vm s = _
  rw [execQuiesceLogic]
  dsimp only
  rw [back, lost, quiet, if_neg (by simp [h]), if_pos rfl]

/-- The flags of VIN where it returns. -/
def vinSensed (s : State) : State := setFlds s 0 [(F.PWS_STAT_VIN_OK, 1), (F.CKR_PWR_STAT_VIN_OK, 1)]

theorem exec_vinReturn {s : State} {l : PowerLoss} (hl : s.ckr.loss = some l) : exec .vinReturn s =
    if s.ckr.quiesced then .next (chipReset (vinSensed s))
    else .next { vinSensed s with ckr := { s.ckr with loss := some { l with vinBack := true } } } := by
  change execVinReturn s = _
  rw [execVinReturn, hl]
  rfl

/-! ### Readiness -/

/-- A readiness bit set. -/
theorem bit_setReady (s : State) (f : Fld) (lane : Nat) (b : Bool) {k : Nat} (hk : k < 64) :
    bit (rd (setReady s f lane b) .CKR_READY 0) k = if k = f.lo + lane then b else bit (rd s .CKR_READY 0) k := by
  unfold setReady
  dsimp only
  split
  · rename_i h
    split
    · rename_i e
      rw [e, h]
    · rfl
  · have stored (v : Word) : rd (raiseSource (evrEvent (wr s .CKR_READY 0 v) 11 2 2 v) 2) .CKR_READY 0 = v := by
      have event : Keeps [.bfm, .syc, .fcl, .evr] true (wr s .CKR_READY 0 v)
          (raiseSource (evrEvent (wr s .CKR_READY 0 v) 11 2 2 v) 2) :=
        (keeps_evrEvent _ _ _ _ _ _ _ _ .of (by decide)).trans (keeps_raiseSource _ _ (by decide))
      exact (event.regs .CKR_READY 0 (by decide)).trans (rd_wr_same s .CKR_READY 0 v)
    rw [stored, bit, getLsbD_setBits]
    by_cases e : k = f.lo + lane
    · rw [if_pos (by omega), if_pos e, e, Nat.sub_self]
      cases b <;> rfl
    · rw [if_neg (by omega), if_neg e, bit]

/-- CKR_FWREADY as written, before CKR_READY mirrors it. -/
def fwReadyStored (s : State) (v : Word) : State :=
  setFlds s 0 [(F.CKR_FWREADY_HOST, getBits v 0 1), (F.CKR_FWREADY_MEDIA, getBits v 1 1)]

theorem fwReadyStored_fields (s : State) (v : Word) : (fwReadyStored s v).ckr = s.ckr ∧
    flag (fwReadyStored s v) F.CKR_FWREADY_HOST = bit v 0 ∧ flag (fwReadyStored s v) F.CKR_FWREADY_MEDIA = bit v 1 := by
  unfold fwReadyStored
  rw [getBits_one, getBits_one]
  refine ⟨rfl, ?_, ?_⟩
  · simp (disch := decide) only [setFlds, flag_setFld_apart]
    exact flag_setFld_b2n _ _ _ rfl (by decide)
  · simp only [setFlds]
    exact flag_setFld_b2n _ _ _ rfl (by decide)

/-- What a write of CKR_FWREADY leaves. -/
theorem ends_fwReadyWrite (s : State) (v : Word) : Ends (.fwReadyWrite v) s (fun t =>
    flag t F.CKR_READY_HOST = bit v 0 ∧ flag t F.CKR_READY_MEDIA = bit v 1 ∧ flag t F.CKR_FWREADY_HOST = bit v 0 ∧
    flag t F.CKR_FWREADY_MEDIA = bit v 1 ∧ t.ckr = s.ckr) := by
  obtain ⟨ckr, host, media⟩ := fwReadyStored_fields s v
  have meaning : exec (.fwReadyWrite v) s = .next (hostReady
      (setReady (setReady (fwReadyStored s v) F.CKR_READY_HOST 0 (bit v 0)) F.CKR_READY_MEDIA 0 (bit v 1))) := rfl
  refine ⟨_, meaning, ?_⟩
  generalize fwReadyStored s v = t at ckr host media ⊢
  have k : Spares true t (setReady (setReady t F.CKR_READY_HOST 0 (bit v 0)) F.CKR_READY_MEDIA 0 (bit v 1)) :=
    (spares_setReady ..).trans (spares_setReady ..)
  have hostBit := (bit_setReady (setReady t F.CKR_READY_HOST 0 (bit v 0)) F.CKR_READY_MEDIA 0 (bit v 1) (k := 5)
    (by decide)).trans (bit_setReady t F.CKR_READY_HOST 0 (bit v 0) (by decide))
  have mediaBit := bit_setReady (setReady t F.CKR_READY_HOST 0 (bit v 0)) F.CKR_READY_MEDIA 0 (bit v 1) (k := 16) (by decide)
  generalize setReady _ F.CKR_READY_MEDIA 0 (bit v 1) = u at k hostBit mediaBit ⊢
  have up : Spares true u (hostReady u) := spares_hostReady u
  have same (r : Reg) : rd (hostReady u) r 0 = rd u r 0 := (keeps_hostReady u).regs r 0 List.not_mem_nil
  have fw : rd (hostReady u) .CKR_FWREADY 0 = rd t .CKR_FWREADY 0 := (same _).trans (k.regs .CKR_FWREADY (by decide) 0)
  refine ⟨?_, ?_, ?_, ?_, up.ckr.trans (k.ckr.trans ckr)⟩
  · rw [flag_eq_bit _ _ _ rfl, same]
    exact hostBit
  · rw [flag_eq_bit _ _ _ rfl, same]
    exact mediaBit
  · rw [flag, fld_eq_of_rd fw]
    exact host
  · rw [flag, fld_eq_of_rd fw]
    exact media

end Sys2Proof.Machine

end

section
-- `decide` waits for the kernel: a thread for each of these proofs would exhaust the memory limit.
set_option Elab.async false

namespace Sys2Proof.Machine

/-- A chip reset that starts leaves what O46 lists of it, and whatever else is shown. -/
theorem ResetStarted.list {s t : State} {Q : Prop} (h : ResetStarted s t) (q : Q) :
    t.ckr.dtime = s.ckr.dtime ∧ t.ckr.pcycle = s.ckr.pcycle ∧
    rd t .FCL_CAUSE 0 = rd s .FCL_CAUSE 0 ∧ rd t .FCL_CAUSE_INFO 0 = rd s .FCL_CAUSE_INFO 0 ∧
    flag t F.PWS_FAULT_VM_TRIP = flag s F.PWS_FAULT_VM_TRIP ∧
    flag t F.PWS_STAT_RESTART_BLOCK = flag s F.PWS_STAT_RESTART_BLOCK ∧
    flag t F.PWS_FAULT_CHOP_STUCK = flag s F.PWS_FAULT_CHOP_STUCK ∧
    flag t F.PWS_FAULT_LINK_LOSS = flag s F.PWS_FAULT_LINK_LOSS ∧
    t.sec.otp = s.sec.otp ∧ t.sec.keys = [] ∧ t.mem = [] ∧ t.svc = {} ∧ t.patch = {} ∧ t.loom = {} ∧ t.gly = {} ∧
    t.syc = {} ∧ t.cal = {} ∧ t.tag = {} ∧ t.ckr.inReset = true ∧ t.ckr.loss = none ∧
    t.spn.retract = some (s.spn.retract.getD retractAnnounced) ∧ storeNewest t.ckr = some (storedTime s.ckr) ∧ Q := by
  obtain ⟨⟨cause, info, vmTrip, restartBlock, chopStuck, linkLoss⟩,
    ⟨-, -, ckr, otp, -, keys, mem, svc, patch, loom, gly, syc, cal, tag, -⟩, retract, -⟩ := h
  have started : t.ckr = startedCkr s.ckr := ckr
  rw [started]
  exact ⟨rfl, rfl, cause, info, vmTrip, restartBlock, chopStuck, linkLoss, otp, keys, mem, svc, patch, loom, gly, syc, cal,
    tag, rfl, rfl, retract, storeNewest_startedCkr _, q⟩

/-- What the end of a chip reset leaves. -/
theorem ends_resetRelease {s : State} (h p : Bool) (hi : s.ckr.inReset = true) (hx : s.ckr.noCrystal = false)
    (hd : s.ckr.dead = false) : Ends (.resetRelease h p) s (fun t =>
      t.ckr.inReset = false ∧ t.ckr.por = false ∧ t.board.hostSel = h ∧ t.board.peMode = p ∧
      flag t F.CKR_STRAP_HOST_SEL = h ∧ flag t F.CKR_STRAP_PE_MODE = p ∧ fld t F.CKR_CLK_STAT_PLL = pllBits s.part ∧
      flag t F.CKR_PWR_STAT_VIN_OK = true ∧ t.ckr.dtime = s.ckr.dtime ∧ Leaves [.ckr, .pws] s t) := by
  obtain ⟨host, pe, vin⟩ := flag_strapsSampled s h p
  have meaning := exec_resetRelease h p hi hx hd
  have ckr := released_ckr s h p
  have read (g : Fld) (hg : g.reg ≠ F.CKR_CLK_STAT_XTAL_OK.reg ∨ 1 ≤ g.lo) := fld_released s h p g hg
  have fields : (released s h p).board.hostSel = h ∧ (released s h p).board.peMode = p := ⟨rfl, rfl⟩
  obtain ⟨u, e, k⟩ := answers_execResetRelease h p s
  have same : u = released s h p := Host.Outcome.next.inj (e.symm.trans meaning)
  rw [same] at k
  generalize released s h p = t at *
  obtain ⟨hostSel, peMode⟩ := fields
  refine ⟨t, meaning, by rw [ckr], by rw [ckr], hostSel, peMode, ?_, ?_, ?_, ?_, by rw [ckr], k.leaves⟩
  · rw [flag, read _ (by decide)]
    exact host
  · rw [flag, read _ (by decide)]
    exact pe
  · rw [read _ (by decide)]
    exact fld_strapsSampled_pll s h p
  · rw [flag, read _ (by decide)]
    exact vin

/-- A crystal that has not started within 10 ms (R603). -/
theorem ends_xtalStartTimeout {s : State} (hp : s.ckr.por = true) (hi : s.ckr.inReset = true) :
    Ends .xtalStartTimeout s (fun t => t.ckr.noCrystal = true ∧ flag t F.CKR_CLK_STAT_XTAL_OK = false) := by
  have stopped : flag (setFlag s F.CKR_CLK_STAT_XTAL_OK 0 false) F.CKR_CLK_STAT_XTAL_OK = false :=
    flag_setFlag_same _ _ _ _ (by decide) (by decide)
  refine ⟨_, if_pos (by simp [hp, hi]), ?_⟩
  generalize setFlag s F.CKR_CLK_STAT_XTAL_OK 0 false = t at stopped ⊢
  exact ⟨rfl, stopped⟩

/-- A rail of the part is switched off (R598). -/
theorem ends_railFault {s : State} {k : Nat} (hk : k < 7 ∨ (s.part.hasFlt = true ∧ k < 9)) : Ends (.railFault k) s (fun t =>
    t.fcl.fatal = s.fcl.fatal ++ [faultMsg 0 FK.ckrRail 7 k] ∧
    fld t F.CKR_PWR_STAT_RAIL_FLT = fld s F.CKR_PWR_STAT_RAIL_FLT ||| 2 ^ k ∧ Leaves [.ckr] s t) := by
  have present : railPresent s.part k = true := by
    obtain hk | ⟨hf, hk⟩ := hk
    · simp [railPresent, hk]
    · simp [railPresent, hf, hk]
  have small : k < 9 := by omega
  have fits : fld s F.CKR_PWR_STAT_RAIL_FLT ||| 2 ^ k < 2 ^ 9 :=
    Nat.or_lt_two_pow (getBits_lt ..) (Nat.pow_lt_pow_right (by decide) small)
  have stored := (fld_setFld_same s F.CKR_PWR_STAT_RAIL_FLT 0 _ (by decide)).trans (Nat.mod_eq_of_lt fits)
  have leaves : Leaves [.ckr] s (setFld s F.CKR_PWR_STAT_RAIL_FLT 0 (fld s F.CKR_PWR_STAT_RAIL_FLT ||| 2 ^ k)) :=
    (keeps_setFld _ _ _ _ (by decide)).leaves
  have fatal : (setFld s F.CKR_PWR_STAT_RAIL_FLT 0 (fld s F.CKR_PWR_STAT_RAIL_FLT ||| 2 ^ k)).fcl.fatal = s.fcl.fatal := by
    rw [setFld_fcl]
  refine ⟨_, exec_railFault present, ?_⟩
  generalize setFld s F.CKR_PWR_STAT_RAIL_FLT 0 _ = t at stored leaves fatal ⊢
  obtain ⟨w, e⟩ := sendFault_fatal t .ckr 0 FK.ckrRail k
  rw [e, ← fatal]
  exact ⟨rfl, stored, leaves⟩

/-- The crystal stops (R603). -/
theorem ends_xtalFault {s : State} (hb : flag s F.CKR_CLK_STAT_ON_BACKUP = false) : Ends .xtalFault s (fun t =>
    flag t F.CKR_CLK_STAT_ON_BACKUP = true ∧ t.fcl.fatal = s.fcl.fatal ++ [faultMsg 0 FK.ckrXtal 7 0] ∧
    Leaves [.ckr] s t) := by
  have backup : flag (setFlds s 0 [(F.CKR_CLK_STAT_ON_BACKUP, 1), (F.CKR_CLK_STAT_XTAL_OK, 0)])
      F.CKR_CLK_STAT_ON_BACKUP = true := by
    simp (disch := decide) only [setFlds, flag_setFld_apart]
    exact flag_setFld_b2n _ _ true rfl (by decide)
  have leaves : Leaves [.ckr] s (setFlds s 0 [(F.CKR_CLK_STAT_ON_BACKUP, 1), (F.CKR_CLK_STAT_XTAL_OK, 0)]) :=
    (keeps_setFlds_all _ _ _ rfl).leaves
  have fatal : (setFlds s 0 [(F.CKR_CLK_STAT_ON_BACKUP, 1), (F.CKR_CLK_STAT_XTAL_OK, 0)]).fcl.fatal = s.fcl.fatal := rfl
  refine ⟨_, if_neg (by simp [hb]), ?_⟩
  generalize setFlds s 0 _ = t at backup leaves fatal ⊢
  obtain ⟨w, e⟩ := sendFault_fatal t .ckr 0 FK.ckrXtal 0
  rw [e, ← fatal]
  exact ⟨backup, rfl, leaves⟩

/-- The commit record of a flush in flight is written once EVR has nothing left (R555). -/
theorem exec_flushCommit {s : State} {i : FlushImage} {l : PowerLoss} (hl : s.ckr.loss = some l)
    (hi : s.flt.image = some i) (hc : i.committed = false) (hp : evrPersisted s = true) (ht : s.sec.trialFailed = false) :
    exec .flushCommit s = .next { s with
      flt := { s.flt with image := some { i with committed := true, power := l.record } }
      ckr := { s.ckr with loss := some { l with committed := true } } } := by
  have flight : (flushing s && evrPersisted s) = true := by simp [flushing, powerLost, hl, hi, hc, hp]
  have commit : fltCommit s l.record = { s with flt := { s.flt with
      image := some { i with committed := true, power := l.record } } } := by rw [fltCommit, hi]
  change execFlushCommit s = _
  rw [execFlushCommit, if_pos flight, hl]
  dsimp only
  rw [commit]
  dsimp only
  rw [hl]
  dsimp only
  rw [ht]
  rfl

theorem vinSensed_fields (s : State) :
    flag (vinSensed s) F.CKR_PWR_STAT_VIN_OK = true ∧ Leaves [.ckr, .pws] s (vinSensed s) :=
  ⟨flag_setFld_b2n _ _ true rfl (by decide), (keeps_setFlds_all _ _ _ rfl).leaves⟩

/-- The hold-up converter stops regulating (R599). -/
theorem ends_holdUpEnd {s : State} (hl : powerLost s = true) (hd : s.ckr.dead = false) : Ends .holdUpEnd s (fun t =>
    t.ckr.dead = true ∧ t.ckr.storeA = s.ckr.storeA ∧ t.ckr.storeB = s.ckr.storeB ∧ t.sec.otp = s.sec.otp ∧ t.mem = [] ∧
    rd t .FCL_CAUSE 0 = 0#64) := by
  have cause := rd_resetState_power s { storeA := s.ckr.storeA, storeB := s.ckr.storeB, dead := true, inReset := true }
    (q := .FCL_CAUSE) (by decide) 0
  have cleared := cleared_resetState s true
    { storeA := s.ckr.storeA, storeB := s.ckr.storeB, dead := true, inReset := true }
  refine ⟨_, if_pos (by simp [hl, hd]), ?_⟩
  generalize resetState s true _ = t at cleared cause ⊢
  obtain ⟨-, -, ckr, otp, -, -, mem, -⟩ := cleared
  have dead : t.ckr.dead = true := by rw [ckr]
  have storeA : t.ckr.storeA = s.ckr.storeA := by rw [ckr]
  have storeB : t.ckr.storeB = s.ckr.storeB := by rw [ckr]
  exact ⟨dead, storeA, storeB, otp, mem, cause⟩

/-- Settles O46, clause by clause: what a reset clears and keeps, the fields of the supplies' registers, and what the
machine's operations leave of them. -/
theorem suppliesAndReset : Obligations.SuppliesAndReset := by
  refine ⟨?_, ?_, ?_, ?_, ?_, ?_, ?_, ?_, ?_, ?_, ?_, ?_, ?_, ?_, ?_, ?_, ?_, ?_, ?_, ?_, ?_, ?_, ?_, ?_, ?_, ?_, ?_, ?_⟩
  · intro s d x hd hx hp
    obtain ⟨t, e, ckr, lost, cause, otp, slot, keys, mem, pending⟩ := ends_powerOn d hd
    have powered := poweredCkr_some hx hp
    have newest := storeNewest_storeWrite (poweredCkr s.ckr)
    rw [storedTime, storeNewest_poweredCkr, hx] at newest
    have pcycle : t.ckr.pcycle = x.pcycle + 1 := by rw [ckr, storeWrite_pcycle, powered]
    refine ⟨t, e, ?_, ?_, ?_, pcycle, ?_, ?_, cause, otp, slot, keys, mem, pending⟩
    · rw [ckr, storeWrite_dead, powered]
    · rw [ckr, storeWrite_inReset, powered]
    · rw [ckr, storeWrite_dtime, powered]
    · rw [lost, hx, Option.isNone_some]
    · rw [pcycle, ckr, newest, powered]
  · intro s d hd hx
    obtain ⟨t, e, ckr, lost, -, otp, -, -, mem, -⟩ := ends_powerOn d hd
    have powered := poweredCkr_none hx
    refine ⟨t, e, ?_, ?_, ?_, ?_, otp, mem⟩
    · rw [ckr, storeWrite_inReset, powered]
    · rw [ckr, storeWrite_dtime, powered]
    · rw [lost, hx, Option.isNone_none]
    · rw [ckr, storeWrite_storeFault, powered]
  · exact fun s d hd => ⟨s, exec_powerOn_powered d hd, rfl⟩
  · intro s hd hi
    have started := resetStarted_chipReset hd hi
    refine ⟨_, rfl, started.list fun r i hr => started.regs r i fun h => ?_⟩
    revert hr
    simp only [resetRegs, List.mem_cons, List.not_mem_nil, or_false] at h
    obtain rfl | rfl | rfl | rfl | rfl | rfl | rfl | rfl | rfl := h <;> decide
  · exact fun s hi => ⟨_, rfl, if_pos (by simp [hi])⟩
  · intro s hd hi h
    have started := resetStarted_chipReset (s := { s with ckr := { s.ckr with rstLow := true } }) hd hi
    exact ⟨_, exec_rstNAssert h, started.list (by rw [show (chipReset _).ckr = _ from started.cleared.ckr]; rfl)⟩
  · exact fun s hl hq => ⟨s, if_pos (by simp [hl, hq]), rfl⟩
  · exact fun s h p hi hx hd => ends_resetRelease h p hi hx hd
  · exact fun s h p hx => ⟨s, if_neg (by simp [hx]), rfl⟩
  · exact fun s hp hi => ends_xtalStartTimeout hp hi
  · exact fun s k hk => ends_railFault hk
  · intro s k hf hk
    exact ⟨s, if_neg (by simp [railPresent, hf, hk]), rfl⟩
  · exact fun s hb => ends_xtalFault hb
  · intro s n hn hp hg h4
    obtain ⟨ckr, pll, fatal, spn, leaves⟩ := pllLost_fields s n
    exact ⟨_, (exec_pllLockLoss hn hp hg).trans (if_neg h4), by rw [ckr], pll, fatal, spn, leaves⟩
  · intro s hg
    have fitted : Nat.testBit (pllBits s.part) 4 = true := by
      unfold pllBits
      cases s.part.hasFlt <;> cases s.part.hasSas <;> decide
    obtain ⟨ckr, pll, fatal, spn, -⟩ := pllLost_fields s 4
    obtain ⟨t, e, hf, hr, hp⟩ := linkLoss_fields (pllLost s 4)
    refine ⟨t, ((exec_pllLockLoss (by decide) fitted hg).trans (if_pos rfl)).trans e, ?_, hf.trans fatal, by rw [hp]; exact pll⟩
    rw [hr, spn, ckr]
  · intro s hl hd hi
    obtain ⟨t, e, ckr, loss, vinOk, pending, ⟨running, background, waits⟩, busy⟩ := ends_vinLoss hl hd hi
    have lost : powerLost t = true := by rw [powerLost, ckr]; rfl
    refine ⟨t, e, lost, by rw [ckr]; rfl, loss, vinOk, pending, ?_, running, background, waits, busy, fun a wg => ?_⟩
    · rw [ckr]
      exact (storeNewest_congr rfl rfl).trans (storeNewest_storeWrite s.ckr)
    · rw [unloadDue, if_pos lost, wg, Bool.not_false]
  · exact fun s hl => ⟨s, if_pos (by simp [hl]), rfl⟩
  · exact fun s i l hl hi hc hp ht => ⟨_, exec_flushCommit hl hi hc hp ht, rfl, rfl, rfl, rfl⟩
  · exact fun s hp => ⟨s, if_neg (by simp [hp]), rfl⟩
  · exact fun s vm l c hl hb hq h hc => ends_quiesceLogic hl hb hq h hc
  · exact fun s vm l _ h hv => ⟨_, exec_quiesceLogic_waits h hv, rfl⟩
  · intro s vm l hl hb hq h hd hi
    have started := resetStarted_chipReset (s := setVm s vm) hd hi
    have ckr : (chipReset (setVm s vm)).ckr = _ := started.cleared.ckr
    exact ⟨_, exec_quiesceLogic_back hl hb hq h, rfl, by rw [ckr]; rfl, by rw [ckr]; rfl⟩
  · intro s l hl hq
    obtain ⟨vin, leaves⟩ := vinSensed_fields s
    exact ⟨_, (exec_vinReturn hl).trans (if_neg (by simp [hq])), rfl, vin, rfl, leaves⟩
  · intro s hl hq hd hi
    obtain ⟨l, hl⟩ := Option.isSome_iff_exists.1 hl
    have started := resetStarted_chipReset (s := vinSensed s) hd hi
    have ckr : (chipReset (vinSensed s)).ckr = _ := started.cleared.ckr
    refine ⟨_, (exec_vinReturn hl).trans (if_pos hq), ?_, ?_, ?_⟩ <;> rw [ckr] <;> rfl
  · exact fun s hl hd => ends_holdUpEnd hl hd
  · intro s hd
    exact ⟨_, if_neg (by simp [hd]), storeNewest_storeWrite s.ckr, rfl, rfl, fun ha hb => storeWrite_storeA ha hb⟩
  · exact ends_fwReadyWrite
  · intro s
    refine ⟨_, rfl, storeNewest_storeWrite s.ckr, ?_, (keeps_shutdown s).leaves⟩
    exact flag_setFld_b2n _ _ true rfl (by decide)

end Sys2Proof.Machine

end

section
-- `decide` waits for the kernel: a thread for each of these proofs would exhaust the memory limit.
set_option Elab.async false

namespace Sys2Proof.Machine

/-! ### What the units hold beside registers, memory and reports

`unitState` is what a report, an access to memory or a calibration leaves. One lemma per operation, in the order of the model. -/

/-- The state but for registers, memory and caches, reports, calibration, Galley, the host's side, the pool's queues and the
Shuttles. -/
def unitState (s : State) : State :=
  { s with
    regs := [], mem := [], free := 0, bus := {}, cal := {}, fcl := {}, evr := {}, syc := {}, bfm := {}, l2 := []
    gly := {}, hfe := {}, dcp := [], shts := [] }

section Units

variable {α : Type}

theorem unitState_ite {c : Prop} [Decidable c] {s t u : State} (h : unitState t = unitState s) (k : unitState u = unitState s) :
    unitState (if c then t else u) = unitState s := by
  split <;> assumption

theorem unitState_iteSnd {c : Prop} [Decidable c] {s : State} {p q : α × State} (h : unitState p.2 = unitState s)
    (k : unitState q.2 = unitState s) : unitState (if c then p else q).2 = unitState s := by
  split <;> assumption

/-- The state of a pair that was taken apart. -/
theorem unitState_ofSnd {s t : State} {p : α × State} {x : α} (h : unitState p.2 = unitState s) (e : p = (x, t)) :
    unitState t = unitState s := by
  subst e; exact h

@[simp] theorem unitState_each {f : α → State → State} (h : ∀ x t, unitState (f x t) = unitState t) (l : List α)
    (s : State) : unitState (each l f s) = unitState s := by
  induction l generalizing s with
  | nil => rfl
  | cons x l ih => exact (ih _).trans (h x s)

@[simp] theorem unitState_when {f : State → State} (h : ∀ t, unitState (f t) = unitState t) (b : Bool) (s : State) :
    unitState (when b f s) = unitState s := by
  cases b
  · rfl
  · exact h s

/-! Registers, sources and messages. -/

@[simp] theorem unitState_wr (s : State) (r : Reg) (i : Nat) (v : Word) : unitState (wr s r i v) = unitState s := rfl
@[simp] theorem unitState_setFld (s : State) (f : Fld) (i v : Nat) : unitState (setFld s f i v) = unitState s := rfl
@[simp] theorem unitState_setFlag (s : State) (f : Fld) (i : Nat) (b : Bool) : unitState (setFlag s f i b) = unitState s := rfl
@[simp] theorem unitState_bump (s : State) (f : Fld) (i n : Nat) : unitState (bump s f i n) = unitState s := rfl

@[simp] theorem unitState_setFlds (s : State) (i : Nat) (l : List (Fld × Nat)) : unitState (setFlds s i l) = unitState s := by
  induction l generalizing s with
  | nil => rfl
  | cons x l ih => exact (ih _).trans (unitState_setFld ..)

@[simp] theorem unitState_raiseSource (s : State) (n : Nat) : unitState (raiseSource s n) = unitState s := by
  unfold raiseSource
  dsimp only
  split <;> rfl

@[simp] theorem unitState_sendMsg (s : State) (b : Block) (w : Word) : unitState (sendMsg s b w) = unitState s := by
  unfold sendMsg
  dsimp only
  split
  · simp
  · rfl

@[simp] theorem unitState_sendFault (s : State) (b : Block) (source kind sev addr : Nat) :
    unitState (sendFault s b source kind sev addr) = unitState s := unitState_sendMsg ..

/-! Memory. -/

@[simp] theorem unitState_busDecode (s : State) (addr : Nat) : unitState (busDecode s addr) = unitState s :=
  unitState_sendFault ..

@[simp] theorem unitState_memUe (s : State) (b : Block) (addr req : Nat) (poison dram : Bool) :
    unitState (memUe s b addr req poison dram) = unitState s :=
  (unitState_sendFault ..).trans (unitState_ite (unitState_setFlag ..) (unitState_setFlds ..))

@[simp] theorem unitState_corrected (s : State) (b : Block) (addr req : Nat) (dram : Bool) :
    unitState (corrected s b addr req dram) = unitState s :=
  have logged (n : Nat) (t : State) (h : unitState t = unitState s) :
      unitState { t with bfm := { t.bfm with lapCe := n } } = unitState s := h
  unitState_ite ((unitState_sendFault ..).trans (logged _ _ (by simp))) (logged _ _ (by simp))

@[simp] theorem unitState_writeByte (s : State) (a : Nat) (v : Byte) : unitState (writeByte s a v) = unitState s := rfl

@[simp] theorem unitState_writeBytes (l : List Byte) (s : State) (a : Nat) : unitState (writeBytes s a l) = unitState s := by
  induction l generalizing s a with
  | nil => rfl
  | cons b l ih => exact (ih ..).trans (unitState_writeByte ..)

@[simp] theorem unitState_setPoison (s : State) (line : Nat) (b : Bool) : unitState (setPoison s line b) = unitState s := rfl
@[simp] theorem unitState_setSoft (s : State) (addr : Nat) (b : Bool) : unitState (setSoft s addr b) = unitState s := rfl
@[simp] theorem unitState_freshCheck (s : State) (addr : Nat) : unitState (freshCheck s addr) = unitState s := rfl

@[simp] theorem unitState_softRead (s : State) (b : Block) (req : Nat) (dram : Bool) (words : List Nat) :
    unitState (softRead s b req dram words) = unitState s :=
  unitState_each (fun _ _ => unitState_ite ((unitState_setSoft ..).trans (unitState_corrected ..)) (unitState_corrected ..)) ..

@[simp] theorem unitState_softMerge (s : State) (b : Block) (req : Nat) (dram : Bool) (words : List Nat) :
    unitState (softMerge s b req dram words) = unitState s :=
  unitState_each (fun _ _ => (unitState_setSoft ..).trans (unitState_corrected ..)) ..

@[simp] theorem unitState_countDram (s : State) (write : Bool) : unitState (countDram s write) = unitState s := rfl

@[simp] theorem unitState_dramRead (s : State) (r : Port) (line : Nat) : unitState (dramRead s r line).2 = unitState s := by
  refine unitState_iteSnd (by simp) ?_
  split <;> simp

@[simp] theorem unitState_writeBack (s : State) (x : CacheLine) : unitState (writeBack s x) = unitState s :=
  (unitState_setPoison ..).trans ((unitState_each (fun _ _ => unitState_freshCheck ..) ..).trans
    ((unitState_writeBytes ..).trans ((unitState_countDram ..).trans (unitState_each (fun _ _ => unitState_corrected ..) ..))))

@[simp] theorem unitState_dramWrite (s : State) (r : Port) (line off : Nat) (bytes : List Byte) :
    unitState (dramWrite s r line off bytes).2 = unitState s := by
  refine unitState_iteSnd (by simp) ?_
  split
  · simp
  · exact (unitState_setPoison ..).trans ((unitState_writeBytes ..).trans
      ((unitState_each (fun _ _ => unitState_freshCheck ..) ..).trans (unitState_softMerge ..)))

@[simp] theorem unitState_setWay (s : State) (set w : Nat) (x : Option CacheLine) :
    unitState (setWay s set w x) = unitState s := rfl

@[simp] theorem unitState_touchRef (s : State) (set w : Nat) : unitState (touchRef s set w) = unitState s := by
  have mark (t : State) (v : Nat) (b : Bool) : unitState (match wayLine t set v with
      | some x => setWay t set v (some { x with ref := b })
      | none => t) = unitState t := by split <;> rfl
  exact unitState_ite ((unitState_each (fun v t => mark t v false) ..).trans (mark s w true)) (mark s w true)

@[simp] theorem unitState_evbRoom (s : State) : unitState (evbRoom s) = unitState s := by
  unfold evbRoom
  split
  · exact unitState_ite ((unitState_writeBack ..).trans rfl) rfl
  · rfl

@[simp] theorem unitState_evict (s : State) (set w : Nat) : unitState (evict s set w) = unitState s := by
  unfold evict
  split
  · rfl
  · exact unitState_ite ((unitState_evbRoom _).trans (unitState_setWay ..)) (unitState_setWay ..)

theorem unitState_allocate {s : State} {x : CacheLine} {y : Nat × State} (e : allocate s x = some y) :
    unitState y.2 = unitState s := by
  unfold allocate at e
  dsimp only at e
  split at e <;> cases e
  simp

theorem unitState_evbTake {s : State} {line : Nat} {y : CacheLine × State} (e : evbTake s line = some y) :
    unitState y.2 = unitState s := by
  unfold evbTake at e
  split at e <;> cases e
  rfl

@[simp] theorem unitState_evbRace (s : State) (line : Nat) : unitState (evbRace s line) = unitState s := by
  unfold evbRace
  split
  · rfl
  · rename_i e
    split
    · rename_i f
      exact (unitState_bump ..).trans ((unitState_allocate f).trans (unitState_evbTake e))
    · exact (unitState_writeBack ..).trans (unitState_evbTake e)

@[simp] theorem unitState_hitLine (s : State) (r : Port) (line : Nat) : unitState (hitLine s r line).2 = unitState s := by
  unfold hitLine
  split
  · rfl
  · dsimp only
    split
    · rfl
    · exact unitState_iteSnd (by simp) rfl

@[simp] theorem unitState_softHit (s : State) (r : Port) (w : Nat) (x : CacheLine) : unitState (softHit s r w x) = unitState s :=
  unitState_ite rfl (unitState_ite (by simp) (by simp))

/-- A line the eviction buffer holds is written back before DRAM is reached. -/
theorem unitState_evicted (s : State) (line : Nat) :
    unitState (match evbTake s line with | some (x, t) => writeBack t x | none => s) = unitState s := by
  split
  · rename_i e
    exact (unitState_writeBack ..).trans (unitState_evbTake e)
  · rfl

@[simp] theorem unitState_stream (s : State) (r : Port) (line : Nat) (full : Bool) :
    unitState (stream s r line full).2 = unitState s := rfl

@[simp] theorem unitState_countStreamed (s : State) : unitState (countStreamed s) = unitState s := unitState_ite rfl rfl

@[simp] theorem unitState_sycWrite (s : State) (r : Port) (line off : Nat) (bytes : List Byte) :
    unitState (sycWrite s r line off bytes).2 = unitState s := by
  have streamed := unitState_stream s r line (decide (bytes.length = 64))
  unfold sycWrite
  dsimp only
  generalize stream s r line (decide (bytes.length = 64)) = p at streamed ⊢
  obtain ⟨pass, s₁⟩ := p
  dsimp only at streamed
  have looked := (unitState_hitLine (evbRace s₁ line) r line).trans ((unitState_evbRace ..).trans streamed)
  refine unitState_iteSnd ((unitState_dramWrite ..).trans ((unitState_evicted ..).trans streamed)) ?_
  dsimp only
  split
  · rename_i e
    have hit := unitState_ofSnd looked e
    exact unitState_iteSnd (by simpa using hit) (by simpa using hit)
  · rename_i u e
    have missed : unitState (bump u F.SYC_CNT_MISSES) = unitState s := (unitState_bump ..).trans (unitState_ofSnd looked e)
    have written := (unitState_dramWrite (bump u F.SYC_CNT_MISSES) r line off bytes).trans missed
    refine unitState_iteSnd written (unitState_iteSnd ((unitState_countStreamed _).trans written) (unitState_iteSnd written
      (unitState_iteSnd ?_ ?_)))
    · split
      · rename_i g
        exact (unitState_allocate g).trans missed
      · exact missed
    · split
      · rename_i f
        exact (unitState_ofSnd (unitState_dramRead ..) f).trans missed
      · rename_i f
        have filled := (unitState_ofSnd (unitState_dramRead ..) f).trans missed
        split
        · rename_i g
          exact (unitState_allocate g).trans filled
        · exact (unitState_dramWrite ..).trans filled

@[simp] theorem unitState_setL2 (s : State) (c line : Nat) (x : Option L2Line) : unitState (setL2 s c line x) = unitState s := rfl

@[simp] theorem unitState_poisonLine (s : State) (line bad : Nat) : unitState (poisonLine s line bad) = unitState s := by
  unfold poisonLine
  split
  · split <;> rfl
  · rfl

@[simp] theorem unitState_l2WriteBack (s : State) (c line : Nat) : unitState (l2WriteBack s c line) = unitState s := by
  unfold l2WriteBack
  split
  · exact unitState_ite (unitState_ite (by simp) (by simp)) rfl
  · rfl

@[simp] theorem unitState_l2Invalidate (s : State) (line : Nat) : unitState (l2Invalidate s line) = unitState s :=
  unitState_each (fun _ _ => unitState_ite ((unitState_setL2 ..).trans (unitState_l2WriteBack ..)) rfl) ..

@[simp] theorem unitState_lineWrite (s : State) (r : Port) (line off : Nat) (bytes : List Byte) :
    unitState (lineWrite s r line off bytes).2 = unitState s :=
  (unitState_sycWrite ..).trans (unitState_ite (unitState_l2Invalidate ..) rfl)

@[simp] theorem unitState_beatRefused (s : State) (addr : Nat) : unitState (beatRefused s addr) = unitState s := by
  unfold beatRefused
  split
  · simp
  · exact unitState_ite rfl (by simp)
  · rfl

@[simp] theorem unitState_scratchWrite (s : State) (r : Port) (addr : Nat) (bytes : List Byte) :
    unitState (scratchWrite s r addr bytes).2 = unitState s := by
  unfold scratchWrite
  dsimp only
  split
  · simp
  · exact (unitState_writeBytes ..).trans ((unitState_each (fun _ _ => unitState_freshCheck ..) ..).trans
      (unitState_softMerge ..))

@[simp] theorem unitState_writePiece (s : State) (r : Port) (addr : Nat) (bytes : List Byte) :
    unitState (writePiece s r addr bytes).2 = unitState s := by
  unfold writePiece
  split
  · exact unitState_iteSnd (unitState_lineWrite ..) rfl
  all_goals simp

@[simp] theorem unitState_writeLines (r : Port) (k a : Nat) (l : List Byte) (s : State) :
    unitState (writeLines r k a l s).2 = unitState s := by
  induction k generalizing a l s with
  | zero => rfl
  | succ k ih =>
    have piece : unitState (writePiece s r a (l.take (min l.length (64 - a % 64)))).2 = unitState s := unitState_writePiece ..
    unfold writeLines
    dsimp only
    split
    · rename_i e
      exact unitState_ofSnd piece e
    · rename_i e
      exact (ih ..).trans (unitState_ofSnd piece e)

@[simp] theorem unitState_busWrite (s : State) (r : Port) (addr : Nat) (bytes : List Byte) :
    unitState (busWrite s r addr bytes).2 = unitState s := unitState_writeLines ..

/-! Records of the event ring, and readiness. -/

@[simp] theorem unitState_markPage (s : State) (page sev : Nat) : unitState (markPage s page sev) = unitState s :=
  unitState_ite rfl rfl

@[simp] theorem unitState_drainOne (s : State) : unitState (drainOne s) = unitState s := by
  unfold drainOne
  split
  · split
    · simp only [unitState_raiseSource, unitState_bump]
      rfl
    · refine unitState_ite ?_ rfl
      simp only [unitState_raiseSource, unitState_markPage, unitState_setFld, unitState_busWrite]
      rfl
  · rfl

@[simp] theorem unitState_ringPut (s : State) (r : EvRec) : unitState (ringPut s r).2 = unitState s := by
  have drained : unitState (if 1024 ≤ s.evr.ring.length then drainOne s else s) = unitState s :=
    unitState_ite (unitState_drainOne s) rfl
  unfold ringPut
  generalize (if 1024 ≤ s.evr.ring.length then drainOne s else s) = t at drained ⊢
  refine unitState_iteSnd drained ?_
  have dropped : unitState (raiseSource (bump t F.EVR_DROPS_N) 50) = unitState s := by simpa using drained
  split
  · exact dropped
  · refine unitState_iteSnd ?_ dropped
    split <;> exact drained

@[simp] theorem unitState_evrRequest (s : State) (r : EvRec) : unitState (evrRequest s r).2 = unitState s :=
  unitState_iteSnd ((unitState_ringPut ..).trans (unitState_ite (t := s) (u := setFld s _ _ _) rfl rfl)) rfl

@[simp] theorem unitState_evrEvent (s : State) (code sev source : Nat) (p1 p2 p3 p4 : Word) :
    unitState (evrEvent s code sev source p1 p2 p3 p4) = unitState s := unitState_evrRequest ..

@[simp] theorem unitState_setReady (s : State) (f : Fld) (lane : Nat) (b : Bool) :
    unitState (setReady s f lane b) = unitState s :=
  unitState_ite rfl (by simp)

/-! Calibration, and answers to media operations. -/

@[simp] theorem unitState_stepTrim (s : State) (lane slice : Nat) (vals : List Int) (k : Nat) :
    unitState (stepTrim s lane slice vals k) = unitState s := unitState_setFlds ..

@[simp] theorem unitState_swapSlice (s : State) (lane p : Nat) : unitState (swapSlice s lane p) = unitState s :=
  (unitState_setFld ..).trans (unitState_ite rfl rfl)

@[simp] theorem unitState_putResult (s : State) (x : CalPend) : unitState (putResult s x) = unitState s :=
  unitState_ite (unitState_each (fun _ _ => unitState_stepTrim ..) ..) (unitState_ite
    (unitState_each (fun _ _ => (unitState_swapSlice ..).trans (unitState_stepTrim ..)) ..) (unitState_ite
    (unitState_setFlds ..) (unitState_ite (unitState_setFlds ..) (unitState_ite (unitState_setFld ..) (unitState_ite rfl
    (unitState_ite (unitState_setFlds ..) (unitState_ite (unitState_setFld ..) (unitState_ite (unitState_setFld ..)
    (unitState_setFlds ..)))))))))

@[simp] theorem unitState_takeEffect (s : State) (x : CalPend) : unitState (takeEffect s x) = unitState s := by simp [takeEffect]

@[simp] theorem unitState_calBoundary (s : State) (p : Nat → Bool) : unitState (calBoundary s p) = unitState s :=
  unitState_each (fun x t => unitState_takeEffect t x) ..

@[simp] theorem unitState_abandoned (s : State) (n : Nat) : unitState (abandoned s n) = unitState s := rfl

@[simp] theorem unitState_calDrop (s : State) (p : Nat → Bool) : unitState (calDrop s p) = unitState s :=
  unitState_each (fun n u => unitState_abandoned u n) ..

@[simp] theorem unitState_calDropAct (s : State) (a : Nat) : unitState (calDropAct s a) = unitState s := unitState_calDrop ..

@[simp] theorem unitState_mediaDone (s : State) (o : OpRef) (status sectors : Nat) (cut : Bool) :
    unitState (mediaDone s o status sectors cut) = unitState s := by
  unfold mediaDone
  split <;> rfl

end Units

end Sys2Proof.Machine

end

section
-- `decide` waits for the kernel: a thread for each of these proofs would exhaust the memory limit.
set_option Elab.async false

namespace Sys2Proof.Machine

/-! ### What the units' fields read after a report, a memory access or a calibration -/

section UnitState

variable {s t : State} (h : unitState t = unitState s)
include h

theorem tag_of_unitState : t.tag = s.tag := (congrArg State.tag h :)
theorem svg_of_unitState : t.svg = s.svg := (congrArg State.svg h :)
theorem cte_of_unitState : t.cte = s.cte := (congrArg State.cte h :)
theorem sec_of_unitState : t.sec = s.sec := (congrArg State.sec h :)
theorem flt_of_unitState : t.flt = s.flt := (congrArg State.flt h :)
theorem hdlOf_of_unitState (b : Nat) : hdlOf t b = hdlOf s b := by
  rw [hdlOf, hdlOf, show t.hdl = s.hdl from (congrArg State.hdl h :)]
theorem wrpOf_of_unitState (b : Nat) : wrpOf t b = wrpOf s b := by
  rw [wrpOf, wrpOf, show t.wrp = s.wrp from (congrArg State.wrp h :)]
theorem cteOf_of_unitState (b : Nat) : cteOf t b = cteOf s b := by
  rw [cteOf, cteOf, cte_of_unitState h]
theorem svgOf_of_unitState (b : Nat) : svgOf t b = svgOf s b := by
  rw [svgOf, svgOf, svg_of_unitState h]

end UnitState

/-! ### Registers that change -/

/-- A field of another register or of other bits reads as before, at any index. -/
theorem fld_setFld_other (s : State) {f g : Fld} (i j v : Nat)
    (h : g.reg ≠ f.reg ∨ g.lo + g.w ≤ f.lo ∨ f.lo + f.w ≤ g.lo) : fld (setFld s f i v) g j = fld s g j :=
  fld_setFld_apart s v (h.imp_left .inl)

theorem flag_setFld_other (s : State) {f g : Fld} (i j v : Nat)
    (h : g.reg ≠ f.reg ∨ g.lo + g.w ≤ f.lo ∨ f.lo + f.w ≤ g.lo) : flag (setFld s f i v) g j = flag s g j := by
  rw [flag, fld_setFld_other s i j v h, flag]

theorem fld_bump_same (s : State) (f : Fld) (i n : Nat) (h : f.lo + f.w ≤ 64) :
    fld (bump s f i n) f i = min (fld s f i + n) (2 ^ f.w - 1) := by
  have pos : 0 < 2 ^ f.w := Nat.two_pow_pos _
  rw [bump, fld_setFld_same _ _ _ _ h]
  exact Nat.mod_eq_of_lt (by omega)

theorem fld_bump_other (s : State) {f g : Fld} (i j n : Nat)
    (h : g.reg ≠ f.reg ∨ g.lo + g.w ≤ f.lo ∨ f.lo + f.w ≤ g.lo) : fld (bump s f i n) g j = fld s g j :=
  fld_setFld_other s i j _ h

/-- A flag of one bit set to a number reads whether its low bit is set. -/
theorem flag_setFld_same (s : State) (f : Fld) (i v : Nat) (h : f.lo + f.w ≤ 64) :
    flag (setFld s f i v) f i = (v % 2 ^ f.w != 0) := by
  rw [flag, fld_setFld_same _ _ _ _ h]

/-- The blocks whose registers an access to memory or a report can change. -/
def reportBlocks : List Block := [.bfm, .syc, .fcl, .evr]

/-- From s to t only the registers l change, beside those of memory and reports. -/
structure Writes (l : List Reg) (s t : State) : Prop where
  regs : ∀ r i, r ∉ l → r.info.block ∉ reportBlocks → rd t r i = rd s r i

namespace Writes

variable {l k : List Reg} {s t u : State}

theorem refl : Writes l s s := ⟨fun _ _ _ _ => rfl⟩

theorem trans (h : Writes l s t) (g : Writes l t u) : Writes l s u :=
  ⟨fun r i hr hb => (g.regs r i hr hb).trans (h.regs r i hr hb)⟩

/-- A list within the one asked for. -/
theorem sub (h : Writes k s t) (hl : k ⊆ l := by decide) : Writes l s t :=
  ⟨fun r i hr hb => h.regs r i (fun e => hr (hl e)) hb⟩

/-- A change followed by one of a narrower list. -/
theorem andThen (h : Writes l s t) (g : Writes k t u) (hl : k ⊆ l := by decide) : Writes l s u := h.trans (g.sub hl)

/-- A change of no register. -/
theorem of_eq (hr : t.regs = s.regs) (hp : t.part = s.part) : Writes l s t :=
  ⟨fun r i _ _ => by rw [rd, rd, hr, hp]⟩

/-- An operation that reaches no registers but those of memory and reports. -/
theorem of_keeps {bs : List Block} {m : Bool} (h : Keeps bs m s t) (hb : bs ⊆ reportBlocks := by decide) : Writes l s t :=
  ⟨fun r i _ hr => h.regs r i fun e => hr (hb e)⟩

theorem ite {c : Prop} [Decidable c] (h : Writes l s t) (g : Writes l s u) : Writes l s (if c then t else u) := by
  split <;> assumption

theorem wr (s : State) (r : Reg) (i : Nat) (v : Word) (h : r ∈ l := by decide) : Writes l s (Machine.wr s r i v) :=
  ⟨fun _ _ hq _ => rd_wr_ne s v (.inl fun e => hq (e ▸ h))⟩

theorem setFld (s : State) (f : Fld) (i v : Nat) (h : f.reg ∈ l := by decide) : Writes l s (Machine.setFld s f i v) :=
  wr _ _ _ _ h

theorem bump (s : State) (f : Fld) (i n : Nat) (h : f.reg ∈ l := by decide) : Writes l s (Machine.bump s f i n) :=
  wr _ _ _ _ h

theorem setFlds (s : State) (i : Nat) (fs : List (Fld × Nat)) (h : fs.all (fun x => decide (x.1.reg ∈ l)) = true := by rfl) :
    Writes l s (Machine.setFlds s i fs) := by
  induction fs generalizing s with
  | nil => exact refl
  | cons x fs ih =>
    simp only [List.all_cons, Bool.and_eq_true, decide_eq_true_eq] at h
    exact (setFld s x.1 i x.2 h.1).trans (ih _ h.2)

theorem when {f : State → State} (h : ∀ t, Writes l t (f t)) (b : Bool) (s : State) : Writes l s (Machine.when b f s) := by
  cases b
  · exact refl
  · exact h s

theorem each {α : Type} {f : α → State → State} (h : ∀ x t, Writes l t (f x t)) (xs : List α) (s : State) :
    Writes l s (Machine.each xs f s) := by
  induction xs generalizing s with
  | nil => exact refl
  | cons x xs ih => exact (h x s).trans (ih _)

theorem raiseSource (s : State) (n : Nat) : Writes l s (Machine.raiseSource s n) :=
  of_keeps (keeps_raiseSource (bs := [.fcl]) (m := false) _ _ (by decide))

theorem sendFault (s : State) (b : Block) (source kind sev addr : Nat) :
    Writes l s (Machine.sendFault s b source kind sev addr) :=
  of_keeps (keeps_sendFault (bs := [.fcl]) (m := false) _ _ _ _ _ _ (by decide))

/-- Every field of a register that is not listed reads as before. -/
theorem fld (h : Writes l s t) (f : Fld) (i : Nat) (hr : f.reg ∉ l := by decide)
    (hb : f.reg.info.block ∉ reportBlocks := by decide) : fld t f i = Machine.fld s f i := fld_eq_of_rd (h.regs _ _ hr hb)

theorem flag (h : Writes l s t) (f : Fld) (i : Nat) (hr : f.reg ∉ l := by decide)
    (hb : f.reg.info.block ∉ reportBlocks := by decide) : flag t f i = Machine.flag s f i := by
  rw [Machine.flag, h.fld f i hr hb, Machine.flag]

end Writes

/-- The registers a calibration result reaches. -/
def calRegs : List Reg :=
  [.LNE_TRIM, .LNE_SLICE_MAP_LO, .LNE_SLICE_MAP_HI, .LNE_AFE_CTL, .LNE_PAIR_SKEW, .LNE_SV_OFFSET, .SPN_HU_MEAS, .WRP_PC,
    .SVG_PESCAL, .CAL_COUNT, .CAL_CNT, .CAL_LAST]

theorem writes_stepTrim (s : State) (lane slice : Nat) (vals : List Int) (k : Nat) :
    Writes calRegs s (stepTrim s lane slice vals k) := .setFlds _ _ _

theorem writes_swapSlice (s : State) (lane p : Nat) : Writes calRegs s (swapSlice s lane p) :=
  .trans (.ite (.setFld _ _ _ _) (.setFld _ _ _ _)) (.setFld _ _ _ _)

theorem writes_putResult (s : State) (x : CalPend) : Writes calRegs s (putResult s x) :=
  .ite (.each (fun _ _ => writes_stepTrim ..) _ _) (.ite
    (.each (fun _ _ => (writes_stepTrim ..).trans (writes_swapSlice ..)) _ _) (.ite
    (.setFlds _ _ _) (.ite (.setFlds _ _ _) (.ite (.setFld _ _ _ _) (.ite (.of_eq rfl rfl)
    (.ite (.setFlds _ _ _) (.ite (.setFld _ _ _ _) (.ite (.setFld _ _ _ _) (.setFlds _ _ _)))))))))

theorem writes_takeEffect (s : State) (x : CalPend) : Writes calRegs s (takeEffect s x) :=
  (((((writes_putResult ..).trans (.bump _ _ _ _)).trans (.setFld _ _ _ _)).trans (.bump _ _ _ _)).trans
    (.setFld _ _ _ _)).trans (.raiseSource _ _)

theorem writes_calBoundary (s : State) (p : Nat → Bool) : Writes calRegs s (calBoundary s p) := by
  have taken : Writes calRegs s { s with cal := { s.cal with pending := s.cal.pending.filter (fun x => !p x.item) } } :=
    .of_eq rfl rfl
  exact taken.trans (.each (fun x u => writes_takeEffect u x) _ _)

theorem writes_abandoned (s : State) (n : Nat) : Writes calRegs s (abandoned s n) :=
  (Writes.setFld s F.CAL_COUNT_LAST_STATUS n 0x11).trans (.bump _ _ _ _)

theorem writes_calDrop (s : State) (p : Nat → Bool) : Writes calRegs s (calDrop s p) := by
  unfold calDrop
  extract_lets c gone t
  have dropped : Writes calRegs s t := .of_eq rfl rfl
  exact dropped.trans (.each (fun n u => writes_abandoned u n) _ _)

theorem writes_mediaDone (s : State) (o : OpRef) (status sectors : Nat) (cut : Bool) {l : List Reg} :
    Writes l s (mediaDone s o status sectors cut) := .of_keeps (keeps_mediaDone ..)

theorem writes_setReady (s : State) (f : Fld) (lane : Nat) (b : Bool) : Writes [.CKR_READY] s (setReady s f lane b) :=
  .ite .refl ((Writes.wr ..).trans (.of_keeps (((keeps_evrEvent (bs := reportBlocks) _ _ _ _ _ _ _ _ .of (by decide)).trans
    (keeps_raiseSource _ _ (by decide))))))

/-! ### The preamp port -/

/-- What serving a preamp port or ending a write run leaves of an actuator's port: PFLT_N, the routing, and which heads its
switches ask for. -/
structure SamePort (h k : HdlAct) : Prop where
  pflt : k.pfltLow = h.pfltLow
  swap : k.swap = h.swap
  heads : k.switches.map (fun x => x.head) = h.switches.map (fun x => x.head)

theorem SamePort.refl {h : HdlAct} : SamePort h h := ⟨rfl, rfl, rfl⟩

theorem SamePort.trans {h k j : HdlAct} (e : SamePort h k) (f : SamePort k j) : SamePort h j :=
  ⟨f.pflt.trans e.pflt, f.swap.trans e.swap, f.heads.trans e.heads⟩

/-- The state but for the units of the link and the write path. -/
def servoState (s : State) : State := { unitState s with hdl := [], wrp := [], pairs := [] }

theorem servoState_of_unitState {s t : State} (h : unitState t = unitState s) : servoState t = servoState s := by
  rw [servoState, h, servoState]

/-- What the port arbiters leave: they start frames and take their requests, and change nothing else (R45). -/
structure PortServed (s t : State) : Prop where
  port : ∀ b, SamePort (hdlOf s b) (hdlOf t b)
  wg : ∀ b, (hdlOf t b).wg = (hdlOf s b).wg
  run : ∀ b, (wrpOf t b).run = (wrpOf s b).run
  rest : servoState t = servoState s

namespace PortServed

variable {s t u : State}

theorem refl : PortServed s s := ⟨fun _ => .refl, fun _ => rfl, fun _ => rfl, rfl⟩

theorem trans (h : PortServed s t) (k : PortServed t u) : PortServed s u :=
  ⟨fun b => (h.port b).trans (k.port b), fun b => (k.wg b).trans (h.wg b), fun b => (k.run b).trans (h.run b),
    k.rest.trans h.rest⟩

theorem setHdl (s : State) (a : Nat) (h : HdlAct) (p : SamePort (hdlOf s a) h) (g : h.wg = (hdlOf s a).wg) :
    PortServed s (setHdl s a h) := by
  refine ⟨fun b => ?_, fun b => ?_, fun _ => rfl, rfl⟩
  · rw [hdlOf_setHdl]
    split
    · rename_i e
      exact e ▸ p
    · exact .refl
  · rw [hdlOf_setHdl]
    split
    · rename_i e
      exact e ▸ g
    · rfl

theorem setWrp (s : State) (a : Nat) (w : WrpAct) (h : w.run = (wrpOf s a).run) : PortServed s (setWrp s a w) := by
  refine ⟨fun _ => .refl, fun _ => rfl, fun b => ?_, rfl⟩
  rw [wrpOf_setWrp]
  split
  · rename_i e
    exact e ▸ h
  · rfl

/-- A frame of WRP's starts. -/
theorem startFrame (s : State) (a : Nat) (w : WrpAct) (h : HdlAct) (r : w.run = (wrpOf s a).run)
    (p : SamePort (hdlOf s a) h) (g : h.wg = (hdlOf s a).wg) :
    PortServed s (Machine.setHdl (Machine.setWrp s a w) a h) := (setWrp s a w r).trans (setHdl _ a h p g)

end PortServed

theorem portServed_headControlFrame (s : State) (a : Nat) : PortServed s (headControlFrame s a) := by
  unfold headControlFrame
  dsimp only
  split
  · split
    · exact .startFrame _ _ _ _ rfl ⟨rfl, rfl, rfl⟩ rfl
    · exact .setWrp _ _ _ rfl
  · split
    · exact .startFrame _ _ _ _ rfl ⟨rfl, rfl, rfl⟩ rfl
    · split
      · rename_i e
        exact .setHdl _ _ _ ⟨rfl, rfl, by simp [e]⟩ rfl
      · exact .refl

theorem portServed_pspArb (s : State) (a : Nat) : PortServed s (pspArb s a) := by
  unfold pspArb
  split
  · exact .refl
  · split
    · exact .refl
    · have moved (k : Nat) : PortServed s (setHdl s a { hdlOf s a with ptr := grantNext 3 k }) :=
        .setHdl _ _ _ ⟨rfl, rfl, rfl⟩ rfl
      dsimp only
      split
      · exact (moved _).trans (portServed_headControlFrame ..)
      · exact (moved _).trans (.setHdl _ _ _ ⟨rfl, rfl, rfl⟩ rfl)
      · exact (moved _).trans (.setHdl _ _ _ ⟨rfl, rfl, rfl⟩ rfl)

end Sys2Proof.Machine

end

section
-- `decide` waits for the kernel: a thread for each of these proofs would exhaust the memory limit.
set_option Elab.async false

namespace Sys2Proof.Machine

/-! ### The end of a write run -/

/-- The registers the end of a write run changes, but for the run's own WRP_RUN_STAT and WRP_CNT those of calibration. -/
def runRegs : List Reg := .WRP_RUN_STAT :: .WRP_CNT :: calRegs

/-- A write run taken off its actuator: WG low, its status recorded and counted, the read-mode frame due (R153, R157). -/
def runClosed (s : State) (a : Nat) (r : WrRun) (status : Nat) (cut : Bool) : State :=
  let t := setHdl s a { hdlOf s a with wg := false }
  let t := setFlds t a [(F.WRP_RUN_STAT_STATE, 0), (F.WRP_RUN_STAT_STATUS, status), (F.WRP_RUN_STAT_CUT, b2n cut)]
  let t := when cut (fun u => bump u F.WRP_CNT_CUT_RUNS a) t
  let t := when (status == 0x54 || status == 0x55) (fun u => bump u F.WRP_CNT_DATA_FAIL a) t
  setWrp t a { wrpOf t a with
    run := none, writeFrame := false, readFrames := (wrpOf t a).readFrames ++ [some (r.group, r.head)] }

/-- What follows a run's end: its Shuttle is answered, calibration results take effect, its source rises. -/
def runReported (s t : State) (a : Nat) (r : WrRun) (status : Nat) (cut : Bool) : State :=
  let u := mediaDone t r.owner status (fld s F.WRP_RUN_STAT_WRITTEN a) cut
  raiseSource (calBoundary u (fun n => writeItem n && itemOwner u n == a)) (520 + a)

theorem wrpEnd_some {s : State} {a : Nat} {r : WrRun} (status : Nat) (cut : Bool) (h : (wrpOf s a).run = some r) :
    wrpEnd s a status cut = pspArb (runReported s (runClosed s a r status cut) a r status cut) a := by
  rw [wrpEnd, h]
  rfl

theorem unitState_runReported (s t : State) (a : Nat) (r : WrRun) (status : Nat) (cut : Bool) :
    unitState (runReported s t a r status cut) = unitState t := by
  simp [runReported]

theorem writes_runReported (s t : State) (a : Nat) (r : WrRun) (status : Nat) (cut : Bool) :
    Writes calRegs t (runReported s t a r status cut) :=
  ((writes_mediaDone ..).trans (writes_calBoundary ..)).trans (.raiseSource _ _)

/-- The changes of a run's end before it is reported, as updates of the two units and of registers. -/
theorem runClosed_units (s : State) (a : Nat) (r : WrRun) (status : Nat) (cut : Bool) :
    (∀ b, hdlOf (runClosed s a r status cut) b = if b = a then { hdlOf s a with wg := false } else hdlOf s b) ∧
    (∀ b, (wrpOf (runClosed s a r status cut) b).run = if b = a then none else (wrpOf s b).run) ∧
    servoState (runClosed s a r status cut) = servoState s ∧
    (∀ q i, ¬ ((q = .WRP_RUN_STAT ∨ q = .WRP_CNT) ∧ i = a) → rd (runClosed s a r status cut) q i = rd s q i) := by
  unfold runClosed
  extract_lets _ t₁ t₂ t₃ t₄
  have units : unitState t₄ = unitState t₁ :=
    (unitState_when (fun _ => unitState_bump ..) ..).trans
      ((unitState_when (fun _ => unitState_bump ..) ..).trans (unitState_setFlds ..))
  refine ⟨fun b => ?_, fun b => ?_, ?_, fun q i h => ?_⟩
  · rw [hdlOf_setWrp, hdlOf_of_unitState units, hdlOf_setHdl]
  · rw [wrpOf_setWrp]
    split
    · rfl
    · rw [wrpOf_of_unitState units, wrpOf_setHdl]
  · exact (servoState_of_unitState units).trans rfl
  · have apart (u : State) (f : Fld) (v : Nat) (e : f.reg = .WRP_RUN_STAT ∨ f.reg = .WRP_CNT) :
        rd (setFld u f a v) q i = rd u q i := by
      refine rd_setFld_ne u v ?_
      by_contra n
      obtain ⟨rfl, rfl⟩ : q = f.reg ∧ i = a := by simpa [not_or] using n
      exact h ⟨e, rfl⟩
    have counted (u : State) (c : Bool) (f : Fld) (e : f.reg = .WRP_RUN_STAT ∨ f.reg = .WRP_CNT) :
        rd (when c (fun u => bump u f a) u) q i = rd u q i := by
      cases c
      · rfl
      · exact apart _ _ _ e
    rw [rd_setWrp]
    refine (counted _ _ _ (.inr rfl)).trans ((counted _ _ _ (.inr rfl)).trans ?_)
    exact (apart _ _ _ (.inl rfl)).trans ((apart _ _ _ (.inl rfl)).trans (apart _ _ _ (.inl rfl)))

/-- The fields of the run's own registers once it is taken off. -/
theorem runClosed_fields (s : State) (a : Nat) (r : WrRun) (status : Nat) (cut : Bool) :
    fld (runClosed s a r status cut) F.WRP_RUN_STAT_STATE a = 0 ∧
    fld (runClosed s a r status cut) F.WRP_RUN_STAT_STATUS a = status % 256 ∧
    fld (runClosed s a r status cut) F.WRP_RUN_STAT_WRITTEN a = fld s F.WRP_RUN_STAT_WRITTEN a ∧
    (status = 0x54 → fld (runClosed s a r status cut) F.WRP_CNT_DATA_FAIL a = min (fld s F.WRP_CNT_DATA_FAIL a + 1) 255) := by
  have stat (g : Fld) (h : g.reg = .WRP_RUN_STAT) : fld (runClosed s a r status cut) g a =
      fld (setFlds s a [(F.WRP_RUN_STAT_STATE, 0), (F.WRP_RUN_STAT_STATUS, status), (F.WRP_RUN_STAT_CUT, b2n cut)]) g a := by
    have counted (u : State) (c : Bool) (f : Fld) (e : f.reg = .WRP_CNT) :
        fld (when c (fun u => bump u f a) u) g a = fld u g a := by
      cases c
      · rfl
      · exact fld_setFld_ne u _ (.inl (by rw [h, e]; decide))
    exact (counted _ _ _ rfl).trans ((counted _ _ _ rfl).trans rfl)
  refine ⟨(stat _ rfl).trans ?_, (stat _ rfl).trans ?_, (stat _ rfl).trans ?_, ?_⟩
  · simp (disch := decide) only [setFlds, fld_setFld_other, fld_setFld_same, Nat.zero_mod]
  · simp (disch := decide) only [setFlds, fld_setFld_other, fld_setFld_same, Nat.reducePow]
  · simp (disch := decide) only [setFlds, fld_setFld_other]
  · rintro rfl
    have cuts (u : State) : fld (when cut (fun u => bump u F.WRP_CNT_CUT_RUNS a) u) F.WRP_CNT_DATA_FAIL a =
        fld u F.WRP_CNT_DATA_FAIL a := by
      cases cut
      · rfl
      · exact fld_setFld_other u _ _ _ (by decide)
    have counted : fld (runClosed s a r 0x54 cut) F.WRP_CNT_DATA_FAIL a = fld (bump (when cut (fun u => bump u
        F.WRP_CNT_CUT_RUNS a) (setFlds (setHdl s a { hdlOf s a with wg := false }) a [(F.WRP_RUN_STAT_STATE, 0),
        (F.WRP_RUN_STAT_STATUS, 0x54), (F.WRP_RUN_STAT_CUT, b2n cut)])) F.WRP_CNT_DATA_FAIL a) F.WRP_CNT_DATA_FAIL a := rfl
    rw [counted, fld_bump_same _ _ _ _ (by decide), cuts]
    simp (disch := decide) only [setFlds, fld_setFld_other, fld_setHdl, Nat.reducePow, Nat.reduceSub]

/-- What the end of actuator a's write run leaves (R157). -/
structure RunEnded (s : State) (a status : Nat) (t : State) : Prop where
  port : ∀ b, SamePort (hdlOf s b) (hdlOf t b)
  wg : ∀ b, (hdlOf t b).wg = if b = a then false else (hdlOf s b).wg
  run : ∀ b, (wrpOf t b).run = if b = a then none else (wrpOf s b).run
  rest : servoState t = servoState s
  regs : Writes runRegs s t
  others : ∀ b, b ≠ a → rd t .WRP_RUN_STAT b = rd s .WRP_RUN_STAT b
  state : fld t F.WRP_RUN_STAT_STATE a = 0
  code : fld t F.WRP_RUN_STAT_STATUS a = status % 256
  written : fld t F.WRP_RUN_STAT_WRITTEN a = fld s F.WRP_RUN_STAT_WRITTEN a
  late : status = 0x54 → fld t F.WRP_CNT_DATA_FAIL a = min (fld s F.WRP_CNT_DATA_FAIL a + 1) 255
  pending : pendingBit t (520 + a) = true

theorem runEnded_wrpEnd {s : State} {a : Nat} {r : WrRun} (status : Nat) (cut : Bool) (h : (wrpOf s a).run = some r) :
    RunEnded s a status (wrpEnd s a status cut) := by
  rw [wrpEnd_some status cut h]
  obtain ⟨hdl, run, rest, regs⟩ := runClosed_units s a r status cut
  obtain ⟨state, code, written, late⟩ := runClosed_fields s a r status cut
  have risen : pendingBit (runReported s (runClosed s a r status cut) a r status cut) (520 + a) = true :=
    pendingBit_raiseSource ..
  have reported := unitState_runReported s (runClosed s a r status cut) a r status cut
  have reads := writes_runReported s (runClosed s a r status cut) a r status cut
  generalize runClosed s a r status cut = t at *
  generalize runReported s t a r status cut = u at *
  have served := portServed_pspArb u a
  have frames := keeps_pspArb u a
  generalize pspArb u a = v at *
  have last (q : Reg) (i : Nat) : rd v q i = rd u q i := frames.regs q i List.not_mem_nil
  have own (q : Reg) (i : Nat) (hq : q = .WRP_RUN_STAT ∨ q = .WRP_CNT) : rd v q i = rd t q i := by
    rw [last]
    obtain rfl | rfl := hq
    · exact reads.regs _ i (by decide) (by decide)
    · exact reads.regs _ i (by decide) (by decide)
  have fields (f : Fld) (hf : f.reg = .WRP_RUN_STAT ∨ f.reg = .WRP_CNT) : fld v f a = fld t f a := fld_eq_of_rd (own _ _ hf)
  refine {
    port := fun b => ?_
    wg := fun b => ?_
    run := fun b => ?_
    rest := served.rest.trans ((servoState_of_unitState reported).trans rest)
    regs := ⟨fun q i hq hb => ?_⟩
    others := fun b hb => (own _ b (.inl rfl)).trans (regs _ b (by simp [hb]))
    state := (fields _ (.inl rfl)).trans state
    code := (fields _ (.inl rfl)).trans code
    written := (fields _ (.inl rfl)).trans written
    late := fun e => (fields _ (.inr rfl)).trans (late e)
    pending := by rw [pendingBit, last]; exact risen }
  · refine .trans ?_ (served.port b)
    rw [hdlOf_of_unitState reported, hdl]
    split
    · rename_i e
      exact e ▸ ⟨rfl, rfl, rfl⟩
    · exact .refl
  · rw [served.wg, hdlOf_of_unitState reported, hdl]
    split <;> rfl
  · rw [served.run, wrpOf_of_unitState reported, run]
  · have cal : q ∉ calRegs := fun e => hq (List.mem_cons_of_mem _ (List.mem_cons_of_mem _ e))
    refine (last q i).trans ((reads.regs q i cal hb).trans (regs q i fun e => hq ?_))
    obtain ⟨rfl | rfl, -⟩ := e <;> decide

/-- What the end of write runs leaves, of whichever actuators' and if any: WG only falls and runs only end. -/
structure RunsCut (s t : State) : Prop where
  port : ∀ b, SamePort (hdlOf s b) (hdlOf t b)
  wg : ∀ b, (hdlOf s b).wg = false → (hdlOf t b).wg = false
  run : ∀ b, (wrpOf s b).run = none → (wrpOf t b).run = none
  rest : servoState t = servoState s
  regs : Writes runRegs s t

namespace RunsCut

variable {s t u : State}

theorem refl : RunsCut s s := ⟨fun _ => .refl, fun _ => id, fun _ => id, rfl, .refl⟩

theorem trans (h : RunsCut s t) (k : RunsCut t u) : RunsCut s u :=
  ⟨fun b => (h.port b).trans (k.port b), fun b e => k.wg b (h.wg b e), fun b e => k.run b (h.run b e), k.rest.trans h.rest,
    h.regs.trans k.regs⟩

end RunsCut

theorem RunEnded.cut {s t : State} {a status : Nat} (h : RunEnded s a status t) : RunsCut s t := by
  refine ⟨h.port, fun b e => ?_, fun b e => ?_, h.rest, h.regs⟩
  · rw [h.wg, e, ite_self]
  · rw [h.run, e, ite_self]

theorem PortServed.cut {s t : State} (h : PortServed s t) (k : Writes runRegs s t) : RunsCut s t :=
  ⟨h.port, fun b e => (h.wg b).trans e, fun b e => (h.run b).trans e, h.rest, k⟩

theorem wrpCut_some {s : State} {a : Nat} {r : WrRun} (status : Nat) (h : (wrpOf s a).run = some r) :
    RunEnded s a (firstEnd r.ending status) (wrpCut s a status) := by
  rw [wrpCut, h]
  exact runEnded_wrpEnd _ _ h

theorem wrpCut_none {s : State} {a : Nat} (status : Nat) (h : (wrpOf s a).run = none) : wrpCut s a status = s := by
  rw [wrpCut, h]

theorem runsCut_wrpCut (s : State) (a status : Nat) : RunsCut s (wrpCut s a status) := by
  cases h : (wrpOf s a).run with
  | none =>
    rw [wrpCut_none status h]
    exact .refl
  | some r => exact (wrpCut_some status h).cut

/-- A cut ends the run of its actuator. -/
theorem run_wrpCut (s : State) (a status : Nat) : (wrpOf (wrpCut s a status) a).run = none := by
  cases h : (wrpOf s a).run with
  | none => rwa [wrpCut_none status h]
  | some r => rw [(wrpCut_some status h).run, if_pos rfl]

/-- The status a run ends with is one of Table 5.3. -/
theorem firstEnd_lt (ending : Option Nat) {status : Nat} (h : status < 256) : firstEnd ending status < 256 := by
  cases ending with
  | none => exact h
  | some e =>
    unfold firstEnd
    dsimp only
    split
    · rename_i less
      have listed : e ∈ [0x00, 0x11, 0x14, 0x50, 0x53, 0x54, 0x55] := by
        by_contra n
        have beyond : endOrder e = 7 := List.idxOf_eq_length n
        have most : endOrder status ≤ 7 := List.idxOf_le_length
        omega
      simp only [List.mem_cons, List.not_mem_nil, or_false] at listed
      omega
    · exact h

end Sys2Proof.Machine

end

section
-- `decide` waits for the kernel: a thread for each of these proofs would exhaust the memory limit.
set_option Elab.async false

namespace Sys2Proof.Machine

/-! ### Write runs -/

/-- WG_a rises where the run is ready and nothing inhibits the gate (R49, R151, R154). -/
theorem ends_wgRise {s : State} {a theta : Nat} {r : WrRun} (hr : (wrpOf s a).run = some r)
    (first : r.writing = false ∨ r.pad = true) (frame : r.frameDone = true) (staged : nextStaged s a r = true)
    (free : inhibits s a = 0) : Ends (.wgRise { act := a, theta := theta }) s (fun t =>
      (hdlOf t a).wg = true ∧ fld t F.WRP_RUN_STAT_STATE a = 2 ∧
      (wrpOf t a).run = some { r with writing := true, pad := false }) := by
  have ready : ((!r.writing || r.pad) && r.frameDone && nextStaged s a r && decide (inhibits s a = 0)) = true := by
    obtain h | h := first <;> simp [h, frame, staged, free]
  have meaning : ∃ w, w.run = some { r with writing := true, pad := false } ∧ exec (.wgRise { act := a, theta := theta }) s =
      .next (setWrp (setFld (setHdl s a { hdlOf s a with wg := true }) F.WRP_RUN_STAT_STATE a 2) a w) := by
    change ∃ w, _ ∧ execWgRise _ s = _
    rw [execWgRise]
    dsimp only
    rw [hr]
    dsimp only
    rw [if_pos ready]
    exact ⟨_, rfl, rfl⟩
  obtain ⟨w, run, e⟩ := meaning
  refine ⟨_, e, by simp, ?_, by rw [wrpOf_setWrp, if_pos rfl, run]⟩
  rw [fld_setWrp]
  exact fld_setFld_same _ _ _ _ (by decide)

/-- An inhibited gate stays (R49). -/
theorem ends_wgRise_inhibited {s : State} {a theta : Nat} (h : inhibits s a ≠ 0) :
    Ends (.wgRise { act := a, theta := theta }) s (fun t => t = s) := by
  refine ⟨_, rfl, ?_⟩
  split
  · rfl
  · exact if_neg (by simp [h])

/-- A bus error of a fetch: the run's first sector that has none is remembered (R149). -/
def fetchFailed (s : State) (a sector : Nat) (r : WrRun) : State :=
  setWrp s a { wrpOf s a with run := some { r with
    fetching := r.fetching.filter (fun k => decide (k ≠ sector))
    bad := some (match r.bad with | some b => min b sector | none => sector) } }

theorem run_fetchFailed (s : State) (a sector : Nat) (r : WrRun) : (wrpOf (fetchFailed s a sector r) a).run = some { r with
    fetching := r.fetching.filter (fun k => decide (k ≠ sector))
    bad := some (match r.bad with | some b => min b sector | none => sector) } := by
  rw [fetchFailed, wrpOf_setWrp, if_pos rfl]

/-- The answer of a fetch, of a run that awaits it. -/
theorem exec_sectorFetchDone {s : State} {a sector : Nat} {r : WrRun} (err : Bool) (hr : (wrpOf s a).run = some r)
    (hf : sector ∈ r.fetching) : exec (.sectorFetchDone a sector err) s =
    .next (match (if err then (none, s) else busRead s portWrp (r.base + sector * r.stride) 4104) with
      | (none, u) =>
        if fld u F.WRP_RUN_STAT_WRITTEN a = sector then wrpEnd (fetchFailed u a sector r) a 0x55 false
        else fetchFailed u a sector r
      | (some bytes, u) => setWrp u a { wrpOf u a with run := some { r with
          fetching := r.fetching.filter (fun k => decide (k ≠ sector))
          staged := r.staged ++ [{ index := sector, data := infoBytes (r.lba + BitVec.ofNat 64 sector) bytes }] } }) := by
  change execSectorFetchDone a sector err s = _
  rw [execSectorFetchDone, hr]
  dsimp only
  rw [if_pos hf]
  generalize (if err then (none, s) else busRead s portWrp (r.base + sector * r.stride) 4104) = x
  obtain ⟨_ | _, _⟩ := x <;> rfl

/-- A sector's data arrives, and is staged with its CRC (R149). -/
theorem ends_sectorFetchDone {s : State} {a sector : Nat} {r : WrRun} (hr : (wrpOf s a).run = some r)
    (hf : sector ∈ r.fetching) (hd : (busRead s portWrp (r.base + sector * r.stride) 4104).1.isSome = true) :
    Ends (.sectorFetchDone a sector false) s (fun t => (wrpOf t a).run = some { r with
      fetching := r.fetching.filter (fun k => decide (k ≠ sector))
      staged := r.staged ++ [{
        index := sector
        data := infoBytes (r.lba + BitVec.ofNat 64 sector)
          ((busRead s portWrp (r.base + sector * r.stride) 4104).1.getD []) }] }) := by
  refine ⟨_, exec_sectorFetchDone false hr hf, ?_⟩
  rw [if_neg (by simp)]
  generalize busRead s portWrp (r.base + sector * r.stride) 4104 = x at hd ⊢
  obtain ⟨_ | bytes, u⟩ := x
  · cases hd
  · simp

/-- A bus error on the next sector to be written ends the run DATA_ECC (R149). -/
theorem ends_sectorFetchDone_next {s : State} {a sector : Nat} {r : WrRun} (hr : (wrpOf s a).run = some r)
    (hf : sector ∈ r.fetching) (hw : fld s F.WRP_RUN_STAT_WRITTEN a = sector) :
    Ends (.sectorFetchDone a sector true) s (fun t =>
      (wrpOf t a).run = none ∧ fld t F.WRP_RUN_STAT_STATUS a = 0x55 ∧ fld t F.WRP_RUN_STAT_STATE a = 0 ∧
      (hdlOf t a).wg = false ∧ pendingBit t (520 + a) = true) := by
  refine ⟨_, exec_sectorFetchDone true hr hf, ?_⟩
  rw [if_pos rfl]
  dsimp only
  rw [if_pos hw]
  obtain ⟨-, wg, run, -, -, -, state, code, -, -, pending⟩ := runEnded_wrpEnd 0x55 false (run_fetchFailed s a sector r)
  exact ⟨by rw [run, if_pos rfl], code, state, by rw [wg, if_pos rfl], pending⟩

/-- A bus error on a later sector is remembered (R149). -/
theorem ends_sectorFetchDone_later {s : State} {a sector : Nat} {r : WrRun} (hr : (wrpOf s a).run = some r)
    (hf : sector ∈ r.fetching) (hw : fld s F.WRP_RUN_STAT_WRITTEN a ≠ sector) (hb : r.bad = none) :
    Ends (.sectorFetchDone a sector true) s (fun t =>
      ((wrpOf t a).run.map (fun x => (x.bad, x.staged))) = some (some sector, r.staged)) := by
  refine ⟨_, exec_sectorFetchDone true hr hf, ?_⟩
  rw [if_pos rfl]
  dsimp only
  rw [if_neg hw, run_fetchFailed, hb]
  rfl

/-- Data that comes late ends the run, after the sector being written if one is (R149). -/
theorem exec_dataLate {s : State} {a : Nat} {r : WrRun} (hr : (wrpOf s a).run = some r)
    (hn : (if r.inSector then fld s F.WRP_RUN_STAT_WRITTEN a + 1 else fld s F.WRP_RUN_STAT_WRITTEN a) < r.count)
    (hs : r.staged.any (fun x => decide (x.index =
      if r.inSector then fld s F.WRP_RUN_STAT_WRITTEN a + 1 else fld s F.WRP_RUN_STAT_WRITTEN a)) = false) :
    exec (.dataLate a) s = .next (wrpEndAfter s a 0x54) := by
  change execDataLate a s = _
  rw [execDataLate, hr]
  dsimp only
  rw [if_pos ⟨hn, by rw [hs]; rfl⟩]

theorem wrpEndAfter_some {s : State} {a : Nat} {r : WrRun} (status : Nat) (hr : (wrpOf s a).run = some r) :
    wrpEndAfter s a status = if (hdlOf s a).wg && r.inSector then
      setWrp s a { wrpOf s a with run := some { r with ending := some (firstEnd r.ending status) } }
      else wrpEnd s a (firstEnd r.ending status) false := by
  rw [wrpEndAfter, hr]

/-- A revolution lost to the preheat is counted (R154). -/
theorem ends_preheatSlip {s : State} {a : Nat} {r : WrRun} (hr : (wrpOf s a).run = some r) (hw : r.writing = false) :
    Ends (.preheatSlip a) s (fun t =>
      fld t F.WRP_CNT_PREHEAT_SLIP a = min (fld s F.WRP_CNT_PREHEAT_SLIP a + 1) 255 ∧
      (∃ u, t = { s with regs := u } ∧ ∀ q i, ¬(q = .WRP_CNT ∧ i = a) → rd t q i = rd s q i)) := by
  have meaning : exec (.preheatSlip a) s = .next (bump s F.WRP_CNT_PREHEAT_SLIP a) := by
    change execPreheatSlip a s = _
    rw [execPreheatSlip, hr]
    simp [hw]
  refine ⟨_, meaning, fld_bump_same _ _ _ _ (by decide), _, rfl, fun q i h => rd_wr_ne s _ ?_⟩
  by_contra n
  exact h (by simpa [not_or] using n)

theorem fld_lifePart (s : State) (k unit n : Nat) (f : Fld) (i : Nat) : fld (lifePart s k unit n) f i = fld s f i := rfl

theorem hdlOf_lifePart (s : State) (k unit n b : Nat) : hdlOf (lifePart s k unit n) b = hdlOf s b := rfl

/-- The counts of a sector that is written. -/
def sectorCounted (s : State) (a : Nat) : State :=
  lifePart (bump (setFld s F.WRP_RUN_STAT_WRITTEN a (fld s F.WRP_RUN_STAT_WRITTEN a + 1)) F.WRP_CNT_SECTORS a) 3 1000000 4096

theorem sectorCounted_fields (s : State) (a : Nat) :
    fld (sectorCounted s a) F.WRP_RUN_STAT_WRITTEN a = (fld s F.WRP_RUN_STAT_WRITTEN a + 1) % 65536 ∧
    fld (sectorCounted s a) F.WRP_CNT_SECTORS a = min (fld s F.WRP_CNT_SECTORS a + 1) 4294967295 ∧
    hdlOf (sectorCounted s a) a = hdlOf s a := by
  unfold sectorCounted
  refine ⟨?_, ?_, ?_⟩
  · rw [fld_lifePart, fld_bump_other _ a a 1 (by decide)]
    exact fld_setFld_same _ _ _ _ (by decide)
  · rw [fld_lifePart, fld_bump_same _ _ _ _ (by decide), fld_setFld_other s a a _ (by decide)]
    rfl
  · rw [hdlOf_lifePart, bump, hdlOf_setFld, hdlOf_setFld]

/-- A sector's last postamble bit is written with WG high (R155, R157), of a run that neither ends nor fails. -/
theorem sectorWritten_goesOn {s : State} {a : Nat} {r : WrRun} (hr : (wrpOf s a).run = some r) (hg : (hdlOf s a).wg = true)
    (hi : r.inSector = true) (he : r.ending = none) (hb : r.bad = none) :
    ∃ w k, w.run = some { r with inSector := false, staged := k } ∧ sectorWritten s a =
      crossPad (setWrp (sectorCounted s a) a w) a { r with inSector := false, staged := k } := by
  have begun : beginSector s a = s := by
    rw [beginSector, hr]
    dsimp only
    exact if_neg (by simp [hi])
  rw [sectorWritten, begun]
  dsimp only
  rw [hr]
  dsimp only
  rw [if_pos (by simp [hg, hi]), he, hb]
  exact ⟨_, _, rfl, rfl⟩

/-- The run goes on past a slot that is not the track's last, or its last sector is written. -/
theorem crossPad_stays {s : State} {a : Nat} {r : WrRun}
    (h : ¬ ((r.slot0 + fld s F.WRP_RUN_STAT_WRITTEN a) % r.spt = 0 ∧ fld s F.WRP_RUN_STAT_WRITTEN a < r.count)) :
    crossPad s a r = s := if_neg h

/-- Past the track's last slot WG falls for the pad (R145). -/
theorem crossPad_falls {s : State} {a : Nat} {r : WrRun}
    (h : (r.slot0 + fld s F.WRP_RUN_STAT_WRITTEN a) % r.spt = 0 ∧ fld s F.WRP_RUN_STAT_WRITTEN a < r.count) :
    (wrpOf (crossPad s a r) a).run = some { r with pad := true } ∧ (hdlOf (crossPad s a r) a).wg = false ∧
    ∀ f i, fld (crossPad s a r) f i = fld s f i := by
  have meaning : ∃ t, crossPad s a r = pspArb t a ∧ (wrpOf t a).run = some { r with pad := true } ∧
      (hdlOf t a).wg = false ∧ ∀ f i, fld t f i = fld s f i := ⟨_, if_pos h, by simp, by simp, fun _ _ => rfl⟩
  obtain ⟨t, e, run, wg, same⟩ := meaning
  have served := portServed_pspArb t a
  rw [e, served.run, served.wg]
  exact ⟨run, wg, fun f i => (fld_eq_of_rd ((keeps_pspArb t a).regs _ _ List.not_mem_nil)).trans (same f i)⟩

/-- The end of a run, where it has ended its last sector (R156). -/
theorem exec_writeRunEnd {s : State} {a : Nat} {r : WrRun} (hr : (wrpOf s a).run = some r) (hw : r.writing = true)
    (hi : r.inSector = false) (hc : fld s F.WRP_RUN_STAT_WRITTEN a = r.count) :
    exec (.writeRunEnd a) s = .next (wrpEnd s a 0 false) := by
  change execWriteRunEnd a s = _
  rw [execWriteRunEnd, hr]
  dsimp only
  rw [if_pos (by simp [hw, hi, hc])]

/-- A cut of another actuator's run leaves this one's, and its status. -/
theorem wrpCut_apart {s : State} {a b : Nat} (status : Nat) (h : a ≠ b) :
    (wrpOf (wrpCut s b status) a).run = (wrpOf s a).run ∧
    rd (wrpCut s b status) .WRP_RUN_STAT a = rd s .WRP_RUN_STAT a := by
  cases hb : (wrpOf s b).run with
  | none =>
    rw [wrpCut_none status hb]
    exact ⟨rfl, rfl⟩
  | some r =>
    have ended := wrpCut_some status hb
    exact ⟨(ended.run a).trans (if_neg h), ended.others a h⟩

/-- And cuts of several others. -/
theorem each_wrpCut_apart {a : Nat} (status : Nat) {l : List Nat} (h : a ∉ l) (s : State) :
    (wrpOf (each l (fun b u => wrpCut u b status) s) a).run = (wrpOf s a).run ∧
    rd (each l (fun b u => wrpCut u b status) s) .WRP_RUN_STAT a = rd s .WRP_RUN_STAT a := by
  induction l generalizing s with
  | nil => exact ⟨rfl, rfl⟩
  | cons b l ih =>
    obtain ⟨head, tail⟩ : a ≠ b ∧ a ∉ l := by simpa using h
    obtain ⟨run, stat⟩ := ih tail (wrpCut s b status)
    obtain ⟨run', stat'⟩ := wrpCut_apart (s := s) status head
    exact ⟨run.trans run', stat.trans stat'⟩

/-- Cuts of a list of actuators' write runs end each of them with the cause. -/
theorem each_wrpCut {a status : Nat} {r : WrRun} {l : List Nat} (hn : l.Nodup) (ha : a ∈ l) {s : State}
    (hr : (wrpOf s a).run = some r) :
    (wrpOf (each l (fun b u => wrpCut u b status) s) a).run = none ∧
    fld (each l (fun b u => wrpCut u b status) s) F.WRP_RUN_STAT_STATUS a = firstEnd r.ending status % 256 := by
  induction l generalizing s with
  | nil => cases ha
  | cons b l ih =>
    obtain ⟨fresh, rest⟩ := List.nodup_cons.1 hn
    obtain rfl | later := List.mem_cons.1 ha
    · obtain ⟨run, stat⟩ := each_wrpCut_apart status fresh (wrpCut s a status)
      exact ⟨run.trans (run_wrpCut s a status), (fld_eq_of_rd stat).trans (wrpCut_some status hr).code⟩
    · have apart : a ≠ b := fun e => fresh (e ▸ later)
      exact ih rest later ((wrpCut_apart status apart).1.trans hr)

/-- A block reset of WRP ends every run (R157, R606). -/
theorem ends_wrpBlockReset {s : State} {a : Nat} {r : WrRun} (ha : a < s.part.acts) (hr : (wrpOf s a).run = some r) :
    Ends .wrpBlockReset s (fun t => (wrpOf t a).run = none ∧
      fld t F.WRP_RUN_STAT_STATUS a = firstEnd r.ending 0x53 ∧ flag t F.CKR_BRST_WRP = false) := by
  refine ⟨_, rfl, ?_⟩
  unfold wrpBlockReset
  obtain ⟨run, code⟩ := each_wrpCut (status := 0x53) List.nodup_range (List.mem_range.2 ha) hr
  generalize each (List.range s.part.acts) (fun b u => wrpCut u b 0x53) s = t at run code ⊢
  have dropped := unitState_calDrop t writeItem
  have reads := writes_calDrop t writeItem
  refine ⟨?_, ?_, flag_setFlag_same _ _ _ _ (by decide) (by decide)⟩
  · rw [wrpOf_setFlag, wrpOf_of_unitState dropped, run]
  · rw [setFlag, fld_setFld_other _ _ _ _ (by decide), reads.fld _ _, code]
    exact Nat.mod_eq_of_lt (firstEnd_lt _ (by decide))

/-! ### The transitions of a slot -/

/-- A transition is never less than half a bit after the one before it (R152). -/
theorem edgeTimes_spaced (pc : Option Nat) (x : Nat × Int) (prev : Option Nat) (m : Nat) (rest : List Nat) :
    ((edgeTimes pc (some x) prev (m :: rest)).head?.map (fun e => (e.1, decide (x.2 + 32 ≤ e.2)))) = some (m, true) := by
  simp [edgeTimes]

/-- Without precompensation a first transition stands at its bit. -/
theorem edgeTimes_unshifted (prev : Option Nat) (m : Nat) (rest : List Nat) :
    (edgeTimes none none prev (m :: rest)).head? = some (m, 64 * (m : Int)) := by
  simp [edgeTimes]

/-- And with it, is shifted by PC of its neighbours (R152). -/
theorem edgeTimes_shifted (k m : Nat) (rest : List Nat) : (edgeTimes (some k) none none (m :: rest)).head? =
    some (m, 64 * (m : Int) + pcOf k (b2n (decide (rest.head? = some (m + 1))))) := by
  simp [edgeTimes, b2n]

/-- Settles O7: WG's rise, fetches and their failures, the sectors' counts and, by `runEnded_wrpEnd`, the ways a run ends. -/
theorem writeRuns : Obligations.WriteRuns := by
  refine ⟨?_, ?_, ?_, ?_, ?_, ?_, ?_, ?_, ?_, ?_, ?_, ?_, ?_⟩
  · exact fun s a theta r _ hr first frame staged free => ends_wgRise hr first frame staged free
  · exact fun s a theta h => ends_wgRise_inhibited h
  · exact fun s a sector r hr hf hd => ends_sectorFetchDone hr hf hd
  · exact fun s a sector r _ hr hf hw => ends_sectorFetchDone_next hr hf hw
  · exact fun s a sector r hr hf hw hb => ends_sectorFetchDone_later hr hf hw hb
  · intro s a r hr hg hi hn hs
    refine ⟨_, exec_dataLate hr (by simpa [hi] using hn) (by simpa [hi] using hs), ?_⟩
    rw [wrpEndAfter_some _ hr, if_pos (by simp [hg, hi])]
    simp
  · intro s a r _ hr hi hn hs
    have ended := runEnded_wrpEnd (firstEnd r.ending 0x54) false hr
    refine ⟨_, exec_dataLate hr (by simpa [hi] using hn) (by simpa [hi] using hs), ?_⟩
    rw [wrpEndAfter_some _ hr, if_neg (by simp [hi])]
    exact ⟨by rw [ended.run, if_pos rfl], ended.code.trans (Nat.mod_eq_of_lt (firstEnd_lt _ (by decide))),
      fun e => ended.late (by rw [e]; rfl)⟩
  · exact fun s a r hr hw => ends_preheatSlip hr hw
  · intro s a r _ hr hg hi he hb hs
    obtain ⟨w, k, run, e⟩ := sectorWritten_goesOn hr hg hi he hb
    obtain ⟨written, sectors, hdl⟩ := sectorCounted_fields s a
    generalize sectorCounted s a = t at *
    have stays := crossPad_stays (s := setWrp t a w) (a := a) (r := { r with inSector := false, staged := k })
      (fun h => hs (by rw [← h.1, fld_setWrp, written]))
    exact ⟨_, congrArg Host.Outcome.next (e.trans stays), written, sectors, by rw [wrpOf_setWrp, if_pos rfl, run]; rfl,
      by rw [hdlOf_setWrp, hdl, hg]⟩
  · intro s a r _ hr hg hi he hb hs hn
    obtain ⟨w, k, run, e⟩ := sectorWritten_goesOn hr hg hi he hb
    obtain ⟨written, -, -⟩ := sectorCounted_fields s a
    generalize sectorCounted s a = t at *
    obtain ⟨pad, wg, same⟩ := crossPad_falls (s := setWrp t a w) (a := a) (r := { r with inSector := false, staged := k })
      ⟨by rw [fld_setWrp, written]; exact hs, by rw [fld_setWrp, written]; exact hn⟩
    exact ⟨_, congrArg Host.Outcome.next e, (same ..).trans written, by rw [pad]; rfl, wg⟩
  · exact fun m k x prev rest pc => ⟨edgeTimes_spaced .., edgeTimes_unshifted .., edgeTimes_shifted ..⟩
  · intro s a r _ hr hw hi hc
    have ended := runEnded_wrpEnd 0 false hr
    exact ⟨_, exec_writeRunEnd hr hw hi hc, by rw [ended.run, if_pos rfl], by rw [ended.wg, if_pos rfl], ended.state,
      ended.code, ended.written.trans hc, ended.pending⟩
  · exact fun s a r ha hr => ends_wrpBlockReset ha hr

end Sys2Proof.Machine

end

section
-- `decide` waits for the kernel: a thread for each of these proofs would exhaust the memory limit.
set_option Elab.async false

namespace Sys2Proof.Machine

/-! ### Preamp frames and faults -/

/-- The round robin grants the only requester, wherever its pointer stands (R25). -/
theorem grant_only {n k : Nat} (ptr : Nat) {req : Nat → Bool} (hk : k < n) (asks : req k = true)
    (only : ∀ j < n, req j = true → j = k) : grant n ptr req = some k := by
  have reached : k ∈ (List.range n).map (fun i => (ptr + i) % n) := by
    refine List.mem_map.2 ⟨(k + (n - ptr % n)) % n, List.mem_range.2 (Nat.mod_lt _ (by omega)), ?_⟩
    have low : ptr % n < n := Nat.mod_lt _ (by omega)
    have split := Nat.div_add_mod ptr n
    have round : ptr + (k + (n - ptr % n)) = k + n * (ptr / n + 1) := by
      rw [Nat.mul_succ]
      omega
    rw [Nat.add_mod_mod, round, Nat.add_mul_mod_self_left, Nat.mod_eq_of_lt hk]
  unfold grant
  cases found : ((List.range n).map (fun i => (ptr + i) % n)).find? req with
  | none => exact absurd asks (List.find?_eq_none.1 found k reached)
  | some j =>
    obtain ⟨i, -, rfl⟩ := List.mem_map.1 (List.mem_of_find?_eq_some found)
    rw [only _ (Nat.mod_lt _ (by omega)) (List.find?_some found)]

/-- The port free and asked for by firmware alone starts firmware's frame (R45, R62). -/
theorem running_pspArb_firmware {s : State} {a : Nat} (free : (hdlOf s a).running = none) (held : pspHeld s a = false)
    (head : pspRequest s a 0 = false) (busy : flag s F.HDL_PSP_CMD_BUSY a = true) (fault : (hdlOf s a).faultPending = false) :
    (hdlOf (pspArb s a) a).running = some {
      who := .firmware, rnw := flag s F.HDL_PSP_CMD_RNW a, addr := fld s F.HDL_PSP_CMD_ADDR a
      data := fld s F.HDL_PSP_CMD_DATA a } := by
  have granted : pspGrant s a = some 1 := by
    refine grant_only _ (by decide) (by simp [pspRequest, busy, held]) fun j low asks => ?_
    match j with
    | 0 => simp [head] at asks
    | 1 => rfl
    | 2 => simp [pspRequest, fault] at asks
    | j + 3 => omega
  simp [pspArb, free, granted]

/-- The port arbiter touches no register. -/
theorem fld_pspArb (s : State) (a : Nat) (f : Fld) (i : Nat) : fld (pspArb s a) f i = fld s f i :=
  fld_eq_of_rd ((keeps_pspArb s a).regs _ _ List.not_mem_nil)

theorem flag_pspArb (s : State) (a : Nat) (f : Fld) (i : Nat) : flag (pspArb s a) f i = flag s f i := by
  rw [flag, fld_pspArb, flag]

/-- The fields of a firmware frame written with BUSY, RDATA_VALID falling for a read. -/
def frameWritten (s : State) (a : Nat) (v : Word) : State :=
  let t := setFlag (setFlds s a [(F.HDL_PSP_CMD_DATA, getBits v 0 16), (F.HDL_PSP_CMD_ADDR, getBits v 16 7),
    (F.HDL_PSP_CMD_RNW, getBits v 23 1)]) F.HDL_PSP_CMD_BUSY a true
  if bit v 23 then setFlag t F.HDL_PSP_RDATA_VALID a false else t

theorem exec_pspFrameLaunch_idle {s : State} {a : Nat} {v : Word} (ha : a < s.part.acts) (go : bit v 24 = true)
    (idle : flag s F.HDL_PSP_CMD_BUSY a = false) : exec (.pspFrameLaunch a v) s = .next (pspArb (frameWritten s a v) a) := by
  change execPspFrameLaunch a v s = _
  rw [execPspFrameLaunch]
  dsimp only
  rw [if_neg (by omega), if_pos go, idle]
  rfl

theorem exec_pspFrameLaunch_busy {s : State} {a : Nat} {v : Word} (ha : a < s.part.acts) (go : bit v 24 = true)
    (busy : flag s F.HDL_PSP_CMD_BUSY a = true) :
    exec (.pspFrameLaunch a v) s = .next (setFlag s F.HDL_PSP_CMD_OVERRUN a true) := by
  change execPspFrameLaunch a v s = _
  rw [execPspFrameLaunch]
  dsimp only
  rw [if_neg (by omega), if_pos go, busy]
  rfl

theorem unitState_frameWritten (s : State) (a : Nat) (v : Word) : unitState (frameWritten s a v) = unitState s := by
  have set := (unitState_setFlag (setFlds s a [(F.HDL_PSP_CMD_DATA, getBits v 0 16), (F.HDL_PSP_CMD_ADDR, getBits v 16 7),
    (F.HDL_PSP_CMD_RNW, getBits v 23 1)]) F.HDL_PSP_CMD_BUSY a true).trans (unitState_setFlds ..)
  exact unitState_ite ((unitState_setFlag ..).trans set) set

theorem frameWritten_fields (s : State) (a : Nat) (v : Word) :
    flag (frameWritten s a v) F.HDL_PSP_CMD_BUSY a = true ∧ flag (frameWritten s a v) F.HDL_PSP_CMD_RNW a = bit v 23 ∧
    fld (frameWritten s a v) F.HDL_PSP_CMD_ADDR a = getBits v 16 7 ∧
    fld (frameWritten s a v) F.HDL_PSP_CMD_DATA a = getBits v 0 16 := by
  have valid (t : State) (f : Fld) (h : f.reg = .HDL_PSP_CMD) :
      fld (if bit v 23 then setFlag t F.HDL_PSP_RDATA_VALID a false else t) f a = fld t f a := by
    split
    · exact fld_setFld_other _ _ _ _ (.inl (by rw [h]; decide))
    · rfl
  unfold frameWritten
  dsimp only
  rw [flag, flag, valid _ _ rfl, valid _ _ rfl, valid _ _ rfl, valid _ _ rfl]
  simp (disch := decide) only [setFlag, setFlds, fld_setFld_same, fld_setFld_other]
  refine ⟨rfl, ?_, Nat.mod_eq_of_lt (getBits_lt ..), Nat.mod_eq_of_lt (getBits_lt ..)⟩
  rw [getBits_one]
  cases bit v 23 <;> rfl

/-- A firmware frame launched on a free port starts (R62). -/
theorem ends_pspFrameLaunch {s : State} {a : Nat} {v : Word} (ha : a < s.part.acts) (go : bit v 24 = true)
    (idle : flag s F.HDL_PSP_CMD_BUSY a = false) (free : (hdlOf s a).running = none) (held : pspHeld s a = false)
    (head : pspRequest s a 0 = false) (fault : (hdlOf s a).faultPending = false) : Ends (.pspFrameLaunch a v) s (fun t =>
      flag t F.HDL_PSP_CMD_BUSY a = true ∧
      (hdlOf t a).running = some { who := .firmware, rnw := bit v 23, addr := getBits v 16 7, data := getBits v 0 16 }) := by
  refine ⟨_, exec_pspFrameLaunch_idle ha go idle, ?_⟩
  obtain ⟨busy, rnw, addr, data⟩ := frameWritten_fields s a v
  have units := unitState_frameWritten s a v
  generalize frameWritten s a v = t at *
  have hdl := hdlOf_of_unitState units a
  have wrp := wrpOf_of_unitState units a
  have pair : pairOf t a = pairOf s a := by rw [pairOf, pairOf, show t.pairs = s.pairs from (congrArg State.pairs units :)]
  refine ⟨by rw [flag_pspArb, busy], ?_⟩
  rw [running_pspArb_firmware (by rw [hdl, free]) ?_ ?_ busy (by rw [hdl, fault]), rnw, addr, data]
  · rw [pspHeld, hdl, pair]
    exact held
  · rw [pspRequest, wrp, hdl]
    exact head

/-- A firmware frame's end frees its request and loads what a read returned (R44, R62). -/
theorem ends_pspFrameEnd {s : State} {a rdata : Nat} {f : PspFrame} (hf : (hdlOf s a).running = some f)
    (firmware : f.who = .firmware) (read : f.rnw = true) : Ends (.pspFrameEnd a rdata) s (fun t =>
      flag t F.HDL_PSP_CMD_BUSY a = false ∧ fld t F.HDL_PSP_RDATA_DATA a = rdata % 65536 ∧
      flag t F.HDL_PSP_RDATA_VALID a = true) := by
  refine ⟨_, rfl, ?_⟩
  rw [hf]
  dsimp only
  rw [flag_pspArb, flag_pspArb, fld_pspArb, frameEnd, firmware]
  dsimp only
  rw [if_pos read]
  simp (disch := decide) only [setFlag, setFlds, flag_setFld_same, flag_setFld_other, fld_setFld_same, fld_setFld_other]
  exact ⟨rfl, Nat.mod_mod _ _, rfl⟩

/-! What the end of a pair's run leaves of the ports. -/

theorem SamePort.of_eq {h k : HdlAct} (e : k = h) : SamePort h k := e ▸ .refl

theorem unitState_releaseCtx (s : State) (a k : Nat) : unitState (releaseCtx s a k) = unitState s := unitState_ite rfl rfl

theorem samePort_lneEnd (s : State) (a status b : Nat) : SamePort (hdlOf s b) (hdlOf (lneEnd s a status) b) := by
  cases h : (pairOf s a).run with
  | none =>
    rw [lneEnd, h]
    exact .refl
  | some r =>
    rw [lneEnd, h]
    dsimp only
    have answered (t : State) (k status sectors : Nat) (o : OpRef) (p : Nat → Bool) :
        hdlOf (calBoundary (mediaDone (releaseCtx t a k) o status sectors false) p) b = hdlOf t b :=
      hdlOf_of_unitState ((unitState_calBoundary ..).trans ((unitState_mediaDone ..).trans (unitState_releaseCtx ..))) b
    have unlocked (t : State) (c : Bool) : hdlOf (when c (fun u => setFlag u F.LNE_RATE_STAT_LOCKED a false) t) b = hdlOf t b :=
      hdlOf_of_unitState (unitState_when (fun _ => unitState_setFlag ..) ..) b
    refine .trans (.of_eq ?_) ((portServed_pspArb _ a).port b)
    rw [answered, setCtx, hdlOf_setDcp, hdlOf_setFld, unlocked, hdlOf_setPair]

theorem samePort_lnePreampFault (s : State) (a b : Nat) : SamePort (hdlOf s b) (hdlOf (lnePreampFault s a) b) := by
  unfold lnePreampFault
  extract_lets p
  split
  · exact .refl
  · split
    · exact samePort_lneEnd ..
    · exact .refl

/-- A preamp fault ends the write run and the pair's run, and takes the inhibit with it (R50). -/
theorem ends_preampFault {s : State} {a : Nat} (ha : a < s.part.acts) (high : (hdlOf s a).pfltLow = false) :
    Ends (.preampFault a) s (fun t => flag t F.HDL_PFLT_ACTIVE a = true ∧ flag t F.HDL_PFLT_LATCHED a = true ∧
      (hdlOf t a).pfltLow = true ∧ inhibit t a 2 = true) := by
  refine ⟨_, rfl, ?_⟩
  rw [if_pos ⟨ha, high⟩]
  extract_lets h t
  have port : SamePort (hdlOf t a) (hdlOf (pspArb (lnePreampFault (wrpCut t a 0x14) a) a) a) :=
    ((runsCut_wrpCut t a 0x14).port a).trans ((samePort_lnePreampFault ..).trans ((portServed_pspArb ..).port a))
  have regs (f : Fld) (h : f.reg = .HDL_PFLT) :
      flag (pspArb (lnePreampFault (wrpCut t a 0x14) a) a) f a = flag t f a := by
    rw [flag_pspArb, flag, fld_eq_of_rd ((keeps_lnePreampFault _ a).regs _ _ (by rw [h]; decide)),
      fld_eq_of_rd ((keeps_wrpCut _ a _).regs _ _ (by rw [h]; decide)), flag]
  generalize pspArb (lnePreampFault (wrpCut t a 0x14) a) a = u at *
  have active : flag u F.HDL_PFLT_ACTIVE a = true := by
    rw [regs _ rfl]
    simp (disch := decide) only [t, setFlds, flag_setFld_same, flag_setFld_other]
    rfl
  have latched : flag u F.HDL_PFLT_LATCHED a = true := by
    rw [regs _ rfl]
    simp (disch := decide) only [t, setFlds, flag_setFld_same]
    rfl
  refine ⟨active, latched, ?_, by rw [inhibit, pfltInhibit, active, latched]; rfl⟩
  rw [port.pflt]
  simp [t, setFlds]

theorem ends_pfltNRelease {s : State} {a : Nat} (ha : a < s.part.acts) : Ends (.pfltNRelease a) s (fun t =>
      flag t F.HDL_PFLT_ACTIVE a = false ∧ flag t F.HDL_PFLT_LATCHED a = flag s F.HDL_PFLT_LATCHED a ∧
      (hdlOf t a).pfltLow = false) := by
  refine ⟨_, rfl, ?_⟩
  rw [if_pos ha, setFlag]
  exact ⟨flag_setFld_same _ _ _ _ (by decide), flag_setFld_other _ _ _ _ (by decide), by simp⟩

/-! ### The head map and head switches -/

/-- The rules of R47 are numbered 1 to 3. -/
theorem headMapError_lt (s : State) : headMapError s < 16 := by
  unfold headMapError
  extract_lets valid act rule
  have small (h : Nat) : rule h < 16 := by
    simp only [rule]
    split_ifs <;> decide
  cases found : ((List.range s.part.heads).map rule).find? (fun e => e != 0) with
  | none => decide
  | some e =>
    obtain ⟨h, -, rfl⟩ := List.mem_map.1 (List.mem_of_find?_eq_some found)
    exact small h

/-- A request to lock the map: LOCK as the rules hold, and ERR_CODE the first that fails (R47). -/
theorem ends_headmapLock {s : State} {v : Word} (asked : bit v 0 = true) (unlocked : flag s F.HDL_HEADMAP_LOCK_LOCK = false) :
    Ends (.headmapLock v) s (fun t => flag t F.HDL_HEADMAP_LOCK_LOCK = (headMapError s == 0) ∧
      fld t F.HDL_HEADMAP_LOCK_ERR_CODE = headMapError s) := by
  refine ⟨_, rfl, ?_⟩
  rw [if_pos ⟨asked, unlocked⟩]
  simp (disch := decide) only [setFlds, flag_setFld_same, flag_setFld_other, fld_setFld_same]
  refine ⟨?_, Nat.mod_eq_of_lt (headMapError_lt s)⟩
  cases headMapError s == 0 <;> rfl

theorem headStatus_lt (s : State) (a h : Nat) : headStatus s a h < 256 := by
  unfold headStatus
  split_ifs <;> decide

theorem ends_headSwitchRequest_refused {s : State} {a head : Nat} (ha : a < s.part.acts)
    (refused : headStatus s a (head % 32) ≠ 0) : Ends (.headSwitchRequest a head) s (fun t =>
      fld t F.HDL_HSEL_STATUS a = headStatus s a (head % 32) ∧ hdlOf t a = hdlOf s a) := by
  refine ⟨_, rfl, ?_⟩
  rw [if_pos ha, requestSwitch]
  dsimp only
  rw [if_neg refused]
  exact ⟨(fld_setFld_same _ _ _ _ (by decide)).trans (Nat.mod_eq_of_lt (headStatus_lt ..)), rfl⟩

theorem ends_headSwitchRequest_queued {s : State} {a head : Nat} (ha : a < s.part.acts)
    (mapped : headStatus s a (head % 32) = 0) : Ends (.headSwitchRequest a head) s (fun t =>
      flag t F.HDL_HSEL_PENDING a = true ∧
      (hdlOf t a).switches.map (fun x => x.head) = (hdlOf s a).switches.map (fun x => x.head) ++ [head % 32]) := by
  refine ⟨_, rfl, ?_⟩
  rw [if_pos ha, requestSwitch]
  dsimp only
  rw [if_pos mapped, flag_pspArb, ((portServed_pspArb _ a).port a).heads]
  exact ⟨flag_setFld_same _ _ _ _ (by decide), by simp⟩

/-- What a head switch tells the units of its actuator once the routing is applied (R67, R153, R184, R193, R615). -/
def switchSpread (s : State) (a head : Nat) : State :=
  let t := cteHeadSwitch (svgHeadSwitch (calDropAct s a) a head) a
  hpfPulse (setWrp t a { wrpOf t a with readFrames := (wrpOf t a).readFrames ++ [none] }) a

/-- And the media operation that asked for it (R286). -/
def switchServed (s : State) (a : Nat) (x : HeadSwitch) : State :=
  x.media.elim s fun o => (opAt s o).elim s fun m =>
    if m.phase = .headSwitch then mediaSeek (setOp s o (some { m with phase := .issued })) o a m.track m.offset else s

theorem exec_headSwitchDone {s : State} {a : Nat} {x : HeadSwitch} {rest : List HeadSwitch}
    (hs : (hdlOf s a).switches = x :: rest) (settling : x.settling = true) : exec (.headSwitchDone a) s =
    .next (pspArb (switchServed (switchSpread (raiseSource (setFlds (setHdl s a { hdlOf s a with
      switches := rest, swap := flag s F.HDL_HEADMAP_SWAP x.head }) a
      [(F.HDL_HSEL_STATUS, 0), (F.HDL_HSEL_PENDING, b2n (!rest.isEmpty))]) (668 + a)) a x.head) a x) a) := by
  change execHeadSwitchDone a s = _
  rw [execHeadSwitchDone]
  dsimp only
  rw [hs]
  dsimp only
  rw [if_pos settling, switchServed, switchSpread]
  generalize x.media = media
  cases media with
  | none => simp only [Option.elim_none]
  | some o =>
    simp only [Option.elim_some]
    generalize opAt _ o = m
    cases m with
    | none => simp only [Option.elim_none]
    | some m => simp only [Option.elim_some]

theorem hdlOf_switchSpread (s : State) (a head b : Nat) : hdlOf (switchSpread s a head) b = hdlOf s b := by
  rw [switchSpread, hpfPulse, hdlOf_setPair, hdlOf_setWrp, cteHeadSwitch, hdlOf_setCte, svgHeadSwitch, svgClear,
    hdlOf_setSvg, hdlOf_setSvg, hdlOf_of_unitState (unitState_calDropAct ..)]

theorem keeps_switchSpread (s : State) (a head : Nat) : Keeps [.cal] false s (switchSpread s a head) :=
  ((((keeps_calDropAct ..).andThen (keeps_svgHeadSwitch ..)).andThen (keeps_cteHeadSwitch ..)).trans
    (keeps_setWrp ..)).andThen (keeps_hpfPulse ..)

/-- Serving the media operation is a change of it and of the actuator's context, or none. -/
theorem switchServed_cases {P : State → Prop} {s : State} (a : Nat) (x : HeadSwitch) (same : P s)
    (sought : ∀ o m n k, P (mediaSeek (setOp s o m) o a n k)) : P (switchServed s a x) := by
  unfold switchServed
  cases x.media with
  | none => exact same
  | some o =>
    rw [Option.elim_some]
    cases opAt s o with
    | none => exact same
    | some m =>
      rw [Option.elim_some]
      split
      · exact sought ..
      · exact same

theorem hdlOf_switchServed (s : State) (a : Nat) (x : HeadSwitch) (b : Nat) : hdlOf (switchServed s a x) b = hdlOf s b :=
  switchServed_cases (P := fun t => hdlOf t b = hdlOf s b) a x rfl fun _ _ _ _ => rfl

theorem keeps_switchServed (s : State) (a : Nat) (x : HeadSwitch) : Keeps [] false s (switchServed s a x) :=
  switchServed_cases a x .refl fun _ _ _ _ => (keeps_setOp ..).trans (keeps_mediaSeek ..)

/-- A settled head switch ends (R43, R48). -/
theorem ends_headSwitchDone {s : State} {a : Nat} {x : HeadSwitch} {rest : List HeadSwitch}
    (hs : (hdlOf s a).switches = x :: rest) (settling : x.settling = true) : Ends (.headSwitchDone a) s (fun t =>
      (hdlOf t a).swap = flag s F.HDL_HEADMAP_SWAP x.head ∧ (hdlOf t a).switches.length = rest.length ∧
      fld t F.HDL_HSEL_STATUS a = 0 ∧ flag t F.HDL_HSEL_PENDING a = !rest.isEmpty ∧ pendingBit t (668 + a) = true) := by
  refine ⟨_, exec_headSwitchDone hs settling, ?_⟩
  generalize hu : setFlds _ _ _ = u
  have start : hdlOf u a = { hdlOf s a with switches := rest, swap := flag s F.HDL_HEADMAP_SWAP x.head } ∧
      fld u F.HDL_HSEL_STATUS a = 0 ∧ flag u F.HDL_HSEL_PENDING a = !rest.isEmpty := by
    subst hu
    simp (disch := decide) only [setFlds, fld_setFld_same, fld_setFld_other, flag_setFld_same]
    refine ⟨by simp, rfl, ?_⟩
    cases rest.isEmpty <;> rfl
  obtain ⟨hdl, status, pending⟩ := start
  have port := (portServed_pspArb (switchServed (switchSpread (raiseSource u (668 + a)) a x.head) a x) a).port a
  have regs := ((keeps_switchSpread (raiseSource u (668 + a)) a x.head).andThen (keeps_switchServed _ a x)).andThen
    (keeps_pspArb _ a)
  rw [hdlOf_switchServed, hdlOf_switchSpread, hdlOf_of_unitState (unitState_raiseSource ..), hdl] at port
  have raised : Writes [] u (raiseSource u (668 + a)) := .raiseSource _ _
  have risen : pendingBit (raiseSource u (668 + a)) (668 + a) = true := pendingBit_raiseSource ..
  generalize raiseSource u (668 + a) = v at *
  generalize pspArb _ a = w at *
  refine ⟨port.swap, ?_, ?_, ?_, ?_⟩
  · have lengths := congrArg List.length port.heads
    simpa using lengths
  · rw [fld_eq_of_rd (regs.regs _ _ (by decide)), raised.fld _ _, status]
  · rw [flag, fld_eq_of_rd (regs.regs _ _ (by decide)), ← flag, raised.flag _ _, pending]
  · rw [pendingBit, regs.regs _ _ (by decide)]
    exact risen

/-- Settles O1: a frame's start and end, the preamp's faults, the head map's lock and head switches, each by its own lemma. -/
theorem preampPortAndHeads : Obligations.PreampPortAndHeads := by
  refine ⟨?_, ?_, ?_, ?_, ?_, ?_, ?_, ?_, ?_, ?_⟩
  · exact fun s a v ha go idle free held head fault => ends_pspFrameLaunch ha go idle free held head fault
  · exact fun s a v ha go busy => ⟨_, exec_pspFrameLaunch_busy ha go busy, flag_setFld_same _ _ _ _ (by decide), rfl⟩
  · exact fun s a rdata f _ hf firmware read => ends_pspFrameEnd hf firmware read
  · exact fun s a ha high => ends_preampFault ha high
  · exact fun s a ha => ends_pfltNRelease ha
  · intro s v asked unlocked sound
    obtain ⟨t, e, lock, code⟩ := ends_headmapLock asked unlocked
    exact ⟨t, e, by rw [lock, sound]; rfl, code.trans sound⟩
  · intro s v asked unlocked wrong
    obtain ⟨t, e, lock, code⟩ := ends_headmapLock asked unlocked
    exact ⟨t, e, by rw [lock]; simpa using wrong, code⟩
  · exact fun s a head ha refused => ends_headSwitchRequest_refused ha refused
  · exact fun s a head ha mapped => ends_headSwitchRequest_queued ha mapped
  · exact fun s a x rest _ hs settling => ends_headSwitchDone hs settling

end Sys2Proof.Machine

end

section
-- `decide` waits for the kernel: a thread for each of these proofs would exhaust the memory limit.
set_option Elab.async false

namespace Sys2Proof.Machine

/-! ### The Dilon tag -/

/-- From s to t only the tag port changes. -/
def TagOnly (s t : State) : Prop := t = { s with tag := t.tag }

namespace TagOnly

theorem trans {s t u : State} (h : TagOnly s t) (k : TagOnly t u) : TagOnly s u := by
  rw [TagOnly, k, h]

variable {s t : State} (h : TagOnly s t)
include h

theorem rd (r : Reg) (i : Nat) : Machine.rd t r i = Machine.rd s r i := by
  rw [h]
  rfl

theorem fld (f : Fld) (i : Nat) : Machine.fld t f i = Machine.fld s f i := fld_eq_of_rd (h.rd ..)

theorem flag (f : Fld) (i : Nat) : Machine.flag t f i = Machine.flag s f i := by
  rw [Machine.flag, h.fld, Machine.flag]

theorem pending (n : Nat) : pendingBit t n = pendingBit s n := by
  rw [pendingBit, h.rd, pendingBit]

theorem hdl (b : Nat) : hdlOf t b = hdlOf s b := by
  rw [h]
  rfl

theorem sec : t.sec = s.sec := by rw [h]
theorem flt : t.flt = s.flt := by rw [h]

theorem dirty : tierDirty t = tierDirty s := by rw [tierDirty, h.flag, h.fld, tierDirty]

end TagOnly

theorem tagOnly_sendInc (s : State) (k : Nat) : TagOnly s (sendInc s k) := rfl

theorem tagOnly_startTag (s : State) (c : TagCmd) : TagOnly s (startTag s c) := by
  unfold startTag
  split <;> rfl

theorem tagOnly_tagIdle (s : State) : TagOnly s (tagIdle s) := by
  unfold tagIdle
  split
  · rfl
  · split
    · rfl
    · split <;> rfl

theorem tag_startTag_free {s : State} (c : TagCmd) (h : s.tag.commit = none) :
    (startTag s c).tag = { s.tag with cmd := some c, retryDue := false, retries := 0 } := by
  rw [startTag, h]
  rfl

theorem tag_startTag_commit {s : State} (c : TagCmd) (h : s.tag.commit.isSome = true) :
    (startTag s c).tag = { s.tag with startWaiting := some c } := by
  rw [startTag, if_pos h]

/-- Nothing waits for the port. -/
theorem tagIdle_stays {s : State} (first : s.tag.startWaiting = none) (commit : s.tag.commitWaiting = false) : tagIdle s = s := by
  unfold tagIdle
  rw [first, commit]
  exact ite_self _

/-- What waits for the port leaves the counters. -/
theorem tag_tagIdle (s : State) :
    (tagIdle s).tag.shadow = s.tag.shadow ∧ (tagIdle s).tag.committed = s.tag.committed := by
  unfold tagIdle
  split
  · exact ⟨rfl, rfl⟩
  · split
    · exact ⟨rfl, rfl⟩
    · split <;> exact ⟨rfl, rfl⟩

/-- The state in which an answer is taken: no retry is due. -/
def answered (s : State) : State := { s with tag := { s.tag with retryDue := false } }

/-! The tag's state. -/

theorem unitState_setTagState (s : State) (st reason : Nat) : unitState (setTagState s st reason) = unitState s :=
  (unitState_setReady ..).trans (unitState_ite (unitState_setFlds ..) ((unitState_raiseSource ..).trans (unitState_setFlds ..)))

/-- What setting the tag's state makes of the registers (Table 2.7). -/
structure TagStateSet (s : State) (st reason : Nat) (t : State) : Prop where
  state : fld t F.HDL_TAG_STATUS_STATE = st
  reason : fld t F.HDL_TAG_STATUS_REASON = reason
  ready : flag t F.CKR_READY_HDA = (st == 2)
  regs : Writes [.HDL_TAG_STATUS, .CKR_READY] s t
  raised : fld s F.HDL_TAG_STATUS_STATE ≠ st → pendingBit t 657 = true

theorem tagStateSet (s : State) {st reason : Nat} (hs : st < 8) (hr : reason < 16) :
    TagStateSet s st reason (setTagState s st reason) := by
  unfold setTagState
  extract_lets t u
  have written : fld t F.HDL_TAG_STATUS_STATE = st ∧ fld t F.HDL_TAG_STATUS_REASON = reason := by
    simp (disch := decide) only [t, setFlds, fld_setFld_same, fld_setFld_other]
    exact ⟨Nat.mod_eq_of_lt hs, Nat.mod_eq_of_lt hr⟩
  have status : Writes [.HDL_TAG_STATUS] s t := .setFlds _ _ _
  have reports : Writes [] t u := .ite .refl (.raiseSource _ _)
  have readiness := writes_setReady u F.CKR_READY_HDA 0 (st == 2)
  refine ⟨?_, ?_, ?_, (status.sub.andThen reports).trans readiness.sub, fun changed => ?_⟩
  · rw [readiness.fld _ _, reports.fld _ _, written.1]
  · rw [readiness.fld _ _, reports.fld _ _, written.2]
  · rw [flag_eq_bit _ _ _ rfl]
    exact (bit_setReady _ _ _ _ (by decide)).trans (if_pos rfl)
  · refine (spares_setReady (pl := true) u F.CKR_READY_HDA 0 (st == 2)).pend 657 ?_
    simp only [u, if_neg changed]
    exact pendingBit_raiseSource ..

/-- BLOCKED, whatever waits for the port (Table 2.7): a re-pair's steps fail as AUTH. -/
theorem tagBlock_fields (s : State) {reason : Nat} (kind : Nat) (hr : reason < 16) :
    fld (tagBlock s reason kind) F.HDL_TAG_STATUS_STATE = 3 ∧
    fld (tagBlock s reason kind) F.HDL_TAG_STATUS_REASON = (if fld s F.HDL_TAG_STATUS_STATE = 4 then 2 else reason) ∧
    flag (tagBlock s reason kind) F.CKR_READY_HDA = false := by
  unfold tagBlock
  extract_lets _ t was u
  have blocked : TagStateSet t 3 (if was = 4 then 2 else reason) u := tagStateSet t (by decide) (by split <;> omega)
  have reported : Writes [] u (if was = 1 then sendFault u .hdl 656 kind 6 0 else u) := .ite (.sendFault _ _ _ _ _ _) .refl
  have idle := tagOnly_tagIdle (if was = 1 then sendFault u .hdl 656 kind 6 0 else u)
  rw [idle.fld, idle.fld, idle.flag, reported.fld _ _, reported.fld _ _, reported.flag _ _]
  exact ⟨blocked.state, blocked.reason, blocked.ready⟩

/-- PAIRED, whatever waits for the port (Table 2.7). -/
theorem tagPaired_fields (s : State) : fld (tagPaired s) F.HDL_TAG_STATUS_STATE = 2 ∧
    flag (tagPaired s) F.CKR_READY_HDA = true ∧ ∀ i, rd (tagPaired s) .HDL_LIFE_RATED i = rd s .HDL_LIFE_RATED i := by
  unfold tagPaired
  extract_lets _ t h w
  have paired : TagStateSet t 2 0 (setTagState t 2 0) := tagStateSet t (by decide) (by decide)
  have event : Writes [] (setTagState t 2 0) (evrEvent (setTagState t 2 0) 10 3 657 (w 0) (w 1)) :=
    .of_keeps (keeps_evrEvent (bs := reportBlocks) _ _ _ _ _ _ _ _ .of (by decide))
  have idle := tagOnly_tagIdle (evrEvent (setTagState t 2 0) 10 3 657 (w 0) (w 1))
  refine ⟨?_, ?_, fun i => ?_⟩
  · rw [idle.fld, event.fld _ _, paired.state]
  · rw [idle.flag, event.flag _ _, paired.ready]
    rfl
  · rw [idle.rd, event.regs _ _ (by decide) (by decide), paired.regs.regs _ _ (by decide) (by decide)]
    rfl

/-- A failed check of the certificate chain, the challenge, the counters or the limits blocks (R51, Table 2.6). -/
theorem ends_tagResponse_bad {s : State} {values : List Nat} (due : s.tag.retryDue = false)
    (sent : (s.tag.cmd = some .getCert ∧ 7 ≤ s.tag.chunks) ∨ s.tag.cmd = some .challenge ∨ s.tag.cmd = some .readCtr ∨
      s.tag.cmd = some .readLimits) : Ends (.tagResponse values false) s (fun t =>
      fld t F.HDL_TAG_STATUS_STATE = 3 ∧ fld t F.HDL_TAG_STATUS_REASON = 2 ∧ flag t F.CKR_READY_HDA = false) := by
  have meaning : exec (.tagResponse values false) s =
      .next (tagBlock (answered s) 2 FK.hdaAuth) := by
    change execTagResponse values false s = _
    rw [execTagResponse]
    dsimp only
    rw [if_neg (by simp [due])]
    obtain ⟨cert, last⟩ | challenge | counters | limits := sent
    · rw [cert]
      dsimp only
      rw [if_neg (by omega)]
      rfl
    · rw [challenge]
      rfl
    · rw [counters]
      rfl
    · rw [limits]
      rfl
  obtain ⟨state, reason, ready⟩ := tagBlock_fields (answered s) FK.hdaAuth
    (reason := 2) (by decide)
  exact ⟨_, meaning, state, reason.trans (ite_self _), ready⟩

/-! The steps of Table 2.6, one by one. -/

theorem tget_loadValues (values : List Nat) {k : Nat} (h : k < 5) : tget (dflt 0) (loadValues values) k = values.getD k 0 := by
  simp only [loadValues, show List.range 5 = [0, 1, 2, 3, 4] from rfl, List.foldl]
  interval_cases k <;> simp [tget_tset_ne]

/-- Each of the registers that a list of stores writes reads its own value. -/
theorem rd_each_wr_own {l : List Nat} (hl : l.Nodup) {k : Nat} (hk : k ∈ l) (r : Reg) (v : Nat → Word) (s : State) :
    rd (each l (fun k u => wr u r k (v k)) s) r k = v k := by
  have later (l : List Nat) (h : k ∉ l) (s : State) : rd (each l (fun k u => wr u r k (v k)) s) r k = rd s r k := by
    induction l generalizing s with
    | nil => rfl
    | cons x l ih =>
      obtain ⟨apart, rest⟩ : k ≠ x ∧ k ∉ l := by simpa using h
      exact (ih rest _).trans (rd_wr_ne s _ (.inr apart))
  induction l generalizing s with
  | nil => cases hk
  | cons x l ih =>
    obtain ⟨fresh, rest⟩ := List.nodup_cons.1 hl
    obtain rfl | hk := List.mem_cons.1 hk
    · exact (later l fresh _).trans (rd_wr_same ..)
    · exact ih rest hk _

section Steps

variable {s : State} (due : s.tag.retryDue = false)
include due

theorem ends_tagResponse_getId (values : List Nat) (good : Bool) (sent : s.tag.cmd = some .getId) :
    Ends (.tagResponse values good) s (fun t => t.tag.cmd = some .getCert ∧ t.tag.identity = some (values.getD 0 0) ∧
      t.tag.serial = values.getD 1 0) := by
  refine ⟨_, rfl, ?_⟩
  rw [if_neg (by simp [due]), sent]
  exact ⟨rfl, rfl, rfl⟩

theorem ends_tagResponse_chunk (values : List Nat) (good : Bool) (sent : s.tag.cmd = some .getCert) (more : s.tag.chunks < 7) :
    Ends (.tagResponse values good) s (fun t => t.tag.cmd = some .getCert ∧ t.tag.chunks = s.tag.chunks + 1) := by
  refine ⟨_, rfl, ?_⟩
  rw [if_neg (by simp [due]), sent]
  dsimp only
  rw [if_pos more]
  exact ⟨rfl, rfl⟩

theorem ends_tagResponse_chain (values : List Nat) (sent : s.tag.cmd = some .getCert) (last : 7 ≤ s.tag.chunks) :
    Ends (.tagResponse values true) s (fun t => t.tag.cmd = some .challenge ∧ t.regs = s.regs) := by
  refine ⟨_, rfl, ?_⟩
  rw [if_neg (by simp [due]), sent]
  dsimp only
  rw [if_neg (by omega)]
  exact ⟨rfl, rfl⟩

/-- CHALLENGE answered by an identity that is not the paired one (R54). -/
theorem ends_tagResponse_stranger (values : List Nat) (sent : s.tag.cmd = some .challenge)
    (other : s.sec.pairing = none ∨ s.sec.pairing ≠ s.tag.identity) : Ends (.tagResponse values true) s (fun t =>
      fld t F.HDL_TAG_STATUS_STATE = 3 ∧ flag t F.CKR_READY_HDA = false) := by
  have blocks (reason : Nat) (h : reason < 16) :
      fld (tagBlock (answered s) reason FK.hdaMismatch) F.HDL_TAG_STATUS_STATE = 3 ∧
      flag (tagBlock (answered s) reason FK.hdaMismatch) F.CKR_READY_HDA = false := by
    obtain ⟨state, -, ready⟩ := tagBlock_fields (answered s) FK.hdaMismatch h
    exact ⟨state, ready⟩
  refine ⟨_, rfl, ?_⟩
  rw [if_neg (by simp [due]), sent]
  dsimp only
  rw [if_neg (by simp)]
  by_cases unpaired : s.sec.pairing.isNone = true
  · rw [if_pos unpaired]
    exact blocks _ (by split <;> decide)
  · rw [if_neg unpaired, if_neg (other.resolve_left (by simpa using unpaired))]
    exact blocks _ (by decide)

theorem ends_tagResponse_challenge (values : List Nat) (sent : s.tag.cmd = some .challenge)
    (paired : s.sec.pairing.isSome = true) (same : s.sec.pairing = s.tag.identity) :
    Ends (.tagResponse values true) s (fun t => t.tag.cmd = some .readCtr) := by
  refine ⟨_, rfl, ?_⟩
  rw [if_neg (by simp [due]), sent]
  dsimp only
  rw [if_neg (by simp), if_neg (by simpa [← Option.isSome_iff_ne_none] using paired), if_pos same]
  rfl

theorem ends_tagResponse_counters (values : List Nat) {k : Nat} (sent : s.tag.cmd = some .readCtr) (hk : k < 5) :
    Ends (.tagResponse values true) s (fun t => t.tag.cmd = some .readLimits ∧
      tget (dflt 0) t.tag.committed k = values.getD k 0) := by
  refine ⟨_, rfl, ?_⟩
  rw [if_neg (by simp [due]), sent]
  exact ⟨rfl, tget_loadValues values hk⟩

/-- The limits answered: the tag is PAIRED, with its limits loaded (R57). -/
theorem ends_tagResponse_limits (values : List Nat) (sent : s.tag.cmd = some .readLimits) :
    Ends (.tagResponse values true) s (fun t => fld t F.HDL_TAG_STATUS_STATE = 2 ∧ flag t F.CKR_READY_HDA = true ∧
      (∀ k ∈ List.range 5, rd t .HDL_LIFE_RATED k = BitVec.ofNat 64 (values.getD k 0))) := by
  refine ⟨_, rfl, ?_⟩
  rw [if_neg (by simp [due]), sent]
  dsimp only
  rw [if_pos rfl]
  obtain ⟨state, ready, rated⟩ := tagPaired_fields (each (List.range 5) (fun k u =>
    wr u .HDL_LIFE_RATED k (BitVec.ofNat 64 (values.getD k 0))) (answered s))
  refine ⟨state, ready, fun k hk => (rated k).trans ?_⟩
  exact rd_each_wr_own List.nodup_range hk .HDL_LIFE_RATED (fun k => BitVec.ofNat 64 (values.getD k 0)) _

/-! The answers to INC_CTR. -/

/-- INC_CTR answered with the value its delta asked for (R58). -/
theorem exec_tagResponse_incCtr (values : List Nat) (good : Bool) {k : Nat} (sent : s.tag.cmd = some (.incCtr k)) :
    exec (.tagResponse values good) s =
      .next (incAnswer (answered s) k (values.getD 1 0)) := by
  refine congrArg Host.Outcome.next ((if_neg (by simp [due])).trans ?_)
  rw [sent]
  rfl

end Steps

/-- The counters once INC_CTR of counter k is answered by cur, which asked for d of its delta. -/
def counterTaken (s : State) (k cur d : Nat) : State :=
  { s with tag := { s.tag with
    committed := tset (dflt 0) s.tag.committed k (max (tget (dflt 0) s.tag.committed k) cur)
    shadow := tset (dflt 0) s.tag.shadow k (tget (dflt 0) s.tag.shadow k - d) } }

theorem incAnswer_exact {s : State} {k cur : Nat} (value : cur = tget (dflt 0) s.tag.committed k + s.tag.sent)
    (small : cur < 2 ^ 64) : incAnswer s k cur =
    if k < 4 then sendInc (counterTaken s k cur s.tag.sent) (k + 1) else commitEnd (counterTaken s k cur s.tag.sent) true := by
  have want : cur = min (tget (dflt 0) s.tag.committed k + s.tag.sent) (2 ^ 64 - 1) := by omega
  rw [incAnswer]
  dsimp only
  rw [if_pos want, if_pos want]
  rfl

theorem incAnswer_other {s : State} {k cur : Nat} (above : tget (dflt 0) s.tag.committed k < cur)
    (other : cur ≠ min (tget (dflt 0) s.tag.committed k + s.tag.sent) (2 ^ 64 - 1)) : incAnswer s k cur =
    sendInc (counterTaken s k cur (cur - tget (dflt 0) s.tag.committed k)) k := by
  rw [incAnswer]
  dsimp only
  rw [if_neg other, if_neg other, if_pos above]
  rfl

/-- A commit's end: the port is free and BUSY falls, unless another commit waits (R58). -/
theorem commitEnd_eq (s : State) (ok : Bool) : ∃ t, commitEnd s ok = tagIdle t ∧
    t.tag = { s.tag with cmd := none, retryDue := false, commit := none } ∧
    flag t F.HDL_LIFE_COMMIT_BUSY = s.tag.commitWaiting := by
  unfold commitEnd
  extract_lets _ t u w v
  have busy : flag u F.HDL_LIFE_COMMIT_BUSY = s.tag.commitWaiting := flag_setFlag_same _ _ _ _ (by decide) (by decide)
  have start : u.tag = { s.tag with cmd := none, retryDue := false, commit := none } := rfl
  refine ⟨v, rfl, ?_⟩
  cases ok with
  | true =>
    refine ⟨(tag_of_unitState (unitState_setFld ..)).trans ((tag_of_unitState (unitState_setFlds ..)).trans start), ?_⟩
    refine Eq.trans ?_ busy
    simp only [v, if_pos]
    simp (disch := decide) only [setFlds, flag_setFld_other]
  | false =>
    obtain ⟨reported, units⟩ : Writes [] w v ∧ unitState v = unitState w := by
      rw [show v = _ from if_neg Bool.false_ne_true]
      exact ⟨.ite (.sendFault _ _ _ _ _ _) .refl, unitState_ite (unitState_sendFault ..) rfl⟩
    refine ⟨(tag_of_unitState units).trans start, (reported.flag _ _).trans (Eq.trans ?_ busy)⟩
    simp (disch := decide) only [w, bump, setFlag, flag_setFld_other]

/-- A commit that ends with nothing waiting for the port. -/
theorem commitEnd_fields {s : State} (ok : Bool) (first : s.tag.startWaiting = none) (again : s.tag.commitWaiting = false) :
    (commitEnd s ok).tag = { s.tag with cmd := none, retryDue := false, commit := none } ∧
    flag (commitEnd s ok) F.HDL_LIFE_COMMIT_BUSY = false := by
  obtain ⟨t, e, tag, busy⟩ := commitEnd_eq s ok
  rw [e, tagIdle_stays (by rw [tag, first]) (by rw [tag, again])]
  exact ⟨tag, busy.trans again⟩

/-- A commit's end leaves the counters. -/
theorem commitEnd_counters (s : State) (ok : Bool) : (commitEnd s ok).tag.shadow = s.tag.shadow ∧
    (commitEnd s ok).tag.committed = s.tag.committed := by
  obtain ⟨t, e, tag, -⟩ := commitEnd_eq s ok
  rw [e, (tag_tagIdle t).1, (tag_tagIdle t).2, tag]
  exact ⟨rfl, rfl⟩

/-! Commits that are asked for. -/

/-- A commit asked for with the port idle starts with counter 0 (R58). -/
theorem requestCommit_idle {s : State} (idle : s.tag.commit = none) (rest : tagBusy s = false) :
    requestCommit s = sendInc (setFlag s F.HDL_LIFE_COMMIT_BUSY 0 true) 0 := by
  rw [requestCommit, idle, rest]
  rfl

theorem requestCommit_waits {s : State} (busy : tagBusy s = true) :
    TagOnly (setFlag s F.HDL_LIFE_COMMIT_BUSY 0 true) (requestCommit s) ∧
    (requestCommit s).tag = { s.tag with commitWaiting := true } := by
  rw [requestCommit]
  dsimp only
  rw [if_pos (by simp [busy])]
  exact ⟨rfl, rfl⟩

/-! Re-pairing. -/

/-- The dirty data of the identity last paired discarded (R56). -/
def dirtyDiscarded (s : State) : State :=
  if tierDirty s then
    let u := { s with flt := { s.flt with image := none, erased := s.flt.erased && s.flt.image.isNone } }
    setFld (setFlag (sendFault u .hdl 656 FK.hdaMismatch 6 0) F.FLT_STAT_IMAGE_HELD 0 false) F.CKR_DIRTY_TIER_N 0 0
  else s

theorem acceptRepair_eq (s : State) : acceptRepair s = startTag (setTagState { dirtyDiscarded s with
    sec := { (dirtyDiscarded s).sec with pairing := (dirtyDiscarded s).tag.identity } } 4 0) .readCtr := rfl

theorem dirtyDiscarded_fields (s : State) : (dirtyDiscarded s).tag = s.tag ∧ tierDirty (dirtyDiscarded s) = false ∧
    (tierDirty s = true → (dirtyDiscarded s).flt.image = none) := by
  unfold dirtyDiscarded
  split
  · rename_i dirty
    extract_lets _ u
    have units : unitState (setFld (setFlag (sendFault u .hdl 656 FK.hdaMismatch 6 0) F.FLT_STAT_IMAGE_HELD 0 false)
        F.CKR_DIRTY_TIER_N 0 0) = unitState u :=
      (unitState_setFld ..).trans ((unitState_setFlag ..).trans (unitState_sendFault ..))
    refine ⟨(tag_of_unitState units).trans rfl, ?_, fun _ => by rw [flt_of_unitState units]⟩
    rw [tierDirty]
    simp (disch := decide) only [setFlag, flag_setFld_other, flag_setFld_same, fld_setFld_same]
    rfl
  · rename_i clean
    exact ⟨rfl, by simpa using clean, fun dirty => absurd dirty clean⟩

end Sys2Proof.Machine

end

section
-- `decide` waits for the kernel: a thread for each of these proofs would exhaust the memory limit.
set_option Elab.async false

namespace Sys2Proof.Machine

/-! ### Block reset of HDL -/

/-- An actuator's head switches abandoned: each media seek that asked for one is answered (R61). -/
def switchesAbandoned (s : State) (a : Nat) : State :=
  match (hdlOf s a).switches with
  | [] => s
  | l => each l (fun x u => match x.media with | some o => mediaDone u o 0x45 0 false | none => u)
      (setFlds s a [(F.HDL_HSEL_STATUS, 0x45), (F.HDL_HSEL_PENDING, 0)])

/-- The port of a block reset but for its write run. -/
def portFreed (s : State) (a : Nat) : State :=
  let t := setFlag (switchesAbandoned s a) F.HDL_PSP_CMD_BUSY a false
  let t := setHdl t a { hdlOf s a with
    running := none, switches := [], ptr := 0, faultPending := (hdlOf s a).pfltLow && ((hdlOf s a).faultPending ||
      (match (hdlOf s a).running with | some f => f.who == .faultRead | none => false)) }
  setWrp t a { wrpOf t a with readFrames := [], writeFrame := false }

theorem hdlResetAct_eq (s : State) (a : Nat) : hdlResetAct s a =
    setHdl (wrpCut (portFreed s a) a 0x50) a { hdlOf (wrpCut (portFreed s a) a 0x50) a with wg := false } := rfl

/-- Actuator b's port as a block reset of HDL leaves it (R61). -/
structure PortReset (s : State) (b : Nat) : Prop where
  wg : (hdlOf s b).wg = false
  switches : (hdlOf s b).switches = []
  busy : flag s F.HDL_PSP_CMD_BUSY b = false

theorem unitState_switchesAbandoned (s : State) (a : Nat) : unitState (switchesAbandoned s a) = unitState s := by
  unfold switchesAbandoned
  split
  · rfl
  · refine (unitState_each (fun x u => ?_) ..).trans (unitState_setFlds ..)
    split
    · exact unitState_mediaDone ..
    · rfl

theorem writes_switchesAbandoned (s : State) (a : Nat) : Writes [.HDL_HSEL] s (switchesAbandoned s a) := by
  unfold switchesAbandoned
  split
  · exact .refl
  · refine .trans (.setFlds _ _ _) (.each (fun x u => ?_) _ _)
    split
    · exact .of_keeps (keeps_mediaDone ..)
    · exact .refl

/-- Before its write run ends, a freed port has no switch and BUSY low; another port is as it was. -/
theorem portFreed_fields (s : State) (a b : Nat) :
    ((hdlOf (portFreed s a) b).switches = if b = a then [] else (hdlOf s b).switches) ∧
    (b ≠ a → (hdlOf (portFreed s a) b).wg = (hdlOf s b).wg) ∧
    flag (portFreed s a) F.HDL_PSP_CMD_BUSY b = (if b = a then false else flag s F.HDL_PSP_CMD_BUSY b) := by
  have hdl := hdlOf_of_unitState (unitState_switchesAbandoned s a)
  have regs := writes_switchesAbandoned s a
  unfold portFreed
  extract_lets t _ _ u
  refine ⟨?_, fun apart => ?_, ?_⟩
  · rw [hdlOf_setWrp, hdlOf_setHdl]
    split
    · rfl
    · rw [hdlOf_setFlag, hdl]
  · rw [hdlOf_setWrp, hdlOf_setHdl, if_neg apart, hdlOf_setFlag, hdl]
  · change flag t F.HDL_PSP_CMD_BUSY b = _
    split
    · rename_i e
      rw [e]
      exact flag_setFlag_same _ _ _ _ (by decide) (by decide)
    · rename_i apart
      exact (flag_setFld_apart _ _ (.inl (.inr apart))).trans (regs.flag _ _)

/-- A reset port, with the frames its arbiter then starts. -/
theorem portReset_pspArb {s : State} (a : Nat) {b : Nat} (h : PortReset s b) : PortReset (pspArb s a) b := by
  have served := portServed_pspArb s a
  refine ⟨(served.wg b).trans h.wg, ?_, by rw [flag_pspArb, h.busy]⟩
  have heads := (served.port b).heads
  rw [h.switches] at heads
  exact List.map_eq_nil_iff.1 heads

/-- A block reset's effect on an actuator's port: it is reset, and another stays so. -/
theorem portReset_hdlResetAct {s : State} {a b : Nat} (h : b = a ∨ PortReset s b) : PortReset (hdlResetAct s a) b := by
  obtain ⟨switches, wg, busy⟩ := portFreed_fields s a b
  have cut := runsCut_wrpCut (portFreed s a) a 0x50
  have none : (hdlOf (portFreed s a) b).switches = [] := by
    rw [switches]
    split
    · rfl
    · rename_i apart
      exact (h.resolve_left apart).switches
  have heads := (cut.port b).heads
  rw [none] at heads
  have freed : (hdlOf (wrpCut (portFreed s a) a 0x50) b).switches = [] := List.map_eq_nil_iff.1 heads
  rw [hdlResetAct_eq]
  refine ⟨?_, ?_, ?_⟩
  · rw [hdlOf_setHdl]
    split
    · rfl
    · rename_i apart
      exact cut.wg b ((wg apart).trans (h.resolve_left apart).wg)
  · rw [hdlOf_setHdl]
    split
    · rename_i e
      exact e ▸ freed
    · exact freed
  · rw [flag, fld_setHdl, ← flag, cut.regs.flag _ _, busy]
    split
    · rfl
    · rename_i apart
      exact (h.resolve_left apart).busy

/-- The last part of a block reset: the tag's sequence and a running commit start again (R61). -/
theorem tagOnly_hdlBlockReset (s : State) : TagOnly (each (List.range s.part.acts) (fun a u => pspArb (hdlResetAct u a) a)
    (setFlag s F.CKR_BRST_HDL 0 false)) (hdlBlockReset s) := by
  unfold hdlBlockReset
  generalize each (List.range s.part.acts) _ _ = t
  extract_lets _ _ u v
  have commit : TagOnly t v := by
    simp only [v]
    cases u.tag.commit.isSome <;> rfl
  split
  · exact commit.trans (tagOnly_startTag ..)
  · exact commit.trans (tagOnly_startTag ..)
  · exact commit

/-- A block reset of HDL (R61). -/
theorem ends_hdlBlockReset (s : State) : Ends .hdlBlockReset s (fun t => flag t F.CKR_BRST_HDL = false ∧
    (∀ a ∈ List.range s.part.acts, (hdlOf t a).wg = false ∧ (hdlOf t a).switches = [] ∧
      flag t F.HDL_PSP_CMD_BUSY a = false)) := by
  refine ⟨_, rfl, ?_⟩
  have only := tagOnly_hdlBlockReset s
  have regs : Keeps [.cal, .fcl, .lne, .wrp, .svg, .spn, .hdl] false (setFlag s F.CKR_BRST_HDL 0 false) (each
      (List.range s.part.acts) (fun a u => pspArb (hdlResetAct u a) a) (setFlag s F.CKR_BRST_HDL 0 false)) :=
    keeps_each _ _ (fun a u => (keeps_hdlResetAct u a).andThen (keeps_pspArb ..)) _
  refine ⟨?_, fun a ha => ?_⟩
  · rw [only.flag, flag, fld_eq_of_rd (regs.regs _ _ (by decide)), ← flag]
    exact flag_setFlag_same _ _ _ _ (by decide) (by decide)
  · obtain ⟨wg, switches, busy⟩ : PortReset (each (List.range s.part.acts) (fun a u => pspArb (hdlResetAct u a) a)
        (setFlag s F.CKR_BRST_HDL 0 false)) a :=
      each_reaches (P := fun u => PortReset u a) (fun u => portReset_pspArb a (portReset_hdlResetAct (.inl rfl)))
        (fun b u h => portReset_pspArb b (portReset_hdlResetAct (.inr h))) ha _
    rw [only.hdl, only.flag]
    exact ⟨wg, switches, busy⟩

/-! ### Re-pairing and the commits that are asked for -/

theorem exec_tagRepair_go {s : State} {v : Word} (go : bit v 0 = true) : exec (.tagRepair v) s = .next (
    let t := setFlag s F.HDL_TAG_REPAIR_DISCARD_DIRTY 0 false
    if repairable t && decide (fld t F.SEC_LC_STATE ∈ [1, 3]) &&
        (!tierDirty t || (flag s F.HDL_TAG_REPAIR_DISCARD_DIRTY || bit v 1)) then
      setFld (acceptRepair t) F.HDL_TAG_REPAIR_STATUS 0 0
    else setFld (freshWord t).2 F.HDL_TAG_REPAIR_STATUS 0 ((freshWord t).1.toNat % 255 + 1)) :=
  congrArg Host.Outcome.next (if_neg (by simp [go]))

/-- The conditions of a re-pair once DISCARD_DIRTY is cleared. -/
theorem discardCleared_fields (s : State) (b : Bool) :
    repairable (setFlag s F.HDL_TAG_REPAIR_DISCARD_DIRTY 0 b) = repairable s ∧
    fld (setFlag s F.HDL_TAG_REPAIR_DISCARD_DIRTY 0 b) F.SEC_LC_STATE = fld s F.SEC_LC_STATE ∧
    tierDirty (setFlag s F.HDL_TAG_REPAIR_DISCARD_DIRTY 0 b) = tierDirty s ∧
    fld (setFlag s F.HDL_TAG_REPAIR_DISCARD_DIRTY 0 b) F.HDL_TAG_STATUS_STATE = fld s F.HDL_TAG_STATUS_STATE := by
  simp (disch := decide) only [repairable, tierDirty, setFlag, fld_setFld_other, flag_setFld_other, and_self]

/-- A re-pair that is taken (R54, R56). -/
theorem ends_tagRepair_taken {s : State} {v : Word} (go : bit v 0 = true) (able : repairable s = true)
    (life : fld s F.SEC_LC_STATE = 1 ∨ fld s F.SEC_LC_STATE = 3) (clean : tierDirty s = false ∨ bit v 1 = true)
    (idle : s.tag.commit = none) : Ends (.tagRepair v) s (fun t => fld t F.HDL_TAG_STATUS_STATE = 4 ∧
      t.sec.pairing = s.tag.identity ∧ t.tag.cmd = some .readCtr ∧ fld t F.HDL_TAG_REPAIR_STATUS = 0 ∧
      tierDirty t = false ∧ (tierDirty s = true → t.flt.image = none)) := by
  obtain ⟨able', life', dirty', -⟩ := discardCleared_fields s false
  refine ⟨_, exec_tagRepair_go go, ?_⟩
  extract_lets t
  have taken : (repairable t && decide (fld t F.SEC_LC_STATE ∈ [1, 3]) &&
      (!tierDirty t || (flag s F.HDL_TAG_REPAIR_DISCARD_DIRTY || bit v 1))) = true := by
    have listed : fld t F.SEC_LC_STATE ∈ [1, 3] := by rw [life']; simpa using life
    rw [able', able, dirty']
    obtain h | h := clean <;> simp [h, listed]
  rw [if_pos taken, acceptRepair_eq]
  obtain ⟨tag, none, image⟩ := dirtyDiscarded_fields t
  generalize dirtyDiscarded t = d at *
  let w : State := { d with sec := { d.sec with pairing := d.tag.identity } }
  have set : TagStateSet w 4 0 (setTagState w 4 0) := tagStateSet w (by decide) (by decide)
  have units := unitState_setTagState w 4 0
  have only := tagOnly_startTag (setTagState w 4 0) .readCtr
  have free : (setTagState w 4 0).tag.commit = Option.none := by
    rw [tag_of_unitState units, show w.tag = s.tag from tag]
    exact idle
  have dirty : tierDirty (setTagState w 4 0) = false := by
    rw [tierDirty, set.regs.flag _ _, set.regs.fld _ _]
    exact none
  refine ⟨?_, ?_, ?_, fld_setFld_same _ _ _ _ (by decide), ?_, fun h => ?_⟩
  · rw [fld_setFld_other _ _ _ _ (by decide), only.fld, set.state]
  · change (startTag (setTagState w 4 0) .readCtr).sec.pairing = _
    rw [only.sec, sec_of_unitState units]
    exact congrArg TagPort.identity tag
  · change (startTag (setTagState w 4 0) .readCtr).tag.cmd = _
    rw [tag_startTag_free _ free]
  · rw [tierDirty, flag_setFld_other _ _ _ _ (by decide), fld_setFld_other _ _ _ _ (by decide), ← tierDirty, only.dirty, dirty]
  · change (startTag (setTagState w 4 0) .readCtr).flt.image = _
    rw [only.flt, flt_of_unitState units]
    exact image (dirty'.trans h)

/-- A re-pair that dirty data refuses (R56). -/
theorem ends_tagRepair_dirty {s : State} {v : Word} (go : bit v 0 = true) (dirty : tierDirty s = true)
    (keep : bit v 1 = false) (kept : flag s F.HDL_TAG_REPAIR_DISCARD_DIRTY = false) : Ends (.tagRepair v) s (fun t =>
      fld t F.HDL_TAG_REPAIR_STATUS ≠ 0 ∧ t.flt = s.flt ∧ t.sec.pairing = s.sec.pairing ∧
      fld t F.HDL_TAG_STATUS_STATE = fld s F.HDL_TAG_STATUS_STATE) := by
  obtain ⟨-, -, dirty', state'⟩ := discardCleared_fields s false
  refine ⟨_, exec_tagRepair_go go, ?_⟩
  extract_lets t
  rw [if_neg (by simp [show tierDirty t = true from dirty'.trans dirty, keep, kept])]
  refine ⟨?_, rfl, rfl, ?_⟩
  · rw [fld_setFld_same _ _ _ _ (by decide)]
    have low : (freshWord t).1.toNat % 255 < 255 := Nat.mod_lt _ (by decide)
    exact fun e => absurd (Nat.mod_eq_of_lt (by omega : (freshWord t).1.toNat % 255 + 1 < 2 ^ 8)) (by rw [e]; omega)
  · rw [fld_setFld_other _ _ _ _ (by decide)]
    exact state'

theorem ends_tagRepair_discard {s : State} {v : Word} (still : bit v 0 = false) : Ends (.tagRepair v) s (fun t =>
      flag t F.HDL_TAG_REPAIR_DISCARD_DIRTY = (flag s F.HDL_TAG_REPAIR_DISCARD_DIRTY || bit v 1) ∧ t.tag = s.tag ∧
      t.sec = s.sec) := by
  refine ⟨_, rfl, ?_⟩
  rw [if_pos (by simp [still])]
  exact ⟨flag_setFlag_same _ _ _ _ (by decide) (by decide), rfl, rfl⟩

/-- A commit starts with the port idle (R58). -/
theorem requestCommit_starts {s : State} (idle : s.tag.commit = none) (rest : tagBusy s = false) :
    flag (requestCommit s) F.HDL_LIFE_COMMIT_BUSY = true ∧ (requestCommit s).tag = { s.tag with
      cmd := some (.incCtr 0), retryDue := false, retries := 0, commit := some 0, sent := tget (dflt 0) s.tag.shadow 0 } := by
  rw [requestCommit_idle idle rest, (tagOnly_sendInc _ 0).flag]
  exact ⟨flag_setFlag_same _ _ _ _ (by decide) (by decide), rfl⟩

end Sys2Proof.Machine

end

section
-- `decide` waits for the kernel: a thread for each of these proofs would exhaust the memory limit.
set_option Elab.async false

namespace Sys2Proof.Machine

/-! ### The tag's sequence as a whole -/

/-- AUTHENTICATING as release enters it (R53, R54). -/
def authenticating (s : State) : State :=
  { setFld (setTagState s 1 0) F.HDL_TAG_STATUS_RETRIES 0 0 with
    tag := { s.tag with released := true, chunks := 0, identity := none } }

theorem exec_tagAuthentication {s : State} (unreleased : fld s F.HDL_TAG_STATUS_STATE = 0) :
    exec .tagAuthentication s = .next (startTag (authenticating s) .getId) := by
  have tag : (setFld (setTagState s 1 0) F.HDL_TAG_STATUS_RETRIES 0 0).tag = s.tag :=
    tag_of_unitState ((unitState_setFld ..).trans (unitState_setTagState ..))
  rw [authenticating, ← tag]
  exact congrArg Host.Outcome.next (if_pos unreleased)

theorem authenticating_fields {s : State} (unreleased : fld s F.HDL_TAG_STATUS_STATE = 0) :
    fld (authenticating s) F.HDL_TAG_STATUS_STATE = 1 ∧ fld (authenticating s) F.HDL_TAG_STATUS_RETRIES = 0 ∧
    pendingBit (authenticating s) 657 = true := by
  have set : TagStateSet s 1 0 (setTagState s 1 0) := tagStateSet s (by decide) (by decide)
  have only : TagOnly (setFld (setTagState s 1 0) F.HDL_TAG_STATUS_RETRIES 0 0) (authenticating s) := rfl
  rw [only.fld, only.fld, only.pending, pendingBit, rd_setFld_ne _ _ (.inl (by decide)), ← pendingBit]
  refine ⟨?_, fld_setFld_same _ _ _ _ (by decide), set.raised (by rw [unreleased]; decide)⟩
  rw [fld_setFld_other _ _ _ _ (by decide), set.state]

/-- No response: a missing answer is none where none is awaited (R51). -/
theorem ends_tagNoResponse_none {s : State} (h : s.tag.cmd = none ∨ s.tag.retryDue = true) :
    Ends .tagNoResponse s (fun t => t = s) := by
  refine ⟨_, rfl, ?_⟩
  split
  · rfl
  · rename_i c sent
    exact if_pos (h.resolve_left (by simp [sent]))

theorem ends_tagResponse_none {s : State} (values : List Nat) (good : Bool) (h : s.tag.cmd = none ∨ s.tag.retryDue = true) :
    Ends (.tagResponse values good) s (fun t => t = s) := by
  refine ⟨_, rfl, ?_⟩
  by_cases due : s.tag.retryDue = true
  · exact if_pos due
  · rw [if_neg due, h.resolve_right due]

/-- A command of Table 2.6 that fails its last retry blocks (R51). -/
theorem exec_tagNoResponse_getId {s : State} (sent : s.tag.cmd = some .getId) (due : s.tag.retryDue = false)
    (used : 2 ≤ s.tag.retries) : exec .tagNoResponse s = .next (tagBlock s 1 FK.hdaAuth) := by
  change execTagNoResponse s = _
  rw [execTagNoResponse, sent]
  exact congrArg Host.Outcome.next ((if_neg (by simp [due])).trans (if_neg (by omega)))

/-- INC_CTR that fails its last retry ends the commit (R51, R58). -/
theorem exec_tagNoResponse_incCtr {s : State} {k : Nat} (sent : s.tag.cmd = some (.incCtr k)) (due : s.tag.retryDue = false)
    (used : 2 ≤ s.tag.retries) : exec .tagNoResponse s = .next (commitEnd s false) := by
  change execTagNoResponse s = _
  rw [execTagNoResponse, sent]
  exact congrArg Host.Outcome.next ((if_neg (by simp [due])).trans (if_neg (by omega)))

theorem ends_tagNoResponse_retry {s : State} (sent : s.tag.cmd.isSome = true) (due : s.tag.retryDue = false)
    (left : s.tag.retries < 2) : Ends .tagNoResponse s (fun t => t = { s with tag := { s.tag with retryDue := true } }) := by
  refine ⟨_, rfl, ?_⟩
  obtain ⟨c, sent⟩ := Option.isSome_iff_exists.1 sent
  rw [sent]
  dsimp only
  rw [if_neg (by simp [due]), if_pos left]

theorem ends_tagRetry {s : State} (sent : s.tag.cmd.isSome = true) (due : s.tag.retryDue = true) :
    Ends .tagRetry s (fun t => t.tag.retryDue = false ∧ t.tag.retries = s.tag.retries + 1 ∧ t.tag.cmd = s.tag.cmd) := by
  refine ⟨_, rfl, ?_⟩
  rw [if_pos (by simp [sent, due])]
  dsimp only
  split <;> exact ⟨rfl, rfl, rfl⟩

theorem exec_lifeCommit {s : State} {v : Word} (go : bit v 0 = true) : exec (.lifeCommit v) s = .next (requestCommit s) :=
  congrArg Host.Outcome.next (if_pos go)

/-- The drive time of the last 4 h commit noted (R58). -/
def timerTaken (s : State) : State := { s with tag := { s.tag with lastTimer := now s } }

theorem exec_lifeCommitTimer {s : State} (passed : s.tag.lastTimer + 14400000 ≤ s.ckr.dtime) :
    exec .lifeCommitTimer s = .next (requestCommit (timerTaken s)) := congrArg Host.Outcome.next (if_pos passed)

/-- Settles O2: the steps of Table 2.6, the answers to INC_CTR, retries, re-pairing, the commits asked for and the block reset,
each by its own lemma. -/
theorem tagSequenceAndLifeCommits : Obligations.TagSequenceAndLifeCommits := by
  refine ⟨?_, ?_, ?_, ?_, ?_, ?_, ?_, ?_, ?_, ?_, ?_, ?_, ?_, ?_, ?_, ?_, ?_, ?_, ?_, ?_, ?_, ?_, ?_, ?_, ?_, ?_, ?_⟩
  · intro s unreleased idle
    obtain ⟨state, retries, raised⟩ := authenticating_fields unreleased
    have only := tagOnly_startTag (authenticating s) .getId
    refine ⟨_, exec_tagAuthentication unreleased, ?_⟩
    dsimp only
    rw [only.fld, only.fld, only.pending, tag_startTag_free (s := authenticating s) _ idle]
    exact ⟨state, retries, rfl, rfl, raised⟩
  · intro s unreleased running
    obtain ⟨state, -, -⟩ := authenticating_fields unreleased
    refine ⟨_, exec_tagAuthentication unreleased, ?_⟩
    dsimp only
    rw [(tagOnly_startTag _ _).fld, tag_startTag_commit (s := authenticating s) _ running]
    exact ⟨state, rfl, rfl⟩
  · exact fun s released => ⟨_, rfl, if_neg released⟩
  · exact fun s values good h => ends_tagResponse_none values good h
  · exact fun s h => ends_tagNoResponse_none h
  · exact fun s values good due sent => ends_tagResponse_getId due values good sent
  · exact fun s values good due sent more => ends_tagResponse_chunk due values good sent more
  · exact fun s values due sent last => ends_tagResponse_chain due values sent last
  · exact fun s values due sent => ends_tagResponse_bad due sent
  · intro s values good k due sent hk value small
    refine ⟨_, exec_tagResponse_incCtr due values good sent, ?_⟩
    rw [incAnswer_exact (s := answered s) value small, if_pos hk]
    refine ⟨?_, tget_tset_same .., rfl⟩
    exact (tget_tset_same ..).trans (max_eq_right (value ▸ Nat.le_add_right ..))
  · intro s values good due sent value small first again
    refine ⟨_, exec_tagResponse_incCtr due values good sent, ?_⟩
    rw [incAnswer_exact (s := answered s) value small, if_neg (by decide)]
    obtain ⟨tag, busy⟩ := commitEnd_fields (s := counterTaken (answered s) 4 (values.getD 1 0) (answered s).tag.sent) true
      first again
    rw [tag]
    refine ⟨?_, rfl, rfl, busy⟩
    exact (tget_tset_same ..).trans (max_eq_right (value ▸ Nat.le_add_right ..))
  · intro s values good k due sent above other
    refine ⟨_, exec_tagResponse_incCtr due values good sent, ?_⟩
    rw [incAnswer_other (s := answered s) above other]
    exact ⟨(tget_tset_same ..).trans (max_eq_right above.le), rfl, rfl⟩
  · exact fun s values due sent other => ends_tagResponse_stranger due values sent other
  · exact fun s values k due sent hk => ends_tagResponse_counters due values sent hk
  · exact fun s values due sent paired same => ends_tagResponse_challenge due values sent paired same
  · exact fun s values due sent => ends_tagResponse_limits due values sent
  · exact fun s sent due left => ends_tagNoResponse_retry sent due left
  · intro s sent due used
    obtain ⟨state, -, ready⟩ := tagBlock_fields s FK.hdaAuth (reason := 1) (by decide)
    exact ⟨_, exec_tagNoResponse_getId sent due used, state, ready⟩
  · exact fun s k sent due used => ⟨_, exec_tagNoResponse_incCtr sent due used, commitEnd_counters s false⟩
  · exact fun s sent due => ends_tagRetry sent due
  · exact fun s v go able life clean idle => ends_tagRepair_taken go able life clean idle
  · exact fun s v go dirty keep kept => ends_tagRepair_dirty go dirty keep kept
  · exact fun s v still => ends_tagRepair_discard still
  · intro s v go idle rest
    obtain ⟨busy, tag⟩ := requestCommit_starts idle rest
    refine ⟨_, exec_lifeCommit go, ?_⟩
    dsimp only
    rw [tag]
    exact ⟨busy, rfl, rfl, rfl⟩
  · intro s v go busy
    obtain ⟨only, tag⟩ := requestCommit_waits busy
    refine ⟨_, exec_lifeCommit go, ?_⟩
    dsimp only
    rw [tag, only.flag]
    exact ⟨flag_setFlag_same _ _ _ _ (by decide) (by decide), rfl, rfl⟩
  · intro s passed idle rest
    obtain ⟨busy, tag⟩ := requestCommit_starts (s := timerTaken s) idle rest
    refine ⟨_, exec_lifeCommitTimer passed, ?_⟩
    dsimp only
    rw [tag]
    exact ⟨rfl, rfl, busy⟩
  · exact ends_hdlBlockReset

end Sys2Proof.Machine

end

section
-- `decide` waits for the kernel: a thread for each of these proofs would exhaust the memory limit.
set_option Elab.async false

namespace Sys2Proof.Machine

/-! ### The control engine: states, answers, and the rest of a law tick -/

/-- The state but for the units of the link and the write path and the actuators' contexts. -/
def actuatorState (s : State) : State := { servoState s with cte := [] }

theorem actuatorState_of_servoState {s t : State} (h : servoState t = servoState s) : actuatorState t = actuatorState s := by
  rw [actuatorState, h, actuatorState]

theorem actuatorState_of_unitState {s t : State} (h : unitState t = unitState s) : actuatorState t = actuatorState s :=
  actuatorState_of_servoState (servoState_of_unitState h)

theorem actuatorState_setCte (s : State) (a : Nat) (c : Cte) : actuatorState (setCte s a c) = actuatorState s := rfl

theorem tag_of_actuatorState {s t : State} (h : actuatorState t = actuatorState s) : t.tag = s.tag := (congrArg State.tag h :)
theorem spn_of_actuatorState {s t : State} (h : actuatorState t = actuatorState s) : t.spn = s.spn := (congrArg State.spn h :)
theorem svgOf_of_actuatorState {s t : State} (h : actuatorState t = actuatorState s) (b : Nat) : svgOf t b = svgOf s b := by
  rw [svgOf, svgOf, show t.svg = s.svg from (congrArg State.svg h :)]

theorem cteOf_of_servoState {s t : State} (h : servoState t = servoState s) (b : Nat) : cteOf t b = cteOf s b := by
  rw [cteOf, cteOf, show t.cte = s.cte from (congrArg State.cte h :)]

/-- The registers that the samples, seeks and drive of a law tick change, and the end of a write run with them. -/
def tickRegs : List Reg := .CTE_STAT :: .CTE_SAT :: .CTE_EXT_STAT :: .CTE_CNT :: .CTE_SEEK :: runRegs

/-- From s to t actuator a stays in its state with the part p of its context, and beside the units of the link and the write
path nothing but the registers of a law tick changes. -/
structure TickKept {α : Type} (p : Cte → α) (a : Nat) (s t : State) : Prop where
  part : p (cteOf t a) = p (cteOf s a)
  state : cteState t a = cteState s a
  regs : Writes tickRegs s t
  rest : actuatorState t = actuatorState s

namespace TickKept

variable {α : Type} {p : Cte → α} {a : Nat} {s t u : State}

theorem refl : TickKept p a s s := ⟨rfl, rfl, .refl, rfl⟩

theorem trans (h : TickKept p a s t) (k : TickKept p a t u) : TickKept p a s u :=
  ⟨k.part.trans h.part, k.state.trans h.state, h.regs.trans k.regs, k.rest.trans h.rest⟩

theorem ite {c : Prop} [Decidable c] (h : TickKept p a s t) (k : TickKept p a s u) : TickKept p a s (if c then t else u) := by
  split <;> assumption

/-- Another part of the context changes. -/
theorem setCte (s : State) (c : Cte) (h : p c = p (cteOf s a)) : TickKept p a s (Machine.setCte s a c) :=
  ⟨by rwa [cteOf_setCte_same], rfl, .of_eq rfl rfl, rfl⟩

/-- Registers other than the actuator's state, or a report. -/
theorem report {l : List Reg} (h : unitState t = unitState s) (w : Writes l s t) (hl : l ⊆ tickRegs := by decide)
    (hs : cteState t a = cteState s a) : TickKept p a s t :=
  ⟨by rw [cteOf_of_unitState h], hs, w.sub hl, actuatorState_of_unitState h⟩

/-- A field of a register of the law tick other than STATE. -/
theorem setFld (s : State) (f : Fld) (i v : Nat) (hf : f.reg ∈ tickRegs := by decide)
    (h : F.CTE_STAT_STATE.reg ≠ f.reg ∨ F.CTE_STAT_STATE.lo + F.CTE_STAT_STATE.w ≤ f.lo ∨
      f.lo + f.w ≤ F.CTE_STAT_STATE.lo := by decide) : TickKept p a s (Machine.setFld s f i v) :=
  .report (l := tickRegs) (unitState_setFld ..) (.setFld _ _ _ _ hf) (List.Subset.refl _) (fld_setFld_other _ _ _ _ h)

end TickKept

/-- The off-track flag rises: the actuator's write run is cut (R198). -/
theorem tickKept_raiseOt {α : Type} {p : Cte → α} (hp : ∀ c : Cte, p { c with cleanRun := 0 } = p c) (s : State) (a : Nat) :
    TickKept p a s (raiseOt s a) := by
  unfold raiseOt
  extract_lets _ t
  have flagged : TickKept p a s t := .trans (.setCte _ _ (hp _)) (.setFld _ _ _ _)
  have cut := runsCut_wrpCut t a 0x50
  exact flagged.trans ⟨by rw [cteOf_of_servoState cut.rest], cut.regs.fld _ _, cut.regs.sub,
    actuatorState_of_servoState cut.rest⟩

theorem tickKept_recordSats {α : Type} {p : Cte → α} (s : State) (a : Nat) (x : Sats) :
    TickKept p a s (recordSats s a x) := by
  have units : unitState (recordSats s a x) = unitState s :=
    unitState_ite rfl (unitState_ite ((unitState_sendFault ..).trans (unitState_wr ..)) (unitState_wr ..))
  have regs : Writes [.CTE_SAT] s (recordSats s a x) :=
    .ite .refl (.trans (.wr _ _ _ _) (.ite (.sendFault _ _ _ _ _ _) .refl))
  exact .report units regs (by decide) (regs.fld _ _)

/-- What of a context the rest of a law tick leaves before its drive. -/
def phaseRequestSet (c : Cte) : Nat × Option CteCmd × Nat := (c.phase, c.cmdReq, c.active)

theorem tickKept_trajectory (s : State) (a : Nat) : TickKept phaseRequestSet a s (trajectory s a) := by
  unfold trajectory
  extract_lets c st d v v' m w
  have moved : TickKept phaseRequestSet a s (setCte s a { c with rv := w, rp := c.rp + w }) := .setCte _ _ rfl
  exact .ite (.setCte _ _ rfl) (.ite (moved.trans ⟨rfl, rfl, .of_eq rfl rfl, rfl⟩) .refl)

theorem tickKept_cteSample (s : State) (a : Nat) (x : Option Sample) : TickKept phaseRequestSet a s (cteSample s a x) := by
  unfold cteSample
  extract_lets u c g st valid lin pes y e scale m set meas r o sup above run run' ec bad sumOk t t₁ t₂
  have sampled : TickKept phaseRequestSet a s t := (tickKept_trajectory s a).trans (.setCte _ _ rfl)
  have written : TickKept phaseRequestSet a s t₁ := sampled.trans (.trans (.setFld _ _ _ _) (.setFld _ _ _ _))
  have saturated : TickKept phaseRequestSet a s t₂ := written.trans (tickKept_recordSats ..)
  exact .ite (saturated.trans (tickKept_raiseOt (fun _ => rfl) _ _)) saturated

theorem tickKept_tickSample (s : State) (a : Nat) : TickKept phaseRequestSet a s (tickSample s a) := by
  unfold tickSample
  extract_lets c
  split
  · exact (tickKept_cteSample ..).trans (.setCte _ _ rfl)
  · exact .setCte _ _ rfl

theorem tickKept_extSample (s : State) (a ain : Nat) : TickKept phaseRequestSet a s (extSample s a ain) := by
  unfold extSample
  extract_lets t
  have taken : TickKept phaseRequestSet a s t := by
    simp only [t]
    cases fld s F.CTE_EXT_CTL_ACT == a
    · exact .refl
    · exact .setFld _ _ _ _
  exact .ite (taken.trans (.setCte _ _ rfl)) taken

/-- What of a context a law tick leaves once its transition is made. -/
def phaseAndRequest (c : Cte) : Nat × Option CteCmd := (c.phase, c.cmdReq)

theorem TickKept.weaken {α β : Type} {p : Cte → α} {q : Cte → β} {a : Nat} {s t : State} (h : TickKept p a s t)
    (f : α → β) (e : ∀ c, q c = f (p c)) : TickKept q a s t :=
  ⟨by rw [e, e, h.part], h.state, h.regs, h.rest⟩

theorem TickKept.phase {a : Nat} {s t : State} (h : TickKept phaseAndRequest a s t) : (cteOf t a).phase = (cteOf s a).phase :=
  congrArg Prod.fst h.part

theorem TickKept.cmdReq {a : Nat} {s t : State} (h : TickKept phaseAndRequest a s t) : (cteOf t a).cmdReq = (cteOf s a).cmdReq :=
  congrArg Prod.snd h.part

theorem TickKept.active {a : Nat} {s t : State} (h : TickKept phaseRequestSet a s t) : (cteOf t a).active = (cteOf s a).active :=
  congrArg (fun x => x.2.2) h.part

theorem tickKept_selectSet (s : State) (a : Nat) : TickKept phaseAndRequest a s (selectSet s a) := .setCte _ _ rfl

theorem tickKept_lawDrive (s : State) (a : Nat) : TickKept phaseAndRequest a s (lawDrive s a) := by
  unfold lawDrive
  extract_lets c set ns sh st seeking esc target rp rv v m mask nv nm uv t
  have sent : TickKept phaseAndRequest a s t := .setCte _ _ (by dsimp only [phaseAndRequest])
  exact .ite (sent.trans (tickKept_recordSats ..)) (.setCte _ _ rfl)

theorem tickKept_settleCount (s : State) (a : Nat) : TickKept phaseAndRequest a s (settleCount s a) := .setCte _ _ rfl

theorem vcm_settleCount (s : State) (a : Nat) : (cteOf (settleCount s a) a).vcm = (cteOf s a).vcm := by
  rw [settleCount, cteOf_setCte_same]

/-- The state of a law tick once its transition is made and its coefficient set selected, and its sample taken. -/
def tickSampled (s : State) (a ain : Nat) : State := tickSample (selectSet (extSample s a ain) a) a

theorem tickKept_tickSampled (s : State) (a ain : Nat) : TickKept phaseAndRequest a s (tickSampled s a ain) :=
  (((tickKept_extSample ..).weaken (fun x => (x.1, x.2.1)) fun _ => rfl).trans (tickKept_selectSet ..)).trans
    ((tickKept_tickSample ..).weaken (fun x => (x.1, x.2.1)) fun _ => rfl)

/-- The rest of a law tick after its transition (R192). -/
theorem tickKept_afterTransition (s : State) (a ain : Nat) :
    TickKept phaseAndRequest a s (settleCount (lawDrive (tickSampled s a ain) a) a) :=
  ((tickKept_tickSampled ..).trans (tickKept_lawDrive ..)).trans (tickKept_settleCount ..)

/-- With no calibration result pending, a boundary leaves all as it is. -/
theorem calBoundary_none {s : State} (p : Nat → Bool) (h : s.cal.pending = []) : calBoundary s p = s := by
  have same : { s with cal := { s.cal with pending := [] } } = s := by rw [← h]
  rw [calBoundary, h]
  exact same

/-- A law boundary of a present actuator with no calibration result pending. -/
theorem exec_lawTick {s : State} {a : Nat} (ain : Nat) (ha : a < s.part.acts) (h : s.cal.pending = []) :
    exec (.lawTick a ain) s =
      .next (settleCount (lawDrive (tickSampled (transitions (applyWrites s a) a) a ain) a) a) := by
  refine congrArg Host.Outcome.next ((if_pos ha).trans ?_)
  rw [calBoundary_none _ h]
  rfl

/-- Every law tick ends with what its transition made (R192). -/
theorem ends_lawTick {s : State} {a : Nat} (ain : Nat) (ha : a < s.part.acts) (h : s.cal.pending = []) {P : State → Prop}
    (after : ∀ t, TickKept phaseAndRequest a (transitions (applyWrites s a) a) t → P t) : Ends (.lawTick a ain) s P :=
  ⟨_, exec_lawTick ain ha h, after _ (tickKept_afterTransition ..)⟩

end Sys2Proof.Machine

end

section
-- `decide` waits for the kernel: a thread for each of these proofs would exhaust the memory limit.
set_option Elab.async false

namespace Sys2Proof.Machine

/-! ### Transitions of a law boundary -/

/-- The registers that a change of an actuator's state changes. -/
def stateRegs : List Reg := .CKR_READY :: tickRegs

/-- What entering a state other than FOLLOW and EXT leaves (R193, R198, R607). -/
structure StateEntered (s : State) (a st : Nat) (t : State) : Prop where
  state : cteState t a = st
  cte : { cteOf t a with cleanRun := 0 } = { cteOf s a with due := none, cleanRun := 0 }
  regs : Writes stateRegs s t
  rest : actuatorState t = actuatorState s

theorem stateEntered_setCteState (s : State) (a : Nat) {st : Nat} (small : st < 16) (track : ¬ (st = stFollow ∨ st = stExt)) :
    StateEntered s a st (setCteState s a st) := by
  unfold setCteState
  extract_lets u c t on v
  rw [if_neg (by simpa [on] using track)]
  have dropped : unitState u = unitState s := unitState_ite (unitState_calDropAct ..) rfl
  have drops : Writes calRegs s u := .ite (writes_calDrop ..) .refl
  have ready := unitState_setReady t F.CKR_READY_ACT a on
  have readies := writes_setReady t F.CKR_READY_ACT a on
  have stored : Writes [.CTE_STAT] u t := .trans (.of_eq rfl rfl : Writes _ u (setCte u a { c with due := none }))
    (.setFld _ _ _ _)
  have raised := tickKept_raiseOt (p := fun c : Cte => { c with cleanRun := 0 }) (fun _ => rfl) v a
  refine ⟨?_, ?_, ?_, ?_⟩
  · rw [raised.state, cteState, readies.fld _ _]
    exact (fld_setFld_same _ _ _ _ (by decide)).trans (Nat.mod_eq_of_lt small)
  · refine raised.part.trans ?_
    have same : c = cteOf s a := cteOf_of_unitState dropped a
    dsimp only
    rw [cteOf_of_unitState ready, cteOf_setFld, cteOf_setCte_same, same]
  · exact ((drops.sub.andThen stored).andThen readies).andThen raised.regs
  · have moved : actuatorState t = actuatorState u :=
      (actuatorState_of_unitState (unitState_setFld ..)).trans (actuatorState_setCte ..)
    exact raised.rest.trans ((actuatorState_of_unitState ready).trans (moved.trans (actuatorState_of_unitState dropped)))

/-! Answers. -/

theorem cmdDone_fields (s : State) (a : Nat) {status : Nat} (small : status < 256) :
    fld (cmdDone s a status) F.CTE_CMD_STATUS a = status ∧ flag (cmdDone s a status) F.CTE_CMD_BUSY a = false ∧
    unitState (cmdDone s a status) = unitState s ∧ Writes [.CTE_CMD] s (cmdDone s a status) := by
  unfold cmdDone
  have reported : Writes [] (setFlds s a [(F.CTE_CMD_STATUS, status), (F.CTE_CMD_BUSY, 0)])
      (raiseSource (setFlds s a [(F.CTE_CMD_STATUS, status), (F.CTE_CMD_BUSY, 0)]) (592 + a)) := .raiseSource _ _
  refine ⟨?_, ?_, (unitState_raiseSource ..).trans (unitState_setFlds ..), .trans (.setFlds _ _ _) reported.sub⟩
  · rw [reported.fld _ _]
    simp (disch := decide) only [setFlds, fld_setFld_same, fld_setFld_other]
    exact Nat.mod_eq_of_lt small
  · rw [reported.flag _ _]
    simp (disch := decide) only [setFlds, flag_setFld_same]
    rfl

theorem tickKept_seekDone {α : Type} {p : Cte → α} (s : State) (a : Nat) (q : SeekReq) (status : Nat) :
    TickKept p a s (seekDone s a q status) := by
  unfold seekDone
  extract_lets t u
  have counted : unitState t = unitState s ∧ Writes [.CTE_CNT, .CTE_SEEK] s t := by
    simp only [t]
    split
    · exact ⟨unitState_bump .., .bump _ _ _ _⟩
    · exact ⟨unitState_bump .., .bump _ _ _ _⟩
    · exact ⟨unitState_bump .., .bump _ _ _ _⟩
    · exact ⟨rfl, .refl⟩
  have answered : unitState u = unitState t ∧ Writes [.CTE_CNT, .CTE_SEEK] t u := by
    simp only [u]
    split
    · exact ⟨unitState_mediaDone .., writes_mediaDone ..⟩
    · exact ⟨unitState_setFlds .., .setFlds _ _ _⟩
  have regs : Writes [.CTE_CNT, .CTE_SEEK] s (raiseSource u (592 + a)) :=
    (counted.2.trans answered.2).trans (.raiseSource _ _)
  exact .report ((unitState_raiseSource ..).trans (answered.1.trans counted.1)) regs (by decide) (regs.fld _ _)

theorem tickKept_endSeek {α : Type} {p : Cte → α} (hp : ∀ c : Cte, p { c with seek := none } = p c) (s : State)
    (a status : Nat) : TickKept p a s (endSeek s a status) := by
  unfold endSeek
  split
  · exact .trans (.setCte _ _ (hp _)) (tickKept_seekDone ..)
  · exact .refl

/-- With no command waiting, the requests that unloading outranks are seeks alone (R194). -/
theorem tickKept_abortRequests {s : State} {a : Nat} (h : (cteOf s a).cmdReq = none) :
    TickKept Cte.cmdReq a s (abortRequests s a) := by
  have seeks (l : List SeekReq) (t : State) : TickKept Cte.cmdReq a t (each l (fun q u => seekDone u a q 0x61) t) := by
    induction l generalizing t with
    | nil => exact .refl
    | cons q l ih => exact (tickKept_seekDone ..).trans (ih _)
  rw [abortRequests, h]
  exact .trans (.setCte _ _ h.symm) (seeks _ _)

/-- UNLOADING entered out of a state other than HOLD, with no command pending (R193, R207). -/
theorem enterUnload_fields {s : State} {a : Nat} (cmd : (cteOf s a).cmd = none) (req : (cteOf s a).cmdReq = none)
    (st : cteState s a ≠ stHold) : cteState (enterUnload s a) a = stUnloading ∧
    (cteOf (enterUnload s a) a).phase = (if (svgOf s a).trkValid then 0 else 1) ∧
    (cteOf (enterUnload s a) a).cmdReq = none ∧ Writes stateRegs s (enterUnload s a) := by
  unfold enterUnload
  extract_lets left t₁ t₂ t₃ closed t₄ c t₅ t₆
  have answered : TickKept (fun c : Cte => (c.cmd, c.cmdReq)) a s t₁ := tickKept_endSeek (fun _ => rfl) _ _ _
  obtain ⟨noCmd, noReq⟩ : (cteOf t₁ a).cmd = none ∧ (cteOf t₁ a).cmdReq = none := by
    simpa [cmd, req] using answered.part
  have none : t₂ = t₁ := by simp only [t₂, endCmd, noCmd]
  have aborted : TickKept Cte.cmdReq a t₁ t₃ := by
    simp only [t₃, none]
    exact tickKept_abortRequests noReq
  have known : closed = (svgOf s a).trkValid := by
    have same : svgOf t₃ a = svgOf s a := svgOf_of_actuatorState (aborted.rest.trans answered.rest) a
    simp only [closed, same]
    rw [decide_eq_true (p := left ≠ stHold) st, Bool.and_true]
  have counted : unitState t₆ = unitState t₅ ∧ Writes tickRegs t₅ t₆ :=
    ⟨unitState_when (fun _ => unitState_bump ..) .., .when (fun _ => .bump _ _ _ _) _ _⟩
  have entered := stateEntered_setCteState (setFld t₆ F.CTE_STAT_HOLD_CAUSE a 0) a (st := stUnloading) (by decide) (by decide)
  have context : cteOf (setFld t₆ F.CTE_STAT_HOLD_CAUSE a 0) a = cteOf t₅ a := cteOf_of_unitState counted.1 a
  have before : Writes tickRegs s t₅ := (answered.regs.trans aborted.regs).trans
    (.of_keeps ((keeps_startTrajectory t₃ a).trans (keeps_setCte ..)))
  refine ⟨entered.state, ?_, ?_, (before.sub.andThen counted.2).trans (.trans (.setFld _ _ _ _) entered.regs)⟩
  · have phase := congrArg Cte.phase entered.cte
    rw [← known, phase, context]
    simp [t₅]
  · have waiting := congrArg Cte.cmdReq entered.cte
    rw [waiting, context]
    simpa [t₅, c, t₄, startTrajectory] using aborted.part.trans noReq

end Sys2Proof.Machine

end

section
-- `decide` waits for the kernel: a thread for each of these proofs would exhaust the memory limit.
set_option Elab.async false

namespace Sys2Proof.Machine

/-! ### Loading and unloading -/

/-- A transition of Table 6.6 whose condition waits, where nothing outranks it. -/
theorem transitions_due {s : State} {a : Nat} {d : CteDue} (unload : unloadDue s a = false) (hold : (cteOf s a).hold = none)
    (due : (cteOf s a).due = some d) (stands : dueStands s a d = true) : transitions s a = dueAction s a d := by
  unfold transitions
  extract_lets st c v
  rw [if_neg (by simp [unload]), if_neg (by simp [unload]), show c.hold = none from hold,
    show c.due.filter (dueStands s a) = some d by rw [show c.due = some d from due, Option.filter_some, if_pos stands]]

/-- The context of a LOAD that is taken. -/
def loadTaken (c : Cte) : Cte := { c with slipped := false, ptr := grantNext 3 2, cmdReq := none }

/-- A command that waits alone is taken (R194). -/
theorem takeRequest_cmd {s : State} {a : Nat} {x : CteCmd} (media : (cteOf s a).mediaReq = []) (fw : (cteOf s a).fwReq = none)
    (cmd : (cteOf s a).cmdReq = some x) :
    takeRequest s a = takeCmd (setCte s a { cteOf s a with ptr := grantNext 3 2, cmdReq := none }) a x := by
  unfold takeRequest
  extract_lets c req
  have granted : grant 3 c.ptr req = some 2 := by
    refine grant_only _ (by decide) (by simp [req, c, cmd]) fun j low asks => ?_
    obtain rfl | rfl | rfl : j = 0 ∨ j = 1 ∨ j = 2 := by omega
    · simp [req, c, media] at asks
    · simp [req, c, fw] at asks
    · rfl
  rw [granted]
  dsimp only
  rw [show c.mediaReq = [] from media, show c.fwReq = none from fw, show c.cmdReq = some x from cmd]
  rfl

/-- A LOAD that waits on a parked actuator is taken (R193). -/
theorem transitions_load {s : State} {a : Nat} (parked : cteState s a = stParked) (unload : unloadDue s a = false)
    (hold : (cteOf s a).hold = none) (due : (cteOf s a).due = none) (media : (cteOf s a).mediaReq = [])
    (fw : (cteOf s a).fwReq = none) (load : (cteOf s a).cmdReq = some .load) :
    ∃ t, transitions s a = takeCmd t a .load ∧ cteOf t a = loadTaken (cteOf s a) ∧ actuatorState t = actuatorState s ∧
      ∀ f i, fld t f i = fld s f i := by
  have asked : transitions s a = takeRequest (setCte s a { cteOf s a with slipped := false }) a := by
    unfold transitions
    extract_lets st c v
    have isParked : st = 0 := parked
    rw [if_neg (by simp [unload]), if_neg (by simp [unload]), show c.hold = none from hold,
      show c.due.filter (dueStands s a) = none by rw [show c.due = none from due, Option.filter_none]]
    dsimp only
    simp [isParked]
  let u := setCte s a { cteOf s a with slipped := false }
  have context : cteOf u a = { cteOf s a with slipped := false } := cteOf_setCte_same ..
  refine ⟨_, asked.trans (takeRequest_cmd (s := u) (by rw [context, media]) (by rw [context, fw]) (by rw [context, load])),
    ?_, (actuatorState_setCte ..).trans (actuatorState_setCte ..), fun f i => (fld_setCte ..).trans (fld_setCte ..)⟩
  rw [cteOf_setCte_same, context]
  rfl

theorem fld_applyWrites (s : State) (a : Nat) (f : Fld) (i : Nat) : fld (applyWrites s a) f i = fld s f i := fld_setCte ..

/-- What a law boundary's transition sees once the writes are applied. -/
theorem applyWrites_keeps (s : State) (a : Nat) : cteState (applyWrites s a) a = cteState s a ∧
    unloadDue (applyWrites s a) a = unloadDue s a ∧ cteOf (applyWrites s a) a = { cteOf s a with late := [] } := by
  have context : cteOf (applyWrites s a) a = { cteOf s a with late := [] } := cteOf_setCte_same ..
  refine ⟨rfl, ?_, context⟩
  rw [unloadDue, context]
  rfl

/-- A LOAD on a parked actuator without a paired HDA (R57, R206). -/
theorem ends_lawTick_unpaired {s : State} {a : Nat} (ain : Nat) (ha : a < s.part.acts) (parked : cteState s a = stParked)
    (unload : unloadDue s a = false) (hold : (cteOf s a).hold = none) (media : (cteOf s a).mediaReq = [])
    (fw : (cteOf s a).fwReq = none) (load : (cteOf s a).cmdReq = some .load) (cal : s.cal.pending = [])
    (due : (cteOf s a).due = none) (unpaired : paired s = false) : Ends (.lawTick a ain) s (fun t =>
      cteState t a = stParked ∧ fld t F.CTE_CMD_STATUS a = 0x5A ∧ flag t F.CTE_CMD_BUSY a = false) := by
  obtain ⟨state', unload', context⟩ := applyWrites_keeps s a
  obtain ⟨u, taken, -, -, same⟩ := transitions_load (state'.trans parked) (unload'.trans unload) (by rw [context, hold])
    (by rw [context, due]) (by rw [context, media]) (by rw [context, fw]) (by rw [context, load])
  have same (f : Fld) (i : Nat) : fld u f i = fld s f i := (same f i).trans (fld_applyWrites ..)
  have refused : takeCmd u a .load = cmdDone u a 0x5A := by
    rw [takeCmd]
    exact if_pos (by simpa [paired, same] using unpaired)
  obtain ⟨status, busy, -, done⟩ := cmdDone_fields u a (status := 0x5A) (by decide)
  refine ends_lawTick ain ha cal fun t kept => ?_
  rw [taken, refused] at kept
  refine ⟨?_, ?_, ?_⟩
  · rw [kept.state, cteState, done.fld _ _, same]
    exact parked
  · rw [kept.regs.fld _ _, status]
  · rw [kept.regs.flag _ _, busy]

/-- The actuator with a LOAD in progress and its load cycle counted (R57, R153). -/
def loadBegun (s : State) (a : Nat) : State :=
  let t := setCte s a { cteOf s a with cmd := some .load, sumRun := 0 }
  lifeAdd (setWrp t a { wrpOf t a with lastTrack := none }) 0 1

theorem loadBegun_fields (s : State) (a : Nat) :
    cteOf (loadBegun s a) a = { cteOf s a with cmd := some .load, sumRun := 0 } ∧
    tget (dflt 0) (loadBegun s a).tag.shadow 0 = tget (dflt 0) s.tag.shadow 0 + 1 ∧
    (∀ f i, fld (loadBegun s a) f i = fld s f i) ∧ (loadBegun s a).spn = s.spn := by
  unfold loadBegun
  extract_lets c t w
  have counted (u : State) : tget (dflt 0) (lifeAdd u 0 1).tag.shadow 0 = tget (dflt 0) u.tag.shadow 0 + 1 := by
    simp only [lifeAdd, tget_tset_same]
  have context (u : State) : cteOf (lifeAdd u 0 1) a = cteOf u a := rfl
  have regs (u : State) (f : Fld) (i : Nat) : fld (lifeAdd u 0 1) f i = fld u f i := rfl
  have spindle (u : State) (c : Cte) (w : WrpAct) : (lifeAdd u 0 1).spn = u.spn ∧ (setWrp u a w).spn = u.spn ∧
    (setCte u a c).spn = u.spn := ⟨rfl, rfl, rfl⟩
  rw [counted, context, cteOf_setWrp]
  exact ⟨cteOf_setCte_same .., rfl, fun f i => (regs ..).trans ((fld_setWrp ..).trans (fld_setCte ..)),
    (spindle _ {} {}).1.trans ((spindle t {} _).2.1.trans (spindle s _ {}).2.2)⟩

/-- A LOAD that is accepted enters LOADING (R57, R206). -/
theorem takeCmd_load {s : State} {a : Nat} (pair : paired s = true) (parked : cteState s a = stParked)
    (locked : spindleLocked s = true) : takeCmd s a .load = setCteState (loadBegun s a) a stLoading := by
  rw [takeCmd]
  dsimp only
  rw [if_neg (by simp [pair]), if_neg (by simp [parked]), if_neg (by simp [locked])]
  rfl

/-- The VCM code of a law tick in LOADING (R189, R206). -/
theorem vcm_lawDrive_loading {s : State} {a : Nat} (loading : cteState s a = stLoading) (active : (cteOf s a).active < 8)
    (retract : s.spn.retract = none) (short : Nat.testBit (fld s F.PWS_FAULT_VCM_SHORT) a = false) :
    (cteOf (lawDrive s a) a).vcm = signed 16 (fld s F.CTE_LOAD_LOAD_I a) := by
  have driven : driveCode s a = some (signed 16 (fld s F.CTE_LOAD_LOAD_I a)) := by
    rw [driveCode, loading]
    rfl
  unfold lawDrive
  extract_lets c set ns sh st seeking esc target rp rv v m mask nv nm uv t
  rw [if_pos active, (tickKept_recordSats (p := Cte.vcm) t a _).part, cteOf_setCte_same]
  have code : uv = signed 16 (fld s F.CTE_LOAD_LOAD_I a) * 65536 := by simp only [uv, driven]
  dsimp only
  rw [vcmTaken, retract, if_neg (by simp), if_neg (by simp [short]), code]
  exact Int.mul_ediv_cancel _ (by decide)

theorem active_tickSampled (s : State) (a ain : Nat) (loading : cteState s a = stLoading) :
    (cteOf (tickSampled s a ain) a).active = fld s F.CTE_MODESET_HOLD a := by
  have ext := tickKept_extSample s a ain
  have chosen : setFor (extSample s a ain) a = fld (extSample s a ain) F.CTE_MODESET_HOLD a := by
    rw [setFor, ext.state, loading]
    rfl
  rw [tickSampled, (tickKept_tickSample ..).active, selectSet, cteOf_setCte_same]
  exact chosen.trans (ext.regs.fld _ _)

/-- A LOAD on a parked actuator of a paired HDA, with the spindle locked (R57, R206). -/
theorem ends_lawTick_load {s : State} {a : Nat} (ain : Nat) (ha : a < s.part.acts) (parked : cteState s a = stParked)
    (unload : unloadDue s a = false) (hold : (cteOf s a).hold = none) (media : (cteOf s a).mediaReq = [])
    (fw : (cteOf s a).fwReq = none) (load : (cteOf s a).cmdReq = some .load) (cal : s.cal.pending = [])
    (due : (cteOf s a).due = none) (pair : paired s = true) (locked : spindleLocked s = true)
    (retract : s.spn.retract = none) (short : Nat.testBit (fld s F.PWS_FAULT_VCM_SHORT) a = false) :
    Ends (.lawTick a ain) s (fun t => cteState t a = stLoading ∧
      (cteOf t a).vcm = signed 16 (fld s F.CTE_LOAD_LOAD_I a) ∧
      tget (dflt 0) t.tag.shadow 0 = tget (dflt 0) s.tag.shadow 0 + 1 ∧ (cteOf t a).cmdReq = none) := by
  obtain ⟨state', unload', context⟩ := applyWrites_keeps s a
  obtain ⟨u, taken, context', rest, same⟩ := transitions_load (state'.trans parked) (unload'.trans unload)
    (by rw [context, hold]) (by rw [context, due]) (by rw [context, media]) (by rw [context, fw]) (by rw [context, load])
  have same (f : Fld) (i : Nat) : fld u f i = fld s f i := (same f i).trans (fld_applyWrites ..)
  have rest : actuatorState u = actuatorState s := rest
  have begun : takeCmd u a .load = setCteState (loadBegun u a) a stLoading :=
    takeCmd_load (by rw [paired, same]; exact pair) (by rw [cteState, same]; exact parked)
      (by rw [spindleLocked, flag, same]; exact locked)
  have entered := stateEntered_setCteState (loadBegun u a) a (st := stLoading) (by decide) (by decide)
  refine ⟨_, exec_lawTick ain ha cal, ?_⟩
  rw [taken, begun]
  obtain ⟨progress, loads, kept', spn⟩ := loadBegun_fields u a
  generalize setCteState (loadBegun u a) a stLoading = w at *
  have kept := tickKept_afterTransition w a ain
  have before := tickKept_tickSampled w a ain
  have tag : w.tag = (loadBegun u a).tag := tag_of_actuatorState entered.rest
  have stored (f : Fld) (i : Nat) (h : f.reg ∉ tickRegs := by decide) (k : f.reg ∉ stateRegs := by decide)
      (b : f.reg.info.block ∉ reportBlocks := by decide) : fld (tickSampled w a ain) f i = fld s f i :=
    (before.regs.fld _ _ h b).trans ((entered.regs.fld _ _ k b).trans ((kept' f i).trans (same f i)))
  refine ⟨kept.state.trans entered.state, ?_, ?_, ?_⟩
  · rw [vcm_settleCount, vcm_lawDrive_loading, stored F.CTE_LOAD_LOAD_I a]
    · rw [before.state, entered.state]
    · rw [active_tickSampled _ _ _ entered.state]
      exact getBits_lt ..
    · rw [spn_of_actuatorState before.rest, spn_of_actuatorState entered.rest, spn, spn_of_actuatorState rest]
      exact retract
    · rw [stored F.PWS_FAULT_VCM_SHORT 0]
      exact short
  · rw [tag_of_actuatorState kept.rest, tag, loads, tag_of_actuatorState rest]
  · have left := congrArg Cte.cmdReq entered.cte
    rw [kept.cmdReq, left, progress, context']
    rfl

end Sys2Proof.Machine

end

section
-- `decide` waits for the kernel: a thread for each of these proofs would exhaust the memory limit.
set_option Elab.async false

namespace Sys2Proof.Machine

/-- The stripe found enters ACQUIRE, its track not known (R193). -/
theorem enterAcquire_fields (s : State) (a : Nat) : cteState (enterAcquire s a) a = stAcquire ∧
    (svgOf (enterAcquire s a) a).trkValid = false := by
  unfold enterAcquire
  extract_lets g t c u
  have entered := stateEntered_setCteState (setFld (setFld u F.CTE_STAT_HOLD_CAUSE a 0) F.CTE_STAT_RES_RUN a 0) a
    (st := stAcquire) (by decide) (by decide)
  have channel : svgOf (setFld (setFld u F.CTE_STAT_HOLD_CAUSE a 0) F.CTE_STAT_RES_RUN a 0) a = { g with trkValid := false } := by
    rw [svgOf_setFld, svgOf_setFld, svgOf_setCte, svgOf_setSvg_same]
  refine ⟨entered.state, ?_⟩
  rw [svgOf_of_actuatorState entered.rest, channel]

/-- A transition whose condition waits, at the law boundary of a LOADING actuator. -/
theorem transitions_loading {s : State} {a : Nat} {d : CteDue} (unload : unloadDue s a = false) (hold : (cteOf s a).hold = none)
    (due : (cteOf s a).due = some d) (loading : cteState s a = stLoading) (named : d = .stripe ∨ d = .loadTmo) :
    transitions (applyWrites s a) a = dueAction (applyWrites s a) a d := by
  obtain ⟨state, unload', context⟩ := applyWrites_keeps s a
  refine transitions_due (unload'.trans unload) (by rw [context, hold]) (by rw [context, due]) ?_
  obtain rfl | rfl := named <;> simp [dueStands, state, loading]

theorem ends_lawTick_stripe {s : State} {a : Nat} (ain : Nat) (ha : a < s.part.acts) (unload : unloadDue s a = false)
    (hold : (cteOf s a).hold = none) (cal : s.cal.pending = []) (due : (cteOf s a).due = some .stripe)
    (loading : cteState s a = stLoading) : Ends (.lawTick a ain) s (fun t =>
      cteState t a = stAcquire ∧ (svgOf t a).trkValid = false) := by
  refine ends_lawTick ain ha cal fun t kept => ?_
  rw [transitions_loading unload hold due loading (.inl rfl), dueAction] at kept
  dsimp only at kept
  obtain ⟨state, track⟩ := enterAcquire_fields (setCte (applyWrites s a) a { cteOf (applyWrites s a) a with due := none }) a
  exact ⟨kept.state.trans state, by rw [svgOf_of_actuatorState kept.rest, track]⟩

/-- LOAD_TMO fails the LOAD with LOAD_FAIL and unloads (R193, R206). -/
theorem loadTmo_fields {s : State} {a : Nat} (loading : cteState s a = stLoading) (cmd : (cteOf s a).cmd = some .load)
    (req : (cteOf s a).cmdReq = none) : cteState (dueAction s a .loadTmo) a = stUnloading ∧
    fld (dueAction s a .loadTmo) F.CTE_CMD_STATUS a = 0x67 ∧ flag (dueAction s a .loadTmo) F.CTE_CMD_BUSY a = false ∧
    (cteOf (dueAction s a .loadTmo) a).phase = (if (svgOf s a).trkValid then 0 else 1) := by
  unfold dueAction
  extract_lets c u
  let v := setCte u a { cteOf u a with cmd := none }
  have context : cteOf u a = { cteOf s a with due := none } := cteOf_setCte_same ..
  have ended : endCmd u a [.load] 0x67 = cmdDone v a 0x67 := by
    rw [endCmd, show (cteOf u a).cmd = some .load by rw [context, cmd]]
    rfl
  rw [ended]
  obtain ⟨status, busy, units, done⟩ := cmdDone_fields v a (status := 0x67) (by decide)
  have after : cteOf (cmdDone v a 0x67) a = { cteOf u a with cmd := none } :=
    (cteOf_of_unitState units a).trans (cteOf_setCte_same ..)
  have still : cteState (cmdDone v a 0x67) a = stLoading := by
    rw [cteState, done.fld _ _]
    simpa only [v, u, fld_setCte, cteState] using loading
  have channel : svgOf (cmdDone v a 0x67) a = svgOf s a := by
    rw [svgOf_of_unitState units]
    simp only [v, u, svgOf_setCte]
  obtain ⟨entered, phase, -, regs⟩ := enterUnload_fields (s := cmdDone v a 0x67) (a := a) (by rw [after])
    (by rw [after, context, req]) (by rw [still]; decide)
  have fault : Writes [] (enterUnload (cmdDone v a 0x67) a) (sendFault (enterUnload (cmdDone v a 0x67) a) .cte (584 + a)
    FK.cteLoad 5 0) := .sendFault _ _ _ _ _ _
  refine ⟨?_, ?_, ?_, ?_⟩
  · rw [cteState, fault.fld _ _]
    exact entered
  · rw [fault.fld _ _, regs.fld _ _, status]
  · rw [fault.flag _ _, regs.flag _ _, busy]
  · rw [cteOf_of_unitState (unitState_sendFault ..), phase, channel]

theorem ends_lawTick_loadTmo {s : State} {a : Nat} (ain : Nat) (ha : a < s.part.acts) (unload : unloadDue s a = false)
    (hold : (cteOf s a).hold = none) (cal : s.cal.pending = []) (due : (cteOf s a).due = some .loadTmo)
    (loading : cteState s a = stLoading) (cmd : (cteOf s a).cmd = some .load) (req : (cteOf s a).cmdReq = none) :
    Ends (.lawTick a ain) s (fun t => cteState t a = stUnloading ∧ fld t F.CTE_CMD_STATUS a = 0x67 ∧
      flag t F.CTE_CMD_BUSY a = false ∧ ((cteOf t a).phase = if (svgOf s a).trkValid then 0 else 1)) := by
  obtain ⟨state, -, context⟩ := applyWrites_keeps s a
  refine ends_lawTick ain ha cal fun t kept => ?_
  rw [transitions_loading unload hold due loading (.inr rfl)] at kept
  obtain ⟨unloading, status, busy, phase⟩ := loadTmo_fields (state.trans loading)
    (by rw [context, cmd]) (by rw [context, req])
  refine ⟨kept.state.trans unloading, (kept.regs.fld _ _).trans status, (kept.regs.flag _ _).trans busy, ?_⟩
  rw [kept.phase, phase, applyWrites, svgOf_setCte]

/-! ### Parking -/

/-- The state but for the spindle. -/
def driveState (s : State) : State := { unitState s with spn := {} }

theorem cteOf_of_driveState {s t : State} (h : driveState t = driveState s) (b : Nat) : cteOf t b = cteOf s b := by
  rw [cteOf, cteOf, show t.cte = s.cte from (congrArg State.cte h :)]

theorem driveState_of_unitState {s t : State} (h : unitState t = unitState s) : driveState t = driveState s := by
  rw [driveState, h, driveState]

theorem unitState_glySync (s : State) : unitState (glySync s) = unitState s := by
  unfold glySync
  extract_lets s₁ pc old res waiting occ t₁ t₂ t₃ t₄ t₅
  have first : unitState t₁ = unitState s := unitState_setFlds ..
  have second : unitState t₂ = unitState s := (unitState_when (fun _ => unitState_raiseSource ..) ..).trans first
  have third : unitState t₃ = unitState s := (unitState_setReady ..).trans second
  have fourth : unitState t₄ = unitState s :=
    (unitState_when (fun u => unitState_each (f := fun p v => toHost v (.namespaceChanged p)) (fun _ _ => rfl) _ u)
      ..).trans third
  have fifth : unitState t₅ = unitState s := (unitState_when (fun _ => unitState_raiseSource ..) ..).trans fourth
  exact unitState_ite ((unitState_raiseSource ..).trans ((unitState_setFlag ..).trans fifth)) fifth

theorem unitState_recomputeHoldUp (s : State) : unitState (recomputeHoldUp s) = unitState s :=
  unitState_ite ((unitState_when (fun _ => unitState_sendFault ..) ..).trans
    ((unitState_glySync ..).trans (unitState_setFlds ..))) rfl

theorem unitState_setAtSpeed (s : State) (b : Bool) : unitState (setAtSpeed s b) = unitState s :=
  unitState_ite rfl ((unitState_raiseSource ..).trans ((unitState_setReady ..).trans (unitState_setFlag ..)))

theorem driveState_spnGo (s : State) (st : Nat) (b : Bridge) : driveState (spnGo s st b) = driveState s := by
  unfold spnGo
  extract_lets t₁ was p t₂ q t₃
  have left : driveState t₁ = driveState s := driveState_of_unitState (unitState_ite ((unitState_setFlag ..).trans
    ((unitState_setAtSpeed ..).trans (unitState_calDrop ..))) rfl)
  have moved : driveState t₂ = driveState s := left
  have windowed : driveState t₃ = driveState s := by
    simp only [t₃]
    split <;> exact moved
  split
  · exact (driveState_of_unitState (unitState_recomputeHoldUp _)).trans windowed
  · exact windowed

theorem driveState_enterBrake (s : State) (shortOnly : Bool) : driveState (enterBrake s shortOnly) = driveState s := by
  unfold enterBrake
  extract_lets m n b
  exact (driveState_of_unitState (unitState_setFlag ..)).trans (driveState_spnGo ..)

theorem driveState_spnDone (s : State) (status : Nat) : driveState (spnDone s status) = driveState s :=
  driveState_of_unitState ((unitState_raiseSource ..).trans (unitState_setFlds ..))

theorem driveState_startDone (s : State) (status : Nat) : driveState (startDone s status) = driveState s := by
  unfold startDone
  split
  · exact driveState_spnDone ..
  · rfl

theorem driveState_stopDone (s : State) (status : Nat) : driveState (stopDone s status) = driveState s := by
  unfold stopDone
  split
  · exact driveState_spnDone ..
  · rfl

/-- An unload asked of CTE leaves the drive codes. -/
theorem vcm_requestUnload (s : State) (a : Nat) : (cteOf (requestUnload s) a).vcm = (cteOf s a).vcm := by
  refine each_keeps (P := fun t => (cteOf t a).vcm = (cteOf s a).vcm) (fun b u h => ?_) _ s rfl
  split
  · exact h
  · rw [cteOf_setCte]
    split
    · rename_i e
      exact e ▸ h
    · exact h

theorem vcm_enterFault (s : State) (cause a : Nat) : (cteOf (enterFault s cause) a).vcm = (cteOf s a).vcm := by
  unfold enterFault
  extract_lets t u
  have faulted : driveState t = driveState s := (driveState_of_unitState (unitState_setFld ..)).trans (driveState_spnGo ..)
  have done : driveState u = driveState s := (driveState_stopDone ..).trans ((driveState_startDone ..).trans faulted)
  rw [cteOf_of_unitState (unitState_sendFault ..), raiseUnload, vcm_requestUnload, cteOf_setFlag, cteOf_of_driveState done]

/-- What SPN does once every actuator is parked leaves the drive codes (Table 7.1). -/
theorem vcm_spnParked (s : State) (a : Nat) : (cteOf (spnParked s) a).vcm = (cteOf s a).vcm := by
  have kept {t : State} (h : driveState t = driveState s) : (cteOf t a).vcm = (cteOf s a).vcm := by rw [cteOf_of_driveState h]
  unfold spnParked
  split
  · rfl
  · split
    · split
      · exact kept (driveState_enterBrake ..)
      · split
        · exact kept ((driveState_of_unitState (unitState_setFld ..)).trans ((driveState_spnGo ..).trans
            (driveState_of_unitState (unitState_setFlag ..))))
        · exact vcm_enterFault ..
    · split
      · exact kept (driveState_enterBrake ..)
      · rfl

/-- PHOLD_T ends with PARK in progress: PARKED, with zero drive, and the command completes (R207, R217). -/
theorem enterParked_fields {s : State} {a : Nat} (cmd : (cteOf s a).cmd = some .park) :
    cteState (enterParked s a) a = stParked ∧ (cteOf (enterParked s a) a).vcm = 0 ∧
    fld (enterParked s a) F.CTE_CMD_STATUS a = 0 ∧ flag (enterParked s a) F.CTE_CMD_BUSY a = false := by
  unfold enterParked
  extract_lets c t
  have context : cteOf t a = { c with
      active := 8, uv := 0, um := 0, vcm := 0, mact := 0, rv := 0, phase := 0, unload := false } :=
    cteOf_setCte_same ..
  have entered := stateEntered_setCteState t a (st := stParked) (by decide) (by decide)
  generalize setCteState t a stParked = u at *
  have vcm : (cteOf u a).vcm = 0 := by
    have left := congrArg Cte.vcm entered.cte
    rw [left, context]
  have running : (cteOf u a).cmd = some .park := by
    have left := congrArg Cte.cmd entered.cte
    rw [left, context]
    exact cmd
  have ended : endCmd u a [.park] 0 = cmdDone (setCte u a { cteOf u a with cmd := none }) a 0 := by
    rw [endCmd, running]
    rfl
  obtain ⟨status, busy, units, done⟩ := cmdDone_fields (setCte u a { cteOf u a with cmd := none }) a (status := 0) (by decide)
  rw [ended]
  refine ⟨?_, ?_, status, busy⟩
  · rw [cteState, done.fld _ _, fld_setCte]
    exact entered.state
  · rw [cteOf_of_unitState units, cteOf_setCte_same]
    exact vcm

theorem ends_parkHoldEnd {s : State} {a : Nat} (ha : a < s.part.acts) (unloading : cteState s a = stUnloading)
    (hold : (cteOf s a).phase = 2) (cmd : (cteOf s a).cmd = some .park) : Ends (.parkHoldEnd a) s (fun t =>
      cteState t a = stParked ∧ (cteOf t a).vcm = 0 ∧ fld t F.CTE_CMD_STATUS a = 0 ∧ flag t F.CTE_CMD_BUSY a = false) := by
  have meaning : exec (.parkHoldEnd a) s = .next (spnParked (enterParked s a)) := by
    refine congrArg Host.Outcome.next ((if_pos ha).trans ?_)
    rw [parkHoldEnd, if_pos ⟨unloading, hold⟩]
  obtain ⟨state, vcm, status, busy⟩ := enterParked_fields cmd
  have regs (f : Fld) (i : Nat) (h : f.reg.info.block = .cte) :
      fld (spnParked (enterParked s a)) f i = fld (enterParked s a) f i :=
    fld_eq_of_rd ((keeps_spnParked _).regs _ _ (by rw [h]; decide))
  refine ⟨_, meaning, ?_, ?_, ?_, ?_⟩
  · exact (regs _ _ rfl).trans state
  · exact (vcm_spnParked ..).trans vcm
  · exact (regs _ _ rfl).trans status
  · rw [flag, regs _ _ rfl]
    exact busy

/-! ### Block reset of CTE -/

/-- A context as a block reset of CTE leaves it (R209). -/
def contextReset (c : Cte) : Cte :=
  { c with xh := [], notch := [], uv := 0, um := 0, vcm := 0, mact := 0, nth := 0, held := none, late := [], ptr := 0 }

/-- A change of each listed context from what it was. -/
theorem cteOf_each_setCte (g : Cte → Cte) {l : List Nat} (hl : l.Nodup) (s : State) (n : Nat) :
    cteOf (each l (fun b u => setCte u b (g (cteOf u b))) s) n = if n ∈ l then g (cteOf s n) else cteOf s n := by
  induction l generalizing s with
  | nil => simp [each]
  | cons b l ih =>
    obtain ⟨fresh, rest⟩ := List.nodup_cons.1 hl
    refine (ih rest _).trans ?_
    rw [cteOf_setCte]
    by_cases e : n = b
    · simp [e, fresh]
    · simp [e]

/-- A block reset with every actuator parked and the spindle not in RUN (R209). -/
theorem ends_cteBlockReset_parked {s : State} {n : Nat} (parked : allParked s = true) (run : spnState s ≠ spRun) (hn : n < 5) :
    Ends .cteBlockReset s (fun t => cteOf t n = contextReset (cteOf s n) ∧ flag t F.CKR_BRST_CTE = false) := by
  have regs : ∀ u, Keeps [] false u (each (List.range 5) (fun b u => setCte u b (contextReset (cteOf u b))) u) :=
    fun u => keeps_each _ _ (fun _ _ => keeps_setCte ..) _
  have meaning : exec .cteBlockReset s = .next (each (List.range 5) (fun b u => setCte u b (contextReset (cteOf u b)))
      (setFlag s F.CKR_BRST_CTE 0 false)) := by
    refine congrArg Host.Outcome.next ((if_pos parked).trans (if_neg ?_))
    rw [spnState]
    exact fun e => run (((fld_setFld_other _ _ _ _ (by decide)).symm.trans
      (fld_eq_of_rd ((regs _).regs _ _ List.not_mem_nil)).symm).trans e)
  refine ⟨_, meaning, ?_, ?_⟩
  · rw [cteOf_each_setCte _ List.nodup_range, if_pos (List.mem_range.2 hn), cteOf_setFlag]
  · rw [flag, fld_eq_of_rd ((regs _).regs _ _ List.not_mem_nil), ← flag]
    exact flag_setFlag_same _ _ _ _ (by decide) (by decide)

/-- A block reset that a loaded actuator refuses (R209). -/
theorem ends_cteBlockReset_loaded {s : State} (loaded : allParked s = false) (room : (waitingAt s .cte).length < 4) :
    Ends .cteBlockReset s (fun t => t.cte = s.cte ∧
      waitingAt t .cte = waitingAt s .cte ++ [faultMsg 576 FK.cteResetRefused 4 0] ∧ flag t F.CKR_BRST_CTE = false) := by
  obtain ⟨sent, -, -⟩ := sendFault_room (s := setFlag s F.CKR_BRST_CTE 0 false) 576 FK.cteResetRefused 4 0 room
  have report : Writes [] (setFlag s F.CKR_BRST_CTE 0 false) (sendFault (setFlag s F.CKR_BRST_CTE 0 false) .cte 576
    FK.cteResetRefused 4 0) := .sendFault _ _ _ _ _ _
  refine ⟨_, congrArg Host.Outcome.next (if_neg (by simp [loaded])), ?_, sent, ?_⟩
  · exact (cte_of_unitState (unitState_sendFault ..)).trans rfl
  · rw [report.flag _ _]
    exact flag_setFlag_same _ _ _ _ (by decide) (by decide)

/-- Settles O10: each transition of a law boundary by what it sets, which the rest of the tick keeps (`ends_lawTick`). -/
theorem actuatorLoadAndPark : Obligations.ActuatorLoadAndPark := by
  refine ⟨?_, ?_, ?_, ?_, ?_, ?_, ?_, ?_, ?_, ?_⟩
  · exact fun s a ain ha parked unload hold media fw load cal due pair locked retract short =>
      ends_lawTick_load ain ha parked unload hold media fw load cal due pair locked retract short
  · exact fun s a ain ha parked unload hold media fw load cal due unpaired =>
      ends_lawTick_unpaired ain ha parked unload hold media fw load cal due unpaired
  · intro s a loading runs
    refine ⟨_, congrArg Host.Outcome.next (if_pos runs), ?_⟩
    exact if_pos (by simp [dueStands, loading])
  · exact fun s a ain ha unload hold cal due loading => ends_lawTick_stripe ain ha unload hold cal due loading
  · exact fun s a loading => ⟨_, rfl, if_pos (by simp [dueStands, loading])⟩
  · exact fun s a ain ha unload hold cal due loading cmd req => ends_lawTick_loadTmo ain ha unload hold cal due loading cmd req
  · exact fun s a unloading drive => ⟨_, rfl, if_pos ⟨unloading, drive⟩⟩
  · exact fun s a ha unloading hold cmd => ends_parkHoldEnd ha unloading hold cmd
  · exact fun s n parked run hn => ends_cteBlockReset_parked parked run hn
  · exact fun s loaded room => ends_cteBlockReset_loaded loaded room

end Sys2Proof.Machine

end

section
-- `decide` waits for the kernel: a thread for each of these proofs would exhaust the memory limit.
set_option Elab.async false

namespace Sys2Proof.Machine

/-! ### What a report leaves of pairs and of calibration -/

theorem pairOf_of_unitState {s t : State} (h : unitState t = unitState s) (b : Nat) : pairOf t b = pairOf s b := by
  rw [pairOf, pairOf, show t.pairs = s.pairs from (congrArg State.pairs h :)]

theorem raiseSource_cal (s : State) (n : Nat) : (raiseSource s n).cal = s.cal := by
  unfold raiseSource
  dsimp only
  split <;> rfl

theorem sendMsg_cal (s : State) (b : Block) (w : Word) : (sendMsg s b w).cal = s.cal := by
  unfold sendMsg
  dsimp only
  split
  · rw [raiseSource_cal, raiseSource_cal, bump, setFld_cal]
  · rfl

/-- A report leaves calibration alone. -/
theorem sendFault_cal (s : State) (b : Block) (source kind sev addr : Nat) :
    (sendFault s b source kind sev addr).cal = s.cal := sendMsg_cal ..

/-- A message with room for it changes no register and no memory. -/
theorem leaves_sendFault_room {s : State} {b : Block} (source kind sev addr : Nat) (room : (waitingAt s b).length < 4)
    (bs : List Block) : Leaves bs s (sendFault s b source kind sev addr) := by
  have part : (sendFault s b source kind sev addr).part = s.part :=
    (keeps_sendFault (bs := [.fcl]) (m := false) _ _ _ _ _ _ (by decide)).part
  obtain ⟨-, regs, mem⟩ := sendFault_room source kind sev addr room
  exact ⟨fun a => by rw [readByte, mem, readByte], fun r i _ => by rw [rd, regs, part, rd]⟩

theorem Leaves.trans {bs : List Block} {s t u : State} (h : Leaves bs s t) (k : Leaves bs t u) : Leaves bs s u :=
  ⟨fun a => (k.1 a).trans (h.1 a), fun r i hr => (k.2 r i hr).trans (h.2 r i hr)⟩

/-! ### What an item's end without a result reports -/

/-- An item's status recorded, its counter raised and its fault sent. -/
def calReported (s : State) (n status : Nat) (counter : Fld) (kind : Nat) : State :=
  sendFault (bump (itemStatus s n status) counter) .cal 16 kind 3 n

/-- What it leaves while CAL has room for the message. -/
structure CalReported (s : State) (n status : Nat) (counter : Fld) (kind : Nat) (t : State) : Prop where
  status : fld t F.CAL_COUNT_LAST_STATUS n = status
  counted : fld t counter = min (fld s counter + 1) (2 ^ counter.w - 1)
  cal : t.cal = s.cal
  sent : waitingAt t .cal = waitingAt s .cal ++ [faultMsg 16 kind 3 n]
  leaves : Leaves [.cal] s t

theorem calReported_room {s : State} {n status : Nat} {counter : Fld} (kind : Nat) (byte : status < 256)
    (own : counter.reg = .CAL_CNT) (fits : counter.lo + counter.w ≤ 64) (room : (waitingAt s .cal).length < 4) :
    CalReported s n status counter kind (calReported s n status counter kind) := by
  have recorded : Keeps [.cal] false s (bump (itemStatus s n status) counter) :=
    (keeps_itemStatus s n status).trans (keeps_bump _ _ _ _ (by rw [own]; decide))
  have report := Writes.sendFault (l := []) (bump (itemStatus s n status) counter) .cal 16 kind 3 n
  have apart : counter.reg ≠ F.CAL_COUNT_LAST_STATUS.reg := by rw [own]; decide
  have waits : waitingAt (bump (itemStatus s n status) counter) .cal = waitingAt s .cal := rfl
  refine ⟨?_, ?_, ?_, ?_, recorded.leaves.trans (leaves_sendFault_room _ _ _ _ (by rwa [waits]) _)⟩
  · rw [calReported, report.fld _ _, fld_bump_other _ _ _ _ (.inl apart.symm), itemStatus,
      fld_setFld_same _ _ _ _ (by decide)]
    exact Nat.mod_eq_of_lt byte
  · rw [calReported, report.fld _ _ List.not_mem_nil (by rw [own]; decide), fld_bump_same _ _ _ _ fits, itemStatus,
      fld_setFld_other _ _ _ _ (.inl apart)]
  · rw [calReported, sendFault_cal, bump, setFld_cal, itemStatus, setFld_cal]
  · rw [calReported, (sendFault_room 16 kind 3 n (by rwa [waits])).1, waits]

/-! ### CAL_CMD (R612, R619) -/

/-- The status CAL_CMD.GO gives a request of item n. -/
def calCmdStatus (s : State) (n : Nat) : Nat :=
  if n < 16 ∨ itemUsed n = false then 0x15
  else if itemPresent s n = false then 0xFF
  else if 16 ≤ s.cal.queue.length then 0x14
  else 0x00

/-- The fields of CAL_CMD once a request has been answered. -/
def calAnswered (s : State) (n : Nat) : State :=
  setFld (setFld s F.CAL_CMD_ITEM 0 n) F.CAL_CMD_STATUS 0 (calCmdStatus s n)

theorem exec_calRequest (v : Word) (s : State) : exec (.calRequest v) s = .next
    (if calCmdStatus s (getBits v 0 11) = 0 then
      { calAnswered s (getBits v 0 11) with cal := { s.cal with queue := s.cal.queue ++ [getBits v 0 11] } }
    else calAnswered s (getBits v 0 11)) := by
  have item : getBits (setBits v 11 1 1) 0 11 = getBits v 0 11 := getBits_setBits_ne _ _ _ _ _ _ (.inl (by decide))
  have go : bit (setBits v 11 1 1) 11 = true := by
    rw [bit, getLsbD_setBits]
    rfl
  change Host.Outcome.next (calCmdWrite s (setBits v 11 1 1)) = _
  rw [calCmdWrite, item, go]
  rfl

/-- A request of an item is answered with its status, and queued where that is 0. -/
theorem ends_calRequest {s : State} {v : Word} {status : Nat} (answer : calCmdStatus s (getBits v 0 11) = status)
    (byte : status < 256) : Ends (.calRequest v) s (fun t =>
      fld t F.CAL_CMD_STATUS = status ∧ fld t F.CAL_CMD_ITEM = getBits v 0 11 ∧
      t.cal = (if status = 0 then { s.cal with queue := s.cal.queue ++ [getBits v 0 11] } else s.cal) ∧ Leaves [.cal] s t) := by
  refine ⟨_, exec_calRequest v s, ?_⟩
  have read (t : State) (regs : t.regs = (calAnswered s (getBits v 0 11)).regs) (part : t.part = s.part) (f : Fld) :
      fld t f = fld (calAnswered s (getBits v 0 11)) f := by
    rw [fld, rd, regs, part]
    rfl
  have statusRead : fld (calAnswered s (getBits v 0 11)) F.CAL_CMD_STATUS = status := by
    rw [calAnswered, fld_setFld_same _ _ _ _ (by decide), answer]
    exact Nat.mod_eq_of_lt byte
  have itemRead : fld (calAnswered s (getBits v 0 11)) F.CAL_CMD_ITEM = getBits v 0 11 := by
    rw [calAnswered, fld_setFld_other _ _ _ _ (by decide), fld_setFld_same _ _ _ _ (by decide)]
    exact Nat.mod_eq_of_lt (getBits_lt ..)
  have leaves : Leaves [.cal] s (calAnswered s (getBits v 0 11)) :=
    ((keeps_setFld (bs := [.cal]) (m := false) _ _ _ _ (by decide)).trans (keeps_setFld _ _ _ _ (by decide))).leaves
  rw [answer]
  split
  · exact ⟨(read _ rfl rfl _).trans statusRead, (read _ rfl rfl _).trans itemRead, rfl, leaves⟩
  · exact ⟨statusRead, itemRead, rfl, leaves⟩

/-- A request of an item that may be asked for gets past the first check. -/
theorem calCmdStatus_used {s : State} {n : Nat} (asked : 16 ≤ n) (used : itemUsed n = true) : calCmdStatus s n =
    if itemPresent s n = false then 0xFF else if 16 ≤ s.cal.queue.length then 0x14 else 0 :=
  if_neg (by simp [used]; omega)

/-! ### Starting and background calibration -/

/-- A queued item taken off the queue. -/
def unqueued (s : State) (k : Nat) : State := { s with cal := { s.cal with queue := s.cal.queue.eraseIdx k } }

theorem exec_calStart {s : State} {o k n : Nat} (idle : s.cal.running.any (fun r => r.owner == o) = false)
    (oldest : firstIdx (fun m => itemOwner s m == o) s.cal.queue 0 = some k) (item : s.cal.queue.getD k 0 = n) :
    exec (.calStart o) s = .next (if itemReady s n then
      { s with cal := { s.cal with
        queue := s.cal.queue.eraseIdx k, running := s.cal.running ++ [{ item := n, owner := o }] } }
      else itemStatus (unqueued s k) n 0x13) := by
  change execCalStart o s = _
  rw [execCalStart, idle, oldest]
  dsimp only
  rw [item]
  rfl

theorem exec_calStart_held {s : State} {o : Nat} (runs : s.cal.running.any (fun r => r.owner == o) = true) :
    exec (.calStart o) s = .next s := by
  change execCalStart o s = _
  rw [execCalStart, runs]

/-- The preconditions of R613 for an actuator's items 16 to 31: on its track in FOLLOW, with no run of its pair. -/
theorem onTrack_of_itemReady {s : State} {n : Nat} (low : n < 32) (ready : itemReady s n = true) :
    fld s F.CTE_STAT_STATE (itemOwner s n) = 6 ∧
    (cteOf s (itemOwner s n)).track = fld s F.CAL_TRACK_TRACK (itemOwner s n) ∧
    (pairOf s (itemOwner s n)).run = none ∧ (wrpOf s (itemOwner s n)).run = none := by
  rw [itemReady, if_pos low] at ready
  simp only [noRun, Bool.and_eq_true, decide_eq_true_eq, Option.isNone_iff_eq_none] at ready
  obtain ⟨⟨follow, track⟩, read, write⟩ := ready
  exact ⟨follow, track, read, write⟩

theorem itemOwner_mod {s : State} {n : Nat} (low : 24 ≤ n) (high : n < 40) : itemOwner s n = n % 4 := by
  rw [itemOwner, if_neg (by omega), if_neg (by omega), if_neg (by omega), if_pos high]

/-- SVG's items need its channel enabled (R613). -/
theorem itemReady_svg {s : State} {n : Nat} (low : 32 ≤ n) (high : n < 36) : itemReady s n = flag s F.SVG_CTL_EN (n % 4) := by
  rw [itemReady, if_neg (by omega), if_pos high, itemOwner_mod (by omega) (by omega)]

/-- CTE's items need the actuator parked (R613). -/
theorem itemReady_parked {s : State} {n : Nat} (low : 36 ≤ n) (high : n < 40) :
    itemReady s n = decide (fld s F.CTE_STAT_STATE (n % 4) = 0) := by
  rw [itemReady, if_neg (by omega), if_neg (by omega), if_pos high, itemOwner_mod (by omega) high]
  rfl

/-! ### Two runs have ended (R614) -/

/-- An item that ran taken off, SLICE_SWAP's lane moving on to its next position (R101). -/
def runTaken (s : State) (n : Nat) : State :=
  { s with cal := { s.cal with
    running := s.cal.running.filter (fun r => r.item != n)
    background := s.cal.background.filter (fun r => r.item != n)
    positions := if decide (8 ≤ n ∧ n < 16) then
      tset (dflt 0) s.cal.positions (n - 8) ((tget (dflt 0) s.cal.positions (n - 8) + 1) % 16) else s.cal.positions } }

/-- The disagreement of an item's runs recorded, counted and reported. -/
def disagreed (s : State) (n : Nat) : State := calReported s n 0x10 F.CAL_CNT_DISAGREE FK.calDisagree

/-- The item taken off, with what the comparison of its runs reports. -/
def runCompared (s : State) (n : Nat) (x y : List Int) : State :=
  if resultsAgree n x y then runTaken s n else disagreed (runTaken s n) n

/-- A result left pending in place of an older one of its item. -/
def resultPending (s : State) (n : Nat) (c : CalPend) : State :=
  itemStatus { s with cal := { s.cal with pending := s.cal.pending.filter (fun q => decide (q.item ≠ n)) ++ [c] } } n 0x01

/-- What a result of item n waits for is idle. -/
def resultIdle (s : State) (n : Nat) : Bool :=
  if n < 32 then (pairOf s (itemOwner s n)).run.isNone else writeItem n && noRun s (itemOwner s n)

/-- The runs of an item compared, the older as `x`, with what they leave pending. -/
theorem exec_calRunDone {s : State} {n : Nat} {x y z : List Int}
    (runs : (s.cal.running ++ s.cal.background).any (fun r => r.item == n) = true) :
    exec (.calRunDone n x y z) s = match calResult n (tget (dflt 0) s.cal.positions (n - 8)) (runResult n x (z.take 3))
        (runResult n y (z.drop 3)) with
      | none => .next (runCompared s n (runResult n x (z.take 3)) (runResult n y (z.drop 3)))
      | some c =>
        let t := resultPending (runCompared s n (runResult n x (z.take 3)) (runResult n y (z.drop 3))) n c
        .next (if resultIdle t n then calBoundary t (fun m => m == n) else t) := by
  change execCalRunDone n x y z s = _
  rw [execCalRunDone]
  dsimp only
  rw [runs, if_neg (by decide)]
  rfl

/-- The runs of every item but SLICE_SWAP are the results themselves. -/
theorem runResult_of_ne {n : Nat} (h : n < 8 ∨ 16 ≤ n) (x spare : List Int) : runResult n x spare = x := if_neg (by omega)

theorem calResult_disagreed {n p : Nat} {x y : List Int} (h : 8 ≤ n) (differ : resultsAgree n x y = false) :
    calResult n p x y = none := by
  rw [calResult]
  simp only [differ]
  rw [if_neg (by omega)]
  rfl

theorem calResult_agreed {n p : Nat} {x y : List Int} (h : 16 ≤ n) (agree : resultsAgree n x y = true) :
    calResult n p x y = some { item := n, vals := meanOf x y } := by
  rw [calResult]
  simp only [agree]
  rw [if_neg (by omega), if_neg (by decide), if_neg (by omega)]

theorem runCompared_cal (s : State) (n : Nat) (x y : List Int) : (runCompared s n x y).cal = (runTaken s n).cal := by
  unfold runCompared
  split
  · rfl
  · exact sendFault_cal ..

/-- Calibration leaves pairs' runs alone. -/
theorem pairOf_resultPending (s : State) (n a : Nat) (x y : List Int) (c : CalPend) :
    pairOf (resultPending (runCompared s n x y) n c) a = pairOf s a := by
  refine (pairOf_of_unitState (t := runCompared s n x y) ?_ a :)
  exact unitState_ite rfl ((unitState_sendFault ..).trans rfl)

/-- The pending results once an item's runs have left theirs. -/
theorem resultPending_pending (s : State) (n : Nat) (x y : List Int) (c : CalPend) :
    (resultPending (runCompared s n x y) n c).cal.pending = s.cal.pending.filter (fun q => decide (q.item ≠ n)) ++ [c] := by
  change (runCompared s n x y).cal.pending.filter _ ++ [c] = _
  rw [runCompared_cal]
  rfl

theorem disagreed_room {s : State} {n : Nat} (room : (waitingAt s .cal).length < 4) :
    CalReported s n 0x10 F.CAL_CNT_DISAGREE FK.calDisagree (disagreed s n) :=
  calReported_room _ (by decide) rfl (by decide) room

theorem waitingAt_runTaken (s : State) (n : Nat) (b : Block) : waitingAt (runTaken s n) b = waitingAt s b := rfl

theorem waitingAt_resultPending (s : State) (n : Nat) (c : CalPend) (b : Block) :
    waitingAt (resultPending s n c) b = waitingAt s b := rfl

end Sys2Proof.Machine

end

section
-- `decide` waits for the kernel: a thread for each of these proofs would exhaust the memory limit.
set_option Elab.async false

namespace Sys2Proof.Machine

/-! ### A result that takes effect (R98, R614) -/

/-- The pending results of an item taken off. -/
def pendingTaken (s : State) (n : Nat) : State :=
  { s with cal := { s.cal with pending := s.cal.pending.filter (fun q => !(q.item == n)) } }

theorem fld_pendingTaken (s : State) (n : Nat) (f : Fld) (i : Nat) : fld (pendingTaken s n) f i = fld s f i := rfl

/-- At an item's boundary its only pending result takes effect. -/
theorem calBoundary_one {s : State} {n : Nat} {c : CalPend} (h : s.cal.pending.filter (fun q => q.item == n) = [c]) :
    calBoundary s (fun m => m == n) = takeEffect (pendingTaken s n) c := by
  rw [calBoundary, h]
  rfl

/-- The result an item's runs have just left pending is the only one of that item. -/
theorem filter_pending_own {l : List CalPend} {n : Nat} {c : CalPend} (h : c.item = n) :
    (l.filter (fun q => decide (q.item ≠ n)) ++ [c]).filter (fun q => q.item == n) = [c] := by
  rw [List.filter_append, List.filter_filter, List.filter_eq_nil_iff.2 (by simp)]
  simp [h]

/-- A result that takes effect counts, with its time, and raises source 17, whatever fields its values go to. -/
theorem takeEffect_fields {s : State} {x : CalPend} {l : List Reg} (put : Writes l s (putResult s x))
    (apart : F.CAL_COUNT_COUNT.reg ∉ l) :
    fld (takeEffect s x) F.CAL_COUNT_LAST_STATUS x.item = 0 ∧
    fld (takeEffect s x) F.CAL_COUNT_COUNT x.item = min (fld s F.CAL_COUNT_COUNT x.item + 1) (2 ^ 24 - 1) ∧
    fld (takeEffect s x) F.CAL_LAST_TIME x.item = now s % 2 ^ 48 ∧ pendingBit (takeEffect s x) 17 = true := by
  unfold takeEffect
  dsimp only
  refine ⟨?_, ?_, ?_, pendingBit_raiseSource ..⟩ <;>
    rw [(Writes.raiseSource (l := []) ..).fld _ _]
  · rw [fld_setFld_other _ _ _ _ (by decide), fld_bump_other _ _ _ _ (by decide), fld_setFld_same _ _ _ _ (by decide)]
    rfl
  · rw [fld_setFld_other _ _ _ _ (by decide), fld_bump_other _ _ _ _ (by decide), fld_setFld_other _ _ _ _ (by decide),
      fld_bump_same _ _ _ _ (by decide), put.fld _ _ apart]
  · exact fld_setFld_same _ _ _ _ (by decide)

/-! ### What ends an item without a result (R615) -/

theorem each_abandoned_cal (l : List Nat) (s : State) : (each l (fun n u => abandoned u n) s).cal = s.cal :=
  each_keeps (P := fun t => t.cal = s.cal) (fun n u h => (show (abandoned u n).cal = u.cal from rfl).trans h) l s rfl

theorem calDrop_all_cal (s : State) : (calDrop s (fun _ => true)).cal =
    { s.cal with running := [], background := [], pending := [] } := by
  unfold calDrop
  extract_lets c gone t
  rw [each_abandoned_cal]
  simp [t, c]

/-- A block reset leaves CAL without requests, runs or results. -/
theorem calBlockReset_cal (s : State) : (calBlockReset s).cal =
    { s.cal with queue := [], running := [], background := [], pending := [] } := by
  change { (each (calDrop s (fun _ => true)).cal.queue (fun n u => abandoned u n) (calDrop s (fun _ => true))).cal with
    queue := [] } = _
  rw [each_abandoned_cal, calDrop_all_cal]

/-- An abandoned item's status stands whatever is abandoned after it. -/
theorem abandoned_status {s : State} (n m : Nat) (h : m = n ∨ fld s F.CAL_COUNT_LAST_STATUS n = 0x11) :
    fld (abandoned s m) F.CAL_COUNT_LAST_STATUS n = 0x11 := by
  rw [abandoned, fld_bump_other _ _ _ _ (by decide)]
  by_cases e : m = n
  · rw [e, fld_setFld_same _ _ _ _ (by decide)]
    rfl
  · rw [fld_setFld_ne _ _ (.inr (Ne.symm e)), h.resolve_left e]

theorem ends_calBlockReset (s : State) : Ends .calBlockReset s (fun t =>
      t.cal = { s.cal with queue := [], running := [], background := [], pending := [] } ∧
      flag t F.CKR_BRST_CAL = false ∧
      (∀ n, n ∈ s.cal.queue → fld t F.CAL_COUNT_LAST_STATUS n = 0x11) ∧ Leaves [.cal, .ckr] s t) := by
  refine ⟨_, rfl, calBlockReset_cal s, flag_setFld_same _ _ _ _ (by decide), fun n queued => ?_,
    ((keeps_calBlockReset s).sub (bs := [.cal, .ckr])).leaves⟩
  have queue : (calDrop s (fun _ => true)).cal.queue = s.cal.queue := by rw [calDrop_all_cal]
  have status := each_reaches (P := fun t => fld t F.CAL_COUNT_LAST_STATUS n = 0x11) (f := fun m u => abandoned u m)
    (fun u => abandoned_status n n (.inl rfl)) (fun m u h => abandoned_status n m (.inr h)) queued
    (calDrop s (fun _ => true))
  rw [← queue] at status
  exact (fld_setFld_other _ _ _ _ (by decide)).trans status

/-- A request taken off what runs. -/
def requestStopped (s : State) (n : Nat) : State :=
  { s with cal := { s.cal with running := s.cal.running.filter (fun r => r.item != n) } }

/-- A request past its time is recorded, counted and reported. -/
theorem ends_calTimeout {s : State} {n : Nat} (runs : s.cal.running.any (fun r => r.item == n) = true)
    (room : (waitingAt s .cal).length < 4) : Ends (.calTimeout n) s (fun t =>
      fld t F.CAL_COUNT_LAST_STATUS n = 0x12 ∧
      t.cal = { s.cal with running := s.cal.running.filter (fun r => r.item != n) } ∧
      fld t F.CAL_CNT_TIMEOUT = min (fld s F.CAL_CNT_TIMEOUT + 1) (2 ^ 16 - 1) ∧
      waitingAt t .cal = waitingAt s .cal ++ [faultMsg 16 0x0D 3 n] ∧ Leaves [.cal] s t) := by
  have reported := calReported_room (s := requestStopped s n) (n := n) (status := 0x12) (counter := F.CAL_CNT_TIMEOUT)
    FK.calTimeout (by decide) rfl (by decide) room
  refine ⟨calReported (requestStopped s n) n 0x12 F.CAL_CNT_TIMEOUT FK.calTimeout, if_pos runs, reported.status, reported.cal,
    reported.counted, reported.sent, ?_⟩
  exact (Keeps.leaves (.upd .refl) : Leaves [.cal] s (requestStopped s n)).trans reported.leaves

end Sys2Proof.Machine

end

section
-- `decide` waits for the kernel: a thread for each of these proofs would exhaust the memory limit.
set_option Elab.async false

namespace Sys2Proof.Machine

/-! ### The two runs of an item -/

/-- PAIR_SKEW's mean takes effect on the pair's own register. -/
theorem pairSkew_taken (s : State) (x y : List Int) :
    let c : CalPend := { item := 26, vals := meanOf x y }
    let t := takeEffect (pendingTaken (resultPending (runTaken s 26) 26 c) 26) c
    fld t F.CAL_COUNT_LAST_STATUS 26 = 0 ∧
    fld t F.CAL_COUNT_COUNT 26 = min (fld s F.CAL_COUNT_COUNT 26 + 1) (2 ^ 24 - 1) ∧
    fld t F.CAL_LAST_TIME 26 = now s % 2 ^ 48 ∧ pendingBit t 17 = true := by
  intro c t
  have count : fld (pendingTaken (resultPending (runTaken s 26) 26 c) 26) F.CAL_COUNT_COUNT 26 =
      fld s F.CAL_COUNT_COUNT 26 := by
    rw [fld_pendingTaken, resultPending, itemStatus, fld_setFld_other _ _ _ _ (by decide)]
    rfl
  have time : now (pendingTaken (resultPending (runTaken s 26) 26 c) 26) = now s := rfl
  have put (u : State) : Writes [.LNE_PAIR_SKEW] u (putResult u c) := by
    have values : putResult u c = setFlds u 2 [(F.LNE_PAIR_SKEW_INT, (c.vals.getD 0 0 / 64).toNat),
      (F.LNE_PAIR_SKEW_FRAC, (c.vals.getD 0 0 % 64).toNat)] := rfl
    rw [values]
    exact .setFlds _ _ _
  have taken := takeEffect_fields (put (pendingTaken (resultPending (runTaken s 26) 26 c) 26)) (by decide)
  rwa [count, time] at taken

section Runs

variable {s : State} {n : Nat} {x y z : List Int}
  (runs : (s.cal.running ++ s.cal.background).any (fun r => r.item == n) = true)
include runs

/-- Runs that disagree leave nothing pending and are reported. -/
theorem ends_calRunDone_disagree (differ : resultsAgree n (runResult n x (z.take 3)) (runResult n y (z.drop 3)) = false)
    (past : 8 ≤ n) (room : (waitingAt s .cal).length < 4) : Ends (.calRunDone n x y z) s (fun t =>
      fld t F.CAL_COUNT_LAST_STATUS n = 0x10 ∧
      t.cal.running = s.cal.running.filter (fun r => r.item != n) ∧
      t.cal.pending = s.cal.pending ∧
      waitingAt t .cal = waitingAt s .cal ++ [faultMsg 16 FK.calDisagree 3 n] ∧ Leaves [.cal] s t) := by
  refine ⟨_, by rw [exec_calRunDone runs, calResult_disagreed past differ], ?_⟩
  rw [runCompared, differ, if_neg Bool.false_ne_true]
  have reported := disagreed_room (s := runTaken s n) (n := n) room
  exact ⟨reported.status, by rw [reported.cal]; rfl, by rw [reported.cal]; rfl, reported.sent,
    (Keeps.leaves (.upd .refl) : Leaves [.cal] s (runTaken s n)).trans reported.leaves⟩

/-- Runs that leave a result whose unit is busy leave it pending. -/
theorem exec_calRunDone_busy {c : CalPend} (left : calResult n (tget (dflt 0) s.cal.positions (n - 8))
    (runResult n x (z.take 3)) (runResult n y (z.drop 3)) = some c)
    (busy : resultIdle (resultPending (runCompared s n (runResult n x (z.take 3)) (runResult n y (z.drop 3))) n c) n = false) :
    exec (.calRunDone n x y z) s =
      .next (resultPending (runCompared s n (runResult n x (z.take 3)) (runResult n y (z.drop 3))) n c) := by
  rw [exec_calRunDone runs, left]
  dsimp only
  rw [busy]
  rfl

/-- Runs that leave a result whose unit is idle have it take effect. -/
theorem exec_calRunDone_idle {c : CalPend} (left : calResult n (tget (dflt 0) s.cal.positions (n - 8))
    (runResult n x (z.take 3)) (runResult n y (z.drop 3)) = some c) (own : c.item = n)
    (idle : resultIdle (resultPending (runCompared s n (runResult n x (z.take 3)) (runResult n y (z.drop 3))) n c) n = true) :
    exec (.calRunDone n x y z) s = .next (takeEffect (pendingTaken
      (resultPending (runCompared s n (runResult n x (z.take 3)) (runResult n y (z.drop 3))) n c) n) c) := by
  rw [exec_calRunDone runs, left]
  dsimp only
  rw [idle, if_pos rfl, calBoundary_one (by rw [resultPending_pending, filter_pending_own own])]

/-- The mean of runs that agree waits for its boundary: the items of the spindle and of SVG have no idle unit. -/
theorem ends_calRunDone_waits (agree : resultsAgree n x y = true) (item : 40 ≤ n ∧ n < 46 ∨ 1088 ≤ n) :
    Ends (.calRunDone n x y z) s (fun t =>
      fld t F.CAL_COUNT_LAST_STATUS n = 0x01 ∧
      fld t F.CAL_COUNT_COUNT n = fld s F.CAL_COUNT_COUNT n ∧
      t.cal.pending = s.cal.pending.filter (fun q => decide (q.item ≠ n)) ++ [{ item := n, vals := meanOf x y }]) := by
  have own (w : List Int) (l : List Int) : runResult n w l = w := runResult_of_ne (.inr (by omega)) ..
  refine ⟨_, exec_calRunDone_busy runs (c := { item := n, vals := meanOf x y }) ?_ ?_, ?_, ?_, resultPending_pending ..⟩
  · rw [own, own]
    exact calResult_agreed (by omega) agree
  · rw [resultIdle, if_neg (by omega), writeItem, decide_eq_false (by omega)]
    rfl
  · rw [resultPending, itemStatus, fld_setFld_same _ _ _ _ (by decide)]
    rfl
  · rw [own, own, resultPending, itemStatus, fld_setFld_other _ _ _ _ (by decide), runCompared, agree]
    rfl

/-- SLICE_SWAP's result waits for its lane's gap with the position visited, and the next visit is one on. -/
theorem ends_calRunDone_swap (item : 8 ≤ n ∧ n < 16)
    (agree : placeAgrees (runResult n x (z.take 3)) (runResult n y (z.drop 3)) 16 = true)
    (reads : (pairOf s ((n - 8) / 2)).run.isSome = true) : Ends (.calRunDone n x y z) s (fun t =>
      (t.cal.pending.getLast?.map (fun q => (q.item, q.places))) = some (n, [tget (dflt 0) s.cal.positions (n - 8)]) ∧
      tget (dflt 0) t.cal.positions (n - 8) = (tget (dflt 0) s.cal.positions (n - 8) + 1) % 16) := by
  have agreed : resultsAgree n (runResult n x (z.take 3)) (runResult n y (z.drop 3)) = true := by
    rw [resultsAgree]
    dsimp only
    rw [if_neg (by omega), if_pos item.2, agree]
  refine ⟨_, exec_calRunDone_busy runs (by
    rw [calResult]
    dsimp only
    rw [if_neg (by omega), agreed, if_neg (by decide), if_pos item.2]) ?_, ?_, ?_⟩
  · have owner (t : State) : itemOwner t n = (n - 8) / 2 := by
      rw [itemOwner, if_neg (by omega), if_pos item.2]
    rw [resultIdle, if_pos (by omega), owner, pairOf_resultPending, Option.isNone_eq_false_iff]
    exact reads
  · rw [resultPending_pending, List.getLast?_concat]
    rfl
  · change tget (dflt 0) (runCompared s n _ _).cal.positions (n - 8) = _
    rw [runCompared_cal, runTaken, if_pos (decide_eq_true item)]
    exact tget_tset_same ..

/-- SLICE_TRIM of a lane in a run: what agrees waits, and the rest is reported. -/
theorem ends_calRunDone_trim {c : CalPend} (item : n < 8) (differ : resultsAgree n x y = false)
    (left : calResult n 0 x y = some c) (reads : (pairOf s (n / 2)).run.isSome = true)
    (room : (waitingAt s .cal).length < 4) : Ends (.calRunDone n x y z) s (fun t =>
      c.places = placesAgreed x y ∧
      t.cal.pending = s.cal.pending.filter (fun q => decide (q.item ≠ n)) ++ [c] ∧
      waitingAt t .cal = waitingAt s .cal ++ [faultMsg 16 FK.calDisagree 3 n]) := by
  have own (w : List Int) (l : List Int) : runResult n w l = w := runResult_of_ne (.inl item) ..
  have anywhere (p : Nat) : calResult n p x y = calResult n 0 x y := by
    rw [calResult, calResult, if_pos item, if_pos item]
  have places : c.places = placesAgreed x y := by
    rw [calResult, if_pos item] at left
    dsimp only at left
    split at left
    · cases left
    · cases left
      rfl
  refine ⟨_, exec_calRunDone_busy runs (c := c) ?_ ?_, places, resultPending_pending .., ?_⟩
  · rw [own, own, anywhere, left]
  · rw [resultIdle, if_pos (by omega), itemOwner, if_pos item, pairOf_resultPending, Option.isNone_eq_false_iff]
    exact reads
  · rw [own, own, waitingAt_resultPending, runCompared, differ, if_neg Bool.false_ne_true,
      (disagreed_room (s := runTaken s n) room).sent, waitingAt_runTaken]

/-- PAIR_SKEW's agreeing runs take effect at once on an idle pair. -/
theorem ends_calRunDone_skew (item : n = 26) (agree : resultsAgree n x y = true) (idle : (pairOf s 2).run = none) :
    Ends (.calRunDone n x y z) s (fun t =>
      fld t F.CAL_COUNT_LAST_STATUS n = 0 ∧
      fld t F.CAL_COUNT_COUNT n = min (fld s F.CAL_COUNT_COUNT n + 1) (2 ^ 24 - 1) ∧
      fld t F.CAL_LAST_TIME n = now s % 2 ^ 48 ∧
      pendingBit t 17 = true) := by
  subst item
  have own (w : List Int) (l : List Int) : runResult 26 w l = w := runResult_of_ne (.inr (by decide)) ..
  refine ⟨_, exec_calRunDone_idle runs (c := { item := 26, vals := meanOf x y }) ?_ rfl ?_, ?_⟩
  · rw [own, own]
    exact calResult_agreed (by decide) agree
  · have owner (t : State) : itemOwner t 26 = 2 := rfl
    rw [resultIdle, if_pos (by decide), owner, pairOf_resultPending, idle]
    rfl
  · rw [own, own, runCompared, agree, if_pos rfl]
    exact pairSkew_taken s x y

end Runs

/-- Settles O47: CAL_CMD by the status it gives, the start of a request by its precondition, and an item's two runs by whether
they agree and whether its unit is idle. -/
theorem calibration : Obligations.Calibration := by
  refine ⟨?_, ?_, ?_, ?_, ?_, ?_, ?_, ?_, ?_, ?_, ?_, ?_, ?_, ?_, ?_, ?_, ?_, ?_, ?_⟩
  · intro s v asked used present room
    obtain ⟨t, e, status, item, cal, leaves⟩ := ends_calRequest (status := 0)
      (by rw [calCmdStatus_used asked used, present, if_neg (by decide), if_neg (by omega)]) (by decide)
    exact ⟨t, e, cal, status, item, leaves⟩
  · intro s v refused
    have unused : getBits v 0 11 < 16 ∨ itemUsed (getBits v 0 11) = false :=
      refused.imp_right fun h => decide_eq_false (by omega)
    obtain ⟨t, e, status, -, cal, leaves⟩ := ends_calRequest (status := 0x15) (if_pos unused) (by decide)
    exact ⟨t, e, status, cal, leaves⟩
  · intro s v asked used absent
    obtain ⟨t, e, status, -, cal, -⟩ := ends_calRequest (status := 0xFF)
      (by rw [calCmdStatus_used asked used, if_pos absent]) (by decide)
    exact ⟨t, e, status, cal⟩
  · intro s v asked used present full
    obtain ⟨t, e, status, -, cal, -⟩ := ends_calRequest (status := 0x14)
      (by rw [calCmdStatus_used asked used, present, if_neg (by decide), if_pos full]) (by decide)
    exact ⟨t, e, status, cal⟩
  · intro s o k n idle oldest item ready
    exact ⟨_, (exec_calStart idle oldest item).trans (by rw [if_pos ready]), rfl⟩
  · intro s o k n idle oldest item waits
    refine ⟨_, (exec_calStart idle oldest item).trans (by rw [if_neg (by simp [waits])]), rfl, ?_,
      ((Keeps.upd .refl).trans (keeps_itemStatus (unqueued s k) n 0x13)).leaves⟩
    exact fld_setFld_same _ _ _ _ (by decide)
  · exact fun s o held => ⟨s, exec_calStart_held held, rfl⟩
  · exact fun s n => ⟨itemReady_svg, itemReady_parked, fun spindle => by rw [spindle]; rfl,
      fun _ low ready => onTrack_of_itemReady low ready⟩
  · intro s lane on present active safe power idle mode swap
    refine ⟨_, congrArg Host.Outcome.next (if_pos ?_), ?_⟩
    · rw [on, active, safe, power, idle, mode, swap, decide_eq_true present, beq_self_eq_true]
      rfl
    · rw [mode]
  · intro s lane changing
    exact ⟨_, congrArg Host.Outcome.next (if_neg (by simp [changing])), rfl⟩
  · intro s lane off
    exact ⟨_, congrArg Host.Outcome.next (if_neg (by rcases off with h | h <;> simp [h])), rfl⟩
  · exact fun s n x y z runs differ past room => ends_calRunDone_disagree runs differ past room
  · exact fun s n x y z runs agree item => ends_calRunDone_waits runs agree item
  · exact fun s n x y z runs item agree reads => ends_calRunDone_swap runs item agree reads
  · exact fun s n x y z c runs item differ left reads room => ends_calRunDone_trim runs item differ left reads room
  · exact fun s n x y z runs item agree idle => ends_calRunDone_skew runs item agree idle
  · intro s n x y z stopped
    exact ⟨_, by
      change execCalRunDone n x y z s = _
      rw [execCalRunDone]
      dsimp only
      rw [stopped]
      rfl, rfl⟩
  · exact fun s n runs room => ends_calTimeout runs room
  · intro s
    obtain ⟨t, e, cal, flag, status, leaves⟩ := ends_calBlockReset s
    exact ⟨t, e, by rw [cal], by rw [cal], by rw [cal], by rw [cal], by rw [cal], flag, status, leaves⟩

end Sys2Proof.Machine

end

section
-- `decide` waits for the kernel: a thread for each of these proofs would exhaust the memory limit.
set_option Elab.async false

namespace Sys2Proof.Machine

/-! ### A replay's end makes room for the pool's next (R95, R127) -/

/-- What stands behind the running replay of `replaysFull`: three more of firmware's. -/
def replaysBehind : List Replay := [{}, {}, {}]

/-- Pair 0 with four replays of firmware's queued, the first of them running, while a job of the pool on rung 4 waits for room
to ask for its own of slot 0. -/
def replaysFull : State :=
  setDcp (setPair State.reset 0 {
    slots := [(0, { valid := true, markA := some (0, 0) })]
    replays := { entry := some 0, running := true } :: replaysBehind }) 0 {
    entries := [(0, { st := .reserved })]
    jobs := [{ id := 1, failed := true, left := 8, want := true, plan := [{ rung := 4, off := 1, cap := 8 }] }] }

/-- The replay that ends leaves the queue, and the pool's joins it in the same step. -/
theorem length_replays_replaysFull :
    (pairOf (stateOf (exec (.replayDone 0 false false false) replaysFull) replaysFull) 0).replays.length = 4 := by
  decide +kernel

/-- Refutes O3: its clause on a replay's end asks that only the replays behind it stay queued, but the room it makes lets the
pool queue the request a full queue had kept waiting (R127): of four replays queued, four are queued after the first ends. -/
theorem not_laneRatesRetentionAndReplays : ¬ Obligations.LaneRatesRetentionAndReplays := by
  intro h
  obtain ⟨-, -, -, -, -, -, -, -, -, -, -, -, ends, -⟩ := h
  obtain ⟨t, e, queue, -⟩ := ends replaysFull 0 { entry := some 0, running := true } replaysBehind (by decide +kernel) rfl
  have four := length_replays_replaysFull
  rw [e, stateOf, queue] at four
  exact absurd four (by decide)

end Sys2Proof.Machine

end

section
-- `decide` waits for the kernel: a thread for each of these proofs would exhaust the memory limit.
set_option Elab.async false

namespace Sys2Proof.Machine

/-! ### The newest sector and the slots of a pair -/

@[simp] theorem getLast?_modLast (l : List LiveSector) (f : LiveSector → LiveSector) :
    (modLast l f).getLast? = l.getLast?.map f := by
  unfold modLast
  cases h : l.getLast? with
  | none => exact h
  | some x => exact List.getLast?_concat

@[simp] theorem length_modLast (l : List LiveSector) (f : LiveSector → LiveSector) : (modLast l f).length = l.length := by
  unfold modLast
  cases h : l.getLast? with
  | none => rfl
  | some x =>
    have nonempty : 0 < l.length := List.length_pos_of_mem (List.mem_of_getLast? h)
    rw [List.length_append, List.length_dropLast, List.length_singleton]
    omega

theorem slotAt_setSlot (p : Pair) (k m : Nat) (x : RetSlot) : slotAt (setSlot p k x) m = if m = k then x else slotAt p m := by
  split
  · rename_i e
    rw [e]
    exact tget_tset_same ..
  · rename_i e
    exact tget_tset_ne _ _ e

/-! ### What samples leave of a pair (R89, R93)

Samples move the loops, the samples held and what the sectors have gathered; the path's state, the run and the slots as they were
claimed stand. -/

/-- Two slots hold the same sector. -/
structure SameSlot (x y : RetSlot) : Prop where
  valid : y.valid = x.valid
  seq : y.seq = x.seq
  sector : y.sector = x.sector

/-- The path's state, the run and the claimed slots stand, and as many sectors are read. -/
structure SamePath (p q : Pair) : Prop where
  live : q.live = p.live
  gate : q.gate = p.gate
  reading : q.reading = p.reading
  run : q.run = p.run
  nextSeq : q.nextSeq = p.nextSeq
  sectors : q.sectors.length = p.sectors.length
  slot : ∀ k, SameSlot (slotAt p k) (slotAt q k)

namespace SamePath

variable {p q r : Pair}

theorem refl : SamePath p p := ⟨rfl, rfl, rfl, rfl, rfl, rfl, fun _ => ⟨rfl, rfl, rfl⟩⟩

theorem trans (h : SamePath p q) (k : SamePath q r) : SamePath p r :=
  ⟨k.live.trans h.live, k.gate.trans h.gate, k.reading.trans h.reading, k.run.trans h.run, k.nextSeq.trans h.nextSeq,
    k.sectors.trans h.sectors, fun m => ⟨(k.slot m).valid.trans (h.slot m).valid, (k.slot m).seq.trans (h.slot m).seq,
      (k.slot m).sector.trans (h.slot m).sector⟩⟩

/-- The pair Spool has no part in it. -/
theorem spool (l : List Word) : SamePath p { p with spool := l } :=
  ⟨rfl, rfl, rfl, rfl, rfl, rfl, fun _ => ⟨rfl, rfl, rfl⟩⟩

end SamePath

theorem samePath_pathClock (c : PathCtl) (n : Nat) (ls ts : List Int) (p : Pair) : SamePath p (pathClock c n ls ts p) := by
  have same (q : Pair) (h : q.sectors.length = p.sectors.length) (live : q.live = p.live) (gate : q.gate = p.gate)
      (reading : q.reading = p.reading) (run : q.run = p.run) (seq : q.nextSeq = p.nextSeq) (slots : q.slots = p.slots) :
      SamePath p q :=
    ⟨live, gate, reading, run, seq, h, fun k => by unfold slotAt; rw [slots]; exact ⟨rfl, rfl, rfl⟩⟩
  unfold pathClock
  extract_lets v lead trail p1 sum sumT ys us fl ft flagged now span p2 rate
  split
  · split
    · extract_lets x p3 w p4
      split
      · exact same _ (by simp [p4, p3, p2, p1]) rfl rfl rfl rfl rfl rfl
      · exact same _ (by simp [p4, p3, p2, p1]) rfl rfl rfl rfl rfl rfl
    · exact same _ (by simp [p2, p1]) rfl rfl rfl rfl rfl rfl
  · exact same _ rfl rfl rfl rfl rfl rfl rfl

theorem samePath_laneClocks (c : PathCtl) (l : List (List Int × List Int)) : ∀ (n : Nat) (p : Pair),
    SamePath p (laneClocks c n l p) := by
  induction l with
  | nil => exact fun _ _ => .refl
  | cons x l ih =>
    intro n p
    have clock : SamePath p (laneClock c n x.1 x.2 p) := (SamePath.spool _).trans (samePath_pathClock ..)
    exact clock.trans (ih _ _)

theorem samePath_drainSpool (c : PathCtl) (l : List (List Int)) : ∀ (n : Nat) (p : Pair), SamePath p (drainSpool c n l p) := by
  induction l with
  | nil => exact fun _ _ => .refl
  | cons x l ih =>
    intro n p
    unfold drainSpool
    split
    · exact .refl
    · exact ((SamePath.spool _).trans (samePath_pathClock ..)).trans (ih _ _)

theorem samePath_retainSamples (c : PathCtl) (p : Pair) : SamePath p (retainSamples c p) := by
  unfold retainSamples
  split
  · rename_i x _ _
    extract_lets y
    split
    · refine ⟨rfl, rfl, rfl, rfl, rfl, rfl, fun k => ?_⟩
      rw [slotAt_setSlot]
      split
      · rename_i e
        rw [e]
        exact ⟨rfl, rfl, rfl⟩
      · exact ⟨rfl, rfl, rfl⟩
    · exact .refl
  · exact .refl

theorem samePath_sampled (s : State) (a : Nat) (spans : List AdcSpan) : SamePath (pairOf s a) (sampled s a spans) :=
  (samePath_laneClocks ..).trans (samePath_retainSamples ..)

theorem samePath_spoolDrift (s : State) (a : Nat) (full : Bool) (spans : List AdcSpan) :
    SamePath (pairOf s a) (spoolDrift s a full spans) := by
  unfold spoolDrift
  extract_lets p l c
  split
  · exact .spool _
  · exact (samePath_drainSpool ..).trans (samePath_retainSamples ..)

@[simp] theorem pairOf_takeSamples (s : State) (a : Nat) (spans : List AdcSpan) :
    pairOf (takeSamples s a spans) a = sampled s a spans := pairOf_setPair_same ..

theorem samePath_takeSamples (s : State) (a : Nat) (spans : List AdcSpan) :
    SamePath (pairOf s a) (pairOf (takeSamples s a spans) a) := by
  rw [pairOf_takeSamples]
  exact samePath_sampled ..

/-- Samples reach no register. -/
@[simp] theorem fld_takeSamples (s : State) (a : Nat) (spans : List AdcSpan) (f : Fld) (i : Nat) :
    fld (takeSamples s a spans) f i = fld s f i := rfl

/-! ### A sector's start (R89 to R91, R93) -/

/-- A sector opened in slot k, as the sector number `sector` and as the newest sector read. -/
structure SectorOpen (p : Pair) (k sector : Nat) (q : Pair) : Prop where
  live : q.live = .acquire
  gate : q.gate = true
  reading : q.reading = true
  valid : (slotAt q k).valid = true
  seq : (slotAt q k).seq = p.nextSeq
  sector : (slotAt q k).sector = sector
  sectors : q.sectors.length = p.sectors.length + 1

/-- It stands under samples before its start and after it. -/
theorem SectorOpen.between {p p' q q' : Pair} {k sector : Nat} (h : SectorOpen p' k sector q) (before : SamePath p p')
    (after : SamePath q q') : SectorOpen p k sector q' :=
  ⟨after.live.trans h.live, after.gate.trans h.gate, after.reading.trans h.reading, (after.slot k).valid.trans h.valid,
    (after.slot k).seq.trans (h.seq.trans before.nextSeq), (after.slot k).sector.trans h.sector,
    after.sectors.trans (h.sectors.trans (by rw [before.sectors]))⟩

theorem sectorOpen_openSector (s : State) (a k : Nat) (r : LaneRun) (phase : Option Nat) (zps : Bool) :
    SectorOpen (pairOf s a) k r.next (pairOf (openSector s a k r phase zps) a) := by
  unfold openSector
  extract_lets e s1 p v1 v2 v3 old q
  have pair : p = pairOf s a := by
    cases h : e with
    | none => simp only [p, s1, h]
    | some n =>
      simp only [p, s1, h]
      rfl
  have slot : slotAt q k = _ := (slotAt_setSlot ..).trans (if_pos rfl)
  rw [pairOf_setPair_same]
  refine ⟨rfl, rfl, rfl, ?_, ?_, ?_, ?_⟩
  · exact (congrArg RetSlot.valid slot :)
  · exact (congrArg RetSlot.seq slot).trans (by rw [pair])
  · exact (congrArg RetSlot.sector slot :)
  · change (p.sectors ++ [_]).length = _
    rw [List.length_append, pair, List.length_singleton]

/-- The pair as the preamble starts: its reads may open the gate (R154), and the samples before the start have passed. -/
def preambleReached (s : State) (a : Nat) (spans : GateSpans) : State :=
  takeSamples (setWrp s a { wrpOf s a with readReady := true }) a spans.before

theorem exec_sectorPreambleStart {s : State} {a k : Nat} {preheated : Bool} {r : LaneRun} (theta : Nat) (spans : GateSpans)
    (armed : (pairOf s a).live = .armed) (run : (pairOf s a).run = some r) (ready : readHeatReady s a preheated = true)
    (claim : claimable (pairOf s a) = some k) : exec (.sectorPreambleStart a theta spans preheated) s = .next
      (let u := preambleReached s a spans
      let zps := !r.seedPhase && flag u F.LNE_TIM_CTL_ZPS_EN a
      let t := takeSamples (openSector u a k r (if r.seedPhase then some (phaseSeed u a theta) else none) zps) a spans.preamble
      if zps then
        setPair { t with free := t.free + 1 } a { pairOf t a with vals := zeroPhase (pathCtl t a) t.free (pairOf t a) }
      else t) := by
  change execSectorPreambleStart a theta spans preheated s = _
  rw [execSectorPreambleStart, armed, run]
  dsimp only
  rw [ready, if_neg (by decide), claim]
  rfl

/-- The next preamble opens the sector whose slot is claimed; the samples around its start and zero-phase start change nothing
of that. -/
theorem ends_sectorPreambleStart {s : State} {a theta k : Nat} {spans : GateSpans} {preheated : Bool} {r : LaneRun}
    (armed : (pairOf s a).live = .armed) (run : (pairOf s a).run = some r) (ready : readHeatReady s a preheated = true)
    (claim : claimable (pairOf s a) = some k) : Ends (.sectorPreambleStart a theta spans preheated) s (fun t =>
      SectorOpen (pairOf s a) k r.next (pairOf t a)) := by
  refine ⟨_, exec_sectorPreambleStart theta spans armed run ready claim, ?_⟩
  extract_lets u zps t
  have before : SamePath (pairOf s a) (pairOf u a) := samePath_takeSamples (setWrp s a _) a spans.before
  have opened : SectorOpen (pairOf s a) k r.next (pairOf t a) :=
    (sectorOpen_openSector u a k r _ zps).between before (samePath_takeSamples ..)
  split
  · refine opened.between .refl ?_
    rw [pairOf_setPair_same]
    exact ⟨rfl, rfl, rfl, rfl, rfl, rfl, fun _ => ⟨rfl, rfl, rfl⟩⟩
  · exact opened

/-- With every slot held the run is to end RETAIN_FULL (R93). -/
theorem ends_sectorPreambleStart_full {s : State} {a theta : Nat} {spans : GateSpans} {preheated : Bool} {r : LaneRun}
    (armed : (pairOf s a).live = .armed) (run : (pairOf s a).run = some r) (ready : readHeatReady s a preheated = true)
    (full : claimable (pairOf s a) = none) (waiting : (pairOf s a).sectors ≠ []) :
    Ends (.sectorPreambleStart a theta spans preheated) s (fun t =>
      pairOf t a = { pairOf s a with live := .idle, run := some { r with ending := some 0x10 } }) := by
  refine ⟨_, rfl, ?_⟩
  rw [armed, run]
  dsimp only
  rw [ready, if_neg (by decide), full]
  dsimp only
  rw [lneBoundary, run]
  dsimp only
  rw [if_neg (by simpa using waiting), pairOf_setPair_same]

/-! ### Tracking and mark A (R85 to R87) -/

theorem ends_acquireEnd {s : State} {a : Nat} {spans : List AdcSpan} (acquires : (pairOf s a).live = .acquire) :
    Ends (.acquireEnd a spans) s (fun t => pairOf t a = { sampled s a spans with live := .syncA }) := by
  refine ⟨_, rfl, ?_⟩
  rw [acquires]
  dsimp only
  rw [pairOf_setPair_same, pairOf_takeSamples]

section MarkA

variable {s : State} {a : Nat} {preamble window : List AdcSpan} {x : LiveSector} (sync : (pairOf s a).live = .syncA)
  (newest : (sampled s a (preamble ++ window)).sectors.getLast? = some x)
include sync newest

/-- With its window complete mark A is decided on the newest sector. -/
theorem ends_markADecision (complete : 128 + fld s F.LNE_SYNC_CTL_WIN a ≤ x.bits.length) :
    Ends (.markADecision a preamble window) s (fun t =>
      (pairOf t a).live = (if (findMark s a (markA s a) 96 x.bits).isSome then .stream else .bSearch) ∧
      (pairOf t a).sectors.getLast? =
        some { x with aFound := findMark s a (markA s a) 96 x.bits, aDone := true }) := by
  refine ⟨_, rfl, ?_⟩
  rw [sync]
  dsimp only
  rw [pairOf_takeSamples, newest]
  dsimp only
  rw [if_pos (by exact complete), pairOf_setPair_same]
  refine ⟨rfl, ?_⟩
  rw [getLast?_modLast, newest]
  rfl

theorem ends_markADecision_waits (short : x.bits.length < 128 + fld s F.LNE_SYNC_CTL_WIN a) :
    Ends (.markADecision a preamble window) s (fun t => pairOf t a = sampled s a (preamble ++ window)) := by
  refine ⟨_, rfl, ?_⟩
  rw [sync]
  dsimp only
  rw [pairOf_takeSamples, newest]
  dsimp only
  rw [if_neg (by rw [fld_takeSamples]; omega), pairOf_takeSamples]

end MarkA

end Sys2Proof.Machine

end

section
-- `decide` waits for the kernel: a thread for each of these proofs would exhaust the memory limit.
set_option Elab.async false

namespace Sys2Proof.Machine

/-! ### The end of a read run

It answers the media operation, lets calibration results take effect and serves the preamp port; the sectors and packets of the
pair stand, and of the registers only those of `lneEndRegs` change, LNE_RUN_STAT in its status alone. -/

theorem pairs_headControlFrame (s : State) (a : Nat) : (headControlFrame s a).pairs = s.pairs := by
  unfold headControlFrame
  dsimp only
  split
  · split <;> rfl
  · split
    · rfl
    · split <;> rfl

theorem pairOf_pspArb (s : State) (a b : Nat) : pairOf (pspArb s a) b = pairOf s b := by
  have pairs : (pspArb s a).pairs = s.pairs := by
    unfold pspArb
    split
    · rfl
    · split
      · rfl
      · dsimp only
        split
        · exact (pairs_headControlFrame ..).trans rfl
        · rfl
        · rfl
  rw [pairOf, pairs, pairOf]

/-- The registers the end of a read run changes beside its status. -/
def lneEndRegs : List Reg := .LNE_RATE_STAT :: calRegs

/-- What the end of a read run leaves of its pair and of the registers. -/
structure ReadEnd (s : State) (a : Nat) (t : State) : Prop where
  sectors : (pairOf t a).sectors = (pairOf s a).sectors
  packets : (pairOf t a).packets = (pairOf s a).packets
  fld : ∀ (f : Fld) (i : Nat), f.reg ∉ lneEndRegs → f.reg ≠ .LNE_RUN_STAT ∨ 11 ≤ f.lo → f.reg.info.block ∉ reportBlocks →
    fld t f i = fld s f i

theorem ReadEnd.refl {s : State} {a : Nat} : ReadEnd s a s := ⟨rfl, rfl, fun _ _ _ _ _ => rfl⟩

theorem readEnd_lneEnd (s : State) (a status : Nat) : ReadEnd s a (lneEnd s a status) := by
  cases h : (pairOf s a).run with
  | none =>
    rw [lneEnd, h]
    exact .refl
  | some r =>
    rw [lneEnd, h]
    dsimp only
    have answered (t : State) (k st n : Nat) (o : OpRef) (p : Nat → Bool) :
        pairOf (calBoundary (mediaDone (releaseCtx t a k) o st n false) p) a = pairOf t a :=
      pairOf_of_unitState ((unitState_calBoundary ..).trans ((unitState_mediaDone ..).trans (unitState_releaseCtx ..))) a
    have unlocked (t : State) (c : Bool) : pairOf (when c (fun u => setFlag u F.LNE_RATE_STAT_LOCKED a false) t) a = pairOf t a :=
      pairOf_of_unitState (unitState_when (fun _ => unitState_setFlag ..) ..) a
    refine ⟨?_, ?_, fun f i regs status block => ?_⟩
    · rw [pairOf_pspArb, answered, setCtx, pairOf_setDcp, pairOf_setFld, unlocked, pairOf_setPair_same]
    · rw [pairOf_pspArb, answered, setCtx, pairOf_setDcp, pairOf_setFld, unlocked, pairOf_setPair_same]
    · have cal : f.reg ∉ calRegs := fun m => regs (List.mem_cons_of_mem _ m)
      have lock : f.reg ≠ .LNE_RATE_STAT := fun e => regs (by rw [e]; decide)
      have quiet (t : State) (c : Bool) : fld (when c (fun u => setFlag u F.LNE_RATE_STAT_LOCKED a false) t) f i = fld t f i := by
        cases c
        · rfl
        · exact fld_setFld_ne t _ (.inl lock)
      have released (t : State) (k : Nat) : fld (releaseCtx t a k) f i = fld t f i :=
        fld_eq_of_rd ((keeps_releaseCtx ..).regs _ _ List.not_mem_nil)
      rw [fld_pspArb, (writes_calBoundary ..).fld f i cal block, (writes_mediaDone (l := []) ..).fld f i List.not_mem_nil block,
        released, setCtx, fld_setDcp, fld_setFld_other _ _ _ _ (status.imp_right .inr), quiet, fld_setPair]

/-! ### The mark B window (R86 to R88, R638) -/

/-- The sector whose mark B is decided taken off the pair, with what its slot and the counters record. -/
def sectorPassed (s : State) (a : Nat) (x : LiveSector) (rest : List LiveSector) (b : Option (Int × Nat)) : State :=
  let p := pairOf s a
  let q := setSlot p x.slot (let y := slotAt p x.slot
    if y.seq = x.seq then { y with markB := b } else y)
  let t := countSector (setPair s a { q with sectors := rest }) a (sectorStatus x b)
  lifePart (when (decide (x.run = p.runs)) (fun u => bump u F.LNE_RUN_STAT_SECTORS a) t) 3 1000000 4096

/-- The sector passed and delivered. -/
def sectorDelivered (s : State) (a : Nat) (x : LiveSector) (rest : List LiveSector) (b : Option (Int × Nat)) : State :=
  deliverSector (sectorPassed s a x rest b) a x b

/-- The mark B that is found while it is sought. -/
def soughtB (s : State) (a : Nat) (x : LiveSector) : Option (Int × Nat) :=
  if (if x.aFound.isSome then flag s F.LNE_SYNC_CTL_B_CHECK a else flag s F.LNE_SYNC_CTL_B_FALLBACK a) then
    findMark s a (markB s a) (128 + codeN x.code) x.bits
  else none

/-- The oldest sector is passed and delivered; what may follow is the end of its run. -/
theorem markBDecision_cons {s : State} {a : Nat} {x : LiveSector} {rest : List LiveSector}
    (oldest : (pairOf s a).sectors = x :: rest) (decided : x.aDone = true) (past : (pairOf s a).reading = true → rest ≠ []) :
    ReadEnd (sectorDelivered s a x rest (soughtB s a x)) a (markBDecision s a) := by
  rw [markBDecision, oldest]
  dsimp only
  rw [if_neg (by simpa [decided] using past)]
  change ReadEnd _ a (match (pairOf (sectorDelivered s a x rest (soughtB s a x)) a).run with
    | some r => if rest.isEmpty ∧ (pairOf (sectorDelivered s a x rest (soughtB s a x)) a).live = .idle then
        lneEnd (sectorDelivered s a x rest (soughtB s a x)) a (r.ending.getD 0)
      else sectorDelivered s a x rest (soughtB s a x)
    | none => sectorDelivered s a x rest (soughtB s a x))
  split
  · split
    · exact readEnd_lneEnd ..
    · exact .refl
  · exact .refl

theorem pairOf_countSector (s : State) (a status b : Nat) : pairOf (countSector s a status) b = pairOf s b := by
  unfold countSector
  split <;> rfl

/-- The pair once the sector has passed: it is no longer read, and no packet has gone out yet. -/
theorem sectorPassed_pair (s : State) (a : Nat) (x : LiveSector) (rest : List LiveSector) (b : Option (Int × Nat)) :
    (pairOf (sectorPassed s a x rest b) a).sectors = rest ∧
    (pairOf (sectorPassed s a x rest b) a).packets = (pairOf s a).packets := by
  have counted (t : State) (c : Bool) :
      pairOf (lifePart (when c (fun u => bump u F.LNE_RUN_STAT_SECTORS a) t) 3 1000000 4096) a = pairOf t a := by
    cases c <;> rfl
  rw [sectorPassed]
  dsimp only
  rw [counted, pairOf_countSector, pairOf_setPair_same]
  exact ⟨rfl, rfl⟩

/-- A sector of the run in progress is counted. -/
theorem sectorPassed_sectors {s : State} {a : Nat} {x : LiveSector} {rest : List LiveSector} {b : Option (Int × Nat)}
    (current : x.run = (pairOf s a).runs) : fld (sectorPassed s a x rest b) F.LNE_RUN_STAT_SECTORS a =
      min (fld s F.LNE_RUN_STAT_SECTORS a + 1) 65535 := by
  have counter (t : State) (status : Nat) : fld (countSector t a status) F.LNE_RUN_STAT_SECTORS a =
      fld t F.LNE_RUN_STAT_SECTORS a := by
    unfold countSector
    split
    · exact fld_bump_other _ _ _ _ (by decide)
    · exact fld_bump_other _ _ _ _ (by decide)
    · exact fld_bump_other _ _ _ _ (by decide)
    · exact fld_bump_other _ _ _ _ (by decide)
    · rfl
  rw [sectorPassed]
  dsimp only
  rw [fld_lifePart, decide_eq_true current, when, if_pos rfl, fld_bump_same _ _ _ _ (by decide), counter]
  rfl

/-- A sector without a mark is counted as one. -/
theorem sectorPassed_syncLost {s : State} {a : Nat} {x : LiveSector} {rest : List LiveSector} {b : Option (Int × Nat)}
    (lost : sectorStatus x b = 2) : fld (sectorPassed s a x rest b) F.LNE_CNT_SYNC_LOST a =
      min (fld s F.LNE_CNT_SYNC_LOST a + 1) 65535 := by
  have other (t : State) (c : Bool) : fld (when c (fun u => bump u F.LNE_RUN_STAT_SECTORS a) t) F.LNE_CNT_SYNC_LOST a =
      fld t F.LNE_CNT_SYNC_LOST a := by
    cases c
    · rfl
    · exact fld_bump_other _ _ _ _ (by decide)
  rw [sectorPassed]
  dsimp only
  rw [fld_lifePart, other, lost, countSector, fld_bump_same _ _ _ _ (by decide)]
  rfl

/-! What is delivered. -/

theorem pairOf_sendPacket (s : State) (a : Nat) (k : Packet) :
    pairOf (sendPacket s a k) a = { pairOf s a with packets := (pairOf s a).packets ++ [k] } := pairOf_setPair_same ..

/-- Delivery takes no sector off the pair and reaches no register. -/
theorem sectors_deliverSector (s : State) (a : Nat) (x : LiveSector) (b : Option (Int × Nat)) :
    (pairOf (deliverSector s a x b) a).sectors = (pairOf s a).sectors := by
  unfold deliverSector
  extract_lets tr pk
  split
  · rw [pairOf_sendPacket]
  · split
    · rw [pairOf_sendPacket]
    · split
      · split <;> rfl
      · rw [pairOf_setPair_same]

theorem fld_deliverSector (s : State) (a : Nat) (x : LiveSector) (b : Option (Int × Nat)) (f : Fld) (i : Nat) :
    fld (deliverSector s a x b) f i = fld s f i :=
  fld_eq_of_rd ((keeps_deliverSector ..).regs _ _ List.not_mem_nil)

/-- With no mark found a trailer alone goes out. -/
theorem deliverSector_lost {s : State} {a : Nat} {x : LiveSector} {b : Option (Int × Nat)} (lost : sectorStatus x b = 2) :
    ∃ k : Packet, deliverSector s a x b = sendPacket s a k ∧ k.only = true ∧ k.trailer.status = 2 :=
  ⟨_, if_pos lost, rfl, lost⟩

/-- With mark A found and an entry reserved the sector's packet goes out. -/
theorem deliverSector_found {s : State} {a : Nat} {x : LiveSector} {b : Option (Int × Nat)}
    (found : x.aFound.isSome = true) (entry : x.entry.isSome = true) :
    ∃ k : Packet, deliverSector s a x b = sendPacket s a k := by
  have marked : (sectorTrailer x b).status ≠ 2 := by
    change sectorStatus x b ≠ 2
    obtain ⟨m, mark⟩ := Option.isSome_iff_exists.1 found
    rw [sectorStatus, mark, if_neg (by simp)]
    split
    · decide
    · split <;> simp
  exact ⟨_, (if_neg marked).trans (if_pos ⟨found, entry⟩)⟩

theorem sectorStatus_lost {x : LiveSector} (unmarked : x.aFound = none) : sectorStatus x none = 2 := by
  rw [sectorStatus, unmarked]
  rfl

/-! ### The splice gap (Table 3.3) -/

theorem closeSector_path (s : State) (a : Nat) (p : Pair) :
    (closeSector s a p).live = p.live ∧ (closeSector s a p).run = p.run := by
  unfold closeSector
  split <;> exact ⟨rfl, rfl⟩

/-- With sectors left the gap closes the gate and arms the path. -/
theorem spliceGapEnd_armed {s : State} {a : Nat} {r : LaneRun} (run : (pairOf s a).run = some r)
    (reads : (pairOf s a).live = .stream ∨ (pairOf s a).live = .bSearch) (left : r.next < r.count) (goes : r.ending = none) :
    (pairOf (spliceGapEnd s a) a).live = .armed ∧ (pairOf (spliceGapEnd s a) a).gate = false ∧
    (pairOf (spliceGapEnd s a) a).reading = false := by
  obtain ⟨live, same⟩ := closeSector_path s a (pairOf s a)
  have more : (decide (r.next < r.count) && r.ending.isNone) = true := by rw [decide_eq_true left, goes]; rfl
  rw [spliceGapEnd]
  dsimp only
  rw [same, run]
  dsimp only
  rw [if_pos (by rwa [live]), more, if_neg (by simp), pairOf_pspArb, pairOf_setPair_same]
  exact ⟨rfl, rfl, rfl⟩

theorem ends_spliceGapEnd {s : State} {a : Nat} {spans : List AdcSpan} {r : LaneRun} (run : (pairOf s a).run = some r)
    (reads : (pairOf s a).live = .stream ∨ (pairOf s a).live = .bSearch) (left : r.next < r.count) (goes : r.ending = none) :
    Ends (.spliceGapEnd { act := a, spans := spans }) s (fun t =>
      (pairOf t a).live = .armed ∧ (pairOf t a).gate = false ∧ (pairOf t a).reading = false) := by
  have path := samePath_takeSamples s a spans
  refine ⟨_, congrArg Host.Outcome.next (if_pos ⟨by rw [run]; rfl, reads⟩), ?_⟩
  dsimp only
  rw [pairOf_of_unitState (unitState_calBoundary ..)]
  exact spliceGapEnd_armed (path.run.trans run) (by rwa [path.live]) left goes

/-! ### Slips and flagged spans (R66, R81) -/

/-- A slip marks the sector being read and asks for the gap's recentring. -/
theorem ends_pairSlip {s : State} {a : Nat} {full : Bool} {spans : List AdcSpan} {x : LiveSector}
    (reads : (pairOf s a).reading = true) (newest : (pairOf s a).sectors.getLast? = some x)
    (limit : (spoolDrift s a full spans).spool.length = (if full then 13 else 0)) :
    Ends (.pairSlip { act := a, spans := spans } full) s (fun t =>
      (pairOf t a).recentre = true ∧
      ((pairOf t a).sectors.getLast?.map (fun y => y.slip)) = some true ∧
      (pairOf t a).spool = (spoolDrift s a full spans).spool) := by
  refine ⟨_, congrArg Host.Outcome.next ((if_pos reads).trans (if_pos limit)), ?_⟩
  dsimp only
  rw [pairOf_of_unitState (unitState_sendFault ..), pairOf_setPair_same]
  refine ⟨rfl, ?_, rfl⟩
  have nonempty : (spoolDrift s a full spans).sectors ≠ [] := by
    rw [← List.length_pos_iff, (samePath_spoolDrift s a full spans).sectors]
    exact List.length_pos_of_mem (List.mem_of_getLast? newest)
  rw [getLast?_modLast, List.getLast?_eq_some_getLast nonempty]
  rfl

/-- A span past COAST_MAX ends timing trust at the clock that passes it. -/
theorem sectorClock_lost {c : PathCtl} {ys : List Int} (ts : List Int) {fl : Bool} (ft : Bool) {x : LiveSector}
    (past : c.coastMax < spanLength (x.flagL ++ List.replicate ys.length fl)) (held : x.lostAt = none) :
    (sectorClock c ys ts fl ft x).lostAt = some x.ys.length := by
  rw [sectorClock]
  dsimp only
  rw [decide_eq_true (.inl past), held]
  rfl

end Sys2Proof.Machine

end

section
-- `decide` waits for the kernel: a thread for each of these proofs would exhaust the memory limit.
set_option Elab.async false

namespace Sys2Proof.Machine

/-! ### A sector's decision at mark B, by what was found -/

section MarkB

variable {s : State} {a : Nat} {preamble window codeword trailer : List AdcSpan} {x : LiveSector} {rest : List LiveSector}

theorem exec_markBDecision_gap (gap : (pairOf s a).reading = false) :
    exec (.markBDecision a preamble window codeword trailer) s = .next (markBDecision s a) :=
  congrArg Host.Outcome.next (if_neg (by rw [gap]; decide))

/-- A sector found by its mark A goes out as a packet and counts for its run. -/
theorem ends_markBDecision_found (oldest : (pairOf s a).sectors = x :: rest) (gap : (pairOf s a).reading = false)
    (decided : x.aDone = true) (found : x.aFound.isSome = true) (entry : x.entry.isSome = true)
    (current : x.run = (pairOf s a).runs) : Ends (.markBDecision a preamble window codeword trailer) s (fun t =>
      fld t F.LNE_RUN_STAT_SECTORS a = min (fld s F.LNE_RUN_STAT_SECTORS a + 1) 65535 ∧
      (pairOf t a).sectors = rest ∧
      (pairOf t a).packets.length = (pairOf s a).packets.length + 1) := by
  have ended := markBDecision_cons oldest decided (by simp [gap])
  obtain ⟨passed, before⟩ := sectorPassed_pair s a x rest (soughtB s a x)
  obtain ⟨k, sent⟩ := deliverSector_found (s := sectorPassed s a x rest (soughtB s a x)) (a := a)
    (b := soughtB s a x) found entry
  refine ⟨_, exec_markBDecision_gap gap, ?_, ?_, ?_⟩
  · rw [ended.fld _ _ (by decide) (by decide) (by decide), sectorDelivered, fld_deliverSector, sectorPassed_sectors current]
  · rw [ended.sectors, sectorDelivered, sectors_deliverSector, passed]
  · rw [ended.packets, sectorDelivered, sent, pairOf_sendPacket, List.length_append, List.length_singleton, before]

/-- A sector with no mark, mark B not sought, goes out as a trailer alone and counts as SYNC_LOST. -/
theorem ends_markBDecision_lost (oldest : (pairOf s a).sectors = x :: rest) (gap : (pairOf s a).reading = false)
    (decided : x.aDone = true) (unmarked : x.aFound = none) (unsought : flag s F.LNE_SYNC_CTL_B_FALLBACK a = false) :
    Ends (.markBDecision a preamble window codeword trailer) s (fun t =>
      (pairOf t a).sectors = rest ∧
      (pairOf t a).packets.length = (pairOf s a).packets.length + 1 ∧
      ((pairOf t a).packets.getLast?.map (fun k => (k.only, k.trailer.status))) = some (true, 2) ∧
      fld t F.LNE_CNT_SYNC_LOST a = min (fld s F.LNE_CNT_SYNC_LOST a + 1) 65535) := by
  have ended := markBDecision_cons oldest decided (by simp [gap])
  have unfound : soughtB s a x = none := by rw [soughtB, unmarked, unsought]; rfl
  rw [unfound] at ended
  have lost := sectorStatus_lost unmarked
  obtain ⟨passed, before⟩ := sectorPassed_pair s a x rest none
  obtain ⟨k, sent, only, status⟩ := deliverSector_lost (s := sectorPassed s a x rest none) (a := a) lost
  refine ⟨_, exec_markBDecision_gap gap, ?_, ?_, ?_, ?_⟩
  · rw [ended.sectors, sectorDelivered, sectors_deliverSector, passed]
  · rw [ended.packets, sectorDelivered, sent, pairOf_sendPacket, List.length_append, List.length_singleton, before]
  · rw [ended.packets, sectorDelivered, sent, pairOf_sendPacket, List.getLast?_concat, Option.map_some, only, status]
  · rw [ended.fld _ _ (by decide) (by decide) (by decide), sectorDelivered, fld_deliverSector, sectorPassed_syncLost lost]

/-- While the next sector is read the oldest is taken off once the samples up to its decision have passed. -/
theorem ends_markBDecision_reading
    (oldest : (sampled s a (preamble ++ window ++ codeword ++ trailer)).sectors = x :: rest)
    (reads : (pairOf s a).reading = true) (next : rest ≠ []) (decided : x.aDone = true) :
    Ends (.markBDecision a preamble window codeword trailer) s (fun t => (pairOf t a).sectors = rest) := by
  have ended := markBDecision_cons (s := takeSamples s a (preamble ++ window ++ codeword ++ trailer)) (a := a)
    (by rw [pairOf_takeSamples, oldest]) decided (fun _ => next)
  refine ⟨_, congrArg Host.Outcome.next (if_pos reads), ?_⟩
  dsimp only
  rw [ended.sectors, sectorDelivered, sectors_deliverSector, (sectorPassed_pair ..).1]

end MarkB

/-- Settles O4: the pair through a sector's events; samples change nothing the events of Table 3.3 decide by (`SamePath`), and
the end of a run leaves what mark B has delivered (`ReadEnd`). -/
theorem livePathSector : Obligations.LivePathSector := by
  refine ⟨?_, ?_, ?_, ?_, ?_, ?_, ?_, ?_, ?_, ?_, ?_, ?_⟩
  · intro s a theta spans preheated r k armed run ready claim
    obtain ⟨t, e, opened⟩ := ends_sectorPreambleStart (theta := theta) (spans := spans) armed run ready claim
    exact ⟨t, e, opened.live, opened.gate, opened.reading, opened.valid, opened.seq, opened.sector, opened.sectors⟩
  · intro s a theta spans preheated r armed run ready full waiting
    obtain ⟨t, e, pair⟩ := ends_sectorPreambleStart_full (theta := theta) (spans := spans) armed run ready full waiting
    exact ⟨t, e, by rw [pair], by rw [pair], by rw [pair]⟩
  · intro s a spans acquires
    obtain ⟨t, e, pair⟩ := ends_acquireEnd (spans := spans) acquires
    exact ⟨t, e, by rw [pair], by rw [pair], by rw [pair]⟩
  · intro s a preamble window x sync newest complete
    obtain ⟨t, e, live, last⟩ := ends_markADecision sync newest complete
    exact ⟨t, e, live, by rw [last]; rfl, by rw [last]; rfl⟩
  · exact fun s a preamble window x sync newest short => ends_markADecision_waits sync newest short
  · exact fun s a _ _ _ _ x rest oldest gap decided found entry current =>
      ends_markBDecision_found oldest gap decided found entry current
  · exact fun s a _ _ _ _ x rest oldest gap decided unmarked unsought =>
      ends_markBDecision_lost oldest gap decided unmarked unsought
  · exact fun s a _ _ _ _ x rest oldest _ reads next decided => ends_markBDecision_reading oldest reads next decided
  · exact fun s a spans r run reads left goes => ends_spliceGapEnd run reads left goes
  · exact fun s a full spans x reads newest limit => ends_pairSlip reads newest limit
  · intro s a spans reads
    exact ⟨_, congrArg Host.Outcome.next (if_pos reads), pairOf_takeSamples ..⟩
  · intro c ys ts fl ft x past held
    have lost := sectorClock_lost ts ft past held
    refine ⟨lost, ?_⟩
    rw [sectorStatus, lost]
    rfl

end Sys2Proof.Machine

end

section
-- `decide` waits for the kernel: a thread for each of these proofs would exhaust the memory limit.
set_option Elab.async false

namespace Sys2Proof.Machine

/-! ### What a memory access leaves

One lemma per operation of a store, in the order of the model, for every view of the state that sees none of the fields
memory, its caches and reports are kept in. `unitState` is one such view, but it hides the pool's queues besides. -/

/-- A view of the state that does not see registers, memory, its caches and errors, the free values and reports. -/
def MemoryBlind {β : Type} (π : State → β) : Prop :=
  ∀ (s : State) regs mem free fcl syc bfm l2,
    π { s with regs := regs, mem := mem, free := free, fcl := fcl, syc := syc, bfm := bfm, l2 := l2 } = π s

section View

variable {α β : Type} {π : State → β}

theorem view_ite {c : Prop} [Decidable c] {s t u : State} (k : π t = π s) (l : π u = π s) : π (if c then t else u) = π s := by
  split <;> assumption

theorem view_iteSnd {c : Prop} [Decidable c] {s : State} {p q : α × State} (k : π p.2 = π s) (l : π q.2 = π s) :
    π (if c then p else q).2 = π s := by
  split <;> assumption

/-- The state of a pair that was taken apart. -/
theorem view_ofSnd {s t : State} {p : α × State} {x : α} (k : π p.2 = π s) (e : p = (x, t)) : π t = π s := by
  subst e; exact k

theorem view_each {f : α → State → State} (k : ∀ x t, π (f x t) = π t) (l : List α) (s : State) : π (each l f s) = π s :=
  each_keeps (P := fun t => π t = π s) (fun x t e => (k x t).trans e) l s rfl

variable (blind : MemoryBlind π)
include blind

/-! Registers and reports. -/

theorem view_wr (s : State) (r : Reg) (i : Nat) (v : Word) : π (wr s r i v) = π s := blind s _ _ _ _ _ _ _

theorem view_bump (s : State) (f : Fld) (i n : Nat) : π (bump s f i n) = π s := view_wr blind ..

theorem view_setFlds (s : State) (i : Nat) (l : List (Fld × Nat)) : π (setFlds s i l) = π s := by
  induction l generalizing s with
  | nil => rfl
  | cons x l ih => exact (ih _).trans (view_wr blind ..)

theorem view_raiseSource (s : State) (n : Nat) : π (raiseSource s n) = π s := by
  unfold raiseSource
  dsimp only
  split
  · exact blind s _ _ _ _ _ _ _
  · exact view_wr blind ..

theorem view_sendFault (s : State) (b : Block) (source kind sev addr : Nat) : π (sendFault s b source kind sev addr) = π s :=
  view_ite ((view_raiseSource blind ..).trans ((view_raiseSource blind ..).trans (view_bump blind ..))) (blind s _ _ _ _ _ _ _)

theorem view_memUe (s : State) (b : Block) (addr req : Nat) (poison dram : Bool) : π (memUe s b addr req poison dram) = π s :=
  (view_sendFault blind ..).trans (view_ite (view_wr blind ..) (view_setFlds blind ..))

theorem view_corrected (s : State) (b : Block) (addr req : Nat) (dram : Bool) : π (corrected s b addr req dram) = π s := by
  have logged (n : Nat) (t : State) (k : π t = π s) : π { t with bfm := { t.bfm with lapCe := n } } = π s :=
    (blind t _ _ _ _ _ _ _).trans k
  have counted (l : List (Fld × Nat)) :
      π (setFlds (bump s (if dram then F.BFM_CE_CNT_DRAM else F.BFM_CE_CNT_SRAM)) 0 l) = π s :=
    (view_setFlds blind ..).trans (view_bump blind ..)
  exact view_ite ((view_sendFault blind ..).trans (logged _ _ (counted _))) (logged _ _ (counted _))

/-! The DRAM port. -/

theorem view_writeBytes (l : List Byte) (s : State) (a : Nat) : π (writeBytes s a l) = π s := by
  induction l generalizing s a with
  | nil => rfl
  | cons b l ih => exact (ih ..).trans (blind s _ _ _ _ _ _ _)

theorem view_setPoison (s : State) (line : Nat) (b : Bool) : π (setPoison s line b) = π s := blind s _ _ _ _ _ _ _

theorem view_freshChecks (words : List Nat) (addr : Nat → Nat) (s : State) :
    π (each words (fun a t => freshCheck t (addr a)) s) = π s := view_each (fun _ t => blind t _ _ _ _ _ _ _) ..

theorem view_softRead (s : State) (b : Block) (req : Nat) (dram : Bool) (words : List Nat) :
    π (softRead s b req dram words) = π s :=
  view_each (fun _ t => view_ite ((blind _ _ _ _ _ _ _ _).trans (view_corrected blind t ..)) (view_corrected blind ..)) ..

theorem view_softMerge (s : State) (b : Block) (req : Nat) (dram : Bool) (words : List Nat) :
    π (softMerge s b req dram words) = π s :=
  view_each (fun _ t => (blind _ _ _ _ _ _ _ _).trans (view_corrected blind t ..)) ..

theorem view_countDram (s : State) (write : Bool) : π (countDram s write) = π s := blind s _ _ _ _ _ _ _

theorem view_dramRead (s : State) (r : Port) (line : Nat) : π (dramRead s r line).2 = π s := by
  have counted := view_countDram blind s false
  refine view_iteSnd ((view_memUe blind ..).trans counted) ?_
  split
  · exact (view_memUe blind ..).trans counted
  · exact (view_softRead blind ..).trans counted

theorem view_writeBack (s : State) (x : CacheLine) : π (writeBack s x) = π s :=
  (view_setPoison blind ..).trans ((view_freshChecks blind ..).trans ((view_writeBytes blind ..).trans
    ((view_countDram blind ..).trans (view_each (fun _ _ => view_corrected blind ..) ..))))

theorem view_dramWrite (s : State) (r : Port) (line off : Nat) (bytes : List Byte) :
    π (dramWrite s r line off bytes).2 = π s := by
  refine view_iteSnd (view_memUe blind ..) ?_
  split
  · exact view_memUe blind ..
  · exact (view_setPoison blind ..).trans ((view_writeBytes blind ..).trans ((view_freshChecks blind ..).trans
      ((view_softMerge blind ..).trans (view_countDram blind ..))))

/-! The system cache. -/

theorem view_setWay (s : State) (set w : Nat) (x : Option CacheLine) : π (setWay s set w x) = π s := blind s _ _ _ _ _ _ _

theorem view_touchRef (s : State) (set w : Nat) : π (touchRef s set w) = π s := by
  have mark (t : State) (v : Nat) (b : Bool) : π (match wayLine t set v with
      | some x => setWay t set v (some { x with ref := b })
      | none => t) = π t := by
    split
    · exact view_setWay blind ..
    · rfl
  exact view_ite ((view_each (fun v t => mark t v false) ..).trans (mark s w true)) (mark s w true)

theorem view_evict (s : State) (set w : Nat) : π (evict s set w) = π s := by
  have room (t : State) : π (evbRoom t) = π t := by
    unfold evbRoom
    split
    · exact view_ite ((view_writeBack blind ..).trans (blind t _ _ _ _ _ _ _)) rfl
    · rfl
  unfold evict
  split
  · rfl
  · exact view_ite ((blind _ _ _ _ _ _ _ _).trans ((room _).trans (view_setWay blind s ..))) (view_setWay blind ..)

theorem view_allocate {s : State} {x : CacheLine} {y : Nat × State} (e : allocate s x = some y) : π y.2 = π s := by
  unfold allocate at e
  dsimp only at e
  split at e <;> cases e
  exact (view_touchRef blind ..).trans ((view_setWay blind ..).trans (view_evict blind ..))

theorem view_evbTake {s : State} {line : Nat} {y : CacheLine × State} (e : evbTake s line = some y) : π y.2 = π s := by
  unfold evbTake at e
  split at e <;> cases e
  exact blind s _ _ _ _ _ _ _

/-- A line the eviction buffer holds is written back before DRAM is reached. -/
theorem view_evicted (s : State) (line : Nat) :
    π (match evbTake s line with | some (x, t) => writeBack t x | none => s) = π s := by
  split
  · rename_i e
    exact (view_writeBack blind ..).trans (view_evbTake blind e)
  · rfl

theorem view_evbRace (s : State) (line : Nat) : π (evbRace s line) = π s := by
  unfold evbRace
  split
  · rfl
  · rename_i e
    split
    · rename_i f
      exact (view_bump blind ..).trans ((view_allocate blind f).trans (view_evbTake blind e))
    · exact (view_writeBack blind ..).trans (view_evbTake blind e)

theorem view_hitLine (s : State) (r : Port) (line : Nat) : π (hitLine s r line).2 = π s := by
  unfold hitLine
  split
  · rfl
  · dsimp only
    split
    · rfl
    · exact view_iteSnd ((view_corrected blind ..).trans (view_setWay blind ..)) rfl

theorem view_countStreamed (s : State) : π (countStreamed s) = π s :=
  view_ite (blind s _ _ _ _ _ _ _) (blind s _ _ _ _ _ _ _)

theorem view_sycWrite (s : State) (r : Port) (line off : Nat) (bytes : List Byte) : π (sycWrite s r line off bytes).2 = π s := by
  have streamed : π (stream s r line (decide (bytes.length = 64))).2 = π s := blind s _ _ _ _ _ _ _
  unfold sycWrite
  dsimp only
  generalize stream s r line (decide (bytes.length = 64)) = p at streamed ⊢
  obtain ⟨pass, s₁⟩ := p
  dsimp only at streamed
  have looked := (view_hitLine blind (evbRace s₁ line) r line).trans ((view_evbRace blind ..).trans streamed)
  refine view_iteSnd ((view_dramWrite blind ..).trans ((view_evicted blind ..).trans streamed)) ?_
  dsimp only
  split
  · rename_i e
    have hit := (view_bump blind _ F.SYC_CNT_HITS 0 1).trans (view_ofSnd looked e)
    exact view_iteSnd ((view_memUe blind ..).trans hit) ((view_touchRef blind ..).trans ((view_setWay blind ..).trans
      ((view_each (fun _ _ => view_corrected blind ..) ..).trans hit)))
  · rename_i u e
    have missed := (view_bump blind u F.SYC_CNT_MISSES 0 1).trans (view_ofSnd looked e)
    have written := (view_dramWrite blind (bump u F.SYC_CNT_MISSES) r line off bytes).trans missed
    refine view_iteSnd written (view_iteSnd ((view_countStreamed blind _).trans written) (view_iteSnd written
      (view_iteSnd ?_ ?_)))
    · split
      · rename_i g
        exact (view_allocate blind g).trans missed
      · exact missed
    · split
      · rename_i f
        exact (view_ofSnd (view_dramRead blind ..) f).trans missed
      · rename_i f
        have filled := (view_ofSnd (view_dramRead blind ..) f).trans missed
        split
        · rename_i g
          exact (view_allocate blind g).trans filled
        · exact (view_dramWrite blind ..).trans filled

/-! The cluster L2s, and accesses by address. -/

theorem view_l2Invalidate (s : State) (line : Nat) : π (l2Invalidate s line) = π s := by
  have cleaned (t : State) (c : Nat) (x : Option L2Line) : π (setL2 t c line x) = π t := blind t _ _ _ _ _ _ _
  have poisoned (t : State) (bad : Nat) : π (poisonLine t line bad) = π t := by
    unfold poisonLine
    split
    · split
      · exact view_setWay blind ..
      · rfl
    · exact view_setPoison blind ..
  have written (t : State) (c : Nat) : π (l2WriteBack t c line) = π t := by
    unfold l2WriteBack
    split
    · exact view_ite (view_ite ((cleaned ..).trans ((poisoned ..).trans (view_sycWrite blind ..)))
        ((cleaned ..).trans (view_sycWrite blind ..))) rfl
    · rfl
  exact view_each (fun _ _ => view_ite ((cleaned ..).trans (written ..)) rfl) ..

theorem view_scratchWrite (s : State) (r : Port) (addr : Nat) (bytes : List Byte) :
    π (scratchWrite s r addr bytes).2 = π s := by
  unfold scratchWrite
  dsimp only
  split
  · exact view_memUe blind ..
  · exact (view_writeBytes blind ..).trans ((view_freshChecks blind _ id _).trans (view_softMerge blind ..))

theorem view_beatRefused (s : State) (addr : Nat) : π (beatRefused s addr) = π s := by
  unfold beatRefused
  split
  · exact view_sendFault blind ..
  · exact view_ite rfl (view_sendFault blind ..)
  · rfl

theorem view_writePiece (s : State) (r : Port) (addr : Nat) (bytes : List Byte) : π (writePiece s r addr bytes).2 = π s := by
  unfold writePiece
  split
  · exact view_iteSnd ((view_sycWrite blind ..).trans (view_ite (view_l2Invalidate blind ..) rfl)) rfl
  · exact view_scratchWrite blind ..
  · exact view_beatRefused blind ..
  · exact view_sendFault blind ..

theorem view_busWrite (s : State) (r : Port) (addr : Nat) (bytes : List Byte) : π (busWrite s r addr bytes).2 = π s := by
  have lines (k : Nat) : ∀ (a : Nat) (l : List Byte) (t : State), π (writeLines r k a l t).2 = π t := by
    induction k with
    | zero => exact fun _ _ _ => rfl
    | succ k ih =>
      intro a l t
      have piece := view_writePiece blind t r a (l.take (min l.length (64 - a % 64)))
      unfold writeLines
      dsimp only
      split
      · rename_i e
        exact view_ofSnd piece e
      · rename_i e
        exact (ih ..).trans (view_ofSnd piece e)
  exact lines ..

theorem view_spoolParity (s : State) (a n : Nat) : π (spoolParity s a n) = π s :=
  view_each (fun _ _ => (view_sendFault blind ..).trans (view_bump blind ..)) ..

end View

end Sys2Proof.Machine

end

section
-- `decide` waits for the kernel: a thread for each of these proofs would exhaust the memory limit.
set_option Elab.async false

namespace Sys2Proof.Machine

/-! ### What reports, memory and calibration leave of the pool -/

/-- The pool's queues, its decoders and the lane pairs. -/
def poolState (s : State) : List (Nat × DcpAct) × List (Nat × Decoder) × List (Nat × Pair) := (s.dcp, s.decoders, s.pairs)

theorem memoryBlind_poolState : MemoryBlind poolState := fun _ _ _ _ _ _ _ _ => rfl

section PoolState

variable {s t : State} (h : poolState t = poolState s)
include h

theorem dcpOf_of_poolState (a : Nat) : dcpOf t a = dcpOf s a := by
  rw [dcpOf, dcpOf, show t.dcp = s.dcp from (congrArg Prod.fst h :)]
theorem decOf_of_poolState (d : Nat) : decOf t d = decOf s d := by
  rw [decOf, decOf, show t.decoders = s.decoders from (congrArg (fun p => p.2.1) h :)]
theorem pairOf_of_poolState (a : Nat) : pairOf t a = pairOf s a := by
  rw [pairOf, pairOf, show t.pairs = s.pairs from (congrArg (fun p => p.2.2) h :)]
theorem entryOf_of_poolState (a e : Nat) : entryOf t a e = entryOf s a e := by
  rw [entryOf, dcpOf_of_poolState h, entryOf]
theorem ctxOf_of_poolState (a k : Nat) : ctxOf t a k = ctxOf s a k := by
  rw [ctxOf, dcpOf_of_poolState h, ctxOf]
theorem jobOf_of_poolState (a id : Nat) : jobOf t a id = jobOf s a id := by
  rw [jobOf, dcpOf_of_poolState h, jobOf]

end PoolState

@[simp] theorem poolState_raiseSource (s : State) (n : Nat) : poolState (raiseSource s n) = poolState s :=
  view_raiseSource memoryBlind_poolState ..

@[simp] theorem poolState_sendFault (s : State) (b : Block) (source kind sev addr : Nat) :
    poolState (sendFault s b source kind sev addr) = poolState s := view_sendFault memoryBlind_poolState ..

@[simp] theorem poolState_setFlds (s : State) (i : Nat) (l : List (Fld × Nat)) : poolState (setFlds s i l) = poolState s :=
  view_setFlds memoryBlind_poolState ..

@[simp] theorem poolState_spoolParity (s : State) (a n : Nat) : poolState (spoolParity s a n) = poolState s :=
  view_spoolParity memoryBlind_poolState ..

@[simp] theorem poolState_countOutcome (s : State) (a outcome : Nat) : poolState (countOutcome s a outcome) = poolState s := by
  unfold countOutcome
  split <;> rfl

/-- A write-back's data and what an error makes of it touch memory alone. -/
@[simp] theorem poolState_storeSector (s : State) (w : WriteBack) (err : Bool) :
    poolState (storeSector s w err).2 = poolState s := by
  have stored := view_busWrite memoryBlind_poolState s portDcp w.addr w.data
  have lines (k : Nat) : ∀ (addr : Nat) (bytes : List Byte) (t : State), poolState (storeLines k addr bytes t) = poolState t := by
    induction k with
    | zero => exact fun _ _ _ => rfl
    | succ k ih => exact fun _ _ _ => (ih ..).trans (view_writePiece memoryBlind_poolState ..)
  exact view_iteSnd stored ((lines ..).trans stored)

@[simp] theorem poolState_calBoundary (s : State) (p : Nat → Bool) : poolState (calBoundary s p) = poolState s := by
  have stored (t : State) (f : Fld) (i v : Nat) : poolState (setFld t f i v) = poolState t := view_wr memoryBlind_poolState ..
  have trimmed (t : State) (lane slice : Nat) (vals : List Int) (k : Nat) : poolState (stepTrim t lane slice vals k) = poolState t :=
    poolState_setFlds ..
  have swapped (t : State) (lane n : Nat) : poolState (swapSlice t lane n) = poolState t :=
    (stored ..).trans (view_ite (stored ..) (stored ..))
  have put (x : CalPend) (t : State) : poolState (putResult t x) = poolState t :=
    view_ite (view_each (fun _ _ => trimmed ..) ..) (view_ite (view_each (fun _ _ => (swapped ..).trans (trimmed ..)) ..) (view_ite
      (poolState_setFlds ..) (view_ite (poolState_setFlds ..) (view_ite (stored ..) (view_ite rfl (view_ite (poolState_setFlds ..)
      (view_ite (stored ..) (view_ite (stored ..) (poolState_setFlds ..)))))))))
  exact (view_each (f := fun x t => takeEffect t x) (fun x t => (poolState_raiseSource ..).trans (put x t)) ..).trans rfl

@[simp] theorem poolState_calDrop (s : State) (p : Nat → Bool) : poolState (calDrop s p) = poolState s :=
  (view_each (f := fun n t => abandoned t n) (fun _ _ => rfl) ..).trans rfl

@[simp] theorem poolState_mediaDone (s : State) (o : OpRef) (status sectors : Nat) (cut : Bool) :
    poolState (mediaDone s o status sectors cut) = poolState s := by
  unfold mediaDone
  split <;> rfl

@[simp] theorem poolState_pspArb (s : State) (a : Nat) : poolState (pspArb s a) = poolState s := by
  have control (t : State) : poolState (headControlFrame t a) = poolState t := by
    unfold headControlFrame
    dsimp only
    split
    · split <;> rfl
    · split
      · rfl
      · split <;> rfl
  unfold pspArb
  split
  · rfl
  · split
    · rfl
    · dsimp only
      split
      · exact control _
      · rfl
      · rfl

end Sys2Proof.Machine

end

section
-- `decide` waits for the kernel: a thread for each of these proofs would exhaust the memory limit.
set_option Elab.async false

namespace Sys2Proof.Machine

/-! ### Entries, contexts and jobs after a change -/

theorem decOf_setDec (s : State) (d k : Nat) (h : Decoder) : decOf (setDec s d h) k = if k = d then h else decOf s k := by
  split
  · rename_i e
    rw [e, decOf_setDec_same]
  · rename_i e
    exact decOf_setDec_ne s h e

@[simp] theorem dcpOf_setEntry (s : State) (a e : Nat) (x : Entry) :
    dcpOf (setEntry s a e x) a = { dcpOf s a with entries := tset (dflt {}) (dcpOf s a).entries e x } := dcpOf_setDcp_same ..

@[simp] theorem dcpOf_modJob (s : State) (a id : Nat) (f : Job → Job) :
    dcpOf (modJob s a id f) a = { dcpOf s a with jobs := (dcpOf s a).jobs.map (fun j => if j.id = id then f j else j) } :=
  dcpOf_setDcp_same ..

@[simp] theorem decOf_setEntry (s : State) (a e : Nat) (x : Entry) (d : Nat) : decOf (setEntry s a e x) d = decOf s d := rfl
@[simp] theorem entryOf_setDec (s : State) (d : Nat) (h : Decoder) (a e : Nat) : entryOf (setDec s d h) a e = entryOf s a e := rfl
@[simp] theorem decOf_modJob (s : State) (a id : Nat) (f : Job → Job) (d : Nat) : decOf (modJob s a id f) d = decOf s d := rfl
@[simp] theorem pairOf_setEntry (s : State) (a e : Nat) (x : Entry) (b : Nat) : pairOf (setEntry s a e x) b = pairOf s b := rfl
@[simp] theorem pairOf_modJob (s : State) (a id : Nat) (f : Job → Job) (b : Nat) : pairOf (modJob s a id f) b = pairOf s b := rfl

theorem entryOf_of_entries {s t : State} {a : Nat} (h : (dcpOf t a).entries = (dcpOf s a).entries) (e : Nat) :
    entryOf t a e = entryOf s a e := by
  rw [entryOf, h, entryOf]

theorem ctxOf_of_ctxs {s t : State} {a : Nat} (h : (dcpOf t a).ctxs = (dcpOf s a).ctxs) (k : Nat) :
    ctxOf t a k = ctxOf s a k := by
  rw [ctxOf, h, ctxOf]

theorem jobOf_of_jobs {s t : State} {a : Nat} (h : (dcpOf t a).jobs = (dcpOf s a).jobs) (id : Nat) :
    jobOf t a id = jobOf s a id := by
  rw [jobOf, h, jobOf]

@[simp] theorem entryOf_setEntry_same (s : State) (a e : Nat) (x : Entry) : entryOf (setEntry s a e x) a e = x := by
  rw [entryOf, dcpOf_setEntry]
  exact tget_tset_same ..

theorem entryOf_setEntry_ne (s : State) (a : Nat) {e k : Nat} (x : Entry) (h : k ≠ e) :
    entryOf (setEntry s a e x) a k = entryOf s a k := by
  rw [entryOf, dcpOf_setEntry]
  exact tget_tset_ne _ _ h

/-- The job a number names has that number. -/
theorem id_of_jobOf {s : State} {a id : Nat} {j : Job} (h : jobOf s a id = some j) : j.id = id := by
  simpa using List.find?_some h

/-- A change that keeps the numbers changes the job of one number alone. -/
theorem jobOf_modJob {f : Job → Job} (s : State) (a id k : Nat) (keeps : ∀ j, j.id = id → (f j).id = id) :
    jobOf (modJob s a id f) a k = (jobOf s a k).map (fun j => if j.id = id then f j else j) := by
  have same (j : Job) : (if j.id = id then f j else j).id = j.id := by
    split
    · rename_i named
      exact (keeps j named).trans named.symm
    · rfl
  rw [jobOf, dcpOf_modJob, List.find?_map, jobOf]
  simp [same]

theorem jobOf_modJob_same {f : Job → Job} {s : State} {a id : Nat} {j : Job} (h : jobOf s a id = some j)
    (keeps : ∀ j, j.id = id → (f j).id = id := by intro _ h; exact h) : jobOf (modJob s a id f) a id = some (f j) := by
  rw [jobOf_modJob _ _ _ _ keeps, h, Option.map_some, if_pos (id_of_jobOf h)]

/-! ### Freed entries and stopped decoders -/

/-- Of actuator a's queue entries alone have changed, those free stay free, and idle decoders stay idle. -/
structure Released (a : Nat) (s t : State) : Prop where
  queue : ∃ x, dcpOf t a = { dcpOf s a with entries := x }
  idle : ∀ d, (decOf s d).work = none → (decOf t d).work = none
  free : ∀ e, (entryOf s a e).st = .free → (entryOf t a e).st = .free

namespace Released

variable {a : Nat} {s t u : State}

theorem refl : Released a s s := ⟨⟨_, rfl⟩, fun _ => id, fun _ => id⟩

theorem trans (h : Released a s t) (k : Released a t u) : Released a s u := by
  obtain ⟨x, hx⟩ := h.queue
  obtain ⟨y, hy⟩ := k.queue
  exact ⟨⟨y, by rw [hy, hx]⟩, fun d i => k.idle d (h.idle d i), fun e i => k.free e (h.free e i)⟩

theorem of_queues (hq : t.dcp = s.dcp) (hd : t.decoders = s.decoders) : Released a s t := by
  have q : dcpOf t a = dcpOf s a := by rw [dcpOf, hq, dcpOf]
  exact ⟨⟨_, q⟩, fun d i => by rwa [decOf, hd],
    fun e i => by rwa [entryOf_of_entries (congrArg DcpAct.entries q)]⟩

theorem freeEntry (s : State) (a e : Nat) : Released a s (setEntry s a e {}) := by
  refine ⟨⟨_, dcpOf_setEntry ..⟩, fun _ => id, fun k i => ?_⟩
  by_cases same : k = e
  · rw [same, entryOf_setEntry_same]
  · rwa [entryOf_setEntry_ne _ _ _ same]

theorem stopDecoder (s : State) (a d : Nat) : Released a s (setDec s d { decOf s d with work := none }) := by
  refine ⟨⟨_, dcpOf_setDec ..⟩, fun k i => ?_, fun _ => id⟩
  rw [decOf_setDec]
  split
  · rfl
  · exact i

theorem each {α : Type} {f : α → State → State} (h : ∀ x t, Released a t (f x t)) (l : List α) (s : State) :
    Released a s (Machine.each l f s) := each_keeps (fun x _ k => k.trans (h x _)) l s .refl

theorem cancelReplay (s : State) (a id : Nat) : Released a s (Machine.cancelReplay s a id) := by
  unfold Machine.cancelReplay
  extract_lets p mine t
  have withdrawn : Released a s t := .of_queues rfl rfl
  refine withdrawn.trans (.each (fun q u => ?_) _ _)
  split
  · exact .freeEntry ..
  · exact .refl

theorem freeJobEntries (s : State) (a id : Nat) : Released a s (Machine.freeJobEntries s a id) := by
  refine .each (fun e t => ?_) _ _
  split
  · exact .freeEntry ..
  · exact .refl

theorem stopDecoders (s : State) (a id : Nat) : Released a s (Machine.stopDecoders s a id) := by
  refine .each (fun d t => ?_) _ _
  split
  · split
    · exact .stopDecoder ..
    · exact .refl
  · exact .refl

/-- What frees the decoders, the replay and the entries of a job that leaves. -/
theorem jobFreed (s : State) (a id : Nat) :
    Released a s (Machine.freeJobEntries (Machine.cancelReplay (Machine.stopDecoders s a id) a id) a id) :=
  ((stopDecoders s a id).trans (cancelReplay ..)).trans (freeJobEntries ..)

theorem endWork (s : State) (d : Nat) (w : DecWork) : Released w.act s (Machine.endWork s d w) :=
  (freeEntry ..).trans (stopDecoder (setEntry s w.act w.entry {}) _ d)

end Released

/-- The decoder whose work ends is idle, and its entry free. -/
theorem idle_endWork (s : State) (d : Nat) (w : DecWork) : (decOf (endWork s d w) d).work = none := by
  rw [endWork, decOf_setDec_same]

theorem free_endWork (s : State) (d : Nat) (w : DecWork) : (entryOf (endWork s d w) w.act w.entry).st = .free := by
  change (entryOf (setEntry s w.act w.entry {}) w.act w.entry).st = .free
  rw [entryOf_setEntry_same]

/-! ### Records and jobs that leave -/

/-- What a job that leaves changes of its actuator's queue. -/
theorem dcpOf_dropJob (s : State) (a : Nat) (j : Job) : ∃ x, dcpOf (dropJob s a j) a =
    { dcpOf s a with entries := x, jobs := (dcpOf s a).jobs.filter (fun y => decide (y.id ≠ j.id)) } := by
  obtain ⟨x, queue⟩ := (Released.jobFreed s a j.id).queue
  refine ⟨x, ?_⟩
  rw [dropJob, dcpOf_setDcp_same, queue]

theorem dcpOf_releaseCtx (s : State) (a k : Nat) : ∃ c, dcpOf (releaseCtx s a k) a = { dcpOf s a with ctxs := c } := by
  unfold releaseCtx
  dsimp only
  split
  · exact ⟨_, dcpOf_setDcp_same ..⟩
  · exact ⟨_, rfl⟩

/-- A record in the ring, its source raised, its outcome counted and its pin released. -/
def recordPosted (s : State) (a : Nat) (h : HeldRecord) : State :=
  let t := raiseSource (setDcp s a { dcpOf s a with ring := (dcpOf s a).ring ++ [h.record] }) (456 + a)
  let t := countOutcome t a (getBits h.record 0 8)
  match h.unpin with
  | some x => setPair t a (poolUnpinSlot (pairOf t a) x.1 x.2)
  | none => t

theorem postRecord_room {s : State} {a : Nat} {h : HeldRecord} (room : (dcpOf s a).ring.length < 64) :
    postRecord s a h =
      if h.ctx < 8 then
        releaseCtx (setCtx (recordPosted s a h) a h.ctx { ctxOf (recordPosted s a h) a h.ctx with
          posted := (ctxOf (recordPosted s a h) a h.ctx).posted + b2n h.counts }) a h.ctx
      else recordPosted s a h := if_pos room

theorem postRecord_full {s : State} {a : Nat} {h : HeldRecord} (full : ¬ (dcpOf s a).ring.length < 64) :
    postRecord s a h = setDcp s a { dcpOf s a with held := (dcpOf s a).held ++ [h] } := if_neg full

theorem dcpOf_recordPosted (s : State) (a : Nat) (h : HeldRecord) :
    dcpOf (recordPosted s a h) a = { dcpOf s a with ring := (dcpOf s a).ring ++ [h.record] } := by
  have unpinned (t : State) : dcpOf (match h.unpin with
      | some x => setPair t a (poolUnpinSlot (pairOf t a) x.1 x.2)
      | none => t) a = dcpOf t a := by split <;> rfl
  rw [recordPosted, unpinned, dcpOf_of_poolState (poolState_countOutcome ..), dcpOf_of_poolState (poolState_raiseSource ..),
    dcpOf_setDcp_same]

/-- A record enters a ring with room, and of the queue the run contexts alone may change besides (R123). -/
theorem dcpOf_postRecord {s : State} {a : Nat} {h : HeldRecord} (room : (dcpOf s a).ring.length < 64) :
    ∃ c, dcpOf (postRecord s a h) a = { dcpOf s a with ring := (dcpOf s a).ring ++ [h.record], ctxs := c } := by
  rw [postRecord_room room]
  split
  · obtain ⟨c, released⟩ := dcpOf_releaseCtx (setCtx (recordPosted s a h) a h.ctx { ctxOf (recordPosted s a h) a h.ctx with
      posted := (ctxOf (recordPosted s a h) a h.ctx).posted + b2n h.counts }) a h.ctx
    refine ⟨c, released.trans ?_⟩
    rw [setCtx, dcpOf_setDcp_same, dcpOf_recordPosted]
  · exact ⟨_, dcpOf_recordPosted ..⟩

/-- Whether the record is posted or held, entries, jobs and write-backs stand. -/
theorem queue_postRecord (s : State) (a : Nat) (h : HeldRecord) :
    (dcpOf (postRecord s a h) a).entries = (dcpOf s a).entries ∧ (dcpOf (postRecord s a h) a).jobs = (dcpOf s a).jobs ∧
    (dcpOf (postRecord s a h) a).wbs = (dcpOf s a).wbs := by
  by_cases room : (dcpOf s a).ring.length < 64
  · obtain ⟨c, posted⟩ := dcpOf_postRecord (h := h) room
    rw [posted]
    exact ⟨rfl, rfl, rfl⟩
  · rw [postRecord_full room, dcpOf_setDcp_same]
    exact ⟨rfl, rfl, rfl⟩

theorem decOf_postRecord (s : State) (a : Nat) (h : HeldRecord) (d : Nat) : decOf (postRecord s a h) d = decOf s d := by
  have unpinned (t : State) : decOf (match h.unpin with
      | some x => setPair t a (poolUnpinSlot (pairOf t a) x.1 x.2)
      | none => t) d = decOf t d := by split <;> rfl
  have posted : decOf (recordPosted s a h) d = decOf s d := by
    rw [recordPosted, unpinned, decOf_of_poolState (poolState_countOutcome ..), decOf_of_poolState (poolState_raiseSource ..),
      decOf_setDcp]
  have released (t : State) : decOf (releaseCtx t a h.ctx) d = decOf t d := by
    unfold releaseCtx
    dsimp only
    split <;> rfl
  by_cases room : (dcpOf s a).ring.length < 64
  · rw [postRecord_room room]
    split
    · rw [released, setCtx, decOf_setDcp, posted]
    · exact posted
  · rw [postRecord_full room, decOf_setDcp]

/-! ### Replays asked for -/

/-- Actuator a's jobs have asked for replays: of its queue their plans alone have changed, and no decode has begun or ended. -/
structure Asked (a : Nat) (s t : State) : Prop where
  queue : ∃ l, dcpOf t a = { dcpOf s a with jobs := l }
  decoders : t.decoders = s.decoders
  busy : ∀ id, (jobOf t a id).map Job.busy = (jobOf s a id).map Job.busy

namespace Asked

variable {a : Nat} {s t u : State}

theorem refl : Asked a s s := ⟨⟨_, rfl⟩, rfl, fun _ => rfl⟩

theorem trans (h : Asked a s t) (k : Asked a t u) : Asked a s u := by
  obtain ⟨x, hx⟩ := h.queue
  obtain ⟨y, hy⟩ := k.queue
  exact ⟨⟨y, by rw [hy, hx]⟩, k.decoders.trans h.decoders, fun id => (k.busy id).trans (h.busy id)⟩

theorem modJob (s : State) (a id : Nat) {f : Job → Job} (keeps : ∀ j, j.id = id → (f j).id = id := by intro _ h; exact h)
    (busy : ∀ j, (f j).busy = j.busy := by intro; rfl) :
    Asked a s (Machine.modJob s a id f) := by
  refine ⟨⟨_, dcpOf_modJob ..⟩, rfl, fun k => ?_⟩
  have same : (Job.busy ∘ fun j => if j.id = id then f j else j) = Job.busy := by
    funext j
    dsimp only [Function.comp]
    split
    · exact busy j
    · rfl
  rw [jobOf_modJob _ _ _ _ keeps, Option.map_map, same]

theorem setPair (s : State) (a : Nat) (p : Pair) : Asked a s (Machine.setPair s a p) := ⟨⟨_, rfl⟩, rfl, fun _ => rfl⟩

theorem requestReplay (a id : Nat) (l : List Attempt) : ∀ s, Asked a s (Machine.requestReplay s a id l) := by
  induction l with
  | nil => exact fun s => .modJob ..
  | cons x l ih =>
    intro s
    unfold Machine.requestReplay
    split
    · exact .refl
    · split
      · exact .trans (.setPair ..) (.modJob ..)
      · exact .modJob ..
      · exact .modJob ..
      · exact ih s

end Asked

/-- The jobs after a change of one number are that number's, and some of those before. -/
theorem mem_jobs_modJob {f : Job → Job} {s : State} {a id : Nat} {x : Job} (mem : x ∈ (dcpOf (modJob s a id f) a).jobs)
    (keeps : ∀ j, j.id = id → (f j).id = id := by intro _ h; exact h) : x.id = id ∨ x ∈ (dcpOf s a).jobs := by
  rw [dcpOf_modJob] at mem
  obtain ⟨j, old, rfl⟩ := List.mem_map.1 mem
  split
  · rename_i named
    exact .inl (keeps j named)
  · exact .inr old

theorem mem_jobs_requestReplay {a id : Nat} {x : Job} (l : List Attempt) : ∀ {s : State},
    x ∈ (dcpOf (requestReplay s a id l) a).jobs → x.id = id ∨ x ∈ (dcpOf s a).jobs := by
  induction l with
  | nil => exact fun mem => mem_jobs_modJob mem
  | cons x l ih =>
    intro s
    unfold requestReplay
    split
    · exact .inr
    · split
      · exact fun mem => mem_jobs_modJob (s := setPair s a _) mem
      · exact fun mem => mem_jobs_modJob mem
      · exact fun mem => mem_jobs_modJob mem
      · exact ih

/-! ### The pool after a step on a queue -/

/-- With no request kept waiting the pool stays as it is. -/
theorem poolNext_of_no_want {s : State} {a : Nat} (quiet : (dcpOf s a).jobs.all (fun x => !x.want) = true) : poolNext s a = s := by
  have wants : (dcpOf s a).jobs.filter (fun j => j.want) = [] :=
    List.filter_eq_nil_iff.2 fun j mem => by simpa using List.all_eq_true.1 quiet j mem
  unfold poolNext retryWants
  rw [wants]
  exact ite_self _

/-- A job whose decode runs is not settled. -/
theorem settleJob_busy {s : State} {a id : Nat} (busy : (jobOf s a id).map Job.busy = some true) : settleJob s a id = s := by
  obtain ⟨j, found, runs⟩ := Option.map_eq_some_iff.1 busy
  unfold settleJob
  rw [found]
  dsimp only
  rw [runs, if_neg (by simp)]

/-- Where only jobs whose decode runs want a replay, the pool asks for replays and no more. -/
theorem asked_poolNext {s : State} {a : Nat}
    (busy : ∀ j ∈ (dcpOf s a).jobs, j.want = true → (jobOf s a j.id).map Job.busy = some true) : Asked a s (poolNext s a) := by
  have each (l : List Job) : ∀ t, Asked a s t → (∀ j ∈ l, (jobOf s a j.id).map Job.busy = some true) →
      Asked a s (Machine.each l (fun j u => settleJob (requestReplay u a j.id j.plan) a j.id) t) := by
    induction l with
    | nil => exact fun t h _ => h
    | cons j l ih =>
      intro t h runs
      have asked : Asked a s (requestReplay t a j.id j.plan) := h.trans (.requestReplay ..)
      refine ih _ ?_ fun k mem => runs k (List.mem_cons_of_mem _ mem)
      dsimp only
      rwa [settleJob_busy ((asked.busy _).trans (runs j List.mem_cons_self))]
  unfold poolNext
  split
  · exact .refl
  · exact each _ s .refl fun j mem => busy j (List.mem_of_mem_filter mem) (by simpa using (List.mem_filter.1 mem).2)

/-! ### What the pool never brings back

Whatever the jobs that waited now do, no entry is taken, no decoder begins, no write-back is issued or ends and no job comes. -/

/-- From s to t actuator a's write-backs stand, idle decoders stay idle, free entries free, and jobs that are gone stay gone. -/
structure Recedes (a : Nat) (s t : State) : Prop where
  wbs : (dcpOf t a).wbs = (dcpOf s a).wbs
  idle : ∀ d, (decOf s d).work = none → (decOf t d).work = none
  free : ∀ e, (entryOf s a e).st = .free → (entryOf t a e).st = .free
  gone : ∀ id, jobOf s a id = none → jobOf t a id = none

namespace Recedes

variable {a : Nat} {s t u : State}

theorem refl : Recedes a s s := ⟨rfl, fun _ => id, fun _ => id, fun _ => id⟩

theorem trans (h : Recedes a s t) (k : Recedes a t u) : Recedes a s u :=
  ⟨k.wbs.trans h.wbs, fun d i => k.idle d (h.idle d i), fun e i => k.free e (h.free e i), fun n i => k.gone n (h.gone n i)⟩

end Recedes

theorem Released.recedes {a : Nat} {s t : State} (h : Released a s t) : Recedes a s t := by
  obtain ⟨x, queue⟩ := h.queue
  exact ⟨(congrArg DcpAct.wbs queue :), h.idle, h.free, fun id i => by rwa [jobOf_of_jobs (congrArg DcpAct.jobs queue :)]⟩

theorem Asked.recedes {a : Nat} {s t : State} (h : Asked a s t) : Recedes a s t := by
  obtain ⟨l, queue⟩ := h.queue
  refine ⟨(congrArg DcpAct.wbs queue :), fun d i => by rwa [decOf, h.decoders],
    fun e i => by rwa [entryOf_of_entries (congrArg DcpAct.entries queue :)], fun id i => ?_⟩
  have busy := h.busy id
  rwa [i, Option.map_none, Option.map_eq_none_iff] at busy

namespace Recedes

variable {a : Nat} {s t u : State}

theorem postRecord (s : State) (a : Nat) (h : HeldRecord) : Recedes a s (Machine.postRecord s a h) := by
  obtain ⟨entries, jobs, wbs⟩ := queue_postRecord s a h
  exact ⟨wbs, fun d i => by rwa [decOf_postRecord], fun e i => by rwa [entryOf_of_entries entries],
    fun id i => by rwa [jobOf_of_jobs jobs]⟩

/-- A queue whose entries and write-backs stand and whose jobs are some of those it had. -/
theorem setDcp {q : DcpAct} (wbs : q.wbs = (dcpOf s a).wbs) (entries : q.entries = (dcpOf s a).entries)
    (jobs : q.jobs ⊆ (dcpOf s a).jobs) : Recedes a s (Machine.setDcp s a q) := by
  have set : dcpOf (Machine.setDcp s a q) a = q := dcpOf_setDcp_same ..
  refine ⟨by rw [set, wbs], fun _ => id, fun e i => by rwa [entryOf_of_entries (s := s) (by rw [set, entries])],
    fun id i => ?_⟩
  rw [jobOf, List.find?_eq_none] at i ⊢
  rw [set]
  exact fun x mem => i x (jobs mem)

theorem modJob (s : State) (a id : Nat) (f : Job → Job) (keeps : ∀ j, j.id = id → (f j).id = id) :
    Recedes a s (Machine.modJob s a id f) :=
  ⟨by rw [dcpOf_modJob], fun _ i => i, fun e i => by rwa [entryOf_of_entries (s := s) (by rw [dcpOf_modJob])],
    fun k i => by rw [jobOf_modJob _ _ _ _ keeps, i, Option.map_none]⟩

theorem dropJob (s : State) (a : Nat) (j : Job) : Recedes a s (Machine.dropJob s a j) := by
  unfold Machine.dropJob
  extract_lets t d
  have freed : Recedes a s t := (Released.jobFreed s a j.id).recedes
  clear_value t
  exact freed.trans (setDcp (by rfl) (by rfl) (List.filter_subset_self _))

theorem finishJob (s : State) (a : Nat) (j : Job) (timeout : Bool) : Recedes a s (Machine.finishJob s a j timeout) := by
  unfold Machine.finishJob finishRecord
  exact (Recedes.dropJob s a j).trans (.postRecord _ _ _)

theorem settleJob (s : State) (a id : Nat) : Recedes a s (Machine.settleJob s a id) := by
  unfold Machine.settleJob
  split
  · exact .refl
  · split
    · exact .finishJob ..
    · exact .refl

theorem poolNext (s : State) (a : Nat) : Recedes a s (Machine.poolNext s a) := by
  unfold Machine.poolNext
  split
  · exact .refl
  · exact each_keeps (P := Recedes a s)
      (fun j u h => h.trans ((Asked.requestReplay a j.id j.plan u).recedes.trans (settleJob ..))) _ s .refl

end Recedes

/-- A job that ends has left. -/
theorem jobOf_finishJob (s : State) (a : Nat) (j : Job) (timeout : Bool) : jobOf (finishJob s a j timeout) a j.id = none := by
  unfold finishJob finishRecord
  refine (Recedes.postRecord _ _ _).gone _ ?_
  obtain ⟨x, queue⟩ := dcpOf_dropJob s a j
  rw [jobOf, queue]
  exact List.find?_eq_none.2 fun y mem => by simpa using (List.mem_filter.1 mem).2

end Sys2Proof.Machine

end

section
-- `decide` waits for the kernel: a thread for each of these proofs would exhaust the memory limit.
set_option Elab.async false

namespace Sys2Proof.Machine

/-! ### Intake (R115 to R118) -/

/-- The oldest packet taken off the Spool, its words that failed their parity reported. -/
def packetTaken (s : State) (a : Nat) (k : Packet) (rest : List Packet) (poisoned : List Nat) (trailer : Bool) : State :=
  spoolParity (setPair s a { pairOf s a with packets := rest }) a (poisonCount k.words poisoned + b2n trailer)

/-- The job a live packet makes. -/
def packetJob (k : Packet) : Job :=
  { ctx := k.ctx, sector := k.sector, slot := k.trailer.slot, seq := k.trailer.seq, trailer := k.trailer }

section Packet

variable (s : State) (a : Nat) (k : Packet) (rest : List Packet) (poisoned : List Nat) (trailer : Bool)

theorem dcpOf_packetTaken (b : Nat) : dcpOf (packetTaken s a k rest poisoned trailer) b = dcpOf s b := by
  rw [packetTaken, dcpOf_of_poolState (poolState_spoolParity ..), dcpOf_setPair]

theorem ctxOf_packetTaken (b n : Nat) : ctxOf (packetTaken s a k rest poisoned trailer) b n = ctxOf s b n := by
  rw [ctxOf, dcpOf_packetTaken, ctxOf]

theorem pairOf_packetTaken :
    pairOf (packetTaken s a k rest poisoned trailer) a = { pairOf s a with packets := rest } := by
  rw [packetTaken, pairOf_of_poolState (poolState_spoolParity ..), pairOf_setPair_same]

theorem nowNs_packetTaken : nowNs (packetTaken s a k rest poisoned trailer) = s.ckr.up * 40 := by
  have ckr : (packetTaken s a k rest poisoned trailer).ckr = s.ckr :=
    view_spoolParity (π := State.ckr) (fun _ _ _ _ _ _ _ _ => rfl) ..
  rw [nowNs, ckr]

theorem fld_packetTaken (f : Fld) (i : Nat) (pool : f.reg.info.block = .dcp) :
    fld (packetTaken s a k rest poisoned trailer) f i = fld s f i := by
  have kept := (keeps_spoolParity (setPair s a { pairOf s a with packets := rest }) a
    (poisonCount k.words poisoned + b2n trailer)).regs f.reg i (by rw [pool]; decide)
  exact (fld_eq_of_rd kept).trans (fld_setPair ..)

end Packet

section Arrival

variable {s : State} {a : Nat} {poisoned : List Nat} {k : Packet} {rest : List Packet}
variable (oldest : (pairOf s a).packets = k :: rest) (used : (ctxOf s a k.ctx).used = true) (fresh : k.job = none)
include oldest used fresh

/-- A live packet makes a job, for which its entry is READY. -/
theorem trailerArrival_live (full : k.only = false) (live : k.live = true) :
    trailerArrival s a poisoned false =
      let r := newJob (packetTaken s a k rest poisoned false) a (packetJob k)
      readyEntry r.2 a k r.1 poisoned true none := by
  have known : (ctxOf (packetTaken s a k rest poisoned false) a k.ctx).used = true := by rwa [ctxOf_packetTaken]
  unfold trailerArrival
  dsimp only
  rw [oldest]
  dsimp only
  rw [← packetTaken, known, fresh, full, live]
  rfl

/-- A packet whose trailer is poisoned is discarded with a record. -/
theorem trailerArrival_poisoned :
    trailerArrival s a poisoned true =
      packetRecord (packetTaken s a k rest poisoned true) a k { packetJob k with seq := 0 } 0x34 := by
  have known : (ctxOf (packetTaken s a k rest poisoned true) a k.ctx).used = true := by rwa [ctxOf_packetTaken]
  unfold trailerArrival
  dsimp only
  rw [oldest]
  dsimp only
  rw [← packetTaken, known, fresh]
  rfl

end Arrival

theorem exec_trailerArrival {s : State} {a : Nat} {poisoned : List Nat} {trailer : Bool} (runs : dcpFrozen s = false) :
    exec (.trailerArrival a poisoned trailer) s = .next (poolNext (trailerArrival s a poisoned trailer) a) :=
  congrArg Host.Outcome.next (if_neg (by rw [runs]; decide))

/-- The queue with a new job and its packet's entry. -/
theorem dcpOf_readyEntry_newJob (s : State) (a : Nat) (k : Packet) (j : Job) (id : Nat) (poisoned : List Nat) (live : Bool)
    (attempt : Option Attempt) : (dcpOf (readyEntry (newJob s a j).2 a k id poisoned live attempt) a).jobs =
      (dcpOf s a).jobs ++ [{ j with id := (dcpOf s a).nextJob }] := by
  rw [readyEntry, dcpOf_setEntry, dcpOf_setDcp_same, newJob, dcpOf_setDcp_same]

/-- A live packet's trailer makes its entry READY with the deadline of R118. -/
theorem ends_trailerArrival_live {s : State} {a : Nat} {poisoned : List Nat} {k : Packet} {rest : List Packet}
    (runs : dcpFrozen s = false) (quiet : (dcpOf s a).jobs.all (fun x => !x.want) = true)
    (oldest : (pairOf s a).packets = k :: rest) (used : (ctxOf s a k.ctx).used = true) (fresh : k.job = none)
    (full : k.only = false) (live : k.live = true) : Ends (.trailerArrival a poisoned false) s (fun t =>
      (entryOf t a k.entry).st = .ready ∧
      (entryOf t a k.entry).live = true ∧
      (entryOf t a k.entry).deadline = s.ckr.up * 40 + fld s F.DCP_OTF_CTL_DEADLINE_MULT * fld s F.DCP_SECT_TIME_NS a ∧
      (pairOf t a).packets = rest) := by
  refine ⟨_, exec_trailerArrival runs, ?_⟩
  rw [poolNext_of_no_want, trailerArrival_live oldest used fresh full live]
  · dsimp only
    rw [readyEntry]
    rw [entryOf_setEntry_same]
    refine ⟨rfl, rfl, ?_, ?_⟩
    · dsimp only
      rw [newJob]
      dsimp only
      rw [fld_setDcp, fld_setDcp, fld_packetTaken _ _ _ _ _ _ _ _ rfl, fld_packetTaken _ _ _ _ _ _ _ _ rfl]
      exact congrArg (· + _) (nowNs_packetTaken s a k rest poisoned false)
    · rw [pairOf_setEntry, pairOf_setDcp, newJob, pairOf_setDcp, pairOf_packetTaken]
  · rw [trailerArrival_live oldest used fresh full live, dcpOf_readyEntry_newJob, dcpOf_packetTaken, List.all_append, quiet]
    rfl

/-- The outcome of a record. -/
theorem outcome_makeRecord (j : Job) (outcome : Nat) (timeout : Bool) :
    getBits (makeRecord j outcome timeout) 0 8 = outcome % 256 := by
  rw [getBits, makeRecord, BitVec.extractLsb'_toNat, BitVec.toNat_ofNat]
  omega

/-- A poisoned trailer discards its entry and posts QUEUE_ECC (R117). -/
theorem ends_trailerArrival_poisoned {s : State} {a : Nat} {poisoned : List Nat} {k : Packet} {rest : List Packet}
    (runs : dcpFrozen s = false) (quiet : (dcpOf s a).jobs.all (fun x => !x.want) = true)
    (oldest : (pairOf s a).packets = k :: rest) (used : (ctxOf s a k.ctx).used = true) (fresh : k.job = none)
    (entry : k.entry < 16) (room : (dcpOf s a).ring.length < 64) : Ends (.trailerArrival a poisoned true) s (fun t =>
      (entryOf t a k.entry).st = .free ∧
      (dcpOf t a).ring.length = (dcpOf s a).ring.length + 1 ∧
      ((dcpOf t a).ring.getLast?.map (fun w => getBits w 0 8)) = some 0x34 ∧
      (dcpOf t a).jobs = (dcpOf s a).jobs) := by
  refine ⟨_, exec_trailerArrival runs, ?_⟩
  rw [trailerArrival_poisoned oldest used fresh, packetRecord, freePacketEntry, if_pos entry]
  generalize packed : packetTaken s a k rest poisoned true = p
  have queue : dcpOf p a = dcpOf s a := by rw [← packed, dcpOf_packetTaken]
  generalize recorded : ({ record := _, ctx := _, counts := _ } : HeldRecord) = h
  have outcome : getBits h.record 0 8 = 0x34 := by rw [← recorded]; exact outcome_makeRecord ..
  obtain ⟨entries, jobs, -⟩ := queue_postRecord (setEntry p a k.entry {}) a h
  obtain ⟨c, posted⟩ := dcpOf_postRecord (s := setEntry p a k.entry {}) (a := a) (h := h) (by rwa [dcpOf_setEntry, queue])
  rw [dcpOf_setEntry, queue] at jobs posted
  rw [poolNext_of_no_want (by rwa [jobs])]
  refine ⟨?_, ?_, ?_, jobs⟩
  · rw [entryOf_of_entries entries, entryOf_setEntry_same]
  · rw [posted, List.length_append, List.length_singleton]
  · rw [posted, List.getLast?_concat, Option.map_some, outcome]

/-- LLR words that come poisoned read zero, and the others as they came. -/
theorem getD_cleared (words : List Word) (poisoned : List Nat) {i : Nat} (x : Word) (h : i < words.length) :
    (cleared words poisoned).getD i x = if i ∈ poisoned then 0#64 else words[i] := by
  rw [List.getD_eq_getElem?_getD, cleared, List.getElem?_mapIdx, List.getElem?_eq_getElem h]
  rfl

/-! ### Selection (R119 to R121) -/

/-- A change that one element of a list makes and the others do not. -/
theorem each_only {α : Type} {f : α → State → State} {x : α} {l : List α} (nodup : l.Nodup) (mem : x ∈ l)
    (others : ∀ y, y ≠ x → ∀ t, f y t = t) (s : State) : each l f s = f x s := by
  have idle (m : List α) : x ∉ m → ∀ t, each m f t = t := by
    induction m with
    | nil => exact fun _ _ => rfl
    | cons y m ih =>
      intro absent t
      obtain ⟨head, tail⟩ : x ≠ y ∧ x ∉ m := by simpa using absent
      exact (ih tail _).trans (others y (Ne.symm head) t)
  induction l generalizing s with
  | nil => cases mem
  | cons y l ih =>
    obtain ⟨fresh, rest⟩ := List.nodup_cons.1 nodup
    obtain rfl | later := List.mem_cons.1 mem
    · exact idle l fresh _
    · refine (ih rest later _).trans (congrArg (f x) (others y (fun e => fresh (e ▸ later)) s))

/-- Recovery is selected only while fewer than RCV_MAX decoders run it. -/
theorem room_of_selectWork {s : State} {d a e cls : Nat} (found : selectWork s d = some (a, e, cls))
    (recovery : cls = 1 ∨ cls = 4) : rcvBusy s < fld s F.DCP_CTL_RCV_MAX := by
  by_contra full
  unfold selectWork at found
  extract_lets h c0 c1 c2 c4 room with_ k0 k1 k3 k4 at found
  have shut : room = false := decide_eq_false full
  have classOf {n : Nat} {x : Option Nat} {f : Nat → Option Nat} {r : Nat × Nat × Nat} (k : with_ n x f = some r) : r.2.2 = n := by
    cases x with
    | none => cases k
    | some b =>
      obtain ⟨m, -, rfl⟩ := Option.map_eq_some_iff.1 k
      rfl
  clear_value with_
  have other {n : Nat} (is : cls = n) (ne : n ≠ 1 ∧ n ≠ 4) : False := by omega
  rw [shut] at found
  simp only [Bool.false_eq_true, if_false] at found
  split at found
  · rename_i r k
    cases found
    exact other (classOf k) (by decide)
  · split at found
    · rename_i r k
      cases found
      exact other (classOf k) (by decide)
    · split at found
      · rename_i r k
        cases found
        split at k
        · exact other (classOf k) (by decide)
        · cases k
      · cases found

section Select

variable {s : State} {d a e cls : Nat} (may : maySelect s d = true) (found : selectWork s d = some (a, e, cls))
include may found

theorem selection_eq : selection s d = some (a, e, cls) := (if_pos may).trans found

/-- The only decoder that selects is granted by the queue it selected, and by no other (R120). -/
theorem queueGrant_only (hd : d < 12) (b : Nat) : queueGrant s [d] b = if b = a then some d else none := by
  have chosen := selection_eq may found
  have asks (k : Nat) : ([d].contains k && (selection s k).any (fun x => x.1 == b)) = true → k = d ∧ b = a := by
    intro both
    obtain ⟨member, wants⟩ := Bool.and_eq_true_iff.1 both
    have same : k = d := by simpa using member
    rw [same, chosen] at wants
    exact ⟨same, (by simpa using wants : a = b).symm⟩
  unfold queueGrant
  split
  · rename_i same
    exact grant_only _ hd (by rw [chosen, same]; simp) fun k _ asked => (asks k asked).1
  · rename_i other
    exact List.find?_eq_none.2 fun k _ asked => other (asks k asked).2

/-- The cycle in which one decoder selects is its taking of the work. -/
theorem selectCycle_only (hd : d < 12) (ha : a < s.part.acts) :
    selectCycle s [d] false = poolNext (takeWork s d a e cls false) a := by
  unfold selectCycle
  rw [each_only (x := a) List.nodup_range (List.mem_range.2 ha)]
  · rw [queueGrant_only may found hd, if_pos rfl]
    dsimp only
    rw [selection_eq may found]
    dsimp only
    exact if_neg fun held => absurd (room_of_selectWork found held.1) (by omega)
  · intro b other t
    rw [queueGrant_only may found hd, if_neg other]

end Select

/-- A decoder has taken an entry for its job: the entry is DECODING, the decoder at work on it, and the job's decode runs. -/
structure Taken (s : State) (d a e cls : Nat) (t : State) : Prop where
  entry : (entryOf t a e).st = .decoding
  work : ((decOf t d).work.map (fun w => (w.act, w.entry, w.cls))) = some (a, e, cls)
  busy : (jobOf t a (entryOf s a e).job).map Job.busy = some true
  wants : ∀ j ∈ (dcpOf t a).jobs, j.want = true → j.id = (entryOf s a e).job

theorem Taken.asked {s t u : State} {d a e cls : Nat} (h : Taken s d a e cls t) (k : Asked a t u)
    (wants : ∀ j ∈ (dcpOf u a).jobs, j.want = true → j.id = (entryOf s a e).job) : Taken s d a e cls u := by
  obtain ⟨l, queue⟩ := k.queue
  exact ⟨by rw [entryOf_of_entries (congrArg DcpAct.entries queue :), h.entry], by rw [decOf, k.decoders, ← decOf, h.work],
    (k.busy _).trans h.busy, wants⟩

theorem taken_takeWork {s : State} {d a e cls : Nat} {j : Job} (quiet : (dcpOf s a).jobs.all (fun x => !x.want) = true)
    (job : jobOf s a (entryOf s a e).job = some j) : Taken s d a e cls (takeWork s d a e cls false) := by
  unfold takeWork
  extract_lets x dec dec' q t
  have same : jobOf t a x.job = some j := by
    rw [← job]
    exact jobOf_of_jobs (by rw [dcpOf_setDcp_same]) _
  split
  · rename_i absent
    cases same.symm.trans absent
  rename_i k found
  cases same.symm.trans found
  extract_lets ask rung w t1 t2 t3
  have jobs : (dcpOf t1 a).jobs = (dcpOf s a).jobs := by
    rw [dcpOf_setDec, dcpOf_setEntry, dcpOf_setDcp_same]
  have taken : Taken s d a e cls t2 := by
    refine ⟨?_, ?_, ?_, ?_⟩
    · rw [entryOf_of_entries (s := t1) (by rw [dcpOf_modJob])]
      change (entryOf (setEntry t a e _) a e).st = _
      rw [entryOf_setEntry_same]
    · rw [decOf_modJob, decOf_setDec_same]
      rfl
    · exact congrArg (Option.map Job.busy) (jobOf_modJob_same ((jobOf_of_jobs jobs _).trans job))
    · intro y mem want
      refine (mem_jobs_modJob mem).elim id fun old => ?_
      rw [jobs] at old
      simpa [want] using List.all_eq_true.1 quiet y old
  rw [if_neg (by decide)]
  change Taken s d a e cls (if ask then _ else t2)
  split
  · exact taken.asked (.requestReplay ..) fun y mem want =>
      (mem_jobs_requestReplay _ mem).elim id fun old => taken.wants y old want
  · exact taken

/-- An idle decoder takes the entry it selects (R119). -/
theorem ends_decoderSelect {s : State} {d a e cls : Nat} {j : Job} (hd : d < 12) (ha : a < s.part.acts)
    (may : maySelect s d = true) (found : selectWork s d = some (a, e, cls))
    (quiet : (dcpOf s a).jobs.all (fun x => !x.want) = true) (job : jobOf s a (entryOf s a e).job = some j) :
    Ends (.decoderSelect [d] false) s (fun t =>
      (entryOf t a e).st = .decoding ∧
      ((decOf t d).work.map (fun w => (w.act, w.entry, w.cls))) = some (a, e, cls)) := by
  have taken := taken_takeWork (d := d) (cls := cls) quiet job
  obtain ⟨l, queue⟩ := (asked_poolNext fun y mem want => by rw [taken.wants y mem want, taken.busy]).queue
  have decoders := (asked_poolNext fun y mem want => by rw [taken.wants y mem want, taken.busy]).decoders
  refine ⟨_, congrArg Host.Outcome.next (selectCycle_only may found hd ha), ?_, ?_⟩
  · rw [entryOf_of_entries (congrArg DcpAct.entries queue :), taken.entry]
  · rw [decOf, decoders, ← decOf, taken.work]

/-! ### Early pins, yields and deadlines (R118, R121, R126) -/

theorem pinSlot_pool {p : Pair} {k seq : Nat} (valid : (slotAt p k).valid = true) (holds : (slotAt p k).seq = seq)
    (room : pinCount p < 2) : pinSlot p k seq true = (0, setSlot p k { slotAt p k with pinPool := true }) := by
  unfold pinSlot
  dsimp only
  rw [if_neg (by simp [valid, holds]), if_neg (by omega), if_pos rfl]

/-- The pool's pin holds the slot of a job's sector while its quota and the slots allow. -/
theorem pinned_poolPin {s : State} {a id : Nat} {j : Job} (job : jobOf s a id = some j) (unpinned : j.pin = false)
    (quota : countBelow (fun k => (slotAt (pairOf s a) k).pinPool) 4 < fld s F.DCP_RCV_CTL_PIN_QUOTA)
    (valid : (slotAt (pairOf s a) j.slot).valid = true) (holds : (slotAt (pairOf s a) j.slot).seq = j.seq)
    (room : pinCount (pairOf s a) < 2) : (slotAt (pairOf (poolPin s a id) a) j.slot).pinPool = true := by
  unfold poolPin
  rw [job]
  dsimp only
  rw [unpinned, if_neg (by decide), if_neg (by omega), pinSlot_pool valid holds room, if_pos rfl, pairOf_modJob,
    pairOf_setPair_same, slotAt_setSlot, if_pos rfl]

/-- A live decode that reaches EARLY_ITER pins its slot. -/
theorem ends_earlyPin {s : State} {d : Nat} {w : DecWork} {j : Job} (work : (decOf s d).work = some w) (live : w.live = true)
    (early : fld s F.DCP_OTF_CTL_EARLY_ITER ≠ 0) (runs : dcpFrozen s = false) (auto : flag s F.DCP_CTL_AUTO = true)
    (job : jobOf s w.act w.job = some j) (read : (ctxOf s w.act j.ctx).verify = false) (unpinned : j.pin = false)
    (quota : countBelow (fun k => (slotAt (pairOf s w.act) k).pinPool) 4 < fld s F.DCP_RCV_CTL_PIN_QUOTA)
    (valid : (slotAt (pairOf s w.act) j.slot).valid = true) (holds : (slotAt (pairOf s w.act) j.slot).seq = j.seq)
    (room : pinCount (pairOf s w.act) < 2) :
    Ends (.earlyPin d) s (fun t => (slotAt (pairOf t w.act) j.slot).pinPool = true) := by
  have meaning : exec (.earlyPin d) s = .next (poolPin (setDec s d { decOf s d with
      work := some { w with done := fld s F.DCP_OTF_CTL_EARLY_ITER } }) w.act w.job) := by
    change execEarlyPin d s = _
    rw [execEarlyPin, work]
    dsimp only
    rw [job]
    exact congrArg Host.Outcome.next (if_pos ⟨live, early, by rw [runs]; rfl, auto, by rw [read]; rfl⟩)
  exact ⟨_, meaning, pinned_poolPin (s := setDec s d _) job unpinned quota valid holds room⟩

/-- An entry that takes its decode's posteriors is HELD. -/
theorem held_holdEntry (s : State) (a e cap : Nat) : (entryOf (holdEntry s a e cap) a e).st = .held := by
  have held (t : State) (x : Entry) (n : Nat) (h : x.st = .held) :
      (entryOf { setEntry t a e x with free := n } a e).st = .held :=
    (congrArg Entry.st (entryOf_setEntry_same t a e x)).trans h
  exact held _ _ _ rfl

/-- A recovery decode that has yielded: its iterations counted, its entry HELD and its decoder idle. -/
def decodeYielded (s : State) (d iters : Nat) (w : DecWork) : State :=
  let t := modJob s w.act w.job (fun j => { j with
    recIter := j.recIter + iters, left := if j.submit.isSome then j.left else j.left - iters, busy := false })
  let t := holdEntry t w.act w.entry (w.cap - iters)
  setDec t d { decOf t d with work := none }

/-- A recovery decode yields to an urgent entry no decoder is idle for. -/
theorem ends_decodeYield {s : State} {d iters : Nat} {w : DecWork} (work : (decOf s d).work = some w) (recovery : w.live = false)
    (runs : dcpFrozen s = false) (begun : 0 < iters) (eighth : iters % 8 = 0) (left : iters < attemptCap s w)
    (urgent : urgentWaits s = true) (busy : idleDecoder s = false) : Ends (.decodeYield d iters) s (fun t =>
      (decOf t d).work = none ∧
      (entryOf t w.act w.entry).st = .held) := by
  have goes : (!w.live) = true ∧ (!dcpFrozen s) = true ∧ 0 < iters ∧ iters % 8 = 0 ∧ iters < attemptCap s w ∧
      urgentWaits s = true ∧ (!idleDecoder s) = true := by
    rw [recovery, runs, busy]
    exact ⟨rfl, rfl, begun, eighth, left, urgent, rfl⟩
  have meaning : exec (.decodeYield d iters) s = .next (decodeYielded s d iters w) := by
    change execDecodeYield d iters s = _
    rw [execDecodeYield, work]
    exact congrArg Host.Outcome.next (if_pos goes)
  refine ⟨_, meaning, ?_, ?_⟩
  · rw [decodeYielded, decOf_setDec_same]
  · rw [decodeYielded, entryOf_setDec]
    exact held_holdEntry ..

theorem ends_entryUrgent {s : State} {a e : Nat} (live : (entryOf s a e).live = true) (ready : (entryOf s a e).st = .ready) :
    Ends (.entryUrgent a e) s (fun t => entryOf t a e = { entryOf s a e with urgent := true }) :=
  ⟨_, congrArg Host.Outcome.next (if_pos ⟨live, ready⟩), entryOf_setEntry_same ..⟩

theorem ends_recoveryJobAged {s : State} {a e : Nat} (waits : rcvReady s a (entryOf s a e) = true) :
    Ends (.recoveryJobAged a e) s (fun t => entryOf t a e = { entryOf s a e with aged := true }) :=
  ⟨_, congrArg Host.Outcome.next (if_pos waits), entryOf_setEntry_same ..⟩

/-- A deadline that passes marks its entry and is counted (R118). -/
theorem ends_decodeDeadline {s : State} {a e : Nat} (live : (entryOf s a e).live = true)
    (first : (entryOf s a e).missed = false) (unfinished : (entryOf s a e).st = .ready ∨ (entryOf s a e).st = .decoding) :
    Ends (.decodeDeadline a e) s (fun t =>
      (entryOf t a e).missed = true ∧
      fld t F.DCP_CNT_DEADLINE_MISS a = min (fld s F.DCP_CNT_DEADLINE_MISS a + 1) 65535) := by
  refine ⟨_, congrArg Host.Outcome.next (if_pos ⟨live, by rw [first]; rfl, unfinished⟩), ?_, ?_⟩
  · rw [entryOf_of_poolState (poolState_sendFault ..)]
    exact congrArg Entry.missed (entryOf_setEntry_same s a e { entryOf s a e with missed := true })
  · rw [fld_eq_of_rd ((keeps_sendFault (bs := [.fcl]) (m := false) _ _ _ _ _ _ (by decide)).regs _ _ (by decide)),
      fld_bump_same _ _ _ _ (by decide)]
    rfl

/-- Settles O5, clause by clause: intake, selection, the pool's early pin, and how a waiting or running entry is marked. -/
theorem poolIntakeAndSelection : Obligations.PoolIntakeAndSelection := by
  refine ⟨fun _ _ _ _ _ => ends_trailerArrival_live, fun _ _ _ _ _ => ends_trailerArrival_poisoned, ?_,
    fun _ _ _ _ _ _ => ends_decoderSelect, fun _ _ _ _ => ends_earlyPin, fun _ _ _ _ => ends_decodeYield,
    fun _ _ _ => ends_entryUrgent, fun _ _ _ => ends_recoveryJobAged, fun _ _ _ => ends_decodeDeadline⟩
  intro words poisoned i h
  refine ⟨fun bad => by rw [getD_cleared _ _ _ h, if_pos bad], fun good => ?_⟩
  rw [getD_cleared _ _ _ h, if_neg good, List.getD_eq_getElem _ _ h]

end Sys2Proof.Machine

end

section
-- `decide` waits for the kernel: a thread for each of these proofs would exhaust the memory limit.
set_option Elab.async false

namespace Sys2Proof.Machine

/-! ### Ends of decodes (R114, R121, R123, R131) -/

/-- What a converged decode with a good CRC leaves: its work is over, and the queue then takes its write-back. -/
theorem decodeConverged_good {s : State} {d iters : Nat} {data : List Byte} {w : DecWork} {j : Job}
    (work : (decOf s d).work = some w) (runs : dcpFrozen s = false) (begun : 0 < iters) (capped : iters ≤ attemptCap s w)
    (job : jobOf s w.act w.job = some j) (whole : data.length = 4112)
    (crc : sectorCrc ((ctxOf s w.act j.ctx).lba + BitVec.ofNat 64 j.sector) (data.take 4108) =
      BitVec.ofNat 32 (leNat (data.drop 4108))) : ∃ t x, Recedes w.act (endWork s d w) t ∧
      decodeConverged s d iters data = setDcp t w.act { dcpOf t w.act with wbs := (dcpOf t w.act).wbs ++ [x] } := by
  unfold decodeConverged
  rw [work]
  dsimp -zeta only
  rw [if_neg (by rw [runs]; simp; omega), job]
  dsimp -zeta only
  extract_lets c lba j' t t₁ t₂ q
  rw [if_pos ⟨whole, crc⟩]
  have freed : Recedes w.act (endWork s d w) t :=
    ((Released.cancelReplay ..).trans (.freeJobEntries _ w.act j.id)).recedes
  have unpinned : Recedes w.act t t₁ := by
    unfold t₁
    split
    · exact (Asked.setPair ..).recedes
    · exact .refl
  exact ⟨t₂, _, (freed.trans unpinned).trans (.modJob _ _ _ _ fun _ _ => rfl), rfl⟩

theorem wbs_endWork (s : State) (d : Nat) (w : DecWork) : (dcpOf (endWork s d w) w.act).wbs = (dcpOf s w.act).wbs :=
  (Released.endWork s d w).recedes.wbs

theorem workAct_of_work {s : State} {d : Nat} {w : DecWork} (work : (decOf s d).work = some w) : workAct s d = w.act := by
  rw [workAct, work]

theorem ends_decodeConverged {s : State} {d iters : Nat} {data : List Byte} {w : DecWork} {j : Job}
    (work : (decOf s d).work = some w) (runs : dcpFrozen s = false) (begun : 0 < iters) (capped : iters ≤ attemptCap s w)
    (job : jobOf s w.act w.job = some j) (whole : data.length = 4112)
    (crc : sectorCrc ((ctxOf s w.act j.ctx).lba + BitVec.ofNat 64 j.sector) (data.take 4108) =
      BitVec.ofNat 32 (leNat (data.drop 4108))) : Ends (.decodeConverged d iters data) s (fun t =>
      (decOf t d).work = none ∧
      (entryOf t w.act w.entry).st = .free ∧
      (dcpOf t w.act).wbs.length = (dcpOf s w.act).wbs.length + 1) := by
  obtain ⟨t, x, ended, won⟩ := decodeConverged_good work runs begun capped job whole crc
  refine ⟨_, rfl, ?_⟩
  rw [won, workAct_of_work work]
  generalize issued : setDcp t w.act { dcpOf t w.act with wbs := (dcpOf t w.act).wbs ++ [x] } = u
  have queue : dcpOf u w.act = { dcpOf t w.act with wbs := (dcpOf t w.act).wbs ++ [x] } := by rw [← issued, dcpOf_setDcp_same]
  have next := Recedes.poolNext u w.act
  refine ⟨next.idle d ?_, next.free _ ?_, ?_⟩
  · rw [← issued, decOf_setDcp]
    exact ended.idle d (idle_endWork s d w)
  · rw [entryOf_of_entries (congrArg DcpAct.entries queue :)]
    exact ended.free _ (free_endWork s d w)
  · rw [next.wbs, queue, List.length_append, List.length_singleton, ended.wbs, wbs_endWork]

/-- A VERIFY's decode that fails posts its record (R286). -/
theorem failLive_verify {s : State} {d : Nat} {w : DecWork} {j : Job} (skip2 : Bool) (job : jobOf s w.act w.job = some j)
    (verify : (ctxOf s w.act j.ctx).verify = true) : failLive s d w skip2 = finishJob (endWork s d w) w.act j false := by
  unfold failLive
  rw [job]
  exact if_pos (by rw [verify]; rfl)

theorem ends_decodeCap_verify {s : State} {d : Nat} {w : DecWork} {j : Job} (work : (decOf s d).work = some w)
    (runs : dcpFrozen s = false) (live : w.live = true) (job : jobOf s w.act w.job = some j)
    (verify : (ctxOf s w.act j.ctx).verify = true) : Ends (.decodeCap d) s (fun t =>
      (decOf t d).work = none ∧
      (entryOf t w.act w.entry).st = .free ∧
      jobOf t w.act w.job = none) := by
  have meaning : ∃ u k, k.id = w.job ∧ decodeCap s d = finishJob (endWork u d w) w.act k false := by
    unfold decodeCap failAttempt
    rw [work]
    dsimp -zeta only
    rw [if_neg (by simp [runs]), if_pos live]
    have run := jobOf_modJob_same (f := fun j => { j with liveIter := attemptCap s w, dec := d }) job
    exact ⟨_, _, id_of_jobOf run, failLive_verify _ run (by rwa [ctxOf_of_ctxs (s := s) (by rw [dcpOf_modJob])])⟩
  obtain ⟨u, k, named, ended⟩ := meaning
  refine ⟨_, rfl, ?_⟩
  rw [ended, workAct_of_work work]
  have next := (Recedes.finishJob (endWork u d w) w.act k false).trans (.poolNext _ w.act)
  refine ⟨next.idle d (idle_endWork u d w), next.free _ (free_endWork u d w), ?_⟩
  have gone := jobOf_finishJob (endWork u d w) w.act k false
  rw [named] at gone
  exact (Recedes.poolNext _ w.act).gone _ gone

/-- The queue once a write-back's last response has come: the write-back is gone, its record in the ring, and of the jobs some
may be gone. -/
theorem dcpOf_writebackDone {s : State} {a job : Nat} {w : WriteBack} (err : Bool)
    (found : (dcpOf s a).wbs.find? (fun x => decide (x.job = job)) = some w) (room : (dcpOf s a).ring.length < 64) :
    ∃ x l r c, l ⊆ (dcpOf s a).jobs ∧ dcpOf (writebackDone s a job err) a =
      { dcpOf s a with
        wbs := (dcpOf s a).wbs.filter (fun x => decide (x.job ≠ job)), entries := x, jobs := l
        ring := (dcpOf s a).ring ++ [r], ctxs := c } := by
  unfold writebackDone
  extract_lets d
  rw [found]
  dsimp -zeta only
  extract_lets y t unpin t₁
  have stored : dcpOf t a = { d with wbs := d.wbs.filter (fun x => decide (x.job ≠ job)) } :=
    (dcpOf_of_poolState (poolState_storeSector ..) a).trans (dcpOf_setDcp_same ..)
  have left : ∃ x l, l ⊆ d.jobs ∧ dcpOf t₁ a =
      { d with wbs := d.wbs.filter (fun x => decide (x.job ≠ job)), entries := x, jobs := l } := by
    unfold t₁
    split
    · obtain ⟨x, dropped⟩ := dcpOf_dropJob t a _
      exact ⟨x, _, List.filter_subset_self _, by rw [dropped, stored]⟩
    · exact ⟨_, _, List.Subset.refl _, stored⟩
  obtain ⟨x, l, sub, left⟩ := left
  obtain ⟨c, posted⟩ := dcpOf_postRecord (s := t₁) (a := a)
    (h := { dec := w.dec, record := if y.1 then w.record else setBits w.record 0 8 0x35, ctx := w.ctx, counts := w.counts
            unpin := unpin }) (by rw [left]; exact room)
  exact ⟨x, l, _, c, sub, by rw [posted, left]⟩

/-- A write-back's last response retires it with its record. -/
theorem ends_writebackDone {s : State} {a job : Nat} {err : Bool} {w : WriteBack}
    (found : (dcpOf s a).wbs.find? (fun x => decide (x.job = job)) = some w) (room : (dcpOf s a).ring.length < 64)
    (quiet : (dcpOf s a).jobs.all (fun x => !x.want) = true) : Ends (.writebackDone a job err) s (fun t =>
      (dcpOf t a).wbs.all (fun x => decide (x.job ≠ job)) = true ∧
      (dcpOf t a).ring.length = (dcpOf s a).ring.length + 1) := by
  obtain ⟨x, l, r, c, sub, queue⟩ := dcpOf_writebackDone err found room
  have still : poolNext (writebackDone s a job err) a = writebackDone s a job err := by
    refine poolNext_of_no_want ?_
    rw [queue]
    exact List.all_eq_true.2 fun y mem => List.all_eq_true.1 quiet y (sub mem)
  refine ⟨_, congrArg Host.Outcome.next still, ?_, ?_⟩
  · rw [queue]
    exact List.all_eq_true.2 fun y mem => (List.mem_filter.1 mem).2
  · rw [queue, List.length_append, List.length_singleton]

/-! ### HW_LIMIT (R128) -/

/-- HW_LIMIT ends a job on the pool rungs, whatever its decode ran. -/
theorem recoveryTimeout_ends {s : State} {a job iters : Nat} {j : Job} (found : jobOf s a job = some j)
    (failed : j.failed = true) (pending : j.won = false) (ours : j.submit = none)
    (limit : rcvFld j.rcv F.DCP_RCV_CTL_HW_LIMIT ≠ 0) :
    ∃ k : Job, k.id = job ∧ recoveryTimeout s a job iters = finishJob s a k true := by
  unfold recoveryTimeout
  rw [found]
  refine ⟨_, ?_, if_pos ⟨failed, by rw [pending]; rfl, ours, limit⟩⟩
  exact (id_of_jobOf found : j.id = job)

theorem ends_recoveryTimeout {s : State} {a job iters : Nat} {j : Job} (runs : dcpFrozen s = false)
    (found : jobOf s a job = some j) (failed : j.failed = true) (pending : j.won = false) (ours : j.submit = none)
    (limit : rcvFld j.rcv F.DCP_RCV_CTL_HW_LIMIT ≠ 0) :
    Ends (.recoveryTimeout a { job := job, iters := iters }) s (fun t => jobOf t a job = none) := by
  obtain ⟨k, named, ended⟩ := recoveryTimeout_ends (iters := iters) found failed pending ours limit
  refine ⟨_, congrArg Host.Outcome.next (if_neg (by rw [runs]; decide)), ?_⟩
  dsimp only
  rw [ended]
  have gone := jobOf_finishJob s a k true
  rw [named] at gone
  exact (Recedes.poolNext _ a).gone _ gone

/-- A stopped pool passes no limit (R136). -/
theorem ends_recoveryTimeout_frozen {s : State} {a job iters : Nat} (frozen : dcpFrozen s = true) :
    Ends (.recoveryTimeout a { job := job, iters := iters }) s (fun t => t = s) :=
  ⟨s, congrArg Host.Outcome.next (if_pos frozen), rfl⟩

/-! ### Records read (R123) -/

theorem postHeld_of_none {s : State} {a : Nat} (held : (dcpOf s a).held = []) : postHeld s a = s := by
  unfold postHeld
  dsimp only
  rw [held]

theorem ends_dcpCplRead {s : State} {a : Nat} {w : Word} {rest : List Word} (ha : a < s.part.acts)
    (ring : (dcpOf s a).ring = w :: rest) (held : (dcpOf s a).held = []) : Ends (.dcpCplRead a) s (fun t =>
      t.bus = { value := w, err := false } ∧
      (dcpOf t a).ring = rest) := by
  have popped : popRecord s a = (w, setDcp s a { dcpOf s a with ring := rest }) := by
    unfold popRecord
    dsimp only
    rw [ring]
    exact congrArg (Prod.mk w) (postHeld_of_none (by rwa [dcpOf_setDcp_same]))
  refine ⟨_, congrArg Host.Outcome.next (if_pos ha), ?_⟩
  dsimp only
  rw [popped]
  exact ⟨rfl, by rw [dcpOf_answer, dcpOf_setDcp_same]⟩

theorem ends_dcpCplRead_empty {s : State} {a : Nat} (ha : a < s.part.acts) (ring : (dcpOf s a).ring = []) :
    Ends (.dcpCplRead a) s (fun t => t = { s with bus := { value := 0#64, err := false } }) := by
  have popped : popRecord s a = (0#64, s) := by
    unfold popRecord
    dsimp only
    rw [ring]
  refine ⟨_, congrArg Host.Outcome.next (if_pos ha), ?_⟩
  rw [popped]
  rfl

/-! ### Firmware jobs (R130, R141) -/

/-- A submission with GO while none is being accepted stores its fields and answers with its status. -/
theorem exec_dcpSubmit {s : State} {a : Nat} {v : Word} (ha : a < s.part.acts) (go : bit v 54 = true)
    (free : flag s F.DCP_SUBMIT_BUSY a = false) (runs : dcpFrozen s = false) : ∃ u, poolState u = poolState s ∧
      exec (.dcpSubmit a v) s = .next (setFld (submitJob u a v).2 F.DCP_SUBMIT_STATUS a (submitJob u a v).1) := by
  have goes : a < s.part.acts ∧ (!(bit v 54 && flag s F.DCP_SUBMIT_BUSY a)) = true := by
    rw [go, free]
    exact ⟨ha, rfl⟩
  change ∃ u, _ ∧ execDcpSubmit a v s = _
  unfold execDcpSubmit
  rw [if_pos goes]
  extract_lets cap t r
  have same : poolState t = poolState s := poolState_setFlds ..
  have reads : dcpFrozen t = false := by
    have ckr : t.ckr = s.ckr := view_setFlds (π := State.ckr) (fun _ _ _ _ _ _ _ _ => rfl) ..
    have safe : flag t F.FCL_STAT_SAFE = flag s F.FCL_STAT_SAFE := by
      rw [flag, fld_eq_of_rd ((keeps_setFlds_all (bs := [.dcp]) (m := false) s a _ (by rfl)).regs _ _ (by decide)), flag]
    rw [← runs, dcpFrozen, safeState, powerLost, safe, ckr]
    rfl
  exact ⟨t, same, congrArg Host.Outcome.next ((if_pos go).trans (if_neg (by rw [reads]; decide)))⟩

theorem submitJob_lost {s : State} {a : Nat} {v : Word} (lost : (slotAt (pairOf s a) (getBits v 0 2)).valid = false ∨
    (slotAt (pairOf s a) (getBits v 0 2)).seq ≠ getBits v 2 16) : submitJob s a v = (0x21, s) :=
  if_pos (lost.imp_left fun h => by rw [h]; rfl)

/-- A submission whose slot has moved on is refused RETAIN_LOST. -/
theorem ends_dcpSubmit_lost {s : State} {a : Nat} {v : Word} (ha : a < s.part.acts) (go : bit v 54 = true)
    (free : flag s F.DCP_SUBMIT_BUSY a = false) (runs : dcpFrozen s = false)
    (lost : (slotAt (pairOf s a) (getBits v 0 2)).valid = false ∨
      (slotAt (pairOf s a) (getBits v 0 2)).seq ≠ getBits v 2 16) : Ends (.dcpSubmit a v) s (fun t =>
      fld t F.DCP_SUBMIT_STATUS a = 0x21 ∧
      dcpOf t a = dcpOf s a ∧
      pairOf t a = pairOf s a) := by
  obtain ⟨u, same, meaning⟩ := exec_dcpSubmit ha go free runs
  rw [← pairOf_of_poolState same] at lost
  rw [submitJob_lost lost] at meaning
  exact ⟨_, meaning, fld_setFld_same _ _ _ _ (by decide), dcpOf_of_poolState same a, pairOf_of_poolState same a⟩

/-- What a replay that LNE accepts has passed (R95). -/
theorem of_replayStatus_zero {p : Pair} {k seq : Nat} {useB : Bool} {off : Int} (ok : replayStatus p k seq useB off = 0) :
    ¬ ((!(slotAt p k).valid) = true ∨ (slotAt p k).seq ≠ seq) ∧ ¬ 4 ≤ p.replays.length - liveReplays p := by
  unfold replayStatus at ok
  dsimp only at ok
  split at ok
  · cases ok
  · split at ok
    · cases ok
    · split at ok
      · cases ok
      · exact ⟨‹_›, ‹_›⟩

/-- An attempt LNE accepts is queued, and the job's outstanding one. -/
theorem requestReplay_accepted {s : State} {a id : Nat} {x : Attempt} {rest : List Attempt} {j : Job}
    (job : jobOf s a id = some j) (ok : replayStatus (pairOf s a) j.slot j.seq x.useB x.off = 0) :
    jobOf (requestReplay s a id (x :: rest)) a id =
      some { j with plan := rest, current := some x, want := false, out := true } ∧
    (pairOf (requestReplay s a id (x :: rest)) a).replays.length = (pairOf s a).replays.length + 1 ∧
    (dcpOf (requestReplay s a id (x :: rest)) a).jobs.length = (dcpOf s a).jobs.length := by
  obtain ⟨q, asked⟩ : ∃ q, requestReplay s a id (x :: rest) =
      modJob (setPair s a { pairOf s a with replays := (pairOf s a).replays ++ [q] }) a id
        (fun j => { j with plan := rest, current := some x, want := false, out := true }) := by
    rw [requestReplay, job]
    dsimp only
    rw [ok]
    exact ⟨_, rfl⟩
  rw [asked]
  refine ⟨jobOf_modJob_same (s := setPair s a _) job, ?_, ?_⟩
  · rw [pairOf_modJob, pairOf_setPair_same, List.length_append, List.length_singleton]
  · rw [dcpOf_modJob, List.length_map, dcpOf_setPair]

/-- A job with iterations left and a replay outstanding is not settled. -/
theorem settleJob_out {s : State} {a id : Nat} {j : Job} (job : jobOf s a id = some j) (left : j.left ≠ 0)
    (out : j.out = true) : settleJob s a id = s := by
  unfold settleJob
  rw [job]
  dsimp only
  rw [if_neg (by simp [left, out])]

/-- A number no job has finds the job it is given to. -/
theorem jobOf_newJob {s : State} {a : Nat} {j : Job} (fresh : (dcpOf s a).jobs.all (fun x => decide (x.id ≠ (dcpOf s a).nextJob))) :
    jobOf (newJob s a j).2 a (newJob s a j).1 = some { j with id := (dcpOf s a).nextJob } := by
  have none : (dcpOf s a).jobs.find? (fun x => decide (x.id = (dcpOf s a).nextJob)) = none :=
    List.find?_eq_none.2 fun x mem => by simpa using List.all_eq_true.1 fresh x mem
  rw [jobOf, newJob]
  dsimp only
  rw [dcpOf_setDcp_same, List.find?_append, none]
  exact List.find?_cons_of_pos (p := fun x : Job => decide (x.id = (dcpOf s a).nextJob)) (decide_eq_true rfl)

/-- A submission LNE accepts makes a job with its replay queued. -/
theorem submitJob_accepted {s : State} {a : Nat} {v : Word}
    (ok : replayStatus (pairOf s a) (getBits v 0 2) (getBits v 2 16) (bit v 25) (signed 7 (getBits v 18 7)) = 0)
    (used : (ctxOf s a (getBits v 27 3)).used = true)
    (fresh : (dcpOf s a).jobs.all (fun x => decide (x.id ≠ (dcpOf s a).nextJob)) = true) :
    (submitJob s a v).1 = 0 ∧
    (pairOf (submitJob s a v).2 a).replays.length = (pairOf s a).replays.length + 1 ∧
    (dcpOf (submitJob s a v).2 a).jobs.length = (dcpOf s a).jobs.length + 1 := by
  obtain ⟨holds, room⟩ := of_replayStatus_zero ok
  unfold submitJob
  extract_lets k seq off useB run cap p x r
  rw [if_neg holds, if_neg room, if_neg (by rw [used]; decide)]
  have positive : cap ≠ 0 := Nat.ne_of_gt (Nat.le_max_left 1 _)
  obtain ⟨job, replays, jobs⟩ := requestReplay_accepted (s := r.2) (a := a) (id := r.1)
    (x := { rung := 7, useB := useB, off := off, cap := cap }) (rest := []) (jobOf_newJob fresh) ok
  dsimp only
  rw [settleJob_out job positive rfl, replays, jobs]
  refine ⟨rfl, rfl, ?_⟩
  rw [show r.2 = setDcp s a _ from rfl, dcpOf_setDcp_same, List.length_append, List.length_singleton]

theorem ends_dcpSubmit_accepted {s : State} {a : Nat} {v : Word} (ha : a < s.part.acts) (go : bit v 54 = true)
    (free : flag s F.DCP_SUBMIT_BUSY a = false) (runs : dcpFrozen s = false)
    (ok : replayStatus (pairOf s a) (getBits v 0 2) (getBits v 2 16) (bit v 25) (signed 7 (getBits v 18 7)) = 0)
    (used : (ctxOf s a (getBits v 27 3)).used = true)
    (fresh : (dcpOf s a).jobs.all (fun x => decide (x.id ≠ (dcpOf s a).nextJob)) = true) : Ends (.dcpSubmit a v) s (fun t =>
      fld t F.DCP_SUBMIT_STATUS a = 0 ∧
      (pairOf t a).replays.length = (pairOf s a).replays.length + 1 ∧
      (dcpOf t a).jobs.length = (dcpOf s a).jobs.length + 1) := by
  obtain ⟨u, same, meaning⟩ := exec_dcpSubmit ha go free runs
  have pair := pairOf_of_poolState same a
  have queue := dcpOf_of_poolState same a
  obtain ⟨status, replays, jobs⟩ := submitJob_accepted (s := u) (a := a) (v := v) (by rwa [pair])
    (by rwa [ctxOf_of_poolState same]) (by rwa [queue])
  refine ⟨_, meaning, ?_, ?_, ?_⟩
  · rw [fld_setFld_same _ _ _ _ (by decide), status]
    rfl
  · rw [pairOf_setFld, replays, pair]
  · rw [dcpOf_setFld, jobs, queue]

theorem ends_dcpSubmit_busy {s : State} {a : Nat} {v : Word} (go : bit v 54 = true)
    (busy : flag s F.DCP_SUBMIT_BUSY a = true) : Ends (.dcpSubmit a v) s (fun t => t = s) :=
  ⟨_, congrArg Host.Outcome.next (if_neg (by rw [go, busy]; simp)), rfl⟩

/-! ### A decoder's memory error (R137) -/

theorem ends_decoderMemoryError {s : State} {d : Nat} (hd : d < s.part.decoders) : Ends (.decoderMemoryError d) s (fun t =>
      (decOf t d).out = true ∧
      (decOf t d).work = none ∧
      bit (rd t .DCP_CTL 0) d = false) := by
  refine ⟨_, congrArg Host.Outcome.next (if_pos hd), ?_⟩
  extract_lets t e t₁ v
  have dec : decOf (sendFault (wr t₁ .DCP_CTL 0 (setBits v d 1 0)) .dcp (464 + d) FK.dcpDecoder 4 0) d =
      { decOf t d with work := none, out := true } := by
    rw [decOf_of_poolState (poolState_sendFault ..), decOf_wr, decOf_setDec_same]
  refine ⟨by rw [dec], by rw [dec], ?_⟩
  rw [(keeps_sendFault (bs := [.fcl]) (m := false) _ _ _ _ _ _ (by decide)).regs _ _ (by decide), rd_wr_same, bit,
    getLsbD_setBits]
  split
  · simp
  · exact BitVec.getLsbD_of_ge _ _ (by omega)

/-! ### Block reset of DCP (R92, R135) -/

/-- Another actuator's queue and pair stand. -/
structure Elsewhere (b : Nat) (s t : State) : Prop where
  queue : dcpOf t b = dcpOf s b
  pair : pairOf t b = pairOf s b

/-- The queue of an actuator whose pool work is discarded. -/
def queueDiscarded (d : DcpAct) : DcpAct := { d with
  entries := [], ctxs := [], jobs := [], wbs := d.wbs.map (fun w => { w with ctx := 8 })
  held := d.held.map (fun h => { h with ctx := 8, unpin := none }) }

namespace Elsewhere

variable {a b : Nat} {s t u : State}

theorem refl : Elsewhere b s s := ⟨rfl, rfl⟩

theorem trans (h : Elsewhere b s t) (k : Elsewhere b t u) : Elsewhere b s u := ⟨k.queue.trans h.queue, k.pair.trans h.pair⟩

theorem of_poolState (h : poolState t = poolState s) : Elsewhere b s t := ⟨dcpOf_of_poolState h b, pairOf_of_poolState h b⟩

theorem each {α : Type} {f : α → State → State} (h : ∀ x t, Elsewhere b t (f x t)) (l : List α) (s : State) :
    Elsewhere b s (Machine.each l f s) := each_keeps (fun x _ k => k.trans (h x _)) l s .refl

theorem setDec (s : State) (d : Nat) (x : Decoder) : Elsewhere b s (Machine.setDec s d x) := ⟨rfl, rfl⟩

/-- Beside the actuator's own queue, the discard of its pool work touches only the decoders. -/
theorem dcpDiscard (s : State) (a : Nat) :
    Elsewhere b (Machine.setDcp s a (queueDiscarded (dcpOf s a))) (Machine.dcpDiscard s a) := by
  refine .each (fun d u => ?_) ..
  split
  · split
    · exact .setDec ..
    · exact .refl
  · exact .refl

variable (other : b ≠ a)
include other

theorem setPair (s : State) (p : Pair) : Elsewhere b s (Machine.setPair s a p) := ⟨rfl, pairOf_setPair_ne _ _ other⟩

theorem setDcp (s : State) (q : DcpAct) : Elsewhere b s (Machine.setDcp s a q) := ⟨dcpOf_setDcp_ne _ _ other, rfl⟩

theorem releaseCtx (s : State) (k : Nat) : Elsewhere b s (Machine.releaseCtx s a k) := by
  unfold Machine.releaseCtx
  dsimp only
  split
  · exact .setDcp other ..
  · exact .refl

theorem freed (s : State) (e : Option Nat) :
    Elsewhere b s (match e with | some e => setEntry s a e {} | none => s) := by
  split
  · exact .setDcp other ..
  · exact .refl

theorem lneEnd (s : State) (status : Nat) : Elsewhere b s (Machine.lneEnd s a status) := by
  unfold Machine.lneEnd
  extract_lets p done waiting t t₁ t₂
  split
  · exact .refl
  · extract_lets c t₃
    have ended : Elsewhere b s t := .setPair other ..
    have unlocked : Elsewhere b t t₁ := .of_poolState (view_ite rfl rfl)
    have told : Elsewhere b t₁ t₃ := (of_poolState rfl : Elsewhere b t₁ t₂).trans (.setDcp other ..)
    exact (ended.trans (unlocked.trans told)).trans ((releaseCtx other t₃ _).trans (.of_poolState
      ((poolState_pspArb ..).trans ((poolState_calBoundary ..).trans (poolState_mediaDone ..)))))

theorem lneAbort (s : State) (status : Nat) : Elsewhere b s (Machine.lneAbort s a status) := by
  unfold Machine.lneAbort
  extract_lets p u t
  split
  · exact .refl
  · suffices dropped : Elsewhere b s t from dropped.trans (lneEnd other ..)
    unfold t
    split
    · split
      · exact (Elsewhere.setPair other s _).trans (.freed other ..)
      · exact .refl
    · exact .refl

theorem laneBlockReset (s : State) : Elsewhere b s (Machine.laneBlockReset s a) := by
  unfold Machine.laneBlockReset
  extract_lets t p free t₁ t₂ t₃ t₄ w
  have aborted : Elsewhere b s t := (of_poolState (poolState_calDrop ..)).trans (lneAbort other ..)
  have replays : Elsewhere b t t₁ := .each (fun (q : Replay) u => freed other u q.entry) ..
  have sectors : Elsewhere b t₁ t₂ := .each (fun (x : LiveSector) u => freed other u x.entry) ..
  have packets : Elsewhere b t₂ t₃ := .each (fun k u => by
    split
    · exact .setDcp other ..
    · exact .refl) ..
  have emptied : Elsewhere b t₃ t₄ := .setPair other ..
  exact ((aborted.trans replays).trans (sectors.trans packets)).trans (emptied.trans ⟨rfl, rfl⟩)

theorem pairReset (s : State) : Elsewhere b s (Machine.pairReset s a) :=
  ((laneBlockReset other s).trans (.setDcp other ..)).trans (dcpDiscard ..)

end Elsewhere

theorem run_lneEnd (s : State) (a status : Nat) : (pairOf (lneEnd s a status) a).run = none := by
  cases h : (pairOf s a).run with
  | none => rwa [lneEnd, h]
  | some r =>
    rw [lneEnd, h]
    dsimp only
    rw [pairOf_of_poolState ((poolState_pspArb ..).trans ((poolState_calBoundary ..).trans (poolState_mediaDone ..))),
      pairOf_of_unitState (unitState_releaseCtx ..), setCtx, pairOf_setDcp, pairOf_setFld,
      pairOf_of_unitState (unitState_when (fun _ => unitState_setFlag _ F.LNE_RATE_STAT_LOCKED a false) ..),
      pairOf_setPair_same]

theorem run_lneAbort (s : State) (a status : Nat) : (pairOf (lneAbort s a status) a).run = none := by
  cases h : (pairOf s a).run with
  | none => rwa [lneAbort, h]
  | some r =>
    rw [lneAbort, h]
    exact run_lneEnd ..

theorem run_laneBlockReset (s : State) (a : Nat) : (pairOf (laneBlockReset s a) a).run = none := by
  unfold laneBlockReset
  extract_lets t p free t₁ t₂ t₃ t₄ w
  rw [pairOf_wr]
  unfold t₄
  rw [pairOf_setPair_same]
  exact run_lneAbort ..

/-- What the block reset of a lane pair leaves of its pair and its pool queue (R92, R135). -/
structure PoolCleared (a : Nat) (t : State) : Prop where
  entries : (dcpOf t a).entries = []
  jobs : (dcpOf t a).jobs = []
  run : (pairOf t a).run = none

theorem PoolCleared.of_elsewhere {a : Nat} {s t : State} (k : PoolCleared a s) (h : Elsewhere a s t) : PoolCleared a t :=
  ⟨by rw [h.queue, k.entries], by rw [h.queue, k.jobs], by rw [h.pair, k.run]⟩

theorem poolCleared_pairReset (s : State) (a : Nat) : PoolCleared a (pairReset s a) := by
  unfold pairReset
  generalize halted : laneBlockReset s a = t
  have queue : dcpOf (setDcp t a (queueDiscarded (dcpOf t a))) a = queueDiscarded (dcpOf t a) := dcpOf_setDcp_same ..
  have cleared : PoolCleared a (setDcp t a (queueDiscarded (dcpOf t a))) :=
    ⟨by rw [queue]; rfl, by rw [queue]; rfl, by rw [pairOf_setDcp, ← halted, run_laneBlockReset]⟩
  exact cleared.of_elsewhere (.dcpDiscard ..)

/-- What the block reset of DCP does to one actuator. -/
def actReset (a : Nat) (s : State) : State :=
  let t := pairReset s a
  setDcp t a { dcpOf t a with grantPtr := 0 }

theorem poolCleared_actReset (s : State) (a : Nat) : PoolCleared a (actReset a s) := by
  unfold actReset
  extract_lets t
  obtain ⟨entries, jobs, run⟩ : PoolCleared a t := poolCleared_pairReset ..
  clear_value t
  have queue := dcpOf_setDcp_same t a { dcpOf t a with grantPtr := 0 }
  exact ⟨by rw [queue]; exact entries, by rw [queue]; exact jobs, by rw [pairOf_setDcp]; exact run⟩

theorem elsewhere_actReset {a b : Nat} (other : b ≠ a) (s : State) : Elsewhere b s (actReset a s) :=
  (Elsewhere.pairReset other s).trans (.setDcp other ..)

/-- Each actuator's reset clears its own pool and leaves the others'. -/
theorem poolCleared_each_actReset {a : Nat} {l : List Nat} (ha : a ∈ l) (s : State) : PoolCleared a (each l actReset s) := by
  refine each_reaches (fun u => poolCleared_actReset u a) (fun b u k => ?_) ha s
  obtain rfl | other := eq_or_ne a b
  · exact poolCleared_actReset ..
  · exact k.of_elsewhere (elsewhere_actReset other u)

theorem ends_dcpBlockReset {s : State} : Ends .dcpBlockReset s (fun t =>
      flag t F.CKR_BRST_DCP = false ∧
      (∀ d ∈ List.range s.part.decoders, decOf t d = {}) ∧
      (∀ a ∈ List.range s.part.acts, (dcpOf t a).entries = [] ∧ (dcpOf t a).jobs = [] ∧ (pairOf t a).run = none)) := by
  refine ⟨_, rfl, ?_⟩
  unfold dcpBlockReset
  extract_lets t t₁
  refine ⟨flag_setFlag_same _ _ _ _ (by decide) (by decide), fun d hd => ?_, fun a ha => ?_⟩
  · exact each_reaches (P := fun u => decOf u d = {}) (fun u => decOf_setDec_same ..) (fun e u h => by
      by_cases he : d = e
      · subst he; exact decOf_setDec_same ..
      · rw [decOf_setDec_ne _ _ he, h]) hd t
  · have cleared : PoolCleared a t := poolCleared_each_actReset ha s
    obtain ⟨entries, jobs, run⟩ := cleared.of_elsewhere (t := t₁) (.each (fun d u => .setDec ..) ..)
    exact ⟨entries, jobs, run⟩

/-! ### The obligation -/

/-- Settles O6: a decode's end recedes the queue before it posts or issues, a submission is decided by its replay's status,
and DCP's reset clears actuator by actuator. -/
theorem poolEndsAndRecords : Obligations.PoolEndsAndRecords := by
  refine ⟨fun _ _ _ _ _ _ => ends_decodeConverged, fun _ _ _ _ => ends_decodeCap_verify,
    fun _ _ _ _ _ => ends_writebackDone, fun _ _ _ _ _ => ends_recoveryTimeout, fun _ _ _ _ => ends_recoveryTimeout_frozen,
    fun _ _ _ _ => ends_dcpCplRead, fun _ _ => ends_dcpCplRead_empty, fun _ _ _ => ends_dcpSubmit_lost,
    fun _ _ _ => ends_dcpSubmit_accepted, fun _ _ _ => ends_dcpSubmit_busy, fun _ _ => ends_decoderMemoryError,
    fun _ => ends_dcpBlockReset⟩

end Sys2Proof.Machine

end

section
-- `decide` waits for the kernel: a thread for each of these proofs would exhaust the memory limit.
set_option Elab.async false

namespace Sys2Proof.Machine

/-! ### Fields that change beside what reports and results reach -/

/-- The registers Galley reports its budget, drain and slots by (R358, R365, R374). -/
def glyRegs : List Reg := [.GLY_BUDGET, .GLY_BUDGET_STAT, .GLY_STAT, .GLY_DRAIN]

/-- The registers that the spindle and the actuators reach besides their own: readiness, the hold-up window and Galley's
reports that follow it, and those of a write run's end and of calibration. -/
def sideRegs : List Reg := .CKR_READY :: .SPN_HU_STAT :: glyRegs ++ runRegs

/-- Two fields share no bit of a register. -/
def apart (f g : Fld) : Bool := decide (f.reg ≠ g.reg ∨ f.lo + f.w ≤ g.lo ∨ g.lo + g.w ≤ f.lo)

/-- From s to t only bits of the fields l change, at whatever index, beside the registers above and those of memory and
reports. -/
structure Sets (l : List Fld) (s t : State) : Prop where
  flds : ∀ (f : Fld) (i : Nat), f.reg ∉ sideRegs → f.reg.info.block ∉ reportBlocks → l.all (apart f) = true →
    fld t f i = fld s f i

namespace Sets

variable {l k : List Fld} {s t u : State}

theorem refl : Sets l s s := ⟨fun _ _ _ _ _ => rfl⟩

theorem trans (h : Sets l s t) (g : Sets l t u) : Sets l s u :=
  ⟨fun f i hr hb ha => (g.flds f i hr hb ha).trans (h.flds f i hr hb ha)⟩

/-- A list within the one asked for. -/
theorem sub (h : Sets k s t) (hl : k ⊆ l := by decide) : Sets l s t :=
  ⟨fun f i hr hb ha => h.flds f i hr hb (List.all_eq_true.2 fun g hg => List.all_eq_true.1 ha g (hl hg))⟩

/-- A change followed by one of a narrower list. -/
theorem andThen (h : Sets l s t) (g : Sets k t u) (hl : k ⊆ l := by decide) : Sets l s u := h.trans (g.sub hl)

/-- A change of no register. -/
theorem of_eq (hr : t.regs = s.regs) (hp : t.part = s.part) : Sets l s t :=
  ⟨fun f i _ _ _ => fld_eq_of_rd (by rw [rd, rd, hr, hp])⟩

theorem of_writes {rs : List Reg} (h : Writes rs s t) (hs : rs ⊆ sideRegs := by decide) : Sets l s t :=
  ⟨fun f i hr hb _ => h.fld f i (fun e => hr (hs e)) hb⟩

theorem ite {c : Prop} [Decidable c] (h : Sets l s t) (g : Sets l s u) : Sets l s (if c then t else u) := by
  split <;> assumption

theorem setFld (s : State) (f : Fld) (i v : Nat) (h : f ∈ l := by decide) : Sets l s (Machine.setFld s f i v) :=
  ⟨fun _ j _ _ ha => fld_setFld_other s i j v (of_decide_eq_true (List.all_eq_true.1 ha f h))⟩

theorem bump (s : State) (f : Fld) (i n : Nat) (h : f ∈ l := by decide) : Sets l s (Machine.bump s f i n) := setFld _ _ _ _ h

theorem setFlds (s : State) (i : Nat) (fs : List (Fld × Nat)) (h : fs.all (fun x => decide (x.1 ∈ l)) = true := by rfl) :
    Sets l s (Machine.setFlds s i fs) := by
  induction fs generalizing s with
  | nil => exact refl
  | cons x fs ih =>
    simp only [List.all_cons, Bool.and_eq_true, decide_eq_true_eq] at h
    exact (setFld s x.1 i x.2 h.1).trans (ih _ h.2)

theorem raiseSource (s : State) (n : Nat) : Sets l s (Machine.raiseSource s n) :=
  of_writes (rs := []) (.raiseSource s n) (List.nil_subset _)

theorem sendFault (s : State) (b : Block) (source kind sev addr : Nat) : Sets l s (Machine.sendFault s b source kind sev addr) :=
  of_writes (rs := []) (.sendFault s b source kind sev addr) (List.nil_subset _)

/-- A field that shares no bit with those listed reads as before. -/
theorem fld (h : Sets l s t) (f : Fld) (i : Nat) (ha : l.all (apart f) = true := by decide) (hr : f.reg ∉ sideRegs := by decide)
    (hb : f.reg.info.block ∉ reportBlocks := by decide) : fld t f i = Machine.fld s f i := h.flds f i hr hb ha

theorem flag (h : Sets l s t) (f : Fld) (i : Nat) (ha : l.all (apart f) = true := by decide)
    (hr : f.reg ∉ sideRegs := by decide) (hb : f.reg.info.block ∉ reportBlocks := by decide) :
    flag t f i = Machine.flag s f i := by
  rw [Machine.flag, h.fld f i ha hr hb, Machine.flag]

/-- Whether every actuator is parked stands where no actuator's state is set. -/
theorem allParked (h : Sets l s t) (part : t.part = s.part) (ha : l.all (apart F.CTE_STAT_STATE) = true := by decide) :
    allParked t = Machine.allParked s := by
  have states : (fun a => cteState t a == stParked) = fun a => cteState s a == stParked :=
    funext fun a => by rw [cteState, h.fld _ a ha, cteState]
  rw [Machine.allParked, part, states, Machine.allParked]

end Sets

theorem spn_of_unitState {s t : State} (h : unitState t = unitState s) : t.spn = s.spn := (congrArg State.spn h :)

/-! ### What the hold-up window and readiness reach -/

theorem writes_glySync (s : State) : Writes (.CKR_READY :: glyRegs) s (glySync s) := by
  unfold glySync
  extract_lets s₁ pc old res waiting occ t₁ t₂ t₃ t₄ t₅
  have ordered : Writes (.CKR_READY :: glyRegs) s s₁ := .of_eq rfl rfl
  have first : Writes (.CKR_READY :: glyRegs) s t₁ := ordered.trans (.setFlds _ _ _)
  have second : Writes (.CKR_READY :: glyRegs) s t₂ := first.trans (.when (fun _ => .raiseSource _ _) _ _)
  have third : Writes (.CKR_READY :: glyRegs) s t₃ := second.andThen (writes_setReady ..)
  have fourth : Writes (.CKR_READY :: glyRegs) s t₄ := third.trans (.when (fun u =>
    .each (f := fun p v => toHost v (.namespaceChanged p)) (fun _ _ => .of_eq rfl rfl) _ u) _ _)
  have fifth : Writes (.CKR_READY :: glyRegs) s t₅ := fourth.trans (.when (fun _ => .raiseSource _ _) _ _)
  exact .ite (fifth.trans (.trans (.setFld _ _ _ _) (.raiseSource _ _))) fifth

theorem writes_recomputeHoldUp (s : State) :
    Writes (.CKR_READY :: .SPN_HU_STAT :: glyRegs) s (recomputeHoldUp s) :=
  .ite ((Writes.andThen (.setFlds _ _ _) (writes_glySync ..)).trans (.when (fun _ => .sendFault _ _ _ _ _ _) _ _)) .refl

theorem sets_recomputeHoldUp {l : List Fld} (s : State) : Sets l s (recomputeHoldUp s) := .of_writes (writes_recomputeHoldUp s)

theorem sets_calDrop {l : List Fld} (s : State) (p : Nat → Bool) : Sets l s (calDrop s p) := .of_writes (writes_calDrop s p)

theorem sets_setAtSpeed (s : State) (b : Bool) : Sets [F.SPN_STAT_AT_SPEED] s (setAtSpeed s b) :=
  .ite .refl ((Sets.setFld ..).trans (.trans (.of_writes (writes_setReady ..)) (.raiseSource _ _)))

/-- AT_SPEED reads what it was last set to. -/
theorem flag_setAtSpeed (s : State) (b : Bool) : flag (setAtSpeed s b) F.SPN_STAT_AT_SPEED = b := by
  unfold setAtSpeed
  split
  · assumption
  · have after := Sets.raiseSource (l := []) (setReady (setFlag s F.SPN_STAT_AT_SPEED 0 b) F.CKR_READY_SPINDLE 0 b) 610
    rw [after.flag _ _, (writes_setReady ..).flag _ _]
    exact flag_setFlag_same _ _ _ _ (by decide) (by decide)

end Sys2Proof.Machine

end

section
-- `decide` waits for the kernel: a thread for each of these proofs would exhaust the memory limit.
set_option Elab.async false

namespace Sys2Proof.Machine

/-! ### The spindle's states and commands -/

/-- The accepted set speed takes effect, and the hold-up window follows it. -/
theorem spn_takeSetSpeed (s : State) :
    (takeSetSpeed s).spn = { s.spn with set := fld s F.SPN_SPEED_SET, setWaits := false } :=
  spn_of_unitState (unitState_recomputeHoldUp _)

theorem sets_takeSetSpeed {l : List Fld} (s : State) : Sets l s (takeSetSpeed s) :=
  have taken : Sets l s { s with spn := { s.spn with set := fld s F.SPN_SPEED_SET, setWaits := false } } := .of_eq rfl rfl
  taken.trans (sets_recomputeHoldUp _)

/-- What a change of SPN's state leaves of SPN: all but the bridge, the set speed and the run of crossings (R228, R229). -/
def spnRest (p : Spn) : Spn :=
  { p with bridge := .highZ, set := 0, setWaits := false, win := none, valid := 0, wide := 0, last := 0 }

/-- The fields a change of SPN's state sets. -/
def spnGoFlds : List Fld := [F.SPN_STAT_STATE, F.SPN_STAT_AT_SPEED, F.SPN_STAT_CLAMPED]

/-- What a change of SPN's state leaves. -/
structure SpnGone (s : State) (st : Nat) (b : Bridge) (t : State) : Prop where
  state : spnState t = st
  bridge : t.spn.bridge = b
  rest : spnRest t.spn = spnRest s.spn
  slow : spnState s = spRun → st ≠ spRun → flag t F.SPN_STAT_AT_SPEED = false
  sets : Sets spnGoFlds s t

namespace SpnGone

variable {s t : State} {st : Nat} {b : Bridge} (h : SpnGone s st b t)
include h

theorem start : t.spn.start = s.spn.start := (congrArg Spn.start h.rest :)
theorem stop : t.spn.stop = s.spn.stop := (congrArg Spn.stop h.rest :)

end SpnGone

theorem spnGone_spnGo (s : State) {st : Nat} (b : Bridge) (small : st < 16) : SpnGone s st b (spnGo s st b) := by
  unfold spnGo
  extract_lets t₁ was p t₂ q t₃
  have spn : t₁.spn = s.spn := spn_of_unitState (unitState_ite ((unitState_setFlag ..).trans
    ((unitState_setAtSpeed ..).trans (unitState_calDrop ..))) rfl)
  have left : Sets spnGoFlds s t₁ :=
    .ite (((sets_calDrop ..).andThen (sets_setAtSpeed ..)).trans (.setFld _ F.SPN_STAT_CLAMPED _ _)) .refl
  have slow₁ (run : spnState s = spRun) (other : st ≠ spRun) : flag t₁ F.SPN_STAT_AT_SPEED = false := by
    rw [show t₁ = setFlag (setAtSpeed (calDrop s spindleItem) false) F.SPN_STAT_CLAMPED 0 false from if_pos ⟨run, other⟩]
    exact (flag_setFld_other _ _ _ _ (by decide)).trans (flag_setAtSpeed ..)
  have state₂ : spnState t₂ = st := (fld_setFld_same _ _ _ _ (by decide)).trans (Nat.mod_eq_of_lt small)
  have slow₂ : flag t₂ F.SPN_STAT_AT_SPEED = flag t₁ F.SPN_STAT_AT_SPEED := flag_setFld_other _ _ _ _ (by decide)
  have turned : Sets spnGoFlds t₁ { t₁ with spn := { p with bridge := b } } := .of_eq rfl rfl
  have moved : Sets spnGoFlds s t₂ := (left.trans turned).trans (.setFld _ F.SPN_STAT_STATE 0 st)
  have rest₁ : spnRest t₁.spn = spnRest s.spn := by rw [spn]
  have rest₂ : spnRest t₂.spn = spnRest s.spn := rest₁
  have windowed : Sets [] t₂ t₃ ∧ t₃.spn.bridge = b ∧ spnRest t₃.spn = spnRest s.spn := by
    simp only [t₃]
    split
    · exact ⟨.of_eq rfl rfl, rfl, rest₂⟩
    · exact ⟨.refl, rfl, rest₂⟩
  obtain ⟨win, bridge, rest⟩ := windowed
  have made (u : State) (k : Sets [] t₂ u) (hb : u.spn.bridge = b) (hr : spnRest u.spn = spnRest s.spn) :
      SpnGone s st b u :=
    ⟨(k.fld _ _).trans state₂, hb, hr, fun run other => (k.flag _ _).trans (slow₂.trans (slow₁ run other)),
      moved.andThen k⟩
  split
  · have spn₄ := spn_takeSetSpeed t₃
    exact made _ (win.trans (sets_takeSetSpeed _)) (by rw [spn₄]; exact bridge) (by rw [spn₄]; exact rest)
  · exact made _ win bridge rest

/-- What a command's answer leaves (R240, Table 7.2). -/
structure SpnAnswered (s : State) (status : Nat) (t : State) : Prop where
  status : fld t F.SPN_CMD_STATUS = status
  busy : flag t F.SPN_CMD_BUSY = (s.spn.start || s.spn.stop)
  source : pendingBit t 609 = true
  spn : t.spn = s.spn

theorem sets_spnDone (s : State) (status : Nat) : Sets [F.SPN_CMD_STATUS, F.SPN_CMD_BUSY] s (spnDone s status) :=
  (Sets.setFlds _ _ _).trans (.raiseSource ..)

theorem spnAnswered_spnDone (s : State) {status : Nat} (byte : status < 256) : SpnAnswered s status (spnDone s status) := by
  unfold spnDone
  have reported := Sets.raiseSource (l := [])
    (setFlds s 0 [(F.SPN_CMD_STATUS, status), (F.SPN_CMD_BUSY, b2n (s.spn.start || s.spn.stop))]) 609
  refine ⟨?_, ?_, pendingBit_raiseSource .., spn_of_unitState ((unitState_raiseSource ..).trans (unitState_setFlds ..))⟩
  · rw [reported.fld _ _]
    simp (disch := decide) only [setFlds, fld_setFld_same, fld_setFld_other]
    exact Nat.mod_eq_of_lt byte
  · rw [reported.flag _ _]
    simp (disch := decide) only [setFlds, flag_setFld_same]
    cases s.spn.start || s.spn.stop <;> rfl

/-- A pending START completes, or none was pending. -/
theorem spn_startDone (s : State) (status : Nat) : (startDone s status).spn = { s.spn with start := false } := by
  unfold startDone
  split
  · exact spn_of_unitState ((unitState_raiseSource ..).trans (unitState_setFlds ..))
  · rename_i idle
    have none : s.spn.start = false := by simpa using idle
    rw [← none]

theorem sets_startDone (s : State) (status : Nat) : Sets [F.SPN_CMD_STATUS, F.SPN_CMD_BUSY] s (startDone s status) :=
  have taken : Sets [F.SPN_CMD_STATUS, F.SPN_CMD_BUSY] s { s with spn := { s.spn with start := false } } := .of_eq rfl rfl
  .ite (taken.trans (sets_spnDone ..)) .refl

/-- A pending STOP completes, or none was pending. -/
theorem spn_stopDone (s : State) (status : Nat) : (stopDone s status).spn = { s.spn with stop := false } := by
  unfold stopDone
  split
  · exact spn_of_unitState ((unitState_raiseSource ..).trans (unitState_setFlds ..))
  · rename_i idle
    have none : s.spn.stop = false := by simpa using idle
    rw [← none]

theorem sets_stopDone (s : State) (status : Nat) : Sets [F.SPN_CMD_STATUS, F.SPN_CMD_BUSY] s (stopDone s status) :=
  have taken : Sets [F.SPN_CMD_STATUS, F.SPN_CMD_BUSY] s { s with spn := { s.spn with stop := false } } := .of_eq rfl rfl
  .ite (taken.trans (sets_spnDone ..)) .refl

/-- An unload asked of CTE changes the actuators' contexts alone. -/
theorem requestUnload_eq (s : State) : ∃ cte, requestUnload s = { s with cte := cte } := by
  refine each_keeps (P := fun t => ∃ cte, t = { s with cte := cte }) (fun b u h => ?_) _ s ⟨s.cte, rfl⟩
  obtain ⟨cte, rfl⟩ := h
  split
  · exact ⟨cte, rfl⟩
  · exact ⟨_, rfl⟩

theorem raiseUnload_eq (s : State) : ∃ cte, raiseUnload s = { setFlag s F.SPN_STAT_UNLOAD_REQ 0 true with cte := cte } :=
  requestUnload_eq _

theorem sets_raiseUnload (s : State) : Sets [F.SPN_STAT_UNLOAD_REQ] s (raiseUnload s) := by
  obtain ⟨cte, e⟩ := raiseUnload_eq s
  rw [e]
  exact (Sets.setFld s F.SPN_STAT_UNLOAD_REQ 0 _).trans (.of_eq rfl rfl)

theorem spn_raiseUnload (s : State) : (raiseUnload s).spn = s.spn := by
  obtain ⟨cte, e⟩ := raiseUnload_eq s
  rw [e]
  rfl

theorem flag_raiseUnload (s : State) : flag (raiseUnload s) F.SPN_STAT_UNLOAD_REQ = true := by
  obtain ⟨cte, e⟩ := raiseUnload_eq s
  rw [e]
  exact flag_setFlag_same s F.SPN_STAT_UNLOAD_REQ 0 true (by decide) (by decide)

/-! ### Entering FAULT, BRAKE and UNLOAD_WAIT -/

/-- The fields that entering a state by Table 7.1 sets. -/
def entryFlds : List Fld := [F.SPN_STAT_UNLOAD_REQ, F.SPN_STAT_ATTEMPT, F.SPN_STAT_FAULT_CAUSE, F.SPN_CMD_STATUS, F.SPN_CMD_BUSY] ++
  spnGoFlds

/-- FAULT entered (Table 7.1). -/
structure Faulted (s : State) (cause : Nat) (t : State) : Prop where
  state : spnState t = spFault
  cause : fld t F.SPN_STAT_FAULT_CAUSE = cause
  bridge : t.spn.bridge = .highZ
  start : t.spn.start = false
  unload : flag t F.SPN_STAT_UNLOAD_REQ = true
  sets : Sets entryFlds s t

theorem faulted_enterFault (s : State) {cause : Nat} (small : cause < 8) : Faulted s cause (enterFault s cause) := by
  unfold enterFault
  extract_lets t u
  have gone := spnGone_spnGo s .highZ (st := spFault) (by decide)
  have entered : Sets entryFlds s t := (gone.sets.sub).trans (.setFld _ _ _ _)
  have done : Sets [F.SPN_CMD_STATUS, F.SPN_CMD_BUSY] t u := (sets_startDone ..).trans (sets_stopDone ..)
  have after : Sets [F.SPN_CMD_STATUS, F.SPN_CMD_BUSY, F.SPN_STAT_UNLOAD_REQ] t
      (sendFault (raiseUnload u) .spn 608 FK.spnStart 6 0) :=
    ((done.sub).andThen (sets_raiseUnload u)).trans (.sendFault ..)
  have reported := Sets.sendFault (l := []) (raiseUnload u) .spn 608 FK.spnStart 6 0
  have spn : (sendFault (raiseUnload u) .spn 608 FK.spnStart 6 0).spn =
      { (spnGo s spFault .highZ).spn with start := false, stop := false } := by
    rw [spn_of_unitState (unitState_sendFault ..), spn_raiseUnload, spn_stopDone, spn_startDone]
    rfl
  refine ⟨?_, ?_, ?_, ?_, ?_, entered.andThen after⟩
  · rw [spnState, after.fld _ _]
    exact (fld_setFld_other _ _ _ _ (by decide)).trans gone.state
  · rw [after.fld _ _]
    exact (fld_setFld_same _ _ _ _ (by decide)).trans (Nat.mod_eq_of_lt small)
  · rw [spn]
    exact gone.bridge
  · rw [spn]
  · rw [reported.flag _ _]
    exact flag_raiseUnload u

/-- BRAKE entered (R246). -/
structure Braked (s t : State) : Prop where
  state : spnState t = spBrake
  start : t.spn.start = s.spn.start
  stop : t.spn.stop = s.spn.stop
  sets : Sets (F.SPN_STAT_UNLOAD_REQ :: spnGoFlds) s t

theorem braked_enterBrake (s : State) (shortOnly : Bool) : Braked s (enterBrake s shortOnly) := by
  unfold enterBrake
  extract_lets m n b
  have gone := spnGone_spnGo { s with free := s.free + 1 } b (st := spBrake) (by decide)
  have same : Sets (F.SPN_STAT_UNLOAD_REQ :: spnGoFlds) s { s with free := s.free + 1 } := .of_eq rfl rfl
  exact ⟨(fld_setFld_other _ _ _ _ (by decide)).trans gone.state, gone.start, gone.stop,
    (same.andThen gone.sets).trans (.setFld _ _ _ _)⟩

/-- While an actuator is loaded nothing follows (Table 7.1). -/
theorem spnParked_loaded {s : State} (loaded : allParked s = false) : spnParked s = s := if_pos (by simp [loaded])

/-- A new start after a LOS counts its attempts anew (R236, R238). -/
def startAgain (s : State) : State :=
  setFld (enterSense (setFlag s F.SPN_STAT_UNLOAD_REQ 0 false)) F.SPN_STAT_ATTEMPT 0 0

theorem sets_startAgain (s : State) : Sets entryFlds s (startAgain s) :=
  ((Sets.setFld ..).andThen (spnGone_spnGo _ _ (by decide)).sets).trans (.setFld _ _ _ _)

theorem spnState_startAgain (s : State) : spnState (startAgain s) = spSense :=
  (fld_setFld_other _ _ _ _ (by decide)).trans (spnGone_spnGo _ _ (by decide)).state

theorem sets_spnParked (s : State) : Sets entryFlds s (spnParked s) :=
  .ite .refl (.ite (.ite (braked_enterBrake ..).sets.sub (.ite (sets_startAgain s)
    (faulted_enterFault s (by decide)).sets)) (.ite (braked_enterBrake ..).sets.sub .refl))

/-- UNLOAD_WAIT is never followed by RUN (Table 7.1). -/
theorem spnState_spnParked {s : State} (waits : spnState s = spUnloadWait) : spnState (spnParked s) ≠ spRun := by
  unfold spnParked
  split
  · rw [waits]
    decide
  · split
    · rw [(braked_enterBrake ..).state]
      decide
    · split
      · change spnState (startAgain s) ≠ spRun
        rw [spnState_startAgain]
        decide
      · rw [(faulted_enterFault s (by decide)).state]
        decide

/-- UNLOAD_WAIT entered, before it passes on. -/
def unloadWait (s : State) (byLos : Bool) (b : Bridge) : State :=
  let t := spnGo s spUnloadWait b
  raiseUnload { t with spn := { t.spn with byLos := byLos, stopSeen := t.spn.stop } }

theorem enterUnloadWait_eq (s : State) (byLos : Bool) (b : Bridge) :
    enterUnloadWait s byLos b = spnParked (unloadWait s byLos b) := rfl

/-- UNLOAD_WAIT waits for the actuators (R235, R241). -/
structure Waits (s : State) (t : State) : Prop where
  state : spnState t = spUnloadWait
  stop : t.spn.stop = s.spn.stop
  unload : flag t F.SPN_STAT_UNLOAD_REQ = true
  slow : spnState s = spRun → flag t F.SPN_STAT_AT_SPEED = false
  sets : Sets (F.SPN_STAT_UNLOAD_REQ :: spnGoFlds) s t
  parked : allParked t = allParked s

theorem waits_unloadWait (s : State) (byLos : Bool) (b : Bridge) : Waits s (unloadWait s byLos b) := by
  have part : (unloadWait s byLos b).part = s.part :=
    (((keeps_spnGo s spUnloadWait b).upd).andThen (keeps_raiseUnload _)).part
  unfold unloadWait
  extract_lets t p
  have gone : SpnGone s spUnloadWait b t := spnGone_spnGo s b (by decide)
  have noted : Sets [] t { t with spn := { p with byLos := byLos, stopSeen := p.stop } } := .of_eq rfl rfl
  have after : Sets [F.SPN_STAT_UNLOAD_REQ] t (raiseUnload { t with spn := { p with byLos := byLos, stopSeen := p.stop } }) :=
    (noted.sub).trans (sets_raiseUnload _)
  have sets : Sets (F.SPN_STAT_UNLOAD_REQ :: spnGoFlds) s _ := (gone.sets.sub).andThen after
  refine ⟨?_, ?_, flag_raiseUnload _, fun run => ?_, sets, sets.allParked part⟩
  · rw [spnState, after.fld _ _]
    exact gone.state
  · rw [spn_raiseUnload]
    exact gone.stop
  · rw [after.flag _ _]
    exact gone.slow run (by decide)

theorem sets_enterUnloadWait (s : State) (byLos : Bool) (b : Bridge) : Sets entryFlds s (enterUnloadWait s byLos b) :=
  ((waits_unloadWait ..).sets.sub).trans (sets_spnParked _)

/-- With an actuator loaded UNLOAD_WAIT waits. -/
theorem waits_enterUnloadWait {s : State} (byLos : Bool) (b : Bridge) (loaded : allParked s = false) :
    Waits s (enterUnloadWait s byLos b) := by
  have waits := waits_unloadWait s byLos b
  rwa [enterUnloadWait_eq, spnParked_loaded (waits.parked.trans loaded)]

end Sys2Proof.Machine

end

section
-- `decide` waits for the kernel: a thread for each of these proofs would exhaust the memory limit.
set_option Elab.async false

namespace Sys2Proof.Machine

/-! ### START, STOP and CLEAR (R240, R241) -/

/-- SPN as a START accepted in OFF leaves it before SENSE is entered. -/
def startTaken (s : State) : State :=
  { s with spn := { s.spn with start := true, reached := false, aligned := false, catchLos := false } }

theorem exec_start_off {s : State} (idle : flag s F.SPN_CMD_BUSY = false) (off : spnState s = spOff)
    (free : flag s F.PWS_STAT_RESTART_BLOCK = false) (vm : flag s F.PWS_STAT_VM_OK = true) :
    exec .start s = .next (setFlds (enterSense (startTaken s)) 0 [(F.SPN_STAT_ATTEMPT, 0), (F.SPN_CMD_BUSY, 1)]) := by
  change execStart s = _
  rw [execStart, tryStart, idle, off, free, vm]
  rfl

theorem ends_start {s : State} (idle : flag s F.SPN_CMD_BUSY = false) (off : spnState s = spOff)
    (free : flag s F.PWS_STAT_RESTART_BLOCK = false) (vm : flag s F.PWS_STAT_VM_OK = true) : Ends .start s (fun t =>
      spnState t = spSense ∧ flag t F.SPN_CMD_BUSY = true ∧ fld t F.SPN_STAT_ATTEMPT = 0 ∧ t.spn.start = true ∧
      t.spn.bridge = .highZ) := by
  have gone := spnGone_spnGo (startTaken s) .highZ (st := spSense) (by decide)
  refine ⟨_, exec_start_off idle off free vm, ?_, ?_, ?_, gone.start, gone.bridge⟩
  · simp (disch := decide) only [spnState, setFlds, fld_setFld_other]
    exact gone.state
  · simp (disch := decide) only [setFlds, flag_setFld_same]
    rfl
  · simp (disch := decide) only [setFlds, fld_setFld_other, fld_setFld_same]
    rfl

theorem ends_start_blocked {s : State} (idle : flag s F.SPN_CMD_BUSY = false) (off : spnState s = spOff)
    (block : flag s F.PWS_STAT_RESTART_BLOCK = true) : Ends .start s (fun t =>
      spnState t = spOff ∧ fld t F.SPN_CMD_STATUS = 0x71 ∧ t.spn = s.spn) := by
  have meaning : exec .start s = .next (spnDone s 0x71) := by
    change execStart s = _
    rw [execStart, idle, off, block]
    rfl
  have answered := spnAnswered_spnDone s (status := 0x71) (by decide)
  exact ⟨_, meaning, ((sets_spnDone ..).fld _ _).trans off, answered.status, answered.spn⟩

/-- A STOP accepted: a pending START is aborted (R240). -/
def stopTaken (s : State) : State :=
  let t := startDone s 0x61
  setFlag { t with spn := { t.spn with stop := true } } F.SPN_CMD_BUSY 0 true

theorem sets_stopTaken (s : State) : Sets [F.SPN_CMD_STATUS, F.SPN_CMD_BUSY] s (stopTaken s) := by
  unfold stopTaken
  extract_lets t p
  have noted : Sets [F.SPN_CMD_STATUS, F.SPN_CMD_BUSY] t { t with spn := { p with stop := true } } := .of_eq rfl rfl
  exact ((sets_startDone s 0x61).trans noted).trans (.setFld _ F.SPN_CMD_BUSY 0 _)

theorem flag_stopTaken (s : State) : flag (stopTaken s) F.SPN_CMD_BUSY = true :=
  flag_setFlag_same _ _ _ _ (by decide) (by decide)

theorem spn_stopTaken (s : State) : (stopTaken s).spn = { s.spn with start := false, stop := true } := by
  change { (startDone s 0x61).spn with stop := true } = _
  rw [spn_startDone]

theorem exec_stop {s : State} (off : spnState s ≠ spOff) (fault : spnState s ≠ spFault) :
    exec .stop s = .next (stopActs (stopTaken s)) :=
  congrArg Host.Outcome.next ((if_neg off).trans (if_neg fault))

theorem ends_stop_off {s : State} (off : spnState s = spOff) : Ends .stop s (fun t =>
      spnState t = spOff ∧ fld t F.SPN_CMD_STATUS = 0 ∧ pendingBit t 609 = true) := by
  have answered := spnAnswered_spnDone (startDone s 0x61) (status := 0) (by decide)
  refine ⟨_, congrArg Host.Outcome.next (if_pos off), ?_, answered.status, answered.source⟩
  exact (((sets_startDone s 0x61).trans (sets_spnDone ..)).fld _ _).trans off

theorem ends_stop_starting {s : State} (starting : spnState s ∈ [spSense, spBrakeRev, spBrakeSettle, spAlign, spRamp]) :
    Ends .stop s (fun t =>
      spnState t = spBrake ∧ t.spn.stop = true ∧ t.spn.start = false ∧ flag t F.SPN_CMD_BUSY = true) := by
  have other {k : Nat} (h : k ∉ [spSense, spBrakeRev, spBrakeSettle, spAlign, spRamp]) : spnState s ≠ k :=
    fun e => h (e ▸ starting)
  have same : spnState (stopTaken s) = spnState s := (sets_stopTaken s).fld _ _
  have braked := braked_enterBrake (stopTaken s) false
  refine ⟨_, (exec_stop (other (by decide)) (other (by decide))).trans
    (congrArg Host.Outcome.next (if_pos (by rw [same]; exact decide_eq_true starting))), braked.state, ?_, ?_, ?_⟩
  · rw [braked.stop, spn_stopTaken]
  · rw [braked.start, spn_stopTaken]
  · rw [braked.sets.flag _ _]
    exact flag_stopTaken s

theorem ends_stop_run {s : State} (run : spnState s = spRun) (clean : dirtyOut s = false) (loaded : allParked s = false) :
    Ends .stop s (fun t =>
      spnState t = spUnloadWait ∧ t.spn.stop = true ∧ flag t F.SPN_STAT_UNLOAD_REQ = true ∧
      flag t F.SPN_STAT_AT_SPEED = false) := by
  have same : spnState (stopTaken s) = spRun := ((sets_stopTaken s).fld _ _).trans run
  have keeps : Keeps [.fcl, .spn] false s (stopTaken s) :=
    (keeps_startDone s 0x61).trans (.trans (.upd .refl) (keeps_setFlag _ F.SPN_CMD_BUSY 0 true (by decide)))
  have still : dirtyOut (stopTaken s) = false := by
    rw [dirtyOut, fld_eq_of_rd (keeps.regs _ _ (by decide)), fld_eq_of_rd (keeps.regs _ _ (by decide))]
    exact clean
  have acts : stopActs (stopTaken s) = enterUnloadWait (stopTaken s) false .drive := by
    rw [stopActs, same, still]
    rfl
  have waits := waits_enterUnloadWait (s := stopTaken s) false .drive
    (((sets_stopTaken s).allParked keeps.part).trans loaded)
  refine ⟨_, exec_stop (by rw [run]; decide) (by rw [run]; decide), ?_⟩
  rw [acts]
  exact ⟨waits.state, by rw [waits.stop, spn_stopTaken], waits.unload, waits.slow same⟩

theorem ends_clear {s : State} (idle : flag s F.SPN_CMD_BUSY = false) (fault : spnState s = spFault)
    (free : flag s F.PWS_STAT_RESTART_BLOCK = false) : Ends .clear s (fun t =>
      spnState t = spOff ∧ fld t F.SPN_CMD_STATUS = 0 ∧ flag t F.SPN_STAT_UNLOAD_REQ = false) := by
  have meaning : exec .clear s = .next (spnDone (setFlag (spnGo s spOff .highZ) F.SPN_STAT_UNLOAD_REQ 0 false) 0) := by
    change execClear s = _
    rw [execClear, idle, fault, free]
    rfl
  have gone := spnGone_spnGo s .highZ (st := spOff) (by decide)
  have done := sets_spnDone (setFlag (spnGo s spOff .highZ) F.SPN_STAT_UNLOAD_REQ 0 false) 0
  refine ⟨_, meaning, ?_, (spnAnswered_spnDone _ (by decide)).status, ?_⟩
  · rw [spnState, done.fld _ _]
    exact (fld_setFld_other _ _ _ _ (by decide)).trans gone.state
  · rw [done.flag _ _]
    exact flag_setFlag_same _ _ _ _ (by decide) (by decide)

/-! ### The set speed (R228) -/

/-- The latches of SPN_SPEED that a write of 1 clears. -/
def speedLatches (s : State) (v : Word) : State :=
  let t := if bit v 21 then setFlag s F.SPN_SPEED_RANGE 0 false else s
  if bit v 22 then setFlag t F.SPN_SPEED_REFUSED 0 false else t

theorem speedLatches_fields (s : State) (v : Word) :
    Sets [F.SPN_SPEED_RANGE, F.SPN_SPEED_REFUSED] s (speedLatches s v) ∧ (speedLatches s v).spn = s.spn := by
  unfold speedLatches
  extract_lets t
  have first : Sets [F.SPN_SPEED_RANGE, F.SPN_SPEED_REFUSED] s t ∧ t.spn = s.spn := by
    simp only [t]
    split
    · exact ⟨.setFld s F.SPN_SPEED_RANGE 0 _, rfl⟩
    · exact ⟨.refl, rfl⟩
  split
  · exact ⟨first.1.trans (.setFld t F.SPN_SPEED_REFUSED 0 _), first.2⟩
  · exact first

theorem ends_setSpeedWrite_taken {s : State} {v : Word} (still : commutates s = false) (waits : spnState s ≠ spUnloadWait)
    (range : 360000 ≤ getBits v 0 21 ∧ getBits v 0 21 ≤ 1500000) : Ends (.setSpeedWrite v) s (fun t =>
      fld t F.SPN_SPEED_SET = getBits v 0 21 ∧ t.spn.set = getBits v 0 21) := by
  have good : decide (getBits v 0 21 < 360000 ∨ 1500000 < getBits v 0 21) = false := decide_eq_false (by omega)
  have free : decide (spnState s ∈ [spCatch, spAccel, spRun, spUnloadWait]) = false := by
    simp only [commutates, decide_eq_false_iff_not, List.mem_cons, List.not_mem_nil, or_false, not_or] at still ⊢
    obtain ⟨-, catching, accel, run, -⟩ := still
    exact ⟨catching, accel, run, waits⟩
  have meaning : exec (.setSpeedWrite v) s =
      .next (takeSetSpeed (setFld (speedLatches s v) F.SPN_SPEED_SET 0 (getBits v 0 21))) := by
    change execSetSpeedWrite v s = _
    rw [execSetSpeedWrite]
    dsimp only
    rw [good, free, still]
    rfl
  have stored : fld (setFld (speedLatches s v) F.SPN_SPEED_SET 0 (getBits v 0 21)) F.SPN_SPEED_SET = getBits v 0 21 :=
    (fld_setFld_same _ _ _ _ (by decide)).trans (Nat.mod_eq_of_lt (getBits_lt ..))
  refine ⟨_, meaning, ((sets_takeSetSpeed (l := []) _).fld _ _).trans stored, ?_⟩
  rw [spn_takeSetSpeed]
  exact stored

theorem ends_setSpeedWrite_range {s : State} {v : Word} (range : getBits v 0 21 < 360000 ∨ 1500000 < getBits v 0 21) :
    Ends (.setSpeedWrite v) s (fun t =>
      fld t F.SPN_SPEED_SET = fld s F.SPN_SPEED_SET ∧ flag t F.SPN_SPEED_RANGE = true ∧ t.spn = s.spn) := by
  obtain ⟨latches, spn⟩ := speedLatches_fields s v
  have meaning : ∃ held : Bool, exec (.setSpeedWrite v) s = .next (if held then
      setFlag (setFlag (speedLatches s v) F.SPN_SPEED_RANGE 0 true) F.SPN_SPEED_REFUSED 0 true
      else setFlag (speedLatches s v) F.SPN_SPEED_RANGE 0 true) := by
    refine ⟨decide (spnState s ∈ [spCatch, spAccel, spRun, spUnloadWait]) && !allParked s, ?_⟩
    change execSetSpeedWrite v s = _
    rw [execSetSpeedWrite]
    dsimp only
    rw [decide_eq_true range]
    rfl
  have marked : flag (setFlag (speedLatches s v) F.SPN_SPEED_RANGE 0 true) F.SPN_SPEED_RANGE = true :=
    flag_setFlag_same _ _ _ _ (by decide) (by decide)
  have kept : fld (setFlag (speedLatches s v) F.SPN_SPEED_RANGE 0 true) F.SPN_SPEED_SET = fld s F.SPN_SPEED_SET :=
    (fld_setFld_other _ _ _ _ (by decide)).trans (latches.fld _ _)
  obtain ⟨held, meaning⟩ := meaning
  refine ⟨_, meaning, ?_⟩
  cases held
  · exact ⟨kept, marked, spn⟩
  · exact ⟨(fld_setFld_other _ _ _ _ (by decide)).trans kept, (flag_setFld_other _ _ _ _ (by decide)).trans marked, spn⟩

/-! ### Block reset of SPN (R242) -/

/-- SPN with the spindle's calibrations abandoned and its commands completed, before it turns off. -/
def spnCleared (s : State) : State :=
  stopDone (startDone (calDrop (setFlag s F.CKR_BRST_SPN 0 false) spindleItem) 0x61) 0

theorem spn_spnCleared (s : State) : (spnCleared s).spn = { s.spn with start := false, stop := false } := by
  rw [spnCleared, spn_stopDone, spn_startDone, spn_of_unitState (unitState_calDrop ..)]
  rfl

theorem flag_spnCleared (s : State) : flag (spnCleared s) F.CKR_BRST_SPN = false := by
  have done := ((sets_calDrop (l := [F.SPN_CMD_STATUS, F.SPN_CMD_BUSY]) (setFlag s F.CKR_BRST_SPN 0 false) spindleItem).trans
    (sets_startDone _ 0x61)).trans (sets_stopDone _ 0)
  rw [spnCleared, done.flag _ _]
  exact flag_setFlag_same _ _ _ _ (by decide) (by decide)

theorem ends_spnBlockReset_parked {s : State} (parked : allParked s = true) : Ends .spnBlockReset s (fun t =>
      spnState t = spOff ∧ t.spn.start = false ∧ t.spn.stop = false ∧ t.spn.bridge = .highZ ∧
      flag t F.CKR_BRST_SPN = false) := by
  have gone := spnGone_spnGo (spnCleared s) .highZ (st := spOff) (by decide)
  refine ⟨setFlag (spnGo (spnCleared s) spOff .highZ) F.SPN_STAT_UNLOAD_REQ 0 false,
    congrArg Host.Outcome.next (if_pos parked), ?_, ?_, ?_, gone.bridge, ?_⟩
  · exact (fld_setFld_other _ _ _ _ (by decide)).trans gone.state
  · exact gone.start.trans (by rw [spn_spnCleared])
  · exact gone.stop.trans (by rw [spn_spnCleared])
  · exact (flag_setFld_other _ _ _ _ (by decide)).trans ((gone.sets.flag _ _).trans (flag_spnCleared s))

theorem ends_spnBlockReset_loaded {s : State} (loaded : allParked s = false) (room : (waitingAt s .spn).length < 4) :
    Ends .spnBlockReset s (fun t =>
      t.spn = s.spn ∧ rd t .SPN_STAT 0 = rd s .SPN_STAT 0 ∧
      waitingAt t .spn = waitingAt s .spn ++ [faultMsg 608 FK.spnResetRefused 4 0]) := by
  obtain ⟨sent, -, -⟩ := sendFault_room (s := setFlag s F.CKR_BRST_SPN 0 false) 608 FK.spnResetRefused 4 0 room
  have report := Writes.sendFault (l := []) (setFlag s F.CKR_BRST_SPN 0 false) .spn 608 FK.spnResetRefused 4 0
  refine ⟨_, congrArg Host.Outcome.next (if_neg (by simp [loaded])), spn_of_unitState (unitState_sendFault ..), ?_, sent⟩
  exact (report.regs _ _ List.not_mem_nil (by decide)).trans (rd_setFld_ne _ _ (.inl (by decide)))

/-- Settles O12: each command by the state it enters (`spnGone_spnGo`, `braked_enterBrake`, `waits_enterUnloadWait`) and by
the answer it gives (`spnAnswered_spnDone`). -/
theorem spindleCommands : Obligations.SpindleCommands := by
  refine ⟨?_, ?_, ?_, ?_, ?_, ?_, ?_, ?_, ?_, ?_⟩
  · exact fun s idle off free vm => ends_start idle off free vm
  · exact fun s idle off block => ends_start_blocked idle off block
  · exact fun s off => ends_stop_off off
  · exact fun s starting => ends_stop_starting starting
  · exact fun s run clean loaded => ends_stop_run run clean loaded
  · exact fun s idle fault free => ends_clear idle fault free
  · exact fun s v still waits range => ends_setSpeedWrite_taken still waits range
  · exact fun s v range => ends_setSpeedWrite_range range
  · exact fun s parked => ends_spnBlockReset_parked parked
  · exact fun s loaded room => ends_spnBlockReset_loaded loaded room

end Sys2Proof.Machine

end

section
-- `decide` waits for the kernel: a thread for each of these proofs would exhaust the memory limit.
set_option Elab.async false

namespace Sys2Proof.Machine

/-! ### The end of SENSE (R236) -/

/-- What the listen of SENSE measured. -/
def sensed (s : State) (speed : Nat) (backward : Bool) : State :=
  setFlds s 0 [(F.SPN_OBS_SPEED, min speed (2 ^ 24 - 1)), (F.SPN_OBS_BACKWARD, b2n backward), (F.SPN_STAT_REVERSE, 0)]

theorem fld_sensed (s : State) (speed : Nat) (backward : Bool) :
    fld (sensed s speed backward) F.SPN_OBS_SPEED = min speed (2 ^ 24 - 1) := by
  have small : min speed (2 ^ 24 - 1) % 2 ^ 24 = min speed (2 ^ 24 - 1) := Nat.mod_eq_of_lt (by omega)
  simp (disch := decide) only [sensed, setFlds, fld_setFld_other, fld_setFld_same]
  exact small

theorem exec_senseEnd {s : State} {speed : Nat} (backward : Bool) (sense : spnState s = spSense) :
    exec (.senseEnd speed backward) s = .next (
      if !backward && decide (4 * s.spn.set ≤ 100 * speed) then
        let t := spnGo (sensed s speed backward) spCatch .highZ
        { t with spn := { t.spn with catchLos := false } }
      else if backward && decide (s.spn.set ≤ 100 * speed) then
        setFlag (spnGo (sensed s speed backward) spBrakeRev .shortBrake) F.SPN_STAT_REVERSE 0 true
      else spnGo (sensed s speed backward) spBrakeSettle .shortBrake) :=
  congrArg Host.Outcome.next (if_pos sense)

theorem ends_senseEnd_forward {s : State} {speed : Nat} (sense : spnState s = spSense)
    (fast : 4 * s.spn.set ≤ 100 * speed) : Ends (.senseEnd speed false) s (fun t =>
      spnState t = spCatch ∧ fld t F.SPN_OBS_SPEED = min speed (2 ^ 24 - 1)) := by
  have gone := spnGone_spnGo (sensed s speed false) .highZ (st := spCatch) (by decide)
  refine ⟨_, exec_senseEnd false sense, ?_⟩
  rw [if_pos (by simpa using fast)]
  exact ⟨gone.state, (gone.sets.fld _ _).trans (fld_sensed ..)⟩

theorem ends_senseEnd_rest {s : State} {speed : Nat} (sense : spnState s = spSense)
    (slow : 100 * speed < 4 * s.spn.set) : Ends (.senseEnd speed false) s (fun t =>
      spnState t = spBrakeSettle ∧ t.spn.bridge = .shortBrake) := by
  have gone := spnGone_spnGo (sensed s speed false) .shortBrake (st := spBrakeSettle) (by decide)
  refine ⟨_, exec_senseEnd false sense, ?_⟩
  rw [if_neg (by simp; omega), if_neg (by simp)]
  exact ⟨gone.state, gone.bridge⟩

theorem ends_senseEnd_backward {s : State} {speed : Nat} (sense : spnState s = spSense)
    (fast : s.spn.set ≤ 100 * speed) : Ends (.senseEnd speed true) s (fun t =>
      spnState t = spBrakeRev ∧ t.spn.bridge = .shortBrake ∧ flag t F.SPN_STAT_REVERSE = true) := by
  have gone := spnGone_spnGo (sensed s speed true) .shortBrake (st := spBrakeRev) (by decide)
  refine ⟨_, exec_senseEnd true sense, ?_⟩
  rw [if_neg (by simp), if_pos (by simpa using fast)]
  exact ⟨(fld_setFld_other _ _ _ _ (by decide)).trans gone.state, gone.bridge,
    flag_setFlag_same _ _ _ _ (by decide) (by decide)⟩

/-! ### Aligning and ramping (R238) -/

/-- A timed end that only moves SPN on (Table 7.1). -/
theorem ends_spnGo {c : Instr} {s u : State} {st : Nat} {b : Bridge} (small : st < 16)
    (meaning : exec c s = .next (spnGo u st b)) : Ends c s (fun t => spnState t = st ∧ t.spn.bridge = b) :=
  have gone := spnGone_spnGo u b small
  ⟨_, meaning, gone.state, gone.bridge⟩

/-- A timed end in FAULT (Table 7.1). -/
theorem ends_enterFault {c : Instr} {s : State} {cause : Nat} (small : cause < 8)
    (meaning : exec c s = .next (enterFault s cause)) : Ends c s (Faulted s cause) := ⟨_, meaning, faulted_enterFault s small⟩

theorem ends_alignEnd {s : State} (align : spnState s = spAlign) : Ends .alignEnd s (fun t =>
      spnState t = spRamp ∧ t.spn.bridge = .ramp ∧ t.spn.rampT = 0) := by
  have gone := spnGone_spnGo s .ramp (st := spRamp) (by decide)
  exact ⟨_, congrArg Host.Outcome.next (if_pos align), gone.state, gone.bridge, rfl⟩

/-- A ramp that failed with attempts left, at attempt k. -/
def rampRetried (s : State) (k : Nat) : State :=
  bump (setFld (spnGo s spBrakeSettle .shortBrake) F.SPN_STAT_ATTEMPT 0 (k + 1)) F.SPN_CNT_START_RETRIES

theorem exec_rampTimeout {s : State} (ramp : spnState s = spRamp) : exec .rampTimeout s = .next (
      if fld s F.SPN_STAT_ATTEMPT < 5 then rampRetried s (fld s F.SPN_STAT_ATTEMPT) else enterFault s 1) :=
  congrArg Host.Outcome.next (if_pos ramp)

theorem ends_rampTimeout_retry {s : State} (ramp : spnState s = spRamp) (left : fld s F.SPN_STAT_ATTEMPT < 5) :
    Ends .rampTimeout s (fun t =>
      spnState t = spBrakeSettle ∧
      fld t F.SPN_STAT_ATTEMPT = fld s F.SPN_STAT_ATTEMPT + 1 ∧
      fld t F.SPN_CNT_START_RETRIES = min (fld s F.SPN_CNT_START_RETRIES + 1) 65535) := by
  have gone := spnGone_spnGo s .shortBrake (st := spBrakeSettle) (by decide)
  refine ⟨_, (exec_rampTimeout ramp).trans (by rw [if_pos left]), ?_, ?_, ?_⟩
  · rw [spnState, rampRetried, fld_bump_other _ _ _ _ (by decide), fld_setFld_other _ _ _ _ (by decide)]
    exact gone.state
  · rw [rampRetried, fld_bump_other _ _ _ _ (by decide), fld_setFld_same _ _ _ _ (by decide)]
    exact Nat.mod_eq_of_lt (Nat.lt_of_le_of_lt (Nat.succ_le_of_lt left) (by decide))
  · rw [rampRetried, fld_bump_same _ _ _ _ (by decide), fld_setFld_other _ _ _ _ (by decide), gone.sets.fld _ _]
    rfl

/-! ### The end of a brake (R240) -/

/-- A pending STOP taken off. -/
def stopEnded (s : State) : State := { s with spn := { s.spn with stop := false } }

theorem ends_brakeEnd {s : State} (brake : spnState s = spBrake) (stop : s.spn.stop = true) (start : s.spn.start = false) :
    Ends .brakeEnd s (fun t =>
      spnState t = spOff ∧ fld t F.SPN_CMD_STATUS = 0 ∧ flag t F.SPN_CMD_BUSY = false ∧ t.spn.stop = false) := by
  have gone := spnGone_spnGo s .highZ (st := spOff) (by decide)
  have pending : (spnGo s spOff .highZ).spn.start = false := gone.start.trans start
  have answered := spnAnswered_spnDone (stopEnded (spnGo s spOff .highZ)) (status := 0) (by decide)
  have done : stopDone (spnGo s spOff .highZ) 0 = spnDone (stopEnded (spnGo s spOff .highZ)) 0 := if_pos (gone.stop.trans stop)
  have idle : (stopDone (spnGo s spOff .highZ) 0).spn.start = false := by
    rw [spn_stopDone]
    exact pending
  refine ⟨_, congrArg Host.Outcome.next ((if_pos brake).trans (if_neg (by simp [idle]))), ?_⟩
  rw [done]
  exact ⟨((sets_spnDone ..).fld _ _).trans gone.state, answered.status,
    answered.busy.trans (by simp [stopEnded, pending]), by rw [answered.spn]; rfl⟩

/-- Settles O13: each timed end moves SPN on (`ends_spnGo`) or ends in FAULT with its cause (`ends_enterFault`). -/
theorem spindleStart : Obligations.SpindleStart := by
  refine ⟨?_, ?_, ?_, ?_, ?_, ?_, ?_, ?_, ?_, ?_, ?_, ?_⟩
  · exact fun s speed sense fast => ends_senseEnd_forward sense fast
  · exact fun s speed sense slow => ends_senseEnd_rest sense slow
  · exact fun s speed sense fast => ends_senseEnd_backward sense fast
  · exact fun s reverse => ends_spnGo (by decide) (congrArg Host.Outcome.next (if_pos reverse))
  · intro s reverse
    obtain ⟨t, e, fault⟩ := ends_enterFault (c := .brakeRevTimeout) (s := s) (cause := 4) (by decide)
      (congrArg Host.Outcome.next (if_pos reverse))
    exact ⟨t, e, fault.state, fault.cause, fault.bridge, fault.start⟩
  · exact fun s settle => ends_spnGo (by decide) (congrArg Host.Outcome.next (if_pos settle))
  · exact fun s align => ends_alignEnd align
  · exact fun s ramp left => ends_rampTimeout_retry ramp left
  · intro s ramp last
    obtain ⟨t, e, fault⟩ := ends_enterFault (c := .rampTimeout) (cause := 1) (by decide)
      ((exec_rampTimeout ramp).trans (by rw [if_neg (by omega)]))
    exact ⟨t, e, fault.state, fault.cause⟩
  · intro s catching fresh
    obtain ⟨t, e, state, -⟩ := ends_spnGo (c := .catchTimeout) (s := s) (st := spBrakeSettle) (b := .shortBrake) (by decide)
      (congrArg Host.Outcome.next ((if_pos catching).trans (if_neg (by simp [fresh]))))
    exact ⟨t, e, state⟩
  · intro s starting unreached
    obtain ⟨t, e, fault⟩ := ends_enterFault (c := .spinupTimeout) (s := s) (cause := 2) (by decide)
      (congrArg Host.Outcome.next (if_pos (by rw [unreached, decide_eq_true starting]; rfl)))
    exact ⟨t, e, fault.state, fault.cause, fault.unload⟩
  · exact fun s brake stop start => ends_brakeEnd brake stop start

end Sys2Proof.Machine

end

section
-- `decide` waits for the kernel: a thread for each of these proofs would exhaust the memory limit.
set_option Elab.async false

namespace Sys2Proof.Machine

/-! ### Commutation boundaries (R228, R229) -/

theorem sets_boundarySpeed (s : State) : Sets spnGoFlds s (boundarySpeed s) :=
  .ite ((sets_takeSetSpeed s).trans (.ite (spnGone_spnGo _ _ (by decide)).sets .refl)) .refl

theorem sets_commutation (s : State) : Sets spnGoFlds s (commutation s) := by
  unfold commutation
  extract_lets p t hu u q v
  have taken : Sets spnGoFlds s t := .of_eq rfl rfl
  have bounded : Sets spnGoFlds s u := taken.trans (.of_writes (writes_calBoundary ..))
  have measured : Sets spnGoFlds s v := by
    simp only [v]
    split
    · have speed : Sets spnGoFlds u { u with spn := { q with huSet := u.spn.set } } := .of_eq rfl rfl
      exact (bounded.trans speed).trans (sets_recomputeHoldUp _)
    · exact bounded
  exact measured.trans (sets_boundarySpeed v)

/-- With no result and no set speed waiting, a boundary takes the window parameters alone. -/
theorem commutation_idle {s : State} (idle : s.cal.pending = []) (steady : s.spn.setWaits = false) :
    commutation s = { s with spn := { s.spn with win := some (rd s .SPN_WIN_CTL 0) } } := by
  unfold commutation
  extract_lets p t hu u q v
  have none : t.cal.pending = [] := idle
  have unmeasured : hu = false := by
    simp only [hu, none]
    rfl
  have same : u = t := calBoundary_none _ none
  have unchanged : v = t := by
    simp only [v, unmeasured, same]
    rfl
  rw [unchanged]
  exact if_neg (by rw [show t.spn.setWaits = false from steady]; decide)

/-! ### Crossings (R233, R234) -/

theorem sets_engage4 {l : List Fld} (s : State) : Sets l s (engage4 s) := .of_eq rfl rfl

theorem sets_enterRun (s : State) : Sets spnGoFlds s (enterRun s) := by
  unfold enterRun
  extract_lets t p
  have engaged : Sets spnGoFlds s t := (spnGone_spnGo s .drive (by decide)).sets.trans (sets_engage4 _)
  exact engaged.trans (.of_eq rfl rfl)

theorem sets_crossingActs (s : State) (dt : Nat) : Sets spnGoFlds s (crossingActs s dt) :=
  have turned : Sets spnGoFlds s (revolution s dt) := .ite (.of_eq rfl rfl) (.of_eq rfl rfl)
  .ite (sets_enterRun s) (.ite turned (.ite (.of_eq rfl rfl) .refl))

theorem sets_observeCrossing (s : State) (dt : Nat) (num : Int) :
    Sets [F.SPN_OBS_THETA, F.SPN_OBS_SPEED] s (observeCrossing s dt num) := by
  unfold observeCrossing
  extract_lets win kp ki w th w' th' p t
  have moved : Sets [F.SPN_OBS_THETA, F.SPN_OBS_SPEED] s t := .of_eq rfl rfl
  exact moved.trans (.setFlds _ _ _)

/-- A ramp's last valid crossing closes the loop (Table 7.1). -/
theorem ends_bemfCrossing_closes {s : State} {dt sector : Nat} (ramp : spnState s = spRamp)
    (valid : rampValid s (s.spn.rampT + dt) = true) (last : validN s ≤ s.spn.valid + 1) :
    Ends (.bemfCrossing dt sector true) s (fun t => spnState t = spAccel ∧ t.spn.bridge = .drive) := by
  have meaning : ∃ t, exec (.bemfCrossing dt sector true) s = .next (spnGo (seedObserver t dt sector) spAccel .drive) := by
    change ∃ t, execBemfCrossing dt sector true s = _
    unfold execBemfCrossing
    extract_lets p time v t u
    have counted : v = s.spn.valid + 1 := if_pos (by rw [valid]; rfl)
    exact ⟨u, congrArg Host.Outcome.next ((if_pos ramp).trans (if_pos (by rw [counted]; exact last)))⟩
  obtain ⟨t, meaning⟩ := meaning
  exact ends_spnGo (by decide) meaning

/-- How far a crossing's interval is from the predicted one, in the units of the observer (R233). -/
def crossingError (s : State) (dt : Nat) : Int := (periodSpeed : Int) - (dt * fld s F.SPN_OBS_SPEED : Nat)

/-- The crossings in a row that were out of tolerance, with the one taken now (R234). -/
def wideRun (s : State) (dt : Nat) : Nat :=
  if periodSpeed < 4 * (crossingError s dt).natAbs then s.spn.wide + 1 else 0

/-- A crossing taken in RUN, its boundary passed. -/
def crossingTaken (s : State) (dt : Nat) : State :=
  let t := observeCrossing s dt (crossingError s dt)
  { t with spn := { t.spn with last := dt, valid := 0, wide := wideRun s dt, win := some (rd t .SPN_WIN_CTL 0) } }

theorem sets_crossingTaken (s : State) (dt : Nat) : Sets [F.SPN_OBS_THETA, F.SPN_OBS_SPEED] s (crossingTaken s dt) := by
  have noted : Sets [F.SPN_OBS_THETA, F.SPN_OBS_SPEED] (observeCrossing s dt (crossingError s dt)) (crossingTaken s dt) :=
    .of_eq rfl rfl
  exact (sets_observeCrossing ..).trans noted

theorem spnState_crossingTaken (s : State) (dt : Nat) : spnState (crossingTaken s dt) = spnState s :=
  (sets_crossingTaken s dt).fld _ _

/-- A crossing in RUN with no set speed and no result waiting. -/
theorem exec_bemfCrossing_run {s : State} (dt sector : Nat) (forward : Bool) (run : spnState s = spRun)
    (steady : s.spn.setWaits = false) (idle : s.cal.pending = []) : exec (.bemfCrossing dt sector forward) s = .next
      (if 3 ≤ wideRun s dt then declareLos (crossingTaken s dt) else crossingActs (crossingTaken s dt) dt) := by
  change execBemfCrossing dt sector forward s = _
  unfold execBemfCrossing
  extract_lets p time v₁ t₁ u₁ num out judged near v t q u w
  have wide : (if (out && judged) = true then p.wide + 1 else 0) = wideRun s dt := by
    simp only [judged, run]
    simp [out, num, wideRun, crossingError, p]
  have taken : w = crossingTaken s dt := by
    have passed : w = { u with spn := { u.spn with win := some (rd u .SPN_WIN_CTL 0) } } :=
      commutation_idle (s := u) idle steady
    rw [passed]
    simp only [u, wide, run]
    rfl
  have counted : w.spn.wide = wideRun s dt := by rw [taken]; rfl
  rw [if_neg (by rw [run]; decide), if_pos (.inr (.inr (.inl run))), counted, taken]
  rw [if_neg (c := spnState s = spCatch ∧ _) (by rw [run]; simp)]

theorem ends_bemfCrossing_near {s : State} {dt sector : Nat} {forward : Bool} (run : spnState s = spRun)
    (steady : s.spn.setWaits = false) (idle : s.cal.pending = [])
    (near : 4 * (crossingError s dt).natAbs ≤ periodSpeed) : Ends (.bemfCrossing dt sector forward) s (fun t =>
      spnState t = spRun ∧ t.spn.wide = 0 ∧ t.spn.last = dt) := by
  have none : wideRun s dt = 0 := if_neg (by omega)
  have still : spnState (crossingTaken s dt) = spRun := (spnState_crossingTaken s dt).trans run
  have acts : crossingActs (crossingTaken s dt) dt = revolution (crossingTaken s dt) dt :=
    (if_neg (by rw [still]; simp)).trans (if_pos still)
  refine ⟨_, exec_bemfCrossing_run dt sector forward run steady idle, ?_⟩
  rw [if_neg (by omega), acts, revolution]
  split
  · exact ⟨still, none, rfl⟩
  · exact ⟨still, none, rfl⟩

/-! ### Loss of synchronism (R234, R235) -/

/-- A LOS leaves RUN and counts. -/
theorem declareLos_fields {s : State} (driven : spnState s ≠ spRectify) : spnState (declareLos s) ≠ spRun ∧
    fld (declareLos s) F.SPN_CNT_LOS = min (fld s F.SPN_CNT_LOS + 1) 65535 := by
  unfold declareLos
  extract_lets t p u r v q
  have noted : Sets [F.SPN_STAT_LOS_RUN] t { t with spn := { p with wide := 0 } } := .of_eq rfl rfl
  have counted : Sets [F.SPN_STAT_LOS_RUN] (bump s F.SPN_CNT_LOS) u :=
    ((Sets.sendFault ..).trans noted).trans (.bump _ F.SPN_STAT_LOS_RUN 0 1)
  have los {x : State} (k : Sets entryFlds u x) : fld x F.SPN_CNT_LOS = min (fld s F.SPN_CNT_LOS + 1) 65535 := by
    rw [k.fld _ _, counted.fld _ _, fld_bump_same _ _ _ _ (by decide)]
    rfl
  rw [if_neg driven]
  split
  · have gone : SpnGone u spCatch .highZ v := spnGone_spnGo u .highZ (by decide)
    have still : spnState { v with spn := { q with catchLos := true, valid := 0, wide := 0, last := 0 } } = spCatch :=
      gone.state
    refine ⟨?_, los (gone.sets.sub.trans (.of_eq rfl rfl))⟩
    rw [still]
    decide
  · exact ⟨spnState_spnParked (waits_unloadWait ..).state, los (sets_enterUnloadWait ..)⟩

theorem ends_bemfCrossing_wide {s : State} {dt sector : Nat} {forward : Bool} (run : spnState s = spRun)
    (steady : s.spn.setWaits = false) (idle : s.cal.pending = []) (before : 2 ≤ s.spn.wide)
    (wide : periodSpeed < 4 * (crossingError s dt).natAbs) : Ends (.bemfCrossing dt sector forward) s (fun t =>
      spnState t ≠ spRun ∧ fld t F.SPN_CNT_LOS = min (fld s F.SPN_CNT_LOS + 1) 65535) := by
  have third : 3 ≤ wideRun s dt := by rw [wideRun, if_pos wide]; omega
  have still : spnState (crossingTaken s dt) = spRun := (spnState_crossingTaken s dt).trans run
  have los := declareLos_fields (s := crossingTaken s dt) (by rw [still]; decide)
  rw [(sets_crossingTaken s dt).fld _ _] at los
  refine ⟨_, exec_bemfCrossing_run dt sector forward run steady idle, ?_⟩
  rw [if_pos third]
  exact los

theorem ends_crossingWindowTimeout {s : State} (driven : spnState s ∈ [spCatch, spAccel, spRun]) :
    Ends .crossingWindowTimeout s (fun t => fld t F.SPN_CNT_LOS = min (fld s F.SPN_CNT_LOS + 1) 65535) := by
  have other : spnState s ≠ spRectify := fun e => by rw [e] at driven; exact absurd driven (by decide)
  exact ⟨_, congrArg Host.Outcome.next (if_pos (by rw [decide_eq_true driven]; rfl)), (declareLos_fields other).2⟩

/-! ### Skipped crossings (R231) -/

theorem ends_predictedCrossing_skipped {s : State} (bridge : s.spn.bridge ∈ [.ramp, .drive, .rectify, .regen])
    (turns : fld s F.SPN_OBS_SPEED ≠ 0) (free : clampApplies s = false) : Ends .predictedCrossing s (fun t =>
      fld t F.SPN_CNT_SKIPPED = min (fld s F.SPN_CNT_SKIPPED + 1) 65535) := by
  have after (u : State) (dt : Nat) : Sets spnGoFlds u (crossingActs (commutation u) dt) :=
    (sets_commutation u).trans (sets_crossingActs ..)
  have advanced : fld (advanceCrossing s) F.SPN_CNT_SKIPPED = fld s F.SPN_CNT_SKIPPED := fld_setFld_other _ _ _ _ (by decide)
  refine ⟨_, congrArg Host.Outcome.next (if_pos (by simp [bridge, turns, free])), ?_⟩
  dsimp only
  rw [(after _ _).fld _ _, fld_bump_same _ _ _ _ (by decide), advanced]
  rfl

theorem ends_predictedCrossing_clamped {s : State} (run : spnState s = spRun) (idle : s.cal.running = []) :
    Ends .predictedCrossing s (fun t => t = s) := by
  have clamped : clampApplies s = true := by simp [clampApplies, run, idle]
  exact ⟨_, congrArg Host.Outcome.next (if_neg (by simp [clamped])), rfl⟩

end Sys2Proof.Machine

end

section
-- `decide` waits for the kernel: a thread for each of these proofs would exhaust the memory limit.
set_option Elab.async false

namespace Sys2Proof.Machine

/-! ### AT_SPEED (R239) -/

/-- A change of AT_SPEED moves the spindle's readiness and raises source 610 (R607). -/
theorem setAtSpeed_changes {s : State} {b : Bool} (change : flag s F.SPN_STAT_AT_SPEED ≠ b) :
    ready (setAtSpeed s b) F.CKR_READY_SPINDLE = b ∧ pendingBit (setAtSpeed s b) 610 = true := by
  have moved : setAtSpeed s b = raiseSource (setReady (setFlag s F.SPN_STAT_AT_SPEED 0 b) F.CKR_READY_SPINDLE 0 b) 610 :=
    if_neg change
  rw [moved]
  refine ⟨?_, pendingBit_raiseSource ..⟩
  rw [ready, (keeps_raiseSource (bs := [.fcl]) (m := false) _ _ (by decide)).regs _ _ (by decide)]
  exact (bit_setReady _ _ _ _ (by decide)).trans (if_pos rfl)

/-- SPN with its count of electrical cycles aligned at k (R244). -/
def cycleAligned (s : State) (k : Nat) : State := { s with spn := { s.spn with cycle := k, aligned := true } }

theorem start_cycleAligned (s : State) (k : Nat) : (cycleAligned s k).spn.start = s.spn.start := rfl

/-- The cycle count alone is aligned. -/
theorem alignIndex_eq (s : State) : alignIndex s = s ∨ ∃ k, alignIndex s = cycleAligned s k := by
  unfold alignIndex
  split
  · exact .inl rfl
  · split
    · exact .inl rfl
    · extract_lets g r want off best
      split
      · exact .inl rfl
      · exact .inr ⟨best, rfl⟩

theorem start_alignIndex (s : State) : (alignIndex s).spn.start = s.spn.start := by
  obtain e | ⟨k, e⟩ := alignIndex_eq s
  · rw [e]
  · rw [e, start_cycleAligned]

/-- AT_SPEED risen, with the LOS run cleared and the START completed. -/
def sped (s : State) : State := startDone (setFld (setAtSpeed s true) F.SPN_STAT_LOS_RUN 0 0) 0

theorem ends_atSpeedChange_rises {s : State} (run : spnState s = spRun) (slow : flag s F.SPN_STAT_AT_SPEED = false)
    (good : 4 ≤ s.spn.good) : Ends .atSpeedChange s (fun t =>
      flag t F.SPN_STAT_AT_SPEED = true ∧ fld t F.SPN_STAT_LOS_RUN = 0 ∧ ready t F.CKR_READY_SPINDLE = true ∧
      pendingBit t 610 = true ∧ t.spn.start = false) := by
  obtain ⟨readies, source⟩ := setAtSpeed_changes (s := s) (b := true) (by rw [slow]; decide)
  have done := sets_startDone (setFld (setAtSpeed s true) F.SPN_STAT_LOS_RUN 0 0) 0
  have regs (r : Reg) (i : Nat) : rd (alignIndex (sped s)) r i = rd (sped s) r i :=
    (keeps_alignIndex _).regs _ _ List.not_mem_nil
  have kept : Keeps [.fcl, .spn] false (setAtSpeed s true) (sped s) :=
    (keeps_setFld _ _ _ _ (by decide)).trans (keeps_startDone ..)
  have spared : Spares false (setAtSpeed s true) (sped s) :=
    (spares_setFld _ _ _ _ (by decide)).trans (spares_startDone ..)
  refine ⟨alignIndex (sped s), congrArg Host.Outcome.next (if_pos ⟨run, slow, good⟩), ?_, ?_, ?_, ?_, ?_⟩
  · rw [flag, fld_eq_of_rd (regs _ _), ← flag, sped, done.flag _ _]
    exact (flag_setFld_other _ _ _ _ (by decide)).trans (flag_setAtSpeed ..)
  · rw [fld_eq_of_rd (regs _ _), sped, done.fld _ _]
    exact fld_setFld_same _ _ _ _ (by decide)
  · rw [ready, regs, kept.regs _ _ (by decide)]
    exact readies
  · rw [pendingBit, regs]
    exact spared.pend _ source
  · rw [start_alignIndex, sped, spn_startDone]

theorem ends_atSpeedChange_falls {s : State} (run : spnState s = spRun) (fast : flag s F.SPN_STAT_AT_SPEED = true)
    (bad : 2 ≤ s.spn.bad) : Ends .atSpeedChange s (fun t =>
      flag t F.SPN_STAT_AT_SPEED = false ∧ ready t F.CKR_READY_SPINDLE = false ∧ pendingBit t 610 = true) := by
  have still : flag (calDrop s (fun n => n == 46)) F.SPN_STAT_AT_SPEED = true :=
    ((sets_calDrop (l := []) ..).flag _ _).trans fast
  obtain ⟨readies, source⟩ := setAtSpeed_changes (b := false) (by rw [still]; decide)
  exact ⟨_, congrArg Host.Outcome.next ((if_neg (by simp [fast])).trans (if_pos ⟨run, fast, bad⟩)), flag_setAtSpeed ..,
    readies, source⟩

/-! ### The external sync (R245) -/

theorem sets_setSync (s : State) (v : Nat) : Sets [F.SPN_STAT_SYNC] s (setSync s v) :=
  .ite .refl ((Sets.setFld s F.SPN_STAT_SYNC 0 v).trans (.raiseSource ..))

theorem spn_setSync (s : State) (v : Nat) : (setSync s v).spn = s.spn :=
  spn_of_unitState (unitState_ite rfl ((unitState_raiseSource ..).trans (unitState_setFld ..)))

theorem fld_setSync (s : State) {v : Nat} (small : v < 4) : fld (setSync s v) F.SPN_STAT_SYNC = v := by
  unfold setSync
  split
  · assumption
  · rw [(Sets.raiseSource (l := []) _ _).fld _ _]
    exact (fld_setFld_same _ _ _ _ (by decide)).trans (Nat.mod_eq_of_lt small)

/-- The phase error an edge measures, in 2^−16 revolution. -/
def edgeError (s : State) : Int := wrap16 ((fld s F.SPN_SYNC_CTL_OFS : Int) - phiHat16 s)

/-- The run of good edges with the one taken now. -/
def goodRun (s : State) : Nat := if (edgeError s).natAbs ≤ 91 then min 255 (fld s F.SPN_SYNC_STAT_GOOD + 1) else 0

/-- A first edge is taken whatever its interval. -/
theorem exec_spsyncEdge_first {s : State} (dt : Nat) (on : flag s F.SPN_SYNC_CTL_EN = true)
    (pol : flag s F.SPN_SYNC_CTL_POL = false) (first : s.spn.edge = false) : ∃ p v, p.edge = true ∧
      exec (.spsyncEdge true dt) s = .next (setSync (setFlds { s with spn := p } 0
        [(F.SPN_SYNC_STAT_PERR, narrow 16 (edgeError s)), (F.SPN_SYNC_STAT_GOOD, goodRun s)]) v) := by
  change ∃ p v, _ ∧ execSpsyncEdge true dt s = _
  unfold execSpsyncEdge
  extract_lets rev ofs lim dev perr n far p t locked
  rw [if_pos (by rw [on, pol]; decide), if_neg (by simp [first])]
  exact ⟨{ p with refDev := dev, edge := true, edgeBad := far }, _, rfl, rfl⟩

theorem ends_spsyncEdge_first {s : State} {dt : Nat} (on : flag s F.SPN_SYNC_CTL_EN = true)
    (pol : flag s F.SPN_SYNC_CTL_POL = false) (first : s.spn.edge = false) : Ends (.spsyncEdge true dt) s (fun t =>
      fld t F.SPN_SYNC_STAT_PERR = narrow 16 (edgeError s) ∧ fld t F.SPN_SYNC_STAT_GOOD = goodRun s ∧
      t.spn.edge = true) := by
  obtain ⟨p, v, edge, meaning⟩ := exec_spsyncEdge_first dt on pol first
  have synced := sets_setSync (setFlds { s with spn := p } 0
    [(F.SPN_SYNC_STAT_PERR, narrow 16 (edgeError s)), (F.SPN_SYNC_STAT_GOOD, goodRun s)]) v
  have small : goodRun s < 2 ^ 8 := by
    unfold goodRun
    split <;> omega
  refine ⟨_, meaning, ?_, ?_, ?_⟩
  · rw [synced.fld _ _]
    simp (disch := decide) only [setFlds, fld_setFld_other, fld_setFld_same]
    exact Nat.mod_eq_of_lt (BitVec.isLt _)
  · rw [synced.fld _ _]
    simp (disch := decide) only [setFlds, fld_setFld_same]
    exact Nat.mod_eq_of_lt small
  · rw [spn_setSync]
    exact edge

theorem ends_syncFree {s : State} (on : flag s F.SPN_SYNC_CTL_EN = true) : Ends .syncFree s (fun t =>
      fld t F.SPN_STAT_SYNC = 1 ∧ fld t F.SPN_SYNC_STAT_GOOD = 0 ∧ t.spn.edge = false) := by
  refine ⟨_, congrArg Host.Outcome.next (if_pos on), fld_setSync _ (by decide), ?_, ?_⟩
  · rw [(sets_setSync ..).fld _ _]
    exact fld_setFld_same s F.SPN_SYNC_STAT_GOOD 0 0 (by decide)
  · rw [spn_setSync]

/-- Settles O14: a crossing in RUN by the run of wide ones it leaves (`exec_bemfCrossing_run`), a LOS by what it counts
(`declareLos_fields`), AT_SPEED by its change and an edge by what it measures. -/
theorem spindleRunning : Obligations.SpindleRunning := by
  refine ⟨?_, ?_, ?_, ?_, ?_, ?_, ?_, ?_, ?_, ?_⟩
  · exact fun s dt sector ramp valid last => ends_bemfCrossing_closes ramp valid last
  · exact fun s dt sector forward run steady idle near => ends_bemfCrossing_near run steady idle near
  · exact fun s dt sector forward run steady idle before wide => ends_bemfCrossing_wide run steady idle before wide
  · exact fun s bridge turns free => ends_predictedCrossing_skipped bridge turns free
  · exact fun s run idle => ends_predictedCrossing_clamped run idle
  · exact fun s driven => ends_crossingWindowTimeout driven
  · exact fun s run slow good => ends_atSpeedChange_rises run slow good
  · exact fun s run fast bad => ends_atSpeedChange_falls run fast bad
  · exact fun s dt on pol first => ends_spsyncEdge_first on pol first
  · exact fun s on => ends_syncFree on

end Sys2Proof.Machine

end

section
-- `decide` waits for the kernel: a thread for each of these proofs would exhaust the memory limit.
set_option Elab.async false

namespace Sys2Proof.Machine

/-! ### What the power stage does to the spindle (R253, R254, R256) -/

theorem sets_enterRectify (s : State) (byVm : Bool) : Sets entryFlds s (enterRectify s byVm) := by
  unfold enterRectify
  extract_lets t p
  have gone : Sets entryFlds s t := (spnGone_spnGo s .rectify (by decide)).sets.sub
  have noted : Sets entryFlds t { t with spn := { p with vmCause := byVm } } := .of_eq rfl rfl
  exact .ite (((gone.trans noted).andThen (sets_raiseUnload _)).trans (sets_spnParked _)) .refl

/-- A power-die fatal fault leaves FAULT, with the bridge as it stood there or floating. -/
structure PowerFaulted (s t : State) : Prop where
  state : spnState t = spFault
  bridge : t.spn.bridge = if spnState s = spFault then s.spn.bridge else .highZ
  retract : t.spn.retract = s.spn.retract
  sets : Sets entryFlds s t

theorem powerFaulted_spnPowerFault (s : State) : PowerFaulted s (spnPowerFault s) := by
  unfold spnPowerFault
  split
  · rename_i fault
    exact ⟨fault, (if_pos fault).symm, rfl, .refl⟩
  · rename_i other
    have fault := faulted_enterFault s (cause := 5) (by decide)
    exact ⟨fault.state, by rw [if_neg other]; exact fault.bridge, (spares_enterFault (pl := false) s 5).retract, fault.sets⟩

/-! ### Supply supervision and the chopper (R250 to R254) -/

theorem fld_setVm (s : State) (mv : Nat) : fld (setVm s mv) F.PWS_VOLT_VM = min mv 65535 :=
  (fld_setFld_same _ _ _ _ (by decide)).trans (Nat.mod_eq_of_lt (Nat.lt_succ_of_le (Nat.min_le_right ..)))

/-- VM_LOW latched. -/
def vmLowLatched (s : State) (mv : Nat) : State := setFlds (setVm s mv) 0 [(F.PWS_STAT_VM_OK, 0), (F.PWS_FAULT_VM_LOW, 1)]

/-- VM_LOW reported, before SPN hears of it. -/
def vmLowReported (s : State) (mv : Nat) : State :=
  sendFault (raiseSource (vmLowLatched s mv) 626) .pws 624 FK.pwsVmLow 6 0

theorem ends_vmLow {s : State} {mv : Nat} (low : mv < 9500) (vin : vinGood s = true)
    (vm : flag s F.PWS_STAT_VM_OK = true) : Ends (.vmLow mv) s (fun t =>
      flag t F.PWS_STAT_VM_OK = false ∧ fld t F.PWS_VOLT_VM = mv ∧ flag t F.PWS_FAULT_VM_LOW = true ∧
      pendingBit t 626 = true) := by
  have after : Sets entryFlds (vmLowLatched s mv) (enterRectify (vmLowReported s mv) true) :=
    ((Sets.raiseSource ..).trans (.sendFault ..)).trans (sets_enterRectify ..)
  have spared : Spares false (raiseSource (vmLowLatched s mv) 626) (enterRectify (vmLowReported s mv) true) :=
    (spares_sendFault _ _ _ _ _ _ (by decide)).trans (spares_enterRectify ..)
  refine ⟨enterRectify (vmLowReported s mv) true, congrArg Host.Outcome.next (if_pos ⟨low, vin, vm⟩), ?_, ?_, ?_,
    spared.pend _ (pendingBit_raiseSource ..)⟩
  · rw [after.flag _ _]
    simp (disch := decide) only [vmLowLatched, setFlds, flag_setFld_other, flag_setFld_same]
    rfl
  · rw [after.fld _ _]
    simp (disch := decide) only [vmLowLatched, setFlds, fld_setFld_other, fld_setVm]
    omega
  · rw [after.flag _ _]
    simp (disch := decide) only [vmLowLatched, setFlds, flag_setFld_same]
    rfl

theorem ends_vmOkRise {s : State} {mv : Nat} (high : 10000 ≤ mv) (vm : flag s F.PWS_STAT_VM_OK = false) :
    Ends (.vmOkRise mv) s (fun t =>
      flag t F.PWS_STAT_VM_OK = true ∧ fld t F.PWS_VOLT_VM = min mv 65535 ∧ pendingBit t 626 = true) := by
  have raised := Sets.raiseSource (l := []) (setFlag (setVm s mv) F.PWS_STAT_VM_OK 0 true) 626
  refine ⟨_, congrArg Host.Outcome.next (if_pos ⟨high, vm⟩), ?_, ?_, pendingBit_raiseSource ..⟩
  · rw [raised.flag _ _]
    exact flag_setFlag_same _ _ _ _ (by decide) (by decide)
  · rw [raised.fld _ _]
    exact (fld_setFld_other _ _ _ _ (by decide)).trans (fld_setVm ..)

/-- The chopper switched at a measured VM. -/
theorem ends_clamp {c : Instr} {s : State} {mv : Nat} {b : Bool}
    (meaning : exec c s = .next (setFlag (setVm s mv) F.PWS_STAT_CLAMP_ON 0 b)) : Ends c s (fun t =>
      flag t F.PWS_STAT_CLAMP_ON = b ∧ fld t F.PWS_VOLT_VM = min mv 65535) :=
  ⟨_, meaning, flag_setFlag_same _ _ _ _ (by decide) (by decide),
    (fld_setFld_other _ _ _ _ (by decide)).trans (fld_setVm ..)⟩

/-- VM_TRIP latched, which blocks a restart. -/
def vmTripped (s : State) (mv : Nat) : State := setFlds (setVm s mv) 0 [(F.PWS_FAULT_VM_TRIP, 1), (F.PWS_STAT_RESTART_BLOCK, 1)]

theorem ends_vmTrip {s : State} {mv : Nat} (high : 15600 ≤ mv) (first : flag s F.PWS_FAULT_VM_TRIP = false) :
    Ends (.vmTrip mv) s (fun t =>
      flag t F.PWS_FAULT_VM_TRIP = true ∧ flag t F.PWS_STAT_RESTART_BLOCK = true ∧ spnState t = spFault) := by
  have fault := powerFaulted_spnPowerFault (sendFault (vmTripped s mv) .pws 624 FK.pwsVmTrip 7 0)
  have after : Sets entryFlds (vmTripped s mv) (spnPowerFault (sendFault (vmTripped s mv) .pws 624 FK.pwsVmTrip 7 0)) :=
    (Sets.sendFault ..).trans fault.sets
  refine ⟨_, congrArg Host.Outcome.next (if_pos ⟨high, first⟩), (after.flag _ _).trans ?_, (after.flag _ _).trans ?_,
    fault.state⟩
  · simp (disch := decide) only [vmTripped, setFlds, flag_setFld_other, flag_setFld_same]
    rfl
  · simp (disch := decide) only [vmTripped, setFlds, flag_setFld_same]
    rfl

/-- CHOP_OPEN latched and regeneration disabled (R252). -/
def chopOpened (s : State) (ma : Nat) : State :=
  setFlds s 0 [(F.PWS_BRK_I_I, ma), (F.PWS_FAULT_CHOP_OPEN, 1), (F.PWS_CLAMP_REGEN_EN, 0)]

/-- A regenerating bridge brakes by shorting instead (R252). -/
def regenStopped (s : State) : State :=
  if s.spn.bridge = .regen then { s with spn := { s.spn with bridge := .shortBrake } } else s

theorem sets_regenStopped {l : List Fld} (s : State) : Sets l s (regenStopped s) := .ite (.of_eq rfl rfl) .refl

theorem bridge_regenStopped (s : State) : (regenStopped s).spn.bridge ≠ .regen := by
  unfold regenStopped
  split
  · exact nofun
  · assumption

theorem ends_chopOpen {s : State} {ma : Nat} (less : ma < 500) (on : flag s F.PWS_STAT_CLAMP_ON = true)
    (first : flag s F.PWS_FAULT_CHOP_OPEN = false) : Ends (.chopOpen ma) s (fun t =>
      flag t F.PWS_FAULT_CHOP_OPEN = true ∧ flag t F.PWS_CLAMP_REGEN_EN = false ∧ t.spn.bridge ≠ .regen ∧
      fld t F.PWS_BRK_I_I = ma) := by
  have after : Sets [] (chopOpened s ma) (sendFault (regenStopped (chopOpened s ma)) .pws 624 FK.pwsChopOpen 5 0) :=
    (sets_regenStopped _).trans (.sendFault ..)
  refine ⟨_, congrArg Host.Outcome.next (if_pos ⟨less, on, first⟩), ?_, ?_, ?_, ?_⟩
  · refine (after.flag _ _).trans ?_
    simp (disch := decide) only [chopOpened, setFlds, flag_setFld_other, flag_setFld_same]
    rfl
  · refine (after.flag _ _).trans ?_
    simp (disch := decide) only [chopOpened, setFlds, flag_setFld_same]
    rfl
  · rw [spn_of_unitState (unitState_sendFault ..)]
    exact bridge_regenStopped (chopOpened s ma)
  · refine (after.fld _ _).trans ?_
    simp (disch := decide) only [chopOpened, setFlds, fld_setFld_other, fld_setFld_same]
    exact Nat.mod_eq_of_lt (Nat.lt_trans less (by decide))

/-- CHOP_STUCK latched, before it is reported (R253). -/
def chopStuckLatched (s : State) (ma : Nat) : State :=
  setFlds s 0 [(F.PWS_BRK_I_I, min ma 4095), (F.PWS_FAULT_CHOP_STUCK, 1)]

/-- The report of CHOP_STUCK, before SPN hears of it. -/
def chopStuckReported (s : State) (ma : Nat) : State :=
  let t := sendFault (chopStuckLatched s ma) .pws 624 FK.pwsChopStuck 7 0
  raiseSource (evrEvent t 6 7 625 (rd t .PWS_FAULT 0)) 625

theorem chopStuckReported_fields (s : State) (ma : Nat) : Sets [] (chopStuckLatched s ma) (chopStuckReported s ma) ∧
    (chopStuckReported s ma).spn = s.spn ∧ pendingBit (chopStuckReported s ma) 625 = true := by
  unfold chopStuckReported
  extract_lets t
  have entered : Writes [] t (evrEvent t 6 7 625 (rd t .PWS_FAULT 0)) :=
    .of_keeps (keeps_evrEvent (bs := reportBlocks) _ _ _ _ _ _ _ _ .of (by decide))
  refine ⟨((Sets.sendFault ..).trans (.of_writes entered (List.nil_subset _))).trans (.raiseSource ..), ?_,
    pendingBit_raiseSource ..⟩
  rw [spn_of_unitState (unitState_raiseSource ..), spn_of_unitState (unitState_evrEvent ..),
    spn_of_unitState (unitState_sendFault ..)]
  rfl

theorem ends_chopStuck {s : State} {ma : Nat} (more : 200 < ma) (off : flag s F.PWS_STAT_CLAMP_ON = false)
    (first : flag s F.PWS_FAULT_CHOP_STUCK = false) : Ends (.chopStuck ma) s (fun t =>
      flag t F.PWS_FAULT_CHOP_STUCK = true ∧ pendingBit t 625 = true ∧ spnState t = spFault ∧
      (t.spn.bridge = if spnState s = spFault then s.spn.bridge else .highZ)) := by
  obtain ⟨reported, spn, source⟩ := chopStuckReported_fields s ma
  have fault := powerFaulted_spnPowerFault (chopStuckReported s ma)
  have spared : Spares false (chopStuckReported s ma) (spnPowerFault (chopStuckReported s ma)) :=
    .ite .refl (spares_enterFault ..)
  have same : spnState (chopStuckReported s ma) = spnState s := by
    rw [spnState, reported.fld _ _]
    simp (disch := decide) only [chopStuckLatched, setFlds, fld_setFld_other, spnState]
  refine ⟨_, congrArg Host.Outcome.next (if_pos ⟨more, off, first⟩), ?_, spared.pend _ source, fault.state, ?_⟩
  · refine (fault.sets.flag _ _).trans ((reported.flag _ _).trans ?_)
    simp (disch := decide) only [chopStuckLatched, setFlds, flag_setFld_same]
    rfl
  · refine fault.bridge.trans ?_
    rw [same, spn]

/-! ### Temperature and drivers (R247, R248) -/

/-- The die's temperature taken with a latch. -/
def dieLatched (s : State) (temp : Nat) (f : Fld) : State := setFlds s 0 [(F.PWS_TEMP_TEMP, min temp 1023), (f, 1)]

theorem ends_thermalWarning {s : State} {temp : Nat} (hot : 580 ≤ temp) : Ends (.thermalWarning temp) s (fun t =>
      flag t F.PWS_FAULT_THERM_WARN = true ∧ fld t F.PWS_TEMP_TEMP = min temp 1023 ∧ t.spn = s.spn) := by
  have report := Sets.sendFault (l := []) (dieLatched s temp F.PWS_FAULT_THERM_WARN) .pws 624 FK.pwsThermal 4 0
  refine ⟨_, congrArg Host.Outcome.next (if_pos hot), (report.flag _ _).trans ?_, (report.fld _ _).trans ?_,
    spn_of_unitState (unitState_sendFault ..)⟩
  · simp (disch := decide) only [dieLatched, setFlds, flag_setFld_same]
    rfl
  · simp (disch := decide) only [dieLatched, setFlds, fld_setFld_other, fld_setFld_same]
    exact Nat.mod_eq_of_lt (Nat.lt_succ_of_le (Nat.min_le_right ..))

/-- The thermal retract begun and reported, before SPN hears of it. -/
def thermalReported (s : State) (temp : Nat) : State :=
  sendFault (startRetract (dieLatched s temp F.PWS_FAULT_THERM_SHUT) retractThermal) .pws 624 FK.pwsThermal 7 0

theorem ends_thermalShutdown {s : State} {temp : Nat} (hot : 680 ≤ temp) : Ends (.thermalShutdown temp) s (fun t =>
      flag t F.PWS_FAULT_THERM_SHUT = true ∧ t.spn.retract = some (s.spn.retract.getD retractThermal) ∧
      spnState t = spFault) := by
  have fault := powerFaulted_spnPowerFault (thermalReported s temp)
  obtain ⟨cte, begun⟩ := startRetract_eq (dieLatched s temp F.PWS_FAULT_THERM_SHUT) retractThermal
  have drives : Sets entryFlds (dieLatched s temp F.PWS_FAULT_THERM_SHUT)
      (startRetract (dieLatched s temp F.PWS_FAULT_THERM_SHUT) retractThermal) := by
    rw [begun]
    exact .of_eq rfl rfl
  have after : Sets entryFlds (dieLatched s temp F.PWS_FAULT_THERM_SHUT) (spnPowerFault (thermalReported s temp)) :=
    (drives.trans (.sendFault ..)).trans fault.sets
  refine ⟨spnPowerFault (thermalReported s temp), congrArg Host.Outcome.next (if_pos hot), (after.flag _ _).trans ?_,
    fault.retract.trans ?_, fault.state⟩
  · simp (disch := decide) only [dieLatched, setFlds, flag_setFld_same]
    rfl
  · rw [thermalReported, spn_of_unitState (unitState_sendFault ..), begun]
    rfl

/-- The shorted driver off, unless a retract has the drivers (R247, R249). -/
def vcmOff (s : State) (a : Nat) : State := if s.spn.retract.isSome then s else setCte s a { cteOf s a with vcm := 0 }

theorem vcmOff_fcl (s : State) (a : Nat) : (vcmOff s a).fcl = s.fcl := by
  unfold vcmOff
  split <;> rfl

/-- VCM_SHORT latched for an actuator. -/
def vcmShorted (s : State) (a : Nat) : State :=
  setFld (vcmOff s a) F.PWS_FAULT_VCM_SHORT 0 (fld s F.PWS_FAULT_VCM_SHORT ||| 2 ^ a)

theorem ends_vcmShort {s : State} {a : Nat} (ha : a < s.part.acts) : Ends (.vcmShort a) s (fun t =>
      fld t F.PWS_FAULT_VCM_SHORT = (fld s F.PWS_FAULT_VCM_SHORT ||| 2 ^ a) % 16 ∧
      t.fcl.fatal = s.fcl.fatal ++ [faultMsg (632 + a) FK.pwsVcmShort 7 0]) := by
  have report := Sets.sendFault (l := []) (vcmShorted s a) .pws (632 + a) FK.pwsVcmShort 7 0
  obtain ⟨waiting, sent⟩ := sendFault_fatal (vcmShorted s a) .pws (632 + a) FK.pwsVcmShort 0
  refine ⟨sendFault (vcmShorted s a) .pws (632 + a) FK.pwsVcmShort 7 0, congrArg Host.Outcome.next (if_pos ha), ?_, ?_⟩
  · exact (report.fld _ _).trans (fld_setFld_same _ _ _ _ (by decide))
  · rw [sent, vcmShorted, setFld_fcl, vcmOff_fcl]

theorem mact_mactZero {s : State} {a : Nat} (ha : a ∈ List.range s.part.acts) : (cteOf (mactZero s) a).mact = 0 := by
  rw [mactZero, cteOf_each_setCte (fun c => { c with mact := 0 }) List.nodup_range, if_pos ha]

/-- BOOST_OK fallen and its latch set (R248). -/
def boostLost (s : State) : State := setFlds s 0 [(F.PWS_STAT_BOOST_OK, 0), (F.PWS_FAULT_BOOST, 1)]

theorem ends_boostFault {s : State} (good : flag s F.PWS_STAT_BOOST_OK = true) : Ends .boostFault s (fun t =>
      flag t F.PWS_STAT_BOOST_OK = false ∧ flag t F.PWS_FAULT_BOOST = true ∧
      (∀ a ∈ List.range s.part.acts, (cteOf t a).mact = 0)) := by
  have after : Writes [] (boostLost s) (sendFault (mactZero (boostLost s)) .pws 624 FK.pwsBoost 5 0) :=
    (Writes.of_keeps (keeps_mactZero (boostLost s)) (List.nil_subset _)).trans (.sendFault ..)
  refine ⟨_, congrArg Host.Outcome.next (if_pos good), (after.flag _ _).trans ?_, (after.flag _ _).trans ?_, fun a ha => ?_⟩
  · simp (disch := decide) only [boostLost, setFlds, flag_setFld_other, flag_setFld_same]
    rfl
  · simp (disch := decide) only [boostLost, setFlds, flag_setFld_same]
    rfl
  · rw [cteOf_of_unitState (unitState_sendFault ..)]
    exact mact_mactZero ha

/-! ### The latches (R254, R267) -/

/-- The latches written: VM_TRIP takes part only while VM is low enough. -/
def latchesWritten (s : State) (v : Word) : Word := if fld s F.PWS_VOLT_VM < 13200 then v else setBits v 2 1 0

theorem exec_pwsFaultClear (v : Word) (s : State) : exec (.pwsFaultClear v) s = .next
    (if bit (latchesWritten s v) 2 && flag s F.PWS_FAULT_VM_TRIP then
      setFlag (wr s .PWS_FAULT 0 (rd s .PWS_FAULT 0 &&& ~~~ latchesWritten s v)) F.PWS_STAT_RESTART_BLOCK 0 false
    else wr s .PWS_FAULT 0 (rd s .PWS_FAULT 0 &&& ~~~ latchesWritten s v)) := by
  change execPwsFaultClear v s = _
  rw [flag_eq_bit _ _ _ rfl, latchesWritten, execPwsFaultClear]
  simp only [decide_eq_true_eq]

theorem ends_pwsFaultClear_low {s : State} {v : Word} (low : fld s F.PWS_VOLT_VM < 13200) : Ends (.pwsFaultClear v) s (fun t =>
      rd t .PWS_FAULT 0 = rd s .PWS_FAULT 0 &&& ~~~ v ∧
      flag t F.PWS_STAT_RESTART_BLOCK =
        (flag s F.PWS_STAT_RESTART_BLOCK && !(bit v 2 && flag s F.PWS_FAULT_VM_TRIP))) := by
  have written : latchesWritten s v = v := if_pos low
  refine ⟨_, exec_pwsFaultClear v s, ?_⟩
  rw [written]
  cases bit v 2 && flag s F.PWS_FAULT_VM_TRIP
  · refine ⟨rd_wr_same .., ?_⟩
    rw [if_neg Bool.false_ne_true, flag, fld_eq_of_rd (rd_wr_ne _ _ (.inl (by decide))), ← flag]
    simp
  · refine ⟨(rd_setFld_ne _ _ (.inl (by decide))).trans (rd_wr_same ..), ?_⟩
    rw [if_pos rfl, flag_setFlag_same _ _ _ _ (by decide) (by decide)]
    simp

theorem ends_pwsFaultClear_high {s : State} {v : Word} (high : 13200 ≤ fld s F.PWS_VOLT_VM) :
    Ends (.pwsFaultClear v) s (fun t =>
      flag t F.PWS_FAULT_VM_TRIP = flag s F.PWS_FAULT_VM_TRIP ∧
      flag t F.PWS_STAT_RESTART_BLOCK = flag s F.PWS_STAT_RESTART_BLOCK) := by
  have kept : bit (latchesWritten s v) 2 = false := by
    rw [latchesWritten, if_neg (by omega), bit, getLsbD_setBits]
    rfl
  refine ⟨_, (exec_pwsFaultClear v s).trans (congrArg Host.Outcome.next (if_neg (by simp [kept]))), ?_, ?_⟩
  · rw [flag_eq_bit _ _ _ rfl, flag_eq_bit _ _ _ rfl, rd_wr_same]
    simp only [bit, BitVec.getLsbD_and, BitVec.getLsbD_not] at kept ⊢
    rw [kept]
    simp
  · rw [flag, fld_eq_of_rd (rd_wr_ne _ _ (.inl (by decide))), ← flag]

theorem ends_pwsBlockReset (s : State) : Ends .pwsBlockReset s (fun t =>
      rd t .PWS_FAULT 0 = rd s .PWS_FAULT 0 ∧
      flag t F.PWS_STAT_RESTART_BLOCK = flag s F.PWS_STAT_RESTART_BLOCK ∧ flag t F.CKR_BRST_PWS = false) := by
  have dropped := writes_calDrop s (fun n => decide (36 ≤ n ∧ n < 40))
  exact ⟨_, rfl, (rd_setFld_ne _ _ (.inl (by decide))).trans (dropped.regs _ _ (by decide) (by decide)),
    (flag_setFld_other _ _ _ _ (by decide)).trans (dropped.flag _ _), flag_setFlag_same _ _ _ _ (by decide) (by decide)⟩

end Sys2Proof.Machine

end

section
-- `decide` waits for the kernel: a thread for each of these proofs would exhaust the memory limit.
set_option Elab.async false

namespace Sys2Proof.Machine

/-! ### Actuators parked one by one at the loss of their link (R21, R193) -/

/-- The registers that answer an actuator's seeks and commands. -/
def answerRegs : List Reg := [.CTE_CNT, .CTE_SEEK, .CTE_CMD]

theorem writes_setCte {l : List Reg} (s : State) (a : Nat) (c : Cte) : Writes l s (setCte s a c) := .of_eq rfl rfl

theorem writes_seekDone (s : State) (a : Nat) (q : SeekReq) (status : Nat) : Writes answerRegs s (seekDone s a q status) := by
  unfold seekDone
  extract_lets t u
  have counted : Writes answerRegs s t := by
    simp only [t]
    split
    · exact .bump _ _ _ _
    · exact .bump _ _ _ _
    · exact .bump _ _ _ _
    · exact .refl
  have answered : Writes answerRegs t u := by
    simp only [u]
    split
    · exact writes_mediaDone ..
    · exact .setFlds _ _ _
  exact (counted.trans answered).trans (.raiseSource _ _)

theorem writes_endSeek (s : State) (a status : Nat) : Writes answerRegs s (endSeek s a status) := by
  unfold endSeek
  split
  · exact (writes_setCte ..).trans (writes_seekDone ..)
  · exact .refl

theorem writes_cmdDone (s : State) (a status : Nat) : Writes answerRegs s (cmdDone s a status) :=
  (Writes.setFlds _ _ _).trans (.raiseSource _ _)

theorem writes_endCmd (s : State) (a : Nat) (which : List CteCmd) (status : Nat) :
    Writes answerRegs s (endCmd s a which status) := by
  unfold endCmd
  split
  · exact .ite ((writes_setCte ..).trans (writes_cmdDone ..)) .refl
  · exact .refl

theorem writes_abortRequests (s : State) (a : Nat) : Writes answerRegs s (abortRequests s a) := by
  unfold abortRequests
  extract_lets c t u
  have taken : Writes answerRegs s t := writes_setCte ..
  have aborted : Writes answerRegs s u := taken.trans (.each (fun q v => writes_seekDone v a q 0x61) _ _)
  split
  · exact aborted.trans (writes_cmdDone ..)
  · exact aborted.trans (writes_cmdDone ..)
  · exact aborted

/-- The off-track flag is no actuator's state. -/
theorem cteState_raiseOt (s : State) (a b : Nat) : cteState (raiseOt s a) b = cteState s b := by
  unfold raiseOt
  extract_lets c t
  rw [cteState, (runsCut_wrpCut t a 0x50).regs.fld _ _]
  exact fld_setFld_other _ _ _ _ (by decide)

/-- A state set is that actuator's alone. -/
theorem cteState_setCteState (s : State) (a b : Nat) {st : Nat} (small : st < 16) :
    cteState (setCteState s a st) b = if b = a then st else cteState s b := by
  unfold setCteState
  extract_lets u c t on v
  have dropped : Writes calRegs s u := .ite (writes_calDrop ..) .refl
  have stored : cteState t b = if b = a then st else cteState s b := by
    by_cases e : b = a
    · rw [if_pos e, e]
      exact (fld_setFld_same _ _ _ _ (by decide)).trans (Nat.mod_eq_of_lt small)
    · rw [if_neg e]
      exact (fld_setFld_ne _ _ (.inr e)).trans (dropped.fld _ _)
  have readied : cteState v b = cteState t b := (writes_setReady ..).fld _ _
  rw [← stored, ← readied]
  split
  · rfl
  · exact cteState_raiseOt ..

theorem cteState_enterParked (s : State) (a b : Nat) :
    cteState (enterParked s a) b = if b = a then stParked else cteState s b := by
  unfold enterParked
  extract_lets c t
  rw [cteState, (writes_endCmd ..).fld _ _]
  exact cteState_setCteState t a b (by decide)

/-- What is pending on an actuator whose link is lost completes SEEK_ABORTED, and it is parked. -/
def linkPark (a : Nat) (s : State) : State :=
  if cteState s a = stParked then s
  else enterParked (abortRequests (endCmd (endSeek s a 0x61) a [.load, .resume] 0x61) a) a

theorem cteState_linkPark (a b : Nat) (s : State) :
    cteState (linkPark a s) b = if b = a then stParked else cteState s b := by
  have answered : Writes answerRegs s (abortRequests (endCmd (endSeek s a 0x61) a [.load, .resume] 0x61) a) :=
    ((writes_endSeek ..).trans (writes_endCmd ..)).trans (writes_abortRequests ..)
  unfold linkPark
  split
  · rename_i parked
    split
    · rename_i e
      rw [e, parked]
    · rfl
  · rw [cteState_enterParked, cteState, answered.fld _ _, ← cteState]

/-- With the link lost every present actuator is parked. -/
theorem cteState_linkParked {s : State} {a : Nat} (ha : a ∈ List.range s.part.acts) : cteState (linkParked s) a = stParked := by
  refine each_reaches (P := fun u => cteState u a = stParked) (f := linkPark) (fun u => ?_) (fun b u parked => ?_) ha s
  · rw [cteState_linkPark, if_pos rfl]
  · rw [cteState_linkPark]
    split
    · rfl
    · exact parked

/-! ### The retract (R21, R249) -/

/-- The cause of a retract at the loss of the link. -/
def lossCause (s : State) : Nat := if s.ckr.inReset then retractAnnounced else retractUnannounced

theorem ends_linkLoss (s : State) : Ends .linkLoss s (fun t =>
      flag t F.PWS_STAT_LINK_OK = false ∧ t.spn.retract = some (s.spn.retract.getD (lossCause s)) ∧
      (∀ a ∈ List.range s.part.acts, cteState t a = stParked)) := by
  obtain ⟨cte, begun⟩ := startRetract_eq (linkParked (setFlag s F.PWS_STAT_LINK_OK 0 false)) (lossCause s)
  have retract := (spares_linkParked (pl := false) (setFlag s F.PWS_STAT_LINK_OK 0 false)).retract
  refine ⟨startRetract (linkParked (setFlag s F.PWS_STAT_LINK_OK 0 false)) (lossCause s), rfl, ?_, ?_, fun a ha => ?_⟩
  · rw [flag, fld_eq_of_rd ((keeps_startRetract ..).regs _ _ List.not_mem_nil),
      fld_eq_of_rd ((keeps_linkParked _).regs _ _ (by decide)), ← flag]
    exact flag_setFlag_same _ _ _ _ (by decide) (by decide)
  · rw [begun, retract]
    rfl
  · rw [cteState, fld_eq_of_rd ((keeps_startRetract ..).regs _ _ List.not_mem_nil)]
    exact cteState_linkParked ha

/-- The drive of a retract changes the actuators' contexts alone. -/
theorem retractDrive_eq (s : State) (code : Int) : ∃ cte, retractDrive s code = { s with cte := cte } := each_setCte_eq _ _ _

theorem drive_retractDrive {s : State} {a : Nat} (code : Int) (ha : a ∈ List.range s.part.acts) :
    (cteOf (retractDrive s code) a).vcm = code ∧ (cteOf (retractDrive s code) a).mact = 0 := by
  rw [retractDrive, cteOf_each_setCte (fun c => { c with vcm := code, mact := 0 }) List.nodup_range, if_pos ha]
  exact ⟨rfl, rfl⟩

/-- A retract that has run out, with the bridge it leaves. -/
def retracted (s : State) (b : Bridge) : State := retractDrive { s with spn := { s.spn with retract := none, bridge := b } } 0

theorem ends_retractEnd_unannounced {s : State} (unannounced : s.spn.retract = some retractUnannounced) :
    Ends .retractEnd s (fun t =>
      t.spn.retract = none ∧ t.spn.bridge = .shortBrake ∧ flag t F.PWS_FAULT_LINK_LOSS = true ∧
      t.fcl.fatal = s.fcl.fatal ++ [faultMsg 624 FK.pwsLink 7 0]) := by
  have meaning : exec .retractEnd s = .next
      (sendFault (setFlag (retracted s .shortBrake) F.PWS_FAULT_LINK_LOSS 0 true) .pws 624 FK.pwsLink 7 0) := by
    change execRetractEnd s = _
    rw [execRetractEnd, unannounced]
    rfl
  have report := Sets.sendFault (l := []) (setFlag (retracted s .shortBrake) F.PWS_FAULT_LINK_LOSS 0 true) .pws 624 FK.pwsLink 7 0
  obtain ⟨waiting, sent⟩ := sendFault_fatal (setFlag (retracted s .shortBrake) F.PWS_FAULT_LINK_LOSS 0 true) .pws 624 FK.pwsLink 0
  obtain ⟨cte, drives⟩ := retractDrive_eq { s with spn := { s.spn with retract := none, bridge := .shortBrake } } 0
  have spn : (retracted s .shortBrake).spn = { s.spn with retract := none, bridge := .shortBrake } := by rw [retracted, drives]
  have fcl : (retracted s .shortBrake).fcl = s.fcl := by rw [retracted, drives]
  refine ⟨_, meaning, ?_, ?_, (report.flag _ _).trans (flag_setFlag_same _ _ _ _ (by decide) (by decide)), ?_⟩
  · rw [sent, setFlag_spn, spn]
  · rw [sent, setFlag_spn, spn]
  · rw [sent, setFlag_fcl, fcl]

theorem ends_retractEnd_other {s : State} {c : Nat} (runs : s.spn.retract = some c) (other : c ≠ retractUnannounced) :
    Ends .retractEnd s (fun t =>
      t.spn = { s.spn with retract := none, bridge := .highZ } ∧ t.regs = s.regs ∧
      (∀ a ∈ List.range s.part.acts, (cteOf t a).vcm = 0 ∧ (cteOf t a).mact = 0)) := by
  have meaning : exec .retractEnd s = .next (retracted s .highZ) := by
    change execRetractEnd s = _
    rw [execRetractEnd, runs]
    dsimp only
    rw [if_neg other, if_neg other]
    rfl
  obtain ⟨cte, drives⟩ := retractDrive_eq { s with spn := { s.spn with retract := none, bridge := .highZ } } 0
  exact ⟨_, meaning, by rw [retracted, drives], by rw [retracted, drives], fun a ha => drive_retractDrive 0 ha⟩

/-- Settles O15: each fault by its latch, which reports and the spindle leave (`Sets`), and by what SPN makes of it
(`powerFaulted_spnPowerFault`); the link's loss actuator by actuator. -/
theorem powerStage : Obligations.PowerStage := by
  refine ⟨?_, ?_, ?_, ?_, ?_, ?_, ?_, ?_, ?_, ?_, ?_, ?_, ?_, ?_, ?_, ?_, ?_, ?_⟩
  · exact fun s mv low vin vm => ends_vmLow low vin vm
  · exact fun s mv high vm => ends_vmOkRise high vm
  · exact fun s mv reaches => ends_clamp (congrArg Host.Outcome.next (if_pos reaches))
  · exact fun s mv falls => ends_clamp (congrArg Host.Outcome.next (if_pos falls))
  · exact fun s mv high first => ends_vmTrip high first
  · exact fun s ma less on first => ends_chopOpen less on first
  · exact fun s ma more off first => ends_chopStuck more off first
  · exact fun s temp hot => ends_thermalWarning hot
  · exact fun s temp hot => ends_thermalShutdown hot
  · exact fun s a ha => ends_vcmShort ha
  · exact fun s good => ends_boostFault good
  · exact fun s on => ⟨_, congrArg Host.Outcome.next (if_pos on), rfl⟩
  · exact fun s v low => ends_pwsFaultClear_low low
  · exact fun s v high => ends_pwsFaultClear_high high
  · exact fun s => ends_pwsBlockReset s
  · exact fun s => ends_linkLoss s
  · exact fun s unannounced => ends_retractEnd_unannounced unannounced
  · exact fun s c runs other => ends_retractEnd_other runs other

end Sys2Proof.Machine

end
